-- ==== Sys2Proof/Word.lean ====
section
/-! DEFINITION. The word types of the Lannil W8 model and the association list its sparse state is held in. -/

namespace Sys2Proof

/-- A 32-bit register or tile-register word (R7). -/
abbrev Word := BitVec 32

/-- A byte of tile SRAM or field store. -/
abbrev Byte := BitVec 8

/-- A sparse map: key and value pairs; a key not listed has the value its reader names. -/
abbrev Smap (κ α : Type) := List (κ × α)

end Sys2Proof
end

