-- ==== Sys2Proof/Syntax.lean ====
section
/-! DEFINITION. The commands: one constructor of `Instr` per row of spec/opcode_table.json, each an occasion at which
the Lannil W8 acts. Operands name the unit concerned and carry what comes from outside the wafer (assumption 1). -/

namespace Sys2Proof

/-- Who makes an access (R8, R836): a host port's function, a Keeper (0–63 a Field Keeper, 64 the Station Keeper), a
group of a tile, JTAG, or a hardware block. -/
inductive Requester where
  | host (port fn : Nat)
  | keeper (n : Nat)
  | tile (t g : Nat)
  | jtag
  | block
  deriving DecidableEq, Repr

/-- What an access to the register map names (R8, R9): the address of its lowest byte, and how many bytes it has. -/
structure SizedAccess where
  addr : Nat
  size : Nat := 4
  deriving DecidableEq, Repr

/-- What a mesh link does to a flit that crosses it (R339, R378): nothing, a corrected single-bit error, an
uncorrectable error in the head, or one in the body flit named. -/
inductive LinkState where
  | good
  | corrected
  | headBad
  | bodyBad (k : Nat)
  deriving DecidableEq, Repr

/-! ### The Efsen image (spec/13_efsen_image.md, spec/14_schedule_contract_and_characters.md)

An image as it lies in host memory, field by field. Digests and signatures are held as what checking them answers:
the model computes no SHA-384 and no ECDSA (assumption 12). -/

/-- A certificate (R584): `layoutOk` says that its MAGIC, KIND and RSV bytes are as R584 has them, `sigOk` that its
signature verifies under its issuer's key. -/
structure ImgCert where
  layoutOk : Bool
  allow : Nat
  ownerId : Nat
  serial : Nat
  sigOk : Bool
  deriving DecidableEq, Repr

/-- A section-table entry (R579): `digestOk` says that the section matches its DIGEST when stage 4 reads it, `changed`
that a later read of it in validation does not. -/
structure ImgSection where
  type : Nat
  records : Nat
  offset : Nat
  length : Nat
  digestOk : Bool
  changed : Bool
  deriving DecidableEq, Repr

/-- A SECTORS record. -/
structure ImgSector where
  sector : Nat
  epochGroup : Nat
  clockGroup : Nat
  deriving DecidableEq, Repr

/-- A PLACEMENT record: the sector of a logical bay, 0xFFF for none, and the roles of its 256 tiles. -/
structure ImgBay where
  lbay : Nat
  sector : Nat
  roles : List Nat
  deriving DecidableEq, Repr

/-- A ROUTES record. `scope` is 1 for an inter-sector route; `group` 0xFFFF for a unicast route. -/
structure ImgRoute where
  route : Nat
  src : Nat
  dst : Nat
  allow : Nat
  scope : Nat
  group : Nat
  deriving DecidableEq, Repr

/-- An MCAST record. -/
structure ImgMcast where
  group : Nat
  src : Nat
  dests : List Nat
  deriving DecidableEq, Repr

/-- A segment of a TILES record. -/
structure ImgSeg where
  blob : Nat
  blobOff : Nat
  sramOff : Nat
  len : Nat
  deriving DecidableEq, Repr

/-- A TILES record. -/
structure ImgTile where
  tile : Nat
  split : Nat
  wdog : Nat
  segs : List ImgSeg
  deriving DecidableEq, Repr

/-- A BLOBS record, its bytes as little-endian words. -/
structure ImgBlob where
  blob : Nat
  words : List Word
  deriving DecidableEq, Repr

/-- A CONSTANTS record (R581). -/
structure ImgConst where
  tile : Nat
  off : Nat
  kind : Nat
  target : Nat
  deriving DecidableEq, Repr

/-- A CHANNELS record; `route` is none for an in-slot or a LOCAL slot. -/
structure ImgChan where
  tile : Nat
  slot : Nat
  route : Option Nat
  cfg : Nat
  dest : Nat
  window : Nat
  done_ : Nat
  deriving DecidableEq, Repr

/-- A STEERING record. -/
structure ImgRule where
  tile : Nat
  rule : Nat
  word : Nat
  param : Nat
  deriving DecidableEq, Repr

/-- A LENS record: the descriptors as 2,048 words, 16 to a descriptor. -/
structure ImgLens where
  field : Nat
  lens : Nat
  mode : Nat
  owners : List Nat
  descs : List Nat
  preloads : List Nat
  deriving DecidableEq, Repr

/-- An MV record. -/
structure ImgMv where
  field : Nat
  desc : Nat
  words : List Nat
  deriving DecidableEq, Repr

/-- A REGIONS record. -/
structure ImgRegion where
  field : Nat
  region : Nat
  cfg : Nat
  span : Nat
  deriving DecidableEq, Repr

/-- A BUOYS record. -/
structure ImgBuoy where
  field : Nat
  index : Nat
  cfg : Nat
  init : Nat
  target : Nat
  deriving DecidableEq, Repr

/-- A SPEC record: the 16 words of the sector's tag tree. -/
structure ImgSpec where
  sector : Nat
  parents : List Nat
  deriving DecidableEq, Repr

/-- A STAGING record (R528): source offset, length in lines, target field, region and line offset, lanes as (entry
tile, bay within the target field) pairs, and lead. -/
structure ImgTransfer where
  transfer : Nat
  device : Nat
  source : Nat
  lines : Nat
  field : Nat
  region : Nat
  offset : Nat
  lanes : List (Nat × Nat)
  lead : Nat
  deriving DecidableEq, Repr

/-- A HOST record. -/
structure ImgHost where
  sector : Nat
  slot : Nat
  port : Nat
  fn : Nat
  ring : Nat
  deriving DecidableEq, Repr

/-- A destage of a character (R533, R615). -/
structure ImgDestage where
  field : Nat
  region : Nat
  device : Nat
  offset : Nat
  length : Nat
  target : Nat
  deriving DecidableEq, Repr

/-- A valid character entry (R615): its timetable length T, stretch budget B, (E_ACT, P_REST) of each point, (DEV,
LATENCY, RESULTS) of each slot, and the transfers it names. -/
structure ImgChar where
  id : Nat
  point : Nat
  t : Nat
  b : Nat
  power : List (Nat × Nat)
  slots : List (Nat × Nat × Nat)
  transfers : List Nat
  destages : List ImgDestage
  deriving DecidableEq, Repr

/-- A character table (R613, R614): points as (core, lens) in MHz, and each compute tile with its eight group masks
(R616). -/
structure ImgTable where
  sector : Nat
  count : Nat
  reference : Nat
  recovery : Nat
  fallback : Nat
  points : List (Nat × Nat)
  slots : Nat
  chars : List ImgChar
  tiles : List (Nat × List Nat)
  deriving DecidableEq, Repr

/-- An Efsen image (R576, R577). `digest` holds the 12 words of its image digest (R578), `rsvOk` says that every RSV
byte of the header is 0, `scatter` is the length of the scatter list that names it. -/
structure Image where
  magic : Nat
  format : Nat
  kind : Nat
  grade : Nat
  tool : Nat
  svn : Nat
  flags : Nat
  imageId : Nat
  size : Nat
  sigOffset : Nat
  periodMin : Nat
  periodMax : Nat
  settleLen : Nat
  sectorCount : Nat
  baseDigest : List Nat
  digest : List Nat
  rsvOk : Bool
  scatter : Nat
  owner : ImgCert
  key : ImgCert
  signatureOk : Bool
  table : List ImgSection
  sectors : List ImgSector
  placement : List ImgBay
  routes : List ImgRoute
  mcast : List ImgMcast
  tiles : List ImgTile
  blobs : List ImgBlob
  constants : List ImgConst
  channels : List ImgChan
  steering : List ImgRule
  lenses : List ImgLens
  mv : List ImgMv
  regions : List ImgRegion
  buoys : List ImgBuoy
  spec : List ImgSpec
  characters : List ImgTable
  staging : List ImgTransfer
  host : List ImgHost
  deriving DecidableEq, Repr

/-! ### What tests and measurements find -/

/-- What the power-up of a field measures and finds (R669, R765, R768): for each core level from 500 MHz in steps of 10 MHz
the lowest VDDC step in mV at which every LIT bay meets it, the bays whose replica needs more than 840 mV at 1,000 MHz, the
bays whose gates trip as (bay, step, current in 0.25 A), what BIST and lens retest find bad as (kind, place, detail) of
a defect record, the failing item of R765, if one fails, with the rail that fails its first check where that is item 2 (R682), the bay whose margin the trim finds smallest (R673), and
the skew that the Keeper measures after a field reset (R127). -/
structure FieldTest where
  need : List Nat
  aged : List Nat
  trips : List (Nat × Nat × Nat)
  bad : List (Nat × Nat × Nat)
  fail : Option Nat
  worst : Nat
  skew : Nat := 0
  rail : Nat := 0
  deriving DecidableEq, Repr

/-- A rail's telemetry (R642): voltage in mV, current in A, whether STATUS_WORD shows a fault, whether the transaction
timed out. -/
structure RailReading where
  rail : Nat
  vout : Nat
  iout : Nat
  fault : Bool
  timeout : Bool
  deriving DecidableEq, Repr

/-- A firmware copy as the boot ROM finds it (R755): whether its signature verifies, its SVN and version. -/
structure FwCopy where
  sigOk : Bool
  svn : Nat
  major : Nat
  minor : Nat
  deriving DecidableEq, Repr

/-- The commands. Tile instructions name the tile and group whose next instruction issues. -/
inductive Instr where

  /-- STATION_BEACON (R81): the station beacon fires. -/
  | stationBeacon
  /-- FIELD_WATCH_BEGIN (R138): the beacon's copy reaches field `f` at instant `at_` (ns). -/
  | fieldWatchBegin (f at_ : Nat)
  /-- BEACON_MISSED (R119): no beacon has reached field `f` by E + 32 ns. -/
  | beaconMissed (f : Nat)
  /-- WORK_BEGIN (R139): field `f` reaches watch cycle 512. -/
  | workBegin (f : Nat)
  /-- SETTLE_BEGIN (R95): field `f` reaches SETTLE cycle 0. -/
  | settleBegin (f : Nat)
  /-- VERDICT_VOTE (R99): the vote of field `from_` for `sector` reaches field `to_`. -/
  | verdictVote (to_ from_ sector : Nat) (readable : Bool)
  /-- SPEC_SWEEP (R566): the sweep cycle of `sector` at its home field `f`. -/
  | specSweep (f sector : Nat)
  /-- COMMIT_POINT (R95): field `f` reaches its commit point. -/
  | commitPoint (f : Nat)
  /-- JOURNAL_APPLY (R512): field `f` applies its next committed journal entry. -/
  | journalApply (f : Nat)
  /-- HANDOVER_BEGIN (R92): field `f` reaches cycle N - 256: its energy meter reads `nanojoules`, its replicas `margins` in 0.1 %, and its Keeper writes its heartbeat or does not. -/
  | handoverBegin (f nanojoules : Nat) (margins : List Nat) (beat : Bool)
  /-- REST_INTERVAL_BEGIN (R86): field `f` reaches its rest interval; the rail sense reads `senseMv`. -/
  | restIntervalBegin (f senseMv : Nat)
  /-- PLANNING_ROUND (R685): the Station Keeper runs the round of snapshot Q, finishing `atNs` after the beacon. -/
  | planningRound (atNs : Nat)
  /-- NOP (R206): group `g` of tile `t` issues NOP. -/
  | nop (t g : Nat)
  /-- END (R241): group `g` of tile `t` issues END. -/
  | end_ (t g : Nat)
  /-- END_OF_WORK (R148): a waiting END of the group retires. -/
  | endOfWork (t g : Nat)
  /-- BRA (R206): group `g` of tile `t` issues BRA. -/
  | bra (t g : Nat)
  /-- BANY (R206): group `g` of tile `t` issues BANY. -/
  | bany (t g : Nat)
  /-- BNONE (R206): group `g` of tile `t` issues BNONE. -/
  | bnone (t g : Nat)
  /-- PUSHIF (R206): group `g` of tile `t` issues PUSHIF. -/
  | pushif (t g : Nat)
  /-- ELSE (R206): group `g` of tile `t` issues ELSE. -/
  | else_ (t g : Nat)
  /-- POP (R206): group `g` of tile `t` issues POP. -/
  | pop (t g : Nat)
  /-- MASK (R206): group `g` of tile `t` issues MASK. -/
  | mask (t g : Nat)
  /-- BADD (R235): group `g` of tile `t` issues BADD. -/
  | badd (t g : Nat)
  /-- BARRIVE (R235): group `g` of tile `t` issues BARRIVE. -/
  | barrive (t g : Nat)
  /-- BSET (R235): group `g` of tile `t` issues BSET. -/
  | bset (t g : Nat)
  /-- BCLEAR (R235): group `g` of tile `t` issues BCLEAR. -/
  | bclear (t g : Nat)
  /-- BAWAITGE (R236): group `g` of tile `t` issues BAWAITGE. -/
  | bawaitge (t g : Nat)
  /-- BAWAITFLAG (R236): group `g` of tile `t` issues BAWAITFLAG. -/
  | bawaitflag (t g : Nat)
  /-- WATCH_RELEASE (R395): an await has become the group's next instruction. -/
  | watchRelease (t g : Nat)
  /-- ADD (R208): group `g` of tile `t` issues ADD. -/
  | add (t g : Nat)
  /-- SUB (R208): group `g` of tile `t` issues SUB. -/
  | sub (t g : Nat)
  /-- MUL (R208): group `g` of tile `t` issues MUL. -/
  | mul (t g : Nat)
  /-- AND (R208): group `g` of tile `t` issues AND. -/
  | and (t g : Nat)
  /-- OR (R208): group `g` of tile `t` issues OR. -/
  | or (t g : Nat)
  /-- XOR (R208): group `g` of tile `t` issues XOR. -/
  | xor (t g : Nat)
  /-- SHL (R208): group `g` of tile `t` issues SHL. -/
  | shl (t g : Nat)
  /-- SHR (R208): group `g` of tile `t` issues SHR. -/
  | shr (t g : Nat)
  /-- SAR (R208): group `g` of tile `t` issues SAR. -/
  | sar (t g : Nat)
  /-- MIN (R208): group `g` of tile `t` issues MIN. -/
  | min (t g : Nat)
  /-- MAX (R208): group `g` of tile `t` issues MAX. -/
  | max (t g : Nat)
  /-- MINU (R208): group `g` of tile `t` issues MINU. -/
  | minu (t g : Nat)
  /-- MAXU (R208): group `g` of tile `t` issues MAXU. -/
  | maxu (t g : Nat)
  /-- SHFL (R208): group `g` of tile `t` issues SHFL. -/
  | shfl (t g : Nat)
  /-- MOV (R208): group `g` of tile `t` issues MOV. -/
  | mov (t g : Nat)
  /-- MOVI (R209): group `g` of tile `t` issues MOVI. -/
  | movi (t g : Nat)
  /-- MOVHI (R209): group `g` of tile `t` issues MOVHI. -/
  | movhi (t g : Nat)
  /-- ADDI (R209): group `g` of tile `t` issues ADDI. -/
  | addi (t g : Nat)
  /-- FADD (R210): group `g` of tile `t` issues FADD. -/
  | fadd (t g : Nat)
  /-- FSUB (R210): group `g` of tile `t` issues FSUB. -/
  | fsub (t g : Nat)
  /-- FMUL (R210): group `g` of tile `t` issues FMUL. -/
  | fmul (t g : Nat)
  /-- FMA (R210): group `g` of tile `t` issues FMA. -/
  | fma (t g : Nat)
  /-- FMIN (R479): group `g` of tile `t` issues FMIN. -/
  | fmin (t g : Nat)
  /-- FMAX (R479): group `g` of tile `t` issues FMAX. -/
  | fmax (t g : Nat)
  /-- DOT (R211): group `g` of tile `t` issues DOT. -/
  | dot (t g : Nat)
  /-- CMP (R212): group `g` of tile `t` issues CMP. -/
  | cmp (t g : Nat)
  /-- PLOG (R213): group `g` of tile `t` issues PLOG. -/
  | plog (t g : Nat)
  /-- PFROMU (R213): group `g` of tile `t` issues PFROMU. -/
  | pfromu (t g : Nat)
  /-- UFROMP (R213): group `g` of tile `t` issues UFROMP. -/
  | ufromp (t g : Nat)
  /-- CVT (R214): group `g` of tile `t` issues CVT. -/
  | cvt (t g : Nat)
  /-- SFU (R215): group `g` of tile `t` issues SFU. -/
  | sfu (t g : Nat)
  /-- SPEC_BEGIN (R545): group `g` of tile `t` issues SPEC_BEGIN. -/
  | specBegin (t g : Nat)
  /-- SPEC_END (R237): group `g` of tile `t` issues SPEC_END. -/
  | specEnd (t g : Nat)
  /-- SPEC_CONFIRM (R237): group `g` of tile `t` issues SPEC_CONFIRM. -/
  | specConfirm (t g : Nat)
  /-- SPEC_SQUASH (R237): group `g` of tile `t` issues SPEC_SQUASH. -/
  | specSquash (t g : Nat)
  /-- LD (R216): group `g` of tile `t` issues LD. -/
  | ld (t g : Nat)
  /-- ST (R216): group `g` of tile `t` issues ST. -/
  | st (t g : Nat)
  /-- RLD (R221): group `g` of tile `t` issues RLD. -/
  | rld (t g : Nat)
  /-- RLDU (R221): group `g` of tile `t` issues RLDU. -/
  | rldu (t g : Nat)
  /-- RST (R222): group `g` of tile `t` issues RST. -/
  | rst (t g : Nat)
  /-- SENDW (R227): group `g` of tile `t` issues SENDW. -/
  | sendw (t g : Nat)
  /-- SENDV (R227): group `g` of tile `t` issues SENDV. -/
  | sendv (t g : Nat)
  /-- SENDM (R230): group `g` of tile `t` issues SENDM. -/
  | sendm (t g : Nat)
  /-- RELEASE_POINT (R145): the release point of outstanding load number `load` of tile `t`. -/
  | releasePoint (t load : Nat)
  /-- WATCHDOG (R178): the group's watchdog count reaches its limit. -/
  | watchdog (t g : Nat)
  /-- PACKET_HOP (R341): the head of packet `pkt` is routed; `link` is what the link it crosses does to it. -/
  | packetHop (pkt : Nat) (link : LinkState)
  /-- ITEM (R270): `flits` body flits of the ejected ITEM packet `pkt` are pushed. -/
  | item (pkt flits : Nat)
  /-- LANDING_COMPLETION (R259): in-slot `slot` signals the completion of an address-landed item. -/
  | landingCompletion (t slot : Nat)
  /-- RLOAD (R158): the RLOAD packet `pkt` reaches its target tile. -/
  | rload (pkt : Nat)
  /-- RSTORE (R222): the RSTORE packet `pkt` reaches its target tile. -/
  | rstore (pkt : Nat)
  /-- SERVICE_PORT_ACCESS (R156): the service port of tile `t` serves its next request. -/
  | servicePortAccess (t : Nat)
  /-- RDATA (R170): the RDATA packet `pkt` reaches the requesting tile. -/
  | rdata (pkt : Nat)
  /-- RFAIL (R225): the RFAIL packet `pkt` reaches the requesting tile. -/
  | rfail (pkt : Nat)
  /-- RPOISON (R177): the RPOISON packet `pkt` reaches the requesting tile. -/
  | rpoison (pkt : Nat)
  /-- KACCESS (R9, R21, R183): an access of `req` to an offset of tile `t`'s window, a read or a write of a word: its request goes out,
  or, once it has reached the tile, waits for the service port. -/
  | kaccess (req : Requester) (t : Nat) (access : SizedAccess) (write : Option Word)
  /-- KRESP (R183): the KRESP packet `pkt` returns to its requester. -/
  | kresp (pkt : Nat)
  /-- CREDIT (R267): the CREDIT packet `pkt` reaches the sending tile. -/
  | credit (pkt : Nat)
  /-- ACK (R222): the ACK packet `pkt` reaches the storing tile. -/
  | ack (pkt : Nat)
  /-- NACK (R225): the NACK packet `pkt` reaches the storing tile. -/
  | nack (pkt : Nat)
  /-- KREG (R9, R338): an access of Keeper `n` to an offset of the register map, a read or a write of a word: its request goes out, or,
  once it has come to its register, is performed. -/
  | kreg (n : Nat) (access : SizedAccess) (write : Option Word)
  /-- KREG_RESP (R338): the KREG_RESP packet `pkt` is received. -/
  | kregResp (pkt : Nat)
  /-- BUOY_OP (R389): the BUOY_OP packet `pkt` reaches its bay port's buoy block. -/
  | buoyOp (pkt : Nat)
  /-- BUOY_APPLY (R386): an application cycle of buoy block `block` (0–63 a field's, 64 the station's). -/
  | buoyApply (block : Nat)
  /-- BUOY_NOTICE (R397): the BUOY_NOTICE packet `pkt` reaches its tile. -/
  | buoyNotice (pkt : Nat)
  /-- BUOY_ACK (R392): the BUOY_ACK packet `pkt` reaches its tile. -/
  | buoyAck (pkt : Nat)
  /-- BUOY_TRUNK_PACKET (R399): the oldest trunk message is delivered. -/
  | buoyTrunkPacket
  /-- BUOY_UNREACHABLE (R409): 2,048 ticks pass without an ACK for a forwarded operation of `block`. -/
  | buoyUnreachable (block : Nat)
  /-- BUY_KOP_ADD (R406): a write of ADD to `BUY_KOP`. -/
  | buyKopAdd (req : Requester) (block index : Nat)
  /-- BUY_KOP_SET (R406): a write of SET to `BUY_KOP`. -/
  | buyKopSet (req : Requester) (block index : Nat)
  /-- BUY_KOP_CLEAR (R406): a write of CLEAR to `BUY_KOP`. -/
  | buyKopClear (req : Requester) (block index : Nat)
  /-- CONTROL_SPACE_READ (R905): the RLOAD packet `pkt` to space 0x2 or 0x3 is served by its bay port. -/
  | controlSpaceRead (pkt : Nat)
  /-- LENS_LAUNCH (R433): the launch packet `pkt` reaches its bay port. -/
  | lensLaunch (pkt : Nat)
  /-- LENS_PASS_ACCEPT (R434): the head of a lens's queue moves to NEXT. -/
  | lensPassAccept (f lens : Nat)
  /-- LENS_LOAD_COMPLETE (R435): the load at a lens's engine ends, with its field-store stalls, bank accesses and waits. -/
  | lensLoadComplete (f lens stalls accesses waits : Nat)
  /-- LENS_PASS_EXEC (R440): a lens's NEXT pass enters EXEC. -/
  | lensPassExec (f lens : Nat)
  /-- LENS_PASS_COMPLETE (R442): a lens's EXEC pass completes; `parity` is a parity error met in its planes. -/
  | lensPassComplete (f lens stalls accesses waits : Nat) (parity : Option (Nat × Nat × Nat))
  /-- LENS_PRELOAD (R438): preload `k` of a lens begins. -/
  | lensPreload (f lens k : Nat)
  /-- LENS_STRETCH (R455): a lens's droop detector stretches a lens cycle. -/
  | lensStretch (f lens : Nat)
  /-- MV_LAUNCH (R521): the MV launch packet `pkt` reaches its bay port. -/
  | mvLaunch (pkt : Nat)
  /-- MV_OPERATION_BEGIN (R521): the MV engine of field `f` begins its next operation. -/
  | mvOperationBegin (f : Nat)
  /-- MV_OPERATION_COMPLETE (R523): the MV operation of field `f` completes. -/
  | mvOperationComplete (f stalls accesses waits : Nat)
  /-- FIELD_STORE_REQUEST (R506): a field-store request reaches its bay port. -/
  | fieldStoreRequest (pkt : Nat)
  /-- FIELD_STORE_BANK_ACCESS (R503): bank `bank` of field `f` serves a waiting bay port, which has waited `waited` cycles. -/
  | fieldStoreBankAccess (f bank waited : Nat)
  /-- FST_SCRUB (R514): a scrub slot reads a line; `found` is the word in error, and whether it is uncorrectable. -/
  | fstScrub (f bank line : Nat) (found : Option (Nat × Bool))
  /-- STAGE_LANE_INJECT (R526): lane `lane` of a transfer injects its next packet. -/
  | stageLaneInject (transfer lane : Nat)
  /-- STAGE (R537): the STAGE packet `pkt` reaches its bay port. -/
  | stage (pkt : Nat)
  /-- STAGE_NOTIFY (R530): the notice that a transfer is complete reaches field `f`. -/
  | stageNotify (f transfer : Nat)
  /-- CXL_READ_COMPLETE (R783): the read of a transfer's line returns; its engine has stalled `stalled` cycles for reads in flight. -/
  | cxlReadComplete (transfer line : Nat) (data : List Word) (poison : Bool) (stalled : Nat)
  /-- CXL_MEM_TIMEOUT (R783): a read of a transfer, or a destage write (none), exceeds the CXL.mem timeout on a port. -/
  | cxlMemTimeout (port : Nat) (transfer : Option Nat)
  /-- CXL_WRITE_COMPLETE (R533): the next line of a destage is read and its write to CXL memory completes. -/
  | cxlWriteComplete (port : Nat)
  /-- TAG_OP (R562): the oldest cycle of tag operations reaches the home SPT of field `f`. -/
  | tagOp (f : Nat)
  /-- RESOLUTION (R563): the resolution of a tag reaches tile `t`. -/
  | resolution (t tag : Nat)
  /-- PASS (R309): rule `r` of tile `t`, a PASS, fires. -/
  | pass (t r : Nat)
  /-- FORK (R309): rule `r` of tile `t`, a FORK, fires. -/
  | fork (t r : Nat)
  /-- SWITCH (R309): rule `r` of tile `t`, a SWITCH, fires. -/
  | switch (t r : Nat)
  /-- MERGE_ORDERED (R309): rule `r` of tile `t`, a MERGE with ORDER 0, fires. -/
  | mergeOrdered (t r : Nat)
  /-- MERGE_ARRIVAL (R309): rule `r` of tile `t`, a MERGE with ORDER 1, fires. -/
  | mergeArrival (t r : Nat)
  /-- GATE (R309): rule `r` of tile `t`, a GATE, fires. -/
  | gate (t r : Nat)
  /-- LOOP (R310): rule `r` of tile `t`, a LOOP, fires. -/
  | loop (t r : Nat)
  /-- RATE (R311): rule `r` of tile `t`, a RATE, fires: it takes an item or emits the one it holds. -/
  | rate (t r : Nat)
  /-- FLUSH (R278): a write of FLUSH to `CHN_SLOT_CTL`. -/
  | flush (req : Requester) (t slot : Nat)
  /-- DRAIN_START (R316): a write of START to `STR_DRAIN_CTL`. -/
  | drainStart (req : Requester) (f sec : Nat)
  /-- DRAIN_COMPLETE (R317): the drain of a sector is found empty in field `f`. -/
  | drainComplete (f sec : Nat)
  /-- DRAIN_TIMEOUT (R322): the drain of a sector in field `f` exceeds its bound. -/
  | drainTimeout (f sec : Nat)
  /-- LIGHT_LIST_WRITE (R364): entry `k` of a router's light list is written. -/
  | lightListWrite (req : Requester) (t k : Nat) (value : BitVec 64)
  /-- EPOCH_ARM (R366): a write of ARM to `MSH_EPOCH_CTL`. -/
  | epochArm (req : Requester) (f watchLow : Nat)
  /-- HST_DB_REQ_TAIL (R792): a host writes `HST_DB_REQ_TAIL` of a ring. -/
  | hstDbReqTail (port fn ring value : Nat)
  /-- HST_DB_RES_HEAD (R790): a host writes `HST_DB_RES_HEAD` of a ring. -/
  | hstDbResHead (port fn ring value : Nat)
  /-- RING_FETCH (R797): a fetch of request entries, 16 words each, completes. -/
  | ringFetch (port fn ring : Nat) (entries : List (List Nat))
  /-- HOST_DMA_FAULT (R814): a ring fetch fails or times out. -/
  | hostDmaFault (port fn ring : Nat)
  /-- RESULT_PUSH (R791): up to `count` result entries of a ring are pushed. -/
  | resultPush (port fn ring count : Nat)
  /-- HST_RING_CFG_WRITE (R792): `HST_RING_CFG` of a ring is written. -/
  | hstRingCfgWrite (req : Requester) (port fn ring value : Nat)
  /-- FUNCTION_LEVEL_RESET (R780): a function-level reset of a VF. -/
  | functionLevelReset (port fn : Nat)
  /-- JALFEN_DATA (R785): a DATA frame arrives on a link; `good` is its CRC check. -/
  | jalfenData (link : Nat) (good : Bool) (seq ring : Nat) (entries : List (List Nat))
  /-- JALFEN_CREDIT (R785): a CREDIT frame arrives. -/
  | jalfenCredit (link : Nat) (good : Bool) (seq grant : Nat)
  /-- JALFEN_BEAT (R786): a BEAT frame arrives. -/
  | jalfenBeat (link : Nat) (good : Bool) (seq : Nat)
  /-- JALFEN_NOTICE (R863): a NOTICE frame arrives. -/
  | jalfenNotice (link : Nat) (good : Bool) (seq kind wafer job code : Nat)
  /-- JALFEN_KEEPER (R784): a KEEPER frame arrives. -/
  | jalfenKeeper (link : Nat) (good : Bool) (seq : Nat)
  /-- JALFEN_IDLE_BEAT (R786): a link has carried no frame for 100 µs. -/
  | jalfenIdleBeat (link : Nat)
  /-- PEER_LOST (R863): no frame has come on a link for `JLF_TIMEOUT`. -/
  | peerLost (link : Nat)
  /-- PEER_BREAK (R862): a write of BREAK to `STN_PEER_CTL`. -/
  | peerBreak (req : Requester) (link : Nat)
  /-- PEER_CLEAR (R864): a write of CLEAR to `STN_PEER_CTL`. -/
  | peerClear (req : Requester) (link : Nat)
  /-- RAIL_TELEMETRY_POLL (R642): the Station Keeper's 10 ms poll of the rails, with what it reads. -/
  | railTelemetryPoll (readings : List RailReading)
  /-- PMB_ALERT (R642): the PMBus alert input is asserted, with what the rails then read. -/
  | pmbAlert (readings : List RailReading)
  /-- RAMP_STEP (R654): the next step of a bay's gate ramp begins, or step 16 ends. -/
  | rampStep (bay : Nat)
  /-- BAY_GATE_FAULT (R655): a bay's current, in units of 0.25 A, first exceeds its limit. -/
  | bayGateFault (bay current : Nat)
  /-- GATE_RETRY (R657): the retry ramp of a DARK_FAULT bay falls due. -/
  | gateRetry (bay : Nat)
  /-- GATE_FAULT_COUNT_CLEAR (R658): a bay has stayed LIT for 3,600 s without a trip. -/
  | gateFaultCountClear (bay : Nat)
  /-- DROOP_STRETCH (R660): a bay's droop detector fires in the current cycle. -/
  | droopStretch (bay : Nat)
  /-- DROOP_SUSTAINED (R661): sustained droop of a bay; `deep` says that a point lay 100 mV low for 4 cycles. -/
  | droopSustained (bay : Nat) (deep : Bool)
  /-- THERMAL_SAMPLE (R663): the nine thermal sensors of field `f` are sampled, in 0.125 °C. -/
  | thermalSample (f : Nat) (temps : List Int)
  /-- WAFER_ENERGY (R651): the last field has latched its meter; `suspects` are the fields that fail the check of R681. -/
  | waferEnergy (suspects : List Nat)
  /-- NV_INHIBIT (R674): VDD_AUX33 or VDD_STN has been low for 1 µs. -/
  | nvInhibit (aux core : Bool)
  /-- NV_INHIBIT_RELEASE (R674): both rails have stayed above their release thresholds for 10 ms. -/
  | nvInhibitRelease
  /-- XA_LOSS (R722): XA is declared lost. -/
  | xaLoss
  /-- HOLDOVER_SWITCH (R722): the first rest interval at least 2 µs after the loss of XA begins. -/
  | holdoverSwitch
  /-- CLOCK_HOLDOVER_END (R723): the rest interval after XA is good again ends. -/
  | clockHoldoverEnd
  /-- REFCLK_LOST (R726): XB is declared lost. -/
  | refclkLost
  /-- CLOCK_LOSS (R727): FIRC, or SIRC, is declared lost. -/
  | clockLoss (sirc : Bool)
  /-- PLL_UNLOCK (R728): the PLL with an index of `CLK_PLL_STATUS` loses lock. -/
  | pllUnlock (pll : Nat)
  /-- SOURCE_GOOD (R721): source 0 XA, 1 XB, 2 FIRC or 3 SIRC, or PLL `source` − 4, has met no loss condition for 1 s. -/
  | sourceGood (source : Nat)
  /-- FIRC_TRIM (R719): the Keeper's trim of FIRC falls due. -/
  | fircTrim
  /-- CLK_ENABLE_WRITE (R730): a word of `CLK_ENABLE` is written. -/
  | clkEnableWrite (req : Requester) (index value : Nat)
  /-- CLOCK_STOP (R730): a block whose enable bit is 0 is idle. -/
  | clockStop (index bit : Nat)
  /-- GROUP_RESET (R737): a reset of a group, asked for by mailbox slot `slot` or by the Keeper. -/
  | groupReset (slot : Option Nat) (t g : Nat)
  /-- TILE_RESET (R738): a reset of a tile. -/
  | tileReset (slot : Option Nat) (t : Nat)
  /-- BAY_RESET (R737): a reset of a bay. -/
  | bayReset (slot : Option Nat) (bay : Nat)
  /-- FIELD_RESET (R741): a reset of field `f`. -/
  | fieldReset (slot : Option Nat) (f : Nat)
  /-- RIM_PORT_RESET (R742): a reset of a rim port: PCIe r as r, CXL p as 4 + p, Jalfen j as 20 + j. -/
  | rimPortReset (slot : Option Nat) (target : Nat)
  /-- STATION_RESET (R737): a reset of the station, with its cause. -/
  | stationReset (slot : Option Nat) (cause : Nat)
  /-- COLD_RESET (R736): PORST_N has been low for 10 µs, at power-on or later. -/
  | coldReset (powerOn : Bool)
  /-- RESET_COMPLETE (R733): a reset domain has done what its reset asks; `test` is what a field's tests found. -/
  | resetComplete (domain target : Nat) (test : FieldTest)
  /-- RESET_TIMEOUT (R745): a reset has not completed within its recovery time. -/
  | resetTimeout (domain target : Nat)
  /-- PERST_N (R780): PERST_N, a hot reset or link-down of PCIe port `port`. -/
  | perstN (port : Nat)
  /-- BOOT_ROM (R754): the boot ROM runs, with the firmware copies it finds; `f27` says that F27's cores start. -/
  | bootRom (a b : FwCopy) (f27 : Bool)
  /-- FIRMWARE_RECOVERY (R757): a firmware copy has come over UART0 in recovery. -/
  | firmwareRecovery (copy : FwCopy)
  /-- STARTUP_CLOCKS (R747): the station PLL may lock to XA. -/
  | startupClocks
  /-- STARTUP_STATION (R759): step STATION: whether each ledger copy passes, the OPERATOR records still legible and the number that are not when neither does, the station rails missing or failing, and the boot settings. -/
  | startupStation (copyA copyB : Bool) (lost : List (Nat × Nat)) (unknown : Nat) (badRails : List Nat) (xbMode : Bool) (period : Option Nat) (ports : Option (Nat × Nat × Nat)) (caps : Option (Nat × Nat))
  /-- STARTUP_LINKS (R761): step LINKS: the SerDes rails that fail their first check. -/
  | startupLinks (badRails : List Nat)
  /-- PCIE_LINK_UP (R762): a PCIe port reaches link-up. -/
  | pcieLinkUp (port : Nat)
  /-- LINK_TRAIN_FAIL (R761): a PCIe port (0), CXL port (1) or Jalfen link (2) has not trained within its bound. -/
  | linkTrainFail (kind port : Nat)
  /-- MEMORY_ACTIVE (R763): a CXL device of `capacity` bytes reports Memory_Active. -/
  | memoryActive (port capacity : Nat)
  /-- CXL_MEMORY_TIMEOUT (R763): a CXL device is not active by its cap. -/
  | cxlMemoryTimeout (port : Nat)
  /-- FIELD_POWER_UP (R765): field `f` of the current wave is powered up and tested. -/
  | fieldPowerUp (f : Nat) (test : FieldTest)
  /-- BEACON_START (R769): every field's skew has been measured. -/
  | beaconStart (skews : List Nat)
  /-- STARTUP_READY (R771): BEACON and MEMORY are both complete. -/
  | startupReady
  /-- STARTUP_FAIL (R775): a step of start-up fails with no outcome of its own. -/
  | startupFail (failedStep : Nat)
  /-- LOAD_IMAGE (R587): the Keeper takes LOAD_IMAGE, and reads the image from host memory, or fails to. -/
  | loadImage (slot : Nat) (image : Option Image)
  /-- IMAGE_VALIDATION (R589): validation of the candidate ends. -/
  | imageValidation
  /-- BIND (R42): the Keeper takes BIND, or the binding it began ends. -/
  | bind (slot : Nat)
  /-- LIVE_RECORD (R71): a new live defect record arrives. -/
  | liveRecord (kind source loc detail : Nat)
  /-- START (R594): the Keeper takes START; `list` is the list of sectors in host memory, none where its read fails. -/
  | start (slot : Nat) (list : Option (List Nat))
  /-- IMAGE_LOAD_COMPLETE (R597): loading ends; `fault` is the rejection code of a fault while loading, `cycle` a tile on a cycle that the check of R828 finds in the traffic WAFER entries carry. -/
  | imageLoadComplete (fault : Option Nat) (cycle : Option Nat)
  /-- PATCH_APPLY_COMPLETE (R603): the application of a patch ends. -/
  | patchApplyComplete (fault : Bool)
  /-- RESTORE_COMPLETE (R854): a restore ends. -/
  | restoreComplete (fault : Bool)
  /-- STOP (R599): the Keeper takes STOP. -/
  | stop (slot : Nat)
  /-- DRAIN_SECTOR (R315): the Keeper takes DRAIN_SECTOR. -/
  | drainSector (slot : Nat)
  /-- RETIRE_BAY (R855): the Keeper takes RETIRE_BAY. -/
  | retireBay (slot : Nat)
  /-- RETURN_BAY (R856): the Keeper takes RETURN_BAY. -/
  | returnBay (slot : Nat)
  /-- BAY_BIST (R856): BIST and scrub of a bay end, with what they find bad as (kind, place, detail). -/
  | bayBist (bay : Nat) (bad : List (Nat × Nat × Nat))
  /-- SET_CAP (R686): the Keeper takes SET_CAP at the snapshot. -/
  | setCap (slot : Nat)
  /-- SET_PERIOD (R114): the Keeper takes SET_PERIOD. -/
  | setPeriod (slot : Nat)
  /-- QUERY_FIRMWARE (R931): the Keeper takes QUERY of kind 0. -/
  | queryFirmware (slot : Nat)
  /-- QUERY_TENANT (R805): the Keeper takes QUERY of kind 1. -/
  | queryTenant (slot : Nat)
  /-- QUERY_RESIDENCY (R805): the Keeper takes QUERY of kind 2. -/
  | queryResidency (slot : Nat)
  /-- REGISTER_TENANT (R807): the Keeper takes REGISTER_TENANT. -/
  | registerTenant (slot : Nat)
  /-- EVICT_TENANT (R805): the Keeper takes EVICT_TENANT. -/
  | evictTenant (slot : Nat)
  /-- DEBUG_AUTH_CHALLENGE (R869): the Keeper takes DEBUG_AUTH CHALLENGE. -/
  | debugAuthChallenge (slot : Nat)
  /-- DEBUG_AUTH_RESPONSE (R870): the Keeper takes DEBUG_AUTH RESPONSE; `keyOk` and `sigOk` are the checks of its key digest and signature. -/
  | debugAuthResponse (slot : Nat) (keyOk sigOk : Bool)
  /-- DEBUG_AUTH_END (R872): the Keeper takes DEBUG_AUTH END. -/
  | debugAuthEnd (slot : Nat)
  /-- DEBUG_SESSION_EXPIRY (R872): a session's periods elapse. -/
  | debugSessionExpiry (port : Nat)
  /-- HALT (R875): a write of HALT to `TGP_CTL`. -/
  | halt (req : Requester) (t g : Nat)
  /-- STEP (R877): a write of STEP to `TGP_CTL`. -/
  | step (req : Requester) (t g : Nat)
  /-- STEP_ISSUE (R877): a stepped group's instruction issues. -/
  | stepIssue (t g : Nat)
  /-- RESUME (R878): a write of RESUME to `TGP_CTL`. -/
  | resume (req : Requester) (t g : Nat)
  /-- BREAKPOINT (R876): a group is about to issue at a breakpoint's program counter. -/
  | breakpoint (t g : Nat)
  /-- DBG_REG_WRITE (R880): `DBG_REG` of a field's window is written. -/
  | dbgRegWrite (req : Requester) (f index : Nat) (value : Word)
  /-- EVENT_RING_WRITE (R886): a field's event queue writes its next record into the ring. -/
  | eventRingWrite (f : Nat)
  /-- WATCHDOG_FEED (R843): the station watchdog doorbell of a port is written. -/
  | watchdogFeed (port value : Nat)
  /-- STN_WDOG_ACK (R843): `STN_WDOG_ACK` is written. -/
  | stnWdogAck (req : Requester)
  /-- STATION_WATCHDOG (R843): the station watchdog's count reaches WATCHES. -/
  | stationWatchdog
  /-- KEEPER_FAILOVER (R844): the mirror takes over from the active Station Keeper. -/
  | keeperFailover
  /-- FOGHORN_AUTO_RESET (R846): 1 s has passed since the foghorn sounded. -/
  | foghornAutoReset
  /-- LOCKSTEP_FAULT (R842): the lockstep pair of a Field Keeper mismatches, or traps fatally. -/
  | lockstepFault (f : Nat)
  /-- KEEPER_RESTART_COMPLETE (R842): a Field Keeper has reloaded its firmware and rebuilt its state. -/
  | keeperRestartComplete (f : Nat)
  /-- WAFER_ENTRY_REWRITE (R849): the Keeper rewrites WAFER entries (tile, entry, word) around a hole in field `f`. -/
  | waferEntryRewrite (f : Nat) (entries : List (Nat × Nat × BitVec 64))
  /-- FOG_HOLD_EXPIRY (R850): `FOG_HOLD` has passed since field `f` fogged. -/
  | fogHoldExpiry (f : Nat)
  /-- BCN_PERIOD_WRITE (R116): `BCN_PERIOD` is written. -/
  | bcnPeriodWrite (req : Requester) (value : Nat)
  /-- BCN_SETTLE_LEN_WRITE (R89): `BCN_SETTLE_LEN` is written. -/
  | bcnSettleLenWrite (req : Requester) (value : Nat)
  /-- TILE_WINDOW_WRITE (R183): a word of tile SRAM is written through a window. -/
  | tileWindowWrite (req : Requester) (t off : Nat) (value : Word)
  /-- FST_WIN_DATA_WRITE (R183): `FST_WIN_DATA` of field `f` is written. -/
  | fstWinDataWrite (req : Requester) (f : Nat) (value : Word)
  /-- REGISTER_WRITE (R9, R10): a write in the register map. -/
  | registerWrite (req : Requester) (access : SizedAccess) (value : Word)
  /-- KEEPER_RESTART_TIMEOUT (R841): a Field Keeper's restart has not completed within 20 ms. -/
  | keeperRestartTimeout (f : Nat)
  /-- LINK_TRAINED (R763): a CXL port (1) or Jalfen link (2) completes training. -/
  | linkTrained (kind port : Nat)
  /-- CXL_IO_CONFIGURATION_TIMEOUT (R810): a CXL.io configuration transaction has not completed within 100 ms. -/
  | cxlIoConfigurationTimeout (port : Nat)
  /-- SMBUS_CLOCK_LOW_TIMEOUT (R810): the clock of I3C or SMBus `bus` has been held low for 30 ms. -/
  | smbusClockLowTimeout (bus : Nat)
  /-- BAD_OPCODE (R808): the Keeper takes a command with a reserved opcode. -/
  | badOpcode (slot : Nat)
  /-- REGISTER_READ (R8, R9): a read in the register map. -/
  | registerRead (req : Requester) (access : SizedAccess)
  /-- CLOCK_LOSS_EACH_MINUTE (R747): a minute has passed since start-up last logged that it waits for XA. -/
  | clockLossEachMinute
  deriving DecidableEq, Repr

end Sys2Proof
end

