-- ==== Sys2Proof/Decode.lean ====
section
/-! DEFINITION. The command a word of the opcode table spells. No row of spec/opcode_table.json gives a command any bits
(every row's list of fields is empty): a command is an occasion at which the block acts, not a word. The words of the tile
instruction set, which R8's control pipes fetch, are decoded in Machine/TileCode.lean. -/

namespace Sys2Proof

/-- The command spelled by a word of `nbits` bits: none, since no row of the table gives bits. -/
def decodeTableWord (nbits w : Nat) : Option Instr :=
  match nbits, w with
  | _, _ => none

end Sys2Proof
end

