-- ==== Sys2Proof/Config.lean ====
section
/-! DEFINITION. What an implementation fixes and the specification leaves open: the free values. Each is a constant
with no body, applied to plain data (a counter of State, or operands), so no proof can see a value of it. -/

namespace Sys2Proof.Config

/-- The special-function unit's result before the bound of R485 is applied: function code and FP32 operand.
Assumption 6. -/
opaque sfuResult : Nat → BitVec 32 → BitVec 32

/-- A nonce drawn by DEBUG_AUTH CHALLENGE (R869), by the number of draws. Assumption 7. -/
opaque nonce : Nat → BitVec 384

/-- What the SRAM and the shadow of an IDLE tile hold once their clock is gated (R134, "contents not retained"), by a count of
losses and address. Assumption 8. -/
opaque lostByte : Nat → Nat → BitVec 8

/-- The Grilerex versions (TOOL values) that a firmware version supports (R931), by major × 256 + minor: the first of them,
and the rest. Assumption 13. -/
opaque supportedTools : Nat → Nat × List Nat

/-- The result words of QUERY kind 1, whose layout the specification leaves open (R805): by a tenant's class, deadline,
precision word, and sector, slot and SOURCE_BASE where it is resident. Assumption 14. -/
opaque tenantWords : Nat → Nat → Nat → Option (Nat × Nat × Nat) → List Nat

/-- The result words of QUERY kind 2, whose layout the specification leaves open (R805): by a sector and the tenant of each
of its slots. Assumption 14. -/
opaque residencyWords : Nat → List (Option Nat) → List Nat

/-- What the pins show in `MGT_GPIO` (R907), by a count of reads: nothing inside the wafer decides it. Assumption 15. -/
opaque gpioLevel : Nat → BitVec 32

/-- How far above 1 cycle of the receiving field, taken modulo 4, a flit is delayed that crosses an edge between two fields at
different core clock levels ("that latency is not fixed", R334), by a count of crossings. Assumption 107. -/
opaque edgeDelay : Nat → Nat

/-- Bursts an executing MV operation has in flight (R541), by a count of reads: the model has no cycle-by-cycle bursts.
Assumption 16. -/
opaque mvBursts : Nat → Nat

/-- Whether a fetch fewer than 4 executed cycles after a store to the word it fetches sees what stood there before ("may see
either", R172), by watch, tile, offset, cycle and store. Assumption 92. -/
opaque fetchSeesOld : Nat → Nat → Nat → Nat → Nat → Bool

/-- What a DEAD load writes beside its marker DEAD, its access not performed (R551), by a count of such loads and lane.
Assumption 93. -/
opaque deadWord : Nat → Nat → BitVec 32

/-- The marker word of a `DBG_REG` entry of four predicates whose markers differ (R880), by those marker words. Assumption 96. -/
opaque predsMarker : List Nat → BitVec 32

end Sys2Proof.Config
end

