-- ==== Sys2Proof/Machine/Bits.lean ====
section
/-! DEFINITION. Bit fields, sign extension and byte order (R6), written once. -/

namespace Sys2Proof.Machine

/-- Bits `hi:lo` of a natural number. -/
def bits (n hi lo : Nat) : Nat := (n / 2 ^ lo) % 2 ^ (hi + 1 - lo)

/-- `n` with bits `hi:lo` replaced by `v`, taken modulo the field's width. -/
def setBits (n hi lo v : Nat) : Nat :=
  n - bits n hi lo * 2 ^ lo + (v % 2 ^ (hi + 1 - lo)) * 2 ^ lo

/-- Bit `k` of a natural number. -/
def bitAt (n k : Nat) : Bool := n.testBit k

/-- A Boolean as a one-bit field. -/
def b2n (b : Bool) : Nat := if b then 1 else 0

/-- `n` read as a two's-complement value of `w` bits. -/
def toSigned (w n : Nat) : Int :=
  if n % 2 ^ w < 2 ^ (w - 1) then (n % 2 ^ w : Nat) else ((n % 2 ^ w : Nat) : Int) - (2 ^ w : Nat)

/-- The two's-complement encoding of `i` in `w` bits. -/
def ofSigned (w : Nat) (i : Int) : Nat := (i % ((2 ^ w : Nat) : Int)).toNat

/-- `i` clamped to `lo … hi`. -/
def clampInt (lo hi i : Int) : Int := if i < lo then lo else if hi < i then hi else i

/-- Four bytes, lowest-addressed first, as a little-endian word (R6). -/
def wordOfBytes (b0 b1 b2 b3 : Byte) : Word := b3 ++ b2 ++ b1 ++ b0

/-- Byte `k` (0–3) of a word, byte 0 the least significant (R6). -/
def byteOf (w : Word) (k : Nat) : Byte := w.extractLsb' (8 * k) 8

/-- A 32-bit counter that saturates at 0xFFFF_FFFF (R185, R296 and the other counter rules). -/
def satAdd32 (a b : Nat) : Nat := min (a + b) 0xFFFFFFFF

/-- Integer square root of `n`, given that it is below `2 ^ k`. -/
def isqrtAux (n : Nat) : Nat → Nat → Nat
  | 0, r => r
  | k + 1, r => isqrtAux n k (if (r + 2 ^ k) * (r + 2 ^ k) ≤ n then r + 2 ^ k else r)

/-- The ceiling of `a / b`. -/
def ceilDiv (a b : Nat) : Nat := (a + b - 1) / b

/-- The least number of `l`, if any. -/
def minOf : List Nat → Option Nat
  | [] => none
  | a :: l => match minOf l with
    | none => some a
    | some b => some (min a b)

/-- Sum of a list of integers. -/
def sumInt : List Int → Int
  | [] => 0
  | a :: l => a + sumInt l

/-- Sum of a list of naturals. -/
def sumNat : List Nat → Nat
  | [] => 0
  | a :: l => a + sumNat l

end Sys2Proof.Machine
end

