-- ==== Sys2Proof/Machine/Float.lean ====
section
/-! DEFINITION. Number formats (spec/10_number_formats.md): the layouts of R465-R475, tile arithmetic R476-R479,
conversions R480-R484, special functions R485-R486, and the block accumulation of a float pass R489-R491. -/

namespace Sys2Proof.Machine

/-- The format codes of R465; `i32` is FMT 0x0 where R192 and R423 admit it. -/
inductive Fmt where
  | i32 | t2 | i4 | i8 | i16 | e4m3 | e5m2 | b4 | bf16 | fp16 | fp32
  deriving DecidableEq, Repr

/-- The format a code names; 0xB–0xF are reserved (R465). -/
def fmtOfCode : Nat → Option Fmt
  | 0 => some .i32 | 1 => some .t2 | 2 => some .i4 | 3 => some .i8 | 4 => some .i16 | 5 => some .e4m3
  | 6 => some .e5m2 | 7 => some .b4 | 8 => some .bf16 | 9 => some .fp16 | 10 => some .fp32 | _ => none

/-- Width in bits of one element (R465). -/
def fmtWidth : Fmt → Nat
  | .t2 => 2 | .i4 | .b4 => 4 | .i8 | .e4m3 | .e5m2 => 8 | .i16 | .bf16 | .fp16 => 16 | .i32 | .fp32 => 32

/-- Exponent bits and mantissa bits of a float format (R468); none for the others. -/
def fmtEM : Fmt → Option (Nat × Nat)
  | .e4m3 => some (4, 3) | .e5m2 => some (5, 2) | .bf16 => some (8, 7) | .fp16 => some (5, 10)
  | .fp32 => some (8, 23) | _ => none

/-- A value: NaN, a signed infinity, or `(-1)^neg × mant × 2^exp`; mant 0 is a signed zero. -/
inductive FVal where
  | nan
  | inf (neg : Bool)
  | fin (neg : Bool) (mant : Nat) (exp : Int)
  deriving DecidableEq, Repr

/-- `n / 2^s` rounded to nearest, ties to even. -/
def rneShift (n s : Nat) : Nat :=
  let q := n / 2 ^ s
  let r := n % 2 ^ s
  if 2 * r > 2 ^ s ∨ (2 * r = 2 ^ s ∧ q % 2 = 1) then q + 1 else q

/-- `mant × 2^exp` rounded to nearest even to an integer. -/
def rneInt (mant : Nat) (exp : Int) : Nat :=
  if 0 ≤ exp then mant * 2 ^ exp.toNat else rneShift mant (-exp).toNat

/-- The value a float encoding stands for (R469, R470). -/
def decodeFloat (f : Fmt) (w : Nat) : FVal :=
  match fmtEM f with
  | none => .nan
  | some (e, m) =>
    let s := bitAt w (e + m)
    let E := bits w (e + m - 1) m
    let M := w % 2 ^ m
    let bias : Int := 2 ^ (e - 1) - 1
    if E = 2 ^ e - 1 ∧ f ≠ .e4m3 then (if M = 0 then .inf s else .nan)
    else if E = 2 ^ e - 1 ∧ M = 2 ^ m - 1 then .nan
    else if E = 0 then .fin s M (1 - bias - m)
    else .fin s (M + 2 ^ m) (E - bias - m)

/-- The canonical quiet NaN of a format (R471). -/
def canonNaN : Fmt → Nat
  | .fp32 => 0x7FC00000 | .fp16 => 0x7E00 | .bf16 => 0x7FC0 | .e5m2 => 0x7E | .e4m3 => 0x7F | _ => 0

/-- A value as an encoding of float format `f`, rounded to nearest even (R476, R481); E4M3 saturates (R482). -/
def encodeFloat (f : Fmt) (x : FVal) : Nat :=
  match fmtEM f with
  | none => 0
  | some (e, m) =>
    let sgn (b : Bool) : Nat := if b then 2 ^ (e + m) else 0
    let top : Nat := if f = .e4m3 then 0x7E else (2 ^ e - 1) * 2 ^ m
    match x with
    | .nan => canonNaN f
    | .inf s => sgn s + top
    | .fin s mant exp =>
      if mant = 0 then sgn s
      else
        let bias : Int := 2 ^ (e - 1) - 1
        let ev : Int := (Nat.log2 mant : Int) + exp
        let q : Int := max ev (1 - bias) - m
        let sig := rneInt mant (exp - q)
        -- adding the significand to the exponent field below carries a rounding overflow into the exponent
        let enc := (q + m + bias - 1).toNat * 2 ^ m + sig
        sgn s + min enc top

/-- Negation of a value. -/
def fneg : FVal → FVal
  | .nan => .nan
  | .inf s => .inf (!s)
  | .fin s m e => .fin (!s) m e

/-- A finite value as an integer multiple of `2^e0`, where `e0` is at most its exponent. -/
def scaled (s : Bool) (m : Nat) (e e0 : Int) : Int :=
  let n : Int := m * 2 ^ (e - e0).toNat
  if s then -n else n

/-- An exact integer multiple of `2^e` as a value; an exact zero is +0. -/
def ofScaled (i e : Int) : FVal := .fin (decide (i < 0)) i.natAbs e

/-- Exact sum (R476, R478): opposite-sign exact zero sums are +0 and (−0) + (−0) is −0. -/
def fadd : FVal → FVal → FVal
  | .nan, _ => .nan
  | _, .nan => .nan
  | .inf s, .inf t => if s = t then .inf s else .nan
  | .inf s, _ => .inf s
  | _, .inf t => .inf t
  | .fin s m e, .fin t n g =>
    if m = 0 ∧ n = 0 then .fin (s && t) 0 0
    else ofScaled (scaled s m e (min e g) + scaled t n g (min e g)) (min e g)

/-- Exact product (R476). -/
def fmul : FVal → FVal → FVal
  | .nan, _ => .nan
  | _, .nan => .nan
  | .inf s, .inf t => .inf (xor s t)
  | .inf s, .fin t n _ => if n = 0 then .nan else .inf (xor s t)
  | .fin s m _, .inf t => if m = 0 then .nan else .inf (xor s t)
  | .fin s m e, .fin t n g => .fin (xor s t) (m * n) (e + g)

/-- Numerical comparison of two values that are not NaN: less than, with −0 equal to +0. -/
def fltLt : FVal → FVal → Bool
  | .nan, _ => false
  | _, .nan => false
  | .inf s, .inf t => s && !t
  | .inf s, .fin _ _ _ => s
  | .fin _ _ _, .inf t => !t
  | .fin s m e, .fin t n g => decide (scaled s m e (min e g) < scaled t n g (min e g))

/-- Numerical equality, false for NaN. -/
def fltEq : FVal → FVal → Bool
  | .nan, _ => false
  | _, .nan => false
  | x, y => !fltLt x y && !fltLt y x

/-- The sign of a value. -/
def fsign : FVal → Bool
  | .nan => false
  | .inf s => s
  | .fin s _ _ => s

/-- Strict order used by FMIN and FMAX: as `fltLt`, with −0 below +0 (R479). -/
def minMaxLt (x y : FVal) : Bool := fltLt x y || (fltEq x y && fsign x && !fsign y)

/-- FMIN (R479). -/
def fmin (x y : FVal) : FVal :=
  match x, y with
  | .nan, _ => y
  | _, .nan => x
  | _, _ => if minMaxLt y x then y else x

/-- FMAX (R479). -/
def fmax (x y : FVal) : FVal :=
  match x, y with
  | .nan, _ => y
  | _, .nan => x
  | _, _ => if minMaxLt x y then y else x

/-- Range of an integer format, T2 counting as −1 to +1 (R466, R483). -/
def intRange : Fmt → Int × Int
  | .t2 => (-1, 1) | .i4 => (-8, 7) | .i8 => (-128, 127) | .i16 => (-32768, 32767)
  | _ => (-2147483648, 2147483647)

/-- The integer nearest a value, ties to even, saturated to `lo … hi`; NaN gives 0 (R483). -/
def toIntSat (lo hi : Int) : FVal → Int
  | .nan => 0
  | .inf s => if s then lo else hi
  | .fin s m e => clampInt lo hi (if s then -(rneInt m e : Int) else rneInt m e)

/-- The value of an integer or T2 element; the reserved T2 code reads as 0 (R467). -/
def decodeInt (f : Fmt) (w : Nat) : Int :=
  match f with
  | .t2 => if w % 4 = 1 then 1 else if w % 4 = 3 then -1 else 0
  | _ => toSigned (fmtWidth f) w

/-- Any non-B4 element as a value. -/
def decodeElem (f : Fmt) (w : Nat) : FVal :=
  match fmtEM f with
  | some _ => decodeFloat f w
  | none => ofScaled (decodeInt f w) 0

/-- CVT from FP32 to `f` (R481-R483). -/
def cvtFromFp32 (f : Fmt) (w : Word) : Word :=
  let x := decodeFloat .fp32 w.toNat
  match fmtEM f with
  | some _ => BitVec.ofNat 32 (encodeFloat f x)
  | none => BitVec.ofNat 32 (ofSigned (fmtWidth f) (toIntSat (intRange f).1 (intRange f).2 x))

/-- CVT from `f` to FP32 (R480): exact but for I32, which rounds to nearest even. -/
def cvtToFp32 (f : Fmt) (w : Word) : Word :=
  BitVec.ofNat 32 (encodeFloat .fp32 (decodeElem f (w.toNat % 2 ^ fmtWidth f)))

/-- FP32 arithmetic on one element of format `f`: add, subtract, multiply, fused multiply-add (R476, R210). -/
def arith1 (f : Fmt) (op : FVal → FVal → FVal → FVal) (a b d : Nat) : Nat :=
  encodeFloat f (op (decodeFloat f a) (decodeFloat f b) (decodeFloat f d))

/-- A float operation on a register: one FP32 value, or two packed 16-bit values computed independently (R210). -/
def arithReg (f : Fmt) (op : FVal → FVal → FVal → FVal) (a b d : Word) : Word :=
  if f = .fp32 then BitVec.ofNat 32 (arith1 f op a.toNat b.toNat d.toNat)
  else
    let lo := arith1 f op (bits a.toNat 15 0) (bits b.toNat 15 0) (bits d.toNat 15 0)
    let hi := arith1 f op (bits a.toNat 31 16) (bits b.toNat 31 16) (bits d.toNat 31 16)
    BitVec.ofNat 32 (hi * 2 ^ 16 + lo)

/-! ### Special functions (R485, R486) -/

/-- The SFU's functions (R215). -/
inductive SfuFn where
  | recip | rsqrt | exp2 | log2
  deriving DecidableEq, Repr

/-- A domain violation (R215). -/
def sfuDomain (fn : SfuFn) (x : FVal) : Bool :=
  match fn, x with
  | _, .nan => true
  | .recip, .fin _ m _ => m = 0
  | .rsqrt, .fin s m _ => s || m = 0
  | .rsqrt, .inf s => s
  | .log2, .fin s m _ => s || m = 0
  | .log2, .inf s => s
  | _, _ => false

/-- Precision, in fraction bits, to which the functions below are computed before the bound of R485 is applied. -/
def sfuPrec : Nat := 96

/-- Fraction bits of `log2` of a significand `y` in `[1, 2)` held with `sfuPrec` fraction bits, by squaring. -/
def log2Frac : Nat → Nat → Nat → Nat
  | 0, _, acc => acc
  | k + 1, y, acc =>
    let y2 := y * y / 2 ^ sfuPrec
    if y2 ≥ 2 ^ (sfuPrec + 1) then log2Frac k (y2 / 2) (2 * acc + 1) else log2Frac k y2 (2 * acc)

/-- `2^f` for a fraction `f` of `k` bits, most significant first, with `c` = 2^(2^-i) held to `sfuPrec` bits. -/
def exp2Frac (f : Nat) : Nat → Nat → Nat → Nat
  | 0, _, acc => acc
  | k + 1, c, acc =>
    let c' := isqrtAux (c * 2 ^ sfuPrec) (sfuPrec + 2) 0
    exp2Frac f k c' (if f.testBit k then acc * c' / 2 ^ sfuPrec else acc)

/-- The function's value on an ordinary operand, to far better than the bound of R485. -/
def sfuApprox (fn : SfuFn) (x : FVal) : FVal :=
  match x with
  | .fin s m e =>
    match fn with
    | .recip => .fin s (2 ^ 200 / m) (-e - 200)
    | .rsqrt =>
      let m' := if e % 2 = 0 then m else 2 * m
      let e' := if e % 2 = 0 then e else e - 1
      .fin false (isqrtAux (2 ^ 320 / m') 161 0) (-(e' / 2) - 160)
    | .exp2 =>
      let n := scaled s (m * 2 ^ 300) (max e (-300)) (-300)
      let n := if e < -300 then 0 else n / 2 ^ 300
      let whole := n / 2 ^ 300
      let frac := (n % 2 ^ 300).toNat / 2 ^ (300 - 64)
      .fin false (exp2Frac frac 64 (2 ^ (sfuPrec + 1)) (2 ^ sfuPrec)) (max (-400) (min 400 whole) - sfuPrec)
    | .log2 =>
      let l := Nat.log2 m
      let y := m * 2 ^ sfuPrec / 2 ^ l
      let frac := log2Frac 80 y 0
      ofScaled (((l : Int) + e) * 2 ^ 80 + frac) (-80)
  | y => y

/-- Whether the encoding `c` lies within `n` units in the last place of `x`, or within 1 where `x` is below the smallest normal number
(R485). The unit is that of the FP32 encoding nearest `x`. -/
def withinUlp (n : Nat) (x : FVal) (c : Word) : Bool :=
  match x, decodeFloat .fp32 c.toNat with
  | .fin s m e, .fin t k g =>
    let small := decide (m = 0 ∨ (Nat.log2 m : Int) + e < -126)
    let n := if small then 1 else n
    let ev : Int := if small then -126 else (Nat.log2 m : Int) + e
    let q := ev - 23
    let e0 := min e (min g q)
    decide ((scaled s m e e0 - scaled t k g e0).natAbs ≤ n * 2 ^ (q - e0).toNat)
  | _, _ => false

/-- One SFU result (R485, R486). On special operands the table of R486 decides. On ordinary operands the result is
the free value `Config.sfuResult` where that lies within the bound of R485, and otherwise the correctly rounded
value, which does; a reciprocal beyond the largest finite value, for which neither rule states a result, is the free value as it stands
(assumption 6). -/
def sfuEval (fn : SfuFn) (w : Word) : Word :=
  let x := decodeFloat .fp32 w.toNat
  let pinf : Word := 0x7F800000
  let ninf : Word := 0xFF800000
  let free (n : Nat) : Word :=
    let y := sfuApprox fn x
    let c := Config.sfuResult (match fn with | .recip => 0 | .rsqrt => 1 | .exp2 => 2 | .log2 => 3) w
    if withinUlp n y c ∨ encodeFloat .fp32 y % 2 ^ 31 = 0x7F800000 then c else BitVec.ofNat 32 (encodeFloat .fp32 y)
  match x with
  | .nan => 0x7FC00000
  | .inf s => match fn with
    | .recip => if s then 0x80000000 else 0
    | .rsqrt => if s then 0x7FC00000 else 0
    | .exp2 => if s then 0 else pinf
    | .log2 => if s then 0x7FC00000 else pinf
  | .fin s m _ => match fn with
    | .recip => if m = 0 then (if s then ninf else pinf) else free 1
    | .rsqrt => if m = 0 then (if s then ninf else pinf) else if s then 0x7FC00000 else free 1
    | .exp2 =>
      if m = 0 then 0x3F800000
      else if encodeFloat .fp32 (sfuApprox .exp2 x) = 0x7F800000 then pinf else free 2
    | .log2 => if m = 0 then ninf else if s then 0x7FC00000 else free 2

/-! ### Float passes: edge alignment and block accumulation (R489-R491) -/

/-- `e(v)` of a nonzero finite value of format `f` (R489): its unbiased exponent, the smallest normal exponent when
subnormal; for an integer, `⌊log2 |v|⌋`. -/
def edgeExp (f : Fmt) : FVal → Option Int
  | .fin _ m e =>
    if m = 0 then none
    else match fmtEM f with
      | some (eb, _) => some (max ((Nat.log2 m : Int) + e) (1 - (2 ^ (eb - 1) - 1)))
      | none => some ((Nat.log2 m : Int) + e)
  | _ => none

/-- The largest of the exponents that are there. -/
def maxExp : List (Option Int) → Option Int
  | [] => none
  | none :: l => maxExp l
  | some a :: l => match maxExp l with
    | none => some a
    | some b => some (max a b)

/-- Rounding of `v × 2^e` to a multiple of `2^q`, as that multiple, ties to even. -/
def rneMultiple (v : Int) (e q : Int) : Int :=
  let n : Int := rneInt v.natAbs (e - q)
  if v < 0 then -n else n

/-- `f` of R490: the exponent of the block's largest nonzero weight. -/
def weightExp : List FVal → Option Int
  | l => maxExp (l.map fun w => match w with
      | .fin _ m e => if m = 0 then none else some ((Nat.log2 m : Int) + e)
      | _ => none)

/-- One column's sum over one block of at most 32 rows (R489-R491): activations of format `f` and weights, `none`
for a weight that forms no product (the reserved T2 code, R467). -/
def blockSum (f : Fmt) (acts : List FVal) (wts : List (Option FVal)) : FVal :=
  let pairs := (acts.zip wts).filterMap fun (a, w) => w.map fun v => (a, v)
  let special := acts.any (fun a => match a with | .fin _ _ _ => false | _ => true) ||
    wts.any (fun w => match w with | some (.fin _ _ _) => false | none => false | _ => true)
  let prods := pairs.map fun (a, w) => fmul a w
  if special && prods.any (fun p => match p with | .fin _ _ _ => false | _ => true) then
    if prods.any (fun p => p = .nan) then .nan
    else if prods.any (· = .inf true) && prods.any (· = .inf false) then .nan
    else if prods.any (· = .inf true) then .inf true
    else .inf false
  else
    match maxExp (acts.map (edgeExp f)), weightExp (pairs.map (·.2)) with
    | some ek, some fw =>
      let u : Int := ek + fw - 40
      let terms := pairs.map fun (a, w) => match a, w with
        | .fin s m e, .fin t n g =>
          let q : Int := rneMultiple (if s then -(m : Int) else m) e (ek - 21)
          rneMultiple (q * (if t then -(n : Int) else n)) (g + ek - 21) u
        | _, _ => 0
      ofScaled (sumInt terms) u
    | _, _ => .fin false 0 0

/-- A column's block sums added in FP32, one rounding per addition, in ascending block order (R421, R487): the sum of one
block is that block's own, so that its sign of zero stands. -/
def columnSum : List FVal → Nat
  | [] => 0
  | x :: l => l.foldl (fun acc y => encodeFloat .fp32 (fadd (decodeFloat .fp32 acc) (decodeFloat .fp32 (encodeFloat .fp32 y))))
      (encodeFloat .fp32 x)

/-- A B4 element of a block with shared exponent `x` (R473). -/
def b4Value (x nib : Nat) : FVal := .fin (bitAt nib 3) (nib % 8) ((x : Int) - 127)

end Sys2Proof.Machine
end

