-- ==== Sys2Proof/Machine/TileCode.lean ====
section
/-! DEFINITION. The tile instruction words (R186-R192): one constructor of `TInst` per format, a decoder that refuses
what R187, R190-R192 and R250 make ILLEGAL_OP by encoding alone, and an encoder written from the same tables. -/

namespace Sys2Proof.Machine

/-- Control operations of format C (R188). -/
inductive CtlOp where
  | nop | end_ | bra | bany | bnone | pushif | else_ | pop | mask
  deriving DecidableEq, Repr

/-- Lane and group operations of format R (R188). -/
inductive ROp where
  | add | sub | mul | and | or | xor | shl | shr | sar | min | max | minu | maxu | shfl | mov
  | fadd | fsub | fmul | fma | fmin | fmax | dot | pfromu | ufromp | cvt | sfu
  deriving DecidableEq, Repr

/-- Immediate operations of format I (R209). -/
inductive IOp where
  | movi | movhi | addi
  deriving DecidableEq, Repr

/-- Local memory operations of format L (R216). -/
inductive LOp where
  | ld | st
  deriving DecidableEq, Repr

/-- Remote memory operations of format M (R221). -/
inductive MOp where
  | rld | rldu | rst
  deriving DecidableEq, Repr

/-- Operations of SPEC (R237). -/
inductive SpecOp where
  | begin_ | end_ | confirm | squash
  deriving DecidableEq, Repr

/-- Buoy operations of format B (R188). -/
inductive BOp where
  | badd | barrive | bset | bclear | bawaitge | bawaitflag
  deriving DecidableEq, Repr

/-- How a buoy instruction names its buoy (R233). -/
inductive BuoyName where
  | idx (i : BitVec 11)
  | reg (ub : BitVec 4)
  deriving DecidableEq, Repr

/-- A tile instruction, its fields as R189 lays them out. -/
inductive TInst where
  | ctl (op : CtlOp) (gp : BitVec 3) (gn : Bool) (off : BitVec 16)
  | reg (op : ROp) (gp : BitVec 3) (gn : Bool) (d a b : BitVec 6) (fmt : BitVec 4)
  | imm (op : IOp) (gp : BitVec 3) (gn : Bool) (d : BitVec 6) (imm : BitVec 16)
  | loc (op : LOp) (gp : BitVec 3) (gn : Bool) (d a : BitVec 6) (woff : BitVec 10)
  | rem (op : MOp) (gp : BitVec 3) (gn : Bool) (d ap : BitVec 6) (rel : BitVec 10)
  | spec (op : SpecOp) (tag : BitVec 4)
  | cmp (gp : BitVec 3) (gn : Bool) (pd cond : BitVec 3) (a b : BitVec 6) (fmt : BitVec 4)
  | plog (gp : BitVec 3) (gn : Bool) (pd pa pb : BitVec 3) (tt : BitVec 4)
  | send (vec : Bool) (gp : BitVec 3) (gn : Bool) (slot : BitVec 4) (r : Bool) (src : BitVec 6) (ul : BitVec 4)
  | sendm (gp : BitVec 3) (gn : Bool) (slot : BitVec 4) (r : Bool) (ua ul : BitVec 4) (n1 : BitVec 8)
  | buoy (op : BOp) (gp : BitVec 3) (gn : Bool) (name : BuoyName) (v : BitVec 6)
  deriving DecidableEq, Repr

/-- The mnemonic of an instruction, as an index into the opcode table's tile rows: what a command that issues an
instruction checks the fetched word against. -/
inductive Mnem where
  | nop | end_ | bra | bany | bnone | pushif | else_ | pop | mask
  | badd | barrive | bset | bclear | bawaitge | bawaitflag
  | add | sub | mul | and | or | xor | shl | shr | sar | min | max | minu | maxu | shfl | mov | movi | movhi | addi
  | fadd | fsub | fmul | fma | fmin | fmax | dot | cmp | plog | pfromu | ufromp | cvt | sfu
  | specBegin | specEnd | specConfirm | specSquash | ld | st | rld | rldu | rst | sendw | sendv | sendm
  deriving DecidableEq, Repr

/-- Which row of the table an instruction is. -/
def mnemOf : TInst → Mnem
  | .ctl op .. => match op with
    | .nop => .nop | .end_ => .end_ | .bra => .bra | .bany => .bany | .bnone => .bnone | .pushif => .pushif
    | .else_ => .else_ | .pop => .pop | .mask => .mask
  | .reg op .. => match op with
    | .add => .add | .sub => .sub | .mul => .mul | .and => .and | .or => .or | .xor => .xor | .shl => .shl
    | .shr => .shr | .sar => .sar | .min => .min | .max => .max | .minu => .minu | .maxu => .maxu | .shfl => .shfl
    | .mov => .mov | .fadd => .fadd | .fsub => .fsub | .fmul => .fmul | .fma => .fma | .fmin => .fmin
    | .fmax => .fmax | .dot => .dot | .pfromu => .pfromu | .ufromp => .ufromp | .cvt => .cvt | .sfu => .sfu
  | .imm op .. => match op with
    | .movi => .movi | .movhi => .movhi | .addi => .addi
  | .loc op .. => match op with
    | .ld => .ld | .st => .st
  | .rem op .. => match op with
    | .rld => .rld | .rldu => .rldu | .rst => .rst
  | .spec op _ => match op with
    | .begin_ => .specBegin | .end_ => .specEnd | .confirm => .specConfirm | .squash => .specSquash
  | .cmp .. => .cmp
  | .plog .. => .plog
  | .send vec .. => if vec then .sendv else .sendw
  | .sendm .. => .sendm
  | .buoy op .. => match op with
    | .badd => .badd | .barrive => .barrive | .bset => .bset | .bclear => .bclear | .bawaitge => .bawaitge
    | .bawaitflag => .bawaitflag

/-- Opcodes of format C (R188). -/
def ctlCode : CtlOp → BitVec 6
  | .nop => 0x01 | .end_ => 0x02 | .bra => 0x03 | .bany => 0x04 | .bnone => 0x05 | .pushif => 0x06
  | .else_ => 0x07 | .pop => 0x08 | .mask => 0x09

/-- Opcodes of format R (R188). -/
def regCode : ROp → BitVec 6
  | .add => 0x10 | .sub => 0x11 | .mul => 0x12 | .and => 0x13 | .or => 0x14 | .xor => 0x15 | .shl => 0x16
  | .shr => 0x17 | .sar => 0x18 | .min => 0x19 | .max => 0x1A | .minu => 0x1B | .maxu => 0x1C | .shfl => 0x1D
  | .mov => 0x1E | .fadd => 0x24 | .fsub => 0x25 | .fmul => 0x26 | .fma => 0x27 | .fmin => 0x28 | .fmax => 0x29
  | .dot => 0x2A | .pfromu => 0x2E | .ufromp => 0x2F | .cvt => 0x30 | .sfu => 0x31

/-- Opcodes of format I (R188). -/
def immCode : IOp → BitVec 6
  | .movi => 0x20 | .movhi => 0x21 | .addi => 0x22

/-- Opcodes of format L (R188). -/
def locCode : LOp → BitVec 6
  | .ld => 0x34 | .st => 0x35

/-- Opcodes of format M (R188). -/
def remCode : MOp → BitVec 6
  | .rld => 0x38 | .rldu => 0x39 | .rst => 0x3A

/-- SUB of SPEC (R237). -/
def specCode : SpecOp → BitVec 4
  | .begin_ => 0 | .end_ => 1 | .confirm => 2 | .squash => 3

/-- Opcodes of format B (R188), in the order of the table. -/
def buoyCode : BOp → BitVec 6
  | .badd => 0x0A | .barrive => 0x0B | .bset => 0x0C | .bclear => 0x0D | .bawaitge => 0x0E | .bawaitflag => 0x0F

/-- A source operand code that R190 defines. -/
def srcOk (c : BitVec 6) : Bool := c.toNat ≤ 0x33 || (0x38 ≤ c.toNat && c.toNat ≤ 0x3C)

/-- A destination code (R190). -/
def dstOk (c : BitVec 6) : Bool := c.toNat ≤ 0x2F

/-- An address pair (R191): an even register v0–v30 or u0–u14. -/
def pairOk (c : BitVec 6) : Bool := c.toNat ≤ 0x2E && c.toNat % 2 = 0

/-- A uniform register named in a source field. -/
def uniOk (c : BitVec 6) : Bool := 0x20 ≤ c.toNat && c.toNat ≤ 0x2F

/-- The float formats of the arithmetic and comparison opcodes (R210, R212). -/
def floatFmtOk (f : BitVec 4) : Bool := f = 0x8 || f = 0x9 || f = 0xA

/-- A CVT pair (R214): exactly one side FP32, the other a format R214 names. -/
def cvtOk (src dst : Nat) : Bool :=
  let other (c : Nat) : Bool := c ≤ 6 || c = 8 || c = 9
  (src = 10 && other dst) || (dst = 10 && other src)

/-- The fields of a format R instruction are ones its opcode accepts (R190, R192, R208-R215). -/
def regLegal (op : ROp) (d a b : BitVec 6) (fmt : BitVec 4) : Bool :=
  match op with
  | .mov => dstOk d && srcOk a && b = 0 && fmt = 0
  | .fadd | .fsub | .fmul | .fma | .fmin | .fmax => dstOk d && srcOk a && srcOk b && floatFmtOk fmt
  | .dot => dstOk d && srcOk a && srcOk b && (fmt = 3 || fmt = 4)
  | .pfromu => d.toNat < 8 && d ≠ 0 && uniOk a && fmt = 0
  | .ufromp => uniOk d && a.toNat < 8 && fmt = 0
  | .cvt => dstOk d && srcOk a && b.toNat < 16 && cvtOk b.toNat fmt.toNat
  | .sfu => dstOk d && srcOk a && b.toNat % 8 = 0 && fmt = 0xA
  | _ => dstOk d && srcOk a && srcOk b && fmt = 0

/-- Encoding-level legality of an instruction: what R250 lists under ILLEGAL_OP that the word alone decides. -/
def legal : TInst → Bool
  | .ctl op gp gn off => match op with
    | .nop | .pop => gp = 0 && !gn && off = 0
    | .end_ | .bra | .else_ => gp = 0 && !gn
    | .mask => off = 0
    | _ => true
  | .reg op _ _ d a b fmt => regLegal op d a b fmt
  | .imm _ _ _ d _ => dstOk d
  | .loc _ _ _ d a _ => dstOk d && srcOk a
  | .rem op _ _ d ap rel => dstOk d && pairOk ap && (op ≠ .rst || rel = 0)
  | .spec op tag => op ≠ .end_ || tag = 0
  | .cmp _ _ pd cond a b fmt =>
    pd ≠ 0 && srcOk a && srcOk b && (fmt = 0 || (floatFmtOk fmt && cond.toNat < 6))
  | .plog _ _ pd _ _ _ => pd ≠ 0
  | .send vec _ _ _ _ src _ => if vec then src.toNat < 0x20 else srcOk src
  | .sendm .. => true
  | .buoy op _ _ name v =>
    (match name with | .idx i => i.toNat < 1280 | .reg _ => true) &&
    (match op with | .barrive | .bclear | .bawaitflag => v = 0x38 | _ => srcOk v)

/-- The word of an instruction (R186, R189). -/
def encodeTile : TInst → Word
  | .ctl op gp gn off => ctlCode op ++ gp ++ BitVec.ofBool gn ++ (0 : BitVec 6) ++ off
  | .reg op gp gn d a b fmt => regCode op ++ gp ++ BitVec.ofBool gn ++ d ++ a ++ b ++ fmt
  | .imm op gp gn d imm => immCode op ++ gp ++ BitVec.ofBool gn ++ d ++ imm
  | .loc op gp gn d a woff => locCode op ++ gp ++ BitVec.ofBool gn ++ d ++ a ++ woff
  | .rem op gp gn d ap rel => remCode op ++ gp ++ BitVec.ofBool gn ++ d ++ ap ++ rel
  | .spec op tag => (0x32 : BitVec 6) ++ (0 : BitVec 18) ++ tag ++ specCode op
  | .cmp gp gn pd cond a b fmt => (0x2C : BitVec 6) ++ gp ++ BitVec.ofBool gn ++ pd ++ cond ++ a ++ b ++ fmt
  | .plog gp gn pd pa pb tt =>
    (0x2D : BitVec 6) ++ gp ++ BitVec.ofBool gn ++ pd ++ pa ++ pb ++ tt ++ (0 : BitVec 9)
  | .send vec gp gn slot r src ul =>
    (if vec then (0x3D : BitVec 6) else 0x3C) ++ gp ++ BitVec.ofBool gn ++ slot ++ BitVec.ofBool r ++ src ++ ul ++
      (0 : BitVec 7)
  | .sendm gp gn slot r ua ul n1 =>
    (0x3E : BitVec 6) ++ gp ++ BitVec.ofBool gn ++ slot ++ BitVec.ofBool r ++ ua ++ ul ++ (0 : BitVec 1) ++ n1
  | .buoy op gp gn name v => match name with
    | .idx i => buoyCode op ++ gp ++ BitVec.ofBool gn ++ (0 : BitVec 1) ++ i ++ v ++ (0 : BitVec 4)
    | .reg ub => buoyCode op ++ gp ++ BitVec.ofBool gn ++ (1 : BitVec 1) ++ ub ++ (0 : BitVec 7) ++ v ++ (0 : BitVec 4)

/-- Fields cut out of a word by the format of its opcode, before legality; none for a reserved opcode or subcode and
for a non-zero field that R189 marks 0. -/
def fieldsOf (w : Word) : Option TInst :=
  let gp := w.extractLsb' 23 3
  let gn := w.getLsbD 22
  let d := w.extractLsb' 16 6
  let a := w.extractLsb' 10 6
  let b := w.extractLsb' 4 6
  let fmt := w.extractLsb' 0 4
  let ctl (op : CtlOp) : Option TInst := if d = 0 then some (.ctl op gp gn (w.extractLsb' 0 16)) else none
  let reg (op : ROp) : Option TInst := some (.reg op gp gn d a b fmt)
  let imm (op : IOp) : Option TInst := some (.imm op gp gn d (w.extractLsb' 0 16))
  let loc (op : LOp) : Option TInst := some (.loc op gp gn d a (w.extractLsb' 0 10))
  let rem (op : MOp) : Option TInst := some (.rem op gp gn d a (w.extractLsb' 0 10))
  let spec : Option TInst :=
    if w.extractLsb' 8 18 = 0 then
      match (fmt.toNat : Nat) with
      | 0 => some (.spec .begin_ (w.extractLsb' 4 4))
      | 1 => some (.spec .end_ (w.extractLsb' 4 4))
      | 2 => some (.spec .confirm (w.extractLsb' 4 4))
      | 3 => some (.spec .squash (w.extractLsb' 4 4))
      | _ => none
    else none
  let buoy (op : BOp) : Option TInst :=
    if fmt ≠ 0 then none
    else if w.getLsbD 21 then
      (if w.extractLsb' 10 7 = 0 then some (.buoy op gp gn (.reg (w.extractLsb' 17 4)) b) else none)
    else some (.buoy op gp gn (.idx (w.extractLsb' 10 11)) b)
  let send (vec : Bool) : Option TInst :=
    if w.extractLsb' 0 7 = 0 then
      some (.send vec gp gn (w.extractLsb' 18 4) (w.getLsbD 17) (w.extractLsb' 11 6) (w.extractLsb' 7 4))
    else none
  match (w.extractLsb' 26 6).toNat with
  | 0x01 => ctl .nop | 0x02 => ctl .end_ | 0x03 => ctl .bra | 0x04 => ctl .bany | 0x05 => ctl .bnone
  | 0x06 => ctl .pushif | 0x07 => ctl .else_ | 0x08 => ctl .pop | 0x09 => ctl .mask
  | 0x0A => buoy .badd | 0x0B => buoy .barrive | 0x0C => buoy .bset | 0x0D => buoy .bclear
  | 0x0E => buoy .bawaitge | 0x0F => buoy .bawaitflag
  | 0x10 => reg .add | 0x11 => reg .sub | 0x12 => reg .mul | 0x13 => reg .and | 0x14 => reg .or | 0x15 => reg .xor
  | 0x16 => reg .shl | 0x17 => reg .shr | 0x18 => reg .sar | 0x19 => reg .min | 0x1A => reg .max
  | 0x1B => reg .minu | 0x1C => reg .maxu | 0x1D => reg .shfl | 0x1E => reg .mov
  | 0x20 => imm .movi | 0x21 => imm .movhi | 0x22 => imm .addi
  | 0x24 => reg .fadd | 0x25 => reg .fsub | 0x26 => reg .fmul | 0x27 => reg .fma | 0x28 => reg .fmin
  | 0x29 => reg .fmax | 0x2A => reg .dot
  | 0x2C => some (.cmp gp gn (w.extractLsb' 19 3) (w.extractLsb' 16 3) a b fmt)
  | 0x2D => if w.extractLsb' 0 9 = 0 then
      some (.plog gp gn (w.extractLsb' 19 3) (w.extractLsb' 16 3) (w.extractLsb' 13 3) (w.extractLsb' 9 4))
    else none
  | 0x2E => reg .pfromu | 0x2F => reg .ufromp | 0x30 => reg .cvt | 0x31 => reg .sfu
  | 0x32 => spec
  | 0x34 => loc .ld | 0x35 => loc .st | 0x38 => rem .rld | 0x39 => rem .rldu | 0x3A => rem .rst
  | 0x3C => send false | 0x3D => send true
  | 0x3E => if w.getLsbD 8 then none else
      some (.sendm gp gn (w.extractLsb' 18 4) (w.getLsbD 17) (w.extractLsb' 13 4) (w.extractLsb' 9 4)
        (w.extractLsb' 0 8))
  | _ => none

/-- The instruction a word holds, or none where its encoding alone makes it trap with ILLEGAL_OP (R187, R250). -/
def decodeTile (w : Word) : Option TInst :=
  match fieldsOf w with
  | some i => if legal i then some i else none
  | none => none

end Sys2Proof.Machine
end

