-- ==== Sys2Proof/Machine/Events.lean ====
section
/-! DEFINITION. The event catalogue (R834, R835; the DBG events of R890 and R886) and the code of an event (R16). -/

namespace Sys2Proof.Machine

/-- An event of the catalogue: source block (R833), code within the block, class (R832). -/
structure Ev where
  blk : Nat
  code : Nat
  cls : Nat
  deriving DecidableEq, Repr

/-- The event code of R16: class in 15:12, source block in 11:6, code in 5:0. -/
def evCode (e : Ev) : Nat := e.cls * 4096 + e.blk * 64 + e.code

/-- STN ACCESS_REFUSED (R834). -/
def evAccessRefused : Ev := ⟨0x00, 0x01, 1⟩
/-- STN MAP_CORRUPT (R834). -/
def evMapCorrupt : Ev := ⟨0x00, 0x02, 5⟩
/-- STN BELOW_GRADE (R834). -/
def evBelowGrade : Ev := ⟨0x00, 0x03, 1⟩
/-- STN LIVE_RECORD (R834). -/
def evLiveRecord : Ev := ⟨0x00, 0x04, 0⟩
/-- STN IMAGE_REJECTED (R834). -/
def evImageRejected : Ev := ⟨0x00, 0x05, 1⟩
/-- STN IMAGE_LOAD_FAULT (R834). -/
def evImageLoadFault : Ev := ⟨0x00, 0x06, 5⟩
/-- STN FLOOR_DEFERRED (R834). -/
def evFloorDeferred : Ev := ⟨0x00, 0x07, 0⟩
/-- STN ROUTE_CYCLE (R834). -/
def evRouteCycle : Ev := ⟨0x00, 0x08, 5⟩
/-- STN CHARACTER_REPLACED (R834). -/
def evCharacterReplaced : Ev := ⟨0x00, 0x09, 1⟩
/-- STN CONTRACT_BREACH (R834). -/
def evContractBreach : Ev := ⟨0x00, 0x0A, 3⟩
/-- STN CALIBRATION_LIMIT (R834). -/
def evCalibrationLimit : Ev := ⟨0x00, 0x0B, 1⟩
/-- STN DEADLINE_UNSERVABLE (R834). -/
def evDeadlineUnservable : Ev := ⟨0x00, 0x0C, 1⟩
/-- STN BROWNOUT (R834). -/
def evBrownout : Ev := ⟨0x00, 0x0D, 1⟩
/-- STN CAP_UNREACHABLE (R834). -/
def evCapUnreachable : Ev := ⟨0x00, 0x0E, 5⟩
/-- STN RECOVERY_DEFERRED (R834). -/
def evRecoveryDeferred : Ev := ⟨0x00, 0x0F, 0⟩
/-- STN DECLARATION_SHORT (R834). -/
def evDeclarationShort : Ev := ⟨0x00, 0x10, 1⟩
/-- STN PLAN_LATE (R834). -/
def evPlanLate : Ev := ⟨0x00, 0x11, 1⟩
/-- STN NV_DEFERRED_DROP (R834). -/
def evNvDeferredDrop : Ev := ⟨0x00, 0x12, 1⟩
/-- STN FW_COPY_BAD (R834). -/
def evFwCopyBad : Ev := ⟨0x00, 0x13, 1⟩
/-- STN STARTUP_READY (R834). -/
def evStartupReady : Ev := ⟨0x00, 0x14, 0⟩
/-- STN STARTUP_FAIL (R834). -/
def evStartupFail : Ev := ⟨0x00, 0x15, 5⟩
/-- STN FIELD_STARTUP_FAIL (R834). -/
def evFieldStartupFail : Ev := ⟨0x00, 0x16, 4⟩
/-- STN HOST_SILENT (R834). -/
def evHostSilent : Ev := ⟨0x00, 0x17, 1⟩
/-- STN STATION_WATCHDOG (R834). -/
def evStationWatchdog : Ev := ⟨0x00, 0x18, 5⟩
/-- STN KEEPER_FAILOVER (R834). -/
def evKeeperFailover : Ev := ⟨0x00, 0x19, 1⟩
/-- STN KEEPER_FATAL (R834). -/
def evKeeperFatal : Ev := ⟨0x00, 0x1A, 5⟩
/-- STN SECTOR_STRANDED (R834). -/
def evSectorStranded : Ev := ⟨0x00, 0x1B, 3⟩
/-- STN SECTOR_DOWN (R834). -/
def evSectorDown : Ev := ⟨0x00, 0x1C, 3⟩
/-- STN ESCALATION (R834). -/
def evEscalation : Ev := ⟨0x00, 0x1D, 3⟩
/-- STN BAY_RETIRED (R834). -/
def evBayRetired : Ev := ⟨0x00, 0x1E, 1⟩
/-- STN BAY_RETURNED (R834). -/
def evBayReturned : Ev := ⟨0x00, 0x1F, 0⟩
/-- STN LEDGER_RECORD_LOST (R834). -/
def evLedgerRecordLost : Ev := ⟨0x00, 0x20, 1⟩
/-- STN LEDGER_REBUILT (R834). -/
def evLedgerRebuilt : Ev := ⟨0x00, 0x21, 1⟩
/-- BCN BEACON_MISSED (R834). -/
def evBeaconMissed : Ev := ⟨0x01, 0x01, 1⟩
/-- BCN BEACON_LOST (R834). -/
def evBeaconLost : Ev := ⟨0x01, 0x02, 4⟩
/-- BCN SECTOR_VOID (R834). -/
def evSectorVoid : Ev := ⟨0x01, 0x03, 3⟩
/-- BCN STRETCH_OVERDRAFT (R834). -/
def evStretchOverdraft : Ev := ⟨0x01, 0x04, 1⟩
/-- BCN VERDICT_FAULT (R834). -/
def evVerdictFault : Ev := ⟨0x01, 0x05, 1⟩
/-- CLK CLOCK_HOLDOVER (R834). -/
def evClockHoldover : Ev := ⟨0x02, 0x01, 1⟩
/-- CLK CLOCK_HOLDOVER_END (R834). -/
def evClockHoldoverEnd : Ev := ⟨0x02, 0x02, 0⟩
/-- CLK STATION_CLOCK_LOST (R834). -/
def evStationClockLost : Ev := ⟨0x02, 0x03, 5⟩
/-- CLK REFCLK_LOST (R834). -/
def evRefclkLost : Ev := ⟨0x02, 0x04, 5⟩
/-- CLK CLOCK_LOSS (R834). -/
def evClockLoss : Ev := ⟨0x02, 0x05, 1⟩
/-- CLK PLL_UNLOCK (R834). -/
def evPllUnlock : Ev := ⟨0x02, 0x06, 4⟩
/-- CLK CLK_GATED_ACCESS (R834). -/
def evClkGatedAccess : Ev := ⟨0x02, 0x07, 1⟩
/-- RST RESET_TIMEOUT (R834). -/
def evResetTimeout : Ev := ⟨0x03, 0x01, 4⟩
/-- RST RESET_CAUSE (R834). -/
def evResetCause : Ev := ⟨0x03, 0x02, 0⟩
/-- PWR RAIL_LATE (R834). -/
def evRailLate : Ev := ⟨0x04, 0x01, 1⟩
/-- PWR BAY_GATE_FAULT (R834). -/
def evBayGateFault : Ev := ⟨0x04, 0x02, 2⟩
/-- PWR DROOP_SUSTAINED (R834). -/
def evDroopSustained : Ev := ⟨0x04, 0x03, 4⟩
/-- PWR AGE_MARGIN_LOW (R834). -/
def evAgeMarginLow : Ev := ⟨0x04, 0x04, 1⟩
/-- PWR METER_SUSPECT (R834). -/
def evMeterSuspect : Ev := ⟨0x04, 0x05, 1⟩
/-- PWR RAIL_FAULT (R834). -/
def evRailFault : Ev := ⟨0x04, 0x06, 4⟩
/-- THM THERMAL_TRIP (R834). -/
def evThermalTrip : Ev := ⟨0x05, 0x01, 4⟩
/-- THM THERMTRIP_ASSERTED (R834). -/
def evThermtripAsserted : Ev := ⟨0x05, 0x02, 5⟩
/-- FKP HEARTBEAT_MISSED (R834). -/
def evHeartbeatMissed : Ev := ⟨0x06, 0x01, 1⟩
/-- FKP LOCKSTEP_FAULT (R834). -/
def evLockstepFault : Ev := ⟨0x06, 0x02, 1⟩
/-- FKP FIELD_FOGGED (R834). -/
def evFieldFogged : Ev := ⟨0x06, 0x03, 4⟩
/-- FKP FENCE_DISCARD (R834). -/
def evFenceDiscard : Ev := ⟨0x06, 0x04, 1⟩
/-- TIL TILE_TRAP (R834). -/
def evTileTrap : Ev := ⟨0x07, 0x01, 2⟩
/-- TIL SCHEDULE_SLIP (R834). -/
def evScheduleSlip : Ev := ⟨0x07, 0x02, 1⟩
/-- CHN CHANNEL_RESIDUE (R834). -/
def evChannelResidue : Ev := ⟨0x09, 0x01, 0⟩
/-- CHN CREDIT_FAULT (R834). -/
def evCreditFault : Ev := ⟨0x09, 0x02, 2⟩
/-- CHN CHANNEL_LAND_FAULT (R834). -/
def evChannelLandFault : Ev := ⟨0x09, 0x03, 2⟩
/-- CHN CHANNEL_POISON (R834). -/
def evChannelPoison : Ev := ⟨0x09, 0x04, 2⟩
/-- STR STEER_FAULT (R834). -/
def evSteerFault : Ev := ⟨0x0A, 0x01, 2⟩
/-- STR DRAIN_TIMEOUT (R834). -/
def evDrainTimeout : Ev := ⟨0x0A, 0x02, 3⟩
/-- MSH BOUNDARY_DROP (R834). -/
def evBoundaryDrop : Ev := ⟨0x0B, 0x01, 1⟩
/-- MSH MISROUTE (R834). -/
def evMisroute : Ev := ⟨0x0B, 0x02, 2⟩
/-- MSH LINK_FAULT (R834). -/
def evLinkFault : Ev := ⟨0x0B, 0x03, 2⟩
/-- MSH EPOCH_STUCK (R834). -/
def evEpochStuck : Ev := ⟨0x0B, 0x04, 3⟩
/-- BUY BUOY_SATURATE (R834). -/
def evBuoySaturate : Ev := ⟨0x0C, 0x01, 0⟩
/-- BUY BUOY_REFUSED (R834). -/
def evBuoyRefused : Ev := ⟨0x0C, 0x02, 2⟩
/-- BUY BUOY_UNREACHABLE (R834). -/
def evBuoyUnreachable : Ev := ⟨0x0C, 0x03, 2⟩
/-- BUY BUOY_POISON (R834). -/
def evBuoyPoison : Ev := ⟨0x0C, 0x04, 2⟩
/-- LNS LENS_LAUNCH_REFUSED (R834). -/
def evLensLaunchRefused : Ev := ⟨0x0D, 0x01, 1⟩
/-- LNS LENS_FAULT (R834). -/
def evLensFault : Ev := ⟨0x0D, 0x02, 2⟩
/-- LNS LENS_PARITY (R834). -/
def evLensParity : Ev := ⟨0x0D, 0x03, 2⟩
/-- LNS LENS_POISON (R834). -/
def evLensPoison : Ev := ⟨0x0D, 0x04, 2⟩
/-- MVE MV_LAUNCH_REFUSED (R834). -/
def evMvLaunchRefused : Ev := ⟨0x0E, 0x01, 1⟩
/-- MVE MV_FAULT (R834). -/
def evMvFault : Ev := ⟨0x0E, 0x02, 2⟩
/-- FST JOURNAL_QUOTA (R834). -/
def evJournalQuota : Ev := ⟨0x0F, 0x01, 2⟩
/-- FST FST_POISON (R834). -/
def evFstPoison : Ev := ⟨0x0F, 0x02, 2⟩
/-- STG STAGE_LATE (R834). -/
def evStageLate : Ev := ⟨0x10, 0x01, 1⟩
/-- STG STAGE_FAIL (R834). -/
def evStageFail : Ev := ⟨0x10, 0x02, 3⟩
/-- STG STAGE_MISDIRECT (R834). -/
def evStageMisdirect : Ev := ⟨0x10, 0x03, 1⟩
/-- SPT SPEC_CONFLICT (R834). -/
def evSpecConflict : Ev := ⟨0x11, 0x01, 1⟩
/-- SPT SHADOW_POISON (R834). -/
def evShadowPoison : Ev := ⟨0x11, 0x02, 2⟩
/-- HST RESULT_BAD (R834). -/
def evResultBad : Ev := ⟨0x12, 0x01, 1⟩
/-- HST RESULT_OVERFLOW (R834). -/
def evResultOverflow : Ev := ⟨0x12, 0x02, 1⟩
/-- HST HOST_DMA_FAULT (R834). -/
def evHostDmaFault : Ev := ⟨0x12, 0x03, 1⟩
/-- HST LINK_TRAIN_FAIL (R834). -/
def evLinkTrainFail : Ev := ⟨0x12, 0x04, 1⟩
/-- CXM CXL_MEMORY_TIMEOUT (R834). -/
def evCxlMemoryTimeout : Ev := ⟨0x13, 0x01, 1⟩
/-- CXM CXL_CAPACITY_CLIPPED (R834). -/
def evCxlCapacityClipped : Ev := ⟨0x13, 0x02, 0⟩
/-- CXM CXL_WRITE_FAIL (R834). -/
def evCxlWriteFail : Ev := ⟨0x13, 0x03, 1⟩
/-- JLF PEER_LOST (R834). -/
def evPeerLost : Ev := ⟨0x14, 0x01, 1⟩
/-- JLF PEER_NOTICE (R834). -/
def evPeerNotice : Ev := ⟨0x14, 0x02, 0⟩
/-- JLF JALFEN_LINK_RESET (R834). -/
def evJalfenLinkReset : Ev := ⟨0x14, 0x03, 1⟩
/-- DBG DEBUG_AUTH_OK. -/
def evDebugAuthOk : Ev := ⟨0x16, 0x01, 0⟩
/-- DBG DEBUG_AUTH_FAIL. -/
def evDebugAuthFail : Ev := ⟨0x16, 0x02, 1⟩
/-- DBG DEBUG_SESSION_END. -/
def evDebugSessionEnd : Ev := ⟨0x16, 0x03, 0⟩
/-- DBG DEBUG_LOCKOUT. -/
def evDebugLockout : Ev := ⟨0x16, 0x04, 1⟩
/-- DBG GROUP_HALTED. -/
def evGroupHalted : Ev := ⟨0x16, 0x05, 0⟩
/-- DBG EVENT_LOST. -/
def evEventLost : Ev := ⟨0x16, 0x06, 1⟩

end Sys2Proof.Machine
end

