-- ==== Sys2Proof/Machine/Map.lean ====
section
/-! DEFINITION. Operations on the sparse maps of State and on its memories. -/

namespace Sys2Proof.Machine

/-- The value of key `k`, or `d` where it is not listed. -/
def mget {κ α : Type} [DecidableEq κ] (d : α) : Smap κ α → κ → α
  | [], _ => d
  | (k', v) :: m, k => if k' = k then v else mget d m k

/-- The value of key `k`, if it is listed. -/
def mfind {κ α : Type} [DecidableEq κ] : Smap κ α → κ → Option α
  | [], _ => none
  | (k', v) :: m, k => if k' = k then some v else mfind m k

/-- The map without key `k`. -/
def mdel {κ α : Type} [DecidableEq κ] : Smap κ α → κ → Smap κ α
  | [], _ => []
  | (k', v) :: m, k => if k' = k then mdel m k else (k', v) :: mdel m k

/-- The map with `k` set to `v`. -/
def mput {κ α : Type} [DecidableEq κ] (m : Smap κ α) (k : κ) (v : α) : Smap κ α := (k, v) :: mdel m k

/-! ### Memory: canonical lists of (address, byte) pairs -/

/-- What an unlisted byte of tile SRAM or of field store reads as: 0. A field reset zeroes field store by scrub
(R737) and a bay's BIST and scrub leave SRAM zero; for the rest it is assumption 9. -/
def unlistedByte : Byte := 0

/-- The byte at `a`. -/
def memRead : List Host.Cell → Nat → Byte
  | [], _ => unlistedByte
  | (k, b) :: m, a => if k = a then b else memRead m a

/-- Insertion of a cell in front of the first higher address. -/
def memInsert (a : Nat) (b : Byte) : List Host.Cell → List Host.Cell
  | [] => [(a, b)]
  | (k, c) :: m => if a < k then (a, b) :: (k, c) :: m else (k, c) :: memInsert a b m

/-- The memory without a cell at `a`. -/
def memErase (a : Nat) : List Host.Cell → List Host.Cell
  | [] => []
  | (k, c) :: m => if k = a then memErase a m else (k, c) :: memErase a m

/-- The memory with byte `b` at `a`, in canonical form. -/
def memWrite (m : List Host.Cell) (a : Nat) (b : Byte) : List Host.Cell :=
  if b = unlistedByte then memErase a m else memInsert a b (memErase a m)

/-- Canonical form: addresses strictly rising, and no cell equal to what an unlisted address reads as. -/
def memWf : List Host.Cell → Bool
  | [] => true
  | [(_, b)] => b ≠ unlistedByte
  | (k, b) :: (k', b') :: m => b ≠ unlistedByte && decide (k < k') && memWf ((k', b') :: m)

/-- The memory without the cells at `lo … lo + n − 1`. -/
def memClear (m : List Host.Cell) (lo n : Nat) : List Host.Cell :=
  m.filter fun c => !(decide (lo ≤ c.1) && decide (c.1 < lo + n))

end Sys2Proof.Machine
end

