-- ==== Sys2Proof/Machine/Regs.lean ====
section
/-! DEFINITION. The registers of the Lannil W8: one constructor of `Reg` per register that the register map
(spec/23_register_map.md, R893-R907) names, the fields of each with access type and reset value as the owning
chapter's table gives them, and the offsets at which they lie. -/

namespace Sys2Proof.Machine

/-- The registers (R893-R907). -/
inductive Reg where
  | stnGrade | stnTileCount | stnBindStatus | stnBindDetail | stnBindStats | bcnPeriod | bcnPeriodNext | bcnWatch
  | bcnSettleLen | bcnStatus | bcnPhase | bcnWatchCycles | bcnSkewComp | bcnMiss | bcnOverrunCount
  | bcnOverrunLast | tilWinSel | tilId | tilRole | tilSplit | tilStatus | tilTagStatus | tgpCtl | tgpState
  | tgpTrap | tgpTrapAddr | tgpWdog | tilCountIssue | tilCountIdle | tilCountTagStall | tilCountCacheHit
  | tilCountCacheMiss | tilCountReleaseLate | tilCountStaleDiscard | tilCountEccCorr | chnSlotCfg | chnSlotDest
  | chnSlotWindow | chnSlotDone | chnSlotStatus | chnSlotCtl | chnSlotCredit | strRule | strRuleParam
  | strRuleState | strStatus | strDrainCtl | strDrainStatus | strDrainBound | strCountFire | strCountWords
  | strCountDiscard | strCountStallOut | strCountStallPath | mshLlEntry | mshTileSector | mshPortCfg | mshStatus
  | mshSectorSel | mshEpoch | mshEpochCtl | mshOldEpochCount | mshCountFlits | mshCountStall
  | mshCountBoundaryDrop | mshCountMisroute | mshCountLinkCorr | mshCountLinkPoison | buyCfg | buyInit | buyTarget
  | buyState | buySectorGroup | buyKopArg | buyKop | buyStatus | buyCountOps | buyCountWatch | buyCountNotice
  | buyCountRefused | buyCountLate | buyCountWatchStall | buyCountSaturate | lnsMode | lnsGeom | lnsPanelOwner
  | lnsPanelMap | lnsDesc | lnsPreload | lnsStatus | lnsStretchLedger | lnsRepair | lnsCountPasses
  | lnsCountAbandoned | lnsCountBusy | lnsCountLoad | lnsCountFsStall | lnsCountSaturate | lnsCountReservedCode
  | fstRegionCfg | fstRegionSpan | fstRegionFill | fstStatus | mveStatus | stgEngineStatus | stgLateLast
  | fstCountAccess | fstCountConflict | fstCountRefused | fstCountEccCorr | fstCountPoison | mveCountOps
  | mveCountAbandoned | mveCountBusy | mveCountFsStall | mveCountSaturate | mveCountReservedCode | stgCountLines
  | stgCountReadStall | stgCountLate | sptSectorSel | sptState | sptTagParent | sptStatus | sptTileStatus
  | sptShadowMeta | sptCountConfirm | sptCountSquash | sptCountSweep | sptCountConflict | sptCountShadowStall
  | sptCountLinesCommit | sptCountLinesDiscard | sptCountDead | stnImageStatus | stnImageDetail | stnImageLoaded
  | stnImageFloor | stnOwner | stnCharSectorSel | stnCharState | stnCharRuns | pwrBayState | pwrStretchLedger
  | pwrStretchLive | pwrDroopCfg | pwrVfCore | pwrVfLens | pwrStatus | pwrRailStatus | stnNvInhibit | thmTemp
  | thmCfg | thmStatus | stnPlanStatus | stnPlanField | stnPlanSector | clkPllStatus | clkSrcStatus | clkSrcCfg
  | rstDomainCtl | rstStatus | rstCause | stnStartup | stnStartupFields | stnStartupPorts | stnFwStatus
  | hstRingCfg | hstRingState | hstMboxCmd | hstMboxStatus | hstTimeout | jlfCfg | jlfTimeout | fkpHeartbeat
  | fkpStatus | fkpCfg | stnSectorHealth | stnWdogCfg | stnWdogStatus | stnWdogAck | stnFoghorn | stnPeerCfg
  | stnPeerStatus | stnPeerCtl | dbgGroupSel | dbgBreak | dbgHaltCause | stnDebugSession | mgtUartCfg | mgtGpio
  | pwrEnergyWatch | pwrEnergyTotal | pwrAgeMargin | pwrCountStretch | pwrCountDenied | pwrCountGateFault | pwrCap
  | pwrWaferEnergy | pwrAlertEn | stnPlanBudget | stnPlanPredict | stnPlanCountBrownout | stnPlanCountLate
  | stnPlanCountShelved | stnPlanCountMiss | clkCountGated | clkCountLoss | clkEnable | clkRunning | stnCountFog
  | stnCountFailover | fkpCountMiss | fkpCountFence | dbgSampleCfg | dbgSample | dbgEventHead | dbgEventLost
  | stnEventHead | stnEventSel | stnEventIrq | stnDebugKey | stnDebugFields | dbgReg | hstRingReqBase
  | hstRingResBase | hstRingStatusAddr | hstRingOwned | hstCountFetched | hstCountRetired | hstCountResultBad
  | hstCountResultOverflow | hstCountBadTenant | hstMboxArg | hstMboxResult | jlfCountCrc | stnKeyFloor
  | stnImageId | stnImageDigest | fstWinAddr | fstWinData | sptShadowMask | sptShadowData | chnCountItems
  | chnCountWords | chnCountStallCredit | chnCountStallRecv | chnCountFlush | chnCountDiscard | chnCountCollide
  | mveDesc | bcnWatchField
  deriving DecidableEq, Repr

/-- Field access types (R10): read-only, read-write, write-one-to-clear, write-only, locked while an image is
loaded (R13, R14), reserved. -/
inductive Access where
  | ro | rw | w1c | wo | rwl | rsv
  deriving DecidableEq, Repr

/-- One field of a register: bits `hi:lo`, access type, reset value. -/
structure FieldSpec where
  hi : Nat
  lo : Nat
  acc : Access
  reset : Nat
  deriving DecidableEq, Repr

/-- A named field: which register, which bits. -/
structure RegField where
  reg : Reg
  hi : Nat
  lo : Nat
  deriving DecidableEq, Repr

/-- One row of an offset table of R898, R901 or R902: `count` consecutive indices from `base` (R896). -/
structure RegRow where
  base : Nat
  reg : Reg
  count : Nat
  deriving DecidableEq, Repr

/-- The fields of each register, as its table gives them; bits no field covers are RSV (R10). A reset value that
the table calls fused, taken from the ledger, or an index, is given by `Reg.resetWord` or by `State.regDefault`. -/
def Reg.fields : Reg → List FieldSpec
  | .stnGrade => [⟨16, 8, .ro, 0⟩, ⟨1, 0, .ro, 0⟩]
  | .stnTileCount => [⟨31, 20, .rw, 0⟩, ⟨19, 0, .rw, 0⟩]
  | .stnBindStatus => [⟨16, 16, .ro, 0⟩, ⟨15, 8, .ro, 0⟩, ⟨2, 0, .ro, 0⟩]
  | .stnBindDetail => [⟨29, 24, .ro, 0⟩, ⟨23, 0, .ro, 0⟩]
  | .stnBindStats => [⟨23, 12, .ro, 0⟩, ⟨11, 0, .ro, 0⟩]
  | .bcnPeriod => [⟨19, 0, .rwl, 50000⟩]
  | .bcnPeriodNext => [⟨31, 31, .ro, 0⟩, ⟨19, 0, .ro, 0⟩]
  | .bcnWatch => [⟨47, 0, .ro, 0⟩]
  | .bcnSettleLen => [⟨15, 0, .rwl, 1024⟩]
  | .bcnStatus => [⟨3, 3, .w1c, 0⟩, ⟨2, 2, .ro, 0⟩, ⟨1, 1, .ro, 0⟩, ⟨0, 0, .ro, 0⟩]
  | .bcnPhase => [⟨31, 30, .ro, 0⟩, ⟨29, 29, .ro, 0⟩, ⟨28, 28, .ro, 0⟩, ⟨27, 27, .ro, 0⟩, ⟨20, 0, .ro, 0⟩]
  | .bcnWatchCycles => [⟨20, 0, .ro, 0⟩]
  | .bcnSkewComp => [⟨15, 0, .rw, 0⟩]
  | .bcnMiss => [⟨16, 16, .w1c, 0⟩, ⟨15, 0, .ro, 0⟩]
  | .bcnOverrunCount => [⟨31, 0, .ro, 0⟩]
  | .bcnOverrunLast => [⟨31, 28, .ro, 0⟩, ⟨27, 16, .ro, 0⟩, ⟨15, 0, .ro, 0⟩]
  | .tilWinSel => [⟨19, 0, .rw, 0⟩]
  | .tilId => [⟨19, 0, .ro, 0⟩]
  | .tilRole => [⟨1, 0, .rwl, 0⟩]
  | .tilSplit => [⟨31, 28, .ro, 0⟩, ⟨21, 16, .rwl, 1⟩, ⟨13, 8, .rwl, 0⟩, ⟨7, 4, .rwl, 2⟩, ⟨1, 0, .rwl, 0⟩]
  | .tilStatus => [⟨23, 16, .ro, 0⟩, ⟨15, 8, .ro, 0⟩, ⟨7, 0, .ro, 0⟩]
  | .tilTagStatus => [⟨16, 16, .ro, 0⟩, ⟨15, 0, .ro, 0⟩]
  | .tgpCtl => [⟨3, 3, .rw, 0⟩, ⟨2, 2, .wo, 0⟩, ⟨1, 1, .wo, 0⟩, ⟨0, 0, .rw, 0⟩]
  | .tgpState => [⟨31, 29, .ro, 0⟩, ⟨28, 25, .ro, 0⟩, ⟨24, 22, .ro, 0⟩, ⟨15, 0, .ro, 0⟩]
  | .tgpTrap => [⟨23, 16, .ro, 0⟩, ⟨15, 0, .ro, 0⟩]
  | .tgpTrapAddr => [⟨63, 0, .ro, 0⟩]
  | .tgpWdog => [⟨20, 0, .rwl, 16384⟩]
  | .tilCountIssue => [⟨31, 0, .ro, 0⟩]
  | .tilCountIdle => [⟨31, 0, .ro, 0⟩]
  | .tilCountTagStall => [⟨31, 0, .ro, 0⟩]
  | .tilCountCacheHit => [⟨31, 0, .ro, 0⟩]
  | .tilCountCacheMiss => [⟨31, 0, .ro, 0⟩]
  | .tilCountReleaseLate => [⟨31, 0, .ro, 0⟩]
  | .tilCountStaleDiscard => [⟨31, 0, .ro, 0⟩]
  | .tilCountEccCorr => [⟨31, 0, .ro, 0⟩]
  | .chnSlotCfg => [⟨31, 31, .rwl, 0⟩, ⟨30, 30, .rwl, 0⟩, ⟨29, 29, .rwl, 0⟩, ⟨28, 27, .rwl, 0⟩, ⟨26, 24, .rwl, 0⟩, ⟨23, 22, .rwl, 0⟩, ⟨21, 20, .rwl, 0⟩, ⟨18, 10, .rwl, 0⟩, ⟨8, 0, .rwl, 0⟩]
  | .chnSlotDest => [⟨30, 28, .rwl, 0⟩, ⟨27, 24, .rwl, 0⟩, ⟨19, 0, .rwl, 0⟩]
  | .chnSlotWindow => [⟨31, 16, .rwl, 0⟩, ⟨15, 0, .rwl, 0⟩]
  | .chnSlotDone => [⟨31, 31, .rwl, 0⟩, ⟨26, 16, .rwl, 0⟩, ⟨15, 0, .rwl, 0⟩]
  | .chnSlotStatus => [⟨31, 20, .ro, 0⟩, ⟨7, 7, .ro, 0⟩, ⟨6, 6, .w1c, 0⟩, ⟨5, 5, .w1c, 0⟩, ⟨4, 4, .w1c, 0⟩, ⟨3, 3, .w1c, 0⟩, ⟨2, 2, .w1c, 0⟩, ⟨1, 1, .w1c, 0⟩, ⟨0, 0, .ro, 0⟩]
  | .chnSlotCtl => [⟨0, 0, .wo, 0⟩]
  | .chnSlotCredit => [⟨23, 12, .ro, 0⟩, ⟨11, 0, .ro, 0⟩]
  | .strRule => [⟨31, 31, .rwl, 0⟩, ⟨30, 28, .rwl, 0⟩, ⟨27, 27, .rwl, 0⟩, ⟨26, 26, .rwl, 0⟩, ⟨25, 24, .rwl, 0⟩, ⟨23, 20, .rwl, 0⟩, ⟨19, 16, .rwl, 0⟩]
  | .strRuleParam => [⟨27, 16, .rwl, 0⟩, ⟨7, 4, .rwl, 0⟩, ⟨3, 0, .rwl, 0⟩]
  | .strRuleState => [⟨31, 31, .ro, 0⟩, ⟨30, 30, .ro, 0⟩, ⟨15, 4, .ro, 0⟩, ⟨3, 0, .ro, 0⟩]
  | .strStatus => [⟨5, 5, .ro, 0⟩, ⟨4, 4, .w1c, 0⟩, ⟨3, 3, .w1c, 0⟩, ⟨2, 2, .w1c, 0⟩, ⟨1, 1, .w1c, 0⟩]
  | .strDrainCtl => [⟨31, 31, .wo, 0⟩, ⟨11, 0, .rw, 0⟩]
  | .strDrainStatus => [⟨31, 30, .ro, 0⟩, ⟨27, 16, .ro, 0⟩, ⟨15, 0, .ro, 0⟩]
  | .strDrainBound => [⟨15, 0, .ro, 0⟩]
  | .strCountFire => [⟨31, 0, .ro, 0⟩]
  | .strCountWords => [⟨31, 0, .ro, 0⟩]
  | .strCountDiscard => [⟨31, 0, .ro, 0⟩]
  | .strCountStallOut => [⟨31, 0, .ro, 0⟩]
  | .strCountStallPath => [⟨31, 0, .ro, 0⟩]
  | .mshLlEntry => [⟨63, 63, .rw, 0⟩, ⟨62, 60, .rw, 0⟩, ⟨59, 55, .rw, 0⟩, ⟨43, 32, .rw, 0⟩, ⟨31, 31, .rw, 0⟩, ⟨30, 30, .rw, 0⟩, ⟨29, 29, .rw, 0⟩, ⟨28, 28, .rw, 0⟩, ⟨27, 27, .rw, 0⟩, ⟨26, 24, .rw, 0⟩, ⟨22, 20, .rw, 0⟩, ⟨19, 0, .rw, 0⟩]
  | .mshTileSector => [⟨11, 0, .rwl, 4095⟩]
  | .mshPortCfg => [⟨31, 31, .rwl, 0⟩, ⟨30, 30, .rwl, 0⟩, ⟨29, 29, .ro, 0⟩, ⟨11, 0, .rwl, 4095⟩]
  | .mshStatus => [⟨2, 2, .w1c, 0⟩, ⟨1, 1, .w1c, 0⟩, ⟨0, 0, .w1c, 0⟩]
  | .mshSectorSel => [⟨11, 0, .rw, 0⟩]
  | .mshEpoch => [⟨31, 31, .ro, 0⟩, ⟨30, 30, .ro, 0⟩, ⟨29, 29, .ro, 0⟩, ⟨15, 0, .ro, 0⟩]
  | .mshEpochCtl => [⟨31, 31, .wo, 0⟩, ⟨15, 0, .rw, 0⟩]
  | .mshOldEpochCount => [⟨19, 0, .ro, 0⟩]
  | .mshCountFlits => [⟨31, 0, .ro, 0⟩]
  | .mshCountStall => [⟨31, 0, .ro, 0⟩]
  | .mshCountBoundaryDrop => [⟨31, 0, .ro, 0⟩]
  | .mshCountMisroute => [⟨31, 0, .ro, 0⟩]
  | .mshCountLinkCorr => [⟨31, 0, .ro, 0⟩]
  | .mshCountLinkPoison => [⟨31, 0, .ro, 0⟩]
  | .buyCfg => [⟨31, 30, .rwl, 0⟩, ⟨29, 29, .rwl, 0⟩, ⟨28, 27, .rwl, 0⟩, ⟨11, 0, .rwl, 4095⟩]
  | .buyInit => [⟨23, 0, .rwl, 0⟩]
  | .buyTarget => [⟨23, 0, .rwl, 1⟩]
  | .buyState => [⟨31, 31, .ro, 0⟩, ⟨30, 30, .w1c, 0⟩, ⟨29, 29, .ro, 0⟩, ⟨23, 0, .ro, 0⟩]
  | .buySectorGroup => [⟨11, 0, .rwl, 4095⟩]
  | .buyKopArg => [⟨23, 0, .rw, 0⟩]
  | .buyKop => [⟨31, 29, .wo, 0⟩, ⟨9, 0, .wo, 0⟩]
  | .buyStatus => [⟨31, 19, .ro, 0⟩, ⟨3, 3, .w1c, 0⟩, ⟨2, 2, .w1c, 0⟩, ⟨1, 1, .w1c, 0⟩, ⟨0, 0, .w1c, 0⟩]
  | .buyCountOps => [⟨31, 0, .ro, 0⟩]
  | .buyCountWatch => [⟨31, 0, .ro, 0⟩]
  | .buyCountNotice => [⟨31, 0, .ro, 0⟩]
  | .buyCountRefused => [⟨31, 0, .ro, 0⟩]
  | .buyCountLate => [⟨31, 0, .ro, 0⟩]
  | .buyCountWatchStall => [⟨31, 0, .ro, 0⟩]
  | .buyCountSaturate => [⟨31, 0, .ro, 0⟩]
  | .lnsMode => [⟨2, 0, .rwl, 0⟩]
  | .lnsGeom => [⟨31, 31, .ro, 0⟩, ⟨26, 16, .ro, 0⟩, ⟨8, 0, .ro, 0⟩]
  | .lnsPanelOwner => [⟨11, 0, .rwl, 4095⟩]
  | .lnsPanelMap => [⟨9, 0, .rwl, 0⟩]
  | .lnsDesc => [⟨31, 0, .rwl, 0⟩]
  | .lnsPreload => [⟨63, 63, .rwl, 0⟩, ⟨62, 56, .rwl, 0⟩, ⟨55, 48, .rwl, 0⟩, ⟨20, 0, .rwl, 0⟩]
  | .lnsStatus => [⟨31, 29, .ro, 0⟩, ⟨28, 27, .ro, 0⟩, ⟨26, 25, .ro, 0⟩, ⟨24, 24, .ro, 0⟩, ⟨17, 16, .ro, 0⟩, ⟨3, 3, .w1c, 0⟩, ⟨2, 2, .w1c, 0⟩, ⟨1, 1, .w1c, 0⟩, ⟨0, 0, .w1c, 0⟩]
  | .lnsStretchLedger => [⟨31, 0, .ro, 0⟩]
  | .lnsRepair => [⟨31, 31, .ro, 0⟩, ⟨30, 30, .ro, 0⟩, ⟨9, 0, .ro, 0⟩]
  | .lnsCountPasses => [⟨31, 0, .ro, 0⟩]
  | .lnsCountAbandoned => [⟨31, 0, .ro, 0⟩]
  | .lnsCountBusy => [⟨31, 0, .ro, 0⟩]
  | .lnsCountLoad => [⟨31, 0, .ro, 0⟩]
  | .lnsCountFsStall => [⟨31, 0, .ro, 0⟩]
  | .lnsCountSaturate => [⟨31, 0, .ro, 0⟩]
  | .lnsCountReservedCode => [⟨31, 0, .ro, 0⟩]
  | .fstRegionCfg => [⟨31, 31, .rwl, 0⟩, ⟨30, 29, .rwl, 0⟩, ⟨28, 27, .rwl, 0⟩, ⟨26, 25, .ro, 0⟩, ⟨24, 13, .rwl, 0⟩, ⟨11, 0, .rwl, 4095⟩]
  | .fstRegionSpan => [⟨29, 16, .rwl, 0⟩, ⟨13, 0, .rwl, 0⟩]
  | .fstRegionFill => [⟨51, 32, .ro, 0⟩, ⟨19, 0, .ro, 0⟩]
  | .fstStatus => [⟨31, 18, .ro, 0⟩, ⟨3, 3, .ro, 0⟩, ⟨2, 2, .w1c, 0⟩, ⟨1, 1, .w1c, 0⟩, ⟨0, 0, .w1c, 0⟩]
  | .mveStatus => [⟨31, 28, .ro, 0⟩, ⟨27, 27, .ro, 0⟩, ⟨26, 20, .ro, 0⟩, ⟨2, 2, .w1c, 0⟩, ⟨1, 1, .w1c, 0⟩, ⟨0, 0, .w1c, 0⟩]
  | .stgEngineStatus => [⟨31, 22, .ro, 0⟩, ⟨21, 15, .ro, 0⟩, ⟨1, 1, .ro, 0⟩, ⟨0, 0, .w1c, 0⟩]
  | .stgLateLast => [⟨31, 20, .ro, 0⟩, ⟨15, 0, .ro, 0⟩]
  | .fstCountAccess => [⟨31, 0, .ro, 0⟩]
  | .fstCountConflict => [⟨31, 0, .ro, 0⟩]
  | .fstCountRefused => [⟨31, 0, .ro, 0⟩]
  | .fstCountEccCorr => [⟨31, 0, .ro, 0⟩]
  | .fstCountPoison => [⟨31, 0, .ro, 0⟩]
  | .mveCountOps => [⟨31, 0, .ro, 0⟩]
  | .mveCountAbandoned => [⟨31, 0, .ro, 0⟩]
  | .mveCountBusy => [⟨31, 0, .ro, 0⟩]
  | .mveCountFsStall => [⟨31, 0, .ro, 0⟩]
  | .mveCountSaturate => [⟨31, 0, .ro, 0⟩]
  | .mveCountReservedCode => [⟨31, 0, .ro, 0⟩]
  | .stgCountLines => [⟨31, 0, .ro, 0⟩]
  | .stgCountReadStall => [⟨31, 0, .ro, 0⟩]
  | .stgCountLate => [⟨31, 0, .ro, 0⟩]
  | .sptSectorSel => [⟨11, 0, .rw, 0⟩]
  | .sptState => [⟨53, 48, .ro, 0⟩, ⟨47, 0, .ro, 0⟩]
  | .sptTagParent => [⟨4, 4, .rwl, 1⟩, ⟨3, 0, .rwl, 0⟩]
  | .sptStatus => [⟨1, 1, .w1c, 0⟩, ⟨0, 0, .w1c, 0⟩]
  | .sptTileStatus => [⟨31, 27, .ro, 0⟩, ⟨26, 22, .ro, 0⟩, ⟨21, 21, .w1c, 0⟩, ⟨6, 5, .ro, 0⟩, ⟨3, 0, .ro, 0⟩]
  | .sptShadowMeta => [⟨31, 31, .ro, 0⟩, ⟨30, 30, .ro, 0⟩, ⟨29, 29, .ro, 0⟩, ⟨19, 16, .ro, 0⟩, ⟨9, 0, .ro, 0⟩]
  | .sptCountConfirm => [⟨31, 0, .ro, 0⟩]
  | .sptCountSquash => [⟨31, 0, .ro, 0⟩]
  | .sptCountSweep => [⟨31, 0, .ro, 0⟩]
  | .sptCountConflict => [⟨31, 0, .ro, 0⟩]
  | .sptCountShadowStall => [⟨31, 0, .ro, 0⟩]
  | .sptCountLinesCommit => [⟨31, 0, .ro, 0⟩]
  | .sptCountLinesDiscard => [⟨31, 0, .ro, 0⟩]
  | .sptCountDead => [⟨31, 0, .ro, 0⟩]
  | .stnImageStatus => [⟨31, 24, .ro, 0⟩, ⟨16, 16, .ro, 0⟩, ⟨10, 8, .ro, 0⟩, ⟨2, 0, .ro, 0⟩]
  | .stnImageDetail => [⟨31, 24, .ro, 0⟩, ⟨23, 0, .ro, 0⟩]
  | .stnImageLoaded => [⟨31, 16, .ro, 0⟩, ⟨2, 0, .ro, 0⟩]
  | .stnImageFloor => [⟨8, 8, .ro, 0⟩, ⟨7, 0, .ro, 0⟩]
  | .stnOwner => [⟨15, 0, .ro, 0⟩]
  | .stnCharSectorSel => [⟨11, 0, .rw, 0⟩]
  | .stnCharState => [⟨31, 29, .ro, 0⟩, ⟨28, 26, .ro, 0⟩, ⟨25, 23, .ro, 0⟩, ⟨22, 22, .ro, 0⟩, ⟨21, 20, .ro, 0⟩, ⟨19, 15, .ro, 0⟩]
  | .stnCharRuns => [⟨31, 0, .ro, 0⟩]
  | .pwrBayState => [⟨23, 16, .ro, 0⟩, ⟨12, 12, .ro, 0⟩, ⟨11, 8, .ro, 0⟩, ⟨5, 4, .ro, 0⟩, ⟨2, 0, .ro, 0⟩]
  | .pwrStretchLedger => [⟨20, 0, .ro, 0⟩]
  | .pwrStretchLive => [⟨20, 0, .ro, 0⟩]
  | .pwrDroopCfg => [⟨5, 0, .rw, 30⟩]
  | .pwrVfCore => [⟨31, 31, .rw, 0⟩, ⟨9, 0, .rw, 0⟩]
  | .pwrVfLens => [⟨31, 31, .rw, 0⟩, ⟨9, 0, .rw, 0⟩]
  | .pwrStatus => [⟨31, 31, .w1c, 0⟩, ⟨30, 30, .w1c, 0⟩, ⟨29, 29, .w1c, 0⟩, ⟨28, 28, .w1c, 0⟩, ⟨27, 27, .w1c, 0⟩, ⟨26, 20, .ro, 0⟩, ⟨19, 10, .ro, 0⟩, ⟨9, 0, .ro, 0⟩]
  | .pwrRailStatus => [⟨31, 31, .w1c, 0⟩, ⟨30, 30, .ro, 0⟩, ⟨29, 20, .ro, 0⟩, ⟨15, 0, .ro, 0⟩]
  | .stnNvInhibit => [⟨31, 31, .ro, 1⟩, ⟨30, 30, .ro, 0⟩, ⟨17, 8, .ro, 0⟩, ⟨1, 1, .w1c, 0⟩, ⟨0, 0, .w1c, 0⟩]
  | .thmTemp => [⟨11, 0, .ro, 0⟩]
  | .thmCfg => [⟨27, 16, .rw, 760⟩, ⟨11, 0, .rw, 720⟩]
  | .thmStatus => [⟨31, 31, .ro, 0⟩, ⟨30, 30, .ro, 0⟩, ⟨29, 29, .w1c, 0⟩, ⟨11, 0, .ro, 0⟩]
  | .stnPlanStatus => [⟨9, 9, .w1c, 0⟩, ⟨8, 8, .ro, 0⟩, ⟨2, 0, .ro, 0⟩]
  | .stnPlanField => [⟨31, 20, .ro, 1024⟩, ⟨19, 11, .ro, 340⟩, ⟨10, 0, .ro, 0⟩]
  | .stnPlanSector => [⟨31, 29, .ro, 0⟩, ⟨28, 27, .ro, 2⟩, ⟨15, 0, .ro, 0⟩]
  | .clkPllStatus => [⟨31, 31, .ro, 0⟩, ⟨30, 30, .w1c, 0⟩, ⟨10, 0, .ro, 0⟩]
  | .clkSrcStatus => [⟨7, 7, .ro, 0⟩, ⟨6, 6, .ro, 0⟩, ⟨5, 5, .ro, 0⟩, ⟨4, 4, .ro, 0⟩, ⟨3, 3, .ro, 1⟩, ⟨2, 2, .ro, 1⟩, ⟨1, 1, .ro, 0⟩, ⟨0, 0, .ro, 0⟩]
  | .clkSrcCfg => [⟨0, 0, .rw, 0⟩]
  | .rstDomainCtl => [⟨31, 31, .wo, 0⟩, ⟨26, 24, .rw, 0⟩, ⟨22, 0, .rw, 0⟩]
  | .rstStatus => [⟨31, 31, .ro, 0⟩, ⟨26, 24, .ro, 0⟩, ⟨23, 23, .w1c, 0⟩, ⟨22, 0, .ro, 0⟩]
  | .rstCause => [⟨23, 8, .ro, 0⟩, ⟨3, 0, .ro, 0⟩]
  | .stnStartup => [⟨31, 31, .ro, 0⟩, ⟨30, 30, .ro, 0⟩, ⟨29, 29, .ro, 1⟩, ⟨23, 20, .ro, 0⟩, ⟨19, 0, .ro, 0⟩]
  | .stnStartupFields => [⟨63, 0, .ro, 0⟩]
  | .stnStartupPorts => [⟨31, 16, .ro, 0⟩, ⟨15, 8, .ro, 0⟩, ⟨3, 0, .ro, 0⟩]
  | .stnFwStatus => [⟨31, 31, .ro, 0⟩, ⟨30, 30, .ro, 0⟩, ⟨29, 29, .ro, 0⟩, ⟨28, 28, .ro, 0⟩, ⟨23, 16, .ro, 0⟩, ⟨15, 8, .ro, 0⟩, ⟨7, 0, .ro, 0⟩]
  | .hstRingCfg => [⟨31, 31, .rw, 0⟩, ⟨30, 30, .rw, 0⟩, ⟨29, 29, .rw, 0⟩, ⟨22, 20, .rw, 0⟩, ⟨19, 12, .rw, 0⟩, ⟨9, 4, .rw, 0⟩, ⟨3, 0, .rw, 4⟩]
  | .hstRingState => [⟨31, 31, .w1c, 0⟩, ⟨30, 30, .ro, 0⟩, ⟨29, 12, .ro, 0⟩, ⟨11, 0, .ro, 4095⟩]
  | .hstMboxCmd => [⟨31, 31, .wo, 0⟩, ⟨7, 0, .wo, 0⟩]
  | .hstMboxStatus => [⟨31, 30, .ro, 0⟩, ⟨23, 16, .ro, 0⟩, ⟨15, 0, .ro, 0⟩]
  | .hstTimeout => [⟨25, 16, .rw, 50⟩, ⟨9, 0, .rw, 20⟩]
  | .jlfCfg => [⟨31, 31, .rw, 0⟩, ⟨20, 16, .rw, 0⟩, ⟨15, 0, .rw, 0⟩]
  | .jlfTimeout => [⟨9, 0, .rw, 10⟩]
  | .fkpHeartbeat => [⟨31, 24, .ro, 0⟩, ⟨23, 16, .ro, 0⟩, ⟨15, 0, .rw, 0⟩]
  | .fkpStatus => [⟨31, 31, .ro, 0⟩, ⟨30, 30, .ro, 0⟩, ⟨29, 29, .ro, 0⟩, ⟨28, 28, .ro, 0⟩, ⟨27, 27, .ro, 0⟩, ⟨15, 0, .ro, 0⟩]
  | .fkpCfg => [⟨15, 0, .rw, 0⟩]
  | .stnSectorHealth => [⟨31, 30, .ro, 0⟩, ⟨15, 0, .ro, 0⟩]
  | .stnWdogCfg => [⟨31, 31, .rw, 1⟩, ⟨19, 0, .rw, 0⟩]
  | .stnWdogStatus => [⟨31, 30, .ro, 0⟩, ⟨29, 29, .ro, 0⟩, ⟨19, 0, .ro, 0⟩]
  | .stnWdogAck => [⟨0, 0, .wo, 0⟩]
  | .stnFoghorn => [⟨31, 31, .ro, 0⟩, ⟨5, 0, .ro, 0⟩]
  | .stnPeerCfg => [⟨31, 31, .rw, 0⟩, ⟨3, 0, .rw, 15⟩]
  | .stnPeerStatus => [⟨31, 31, .ro, 0⟩, ⟨30, 30, .w1c, 0⟩, ⟨29, 29, .w1c, 0⟩, ⟨28, 24, .ro, 0⟩, ⟨23, 16, .ro, 0⟩, ⟨15, 0, .ro, 0⟩]
  | .stnPeerCtl => [⟨1, 1, .wo, 0⟩, ⟨0, 0, .wo, 0⟩]
  | .dbgGroupSel => [⟨2, 0, .rw, 0⟩]
  | .dbgBreak => [⟨31, 31, .rw, 0⟩, ⟨23, 16, .rw, 0⟩, ⟨15, 0, .rw, 0⟩]
  | .dbgHaltCause => [⟨31, 16, .ro, 0⟩, ⟨2, 0, .ro, 0⟩]
  | .stnDebugSession => [⟨31, 31, .ro, 0⟩, ⟨30, 30, .ro, 0⟩, ⟨29, 27, .ro, 0⟩, ⟨23, 0, .ro, 0⟩]
  | .mgtUartCfg => [⟨21, 0, .rw, 115200⟩]
  | .mgtGpio => [⟨31, 0, .ro, 0⟩]
  | .pwrEnergyWatch => [⟨31, 0, .ro, 0⟩]
  | .pwrEnergyTotal => [⟨63, 0, .ro, 0⟩]
  | .pwrAgeMargin => [⟨31, 31, .ro, 0⟩, ⟨9, 0, .ro, 0⟩]
  | .pwrCountStretch => [⟨31, 0, .ro, 0⟩]
  | .pwrCountDenied => [⟨31, 0, .ro, 0⟩]
  | .pwrCountGateFault => [⟨31, 0, .ro, 0⟩]
  | .pwrCap => [⟨14, 0, .ro, 18000⟩]
  | .pwrWaferEnergy => [⟨31, 0, .ro, 0⟩]
  | .pwrAlertEn => [⟨4, 0, .rw, 31⟩]
  | .stnPlanBudget => [⟨31, 0, .ro, 0⟩]
  | .stnPlanPredict => [⟨31, 0, .ro, 0⟩]
  | .stnPlanCountBrownout => [⟨31, 0, .ro, 0⟩]
  | .stnPlanCountLate => [⟨31, 0, .ro, 0⟩]
  | .stnPlanCountShelved => [⟨31, 0, .ro, 0⟩]
  | .stnPlanCountMiss => [⟨31, 0, .ro, 0⟩]
  | .clkCountGated => [⟨31, 0, .ro, 0⟩]
  | .clkCountLoss => [⟨31, 0, .ro, 0⟩]
  | .clkEnable => [⟨31, 0, .rw, 0⟩]
  | .clkRunning => [⟨31, 0, .ro, 0⟩]
  | .stnCountFog => [⟨31, 0, .ro, 0⟩]
  | .stnCountFailover => [⟨31, 0, .ro, 0⟩]
  | .fkpCountMiss => [⟨31, 0, .ro, 0⟩]
  | .fkpCountFence => [⟨31, 0, .ro, 0⟩]
  | .dbgSampleCfg => [⟨63, 32, .ro, 0⟩, ⟨19, 0, .rw, 0⟩]
  | .dbgSample => [⟨31, 0, .ro, 0⟩]
  | .dbgEventHead => [⟨31, 0, .ro, 0⟩]
  | .dbgEventLost => [⟨31, 0, .ro, 0⟩]
  | .stnEventHead => [⟨31, 0, .ro, 0⟩]
  | .stnEventSel => [⟨6, 0, .rw, 64⟩]
  | .stnEventIrq => [⟨31, 31, .rw, 0⟩, ⟨3, 0, .rw, 3⟩]
  | .stnDebugKey => [⟨31, 0, .ro, 0⟩]
  | .stnDebugFields => [⟨63, 0, .ro, 0⟩]
  | .dbgReg => [⟨63, 0, .rw, 0⟩]
  | .hstRingReqBase => [⟨63, 0, .rw, 0⟩]
  | .hstRingResBase => [⟨63, 0, .rw, 0⟩]
  | .hstRingStatusAddr => [⟨63, 0, .rw, 0⟩]
  | .hstRingOwned => [⟨31, 0, .ro, 0⟩]
  | .hstCountFetched => [⟨31, 0, .ro, 0⟩]
  | .hstCountRetired => [⟨31, 0, .ro, 0⟩]
  | .hstCountResultBad => [⟨31, 0, .ro, 0⟩]
  | .hstCountResultOverflow => [⟨31, 0, .ro, 0⟩]
  | .hstCountBadTenant => [⟨31, 0, .ro, 0⟩]
  | .hstMboxArg => [⟨31, 0, .rw, 0⟩]
  | .hstMboxResult => [⟨31, 0, .ro, 0⟩]
  | .jlfCountCrc => [⟨31, 0, .ro, 0⟩]
  | .stnKeyFloor => [⟨31, 0, .ro, 0⟩]
  | .stnImageId => [⟨63, 0, .ro, 0⟩]
  | .stnImageDigest => [⟨31, 0, .ro, 0⟩]
  | .fstWinAddr => [⟨25, 0, .rw, 0⟩]
  | .fstWinData => [⟨31, 0, .rw, 0⟩]
  | .sptShadowMask => [⟨63, 0, .ro, 0⟩]
  | .sptShadowData => [⟨63, 0, .ro, 0⟩]
  | .chnCountItems => [⟨31, 0, .ro, 0⟩]
  | .chnCountWords => [⟨31, 0, .ro, 0⟩]
  | .chnCountStallCredit => [⟨31, 0, .ro, 0⟩]
  | .chnCountStallRecv => [⟨31, 0, .ro, 0⟩]
  | .chnCountFlush => [⟨31, 0, .ro, 0⟩]
  | .chnCountDiscard => [⟨31, 0, .ro, 0⟩]
  | .chnCountCollide => [⟨31, 0, .ro, 0⟩]
  | .mveDesc => [⟨31, 0, .rwl, 0⟩]
  | .bcnWatchField => [⟨47, 0, .ro, 0⟩]

/-- Registers of 64 bits, read as two words under R8. -/
def Reg.wide : Reg → Bool
  | .bcnWatch => true
  | .tgpTrapAddr => true
  | .mshLlEntry => true
  | .lnsPreload => true
  | .fstRegionFill => true
  | .sptState => true
  | .stnStartupFields => true
  | .pwrEnergyTotal => true
  | .dbgSampleCfg => true
  | .stnDebugFields => true
  | .dbgReg => true
  | .hstRingReqBase => true
  | .hstRingResBase => true
  | .hstRingStatusAddr => true
  | .stnImageId => true
  | .sptShadowMask => true
  | .sptShadowData => true
  | .bcnWatchField => true
  | _ => false

/-- `STN_GRADE`.FULL_LENSES. -/ def F.stnGrade_full_lenses : RegField := ⟨.stnGrade, 16, 8⟩
/-- `STN_GRADE`.GRADE. -/ def F.stnGrade_grade : RegField := ⟨.stnGrade, 1, 0⟩
/-- `STN_TILE_COUNT`.RETIRED_BAYS. -/ def F.stnTileCount_retired_bays : RegField := ⟨.stnTileCount, 31, 20⟩
/-- `STN_TILE_COUNT`.SERVICEABLE. -/ def F.stnTileCount_serviceable : RegField := ⟨.stnTileCount, 19, 0⟩
/-- `STN_BIND_STATUS`.RESTARTED. -/ def F.stnBindStatus_restarted : RegField := ⟨.stnBindStatus, 16, 16⟩
/-- `STN_BIND_STATUS`.REASON. -/ def F.stnBindStatus_reason : RegField := ⟨.stnBindStatus, 15, 8⟩
/-- `STN_BIND_STATUS`.STATE. -/ def F.stnBindStatus_state : RegField := ⟨.stnBindStatus, 2, 0⟩
/-- `STN_BIND_DETAIL`.EXCESS. -/ def F.stnBindDetail_excess : RegField := ⟨.stnBindDetail, 29, 24⟩
/-- `STN_BIND_DETAIL`.ITEM. -/ def F.stnBindDetail_item : RegField := ⟨.stnBindDetail, 23, 0⟩
/-- `STN_BIND_STATS`.REMAPPED_TILES. -/ def F.stnBindStats_remapped_tiles : RegField := ⟨.stnBindStats, 23, 12⟩
/-- `STN_BIND_STATS`.DISPLACED_BAYS. -/ def F.stnBindStats_displaced_bays : RegField := ⟨.stnBindStats, 11, 0⟩
/-- `BCN_PERIOD`.PERIOD. -/ def F.bcnPeriod_period : RegField := ⟨.bcnPeriod, 19, 0⟩
/-- `BCN_PERIOD_NEXT`.PENDING. -/ def F.bcnPeriodNext_pending : RegField := ⟨.bcnPeriodNext, 31, 31⟩
/-- `BCN_PERIOD_NEXT`.PERIOD. -/ def F.bcnPeriodNext_period : RegField := ⟨.bcnPeriodNext, 19, 0⟩
/-- `BCN_WATCH`.WATCH. -/ def F.bcnWatch_watch : RegField := ⟨.bcnWatch, 47, 0⟩
/-- `BCN_SETTLE_LEN`.LEN. -/ def F.bcnSettleLen_len : RegField := ⟨.bcnSettleLen, 15, 0⟩
/-- `BCN_STATUS`.VERDICT_FAULT. -/ def F.bcnStatus_verdict_fault : RegField := ⟨.bcnStatus, 3, 3⟩
/-- `BCN_STATUS`.PERIOD_PENDING. -/ def F.bcnStatus_period_pending : RegField := ⟨.bcnStatus, 2, 2⟩
/-- `BCN_STATUS`.HOLDOVER. -/ def F.bcnStatus_holdover : RegField := ⟨.bcnStatus, 1, 1⟩
/-- `BCN_STATUS`.RUNNING. -/ def F.bcnStatus_running : RegField := ⟨.bcnStatus, 0, 0⟩
/-- `BCN_PHASE`.PHASE. -/ def F.bcnPhase_phase : RegField := ⟨.bcnPhase, 31, 30⟩
/-- `BCN_PHASE`.REST. -/ def F.bcnPhase_rest : RegField := ⟨.bcnPhase, 29, 29⟩
/-- `BCN_PHASE`.HELD. -/ def F.bcnPhase_held : RegField := ⟨.bcnPhase, 28, 28⟩
/-- `BCN_PHASE`.COAST. -/ def F.bcnPhase_coast : RegField := ⟨.bcnPhase, 27, 27⟩
/-- `BCN_PHASE`.CYCLE. -/ def F.bcnPhase_cycle : RegField := ⟨.bcnPhase, 20, 0⟩
/-- `BCN_WATCH_CYCLES`.CYCLES. -/ def F.bcnWatchCycles_cycles : RegField := ⟨.bcnWatchCycles, 20, 0⟩
/-- `BCN_SKEW_COMP`.COMP. -/ def F.bcnSkewComp_comp : RegField := ⟨.bcnSkewComp, 15, 0⟩
/-- `BCN_MISS`.MISSED. -/ def F.bcnMiss_missed : RegField := ⟨.bcnMiss, 16, 16⟩
/-- `BCN_MISS`.COUNT. -/ def F.bcnMiss_count : RegField := ⟨.bcnMiss, 15, 0⟩
/-- `BCN_OVERRUN_COUNT`.COUNT. -/ def F.bcnOverrunCount_count : RegField := ⟨.bcnOverrunCount, 31, 0⟩
/-- `BCN_OVERRUN_LAST`.REASON. -/ def F.bcnOverrunLast_reason : RegField := ⟨.bcnOverrunLast, 31, 28⟩
/-- `BCN_OVERRUN_LAST`.SECTOR. -/ def F.bcnOverrunLast_sector : RegField := ⟨.bcnOverrunLast, 27, 16⟩
/-- `BCN_OVERRUN_LAST`.WATCH_LOW. -/ def F.bcnOverrunLast_watch_low : RegField := ⟨.bcnOverrunLast, 15, 0⟩
/-- `TIL_WIN_SEL`.TILE. -/ def F.tilWinSel_tile : RegField := ⟨.tilWinSel, 19, 0⟩
/-- `TIL_ID`.TILE. -/ def F.tilId_tile : RegField := ⟨.tilId, 19, 0⟩
/-- `TIL_ROLE`.ROLE. -/ def F.tilRole_role : RegField := ⟨.tilRole, 1, 0⟩
/-- `TIL_SPLIT`.OCCUPANCY. -/ def F.tilSplit_occupancy : RegField := ⟨.tilSplit, 31, 28⟩
/-- `TIL_SPLIT`.FRAME. -/ def F.tilSplit_frame : RegField := ⟨.tilSplit, 21, 16⟩
/-- `TIL_SPLIT`.SHARED. -/ def F.tilSplit_shared : RegField := ⟨.tilSplit, 13, 8⟩
/-- `TIL_SPLIT`.POOL. -/ def F.tilSplit_pool : RegField := ⟨.tilSplit, 7, 4⟩
/-- `TIL_SPLIT`.CACHE. -/ def F.tilSplit_cache : RegField := ⟨.tilSplit, 1, 0⟩
/-- `TIL_STATUS`.ACTIVE. -/ def F.tilStatus_active : RegField := ⟨.tilStatus, 23, 16⟩
/-- `TIL_STATUS`.DONE. -/ def F.tilStatus_done : RegField := ⟨.tilStatus, 15, 8⟩
/-- `TIL_STATUS`.TRAPPED. -/ def F.tilStatus_trapped : RegField := ⟨.tilStatus, 7, 0⟩
/-- `TIL_TAG_STATUS`.EOW. -/ def F.tilTagStatus_eow : RegField := ⟨.tilTagStatus, 16, 16⟩
/-- `TIL_TAG_STATUS`.INUSE. -/ def F.tilTagStatus_inuse : RegField := ⟨.tilTagStatus, 15, 0⟩
/-- `TGP_CTL`.HOLD_ON_TRAP. -/ def F.tgpCtl_hold_on_trap : RegField := ⟨.tgpCtl, 3, 3⟩
/-- `TGP_CTL`.RESUME. -/ def F.tgpCtl_resume : RegField := ⟨.tgpCtl, 2, 2⟩
/-- `TGP_CTL`.STEP. -/ def F.tgpCtl_step : RegField := ⟨.tgpCtl, 1, 1⟩
/-- `TGP_CTL`.HALT. -/ def F.tgpCtl_halt : RegField := ⟨.tgpCtl, 0, 0⟩
/-- `TGP_STATE`.STATE. -/ def F.tgpState_state : RegField := ⟨.tgpState, 31, 29⟩
/-- `TGP_STATE`.RECON_DEPTH. -/ def F.tgpState_recon_depth : RegField := ⟨.tgpState, 28, 25⟩
/-- `TGP_STATE`.WAIT. -/ def F.tgpState_wait : RegField := ⟨.tgpState, 24, 22⟩
/-- `TGP_STATE`.PC. -/ def F.tgpState_pc : RegField := ⟨.tgpState, 15, 0⟩
/-- `TGP_TRAP`.CAUSE. -/ def F.tgpTrap_cause : RegField := ⟨.tgpTrap, 23, 16⟩
/-- `TGP_TRAP`.PC. -/ def F.tgpTrap_pc : RegField := ⟨.tgpTrap, 15, 0⟩
/-- `TGP_TRAP_ADDR`.ADDR. -/ def F.tgpTrapAddr_addr : RegField := ⟨.tgpTrapAddr, 63, 0⟩
/-- `TGP_WDOG`.LIMIT. -/ def F.tgpWdog_limit : RegField := ⟨.tgpWdog, 20, 0⟩
/-- `TIL_COUNT_ISSUE`.COUNT. -/ def F.tilCountIssue_count : RegField := ⟨.tilCountIssue, 31, 0⟩
/-- `TIL_COUNT_IDLE`.COUNT. -/ def F.tilCountIdle_count : RegField := ⟨.tilCountIdle, 31, 0⟩
/-- `TIL_COUNT_TAG_STALL`.COUNT. -/ def F.tilCountTagStall_count : RegField := ⟨.tilCountTagStall, 31, 0⟩
/-- `TIL_COUNT_CACHE_HIT`.COUNT. -/ def F.tilCountCacheHit_count : RegField := ⟨.tilCountCacheHit, 31, 0⟩
/-- `TIL_COUNT_CACHE_MISS`.COUNT. -/ def F.tilCountCacheMiss_count : RegField := ⟨.tilCountCacheMiss, 31, 0⟩
/-- `TIL_COUNT_RELEASE_LATE`.COUNT. -/ def F.tilCountReleaseLate_count : RegField := ⟨.tilCountReleaseLate, 31, 0⟩
/-- `TIL_COUNT_STALE_DISCARD`.COUNT. -/ def F.tilCountStaleDiscard_count : RegField := ⟨.tilCountStaleDiscard, 31, 0⟩
/-- `TIL_COUNT_ECC_CORR`.COUNT. -/ def F.tilCountEccCorr_count : RegField := ⟨.tilCountEccCorr, 31, 0⟩
/-- `CHN_SLOT_CFG`.ENABLE. -/ def F.chnSlotCfg_enable : RegField := ⟨.chnSlotCfg, 31, 31⟩
/-- `CHN_SLOT_CFG`.KIND. -/ def F.chnSlotCfg_kind : RegField := ⟨.chnSlotCfg, 30, 30⟩
/-- `CHN_SLOT_CFG`.SOURCE. -/ def F.chnSlotCfg_source : RegField := ⟨.chnSlotCfg, 29, 29⟩
/-- `CHN_SLOT_CFG`.LANDING. -/ def F.chnSlotCfg_landing : RegField := ⟨.chnSlotCfg, 28, 27⟩
/-- `CHN_SLOT_CFG`.GROUP. -/ def F.chnSlotCfg_group : RegField := ⟨.chnSlotCfg, 26, 24⟩
/-- `CHN_SLOT_CFG`.PORT. -/ def F.chnSlotCfg_port : RegField := ⟨.chnSlotCfg, 23, 22⟩
/-- `CHN_SLOT_CFG`.SPORT. -/ def F.chnSlotCfg_sport : RegField := ⟨.chnSlotCfg, 21, 20⟩
/-- `CHN_SLOT_CFG`.SIZE. -/ def F.chnSlotCfg_size : RegField := ⟨.chnSlotCfg, 18, 10⟩
/-- `CHN_SLOT_CFG`.BASE. -/ def F.chnSlotCfg_base : RegField := ⟨.chnSlotCfg, 8, 0⟩
/-- `CHN_SLOT_DEST`.NDEST. -/ def F.chnSlotDest_ndest : RegField := ⟨.chnSlotDest, 30, 28⟩
/-- `CHN_SLOT_DEST`.DSLOT. -/ def F.chnSlotDest_dslot : RegField := ⟨.chnSlotDest, 27, 24⟩
/-- `CHN_SLOT_DEST`.TILE. -/ def F.chnSlotDest_tile : RegField := ⟨.chnSlotDest, 19, 0⟩
/-- `CHN_SLOT_WINDOW`.END. -/ def F.chnSlotWindow_end : RegField := ⟨.chnSlotWindow, 31, 16⟩
/-- `CHN_SLOT_WINDOW`.START. -/ def F.chnSlotWindow_start : RegField := ⟨.chnSlotWindow, 15, 0⟩
/-- `CHN_SLOT_DONE`.MODE. -/ def F.chnSlotDone_mode : RegField := ⟨.chnSlotDone, 31, 31⟩
/-- `CHN_SLOT_DONE`.BUOY. -/ def F.chnSlotDone_buoy : RegField := ⟨.chnSlotDone, 26, 16⟩
/-- `CHN_SLOT_DONE`.FLAG. -/ def F.chnSlotDone_flag : RegField := ⟨.chnSlotDone, 15, 0⟩
/-- `CHN_SLOT_STATUS`.DEPTH. -/ def F.chnSlotStatus_depth : RegField := ⟨.chnSlotStatus, 31, 20⟩
/-- `CHN_SLOT_STATUS`.PARTIAL. -/ def F.chnSlotStatus_partial : RegField := ⟨.chnSlotStatus, 7, 7⟩
/-- `CHN_SLOT_STATUS`.FLUSHED_PARTIAL. -/ def F.chnSlotStatus_flushed_partial : RegField := ⟨.chnSlotStatus, 6, 6⟩
/-- `CHN_SLOT_STATUS`.RESIDUE. -/ def F.chnSlotStatus_residue : RegField := ⟨.chnSlotStatus, 5, 5⟩
/-- `CHN_SLOT_STATUS`.COLLIDE. -/ def F.chnSlotStatus_collide : RegField := ⟨.chnSlotStatus, 4, 4⟩
/-- `CHN_SLOT_STATUS`.LAND_FAULT. -/ def F.chnSlotStatus_land_fault : RegField := ⟨.chnSlotStatus, 3, 3⟩
/-- `CHN_SLOT_STATUS`.POISON. -/ def F.chnSlotStatus_poison : RegField := ⟨.chnSlotStatus, 2, 2⟩
/-- `CHN_SLOT_STATUS`.CREDIT_FAULT. -/ def F.chnSlotStatus_credit_fault : RegField := ⟨.chnSlotStatus, 1, 1⟩
/-- `CHN_SLOT_STATUS`.TAGGED. -/ def F.chnSlotStatus_tagged : RegField := ⟨.chnSlotStatus, 0, 0⟩
/-- `CHN_SLOT_CTL`.FLUSH. -/ def F.chnSlotCtl_flush : RegField := ⟨.chnSlotCtl, 0, 0⟩
/-- `CHN_SLOT_CREDIT`.FULL. -/ def F.chnSlotCredit_full : RegField := ⟨.chnSlotCredit, 23, 12⟩
/-- `CHN_SLOT_CREDIT`.CREDIT. -/ def F.chnSlotCredit_credit : RegField := ⟨.chnSlotCredit, 11, 0⟩
/-- `STR_RULE`.ENABLE. -/ def F.strRule_enable : RegField := ⟨.strRule, 31, 31⟩
/-- `STR_RULE`.OP. -/ def F.strRule_op : RegField := ⟨.strRule, 30, 28⟩
/-- `STR_RULE`.ORDER. -/ def F.strRule_order : RegField := ⟨.strRule, 27, 27⟩
/-- `STR_RULE`.CTL_EN. -/ def F.strRule_ctl_en : RegField := ⟨.strRule, 26, 26⟩
/-- `STR_RULE`.CTL. -/ def F.strRule_ctl : RegField := ⟨.strRule, 25, 24⟩
/-- `STR_RULE`.IN_MASK. -/ def F.strRule_in_mask : RegField := ⟨.strRule, 23, 20⟩
/-- `STR_RULE`.OUT_MASK. -/ def F.strRule_out_mask : RegField := ⟨.strRule, 19, 16⟩
/-- `STR_RULE_PARAM`.TRIPS. -/ def F.strRuleParam_trips : RegField := ⟨.strRuleParam, 27, 16⟩
/-- `STR_RULE_PARAM`.RATE_M. -/ def F.strRuleParam_rate_m : RegField := ⟨.strRuleParam, 7, 4⟩
/-- `STR_RULE_PARAM`.RATE_N. -/ def F.strRuleParam_rate_n : RegField := ⟨.strRuleParam, 3, 0⟩
/-- `STR_RULE_STATE`.ACTIVE. -/ def F.strRuleState_active : RegField := ⟨.strRuleState, 31, 31⟩
/-- `STR_RULE_STATE`.MOVING. -/ def F.strRuleState_moving : RegField := ⟨.strRuleState, 30, 30⟩
/-- `STR_RULE_STATE`.COUNT. -/ def F.strRuleState_count : RegField := ⟨.strRuleState, 15, 4⟩
/-- `STR_RULE_STATE`.ACC. -/ def F.strRuleState_acc : RegField := ⟨.strRuleState, 3, 0⟩
/-- `STR_STATUS`.DRAINING. -/ def F.strStatus_draining : RegField := ⟨.strStatus, 5, 5⟩
/-- `STR_STATUS`.ABORT. -/ def F.strStatus_abort : RegField := ⟨.strStatus, 4, 4⟩
/-- `STR_STATUS`.OVERSIZE. -/ def F.strStatus_oversize : RegField := ⟨.strStatus, 3, 3⟩
/-- `STR_STATUS`.CTL_SIZE. -/ def F.strStatus_ctl_size : RegField := ⟨.strStatus, 2, 2⟩
/-- `STR_STATUS`.CTL_RANGE. -/ def F.strStatus_ctl_range : RegField := ⟨.strStatus, 1, 1⟩
/-- `STR_DRAIN_CTL`.START. -/ def F.strDrainCtl_start : RegField := ⟨.strDrainCtl, 31, 31⟩
/-- `STR_DRAIN_CTL`.SECTOR. -/ def F.strDrainCtl_sector : RegField := ⟨.strDrainCtl, 11, 0⟩
/-- `STR_DRAIN_STATUS`.STATE. -/ def F.strDrainStatus_state : RegField := ⟨.strDrainStatus, 31, 30⟩
/-- `STR_DRAIN_STATUS`.SECTOR. -/ def F.strDrainStatus_sector : RegField := ⟨.strDrainStatus, 27, 16⟩
/-- `STR_DRAIN_STATUS`.ELAPSED. -/ def F.strDrainStatus_elapsed : RegField := ⟨.strDrainStatus, 15, 0⟩
/-- `STR_DRAIN_BOUND`.BOUND. -/ def F.strDrainBound_bound : RegField := ⟨.strDrainBound, 15, 0⟩
/-- `STR_COUNT_FIRE`.COUNT. -/ def F.strCountFire_count : RegField := ⟨.strCountFire, 31, 0⟩
/-- `STR_COUNT_WORDS`.COUNT. -/ def F.strCountWords_count : RegField := ⟨.strCountWords, 31, 0⟩
/-- `STR_COUNT_DISCARD`.COUNT. -/ def F.strCountDiscard_count : RegField := ⟨.strCountDiscard, 31, 0⟩
/-- `STR_COUNT_STALL_OUT`.COUNT. -/ def F.strCountStallOut_count : RegField := ⟨.strCountStallOut, 31, 0⟩
/-- `STR_COUNT_STALL_PATH`.COUNT. -/ def F.strCountStallPath_count : RegField := ⟨.strCountStallPath, 31, 0⟩
/-- `MSH_LL_ENTRY`.SSCOPE. -/ def F.mshLlEntry_sscope : RegField := ⟨.mshLlEntry, 63, 63⟩
/-- `MSH_LL_ENTRY`.DIDX. -/ def F.mshLlEntry_didx : RegField := ⟨.mshLlEntry, 62, 60⟩
/-- `MSH_LL_ENTRY`.FORK. -/ def F.mshLlEntry_fork : RegField := ⟨.mshLlEntry, 59, 55⟩
/-- `MSH_LL_ENTRY`.SRC_BAY. -/ def F.mshLlEntry_src_bay : RegField := ⟨.mshLlEntry, 43, 32⟩
/-- `MSH_LL_ENTRY`.VALID. -/ def F.mshLlEntry_valid : RegField := ⟨.mshLlEntry, 31, 31⟩
/-- `MSH_LL_ENTRY`.PLANE. -/ def F.mshLlEntry_plane : RegField := ⟨.mshLlEntry, 30, 30⟩
/-- `MSH_LL_ENTRY`.KIND. -/ def F.mshLlEntry_kind : RegField := ⟨.mshLlEntry, 29, 29⟩
/-- `MSH_LL_ENTRY`.WAFER. -/ def F.mshLlEntry_wafer : RegField := ⟨.mshLlEntry, 28, 28⟩
/-- `MSH_LL_ENTRY`.DSCOPE. -/ def F.mshLlEntry_dscope : RegField := ⟨.mshLlEntry, 27, 27⟩
/-- `MSH_LL_ENTRY`.IN. -/ def F.mshLlEntry_in : RegField := ⟨.mshLlEntry, 26, 24⟩
/-- `MSH_LL_ENTRY`.OUT. -/ def F.mshLlEntry_out : RegField := ⟨.mshLlEntry, 22, 20⟩
/-- `MSH_LL_ENTRY`.DEST. -/ def F.mshLlEntry_dest : RegField := ⟨.mshLlEntry, 19, 0⟩
/-- `MSH_TILE_SECTOR`.SECTOR. -/ def F.mshTileSector_sector : RegField := ⟨.mshTileSector, 11, 0⟩
/-- `MSH_PORT_CFG`.BOUNDARY. -/ def F.mshPortCfg_boundary : RegField := ⟨.mshPortCfg, 31, 31⟩
/-- `MSH_PORT_CFG`.LINKED. -/ def F.mshPortCfg_linked : RegField := ⟨.mshPortCfg, 30, 30⟩
/-- `MSH_PORT_CFG`.DARK. -/ def F.mshPortCfg_dark : RegField := ⟨.mshPortCfg, 29, 29⟩
/-- `MSH_PORT_CFG`.NEIGHBOUR. -/ def F.mshPortCfg_neighbour : RegField := ⟨.mshPortCfg, 11, 0⟩
/-- `MSH_STATUS`.LINK_FAULT. -/ def F.mshStatus_link_fault : RegField := ⟨.mshStatus, 2, 2⟩
/-- `MSH_STATUS`.MISROUTE. -/ def F.mshStatus_misroute : RegField := ⟨.mshStatus, 1, 1⟩
/-- `MSH_STATUS`.BOUNDARY_DROP. -/ def F.mshStatus_boundary_drop : RegField := ⟨.mshStatus, 0, 0⟩
/-- `MSH_SECTOR_SEL`.SECTOR. -/ def F.mshSectorSel_sector : RegField := ⟨.mshSectorSel, 11, 0⟩
/-- `MSH_EPOCH`.CURRENT. -/ def F.mshEpoch_current : RegField := ⟨.mshEpoch, 31, 31⟩
/-- `MSH_EPOCH`.ARMED. -/ def F.mshEpoch_armed : RegField := ⟨.mshEpoch, 30, 30⟩
/-- `MSH_EPOCH`.FLIPPING. -/ def F.mshEpoch_flipping : RegField := ⟨.mshEpoch, 29, 29⟩
/-- `MSH_EPOCH`.LAST_FLIP. -/ def F.mshEpoch_last_flip : RegField := ⟨.mshEpoch, 15, 0⟩
/-- `MSH_EPOCH_CTL`.ARM. -/ def F.mshEpochCtl_arm : RegField := ⟨.mshEpochCtl, 31, 31⟩
/-- `MSH_EPOCH_CTL`.WATCH_LOW. -/ def F.mshEpochCtl_watch_low : RegField := ⟨.mshEpochCtl, 15, 0⟩
/-- `MSH_OLD_EPOCH_COUNT`.COUNT. -/ def F.mshOldEpochCount_count : RegField := ⟨.mshOldEpochCount, 19, 0⟩
/-- `MSH_COUNT_FLITS`.COUNT. -/ def F.mshCountFlits_count : RegField := ⟨.mshCountFlits, 31, 0⟩
/-- `MSH_COUNT_STALL`.COUNT. -/ def F.mshCountStall_count : RegField := ⟨.mshCountStall, 31, 0⟩
/-- `MSH_COUNT_BOUNDARY_DROP`.COUNT. -/ def F.mshCountBoundaryDrop_count : RegField := ⟨.mshCountBoundaryDrop, 31, 0⟩
/-- `MSH_COUNT_MISROUTE`.COUNT. -/ def F.mshCountMisroute_count : RegField := ⟨.mshCountMisroute, 31, 0⟩
/-- `MSH_COUNT_LINK_CORR`.COUNT. -/ def F.mshCountLinkCorr_count : RegField := ⟨.mshCountLinkCorr, 31, 0⟩
/-- `MSH_COUNT_LINK_POISON`.COUNT. -/ def F.mshCountLinkPoison_count : RegField := ⟨.mshCountLinkPoison, 31, 0⟩
/-- `BUY_CFG`.KIND. -/ def F.buyCfg_kind : RegField := ⟨.buyCfg, 31, 30⟩
/-- `BUY_CFG`.INTAKE_RESET. -/ def F.buyCfg_intake_reset : RegField := ⟨.buyCfg, 29, 29⟩
/-- `BUY_CFG`.ACCESS. -/ def F.buyCfg_access : RegField := ⟨.buyCfg, 28, 27⟩
/-- `BUY_CFG`.OWNER. -/ def F.buyCfg_owner : RegField := ⟨.buyCfg, 11, 0⟩
/-- `BUY_INIT`.VALUE. -/ def F.buyInit_value : RegField := ⟨.buyInit, 23, 0⟩
/-- `BUY_TARGET`.TARGET. -/ def F.buyTarget_target : RegField := ⟨.buyTarget, 23, 0⟩
/-- `BUY_STATE`.FLAG. -/ def F.buyState_flag : RegField := ⟨.buyState, 31, 31⟩
/-- `BUY_STATE`.SAT. -/ def F.buyState_sat : RegField := ⟨.buyState, 30, 30⟩
/-- `BUY_STATE`.POISON. -/ def F.buyState_poison : RegField := ⟨.buyState, 29, 29⟩
/-- `BUY_STATE`.COUNT. -/ def F.buyState_count : RegField := ⟨.buyState, 23, 0⟩
/-- `BUY_SECTOR_GROUP`.GROUP. -/ def F.buySectorGroup_group : RegField := ⟨.buySectorGroup, 11, 0⟩
/-- `BUY_KOP_ARG`.OPERAND. -/ def F.buyKopArg_operand : RegField := ⟨.buyKopArg, 23, 0⟩
/-- `BUY_KOP`.OP. -/ def F.buyKop_op : RegField := ⟨.buyKop, 31, 29⟩
/-- `BUY_KOP`.INDEX. -/ def F.buyKop_index : RegField := ⟨.buyKop, 9, 0⟩
/-- `BUY_STATUS`.WATCH_USED. -/ def F.buyStatus_watch_used : RegField := ⟨.buyStatus, 31, 19⟩
/-- `BUY_STATUS`.WATCH_FULL. -/ def F.buyStatus_watch_full : RegField := ⟨.buyStatus, 3, 3⟩
/-- `BUY_STATUS`.LATE. -/ def F.buyStatus_late : RegField := ⟨.buyStatus, 2, 2⟩
/-- `BUY_STATUS`.REFUSED. -/ def F.buyStatus_refused : RegField := ⟨.buyStatus, 1, 1⟩
/-- `BUY_STATUS`.SATURATED. -/ def F.buyStatus_saturated : RegField := ⟨.buyStatus, 0, 0⟩
/-- `BUY_COUNT_OPS`.COUNT. -/ def F.buyCountOps_count : RegField := ⟨.buyCountOps, 31, 0⟩
/-- `BUY_COUNT_WATCH`.COUNT. -/ def F.buyCountWatch_count : RegField := ⟨.buyCountWatch, 31, 0⟩
/-- `BUY_COUNT_NOTICE`.COUNT. -/ def F.buyCountNotice_count : RegField := ⟨.buyCountNotice, 31, 0⟩
/-- `BUY_COUNT_REFUSED`.COUNT. -/ def F.buyCountRefused_count : RegField := ⟨.buyCountRefused, 31, 0⟩
/-- `BUY_COUNT_LATE`.COUNT. -/ def F.buyCountLate_count : RegField := ⟨.buyCountLate, 31, 0⟩
/-- `BUY_COUNT_WATCH_STALL`.COUNT. -/ def F.buyCountWatchStall_count : RegField := ⟨.buyCountWatchStall, 31, 0⟩
/-- `BUY_COUNT_SATURATE`.COUNT. -/ def F.buyCountSaturate_count : RegField := ⟨.buyCountSaturate, 31, 0⟩
/-- `LNS_MODE`.MODE. -/ def F.lnsMode_mode : RegField := ⟨.lnsMode, 2, 0⟩
/-- `LNS_GEOM`.FULL. -/ def F.lnsGeom_full : RegField := ⟨.lnsGeom, 31, 31⟩
/-- `LNS_GEOM`.GOOD16. -/ def F.lnsGeom_good16 : RegField := ⟨.lnsGeom, 26, 16⟩
/-- `LNS_GEOM`.GOOD32. -/ def F.lnsGeom_good32 : RegField := ⟨.lnsGeom, 8, 0⟩
/-- `LNS_PANEL_OWNER`.SECTOR. -/ def F.lnsPanelOwner_sector : RegField := ⟨.lnsPanelOwner, 11, 0⟩
/-- `LNS_PANEL_MAP`.PHYS. -/ def F.lnsPanelMap_phys : RegField := ⟨.lnsPanelMap, 9, 0⟩
/-- `LNS_DESC`.WORD. -/ def F.lnsDesc_word : RegField := ⟨.lnsDesc, 31, 0⟩
/-- `LNS_PRELOAD`.VALID. -/ def F.lnsPreload_valid : RegField := ⟨.lnsPreload, 63, 63⟩
/-- `LNS_PRELOAD`.DESC. -/ def F.lnsPreload_desc : RegField := ⟨.lnsPreload, 62, 56⟩
/-- `LNS_PRELOAD`.CHARS. -/ def F.lnsPreload_chars : RegField := ⟨.lnsPreload, 55, 48⟩
/-- `LNS_PRELOAD`.START. -/ def F.lnsPreload_start : RegField := ⟨.lnsPreload, 20, 0⟩
/-- `LNS_STATUS`.QUEUE. -/ def F.lnsStatus_queue : RegField := ⟨.lnsStatus, 31, 29⟩
/-- `LNS_STATUS`.EXEC. -/ def F.lnsStatus_exec : RegField := ⟨.lnsStatus, 28, 27⟩
/-- `LNS_STATUS`.NEXT. -/ def F.lnsStatus_next : RegField := ⟨.lnsStatus, 26, 25⟩
/-- `LNS_STATUS`.LOADING. -/ def F.lnsStatus_loading : RegField := ⟨.lnsStatus, 24, 24⟩
/-- `LNS_STATUS`.SET_LOADED. -/ def F.lnsStatus_set_loaded : RegField := ⟨.lnsStatus, 17, 16⟩
/-- `LNS_STATUS`.PARITY. -/ def F.lnsStatus_parity : RegField := ⟨.lnsStatus, 3, 3⟩
/-- `LNS_STATUS`.FAULT. -/ def F.lnsStatus_fault : RegField := ⟨.lnsStatus, 2, 2⟩
/-- `LNS_STATUS`.REFUSED. -/ def F.lnsStatus_refused : RegField := ⟨.lnsStatus, 1, 1⟩
/-- `LNS_STATUS`.ABANDONED. -/ def F.lnsStatus_abandoned : RegField := ⟨.lnsStatus, 0, 0⟩
/-- `LNS_STRETCH_LEDGER`.COUNT. -/ def F.lnsStretchLedger_count : RegField := ⟨.lnsStretchLedger, 31, 0⟩
/-- `LNS_REPAIR`.USED. -/ def F.lnsRepair_used : RegField := ⟨.lnsRepair, 31, 31⟩
/-- `LNS_REPAIR`.SOFT. -/ def F.lnsRepair_soft : RegField := ⟨.lnsRepair, 30, 30⟩
/-- `LNS_REPAIR`.REPLACED. -/ def F.lnsRepair_replaced : RegField := ⟨.lnsRepair, 9, 0⟩
/-- `LNS_COUNT_PASSES`.COUNT. -/ def F.lnsCountPasses_count : RegField := ⟨.lnsCountPasses, 31, 0⟩
/-- `LNS_COUNT_ABANDONED`.COUNT. -/ def F.lnsCountAbandoned_count : RegField := ⟨.lnsCountAbandoned, 31, 0⟩
/-- `LNS_COUNT_BUSY`.COUNT. -/ def F.lnsCountBusy_count : RegField := ⟨.lnsCountBusy, 31, 0⟩
/-- `LNS_COUNT_LOAD`.COUNT. -/ def F.lnsCountLoad_count : RegField := ⟨.lnsCountLoad, 31, 0⟩
/-- `LNS_COUNT_FS_STALL`.COUNT. -/ def F.lnsCountFsStall_count : RegField := ⟨.lnsCountFsStall, 31, 0⟩
/-- `LNS_COUNT_SATURATE`.COUNT. -/ def F.lnsCountSaturate_count : RegField := ⟨.lnsCountSaturate, 31, 0⟩
/-- `LNS_COUNT_RESERVED_CODE`.COUNT. -/ def F.lnsCountReservedCode_count : RegField := ⟨.lnsCountReservedCode, 31, 0⟩
/-- `FST_REGION_CFG`.VALID. -/ def F.fstRegionCfg_valid : RegField := ⟨.fstRegionCfg, 31, 31⟩
/-- `FST_REGION_CFG`.KIND. -/ def F.fstRegionCfg_kind : RegField := ⟨.fstRegionCfg, 30, 29⟩
/-- `FST_REGION_CFG`.ACCESS. -/ def F.fstRegionCfg_access : RegField := ⟨.fstRegionCfg, 28, 27⟩
/-- `FST_REGION_CFG`.STATE. -/ def F.fstRegionCfg_state : RegField := ⟨.fstRegionCfg, 26, 25⟩
/-- `FST_REGION_CFG`.QUOTA. -/ def F.fstRegionCfg_quota : RegField := ⟨.fstRegionCfg, 24, 13⟩
/-- `FST_REGION_CFG`.OWNER. -/ def F.fstRegionCfg_owner : RegField := ⟨.fstRegionCfg, 11, 0⟩
/-- `FST_REGION_SPAN`.BASE. -/ def F.fstRegionSpan_base : RegField := ⟨.fstRegionSpan, 29, 16⟩
/-- `FST_REGION_SPAN`.SIZE_M1. -/ def F.fstRegionSpan_size_m1 : RegField := ⟨.fstRegionSpan, 13, 0⟩
/-- `FST_REGION_FILL`.EXPECTED. -/ def F.fstRegionFill_expected : RegField := ⟨.fstRegionFill, 51, 32⟩
/-- `FST_REGION_FILL`.ACCEPTED. -/ def F.fstRegionFill_accepted : RegField := ⟨.fstRegionFill, 19, 0⟩
/-- `FST_STATUS`.JOURNAL_USED. -/ def F.fstStatus_journal_used : RegField := ⟨.fstStatus, 31, 18⟩
/-- `FST_STATUS`.APPLYING. -/ def F.fstStatus_applying : RegField := ⟨.fstStatus, 3, 3⟩
/-- `FST_STATUS`.POISON. -/ def F.fstStatus_poison : RegField := ⟨.fstStatus, 2, 2⟩
/-- `FST_STATUS`.QUOTA. -/ def F.fstStatus_quota : RegField := ⟨.fstStatus, 1, 1⟩
/-- `FST_STATUS`.REFUSED. -/ def F.fstStatus_refused : RegField := ⟨.fstStatus, 0, 0⟩
/-- `MVE_STATUS`.QUEUE. -/ def F.mveStatus_queue : RegField := ⟨.mveStatus, 31, 28⟩
/-- `MVE_STATUS`.BUSY. -/ def F.mveStatus_busy : RegField := ⟨.mveStatus, 27, 27⟩
/-- `MVE_STATUS`.INFLIGHT. -/ def F.mveStatus_inflight : RegField := ⟨.mveStatus, 26, 20⟩
/-- `MVE_STATUS`.FAULT. -/ def F.mveStatus_fault : RegField := ⟨.mveStatus, 2, 2⟩
/-- `MVE_STATUS`.REFUSED. -/ def F.mveStatus_refused : RegField := ⟨.mveStatus, 1, 1⟩
/-- `MVE_STATUS`.ABANDONED. -/ def F.mveStatus_abandoned : RegField := ⟨.mveStatus, 0, 0⟩
/-- `STG_ENGINE_STATUS`.INFLIGHT. -/ def F.stgEngineStatus_inflight : RegField := ⟨.stgEngineStatus, 31, 22⟩
/-- `STG_ENGINE_STATUS`.LANES. -/ def F.stgEngineStatus_lanes : RegField := ⟨.stgEngineStatus, 21, 15⟩
/-- `STG_ENGINE_STATUS`.LINK_DOWN. -/ def F.stgEngineStatus_link_down : RegField := ⟨.stgEngineStatus, 1, 1⟩
/-- `STG_ENGINE_STATUS`.FAULT. -/ def F.stgEngineStatus_fault : RegField := ⟨.stgEngineStatus, 0, 0⟩
/-- `STG_LATE_LAST`.SECTOR. -/ def F.stgLateLast_sector : RegField := ⟨.stgLateLast, 31, 20⟩
/-- `STG_LATE_LAST`.TRANSFER. -/ def F.stgLateLast_transfer : RegField := ⟨.stgLateLast, 15, 0⟩
/-- `FST_COUNT_ACCESS`.COUNT. -/ def F.fstCountAccess_count : RegField := ⟨.fstCountAccess, 31, 0⟩
/-- `FST_COUNT_CONFLICT`.COUNT. -/ def F.fstCountConflict_count : RegField := ⟨.fstCountConflict, 31, 0⟩
/-- `FST_COUNT_REFUSED`.COUNT. -/ def F.fstCountRefused_count : RegField := ⟨.fstCountRefused, 31, 0⟩
/-- `FST_COUNT_ECC_CORR`.COUNT. -/ def F.fstCountEccCorr_count : RegField := ⟨.fstCountEccCorr, 31, 0⟩
/-- `FST_COUNT_POISON`.COUNT. -/ def F.fstCountPoison_count : RegField := ⟨.fstCountPoison, 31, 0⟩
/-- `MVE_COUNT_OPS`.COUNT. -/ def F.mveCountOps_count : RegField := ⟨.mveCountOps, 31, 0⟩
/-- `MVE_COUNT_ABANDONED`.COUNT. -/ def F.mveCountAbandoned_count : RegField := ⟨.mveCountAbandoned, 31, 0⟩
/-- `MVE_COUNT_BUSY`.COUNT. -/ def F.mveCountBusy_count : RegField := ⟨.mveCountBusy, 31, 0⟩
/-- `MVE_COUNT_FS_STALL`.COUNT. -/ def F.mveCountFsStall_count : RegField := ⟨.mveCountFsStall, 31, 0⟩
/-- `MVE_COUNT_SATURATE`.COUNT. -/ def F.mveCountSaturate_count : RegField := ⟨.mveCountSaturate, 31, 0⟩
/-- `MVE_COUNT_RESERVED_CODE`.COUNT. -/ def F.mveCountReservedCode_count : RegField := ⟨.mveCountReservedCode, 31, 0⟩
/-- `STG_COUNT_LINES`.COUNT. -/ def F.stgCountLines_count : RegField := ⟨.stgCountLines, 31, 0⟩
/-- `STG_COUNT_READ_STALL`.COUNT. -/ def F.stgCountReadStall_count : RegField := ⟨.stgCountReadStall, 31, 0⟩
/-- `STG_COUNT_LATE`.COUNT. -/ def F.stgCountLate_count : RegField := ⟨.stgCountLate, 31, 0⟩
/-- `SPT_SECTOR_SEL`.SECTOR. -/ def F.sptSectorSel_sector : RegField := ⟨.sptSectorSel, 11, 0⟩
/-- `SPT_STATE`.HOME. -/ def F.sptState_home : RegField := ⟨.sptState, 53, 48⟩
/-- `SPT_STATE`.TAGS. -/ def F.sptState_tags : RegField := ⟨.sptState, 47, 0⟩
/-- `SPT_TAG_PARENT`.ROOT. -/ def F.sptTagParent_root : RegField := ⟨.sptTagParent, 4, 4⟩
/-- `SPT_TAG_PARENT`.PARENT. -/ def F.sptTagParent_parent : RegField := ⟨.sptTagParent, 3, 0⟩
/-- `SPT_STATUS`.SWEPT. -/ def F.sptStatus_swept : RegField := ⟨.sptStatus, 1, 1⟩
/-- `SPT_STATUS`.CONFLICT. -/ def F.sptStatus_conflict : RegField := ⟨.sptStatus, 0, 0⟩
/-- `SPT_TILE_STATUS`.LINES_USED. -/ def F.sptTileStatus_lines_used : RegField := ⟨.sptTileStatus, 31, 27⟩
/-- `SPT_TILE_STATUS`.HELD_OPS. -/ def F.sptTileStatus_held_ops : RegField := ⟨.sptTileStatus, 26, 22⟩
/-- `SPT_TILE_STATUS`.POISON. -/ def F.sptTileStatus_poison : RegField := ⟨.sptTileStatus, 21, 21⟩
/-- `SPT_TILE_STATUS`.CONTROL_KIND. -/ def F.sptTileStatus_control_kind : RegField := ⟨.sptTileStatus, 6, 5⟩
/-- `SPT_TILE_STATUS`.CONTROL_TAG. -/ def F.sptTileStatus_control_tag : RegField := ⟨.sptTileStatus, 3, 0⟩
/-- `SPT_SHADOW_META`.VALID. -/ def F.sptShadowMeta_valid : RegField := ⟨.sptShadowMeta, 31, 31⟩
/-- `SPT_SHADOW_META`.WRITEBACK. -/ def F.sptShadowMeta_writeback : RegField := ⟨.sptShadowMeta, 30, 30⟩
/-- `SPT_SHADOW_META`.BUOY. -/ def F.sptShadowMeta_buoy : RegField := ⟨.sptShadowMeta, 29, 29⟩
/-- `SPT_SHADOW_META`.TAG. -/ def F.sptShadowMeta_tag : RegField := ⟨.sptShadowMeta, 19, 16⟩
/-- `SPT_SHADOW_META`.BLOCK. -/ def F.sptShadowMeta_block : RegField := ⟨.sptShadowMeta, 9, 0⟩
/-- `SPT_COUNT_CONFIRM`.COUNT. -/ def F.sptCountConfirm_count : RegField := ⟨.sptCountConfirm, 31, 0⟩
/-- `SPT_COUNT_SQUASH`.COUNT. -/ def F.sptCountSquash_count : RegField := ⟨.sptCountSquash, 31, 0⟩
/-- `SPT_COUNT_SWEEP`.COUNT. -/ def F.sptCountSweep_count : RegField := ⟨.sptCountSweep, 31, 0⟩
/-- `SPT_COUNT_CONFLICT`.COUNT. -/ def F.sptCountConflict_count : RegField := ⟨.sptCountConflict, 31, 0⟩
/-- `SPT_COUNT_SHADOW_STALL`.COUNT. -/ def F.sptCountShadowStall_count : RegField := ⟨.sptCountShadowStall, 31, 0⟩
/-- `SPT_COUNT_LINES_COMMIT`.COUNT. -/ def F.sptCountLinesCommit_count : RegField := ⟨.sptCountLinesCommit, 31, 0⟩
/-- `SPT_COUNT_LINES_DISCARD`.COUNT. -/ def F.sptCountLinesDiscard_count : RegField := ⟨.sptCountLinesDiscard, 31, 0⟩
/-- `SPT_COUNT_DEAD`.COUNT. -/ def F.sptCountDead_count : RegField := ⟨.sptCountDead, 31, 0⟩
/-- `STN_IMAGE_STATUS`.REASON. -/ def F.stnImageStatus_reason : RegField := ⟨.stnImageStatus, 31, 24⟩
/-- `STN_IMAGE_STATUS`.KIND. -/ def F.stnImageStatus_kind : RegField := ⟨.stnImageStatus, 16, 16⟩
/-- `STN_IMAGE_STATUS`.STAGE. -/ def F.stnImageStatus_stage : RegField := ⟨.stnImageStatus, 10, 8⟩
/-- `STN_IMAGE_STATUS`.STATE. -/ def F.stnImageStatus_state : RegField := ⟨.stnImageStatus, 2, 0⟩
/-- `STN_IMAGE_DETAIL`.SECTION. -/ def F.stnImageDetail_section : RegField := ⟨.stnImageDetail, 31, 24⟩
/-- `STN_IMAGE_DETAIL`.RECORD. -/ def F.stnImageDetail_record : RegField := ⟨.stnImageDetail, 23, 0⟩
/-- `STN_IMAGE_LOADED`.PATCH_COUNT. -/ def F.stnImageLoaded_patch_count : RegField := ⟨.stnImageLoaded, 31, 16⟩
/-- `STN_IMAGE_LOADED`.STATE. -/ def F.stnImageLoaded_state : RegField := ⟨.stnImageLoaded, 2, 0⟩
/-- `STN_IMAGE_FLOOR`.DEFERRED. -/ def F.stnImageFloor_deferred : RegField := ⟨.stnImageFloor, 8, 8⟩
/-- `STN_IMAGE_FLOOR`.SVN. -/ def F.stnImageFloor_svn : RegField := ⟨.stnImageFloor, 7, 0⟩
/-- `STN_OWNER`.OWNER. -/ def F.stnOwner_owner : RegField := ⟨.stnOwner, 15, 0⟩
/-- `STN_CHAR_SECTOR_SEL`.SECTOR. -/ def F.stnCharSectorSel_sector : RegField := ⟨.stnCharSectorSel, 11, 0⟩
/-- `STN_CHAR_STATE`.NOW. -/ def F.stnCharState_now : RegField := ⟨.stnCharState, 31, 29⟩
/-- `STN_CHAR_STATE`.NEXT. -/ def F.stnCharState_next : RegField := ⟨.stnCharState, 28, 26⟩
/-- `STN_CHAR_STATE`.AFTER. -/ def F.stnCharState_after : RegField := ⟨.stnCharState, 25, 23⟩
/-- `STN_CHAR_STATE`.SUBST. -/ def F.stnCharState_subst : RegField := ⟨.stnCharState, 22, 22⟩
/-- `STN_CHAR_STATE`.WHY. -/ def F.stnCharState_why : RegField := ⟨.stnCharState, 21, 20⟩
/-- `STN_CHAR_STATE`.VOID_RUN. -/ def F.stnCharState_void_run : RegField := ⟨.stnCharState, 19, 15⟩
/-- `STN_CHAR_RUNS`.COUNT. -/ def F.stnCharRuns_count : RegField := ⟨.stnCharRuns, 31, 0⟩
/-- `PWR_BAY_STATE`.FAULT_CURRENT. -/ def F.pwrBayState_fault_current : RegField := ⟨.pwrBayState, 23, 16⟩
/-- `PWR_BAY_STATE`.RETRY_PENDING. -/ def F.pwrBayState_retry_pending : RegField := ⟨.pwrBayState, 12, 12⟩
/-- `PWR_BAY_STATE`.FAULT_STEP. -/ def F.pwrBayState_fault_step : RegField := ⟨.pwrBayState, 11, 8⟩
/-- `PWR_BAY_STATE`.GATE_FAULTS. -/ def F.pwrBayState_gate_faults : RegField := ⟨.pwrBayState, 5, 4⟩
/-- `PWR_BAY_STATE`.STATE. -/ def F.pwrBayState_state : RegField := ⟨.pwrBayState, 2, 0⟩
/-- `PWR_STRETCH_LEDGER`.COUNT. -/ def F.pwrStretchLedger_count : RegField := ⟨.pwrStretchLedger, 20, 0⟩
/-- `PWR_STRETCH_LIVE`.COUNT. -/ def F.pwrStretchLive_count : RegField := ⟨.pwrStretchLive, 20, 0⟩
/-- `PWR_DROOP_CFG`.MV. -/ def F.pwrDroopCfg_mv : RegField := ⟨.pwrDroopCfg, 5, 0⟩
/-- `PWR_VF_CORE`.AVAIL. -/ def F.pwrVfCore_avail : RegField := ⟨.pwrVfCore, 31, 31⟩
/-- `PWR_VF_CORE`.MV. -/ def F.pwrVfCore_mv : RegField := ⟨.pwrVfCore, 9, 0⟩
/-- `PWR_VF_LENS`.AVAIL. -/ def F.pwrVfLens_avail : RegField := ⟨.pwrVfLens, 31, 31⟩
/-- `PWR_VF_LENS`.MV. -/ def F.pwrVfLens_mv : RegField := ⟨.pwrVfLens, 9, 0⟩
/-- `PWR_STATUS`.RAIL_LATE. -/ def F.pwrStatus_rail_late : RegField := ⟨.pwrStatus, 31, 31⟩
/-- `PWR_STATUS`.DROOP_SUSTAINED. -/ def F.pwrStatus_droop_sustained : RegField := ⟨.pwrStatus, 30, 30⟩
/-- `PWR_STATUS`.GATE_FAULT. -/ def F.pwrStatus_gate_fault : RegField := ⟨.pwrStatus, 29, 29⟩
/-- `PWR_STATUS`.METER_SUSPECT. -/ def F.pwrStatus_meter_suspect : RegField := ⟨.pwrStatus, 28, 28⟩
/-- `PWR_STATUS`.AGE_LOW. -/ def F.pwrStatus_age_low : RegField := ⟨.pwrStatus, 27, 27⟩
/-- `PWR_STATUS`.SRAM_MV. -/ def F.pwrStatus_sram_mv : RegField := ⟨.pwrStatus, 26, 20⟩
/-- `PWR_STATUS`.SENSE_MV. -/ def F.pwrStatus_sense_mv : RegField := ⟨.pwrStatus, 19, 10⟩
/-- `PWR_STATUS`.TARGET_MV. -/ def F.pwrStatus_target_mv : RegField := ⟨.pwrStatus, 9, 0⟩
/-- `PWR_RAIL_STATUS`.FAULT. -/ def F.pwrRailStatus_fault : RegField := ⟨.pwrRailStatus, 31, 31⟩
/-- `PWR_RAIL_STATUS`.ENABLED. -/ def F.pwrRailStatus_enabled : RegField := ⟨.pwrRailStatus, 30, 30⟩
/-- `PWR_RAIL_STATUS`.IOUT. -/ def F.pwrRailStatus_iout : RegField := ⟨.pwrRailStatus, 29, 20⟩
/-- `PWR_RAIL_STATUS`.VOUT. -/ def F.pwrRailStatus_vout : RegField := ⟨.pwrRailStatus, 15, 0⟩
/-- `STN_NV_INHIBIT`.INHIBIT. -/ def F.stnNvInhibit_inhibit : RegField := ⟨.stnNvInhibit, 31, 31⟩
/-- `STN_NV_INHIBIT`.RELEASING. -/ def F.stnNvInhibit_releasing : RegField := ⟨.stnNvInhibit, 30, 30⟩
/-- `STN_NV_INHIBIT`.QUEUED. -/ def F.stnNvInhibit_queued : RegField := ⟨.stnNvInhibit, 17, 8⟩
/-- `STN_NV_INHIBIT`.CORE_LOW. -/ def F.stnNvInhibit_core_low : RegField := ⟨.stnNvInhibit, 1, 1⟩
/-- `STN_NV_INHIBIT`.AUX_LOW. -/ def F.stnNvInhibit_aux_low : RegField := ⟨.stnNvInhibit, 0, 0⟩
/-- `THM_TEMP`.TEMP. -/ def F.thmTemp_temp : RegField := ⟨.thmTemp, 11, 0⟩
/-- `THM_CFG`.ALERT. -/ def F.thmCfg_alert : RegField := ⟨.thmCfg, 27, 16⟩
/-- `THM_CFG`.THROTTLE. -/ def F.thmCfg_throttle : RegField := ⟨.thmCfg, 11, 0⟩
/-- `THM_STATUS`.TRIP. -/ def F.thmStatus_trip : RegField := ⟨.thmStatus, 31, 31⟩
/-- `THM_STATUS`.THROTTLE. -/ def F.thmStatus_throttle : RegField := ⟨.thmStatus, 30, 30⟩
/-- `THM_STATUS`.ALERT. -/ def F.thmStatus_alert : RegField := ⟨.thmStatus, 29, 29⟩
/-- `THM_STATUS`.MAX_WATCH. -/ def F.thmStatus_max_watch : RegField := ⟨.thmStatus, 11, 0⟩
/-- `STN_PLAN_STATUS`.LATE. -/ def F.stnPlanStatus_late : RegField := ⟨.stnPlanStatus, 9, 9⟩
/-- `STN_PLAN_STATUS`.CALIBRATED. -/ def F.stnPlanStatus_calibrated : RegField := ⟨.stnPlanStatus, 8, 8⟩
/-- `STN_PLAN_STATUS`.STAGE. -/ def F.stnPlanStatus_stage : RegField := ⟨.stnPlanStatus, 2, 0⟩
/-- `STN_PLAN_FIELD`.K. -/ def F.stnPlanField_k : RegField := ⟨.stnPlanField, 31, 20⟩
/-- `STN_PLAN_FIELD`.ALLOW. -/ def F.stnPlanField_allow : RegField := ⟨.stnPlanField, 19, 11⟩
/-- `STN_PLAN_FIELD`.BASE. -/ def F.stnPlanField_base : RegField := ⟨.stnPlanField, 10, 0⟩
/-- `STN_PLAN_SECTOR`.WHY. -/ def F.stnPlanSector_why : RegField := ⟨.stnPlanSector, 31, 29⟩
/-- `STN_PLAN_SECTOR`.CLASS. -/ def F.stnPlanSector_class : RegField := ⟨.stnPlanSector, 28, 27⟩
/-- `STN_PLAN_SECTOR`.VALUE. -/ def F.stnPlanSector_value : RegField := ⟨.stnPlanSector, 15, 0⟩
/-- `CLK_PLL_STATUS`.LOCK. -/ def F.clkPllStatus_lock : RegField := ⟨.clkPllStatus, 31, 31⟩
/-- `CLK_PLL_STATUS`.LOST. -/ def F.clkPllStatus_lost : RegField := ⟨.clkPllStatus, 30, 30⟩
/-- `CLK_PLL_STATUS`.MHZ. -/ def F.clkPllStatus_mhz : RegField := ⟨.clkPllStatus, 10, 0⟩
/-- `CLK_SRC_STATUS`.HOLDOVER. -/ def F.clkSrcStatus_holdover : RegField := ⟨.clkSrcStatus, 7, 7⟩
/-- `CLK_SRC_STATUS`.REF. -/ def F.clkSrcStatus_ref : RegField := ⟨.clkSrcStatus, 6, 6⟩
/-- `CLK_SRC_STATUS`.XB_MODE. -/ def F.clkSrcStatus_xb_mode : RegField := ⟨.clkSrcStatus, 5, 5⟩
/-- `CLK_SRC_STATUS`.STN_LOCK. -/ def F.clkSrcStatus_stn_lock : RegField := ⟨.clkSrcStatus, 4, 4⟩
/-- `CLK_SRC_STATUS`.SIRC_OK. -/ def F.clkSrcStatus_sirc_ok : RegField := ⟨.clkSrcStatus, 3, 3⟩
/-- `CLK_SRC_STATUS`.FIRC_OK. -/ def F.clkSrcStatus_firc_ok : RegField := ⟨.clkSrcStatus, 2, 2⟩
/-- `CLK_SRC_STATUS`.XB_OK. -/ def F.clkSrcStatus_xb_ok : RegField := ⟨.clkSrcStatus, 1, 1⟩
/-- `CLK_SRC_STATUS`.XA_OK. -/ def F.clkSrcStatus_xa_ok : RegField := ⟨.clkSrcStatus, 0, 0⟩
/-- `CLK_SRC_CFG`.XB_MODE. -/ def F.clkSrcCfg_xb_mode : RegField := ⟨.clkSrcCfg, 0, 0⟩
/-- `RST_DOMAIN_CTL`.GO. -/ def F.rstDomainCtl_go : RegField := ⟨.rstDomainCtl, 31, 31⟩
/-- `RST_DOMAIN_CTL`.DOMAIN. -/ def F.rstDomainCtl_domain : RegField := ⟨.rstDomainCtl, 26, 24⟩
/-- `RST_DOMAIN_CTL`.TARGET. -/ def F.rstDomainCtl_target : RegField := ⟨.rstDomainCtl, 22, 0⟩
/-- `RST_STATUS`.BUSY. -/ def F.rstStatus_busy : RegField := ⟨.rstStatus, 31, 31⟩
/-- `RST_STATUS`.DOMAIN. -/ def F.rstStatus_domain : RegField := ⟨.rstStatus, 26, 24⟩
/-- `RST_STATUS`.TIMEOUT. -/ def F.rstStatus_timeout : RegField := ⟨.rstStatus, 23, 23⟩
/-- `RST_STATUS`.TARGET. -/ def F.rstStatus_target : RegField := ⟨.rstStatus, 22, 0⟩
/-- `RST_CAUSE`.COUNT. -/ def F.rstCause_count : RegField := ⟨.rstCause, 23, 8⟩
/-- `RST_CAUSE`.CAUSE. -/ def F.rstCause_cause : RegField := ⟨.rstCause, 3, 0⟩
/-- `STN_STARTUP`.READY. -/ def F.stnStartup_ready : RegField := ⟨.stnStartup, 31, 31⟩
/-- `STN_STARTUP`.FAILED. -/ def F.stnStartup_failed : RegField := ⟨.stnStartup, 30, 30⟩
/-- `STN_STARTUP`.COLD. -/ def F.stnStartup_cold : RegField := ⟨.stnStartup, 29, 29⟩
/-- `STN_STARTUP`.STEP. -/ def F.stnStartup_step : RegField := ⟨.stnStartup, 23, 20⟩
/-- `STN_STARTUP`.ELAPSED_MS. -/ def F.stnStartup_elapsed_ms : RegField := ⟨.stnStartup, 19, 0⟩
/-- `STN_STARTUP_FIELDS`.RUNNING. -/ def F.stnStartupFields_running : RegField := ⟨.stnStartupFields, 63, 0⟩
/-- `STN_STARTUP_PORTS`.CXL. -/ def F.stnStartupPorts_cxl : RegField := ⟨.stnStartupPorts, 31, 16⟩
/-- `STN_STARTUP_PORTS`.JALFEN. -/ def F.stnStartupPorts_jalfen : RegField := ⟨.stnStartupPorts, 15, 8⟩
/-- `STN_STARTUP_PORTS`.PCIE. -/ def F.stnStartupPorts_pcie : RegField := ⟨.stnStartupPorts, 3, 0⟩
/-- `STN_FW_STATUS`.ACTIVE. -/ def F.stnFwStatus_active : RegField := ⟨.stnFwStatus, 31, 31⟩
/-- `STN_FW_STATUS`.A_OK. -/ def F.stnFwStatus_a_ok : RegField := ⟨.stnFwStatus, 30, 30⟩
/-- `STN_FW_STATUS`.B_OK. -/ def F.stnFwStatus_b_ok : RegField := ⟨.stnFwStatus, 29, 29⟩
/-- `STN_FW_STATUS`.MIRROR. -/ def F.stnFwStatus_mirror : RegField := ⟨.stnFwStatus, 28, 28⟩
/-- `STN_FW_STATUS`.SVN. -/ def F.stnFwStatus_svn : RegField := ⟨.stnFwStatus, 23, 16⟩
/-- `STN_FW_STATUS`.MAJOR. -/ def F.stnFwStatus_major : RegField := ⟨.stnFwStatus, 15, 8⟩
/-- `STN_FW_STATUS`.MINOR. -/ def F.stnFwStatus_minor : RegField := ⟨.stnFwStatus, 7, 0⟩
/-- `HST_RING_CFG`.ENABLE. -/ def F.hstRingCfg_enable : RegField := ⟨.hstRingCfg, 31, 31⟩
/-- `HST_RING_CFG`.IRQ. -/ def F.hstRingCfg_irq : RegField := ⟨.hstRingCfg, 30, 30⟩
/-- `HST_RING_CFG`.TARGET. -/ def F.hstRingCfg_target : RegField := ⟨.hstRingCfg, 29, 29⟩
/-- `HST_RING_CFG`.JLINK. -/ def F.hstRingCfg_jlink : RegField := ⟨.hstRingCfg, 22, 20⟩
/-- `HST_RING_CFG`.PEER_RING. -/ def F.hstRingCfg_peer_ring : RegField := ⟨.hstRingCfg, 19, 12⟩
/-- `HST_RING_CFG`.VECTOR. -/ def F.hstRingCfg_vector : RegField := ⟨.hstRingCfg, 9, 4⟩
/-- `HST_RING_CFG`.SIZE_LOG2. -/ def F.hstRingCfg_size_log2 : RegField := ⟨.hstRingCfg, 3, 0⟩
/-- `HST_RING_STATE`.FAULT. -/ def F.hstRingState_fault : RegField := ⟨.hstRingState, 31, 31⟩
/-- `HST_RING_STATE`.BOUND. -/ def F.hstRingState_bound : RegField := ⟨.hstRingState, 30, 30⟩
/-- `HST_RING_STATE`.TENANT. -/ def F.hstRingState_tenant : RegField := ⟨.hstRingState, 29, 12⟩
/-- `HST_RING_STATE`.SECTOR. -/ def F.hstRingState_sector : RegField := ⟨.hstRingState, 11, 0⟩
/-- `HST_MBOX_CMD`.GO. -/ def F.hstMboxCmd_go : RegField := ⟨.hstMboxCmd, 31, 31⟩
/-- `HST_MBOX_CMD`.OPCODE. -/ def F.hstMboxCmd_opcode : RegField := ⟨.hstMboxCmd, 7, 0⟩
/-- `HST_MBOX_STATUS`.STATE. -/ def F.hstMboxStatus_state : RegField := ⟨.hstMboxStatus, 31, 30⟩
/-- `HST_MBOX_STATUS`.OPCODE. -/ def F.hstMboxStatus_opcode : RegField := ⟨.hstMboxStatus, 23, 16⟩
/-- `HST_MBOX_STATUS`.STATUS. -/ def F.hstMboxStatus_status : RegField := ⟨.hstMboxStatus, 15, 0⟩
/-- `HST_TIMEOUT`.PCIE_MS. -/ def F.hstTimeout_pcie_ms : RegField := ⟨.hstTimeout, 25, 16⟩
/-- `HST_TIMEOUT`.CXL_100US. -/ def F.hstTimeout_cxl_100us : RegField := ⟨.hstTimeout, 9, 0⟩
/-- `JLF_CFG`.ENABLE. -/ def F.jlfCfg_enable : RegField := ⟨.jlfCfg, 31, 31⟩
/-- `JLF_CFG`.WAFER. -/ def F.jlfCfg_wafer : RegField := ⟨.jlfCfg, 20, 16⟩
/-- `JLF_CFG`.JOB. -/ def F.jlfCfg_job : RegField := ⟨.jlfCfg, 15, 0⟩
/-- `JLF_TIMEOUT`.MS. -/ def F.jlfTimeout_ms : RegField := ⟨.jlfTimeout, 9, 0⟩
/-- `FKP_HEARTBEAT`.RESTARTS. -/ def F.fkpHeartbeat_restarts : RegField := ⟨.fkpHeartbeat, 31, 24⟩
/-- `FKP_HEARTBEAT`.MISSED. -/ def F.fkpHeartbeat_missed : RegField := ⟨.fkpHeartbeat, 23, 16⟩
/-- `FKP_HEARTBEAT`.WATCH. -/ def F.fkpHeartbeat_watch : RegField := ⟨.fkpHeartbeat, 15, 0⟩
/-- `FKP_STATUS`.FOGGED. -/ def F.fkpStatus_fogged : RegField := ⟨.fkpStatus, 31, 31⟩
/-- `FKP_STATUS`.FENCED. -/ def F.fkpStatus_fenced : RegField := ⟨.fkpStatus, 30, 30⟩
/-- `FKP_STATUS`.RESETTING. -/ def F.fkpStatus_resetting : RegField := ⟨.fkpStatus, 29, 29⟩
/-- `FKP_STATUS`.RESTARTING. -/ def F.fkpStatus_restarting : RegField := ⟨.fkpStatus, 28, 28⟩
/-- `FKP_STATUS`.STANDBY. -/ def F.fkpStatus_standby : RegField := ⟨.fkpStatus, 27, 27⟩
/-- `FKP_STATUS`.FOG_CAUSE. -/ def F.fkpStatus_fog_cause : RegField := ⟨.fkpStatus, 15, 0⟩
/-- `FKP_CFG`.FOG_HOLD. -/ def F.fkpCfg_fog_hold : RegField := ⟨.fkpCfg, 15, 0⟩
/-- `STN_SECTOR_HEALTH`.STATE. -/ def F.stnSectorHealth_state : RegField := ⟨.stnSectorHealth, 31, 30⟩
/-- `STN_SECTOR_HEALTH`.CAUSE. -/ def F.stnSectorHealth_cause : RegField := ⟨.stnSectorHealth, 15, 0⟩
/-- `STN_WDOG_CFG`.AUTO_RESET. -/ def F.stnWdogCfg_auto_reset : RegField := ⟨.stnWdogCfg, 31, 31⟩
/-- `STN_WDOG_CFG`.WATCHES. -/ def F.stnWdogCfg_watches : RegField := ⟨.stnWdogCfg, 19, 0⟩
/-- `STN_WDOG_STATUS`.LAST. -/ def F.stnWdogStatus_last : RegField := ⟨.stnWdogStatus, 31, 30⟩
/-- `STN_WDOG_STATUS`.FED. -/ def F.stnWdogStatus_fed : RegField := ⟨.stnWdogStatus, 29, 29⟩
/-- `STN_WDOG_STATUS`.COUNT. -/ def F.stnWdogStatus_count : RegField := ⟨.stnWdogStatus, 19, 0⟩
/-- `STN_WDOG_ACK`.ACK. -/ def F.stnWdogAck_ack : RegField := ⟨.stnWdogAck, 0, 0⟩
/-- `STN_FOGHORN`.ASSERTED. -/ def F.stnFoghorn_asserted : RegField := ⟨.stnFoghorn, 31, 31⟩
/-- `STN_FOGHORN`.CAUSE. -/ def F.stnFoghorn_cause : RegField := ⟨.stnFoghorn, 5, 0⟩
/-- `STN_PEER_CFG`.MODE. -/ def F.stnPeerCfg_mode : RegField := ⟨.stnPeerCfg, 31, 31⟩
/-- `STN_PEER_CFG`.NOTICE_MASK. -/ def F.stnPeerCfg_notice_mask : RegField := ⟨.stnPeerCfg, 3, 0⟩
/-- `STN_PEER_STATUS`.BROKEN. -/ def F.stnPeerStatus_broken : RegField := ⟨.stnPeerStatus, 31, 31⟩
/-- `STN_PEER_STATUS`.LOST. -/ def F.stnPeerStatus_lost : RegField := ⟨.stnPeerStatus, 30, 30⟩
/-- `STN_PEER_STATUS`.NOTICE. -/ def F.stnPeerStatus_notice : RegField := ⟨.stnPeerStatus, 29, 29⟩
/-- `STN_PEER_STATUS`.PEER. -/ def F.stnPeerStatus_peer : RegField := ⟨.stnPeerStatus, 28, 24⟩
/-- `STN_PEER_STATUS`.KIND. -/ def F.stnPeerStatus_kind : RegField := ⟨.stnPeerStatus, 23, 16⟩
/-- `STN_PEER_STATUS`.CODE. -/ def F.stnPeerStatus_code : RegField := ⟨.stnPeerStatus, 15, 0⟩
/-- `STN_PEER_CTL`.CLEAR. -/ def F.stnPeerCtl_clear : RegField := ⟨.stnPeerCtl, 1, 1⟩
/-- `STN_PEER_CTL`.BREAK. -/ def F.stnPeerCtl_break : RegField := ⟨.stnPeerCtl, 0, 0⟩
/-- `DBG_GROUP_SEL`.GROUP. -/ def F.dbgGroupSel_group : RegField := ⟨.dbgGroupSel, 2, 0⟩
/-- `DBG_BREAK`.VALID. -/ def F.dbgBreak_valid : RegField := ⟨.dbgBreak, 31, 31⟩
/-- `DBG_BREAK`.GROUPS. -/ def F.dbgBreak_groups : RegField := ⟨.dbgBreak, 23, 16⟩
/-- `DBG_BREAK`.PC. -/ def F.dbgBreak_pc : RegField := ⟨.dbgBreak, 15, 0⟩
/-- `DBG_HALT_CAUSE`.WATCH_LOW. -/ def F.dbgHaltCause_watch_low : RegField := ⟨.dbgHaltCause, 31, 16⟩
/-- `DBG_HALT_CAUSE`.CAUSE. -/ def F.dbgHaltCause_cause : RegField := ⟨.dbgHaltCause, 2, 0⟩
/-- `STN_DEBUG_SESSION`.ACTIVE. -/ def F.stnDebugSession_active : RegField := ⟨.stnDebugSession, 31, 31⟩
/-- `STN_DEBUG_SESSION`.LOCKOUT. -/ def F.stnDebugSession_lockout : RegField := ⟨.stnDebugSession, 30, 30⟩
/-- `STN_DEBUG_SESSION`.RIGHTS. -/ def F.stnDebugSession_rights : RegField := ⟨.stnDebugSession, 29, 27⟩
/-- `STN_DEBUG_SESSION`.REMAINING. -/ def F.stnDebugSession_remaining : RegField := ⟨.stnDebugSession, 23, 0⟩
/-- `MGT_UART_CFG`.BAUD. -/ def F.mgtUartCfg_baud : RegField := ⟨.mgtUartCfg, 21, 0⟩
/-- `MGT_GPIO`.LEVEL. -/ def F.mgtGpio_level : RegField := ⟨.mgtGpio, 31, 0⟩
/-- `PWR_ENERGY_WATCH`.NJ. -/ def F.pwrEnergyWatch_nj : RegField := ⟨.pwrEnergyWatch, 31, 0⟩
/-- `PWR_ENERGY_TOTAL`.UJ. -/ def F.pwrEnergyTotal_uj : RegField := ⟨.pwrEnergyTotal, 63, 0⟩
/-- `PWR_AGE_MARGIN`.VALID. -/ def F.pwrAgeMargin_valid : RegField := ⟨.pwrAgeMargin, 31, 31⟩
/-- `PWR_AGE_MARGIN`.MARGIN. -/ def F.pwrAgeMargin_margin : RegField := ⟨.pwrAgeMargin, 9, 0⟩
/-- `PWR_COUNT_STRETCH`.COUNT. -/ def F.pwrCountStretch_count : RegField := ⟨.pwrCountStretch, 31, 0⟩
/-- `PWR_COUNT_DENIED`.COUNT. -/ def F.pwrCountDenied_count : RegField := ⟨.pwrCountDenied, 31, 0⟩
/-- `PWR_COUNT_GATE_FAULT`.COUNT. -/ def F.pwrCountGateFault_count : RegField := ⟨.pwrCountGateFault, 31, 0⟩
/-- `PWR_CAP`.CAP. -/ def F.pwrCap_cap : RegField := ⟨.pwrCap, 14, 0⟩
/-- `PWR_WAFER_ENERGY`.UJ. -/ def F.pwrWaferEnergy_uj : RegField := ⟨.pwrWaferEnergy, 31, 0⟩
/-- `PWR_ALERT_EN`.EN. -/ def F.pwrAlertEn_en : RegField := ⟨.pwrAlertEn, 4, 0⟩
/-- `STN_PLAN_BUDGET`.UJ. -/ def F.stnPlanBudget_uj : RegField := ⟨.stnPlanBudget, 31, 0⟩
/-- `STN_PLAN_PREDICT`.UJ. -/ def F.stnPlanPredict_uj : RegField := ⟨.stnPlanPredict, 31, 0⟩
/-- `STN_PLAN_COUNT_BROWNOUT`.COUNT. -/ def F.stnPlanCountBrownout_count : RegField := ⟨.stnPlanCountBrownout, 31, 0⟩
/-- `STN_PLAN_COUNT_LATE`.COUNT. -/ def F.stnPlanCountLate_count : RegField := ⟨.stnPlanCountLate, 31, 0⟩
/-- `STN_PLAN_COUNT_SHELVED`.COUNT. -/ def F.stnPlanCountShelved_count : RegField := ⟨.stnPlanCountShelved, 31, 0⟩
/-- `STN_PLAN_COUNT_MISS`.COUNT. -/ def F.stnPlanCountMiss_count : RegField := ⟨.stnPlanCountMiss, 31, 0⟩
/-- `CLK_COUNT_GATED`.COUNT. -/ def F.clkCountGated_count : RegField := ⟨.clkCountGated, 31, 0⟩
/-- `CLK_COUNT_LOSS`.COUNT. -/ def F.clkCountLoss_count : RegField := ⟨.clkCountLoss, 31, 0⟩
/-- `CLK_ENABLE`.EN. -/ def F.clkEnable_en : RegField := ⟨.clkEnable, 31, 0⟩
/-- `CLK_RUNNING`.RUN. -/ def F.clkRunning_run : RegField := ⟨.clkRunning, 31, 0⟩
/-- `STN_COUNT_FOG`.COUNT. -/ def F.stnCountFog_count : RegField := ⟨.stnCountFog, 31, 0⟩
/-- `STN_COUNT_FAILOVER`.COUNT. -/ def F.stnCountFailover_count : RegField := ⟨.stnCountFailover, 31, 0⟩
/-- `FKP_COUNT_MISS`.COUNT. -/ def F.fkpCountMiss_count : RegField := ⟨.fkpCountMiss, 31, 0⟩
/-- `FKP_COUNT_FENCE`.COUNT. -/ def F.fkpCountFence_count : RegField := ⟨.fkpCountFence, 31, 0⟩
/-- `DBG_SAMPLE_CFG`.WATCH. -/ def F.dbgSampleCfg_watch : RegField := ⟨.dbgSampleCfg, 63, 32⟩
/-- `DBG_SAMPLE_CFG`.TILE. -/ def F.dbgSampleCfg_tile : RegField := ⟨.dbgSampleCfg, 19, 0⟩
/-- `DBG_SAMPLE`.COUNT. -/ def F.dbgSample_count : RegField := ⟨.dbgSample, 31, 0⟩
/-- `DBG_EVENT_HEAD`.SEQ. -/ def F.dbgEventHead_seq : RegField := ⟨.dbgEventHead, 31, 0⟩
/-- `DBG_EVENT_LOST`.COUNT. -/ def F.dbgEventLost_count : RegField := ⟨.dbgEventLost, 31, 0⟩
/-- `STN_EVENT_HEAD`.SEQ. -/ def F.stnEventHead_seq : RegField := ⟨.stnEventHead, 31, 0⟩
/-- `STN_EVENT_SEL`.SEL. -/ def F.stnEventSel_sel : RegField := ⟨.stnEventSel, 6, 0⟩
/-- `STN_EVENT_IRQ`.ENABLE. -/ def F.stnEventIrq_enable : RegField := ⟨.stnEventIrq, 31, 31⟩
/-- `STN_EVENT_IRQ`.CLASS. -/ def F.stnEventIrq_class : RegField := ⟨.stnEventIrq, 3, 0⟩
/-- `STN_DEBUG_KEY`.DIGEST. -/ def F.stnDebugKey_digest : RegField := ⟨.stnDebugKey, 31, 0⟩
/-- `STN_DEBUG_FIELDS`.FIELDS. -/ def F.stnDebugFields_fields : RegField := ⟨.stnDebugFields, 63, 0⟩
/-- `DBG_REG`.VALUE. -/ def F.dbgReg_value : RegField := ⟨.dbgReg, 63, 0⟩
/-- `HST_RING_REQ_BASE`.ADDR. -/ def F.hstRingReqBase_addr : RegField := ⟨.hstRingReqBase, 63, 0⟩
/-- `HST_RING_RES_BASE`.ADDR. -/ def F.hstRingResBase_addr : RegField := ⟨.hstRingResBase, 63, 0⟩
/-- `HST_RING_STATUS_ADDR`.ADDR. -/ def F.hstRingStatusAddr_addr : RegField := ⟨.hstRingStatusAddr, 63, 0⟩
/-- `HST_RING_OWNED`.COUNT. -/ def F.hstRingOwned_count : RegField := ⟨.hstRingOwned, 31, 0⟩
/-- `HST_COUNT_FETCHED`.COUNT. -/ def F.hstCountFetched_count : RegField := ⟨.hstCountFetched, 31, 0⟩
/-- `HST_COUNT_RETIRED`.COUNT. -/ def F.hstCountRetired_count : RegField := ⟨.hstCountRetired, 31, 0⟩
/-- `HST_COUNT_RESULT_BAD`.COUNT. -/ def F.hstCountResultBad_count : RegField := ⟨.hstCountResultBad, 31, 0⟩
/-- `HST_COUNT_RESULT_OVERFLOW`.COUNT. -/ def F.hstCountResultOverflow_count : RegField := ⟨.hstCountResultOverflow, 31, 0⟩
/-- `HST_COUNT_BAD_TENANT`.COUNT. -/ def F.hstCountBadTenant_count : RegField := ⟨.hstCountBadTenant, 31, 0⟩
/-- `HST_MBOX_ARG`.WORD. -/ def F.hstMboxArg_word : RegField := ⟨.hstMboxArg, 31, 0⟩
/-- `HST_MBOX_RESULT`.WORD. -/ def F.hstMboxResult_word : RegField := ⟨.hstMboxResult, 31, 0⟩
/-- `JLF_COUNT_CRC`.COUNT. -/ def F.jlfCountCrc_count : RegField := ⟨.jlfCountCrc, 31, 0⟩
/-- `STN_KEY_FLOOR`.SERIAL. -/ def F.stnKeyFloor_serial : RegField := ⟨.stnKeyFloor, 31, 0⟩
/-- `STN_IMAGE_ID`.ID. -/ def F.stnImageId_id : RegField := ⟨.stnImageId, 63, 0⟩
/-- `STN_IMAGE_DIGEST`.WORD. -/ def F.stnImageDigest_word : RegField := ⟨.stnImageDigest, 31, 0⟩
/-- `FST_WIN_ADDR`.ADDR. -/ def F.fstWinAddr_addr : RegField := ⟨.fstWinAddr, 25, 0⟩
/-- `FST_WIN_DATA`.DATA. -/ def F.fstWinData_data : RegField := ⟨.fstWinData, 31, 0⟩
/-- `SPT_SHADOW_MASK`.MASK. -/ def F.sptShadowMask_mask : RegField := ⟨.sptShadowMask, 63, 0⟩
/-- `SPT_SHADOW_DATA`.DATA. -/ def F.sptShadowData_data : RegField := ⟨.sptShadowData, 63, 0⟩
/-- `CHN_COUNT_ITEMS`.COUNT. -/ def F.chnCountItems_count : RegField := ⟨.chnCountItems, 31, 0⟩
/-- `CHN_COUNT_WORDS`.COUNT. -/ def F.chnCountWords_count : RegField := ⟨.chnCountWords, 31, 0⟩
/-- `CHN_COUNT_STALL_CREDIT`.COUNT. -/ def F.chnCountStallCredit_count : RegField := ⟨.chnCountStallCredit, 31, 0⟩
/-- `CHN_COUNT_STALL_RECV`.COUNT. -/ def F.chnCountStallRecv_count : RegField := ⟨.chnCountStallRecv, 31, 0⟩
/-- `CHN_COUNT_FLUSH`.COUNT. -/ def F.chnCountFlush_count : RegField := ⟨.chnCountFlush, 31, 0⟩
/-- `CHN_COUNT_DISCARD`.COUNT. -/ def F.chnCountDiscard_count : RegField := ⟨.chnCountDiscard, 31, 0⟩
/-- `CHN_COUNT_COLLIDE`.COUNT. -/ def F.chnCountCollide_count : RegField := ⟨.chnCountCollide, 31, 0⟩
/-- `MVE_DESC`.WORD. -/ def F.mveDesc_word : RegField := ⟨.mveDesc, 31, 0⟩
/-- `BCN_WATCH_FIELD`.WATCH. -/ def F.bcnWatchField_watch : RegField := ⟨.bcnWatchField, 47, 0⟩

/-- Offsets of the station registers (R898, R901, R902, R789, R803), from the start of their block. -/
def rowsStation : List RegRow := [
  ⟨0x0, .stnGrade, 1⟩,
  ⟨0x4, .stnTileCount, 1⟩,
  ⟨0x8, .stnBindStatus, 1⟩,
  ⟨0xC, .stnBindDetail, 1⟩,
  ⟨0x10, .stnBindStats, 1⟩,
  ⟨0x14, .stnOwner, 1⟩,
  ⟨0x40, .stnImageStatus, 1⟩,
  ⟨0x44, .stnImageDetail, 1⟩,
  ⟨0x48, .stnImageLoaded, 1⟩,
  ⟨0x4C, .stnImageFloor, 1⟩,
  ⟨0x50, .stnKeyFloor, 1⟩,
  ⟨0x58, .stnImageId, 1⟩,
  ⟨0x60, .stnImageDigest, 12⟩,
  ⟨0x100, .stnStartup, 1⟩,
  ⟨0x104, .stnStartupPorts, 1⟩,
  ⟨0x108, .stnStartupFields, 1⟩,
  ⟨0x110, .stnFwStatus, 1⟩,
  ⟨0x114, .stnNvInhibit, 1⟩,
  ⟨0x200, .stnCharSectorSel, 1⟩,
  ⟨0x204, .stnCharState, 1⟩,
  ⟨0x208, .stnSectorHealth, 1⟩,
  ⟨0x20C, .stnPlanSector, 1⟩,
  ⟨0x220, .stnCharRuns, 8⟩,
  ⟨0x300, .stnPlanStatus, 1⟩,
  ⟨0x304, .stnPlanBudget, 1⟩,
  ⟨0x308, .stnPlanPredict, 1⟩,
  ⟨0x310, .stnPlanCountBrownout, 1⟩,
  ⟨0x314, .stnPlanCountLate, 1⟩,
  ⟨0x318, .stnPlanCountShelved, 1⟩,
  ⟨0x31C, .stnPlanCountMiss, 1⟩,
  ⟨0x400, .stnPlanField, 64⟩,
  ⟨0x600, .stnWdogCfg, 1⟩,
  ⟨0x604, .stnWdogStatus, 1⟩,
  ⟨0x608, .stnWdogAck, 1⟩,
  ⟨0x60C, .stnFoghorn, 1⟩,
  ⟨0x610, .stnCountFog, 1⟩,
  ⟨0x614, .stnCountFailover, 1⟩,
  ⟨0x620, .stnPeerCfg, 8⟩,
  ⟨0x640, .stnPeerStatus, 8⟩,
  ⟨0x660, .stnPeerCtl, 8⟩,
  ⟨0x700, .stnEventHead, 1⟩,
  ⟨0x704, .stnEventSel, 1⟩,
  ⟨0x708, .stnEventIrq, 1⟩,
  ⟨0x800, .stnDebugSession, 5⟩,
  ⟨0x820, .stnDebugKey, 12⟩,
  ⟨0x880, .stnDebugFields, 5⟩,
  ⟨0x10000, .bcnPeriod, 1⟩,
  ⟨0x10004, .bcnPeriodNext, 1⟩,
  ⟨0x10008, .bcnWatch, 1⟩,
  ⟨0x10010, .bcnSettleLen, 1⟩,
  ⟨0x10014, .bcnStatus, 1⟩,
  ⟨0x20000, .clkSrcStatus, 1⟩,
  ⟨0x20004, .clkSrcCfg, 1⟩,
  ⟨0x20008, .clkCountGated, 1⟩,
  ⟨0x20010, .clkCountLoss, 4⟩,
  ⟨0x20100, .clkEnable, 67⟩,
  ⟨0x20300, .clkRunning, 67⟩,
  ⟨0x20500, .clkPllStatus, 133⟩,
  ⟨0x20800, .rstDomainCtl, 1⟩,
  ⟨0x20804, .rstStatus, 1⟩,
  ⟨0x20808, .rstCause, 1⟩,
  ⟨0x30000, .pwrCap, 1⟩,
  ⟨0x30004, .pwrWaferEnergy, 1⟩,
  ⟨0x30008, .pwrAlertEn, 1⟩,
  ⟨0x30100, .pwrRailStatus, 133⟩,
  ⟨0x50000, .stgEngineStatus, 16⟩,
  ⟨0x50040, .stgCountLines, 16⟩,
  ⟨0x50080, .stgCountReadStall, 16⟩,
  ⟨0x60000, .hstTimeout, 1⟩,
  ⟨0x60010, .hstCountFetched, 4⟩,
  ⟨0x60020, .hstCountRetired, 4⟩,
  ⟨0x60030, .hstCountResultBad, 4⟩,
  ⟨0x60040, .hstCountResultOverflow, 4⟩,
  ⟨0x60050, .hstCountBadTenant, 4⟩,
  ⟨0x80000, .jlfCfg, 8⟩,
  ⟨0x80020, .jlfTimeout, 8⟩,
  ⟨0x80040, .jlfCountCrc, 8⟩,
  ⟨0x90000, .mgtUartCfg, 1⟩,
  ⟨0x90004, .mgtGpio, 1⟩]

/-- Offsets of the fkp registers (R898, R901, R902, R789, R803), from the start of their block. -/
def rowsFkp : List RegRow := [
  ⟨0x0, .fkpHeartbeat, 1⟩,
  ⟨0x4, .fkpStatus, 1⟩,
  ⟨0x8, .fkpCfg, 1⟩,
  ⟨0x10, .fkpCountMiss, 1⟩,
  ⟨0x14, .fkpCountFence, 1⟩,
  ⟨0x100, .bcnPhase, 1⟩,
  ⟨0x104, .bcnWatchCycles, 1⟩,
  ⟨0x108, .bcnSkewComp, 1⟩,
  ⟨0x10C, .bcnMiss, 1⟩,
  ⟨0x110, .bcnOverrunCount, 1⟩,
  ⟨0x114, .bcnOverrunLast, 1⟩,
  ⟨0x118, .bcnWatchField, 1⟩]

/-- Offsets of the pwr registers (R898, R901, R902, R789, R803), from the start of their block. -/
def rowsPwr : List RegRow := [
  ⟨0x0, .pwrStatus, 1⟩,
  ⟨0x4, .pwrDroopCfg, 1⟩,
  ⟨0x8, .pwrEnergyWatch, 1⟩,
  ⟨0x10, .pwrEnergyTotal, 1⟩,
  ⟨0x100, .pwrBayState, 36⟩,
  ⟨0x200, .pwrStretchLedger, 36⟩,
  ⟨0x300, .pwrStretchLive, 36⟩,
  ⟨0x400, .pwrAgeMargin, 36⟩,
  ⟨0x500, .pwrCountStretch, 36⟩,
  ⟨0x600, .pwrCountDenied, 36⟩,
  ⟨0x700, .pwrCountGateFault, 36⟩,
  ⟨0x800, .pwrVfCore, 71⟩,
  ⟨0xA00, .pwrVfLens, 81⟩,
  ⟨0xC00, .thmTemp, 9⟩,
  ⟨0xC40, .thmCfg, 1⟩,
  ⟨0xC44, .thmStatus, 1⟩]

/-- Offsets of the mshField registers (R898, R901, R902, R789, R803), from the start of their block. -/
def rowsMshField : List RegRow := [
  ⟨0x0, .mshSectorSel, 1⟩,
  ⟨0x4, .mshEpoch, 1⟩,
  ⟨0x8, .mshEpochCtl, 1⟩,
  ⟨0xC, .mshOldEpochCount, 1⟩,
  ⟨0x10, .strDrainCtl, 1⟩,
  ⟨0x14, .strDrainStatus, 1⟩,
  ⟨0x18, .strDrainBound, 1⟩]

/-- Offsets of the mshTile registers (R898, R901, R902, R789, R803), from the start of their block. -/
def rowsMshTile : List RegRow := [
  ⟨0x100, .mshTileSector, 1⟩,
  ⟨0x104, .mshStatus, 1⟩,
  ⟨0x110, .mshPortCfg, 4⟩,
  ⟨0x120, .mshCountFlits, 1⟩,
  ⟨0x124, .mshCountStall, 1⟩,
  ⟨0x128, .mshCountBoundaryDrop, 1⟩,
  ⟨0x12C, .mshCountMisroute, 1⟩,
  ⟨0x130, .mshCountLinkCorr, 1⟩,
  ⟨0x134, .mshCountLinkPoison, 1⟩,
  ⟨0x200, .mshLlEntry, 64⟩,
  ⟨0x1000, .chnSlotCfg, 32⟩,
  ⟨0x1080, .chnSlotDest, 32⟩,
  ⟨0x1100, .chnSlotWindow, 32⟩,
  ⟨0x1180, .chnSlotDone, 32⟩,
  ⟨0x1200, .chnSlotStatus, 32⟩,
  ⟨0x1280, .chnSlotCtl, 32⟩,
  ⟨0x1300, .chnSlotCredit, 32⟩,
  ⟨0x1400, .chnCountItems, 32⟩,
  ⟨0x1480, .chnCountWords, 32⟩,
  ⟨0x1500, .chnCountStallCredit, 32⟩,
  ⟨0x1580, .chnCountStallRecv, 32⟩,
  ⟨0x1600, .chnCountFlush, 32⟩,
  ⟨0x1680, .chnCountDiscard, 32⟩,
  ⟨0x1700, .chnCountCollide, 32⟩,
  ⟨0x2000, .strRule, 4⟩,
  ⟨0x2010, .strRuleParam, 4⟩,
  ⟨0x2020, .strRuleState, 4⟩,
  ⟨0x2030, .strStatus, 1⟩,
  ⟨0x2040, .strCountFire, 4⟩,
  ⟨0x2050, .strCountWords, 4⟩,
  ⟨0x2060, .strCountDiscard, 4⟩,
  ⟨0x2070, .strCountStallOut, 4⟩,
  ⟨0x2080, .strCountStallPath, 4⟩]

/-- Offsets of the lns registers (R898, R901, R902, R789, R803), from the start of their block. -/
def rowsLns : List RegRow := [
  ⟨0x0, .lnsMode, 1⟩,
  ⟨0x4, .lnsGeom, 1⟩,
  ⟨0x8, .lnsStatus, 1⟩,
  ⟨0xC, .lnsStretchLedger, 1⟩,
  ⟨0x40, .lnsCountPasses, 1⟩,
  ⟨0x44, .lnsCountAbandoned, 1⟩,
  ⟨0x48, .lnsCountBusy, 1⟩,
  ⟨0x4C, .lnsCountLoad, 1⟩,
  ⟨0x50, .lnsCountFsStall, 1⟩,
  ⟨0x54, .lnsCountSaturate, 1⟩,
  ⟨0x58, .lnsCountReservedCode, 1⟩,
  ⟨0x100, .lnsRepair, 32⟩,
  ⟨0x200, .lnsPreload, 16⟩,
  ⟨0x1000, .lnsPanelOwner, 1024⟩,
  ⟨0x2000, .lnsPanelMap, 1024⟩,
  ⟨0x4000, .lnsDesc, 2048⟩]

/-- Offsets of the mve registers (R898, R901, R902, R789, R803), from the start of their block. -/
def rowsMve : List RegRow := [
  ⟨0x0, .mveStatus, 1⟩,
  ⟨0x40, .mveCountOps, 1⟩,
  ⟨0x44, .mveCountAbandoned, 1⟩,
  ⟨0x48, .mveCountBusy, 1⟩,
  ⟨0x4C, .mveCountFsStall, 1⟩,
  ⟨0x50, .mveCountSaturate, 1⟩,
  ⟨0x54, .mveCountReservedCode, 1⟩,
  ⟨0x1000, .mveDesc, 1024⟩]

/-- Offsets of the fst registers (R898, R901, R902, R789, R803), from the start of their block. -/
def rowsFst : List RegRow := [
  ⟨0x0, .fstStatus, 1⟩,
  ⟨0x4, .fstWinAddr, 1⟩,
  ⟨0x8, .fstWinData, 1⟩,
  ⟨0x10, .stgLateLast, 1⟩,
  ⟨0x14, .stgCountLate, 1⟩,
  ⟨0x40, .fstCountAccess, 1⟩,
  ⟨0x44, .fstCountConflict, 1⟩,
  ⟨0x48, .fstCountRefused, 1⟩,
  ⟨0x4C, .fstCountEccCorr, 1⟩,
  ⟨0x50, .fstCountPoison, 1⟩,
  ⟨0x1000, .fstRegionCfg, 256⟩,
  ⟨0x1400, .fstRegionSpan, 256⟩,
  ⟨0x1800, .fstRegionFill, 256⟩]

/-- Offsets of the buy registers (R898, R901, R902, R789, R803), from the start of their block. -/
def rowsBuy : List RegRow := [
  ⟨0x0, .buyStatus, 1⟩,
  ⟨0x4, .buyKopArg, 1⟩,
  ⟨0x8, .buyKop, 1⟩,
  ⟨0x40, .buyCountOps, 1⟩,
  ⟨0x44, .buyCountWatch, 1⟩,
  ⟨0x48, .buyCountNotice, 1⟩,
  ⟨0x4C, .buyCountRefused, 1⟩,
  ⟨0x50, .buyCountLate, 1⟩,
  ⟨0x54, .buyCountWatchStall, 1⟩,
  ⟨0x58, .buyCountSaturate, 1⟩,
  ⟨0x1000, .buyCfg, 1024⟩,
  ⟨0x2000, .buyInit, 1024⟩,
  ⟨0x3000, .buyTarget, 1024⟩,
  ⟨0x4000, .buyState, 1024⟩,
  ⟨0x5000, .buySectorGroup, 2304⟩]

/-- Offsets of the dbgField registers (R898, R901, R902, R789, R803), from the start of their block. -/
def rowsDbgField : List RegRow := [
  ⟨0x0, .dbgGroupSel, 1⟩,
  ⟨0x8, .dbgSampleCfg, 1⟩,
  ⟨0x20, .dbgSample, 8⟩,
  ⟨0x40, .dbgEventHead, 1⟩,
  ⟨0x44, .dbgEventLost, 1⟩]

/-- Offsets of the dbgTile registers (R898, R901, R902, R789, R803), from the start of their block. -/
def rowsDbgTile : List RegRow := [
  ⟨0x100, .dbgBreak, 2⟩,
  ⟨0x120, .dbgHaltCause, 8⟩,
  ⟨0x1000, .dbgReg, 276⟩]

/-- Offsets of the sptField registers (R898, R901, R902, R789, R803), from the start of their block. -/
def rowsSptField : List RegRow := [
  ⟨0x0, .sptSectorSel, 1⟩,
  ⟨0x4, .sptStatus, 1⟩,
  ⟨0x8, .sptState, 1⟩,
  ⟨0x40, .sptTagParent, 16⟩,
  ⟨0x80, .sptCountConfirm, 1⟩,
  ⟨0x84, .sptCountSquash, 1⟩,
  ⟨0x88, .sptCountSweep, 1⟩]

/-- Offsets of the sptTile registers (R898, R901, R902, R789, R803), from the start of their block. -/
def rowsSptTile : List RegRow := [
  ⟨0x100, .sptTileStatus, 1⟩,
  ⟨0x110, .sptCountConflict, 1⟩,
  ⟨0x114, .sptCountShadowStall, 1⟩,
  ⟨0x118, .sptCountLinesCommit, 1⟩,
  ⟨0x11C, .sptCountLinesDiscard, 1⟩,
  ⟨0x120, .sptCountDead, 1⟩,
  ⟨0x200, .sptShadowMeta, 16⟩,
  ⟨0x300, .sptShadowMask, 16⟩,
  ⟨0x1000, .sptShadowData, 256⟩]

/-- Offsets of the tilWin registers (R898, R901, R902, R789, R803), from the start of their block. -/
def rowsTilWin : List RegRow := [
  ⟨0x0, .tilWinSel, 1⟩]

/-- Offsets of the tilTile registers (R898, R901, R902, R789, R803), from the start of their block. -/
def rowsTilTile : List RegRow := [
  ⟨0x1000, .tilId, 1⟩,
  ⟨0x1004, .tilRole, 1⟩,
  ⟨0x1008, .tilSplit, 1⟩,
  ⟨0x100C, .tilStatus, 1⟩,
  ⟨0x1010, .tilTagStatus, 1⟩,
  ⟨0x1014, .tgpWdog, 1⟩,
  ⟨0x1040, .tilCountIssue, 1⟩,
  ⟨0x1044, .tilCountIdle, 1⟩,
  ⟨0x1048, .tilCountTagStall, 1⟩,
  ⟨0x104C, .tilCountCacheHit, 1⟩,
  ⟨0x1050, .tilCountCacheMiss, 1⟩,
  ⟨0x1054, .tilCountReleaseLate, 1⟩,
  ⟨0x1058, .tilCountStaleDiscard, 1⟩,
  ⟨0x105C, .tilCountEccCorr, 1⟩,
  ⟨0x1100, .tgpCtl, 8⟩,
  ⟨0x1120, .tgpState, 8⟩,
  ⟨0x1140, .tgpTrap, 8⟩,
  ⟨0x1180, .tgpTrapAddr, 8⟩]

/-- Offsets of the ring registers (R898, R901, R902, R789, R803), from the start of their block. -/
def rowsRing : List RegRow := [
  ⟨0x0, .hstRingReqBase, 1⟩,
  ⟨0x8, .hstRingResBase, 1⟩,
  ⟨0x10, .hstRingStatusAddr, 1⟩,
  ⟨0x18, .hstRingCfg, 1⟩,
  ⟨0x1C, .hstRingState, 1⟩,
  ⟨0x20, .hstRingOwned, 1⟩]

/-- Offsets of the mbox registers (R898, R901, R902, R789, R803), from the start of their block. -/
def rowsMbox : List RegRow := [
  ⟨0x0, .hstMboxCmd, 1⟩,
  ⟨0x4, .hstMboxStatus, 1⟩,
  ⟨0x40, .hstMboxResult, 48⟩,
  ⟨0x100, .hstMboxArg, 64⟩]

end Sys2Proof.Machine
end

