-- ==== Sys2Proof/Machine/State.lean ====
section
/-! DEFINITION. The state of the Lannil W8 as plain data: every register, queue, buffer, counter, mode and pin the
specification gives it, the packets and messages on their way inside it, and the queue of waiting commands. The
named operations over it are in Machine/Ops.lean. -/

namespace Sys2Proof.Machine

/-- Which register of which unit: a field's registers have the field as unit, a tile's the tile, a lens's the lens
locator, a buoy block's the block (64 the station's), a ring's or mailbox slot's its number, the station's 0. -/
structure RegKey where
  reg : Reg
  unit : Nat := 0
  idx : Nat := 0
  deriving DecidableEq, Repr

/-- The upper words a requester's read of a wide register has latched (R8): the register it is bound to, the tile
and group selected then, and the upper word. -/
structure WideLatch where
  key : RegKey
  tile : Nat
  group : Nat
  upper : Word
  deriving DecidableEq, Repr

/-! ### Events (spec/22_debug_and_observability.md, R885-R887) -/

/-- One event, as a record of R885 holds it: `lost` is LOST_BEFORE, `copy` the COPY flag. -/
structure Event where
  code : Nat
  cls : Nat
  field : Nat
  lost : Bool := false
  copy : Bool := false
  seq : Nat := 0
  watch : Nat
  cycle : Nat
  loc : Nat
  detail : Nat
  deriving DecidableEq, Repr

/-- An event ring with its queue (R885, R886): `slots` maps SEQ mod 2,048 to the record there, `queue` is the
pending queue of at most 512, `lostTotal` and `lostNew` count drops, `lostPending` marks LOST_BEFORE as due,
`lostWatch` is the watch of the last EVENT_LOST, and `nextAt` the instant before which no further record is written (R886). -/
structure Ring where
  slots : Smap Nat Event := []
  head : Nat := 0
  queue : List Event := []
  lostTotal : Nat := 0
  lostNew : Nat := 0
  lostPending : Bool := false
  lostWatch : Option Nat := none
  nextAt : Nat := 0
  deriving DecidableEq, Repr

/-! ### Speculation (spec/12_speculation.md) -/

/-- A marker (R546). -/
inductive Marker where
  | none
  | tag (t : Nat)
  | dead
  deriving DecidableEq, Repr

/-- Tag states (R544). -/
inductive TagState where
  | free | open_ | held | committed | squashed
  deriving DecidableEq, Repr

/-- A tag operation on the tag bus (R560, R562). -/
inductive TagOp where
  | open_ | confirm | squash
  deriving DecidableEq, Repr

/-- A tag operation under way to the home SPT: its sector, tag, parity of the watch, and the field it left (R560,
R561); the SQUASH of a conflict names a second tag (R549). -/
structure TagMsg where
  op : TagOp
  sector : Nat
  tag : Nat
  tag2 : Option Nat := none
  parity : Bool
  from_ : Nat
  cycle : Nat
  deriving DecidableEq, Repr

/-! ### Buoys (spec/08_buoys.md) -/

/-- Operations at a buoy block (R384, R389). -/
inductive BuoyOp where
  | add | set | clear | watchGe | watchFlag | landing
  deriving DecidableEq, Repr

/-- A buoy operation: operation, target block (0–63 a field's, 64 the station's), index, operand, sender. -/
structure BuoyMsg where
  op : BuoyOp
  block : Nat
  index : Nat
  operand : Nat
  tile : Nat
  group : Nat
  sector : Nat
  parity : Bool
  epoch : Bool := false
  reserved : Bool := false
  deriving DecidableEq, Repr

/-- ACK and NOTICE status (R394); `done` is MET in a NOTICE. -/
inductive BuoyStatus where
  | done | refused | late | unreachable
  deriving DecidableEq, Repr

/-- A message on the buoy trunk (R399): an operation, or an ACK or NOTICE going back. -/
inductive TrunkMsg where
  | op (m : BuoyMsg) (src dst : Nat)
  | reply (m : BuoyMsg) (notice : Bool) (st : BuoyStatus) (src dst : Nat)
  deriving DecidableEq, Repr

/-- A buoy (R383): count, SAT and POISON of `BUY_STATE`, whether BUOY_SATURATE was logged in this watch; `broken` that it holds an
uncorrectable error not yet found, which comes from outside and no command makes (R410). -/
structure Buoy where
  count : Nat := 0
  sat : Bool := false
  poison : Bool := false
  broken : Bool := false
  satLogged : Bool := false
  deriving DecidableEq, Repr

/-- A buoy block: operations that have reached it and wait for their application cycle, each with its input (R387);
the stored WATCHes (R396); a FAR packet awaiting its operation (R390); forwarded operations without ACK, with the
instant they left (R409). `dues` gives, by input and in the order of arrival, the instant from which a waiting operation can be
applied (R391), `applied` the instant of the latest application cycle (R386), `portFree` the instant from which a bay port can send its
next ACK or notice (R393). -/
structure BuoyBlock where
  arrived : List (Nat × BuoyMsg) := []
  watches : List BuoyMsg := []
  far : List (Nat × Nat × Nat) := []
  forwarded : List (BuoyMsg × Nat) := []
  dues : List (Nat × Nat) := []
  applied : Nat := 0
  portFree : Smap Nat Nat := []
  deriving DecidableEq, Repr

/-! ### Packets (spec/07_mesh_and_routing.md, R336-R338) -/

/-- Data and control packet types (R337, R338) and the code of a reserved one. -/
inductive PType where
  | item | rload | rdata | rstore | rfail | rpoison | kaccess | kresp | stage
  | credit | ack | nack | buoyOp | buoyNotice | buoyAck | kreg | kregResp
  | reserved (code : Nat)
  deriving DecidableEq, Repr

/-- Router ports (R328). -/
inductive Dir where
  | n | e | s | w | l
  deriving DecidableEq, Repr

/-- Where a packet is: in its source tile's send buffer, in a router, or ejected at its destination. -/
inductive PState where
  | buffered | flying | ejected
  deriving DecidableEq, Repr

/-- A word of a packet or queue: its value, its speculation marker, and whether it is marked uncorrectable. -/
structure TWord where
  w : Word
  mark : Marker := .none
  bad : Bool := false
  deriving DecidableEq, Repr

/-- A packet in flight (R336, R338). `dest` is a tile id or, with `mcast`, a group id; `at_` and `inPort` say which
router holds it and by which port it came; `body` is what is left of the body; `group`, `load` name the group and
the load that wait for the answer; `hops` is the hop time so far (R341), `serial` and `pc` the store's number in its group and the program counter of
the access; `req` and `write` the requester and the data of a window access; `since` the instant from which the router has
held it; `trail` the routers behind it, nearest first, with the ports by which it came and left; `lPlace` where it waits at an L
port: 0 among the tile's own sends, 1 in the response store (R826), 2 in the router's completion place (R361); `refused` that the boundary port of its input does not accept it, so that it waits to be
discarded (R361); `token` of an item that a LOOP carries, that LOOP's tile and rule (R310, R313). -/
structure Packet where
  id : Nat
  ty : PType
  control : Bool := false
  vc : Nat := 0
  epoch : Bool := false
  parity : Bool := false
  mcast : Bool := false
  len : Nat := 0
  sector : Nat := 0xFFF
  mark : Marker := .none
  dest : Nat
  src : Nat
  dslot : Nat := 0
  sslot : Nat := 0
  gen : Bool := false
  mask : Nat := 0
  addr : Nat := 0
  body : List TWord := []
  at_ : Nat
  inPort : Dir := .l
  st : PState := .flying
  group : Nat := 0
  count : Nat := 0
  didx : Nat := 0
  status : Nat := 0
  buoy : Option BuoyMsg := none
  far : Option Nat := none
  wafer : Bool := false
  full : Nat := 0
  hops : Nat := 0
  serial : Nat := 0
  pc : Nat := 0
  req : Option Requester := none
  write : Option Word := none
  since : Nat := 0
  trail : List (Nat × Dir × Dir) := []
  lPlace : Nat := 0
  refused : Bool := false
  token : Option (Nat × Nat) := none
  deriving DecidableEq, Repr

/-! ### Tiles and thread groups (spec/03, 04, 05) -/

/-- Thread-group states (R137). -/
inductive GState where
  | inactive | running | done | trapped | halted
  deriving DecidableEq, Repr

/-- The notice latch (R395, R408): empty, filled, or spoilt by a REFUSED or UNREACHABLE notice. -/
inductive Latch where
  | empty | met | refused
  deriving DecidableEq, Repr

/-- An entry of the reconvergence stack: saved mask M, alternate mask E, and A's marker when it was pushed (R206,
R550). -/
structure StackEntry where
  m : BitVec 8
  e : BitVec 8
  mark : Marker
  deriving DecidableEq, Repr

/-- A thread group (R136, R198, R237, R395, R178). Registers not listed read 0. Codes 0x00–0x1F of `ready` and
`marks` are v0–v31, 0x20–0x2F u0–u15, 0x40–0x47 p0–p7; `ready` gives the cycle from which a register may be read and
`loading` the registers that an outstanding remote load still has to write; `lastRetire` is the cycle from which its watchdog
counts, `waitFrom` the first cycle in which a wait of its next instruction is still to be counted (R185), `latchAt` the cycle from which its await may use the latch (R397), `haltedAt` the cycle in
which it was halted; `released` that a HALTED or TRAPPED group restarts at the next INTAKE (R878, R881). -/
structure Group where
  st : GState := .inactive
  pc : Nat := 0
  v : Smap (Nat × Nat) Word := []
  u : Smap Nat Word := []
  p : Smap Nat (BitVec 8) := []
  marks : Smap Nat Marker := []
  ready : Smap Nat Nat := []
  loading : Smap Nat Nat := []
  amask : BitVec 8 := 0xFF
  aMark : Marker := .none
  ctl : Marker := .none
  stack : List StackEntry := []
  nest : List Nat := []
  latch : Latch := .empty
  latchAt : Nat := 0
  watchSent : Bool := false
  lastRetire : Nat := 511
  ended : Bool := false
  rstOut : List Nat := []
  opsOut : Nat := 0
  sendsOut : Nat := 0
  nextSerial : Nat := 0
  stepPending : Bool := false
  skipBreak : Bool := false
  released : Bool := false
  waitFrom : Nat := 0
  haltedAt : Nat := 0
  deriving DecidableEq, Repr

/-- An outstanding remote load (R166, R145): destination code, active lanes with their addresses, the tags it still
waits for with the block each fetches, its issue cycle, REL and marker, and the words it has so far by lane: the destination
is written whole when it becomes readable (R221, R225). `killed` that its responses are discarded (R171), `failed` that it
trapped its group (R225). -/
structure Load where
  id : Nat
  group : Nat
  dst : Nat
  lanes : List (Nat × Nat)
  waiting : List (Nat × Nat)
  issue : Nat
  rel : Nat
  pc : Nat
  mark : Marker
  cached : Bool
  got : List (Nat × Word) := []
  killed : Bool := false
  failed : Bool := false
  doneAt : Nat := 0
  deriving DecidableEq, Repr

/-- A remote-load tag (R166-R171). -/
structure RTag where
  taken : Bool := false
  gen : Bool := false
  load : Nat := 0
  block : Nat := 0
  freeFrom : Nat := 0
  noFill : Bool := false
  deriving DecidableEq, Repr

/-- A read-cache line (R163): the 64 B block it holds and its 16 words. The list of lines is kept most recently used
first. -/
structure CacheLine where
  block : Nat
  data : List TWord
  deriving DecidableEq, Repr

/-- A shadow line (R553, R559): block, tag, byte mask, bytes written so far, a mask of its words that are uncorrectable
(R570), awaiting write-back, or a held buoy operation instead. -/
structure ShadowLine where
  block : Nat := 0
  tag : Nat
  mask : Nat := 0
  data : Smap Nat Byte := []
  bad : Nat := 0
  wb : Bool := false
  op : Option BuoyMsg := none
  far : Option Nat := none
  bound : Nat := 0
  order : Nat := 0
  deriving DecidableEq, Repr

/-- A buoy operation or R = 1 send held until the group's earlier RSTs, those with serials below `bound`, are
performed (R232, R235). -/
structure HeldOp where
  group : Nat
  bound : Nat
  op : Option BuoyMsg := none
  far : Option Nat := none
  pkt : Nat := 0
  deriving DecidableEq, Repr

/-- What waits at a tile's service port (R156), in order of arrival. -/
inductive SvcReq where
  | landing (slot addr : Nat) (words : List TWord) (tail : Bool) (tag : Marker)
  | flag (slot addr value : Nat) (tag : Marker)
  | store (pkt : Packet)
  | load (pkt : Packet)
  | window (pkt : Packet)
  deriving DecidableEq, Repr

/-- A word in a slot's queue, with the out-slot whose credit it spent (R267), the cycle `stamp` of its push (R270), and whether it
stands with one bit in error (R254), which comes from outside and no command makes; `token` as a packet has it. -/
structure QWord where
  w : Word
  mark : Marker := .none
  bad : Bool := false
  tail : Bool := true
  src : Nat := 0
  sslot : Nat := 0
  didx : Nat := 0
  stamp : Nat := 0
  weak : Bool := false
  token : Option (Nat × Nat) := none
  deriving DecidableEq, Repr

/-- The latest firing of a tile's steering unit (R304, R314): its rule and first cycle, the in-slot and the item it moves, whether it
pops it, and its outputs: LOCAL in-slots, and out-slots with the packet each has in its send buffer. -/
structure SteerMove where
  rule : Nat
  from_ : Nat
  src : Nat := 0
  item : List QWord := []
  pops : Bool := true
  locals_ : List Nat := []
  pkts : List (Nat × Nat) := []
  deriving DecidableEq, Repr

/-- A tile (R132, R140-R148, R166). `cyc` is the next executed cycle free for issue, `lastGroup` the group that
issued last, `active` the character's group mask for this watch, `withhold` that it does not retire end-of-work in
this watch (R290-R292, R408), `codeWrites` the words of the shared region its stores wrote of late, newest first: offset,
cycle, and what stood there before (R172), `stretches` the cycles of this watch in which its bay was
stretched, earliest first (R144); `tagLog` and
`shadowLog` by how much the number of free tags and of free shadow lines changed, each with the cycle from which it did
(R185, R573), `svcFree` the first cycle in which the service port is free (R156), `pathFree` that in which the move path is, and `move`
the latest firing (R304, R306). -/
structure Tile where
  cyc : Nat := 0
  lastGroup : Nat := 7
  sfuFree : Nat := 0
  active : Nat := 0
  eow : Bool := false
  slip : Bool := false
  withhold : Bool := false
  tags : Smap Nat RTag := []
  loads : List Load := []
  cache : List CacheLine := []
  codeWrites : List (Nat × Nat × TWord) := []
  svc : List SvcReq := []
  shadow : Smap Nat ShadowLine := []
  shadowOrder : Nat := 0
  view : Smap Nat TagState := []
  opened : List Nat := []
  held : List HeldOp := []
  faultWatches : List Nat := []
  escalated : Bool := false
  pathFree : Nat := 0
  lastRule : Nat := 3
  stretches : List Nat := []
  tagLog : List (Nat × Int) := []
  shadowLog : List (Nat × Int) := []
  svcFree : Nat := 0
  move : Option SteerMove := none
  deriving DecidableEq, Repr

/-- A channel slot (spec/05_channels_and_queues.md). In-slots 0–15 use `queue`, `partial_` (discard to tail),
`midItem` (the last word pushed was not a tail), `doneCount` and `doneDue` (address-landed items completed in this
watch, and completions not yet signalled, with their tag). Out-slots 16–31 use `credits`, one counter per
destination, and `sendBuf`, the packets in the send buffer in issue order. `pushedAt` is the cycle of the latest push,
`fullSince` that in which the queue became full (R273); `creditLog`, by destination, and `roomLog` say by how much credits, and the room in the send buffer or in a
LOCAL queue, changed, each with the cycle from which it did (R262, R267, R303). -/
structure Slot where
  queue : List QWord := []
  partial_ : Bool := false
  midItem : Bool := false
  pushedAt : Nat := 0
  doneCount : Nat := 0
  doneDue : List Marker := []
  credits : List Nat := []
  full : Nat := 0
  fullSince : Option Nat := none
  sendBuf : List Nat := []
  creditLog : List (Nat × Nat × Int) := []
  roomLog : List (Nat × Int) := []
  deriving DecidableEq, Repr

/-- A steering rule's state (R308, R310, R311): LOOP active with remaining count `r`, RATE accumulator `acc` and the emissions still to come of the item it is moving; `freeAt` is the first cycle after
its last firing's moves. -/
structure RuleSt where
  active : Bool := false
  r : Nat := 0
  acc : Nat := 0
  left : Nat := 0
  freeAt : Nat := 0
  deriving DecidableEq, Repr
/-! ### Fields and sectors (spec/02_beacon_and_watch.md) -/

/-- Where a field stands in its watch (R87, R95): SETTLE before and after the commit point, HANDOVER and its rest
interval, and `idle` before the first beacon. -/
inductive Phase where
  | idle | intake | work | settle | commit | handover | rest
  deriving DecidableEq, Repr

/-- Void reasons (R131). -/
inductive VoidReason where
  | none | workOverrun | settleSlip | peerVoid | coastVoid | held
  deriving DecidableEq, Repr

/-- A field's watch (R84-R90, R118-R122). `startAt` is the instant its watch began, `nCycles` N, `settleLen` the S in
force, `expectAt` E of the next beacon (R118); `overrun` and `voids` are this watch's verdicts, `prevVoid` the
sectors void in the preceding watch, `votes` the votes received (sector, field, complete), `votesSent` this field's
own; `swept` the sectors whose sweep has run (R566); `draining` the sectors being drained with the cycle the drain began (R315) and
`quiesced` those quiesced (R319). `fogged`, `fogAt` and `fogCause` say whether, since
when and by which event the field is fogged (R847), `fenceLogged` that it logged FENCE_DISCARD in this watch. `stnWatch`,
`stnPeriod` and `stnCap` are the station values latched at the field's latest beacon (R905). `mhz` and `lensMhz` are the levels in
force, `nextLevel` and `afterLevel` those selected for the next watch and the one after (R86, R611); `drainDue` the drains to
begin at WORK cycle 512 of a watch, with that watch (R315, R838); `railLate` that the rail was late for this watch (R647); `energy` the total of the
meter in nJ (R649), `heldVoid` the station's watch for which the held field has recorded its void sectors (R109, R741); `armed` the low 16 bits of the
target watch of each sector's armed epoch flip (R366). -/
structure FieldSt where
  watch : Nat := 0
  phase : Phase := .idle
  startAt : Nat := 0
  nCycles : Nat := 0
  settleLen : Nat := 1024
  mhz : Nat := 0
  coast : Bool := false
  held : Bool := false
  expectAt : Option Nat := none
  overrun : List Nat := []
  voids : List (Nat × VoidReason) := []
  prevVoid : List Nat := []
  votes : List (Nat × Nat × Bool) := []
  votesSent : List (Nat × Bool) := []
  swept : List Nat := []
  overdraft : List Nat := []
  draining : List (Nat × Nat) := []
  quiesced : List Nat := []
  fogged : Bool := false
  fogAt : Nat := 0
  fogCause : Nat := 0
  fenceLogged : Bool := false
  stnWatch : Nat := 0
  stnPeriod : Nat := 50000
  stnCap : Nat := 0
  lensMhz : Nat := 0
  nextLevel : Option (Nat × Nat) := none
  afterLevel : Option (Nat × Nat) := none
  drainDue : List (Nat × Nat) := []
  railLate : Bool := false
  energy : Nat := 0
  heldVoid : Option Nat := none
  armed : Smap Nat Nat := []
  deriving DecidableEq, Repr

/-! ### Fuses and what leaves the wafer -/

/-- A defect-map record (R32-R34). -/
structure Defect where
  kind : Nat
  source : Nat
  loc : Nat
  detail : Nat := 0
  deriving DecidableEq, Repr

/-- The one-time fuses (R26, R64, R74, R79, R868): grade and full-lens count, owner, station debug key digest, the
fused defect records with their integrity check, the fused voltage tables, and the bay SRAM rail set point. A device's
own values; the ones below are DESIGN CHOICES (assumption 10). -/
structure Fuses where
  grade : Nat := 1
  fullLenses : Nat := 256
  owner : Nat := 0
  debugKey : List Nat := []
  records : List Defect := []
  mapOk : Bool := true
  vfCore : Smap Nat Nat := []
  vfLens : Smap Nat Nat := []
  sramMv : Nat := 0
  serial : Nat := 0
  fwFloor : Nat := 0
  deriving DecidableEq, Repr

/-- What the wafer sends out: an MSI-X message, an event line on UART1 (R888), words written to host memory, a
Jalfen frame (type, payload), and a line of 64 bytes written to CXL memory. -/
inductive Output where
  | msix (port fn vector : Nat)
  | uart (e : Event)
  | hostWrite (port fn addr : Nat) (words : List Nat)
  | frame (link ty : Nat) (payload : List Nat)
  | cxlWrite (port addr : Nat) (words : List Word)
  deriving DecidableEq, Repr
/-! ### Field store, lenses, MV engine, staging (spec/09_lens_arrays.md, spec/11_matvec_field_store_and_staging.md) -/

/-- A commit-journal entry (R509): a 64-byte block of a field, its sector, the region it lies in, the mask of bytes
written with their values, the uncorrectable 64-bit words, and whether it has committed (R512). `cyc` is 1 more than the watch cycle in
which a tile last wrote to it, and `oldMask`, `oldData` and `oldBad` what it held before that cycle (R511). -/
structure JEntry where
  field : Nat
  sector : Nat
  block : Nat
  region : Nat
  mask : Nat := 0
  data : Smap Nat Byte := []
  bad : List Nat := []
  committed : Bool := false
  cyc : Nat := 0
  oldMask : Nat := 0
  oldData : Smap Nat Byte := []
  oldBad : List Nat := []
  deriving DecidableEq, Repr

/-- A pass in a lens's slot (R434): its launch, descriptor, sequence number, the lens cycles in which it was accepted,
from which its weights are loaded, and in which it entered EXEC, the lens cycles stretched since acceptance and in
EXEC, FS_STALL so far, and whether any load it makes is complete. -/
structure LensPass where
  pkt : Packet
  desc : Nat
  seq : Nat
  accept : Nat
  readyAt : Nat := 0
  begun : Nat := 0
  stretched : Nat := 0
  execStretched : Nat := 0
  stall : Nat := 0
  ready : Bool := false
  deriving DecidableEq, Repr

/-- A load at a lens's engine or waiting for it (R435, R437, R438): a planned preload, or the NEXT pass's own; the
lens cycle it was asked for in, the first in which it may begin, the lens cycles it has had and those stretched. -/
structure LoadJob where
  preload : Option Nat
  desc : Nat
  asked : Nat
  from_ : Nat
  progress : Nat := 0
  stretched : Nat := 0
  deriving DecidableEq, Repr

/-- A lens (R414, R418, R434, R435), for a gang its lowest. `queue` holds each launch with the lens cycle it entered
in. Planes are held by row and column of the gang: `planes` gives the word of bit planes of (set, row, column), `exps`
the B4 exponent of (set, row block, column), `loaded` the (set, panel row, panel column) written since the set was last
unloaded. `engine` is in order, its head at the engine. `engineFree`, `nextFree` and `execFree` are the lens cycles
from which each is free, `loadEnds` the descriptors loaded in this watch with the lens cycles their loads ended in,
`preloaded` the preloads begun in this watch, `stretch` the running ledger, `lastStretch` the
lens cycle last stretched. -/
structure LensSt where
  queue : List (Packet × Nat) := []
  next : Option LensPass := none
  exec : Option LensPass := none
  nextSeq : Nat := 0
  engine : List LoadJob := []
  engineFree : Nat := 0
  nextFree : Nat := 0
  execFree : Nat := 0
  loaded : List (Nat × Nat × Nat) := []
  planes : Smap (Nat × Nat × Nat) Nat := []
  exps : Smap (Nat × Nat × Nat) Nat := []
  preloaded : List Nat := []
  loadEnds : List (Nat × Nat) := []
  stretch : Nat := 0
  lastStretch : Option Nat := none
  deriving DecidableEq, Repr

/-- An MV engine (R521): queued launches with the cycle each entered in, the executing one with its sequence number and
the cycle it began, and the cycle from which the engine is free. -/
structure MvSt where
  queue : List (Packet × Nat) := []
  exec : Option (Packet × Nat × Nat) := none
  nextSeq : Nat := 0
  free : Nat := 0
  deriving DecidableEq, Repr

/-- A transfer under way (R528-R530): its plan, target watch and sector, the watch its engine begins, the lines asked
of CXL memory, the data that has arrived by line, the lines each lane has injected, each lane's last injection
instant, when it completed, whether it failed and in
which watch (R536, R707), and the fields its completion notice has reached. -/
structure Order where
  plan : ImgTransfer
  sector : Nat
  target : Nat
  begin_ : Nat
  arrived : Smap Nat (List Word) := []
  sent : Smap Nat Nat := []
  last : Smap Nat Nat := []
  completeAt : Option Nat := none
  failed : Bool := false
  failedAt : Nat := 0
  notified : List Nat := []
  deriving DecidableEq, Repr

/-- A destage released at a commit point (R533): the bytes already written, and whether a write of it failed (R783). -/
structure DestageJob where
  sector : Nat
  plan : ImgDestage
  done_ : Nat := 0
  failed : Bool := false
  deriving DecidableEq, Repr

/-! ### Sectors and the planner (spec/14_schedule_contract_and_characters.md, spec/16_watch_planner.md) -/

/-- What a sector runs in one watch: a character, shelved or not, and why (`STN_PLAN_SECTOR`.WHY, and WHY of
`STN_CHAR_STATE` for a substitute), the value and class published with it. -/
structure Selection where
  char : Nat := 0
  shelved : Bool := false
  plan : Nat := 0
  why : Nat := 0
  value : Nat := 0
  cls : Nat := 2
  deriving DecidableEq, Repr

/-- A clock level of a field, core and lens, in MHz. -/
structure Level where
  core : Nat := 1000
  lens : Nat := 1200
  deriving DecidableEq, Repr

/-- Answers counted for a character and slot (R708): how many of the last 64 watches that counted, newest first, and
whether DECLARATION_SHORT stands with the figure that replaces R. -/
structure Answered where
  recent : List (Nat × Bool) := []
  short : Option Nat := none
  deriving DecidableEq, Repr

/-- A sector of the loaded image: its character table, the selections for the current watch and the two after it, the
watch from which it runs, consecutive voids (R637), its health (R837: 0 RUNNING, 1 QUIESCED, 2 DOWN, 3 STRANDED),
whether recovery is due (R705), its unservable tenants (R699), the code of the event behind its last DOWN or STRANDED, the requests each slot owned at
the current watch's INTAKE, and the watches each character has run. -/
structure SectorSt where
  table : ImgTable
  epochGroup : Nat := 0
  clockGroup : Nat := 0
  now : Selection := {}
  next : Selection := {}
  after : Selection := {}
  from_ : Nat := 0
  voidRun : Nat := 0
  health : Nat := 0
  recovery : Bool := false
  unservable : List Nat := []
  answered : Smap (Nat × Nat) Answered := []
  cause : Nat := 0
  demand : Smap Nat Nat := []
  runs : Smap Nat Nat := []
  deriving DecidableEq, Repr

/-- A field's part of the planner (R692-R697): calibration factor k_f, its updates since load, the watch of its last
CALIBRATION_LIMIT, thermal allowance H_f and the rounds since its last cut, P_base,f in nJ per ns, its latest
prediction by target watch (unscaled), and the levels selected for the next two watches. -/
structure PlanField where
  k : Rat := 1
  updates : Nat := 0
  limitAt : Option Nat := none
  allow : Nat := 340
  sinceCut : Nat := 8
  base : Rat := 0
  predicted : Smap Nat Rat := []
  deriving DecidableEq, Repr


/-! ### The host, images and binding (spec/01, 13, 19) -/

/-- A service-ledger record: a live defect record (R37) with its watch, the removal of one (R28), an SVN or key floor raise (R574,
R591), or a trim record (R673): field, the bay with the smallest margin, watch, and the changed entries with their new words,
lens entries from index 71 on. -/
inductive Ledger where
  | defect (d : Defect) (watch : Nat)
  | removal (d : Defect)
  | floor (key : Bool) (value : Nat)
  | trim (field bay watch : Nat) (entries : List (Nat × Nat))
  deriving DecidableEq, Repr

/-- A copy of the service ledger in NOR (R676): the record its journal holds while it is written, and its records. -/
structure LedgerCopy where
  journal : Option Ledger := none
  records : List Ledger := []
  deriving DecidableEq, Repr

/-- A registered tenant (R688, R629): class, deadline, precision word. -/
structure Tenant where
  cls : Nat := 2
  deadline : Nat := 0
  prec : Nat := 0
  deriving DecidableEq, Repr

/-- A request the wafer owns (R108, R793): SEQ, tenant, REQ_ID, its entries (LEN and 12 data words each), when and in
which watch it was fetched, the batch it was delivered in, and whether it is to be delivered again (R801). -/
structure Owned where
  seq : Nat
  tenant : Nat
  reqId : Nat
  entries : List (List Nat)
  fetchWatch : Nat
  fetchAt : Nat
  batch : Option Nat := none
  again : Bool := false
  deriving DecidableEq, Repr

/-- A tenant slot of a sector (R792-R807): its resident tenant and SOURCE_BASE, the tenant that becomes resident at the
next HANDOVER, the ring bound to it, requests owned, the batch being filled with its entry count, the eviction under way
(its mailbox slot), and the watch of its last RESULT_BAD. -/
structure HostSlot where
  tenant : Option Nat := none
  base : Nat := 0
  due : Option (Nat × Nat) := none
  ring : Option Nat := none
  owned : List Owned := []
  filling : Nat := 0
  filled : Nat := 0
  evicting : Option Nat := none
  badAt : Option Nat := none
  deriving DecidableEq, Repr

/-- A ring's counts (R790, R791, R793): doorbells, entries fetched, entries pushed, next SEQ, the entries of a request
still being fetched, or how many entries of a malformed one have been consumed (R812), and the result entries that wait in
the rim's result buffer: 16 words each, then 1 + SEQ where the entry retires its request, 2^33 where the rim itself made it,
else 0. -/
structure HostRing where
  reqTail : Nat := 0
  resHead : Nat := 0
  reqHead : Nat := 0
  resTail : Nat := 0
  seq : Nat := 0
  part : List (List Nat) := []
  skip : Option Nat := none
  results : List (List Nat) := []
  deriving DecidableEq, Repr

/-- What a mailbox command that runs waits for (R805). -/
inductive MboxOp where
  | load
  | bind
  | start (secs : List Nat)
  | stop (watch : Nat)
  | drain (sec : Nat)
  | retire (bay : Nat)
  | return_ (bay : Nat)
  | evict (tenant : Nat)
  | reset (domain target : Nat)
  deriving DecidableEq, Repr

/-- A bound path (R57-R61): the route, the destination's place in its group for a multicast branch, the physical tiles it
passes through from end to end, and those of its return path. -/
structure BoundPath where
  route : Nat
  branch : Nat
  path : List Nat
  back : List Nat
  deriving DecidableEq, Repr

/-- A bind table (R42): logical lenses, their panels, logical bays and moved logical tiles with the physical ones they
occupy, bound paths, and the light-list entries of every router (R349, R350, R355). -/
structure BindTable where
  lenses : Smap Nat Nat := []
  panels : Smap (Nat × Nat) Nat := []
  bays : Smap Nat Nat := []
  tiles : Smap Nat Nat := []
  paths : List BoundPath := []
  entries : Smap Nat (List Nat) := []
  deriving DecidableEq, Repr

/-- What a START under way does (R595-R604, R853): a load, a patch, or a restore of sectors. -/
inductive LoadKind where
  | full
  | patch
  | restore (secs : List Nat)
  deriving DecidableEq, Repr

/-- A START under way: what it does, when it began, the mailbox slot that waits, and the live records that have come
since (R72). -/
structure LoadRun where
  kind : LoadKind
  begun : Nat
  mbox : Option Nat
  news : List Defect := []
  deriving DecidableEq, Repr

/-! ### Power, resets, peers (spec/15, 17, 21) -/

/-- A bay's power (R652-R661, R856): when its ramp began and its step, when it last tripped, since when it is LIT, the
cycle last stretched and the cycles of requests denied (each as watch × 2^21 + cycle), whether BIST has passed since it was last LIT, and the watch
from whose HANDOVER traffic may be routed to it. -/
structure BayPower where
  rampAt : Option Nat := none
  step : Nat := 0
  tripAt : Option Nat := none
  litAt : Option Nat := none
  stretchAt : Option Nat := none
  denied : List Nat := []
  tested : Bool := false
  joins : Option Nat := none
  deriving DecidableEq, Repr

/-- A reset under way (R733-R745): domain, target, when it began, its cause, and the mailbox slot that waits. -/
structure ResetJob where
  domain : Nat
  target : Nat
  begun : Nat
  cause : Nat
  mbox : Option Nat := none
  deriving DecidableEq, Repr

/-- A Jalfen link (R784-R787): frame counts sent and received, credit in 64-byte units, units in the relay buffer, when a
frame was last sent and received, the DATA frames waiting for credit, those not yet covered by a grant (each with its
ring), and whether a BEAT has come since it trained. -/
structure Jalfen where
  tx : Nat := 0
  rx : Nat := 0
  credit : Nat := 16384
  used : Nat := 0
  lastTx : Nat := 0
  lastRx : Nat := 0
  waiting : List (Nat × List Nat) := []
  uncovered : List (Nat × List Nat) := []
  beat : Bool := false
  deriving DecidableEq, Repr

/-- A write of a register's RWL fields that was accepted (R14): when, by whom and to which address, and the register's word
before it; for `BCN_PERIOD` the writes that awaited their beacon before it. -/
structure RwlWrite where
  at_ : Nat
  req : Requester
  addr : Nat
  key : RegKey
  old : BitVec 64 := 0
  due : List (Nat × Nat) := []
  deriving DecidableEq, Repr

/-! ### The machine -/

/-- The state. `now` counts timebase ticks of 1 ns (R80); `pending` is the queue of commands, first in first out.
`fresh` is the model's own: the counter to which the free values of Config are applied. `out` is what the wafer has
sent out, newest first; `bankLast` is the bay port each field-store bank served last (R502), and under (64 + field, bay) the instant at which a bay port
last began an access (R503); `lastBeacon` the instant of
the latest station beacon; `periodDue` the pending period with the watch of its effect, `periodHeld` a later one that
waits behind it (R114, R115); `periodWrites` the periods written into `BCN_PERIOD`, each with the watch of its effect (R116); `settleDue` the SETTLE lengths to come, each with the watch of its effect, earliest first (R89);
`watchSpan` the earliest and latest instant at which a field has begun, at its beacon, the watch named (R82); `irqWatch` the watch of the last event interrupt (R888); `startedAt` when start-up began;
`sramWeak` and `fstWeak` the words that stand with one bit in error, which comes from outside and no command makes (R177, R514);
`outTurn` the virtual channel among VC1–VC3 that each data-plane output, by tile and port, granted last, and `cvRefused` the
cycles in a row in which each control-plane output has refused a ready CV1 flit (R343);
`live` is what the Keeper has of the service ledger and `ledgerQueue` what the inhibit holds back, `copyA` and `copyB` are the
two copies in NOR, and `ledgerRepair` says which copies are still to be rewritten after a failed check, and with what (R75, R676);
`bindMap` the merged map that a binding under way works from (R42); `gatedLogged` the watch in which a block (a lens by its
locator, the MV engine of field f as 256 + f) last logged CLK_GATED_ACCESS (R732); `hwSet` the bits of a register that
hardware set last, with the instant (R12); `rwlWrites` the writes of RWL fields accepted at the instant of the latest of them
(R14); `unlocked` the reset domains, with their targets, that have been reset since the lock of RWL fields last engaged
(R13); `railsBack` the instant at which both NOR rails came back (R674), `recovered` the firmware copy that recovery wrote to config
store A (R757); `snapshot` the slots and the tenants as they stood at the snapshot instant of the watch it names, where they have changed
since (R685); `lostTiles` the tiles whose SRAM an IDLE role left without its contents, each with the number of that loss and the ranges
(offset, bytes) written since (R134). -/
structure State where
  pending : List Instr := []
  now : Nat := 0
  fresh : Nat := 0
  nextPkt : Nat := 0
  fuses : Fuses := {}
  out : List Output := []
  irqWatch : Option Nat := none
  startedAt : Nat := 0
  regs : Smap RegKey (BitVec 64) := []
  latches : Smap Requester WideLatch := []
  sram : List Host.Cell := []
  sramBad : List Nat := []
  sramWeak : List Nat := []
  fst : List Host.Cell := []
  fstBad : List Nat := []
  fstWeak : List Nat := []
  rings : Smap Nat Ring := []
  fields : Smap Nat FieldSt := []
  groups : Smap (Nat × Nat) Group := []
  tiles : Smap Nat Tile := []
  slots : Smap (Nat × Nat) Slot := []
  rules : Smap (Nat × Nat) RuleSt := []
  buoys : Smap (Nat × Nat) Buoy := []
  buoyBlocks : Smap Nat BuoyBlock := []
  trunk : List TrunkMsg := []
  tagMsgs : List TagMsg := []
  sectorTags : Smap (Nat × Nat) TagState := []
  packets : List Packet := []
  outTurn : Smap (Nat × Nat) Nat := []
  cvRefused : Smap (Nat × Nat) Nat := []
  answers : Smap Requester (Nat × Word) := []
  mcast : Smap Nat (List Nat) := []
  journal : List JEntry := []
  bayQueues : Smap Nat (List Packet) := []
  bankLast : Smap (Nat × Nat) Nat := []
  lenses : Smap Nat LensSt := []
  mvs : Smap Nat MvSt := []
  orders : List Order := []
  destages : List DestageJob := []
  sectors : Smap Nat SectorSt := []
  plan : Smap Nat PlanField := []
  lastBeacon : Nat := 0
  periodDue : Option (Nat × Nat) := none
  periodHeld : Option Nat := none
  periodWrites : List (Nat × Nat) := []
  settleDue : List (Nat × Nat) := []
  live : List Ledger := []
  ledgerQueue : List Ledger := []
  copyA : LedgerCopy := {}
  copyB : LedgerCopy := {}
  ledgerRepair : Option (Bool × Bool × List Ledger) := none
  tenants : Smap Nat Tenant := []
  hostSlots : Smap (Nat × Nat) HostSlot := []
  hostRings : Smap Nat HostRing := []
  mboxQueue : List Nat := []
  mboxJobs : List (Nat × MboxOp) := []
  caps : List (Nat × Nat) := []
  candidate : Option Image := none
  boundTo : Option BindTable := none
  loaded : Option Image := none
  loadedBind : Option BindTable := none
  loadRun : Option LoadRun := none
  bays : Smap Nat BayPower := []
  rampQueue : List Nat := []
  retireQueue : List (Nat × Nat) := []
  stnEnergy : Nat × Nat := (0, 50000)
  railFails : Smap Nat Nat := []
  hot : Smap (Nat × Nat) (Nat × Nat) := []
  thermtrip : Bool := false
  wdogDoorbell : Smap Nat Nat := []
  xaLostAt : Option Nat := none
  resets : List ResetJob := []
  startDeadlines : Smap (Nat × Nat) Nat := []
  keeperAt : Nat := 27
  mirrorReady : Bool := false
  restartAt : Smap Nat Nat := []
  restarted : Smap Nat Nat := []
  faultLog : Smap Nat (List Nat) := []
  rewrites : List (Nat × Nat) := []
  jalfen : Smap Nat Jalfen := []
  nonces : Smap Nat Nat := []
  nonceCount : Nat := 0
  nonceEnd : Smap Nat Nat := []
  denials : Smap Nat (List Nat) := []
  lockEnd : Smap Nat Nat := []
  sessionEnd : Smap Nat Nat := []
  haltedBy : Smap (Nat × Nat) Nat := []
  belowGrade : Bool := false
  countWritten : Bool := false
  bindMap : Option (List Defect) := none
  stepsDone : List Nat := []
  bootPeriod : Nat := 50000
  bootPorts : Nat × Nat × Nat := (0xF, 0xFFFF, 0xFF)
  bootCaps : Nat × Nat := (60000, 10000)
  fieldFails : Smap Nat Nat := []
  portsDown : List (Nat × Nat) := []
  minuteLog : Option Nat := none
  planAt : Option Nat := none
  wdogFrom : Nat := 0
  fogAutoAt : Option Nat := none
  stationRetried : Bool := false
  railsBack : Option Nat := none
  recovered : Option FwCopy := none
  snapshot : Option (Nat × Smap (Nat × Nat) HostSlot × Smap Nat Tenant) := none
  stopAt : Option Nat := none
  gatedLogged : Smap Nat Nat := []
  watchSpan : Option (Nat × Nat × Nat) := none
  hwSet : Smap RegKey (Nat × Nat) := []
  rwlWrites : List RwlWrite := []
  unlocked : List (Nat × Nat) := []
  lostTiles : Smap Nat (Nat × List (Nat × Nat)) := []
  deriving DecidableEq, Repr

/-- Why the machine stops with a fault. -/
inductive Fault where
  /-- A command names a unit the wafer does not have (a field above 63, a tile id of R21, a group above 7 ...).
  Raised by every command through `onField`, `onTile` and their like. Safe: no such event can happen. -/
  | noSuchUnit
  deriving DecidableEq, Repr

/-- Why a command has no meaning. -/
inductive Refusal where
  /-- Not modelled yet. Raised by the arms of Machine/Dispatch.lean only. Safe: the run stops. -/
  | notModelled (mnemonic : String)
  deriving DecidableEq, Repr

/-- The machine right after a cold reset: every register at its reset value, memories with nothing listed, no
packet, no message, no command waiting. -/
def State.reset : State := {}

end Sys2Proof.Machine
end

