-- ==== Sys2Proof/Machine/Ops.lean ====
section
/-! DEFINITION. The named operations over the state: geometry, registers, memories, the sparse maps, time and the
event log. Everything a command does goes through these. -/

namespace Sys2Proof.Machine

/-! ### Geometry (R20) -/

/-- Column of a physical tile. -/
def tileX (t : Nat) : Nat := t % 768

/-- Row of a physical tile. -/
def tileY (t : Nat) : Nat := t / 768

/-- The tile at column `x`, row `y`. -/
def tileAt (x y : Nat) : Nat := y * 768 + x

/-- Field of a tile. -/
def fieldOf (t : Nat) : Nat := tileY t / 96 * 8 + tileX t / 96

/-- Bay id of a tile. -/
def bayOf (t : Nat) : Nat := tileY t / 16 * 48 + tileX t / 16

/-- Field of a bay. -/
def fieldOfBay (b : Nat) : Nat := b / 48 / 6 * 8 + b % 48 / 6

/-- Bay within its field, 0–35. -/
def bayInField (b : Nat) : Nat := b / 48 % 6 * 6 + b % 48 % 6

/-- The bay of field `f` with the given number within the field. -/
def bayAt (f k : Nat) : Nat := (f / 8 * 6 + k / 6) * 48 + (f % 8 * 6 + k % 6)

/-- Local index of a tile in its bay, 0–255. -/
def localIndex (t : Nat) : Nat := tileY t % 16 * 16 + tileX t % 16

/-- The tile of bay `b` with local index `i`. -/
def tileOfBay (b i : Nat) : Nat := tileAt (b % 48 * 16 + i % 16) (b / 48 * 16 + i / 16)

/-- The tile whose router serves the bay port of bay `b`: local index 0 (R329). -/
def bayPort (b : Nat) : Nat := tileOfBay b 0

/-- The north-west tile of a field. -/
def fieldTile (f : Nat) : Nat := tileAt (f % 8 * 96) (f / 8 * 96)

/-- Whether an id names a tile (R21). -/
def isTile (t : Nat) : Bool := t < 589824

/-! ### Outcomes -/

/-- A command on field `f`, where the wafer has it. -/
def onField (f : Nat) (x : State) : Host.Outcome State Fault Refusal :=
  if f < 64 then .next x else .fault .noSuchUnit

/-- A command on tile `t`, where the wafer has it. -/
def onTile (t : Nat) (x : State) : Host.Outcome State Fault Refusal :=
  if isTile t then .next x else .fault .noSuchUnit

/-- A command on group `g` of tile `t`, where the wafer has it. -/
def onGroup (t g : Nat) (x : State) : Host.Outcome State Fault Refusal :=
  if isTile t && decide (g < 8) then .next x else .fault .noSuchUnit

/-- A command on unit `k` of `n` alike. -/
def onUnit (k n : Nat) (x : State) : Host.Outcome State Fault Refusal :=
  if k < n then .next x else .fault .noSuchUnit

/-! ### Registers -/

/-- The word a register holds at reset, from its table (R10) and, where the table says so, from its unit or index. -/
def Reg.resetWord (r : Reg) (unit idx : Nat) : Nat :=
  match r with
  | .tilWinSel => fieldTile unit
  | .tilId => unit
  | .dbgSampleCfg => fieldTile unit
  | .lnsPanelMap => idx
  | _ => r.fields.foldl (fun acc f => acc + f.reset * 2 ^ f.lo) 0

/-- A floor of the service ledger: the SVN floor, or with `key` the key floor (R586, R606). -/
def floorIn (l : List Ledger) (key : Bool) : Nat :=
  (l.filterMap fun r => match r with | .floor k v => if k = key then some v else none | _ => none).foldl max 0

/-- `MSH_PORT_CFG` of a port that loading writes nothing into: a router in no sector's bay has only boundary ports while an
image is loaded (R359). -/
def State.outerPort (s : State) (t d : Nat) : Nat :=
  let far : Option Nat := match d with
    | 0 => if tileY t = 0 then none else some (t - 768)
    | 1 => if tileX t = 767 then none else some (t + 1)
    | 2 => if tileY t = 767 then none else some (t + 768)
    | _ => if tileX t = 0 then none else some (t - 1)
  match s.loadedBind with
  | none => 0xFFF
  | some bt =>
    if bt.bays.any (·.2 = bayOf t) then 0xFFF
    else 2 ^ 31 + match far with
      | none => 0xFFF
      | some n => (mget 0xFFF s.regs ⟨.mshTileSector, n, 0⟩).toNat % 4096

/-- The word a register reads before anything has written it: its reset word, or what the fuses, the ledger or the loading
of an image hold (R79, R359, R607, R643, R868). -/
def State.regDefault (s : State) (k : RegKey) : BitVec 64 :=
  BitVec.ofNat 64 (match k.reg with
    | .stnGrade => s.fuses.fullLenses * 256 + s.fuses.grade
    | .stnOwner => s.fuses.owner
    | .stnImageFloor => (if s.ledgerQueue.any (fun r => match r with | .floor _ _ => true | _ => false) then 256 else 0) +
        floorIn s.live false
    | .stnKeyFloor => floorIn s.live true
    | .stnDebugKey => s.fuses.debugKey.getD k.idx 0
    | .pwrVfCore => mget 0 s.fuses.vfCore k.idx
    | .pwrVfLens => mget 0 s.fuses.vfLens k.idx
    | .pwrStatus => s.fuses.sramMv * 2 ^ 20
    | .mshPortCfg => s.outerPort k.unit k.idx
    | r => r.resetWord k.unit k.idx)

/-- The word of a register. -/
def State.rd (s : State) (r : Reg) (unit : Nat := 0) (idx : Nat := 0) : BitVec 64 :=
  mget (s.regDefault ⟨r, unit, idx⟩) s.regs ⟨r, unit, idx⟩

/-- The state with a register's word set. -/
def State.wr (s : State) (r : Reg) (unit idx : Nat) (w : BitVec 64) : State :=
  { s with regs := mput s.regs ⟨r, unit, idx⟩ w }

/-- A field of a register. -/
def State.gf (s : State) (f : RegField) (unit : Nat := 0) (idx : Nat := 0) : Nat :=
  bits (s.rd f.reg unit idx).toNat f.hi f.lo

/-- The state with a field of a register set. -/
def State.sf (s : State) (f : RegField) (unit idx v : Nat) : State :=
  s.wr f.reg unit idx (BitVec.ofNat 64 (setBits (s.rd f.reg unit idx).toNat f.hi f.lo v))

/-- The bits of a register that hardware has set in the present cycle (R12). -/
def State.setNow (s : State) (k : RegKey) : Nat :=
  match mfind s.hwSet k with
  | some (t, m) => if t = s.now then m else 0
  | none => 0

/-- The state with a bit noted as set by hardware in the present cycle. -/
def State.noteSet (s : State) (f : RegField) (unit idx : Nat) : State :=
  let k : RegKey := ⟨f.reg, unit, idx⟩
  { s with hwSet := mput s.hwSet k (s.now, Nat.lor (s.setNow k) (2 ^ f.lo)) }

/-- The state with a W1C bit set by hardware. -/
def State.hset (s : State) (f : RegField) (unit idx : Nat) : State := (s.noteSet f unit idx).sf f unit idx 1

/-- Whether a one-bit field is set. -/
def State.flag (s : State) (f : RegField) (unit : Nat := 0) (idx : Nat := 0) : Bool := s.gf f unit idx = 1

/-- The state with a saturating 32-bit counter raised by `n`. -/
def State.bump (s : State) (r : Reg) (unit idx n : Nat) : State :=
  s.wr r unit idx (BitVec.ofNat 64 (satAdd32 (s.rd r unit idx).toNat n))

/-! ### Units of state -/

def State.fld (s : State) (f : Nat) : FieldSt := mget {} s.fields f
def State.setFld (s : State) (f : Nat) (x : FieldSt) : State := { s with fields := mput s.fields f x }
def State.grp (s : State) (t g : Nat) : Group := mget {} s.groups (t, g)
def State.setGrp (s : State) (t g : Nat) (x : Group) : State := { s with groups := mput s.groups (t, g) x }
def State.til (s : State) (t : Nat) : Tile := mget {} s.tiles t
def State.setTil (s : State) (t : Nat) (x : Tile) : State := { s with tiles := mput s.tiles t x }
def State.slot (s : State) (t k : Nat) : Slot := mget {} s.slots (t, k)
def State.setSlot (s : State) (t k : Nat) (x : Slot) : State := { s with slots := mput s.slots (t, k) x }
def State.rule (s : State) (t k : Nat) : RuleSt := mget {} s.rules (t, k)
def State.setRule (s : State) (t k : Nat) (x : RuleSt) : State := { s with rules := mput s.rules (t, k) x }
def State.buoy (s : State) (b i : Nat) : Buoy := mget {} s.buoys (b, i)
def State.setBuoy (s : State) (b i : Nat) (x : Buoy) : State := { s with buoys := mput s.buoys (b, i) x }
def State.blk (s : State) (b : Nat) : BuoyBlock := mget {} s.buoyBlocks b
def State.setBlk (s : State) (b : Nat) (x : BuoyBlock) : State := { s with buoyBlocks := mput s.buoyBlocks b x }
def State.tagSt (s : State) (sec tag : Nat) : TagState := mget .free s.sectorTags (sec, tag)
def State.setTagSt (s : State) (sec tag : Nat) (x : TagState) : State :=
  { s with sectorTags := mput s.sectorTags (sec, tag) x }
def State.ring (s : State) (r : Nat) : Ring := mget {} s.rings r
def State.setRing (s : State) (r : Nat) (x : Ring) : State := { s with rings := mput s.rings r x }

/-- The packet with an id. -/
def State.pkt (s : State) (id : Nat) : Option Packet := s.packets.find? (·.id = id)

/-- The state without a packet. -/
def State.dropPkt (s : State) (id : Nat) : State := { s with packets := s.packets.filter (·.id ≠ id) }

/-- The state with a packet replaced by a later form of itself. -/
def State.setPkt (s : State) (p : Packet) : State :=
  { s with packets := s.packets.map fun q => if q.id = p.id then p else q }

/-- The state with a new packet, which takes the next packet number; a router holds it from now on, or from the later instant
at which it comes to it. -/
def State.addPkt (s : State) (p : Packet) : State :=
  { s with packets := s.packets ++ [{ p with id := s.nextPkt, since := max p.since s.now }], nextPkt := s.nextPkt + 1 }

/-! ### Flits -/

/-- Virtual channel: on the control plane CV1 carries requests and CV0 the rest (R331, R338). -/
def Packet.chan (p : Packet) : Nat :=
  if p.control then (match p.ty with | .buoyOp | .kreg => 1 | _ => 0) else p.vc

/-- Flits of a packet: its head, and its body, which on the control plane the type gives (R336, R338). -/
def Packet.flits (p : Packet) : Nat :=
  1 + (if p.control then max p.len (match p.ty with | .buoyOp => 2 | _ => 1) else p.len)

/-- Whether two packets use one virtual channel of one plane. -/
def Packet.sameChan (p q : Packet) : Bool := p.control == q.control && decide (p.chan = q.chan)

/-- The routers in which a packet whose head has gone on still has flits, with the ports by which it came and left and how
many: 4 wait with its head and up to 4 in each router behind, the rest where it came from (R330, R340; assumption 99). -/
def Packet.segments (p : Packet) : List (Nat × Dir × Dir × Nat) :=
  (((List.range p.trail.length).zip p.trail).map fun e =>
    (e.2.1, e.2.2.1, e.2.2.2, min 4 (p.flits - 4 * (e.1 + 1)))).filter fun e => decide (0 < e.2.2.2)

/-- Whether packets must be taken in the order in which they were ejected: items of one out-slot for one in-slot, and of one
sending tile on one virtual channel its remote accesses and its buoy operations (R245, R264, R391). -/
def Packet.inOrder (p q : Packet) : Bool :=
  decide (p.src = q.src) && p.sameChan q &&
    (match p.ty, q.ty with
      | .item, .item => decide (p.sslot = q.sslot) && decide (p.dslot = q.dslot)
      | .rload, .rload | .rload, .rstore | .rstore, .rload | .rstore, .rstore => true
      | .buoyOp, .buoyOp => true
      | _, _ => false)

/-- Repeats an effect over a list, first element first. -/
def State.each {α : Type} (s : State) (l : List α) (f : State → α → State) : State := l.foldl f s

/-! ### Memories -/

/-- A tile SRAM address: tile and byte offset 0x0000–0x9FFF. -/
def sramAddr (t off : Nat) : Nat := t * 65536 + off

/-- A field-store address: field and byte offset, 64 MiB a field (R499). -/
def fstAddr (f off : Nat) : Nat := f * 67108864 + off

/-- Whether a byte offset lies in one of some ranges. -/
def inRanges (l : List (Nat × Nat)) (off : Nat) : Bool := l.any fun r => decide (r.1 ≤ off) && decide (off < r.1 + r.2)

/-- The byte of tile SRAM at an offset; one that an IDLE role lost, and that nothing has written since, is a free value (R134,
assumption 8). -/
def State.sramByte (s : State) (t off : Nat) : Byte :=
  match mfind s.lostTiles t with
  | none => memRead s.sram (sramAddr t off)
  | some (n, kept) => if inRanges kept off then memRead s.sram (sramAddr t off) else Config.lostByte n (sramAddr t off)

/-- `n` bytes of tile SRAM from an offset noted as written. -/
def State.keptNow (s : State) (t off n : Nat) : Smap Nat (Nat × List (Nat × Nat)) :=
  match mfind s.lostTiles t with
  | none => s.lostTiles
  | some (k, kept) => if kept.contains (off, n) then s.lostTiles else mput s.lostTiles t (k, (off, n) :: kept)

/-- A tile's SRAM loses its contents (R134). -/
def State.loseSram (s : State) (t : Nat) : State :=
  { s with
    fresh := s.fresh + 1, lostTiles := mput s.lostTiles t (s.fresh + 1, [])
    sramBad := s.sramBad.filter fun a => a / 65536 ≠ t
    sramWeak := s.sramWeak.filter fun a => a / 65536 ≠ t }

/-- The byte of field store at an offset. -/
def State.fstByte (s : State) (f off : Nat) : Byte := memRead s.fst (fstAddr f off)

/-- A 32-bit word of tile SRAM at a 4-byte-aligned offset, with its uncorrectable mark (R177). -/
def State.sramWord (s : State) (t off : Nat) : TWord :=
  { w := wordOfBytes (s.sramByte t off) (s.sramByte t (off + 1)) (s.sramByte t (off + 2)) (s.sramByte t (off + 3))
    bad := s.sramBad.contains (sramAddr t off) }

/-- Whether the 64-bit word of field store that holds an offset is marked uncorrectable (R514). -/
def State.fstMarked (s : State) (f off : Nat) : Bool := s.fstBad.contains (fstAddr f (off / 8 * 8))

/-- Four bytes written at an address, lowest first (R6). -/
def memWriteWord (m : List Host.Cell) (a : Nat) (w : Word) : List Host.Cell :=
  memWrite (memWrite (memWrite (memWrite m a (byteOf w 0)) (a + 1) (byteOf w 1)) (a + 2) (byteOf w 2)) (a + 3)
    (byteOf w 3)

/-- A list of word addresses with `a` marked or not. -/
def markWord (l : List Nat) (a : Nat) (bad : Bool) : List Nat :=
  if bad then a :: l.filter (· ≠ a) else l.filter (· ≠ a)

/-- The state with a word of tile SRAM written. -/
def State.sramPut (s : State) (t off : Nat) (x : TWord) : State :=
  { s with
    sram := memWriteWord s.sram (sramAddr t off) x.w, sramBad := markWord s.sramBad (sramAddr t off) x.bad
    sramWeak := markWord s.sramWeak (sramAddr t off) false, lostTiles := s.keptNow t off 4 }

/-- The state with one byte of tile SRAM written. -/
def State.sramPutByte (s : State) (t off : Nat) (b : Byte) : State :=
  { s with
    sram := memWrite s.sram (sramAddr t off) b, sramWeak := markWord s.sramWeak (sramAddr t (off / 4 * 4)) false
    lostTiles := s.keptNow t off 1 }

/-- Words of tile SRAM at some offsets have been read: each that stands with one bit in error is read corrected, and counted
(R177). -/
def State.readEcc (s : State) (t : Nat) (offs : List Nat) : State :=
  let n := (offs.eraseDups.filter fun o => s.sramWeak.contains (sramAddr t o)).length
  if n = 0 then s else s.bump .tilCountEccCorr t 0 n

/-- Bytes written one after another from an address. -/
def memWriteBytes (m : List Host.Cell) (a : Nat) : List Byte → List Host.Cell
  | [] => m
  | b :: bs => memWriteBytes (memWrite m a b) (a + 1) bs

/-- The state with bytes of tile SRAM written, one after another from an offset. -/
def State.sramPutBytes (s : State) (t off : Nat) (bs : List Byte) : State :=
  let mine (a : Nat) : Bool := decide (sramAddr t off ≤ a) && decide (a < sramAddr t off + bs.length)
  { s with
    sram := memWriteBytes s.sram (sramAddr t off) bs, sramBad := s.sramBad.filter fun a => !mine a
    sramWeak := s.sramWeak.filter fun a => !mine a, lostTiles := s.keptNow t off bs.length }

/-- The state with bytes of field store written; a 64-bit word written whole loses its mark (R514). -/
def State.fstPutBytes (s : State) (f off : Nat) (bs : List Byte) : State :=
  let a := fstAddr f off
  { s with fst := memWriteBytes s.fst a bs
           fstBad := s.fstBad.filter fun w => !(decide (a ≤ w) && decide (w + 8 ≤ a + bs.length))
           fstWeak := s.fstWeak.filter fun w => !(decide (a ≤ w) && decide (w + 8 ≤ a + bs.length)) }

/-- The 64-bit words at some offsets of field store have been read: each that stands with one bit in error is read corrected,
and counted (R514). -/
def State.fstEcc (s : State) (f : Nat) (offs : List Nat) : State :=
  let n := (offs.filter fun o => s.fstWeak.contains (fstAddr f o)).length
  if n = 0 then s else s.bump .fstCountEccCorr f 0 n

/-! ### Time -/

/-- The clock moved up to instant `t`, never back (assumption 2). -/
def State.advanceTo (s : State) (t : Nat) : State := { s with now := max s.now t }

/-- N of a watch (R85): period in ns, core clock level in MHz. -/
def watchCycles (period mhz : Nat) : Nat := (period - 64) * mhz / 1000

/-- The instant cycle `c` of a field's watch begins (R83, R90). -/
def cycleInstant (x : FieldSt) (c : Nat) : Nat := x.startAt + ceilDiv (c * 1000) (max x.mhz 1)

/-- The watch cycle index of a field now, N in the rest interval (R87, R130). -/
def State.cycle (s : State) (f : Nat) : Nat :=
  let x := s.fld f
  if x.phase = .idle then 0 else if x.phase = .rest then x.nCycles else min x.nCycles ((s.now - x.startAt) * x.mhz / 1000)

/-- The cycle of a field's watch in which an instant falls (R83, R90). -/
def State.cycleOf (s : State) (f t : Nat) : Nat :=
  let x := s.fld f
  if x.phase = .idle then 0 else min x.nCycles ((t - x.startAt) * x.mhz / 1000)

/-- `BCN_PHASE` (R130): phase, rest, held, coast and cycle. -/
def State.bcnPhaseWord (s : State) (f : Nat) : Nat :=
  let x := s.fld f
  let ph := match x.phase with
    | .idle | .intake => 0
    | .work => 1
    | .settle | .commit => 2
    | .handover | .rest => 3
  ph * 2 ^ 30 + (if x.phase = .rest then 2 ^ 29 else 0) + (if x.held then 2 ^ 28 else 0) +
    (if x.coast then 2 ^ 27 else 0) + s.cycle f % 2 ^ 21

/-- A watch cycle as a number that grows from watch to watch. -/
def State.cycleMark (s : State) (f : Nat) : Nat := (s.fld f).watch * 2 ^ 21 + s.cycle f

/-- Whether the present cycle of a tile's bay is stretched, so that its tiles and routers do not execute it (R90, R660). -/
def State.stretchedNow (s : State) (t : Nat) : Bool :=
  decide ((mget {} s.bays (bayOf t)).stretchAt = some (s.cycleMark (fieldOf t)))

/-- Whether cycle `c` of the present watch is stretched in a tile's bay. -/
def State.stretchedAt (s : State) (t c : Nat) : Bool :=
  decide ((mget {} s.bays (bayOf t)).stretchAt = some ((s.fld (fieldOf t)).watch * 2 ^ 21 + c))

/-- Whether a field neither runs nor answers: held, fogged or in reset (R409). -/
def State.fieldDown (s : State) (f : Nat) : Bool :=
  (s.fld f).held || (s.fld f).fogged || s.flag F.fkpStatus_resetting f

/-- First cycle of SETTLE (R87). -/
def settleStart (x : FieldSt) : Nat := x.nCycles - x.settleLen - 256

/-- The instant WORK of a field's watch ends: that of SETTLE cycle 0 (R87). -/
def State.workEnd (s : State) (f : Nat) : Nat := cycleInstant (s.fld f) (settleStart (s.fld f))

/-- The latest watch for which a field has taken its verdicts. -/
def FieldSt.verdictWatch (x : FieldSt) : Option Nat :=
  match x.heldVoid with
  | some w => some w
  | none => match x.phase with
    | .commit | .handover | .rest => some x.watch
    | .idle => none
    | _ => if x.watch = 0 then none else some (x.watch - 1)

/-- Length L of WORK (R102). -/
def workLength (x : FieldSt) : Nat := x.nCycles - x.settleLen - 768

/-- The parity of a field's watch, `BCN_WATCH`[0]. -/
def State.parity (s : State) (f : Nat) : Bool := (s.fld f).watch % 2 = 1

/-- `BCN_WATCH`. -/
def State.stationWatch (s : State) : Nat := s.gf F.bcnWatch_watch

/-- `BCN_SETTLE_LEN` written: in force from the second beacon on (R89). A later write in one watch replaces an earlier one, since
both fall due at one beacon. -/
def State.setSettle (s : State) (n : Nat) : State :=
  let e := s.stationWatch + 2
  { s with settleDue := s.settleDue.filter (fun d => d.2 ≠ e) ++ [(n, e)] }

/-- A fresh index for the free values of Config. -/
def State.tickFresh (s : State) : State := { s with fresh := s.fresh + 1 }

/-! ### The event log (R885-R888) -/

/-- The CYCLE word of an event record (R885). -/
def State.eventCycle (s : State) (f : Nat) : Nat :=
  if s.flag F.bcnStatus_running then (if f < 64 then s.cycle f else 0)
  else 2 ^ 31 + (s.now - s.startedAt) / 1000 % 2 ^ 21

/-- What some quantity was in cycle `c`, from what it is and the changes of it, each with the cycle from which it holds. -/
def levelAt (now : Int) (log : List (Nat × Int)) (c : Nat) : Int :=
  now - ((log.filter fun e => decide (c < e.1)).map (·.2)).foldl (· + ·) 0

/-- The first cycle from `c` on in which something holds that changes only at the cycles listed. -/
def firstCycle (holds : Nat → Bool) (cs : List Nat) (c : Nat) : Option Nat :=
  minOf ((c :: cs.filter (c < ·)).filter holds)

/-- The cycle `n` executed cycles after cycle `c`, where the cycles listed, earliest first, are stretched (R144). -/
def afterCycles (stretched : List Nat) (c n : Nat) : Nat :=
  stretched.foldl (fun due k => if c ≤ k ∧ k < due then due + 1 else due) (c + n)

/-- The cycle `n` executed cycles of a tile after cycle `c` (R144). -/
def State.after (s : State) (t c n : Nat) : Nat := afterCycles (s.til t).stretches c n

/-- How many of the cycles from `a` on, before cycle `b`, a tile executes (R144). -/
def State.executed (s : State) (t a b : Nat) : Nat :=
  b - a - ((s.til t).stretches.filter fun k => decide (a ≤ k) && decide (k < b)).length

/-- A cycle, or the one after it where it is stretched (R144). -/
def skipStretch (stretched : List Nat) (c : Nat) : Nat := if stretched.contains c then c + 1 else c

/-- A record written to the station ring, with its UART1 line and, where it is due, the event interrupt (R887,
R888). -/
def State.stationRecord (s : State) (e : Event) : State :=
  let r := s.ring 64
  let e := { e with seq := r.head, lost := r.lostPending }
  let s := s.setRing 64 { r with slots := mput r.slots (r.head % 2048) e, head := (r.head + 1) % 2 ^ 32,
                                 lostPending := false }
  let irq := s.flag F.stnEventIrq_enable && decide (s.gf F.stnEventIrq_class ≤ e.cls) &&
    decide (s.irqWatch ≠ some s.stationWatch)
  { s with
    out := (if irq then (List.range 4).map fun p => Output.msix p 0 2 else []) ++ Output.uart e :: s.out
    irqWatch := if irq then some s.stationWatch else s.irqWatch }

/-- An event occurs in cycle `cyc`: source field (64 for the station), WHERE, DETAIL. A field event of class SECTOR or above is
copied to the station ring first; then it enters the field's queue, or is dropped where that is full (R886, R887). -/
def State.logEvAt (s : State) (ev : Ev) (f cyc loc detail : Nat) : State :=
  let e : Event := { code := evCode ev, cls := ev.cls, field := f, loc := loc, detail := detail % 2 ^ 64,
                     watch := if f < 64 then (s.fld f).watch else s.stationWatch, cycle := cyc }
  if f < 64 then
    let s := if 3 ≤ ev.cls then s.stationRecord { e with copy := true } else s
    let r := s.ring f
    if r.queue.length < 512 then s.setRing f { r with queue := r.queue ++ [e] }
    else s.setRing f { r with lostTotal := satAdd32 r.lostTotal 1, lostNew := r.lostNew + 1, lostPending := true }
  else s.stationRecord e

/-- An event occurs now (`State.logEvAt`). -/
def State.logEv (s : State) (ev : Ev) (f loc detail : Nat) : State := s.logEvAt ev f (s.eventCycle f) loc detail

/-- DETAIL of two items, the first in the lower-addressed word (R885). -/
def detail2 (a b : Nat) : Nat := a % 2 ^ 32 + b % 2 ^ 32 * 2 ^ 32

/-- WHERE of an ACCESS_REFUSED record (R836). -/
def Requester.loc : Requester → Nat
  | .host p fn => p * 2 ^ 24 + fn * 2 ^ 16
  | .keeper n => 2 ^ 28 + n
  | .tile t g => 2 * 2 ^ 28 + g * 2 ^ 20 + t
  | .jtag => 3 * 2 ^ 28
  | .block => 4 * 2 ^ 28

/-- Offset in the register map of an offset of a field's window (R893). -/
def fieldWin (f off : Nat) : Nat := 0x4000000 + f * 0x100000 + off

/-- An access refused and logged (R836), in field `f` or at the station. -/
def State.refuse (s : State) (f : Nat) (req : Requester) (addr : Nat) : State :=
  s.logEv evAccessRefused f (Requester.loc req) addr

/-- An access to a register of a block whose clock does not run (R732): counted, and logged once for the block in a watch.
`block` is a lens's locator, or 256 + f for the MV engine of field f. -/
def State.gatedAccess (s : State) (f block : Nat) (req : Requester) (addr : Nat) : State :=
  let s := s.bump .clkCountGated 0 0 1
  if mfind s.gatedLogged block = some (s.fld f).watch then s
  else ({ s with gatedLogged := mput s.gatedLogged block (s.fld f).watch } : State).logEv evClkGatedAccess f
    (Requester.loc req) addr

/-- Whether a requester's session grants right `bit` in field `f` (R871, R874): 0 GROUP, 1 WRITE, 2 SHADOW. JTAG counts as
port 4; a virtual function never holds rights; what lies at the station needs the right in no field. -/
def State.right (s : State) (req : Requester) (bit f : Nat) : Bool :=
  let of (p : Nat) : Bool := s.flag F.stnDebugSession_active 0 p && (s.gf F.stnDebugSession_rights 0 p).testBit bit &&
    (decide (64 ≤ f) || (s.gf F.stnDebugFields_fields 0 p).testBit f)
  match req with
  | .host p fn => decide (fn = 0) && of p
  | .jtag => of 4
  | _ => false

/-! ### Whose a register is -/

/-- Whether a register is one of a tile. -/
def Reg.isTile (r : Reg) : Bool :=
  [rowsMshTile, rowsTilTile, rowsDbgTile, rowsSptTile].any fun rows => rows.any fun e => e.reg = r

/-- Whether a register is one of a lens. -/
def Reg.isLens (r : Reg) : Bool := rowsLns.any fun e => e.reg = r

/-- Whether a register is one of a ring or a mailbox slot. -/
def Reg.isPort (r : Reg) : Bool := [rowsRing, rowsMbox].any fun rows => rows.any fun e => e.reg = r

/-- Whether a register is one of the station. -/
def Reg.isStation (r : Reg) : Bool := r.isPort || rowsStation.any fun e => e.reg = r

/-- The field a register belongs to, 64 for the station's. -/
def RegKey.field (k : RegKey) : Nat :=
  if k.reg.isStation then 64
  else if k.reg.isTile then fieldOf k.unit
  else if k.reg.isLens then k.unit / 4
  else k.unit

/-- Whether a Keeper makes an access. -/
def byKeeper : Requester → Bool
  | .keeper _ => true
  | _ => false

/-! ### The lock of RWL fields (R13, R14) -/

/-- A register's word with its RWL fields as another word has them. -/
def Reg.relocked (r : Reg) (w old : Nat) : Nat :=
  (r.fields.filter fun f => f.acc = .rwl).foldl (fun a f => setBits a f.hi f.lo (bits old f.hi f.lo)) w

/-- A write of RWL fields noted (R14); those of earlier instants are forgotten. -/
def State.noteRwl (s : State) (w : RwlWrite) : State :=
  { s with rwlWrites := s.rwlWrites.filter (·.at_ = s.now) ++ [w] }

/-- A noted write judged again and refused: the register's RWL fields, or for `BCN_PERIOD` the writes that await their
beacon, are as before it, and it is logged. -/
def State.unwrite (s : State) (w : RwlWrite) : State :=
  let k := w.key
  let s : State := if k.reg = .bcnPeriod then { s with periodWrites := w.due }
    else s.wr k.reg k.unit k.idx (BitVec.ofNat 64 (k.reg.relocked (s.rd k.reg k.unit k.idx).toNat w.old.toNat))
  s.refuse k.field w.req w.addr

/-- A stage of the lock engages, the second with `keeper`: a write of RWL fields of the same cycle by a requester whom the stage
refuses is ignored and logged; the second stage holds in every domain (R13, R14). -/
def State.engageLock (s : State) (keeper : Bool) : State :=
  let now := s.rwlWrites.filter fun w => decide (w.at_ = s.now) && (keeper || !byKeeper w.req)
  let s := s.each now.reverse State.unwrite
  { s with rwlWrites := [], unlocked := if keeper then [] else s.unlocked }

/-! ### Sectors as the registers hold them -/

/-- The sector of a tile, 0xFFF for none. -/
def State.sectorOf (s : State) (t : Nat) : Nat := s.gf F.mshTileSector_sector t

/-- The tiles of a field that belong to a sector. -/
def State.tilesOf (s : State) (f sec : Nat) : List Nat :=
  s.regs.filterMap fun (k, v) =>
    if k.reg = .mshTileSector ∧ fieldOf k.unit = f ∧ v.toNat % 4096 = sec then some k.unit else none

/-- The sectors of which a field holds tiles, each once. -/
def State.sectorsIn (s : State) (f : Nat) : List Nat :=
  (s.regs.filterMap fun (k, v) =>
    if k.reg = .mshTileSector ∧ fieldOf k.unit = f ∧ v.toNat % 4096 ≠ 0xFFF then some (v.toNat % 4096)
    else none).eraseDups

/-- The fields that hold tiles of a sector, in ascending order. -/
def State.fieldsOf (s : State) (sec : Nat) : List Nat :=
  (List.range 64).filter fun f => s.regs.any fun (k, v) =>
    decide (k.reg = .mshTileSector) && decide (fieldOf k.unit = f) && decide (v.toNat % 4096 = sec)

/-- The home field of a sector: the lowest-numbered field that holds it (R561). -/
def State.homeOf (s : State) (sec : Nat) : Nat := (s.fieldsOf sec).headD 0

/-- Whether a sector is draining in a field (R315, R316). -/
def State.isDraining (s : State) (f sec : Nat) : Bool := (s.fld f).draining.any (·.1 = sec)

/-- Whether a sector is quiesced in a field (R317, R319). -/
def State.isQuiesced (s : State) (f sec : Nat) : Bool := (s.fld f).quiesced.contains sec

/-- Whether an image is started (R607). -/
def State.imageStarted (s : State) : Bool := s.gf F.stnImageLoaded_state = 3

/-- Whether an image is loaded (R607). -/
def State.imageLoaded (s : State) : Bool := decide (2 ≤ s.gf F.stnImageLoaded_state ∧ s.gf F.stnImageLoaded_state ≤ 3)

/-- Whether an access mode admits a sector (R402, R505): 0 OWNER, 1 GROUP by `BUY_SECTOR_GROUP` of block `b`, 2 ANY. -/
def State.accessAdmits (s : State) (b mode owner sec : Nat) : Bool :=
  match mode with
  | 0 => owner ≠ 0xFFF && owner = sec
  | 1 => owner ≠ 0xFFF && sec ≠ 0xFFF &&
      s.gf F.buySectorGroup_group b sec = s.gf F.buySectorGroup_group b owner
  | 2 => true
  | _ => false

/-! ### What a field window answers while its field is down (R773, R850, R908) -/

/-- State of a bay: 0 DARK, 1 RAMPING, 2 LIT, 3 FOGGED, 4 DARK_FAULT, 5 RETIRED. -/
def State.bayState (s : State) (b : Nat) : Nat := s.gf F.pwrBayState_state (fieldOfBay b) (bayInField b)

/-- Whether a tile lies in a DARK bay of a fogged field (R850). -/
def State.darkTile (s : State) (t : Nat) : Bool :=
  (s.fld (fieldOf t)).fogged && (decide (s.bayState (bayOf t) = 0) || decide (4 ≤ s.bayState (bayOf t)))

/-- Whether the state of a field refuses an access to offset `off` of its window: not started (R773), in reset but for reads of
the FKP block, or fogged but for reads (R850, R908). -/
def State.barred (s : State) (f off : Nat) (write : Bool) : Bool :=
  decide (f < 64) && (!(s.gf F.stnStartupFields_running).testBit f ||
    (s.flag F.fkpStatus_resetting f && (write || decide (0x10000 ≤ off))) || ((s.fld f).fogged && write))

/-- The groups of a tile's character mask. -/
def State.groupsOfTile (s : State) (t : Nat) : List Nat := (List.range 8).filter fun g => (s.til t).active.testBit g

end Sys2Proof.Machine
end

