-- ==== Sys2Proof/Machine/Wafer.lean ====
section
/-! DEFINITION. The wafer as its mesh and its merged defect map see it: neighbours, directions, dimension order (R328, R341, R346),
and which tiles, bays and links are dark (R26-R32, R65). -/

namespace Sys2Proof.Machine

/-! ### Geometry of a hop -/

/-- The neighbour in a direction, none beyond the wafer edge or to the tile itself (R328). -/
def neighbour (t : Nat) : Dir → Option Nat
  | .n => if tileY t = 0 then none else some (t - 768)
  | .e => if tileX t = 767 then none else some (t + 1)
  | .s => if tileY t = 767 then none else some (t + 768)
  | .w => if tileX t = 0 then none else some (t - 1)
  | .l => none

/-- The port by which a packet that left in a direction enters the next router. -/
def opposite : Dir → Dir
  | .n => .s | .e => .w | .s => .n | .w => .e | .l => .l

/-- Port numbers (R328). -/
def dirNum : Dir → Nat
  | .n => 0 | .e => 1 | .s => 2 | .w => 3 | .l => 4

/-- Direction of a port number. -/
def dirOf : Nat → Dir
  | 0 => .n | 1 => .e | 2 => .s | 3 => .w | _ => .l

/-- Whether an entry tile lies at the rim of a CXL port (R525). -/
def atRim (device t : Nat) : Bool := device < 16 && (neighbour t (dirOf (device / 4))).isNone

/-- The port by which a CXL port's staging engine enters a tile: the outward one of its rim (R328); a tile that binding has moved off
the rim is entered by its L port (DESIGN CHOICE, assumption 109). -/
def rimPort (device t : Nat) : Dir := if atRim device t then dirOf (device / 4) else .l

/-- Hop time: 1 straight on, 2 at a turn; a packet from the L port goes straight (R341). -/
def hopTime (inPort out : Dir) : Nat := if inPort = .l ∨ inPort = opposite out then 1 else 2

/-- Dimension order: X then Y on the data plane, Y then X on the control plane (R346). -/
def dimensionOrder (control : Bool) (t dest : Nat) : Dir :=
  let x := if tileX t < tileX dest then some Dir.e else if tileX dest < tileX t then some Dir.w else none
  let y := if tileY t < tileY dest then some Dir.s else if tileY dest < tileY t then some Dir.n else none
  if control then (y.orElse fun _ => x).getD .l else (x.orElse fun _ => y).getD .l

/-! ### What the merged map makes of links (R26-R31, R65) -/

/-- The defects of the live map. -/
def State.liveDefects (s : State) : List Defect :=
  s.live.filterMap fun r => match r with | .defect d _ => some d | _ => none

/-- The neighbour over a link named by its direction number. -/
def linkEnd (t d : Nat) : Option Nat := neighbour t (dirOf d)

/-- A link named from its end with the lower tile id (R29). -/
def linkName (t d : Nat) : Nat × Nat :=
  match linkEnd t d with
  | some n => if n < t then (n, dirNum (opposite (dirOf d))) else (t, d)
  | none => (t, d)

/-- The resource a record names (R29): its kind, place and detail, a link from its lower end. -/
def Defect.key (d : Defect) : Nat × Nat × Nat :=
  match d.kind with
  | 2 => let n := linkName d.loc (d.detail % 4); (2, n.1, n.2)
  | 4 | 5 => (d.kind, d.loc, d.detail % 1024)
  | k => (k, d.loc, d.detail)

/-- A record as the merged map holds it: a dark link is written from its end with the lower tile id (R29). -/
def Defect.fromLower (d : Defect) : Defect :=
  if d.kind = 2 then { d with loc := d.key.2.1, detail := d.key.2.2 } else d

/-- Records with each resource once, the first that names it. -/
def oncePerResource (ds : List Defect) : List Defect :=
  ds.foldl (fun acc d => if acc.any fun e => e.key = d.key then acc else acc ++ [d]) []

/-- The merged map: the union of the fused and the live map, each resource once, as FUSED where both name it (R26, R29). -/
def State.merged (s : State) : List Defect := oncePerResource ((s.fuses.records ++ s.liveDefects).map Defect.fromLower)

/-- The 64 bits of a record (R32). -/
def Defect.word (d : Defect) : Nat :=
  d.kind % 16 * 2 ^ 60 + d.source % 16 * 2 ^ 56 + d.loc % 2 ^ 20 * 2 ^ 28 + d.detail % 2 ^ 28

/-- The record that 64 bits hold (R32). -/
def Defect.ofWord (w : Nat) : Defect :=
  { kind := bits w 63 60, source := bits w 59 56, loc := bits w 47 28, detail := bits w 27 0 }

/-- Whether the merged map retires a bay; every bay of a field held after two failed power-ups counts (R768). -/
def State.bayOut (s : State) (b : Nat) : Bool :=
  s.merged.any (fun d => d.kind = 3 && d.loc = b) || decide (2 ≤ mget 0 s.fieldFails (fieldOfBay b))

/-- Whether a tile is recorded dark. -/
def State.tileDark (s : State) (t : Nat) : Bool := s.merged.any fun d => d.kind = 1 && d.loc = t

/-- Whether a tile is serviceable (R30). -/
def State.serviceable (s : State) (t : Nat) : Bool := !s.tileDark t && !s.bayOut (bayOf t)

/-- Whether a link is dark: recorded so, or one of a dark tile or retired bay (R31, R65). -/
def State.linkDark (s : State) (t d : Nat) : Bool :=
  match linkEnd t d with
  | none => true
  | some n => s.merged.any (fun e => e.kind = 2 && e.key = (2, (linkName t d).1, (linkName t d).2)) ||
    !s.serviceable t || !s.serviceable n

end Sys2Proof.Machine
end

