-- ==== Sys2Proof/Machine/Operands.lean ====
section
/-! DEFINITION. Operands of tile instructions (R190-R204), speculation markers (R546-R550), and how a result is
written. -/

namespace Sys2Proof.Machine

/-! ### Tags and markers -/

/-- The parent of a tag in its sector's tree, from `SPT_TAG_PARENT` of the home field; none for a root (R543). The
register is indexed by sector × 16 + tag, since it acts on the sector in `SPT_SECTOR_SEL` (R573). -/
def State.parentOf (s : State) (sec tag : Nat) : Option Nat :=
  if s.gf F.sptTagParent_root (s.homeOf sec) (sec * 16 + tag) = 1 then none
  else some (s.gf F.sptTagParent_parent (s.homeOf sec) (sec * 16 + tag))

/-- A tag and its ancestors, nearest first, along at most `n` steps (a path holds at most 4 tags, R543). -/
def State.ancestors (s : State) (sec : Nat) : Nat → Nat → List Nat
  | 0, tag => [tag]
  | n + 1, tag => match s.parentOf sec tag with
    | none => [tag]
    | some p => tag :: s.ancestors sec n p

/-- Whether `a` is an ancestor of `b`, every tag counting as its own (R543). -/
def State.isAncestor (s : State) (sec a b : Nat) : Bool := (s.ancestors sec 4 b).contains a

/-- A marker as a tile sees it: a tag it sees COMMITTED reads NONE, one it sees SQUASHED reads DEAD (R546). -/
def viewMark (view : Smap Nat TagState) : Marker → Marker
  | .tag x => match mget .free view x with
    | .committed => .none
    | .squashed => .dead
    | _ => .tag x
  | y => y

/-- Two markers combined (R548), with the pair of unrelated tags in a conflict (R549). -/
def State.combine (s : State) (sec : Nat) (x y : Marker) : Marker × Option (Nat × Nat) :=
  match x, y with
  | .dead, _ => (.dead, none)
  | _, .dead => (.dead, none)
  | .none, y => (y, none)
  | x, .none => (x, none)
  | .tag a, .tag b =>
    if s.isAncestor sec a b then (.tag b, none)
    else if s.isAncestor sec b a then (.tag a, none)
    else (.dead, some (a, b))

/-- The markers of a list combined in turn, with the first conflict met. -/
def State.combineTags (s : State) (sec : Nat) : List Marker → Marker × Option (Nat × Nat)
  | [] => (.none, none)
  | m :: l =>
    let r := s.combineTags sec l
    let q := s.combine sec m r.1
    (q.1, match r.2 with | some c => some c | none => q.2)

/-- The combination of a list of markers, with the conflict of two of its tags (R548, R549): DEAD absorbs every other
marker, so a list that holds it has no conflict, in whatever order it is combined. -/
def State.combineAll (s : State) (sec : Nat) (l : List Marker) : Marker × Option (Nat × Nat) :=
  if l.contains .dead then (.dead, none) else s.combineTags sec l

/-! ### Registers of a group -/

/-- Lane `k` of lane register `r`. -/
def Group.lane (x : Group) (r k : Nat) : Word := mget 0 x.v (r, k)

/-- Uniform register `r`. -/
def Group.uni (x : Group) (r : Nat) : Word := mget 0 x.u r

/-- Predicate `r`; p0 always reads 0xFF (R199). -/
def Group.pred (x : Group) (r : Nat) : BitVec 8 := if r = 0 then 0xFF else mget 0 x.p r

/-- The marker of a register code (v 0x00–0x1F, u 0x20–0x2F, p 0x40–0x47). -/
def Group.markOf (x : Group) (c : Nat) : Marker := mget .none x.marks c

/-- The cycle from which a register code may be read. -/
def Group.readyAt (x : Group) (c : Nat) : Nat := mget 0 x.ready c

/-- The in-slot bound to operand port `q` of group `g` (R255, R256). -/
def State.portSlot (s : State) (t g q : Nat) : Option Nat :=
  (List.range 16).find? fun k =>
    s.flag F.chnSlotCfg_enable t k && decide (s.gf F.chnSlotCfg_landing t k = 0) &&
      decide (s.gf F.chnSlotCfg_group t k = g) && decide (s.gf F.chnSlotCfg_port t k = q)

/-- Whether an out-slot may send for groups: enabled with SOURCE GROUPS (R228, R261). -/
def State.sendOk (s : State) (t slot : Nat) : Bool :=
  s.flag F.chnSlotCfg_enable t (16 + slot) && !s.flag F.chnSlotCfg_source t (16 + slot)

/-- Destination tiles of an out-slot (R261). -/
def State.destsOf (s : State) (t k : Nat) : List Nat :=
  if s.gf F.chnSlotCfg_landing t k = 1 then
    (mget [] s.mcast (s.gf F.chnSlotDest_tile t k % 4096)).take (s.gf F.chnSlotDest_ndest t k + 1)
  else [s.gf F.chnSlotDest_tile t k]

/-- Whether an out-slot's destination in-slot lands by address, so that UL is read (R228): of a multicast slot, at one of the
tiles of its group. -/
def State.addressBound (s : State) (t slot : Nat) : Bool :=
  (s.destsOf t (16 + slot)).any fun d => s.gf F.chnSlotCfg_landing d (s.gf F.chnSlotDest_dslot t (16 + slot)) = 1

/-- Operand ports an instruction names (R194): q numbers, each once. -/
def portsOf (i : TInst) : List Nat :=
  let l := match i with
    | .reg op _ _ _ a b _ => (match op with
      | .ufromp => []
      | .pfromu | .mov | .cvt | .sfu => [a.toNat]
      | _ => [a.toNat, b.toNat])
    | .cmp _ _ _ _ a b _ => [a.toNat, b.toNat]
    | .loc _ _ _ _ a _ => [a.toNat]
    | .send _ _ _ _ _ src _ => [src.toNat]
    | .buoy _ _ _ _ v => [v.toNat]
    | _ => []
  ((l.filter fun c => 0x30 ≤ c && c ≤ 0x33).map (· - 0x30)).eraseDups

/-- Register codes an instruction reads (R141, R547): sources, address registers, a destination that is also read, and
its guard predicate. -/
def State.sourcesOf (s : State) (t : Nat) (i : TInst) : List Nat :=
  let reg (c : Nat) : List Nat := if c < 0x30 then [c] else []
  let pr (c : Nat) : List Nat := if c = 0 then [] else [0x40 + c]
  match i with
  | .ctl op gp _ _ => match op with
    | .bany | .bnone | .pushif | .mask => pr gp.toNat
    | _ => []
  | .reg op gp _ d a b _ => pr gp.toNat ++ (match op with
    | .ufromp => pr a.toNat
    | .fma | .dot => reg d.toNat ++ reg a.toNat ++ reg b.toNat
    | .pfromu | .mov | .cvt | .sfu => reg a.toNat
    | _ => reg a.toNat ++ reg b.toNat)
  | .imm op gp _ d _ => pr gp.toNat ++ (match op with | .movi => [] | _ => reg d.toNat)
  | .loc op gp _ d a _ => pr gp.toNat ++ reg a.toNat ++ (match op with | .ld => [] | .st => reg d.toNat)
  | .rem op gp _ d ap _ => pr gp.toNat ++ [ap.toNat, ap.toNat + 1] ++ (match op with | .rst => reg d.toNat | _ => [])
  | .spec _ _ => []
  | .cmp gp _ _ _ a b _ => pr gp.toNat ++ reg a.toNat ++ reg b.toNat
  | .plog gp _ _ pa pb _ => pr gp.toNat ++ pr pa.toNat ++ pr pb.toNat
  | .send _ gp _ slot _ src ul =>
    pr gp.toNat ++ reg src.toNat ++ (if s.addressBound t slot.toNat then [0x20 + ul.toNat] else [])
  | .sendm gp _ slot _ ua ul _ =>
    pr gp.toNat ++ [0x20 + ua.toNat] ++ (if s.addressBound t slot.toNat then [0x20 + ul.toNat] else [])
  | .buoy _ gp _ name v =>
    pr gp.toNat ++ reg v.toNat ++ (match name with | .reg ub => [0x20 + ub.toNat] | .idx _ => [])

/-- Guard predicate number and negate flag of an instruction. -/
def guardOf : TInst → Nat × Bool
  | .ctl _ gp gn _ | .reg _ gp gn _ _ _ _ | .imm _ gp gn _ _ | .loc _ gp gn _ _ _ | .rem _ gp gn _ _ _ |
    .cmp gp gn _ _ _ _ _ | .plog gp gn _ _ _ _ | .send _ gp gn _ _ _ _ | .sendm gp gn _ _ _ _ _ |
    .buoy _ gp gn _ _ => (gp.toNat, gn)
  | .spec _ _ => (0, false)

/-- Whether an instruction is a control operation, which ignores A and the guard (R204). -/
def isControl : TInst → Bool
  | .ctl .. | .spec .. => true
  | _ => false

/-- Everything one issuing instruction needs: where, when, what, the group before it, its sector, its effective mask
(R200), the words at the heads of the ports it names, and the combined marker of R547 without loads. -/
structure Ctx where
  t : Nat
  g : Nat
  f : Nat
  cyc : Nat
  inst : TInst
  grp : Group
  sec : Nat
  em : BitVec 8
  ports : List (Nat × QWord)
  mark : Marker
  conflict : Option (Nat × Nat)
  dead : Bool

/-- Whether an instruction acts on nothing beyond its destination: DEAD (R551), or in conflict (R549). -/
def Ctx.quiet (x : Ctx) : Bool := x.dead || x.conflict.isSome

/-- The value of operand code `c` in lane `k` (R190). -/
def Ctx.operand (x : Ctx) (c : BitVec 6) (k : Nat) : Word :=
  let c := c.toNat
  if c < 0x20 then x.grp.lane c k
  else if c < 0x30 then x.grp.uni (c - 0x20)
  else if c < 0x34 then (match x.ports.find? (·.1 = c - 0x30) with | some q => if q.2.bad then 0 else q.2.w | none => 0)
  else if c = 0x39 then BitVec.ofNat 32 k
  else if c = 0x3A then BitVec.ofNat 32 x.g
  else if c = 0x3B then BitVec.ofNat 32 x.t
  else if c = 0x3C then BitVec.ofNat 32 x.cyc
  else 0

/-- The active lanes of an instruction, in ascending order. -/
def Ctx.lanes (x : Ctx) : List Nat := (List.range 8).filter fun k => x.em.getLsbD k

/-- Lowest-numbered active lane. -/
def Ctx.lane0 (x : Ctx) : Nat := x.lanes.headD 0

/-- The value of an operand as a group operation takes it: uniform, or of the lowest-numbered active lane. -/
def Ctx.single (x : Ctx) (c : BitVec 6) : Word := x.operand c x.lane0

/-- A group with destination code `d` written: per active lane for a lane register, the lowest active lane's value for
a uniform one (R197, R201); `at_` is the cycle from which it may be read, where lanes that are not written have not an earlier
producer still to wait for (R143), and an outstanding load of the register no longer writes it (R226). -/
def writeDst (grp : Group) (x : Ctx) (d : Nat) (mark : Marker) (at_ : Nat) (val : Nat → Word) : Group :=
  if x.lanes = [] then grp
  else
    { grp with
      v := if d < 0x20 then x.lanes.foldl (fun m k => mput m (d, k) (val k)) grp.v else grp.v
      u := if d < 0x20 then grp.u else mput grp.u (d - 0x20) (val x.lane0)
      marks := mput grp.marks d mark
      ready := mput grp.ready d (if x.lanes.length = 8 ∨ 0x20 ≤ d then at_ else max (grp.readyAt d) at_)
      loading := mdel grp.loading d }

/-- A group with predicate `pd` written in the active lanes (R212, R213). -/
def writePred (grp : Group) (x : Ctx) (pd : Nat) (mark : Marker) (at_ : Nat) (val : Nat → Bool) : Group :=
  if x.lanes = [] then grp
  else
    { grp with
      p := mput grp.p pd (x.lanes.foldl (fun b k => if val k then b ||| (1#8 <<< k) else b &&& ~~~(1#8 <<< k))
        (grp.pred pd))
      marks := mput grp.marks (0x40 + pd) mark
      ready := mput grp.ready (0x40 + pd) (if x.lanes.length = 8 then at_ else max (grp.readyAt (0x40 + pd)) at_) }

end Sys2Proof.Machine
end

