-- ==== Sys2Proof/Machine/Flags.lean ====
section
/-! DEFINITION. Predicate computations. The Lannil tile has no flags register: comparisons write predicate masks (R212,
R213), and arithmetic keeps no flags (R476). -/

namespace Sys2Proof.Machine

/-- The condition codes of CMP on integers (R212): EQ, NE, LT, LE, GT, GE signed, LTU, GEU unsigned. -/
def cmpInt (cond : Nat) (a b : Word) : Bool :=
  match cond with
  | 0 => a = b | 1 => a ≠ b | 2 => a.slt b | 3 => a.sle b | 4 => b.slt a | 5 => b.sle a | 6 => a.ult b
  | _ => b.ule a

/-- The condition codes of CMP on floats, of the low element of a packed register: NaN makes every condition false
except NE, and −0 equals +0 (R212, R479). -/
def cmpFloat (f : Fmt) (cond : Nat) (a b : Word) : Bool :=
  let x := decodeFloat f (a.toNat % 2 ^ fmtWidth f)
  let y := decodeFloat f (b.toNat % 2 ^ fmtWidth f)
  match cond with
  | 0 => fltEq x y | 1 => !fltEq x y | 2 => fltLt x y | 3 => fltLt x y || fltEq x y | 4 => fltLt y x
  | _ => fltLt y x || fltEq x y

/-- CMP by its FMT. -/
def cmpBy (fmt : Nat) (cond : Nat) (a b : Word) : Bool :=
  match fmtOfCode fmt with
  | some .i32 => cmpInt cond a b
  | some f => cmpFloat f cond a b
  | none => false

/-- PLOG: bit k is TT[2 × pPA[k] + pPB[k]] (R213). -/
def plogBit (tt : BitVec 4) (a b : Bool) : Bool := tt.getLsbD (2 * b2n a + b2n b)

/-- The mask a control operation tests: pGP, or its negation (R206). -/
def guardMask (x : Group) (gp : Nat) (gn : Bool) : BitVec 8 := if gn then ~~~(x.pred gp) else x.pred gp

/-- The effective mask of a lane or group operation (R200). -/
def effMask (x : Group) (gp : Nat) (gn : Bool) : BitVec 8 := x.amask &&& guardMask x gp gn

end Sys2Proof.Machine
end

