-- ==== Sys2Proof/Machine/Issue.lean ====
section
/-! DEFINITION. Issue on a tile: traps (R173, R174, R249), readiness (R141), the issue scan (R142), popping operand
ports with credit return (R194, R267), and what every retiring instruction does. -/

namespace Sys2Proof.Machine

/-! ### Packets a tile sends -/

/-- The current epoch of a sector's group in a field (R363). -/
def State.epochOf (s : State) (f sec : Nat) : Bool := s.gf F.mshEpoch_current f sec = 1

/-- The executed cycle of a tile: its field's watch cycle, or its issue clock where that has run ahead. -/
def State.tileCycle (s : State) (t : Nat) : Nat := max (s.cycle (fieldOf t)) ((s.til t).cyc - 1)

/-- The instant at which a head that a tile injects in cycle `c` is in its router: that of the executed cycle after (R263). -/
def State.headAt (s : State) (t c : Nat) : Nat :=
  if (s.fld (fieldOf t)).phase = .idle then s.now else max s.now (cycleInstant (s.fld (fieldOf t)) (s.after t c 1))

/-- A packet as tile `t` injects it: its sector, epoch and watch parity filled in (R336, R363), in its router from the instant it
names, or from the executed cycle after the tile's present one. -/
def State.inject (s : State) (t : Nat) (p : Packet) : State :=
  s.addPkt { p with sector := s.sectorOf t, epoch := s.epochOf (fieldOf t) (s.sectorOf t),
                    parity := s.parity (fieldOf t), src := t, at_ := t
                    since := if p.since = 0 then s.headAt t (s.tileCycle t) else p.since }

/-- A response to packet `q`, from tile `t`: it carries the SECTOR and EPOCH of the packet it answers and TAGV 0 (R362). On the
data plane it waits in the response store (R826), or, where a router makes it, in its completion place (R361). -/
def State.respond (s : State) (t : Nat) (q p : Packet) : State :=
  s.addPkt { p with sector := q.sector, epoch := q.epoch, parity := s.parity (fieldOf t), src := t, at_ := t,
                    vc := if p.control then 0 else q.vc, wafer := q.wafer,
                    lPlace := if p.lPlace = 2 then 2 else if p.control then 0 else 1 }

/-- Credits for `n` words that in-slot `k` pops or discards in cycle `c` go back to the out-slot that spent them, unless the slot
has LOCAL source; those of one in-slot and cycle travel together (R267, R268). -/
def State.returnCredit (s : State) (t k src sslot didx n c : Nat) : State :=
  if s.flag F.chnSlotCfg_source t k ∨ n = 0 then s
  else
    let same (q : Packet) : Bool := decide (q.ty = .credit ∧ q.st = .flying ∧ q.at_ = t ∧ q.src = t ∧ q.inPort = .l ∧ q.dest = src) &&
      decide (q.dslot = k ∧ q.sslot = sslot ∧ q.didx = didx ∧ q.since = s.headAt t c)
    match s.packets.find? same with
    | some q => s.setPkt { q with count := q.count + n }
    | none => s.inject t { id := 0, ty := .credit, control := true, len := 1, dest := src, src := t, dslot := k, sslot := sslot
                           didx := didx, count := n, at_ := t, since := s.headAt t c }

/-- Words leave an in-slot's queue in cycle `c`: one credit each, together for each out-slot they came from (R267). -/
def State.creditWords (s : State) (t k c : Nat) (ws : List QWord) : State :=
  s.each ((ws.map fun w => (w.src, w.sslot, w.didx)).eraseDups) fun s o =>
    s.returnCredit t k o.1 o.2.1 o.2.2 ((ws.filter fun w => (w.src, w.sslot, w.didx) = o).length) c

/-- Words are discarded from an in-slot in cycle `c`: credited, and counted in `CHN_COUNT_DISCARD` (R267, R280). -/
def State.discardWords (s : State) (t k c : Nat) (ws : List QWord) : State :=
  (s.creditWords t k c ws).bump .chnCountDiscard t k ws.length

/-- An in-slot pool word was read uncorrectable with operand or steering landing (R292). -/
def State.channelPoison (s : State) (t k : Nat) : State :=
  let s := s.hset F.chnSlotStatus_poison t k
  let s := s.setTil t { s.til t with withhold := true }
  s.logEv evChannelPoison (fieldOf t) t (detail2 k 0)

/-- Pool words have been read: each that stands with one bit in error is read corrected, and counted (R177, R254). -/
def State.poolEcc (s : State) (t : Nat) (ws : List QWord) : State :=
  if ws.any (·.weak) then s.bump .tilCountEccCorr t 0 (ws.filter (·.weak)).length else s

/-- Pool words have been read by a pop (R177, R254, R292). -/
def State.poolRead (s : State) (t k : Nat) (ws : List QWord) : State :=
  (s.poolEcc t ws).each (ws.filter (·.bad)) fun s _ => s.channelPoison t k

/-- Capacity K of an in-slot or S of an out-slot, in words (R253). -/
def State.slotSize (s : State) (t k : Nat) : Nat := (s.gf F.chnSlotCfg_size t k + 1) * 4

/-- An in-slot's queue replaced in cycle `c`; the WORK cycles that began at depth K are counted as the depth leaves K (R273). A
LOCAL queue notes its room: what is popped makes room in the same cycle, what is pushed takes it from the next (R270). -/
def State.setQueue (s : State) (t k c : Nat) (q : List QWord) : State :=
  let x := s.slot t k
  let gain : Int := (x.queue.length : Int) - q.length
  let log := if s.flag F.chnSlotCfg_source t k = true ∧ gain ≠ 0 then (if 0 < gain then c else c + 1, gain) :: x.roomLog else x.roomLog
  let full : Bool := q.length = s.slotSize t k
  let s := match x.fullSince with
    | some c0 => if full then s
        else s.bump .chnCountStallRecv t k (s.executed t (max (c0 + 1) 512) (min (c + 1) (settleStart (s.fld (fieldOf t)))))
    | none => s
  s.setSlot t k { x with queue := q, roomLog := log, fullSince := if full then some (x.fullSince.getD c) else none }

/-- One word popped from an in-slot's queue in cycle `c` (R254, R267, R270). -/
def State.popSlot (s : State) (t k c : Nat) : State :=
  match (s.slot t k).queue with
  | [] => s
  | w :: q => ((s.setQueue t k c q).creditWords t k c [w]).poolRead t k [w]

/-! ### Tag operations and conflicts -/

/-- A tag operation leaves a tile on the tag bus (R560). -/
def State.tagBus (s : State) (t : Nat) (op : TagOp) (tag cyc : Nat) (tag2 : Option Nat := none) : State :=
  { s with tagMsgs := s.tagMsgs ++ [{ op := op, sector := s.sectorOf t, tag := tag, tag2 := tag2, parity := s.parity (fieldOf t),
                                      from_ := fieldOf t, cycle := cyc }] }

/-- A conflict of two unrelated tags (R549): one SQUASH names both, the field notes it, the tile counts and logs it. -/
def State.conflict (s : State) (t g a b cyc : Nat) : State :=
  let s := s.tagBus t .squash a cyc (some b)
  let s := s.hset F.sptStatus_conflict (fieldOf t) 0
  let s := s.bump .sptCountConflict t 0 1
  s.logEv evSpecConflict (fieldOf t) t (detail2 g (a + b * 16))

/-! ### Traps -/

/-- Whether an event is the TILE_TRAP of a higher group of the same tile in the same cycle as another. -/
def Event.trapAfter (x e : Event) : Bool :=
  decide (x.code = evCode evTileTrap ∧ e.code = evCode evTileTrap ∧ x.loc = e.loc ∧ x.watch = e.watch ∧ x.cycle = e.cycle) &&
    decide (e.detail % 2 ^ 32 < x.detail % 2 ^ 32)

/-- A queue of events in which the last stands before those of higher groups that trapped in the same cycle (R172). -/
def trapOrder (q : List Event) : List Event :=
  match q.getLast? with
  | none => q
  | some e =>
    let before := q.dropLast
    let n := before.length - (before.reverse.takeWhile fun x => x.trapAfter e).length
    before.take n ++ e :: before.drop n

/-- Group `g` traps in cycle `cyc` (R172-R174): TRAPPED, cause and program counter recorded, address where there is one, one
TILE_TRAP event. A group that has already trapped traps again: the later trap overwrites the record and is logged too (DESIGN
CHOICE, assumption 94). -/
def State.trap (s : State) (t g cyc cause pc addr : Nat) : State :=
  let s := s.setGrp t g { s.grp t g with st := .trapped }
  let s := s.wr .tgpTrap t g (BitVec.ofNat 64 (cause * 65536 + pc % 65536))
  let s := s.wr .tgpTrapAddr t g (BitVec.ofNat 64 addr)
  let s := s.logEvAt evTileTrap (fieldOf t) cyc t (detail2 g cause)
  let r := s.ring (fieldOf t)
  s.setRing (fieldOf t) { r with queue := trapOrder r.queue }

/-- A tile's issue slot of cycle `cyc` is taken: the WORK cycles since it was last taken had no ready group (R140, R185). -/
def State.takeSlot (s : State) (t g cyc : Nat) : State :=
  let y := s.til t
  (s.bump .tilCountIdle t 0 (s.executed t (max y.cyc 512) cyc)).setTil t { y with cyc := cyc + 1, lastGroup := g }

/-- A trap raised as an instruction issues: it takes the tile's issue slot of cycle `cyc` (R249). `fetches` says that a word was
fetched. -/
def State.issueTrap (s : State) (t g cyc cause addr : Nat) (fetches : Bool := true) : State :=
  let s := if fetches then s.readEcc t [(s.grp t g).pc] else s
  (s.trap t g cyc cause (s.grp t g).pc addr).takeSlot t g cyc

/-! ### The next instruction -/

/-- Local store ends at LS (R149, R154); only COMPUTE and MEMORY tiles have one. -/
def State.lsBytes (s : State) (t : Nat) : Nat :=
  let p := s.gf F.tilSplit_pool t
  match s.gf F.tilRole_role t with
  | 1 => (39 - (match s.gf F.tilSplit_cache t with | 0 => 0 | 1 => 4 | 2 => 8 | _ => 16) - p) * 1024
  | 3 => (39 - p) * 1024
  | _ => 0

/-- Occupancy of a compute tile (R151). -/
def State.occupancy (s : State) (t : Nat) : Nat :=
  if s.gf F.tilRole_role t ≠ 1 then 0
  else min 8 ((s.lsBytes t / 1024 - s.gf F.tilSplit_shared t) / max 1 (s.gf F.tilSplit_frame t))

/-- Size of the shared region in bytes (R149). -/
def State.sharedBytes (s : State) (t : Nat) : Nat := s.gf F.tilSplit_shared t * 1024

/-- Size of an item that a send of an instruction makes, in words; a send of no lane is judged as of one (R203). -/
def sendWords (i : TInst) (em : BitVec 8) : Nat :=
  match i with
  | .send vec _ _ _ _ _ _ => if vec then max 1 ((List.range 8).filter fun k => em.getLsbD k).length else 1
  | .sendm _ _ _ _ _ _ n1 => n1.toNat + 1
  | _ => 0

/-- Words of an item whose head has left that wait in their tile: those behind the flits that the routers hold (R263, R340). -/
def Packet.wordsBehind (p : Packet) : Nat := min p.body.length (4 * (p.flits - 4 * (p.trail.length + 1)))

/-- Words an out-slot's send buffer holds: items that have not begun injection, and what has not left of one that has (R263). -/
def State.sendUsed (s : State) (t k : Nat) : Nat :=
  sumNat ((s.slot t k).sendBuf.map fun id => match s.pkt id with | some p => p.body.length | none => 0) +
    sumNat (s.packets.map fun p =>
      if p.ty = .item ∧ p.st = .flying ∧ p.src = t ∧ p.sslot + 16 = k ∧ p.mcast = false then p.wordsBehind else 0)

/-- Usable credit of an out-slot: its least destination counter (R266). -/
def State.creditOf (s : State) (t k : Nat) : Nat := (minOf (s.slot t k).credits).getD 0

/-- Whether an out-slot holds credit and send-buffer room for `n` words (R262). -/
def State.roomToSend (s : State) (t k n : Nat) : Bool :=
  decide (n ≤ s.creditOf t k) && decide (s.sendUsed t k + n ≤ (s.gf F.chnSlotCfg_size t k + 1) * 4)

/-- Whether an out-slot holds credit and send-buffer room for `n` words in cycle `c` (R262, R267). -/
def State.roomAt (s : State) (t k n c : Nat) : Bool :=
  let x := s.slot t k
  let free : Int := ((s.gf F.chnSlotCfg_size t k + 1) * 4 : Nat) - (s.sendUsed t k : Int)
  ((List.range x.credits.length).all fun d =>
    decide ((n : Int) ≤ levelAt (x.credits.getD d 0 : Nat) ((x.creditLog.filter (·.1 = d)).map (·.2)) c)) &&
    decide ((n : Int) ≤ levelAt free x.roomLog c)

/-- The first cycle from `c` on in which an out-slot holds credit and room for `n` words. -/
def State.roomFrom (s : State) (t k n c : Nat) : Option Nat :=
  let x := s.slot t k
  if s.roomToSend t k n then firstCycle (s.roomAt t k n) (x.creditLog.map (·.2.1) ++ x.roomLog.map (·.1)) c else none

/-- A 64-bit address of lane `k` from the pair AP names (R221). -/
def pairAddr (x : Group) (ap k : Nat) : Nat :=
  if ap < 0x20 then (x.lane ap k).toNat + (x.lane (ap + 1) k).toNat * 2 ^ 32
  else (x.uni (ap - 0x20)).toNat + (x.uni (ap - 0x1F)).toNat * 2 ^ 32

/-- The wafer global address of an offset of tile SRAM (R904). -/
def globalOf (t off : Nat) : Nat := t * 2 ^ 40 + off

/-- The tile's own space-0 address prefix: loads naming the issuing tile are local loads (R162). -/
def addrSpace (a : Nat) : Nat := a / 2 ^ 60

/-- The tile id field of an address (R904). -/
def addrTile (a : Nat) : Nat := bits a 59 40

/-- Blocks of 64 B that a remote load must fetch: active lanes' blocks not served by the tile itself nor, for RLD with
a cache, by a cached line (R162, R164, R166). -/
def State.missBlocks (s : State) (t : Nat) (cached : Bool) (addrs : List Nat) : List Nat :=
  let bs := ((addrs.filter fun a => !(addrSpace a = 0 && addrTile a = t)).map (· / 64)).eraseDups
  if cached && s.gf F.tilSplit_cache t ≠ 0 then
    bs.filter fun b => !((s.til t).cache.any fun l => l.block = b) || 2 ≤ addrSpace (b * 64)
  else bs

/-- Cycle from which `n` tags are free, if they are (R167, R168). -/
def tagsReady (x : Tile) (n c : Nat) : Option Nat :=
  let free := (List.range 16).filter fun k => !(mget {} x.tags k).taken
  let early := free.filter fun k => (mget {} x.tags k).freeFrom ≤ c
  if n ≤ early.length then some c
  else if n ≤ free.length then some (free.foldl (fun a k => max a (mget {} x.tags k).freeFrom) c)
  else none

/-- Number of free tags. -/
def tagsFree (x : Tile) : Nat := ((List.range 16).filter fun k => !(mget {} x.tags k).taken).length

/-- A tile with a change of its free tags noted, from cycle `c` (R185). -/
def Tile.noteTags (x old : Tile) (c : Nat) : Tile :=
  if tagsFree x = tagsFree old then x else { x with tagLog := (c, (tagsFree x : Int) - tagsFree old) :: x.tagLog }

/-- Number of free shadow lines. -/
def shadowFree (x : Tile) : Nat := 16 - x.shadow.length

/-- A tile with a change of its free shadow lines noted: lines freed in cycle `c` are free in it, lines taken are not from the
next (R573). -/
def Tile.noteShadow (x old : Tile) (c : Nat) : Tile :=
  if shadowFree x = shadowFree old then x
  else { x with shadowLog := (if shadowFree old < shadowFree x then c else c + 1, (shadowFree x : Int) - shadowFree old) :: x.shadowLog }

/-- Shadow lines a store of the active lanes' words must allocate under tag `tag` (R554). -/
def shadowNeed (x : Tile) (tag : Nat) (addrs : List Nat) : Nat :=
  ((addrs.map (· / 64)).eraseDups.filter fun b =>
    !(x.shadow.any fun l => l.2.op.isNone && l.2.block = b && l.2.tag = tag)).length

/-- The buoy an instruction names (R233): its block (64 the station's), its index there, and the field a FAR packet
must name (R390); none for a register value outside the ranges. Bits 21:16 do not matter for a station buoy. -/
def buoyTarget (x : Group) (t : Nat) : BuoyName → Option (Nat × Nat × Option Nat)
  | .idx i => some (if i.toNat < 1024 then (fieldOf t, i.toNat, none) else (64, i.toNat - 1024, none))
  | .reg ub =>
    let v := (x.uni ub.toNat).toNat
    let i := v % 2048
    let f := bits v 21 16
    if v ≠ i + f * 65536 ∨ 1280 ≤ i then none
    else if 1024 ≤ i then some (64, i - 1024, none)
    else some (f, i, if f = fieldOf t then none else some f)

/-- Everything an instruction needs as it issues in cycle `cyc` (R200, R547). A control instruction combines markers only
as R550 says, and one with no active lane has no effect (R202). -/
def State.mkCtx (s : State) (t g cyc : Nat) (i : TInst) : Ctx :=
  let x := s.grp t g
  let sec := s.sectorOf t
  let (gp, gn) := guardOf i
  let ports := (portsOf i).filterMap fun q => match s.portSlot t g q with
    | some k => (s.slot t k).queue.head?.map fun w => (q, w)
    | none => none
  let view := (s.til t).view
  let srcs := (s.sourcesOf t i).map fun c => viewMark view (x.markOf c)
  let nest := match x.nest with
    | [] => []
    | n :: _ => if isControl i then [] else [viewMark view (.tag n)]
  let em := if isControl i then x.amask else effMask x gp gn
  let all := srcs ++ ports.map (fun q => viewMark view q.2.mark) ++
    (if isControl i then [] else [viewMark view x.aMark]) ++ [viewMark view x.ctl] ++ nest
  let r := s.combineAll sec all
  { t := t, g := g, f := fieldOf t, cyc := cyc, inst := i, grp := x, sec := sec
    em := em, ports := ports, mark := r.1
    conflict := if isControl i ∨ em = 0 then none else r.2
    dead := all.contains .dead }

/-- What stands in the way of a group's next instruction, or that it may issue. -/
inductive Next where
  | none
  | trap (cyc cause : Nat)
  | stuck (cyc why : Nat)
  | go (cyc : Nat) (i : TInst)
  deriving DecidableEq, Repr

/-- Traps that the encoding, the group's stacks and the tile's configuration decide alone (R249). -/
def State.staticTrap (s : State) (t g : Nat) (i : TInst) : Option Nat :=
  let x := s.grp t g
  if (portsOf i).any fun q => (s.portSlot t g q).isNone then some 0x0A
  else match i with
    | .ctl .pushif .. => if 8 ≤ x.stack.length then some 0x07 else none
    | .ctl .else_ .. => if x.stack = [] then some 0x08 else none
    | .ctl .pop .. => if x.stack = [] then some 0x08 else none
    | .spec .begin_ _ => if 4 ≤ x.nest.length then some 0x09 else none
    | .send _ _ _ slot _ _ _ => if s.sendOk t slot.toNat then none else some 0x01
    | .sendm _ _ slot _ _ _ _ => if s.sendOk t slot.toNat then none else some 0x01
    | _ => none

/-- Why an instruction whose registers are ready in cycle `c` is not ready, or the cycle in which it is (R141, R203).
The reasons are those of `TGP_STATE`.WAIT. -/
def State.readiness (s : State) (t g c : Nat) (i : TInst) : Next :=
  let x := s.grp t g
  let y := s.til t
  let ctx := s.mkCtx t g c i
  if (portsOf i).any fun q => match s.portSlot t g q with | some k => (s.slot t k).queue = [] | none => true then
    .stuck c 2
  else match i with
    | .send _ _ _ slot _ _ _ => match s.roomFrom t (16 + slot.toNat) (sendWords i ctx.em) c with
      | some c' => .go c' i
      | none => .stuck c 4
    | .sendm _ _ slot _ _ _ _ => match s.roomFrom t (16 + slot.toNat) (sendWords i ctx.em) c with
      | some c' => .go c' i
      | none => .stuck c 4
    | .rem op _ _ _ ap _ =>
      if op = .rst ∨ ctx.quiet = true then .go c i
      else match tagsReady y (s.missBlocks t (op = .rld) (ctx.lanes.map (pairAddr x ap.toNat))).length c with
        | some c' => .go c' i
        | none => .stuck c 3
    | .reg .sfu .. => .go (max c y.sfuFree) i
    | .buoy .bawaitge _ _ name _ =>
      if x.latch = .met then .go (max c x.latchAt) i else if (buoyTarget x t name).isNone then .go c i else .stuck c 5
    | .buoy .bawaitflag _ _ name _ =>
      if x.latch = .met then .go (max c x.latchAt) i else if (buoyTarget x t name).isNone then .go c i else .stuck c 5
    | .buoy .. => match ctx.mark with
      | .tag _ => if 0 < shadowFree y then .go c i else .stuck c 7
      | _ => .go c i
    | .loc .st _ _ _ a woff => match ctx.mark with
      | .tag tag =>
        if shadowNeed y tag (ctx.lanes.map fun k => (ctx.operand a k).toNat + 4 * woff.toNat) ≤ shadowFree y
        then .go c i else .stuck c 7
      | _ => .go c i
    | _ => .go c i

/-- The first of some cycles' words that a fetch sees: the word that stands, or one that stood before a late store. -/
def seenWord (old : Nat → Bool) : Nat → TWord → List TWord → TWord
  | _, w, [] => w
  | n, w, o :: os => if old n then seenWord old (n + 1) o os else w

/-- The word a fetch of cycle `c` sees at an offset: for the 3 cycles after a store to it, the old one or the new
(R172). -/
def State.fetched (s : State) (t pc c : Nat) : TWord :=
  seenWord (Config.fetchSeesOld (s.fld (fieldOf t)).watch t pc c) 0 (s.sramWord t pc)
    (((s.til t).codeWrites.filter fun e => decide (e.1 = pc) && decide (c < s.after t e.2.1 4)).map (·.2.2))

/-- The first cycle in which a tile can issue: its issue clock, its field's cycle, WORK's first. -/
def State.fetchCycle (s : State) (t : Nat) : Nat := max (max (s.til t).cyc (s.cycle (fieldOf t))) 512

/-- The cycle from which the words at the heads of the operand ports an instruction names can be popped: the one after their
push (R270, R271). -/
def State.portsFrom (s : State) (t g : Nat) (i : TInst) (c : Nat) : Nat :=
  (portsOf i).foldl (fun a q => match s.portSlot t g q with
    | some k => match (s.slot t k).queue with
      | w :: _ => max a (w.stamp + 1)
      | [] => a
    | none => a) c

/-- The cycle from which an instruction's source registers and operand ports are ready. -/
def State.sourcesFrom (s : State) (t g : Nat) (i : TInst) (c : Nat) : Nat :=
  s.portsFrom t g i ((s.sourcesOf t i).foldl (fun a r => max a ((s.grp t g).readyAt r)) c)

/-- What comes next on a tile, where the cycles listed are stretched: nothing issues in them (R144). -/
def Next.skip (stretched : List Nat) : Next → Next
  | .trap c k => .trap (skipStretch stretched c) k
  | .go c i => .go (skipStretch stretched c) i
  | n => n

/-- A group's next instruction (R141, R205, R249): none when the group does not run, is waiting at END, or its field
is not in WORK, or its sector drains or is quiesced (R316, R319), or its tile is dark (R31). A program counter inside the shared
region that is not a multiple of 4 traps as one outside it does (DESIGN CHOICE, assumption 94). -/
def State.nextOf (s : State) (t g : Nat) : Next :=
  let x := s.grp t g
  if x.st ≠ .running ∨ x.ended = true ∨ (s.fld (fieldOf t)).phase ≠ .work ∨
      s.isDraining (fieldOf t) (s.sectorOf t) = true ∨ s.isQuiesced (fieldOf t) (s.sectorOf t) = true ∨ s.tileDark t = true then .none
  else Next.skip (s.til t).stretches <|
    let c := s.fetchCycle t
    if s.sharedBytes t ≤ x.pc ∨ x.pc % 4 ≠ 0 then .trap c 0x02
    else if (s.fetched t x.pc c).bad then .trap c 0x0B
    else match decodeTile (s.fetched t x.pc c).w with
      | none => .trap c 0x01
      | some i => match s.staticTrap t g i with
        | some cause => .trap c cause
        | none =>
          let srcs := s.sourcesOf t i
          if srcs.any fun r => x.loading.any (·.1 = r) then .stuck c 1
          else s.readiness t g (s.sourcesFrom t g i c) i

/-- The cycle in which a group's next instruction would issue or trap. -/
def nextCycle : Next → Option Nat
  | .trap c _ => some c
  | .go c _ => some c
  | _ => none

/-- The groups in scan order, from the one after the group that issued last (R142). -/
def scanOrder (last : Nat) : List Nat := (List.range 8).map fun k => (last + 1 + k) % 8

/-- The group that issues next on a tile (R140, R142): the earliest, and of several the first in scan order. -/
def State.scan (s : State) (t : Nat) : Option Nat :=
  (scanOrder (s.til t).lastGroup).foldl (fun best g =>
    match nextCycle (s.nextOf t g), best with
    | none, b => b
    | some _, none => some g
    | some c, some b => match nextCycle (s.nextOf t b) with
      | some cb => if c < cb then some g else some b
      | none => some g) none

/-- A group's breakpoint on its next instruction, if one is set: 0 or 1 (R876, R889). -/
def State.breakAt (s : State) (t g : Nat) : Option Nat :=
  (List.range 2).find? fun k =>
    s.flag F.dbgBreak_valid t k && (s.gf F.dbgBreak_groups t k).testBit g && decide (s.gf F.dbgBreak_pc t k = (s.grp t g).pc)

/-- What an instruction waits for last (R141): tags, credit and room, or shadow lines: the counter of such waits, with its index,
and whether it is wanting in a cycle (R185, R273, R573). -/
def State.lastWait (s : State) (x : Ctx) : Option (Reg × Nat × (Nat → Bool)) :=
  let y := s.til x.t
  let send (slot : Nat) := some (Reg.chnCountStallCredit, 16 + slot, fun c => !s.roomAt x.t (16 + slot) (sendWords x.inst x.em) c)
  let lines (n : Nat) := some (Reg.sptCountShadowStall, 0, fun c => decide (levelAt (shadowFree y : Nat) y.shadowLog c < (n : Int)))
  match x.inst with
  | .send _ _ _ slot _ _ _ => send slot.toNat
  | .sendm _ _ slot _ _ _ _ => send slot.toNat
  | .rem op _ _ _ ap _ =>
    if op = .rst ∨ x.quiet = true then none
    else
      let n := (s.missBlocks x.t (op = .rld) (x.lanes.map (pairAddr x.grp ap.toNat))).length
      some (.tilCountTagStall, 0, fun c => decide (levelAt (tagsFree y : Nat) y.tagLog c < (n : Int)))
  | .buoy .bawaitge .. => none
  | .buoy .bawaitflag .. => none
  | .buoy .. => match x.mark with
    | .tag _ => lines 1
    | _ => none
  | .loc .st _ _ _ a woff => match x.mark with
    | .tag tag => lines (shadowNeed y tag (x.lanes.map fun k => (x.operand a k).toNat + 4 * woff.toNat))
    | _ => none
  | _ => none

/-- The cycles before cycle `b` in which an instruction waited only for tags, credit, room or shadow lines are counted, each
group by itself (R185, R273; DESIGN CHOICE, assumption 103). -/
def State.countWait (s : State) (x : Ctx) (b : Nat) : State :=
  match s.lastWait x with
  | none => s
  | some (r, i, short) =>
    let a := s.sourcesFrom x.t x.g x.inst (max 512 (s.grp x.t x.g).waitFrom)
    let n := ((List.range (b - a)).filter fun j => short (a + j) && !(s.til x.t).stretches.contains (a + j)).length
    if n = 0 then s else s.bump r x.t i n

/-- A group's wait is counted up to cycle `b`, in which it ceases to run (R185, R273). -/
def State.endWait (s : State) (t g b : Nat) : State :=
  let count (c : Nat) (i : TInst) : State :=
    let s := s.countWait (s.mkCtx t g c i) b
    s.setGrp t g { s.grp t g with waitFrom := b }
  match s.nextOf t g with
  | .stuck c why =>
    if why = 3 ∨ why = 4 ∨ why = 7 then match decodeTile (s.fetched t (s.grp t g).pc (s.fetchCycle t)).w with
      | some i => count c i
      | none => s
    else s
  | .go c i => if b ≤ c then count c i else s
  | _ => s

/-- What a tile counts of WORK up to cycle `b`, in which WORK ends: cycles with no ready group, waits, and in-slots that stand full
(R185, R273). -/
def State.closeWork (s : State) (t b : Nat) : State :=
  let y := s.til t
  let s := if s.gf F.tilRole_role t ≠ 1 then s
    else
      let s := s.each (List.range 8) fun s g => s.endWait t g b
      (s.bump .tilCountIdle t 0 (s.executed t (max y.cyc 512) b)).setTil t { y with cyc := max y.cyc b }
  s.each (List.range 16) fun s k => match (s.slot t k).fullSince with
    | none => s
    | some c0 =>
      (s.bump .chnCountStallRecv t k (s.executed t (max (c0 + 1) 512) b)).setSlot t k { s.slot t k with fullSince := some b }

/-- What every issuing instruction does to its tile and group, given the number of issue cycles it takes (R140, R178,
R177, R218): the word fetched, counts, the scan position, the watchdog, the ports it pops. A DEAD instruction pops nothing and is counted
(R551); an instruction with no active lane pops nothing (R202, R248). -/
def State.retire (s : State) (x : Ctx) (occ : Nat) : State :=
  let s := ((s.countWait x x.cyc).readEcc x.t [x.grp.pc]).takeSlot x.t x.g x.cyc
  let s := if x.dead then s.bump .sptCountDead x.t 0 1
    else if x.em = 0 ∧ isControl x.inst = false then s
    else s.each x.ports fun s q => match s.portSlot x.t x.g q.1 with
      | some k => s.popSlot x.t k x.cyc
      | none => s
  let s := s.bump .tilCountIssue x.t 0 1
  let next := s.after x.t x.cyc occ
  let s := s.setTil x.t { s.til x.t with cyc := next }
  let s := s.setGrp x.t x.g { s.grp x.t x.g with lastRetire := next - 1, waitFrom := next, skipBreak := false }
  match x.conflict with
  | some (a, b) => s.conflict x.t x.g a b x.cyc
  | none => s

/-- The group with its program counter moved on by one instruction (R205). -/
def Group.bumpPc (x : Group) : Group := { x with pc := (x.pc + 4) % 65536 }

/-- The faulting address of a trap that the fetch decides: the word fetched, where the cause has an address (R173, R184). -/
def fetchAddr (t pc cause : Nat) : Nat := if cause = 0x02 ∨ cause = 0x0B then globalOf t pc else 0

/-- The group's next instruction issues, if the scan has come to the group, it is the instruction named and nothing
stands in its way; a trap its encoding decides is taken whatever instruction was named (R249). `body` is what the
instruction does; it calls `State.retire`. -/
def issueAs (t g : Nat) (m : Mnem) (body : Ctx → State → State) (s : State) : State :=
  if s.scan t = some g then
    match s.nextOf t g with
    | .trap c cause =>
      if c < settleStart (s.fld (fieldOf t)) ∧ ((s.breakAt t g).isNone ∨ (s.grp t g).skipBreak = true) then
        s.issueTrap t g c cause (fetchAddr t (s.grp t g).pc cause) (cause ≠ 0x02)
      else s
    | .go c i =>
      if mnemOf i = m ∧ c < settleStart (s.fld (fieldOf t)) ∧
          ((s.breakAt t g).isNone ∨ (s.grp t g).skipBreak = true) then
        body (s.mkCtx t g c i) s
      else s
    | _ => s
  else s

/-- An instruction that writes one destination of lanes or of a uniform register: marker, latency, per-lane value; `occ` is the
number of issue cycles it takes, from the last of which the latency counts (R143, R218). -/
def execLane (x : Ctx) (d lat : Nat) (val : Nat → Word) (s : State) (occ : Nat := 1) : State :=
  let s := s.retire x occ
  let full := x.lanes.length = 8 ∨ x.lanes = [] ∨ 0x20 ≤ d
  let r := if full then (x.mark, none)
    else s.combine x.sec x.mark (viewMark (s.til x.t).view (x.grp.markOf d))
  let mark := if x.dead ∨ x.conflict.isSome then .dead else r.1
  let s := match r.2 with
    | some (a, b) => s.conflict x.t x.g a b x.cyc
    | none => s
  s.setGrp x.t x.g (writeDst (s.grp x.t x.g) x d mark (s.after x.t ((s.til x.t).cyc - 1) lat) val).bumpPc

/-- An instruction that writes one predicate (R212, R213). -/
def execPred (x : Ctx) (pd lat : Nat) (val : Nat → Bool) (s : State) : State :=
  let s := s.retire x 1
  let full := x.lanes.length = 8 ∨ x.lanes = []
  let r := if full then (x.mark, none)
    else s.combine x.sec x.mark (viewMark (s.til x.t).view (x.grp.markOf (0x40 + pd)))
  let mark := if x.dead ∨ x.conflict.isSome then .dead else r.1
  let s := match r.2 with
    | some (a, b) => s.conflict x.t x.g a b x.cyc
    | none => s
  s.setGrp x.t x.g (writePred (s.grp x.t x.g) x pd mark (s.after x.t x.cyc lat) val).bumpPc

end Sys2Proof.Machine
end

