-- ==== Sys2Proof/Machine/TileControl.lean ====
section
/-! DEFINITION. Control instructions of the tile, end of work, the group watchdog, and SPEC (R204-R207, R237-R241,
R148, R178, R545, R550). -/

namespace Sys2Proof.Machine

/-- The branch target of a control instruction (R205), modulo 2^16 (DESIGN CHOICE, assumption 94). -/
def branchTo (pc : Nat) (off : BitVec 16) : Nat := (pc + 4 * off.toNat) % 65536

/-- Marker of a control instruction's Q combined into another marker (R550). -/
def State.withQ (s : State) (x : Ctx) (m : Marker) : Marker × Option (Nat × Nat) :=
  s.combine x.sec (viewMark (s.til x.t).view m) (viewMark (s.til x.t).view (x.grp.markOf (0x40 + (guardOf x.inst).1)))

/-- Q of a control instruction (R206). -/
def Ctx.q (x : Ctx) : BitVec 8 := guardMask x.grp (guardOf x.inst).1 (guardOf x.inst).2

/-- A control instruction retires, taking the branch or moving on. -/
def ctlRetire (x : Ctx) (taken : Bool) (off : BitVec 16) (f : Group → Group) (s : State) : State :=
  let s := s.retire x 1
  let grp := f (s.grp x.t x.g)
  let s := match (if guardOf x.inst = (0, false) then none
      else (s.withQ x (match x.inst with | .ctl .bany .. | .ctl .bnone .. => x.grp.ctl | _ => x.grp.aMark)).2) with
    | some (a, b) => s.conflict x.t x.g a b x.cyc
    | none => s
  s.setGrp x.t x.g (if taken then { grp with pc := branchTo x.grp.pc off } else grp.bumpPc)

/-- The body shared by the branches: NOP, BRA, BANY, BNONE, PUSHIF, ELSE, POP, MASK (R206, R550). -/
def ctlBody (x : Ctx) (s : State) : State :=
  match x.inst with
  | .ctl op _ _ off => match op with
    | .nop => ctlRetire x false off id s
    | .bra => ctlRetire x true off id s
    | .bany => ctlRetire x (x.grp.amask &&& x.q ≠ 0) off (fun y => { y with ctl := (s.withQ x y.ctl).1 }) s
    | .bnone => ctlRetire x (x.grp.amask &&& x.q = 0) off (fun y => { y with ctl := (s.withQ x y.ctl).1 }) s
    | .pushif => ctlRetire x (x.grp.amask &&& x.q = 0) off (fun y =>
        { y with stack := ⟨y.amask, y.amask &&& ~~~x.q, y.aMark⟩ :: y.stack, amask := y.amask &&& x.q
                 aMark := (s.withQ x y.aMark).1 }) s
    | .else_ => match x.grp.stack with
      | e :: _ => ctlRetire x (e.e = 0) off (fun y => { y with amask := e.e, aMark := (s.withQ x y.aMark).1 }) s
      | [] => s
    | .pop => match x.grp.stack with
      | e :: rest => ctlRetire x false off (fun y => { y with amask := e.m, aMark := e.mark, stack := rest }) s
      | [] => s
    | .mask => ctlRetire x false off (fun y => { y with amask := y.amask &&& x.q, aMark := (s.withQ x y.aMark).1 }) s
    | .end_ => s
  | _ => s

/-- NOP (R206). -/
def execNop (t g : Nat) (s : State) : Host.Outcome State Fault Refusal := onGroup t g (issueAs t g .nop ctlBody s)
/-- BRA (R206). -/
def execBra (t g : Nat) (s : State) : Host.Outcome State Fault Refusal := onGroup t g (issueAs t g .bra ctlBody s)
/-- BANY (R206). -/
def execBany (t g : Nat) (s : State) : Host.Outcome State Fault Refusal := onGroup t g (issueAs t g .bany ctlBody s)
/-- BNONE (R206). -/
def execBnone (t g : Nat) (s : State) : Host.Outcome State Fault Refusal := onGroup t g (issueAs t g .bnone ctlBody s)
/-- PUSHIF (R206, R207). -/
def execPushif (t g : Nat) (s : State) : Host.Outcome State Fault Refusal :=
  onGroup t g (issueAs t g .pushif ctlBody s)
/-- ELSE (R206, R207). -/
def execElse (t g : Nat) (s : State) : Host.Outcome State Fault Refusal := onGroup t g (issueAs t g .else_ ctlBody s)
/-- POP (R206, R207). -/
def execPop (t g : Nat) (s : State) : Host.Outcome State Fault Refusal := onGroup t g (issueAs t g .pop ctlBody s)
/-- MASK (R206). -/
def execMask (t g : Nat) (s : State) : Host.Outcome State Fault Refusal := onGroup t g (issueAs t g .mask ctlBody s)

/-! ### End of work -/

/-- Whether nothing a group issued in the watch is still in flight (R148, R241). -/
def State.quiet (s : State) (t g : Nat) : Bool :=
  !((s.til t).loads.any fun l => l.group = g && l.waiting ≠ []) && !((s.til t).held.any fun h => h.group = g) &&
    (s.grp t g).rstOut = [] && decide ((s.grp t g).opsOut = 0) && decide ((s.grp t g).sendsOut = 0)

/-- A group retires END: DONE, and the tile's end-of-work with the last group of the mask (R148), unless a fault withholds it or a
group is TRAPPED, in the mask or held (R174, R175). -/
def State.retireEnd (s : State) (t g : Nat) : State :=
  let s := s.setGrp t g { s.grp t g with st := .done, ended := false }
  let y := s.til t
  if y.withhold = false ∧ ((List.range 8).all fun k => (!(y.active.testBit k) && (s.grp t k).st ≠ .trapped) || (s.grp t k).st = .done) then
    s.setTil t { y with eow := true }
  else s

/-- END (R241): the group issues nothing further; where nothing is in flight it retires in its issue cycle. Until it retires its
watchdog goes on counting (R178). -/
def execEnd (t g : Nat) (s : State) : Host.Outcome State Fault Refusal :=
  onGroup t g (issueAs t g .end_ (fun x s =>
    let last := (s.grp t g).lastRetire
    let s := s.retire x 1
    let s := s.setGrp t g { s.grp t g with ended := true, lastRetire := last }
    if s.quiet t g then s.retireEnd t g else s) s)

/-- END_OF_WORK (R148, R241): a waiting END retires once nothing of the group is in flight, before SETTLE (R97). -/
def execEndOfWork (t g : Nat) (s : State) : Host.Outcome State Fault Refusal :=
  onGroup t g (
    if (s.grp t g).st = .running ∧ (s.grp t g).ended = true ∧ (s.fld (fieldOf t)).phase = .work ∧ s.quiet t g = true ∧
        s.isDraining (fieldOf t) (s.sectorOf t) = false
    then s.retireEnd t g else s)

/-! ### The group watchdog -/

/-- Whether a group issues nothing up to cycle `c`. -/
def issuesAfter (c : Nat) (n : Next) : Bool :=
  match nextCycle n with
  | some k => c < k
  | none => true

/-- WATCHDOG (R178, R179): the count reaches the limit `limit` executed cycles after the last retirement, in WORK. No trap is taken
where the group issues by then (R172). -/
def execWatchdog (t g : Nat) (s : State) : Host.Outcome State Fault Refusal :=
  let limit := s.gf F.tgpWdog_limit t
  let c := s.after t (s.grp t g).lastRetire limit
  let fs := s.fld (fieldOf t)
  onGroup t g (
    if limit ≠ 0 ∧ (s.grp t g).st = .running ∧ fs.phase = .work ∧ c < settleStart fs ∧
        issuesAfter c (s.nextOf t g) = true then
      ((s.endWait t g c).advanceTo (cycleInstant fs c)).trap t g c 0x0C (s.grp t g).pc 0
    else s)

/-! ### SPEC -/

/-- SPEC (R237, R238, R545, R560): BEGIN pushes the tag, and sends an open where the tile does not know it open;
END removes the innermost entry; CONFIRM and SQUASH go to the tag bus. A DEAD instruction sends nothing (R551). -/
def specBody (x : Ctx) (s : State) : State :=
  match x.inst with
  | .spec op tag =>
    let s := s.retire x 1
    let grp := s.grp x.t x.g
    let y := s.til x.t
    match op with
    | .begin_ =>
      let s := s.setGrp x.t x.g { grp with nest := tag.toNat :: grp.nest }.bumpPc
      if x.dead ∨ y.opened.contains tag.toNat = true ∨ mget .free y.view tag.toNat ≠ .free then s
      else (s.setTil x.t { y with opened := tag.toNat :: y.opened }).tagBus x.t .open_ tag.toNat x.cyc
    | .end_ => s.setGrp x.t x.g { grp with nest := grp.nest.tail }.bumpPc
    | .confirm =>
      let s := s.setGrp x.t x.g grp.bumpPc
      if x.dead then s else s.tagBus x.t .confirm tag.toNat x.cyc
    | .squash =>
      let s := s.setGrp x.t x.g grp.bumpPc
      if x.dead then s else s.tagBus x.t .squash tag.toNat x.cyc
  | _ => s

/-- SPEC BEGIN (R237, R545). -/
def execSpecBegin (t g : Nat) (s : State) : Host.Outcome State Fault Refusal :=
  onGroup t g (issueAs t g .specBegin specBody s)
/-- SPEC END (R237). -/
def execSpecEnd (t g : Nat) (s : State) : Host.Outcome State Fault Refusal :=
  onGroup t g (issueAs t g .specEnd specBody s)
/-- SPEC CONFIRM (R237, R239). -/
def execSpecConfirm (t g : Nat) (s : State) : Host.Outcome State Fault Refusal :=
  onGroup t g (issueAs t g .specConfirm specBody s)
/-- SPEC SQUASH (R237, R239). -/
def execSpecSquash (t g : Nat) (s : State) : Host.Outcome State Fault Refusal :=
  onGroup t g (issueAs t g .specSquash specBody s)

end Sys2Proof.Machine
end

