-- ==== Sys2Proof/Machine/TileMem.lean ====
section
/-! DEFINITION. Local and remote memory of the tile: LD, ST, the shadow, RLD, RLDU, RST, release points, the service
port, and the packets of remote accesses (R156-R171, R216-R226, R553-R558). -/

namespace Sys2Proof.Machine

/-! ### The shadow -/

/-- Depth of a tag in its tree (R555). -/
def State.depthOf (s : State) (sec tag : Nat) : Nat := (s.ancestors sec 4 tag).length

/-- The lines of tile `t` that hold byte `b` of block `k` (R553). -/
def State.linesAt (s : State) (t k b : Nat) : List ShadowLine :=
  ((s.til t).shadow.map (·.2)).filter fun l => l.op.isNone && decide (l.block = k) && l.mask.testBit b

/-- The deepest of some lines (R555). -/
def State.deepest (s : State) (sec : Nat) : List ShadowLine → Option ShadowLine
  | [] => none
  | l :: ls => match s.deepest sec ls with
    | none => some l
    | some m => if s.depthOf sec m.tag ≤ s.depthOf sec l.tag then some l else some m

/-- A byte of local store as a local load returns it, with the tag of the line it came from (R555), and whether the word it
was read from is uncorrectable. -/
def State.loadByte (s : State) (t off : Nat) : Byte × Marker × Bool :=
  match s.deepest (s.sectorOf t) (s.linesAt t (off / 64) (off % 64)) with
  | some l => (mget 0 l.data (off % 64), .tag l.tag, l.bad.testBit (off % 64 / 4))
  | none => (s.sramByte t off, .none, s.sramBad.contains (sramAddr t (off / 4 * 4)))

/-- A word of local store as a local load returns it, with the markers of the lines read and its uncorrectable
mark. -/
def State.loadWord (s : State) (t off : Nat) : Word × List Marker × Bool :=
  let b := (List.range 4).map fun k => s.loadByte t (off + k)
  (wordOfBytes (b.getD 0 (0, .none, false)).1 (b.getD 1 (0, .none, false)).1 (b.getD 2 (0, .none, false)).1
    (b.getD 3 (0, .none, false)).1, b.map (·.2.1), b.any (·.2.2))

/-- Index of the line for a block under a tag. -/
def findLine (x : Tile) (block tag : Nat) : Option Nat :=
  (x.shadow.find? fun l => l.2.op.isNone && decide (l.2.block = block) && decide (l.2.tag = tag)).map (·.1)

/-- The lowest free line. -/
def freeLine (x : Tile) : Option Nat := (List.range 16).find? fun k => (mfind x.shadow k).isNone

/-- A word written into the line of its block and tag, allocated if it does not exist; the tile is unchanged where no
line is free (R554). -/
def shadowWrite (x : Tile) (off tag : Nat) (w : TWord) : Tile :=
  let put (l : ShadowLine) : ShadowLine :=
    { l with
      mask := (List.range 4).foldl (fun m k => if m.testBit (off % 64 + k) then m else m + 2 ^ (off % 64 + k)) l.mask
      data := (List.range 4).foldl (fun d k => mput d (off % 64 + k) (byteOf w.w k)) l.data
      bad := if w.bad then l.bad ||| 2 ^ (off % 64 / 4)
        else if l.bad.testBit (off % 64 / 4) then l.bad - 2 ^ (off % 64 / 4) else l.bad }
  match findLine x (off / 64) tag with
  | some k => { x with shadow := mput x.shadow k (put (mget { tag := tag } x.shadow k)) }
  | none => match freeLine x with
    | some k => { x with shadow := mput x.shadow k (put { block := off / 64, tag := tag }) }
    | none => x

/-- A tag of another valid line of the block that a store's tag is not related to (R554). -/
def State.storeConflict (s : State) (t off tag : Nat) : Option Nat :=
  ((s.til t).shadow.find? fun l => l.2.op.isNone && decide (l.2.block = off / 64) &&
    !s.isAncestor (s.sectorOf t) l.2.tag tag && !s.isAncestor (s.sectorOf t) tag l.2.tag).map (·.2.tag)

/-- A word stored by the tile's own group: to local store, or to the shadow under a tag (R220, R554, R556). -/
def State.storeWord (s : State) (t off : Nat) (mark : Marker) (w : TWord) : State :=
  match mark with
  | .none => s.sramPut t off w
  | .tag tag => s.setTil t ((shadowWrite (s.til t) off tag w).noteShadow (s.til t) (s.tileCycle t))
  | .dead => s

/-! ### LD and ST -/

/-- Number of 16 B blocks a set of offsets touches, at least 1 (R218). -/
def blocks16 (l : List Nat) : Nat := max 1 ((l.map (· / 16)).eraseDups).length

/-- The first fault of a local access: MISALIGNED, then SRAM_REGION (R155, R217), with its address. -/
def State.localFault (s : State) (t : Nat) (offs : List Nat) : Option (Nat × Nat) :=
  match offs.find? (· % 4 ≠ 0) with
  | some a => some (0x03, globalOf t a)
  | none => match offs.find? fun a => s.lsBytes t ≤ a with
    | some a => some (0x02, globalOf t a)
    | none => none

/-- Offset of lane `k` of a local access: A + 4 × WOFF (R216). -/
def Ctx.offset (x : Ctx) (a : BitVec 6) (woff : BitVec 10) (k : Nat) : Nat :=
  (x.operand a k).toNat + 4 * woff.toNat

/-- The first uncorrectable word that a local access reads, as a trap with its address (R177). -/
def State.poisonFault (s : State) (t : Nat) (offs : List Nat) : Option (Nat × Nat) :=
  (offs.find? fun o => (s.loadWord t o).2.2).map fun o => (0x0B, globalOf t o)

/-- LD (R216-R218, R555): an uncorrectable word traps, and one with a bit in error is read corrected, where the shadow does not serve
it (R177). A DEAD load reads nothing, and what it writes beside DEAD is
free (R551; assumption 93). -/
def ldBody (x : Ctx) (s : State) : State :=
  match x.inst with
  | .loc _ _ _ d a woff =>
    let offs := x.lanes.map (x.offset a woff)
    if x.dead then execLane x d.toNat 3 (Config.deadWord s.fresh) s.tickFresh
    else match (s.localFault x.t offs).or (s.poisonFault x.t offs) with
      | some (c, addr) => s.issueTrap x.t x.g x.cyc c addr
      | none =>
        let occ := blocks16 offs
        let r := s.combineAll x.sec (x.mark :: offs.flatMap fun o => (s.loadWord x.t o).2.1)
        let x' : Ctx := { x with mark := r.1, conflict := x.conflict.or r.2 }
        let read := offs.filter fun o => (s.loadWord x.t o).2.1.contains .none
        execLane x' d.toNat 3 (fun k => (s.loadWord x.t (x.offset a woff k)).1) (s.readEcc x.t read) occ
  | _ => s

/-- A store of cycle `cyc` to words of the shared region is noted for the fetches soon after it (R172). -/
def State.noteCode (s : State) (t cyc : Nat) (offs : List Nat) : State :=
  let code := offs.eraseDups.filter fun o => decide (o < s.sharedBytes t)
  if code = [] then s
  else
    let y := s.til t
    s.setTil t { y with codeWrites := (code.map fun o => (o, cyc, s.sramWord t o)) ++
                          y.codeWrites.filter fun e => decide (cyc < s.after t e.2.1 4) }

/-- ST (R216-R220, R554): lanes in ascending order, so the highest wins. -/
def stBody (x : Ctx) (s : State) : State :=
  match x.inst with
  | .loc _ _ _ d a woff =>
    let offs := x.lanes.map (x.offset a woff)
    match (if x.dead then none else s.localFault x.t offs) with
    | some (c, addr) => s.issueTrap x.t x.g x.cyc c addr
    | none =>
      let s := s.retire x (blocks16 offs)
      let s := s.setGrp x.t x.g (s.grp x.t x.g).bumpPc
      if x.dead then s
      else
        let clash := match x.mark with
          | .tag tag => (offs.filterMap fun o => (s.storeConflict x.t o tag).map fun b => (tag, b)).head?
          | _ => none
        match clash with
        | some (tag, b) => s.conflict x.t x.g tag b x.cyc
        | none =>
          let s := if x.mark = .none then s.noteCode x.t x.cyc offs else s
          s.each x.lanes fun s k => s.storeWord x.t (x.offset a woff k) x.mark { w := x.operand d k }
  | _ => s

/-- LD (R216). -/
def execLd (t g : Nat) (s : State) : Host.Outcome State Fault Refusal := onGroup t g (issueAs t g .ld ldBody s)
/-- ST (R216). -/
def execSt (t g : Nat) (s : State) : Host.Outcome State Fault Refusal := onGroup t g (issueAs t g .st stBody s)

/-! ### Remote loads and stores -/

/-- The cause with which a lane address of a remote access traps (R161, R221, R223); of several, OFFWAFER comes before BUS_ERROR and
that before MISALIGNED (DESIGN CHOICE, assumption 22). No register behind a gated clock lies in a
control space, and a launch is no register access (R732, R905). -/
def remoteCause (store : Bool) (a : Nat) : Option Nat :=
  let sp := addrSpace a
  if 8 ≤ sp then some 0x04
  else if 4 ≤ sp ∨ (store = true ∧ 2 ≤ sp) then some 0x05
  else if (sp = 0 ∨ sp = 2) ∧ isTile (addrTile a) = false then some 0x05
  else if a % 4 ≠ 0 then some 0x03
  else none

/-- The trap of a remote access, that of the lowest-numbered active lane that has one (DESIGN CHOICE, assumption 22). -/
def remoteFault (store : Bool) (addrs : List Nat) : Option (Nat × Nat) :=
  (addrs.filterMap fun a => (remoteCause store a).map fun c => (c, a)).head?

/-- Where a remote access goes: the tile of space 0x0, else the bay port of the requester's bay (R329, R905). -/
def remoteDest (t a : Nat) : Nat := if addrSpace a = 0 then addrTile a else bayPort (bayOf t)

/-- A hit in the read cache: the word at an address (R164). -/
def cacheWord (x : Tile) (a : Nat) : Option TWord :=
  (x.cache.find? fun l => l.block = a / 64).map fun l => l.data.getD (a % 64 / 4) { w := 0 }

/-- The cache with block `b` made most recently used. -/
def cacheTouch (x : Tile) (b : Nat) : Tile :=
  { x with cache := (x.cache.filter (·.block = b)) ++ x.cache.filter (·.block ≠ b) }

/-- Sets of the read cache (R163). -/
def State.cacheSets (s : State) (t : Nat) : Nat :=
  match s.gf F.tilSplit_cache t with | 0 => 0 | 1 => 16 | 2 => 32 | _ => 64

/-- A fetched line allocated in its set, which is the block's number modulo the number of sets (DESIGN CHOICE, assumption 104), the
least recently used of four leaving (R163). -/
def cacheFill (sets : Nat) (x : Tile) (l : CacheLine) : Tile :=
  let inSet (c : CacheLine) : Bool := c.block % sets = l.block % sets
  let same := (x.cache.filter fun c => inSet c && decide (c.block ≠ l.block)).take 3
  { x with cache := l :: (x.cache.filter fun c => !inSet c || same.contains c) }

/-- Tags taken in cycle `c`, lowest first, one for each block, with the generation bit toggled (R166, R168, R170). -/
def takeTags (x : Tile) (c load : Nat) : List Nat → Tile × List (Nat × Nat)
  | [] => (x, [])
  | b :: bs =>
    match (List.range 16).find? fun k => !(mget {} x.tags k).taken && decide ((mget {} x.tags k).freeFrom ≤ c) with
    | none => (x, [])
    | some k =>
      let old := mget {} x.tags k
      let y := { x with tags := mput x.tags k { taken := true, gen := !old.gen, load := load, block := b } }
      let r := takeTags y c load bs
      (r.1, (k, b) :: r.2)

/-- A load with REL ≥ 1 whose data was late: the cycles are counted, and the tile's first in a watch is logged (R147). -/
def State.noteLate (s : State) (t g late : Nat) : State :=
  if late = 0 then s
  else
    let s := s.bump .tilCountReleaseLate t 0 late
    if (s.til t).slip then s
    else (s.setTil t { s.til t with slip := true }).logEv evScheduleSlip (fieldOf t) t (detail2 g late)

/-- The first fault of an RLD or RLDU: an address that traps (R223), or a lane the tile serves itself: outside local store it is
refused (R158), and an uncorrectable word is poison (R162, R177, R250; DESIGN CHOICE, assumption 94). -/
def State.rldFault (s : State) (t : Nat) (addrs offs : List Nat) : Option (Nat × Nat) :=
  (remoteFault false addrs).or (((offs.find? fun a => s.lsBytes t ≤ a).map fun a => (0x06, globalOf t a)).or (s.poisonFault t offs))

/-- The marker an RLD or RLDU gives its destination: its own, the shadow lines that lanes served by the tile read, and the
destination's where not all lanes are written (R547), with the conflict met. -/
def State.rldMark (s : State) (x : Ctx) (d : Nat) (offs : List Nat) : Marker × Option (Nat × Nat) :=
  let prev := if x.lanes.length = 8 ∨ x.lanes = [] ∨ 0x20 ≤ d then [] else [viewMark (s.til x.t).view (x.grp.markOf d)]
  s.combineAll x.sec (prev ++ x.mark :: offs.flatMap fun o => (s.loadWord x.t o).2.1)

/-- RLD and RLDU (R160-R167, R221, R224, R226): lanes that name the tile itself are served as local loads, lanes that
hit are served by the cache, and each other block takes a tag and sends one RLOAD; the destination is written once all its
data has come. A DEAD load, or one in conflict, makes no access, and what it writes beside DEAD is free (R551, R549;
assumption 93). -/
def rldBody (x : Ctx) (s : State) : State :=
  match x.inst with
  | .rem op _ _ d ap rel =>
    let addr (k : Nat) : Nat := pairAddr x.grp ap.toNat k
    let own (a : Nat) : Bool := addrSpace a = 0 && addrTile a = x.t
    let addrs := x.lanes.map addr
    let offs := (addrs.filter own).map (· % 2 ^ 16)
    match (if x.dead then none else s.rldFault x.t addrs offs) with
    | some (c, a) => s.issueTrap x.t x.g x.cyc c a
    | none =>
      if x.quiet then
        let fresh := s.fresh
        let s := s.tickFresh.retire x 1
        s.setGrp x.t x.g
          (writeDst (s.grp x.t x.g) x d.toNat .dead (s.after x.t x.cyc (max rel.toNat 3)) (Config.deadWord fresh)).bumpPc
      else
        let occ := blocks16 offs
        let r := s.rldMark x d.toNat offs
        let s := (s.readEcc x.t (offs.filter fun o => (s.loadWord x.t o).2.1.contains .none)).retire x occ
        let s := match r.2 with
          | some (a, b) => s.conflict x.t x.g a b x.cyc
          | none => s
        let miss := s.missBlocks x.t (op = .rld) addrs
        let remote := ((addrs.filter fun a => !own a).map (· / 64)).eraseDups
        let hit := remote.filter fun b => !miss.contains b
        let cached := op = .rld && s.gf F.tilSplit_cache x.t ≠ 0
        let have_ (k : Nat) : Bool := own (addr k) || hit.contains (addr k / 64)
        let value (k : Nat) : Word :=
          if own (addr k) then (s.loadWord x.t (addr k % 2 ^ 16)).1
          else ((cacheWord (s.til x.t) (addr k)).getD { w := 0 }).w
        let s := s.bump .tilCountCacheHit x.t 0 hit.length
        let s := if cached then s.bump .tilCountCacheMiss x.t 0 (miss.filter fun b => addrSpace (b * 64) < 2).length else s
        if miss = [] then
          let data := s.after x.t ((s.til x.t).cyc - 1) 3
          let point := s.after x.t x.cyc rel.toNat
          let late := if rel.toNat = 0 ∨ x.lanes = [] then 0 else s.executed x.t point data
          let s := s.noteLate x.t x.g late
          let s := s.setTil x.t (hit.foldl cacheTouch (s.til x.t))
          s.setGrp x.t x.g
            (writeDst (s.grp x.t x.g) x d.toNat r.1 (max data point) value).bumpPc
        else
          let s := s.setTil x.t (hit.foldl cacheTouch (s.til x.t))
          let id := s.nextPkt
          let s : State := { s with nextPkt := id + 1 }
          let tt := takeTags (s.til x.t) x.cyc id miss
          let s := s.setTil x.t { tt.1.noteTags (s.til x.t) (x.cyc + 1) with loads := tt.1.loads ++ [{
            id := id, group := x.g, dst := d.toNat, lanes := x.lanes.map fun k => (k, addr k), waiting := tt.2
            issue := s.after x.t x.cyc rel.toNat - rel.toNat, rel := rel.toNat, pc := x.grp.pc, mark := r.1, cached := cached
            got := (x.lanes.filter have_).map fun k => (k, value k) }] }
          let g := s.grp x.t x.g
          let s := s.setGrp x.t x.g { g with loading := mput g.loading d.toNat id }.bumpPc
          s.each tt.2 fun s tb => s.inject x.t {
            id := 0, ty := .rload, vc := if rel = 0 then 1 else 0, dest := remoteDest x.t (tb.2 * 64), src := x.t
            at_ := x.t, sslot := tb.1, gen := (mget {} (s.til x.t).tags tb.1).gen, addr := tb.2 * 64 % 2 ^ 30
            full := tb.2 * 64, mark := x.mark, group := x.g, pc := x.grp.pc }
  | _ => s

/-- The words of a store that fall in block `b`, ascending lanes, the highest winning (R248), and their mask. -/
def storeBlock (x : Ctx) (d : BitVec 6) (addr : Nat → Nat) (b : Nat) : List TWord × Nat :=
  let lanes := x.lanes.filter fun k => addr k / 64 = b
  let word (j : Nat) : Option Word :=
    ((lanes.filter fun k => addr k % 64 / 4 = j).getLast?).map fun k => x.operand d k
  ((List.range 16).map fun j => { w := (word j).getD 0 },
    (List.range 16).foldl (fun m j => if (word j).isSome then m + 2 ^ j else m) 0)

/-- A block invalidated in the read cache (R165); a fill of it in flight will not be allocated (R172). -/
def invalidate (x : Tile) (b : Nat) : Tile :=
  { x with cache := x.cache.filter (·.block ≠ b)
           tags := x.tags.map fun (e : Nat × RTag) => (e.1, if e.2.taken && decide (e.2.block = b) then { e.2 with noFill := true } else e.2) }

/-- RST (R222-R224, R165): one RSTORE for each block, posted; a cached line of the block is invalidated. -/
def rstBody (x : Ctx) (s : State) : State :=
  match x.inst with
  | .rem _ _ _ d ap _ =>
    let addr (k : Nat) : Nat := pairAddr x.grp ap.toNat k
    let addrs := x.lanes.map addr
    match (if x.dead then none else remoteFault true addrs) with
    | some (c, a) => s.issueTrap x.t x.g x.cyc c a
    | none =>
      let s := s.retire x 1
      let s := s.setGrp x.t x.g (s.grp x.t x.g).bumpPc
      if x.quiet then s
      else s.each ((addrs.map (· / 64)).eraseDups) fun s b =>
        let s := s.setTil x.t (invalidate (s.til x.t) b)
        let g := s.grp x.t x.g
        let s := s.setGrp x.t x.g { g with rstOut := g.rstOut ++ [g.nextSerial], nextSerial := g.nextSerial + 1 }
        let w := storeBlock x d addr b
        s.inject x.t { id := 0, ty := .rstore, vc := 0, len := 4, dest := remoteDest x.t (b * 64), src := x.t
                       at_ := x.t, mask := w.2, body := w.1, addr := b * 64 % 2 ^ 30, full := b * 64, mark := x.mark
                       group := x.g, serial := g.nextSerial, pc := x.grp.pc }
  | _ => s

/-- RLD (R221). -/
def execRld (t g : Nat) (s : State) : Host.Outcome State Fault Refusal := onGroup t g (issueAs t g .rld rldBody s)
/-- RLDU (R221). -/
def execRldu (t g : Nat) (s : State) : Host.Outcome State Fault Refusal := onGroup t g (issueAs t g .rldu rldBody s)
/-- RST (R222). -/
def execRst (t g : Nat) (s : State) : Host.Outcome State Fault Refusal := onGroup t g (issueAs t g .rst rstBody s)

/-! ### Responses -/

/-- A tag freed, takeable from the next executed cycle (R168). -/
def State.freeTag (s : State) (t k : Nat) : State :=
  let y := s.til t
  let c := s.tileCycle t + 1
  s.setTil t (({ y with tags := mput y.tags k { mget {} y.tags k with taken := false, freeFrom := c } } : Tile).noteTags y c)

/-- A load that has all its data writes its destination, readable from cycle `c`, unless another instruction has written it
since (R226). -/
def State.finishLoad (s : State) (t : Nat) (l : Load) (c : Nat) : State :=
  let g := s.grp t l.group
  let s := if mfind g.loading l.dst = some l.id then
      s.setGrp t l.group { g with
        v := if l.dst < 0x20 then l.got.foldl (fun m k => mput m (l.dst, k.1) k.2) g.v else g.v
        u := match l.lanes.head?.bind fun e => mfind l.got e.1 with
          | some w => if l.dst < 0x20 then g.u else mput g.u (l.dst - 0x20) w
          | none => g.u
        loading := mdel g.loading l.dst, ready := mput g.ready l.dst c
        marks := mput g.marks l.dst (viewMark (s.til t).view l.mark) }
    else s
  s.setTil t { s.til t with loads := (s.til t).loads.filter (·.id ≠ l.id) }

/-- A response discarded on arrival (R170, R171). -/
def State.staleDiscard (s : State) (t pkt : Nat) : State := (s.dropPkt pkt).bump .tilCountStaleDiscard t 0 1

/-- Whether no packet ejected earlier at the same tile must be taken before a packet (R245, R264, R391). -/
def State.nextOut (s : State) (p : Packet) : Bool :=
  (s.packets.takeWhile (·.id ≠ p.id)).all fun q => !(decide (q.st = .ejected ∧ q.at_ = p.at_) && p.inOrder q)

/-- The ejected packet with an id, if it has the type named and is the next of its kind. -/
def State.arrived (s : State) (id : Nat) (ty : PType) : Option Packet :=
  match s.pkt id with
  | some p => if p.ty = ty ∧ p.st = .ejected ∧ s.nextOut p = true then some p else none
  | none => none

/-! ### The response store (R826) -/

/-- The requests that the units behind a bay port have taken and not answered: field store, the lenses, the MV engine. -/
def State.bayHolds (s : State) (t : Nat) : Nat :=
  let f := fieldOf t
  let mine (l : List Packet) : Nat := (l.filter fun p => decide (p.ty = .rload ∧ p.at_ = t)).length
  let lens (l : Nat) : Nat :=
    let x : LensSt := mget {} s.lenses l
    mine (x.queue.map (·.1)) + mine (x.next.toList.map (·.pkt)) + mine (x.exec.toList.map (·.pkt))
  let m : MvSt := mget {} s.mvs f
  mine (mget [] s.bayQueues (bayOf t)) + sumNat ((List.range 4).map fun k => lens (f * 4 + k)) +
    mine (m.queue.map (·.1)) + mine (m.exec.toList.map (·.1))

/-- Places of the response store of a tile's router that are taken: by responses whose tails have not left its L port, and by
requests that its service port or bay port has accepted and not answered (R826). -/
def State.placesTaken (s : State) (t : Nat) : Nat :=
  (s.packets.filter fun q => decide (q.st = .flying ∧ q.lPlace = 1) && (decide (q.at_ = t ∧ q.inPort = .l) ||
    q.segments.any fun e => decide (e.1 = t ∧ e.2.1 = .l))).length +
  ((s.til t).svc.filter fun r => match r with | .load _ => true | .window _ => true | _ => false).length +
  (if bayPort (bayOf t) = t then s.bayHolds t else 0)

/-- Whether a request that a router's tile or bay port would have to answer waits in the ejection buffer for a place (R826). -/
def State.storeFull (s : State) (t : Nat) : Bool := decide (8 ≤ s.placesTaken t)

/-- A head waits for an output, or a request for its answer's place: a cycle is counted (R381, R825). -/
def State.stall (s : State) (t : Nat) : State := s.bump .mshCountStall t 0 1

/-- The load that waits on a response, with its tag state matching the response's generation (R170). -/
def State.loadFor (s : State) (p : Packet) : Option Load :=
  let tag := mget {} (s.til p.at_).tags p.sslot
  if tag.taken = true ∧ tag.gen = p.gen then (s.til p.at_).loads.find? (·.id = tag.load) else none

/-- A tile's load with an id changed by a response to it. -/
def State.answerLoad (s : State) (t id : Nat) (f : Load → Load) : State :=
  s.setTil t { s.til t with loads := (s.til t).loads.map fun m => if m.id = id then f m else m }

/-- A failed or poisoned response: the tag frees and the group traps on the access (R225, R177). The address it records is that of
the 64 B block, and a group that has trapped already traps again (DESIGN CHOICE, assumption 94). -/
def State.failLoad (s : State) (p : Packet) (cause : Nat) : State :=
  match s.loadFor p with
  | none =>
    let s := if (mget {} (s.til p.at_).tags p.sslot).gen = p.gen then s.freeTag p.at_ p.sslot else s
    s.staleDiscard p.at_ p.id
  | some l =>
    let block := (mget {} (s.til p.at_).tags p.sslot).block
    let s := (s.freeTag p.at_ p.sslot).dropPkt p.id
    let s := s.answerLoad p.at_ l.id fun m => { m with killed := true, failed := !m.killed || m.failed
                                                       waiting := m.waiting.filter (·.1 ≠ p.sslot) }
    if l.killed then (if l.failed then s else s.bump .tilCountStaleDiscard p.at_ 0 1)
    else
      s.trap p.at_ l.group (s.tileCycle p.at_) cause l.pc (block * 64)

/-- RDATA (R168, R170, R171, R164, R226). A body with an uncorrectable word is a poisoned response (R378). -/
def execRdata (id : Nat) (s : State) : Host.Outcome State Fault Refusal :=
  match s.arrived id .rdata with
  | none => .next s
  | some p =>
    if p.body.any (·.bad) then .next (s.failLoad p 0x0B)
    else match s.loadFor p with
    | none => .next (s.failLoad p 0)
    | some l =>
      let t := p.at_
      let tag := mget {} (s.til t).tags p.sslot
      let block := tag.block
      let c := s.tileCycle t
      let s := (s.freeTag t p.sslot).dropPkt id
      if l.killed then
        let s := s.answerLoad t l.id fun m => { m with waiting := m.waiting.filter (·.1 ≠ p.sslot) }
        .next (if l.failed then s else s.bump .tilCountStaleDiscard t 0 1)
      else
        let word (a : Nat) : Word := (p.body.getD (a % 64 / 4) { w := 0 }).w
        let mine := l.lanes.filter fun k => k.2 / 64 = block
        let y := s.til t
        let y := if l.cached && !tag.noFill && decide (addrSpace (block * 64) < 2) then
            cacheFill (max 1 (s.cacheSets t)) y { block := block, data := p.body }
          else y
        let l' : Load := { l with
          waiting := l.waiting.filter (·.1 ≠ p.sslot), doneAt := c
          got := l.got ++ mine.map fun k => (k.1, word k.2) }
        let s := (s.setTil t y).answerLoad t l.id fun _ => l'
        if l'.waiting = [] ∧ l.rel = 0 then .next (s.finishLoad t l' (c + 1)) else .next s

/-- RELEASE_POINT (R145, R147): at i + REL the destination becomes readable if its data has been written; later data
makes it readable in the cycle after it, counts the late cycles and logs one SCHEDULE_SLIP for the tile in the
watch. -/
def execReleasePoint (t load : Nat) (s : State) : Host.Outcome State Fault Refusal :=
  onTile t (match (s.til t).loads.find? (·.id = load) with
    | none => s
    | some l =>
      if l.waiting ≠ [] ∨ l.rel = 0 ∨ l.killed = true then s
      else
        let point := l.issue + l.rel
        let late := s.executed t point (l.doneAt + 1)
        (s.finishLoad t l (max point (l.doneAt + 1))).noteLate t l.group late)

/-- RFAIL (R225). -/
def execRfail (id : Nat) (s : State) : Host.Outcome State Fault Refusal :=
  match s.arrived id .rfail with
  | none => .next s
  | some p => .next (s.failLoad p 0x06)

/-- RPOISON (R177, R225). -/
def execRpoison (id : Nat) (s : State) : Host.Outcome State Fault Refusal :=
  match s.arrived id .rpoison with
  | none => .next s
  | some p => .next (s.failLoad p 0x0B)

/-! ### The service port -/

/-- RFAIL or NACK for an access refused (R158, R361): a completion goes back to SRC, from the place given at the L port, in its
router from the instant `since` or from now. -/
def State.refuseAccess (s : State) (at_ : Nat) (p : Packet) (place : Nat := 0) (since : Nat := 0) : State :=
  let s := s.dropPkt p.id
  if p.ty = .rload then
    s.respond at_ p { id := 0, ty := .rfail, dest := p.src, src := at_, at_ := at_, sslot := p.sslot, gen := p.gen
                      group := p.group, lPlace := place, since := since }
  else if p.ty = .rstore then
    s.respond at_ p { id := 0, ty := .nack, control := true, dest := p.src, src := at_, at_ := at_, group := p.group
                      addr := p.addr, full := p.full, serial := p.serial, pc := p.pc, lPlace := place, since := since }
  else s

/-- An ACK of one RST performed (R222, R362), in its router from the instant `since` or from now. -/
def State.ackStore (s : State) (at_ : Nat) (p : Packet) (since : Nat := 0) : State :=
  s.respond at_ p { id := 0, ty := .ack, control := true, dest := p.src, src := at_, at_ := at_, count := 1
                    group := p.group, serial := p.serial, since := since }

/-- Whether a packet comes from another watch than the tile's current one (R282). -/
def State.stalePacket (s : State) (p : Packet) : Bool := !p.wafer && p.parity ≠ s.parity (fieldOf p.at_)

/-- RLOAD (R158, R159, R826): it waits while the response store is full; refused outside local store, otherwise queued for the
service port. -/
def execRload (id : Nat) (s : State) : Host.Outcome State Fault Refusal :=
  match s.arrived id .rload with
  | none => .next s
  | some p =>
    if addrSpace p.full ≠ 0 ∨ p.at_ ≠ p.dest then .next s
    else if s.stalePacket p then .next (s.dropPkt id)
    else if s.storeFull p.at_ then .next (s.stall p.at_)
    else if s.lsBytes p.at_ ≤ p.addr % 2 ^ 16 ∨ viewMark (s.til p.at_).view p.mark = .dead then
      .next (s.refuseAccess p.at_ p)
    else .next ((s.dropPkt id).setTil p.at_ { s.til p.at_ with svc := (s.til p.at_).svc ++ [.load p] })

/-- RSTORE (R158, R222). A store whose tag was squashed is discarded (R564) and answered as done (assumption 11). -/
def execRstore (id : Nat) (s : State) : Host.Outcome State Fault Refusal :=
  match s.arrived id .rstore with
  | none => .next s
  | some p =>
    if addrSpace p.full ≠ 0 ∨ p.at_ ≠ p.dest then .next s
    else if s.stalePacket p then .next (s.dropPkt id)
    else if s.lsBytes p.at_ ≤ p.addr % 2 ^ 16 then .next (s.refuseAccess p.at_ p)
    else if viewMark (s.til p.at_).view p.mark = .dead then .next ((s.dropPkt id).ackStore p.at_ p)
    else .next ((s.dropPkt id).setTil p.at_ { s.til p.at_ with svc := (s.til p.at_).svc ++ [.store p] })

/-- Whether a sector is started in a field: its image is, its first watch has come, and it is not quiesced there (R319). -/
def State.startedIn (s : State) (f k : Nat) : Bool :=
  s.imageStarted && !s.isQuiesced f k && match mfind s.sectors k with
    | some y => decide (y.from_ ≤ (s.fld f).watch)
    | none => false

/-- Whether window accesses may write a tile's SRAM: its sector not started, or every group HALTED (R183). -/
def State.windowMayWrite (s : State) (t : Nat) : Bool :=
  !s.startedIn (fieldOf t) (s.sectorOf t) || ((List.range 8).all fun g => (s.grp t g).st = .halted)

/-- A window read of tile SRAM: committed contents; the shadow's offsets, and offsets a role leaves unaddressable,
read 0 (R154, R183); an IDLE tile's SRAM retains nothing (R134, assumption 8). -/
def State.windowRead (s : State) (t off : Nat) : Word :=
  if 0x9C00 ≤ off ∨ (s.gf F.tilRole_role t = 2 ∧ off < (39 - s.gf F.tilSplit_pool t) * 1024) then 0
  else if s.gf F.tilRole_role t = 0 then
    let n := match mfind s.lostTiles t with
      | some e => e.1
      | none => 0
    let b (k : Nat) : Byte := Config.lostByte n (sramAddr t (off / 4 * 4 + k))
    wordOfBytes (b 0) (b 1) (b 2) (b 3)
  else (s.sramWord t (off / 4 * 4)).w

/-- Whether a window read at an offset takes a word from tile SRAM. -/
def State.windowTakes (s : State) (t off : Nat) : Bool :=
  !(decide (0x9C00 ≤ off) || (decide (s.gf F.tilRole_role t = 2) && decide (off < (39 - s.gf F.tilSplit_pool t) * 1024)) ||
    decide (s.gf F.tilRole_role t = 0))

/-- The word that a window read takes from tile SRAM has been read (R177). -/
def State.windowEcc (s : State) (t off : Nat) : State := if s.windowTakes t off then s.readEcc t [off / 4 * 4] else s

/-- The status of a window read: 0 good, 2 poisoned (R177). -/
def State.windowStatus (s : State) (t off : Nat) : Nat :=
  if s.windowTakes t off && (s.sramWord t (off / 4 * 4)).bad then 2 else 0

/-- A window write of tile SRAM, where it is allowed; offsets a STEERING_RELAY tile leaves unaddressable ignore it
(R154), and an IDLE tile retains none (R134). -/
def State.windowWrite (s : State) (t off : Nat) (w : Word) : State :=
  if 0xA000 ≤ off ∨ (s.gf F.tilRole_role t = 2 ∧ off < (39 - s.gf F.tilSplit_pool t) * 1024) ∨ s.gf F.tilRole_role t = 0 then s
  else s.sramPut t (off / 4 * 4) { w := w }

/-- Rank of a service request (R156); a completion flag comes in the cycle after its item's last word (R259). -/
def svcRank : SvcReq → Nat × Nat
  | .flag k .. => (0, k)
  | .landing k .. => (1, k)
  | .store _ => (2, 0)
  | .load _ => (3, 0)
  | .window _ => (4, 0)

/-- The index of the request served next: lowest kind, then lowest slot, then earliest arrival (R156). -/
def svcPick : List SvcReq → Option Nat
  | [] => none
  | r :: rs => match svcPick rs with
    | none => some 0
    | some k =>
      let a := svcRank r
      let b := svcRank (rs.getD k r)
      if a.1 < b.1 ∨ (a.1 = b.1 ∧ a.2 ≤ b.2) then some 0 else some (k + 1)

/-- One word of a landing or tagged write at a tile, in cycle `c`: shadow or local store; none where the shadow line it needs is
not available (R558). A tag unrelated to that of another line of the block is a conflict, logged for group 0 (R549, R554; DESIGN
CHOICE, assumption 106). -/
def State.landWord (s : State) (t c off : Nat) (mark : Marker) (w : TWord) : Option State :=
  match viewMark (s.til t).view mark with
  | .none => some (s.sramPut t off w)
  | .dead => some s
  | .tag tag =>
    match s.storeConflict t off tag with
    | some b => some (s.conflict t 0 tag b c)
    | none =>
      if shadowNeed (s.til t) tag [off] ≤ shadowFree (s.til t) then
        some (s.setTil t ((shadowWrite (s.til t) off tag w).noteShadow (s.til t) c))
      else none

/-- Words of one item written in cycle `c` from an offset on, as many as find the shadow lines they need (R558): the state, and how
many. -/
def State.landWords (s : State) (t c off : Nat) (mark : Marker) : List TWord → State × Nat
  | [] => (s, 0)
  | w :: ws => match s.landWord t c off mark w with
    | none => (s, 0)
    | some s' =>
      let r := s'.landWords t c (off + 4) mark ws
      (r.1, r.2 + 1)

/-- The offsets of the words that an RSTORE writes. -/
def Packet.storeOffs (p : Packet) : List Nat :=
  ((List.range 16).filter fun j => p.mask.testBit j).map fun j => p.addr % 2 ^ 16 / 64 * 64 + 4 * j

/-- The offsets of the block that an RLOAD reads. -/
def Packet.loadOffs (p : Packet) : List Nat := (List.range 16).map fun j => p.addr % 2 ^ 16 / 64 * 64 + 4 * j

/-- An RSTORE performed at the service port from cycle `c` on, or refused where its shadow lines are not free (R222, R558). -/
def State.performStore (s : State) (t c : Nat) (p : Packet) : State :=
  let offs := p.storeOffs
  let word (o : Nat) : TWord := p.body.getD (o % 64 / 4) { w := 0 }
  let done := s.headAt t (s.after t c (blocks16 offs - 1))
  match viewMark (s.til t).view p.mark with
  | .dead => s.ackStore t p done
  | .none => (s.each offs fun s o => s.sramPut t o (word o)).ackStore t p done
  | .tag tag =>
    if shadowNeed (s.til t) tag offs ≤ shadowFree (s.til t) then
      (s.each offs fun s o => (s.landWord t c o p.mark (word o)).getD s).ackStore t p done
    else s.refuseAccess t p 0 done

/-- A remote load served in cycle `c`: its block leaves 2 executed cycles later as RDATA, or as RPOISON where a word is
uncorrectable (R159, R177). -/
def State.performLoad (s : State) (t c : Nat) (p : Packet) : State :=
  let ws := p.loadOffs.map fun o => s.sramWord t o
  let s := s.readEcc t p.loadOffs
  s.respond t p { id := 0, ty := if ws.any (·.bad) then .rpoison else .rdata, len := 4, dest := p.src, src := t
                  at_ := t, sslot := p.sslot, gen := p.gen, body := ws, group := p.group, since := s.headAt t (s.after t c 1) }

/-- A window access served (R183): the answer goes back as KRESP, the word of a read as its body (R337). -/
def State.performWindow (s : State) (t c : Nat) (p : Packet) : State :=
  let answer (s : State) (status : Nat) (body : List TWord) : State :=
    s.respond t p { id := 0, ty := .kresp, wafer := true, len := body.length, dest := p.src, src := t, at_ := t, body := body
                    status := status, req := p.req, addr := p.addr, since := s.headAt t (s.after t c 1) }
  match p.write with
  | none =>
    let status := s.windowStatus t p.addr
    answer (s.windowEcc t p.addr) status [{ w := s.windowRead t p.addr, bad := decide (status = 2) }]
  | some w =>
    if s.windowMayWrite t then answer (s.windowWrite t p.addr w) 0 []
    else answer (s.refuse (fieldOf t) (p.req.getD .block) (globalOf t p.addr)) 1 []

/-- Up to 4 words of an item landed in cycle `c`: each written word is popped and credited; the rest keeps its place, and after the
last the item's completion is due (R258, R259). `k` is the request's place in the queue. -/
def State.performLanding (s : State) (t c k slot addr : Nat) (ws : List TWord) (tail : Bool) (mark : Marker) : State :=
  let ready := (((s.slot t slot).queue.take (min 4 ws.length)).takeWhile fun w => decide (w.stamp < c)).length
  let r := s.landWords t c addr mark (ws.take ready)
  let s := r.1
  let n := r.2
  let q := (s.slot t slot).queue
  let s := ((s.setQueue t slot c (q.drop n)).creditWords t slot c (q.take n)).poolEcc t (q.take n)
  let y := s.til t
  if ws.length ≤ n then
    let s := s.setTil t { y with svc := y.svc.eraseIdx k }
    if tail then s.setSlot t slot { s.slot t slot with doneDue := (s.slot t slot).doneDue ++ [mark] } else s
  else s.setTil t { y with svc := y.svc.set k (.landing slot (addr + 4 * n) (ws.drop n) tail mark) }

/-! ### The service port's turn -/

/-- The cycle in which a packet's last flit has come to its router (R342). -/
def State.tailCycle (s : State) (p : Packet) : Nat := s.cycleOf (fieldOf p.at_) p.since + (p.flits - 1)

/-- The packet of a service request. -/
def SvcReq.packet : SvcReq → Option Packet
  | .store p | .load p | .window p => some p
  | _ => none

/-- The cycle from which a request waits at the service port: a landed word can be popped from the cycle after its push (R270). -/
def State.svcFrom (s : State) (t : Nat) : SvcReq → Nat
  | .landing k .. => match (s.slot t k).queue with
    | w :: _ => w.stamp + 1
    | [] => 0
  | .flag .. => 0
  | .store p | .load p | .window p => s.tailCycle p

/-- Whether a tagged write of a word finds the shadow line it needs (R558). -/
def State.landable (s : State) (t off : Nat) (mark : Marker) : Bool :=
  match viewMark (s.til t).view mark with
  | .tag tag => (s.storeConflict t off tag).isSome || decide (shadowNeed (s.til t) tag [off] ≤ shadowFree (s.til t))
  | _ => true

/-- Whether a request may be served, those in `before` being ahead of it in the queue: a landing or a flag where words are pushed and
popped (R283) and its shadow line is available (R558), a slot's next item after the flag of the one before (R259), and an access of
a tile after that tile's earlier ones (R245). -/
def State.svcMay (s : State) (t : Nat) (before : List SvcReq) (r : SvcReq) : Bool :=
  let ph := (s.fld (fieldOf t)).phase
  let moves := decide (ph = .work) || decide (ph = .settle) || decide (ph = .commit)
  match r with
  | .flag _ addr _ mark => moves && s.landable t addr mark
  | .landing k addr _ _ mark => moves && s.landable t addr mark &&
      (decide (s.gf F.chnSlotDone_mode t k = 0) || decide ((s.slot t k).doneDue = [])) &&
      before.all fun q => match q with
        | .flag j .. => decide (j ≠ k)
        | .landing j .. => decide (j ≠ k)
        | _ => true
  | _ => (before.filterMap SvcReq.packet).all fun q => !(r.packet.any fun p => p.inOrder q)

/-- The requests that may be served, each with its place in the queue. -/
def State.svcWaiting (s : State) (t : Nat) : List (Nat × SvcReq) :=
  let q := (s.til t).svc
  ((List.range q.length).zip q).filter fun e => s.svcMay t (q.take e.1) e.2

/-- The next service access: its cycle, the request's place, and the request (R156). -/
def State.svcNext (s : State) (t : Nat) : Option (Nat × Nat × SvcReq) :=
  let l := s.svcWaiting t
  (minOf (l.map fun e => s.svcFrom t e.2)).bind fun first =>
    let c := skipStretch (s.til t).stretches (max first (max (s.cycle (fieldOf t)) (s.til t).svcFree))
    let now := l.filter fun e => decide (s.svcFrom t e.2 ≤ c)
    (svcPick (now.map (·.2))).bind fun i => now[i]?.map fun e => (c, e)

/-- The words of tile SRAM that serving a request touches (R157). -/
def svcTouches : SvcReq → List Nat
  | .landing _ addr ws _ _ => (List.range (min 4 ws.length)).map fun j => addr + 4 * j
  | .flag _ addr _ _ => [addr]
  | .store p => p.storeOffs
  | .load p => p.loadOffs
  | .window p => [p.addr / 4 * 4]

/-- The words that the instruction a tile issues next reads or writes through the core port, and the cycle it issues in (R156). -/
def State.coreNext (s : State) (t : Nat) : Option (Nat × List Nat) :=
  (s.scan t).bind fun g => match s.nextOf t g with
    | .go c i =>
      let x := s.mkCtx t g c i
      if settleStart (s.fld (fieldOf t)) ≤ c ∨ ((s.breakAt t g).isSome ∧ (s.grp t g).skipBreak = false) ∨ x.quiet = true then none
      else match i with
        | .loc _ _ _ _ a woff => some (c, x.lanes.map (x.offset a woff))
        | .sendm _ _ _ _ ua _ n1 => if x.em = 0 then none
            else some (c, (List.range (n1.toNat + 1)).map fun j => (x.grp.uni ua.toNat).toNat + 4 * j)
        | .rem op _ _ _ ap _ => if op = .rst then none
            else some (c, ((x.lanes.map (pairAddr x.grp ap.toNat)).filter fun a => addrSpace a = 0 && addrTile a = t).map (· % 2 ^ 16))
        | _ => none
    | _ => none

/-- Whether the core port touches one of some words no later than cycle `c`, so that it acts first (R157). -/
def State.coreFirst (s : State) (t c : Nat) (offs : List Nat) : Bool :=
  match s.coreNext t with
  | some (k, l) => decide (k ≤ c) && l.any offs.contains
  | none => false

/-- The executed cycles for which a request occupies the service port, at 16 B each (R156). -/
def svcCycles : SvcReq → Nat
  | .store p => blocks16 p.storeOffs
  | .load _ => 4
  | _ => 1

/-- A service request served in cycle `c`; `k` is its place in the queue. -/
def State.serve (s : State) (t c k : Nat) (r : SvcReq) : State :=
  let y := s.til t
  let s := s.setTil t { y with svcFree := s.after t c (svcCycles r) }
  let rest := s.setTil t { s.til t with svc := y.svc.eraseIdx k }
  match r with
  | .store p => rest.performStore t c p
  | .load p => rest.performLoad t c p
  | .window p => rest.performWindow t c p
  | .flag _ addr v mark => (rest.landWord t c addr mark { w := BitVec.ofNat 32 v }).getD s
  | .landing slot addr ws tail mark => s.performLanding t c k slot addr ws tail mark

/-- SERVICE_PORT_ACCESS (R156-R159, R245, R258, R259, R272, R558): the highest-priority waiting request is served, in the first
executed cycle in which the port is free for it; where the core port touches its words first, it waits. -/
def execServicePortAccess (t : Nat) (s : State) : Host.Outcome State Fault Refusal :=
  onTile t (match s.svcNext t with
    | none => s
    | some (c, k, r) => if s.coreFirst t c (svcTouches r) then s else s.serve t c k r)

/-! ### Acknowledgements -/

/-- Held operations of a group whose earlier RSTs have all been performed (R232, R235). -/
def State.releasable (s : State) (t g : Nat) : List HeldOp :=
  (s.til t).held.filter fun h => h.group = g && (s.grp t g).rstOut.all fun n => h.bound ≤ n

/-- A buoy operation leaves the tile for its bay port, after its FAR packet where it has one (R389, R390). -/
def State.postBuoy (s : State) (t : Nat) (m : BuoyMsg) (far : Option Nat) : State :=
  let base : Packet := { id := 0, ty := .buoyOp, control := true, dest := bayPort (bayOf t), src := t, at_ := t
                         group := m.group }
  let s := match far with
    | some f => s.inject t { base with far := some f }
    | none => s
  s.inject t { base with buoy := some m }

/-- Releases what the group's performed stores no longer hold back; a released item's head enters the router in the cycle after
(R263). -/
def State.releaseHeld (s : State) (t g : Nat) : State :=
  let hs := s.releasable t g
  let y := s.til t
  let s := s.setTil t { y with held := y.held.filter fun h => !hs.contains h }
  s.each hs fun s h => match h.op with
    | some m => s.postBuoy t m h.far
    | none => match s.pkt (h.pkt - 1) with
      | some q => s.setPkt { q with since := max q.since (s.headAt t (s.cycle (fieldOf t))) }
      | none => s

/-- ACK (R222, R235): the store is performed; held buoy operations and R = 1 sends may follow. -/
def execAck (id : Nat) (s : State) : Host.Outcome State Fault Refusal :=
  match s.arrived id .ack with
  | none => .next s
  | some p =>
    let g := s.grp p.at_ p.group
    let s := s.dropPkt id
    let s := s.setGrp p.at_ p.group { g with rstOut := g.rstOut.filter (· ≠ p.serial) }
    .next (s.releaseHeld p.at_ p.group)

/-- NACK (R225): the group traps with REMOTE_REFUSED on its RST. -/
def execNack (id : Nat) (s : State) : Host.Outcome State Fault Refusal :=
  match s.arrived id .nack with
  | none => .next s
  | some p =>
    let s := s.dropPkt id
    if (s.grp p.at_ p.group).rstOut.contains p.serial then .next (s.trap p.at_ p.group (s.tileCycle p.at_) 0x06 p.pc p.full) else .next s

/-! ### Window accesses -/

/-- The completion of an access, as its requester sees it: 0 good, 1 Completer Abort or bus error, 2 poisoned. -/
def State.answer (s : State) (req : Requester) (status : Nat) (w : Word) : State :=
  { s with answers := mput s.answers req (status, w) }

/-- A window request for a word of a tile's SRAM (R183, R336, R337): it enters the mesh at the bay port of the tile's own bay, which
its Keeper uses (R329; DESIGN CHOICE, assumption 105). -/
def State.windowPacket (s : State) (req : Requester) (t off : Nat) (write : Option Word) : Packet :=
  { id := 0, ty := .kaccess, vc := 2, wafer := true, parity := s.parity (fieldOf t), len := b2n write.isSome, dest := t
    src := bayPort (bayOf t), at_ := bayPort (bayOf t), addr := off, body := write.toList.map fun w => { w := w }
    req := some req, write := write }

/-- The window request, ejected at its tile, that an access is. -/
def State.windowHere (s : State) (req : Requester) (t off : Nat) (write : Option Word) : Option Packet :=
  s.packets.find? fun p => decide (p.ty = .kaccess ∧ p.st = .ejected ∧ p.at_ = t ∧ p.addr = off ∧ p.req = some req ∧ p.write = write)

/-- KACCESS (R9, R21, R156, R183, R826): a window request for a word of a tile's SRAM goes out on VC2; one that has reached its tile
waits for the service port. A tile the wafer does not have, an access of another size, or one that the state of the field bars
completes as an abort or a bus error, and is logged; reads of a fogged field go over its configuration chain (R773, R850). -/
def execKaccess (req : Requester) (t : Nat) (access : SizedAccess) (write : Option Word) (s : State) :
    Host.Outcome State Fault Refusal :=
  let off := access.addr
  .next (
    if isTile t = false ∨ access.size ≠ 4 ∨ off % 4 ≠ 0 ∨ s.barred (fieldOf t) (0xA4000 + off) write.isSome = true then
      (s.refuse (if isTile t then fieldOf t else 64) req (globalOf t off)).answer req 1 0
    else if (s.fld (fieldOf t)).fogged then
      if s.darkTile t then s.answer req 0 0
      else (s.windowEcc t off).answer req (s.windowStatus t off) (s.windowRead t off)
    else match s.windowHere req t off write with
      | none => s.addPkt (s.windowPacket req t off write)
      | some p =>
        if s.storeFull t then s.stall t
        else (s.dropPkt p.id).setTil t { s.til t with svc := (s.til t).svc ++ [.window p] })

/-- A window request of a Keeper or the host that reaches a tile's service port, behind what waits there (R183). -/
def State.queueWindow (s : State) (req : Requester) (t off : Nat) (write : Option Word) : State :=
  let p := { s.windowPacket req t off write with at_ := t, st := .ejected, since := s.now }
  if s.storeFull t then s.addPkt p
  else s.setTil t { s.til t with svc := (s.til t).svc ++ [.window p] }

/-- Whether a window request finds a tile's service port with nothing to wait for (R156, R157, R183). -/
def State.portIdle (s : State) (t off : Nat) : Bool :=
  decide ((s.til t).svc = []) && !s.coreFirst t (s.cycle (fieldOf t)) [off / 4 * 4]

/-- KRESP (R183): the response has returned and completes the access; the requester latches it (`State.answers`). -/
def execKresp (id : Nat) (s : State) : Host.Outcome State Fault Refusal :=
  match s.arrived id .kresp with
  | none => .next s
  | some p => .next ((s.dropPkt id).answer (p.req.getD .block) p.status (p.body.headD { w := 0 }).w)

end Sys2Proof.Machine
end

