-- ==== Sys2Proof/Machine/TileSend.lean ====
section
/-! DEFINITION. Channel sends and buoy instructions of the tile (R227-R236, R261-R263, R389-R397, R559). -/

namespace Sys2Proof.Machine

/-! ### Sends -/

/-- An out-slot's credits and send-buffer room change by `n` words at each destination, from cycle `c`. -/
def Slot.noteCredit (x : Slot) (c : Nat) (n room : Int) : Slot :=
  { x with creditLog := ((List.range x.credits.length).map fun d => (d, c, n)) ++ x.creditLog, roomLog := (c, room) :: x.roomLog }

/-- An out-slot's credits spent in cycle `c` on an item of `n` words, at every destination, and its room taken (R263, R266). -/
def State.spendCredit (s : State) (t k c n : Nat) : State :=
  let x := s.slot t k
  s.setSlot t k { x.noteCredit (c + 1) (-n) (-n) with credits := x.credits.map fun c => c - n }

/-- An item written in cycle `c` into the send buffer of out-slot `k` (index 16–31), its credit spent (R231, R252, R263); its head
may enter the router from the instant `since`, or from the executed cycle after the tile's present one. -/
def State.bufferItem (s : State) (t k g c : Nat) (addr : Nat) (mark : Marker) (ws : List TWord) (since : Nat := 0)
    (token : Option (Nat × Nat) := none) : State :=
  let s := s.spendCredit t k c ws.length
  let id := s.nextPkt
  let s := s.inject t { id := 0, ty := .item, vc := s.gf F.chnSlotCfg_kind t k, dest := s.gf F.chnSlotDest_tile t k
                        src := t, at_ := t, st := .buffered, mcast := s.gf F.chnSlotCfg_landing t k = 1
                        len := ceilDiv ws.length 4, dslot := s.gf F.chnSlotDest_dslot t k, sslot := k - 16
                        addr := addr % 2 ^ 30, body := ws, mark := mark, group := g, full := ws.length, since := since
                        token := token }
  let x := s.slot t k
  s.setSlot t k { x with sendBuf := x.sendBuf ++ [id] }

/-- An item sent by a group: with R = 1 it is held until the group's earlier RSTs are performed (R232). -/
def State.sendItem (s : State) (x : Ctx) (slot : Nat) (r : Bool) (addr : Nat) (mark : Marker) (ws : List TWord) :
    State :=
  let id := s.nextPkt
  let s := s.bufferItem x.t (16 + slot) x.g x.cyc addr mark ws
  let g := s.grp x.t x.g
  let s := s.setGrp x.t x.g { g with sendsOut := g.sendsOut + 1 }
  if r = true ∧ g.rstOut ≠ [] then
    let y := s.til x.t
    s.setTil x.t { y with held := y.held ++ [{ group := x.g, bound := g.nextSerial, pkt := id + 1 }] }
  else s

/-- SENDW and SENDV (R227-R229, R262): one word, or one word for each active lane. -/
def sendBody (x : Ctx) (s : State) : State :=
  match x.inst with
  | .send vec _ _ slot r src ul =>
    let s := s.retire x 1
    let s := s.setGrp x.t x.g (s.grp x.t x.g).bumpPc
    if x.dead ∨ x.conflict.isSome ∨ x.em = 0 then s
    else
      let word (w : Word) : TWord := { w := w, mark := x.mark }
      s.sendItem x slot.toNat r (x.grp.uni ul.toNat).toNat x.mark
        (if vec then x.lanes.map fun k => word (x.operand src k) else [word (x.single src)])
  | _ => s

/-- SENDM (R227, R230): N1 + 1 words of local store, read whole before any leaves. -/
def sendmBody (x : Ctx) (s : State) : State :=
  match x.inst with
  | .sendm _ _ slot r ua ul n1 =>
    let base := (x.grp.uni ua.toNat).toNat
    let offs := (List.range (n1.toNat + 1)).map fun j => base + 4 * j
    let idle := x.dead ∨ x.em = 0
    match (if idle then none else (s.localFault x.t offs).or (s.poisonFault x.t offs)) with
    | some (c, a) => s.issueTrap x.t x.g x.cyc c a
    | none =>
      let ws := offs.map fun o => s.loadWord x.t o
      let s := (if idle then s else s.readEcc x.t offs).retire x (if idle then 1 else blocks16 offs)
      let s := s.setGrp x.t x.g (s.grp x.t x.g).bumpPc
      if idle ∨ x.conflict.isSome then s
      else
        let r' := s.combineAll x.sec (x.mark :: ws.flatMap (·.2.1))
        match r'.2 with
        | some (a, b) => s.conflict x.t x.g a b x.cyc
        | none =>
          if r'.1 = .dead then s
          else
            s.sendItem x slot.toNat r (x.grp.uni ul.toNat).toNat r'.1
              (ws.map fun w => { w := w.1, mark := r'.1 })
  | _ => s

/-- SENDW (R227). -/
def execSendw (t g : Nat) (s : State) : Host.Outcome State Fault Refusal := onGroup t g (issueAs t g .sendw sendBody s)
/-- SENDV (R227). -/
def execSendv (t g : Nat) (s : State) : Host.Outcome State Fault Refusal := onGroup t g (issueAs t g .sendv sendBody s)
/-- SENDM (R227, R230). -/
def execSendm (t g : Nat) (s : State) : Host.Outcome State Fault Refusal := onGroup t g (issueAs t g .sendm sendmBody s)

/-! ### Buoy instructions -/

/-- Operation of a buoy instruction (R384). -/
def buoyOpOf : BOp → BuoyOp
  | .badd | .barrive => .add
  | .bset => .set
  | .bclear => .clear
  | .bawaitge => .watchGe
  | .bawaitflag => .watchFlag

/-- Operand of a buoy instruction (R234, R384). -/
def Ctx.buoyOperand (x : Ctx) (op : BOp) (v : BitVec 6) : Nat :=
  match op with
  | .barrive => 1
  | .bclear | .bawaitflag => 0
  | _ => (x.single v).toNat % 2 ^ 24

/-- The message of a buoy instruction, and the field of its FAR packet. -/
def State.buoyMsgOf (s : State) (x : Ctx) : Option (BuoyMsg × Option Nat) :=
  match x.inst with
  | .buoy op _ _ name v => (buoyTarget x.grp x.t name).map fun b =>
      ({ op := buoyOpOf op, block := b.1, index := b.2.1, operand := x.buoyOperand op v, tile := x.t, group := x.g
         sector := x.sec, parity := s.parity x.f }, b.2.2)
  | _ => none

/-- A posted buoy operation leaves at once, or is held behind the group's stores (R235, R391). -/
def State.releaseBuoy (s : State) (t : Nat) (m : BuoyMsg) (far : Option Nat) : State :=
  let g := s.grp t m.group
  if g.rstOut = [] then s.postBuoy t m far
  else
    let y := s.til t
    s.setTil t { y with held := y.held ++ [{ group := m.group, bound := g.nextSerial, op := some m, far := far }] }

/-- BADD, BARRIVE, BSET, BCLEAR (R233-R235, R559): a tagged operation takes a shadow line until its tag resolves. -/
def postBody (x : Ctx) (s : State) : State :=
  let idle := x.dead ∨ x.em = 0
  match s.buoyMsgOf x with
  | none => if idle then
      let s := s.retire x 1
      s.setGrp x.t x.g (s.grp x.t x.g).bumpPc
    else s.issueTrap x.t x.g x.cyc 0x05 0
  | some (m, far) =>
    let s := s.retire x 1
    let s := s.setGrp x.t x.g (s.grp x.t x.g).bumpPc
    if idle ∨ x.conflict.isSome then s
    else
      let g := s.grp x.t x.g
      let s := s.setGrp x.t x.g { g with opsOut := g.opsOut + 1 }
      match x.mark with
      | .tag tag =>
        let y := s.til x.t
        match freeLine y with
        | some k => s.setTil x.t (({ y with
            shadow := mput y.shadow k { tag := tag, op := some m, far := far, bound := g.nextSerial
                                        order := y.shadowOrder }
            shadowOrder := y.shadowOrder + 1 } : Tile).noteShadow y x.cyc)
        | none => s
      | _ => s.releaseBuoy x.t m far

/-- BAWAITGE and BAWAITFLAG (R236, R397): the await retires and empties the latch; a register outside the ranges
traps (R233). -/
def awaitBody (x : Ctx) (s : State) : State :=
  if (s.buoyMsgOf x).isNone ∧ ¬(x.dead ∨ x.em = 0) then s.issueTrap x.t x.g x.cyc 0x05 0
  else
    let s := s.retire x 1
    let g := s.grp x.t x.g
    s.setGrp x.t x.g { g with latch := .empty, latchAt := 0, watchSent := false }.bumpPc

/-- BADD (R234). -/
def execBadd (t g : Nat) (s : State) : Host.Outcome State Fault Refusal := onGroup t g (issueAs t g .badd postBody s)
/-- BARRIVE (R384). -/
def execBarrive (t g : Nat) (s : State) : Host.Outcome State Fault Refusal :=
  onGroup t g (issueAs t g .barrive postBody s)
/-- BSET (R234). -/
def execBset (t g : Nat) (s : State) : Host.Outcome State Fault Refusal := onGroup t g (issueAs t g .bset postBody s)
/-- BCLEAR (R384). -/
def execBclear (t g : Nat) (s : State) : Host.Outcome State Fault Refusal :=
  onGroup t g (issueAs t g .bclear postBody s)
/-- BAWAITGE (R236). -/
def execBawaitge (t g : Nat) (s : State) : Host.Outcome State Fault Refusal :=
  onGroup t g (issueAs t g .bawaitge awaitBody s)
/-- BAWAITFLAG (R236). -/
def execBawaitflag (t g : Nat) (s : State) : Host.Outcome State Fault Refusal :=
  onGroup t g (issueAs t g .bawaitflag awaitBody s)

/-- The await that is a group's next instruction and waits for its latch. -/
def State.waitingAwait (s : State) (t g : Nat) : Option Ctx :=
  match s.nextOf t g with
  | .stuck c 5 => match decodeTile (s.fetched t (s.grp t g).pc (s.fetchCycle t)).w with
    | some i => some (s.mkCtx t g c i)
    | none => none
  | _ => none

/-- WATCH_RELEASE (R395): an await has become the group's next instruction and the latch is empty: its WATCH leaves;
BAWAITGE with operand 0 fills the latch at once. -/
def execWatchRelease (t g : Nat) (s : State) : Host.Outcome State Fault Refusal :=
  onGroup t g (match s.waitingAwait t g with
    | none => s
    | some x =>
      let y := s.grp t g
      if y.latch ≠ .empty ∨ y.watchSent = true then s
      else match s.buoyMsgOf x with
        | none => s
        | some (m, far) =>
          if m.op = .watchGe ∧ m.operand = 0 then s.setGrp t g { y with latch := .met }
          else (s.setGrp t g { y with watchSent := true }).postBuoy t m far)

end Sys2Proof.Machine
end

