-- ==== Sys2Proof/Machine/Mesh.lean ====
section
/-! DEFINITION. The mesh: light lists, dimension order, boundary ports, discards, multicast, epochs, credits
(spec/07_mesh_and_routing.md), with the buffers, virtual channels and arbitration of its routers. A packet moves one router at
a time, its body behind its head (assumption 99). -/

namespace Sys2Proof.Machine

/-! ### Epoch groups (R363-R369) -/

/-- Whether two sectors share an epoch group, as `BUY_SECTOR_GROUP` in field `f` has it (R285, R412). A sector with no group entry is
a group of its own. -/
def State.epochMates (s : State) (f a b : Nat) : Bool :=
  decide (a = b) || (decide (s.gf F.buySectorGroup_group f a ≠ 0xFFF) &&
    decide (s.gf F.buySectorGroup_group f a = s.gf F.buySectorGroup_group f b))

/-- The sectors of a field that share a sector's epoch group. -/
def State.epochGroup (s : State) (f sec : Nat) : List Nat :=
  sec :: (s.sectorsIn f).filter fun k => decide (k ≠ sec) && s.epochMates f sec k

/-- The sectors of the wafer that share a sector's epoch group, as field `f` has it. -/
def State.epochSectors (s : State) (f sec : Nat) : List Nat :=
  sec :: (s.sectors.map (·.1)).filter fun k => decide (k ≠ sec) && s.epochMates f sec k

/-- An armed flip of a field that will not reach its HANDOVER is dropped (R368, R822). -/
def State.dropArms (s : State) (f : Nat) : State :=
  let s := s.each ((s.fld f).armed.map (·.1)) fun s k => s.sf F.mshEpoch_armed f k 0
  if (s.fld f).armed = [] then s else s.setFld f { s.fld f with armed := [] }

/-- Whether a flip is in progress for a sector's group in a field. -/
def State.flipping (s : State) (f sec : Nat) : Bool := s.flag F.mshEpoch_flipping f sec

/-- Old-epoch heads gone from a field, or come to it (R369), of a sector of the group that may have no tile there; FLIPPING clears at
0. -/
def State.oldHeads (s : State) (f : Nat) (p : Packet) (gone come : Nat) : State :=
  if p.wafer then s
  else s.each ((s.sectorsIn f).filter fun k => s.epochMates f p.sector k && s.flipping f k && p.epoch != s.epochOf f k) fun s sec =>
    let n := s.gf F.mshOldEpochCount_count f sec + come - gone
    let s := s.sf F.mshOldEpochCount_count f sec n
    if n = 0 then s.sf F.mshEpoch_flipping f sec 0 else s

/-! ### The light list (R347-R348) -/

/-- Whether light-list entry `k` of a router matches a packet (R348). -/
def State.entryMatches (s : State) (t k : Nat) (p : Packet) : Bool :=
  let multi := s.flag F.mshLlEntry_kind t k
  let dest := s.gf F.mshLlEntry_dest t k
  let inp := s.gf F.mshLlEntry_in t k
  s.flag F.mshLlEntry_valid t k && s.flag F.mshLlEntry_plane t k == p.control &&
    (if multi then p.mcast && decide (dest % 4096 = p.dest)
     else !p.mcast &&
      (if s.flag F.mshLlEntry_dscope t k then decide (bayOf dest = bayOf p.dest) else decide (dest = p.dest)) &&
      decide (inp = 7 ∨ inp = dirNum p.inPort) &&
      (p.control || !s.flag F.mshLlEntry_sscope t k || decide (s.gf F.mshLlEntry_src_bay t k = bayOf p.src))) &&
    s.flag F.mshLlEntry_wafer t k == p.wafer

/-- The first matching entry of the copy that a packet's EPOCH names; wafer traffic uses copy 0 (R363). -/
def State.lookup (s : State) (t : Nat) (p : Packet) : Option Nat :=
  ((List.range 32).map fun e => b2n (p.epoch && !p.wafer) * 32 + e).find? fun k => s.entryMatches t k p

/-- What a router does with a head: discard it as a misroute, send it by one port, or fork it (R348, R377). -/
inductive Routing where
  | discard
  | one (d : Dir)
  | fork (outs : List Dir) (didx : Nat)
  deriving DecidableEq, Repr

/-- The routing of a head at a router (R346, R348, R377). -/
def State.routing (s : State) (t : Nat) (p : Packet) : Routing :=
  match p.ty with
  | .reserved _ => .discard
  | _ =>
    if (p.mcast && decide (p.ty ≠ .item)) = true ∨ 64 < p.len then .discard
    else if p.mcast = false ∧ p.dest = t then .one .l
    else match s.lookup t p with
      | some k =>
        if s.flag F.mshLlEntry_kind t k then
          .fork (([Dir.n, .e, .s, .w, .l]).filter fun d => (s.gf F.mshLlEntry_fork t k).testBit (dirNum d))
            (s.gf F.mshLlEntry_didx t k)
        else if 4 ≤ s.gf F.mshLlEntry_out t k then .discard
        else .one (dirOf (s.gf F.mshLlEntry_out t k))
      | none => if p.mcast then .discard else .one (dimensionOrder p.control t p.dest)

/-- Whether a link is fenced: it faces a fogged field (R848). -/
def State.fenced (s : State) (t : Nat) (d : Dir) : Bool :=
  match neighbour t d with
  | some n => decide (fieldOf n ≠ fieldOf t) && (s.fld (fieldOf n)).fogged
  | none => false

/-- Whether an output cannot be used: dark, fenced, or the rim for other than wafer traffic by a WAFER entry (R352,
R377, R848). -/
def State.outputDark (s : State) (t : Nat) (d : Dir) (p : Packet) : Bool :=
  if d = .l then false
  else if (neighbour t d).isNone then !(p.wafer && (s.lookup t p).isSome)
  else s.linkDark t (dirNum d) || s.fenced t d

/-! ### Discards -/

/-- The completion that a router itself returns for a request it discards, from its completion place (R361). -/
def State.routerCompletion (s : State) (at_ : Nat) (p : Packet) : State :=
  if p.ty = .rload ∨ p.ty = .rstore then s.refuseAccess at_ p 2 else s

/-- A head discarded as a misroute at a router, or at one branch of its fork (R357, R377, R848, R867). -/
def State.misroute (s : State) (at_ : Nat) (d : Dir) (p : Packet) : State :=
  let s := s.bump .mshCountMisroute at_ 0 1
  let s := s.hset F.mshStatus_misroute at_ 0
  let s := s.logEv evMisroute (fieldOf at_) at_ (detail2 p.dest p.src)
  let f := fieldOf at_
  let s := if s.fenced at_ d = true ∧ (s.fld f).fenceLogged = false then
      (s.setFld f { s.fld f with fenceLogged := true }).logEv evFenceDiscard f at_ (dirNum d)
    else s
  let s := if s.fenced at_ d then s.bump .fkpCountFence f 0 p.flits else s
  s.routerCompletion at_ p

/-- Whether a boundary port accepts a packet (R360). -/
def State.boundaryOk (s : State) (t port : Nat) (p : Packet) : Bool :=
  let own := s.sectorOf t
  let linked := s.flag F.mshPortCfg_linked t port
  if !s.flag F.mshPortCfg_boundary t port || p.wafer then true
  else if p.control then linked
  else (decide (p.sector = own) || (linked && decide (p.sector = s.gf F.mshPortCfg_neighbour t port))) &&
    (decide (p.sector = own) || !(match p.mark with | .tag _ => true | _ => false))

/-- A packet discarded at a boundary port (R361). -/
def State.boundaryDrop (s : State) (t port : Nat) (p : Packet) : State :=
  let s := s.bump .mshCountBoundaryDrop t 0 1
  let s := s.hset F.mshStatus_boundary_drop t 0
  let s := s.logEv evBoundaryDrop (fieldOf t) t (detail2 port p.sector)
  s.routerCompletion t p

/-- Whether the completion that a router would return for a packet finds its completion place free (R361). -/
def State.completionFree (s : State) (t : Nat) (p : Packet) : Bool :=
  decide (p.ty ≠ .rload ∧ p.ty ≠ .rstore) || !(s.packets.any fun q =>
    decide (q.st = .flying ∧ q.lPlace = 2 ∧ q.at_ = t ∧ q.inPort = .l) && q.control == decide (p.ty = .rstore))

/-! ### One hop -/

/-- The instant at which a head leaves its router, where nothing stands in its way: not in a stretched cycle (R332). -/
def State.departs (s : State) (p : Packet) : Nat :=
  let x := s.fld (fieldOf p.at_)
  let t := max s.now p.since
  let c := s.cycleOf (fieldOf p.at_) t
  if x.phase ≠ .idle ∧ (s.til p.at_).stretches.contains c = true then cycleInstant x (c + 1) else t

/-- The ticks that a head takes for a hop of `n` cycles, of all that it has taken (R341). -/
def State.hopTicks (s : State) (p : Packet) (n : Nat) : Nat :=
  let mhz := (s.fld (fieldOf p.at_)).mhz
  let m := if mhz = 0 then 1000 else mhz
  ceilDiv ((p.hops + n) * 1000) m - ceilDiv (p.hops * 1000) m

/-- The instant at which a head that goes from router `p.at_` to `n` by port `d` is there: between fields at different clock levels 1–4
cycles of the receiving field later, and behind what has crossed the edge before it (R334, R341; assumption 107). -/
def State.arrives (s : State) (p : Packet) (d : Dir) (n : Nat) : Nat :=
  let t := s.departs p + s.hopTicks p (hopTime p.inPort d)
  let mhz := (s.fld (fieldOf n)).mhz
  if (s.fld (fieldOf p.at_)).mhz = mhz then t
  else
    let late := t + ceilDiv ((1 + Config.edgeDelay s.fresh % 4) * 1000) (max 1 mhz)
    (s.packets.filter fun q => decide (q.st = .flying ∧ q.at_ = n ∧ q.inPort = opposite d) && q.control == p.control).foldl
      (fun a q => max a q.since) late

/-- A copy of a packet leaves router `at_` by port `d`: to the tile itself, to a neighbour, or to the rim. `link` is
what the link does to it (R339, R361, R378). What a boundary port does not accept waits at its input where the completion it
needs has no place (R361). -/
def State.leaveBy (s : State) (p : Packet) (d : Dir) (didx : Nat) (link : LinkState) : State :=
  let at_ := p.at_
  let s := s.bump .mshCountFlits at_ 0 p.flits
  match neighbour at_ d with
  | none =>
    let s := s.oldHeads (fieldOf at_) p 1 0
    s.addPkt { p with st := .ejected, didx := didx, since := s.departs p }
  | some n =>
    let port := opposite d
    let q : Packet := { p with
      at_ := n, inPort := port, hops := p.hops + hopTime p.inPort d, since := s.arrives p d n
      trail := ((at_, p.inPort, d) :: p.trail).take 16 }
    let s : State := if (s.fld (fieldOf n)).mhz = (s.fld (fieldOf at_)).mhz then s else s.tickFresh
    let s := if fieldOf n = fieldOf at_ then s else s.oldHeads (fieldOf at_) p 1 0
    let lost (s : State) : State := if fieldOf n = fieldOf at_ then s.oldHeads (fieldOf at_) p 1 0 else s
    let enter (s : State) (q : Packet) : State :=
      let q := { q with refused := !s.boundaryOk n (dirNum port) q }
      if q.refused && s.completionFree n q then lost (s.boundaryDrop n (dirNum port) q)
      else (if fieldOf n = fieldOf at_ then s else s.oldHeads (fieldOf n) p 0 1).addPkt q
    let poison (s : State) : State :=
      (s.bump .mshCountLinkPoison n 0 1).hset F.mshStatus_link_fault n 0
    match link with
    | .headBad => (lost (poison s)).logEv evLinkFault (fieldOf n) n (detail2 (dirNum port) 0)
    | .corrected => enter (s.bump .mshCountLinkCorr n 0 1) q
    | .bodyBad k =>
      if p.control then lost (poison s)
      else enter (poison s) { q with
        body := ((List.range q.body.length).zip q.body).map fun jw =>
          if jw.1 / 4 = k then { jw.2 with bad := true } else jw.2 }
    | .good => enter s q

/-- An item leaves its send buffer and is counted. Each word's place is free when the flit that carries it leaves the tile, one a
cycle after the head, and the slot's next item follows its last flit (R263, R264, R296). -/
def State.leaveBuffer (s : State) (p : Packet) : State :=
  let k := 16 + p.sslot
  let t := p.src
  let x := s.slot t k
  let f := fieldOf t
  let c := s.cycleOf f (s.departs p)
  let freed := (List.range p.len).map fun j => (c + 1 + j, ((min 4 (p.body.length - 4 * j) : Nat) : Int))
  let s := s.setSlot t k { x with sendBuf := x.sendBuf.filter (· ≠ p.id), roomLog := freed.reverse ++ x.roomLog }
  let s := match (s.slot t k).sendBuf.head?.bind s.pkt with
    | some q => s.setPkt { q with since := max q.since (s.headAt t (c + p.len)) }
    | none => s
  let s := (s.bump .chnCountItems t k 1).bump .chnCountWords t k p.body.length
  if s.flag F.chnSlotCfg_source t k then s
  else
    let g := s.grp t p.group
    s.setGrp t p.group { g with sendsOut := g.sendsOut - 1 }

/-- Whether a buffered item may begin injection: first of its out-slot, with all of the one before it gone, and not held (R232,
R264). -/
def State.mayInject (s : State) (p : Packet) : Bool :=
  decide ((s.slot p.src (16 + p.sslot)).sendBuf.head? = some p.id) &&
    !((s.til p.src).held.any fun h => h.pkt = p.id + 1) &&
    !(s.packets.any fun q => decide (q.ty = .item ∧ q.st = .flying ∧ q.src = p.src ∧ q.sslot = p.sslot ∧ q.mcast = false ∧
      0 < q.wordsBehind))

/-- The routing of one head carried out. -/
def State.routeHead (s : State) (p : Packet) (link : LinkState) : State :=
  match s.routing p.at_ p with
  | .discard => ((s.dropPkt p.id).oldHeads (fieldOf p.at_) p 1 0).misroute p.at_ .l p
  | .one d =>
    if s.outputDark p.at_ d p then ((s.dropPkt p.id).oldHeads (fieldOf p.at_) p 1 0).misroute p.at_ d p
    else (s.dropPkt p.id).leaveBy p d 0 link
  | .fork outs didx =>
    let s := (s.dropPkt p.id).oldHeads (fieldOf p.at_) p 1 outs.length
    s.each outs fun s d =>
      if s.outputDark p.at_ d p then (s.oldHeads (fieldOf p.at_) p 1 0).misroute p.at_ d p
      else s.leaveBy p d didx link

/-- Whether a tile's routers are closed to new heads: a reset of the tile, its bay or its field is under way (R738). -/
def State.closedTile (s : State) (t : Nat) : Bool :=
  s.resets.any fun j => (decide (j.domain = 1) && decide (j.target = t)) ||
    (decide (j.domain = 2) && decide (j.target = bayOf t)) || (decide (j.domain = 3) && decide (j.target = fieldOf t))

/-- Whether a head must wait for a neighbour that is closed and not fenced off (R340, R738). -/
def State.mustWait (s : State) (p : Packet) : Bool :=
  let ahead (d : Dir) : Bool := match neighbour p.at_ d with
    | some n => s.closedTile n && !s.closedTile p.at_ && !s.fenced p.at_ d
    | none => false
  match s.routing p.at_ p with
  | .discard => false
  | .one d => ahead d
  | .fork outs _ => outs.any ahead

/-! ### Buffers, outputs and arbitration (R330, R331, R340, R343-R345, R357, R361) -/

/-- Places that other packets hold in the buffer of a packet's virtual channel at input `d` of router `t`. -/
def State.bufferUse (s : State) (p : Packet) (t : Nat) (d : Dir) : Nat :=
  sumNat (s.packets.map fun q =>
    if q.st = .flying ∧ q.id ≠ p.id ∧ q.sameChan p = true then
      (if q.at_ = t ∧ q.inPort = d then min 4 q.flits else 0) +
        sumNat ((q.segments.filter fun e => decide (e.1 = t ∧ e.2.1 = d)).map (·.2.2.2))
    else 0)

/-- Whether a head is the next of its input buffer. At an L port a router's completion goes first, then the response store, then
the tile's own sends (R361, R826). -/
def State.frontOf (s : State) (p : Packet) : Bool :=
  let same (q : Packet) : Bool := decide (q.st = .flying ∧ q.id ≠ p.id) && q.sameChan p
  let here (q : Packet) : Bool := same q && decide (q.at_ = p.at_ ∧ q.inPort = p.inPort)
  let before := s.packets.takeWhile (·.id ≠ p.id)
  !(s.packets.any fun q => same q && q.segments.any fun e => decide (e.1 = p.at_ ∧ e.2.1 = p.inPort)) &&
    (if p.inPort = .l then
      !(s.packets.any fun q => here q && decide (p.lPlace < q.lPlace)) &&
        !(before.any fun q => here q && decide (q.lPlace = p.lPlace))
    else !(before.any here))

/-- The outputs by which a head would go; none where it is to be discarded. -/
def State.outsOf (s : State) (p : Packet) : List Dir :=
  match s.routing p.at_ p with
  | .discard => []
  | .one d => if s.outputDark p.at_ d p then [] else [d]
  | .fork outs _ => outs.filter fun d => !s.outputDark p.at_ d p

/-- Whether a head can leave by an output: no other packet holds it on this virtual channel, and the next buffer has room (R340). -/
def State.clearTo (s : State) (p : Packet) (d : Dir) : Bool :=
  match neighbour p.at_ d with
  | none => true
  | some n =>
    !(s.packets.any fun q => decide (q.st = .flying ∧ q.id ≠ p.id) && q.sameChan p &&
      q.segments.any fun e => decide (e.1 = p.at_ ∧ e.2.2.1 = d)) &&
    decide (s.bufferUse p n (opposite d) + min 4 p.flits ≤ 4)

/-- Whether a head is ready to leave its router by all its outputs, or to be discarded there (R340, R357, R361, R738). -/
def State.headReady (s : State) (p : Packet) : Bool :=
  s.frontOf p && !s.mustWait p && (s.outsOf p).all (s.clearTo p) &&
    (decide (s.outsOf p ≠ []) || s.completionFree p.at_ p)

/-- The other heads that are ready to leave a head's router by an output on the same plane. -/
def State.contenders (s : State) (p : Packet) (d : Dir) : List Packet :=
  s.packets.filter fun q => decide (q.st = .flying ∧ q.at_ = p.at_ ∧ q.id ≠ p.id) && q.control == p.control && !q.refused &&
    (s.outsOf q).contains d && s.headReady q

/-- A head's wait: since when, then its input port (R344). -/
def Packet.wait (p : Packet) : Nat × Nat := (p.since, dirNum p.inPort)

/-- Whether one wait goes before another: the longer, then the lower input port (R344). -/
def waitsLonger (a b : Nat × Nat) : Bool := decide (a.1 < b.1) || (decide (a.1 = b.1) && decide (a.2 < b.2))

/-- The wait of a contender: at an L port the ITEM heads for one in-slot form one, which waits as long as the longest of them and
has the lowest input port among them (R344). -/
def contenderWait (d : Dir) (p : Packet) (others : List Packet) : Nat × Nat :=
  if d = .l ∧ p.ty = .item then
    (others.filter fun q => decide (q.ty = .item ∧ q.dslot = p.dslot)).foldl
      (fun a q => (min a.1 q.wait.1, min a.2 q.wait.2)) p.wait
  else p.wait

/-- Whether head `q` takes output `d` before head `p` of the same virtual channel (R344, R274). -/
def beatsHead (d : Dir) (others : List Packet) (q p : Packet) : Bool :=
  if d = .l ∧ p.ty = .item ∧ q.ty = .item ∧ q.dslot = p.dslot then
    decide (q.sslot < p.sslot) || (decide (q.sslot = p.sslot) && decide (q.src < p.src))
  else waitsLonger (contenderWait d q (p :: others)) (contenderWait d p others)

/-- The turn of a virtual channel among VC1–VC3, after the one that an output granted last (R343). -/
def turnAfter (last v : Nat) : Nat := (v + 5 - last) % 3

/-- Whether another virtual channel takes output `d` before a head's own (R343); an L port ejects on each of them (R345). -/
def State.channelYields (s : State) (p : Packet) (d : Dir) (others : List Packet) : Bool :=
  let refused := mget 0 s.cvRefused (p.at_, dirNum d)
  let last := mget 3 s.outTurn (p.at_, dirNum d)
  if d = .l then false
  else if p.control then
    if p.chan = 0 then decide (3 ≤ refused) && others.any fun q => decide (q.chan = 1)
    else decide (refused < 3) && others.any fun q => decide (q.chan = 0)
  else decide (p.chan ≠ 0) && others.any fun q =>
    decide (q.chan = 0) || (decide (q.chan ≠ p.chan) && decide (turnAfter last q.chan < turnAfter last p.chan))

/-- Whether a head must leave output `d` to another. -/
def State.yields (s : State) (p : Packet) (d : Dir) : Bool :=
  let others := s.contenders p d
  let same := others.filter fun q => q.sameChan p
  same.any (fun q => beatsHead d same q p) || s.channelYields p d others

/-- Whether a head leaves its router now: it is ready, and every output it needs is granted to it (R343, R344, R357). -/
def State.mayHop (s : State) (p : Packet) : Bool := s.headReady p && !(s.outsOf p).any (s.yields p)

/-- What the outputs that a head is granted remember of it: a ready CV1 head has been refused in each of the cycles that the flits of
a CV0 packet take (R343). -/
def State.takeOutputs (s : State) (p : Packet) : State :=
  s.each ((s.outsOf p).filter (· ≠ .l)) fun s d =>
    let k := (p.at_, dirNum d)
    if p.control then
      { s with cvRefused :=
          if p.chan = 0 ∧ ((s.contenders p d).any fun q => decide (q.chan = 1)) = true then
            mput s.cvRefused k (mget 0 s.cvRefused k + p.flits)
          else mdel s.cvRefused k }
    else if p.chan = 0 then s
    else { s with outTurn := mput s.outTurn k p.chan }

/-- PACKET_HOP (R232, R264, R328-R362, R377, R378, R738): a head at a router, or the next item of a send buffer, goes one hop
where its outputs are granted to it; otherwise it waits, a cycle. Routers of a fogged field have no clock. -/
def execPacketHop (id : Nat) (link : LinkState) (s : State) : Host.Outcome State Fault Refusal :=
  match s.pkt id with
  | none => .next s
  | some p =>
    if (s.fld (fieldOf p.at_)).fogged = true then .next s
    else match p.st with
      | .ejected => .next s
      | .flying =>
        .next (if p.refused then
            (if s.frontOf p && s.completionFree p.at_ p then
              ((s.dropPkt p.id).oldHeads (fieldOf p.at_) p 1 0).boundaryDrop p.at_ (dirNum p.inPort) p
            else s.stall p.at_)
          else if s.mayHop p then (s.takeOutputs p).routeHead p link else s.stall p.at_)
      | .buffered =>
        if s.mayInject p = false ∨ (s.fld (fieldOf p.at_)).phase = .handover ∨
            (s.fld (fieldOf p.at_)).phase = .rest ∨ (s.fld (fieldOf p.at_)).phase = .intake then .next s
        else
          let f := fieldOf p.src
          let view := (s.til p.src).view
          let q : Packet := { p with
            epoch := s.epochOf f p.sector, parity := s.parity f, st := .flying
            mark := viewMark view p.mark, body := p.body.map fun w => { w with mark := viewMark view w.mark } }
          .next (if s.mayHop q then ((s.leaveBuffer p).takeOutputs q).routeHead q link else s)

/-! ### Credits -/

/-- CREDIT (R92, R266, R267, R269): the credits of the current watch become usable in the cycle after the one in which they have come;
others are discarded. None moves in the rest interval. -/
def execCredit (id : Nat) (s : State) : Host.Outcome State Fault Refusal :=
  match s.arrived id .credit with
  | none => .next s
  | some p => if (s.fld (fieldOf p.at_)).phase = .rest then .next s else
    let s := s.dropPkt id
    if p.parity ≠ s.parity (fieldOf p.at_) then .next s
    else
      let x := s.slot p.at_ (16 + p.sslot)
      .next (s.setSlot p.at_ (16 + p.sslot)
        { x with credits := x.credits.modify p.didx fun c => c + p.count
                 creditLog := (p.didx, s.cycleOf (fieldOf p.at_) p.since + 1, (p.count : Int)) :: x.creditLog })

/-! ### Light lists and epochs -/

/-- Whether drain-mode writes are allowed at a router (R364): no image started, no sector, or every sector of its
group quiesced in every field that holds it. -/
def State.drainModeOk (s : State) (t : Nat) : Bool :=
  let f := fieldOf t
  let sec := s.sectorOf t
  decide (sec = 0xFFF) || !s.imageStarted ||
    (s.epochSectors f sec).all fun k => (s.fieldsOf k).all fun g => s.isQuiesced g k

/-- LIGHT_LIST_WRITE (R351, R353, R364, R365): the Keeper writes entry `k` (copy × 32 + entry) of a tile's light list. WAFER entries
go in at any time, in both copies, where no sector's entry stands; a sector's, where no WAFER entry stands, in drain mode, or in
HANDOVER into the copy not in use while no flip is in progress. Anything else, or another requester, is refused and logged. -/
def execLightListWrite (req : Requester) (t k : Nat) (value : BitVec 64) (s : State) :
    Host.Outcome State Fault Refusal :=
  onTile t (
    let f := fieldOf t
    let sec := s.sectorOf t
    let stands (wafer : Bool) : Bool := [k % 32, k % 32 + 32].any fun j =>
      s.flag F.mshLlEntry_valid t j && s.flag F.mshLlEntry_wafer t j == wafer
    let wafer := if value.getLsbD 28 then !stands false else !value.getLsbD 31 && stands true
    let ph := (s.fld f).phase
    let inactive := decide (k / 32 ≠ b2n (s.epochOf f sec))
    let epochOk := (decide (ph = .handover) || decide (ph = .rest)) && inactive && !s.flipping f sec
    if 64 ≤ k then s
    else if byKeeper req && wafer then (s.wr .mshLlEntry t (k % 32) value).wr .mshLlEntry t (k % 32 + 32) value
    else if byKeeper req && !value.getLsbD 28 && !stands true && (s.drainModeOk t || epochOk) then s.wr .mshLlEntry t k value
    else s.refuse f req (fieldWin f (0x20200 + 8 * k)))

/-- EPOCH_ARM (R366-R368): a write to `MSH_EPOCH_CTL` with ARM for the sector selected in `MSH_SECTOR_SEL`. Accepted from the Keeper
only; a refused arm changes nothing, and a field that is down takes none. -/
def execEpochArm (req : Requester) (f watchLow : Nat) (s : State) : Host.Outcome State Fault Refusal :=
  onField f (
    let x := s.fld f
    let sec := s.gf F.mshSectorSel_sector f
    let ahead := (watchLow % 65536 + 65536 - x.watch % 65536) % 65536
    let late := decide (ahead = 0) && (decide (x.phase = .handover) || decide (x.phase = .rest))
    let group := s.epochGroup f sec
    if byKeeper req = false ∨ s.fieldDown f = true ∨ late = true ∨ 256 < ahead ∨
        (group.any fun k => s.flag F.mshEpoch_armed f k || s.flipping f k) = true then
      s.refuse f req (fieldWin f 0x20008)
    else s.each group fun s k =>
      let s := (s.sf F.mshEpoch_armed f k 1).sf F.mshEpochCtl_watch_low f k watchLow
      s.setFld f { s.fld f with armed := mput (s.fld f).armed k (watchLow % 65536) })

end Sys2Proof.Machine
end

