-- ==== Sys2Proof/Machine/Channels.lean ====
section
/-! DEFINITION. Receiving on channels: items, discard to tail, address landing and its completion, flush, and the
reset of every slot at INTAKE (spec/05_channels_and_queues.md). -/

namespace Sys2Proof.Machine

/-- A tile withholds its end-of-work in this watch (R290-R292, R324, R408). -/
def State.withhold (s : State) (t : Nat) : State := s.setTil t { s.til t with withhold := true }

/-- The first slip of a tile in a watch logs one SCHEDULE_SLIP (R147, R275). -/
def State.slipOnce (s : State) (t a b : Nat) : State :=
  if (s.til t).slip then s
  else (s.setTil t { s.til t with slip := true }).logEv evScheduleSlip (fieldOf t) t (detail2 a b)

/-- Whether in-slot `k` feeds a control input of one of the tile's enabled rules (R309, R316). -/
def State.feedsControl (s : State) (t k : Nat) : Bool :=
  decide (s.gf F.chnSlotCfg_landing t k = 2) && (List.range 4).any fun r =>
    s.flag F.strRule_enable t r && s.flag F.strRule_ctl_en t r &&
      decide (s.gf F.strRule_ctl t r = s.gf F.chnSlotCfg_port t k)

/-- Whether a drain or a quiesced sector makes an in-slot discard what arrives from sector `from_` (R316, R319). -/
def State.drainDiscards (s : State) (t k from_ : Nat) : Bool :=
  let f := fieldOf t
  let sec := s.sectorOf t
  let land := s.gf F.chnSlotCfg_landing t k
  (s.isDraining f sec && (decide (from_ ≠ sec) || decide (land ≤ 1) || s.feedsControl t k)) ||
    (s.isQuiesced f sec && decide (from_ ≠ sec))

/-- Whether a rival goes first: the lower sending out-slot, then the lower sending tile (R274). -/
def goesFirst (q p : Packet) : Bool := decide (q.sslot < p.sslot) || (decide (q.sslot = p.sslot) && decide (q.src < p.src))

/-- Whether an address-landed item fails its window (R258, R291), is not word-aligned, or needs more than 16 shadow
lines under a tag (R558). -/
def State.landFails (s : State) (t k addr n : Nat) (mark : Marker) : Bool :=
  decide (addr < s.gf F.chnSlotWindow_start t k) || decide (s.gf F.chnSlotWindow_end t k < addr + 4 * n) ||
    decide (addr % 4 ≠ 0) ||
    (match mark with
      | .tag _ => decide (16 < ((addr + 4 * n - 1) / 64 + 1) - addr / 64)
      | _ => false)

/-- The cycle in which the next words of an ejected item are due at their in-slot, unless they wait: the one after they reach the
router, one flit a cycle for the slot (R265, R276, R342). -/
def State.dueAt (s : State) (p : Packet) : Nat :=
  max (s.cycleOf (fieldOf p.at_) p.since + 1) ((s.slot p.at_ p.dslot).pushedAt + 1)

/-- ITEM heads for the same in-slot, from other out-slots, that wait unbegun in the ejection buffer. -/
def State.unbegun (s : State) (p : Packet) : List Packet :=
  s.packets.filter fun q => decide (q.ty = .item ∧ q.st = .ejected ∧ q.at_ = p.at_ ∧ q.dslot = p.dslot ∧ q.count = 0 ∧
    q.id ≠ p.id) && decide ((q.src, q.sslot) ≠ (p.src, p.sslot))

/-- Those of them whose first words are due in the same cycle (R274). -/
def State.rivals (s : State) (p : Packet) : List Packet := (s.unbegun p).filter fun q => decide (s.dueAt q = s.dueAt p)

/-- Whether an unbegun item must let another for its in-slot go first: one due earlier, or one it collides with that does (R274). -/
def State.yieldsSlot (s : State) (p : Packet) : Bool :=
  (s.unbegun p).any fun q => decide (s.dueAt q < s.dueAt p) || (decide (s.dueAt q = s.dueAt p) && goesFirst q p)

/-- A collision counted at an in-slot (R275). -/
def State.collide (s : State) (t k : Nat) : State :=
  let s := (s.bump .chnCountCollide t k 1).hset F.chnSlotStatus_collide t k
  if s.gf F.chnSlotCfg_kind t k = 0 then s.slipOnce t k 0 else s

/-- The packet with its first words taken; it is gone with its tail. -/
def State.takeWords (s : State) (p : Packet) (n : Nat) : State :=
  if p.body.length ≤ n then s.dropPkt p.id
  else s.setPkt { p with body := p.body.drop n, count := p.count + n }

/-- The cycle in which an item's next words reach their in-slot: when they are due or now, and not in a stretched cycle (R272). -/
def State.pushCycle (s : State) (p : Packet) : Nat :=
  skipStretch (s.til p.at_).stretches (max (s.cycle (fieldOf p.at_)) (s.dueAt p))

/-- An in-slot's latest push noted. -/
def State.notePush (s : State) (t k c : Nat) : State := s.setSlot t k { s.slot t k with pushedAt := c }

/-- Words of an item discarded as they arrive: counted, and credited where the sender's credit is of this watch. -/
def State.dropWords (s : State) (p : Packet) (n : Nat) (credit : Bool) : State :=
  let c := s.pushCycle p
  let s := ((s.takeWords p n).bump .chnCountDiscard p.at_ p.dslot n).notePush p.at_ p.dslot c
  if credit then s.returnCredit p.at_ p.dslot p.src p.sslot p.didx n c else s

/-- An in-slot told that discard to tail is in progress, until the tail. -/
def State.setPartial (s : State) (t k : Nat) (tail : Bool) : State :=
  s.setSlot t k { s.slot t k with partial_ := !tail, midItem := false }

/-- Words that come to an in-slot from cycle `c` on, 4 an executed cycle, pushed (R265, R270). -/
def State.pushQueue (s : State) (t k c : Nat) (qs : List QWord) : State :=
  s.each (List.range (ceilDiv qs.length 4)) fun s j =>
    let cj := skipStretch (s.til t).stretches (s.after t c j)
    let ws := ((qs.drop (4 * j)).take 4).map fun w => { w with stamp := cj }
    (s.setQueue t k cj ((s.slot t k).queue ++ ws)).notePush t k cj

/-- The words of an item pushed into its in-slot (R252, R258, R270). -/
def State.pushWords (s : State) (p : Packet) (n : Nat) (mark : Marker) : State :=
  let t := p.at_
  let k := p.dslot
  let tail : Bool := p.body.length ≤ n
  let ws := (p.body.take n)
  let m := ws.length
  let c := s.pushCycle p
  let qs : List QWord := ((List.range m).zip ws).map fun jw =>
    { w := jw.2.w, mark := mark, bad := jw.2.bad, tail := tail && decide (jw.1 + 1 = m), src := p.src, sslot := p.sslot
      didx := p.didx, token := p.token }
  let s := (s.takeWords p n).pushQueue t k c qs
  let s := s.setSlot t k { s.slot t k with midItem := !tail }
  let s := s.bump .chnCountWords t k m
  let s := if tail then s.bump .chnCountItems t k 1 else s
  if s.gf F.chnSlotCfg_landing t k = 1 then
    let y := s.til t
    s.setTil t { y with svc := y.svc ++ [.landing k (p.addr + 4 * p.count) ws tail mark] }
  else s

/-! ### The item a LOOP carries (R310, R313) -/

/-- A LOOP whose carried item is discarded by a squash becomes IDLE, its count cleared (R313). -/
def State.loopIdle (s : State) (t r : Nat) : State :=
  let x := s.rule t r
  if x.active then s.setRule t r { x with active := false, r := 0 } else s

/-- The enabled LOOP rule of a tile whose feedback input an in-slot feeds (R298, R310). -/
def State.feedbackOf (s : State) (t k : Nat) : Option Nat :=
  if s.gf F.chnSlotCfg_landing t k ≠ 2 then none
  else (List.range 4).find? fun r => s.flag F.strRule_enable t r && decide (s.gf F.strRule_op t r = 5) &&
    decide ((((List.range 4).filter (s.gf F.strRule_in_mask t r).testBit)[1]?) = some (s.gf F.chnSlotCfg_port t k))

/-- An item has been discarded by a squash that an in-slot of tile `t` held or was to take: the LOOP that carries it, or that waits
for it at its feedback input, becomes IDLE (R313; DEDUCED, assumption 108). -/
def State.itemLost (s : State) (t k : Nat) (token : Option (Nat × Nat)) : State :=
  let s := match token with
    | some (u, r) => s.loopIdle u r
    | none => s
  match s.feedbackOf t k with
  | some r => s.loopIdle t r
  | none => s

/-- ITEM (R251-R253, R265, R270-R276, R282, R287, R290, R291, R313, R316, R564): body flits of an ejected item reach its
in-slot. -/
def execItem (id flits : Nat) (s : State) : Host.Outcome State Fault Refusal :=
  match s.arrived id .item with
  | none => .next s
  | some p =>
    let t := p.at_
    let k := p.dslot
    let f := fieldOf t
    let n := min (4 * flits) p.body.length
    let tail : Bool := p.body.length ≤ n
    let x := s.slot t k
    let ph := (s.fld f).phase
    let mark := viewMark (s.til t).view p.mark
    if n = 0 then .next s
    else if p.parity ≠ s.parity f then .next (s.dropWords p n false)
    else if ¬(s.flag F.chnSlotCfg_enable t k = true ∧ s.flag F.chnSlotCfg_source t k = false) then
      .next (s.dropWords p n false)
    else if ph ≠ .work ∧ ph ≠ .settle ∧ ph ≠ .commit then .next s
    else if p.count = 0 ∧ (x.midItem = true ∨ x.partial_ = true ∨ s.yieldsSlot p = true) then .next s
    else
      let s := if p.count = 0 ∧ s.rivals p ≠ [] then s.collide t k else s
      if s.drainDiscards t k p.sector = true then .next ((s.dropWords p n true).setPartial t k tail)
      else if x.partial_ = true ∨ mark = .dead then
        let s := (s.dropWords p n true).setPartial t k tail
        .next (if mark = .dead then s.itemLost t k p.token else s)
      else if s.gf F.chnSlotCfg_landing t k = 1 ∧ p.count = 0 ∧ s.landFails t k p.addr p.body.length mark = true then
        let s := ((s.dropWords p n true).setPartial t k tail).hset F.chnSlotStatus_land_fault t k
        .next ((s.logEv evChannelLandFault f t (detail2 k p.addr)).withhold t)
      else if s.slotSize t k < x.queue.length + n then
        let s := ((s.dropWords p n true).setPartial t k tail).hset F.chnSlotStatus_credit_fault t k
        .next ((s.logEv evCreditFault f t (detail2 k n)).withhold t)
      else .next (s.pushWords p n mark)

/-! ### Completion of address landing -/

/-- A LANDING operation leaves for its buoy, or waits in a shadow line under its tag (R259, R389, R558). -/
def State.landingBuoy (s : State) (t k : Nat) (mark : Marker) : Option State :=
  let i := s.gf F.chnSlotDone_buoy t k
  let m : BuoyMsg := { op := .landing, block := if i < 1024 then fieldOf t else 64
                       index := if i < 1024 then i else i - 1024, operand := 1, tile := t, group := 0
                       sector := s.sectorOf t, parity := s.parity (fieldOf t) }
  match mark with
  | .dead => some s
  | .none => some (s.postBuoy t m none)
  | .tag tag =>
    let y := s.til t
    (freeLine y).map fun l => s.setTil t (({ y with
      shadow := mput y.shadow l { tag := tag, op := some m, order := y.shadowOrder }
      shadowOrder := y.shadowOrder + 1 } : Tile).noteShadow y (s.cycle (fieldOf t)))

/-- LANDING_COMPLETION (R259): the oldest completion of an address-landing slot is signalled, by BADD 1 or by the
count of items completed in the watch written to the flag word. -/
def execLandingCompletion (t slot : Nat) (s : State) : Host.Outcome State Fault Refusal :=
  onTile t (match (s.slot t slot).doneDue with
    | [] => s
    | m :: rest =>
      let mark := viewMark (s.til t).view m
      let x := s.slot t slot
      let s' := s.setSlot t slot { x with doneDue := rest, doneCount := x.doneCount + 1 }
      if s.gf F.chnSlotDone_mode t slot = 0 then (s'.landingBuoy t slot mark).getD s
      else
        let y := s'.til t
        s'.setTil t { y with svc := y.svc ++ [.flag slot (s.gf F.chnSlotDone_flag t slot) (x.doneCount + 1) mark] })

/-! ### Flush -/

/-- The tile's waiting landing writes of a slot removed. -/
def State.dropLandings (s : State) (t k : Nat) : State :=
  let y := s.til t
  s.setTil t { y with svc := y.svc.filter fun r => match r with | .landing k' .. => k' ≠ k | _ => true }

/-- A steering move's LOOP or accumulator is unaffected by a flush; only queues, and discard to tail, change (R278,
R280). -/
def State.flushIn (s : State) (t k : Nat) : State :=
  let x := s.slot t k
  let c := s.cycle (fieldOf t)
  let s := (s.setQueue t k c []).discardWords t k c x.queue
  let s := s.dropLandings t k
  let s := s.bump .chnCountFlush t k 1
  if x.midItem then (s.setPartial t k false).hset F.chnSlotStatus_flushed_partial t k else s

/-- Items of an out-slot's send buffer that have not begun injection are discarded in cycle `c`, and their credit restored in the
next executed one (R279, R314, R564); of an item, `written` says how many words had been written. -/
def State.dropBuffered (s : State) (t k c : Nat) (ids : List Nat) (written : Option Nat := none) : State :=
  s.each ids fun s id => match s.pkt id with
    | none => s
    | some p =>
      let x := s.slot t k
      let n := p.body.length
      let s := s.dropPkt id
      let s := s.setSlot t k { x.noteCredit (s.after t c 1) n n with
        sendBuf := x.sendBuf.filter (· ≠ id), credits := x.credits.map fun c => c + n }
      let s := s.bump .chnCountDiscard t k (written.getD n)
      let y := s.til t
      let s := s.setTil t { y with held := y.held.filter (·.pkt ≠ id + 1) }
      if s.flag F.chnSlotCfg_source t k then s
      else
        let g := s.grp t p.group
        s.setGrp t p.group { g with sendsOut := g.sendsOut - 1 }

/-- An out-slot flushed (R279, R280). -/
def State.flushOut (s : State) (t k : Nat) : State :=
  (s.dropBuffered t k (s.cycle (fieldOf t)) (s.slot t k).sendBuf).bump .chnCountFlush t k 1

/-- A slot flushed (R277-R280). -/
def State.flushSlot (s : State) (t k : Nat) : State := if k < 16 then s.flushIn t k else s.flushOut t k

/-- The enabled slots of a tile. -/
def State.slotsOf (s : State) (t : Nat) : List Nat := (List.range 32).filter fun k => s.flag F.chnSlotCfg_enable t k

/-- Every slot of a tile flushed (R106). -/
def State.flushTile (s : State) (t : Nat) : State := s.each (s.slotsOf t) fun s k => s.flushSlot t k

/-! ### INTAKE -/

/-- Every slot of a tile at INTAKE cycle 0 (R266, R277, R280, R281): queues and send buffers emptied, each slot emptied counted as
flushed, residue counted, credits set. `whole` says that the tile's sector was complete in the preceding watch. -/
def State.intakeSlots (s : State) (t : Nat) (whole : Bool) : State :=
  let left := (List.range 16).filter fun k => (s.slot t k).queue ≠ []
  let s := s.each left fun s k =>
    ((s.bump .chnCountDiscard t k (s.slot t k).queue.length).bump .chnCountFlush t k 1).hset F.chnSlotStatus_residue t k
  let s : State := match left.find? fun k => s.gf F.chnSlotCfg_kind t k = 0 with
    | some k => if whole then s.logEv evChannelResidue (fieldOf t) t k else s
    | none => s
  let s := s.each ((List.range 16).map (· + 16)) fun s k =>
    let s := if (s.slot t k).sendBuf = [] then s else s.bump .chnCountFlush t k 1
    s.each (s.slot t k).sendBuf fun s id => match s.pkt id with
      | some p => (s.dropPkt id).bump .chnCountDiscard t k p.body.length
      | none => s
  let s := s.each (List.range 16) fun s k =>
    if (s.slot t k) = {} then s else s.setSlot t k {}
  s.each ((List.range 16).map (· + 16)) fun s k =>
    if s.flag F.chnSlotCfg_enable t k then
      let cs := (s.destsOf t k).map fun d => s.slotSize d (s.gf F.chnSlotDest_dslot t k)
      s.setSlot t k { credits := cs, full := (minOf cs).getD 0 }
    else if (s.slot t k) = {} then s else s.setSlot t k {}

end Sys2Proof.Machine
end

