-- ==== Sys2Proof/Machine/Buoys.lean ====
section
/-! DEFINITION. Buoys (spec/08_buoys.md): the buoy blocks, how operations combine, awaits and notices, the trunk, and
Keeper operations. -/

namespace Sys2Proof.Machine

/-- Largest count of a buoy (R383). -/
def buoyMax : Nat := 16777215

/-- Kind of a buoy: 0 COUNT, 1 BARRIER, 2 FLAG, 3 LATCH. -/
def State.buoyKind (s : State) (b i : Nat) : Nat := s.gf F.buyCfg_kind b i

/-- A buoy's flag (R383). -/
def State.buoyFlag (s : State) (b i : Nat) : Bool :=
  if s.buoyKind b i = 1 then decide (s.gf F.buyTarget_target b i ≤ (s.buoy b i).count)
  else decide ((s.buoy b i).count ≠ 0)

/-- A result clamped to 0 … 16,777,215, with whether it was clamped (R385). -/
def clampCount (v : Int) : Nat × Bool :=
  ((clampInt 0 buoyMax v).toNat, decide (v < 0 ∨ (buoyMax : Int) < v))

/-- The new count of a buoy of kind `kind` from the ADDs, the SET of the lowest input and whether a CLEAR is present
(R384-R386), with whether the sum of the ADDs was clamped, which it is before a SET replaces it (R386); `keeper` says that
the Keeper clears. -/
def combineCount (kind old : Nat) (clear keeper : Bool) (adds : List Int) (set_ : Option Nat) : Nat × Bool :=
  let final (r : Nat × Bool) : Nat × Bool := (set_.getD r.1, r.2)
  match kind with
  | 2 =>
    let base := if clear then 0 else old
    let c := if adds.any (· ≠ 0) then 1 else base
    (match set_ with | some v => if v ≠ 0 then 1 else 0 | none => c, false)
  | 3 =>
    if clear && keeper then (0, false)
    else if old ≠ 0 then (old, false)
    else final (clampCount (sumInt adds))
  | _ => final (clampCount ((if clear then 0 else old : Nat) + sumInt adds))

/-- The state with a buoy's count set, its SAT and saturation records kept (R385). -/
def State.putCount (s : State) (b i : Nat) (r : Nat × Bool) : State :=
  let x := s.buoy b i
  let s := s.setBuoy b i { x with count := r.1, sat := x.sat || r.2, satLogged := x.satLogged || r.2 }
  if r.2 then
    let s := ((s.bump .buyCountSaturate b 0 1).noteSet F.buyState_sat b i).hset F.buyStatus_saturated b 0
    if x.satLogged then s else s.logEv evBuoySaturate b (b * 1024 + i) 0
  else s

/-! ### Replies -/

/-- Whether an operation is a WATCH. -/
def BuoyMsg.isWatch (m : BuoyMsg) : Bool := m.op = .watchGe || m.op = .watchFlag

/-- Code of an ACK or NOTICE status (R394). -/
def BuoyStatus.code : BuoyStatus → Nat
  | .done => 0 | .refused => 1 | .late => 2 | .unreachable => 3

/-- The ticks of `k` cycles of a block: of its field's core clock, or of the timebase (R388). -/
def State.blockTicks (s : State) (b k : Nat) : Nat :=
  if b = 64 then k
  else
    let mhz := (s.fld b).mhz
    ceilDiv (k * 1000) (if mhz = 0 then 1000 else mhz)

/-- A BUOY_ACK or BUOY_NOTICE leaves the bay port of the requesting tile, one every 2 cycles; its head is in the router 3 cycles after
it was generated (R392-R394, R397). -/
def State.sendReply (s : State) (m : BuoyMsg) (st : BuoyStatus) : State :=
  let port := bayPort (bayOf m.tile)
  let f := fieldOf m.tile
  let x := s.blk f
  let leaves := max (s.now + s.blockTicks f 3) (mget 0 x.portFree (bayOf m.tile))
  let s := s.setBlk f { x with portFree := mput x.portFree (bayOf m.tile) (leaves + s.blockTicks f 2) }
  s.addPkt { since := leaves, id := 0, ty := if m.isWatch then .buoyNotice else .buoyAck, control := true, dest := m.tile, src := port
             at_ := port, sector := m.sector, epoch := m.epoch, parity := s.parity (fieldOf m.tile), group := m.group
             status := st.code, buoy := some m }

/-- A block's answer to an operation that came by `input`: from the bay port, or back over the trunk (R393, R399).
A NOTICE is counted. -/
def State.reply (s : State) (b input : Nat) (m : BuoyMsg) (st : BuoyStatus) : State :=
  let s := if m.isWatch then s.bump .buyCountNotice b 0 1 else s
  if input = 36 ∨ b ≠ fieldOf m.tile then
    { s with trunk := s.trunk ++ [.reply m m.isWatch st b (fieldOf m.tile)] }
  else s.sendReply m st

/-- An operation refused, but for its answer (R403, R408, R410). -/
def State.refuseBuoy (s : State) (b : Nat) (m : BuoyMsg) : State :=
  let s := (s.bump .buyCountRefused b 0 1).hset F.buyStatus_refused b 0
  s.logEv evBuoyRefused b (m.block * 1024 + m.index) (detail2 (m.tile + m.group * 2 ^ 20) m.sector)

/-- Order in which the answers generated in one cycle leave: ACKs, then NOTICEs, each by ascending local index, then group (R393). -/
def answerOrder (a b : Nat × BuoyMsg × BuoyStatus) : Bool :=
  let rank (m : BuoyMsg) : Nat := (b2n m.isWatch * 256 + localIndex m.tile) * 8 + m.group
  decide (rank a.2.1 ≤ rank b.2.1)

/-- The answers a block generates in one cycle (R392, R393, R396). -/
def State.answerAll (s : State) (b : Nat) (l : List (Nat × BuoyMsg × BuoyStatus)) : State :=
  s.each (l.mergeSort answerOrder) fun s e => s.reply b e.1 e.2.1 e.2.2

/-- An operation answered UNREACHABLE (R408, R409). -/
def State.unreachable (s : State) (b : Nat) (m : BuoyMsg) : State :=
  s.logEv evBuoyUnreachable b (m.block * 1024 + m.index) (detail2 (m.tile + m.group * 2 ^ 20) m.sector)

/-! ### Admission -/

/-- Whether a sender's sector may reach a buoy (R402). -/
def State.buoyAccess (s : State) (b i sec : Nat) : Bool :=
  s.accessAdmits b (s.gf F.buyCfg_access b i) (s.gf F.buyCfg_owner b i) sec

/-- Whether an operation arrives when its block does not apply it (R405). -/
def State.buoyLate (s : State) (b : Nat) (m : BuoyMsg) : Bool :=
  if b = 64 then m.parity != decide (s.stationWatch % 2 = 1)
  else
    let ph := (s.fld b).phase
    (m.parity != s.parity b) ||
      !(decide (ph = .work) || (decide (m.op = .landing) && (decide (ph = .settle) || decide (ph = .commit))))

/-- Whether an operation is refused (R403, R410). -/
def State.buoyBad (s : State) (b : Nat) (m : BuoyMsg) : Bool :=
  m.reserved || decide ((if b = 64 then 256 else 1024) ≤ m.index) || !s.buoyAccess b m.index m.sector ||
    (s.buoy b m.index).poison || (s.buoy b m.index).broken

/-- An uncorrectable error of a buoy found (R410). -/
def State.findBroken (s : State) (b i : Nat) : State :=
  if (s.buoy b i).broken then
    (s.setBuoy b i { s.buoy b i with broken := false, poison := true }).logEv evBuoyPoison b (b * 1024 + i) 0
  else s

/-- Size of a block's watch table (R398). -/
def watchTable (b : Nat) : Nat := if b = 64 then 1024 else 4096

/-- Whether a WATCH's condition holds now (R384). -/
def State.watchHolds (s : State) (b : Nat) (m : BuoyMsg) : Bool :=
  if m.op = .watchGe then decide (m.operand ≤ (s.buoy b m.index).count) else s.buoyFlag b m.index

/-- The answers generated in one cycle: `acks`, NOTICEs for the stored WATCHes of the buoys named whose conditions hold, which leave the
table, and for the new WATCHes `met` (R393, R396). -/
def State.evalWatches (s : State) (b : Nat) (changed : List Nat) (met : List BuoyMsg)
    (acks : List (Nat × BuoyMsg × BuoyStatus)) : State :=
  let x := s.blk b
  let due := x.watches.filter fun m => changed.contains m.index && s.watchHolds b m
  let s := s.setBlk b { x with watches := x.watches.filter fun m => !(due.contains m) }
  s.answerAll b (acks ++ (due ++ met).map fun m => (if b = fieldOf m.tile then 0 else 36, m, .done))

/-! ### BUOY_OP and BUOY_APPLY -/

/-- BUOY_OP (R387, R389-R391, R399, R403): a packet reaches its bay port's block: a FAR packet is kept for its operation, and one that
another follows instead is refused; an operation for the block's own field waits for its application cycle, two after its tail has come;
any other leaves on the trunk. -/
def execBuoyOp (id : Nat) (s : State) : Host.Outcome State Fault Refusal :=
  match s.arrived id .buoyOp with
  | none => .next s
  | some p =>
    let b := fieldOf p.at_
    let input := bayInField (bayOf p.src)
    let s := s.dropPkt id
    let x := s.blk b
    match p.far, p.buoy with
    | some f, _ =>
      let lost := x.far.filter fun e => e.1 = p.src && e.2.1 = p.group
      let s := s.setBlk b { x with far := (x.far.filter fun e => !(e.1 = p.src && e.2.1 = p.group)) ++ [(p.src, p.group, f)] }
      .next (s.each lost fun s e =>
        let m : BuoyMsg := { op := .add, block := e.2.2, index := 0, operand := 0, tile := p.src, group := p.group, sector := p.sector
                             parity := p.parity, epoch := p.epoch }
        (s.refuseBuoy b m).reply b input m .refused)
    | none, none => .next s
    | none, some m =>
      let far := x.far.find? fun e => e.1 = p.src && e.2.1 = p.group
      let x := { x with far := x.far.filter fun e => !(e.1 = p.src && e.2.1 = p.group) }
      let m : BuoyMsg := { m with
        epoch := p.epoch, parity := p.parity, sector := p.sector
        block := if m.block = 64 then 64 else (far.map (·.2.2)).getD b
        reserved := m.reserved || (far.isSome && decide (m.block = 64)) }
      if m.block = b ∨ m.reserved = true then
        .next (s.setBlk b { x with
          arrived := x.arrived ++ [(input, m)], dues := x.dues ++ [(input, p.since + s.blockTicks b (p.flits + 1))] })
      else
        let acked : Bool := !m.isWatch && !(m.op == BuoyOp.landing)
        let s := s.setBlk b { x with forwarded := if acked then x.forwarded ++ [(m, s.now)] else x.forwarded }
        .next { s with trunk := s.trunk ++ [.op m b m.block] }

/-- The first operation of each input (R386). -/
def firstOfInputs (l : List (Nat × BuoyMsg)) : List (Nat × BuoyMsg) :=
  ((l.map (·.1)).eraseDups).filterMap fun i => l.find? (·.1 = i)

/-- What is left of a block's inputs once the first operation of each has been taken, but for those that wait. -/
def restOfInputs (l taken : List (Nat × BuoyMsg)) : List (Nat × BuoyMsg) := taken.foldl (fun l e => l.erase e) l

/-- Whether an operation can be applied at an instant (R391). -/
def BuoyBlock.ripe (x : BuoyBlock) (t : Nat) (e : Nat × BuoyMsg) : Bool :=
  match x.dues.find? fun d => d.1 = e.1 with
  | some d => decide (d.2 ≤ t)
  | none => true

/-- The instant of a block's next application cycle: after the last one, and once the first of its inputs can be applied (R386,
R391). -/
def State.nextApply (s : State) (b : Nat) : Nat :=
  let x := s.blk b
  let from_ := max s.now (x.applied + s.blockTicks b 1)
  let heads := firstOfInputs x.arrived
  let due (e : Nat × BuoyMsg) : Nat := match x.dues.find? fun d => d.1 = e.1 with | some d => d.2 | none => 0
  match heads with
  | [] => from_
  | e :: es => max from_ (es.foldl (fun a e => min a (due e)) (due e))

/-- BUOY_APPLY (R384-R388, R392, R396, R398, R403, R405, R410): one application cycle of a block: late and refused packets
are answered, the operations on each buoy combine into one update, WATCHes see the final counts. -/
def execBuoyApply (b : Nat) (s : State) : Host.Outcome State Fault Refusal :=
  onUnit b 65 (
    if (b < 64 ∧ (s.fld b).fogged = true) ∨ (s.blk b).arrived = [] then s
    else
      let t := s.nextApply b
      let s := s.advanceTo t
      let x := s.blk b
      let now := (firstOfInputs x.arrived).filter (x.ripe t)
      let late := now.filter fun e => s.buoyLate b e.2
      let rest := now.filter fun e => !s.buoyLate b e.2
      let bad := rest.filter fun e => s.buoyBad b e.2
      let good := rest.filter fun e => !s.buoyBad b e.2
      let ops := good.filter fun e => !e.2.isWatch
      let s := s.setBlk b { x with
        arrived := restOfInputs x.arrived now, dues := now.foldl (fun d e => d.eraseP (·.1 = e.1)) x.dues, applied := t }
      let s := s.each late fun s _ => (s.bump .buyCountLate b 0 1).hset F.buyStatus_late b 0
      let s := s.each bad fun s e => (s.findBroken b e.2.index).refuseBuoy b e.2
      let idx := (ops.map (·.2.index)).eraseDups
      let old := s
      let s := s.each idx fun s i =>
        let mine := ops.filter (·.2.index = i)
        let adds : List Int := (mine.filter fun e => e.2.op = .add ∨ e.2.op = .landing).map fun e =>
          toSigned 24 e.2.operand
        let sets := mine.filter (·.2.op = .set)
        let low := sets.find? fun e => sets.all fun e' => e.1 ≤ e'.1
        s.putCount b i (combineCount (s.buoyKind b i) (s.buoy b i).count (mine.any (·.2.op = .clear)) false adds
          (low.map (·.2.operand)))
      let s := s.bump .buyCountOps b 0 ops.length
      let acks := (late.filter fun e => !e.2.isWatch && decide (e.2.op ≠ .landing)).map (fun e => (e.1, e.2, BuoyStatus.late)) ++
        bad.map (fun e => (e.1, e.2, BuoyStatus.refused)) ++
        (ops.filter (·.2.op ≠ .landing)).map fun e => (e.1, e.2, BuoyStatus.done)
      let new := good.filter (·.2.isWatch)
      let met := new.filter fun e => s.watchHolds b e.2
      let s := (s.bump .buyCountWatch b 0 met.length).evalWatches b
        (idx.filter fun i => (old.buoy b i).count ≠ (s.buoy b i).count) (met.map (·.2)) acks
      s.each (new.filter fun e => !s.watchHolds b e.2) fun s e =>
          let y := s.blk b
          if y.watches.length < watchTable b then
            (s.setBlk b { y with watches := y.watches ++ [e.2] }).bump .buyCountWatch b 0 1
          else ((s.setBlk b { y with arrived := e :: y.arrived, dues := (e.1, t) :: y.dues }).bump .buyCountWatchStall b 0 1).hset
            F.buyStatus_watch_full b 0)

/-- The instant at which an ACK or notice takes effect: the cycle after its second flit has come (R392, R397). -/
def State.replyEffect (s : State) (p : Packet) : Nat := p.since + s.blockTicks (fieldOf p.at_) 2

/-- BUOY_NOTICE (R397, R408): fills the latch, and the group is ready from the next cycle; a refused one spoils it and the tile withholds
its end-of-work. -/
def execBuoyNotice (id : Nat) (s : State) : Host.Outcome State Fault Refusal :=
  match s.arrived id .buoyNotice with
  | none => .next s
  | some p =>
    let t := p.at_
    let s := (s.dropPkt id).advanceTo (s.replyEffect p)
    if p.parity ≠ s.parity (fieldOf t) then .next s
    else
      let g := s.grp t p.group
      if p.status = 0 then .next (s.setGrp t p.group { g with latch := .met, latchAt := s.cycle (fieldOf t) + 1 })
      else .next ((s.setGrp t p.group { g with latch := .refused }).withhold t)

/-- BUOY_ACK (R392, R408): the operation counts as performed; a refused or unreachable one makes the tile withhold its
end-of-work. -/
def execBuoyAck (id : Nat) (s : State) : Host.Outcome State Fault Refusal :=
  match s.arrived id .buoyAck with
  | none => .next s
  | some p =>
    let t := p.at_
    let s := (s.dropPkt id).advanceTo (s.replyEffect p)
    if p.parity ≠ s.parity (fieldOf t) then .next s
    else
      let g := s.grp t p.group
      let landing : Bool := match p.buoy with | some m => m.op = .landing | none => false
      let s := if landing then s else s.setGrp t p.group { g with opsOut := g.opsOut - 1 }
      if p.status = 1 ∨ p.status = 3 then .next (s.withhold t) else .next s

/-! ### The trunk -/

/-- A reply that has reached its source block leaves by the bay port; an operation already given up on is dropped
(R399, R409). -/
def State.trunkReply (s : State) (m : BuoyMsg) (st : BuoyStatus) (dst : Nat) : State :=
  let x := s.blk dst
  if m.isWatch ∨ m.op = .landing then s.sendReply m st
  else if x.forwarded.any (·.1 = m) then
    (s.setBlk dst { x with forwarded := (match x.forwarded.find? (·.1 = m) with
      | some e => x.forwarded.erase e
      | none => x.forwarded) }).sendReply m st
  else s

/-- BUOY_TRUNK_PACKET (R399, R401, R409): the oldest trunk message is delivered, within 160 ticks. -/
def execBuoyTrunkPacket (s : State) : Host.Outcome State Fault Refusal :=
  match s.trunk with
  | [] => .next s
  | .op m src dst :: rest =>
    let s := { s with trunk := rest }
    if dst ≠ 64 ∧ s.fieldDown dst = true then
      .next { s.unreachable dst m with trunk := rest ++ [.reply m m.isWatch .unreachable dst src] }
    else
      let x := s.blk dst
      .next (s.setBlk dst { x with arrived := x.arrived ++ [(36, m)] })
  | .reply m _ st _ dst :: rest =>
    let s := { s with trunk := rest }
    .next (s.trunkReply m st dst)

/-- BUOY_UNREACHABLE (R409): the oldest forwarded operation of a block has had no ACK for 2,048 ticks. -/
def execBuoyUnreachable (b : Nat) (s : State) : Host.Outcome State Fault Refusal :=
  onField b (match (s.blk b).forwarded with
    | [] => s
    | (m, at_) :: rest =>
      let s := s.advanceTo (at_ + 2048)
      let s := s.setBlk b { s.blk b with forwarded := rest }
      (s.unreachable b m).sendReply m .unreachable)

/-! ### Keeper operations -/

/-- A Keeper operation on a buoy (R384, R386, R406, R410). It is accepted from the Keeper, or from a session with the
WRITE right (R412, R871); SET and CLEAR clear POISON. The block's next cycle is its own: what tiles send is applied after it. -/
def State.keeperOp (s : State) (req : Requester) (b i op : Nat) : State :=
  let ok := (match req with
    | .keeper _ => true
    | _ => s.right req 1 b) && decide (i < if b = 64 then 256 else 1024)
  if ok = false then s.refuse b req (if b = 64 then 0x40008 else fieldWin b 0x90008)
  else
    let x := s.blk b
    let s := (s.setBlk b { x with applied := max s.now x.applied + s.blockTicks b 1 }).findBroken b i
    let v := s.gf F.buyKopArg_operand b
    let old := (s.buoy b i).count
    let k := s.buoyKind b i
    let r := match op with
      | 0 => combineCount k old false true [toSigned 24 v] none
      | 1 => combineCount k old false true [] (some v)
      | _ => combineCount k old true true [] none
    let s := (s.putCount b i r).bump .buyCountOps b 0 1
    let s := if op = 0 then s else s.setBuoy b i { s.buoy b i with poison := false }
    if r.1 = old then s else s.evalWatches b [i] [] []

/-- BUY_KOP_ADD (R406). -/
def execBuyKopAdd (req : Requester) (block index : Nat) (s : State) : Host.Outcome State Fault Refusal :=
  onUnit block 65 (s.keeperOp req block index 0)
/-- BUY_KOP_SET (R406). -/
def execBuyKopSet (req : Requester) (block index : Nat) (s : State) : Host.Outcome State Fault Refusal :=
  onUnit block 65 (s.keeperOp req block index 1)
/-- BUY_KOP_CLEAR (R406). -/
def execBuyKopClear (req : Requester) (block index : Nat) (s : State) : Host.Outcome State Fault Refusal :=
  onUnit block 65 (s.keeperOp req block index 2)

/-- The buoys of a block that an INTAKE sets to `BUY_INIT` (R404). -/
def State.intakeResetBuoys (s : State) (b : Nat) : List Nat :=
  s.regs.filterMap fun (k, v) => if k.reg = .buyCfg ∧ k.unit = b ∧ v.toNat.testBit 29 = true then some k.idx else none

/-- A block at INTAKE cycle 0, or the station's at a beacon (R404). -/
def State.intakeBlock (s : State) (b : Nat) : State :=
  let s := s.setBlk b { s.blk b with watches := [], far := [] }
  let s := { s with buoys := s.buoys.map fun (e : (Nat × Nat) × Buoy) => if e.1.1 = b then (e.1, { e.2 with satLogged := false }) else e }
  s.each (s.intakeResetBuoys b) fun s i =>
    s.setBuoy b i { s.buoy b i with count := s.gf F.buyInit_value b i, poison := false, broken := false }

/-! ### Control spaces read by tiles -/

/-- The word a tile reads at an offset of a control space, where the table of R905 has one. -/
def State.controlWord (s : State) (f space off : Nat) : Option Word :=
  let x := s.fld f
  match space, off with
  | 2, 0x00 => some (BitVec.ofNat 32 (s.bcnPhaseWord f))
  | 2, 0x04 => some (BitVec.ofNat 32 x.nCycles)
  | 2, 0x08 => some (BitVec.ofNat 32 x.watch)
  | 2, 0x0C => some (BitVec.ofNat 32 (x.watch / 2 ^ 32))
  | 2, 0x10 => some ((s.rd .pwrStatus f).truncate 32)
  | 3, 0x00 => some (BitVec.ofNat 32 x.stnWatch)
  | 3, 0x04 => some (BitVec.ofNat 32 (x.stnWatch / 2 ^ 32))
  | 3, 0x08 => some (BitVec.ofNat 32 x.stnPeriod)
  | 3, 0x0C => some (BitVec.ofNat 32 x.stnCap)
  | _, _ => none

/-- CONTROL_SPACE_READ (R905): a RLOAD to space 0x2 or 0x3 that is no launch, served by its bay port: RDATA with the
words of its block, or RFAIL where a lane reads an offset the table does not list, or names another field or a
non-zero tile. -/
def execControlSpaceRead (id : Nat) (s : State) : Host.Outcome State Fault Refusal :=
  match s.arrived id .rload with
  | none => .next s
  | some p =>
    let sp := addrSpace p.full
    let f := fieldOf p.at_
    let off := p.full % 2 ^ 16
    if ¬(sp = 3 ∨ (sp = 2 ∧ off < 0x7000)) then .next s
    else if s.storeFull p.at_ then .next (s.stall p.at_)
    else
      let lanes := ((s.til p.src).loads.filter fun l => l.waiting.any fun w => w.1 = p.sslot).flatMap fun l =>
        (l.lanes.map (·.2)).filter fun a => a / 64 = p.full / 64
      let known := lanes.all fun a => (s.controlWord f sp (a % 2 ^ 16)).isSome
      let here := if sp = 2 then decide (fieldOf (addrTile p.full) = f) else decide (bits p.full 59 16 = 0)
      if here && known && decide (off = 0) then
        let ws : List TWord := (List.range 16).map fun j => { w := (s.controlWord f sp (4 * j)).getD 0 }
        .next ((s.dropPkt id).respond p.at_ p { id := 0, ty := .rdata, len := 4, dest := p.src, src := p.at_
                                                at_ := p.at_, sslot := p.sslot, gen := p.gen, body := ws
                                                group := p.group })
      else .next (s.refuseAccess p.at_ p)

end Sys2Proof.Machine
end

