-- ==== Sys2Proof/Machine/Steering.lean ====
section
/-! DEFINITION. Steering units (spec/06_steering.md): firing rules, moves, discards, faults, aborts, and draining. -/

namespace Sys2Proof.Machine

/-! ### Inputs and outputs -/

/-- The in-slot that feeds steering input `i` (R298). -/
def State.steerIn (s : State) (t i : Nat) : Option Nat :=
  (List.range 16).find? fun k => s.flag F.chnSlotCfg_enable t k && decide (s.gf F.chnSlotCfg_landing t k = 2) &&
    decide (s.gf F.chnSlotCfg_port t k = i)

/-- The slot that steering output `o` feeds: a STEER out-slot or a LOCAL in-slot (R298). -/
def State.steerOut (s : State) (t o : Nat) : Option Nat :=
  (List.range 32).find? fun k => s.flag F.chnSlotCfg_enable t k && s.flag F.chnSlotCfg_source t k &&
    decide (s.gf F.chnSlotCfg_sport t k = o)

/-- Set bits of a mask, ascending: input k or output k of a rule is the k-th (R299). -/
def maskBits (m : Nat) : List Nat := (List.range 4).filter m.testBit

/-- In-slots of a rule's data inputs, in order. -/
def State.ruleIns (s : State) (t r : Nat) : List Nat :=
  (maskBits (s.gf F.strRule_in_mask t r)).filterMap (s.steerIn t)

/-- Slots of a rule's outputs, in order. -/
def State.ruleOuts (s : State) (t r : Nat) : List Nat :=
  (maskBits (s.gf F.strRule_out_mask t r)).filterMap (s.steerOut t)

/-- The in-slot of a rule's control input. -/
def State.ruleCtl (s : State) (t r : Nat) : Option Nat :=
  if s.flag F.strRule_ctl_en t r then s.steerIn t (s.gf F.strRule_ctl t r) else none

/-- The words of the item at the head of a queue, if it is complete (R300). -/
def headItem : List QWord → Option (List QWord)
  | [] => none
  | w :: q => if w.tail then some [w] else (headItem q).map (w :: ·)

/-- The item at the head of an in-slot, where its tail has been pushed. -/
def State.itemAt (s : State) (t k : Nat) : Option (List QWord) := headItem (s.slot t k).queue

/-- The cycle from which an item is complete: the one after its tail's push (R300). -/
def completeFrom (q : List QWord) : Nat := (q.getLast?.map (·.stamp + 1)).getD 0

/-- The value a word is popped as: 0 where it is poisoned (R292). -/
def QWord.value (w : QWord) : Word := if w.bad then 0 else w.w

/-- Most words an output slot can ever hold of one item (R324). -/
def State.outLimit (s : State) (t k : Nat) : Nat :=
  if k < 16 then s.slotSize t k else min (s.slotSize t k) (s.slot t k).full

/-- Whether there is room at an output slot in cycle `c` for `n` words, when the first move cycle pops from `src` (R303). -/
def State.outRoom (s : State) (t k n src c : Nat) : Bool :=
  if k < 16 then
    let x := s.slot t k
    decide ((n : Int) ≤ levelAt ((s.slotSize t k : Int) - x.queue.length) x.roomLog c + ((if src = k then min 4 n else 0) : Nat))
  else s.roomAt t k n c

/-! ### Firings -/

/-- What a firing does: the control slot whose word it consumes, the data slot, the output slots, whether the item is
discarded, whether its words stay for later emissions of a RATE, the `STR_STATUS` bit of a fault, the LOOP state and
the RATE accumulator and emissions left that it leaves. -/
structure Firing where
  ctl : Option Nat := none
  src : Option Nat := none
  outs : List Nat := []
  discard : Bool := false
  keep : Bool := false
  fault : Option Nat := none
  loop : Option (Bool × Nat) := none
  acc : Option Nat := none
  left : Nat := 0
  deriving DecidableEq, Repr

/-- A firing that moves the item of in-slot `src` to output slots, with the OVERSIZE discard of R324, which
leaves a LOOP as it was. -/
def State.moveTo (s : State) (t src n : Nat) (outs : List Nat) (x : Firing) : Option Firing :=
  if outs = [] then none
  else if outs.any fun k => decide (s.outLimit t k < n) then
    some { x with src := some src, discard := true, fault := some 3, loop := none }
  else some { x with src := some src, outs := outs }

/-- A rule's control word: its in-slot and its value; a longer control item is discarded (R302, R324). -/
inductive Control where
  | none
  | word (k : Nat) (w : Word)
  | bad (k : Nat)
  deriving DecidableEq, Repr

/-- The control item waiting for a rule. -/
def State.controlAt (s : State) (t r : Nat) : Control :=
  match s.ruleCtl t r with
  | none => .none
  | some k => match s.itemAt t k with
    | some [w] => .word k w.value
    | some _ => .bad k
    | none => .none

/-- The firing that discards an over-long control item (R324, CTL_SIZE). -/
def ctlSize (k : Nat) : Firing := { src := some k, discard := true, fault := some 2 }

/-- Whether a rule's operation takes control words (R309). -/
def State.takesControl (s : State) (t r : Nat) : Bool :=
  match s.gf F.strRule_op t r with
  | 2 | 4 | 5 => true
  | 3 => decide (s.gf F.strRule_order t r ≠ 1)
  | _ => false

/-- The over-long control item at the head of a rule's control input, which is discarded whatever its data inputs hold
(R324). -/
def State.longControl (s : State) (t r : Nat) : Option Nat :=
  if s.takesControl t r && !s.isDraining (fieldOf t) (s.sectorOf t) then match s.controlAt t r with
    | .bad c => some c
    | _ => none
  else none

/-- The firing for which a rule's inputs are complete, whatever room its outputs have (R309-R311, R316, R324). -/
def State.ruleReady (s : State) (t r : Nat) : Option Firing :=
  let op := s.gf F.strRule_op t r
  let drain := s.isDraining (fieldOf t) (s.sectorOf t)
  let ins := s.ruleIns t r
  let outs := s.ruleOuts t r
  let st := s.rule t r
  let in0 := ins.head?.bind fun k => (s.itemAt t k).map fun q => (k, q.length)
  let fst := outs.take 1
  if s.flag F.strRule_enable t r = false then none
  else match s.longControl t r with
  | some c => some (ctlSize c)
  | none => match op with
    | 0 => in0.bind fun e => s.moveTo t e.1 e.2 fst {}
    | 1 => in0.bind fun e => s.moveTo t e.1 e.2 outs {}
    | 2 => in0.bind fun e =>
      if drain then some { src := some e.1, discard := true }
      else match s.controlAt t r with
        | .none => none
        | .bad c => some (ctlSize c)
        | .word c w => match outs[w.toNat % 4]? with
          | some o => s.moveTo t e.1 e.2 [o] { ctl := some c }
          | none => some { ctl := some c, src := some e.1, discard := true, fault := some 1 }
    | 3 =>
      if s.gf F.strRule_order t r = 1 then
        let cands := ins.filterMap fun k => (s.itemAt t k).map fun q => (k, q.length, completeFrom q)
        (cands.find? fun c => cands.all fun d => c.2.2 ≤ d.2.2).bind fun e => s.moveTo t e.1 e.2.1 fst {}
      else if drain then (ins.find? fun k => (s.itemAt t k).isSome).map fun k => { src := some k, discard := true }
      else match s.controlAt t r with
        | .none => none
        | .bad c => some (ctlSize c)
        | .word c w => match ins[w.toNat % 4]? with
          | none => some { src := some c, discard := true, fault := some 1 }
          | some k => (s.itemAt t k).bind fun q => s.moveTo t k q.length fst { ctl := some c }
    | 4 => in0.bind fun e =>
      if drain then some { src := some e.1, discard := true }
      else match s.controlAt t r with
        | .none => none
        | .bad c => some (ctlSize c)
        | .word c w => if w = 0 then some { ctl := some c, src := some e.1, discard := true }
          else s.moveTo t e.1 e.2 fst { ctl := some c }
    | 5 =>
      let body := outs.take 1
      let exit := (outs.drop 1).take 1
      let item (j : Nat) : Option (Nat × Nat) := (ins[j]?).bind fun k => (s.itemAt t k).map fun q => (k, q.length)
      if drain then ((item 0).orElse fun _ => item 1).bind fun e => s.moveTo t e.1 e.2 exit { loop := some (false, 0) }
      else if st.active then (item 1).bind fun e =>
        if st.r = 0 then s.moveTo t e.1 e.2 exit { loop := some (false, 0) }
        else s.moveTo t e.1 e.2 body { loop := some (true, st.r - 1) }
      else (item 0).bind fun e =>
        let go (ctl : Option Nat) (trips : Nat) : Option Firing :=
          if trips = 0 then s.moveTo t e.1 e.2 exit { ctl := ctl, loop := some (false, 0) }
          else s.moveTo t e.1 e.2 body { ctl := ctl, loop := some (true, trips - 1) }
        if s.flag F.strRule_ctl_en t r then match s.controlAt t r with
          | .none => none
          | .bad c => some (ctlSize c)
          | .word c w => go (some c) (w.toNat % 4096)
        else go none (s.gf F.strRuleParam_trips t r)
    | 6 => in0.bind fun e =>
      if st.left ≠ 0 then s.moveTo t e.1 e.2 fst { keep := decide (1 < st.left), left := st.left - 1 }
      else
        let m := s.gf F.strRuleParam_rate_m t r + 1
        let a := st.acc + s.gf F.strRuleParam_rate_n t r + 1
        let k := a / m
        if k = 0 then some { src := some e.1, discard := true, acc := some a }
        else s.moveTo t e.1 e.2 fst { keep := decide (1 < k), acc := some (a - k * m), left := k - 1 }
    | _ => none

/-! ### When a rule fires (R300, R303, R306, R307) -/

/-- The cycle from which a firing's inputs are complete, its rule's last firing being over. -/
def State.inputsFrom (s : State) (t r : Nat) (x : Firing) : Nat :=
  let from_ (k : Option Nat) : Nat := ((k.bind (s.itemAt t)).map completeFrom).getD 0
  max (max (from_ x.src) (from_ x.ctl)) (s.rule t r).freeAt

/-- Whether every output of a firing has room in cycle `c`. -/
def State.hasRoom (s : State) (t c : Nat) (x : Firing) : Bool :=
  let n := ((x.src.bind (s.itemAt t)).getD []).length
  x.outs.all fun k => s.outRoom t k n (x.src.getD 32) c

/-- The executed cycle of WORK or SETTLE in which a rule can begin a firing: its inputs complete, the move path free, and room at its
outputs. -/
def State.fireCycle (s : State) (t r : Nat) (x : Firing) : Option Nat :=
  let y := s.til t
  let f := fieldOf t
  let changes := x.outs.flatMap fun k => (s.slot t k).roomLog.map (·.1) ++ (s.slot t k).creditLog.map (·.2.1)
  (firstCycle (fun c => s.hasRoom t c x) changes (max (max (s.cycle f) 512) (max (s.inputsFrom t r x) y.pathFree))).bind fun c =>
    if skipStretch y.stretches c < (s.fld f).nCycles - 256 then some (skipStretch y.stretches c) else none

/-- The rule that holds the move path between emissions, if any (R306). -/
def State.pathHolder (s : State) (t : Nat) : Option Nat := (List.range 4).find? fun r => (s.rule t r).left ≠ 0

/-- The rules that may begin a firing: the one that holds the path, else all, in the scan after the rule that fired last (R306). -/
def State.ruleScan (s : State) (t : Nat) : List Nat :=
  match s.pathHolder t with
  | some r => [r]
  | none => (List.range 4).map fun k => ((s.til t).lastRule + 1 + k) % 4

/-- The earliest of some rules' firings, each with its cycle; of several in one cycle, the first. -/
def earliest : List (Nat × Nat) → Option (Nat × Nat)
  | [] => none
  | e :: l => match earliest l with
    | some d => if d.2 < e.2 then some d else some e
    | none => some e

/-- The rule of a tile that begins a firing next, and the cycle in which it does. -/
def State.nextRule (s : State) (t : Nat) : Option (Nat × Nat) :=
  earliest ((s.ruleScan t).filterMap fun r => ((s.ruleReady t r).bind (s.fireCycle t r)).map fun c => (r, c))

/-- The executed cycles before cycle `b` in which a rule's inputs were complete: those in which it lacked room, and those in which
it was ready but the move path was held (R327). -/
def State.countStall (s : State) (t r b : Nat) : State :=
  match s.ruleReady t r with
  | none => s
  | some x =>
    let y := s.til t
    let a := max 512 (s.inputsFrom t r x)
    let cs := ((List.range (b - a)).map (a + ·)).filter fun c => !y.stretches.contains c
    let short := (cs.filter fun c => !s.hasRoom t c x).length
    let held := (cs.filter fun c => s.hasRoom t c x && (decide (c < y.pathFree) || (s.pathHolder t).any (· ≠ r))).length
    let s := if short = 0 then s else s.bump .strCountStallOut t r short
    if held = 0 then s else s.bump .strCountStallPath t r held

/-- The waits of a tile's rules that no firing has ended, counted up to cycle `b` (R327). -/
def State.countStalls (s : State) (t b : Nat) : State := s.each (List.range 4) fun s r => s.countStall t r b

/-! ### Carrying out a firing -/

/-- The first `n` words of an in-slot popped from cycle `c` on, 4 an executed cycle: credits return, and poisoned words withhold the
end-of-work (R267, R292, R304). -/
def State.popWords (s : State) (t k c n : Nat) : State :=
  s.each (List.range (ceilDiv n 4)) fun s j =>
    let q := (s.slot t k).queue
    let m := min 4 (n - 4 * j)
    let cj := s.after t c j
    ((s.setQueue t k cj (q.drop m)).creditWords t k cj (q.take m)).poolRead t k (q.take m)

/-- The first `n` words popped from an in-slot in cycle `c` and discarded (R305). -/
def State.discardItem (s : State) (t k r c n : Nat) : State :=
  let q := (s.slot t k).queue
  (((s.setQueue t k c (q.drop n)).discardWords t k c (q.take n)).poolRead t k (q.take n)).bump .strCountDiscard t r 1

/-- A steering fault (R324). -/
def State.steerFault (s : State) (t r bit : Nat) : State :=
  let f := match bit with
    | 1 => F.strStatus_ctl_range | 2 => F.strStatus_ctl_size | _ => F.strStatus_oversize
  ((s.hset f t 0).logEv evSteerFault (fieldOf t) t (detail2 r bit)).withhold t

/-- Words of an item pushed from cycle `c` on into a LOCAL in-slot (R255, R258, R304), which discards them where its sector drains
(R316) or where they do not lie in its window, at offset 0 (R291; assumption 35). -/
def State.emitLocal (s : State) (t k c : Nat) (mark : Marker) (token : Option (Nat × Nat)) (ws : List QWord) : State :=
  let n := ws.length
  let lands := s.gf F.chnSlotCfg_landing t k = 1
  let vs : List TWord := ws.map fun w => { w := w.value, mark := mark }
  if s.drainDiscards t k (s.sectorOf t) = true then s.bump .chnCountDiscard t k n
  else if lands ∧ s.landFails t k 0 n mark = true then
    let s := (s.bump .chnCountDiscard t k n).hset F.chnSlotStatus_land_fault t k
    (s.logEv evChannelLandFault (fieldOf t) t (detail2 k 0)).withhold t
  else
    let qs := ((List.range n).zip ws).map fun jw =>
      ({ w := jw.2.value, mark := mark, tail := decide (jw.1 + 1 = n), src := t, token := token } : QWord)
    let s := ((s.pushQueue t k c qs).bump .chnCountWords t k n).bump .chnCountItems t k 1
    if lands then
      let y := s.til t
      s.setTil t { y with svc := y.svc ++ [.landing k 0 vs true mark] }
    else s

/-- An item emitted at an output slot from cycle `c` on, the last words in cycle `last` (R304, R312). -/
def State.emit (s : State) (t k c last : Nat) (mark : Marker) (token : Option (Nat × Nat)) (ws : List QWord) : State :=
  if k < 16 then s.emitLocal t k c mark token ws
  else s.bufferItem t k 0 c 0 mark (ws.map fun w => { w := w.value, mark := mark }) (s.headAt t last) token

/-- The LOOP that carries a moved item (R310): the rule that sends it round, none once a LOOP has let it go, else as before. -/
def Firing.tokenOf (x : Firing) (t r : Nat) (item : List QWord) : Option (Nat × Nat) :=
  match x.loop with
  | some (true, _) => some (t, r)
  | some (false, _) => none
  | none => (item.head?.map (·.token)).getD none

/-- A firing of rule `r` carried out in cycle `c`: control word consumed, item moved or discarded, rule state and counters updated. The
move path is taken for the firing's move cycles (R304-R306). -/
def State.perform (s : State) (t r c : Nat) (x : Firing) : State :=
  let view := (s.til t).view
  let word := x.ctl.bind fun k => (s.slot t k).queue.head?
  let item := (x.src.bind fun k => s.itemAt t k).getD []
  let n := item.length
  let marks := (word.toList.map (·.mark)) ++ item.map (·.mark)
  let cm := s.combineAll (s.sectorOf t) (marks.map (viewMark view))
  let st := s.rule t r
  let first := st.left = 0
  let lost : Bool := x.discard || cm.1 = .dead
  let moves := if lost ∨ x.outs = [] then 1 else ceilDiv n 4
  let last := s.after t c (moves - 1)
  let token := x.tokenOf t r item
  let s := s.countStall t r c
  let s := if first then s.bump .strCountFire t r 1 else s
  let s := match x.ctl with
    | some k => s.popWords t k c 1
    | none => s
  let s := match cm.2 with
    | some (a, b) => s.conflict t 0 a b c
    | none => s
  let move : SteerMove := {
    rule := r, from_ := c, src := x.src.getD 0, item := item, pops := !x.keep, locals_ := x.outs.filter (· < 16),
    pkts := ((x.outs.filter (16 ≤ ·)).zip (List.range 4)).map fun e => (e.1, s.nextPkt + e.2) }
  let s := match x.src with
    | none => s
    | some k =>
      if lost then s.discardItem t k r c n
      else
        let s := s.each x.outs fun s o => s.emit t o c last cm.1 token item
        let s := s.bump .strCountWords t r (n * x.outs.length)
        if x.keep then s else s.popWords t k c n
  let s := match x.fault with
    | some b => s.steerFault t r b
    | none => s
  let loop := if x.loop.isSome ∧ cm.1 = .dead then some (false, 0) else x.loop
  let y := s.til t
  let free := s.after t c moves
  let s := s.setTil t { y with pathFree := free, lastRule := if first then r else y.lastRule, move := if lost then none else some move }
  s.setRule t r
    { st with active := (loop.map (·.1)).getD st.active, r := (loop.map (·.2)).getD st.r
              acc := x.acc.getD st.acc, left := if lost then 0 else x.left, freeAt := free }

/-- Whether a tile's steering unit acts: its role, its phase, and its field's clock (R297, R307). -/
def State.steerActive (s : State) (t : Nat) : Bool :=
  let role := s.gf F.tilRole_role t
  let ph := (s.fld (fieldOf t)).phase
  (decide (role = 1) || decide (role = 2)) && (decide (ph = .work) || decide (ph = .settle) || decide (ph = .commit)) &&
    !(s.fld (fieldOf t)).fogged

/-- A rule of operation `op` fires, if the scan has come to it (R306, R309). -/
def State.fireRule (s : State) (t r op : Nat) (order : Option Nat) : State :=
  if s.steerActive t = false ∨ s.gf F.strRule_op t r ≠ op ∨
      (match order with | some o => decide (s.gf F.strRule_order t r ≠ o) | none => false) = true then s
  else match s.nextRule t, s.ruleReady t r with
    | some (q, c), some x => if q = r then s.perform t r c x else s
    | _, _ => s

/-- PASS (R309). -/
def execPass (t r : Nat) (s : State) : Host.Outcome State Fault Refusal := onTile t (s.fireRule t r 0 none)
/-- FORK (R309). -/
def execFork (t r : Nat) (s : State) : Host.Outcome State Fault Refusal := onTile t (s.fireRule t r 1 none)
/-- SWITCH (R309). -/
def execSwitch (t r : Nat) (s : State) : Host.Outcome State Fault Refusal := onTile t (s.fireRule t r 2 none)
/-- MERGE, ORDER 0 (R309). -/
def execMergeOrdered (t r : Nat) (s : State) : Host.Outcome State Fault Refusal := onTile t (s.fireRule t r 3 (some 0))
/-- MERGE, ORDER 1 (R309). -/
def execMergeArrival (t r : Nat) (s : State) : Host.Outcome State Fault Refusal := onTile t (s.fireRule t r 3 (some 1))
/-- GATE (R309). -/
def execGate (t r : Nat) (s : State) : Host.Outcome State Fault Refusal := onTile t (s.fireRule t r 4 none)
/-- LOOP (R310). -/
def execLoop (t r : Nat) (s : State) : Host.Outcome State Fault Refusal := onTile t (s.fireRule t r 5 none)
/-- RATE (R311): one emission, or the discard of an item. -/
def execRate (t r : Nat) (s : State) : Host.Outcome State Fault Refusal := onTile t (s.fireRule t r 6 none)

/-! ### Abort (R314) -/

/-- A counter set back by the `n` counts of words that an aborted move has not moved; one that has saturated stays. -/
def State.unbump (s : State) (r : Reg) (unit idx n : Nat) : State :=
  let v := (s.rd r unit idx).toNat
  if n = 0 ∨ v = 0xFFFFFFFF then s else s.wr r unit idx (BitVec.ofNat 64 (v - n))

/-- The words that an aborted move has pushed into a LOCAL in-slot are removed after cycle `a`, `done` of them, and counted. -/
def State.unpush (s : State) (t k a : Nat) (m : SteerMove) (done : Nat) : State :=
  let q := (s.slot t k).queue
  let ours (w : QWord) : Bool := decide (m.from_ ≤ w.stamp)
  let s := s.setQueue t k (s.after t a 1) (q.filter fun w => !ours w)
  let s := s.bump .chnCountDiscard t k (q.filter fun w => ours w && decide (w.stamp ≤ a)).length
  let s := (s.unbump .chnCountWords t k (m.item.length - done)).unbump .chnCountItems t k 1
  let y := s.til t
  s.setTil t { y with svc := (y.svc.reverse.eraseP fun r => match r with | .landing k' .. => decide (k' = k) | _ => false).reverse }

/-- The move in progress in cycle `a`, if any, stops after the words of that cycle: what its outputs hold of the item is discarded,
and the move path is free from the next executed cycle. The words not moved go back to its input where `back`, else they are counted
as discarded there. A RATE makes no further emission. -/
def State.abortMoves (s : State) (t a : Nat) (back : Bool) : State :=
  let y := s.til t
  let stop (s : State) : State := match s.pathHolder t with
    | some r => (s.setRule t r { s.rule t r with left := 0 }).hset F.strStatus_abort t 0
    | none => s
  match y.move with
  | none => stop s
  | some m =>
    let a := max a m.from_
    let n := m.item.length
    let done := 4 * s.executed t m.from_ (a + 1)
    let s := stop s
    if n ≤ done then s
    else
      let s := s.each m.locals_ fun s k => s.unpush t k a m done
      let s := s.each m.pkts fun s e => if (s.pkt e.2).isSome then s.dropBuffered t e.1 a [e.2] (some done) else s
      let s := s.unbump .strCountWords t m.rule ((n - done) * (m.locals_.length + m.pkts.length))
      let s := if m.pops = false then s
        else if back then s.setQueue t m.src a (m.item.drop done ++ (s.slot t m.src).queue)
        else s.bump .chnCountDiscard t m.src (n - done)
      let free := s.after t a 1
      let s := s.setTil t { s.til t with pathFree := free, move := none }
      (s.setRule t m.rule { s.rule t m.rule with freeAt := free }).hset F.strStatus_abort t 0

/-- Whether the item that a tile's unit moves, or emits again, comes from in-slot `k`. -/
def State.movesFrom (s : State) (t k : Nat) : Bool := (s.til t).move.any fun m => decide (m.src = k)

/-- A flush of a slot of a tile, with the abort of a move whose input item it discards (R277-R280, R314). -/
def State.flushWithAbort (s : State) (t k : Nat) : State :=
  let moving := decide (k < 16) && s.movesFrom t k
  let s := s.flushSlot t k
  if moving then s.abortMoves t (s.cycle (fieldOf t)) false else s

/-- FLUSH (R277-R280, R314): a write of 1 to `CHN_SLOT_CTL`.FLUSH, from the Keeper, or from the host after DEBUG_AUTH. -/
def execFlush (req : Requester) (t slot : Nat) (s : State) : Host.Outcome State Fault Refusal :=
  onTile t (
    if 32 ≤ slot then s
    else if byKeeper req = true ∨ s.right req 1 (fieldOf t) = true then s.flushWithAbort t slot
    else s.refuse (fieldOf t) req (fieldWin (fieldOf t) (0x21280 + 4 * slot)))

/-! ### Drain (R315-R322) -/

/-- The tiles of a field that the state lists. -/
def State.liveTiles (s : State) (f : Nat) : List Nat :=
  ((s.tiles.map (·.1)) ++ (s.groups.map (·.1.1)) ++ (s.slots.map (·.1.1)) ++
    (s.regs.filterMap fun (k, _) => match k.reg with
      | .tilRole | .chnSlotCfg | .strRule | .mshTileSector => some k.unit
      | _ => none)).eraseDups.filter fun t => fieldOf t = f

/-- The listed tiles of a sector in a field. -/
def State.sectorTiles (s : State) (f sec : Nat) : List Nat := (s.liveTiles f).filter fun t => s.sectorOf t = sec

/-- The groups of a tile halted (R95): their outstanding responses are discarded on arrival (R171). They keep their
states; nothing issues outside WORK or in a draining sector. -/
def State.haltGroups (s : State) (t : Nat) : State :=
  let y := s.til t
  if y.loads = [] then s else s.setTil t { y with loads := y.loads.map fun l => { l with killed := true } }

/-- What a drain discards at once in a tile (R316): operand and address slots, control inputs, slots fed from outside
the sector, and the send buffers of group slots. A firing under way goes on: a RATE keeps the item it emits again (R323). -/
def State.drainTile (s : State) (t : Nat) : State :=
  let c := s.cycle (fieldOf t)
  let s := s.haltGroups t
  let s := s.setTil t { s.til t with eow := false }
  let s := s.sf F.strStatus_draining t 0 1
  let outs := (s.slotsOf t).filter fun k => decide (16 ≤ k) && !s.flag F.chnSlotCfg_source t k
  let s := s.each outs fun s k => s.flushOut t k
  let outside (k : Nat) : Bool := (s.slot t k).queue.any fun w => s.sectorOf w.src ≠ s.sectorOf t
  let ins := (s.slotsOf t).filter fun k => decide (k < 16) &&
    (decide (s.gf F.chnSlotCfg_landing t k ≤ 1) || s.feedsControl t k || outside k)
  s.each ins fun s k =>
    let x := s.slot t k
    let kept := if (s.pathHolder t).isSome ∧ s.movesFrom t k = true then ((s.itemAt t k).getD []).length else 0
    let s := ((s.setQueue t k c (x.queue.take kept)).discardWords t k c (x.queue.drop kept)).dropLandings t k
    if x.midItem then s.setPartial t k false else s

/-- A field's drain bound for a sector (R320), as the Keeper computed it at load: kept per sector. -/
def State.drainBound (s : State) (f sec : Nat) : Nat := s.gf F.strDrainBound_bound f sec

/-- A drain begins in a field for a sector (R315, R316, R568); the sector's unresolved tags are squashed at home. -/
def State.beginDrain (s : State) (f sec : Nat) : State :=
  let x := s.fld f
  if x.quiesced.contains sec = true ∨ s.isDraining f sec = true then s
  else
    let s := s.each (s.sectorTiles f sec) fun s t => s.each (List.range 8) fun s g => s.endWait t g (s.cycle f)
    let s := s.setFld f { x with draining := x.draining ++ [(sec, s.cycle f)]
                                 voids := if x.voids.any (·.1 = sec) then x.voids else x.voids ++ [(sec, .workOverrun)] }
    let s := (s.sf F.strDrainStatus_state f 0 1).sf F.strDrainCtl_sector f 0 sec
    let s := s.sf F.strDrainStatus_sector f 0 sec
    let s := s.each (s.sectorTiles f sec) State.drainTile
    if s.homeOf sec = f then
      s.each (List.range 16) fun s tag => match s.tagSt sec tag with
        | .open_ | .held => s.setTagSt sec tag .squashed
        | _ => s
    else s

/-- Whether an item under way goes to a field: to its destination, or to one of its group's (R252). -/
def State.headsFor (s : State) (p : Packet) (f : Nat) : Bool :=
  if p.mcast then (s.destsOf p.src (16 + p.sslot)).any fun d => fieldOf d = f else decide (fieldOf p.dest = f)

/-- Whether a sector is empty in a field: no queue and no send buffer of it holds anything there, and no item from or to it is on
its way to or from the field (R317). -/
def State.sectorEmpty (s : State) (f sec : Nat) : Bool :=
  ((s.sectorTiles f sec).all fun t => (List.range 32).all fun k =>
    decide ((s.slot t k).queue = []) && decide ((s.slot t k).sendBuf = [])) &&
    s.packets.all fun p => !(decide (p.ty = .item ∧ p.st ≠ .buffered) && (decide (fieldOf p.at_ = f) || decide (fieldOf p.src = f) ||
      s.headsFor p f) && (decide (p.sector = sec) || (!p.mcast && decide (s.sectorOf p.dest = sec))))

/-- A sector becomes quiesced in a field (R317, R319). -/
def State.quiesce (s : State) (f sec : Nat) : State :=
  let x := s.fld f
  let s := s.setFld f { x with draining := x.draining.filter (·.1 ≠ sec), quiesced := sec :: x.quiesced.filter (· ≠ sec) }
  let s := s.sf F.strDrainStatus_state f 0 2
  let s := s.sf F.strDrainStatus_sector f 0 sec
  s.each (s.sectorTiles f sec) fun s t => s.sf F.strStatus_draining t 0 0

end Sys2Proof.Machine
end

