-- ==== Sys2Proof/Machine/Speculation.lean ====
section
/-! DEFINITION. Tag operations, resolutions and the sweep (spec/12_speculation.md, R560-R568). -/

namespace Sys2Proof.Machine

/-- Whether a tag state is unresolved (R544). -/
def TagState.unresolved : TagState → Bool
  | .open_ | .held => true
  | _ => false

/-- The descendants of a tag, itself left out (R543). -/
def State.descendants (s : State) (sec tag : Nat) : List Nat :=
  (List.range 16).filter fun k => decide (k ≠ tag) && s.isAncestor sec tag k

/-- The HELD tags whose ancestors are all resolved become COMMITTED (R562). -/
def State.settleHeld (s : State) (sec : Nat) : Nat → State
  | 0 => s
  | n + 1 =>
    let s := s.settleHeld sec n
    s.each (List.range 16) fun s k =>
      if s.tagSt sec k = .held ∧ ((s.ancestors sec 4 k).all fun a => a = k || !(s.tagSt sec a).unresolved) = true then
        s.setTagSt sec k .committed
      else s

/-- A SQUASH at the home SPT (R562): a FREE tag alone, an OPEN or HELD one with every unresolved descendant. -/
def State.squashTag (s : State) (sec tag : Nat) : State :=
  match s.tagSt sec tag with
  | .committed | .squashed => s
  | .free => s.setTagSt sec tag .squashed
  | _ =>
    let s := s.setTagSt sec tag .squashed
    s.each (s.descendants sec tag) fun s k =>
      if (s.tagSt sec k).unresolved then s.setTagSt sec k .squashed else s

/-- A CONFIRM at the home SPT (R562). -/
def State.confirmTag (s : State) (sec tag : Nat) : State :=
  let go : Bool := match s.tagSt sec tag with | .free | .open_ => true | _ => false
  if go then
    if (s.ancestors sec 4 tag).any fun a => decide (a ≠ tag) && (s.tagSt sec a).unresolved then
      s.setTagSt sec tag .held
    else (s.setTagSt sec tag .committed).settleHeld sec 4
  else s

/-- An open at the home SPT (R545, R562). -/
def State.openTag (s : State) (sec tag : Nat) : State :=
  if s.tagSt sec tag = .free then s.setTagSt sec tag .open_ else s

/-- One cycle's operations applied at home field `f`: every SQUASH, then every CONFIRM, then every open (R562). -/
def State.applyTagOps (s : State) (f : Nat) (ms : List TagMsg) : State :=
  let of (o : TagOp) : List TagMsg := ms.filter (·.op = o)
  let s := s.each (of .squash) fun s m =>
    (s.each (m.tag :: m.tag2.toList) fun s k => s.squashTag m.sector k).bump .sptCountSquash f 0 1
  let s := s.each (of .confirm) fun s m => (s.confirmTag m.sector m.tag).bump .sptCountConfirm f 0 1
  s.each (of .open_) fun s m => s.openTag m.sector m.tag

/-- The operations under way to home field `f`. -/
def State.tagMsgsTo (s : State) (f : Nat) : List TagMsg := s.tagMsgs.filter fun m => s.homeOf m.sector = f

/-- The instant at which an operation reaches the SPT block of the field it was issued in, 6 cycles later (R560); one for another field's
home is taken in the order of these instants (R399, R561). -/
def State.tagArrival (s : State) (m : TagMsg) : Nat := cycleInstant (s.fld m.from_) (m.cycle + 6)

/-- Of some operations, the first instant at which one arrives, and those that arrive in that cycle of field `f`. -/
def State.firstOps (s : State) (f : Nat) (ms : List TagMsg) : Option (Nat × List TagMsg) :=
  (minOf (ms.map s.tagArrival)).map fun t => (t, ms.filter fun m => s.cycleOf f (s.tagArrival m) ≤ s.cycleOf f t)

/-- Operations applied at home field `f` in the order in which they arrive, those of one cycle together (R562). -/
def State.applyInOrder (s : State) (f : Nat) : Nat → List TagMsg → State
  | 0, _ => s
  | n + 1, ms => match s.firstOps f ms with
    | none => s
    | some (_, now) => (s.applyTagOps f now).applyInOrder f n (ms.filter fun m => !(now.contains m))

/-- TAG_OP (R560-R562): the operations that reach home field `f` first, in one cycle, are applied; one whose parity is not the current
watch's, or that comes outside WORK and SETTLE (R92), is discarded. -/
def execTagOp (f : Nat) (s : State) : Host.Outcome State Fault Refusal :=
  onField f (match s.firstOps f (s.tagMsgsTo f) with
    | none => s
    | some (t, now) =>
      let s := { s.advanceTo t with tagMsgs := s.tagMsgs.filter fun x => !(now.contains x) }
      let ph := (s.fld f).phase
      if ph = .work ∨ ph = .settle then s.applyTagOps f (now.filter fun x => x.parity = s.parity f) else s)

/-! ### A resolution at a tile (R563, R564) -/

/-- A tile's shadow line freed in cycle `c`. -/
def State.freeShadow (s : State) (t k c : Nat) : State :=
  let y := s.til t
  s.setTil t (({ y with shadow := mdel y.shadow k } : Tile).noteShadow y c)

/-- A shadow line written back to local store in cycle `c`, an uncorrectable word of it with its mark (R557, R570). -/
def State.writeBack (s : State) (t k c : Nat) (l : ShadowLine) : State :=
  let s := s.each ((List.range 64).filter l.mask.testBit) fun s b => s.sramPutByte t (l.block * 64 + b) (mget 0 l.data b)
  let s := s.bump .sptCountLinesCommit t 0 1
  let s := s.freeShadow t k c
  let s := s.each (List.range 16) fun s j =>
    let n := ((List.range 4).filter fun k => l.mask.testBit (4 * j + k)).length
    let a := sramAddr t (l.block * 64 + 4 * j)
    if n = 0 then s
    else { s with sramBad := markWord s.sramBad a (l.bad.testBit j || (decide (n < 4) && s.sramBad.contains a)) }
  if l.bad ≠ 0 then
    (s.hset F.sptTileStatus_poison t 0).logEv evShadowPoison (fieldOf t) t l.block
  else s

/-- The shadow lines of a tag, in the order they were held (R559). -/
def State.tagLines (s : State) (t tag : Nat) : List (Nat × ShadowLine) :=
  (((s.til t).shadow.filter (·.2.tag = tag)).mergeSort fun a b => a.2.order ≤ b.2.order)

/-- A tag seen COMMITTED at a tile: its lines are written back, one an executed cycle (R557, R563). -/
def State.commitAt (s : State) (t tag : Nat) : State :=
  let y := s.til t
  let c := s.cycle (fieldOf t)
  let s := s.setTil t { y with view := mput y.view tag .committed }
  let lines := (s.tagLines t tag).filter (·.2.op.isNone)
  let s := s.each ((List.range lines.length).zip lines) fun s ikl => s.writeBack t ikl.2.1 (s.after t c ikl.1) ikl.2.2
  s.each (s.tagLines t tag) fun s kl => match kl.2.op with
    | none => s
    | some m =>
      let s := s.freeShadow t kl.1 c
      if m.op = .landing then s.postBuoy t m none else s.releaseBuoy t m kl.2.far

/-- The words of a squashed tag leave an in-slot (R287, R564), and the items they belong to are lost (R313). -/
def State.squashQueue (s : State) (t k tag : Nat) : State :=
  let x := s.slot t k
  let c := s.cycle (fieldOf t)
  let gone := x.queue.filter (·.mark = .tag tag)
  if gone = [] then s
  else
    let cut : Bool := x.midItem && decide ((x.queue.getLast?).map (·.mark) = some (.tag tag))
    let s := (s.setQueue t k c (x.queue.filter (·.mark ≠ .tag tag))).discardWords t k c gone
    let y := s.til t
    let s := s.setTil t { y with svc := y.svc.filter fun r => match r with
      | .landing k' _ _ _ m => !(decide (k' = k) && decide (m = .tag tag))
      | _ => true }
    let s := if cut then s.setPartial t k false else s
    s.each (gone.map (·.token)).eraseDups fun s q => s.itemLost t k q

/-- A move of an item of a squashed tag is aborted while it is in progress; the LOOP that sent the item round, or was to, becomes
IDLE (R313, R314). -/
def State.squashMove (s : State) (t tag : Nat) : State :=
  let y := s.til t
  let c := s.cycle (fieldOf t)
  match y.move with
  | none => s
  | some m =>
    let under := m.item.any fun w => decide (w.mark = .tag tag)
    let going := decide (max c m.from_ + 1 < y.pathFree) || (s.pathHolder t).isSome
    if (under && going) = false then s
    else
      let s := (s.abortMoves t c false).itemLost t m.src ((m.item.head?.map (·.token)).getD none)
      if s.gf F.strRule_op t m.rule = 5 then s.loopIdle t m.rule else s

/-- A tag seen SQUASHED at a tile (R564). -/
def State.squashAt (s : State) (t tag : Nat) : State :=
  let y := s.til t
  let lines := s.tagLines t tag
  let c := s.cycle (fieldOf t)
  let s := s.setTil t
    (({ y with view := mput y.view tag .squashed, shadow := y.shadow.filter (·.2.tag ≠ tag) } : Tile).noteShadow y c)
  let s := s.bump .sptCountLinesDiscard t 0 lines.length
  let s := s.each lines fun s kl => match kl.2.op with
    | some m => if m.op = .landing then s
        else
          let g := s.grp t m.group
          s.setGrp t m.group { g with opsOut := g.opsOut - 1 }
    | none => s
  let s := (s.each (List.range 16) fun s k => s.squashQueue t k tag).squashMove t tag
  s.each ((List.range 16).map (· + 16)) fun s k =>
    let ids := (s.slot t k).sendBuf.filter fun id => match s.pkt id with
      | some p => decide (p.mark = .tag tag)
      | none => false
    let lost := (ids.filterMap s.pkt).map (·.token)
    s.each lost (fun s q => match q with
      | some (u, r) => s.loopIdle u r
      | none => s) |>.dropBuffered t k c ids

/-- A tile acts on what its sector's home has decided of a tag, its ancestors' commits first (R557, R563, R564). -/
def State.resolveAt (s : State) (t tag : Nat) : State :=
  let sec := s.sectorOf t
  s.each ((s.ancestors sec 4 tag).reverse) fun s k =>
    match mget .free (s.til t).view k, s.tagSt sec k with
    | .committed, _ => s
    | .squashed, _ => s
    | _, .committed => s.commitAt t k
    | _, .squashed => if k = tag then s.squashAt t k else s
    | _, _ => s

/-- RESOLUTION (R561, R563-R565): tag `tag` of tile `t`'s sector, resolved at home, reaches the tile. -/
def execResolution (t tag : Nat) (s : State) : Host.Outcome State Fault Refusal :=
  onTile t (if tag < 16 then s.resolveAt t tag else s)

/-! ### The sweep (R566, R568) -/

/-- Every tag of a sector that is not COMMITTED becomes SQUASHED; those that were unresolved are counted (R566). -/
def State.sweep (s : State) (f sec : Nat) : State :=
  let n := ((List.range 16).filter fun k => (s.tagSt sec k).unresolved).length
  let s := s.each (List.range 16) fun s k => if s.tagSt sec k = .committed then s else s.setTagSt sec k .squashed
  let s := s.bump .sptCountSweep f 0 n
  let s := if n = 0 then s else s.hset F.sptStatus_swept f 0
  s.setFld f { s.fld f with swept := sec :: (s.fld f).swept }

/-- SPEC_SWEEP (R566): the sweep cycle of a sector at its home field, s = 6 for a single-field sector and 180 ticks
after s = 0 for another; every operation issued in WORK is applied first, in the order of arrival. -/
def execSpecSweep (f sec : Nat) (s : State) : Host.Outcome State Fault Refusal :=
  onField f (
    let x := s.fld f
    if x.phase ≠ .settle ∨ s.homeOf sec ≠ f ∨ x.swept.contains sec = true ∨ ¬((s.sectorsIn f).contains sec = true) then s
    else
      let s0 := cycleInstant x (settleStart x)
      let s := s.advanceTo (if (s.fieldsOf sec).length ≤ 1 then cycleInstant x (settleStart x + 6) else s0 + 180)
      let ms := s.tagMsgs.filter fun m => m.sector = sec
      let s := { s with tagMsgs := s.tagMsgs.filter fun m => m.sector ≠ sec }
      (s.applyInOrder f ms.length (ms.filter fun m => m.parity = s.parity f)).sweep f sec)

end Sys2Proof.Machine
end

