-- ==== Sys2Proof/Machine/FieldStore.lean ====
section
/-! DEFINITION. Field store: regions, banks, the commit journal and scrub (spec/11_matvec_field_store_and_staging.md,
R499-R514, R539). -/

namespace Sys2Proof.Machine

/-! ### Regions (R505, R506) -/

/-- Whether a field's region entry is valid and covers an offset. -/
def State.regionCovers (s : State) (f r off : Nat) : Bool :=
  s.flag F.fstRegionCfg_valid f r && decide (s.gf F.fstRegionSpan_base f r ≤ off / 4096) &&
    decide (off / 4096 ≤ s.gf F.fstRegionSpan_base f r + s.gf F.fstRegionSpan_size_m1 f r)

/-- The region that holds an offset. -/
def State.regionAt (s : State) (f off : Nat) : Option Nat := (List.range 256).find? fun r => s.regionCovers f r off

/-- The region that holds all of `n` bytes from an offset, where it admits a sector (R505, R506). -/
def State.regionFor (s : State) (f sec off n : Nat) : Option Nat :=
  (s.regionAt f off).filter fun r => s.regionCovers f r (off + n - 1) &&
    s.accessAdmits f (s.gf F.fstRegionCfg_access f r) (s.gf F.fstRegionCfg_owner f r) sec

/-- Kind of a region: 0 SCRATCH, 1 COMMITTED, 2 STAGED. -/
def State.regionKind (s : State) (f r : Nat) : Nat := s.gf F.fstRegionCfg_kind f r

/-- Whether a read of a region is permitted: a staged one must be READY (R505). -/
def State.regionReads (s : State) (f r : Nat) : Bool :=
  match s.regionKind f r with
  | 0 | 1 => true
  | 2 => s.gf F.fstRegionCfg_state f r = 2
  | _ => false

/-! ### The journal (R509-R513) -/

/-- The entries of a field's journal for a block. -/
def State.entriesOf (s : State) (f block : Nat) : List JEntry := s.journal.filter fun e => e.field = f && e.block = block

/-- The entries whose data a reader sees: the committed ones, then its own sector's of the current watch (R511, R512). -/
def State.seenEntries (s : State) (f block : Nat) (sec : Option Nat) : List JEntry :=
  let es := s.entriesOf f block
  es.filter (·.committed) ++ es.filter fun e => !e.committed && decide (sec = some e.sector)

/-- An entry as it stood before watch cycle `c`: what a tile wrote in `c` is not seen in it (R511). -/
def JEntry.before (e : JEntry) (c : Nat) : JEntry :=
  if e.committed = false ∧ e.cyc = c + 1 then { e with mask := e.oldMask, data := e.oldData, bad := e.oldBad } else e

/-- The entries that a reader sees, as they stood before this cycle. -/
def State.seenNow (s : State) (f block : Nat) (sec : Option Nat) : List JEntry :=
  (s.seenEntries f block sec).map fun e => e.before (s.cycle f)

/-- A byte of field store as a sector, or a window (none), reads it (R511, R512). -/
def State.seeByte (s : State) (f : Nat) (sec : Option Nat) (off : Nat) : Byte :=
  (s.seenNow f (off / 64) sec).foldl (fun b e => if e.mask.testBit (off % 64) then mget 0 e.data (off % 64) else b)
    (s.fstByte f off)

/-- Whether the 64-bit word at an offset reads uncorrectable (R514): its own mark, unless entries cover it whole, or
the mark of an entry. -/
def State.seeBad (s : State) (f : Nat) (sec : Option Nat) (off : Nat) : Bool :=
  let w := off % 64 / 8
  let es := s.seenNow f (off / 64) sec
  let covered := (List.range 8).all fun j => es.any fun e => e.mask.testBit (w * 8 + j)
  (s.fstMarked f off && !covered) || es.any fun e => e.bad.contains w

/-- A 32-bit word of field store as a sector or a window reads it. -/
def State.seeWord (s : State) (f : Nat) (sec : Option Nat) (off : Nat) : TWord :=
  { w := wordOfBytes (s.seeByte f sec off) (s.seeByte f sec (off + 1)) (s.seeByte f sec (off + 2))
      (s.seeByte f sec (off + 3))
    bad := s.seeBad f sec off }

/-- The journal entry of a sector's block in the current watch. -/
def State.ownEntry (s : State) (f sec block : Nat) : Option JEntry :=
  (s.entriesOf f block).find? fun e => !e.committed && decide (e.sector = sec)

/-- Entries of a region allocated in the current watch, counted against its quota (R509). -/
def State.quotaUsed (s : State) (f r : Nat) : Nat :=
  (s.journal.filter fun e => e.field = f && e.region = r && !e.committed).length

/-- An entry with bytes merged in: (offset in the block, byte) pairs, and words written with a mark (R509, R514); `cyc` is 1 more than
the cycle of a tile's write, and 0 for a lens's or the MV engine's, whose bytes came in earlier cycles (R511). -/
def JEntry.merge (e : JEntry) (bs : List (Nat × Byte)) (bad : List Nat) (cyc : Nat) : JEntry :=
  let written (w : Nat) : Bool := (List.range 8).all fun j => bs.any fun b => b.1 = w * 8 + j
  let e := if e.cyc = cyc then e else { e with cyc := cyc, oldMask := e.mask, oldData := e.data, oldBad := e.bad }
  { e with mask := bs.foldl (fun m b => if m.testBit b.1 then m else m + 2 ^ b.1) e.mask
           data := bs.foldl (fun d b => mput d b.1 b.2) e.data
           bad := bad ++ e.bad.filter fun w => !(written w) && !(bad.contains w) }

/-- A quota refusal (R510). -/
def State.quotaRefused (s : State) (f r off : Nat) : State :=
  (s.hset F.fstStatus_quota f 0).logEv evJournalQuota f f (detail2 r off)

/-- Whether writes to committed regions are still taken in this watch: none is at or after the commit point (R513). -/
def State.beforeCommit (s : State) (f : Nat) : Bool :=
  match (s.fld f).phase with
  | .intake | .work | .settle => true
  | _ => false

/-- Bytes of one block written to a region by a sector: at once in a SCRATCH region, into the journal in a COMMITTED
one, none where the kind or the quota refuses (R505, R509, R510, R513). -/
def State.regionWrite (s : State) (f sec r block : Nat) (bs : List (Nat × Byte)) (bad : List Nat) (cyc : Nat := 0) : Option State :=
  match s.regionKind f r with
  | 0 =>
    let s := s.each bs fun s b => { s with fst := memWrite s.fst (fstAddr f (block * 64 + b.1)) b.2 }
    let whole := (List.range 8).filter fun w => (List.range 8).all fun j => bs.any fun b => b.1 = w * 8 + j
    let addr (w : Nat) : Nat := fstAddr f (block * 64 + w * 8)
    some { s with fstBad := bad.map addr ++ s.fstBad.filter fun a =>
                    !((whole.map addr).contains a) && !((bad.map addr).contains a)
                  fstWeak := s.fstWeak.filter fun a => !((whole.map addr).contains a) }
  | 1 =>
    if s.beforeCommit f = false then some s
    else match s.ownEntry f sec block with
      | some e => some { s with journal := s.journal.map fun x => if x = e then e.merge bs bad cyc else x }
      | none =>
        if s.quotaUsed f r < s.gf F.fstRegionCfg_quota f r then
          let e : JEntry := { field := f, sector := sec, block := block, region := r }
          some { s with journal := s.journal ++ [e.merge bs bad cyc] }
        else none
  | _ => none

/-! ### Requests of lenses and of the MV engine (R506) -/

/-- Why field store does not serve a request of a lens or the MV engine. -/
inductive FsErr where
  | refused (off : Nat)
  | poison (off : Nat)
  deriving DecidableEq, Repr

/-- A request refused under R506 or R507, counted. -/
def State.countRefused (s : State) (f : Nat) : State :=
  (s.bump .fstCountRefused f 0 1).hset F.fstStatus_refused f 0

/-- `n` bytes read by a lens or the MV engine. -/
def State.fsRead (s : State) (f sec off n : Nat) : Except FsErr (List Byte) :=
  match s.regionFor f sec off n with
  | none => .error (.refused off)
  | some r =>
    if s.regionReads f r = false then .error (.refused off)
    else match (List.range n).find? fun j => s.seeBad f (some sec) (off + j) with
      | some j => .error (.poison (off + j))
      | none => .ok ((List.range n).map fun j => s.seeByte f (some sec) (off + j))

/-- Bytes written from an offset by a lens or the MV engine, block by block; the state reached, and the error that
stopped the writing, if one did. -/
def State.fsWrite (s : State) (f sec : Nat) : Nat → List (List (Nat × Byte)) → State × Option FsErr
  | _, [] => (s, none)
  | block, bs :: rest =>
    if bs = [] then s.fsWrite f sec (block + 1) rest
    else
      let off := block * 64 + (bs.headD (0, 0)).1
      match s.regionFor f sec off bs.length with
      | none => (s, some (.refused off))
      | some r => match s.regionWrite f sec r block bs [] with
        | none => (if s.regionKind f r = 1 then s.quotaRefused f r off else s, some (.refused off))
        | some s => s.fsWrite f sec (block + 1) rest

/-- A run of bytes from an offset cut into 64-byte blocks, the first of them `off / 64`. -/
def blocksOf (off : Nat) (bs : List Byte) : List (List (Nat × Byte)) :=
  let n := (off % 64 + bs.length + 63) / 64
  let all := ((List.range bs.length).zip bs).map fun jb => (off % 64 + jb.1, jb.2)
  (List.range n).map fun k => (all.filter fun b => b.1 / 64 = k).map fun b => (b.1 % 64, b.2)

/-- Counters of a lens's or MV engine's field-store error (R542). -/
def State.fsErrCount (s : State) (f : Nat) : FsErr → State
  | .refused _ => s.countRefused f
  | .poison _ => s.bump .fstCountPoison f 0 1

/-! ### Tile requests -/

/-- The state with a request at the end of its bay port's queue. -/
def State.queueBay (s : State) (b : Nat) (p : Packet) : State :=
  { s with bayQueues := mput s.bayQueues b (mget [] s.bayQueues b ++ [p]) }

/-- The ejected packet with an id that asks field store for something. -/
def State.fsArrived (s : State) (id : Nat) : Option Packet := (s.arrived id .rload).orElse fun _ => s.arrived id .rstore

/-- Whether the zero bits and the field of a space-0x1 address are as R500 requires at a field. -/
def fsAddrOk (f a : Nat) : Bool := bits a 59 46 = 0 && bits a 39 26 = 0 && bits a 45 40 = f

/-- Whether a region admits a tile's request (R506, R507). -/
def State.fsAdmits (s : State) (f : Nat) (p : Packet) : Bool :=
  match s.regionFor f p.sector (p.full % 2 ^ 26 / 64 * 64) 64 with
  | none => false
  | some r =>
    if p.ty = .rload then s.regionReads f r
    else s.regionKind f r ≤ 1 && !(match p.mark with | .tag _ => true | _ => false)

/-- FIELD_STORE_REQUEST (R500, R505-R508): a tile's RLOAD or RSTORE to space 0x1 reaches its bay port; refused with
RFAIL or NACK, or queued for its bank. -/
def execFieldStoreRequest (id : Nat) (s : State) : Host.Outcome State Fault Refusal :=
  match s.fsArrived id with
  | none => .next s
  | some p =>
    let f := fieldOf p.at_
    if addrSpace p.full ≠ 1 ∨ (s.fld f).fogged = true then .next s
    else if s.stalePacket p then .next (s.dropPkt id)
    else if p.ty = .rload ∧ s.storeFull p.at_ = true then .next (s.stall p.at_)
    else if fsAddrOk f p.full = false ∨ (s.fld f).phase = .intake then
      .next ((s.bump .fstCountRefused f 0 1).refuseAccess p.at_ p)
    else if s.fsAdmits f p = false then .next ((s.countRefused f).refuseAccess p.at_ p)
    else .next ((s.dropPkt id).queueBay (bayOf p.at_) p)

/-- Bank of a byte offset (R499). -/
def bankOf (off : Nat) : Nat := off / 128 % 32

/-- Whether a bank is taken for scrub in a watch cycle (R502). -/
def scrubSlot (bank c : Nat) : Bool := 4 * bank ≤ c % 128 && c % 128 ≤ 4 * bank + 2

/-- The bay ports of a field whose head request wants a bank, in round-robin order after the one served last (R502). -/
def State.bankTurn (s : State) (f bank : Nat) : List Nat :=
  let last := mget 35 s.bankLast (f, bank)
  ((List.range 36).map fun k => bayAt f ((last + 1 + k) % 36)).filter fun b =>
    match mget [] s.bayQueues b with
    | p :: _ => decide (bankOf (p.full % 2 ^ 26) = bank)
    | [] => false

/-- The instant `k` core cycles of a field after another. -/
def State.cyclesOn (s : State) (f t k : Nat) : Nat :=
  let mhz := (s.fld f).mhz
  t + ceilDiv (k * 1000) (if mhz = 0 then 1000 else mhz)

/-- The instant of a bay port's bank access for a request that waited `waited` cycles for its bank: at the earliest one cycle after a
load's head or a store's tail was ejected, and after the port's last access (R503). -/
def State.accessAt (s : State) (f : Nat) (p : Packet) (waited : Nat) : Nat :=
  max (s.cyclesOn f p.since ((if p.ty = .rload then 1 else p.flits) + waited))
    (s.cyclesOn f (mget 0 s.bankLast (64 + f, bayOf p.at_)) 1)

/-- A load served: RDATA, or RPOISON where a word is uncorrectable, in the router from the instant `since` (R503, R514). -/
def State.fsLoad (s : State) (f : Nat) (p : Packet) (since : Nat) : State :=
  let off := p.full % 2 ^ 26 / 64 * 64
  let ws := (List.range 16).map fun j => s.seeWord f (some p.sector) (off + 4 * j)
  let bad := ((List.range 8).filter fun j => s.seeBad f (some p.sector) (off + 8 * j)).length
  let s := (s.fstEcc f ((List.range 8).map fun j => off + 8 * j)).bump .fstCountPoison f 0 bad
  s.respond p.at_ p { id := 0, ty := if bad ≠ 0 then .rpoison else .rdata, len := 4, dest := p.src, src := p.at_
                      at_ := p.at_, sslot := p.sslot, gen := p.gen, body := ws, group := p.group, since := since }

/-- A store performed, its ACK in the router from the instant `since`, or refused beyond its region's quota (R503, R510). -/
def State.fsStore (s : State) (f : Nat) (p : Packet) (since : Nat) : State :=
  let off := p.full % 2 ^ 26 / 64 * 64
  let bs := (List.range 64).filterMap fun j => if p.mask.testBit (j / 4) then
    some (j, byteOf (p.body.getD (j / 4) { w := 0 }).w (j % 4)) else none
  let bad := (List.range 8).filter fun w => (p.mask.testBit (2 * w) && (p.body.getD (2 * w) { w := 0 }).bad) ||
    (p.mask.testBit (2 * w + 1) && (p.body.getD (2 * w + 1) { w := 0 }).bad)
  match s.regionFor f p.sector off 64 with
  | none => (s.countRefused f).refuseAccess p.at_ p
  | some r => match s.regionWrite f p.sector r (off / 64) bs bad (s.cycle f + 1) with
    | some s => s.ackStore p.at_ p since
    | none => ((s.quotaRefused f r off).countRefused f).refuseAccess p.at_ p

/-- FIELD_STORE_BANK_ACCESS (R502, R503, R509-R514): bank `bank` of field `f` serves the bay port whose turn it is,
whose request has waited `waited` cycles. A bank taken by scrub or by the journal apply serves none. -/
def execFieldStoreBankAccess (f bank waited : Nat) (s : State) : Host.Outcome State Fault Refusal :=
  onField f (
    let applying := s.journal.any fun e => e.field = f && e.committed && decide (bankOf (e.block * 64) = bank)
    if (s.fld f).fogged = true ∨ applying = true ∨ scrubSlot bank (s.cycle f) = true then s
    else match s.bankTurn f bank with
      | [] => s
      | b :: _ => match mget [] s.bayQueues b with
        | [] => s
        | p :: rest =>
          let t := s.accessAt f p waited
          let s := { s with
            bayQueues := mput s.bayQueues b rest
            bankLast := mput (mput s.bankLast (f, bank) (bayInField b)) (64 + f, b) t }
          let s := (s.bump .fstCountAccess f 0 1).bump .fstCountConflict f 0 waited
          if p.ty = .rload then s.fsLoad f p (s.cyclesOn f t 9) else s.fsStore f p (s.cyclesOn f t 1))

/-- A committed entry written to its bank and freed (R512). -/
def State.applyEntry (s : State) (e : JEntry) : State :=
  let s := { s with journal := s.journal.erase e }
  let s := s.each ((List.range 64).filter e.mask.testBit) fun s j =>
    { s with fst := memWrite s.fst (fstAddr e.field (e.block * 64 + j)) (mget 0 e.data j) }
  let addr (w : Nat) : Nat := fstAddr e.field (e.block * 64 + w * 8)
  let whole := (List.range 8).filter fun w => (List.range 8).all fun j => e.mask.testBit (w * 8 + j)
  { s with fstBad := e.bad.map addr ++ s.fstBad.filter fun a =>
             !((whole.map addr).contains a) && !((e.bad.map addr).contains a)
           fstWeak := s.fstWeak.filter fun a => !((whole.map addr).contains a) }

/-- JOURNAL_APPLY (R512): the next committed entry of field `f` is written to its bank. -/
def execJournalApply (f : Nat) (s : State) : Host.Outcome State Fault Refusal :=
  onField f (match s.journal.find? fun e => e.field = f && e.committed with
    | none => s
    | some e => if (s.fld f).fogged then s else (s.applyEntry e).bump .fstCountAccess f 0 1)

/-- FST_SCRUB (R502, R514, R539): scrub reads line `line` of bank `bank`. `found` is a bit error it meets there: the
64-bit word (0–15) and whether it is uncorrectable. -/
def execFstScrub (f bank line : Nat) (found : Option (Nat × Bool)) (s : State) : Host.Outcome State Fault Refusal :=
  onField f (
    let off := line * 4096 + bank * 128
    if (s.fld f).fogged = true ∨ 32 ≤ bank ∨ 16384 ≤ line then s
    else
      let s := match found with
        | none => s
        | some (w, true) => { s with fstBad := markWord s.fstBad (fstAddr f (off + w % 16 * 8)) true }
        | some (_, false) => s.bump .fstCountEccCorr f 0 1
      let words := (List.range 16).map fun w => off + w * 8
      let s := s.fstEcc f words
      let s : State := { s with fstWeak := s.fstWeak.filter fun a => !((words.map (fstAddr f)).contains a) }
      s.each ((List.range 16).filter fun w => s.fstMarked f (off + w * 8)) fun s w =>
        (s.hset F.fstStatus_poison f 0).logEv evFstPoison f f (off + w * 8))

end Sys2Proof.Machine
end

