-- ==== Sys2Proof/Machine/Sectors.lean ====
section
/-! DEFINITION. Sectors of the loaded image, the character each runs, and the stretch ledger (R104, R105, R620). -/

namespace Sys2Proof.Machine

/-- The sector's state, if the loaded image has it. -/
def State.sec (s : State) (k : Nat) : Option SectorSt := mfind s.sectors k

/-- The state with a sector's state set. -/
def State.setSec (s : State) (k : Nat) (x : SectorSt) : State := { s with sectors := mput s.sectors k x }

/-- A sector's state changed, where the loaded image has it. -/
def State.updSec (s : State) (k : Nat) (f : SectorSt → SectorSt) : State :=
  match s.sec k with
  | some x => s.setSec k (f x)
  | none => s

/-- The valid character with an id. -/
def tableChar (t : ImgTable) (k : Nat) : Option ImgChar := t.chars.find? (·.id = k)

/-- Whether a sector of a started image has come to its first watch (R129, R621). -/
def State.sectorBegun (s : State) (x : SectorSt) : Bool := s.imageStarted && decide (x.from_ ≤ s.stationWatch)

/-- Whether a field runs a watch that the station has not begun: it coasts, and no station beacon has fired (R119, R725). -/
def State.ahead (s : State) (f : Nat) : Bool := decide (s.stationWatch < (s.fld f).watch)

/-- The selection that a sector runs under in the watch of field `f`. The station's beacon moves the selections on; a field ahead
of it runs the one for the next watch (R120). -/
def State.selIn (s : State) (f : Nat) (x : SectorSt) : Selection := if s.ahead f then x.next else x.now

/-- A sector with the selection replaced that it runs under in the watch of field `f`. -/
def State.putSel (s : State) (f : Nat) (x : SectorSt) (c : Selection) : SectorSt :=
  if s.ahead f then { x with next := c } else { x with now := c }

/-- Whether a sector has come to its first watch in the watch of field `f`. -/
def State.begunIn (s : State) (f : Nat) (x : SectorSt) : Bool :=
  s.imageStarted && decide (x.from_ ≤ max s.stationWatch (s.fld f).watch)

/-- The character a sector runs in the current watch of field `f` (R620), none where it is shelved. -/
def State.runChar (s : State) (f k : Nat) : Option ImgChar :=
  match s.sec k with
  | some x =>
    let c := s.selIn f x
    if c.shelved = true ∨ s.begunIn f x = false then none else tableChar x.table c.char
  | none => none

/-- The sector of a bay's tiles, 0xFFF for none. -/
def State.sectorOfBay (s : State) (b : Nat) : Nat := s.sectorOf (bayPort b)

/-- One more stretched cycle of WORK in a bay's running ledger; the first to exceed the stretch budget B of its
sector's character logs STRETCH_OVERDRAFT, once for the bay in the watch (R104, R105, R662). -/
def State.bayStretch (s : State) (f b : Nat) : State :=
  let k := bayInField b
  let n := min (s.gf F.pwrStretchLive_count f k + 1) 0x1FFFFF
  let s := s.sf F.pwrStretchLive_count f k n
  match s.runChar f (s.sectorOfBay b) with
  | none => s
  | some c =>
    let x := s.fld f
    if c.b < n ∧ x.overdraft.contains b = false then
      (s.setFld f { x with overdraft := b :: x.overdraft }).logEv evStretchOverdraft f b (detail2 n c.b)
    else s

/-! ### Lens time (R415) -/

/-- The first lens cycle that begins at or after an instant of the field's watch (R928). -/
def lensCycleFrom (x : FieldSt) (t : Nat) : Nat := ceilDiv ((t - x.startAt) * x.lensMhz) 1000

/-- The instant a lens cycle begins. -/
def lensInstant (x : FieldSt) (c : Nat) : Nat := x.startAt + ceilDiv (c * 1000) (max x.lensMhz 1)

/-- The lens cycle of a field now. -/
def State.lensCycle (s : State) (f : Nat) : Nat := (s.now - (s.fld f).startAt) * (s.fld f).lensMhz / 1000

end Sys2Proof.Machine
end

