-- ==== Sys2Proof/Machine/Lens.lean ====
section
/-! DEFINITION. Lens arrays (spec/09_lens_arrays.md): launches, pass slots, loads and preloads, execution to the bit,
abandonment, stretch. -/

namespace Sys2Proof.Machine

/-! ### Descriptors (R429) -/

/-- A pass descriptor as its 14 words give it. -/
structure LensDesc where
  valid : Bool
  kind : Nat
  pset : Nat
  reduce : Bool
  acc : Bool
  wfmt : Nat
  afmt : Nat
  ofmt : Nat
  sector : Nat
  rbase : Nat
  cbase : Nat
  k : Nat
  n : Nat
  waddr : Nat
  abase : Nat
  obase : Nat
  h : Nat
  w : Nat
  c : Nat
  cin0 : Nat
  clen : Nat
  kh : Nat
  kw : Nat
  sh : Nat
  sw : Nat
  dh : Nat
  dw : Nat
  pt : Nat
  pl : Nat
  oh0 : Nat
  ow0 : Nat
  ohn : Nat
  own : Nat
  owt : Nat
  opitch : Nat
  deriving DecidableEq, Repr

/-- A descriptor from its words. -/
def lensDescOf (w : Nat → Nat) : LensDesc :=
  { valid := bitAt (w 0) 31, kind := bits (w 0) 30 29, pset := bits (w 0) 28 28, reduce := bitAt (w 0) 27
    acc := bitAt (w 0) 26, wfmt := bits (w 0) 23 20, afmt := bits (w 0) 19 16, ofmt := bits (w 0) 15 12
    sector := bits (w 0) 11 0, rbase := bits (w 1) 25 16, cbase := bits (w 1) 9 0, k := bits (w 2) 25 16 + 1
    n := bits (w 2) 9 0 + 1, waddr := bits (w 3) 25 0, abase := bits (w 4) 25 0, obase := bits (w 5) 25 0
    h := bits (w 6) 31 16, w := bits (w 6) 15 0, c := bits (w 7) 31 16, cin0 := bits (w 7) 15 0
    clen := bits (w 8) 31 16, kh := bits (w 8) 15 8, kw := bits (w 8) 7 0, sh := bits (w 9) 31 24
    sw := bits (w 9) 23 16, dh := bits (w 9) 15 8, dw := bits (w 9) 7 0, pt := bits (w 10) 31 24
    pl := bits (w 10) 23 16, oh0 := bits (w 11) 31 16, ow0 := bits (w 11) 15 0, ohn := bits (w 12) 31 16
    own := bits (w 12) 15 0, owt := bits (w 13) 31 16, opitch := bits (w 13) 15 0 }

/-- Descriptor `d` of a lens. -/
def State.lensDesc (s : State) (l d : Nat) : LensDesc := lensDescOf fun w => (s.rd .lnsDesc l (d * 16 + w)).toNat

/-- The format a field of a descriptor names; a reserved code names none and no valid descriptor holds one. -/
def descFmt (code : Nat) : Fmt := (fmtOfCode code).getD .i32

/-- Planes b of a weight format (R416). -/
def lensPlanes (f : Fmt) : Nat := fmtWidth f

/-- Serial lens cycles c of a weight format per vector (R416). -/
def lensSerial : Fmt → Nat
  | .t2 => 2 | .i4 => 4 | .i8 => 8 | .i16 => 16 | .e5m2 => 4 | .b4 => 4 | .e4m3 => 5 | .bf16 => 9 | .fp16 => 12
  | _ => 0

/-- Whether a format is an integer format or T2. -/
def intFmt : Fmt → Bool
  | .i32 | .t2 | .i4 | .i8 | .i16 => true
  | _ => false

/-- Whether a pass is an integer pass (R419). -/
def LensDesc.integer (d : LensDesc) : Bool :=
  intFmt (descFmt d.wfmt) && (match descFmt d.afmt with | .i4 | .i8 | .i16 => true | _ => false)

/-- Panel size of a mode, none outside split mode (R424). -/
def panelSize (mode : Nat) : Option Nat := if mode = 2 then some 32 else if mode = 3 then some 16 else none

/-- Whether the pass keeps its row bands apart (R427). -/
def LensDesc.bands (d : LensDesc) (mode : Nat) : Nat :=
  match panelSize mode with
  | some p => if d.reduce then 1 else d.k / p
  | none => 1

/-- N_out (R427). -/
def LensDesc.nOut (d : LensDesc) (mode : Nat) : Nat := d.n * d.bands mode

/-- V, the number of activation vectors (R440). -/
def LensDesc.vectors (d : LensDesc) : Nat := d.ohn * d.own

/-- p, the lens cycles of one vector (R440). -/
def LensDesc.perVector (d : LensDesc) (mode : Nat) : Nat :=
  let gin := if 4 ≤ mode then 2 else 1
  let gout := if mode = 5 then 2 else 1
  max (lensSerial (descFmt d.wfmt)) (max (ceilDiv (d.k * fmtWidth (descFmt d.afmt)) (4096 * gin))
    (ceilDiv (d.nOut mode * fmtWidth (descFmt d.ofmt)) (4096 * gout)))

/-- X without the lens cycles field store adds (R440). -/
def LensDesc.execCycles (d : LensDesc) (mode : Nat) : Nat :=
  16 + d.vectors * d.perVector mode + 24 + (if d.acc then 8 else 0)

/-- Lens cycles of a load (R435). -/
def LensDesc.loadCycles (d : LensDesc) : Nat :=
  8 + ceilDiv (d.k * d.n * lensPlanes (descFmt d.wfmt)) 2048 +
    (if descFmt d.wfmt = .b4 then ceilDiv (d.k / 32 * d.n * 8) 2048 else 0)

/-- The 16 × 16 panels a descriptor covers, as (panel row, panel column) of the gang. -/
def LensDesc.panels (d : LensDesc) : List (Nat × Nat) :=
  let rows := (List.range 64).filter fun r => decide (d.rbase / 16 ≤ r) && decide (r ≤ (d.rbase + d.k - 1) / 16)
  let cols := (List.range 64).filter fun c => decide (d.cbase / 16 ≤ c) && decide (c ≤ (d.cbase + d.n - 1) / 16)
  rows.flatMap fun r => cols.map fun c => (r, c)

/-- Whether two descriptors use one plane set in a common panel (R437, R439). -/
def LensDesc.clash (d e : LensDesc) : Bool := d.pset = e.pset && d.panels.any e.panels.contains

/-! ### Lenses and gangs (R424, R425) -/

def State.lens (s : State) (l : Nat) : LensSt := mget {} s.lenses l
def State.setLens (s : State) (l : Nat) (x : LensSt) : State := { s with lenses := mput s.lenses l x }

/-- The mode of a lens. -/
def State.lensMode (s : State) (l : Nat) : Nat := s.gf F.lnsMode_mode l

/-- The lens that leads the gang of lens `l`, itself outside a gang (R425, R45). -/
def State.lensLead (s : State) (l : Nat) : Nat :=
  match s.lensMode l with
  | 4 => l / 2 * 2
  | 5 => l / 4 * 4
  | _ => l

/-- Whether a lens takes launches: not OFF or a reserved mode, and the lowest of its gang (R424, R432). -/
def State.lensTakes (s : State) (l : Nat) : Bool :=
  decide (1 ≤ s.lensMode l) && decide (s.lensMode l ≤ 5) && decide (s.lensLead l = l)

/-! ### Reports (R442) -/

/-- The second core cycle of a field that begins at or after an instant (R442, R928). -/
def secondCycle (x : FieldSt) (t : Nat) : Nat := cycleInstant x (ceilDiv ((t - x.startAt) * x.mhz) 1000 + 1)

/-- A report block as RDATA from the bay port that took the launch, in its router from the instant `since` or from now. -/
def State.launchReport (s : State) (p : Packet) (words : List Nat) (since : Nat := 0) : State :=
  let ws : List TWord := (List.range 16).map fun j => { w := BitVec.ofNat 32 (words.getD j 0) }
  s.respond p.at_ p { id := 0, ty := .rdata, len := 4, dest := p.src, src := p.at_, at_ := p.at_, sslot := p.sslot
                      gen := p.gen, body := ws, group := p.group, since := since }

/-- The report words of a pass (R442). -/
def passReport (seq status cycles stretched stall sat resv : Nat) : List Nat :=
  [seq % 2 ^ 16 * 2 ^ 16 + status, cycles, stretched, stall, sat, resv]

/-! ### The bits of a pass (R417-R423, R436, R443, R444) -/

/-- An element of `width` bits, packed from bit 0 upward, read at element index `e` from a base (R436, R443, R474). -/
def State.readElem (s : State) (f sec base e width : Nat) : Except FsErr Nat :=
  (s.fsRead f sec (base + e * width / 8) (max 1 (width / 8))).map fun bs =>
    let n := ((List.range bs.length).zip bs).foldl (fun a jb => a + jb.2.toNat * 2 ^ (8 * jb.1)) 0
    if width < 8 then n / 2 ^ (e * width % 8) % 2 ^ width else n

/-- The planes of a cell with the low `b` rewritten (R416). -/
def setPlanes (old b v : Nat) : Nat := old / 2 ^ b * 2 ^ b + v

/-- One cell loaded: element (r, j) of the weights (R436). -/
def State.loadCell (s : State) (l f : Nat) (d : LensDesc) (r j : Nat) : Except FsErr LensSt :=
  let b := lensPlanes (descFmt d.wfmt)
  let x := s.lens l
  let key := (d.pset, d.rbase + r, d.cbase + j)
  if descFmt d.wfmt = .b4 then
    let base := d.waddr + (r / 32 * d.n + j) * 17
    match s.readElem f d.sector base 0 8, s.readElem f d.sector (base + 1) (r % 32) 4 with
    | .ok e, .ok v => .ok { x with planes := mput x.planes key (setPlanes (mget 0 x.planes key) b v)
                                   exps := mput x.exps (d.pset, (d.rbase + r) / 32, d.cbase + j) e }
    | .error e, _ => .error e
    | _, .error e => .error e
  else
    (s.readElem f d.sector d.waddr (r * d.n + j) b).map fun v =>
      { x with planes := mput x.planes key (setPlanes (mget 0 x.planes key) b v) }

/-- A load's cells, in row order, up to the first access field store does not serve, with the number of its cell (R436, R458). -/
def State.loadCells (s : State) (l f : Nat) (d : LensDesc) : List (Nat × Nat) → State × Option (Nat × FsErr)
  | [] => (s, none)
  | (r, j) :: rest =>
    match s.loadCell l f d r j with
    | .ok x => (s.setLens l x).loadCells l f d rest
    | .error e => (s, some (r * d.n + j, e))

/-- The weight of a cell, none for a reserved T2 code (R417, R473). -/
def LensSt.weight (x : LensSt) (d : LensDesc) (r j : Nat) : Option FVal :=
  let fm := descFmt d.wfmt
  let w := mget 0 x.planes (d.pset, d.rbase + r, d.cbase + j) % 2 ^ lensPlanes fm
  if fm = .b4 then some (b4Value (mget 0 x.exps (d.pset, (d.rbase + r) / 32, d.cbase + j)) w)
  else if fm = .t2 ∧ w = 2 then none
  else some (decodeElem fm w)

/-- The reserved T2 codes among a pass's weights (R417). -/
def LensSt.reservedCodes (x : LensSt) (d : LensDesc) : Nat :=
  if descFmt d.wfmt = .t2 then
    ((List.range d.k).map fun r => ((List.range d.n).filter fun j => x.weight d r j = none).length).foldl (· + ·) 0
  else 0

/-- The element that activation `k` of the vector at output position (oh, ow) reads; none where the edge makes a zero (R443). -/
def LensDesc.actElem (d : LensDesc) (oh ow k : Nat) : Option Nat :=
  let kh := k / (d.kw * d.clen)
  let kw := k / d.clen % d.kw
  let ci := k % d.clen
  let y : Int := (oh * d.sh : Nat) - (d.pt : Int) + (kh * d.dh : Nat)
  let x : Int := (ow * d.sw : Nat) - (d.pl : Int) + (kw * d.dw : Nat)
  if y < 0 ∨ (d.h : Int) ≤ y ∨ x < 0 ∨ (d.w : Int) ≤ x then none
  else some ((y.toNat * d.w + x.toNat) * d.c + d.cin0 + ci)

/-- Activation `k` of the vector at output position (oh, ow) (R443). -/
def State.activation (s : State) (f : Nat) (d : LensDesc) (oh ow k : Nat) : Except FsErr Nat :=
  match d.actElem oh ow k with
  | none => .ok 0
  | some e => s.readElem f d.sector d.abase e (fmtWidth (descFmt d.afmt))

/-- The single-bit errors that a lens or the MV engine reads corrected, each word of the bytes named once (R514; DESIGN CHOICE,
assumption 110). -/
def State.readsEcc (s : State) (f : Nat) (offs : List Nat) : State :=
  s.fstEcc f ((s.fstWeak.filter fun a => offs.any fun o => fstAddr f (o / 8 * 8) = a).map (· % 2 ^ 26))

/-- The bytes in which `n` elements from a base begin. -/
def elemBytesFrom (base n width : Nat) : List Nat := (List.range n).map fun e => base + e * width / 8

/-- The bytes of field store that the activations of a pass's first `n` vectors lie in (R443). -/
def LensDesc.actBytes (d : LensDesc) (n : Nat) : List Nat :=
  (List.range n).flatMap fun v => (List.range d.k).filterMap fun k =>
    (d.actElem (d.oh0 + v / d.own) (d.ow0 + v % d.own) k).map fun e => d.abase + e * fmtWidth (descFmt d.afmt) / 8

/-- The bytes of field store that the weights of a load lie in (R436). -/
def LensDesc.weightBytes (d : LensDesc) : List Nat :=
  if descFmt d.wfmt = .b4 then elemBytesFrom d.waddr (ceilDiv d.k 32 * d.n * 17) 8
  else elemBytesFrom d.waddr (d.k * d.n) (lensPlanes (descFmt d.wfmt))

/-- The first error of a list of results, or all its values. -/
def allOk {α : Type} : List (Except FsErr α) → Except FsErr (List α)
  | [] => .ok []
  | .error e :: _ => .error e
  | .ok a :: l => match allOk l with
    | .ok as => .ok (a :: as)
    | .error e => .error e

/-- A clamped integer with whether it was clamped. -/
def clampCounted (lo hi i : Int) : Int × Nat := (clampInt lo hi i, if i < lo ∨ hi < i then 1 else 0)

/-- INT32's range. -/
def int32Min : Int := -2147483648
def int32Max : Int := 2147483647

/-- The rows of a pass that lie in one lens of a gang: below row 512 of the gang, and from it (R425). -/
def LensDesc.lensRows (d : LensDesc) : List (List Nat) :=
  [(List.range d.k).filter fun r => d.rbase + r < 512, (List.range d.k).filter fun r => 512 ≤ d.rbase + r].filter
    (· ≠ [])

/-- Rows of a lens in blocks of 32 (R421, R489). -/
def rowBlocks : Nat → List Nat → List (List Nat)
  | 0, _ => []
  | _ + 1, [] => []
  | n + 1, rows => rows.take 32 :: rowBlocks n (rows.drop 32)

/-- A column of an integer pass over the rows of `inBand` (R420, R422): its sum, and the saturations. -/
def intColumn (x : LensSt) (d : LensDesc) (acts : List Nat) (inBand : Nat → Bool) (j : Nat) : Int × Nat :=
  let af := descFmt d.afmt
  let part (rows : List Nat) : Int × Nat :=
    clampCounted int32Min int32Max (sumInt (rows.map fun r =>
      if inBand r then match x.weight d r j with
        | some (.fin t m _) => decodeInt af (acts.getD r 0) * (if t then -(m : Int) else m)
        | _ => 0
      else 0))
  (d.lensRows.map part).foldl (fun a b =>
    let c := clampCounted int32Min int32Max (a.1 + b.1)
    (c.1, a.2 + b.2 + c.2)) (0, 0)

/-- A column of a float pass over the rows of `inBand` (R421, R422, R489-R491), as an FP32 encoding. -/
def floatColumn (x : LensSt) (d : LensDesc) (acts : List Nat) (inBand : Nat → Bool) (j : Nat) : Nat :=
  let af := descFmt d.afmt
  let part (rows : List Nat) : Nat :=
    columnSum ((rowBlocks 32 rows).map fun blk =>
      blockSum af (blk.map fun r => decodeElem af (acts.getD r 0))
        (blk.map fun r => if inBand r then x.weight d r j else none))
  match d.lensRows.map part with
  | [] => 0
  | a :: rest => rest.foldl (fun u v => encodeFloat .fp32 (fadd (decodeFloat .fp32 u) (decodeFloat .fp32 v))) a

/-- A column result in the output format (R423, R481-R484), with the saturations of an integer conversion. -/
def convertOut (of_ : Fmt) (v : Int ⊕ Nat) : Nat × Nat :=
  match v, fmtEM of_ with
  | .inl i, none =>
    let c := clampCounted (intRange of_).1 (intRange of_).2 i
    (ofSigned (fmtWidth of_) c.1, c.2)
  | .inl i, some _ => (encodeFloat of_ (ofScaled i 0), 0)
  | .inr w, some _ => (if of_ = .fp32 then w else encodeFloat of_ (decodeFloat .fp32 w), 0)
  | .inr w, none =>
    let x := decodeFloat .fp32 w
    let r := intRange of_
    let sat : Bool := match x with
      | .nan => false
      | .inf _ => true
      | .fin t m e => let i : Int := if t then -(rneInt m e : Int) else rneInt m e
                      decide (i < r.1 ∨ r.2 < i)
    (ofSigned (fmtWidth of_) (toIntSat r.1 r.2 x), b2n sat)

/-- A result added to what its destination holds (R423, R487). -/
def accumulate (of_ : Fmt) (old new : Nat) : Nat :=
  if of_ = .fp32 then encodeFloat .fp32 (fadd (decodeFloat .fp32 old) (decodeFloat .fp32 new))
  else ofSigned 32 (clampInt int32Min int32Max (toSigned 32 old + toSigned 32 new))

/-- The bytes of a little-endian element. -/
def elemBytes (width v : Nat) : List Byte := (List.range (width / 8)).map fun j => BitVec.ofNat 8 (v / 2 ^ (8 * j))

/-- The elements of a run of bytes. -/
def elemsOf (width : Nat) (bs : List Byte) : List Nat :=
  (List.range (bs.length / (width / 8))).map fun e =>
    (List.range (width / 8)).foldl (fun a j => a + (bs.getD (e * (width / 8) + j) 0).toNat * 2 ^ (8 * j)) 0

/-- One vector (R443, R444): activations read, columns formed, results converted and written; the state, the
saturations, and the error that stopped it. -/
def State.runVector (s : State) (l f : Nat) (d : LensDesc) (v : Nat) : State × Nat × Option FsErr :=
  let mode := s.lensMode l
  let oh := d.oh0 + v / d.own
  let ow := d.ow0 + v % d.own
  let of_ := descFmt d.ofmt
  match allOk ((List.range d.k).map fun k => s.activation f d oh ow k) with
  | .error e => (s, 0, some e)
  | .ok acts =>
    let nb := d.bands mode
    let band := d.k / nb
    let results := (List.range nb).flatMap fun m => (List.range d.n).map fun j =>
      let inBand (r : Nat) : Bool := decide (m * band ≤ r) && decide (r < (m + 1) * band)
      if d.integer then
        let c := intColumn (s.lens l) d acts inBand j
        let o := convertOut of_ (.inl c.1)
        (o.1, c.2 + o.2)
      else convertOut of_ (.inr (floatColumn (s.lens l) d acts inBand j))
    let sat := (results.map (·.2)).foldl (· + ·) 0
    let width := fmtWidth of_
    let off := d.obase + (oh * d.owt + ow) * d.opitch * (width / 8)
    let n := results.length * (width / 8)
    let old : Except FsErr (List Nat) :=
      if d.acc then (s.fsRead f d.sector off n).map (elemsOf width) else .ok []
    match old with
    | .error e => (s, sat, some e)
    | .ok olds =>
      let outs := ((List.range results.length).zip results).map fun jr =>
        if d.acc then accumulate of_ (olds.getD jr.1 0) jr.2.1 else jr.2.1
      let w := s.fsWrite f d.sector (off / 64) (blocksOf off (outs.flatMap (elemBytes width)))
      (w.1, sat, w.2)

/-- Vectors run in order up to the first error, with the vector it meets (R441, R458). -/
def State.runVectors (s : State) (l f : Nat) (d : LensDesc) : List Nat → State × Nat × Option (Nat × FsErr)
  | [] => (s, 0, none)
  | v :: vs =>
    match s.runVector l f d v with
    | (s, sat, some e) => (s, sat, some (v, e))
    | (s, sat, none) =>
      let r := s.runVectors l f d vs
      (r.1, sat + r.2.1, r.2.2)

/-! ### Faults (R458-R460) -/

/-- A lens's access field store did not serve: FAULT, an event, and RFAIL where a launch waits (R458, R460). -/
def State.lensFault (s : State) (l desc : Nat) (p : Option Packet) (e : FsErr) : State :=
  let f := l / 4
  let s := (s.fsErrCount f e).hset F.lnsStatus_fault l 0
  let s := match e with
    | .refused a => s.logEv evLensFault f l (detail2 desc a)
    | .poison a => s.logEv evLensPoison f l (detail2 desc a)
  match p with
  | some p => s.refuseAccess p.at_ p
  | none => s

/-- A launch refused (R432). -/
def State.lensRefuse (s : State) (l desc : Nat) (p : Packet) : State :=
  ((s.hset F.lnsStatus_refused l 0).logEv evLensLaunchRefused (l / 4) l desc).refuseAccess p.at_ p

/-! ### Launching (R431-R434) -/

/-- Lens and descriptor that a launch offset names (R431). -/
def launchOf (a : Nat) : Nat × Nat := ((a % 2 ^ 16 - 0x8000) / 0x2000, a % 0x2000 / 0x40)

/-- Whether a launch is refused (R432), or its lens's clock is gated (R732). -/
def State.launchBad (s : State) (f l d : Nat) (p : Packet) : Bool :=
  let x := s.lensDesc l d
  !x.valid || decide (x.kind = 3) || decide (x.sector ≠ p.sector) || decide (fieldOf (addrTile p.full) ≠ f) ||
    !s.lensTakes l || !(s.gf F.clkRunning_run 0 f).testBit (l % 4) || (match p.mark with | .tag _ => true | _ => false) || decide ((s.fld f).phase ≠ .work)

/-- Whether a launch that entered in cycle `c` goes before another: in an earlier cycle, or in the same one from a lower bay
within the field, then from a lower local index (R433). -/
def launchBefore (a b : Packet × Nat) : Bool :=
  let key (p : Packet) : Nat := bayInField (bayOf p.src) * 256 + localIndex p.src
  decide (a.2 < b.2) || (decide (a.2 = b.2) && decide (key a.1 < key b.1))

/-- A launch takes its place in a launch queue (R433, R521). -/
def enterQueue (a : Packet × Nat) : List (Packet × Nat) → List (Packet × Nat)
  | [] => [a]
  | b :: q => if launchBefore a b then a :: b :: q else b :: enterQueue a q

/-- LENS_LAUNCH (R431-R433): a launch RLOAD at its bay port is refused, waits while the queue of 4 is full, or enters
it in the first lens cycle that begins after the core cycle following its ejection. -/
def execLensLaunch (id : Nat) (s : State) : Host.Outcome State Fault Refusal :=
  match s.arrived id .rload with
  | none => .next s
  | some p =>
    let f := fieldOf p.at_
    let l := f * 4 + (launchOf p.full).1
    let d := (launchOf p.full).2
    if addrSpace p.full ≠ 2 ∨ p.full % 2 ^ 16 < 0x8000 ∨ (s.fld f).fogged = true then .next s
    else if s.stalePacket p then .next (s.dropPkt id)
    else if s.storeFull p.at_ then .next (s.stall p.at_)
    else if s.launchBad f l d p then .next (s.lensRefuse l d p)
    else
      let x := s.lens l
      if 4 ≤ x.queue.length then .next s
      else
        let c := lensCycleFrom (s.fld f) (cycleInstant (s.fld f) (s.cycle f + 2))
        .next ((s.dropPkt id).setLens l { x with queue := enterQueue (p, c) x.queue })

/-- A load takes its place at the engine: in order of request, preloads first in one lens cycle (R437, R438). -/
def queueLoad (j : LoadJob) : List LoadJob → List LoadJob
  | [] => [j]
  | k :: ks =>
    if j.asked < k.asked ∨ (j.asked = k.asked ∧ j.preload.isSome ∧ k.preload.isNone) then j :: k :: ks
    else k :: queueLoad j ks

/-- LENS_PASS_ACCEPT (R434, R437): the queue's head moves to NEXT where it is free, and asks for any load it makes. -/
def execLensPassAccept (f lens : Nat) (s : State) : Host.Outcome State Fault Refusal :=
  onField f (
    let l := f * 4 + lens % 4
    let x := s.lens l
    match x.queue, x.next with
    | (p, c) :: rest, none =>
      if (s.fld f).fogged = true ∨ (s.fld f).phase ≠ .work then s
      else
        let d := (launchOf p.full).2
        let accept := max c x.nextFree
        let loads := decide ((s.lensDesc l d).kind ≠ 0)
        let pass : LensPass := { pkt := p, desc := d, seq := x.nextSeq, accept := accept, readyAt := accept
                                 ready := !loads }
        let job : LoadJob := { preload := none, desc := d, asked := accept, from_ := accept }
        s.setLens l { x with queue := rest, next := some pass, nextSeq := x.nextSeq + 1
                             engine := if loads then queueLoad job x.engine else x.engine }
    | _, _ => s)

/-- A pass completed with STATUS DONE: its report, its counters. -/
def State.passDone (s : State) (l : Nat) (q : LensPass) (endAt sat resv : Nat) : State :=
  let s := s.bump .lnsCountPasses l 0 1
  let s := s.bump .lnsCountSaturate l 0 sat
  let s := s.bump .lnsCountReservedCode l 0 resv
  s.launchReport q.pkt (passReport q.seq 0 (endAt - q.accept) q.stretched q.stall sat resv)
    (secondCycle (s.fld (l / 4)) (lensInstant (s.fld (l / 4)) endAt))

/-- The lens cycles a load has had of its engine when it ends, held back by field store for `stalls` (R435, R440, R455). -/
def LoadJob.busy (j : LoadJob) (d : LensDesc) (stalls : Nat) : Nat := d.loadCycles - j.progress + stalls + j.stretched

/-- The lens cycle in which a load ends (R435, R437). -/
def LensSt.loadEnd (x : LensSt) (j : LoadJob) (d : LensDesc) (stalls : Nat) : Nat :=
  max j.from_ x.engineFree + j.busy d stalls

/-- The state in which the load at the engine has had its time, to lens cycle `endAt`: clock, counters, and the engine free. -/
def State.loadSpentTo (s : State) (l : Nat) (j : LoadJob) (endAt stalls accesses waits : Nat) : State :=
  let f := l / 4
  let x := s.lens l
  let s := s.advanceTo (lensInstant (s.fld f) endAt)
  let s := (s.bump .fstCountAccess f 0 accesses).bump .fstCountConflict f 0 waits
  let s := (s.bump .lnsCountLoad l 0 (endAt - max j.from_ x.engineFree)).bump .lnsCountFsStall l 0 stalls
  s.setLens l { x with engine := x.engine.tail, engineFree := endAt }

/-- The state in which the load at the engine has had all its time. -/
def State.loadSpent (s : State) (l : Nat) (j : LoadJob) (stalls accesses waits : Nat) : State :=
  s.loadSpentTo l j ((s.lens l).loadEnd j (s.lensDesc l j.desc) stalls) stalls accesses waits

/-- The lens cycle in which a load stops at its cell `k`, which field store does not serve (R435, R458). -/
def LensSt.loadStop (x : LensSt) (j : LoadJob) (d : LensDesc) (k stalls : Nat) : Nat :=
  max j.from_ x.engineFree + (8 + ceilDiv ((k + 1) * lensPlanes (descFmt d.wfmt)) 2048 - j.progress) + stalls + j.stretched

/-- The cells of a load, in row order (R436). -/
def LensDesc.cells (d : LensDesc) : List (Nat × Nat) :=
  (List.range d.k).flatMap fun r => (List.range d.n).map fun c => (r, c)

/-- Whether a load cannot end in lens cycle `endAt`: a launched one runs in WORK alone, a preload stops at the rest interval
(R446, R450). -/
def State.loadLate (s : State) (f : Nat) (j : LoadJob) (endAt : Nat) : Bool :=
  let x := s.fld f
  if j.preload.isSome then decide (x.phase = .rest) || decide (x.phase = .idle) ||
    decide (cycleInstant x x.nCycles < lensInstant x endAt)
  else decide (x.phase ≠ .work) || decide (s.workEnd f < lensInstant x endAt)

/-- LENS_LOAD_COMPLETE (R435-R439, R458, R460): the load at the engine ends, field store having held it back for
`stalls` lens cycles, with `accesses` bank accesses and `waits` request-cycles spent waiting for a bank. -/
def execLensLoadComplete (f lens stalls accesses waits : Nat) (s : State) : Host.Outcome State Fault Refusal :=
  onField f (
    let l := f * 4 + lens % 4
    let x := s.lens l
    match x.engine with
    | [] => s
    | j :: _ =>
      let d := s.lensDesc l j.desc
      let clash := match x.exec with
        | some q => d.clash (s.lensDesc l q.desc)
        | none => false
      let endAt := x.loadEnd j d stalls
      let r := (s.loadSpent l j stalls accesses waits).loadCells l f d d.cells
      let endAt := match r.2 with
        | some (k, _) => min endAt (x.loadStop j d k stalls)
        | none => endAt
      if clash = true ∨ (s.fld f).fogged = true ∨ s.loadLate f j endAt = true then s
      else
        let s := match r.2 with
          | some (k, _) =>
            ((s.loadSpentTo l j endAt stalls accesses waits).loadCells l f d d.cells).1.readsEcc f
              (d.weightBytes.take k)
          | none => r.1.readsEcc f d.weightBytes
        let y := s.lens l
        match r.2, j.preload with
        | some (_, e), some _ => s.lensFault l j.desc none e
        | some (_, e), none =>
          let s := s.setLens l { y with next := none, nextFree := endAt }
          s.lensFault l j.desc (x.next.map (·.pkt)) e
        | none, pre =>
          let ps : List (Nat × Nat × Nat) := d.panels.map fun p => (d.pset, p.1, p.2)
          let y := { y with
            loaded := ps ++ y.loaded.filter fun p => !(ps.contains p), loadEnds := (j.desc, endAt) :: y.loadEnds }
          match pre, y.next with
          | none, some q =>
            let q := { q with ready := true, readyAt := endAt, stall := q.stall + stalls }
            if d.kind = 2 then
              (s.setLens l { y with next := none, nextFree := endAt }).passDone l q endAt 0 0
            else s.setLens l { y with next := some q }
          | _, _ => s.setLens l y)

/-- LENS_PRELOAD (R438, R446): planned preload `k` asks for the engine in the first lens cycle after watch cycle START
ends, in a watch whose character for the descriptor's sector is in its mask; once a watch. -/
def execLensPreload (f lens k : Nat) (s : State) : Host.Outcome State Fault Refusal :=
  onField f (
    let l := f * 4 + lens % 4
    let x := s.lens l
    let d := s.gf F.lnsPreload_desc l k
    let start := s.gf F.lnsPreload_start l k
    let picked := match s.runChar (l / 4) (s.lensDesc l d).sector with
      | some c => (s.gf F.lnsPreload_chars l k).testBit c.id
      | none => false
    let kind := (s.lensDesc l d).kind
    if 16 ≤ k ∨ s.flag F.lnsPreload_valid l k = false ∨ picked = false ∨ x.preloaded.contains k = true ∨
      ¬(kind = 1 ∨ kind = 2) ∨ (s.fld f).nCycles ≤ start ∨ (s.fld f).fogged = true ∨ (s.fld f).phase = .idle ∨
      (s.fld f).phase = .rest ∨ s.lensTakes l = false then s
    else
      let t := cycleInstant (s.fld f) (start + 1)
      let s := s.advanceTo t
      let c := lensCycleFrom (s.fld f) t
      s.setLens l { x with preloaded := k :: x.preloaded
                           engine := queueLoad { preload := some k, desc := d, asked := c, from_ := c } x.engine })

/-! ### Execution (R439, R440, R446, R459) -/

/-- LENS_PASS_EXEC (R434, R439, R446, R459): the NEXT pass, its load complete, moves to a free EXEC in WORK; on an
unloaded set it is refused; while a load into its set is in progress in its panels it waits. -/
def execLensPassExec (f lens : Nat) (s : State) : Host.Outcome State Fault Refusal :=
  onField f (
    let l := f * 4 + lens % 4
    let x := s.lens l
    match x.next, x.exec with
    | some q, none =>
      let d := s.lensDesc l q.desc
      let loading := match x.engine with
        | j :: _ => d.clash (s.lensDesc l j.desc)
        | [] => false
      if q.ready = false ∨ d.kind = 2 ∨ loading = true ∨ (s.fld f).phase ≠ .work ∨ (s.fld f).fogged = true then s
      else if (d.panels.all fun p => x.loaded.contains (d.pset, p.1, p.2)) = false then
        (s.setLens l { x with next := none, nextFree := max q.readyAt x.execFree }).lensRefuse l q.desc q.pkt
      else
        let ends := (x.loadEnds.filter fun e => d.clash (s.lensDesc l e.1)).map (·.2)
        let begun := max q.readyAt (max x.execFree (ends.foldl max 0))
        s.setLens l { x with next := none, nextFree := begun, exec := some { q with begun := begun } }
    | _, _ => s)

/-- Loads that waited for a pass in EXEC may begin once it is gone (R437). -/
def State.freeLoads (s : State) (l : Nat) (d : LensDesc) (endAt : Nat) : State :=
  let x := s.lens l
  s.setLens l { x with exec := none, execFree := endAt
                       engine := x.engine.map fun j =>
                         if d.clash (s.lensDesc l j.desc) then { j with from_ := max j.from_ endAt } else j }

/-- The lens cycle in which an executing pass ends, held back by field store for `stalls` lens cycles (R440, R455). -/
def State.passEnd (s : State) (l : Nat) (q : LensPass) (stalls : Nat) : Nat :=
  q.begun + (s.lensDesc l q.desc).execCycles (s.lensMode l) + stalls + q.execStretched

/-- The lens cycle in which an executing pass stops at its vector `v` (R440, R458, R459). -/
def State.passStop (s : State) (l : Nat) (q : LensPass) (v stalls : Nat) : Nat :=
  min (s.passEnd l q stalls)
    (q.begun + 16 + (v + 1) * (s.lensDesc l q.desc).perVector (s.lensMode l) + stalls + q.execStretched)

/-- The state in which the executing pass has had its time, to lens cycle `endAt`: clock, counters, and EXEC free (R434, R437). -/
def State.passSpentTo (s : State) (l : Nat) (q : LensPass) (endAt stalls accesses waits : Nat) : State :=
  let f := l / 4
  let d := s.lensDesc l q.desc
  let s := s.advanceTo (lensInstant (s.fld f) endAt)
  let s := (s.bump .fstCountAccess f 0 accesses).bump .fstCountConflict f 0 waits
  let s := (s.bump .lnsCountBusy l 0 (endAt - q.begun)).bump .lnsCountFsStall l 0 stalls
  s.freeLoads l d endAt

/-- The state in which the executing pass has had all its time. -/
def State.passSpent (s : State) (l : Nat) (q : LensPass) (stalls accesses waits : Nat) : State :=
  s.passSpentTo l q (s.passEnd l q stalls) stalls accesses waits

/-- LENS_PASS_COMPLETE (R420-R423, R440-R445, R458-R460): the executing pass ends, field store having held it back
for `stalls` lens cycles. `parity` is a parity error met: before which vector, and in which panel of the gang. One that
would end after WORK does not complete: SETTLE cycle 0 finds it in EXEC (R448). A parity bit covers 64 cells of a row, so 4 panels. -/
def execLensPassComplete (f lens stalls accesses waits : Nat) (parity : Option (Nat × Nat × Nat)) (s : State) :
    Host.Outcome State Fault Refusal :=
  onField f (
    let l := f * 4 + lens % 4
    match (s.lens l).exec with
    | none => s
    | some q =>
      let d := s.lensDesc l q.desc
      let stop := match parity with | some (v, _, _) => min v d.vectors | none => d.vectors
      let r := (s.passSpent l q stalls accesses waits).runVectors l f d (List.range stop)
      let stopAt := match r.2.2, parity with
        | some (v, _), _ => some v
        | none, some _ => some stop
        | none, none => none
      let endAt := match stopAt with | some v => s.passStop l q v stalls | none => s.passEnd l q stalls
      if (s.fld f).phase ≠ .work ∨ (s.fld f).fogged = true ∨ s.workEnd f < lensInstant (s.fld f) endAt then s
      else
        let resv := (s.lens l).reservedCodes d
        let halted : State :=
          (((s.passSpentTo l q endAt stalls accesses waits).runVectors l f d (List.range stop)).1.readsEcc f
            (d.actBytes (stopAt.getD stop))).bump .lnsCountReservedCode l 0 resv
        let q := { q with stall := q.stall + stalls }
        match r.2.2, parity with
        | some (_, e), _ => halted.lensFault l q.desc (some q.pkt) e
        | none, some (_, pr, pc) =>
          let s := halted
          let x := s.lens l
          let s := s.setLens l { x with
            loaded := x.loaded.filter fun p => !(decide (p.1 = d.pset ∧ p.2.1 = pr ∧ p.2.2 / 4 = pc / 4)) }
          let s := (s.hset F.lnsStatus_parity l 0).logEv evLensParity f l (detail2 q.desc (pr * 64 + pc))
          s.refuseAccess q.pkt.at_ q.pkt
        | none, none => (r.1.readsEcc f (d.actBytes d.vectors)).passDone l q endAt r.2.1 resv)

/-! ### Abandonment (R448, R449) -/

/-- The vectors of an executing pass whose results field store has accepted by lens cycle `c` (assumption 20). -/
def vectorsBy (d : LensDesc) (mode begun c : Nat) : Nat :=
  min d.vectors ((c - begun - 40) / max 1 (d.perVector mode))

/-- A pass abandoned: RDATA with STATUS ABANDONED (R448). -/
def State.abandonPass (s : State) (l : Nat) (q : LensPass) (sat resv : Nat) : State :=
  let s := (s.bump .lnsCountAbandoned l 0 1).hset F.lnsStatus_abandoned l 0
  let s := s.bump .lnsCountReservedCode l 0 resv
  s.launchReport q.pkt (passReport q.seq 1 (s.lensCycle (l / 4) - q.accept) q.stretched q.stall sat resv)
    (secondCycle (s.fld (l / 4)) s.now)

/-- Lens cycles that the load at a lens's engine has had: those that moved it on, and those stretched (R435, R450, R455). -/
def State.loadHad (s : State) (l : Nat) (j : LoadJob) : Nat :=
  min (s.lensCycle (l / 4) - max j.from_ (s.lens l).engineFree - j.stretched) ((s.lensDesc l j.desc).loadCycles - j.progress)

/-- A lens abandons the passes of the sectors named and discards their queued launches; a preload goes on (R448,
R449). -/
def State.abandonLens (s : State) (l : Nat) (mine : Nat → Bool) : State :=
  let f := l / 4
  let x := s.lens l
  let c := s.lensCycle f
  let s := match x.exec with
    | some q =>
      if mine q.pkt.sector then
        let d := s.lensDesc l q.desc
        let s := s.bump .lnsCountBusy l 0 (c - q.begun)
        let n := vectorsBy d (s.lensMode l) q.begun c
        let r := s.runVectors l f d (List.range n)
        (((r.1.readsEcc f (d.actBytes n)).freeLoads l d c).bump .lnsCountSaturate l 0 r.2.1).abandonPass l q r.2.1
          (if n = 0 then 0 else x.reservedCodes d)
      else s
    | none => s
  let s := match x.next with
    | some q =>
      if mine q.pkt.sector then
        let y := s.lens l
        let s := match y.engine with
          | j :: _ => if j.preload.isNone then s.bump .lnsCountLoad l 0 (s.loadHad l j + j.stretched) else s
          | [] => s
        let own : Bool := match y.engine with
          | j :: _ => j.preload.isNone
          | [] => false
        (s.setLens l { y with next := none, nextFree := c, engine := y.engine.filter (·.preload.isSome)
                              engineFree := if own then c else y.engineFree }).abandonPass l q 0 0
      else s
    | none => s
  let y := s.lens l
  let s := s.setLens l { y with queue := y.queue.filter fun e => !mine e.1.sector }
  s.each (y.queue.filter fun e => mine e.1.sector) fun s e => s.refuseAccess e.1.at_ e.1

/-- A lens at INTAKE cycle 0: its sequence numbers and cycles count from 0, its preloads are planned anew; a preload
in progress goes on at the first lens cycle (R442, R450). -/
def State.intakeLens (s : State) (l : Nat) : State :=
  let x := s.lens l
  if x = {} then s
  else s.setLens l { x with nextSeq := 0, preloaded := [], stretch := 0, lastStretch := none, engineFree := 0
                            nextFree := 0, execFree := 0, loadEnds := []
                            engine := x.engine.map fun j => { j with asked := 0, from_ := 0, stretched := 0 } }

/-- A lens when the rest interval begins: the load at its engine is suspended where it stands (R450). -/
def State.suspendLens (s : State) (l : Nat) : State :=
  let x := s.lens l
  match x.engine with
  | [] => s
  | j :: rest =>
    let had := s.loadHad l j
    let s := s.bump .lnsCountLoad l 0 (had + j.stretched)
    s.setLens l { x with engine := { j with progress := j.progress + had } :: rest }

/-! ### Droop (R455, R456) -/

/-- LENS_STRETCH (R455, R456): a lens cycle of lens `lens` of field `f`, and of its gang, is stretched; at most one in
any 8. -/
def execLensStretch (f lens : Nat) (s : State) : Host.Outcome State Fault Refusal :=
  onField f (
    let l := s.lensLead (f * 4 + lens % 4)
    let x := s.lens l
    let c := s.lensCycle f
    let soon := match x.lastStretch with | some k => decide (c < k + 8) | none => false
    if soon = true ∨ (s.fld f).fogged = true ∨ (s.fld f).phase = .idle then s
    else
      let work := (s.fld f).phase = .work
      let up (q : LensPass) : LensPass := { q with stretched := q.stretched + 1 }
      let running (j : LoadJob) : Bool := decide (max j.from_ x.engineFree ≤ c) && !(match x.exec with
        | some q => (s.lensDesc l j.desc).clash (s.lensDesc l q.desc)
        | none => false)
      let own := match x.engine with
        | j :: _ => j.preload.isNone && running j
        | [] => false
      let bays := ((x.exec.toList ++ if own then x.next.toList else []).map fun q => bayOf q.pkt.src).eraseDups
      let s := s.setLens l { x with
        lastStretch := some c
        stretch := if work then x.stretch + 1 else x.stretch
        exec := x.exec.map fun q => { up q with execStretched := q.execStretched + 1 }
        next := x.next.map up
        engine := match x.engine with
          | [] => []
          | j :: rest => (if running j then { j with stretched := j.stretched + 1 } else j) :: rest }
      if work then s.each bays fun s b => s.bayStretch f b else s)

end Sys2Proof.Machine
end

