-- ==== Sys2Proof/Machine/MatVec.lean ====
section
/-! DEFINITION. The MV engine (spec/11_matvec_field_store_and_staging.md, R515-R524, R538). -/

namespace Sys2Proof.Machine

/-- An MV descriptor as its words give it (R517). -/
structure MvDesc where
  valid : Bool
  acc : Bool
  wfmt : Nat
  afmt : Nat
  ofmt : Nat
  sector : Nat
  m : Nat
  k : Nat
  v : Nat
  waddr : Nat
  wpitch : Nat
  xaddr : Nat
  xpitch : Nat
  yaddr : Nat
  ypitch : Nat
  deriving DecidableEq, Repr

/-- An MV descriptor from its words. -/
def mvDescOf (w : Nat → Nat) : MvDesc :=
  { valid := bitAt (w 0) 31, acc := bitAt (w 0) 26, wfmt := bits (w 0) 23 20, afmt := bits (w 0) 19 16
    ofmt := bits (w 0) 15 12, sector := bits (w 0) 11 0, m := bits (w 1) 31 16 + 1, k := bits (w 1) 14 0 + 1
    v := bits (w 2) 2 0 + 1, waddr := bits (w 3) 25 0, wpitch := bits (w 4) 25 0, xaddr := bits (w 5) 25 0
    xpitch := bits (w 6) 25 0, yaddr := bits (w 7) 25 0, ypitch := bits (w 8) 25 0 }

/-- Descriptor `d` of a field's MV engine. -/
def State.mvDesc (s : State) (f d : Nat) : MvDesc := mvDescOf fun w => (s.rd .mveDesc f (d * 16 + w)).toNat

/-- Whether an MV product is an integer product (R496). -/
def MvDesc.integer (d : MvDesc) : Bool :=
  (match descFmt d.wfmt with | .t2 | .i4 | .i8 => true | _ => false) && decide (descFmt d.afmt = .i8)

/-- L, the multiply-accumulates of a cycle (R516). -/
def mvLanes : Fmt → Nat
  | .bf16 | .fp16 => 2048
  | _ => 4096

/-- Cycles of an operation before FS_STALL (R522). -/
def MvDesc.cycles (d : MvDesc) : Nat :=
  16 + ceilDiv (d.v * d.k * fmtWidth (descFmt d.afmt)) (2048 * 8) + ceilDiv (d.m * d.k * d.v) (mvLanes (descFmt d.wfmt)) +
    24 + (if d.acc then 8 else 0)

def State.mv (s : State) (f : Nat) : MvSt := mget {} s.mvs f
def State.setMv (s : State) (f : Nat) (x : MvSt) : State := { s with mvs := mput s.mvs f x }

/-- Cycles of an operation that stops at its row `r` (R522, R538). -/
def MvDesc.stopCycles (d : MvDesc) (r : Nat) : Nat :=
  16 + ceilDiv (d.v * d.k * fmtWidth (descFmt d.afmt)) (2048 * 8) + ceilDiv ((r + 1) * d.k * d.v) (mvLanes (descFmt d.wfmt))

/-- Weight w[r][k], none for a reserved T2 code (R518, R472, R467). -/
def State.mvWeight (s : State) (f : Nat) (d : MvDesc) (r k : Nat) : Except FsErr (Option FVal) :=
  let fm := descFmt d.wfmt
  let row := d.waddr + r * d.wpitch
  if fm = .b4 then
    match s.readElem f d.sector (row + k / 32 * 17) 0 8, s.readElem f d.sector (row + k / 32 * 17 + 1) (k % 32) 4 with
    | .ok e, .ok v => .ok (some (b4Value e v))
    | .error e, _ => .error e
    | _, .error e => .error e
  else (s.readElem f d.sector row k (fmtWidth fm)).map fun w =>
    if fm = .t2 ∧ w = 2 then none else some (decodeElem fm w)

/-- Activation x[v][k] (R518). -/
def State.mvAct (s : State) (f : Nat) (d : MvDesc) (v k : Nat) : Except FsErr Nat :=
  s.readElem f d.sector (d.xaddr + v * d.xpitch) k (fmtWidth (descFmt d.afmt))

/-- A result y[v][r] from a row of weights and a vector of activations (R515, R488). -/
def mvResult (d : MvDesc) (ws : List (Option FVal)) (xs : List Nat) : Nat :=
  let af := descFmt d.afmt
  if d.integer then
    ofSigned 32 (sumInt ((ws.zip xs).map fun wx => match wx.1 with
      | some (.fin t m _) => decodeInt af wx.2 * (if t then -(m : Int) else m)
      | _ => 0))
  else
    columnSum ((rowBlocks (d.k / 32 + 1) (List.range d.k)).map fun blk =>
      blockSum af (blk.map fun k => decodeElem af (xs.getD k 0)) (blk.map fun k => ws.getD k none))

/-- One result added to its destination where ACC is set (R515): the value to write, and whether it was clamped. -/
def mvAccumulate (d : MvDesc) (old new : Nat) : Nat × Nat :=
  if d.acc = false then (new, 0)
  else if d.integer then
    let c := clampCounted int32Min int32Max (toSigned 32 old + toSigned 32 new)
    (ofSigned 32 c.1, c.2)
  else (accumulate .fp32 old new, 0)

/-- The results of one row written, vector by vector; the state, the saturations and the error that stopped it. -/
def State.mvRowOut (s : State) (f : Nat) (d : MvDesc) (r : Nat) (ws : List (Option FVal)) (acts : List (List Nat)) :
    List Nat → State × Nat × Option FsErr
  | [] => (s, 0, none)
  | v :: vs =>
    let off := d.yaddr + v * d.ypitch + 4 * r
    match (if d.acc then (s.fsRead f d.sector off 4).map (elemsOf 32) else .ok []) with
    | .error e => (s, 0, some e)
    | .ok old =>
      let o := mvAccumulate d (old.getD 0 0) (mvResult d ws (acts.getD v []))
      match s.fsWrite f d.sector (off / 64) (blocksOf off (elemBytes 32 o.1)) with
      | (s, some e) => (s, o.2, some e)
      | (s, none) =>
        let q := s.mvRowOut f d r ws acts vs
        (q.1, o.2 + q.2.1, q.2.2)

/-- Rows of an operation in ascending order, up to the first error: the state, saturations, reserved codes, the error with its row
(R515, R538). -/
def State.mvRows (s : State) (f : Nat) (d : MvDesc) (acts : List (List Nat)) :
    List Nat → State × Nat × Nat × Option (Nat × FsErr)
  | [] => (s, 0, 0, none)
  | r :: rs =>
    match allOk ((List.range d.k).map fun k => s.mvWeight f d r k) with
    | .error e => (s, 0, 0, some (r, e))
    | .ok ws =>
      let resv := (ws.filter (· = none)).length
      match s.mvRowOut f d r ws acts (List.range d.v) with
      | (s, sat, some e) => (s, sat, resv, some (r, e))
      | (s, sat, none) =>
        let q := s.mvRows f d acts rs
        (q.1, sat + q.2.1, resv + q.2.2.1, q.2.2.2)

/-- The first `n` rows of an operation, its activations read first. -/
def State.mvRun (s : State) (f : Nat) (d : MvDesc) (n : Nat) : State × Nat × Nat × Option (Nat × FsErr) :=
  match allOk ((List.range d.v).map fun v => allOk ((List.range d.k).map fun k => s.mvAct f d v k)) with
  | .error e => (s, 0, 0, some (0, e))
  | .ok acts => s.mvRows f d acts (List.range n)

/-- The bytes of field store that an operation reads for its first `n` rows: activations, then weights (R518). -/
def MvDesc.readBytes (d : MvDesc) (n : Nat) : List Nat :=
  ((List.range d.v).flatMap fun v => elemBytesFrom (d.xaddr + v * d.xpitch) d.k (fmtWidth (descFmt d.afmt))) ++
    (List.range n).flatMap fun r =>
      if descFmt d.wfmt = .b4 then elemBytesFrom (d.waddr + r * d.wpitch) (ceilDiv d.k 32 * 17) 8
      else elemBytesFrom (d.waddr + r * d.wpitch) d.k (fmtWidth (descFmt d.wfmt))

/-- What an operation or a part of it has read and met: single-bit errors, saturations, reserved codes (R514, R542). -/
def State.mvCounts (s : State) (f : Nat) (d : MvDesc) (rows sat resv : Nat) : State :=
  ((s.readsEcc f (d.readBytes rows)).bump .mveCountSaturate f 0 sat).bump .mveCountReservedCode f 0 resv

/-- Descriptor that an MV launch offset names (R520). -/
def mvLaunchOf (a : Nat) : Nat := (a % 2 ^ 16 - 0x7000) / 0x40

/-- Whether an MV launch is refused (R520, R432, R732). -/
def State.mvBad (s : State) (f d : Nat) (p : Packet) : Bool :=
  let x := s.mvDesc f d
  !x.valid || decide (x.sector ≠ p.sector) || decide (fieldOf (addrTile p.full) ≠ f) ||
    !(s.gf F.clkEnable_en 0 f).testBit 4 || !(s.gf F.clkRunning_run 0 f).testBit 4 || (match p.mark with | .tag _ => true | _ => false) ||
    decide ((s.fld f).phase ≠ .work)

/-- MV_LAUNCH (R520, R521): a launch at its bay port is refused, waits while the queue of 8 is full, or enters it two
cycles after its ejection. -/
def execMvLaunch (id : Nat) (s : State) : Host.Outcome State Fault Refusal :=
  match s.arrived id .rload with
  | none => .next s
  | some p =>
    let f := fieldOf p.at_
    let off := p.full % 2 ^ 16
    let d := mvLaunchOf p.full
    if addrSpace p.full ≠ 2 ∨ off < 0x7000 ∨ 0x8000 ≤ off ∨ (s.fld f).fogged = true then .next s
    else if s.stalePacket p then .next (s.dropPkt id)
    else if s.storeFull p.at_ then .next (s.stall p.at_)
    else if s.mvBad f d p then
      .next (((s.hset F.mveStatus_refused f 0).logEv evMvLaunchRefused f f d).refuseAccess p.at_ p)
    else
      let x := s.mv f
      if 8 ≤ x.queue.length then .next s
      else .next ((s.dropPkt id).setMv f { x with queue := enterQueue (p, s.cycle f + 2) x.queue })

/-- MV_OPERATION_BEGIN (R521, R524): the engine, idle, begins the next queued operation in WORK. -/
def execMvOperationBegin (f : Nat) (s : State) : Host.Outcome State Fault Refusal :=
  onField f (
    let x := s.mv f
    match x.queue, x.exec with
    | (p, c) :: rest, none =>
      if (s.fld f).phase ≠ .work ∨ (s.fld f).fogged = true then s
      else s.setMv f { x with queue := rest, exec := some (p, x.nextSeq, max c x.free), nextSeq := x.nextSeq + 1 }
    | _, _ => s)

/-- An operation stopped by field store (R538, R542). -/
def State.mvFault (s : State) (f desc : Nat) (p : Packet) (e : FsErr) : State :=
  let s := (s.fsErrCount f e).hset F.mveStatus_fault f 0
  let a := match e with | .refused a => a | .poison a => a
  (s.logEv evMvFault f f (detail2 desc a)).refuseAccess p.at_ p

/-- The state in which an operation has had its `t` cycles from cycle `begun`: clock, counters, and the engine free (R522). -/
def State.mvSpent (s : State) (f begun t stalls accesses waits : Nat) : State :=
  let s := s.advanceTo (cycleInstant (s.fld f) (begun + t))
  let s := (s.bump .fstCountAccess f 0 accesses).bump .fstCountConflict f 0 waits
  let s := (s.bump .mveCountBusy f 0 t).bump .mveCountFsStall f 0 stalls
  s.setMv f { s.mv f with exec := none, free := begun + t }

/-- MV_OPERATION_COMPLETE (R515, R522, R523, R538): the operation ends after its cycles and `stalls` more; `accesses`
and `waits` are its bank accesses and the request-cycles they waited. One that would end after WORK does not complete:
SETTLE cycle 0 finds it there (R524). -/
def execMvOperationComplete (f stalls accesses waits : Nat) (s : State) : Host.Outcome State Fault Refusal :=
  onField f (match (s.mv f).exec with
    | none => s
    | some (p, seq, begun) =>
      let dn := mvLaunchOf p.full
      let d := s.mvDesc f dn
      let r := (s.mvSpent f begun (d.cycles + stalls) stalls accesses waits).mvRun f d d.m
      let t := match r.2.2.2 with
        | some (k, _) => min (d.cycles + stalls) (d.stopCycles k + stalls)
        | none => d.cycles + stalls
      if (s.fld f).phase ≠ .work ∨ (s.fld f).fogged = true ∨ settleStart (s.fld f) < begun + t then s
      else
        match r.2.2.2 with
        | some (k, e) =>
          (((s.mvSpent f begun t stalls accesses waits).mvRun f d d.m).1.mvCounts f d k r.2.1 r.2.2.1).mvFault f dn p e
        | none =>
          let s := (r.1.bump .mveCountOps f 0 1).mvCounts f d d.m r.2.1 r.2.2.1
          s.launchReport p (passReport seq 0 t 0 stalls r.2.1 r.2.2.1))

/-- Rows whose results have been accepted by watch cycle `c` of an operation begun in `begun` (assumption 20). -/
def rowsBy (d : MvDesc) (begun c : Nat) : Nat :=
  min d.m ((c - begun - 40 - ceilDiv (d.v * d.k * fmtWidth (descFmt d.afmt)) (2048 * 8)) *
    mvLanes (descFmt d.wfmt) / max 1 (d.k * d.v))

/-- The engine abandons the operation of the sectors named and discards their queued launches (R524). -/
def State.abandonMv (s : State) (f : Nat) (mine : Nat → Bool) : State :=
  let x := s.mv f
  let c := s.cycle f
  let s := match x.exec with
    | some (p, seq, begun) =>
      if mine p.sector then
        let d := s.mvDesc f (mvLaunchOf p.full)
        let n := rowsBy d begun c
        let r := s.mvRun f d n
        let s := (r.1.setMv f { r.1.mv f with exec := none, free := c }).mvCounts f d n r.2.1 r.2.2.1
        let s := (s.bump .mveCountAbandoned f 0 1).hset F.mveStatus_abandoned f 0
        let s := s.bump .mveCountBusy f 0 (c - begun)
        s.launchReport p (passReport seq 1 (c - begun) 0 0 r.2.1 r.2.2.1)
      else s
    | none => s
  let y := s.mv f
  let s := s.setMv f { y with queue := y.queue.filter fun e => !mine e.1.sector }
  s.each (y.queue.filter fun e => mine e.1.sector) fun s e => s.refuseAccess e.1.at_ e.1

end Sys2Proof.Machine
end

