-- ==== Sys2Proof/Machine/Staging.lean ====
section
/-! DEFINITION. Staging and destaging: the CXL ports, the staging engines, STAGE packets and lateness
(spec/11_matvec_field_store_and_staging.md, R525-R537; spec/19_external_interfaces.md, R783). -/

namespace Sys2Proof.Machine

/-- Whether staging engine `e` may work: its clock runs, its port is trained, its device active (R525, R540, R763). -/
def State.engineUp (s : State) (e : Nat) : Bool :=
  (s.gf F.clkRunning_run 0 65).testBit (16 + e) && (s.gf F.stnStartupPorts_cxl).testBit e

/-- The transfer under way with an id. -/
def State.order (s : State) (k : Nat) : Option Order := s.orders.find? fun o => o.plan.transfer = k && !o.failed

/-- The state with a transfer replaced by a later form of itself. -/
def State.setOrder (s : State) (o : Order) : State :=
  { s with orders := s.orders.map fun x => if x.plan.transfer = o.plan.transfer then o else x }

/-- Lanes of a transfer. -/
def Order.lanes (o : Order) : Nat := max 1 o.plan.lanes.length

/-- Lines a lane has to send in all: the lines are dealt to the lanes round robin (R529). -/
def Order.laneLines (o : Order) (k : Nat) : Nat := (o.plan.lines + o.lanes - 1 - k) / o.lanes

/-- Lanes that still inject. -/
def Order.injecting (o : Order) : Nat :=
  ((List.range o.lanes).filter fun k => mget 0 o.sent k < o.laneLines k).length

/-- Reads an engine keeps in flight for a transfer: at most 512 (R525). -/
def Order.inFlight (o : Order) : Nat := min 512 (o.plan.lines - o.arrived.length)

/-- Whether the engine has begun a transfer: from the beacon of watch t − L + 1 (R529). -/
def State.orderBegun (s : State) (o : Order) : Bool := decide (o.begin_ ≤ s.stationWatch)

/-- A transfer fails: its region becomes FAILED, its lanes stop (R536). -/
def State.failTransfer (s : State) (o : Order) : State :=
  let s := s.sf F.fstRegionCfg_state o.plan.field o.plan.region 3
  let s := s.hset F.stgEngineStatus_fault 0 o.plan.device
  let s := s.setOrder { o with failed := true, failedAt := s.stationWatch }
  s.logEv evStageFail o.plan.field o.plan.field (detail2 o.plan.transfer o.plan.region)

/-- The wafer global address of an offset of the device on a CXL port (R782, R904). -/
def cxlGlobal (port off : Nat) : Nat := (8 + port / 2) * 2 ^ 60 + port % 2 * 2 ^ 59 + off

/-- The CXL port and the device offset that a wafer global address of spaces 0x8–0xF names (R782). -/
def cxlPlace (a : Nat) : Option (Nat × Nat) :=
  if 8 ≤ a / 2 ^ 60 ∧ a / 2 ^ 60 < 16 ∧ bits a 58 41 = 0 then some (2 * (a / 2 ^ 60 - 8) + bits a 59 59, bits a 40 0) else none

/-- A destage has failed: one event, and its sector is void at the next commit point (R534, R783). -/
def State.failDestage (s : State) (d : DestageJob) : State :=
  let s : State := { s with destages := s.destages.map fun x => if x = d then { d with failed := true } else x }
  s.logEv evCxlWriteFail 64 d.plan.device (detail2 d.sector 0)

/-- CXL_READ_COMPLETE (R525, R536, R782, R783): the data of a transfer's line arrives, or poison, which fails the transfer; so does a
line whose address names no place of the device. -/
def execCxlReadComplete (transfer line : Nat) (data : List Word) (poison : Bool) (stalled : Nat) (s : State) :
    Host.Outcome State Fault Refusal :=
  match s.order transfer with
  | none => .next s
  | some o =>
    if s.engineUp o.plan.device = false ∨ s.orderBegun o = false ∨ o.plan.lines ≤ line ∨
        (mfind o.arrived line).isSome = true then .next s
    else
      let s := s.bump .stgCountReadStall 0 o.plan.device stalled
      if poison = true ∨ (cxlPlace (cxlGlobal o.plan.device (o.plan.source + 64 * line))).isNone then .next (s.failTransfer o)
      else .next (s.setOrder { o with arrived := mput o.arrived line ((List.range 16).map fun j => data.getD j 0) })

/-- CXL_MEM_TIMEOUT (R536, R783): a staging read fails its transfer; a destage write fails its destage, so that its
sector is void at the next commit point (R534). -/
def execCxlMemTimeout (port : Nat) (transfer : Option Nat) (s : State) : Host.Outcome State Fault Refusal :=
  onUnit port 16 (match transfer with
    | some k => match s.order k with
      | some o => if o.plan.device = port ∧ s.orderBegun o = true ∧ o.arrived.length < o.plan.lines then s.failTransfer o
        else s
      | none => s
    | none => match s.destages.find? fun d => d.plan.device = port && !d.failed with
      | some d => s.failDestage d
      | none => s)

/-- CXL_WRITE_COMPLETE (R533, R782): the Field Keeper has read the next 64 bytes of a port's oldest destage, and their write to
CXL memory completes. A fogged field's Keeper reads nothing. -/
def execCxlWriteComplete (port : Nat) (s : State) : Host.Outcome State Fault Refusal :=
  onUnit port 16 (match s.destages.find? fun d => d.plan.device = port && !d.failed with
    | none => s
    | some d =>
      let p := d.plan
      if (s.fld p.field).fogged = true ∨ (s.gf F.stnStartupPorts_cxl).testBit port = false then s
      else
        let off := s.gf F.fstRegionSpan_base p.field p.region * 4096 + p.offset + d.done_
        let words := (List.range 16).map fun j => (s.seeWord p.field none (off + 4 * j)).w
        let d' : DestageJob := { d with done_ := d.done_ + 64 }
        match cxlPlace (cxlGlobal port (p.target + d.done_)) with
        | none => s.failDestage d
        | some (to_, place) =>
          { s with out := Output.cxlWrite to_ place words :: s.out
                   destages := s.destages.filterMap fun x =>
                     if x = d then (if d'.done_ < p.length then some d' else none) else some x })

/-- The words of a STAGE packet. -/
def stageBody (ws : List Word) : List TWord := ws.map fun w => { w := w }

/-- STAGE_LANE_INJECT (R328, R340, R525, R526, R529): a lane injects its next line at its entry tile, by the port to its rim, once it
has arrived, 128 ticks after its last at the earliest, where that port's buffer has room. The line of lane `k` after `n` sent is
k + n × lanes. -/
def execStageLaneInject (transfer lane : Nat) (s : State) : Host.Outcome State Fault Refusal :=
  match s.order transfer with
  | none => .next s
  | some o =>
    let n := mget 0 o.sent lane
    let line := lane + n * o.lanes
    match o.plan.lanes[lane]?, mfind o.arrived line with
    | some (entry, bay), some ws =>
      let early := match mfind o.last lane with
        | some t => decide (s.now < t + 128)
        | none => false
      let port := rimPort o.plan.device entry
      let pkt : Packet := { id := s.nextPkt, ty := .stage, vc := 3, len := 4, dest := bayPort (bayAt o.plan.field bay), src := entry
                            at_ := entry, inPort := port, parity := s.parity (fieldOf entry), wafer := true }
      if s.engineUp o.plan.device = false ∨ early = true ∨ o.plan.lines ≤ line ∨ s.orderBegun o = false ∨
          (port ≠ .l ∧ 0 < s.bufferUse pkt entry port) then .next s
      else
        let off := s.gf F.fstRegionSpan_base o.plan.field o.plan.region * 4096 + (o.plan.offset + line) * 64
        let s := s.setOrder { o with sent := mput o.sent lane (n + 1), last := mput o.last lane s.now }
        let s := s.bump .stgCountLines 0 o.plan.device 1
        .next (s.addPkt { pkt with addr := off, body := stageBody ws })
    | _, _ => .next s

/-- The region of a field a 64-byte line lies in that is FILLING (R537). -/
def State.fillingRegion (s : State) (f off : Nat) : Option Nat :=
  (s.regionAt f off).filter fun r => s.regionCovers f r (off + 63) && s.regionKind f r = 2 &&
    s.gf F.fstRegionCfg_state f r = 1

/-- The 64-bit words of a line with a word marked uncorrectable. -/
def badPairs (ws : List TWord) : List Nat :=
  (List.range 8).filter fun j => (ws.getD (2 * j) { w := 0 }).bad || (ws.getD (2 * j + 1) { w := 0 }).bad

/-- STAGE (R526, R530, R537): a line is written into the FILLING region it lies in and counted; the transfer is
complete with its last. -/
def execStage (id : Nat) (s : State) : Host.Outcome State Fault Refusal :=
  match s.arrived id .stage with
  | none => .next s
  | some p =>
    let f := fieldOf p.at_
    let off := p.addr % 67108864
    let s := s.dropPkt id
    match s.fillingRegion f off with
    | none => .next (s.logEv evStageMisdirect f (bayOf p.at_) (off % 2 ^ 32))
    | some r =>
      let s := (s.bump .fstCountAccess f 0 1).fstPutBytes f off ((p.body.map fun x => [byteOf x.w 0, byteOf x.w 1, byteOf x.w 2, byteOf x.w 3]).flatten)
      let s : State := { s with fstBad := (badPairs p.body).map (fun j => fstAddr f (off + 8 * j)) ++ s.fstBad }
      let n := s.gf F.fstRegionFill_accepted f r + 1
      let s := s.sf F.fstRegionFill_accepted f r n
      let finish (o : Order) : Order :=
        if o.plan.field = f ∧ o.plan.region = r ∧ o.completeAt = none ∧ o.failed = false then
          { o with completeAt := some s.now }
        else o
      let s : State := if n = s.gf F.fstRegionFill_expected f r then { s with orders := s.orders.map finish } else s
      .next s

/-- STAGE_NOTIFY (R399, R530): the target field's notice that a transfer is complete reaches a field that holds the
region's sector. -/
def execStageNotify (f transfer : Nat) (s : State) : Host.Outcome State Fault Refusal :=
  onField f (match s.order transfer with
    | none => s
    | some o =>
      if o.completeAt.isSome = true ∧ (s.fieldsOf o.sector).contains f = true ∧ o.notified.contains f = false ∧
          (s.fld f).fogged = false then
        s.setOrder { o with notified := f :: o.notified }
      else s)

/-! ### INTAKE and the commit point -/

/-- Whether a transfer is complete for the watch that begins at instant `e` in field `f` (R530). -/
def Order.completeFor (o : Order) (f e : Nat) : Bool :=
  match o.completeAt with
  | some c => decide (c + 512 < e) && (decide (o.plan.field = f) || o.notified.contains f)
  | none => false

/-- INTAKE of watch `w`, begun at `e`, in field `f`: complete transfers into its regions make them READY, and their
orders end once every field that holds the sector has had its INTAKE; a transfer still incomplete L watches after its
target fails (R531, R536). -/
def State.intakeStaging (s : State) (f w e : Nat) : State :=
  s.each (s.orders.filter fun o => o.plan.field = f && !o.failed && decide (o.target ≤ w)) fun s o =>
    if o.completeFor f e then (if s.isQuiesced f o.sector then s else s.sf F.fstRegionCfg_state f o.plan.region 2)
    else if o.target + o.plan.lead ≤ w ∧ o.completeAt = none then s.failTransfer o
    else s

/-- The transfers of a sector that are late for watch `w` at field `f` (R531, R536): targeted at or before it, and not
complete, or failed and not ordered anew. -/
def State.lateFor (s : State) (f sec w e : Nat) : List Order :=
  s.orders.filter fun o => o.sector = sec && (if o.failed then decide (o.target ≤ w)
    else decide (o.target ≤ w) && !o.completeFor f e)

/-- The late event and counters of one field, once for a sector in a watch (R531). -/
def State.stageLate (s : State) (f sec : Nat) (o : Order) : State :=
  let s := s.bump .stgCountLate f 0 1
  let s := s.wr .stgLateLast f 0 (BitVec.ofNat 64 (sec % 4096 * 2 ^ 20 + o.plan.transfer))
  s.logEv evStageLate f f (detail2 sec o.plan.transfer)

/-- The destages of a committed character are released; those of a void one are discarded (R533). -/
def State.releaseDestages (s : State) (f sec : Nat) : State :=
  match s.runChar f sec with
  | none => s
  | some c => { s with destages := s.destages ++ (c.destages.filter (·.field = f)).map fun d => { sector := sec, plan := d } }

/-- The failed destages of a field are gone once they have made their sectors void at a commit point (R534, R783). -/
def State.dropFailedDestages (s : State) (f : Nat) : State :=
  { s with destages := s.destages.filter fun d => !(d.failed && decide (d.plan.field = f)) }

/-- Whether a sector's earlier destages are all read by this commit point (R534, R783). -/
def State.destagesDone (s : State) (f sec : Nat) : Bool := !s.destages.any fun d => d.sector = sec && d.plan.field = f

end Sys2Proof.Machine
end

