-- ==== Sys2Proof/Machine/Routers.lean ====
section
/-! DEFINITION. Where a bind table places an image, what its routers hold, and the reset of a tile
(spec/01_wafer_geometry_and_binding.md R52; spec/13_efsen_image.md R582, R602; spec/17_clocks_and_reset_domains.md R737, R738). -/

namespace Sys2Proof.Machine

/-! ### Placement (R52, R580) -/

/-- The logical tile that binding placed on a physical one, if any. -/
def BindTable.logicalOf (bt : BindTable) (t : Nat) : Option Nat :=
  match bt.tiles.find? (·.2 = t) with
  | some (k, _) => some k
  | none => match bt.bays.find? (·.2 = bayOf t) with
    | some (lb, _) => some (tileOfBay lb (localIndex t))
    | none => none

/-- The physical tile a logical one occupies (R52). -/
def BindTable.physical (bt : BindTable) (t : Nat) : Nat :=
  match mfind bt.tiles t with
  | some p => p
  | none => match mfind bt.bays (bayOf t) with
    | some b => tileOfBay b (localIndex t)
    | none => t

/-- The role of a logical tile: 0 IDLE, 1 COMPUTE, 2 STEERING_RELAY, 3 MEMORY. -/
def roleOf (img : Image) (t : Nat) : Nat :=
  match img.placement.find? (·.lbay = bayOf t) with
  | some p => p.roles.getD (localIndex t) 0
  | none => 0

/-- The sector of a logical tile, 0xFFF for none. -/
def imgSectorOf (img : Image) (t : Nat) : Nat :=
  match img.placement.find? (·.lbay = bayOf t) with
  | some p => p.sector
  | none => 0xFFF

/-- The epoch group of a sector of an image. -/
def imgEpochGroup (img : Image) (sec : Nat) : Nat :=
  match img.sectors.find? (·.sector = sec) with
  | some x => x.epochGroup
  | none => sec

/-- Two sectors that the image declares linked (R580). -/
def imgLinked (img : Image) (a b : Nat) : Bool :=
  decide (a ≠ 0xFFF) && decide (b ≠ 0xFFF) && decide (imgEpochGroup img a = imgEpochGroup img b)

/-- The logical tiles of a sector's bays. -/
def imgTilesOf (img : Image) (sec : Nat) : List Nat :=
  (img.placement.filter (·.sector = sec)).flatMap fun b => (List.range 256).map (tileOfBay b.lbay)

/-- The sector of a physical tile under a bind table. -/
def BindTable.sectorAt (bt : BindTable) (img : Image) (t : Nat) : Nat :=
  match bt.logicalOf t with
  | some l => imgSectorOf img l
  | none => 0xFFF

/-! ### Routers (R349, R359, R379, R582) -/

/-- The word of a port of a router as PLACEMENT and SECTORS give it (R359). -/
def portWord (img : Image) (bt : BindTable) (t d : Nat) : Nat :=
  let own := bt.sectorAt img t
  let nb := match linkEnd t d with | some n => bt.sectorAt img n | none => 0xFFF
  (if nb ≠ own ∨ nb = 0xFFF then 2 ^ 31 else 0) + (if imgLinked img own nb = true ∧ nb ≠ own then 2 ^ 30 else 0) + nb

/-- A router's sector entries written into one copy: those of the bind table, in order, in the places that no WAFER entry
holds. -/
def State.writeCopy (s : State) (bt : BindTable) (t copy : Nat) : State :=
  let wafer (k : Nat) : Bool := s.flag F.mshLlEntry_valid t k && s.flag F.mshLlEntry_wafer t k
  let places := ((List.range 32).map (· + copy * 32)).filter fun k => !wafer k
  let es := mget [] bt.entries t
  s.each (places.zip (List.range 32)) fun s (e : Nat × Nat) => s.wr .mshLlEntry t e.1 (BitVec.ofNat 64 (es.getD e.2 0))

/-- Tile sector, port configurations and the entries of the copies named, for one router. -/
def State.writeRouter (s : State) (img : Image) (bt : BindTable) (copies : List Nat) (t : Nat) : State :=
  let s := s.sf F.mshTileSector_sector t 0 (bt.sectorAt img t)
  let s := s.each (List.range 4) fun s d => s.wr .mshPortCfg t d (BitVec.ofNat 64 (portWord img bt t d))
  s.each copies fun s c => s.writeCopy bt t c

/-! ### The reset of a tile (R737, R738) -/

/-- Registers of a tile. -/
def tileRegs : List Reg := (rowsMshTile ++ rowsTilTile ++ rowsDbgTile ++ rowsSptTile).map (·.reg)

/-- Everything in the tiles that `which` admits cleared: registers, groups, slots, rules, SRAM, what is in their send
buffers or has reached them; their tags change generation. Packets in their routers go on (R738). -/
def State.clearTiles (s : State) (which : Nat → Bool) : State :=
  { s with
    regs := s.regs.filter fun (e : RegKey × BitVec 64) => !(tileRegs.contains e.1.reg && which e.1.unit)
    tiles := s.tiles.map fun (e : Nat × Tile) => if which e.1 then
      (e.1, { tags := (List.range 16).map fun k => (k, { gen := !(mget ({} : RTag) e.2.tags k).gen }) }) else e
    groups := s.groups.filter fun (e : (Nat × Nat) × Group) => !which e.1.1
    slots := s.slots.filter fun (e : (Nat × Nat) × Slot) => !which e.1.1
    rules := s.rules.filter fun (e : (Nat × Nat) × RuleSt) => !which e.1.1
    sram := s.sram.filter fun c => !which (c.1 / 65536)
    sramBad := s.sramBad.filter fun a => !which (a / 65536)
    sramWeak := s.sramWeak.filter fun a => !which (a / 65536)
    lostTiles := s.lostTiles.filter fun (e : Nat × Nat × List (Nat × Nat)) => !which e.1
    packets := s.packets.filter fun p => !(which p.at_ && decide (p.st ≠ .flying))
    haltedBy := s.haltedBy.filter fun (e : (Nat × Nat) × Nat) => !which e.1.1
    faultLog := s.faultLog.filter fun (e : Nat × List Nat) => !which e.1 }

/-- A tile reset (R737). -/
def State.resetTile (s : State) (t : Nat) : State := (s.setTil t (s.til t)).clearTiles (· = t)

/-- The physical tiles of a sector's bays. -/
def BindTable.sectorTiles (bt : BindTable) (img : Image) (k : Nat) : List Nat :=
  (img.placement.filter (·.sector = k)).flatMap fun b =>
    (List.range 256).map (tileOfBay (mget b.lbay bt.bays b.lbay))

/-- A tile reset that keeps the router's WAFER entries, which the Keeper rewrites with the rest (R602). -/
def State.resetForPatch (s : State) (t : Nat) : State :=
  let wafer := (List.range 64).filter fun k => s.flag F.mshLlEntry_valid t k && s.flag F.mshLlEntry_wafer t k
  let old := wafer.map fun k => (k, s.rd .mshLlEntry t k)
  (s.resetTile t).each old fun s e => s.wr .mshLlEntry t e.1 e.2

/-- A patch whose application stops (R604): the tiles of its sectors are reset and hold no content, their routers as the loaded
image has them. -/
def State.dropPatched (s : State) (p base : Image) (bt : BindTable) : State :=
  s.each ((p.sectors.map (·.sector)).flatMap (bt.sectorTiles base)) fun s t => (s.resetForPatch t).writeRouter base bt [0, 1] t

end Sys2Proof.Machine
end

