-- ==== Sys2Proof/Machine/Recovery.lean ====
section
/-! DEFINITION. What other chapters share of faults and recovery: completing mailbox commands, drains, sector health,
Jalfen frames and notices, holding and fogging a field (spec/06_steering.md R315-R322; spec/19_external_interfaces.md
R784, R804; spec/21_faults_hangs_and_recovery.md R837, R838, R847, R860, R861). -/

namespace Sys2Proof.Machine

/-! ### Mailbox statuses (R808) -/

def mbOk : Nat := 0
def mbBusy : Nat := 1
def mbBadOpcode : Nat := 2
def mbBadState : Nat := 3
def mbRange : Nat := 4
def mbNotFound : Nat := 5
def mbDenied : Nat := 6
def mbRejected : Nat := 7
def mbBindFailed : Nat := 8
def mbNoResource : Nat := 9
def mbSourceFault : Nat := 10
def mbTimeout : Nat := 11
def mbFailed : Nat := 12

/-- A mailbox command completes: STATE DONE, its status and result words, MSI-X vector 0 of its port's physical function
(R804). A slot number counts 16 to a port; 64 is JTAG's, which has no interrupt (R874). -/
def State.mboxDone (s : State) (u status : Nat) (results : List Nat) : State :=
  let s := (s.sf F.hstMboxStatus_state u 0 3).sf F.hstMboxStatus_status u 0 status
  let s := s.each ((List.range 48).zip results) fun s w => s.wr .hstMboxResult u w.1 (BitVec.ofNat 64 (w.2 % 2 ^ 32))
  { s with out := (if u < 64 then [Output.msix (u / 16) 0 0] else []) ++ s.out, mboxJobs := s.mboxJobs.filter (·.1 ≠ u) }

/-- Every running mailbox command that waits for `op` completes. -/
def State.finishOp (s : State) (op : MboxOp) (status : Nat) (results : List Nat) : State :=
  s.each ((s.mboxJobs.filter (·.2 = op)).map (·.1)) fun s u => s.mboxDone u status results

/-! ### Bay states (R652) -/

/-- A bay's state set. A bay that leaves LIT is no longer tested; one that becomes LIT is so from now. -/
def State.setBay (s : State) (b st : Nat) : State :=
  let y := mget {} s.bays b
  let y : BayPower := if st = 2 then { y with litAt := some s.now, rampAt := none, step := 0 }
    else { y with
      litAt := none, rampAt := if st = 1 then some s.now else none, step := if st = 1 then 1 else 0, tested := false
      joins := none }
  { s.sf F.pwrBayState_state (fieldOfBay b) (bayInField b) st with bays := mput s.bays b y }

/-- A bay loses its gate's supply: its tiles retain no state (R652), its routers, queues and slots hold nothing. -/
def State.dropTile (s : State) (t : Nat) : State :=
  { s with
    tiles := mdel s.tiles t
    groups := s.groups.filter (·.1.1 ≠ t)
    slots := s.slots.filter (·.1.1 ≠ t)
    rules := s.rules.filter (·.1.1 ≠ t)
    sram := memClear s.sram (sramAddr t 0) 65536
    sramBad := s.sramBad.filter fun a => a / 65536 ≠ t
    sramWeak := s.sramWeak.filter fun a => a / 65536 ≠ t, lostTiles := mdel s.lostTiles t
    packets := s.packets.filter (·.at_ ≠ t)
    outTurn := s.outTurn.filter (·.1.1 ≠ t)
    cvRefused := s.cvRefused.filter (·.1.1 ≠ t) }

/-- The bays of a field. -/
def baysOf (f : Nat) : List Nat := (List.range 36).map (bayAt f)

/-- The listed tiles of a bay. -/
def State.tilesOfBay (s : State) (b : Nat) : List Nat := (s.liveTiles (fieldOfBay b)).filter fun t => bayOf t = b

/-- A bay's gate opens: the state given, and no tile state kept. -/
def State.openGate (s : State) (b st : Nat) : State := (s.each (s.tilesOfBay b) State.dropTile).setBay b st

/-! ### Drains (R315-R322, R838) -/

/-- A drain begins in a field, with the abandonment of the sector's passes and MV operation at its first cycle (R315,
R316, R448, R524). -/
def State.startDrain (s : State) (f sec : Nat) : State :=
  if s.isDraining f sec = true ∨ s.isQuiesced f sec = true then s
  else
    let s := s.beginDrain f sec
    let s := s.each (List.range 4) fun s l => s.abandonLens (f * 4 + l) (· = sec)
    s.abandonMv f (· = sec)

/-- DRAIN_START (R315): the Keeper's write of START to `STR_DRAIN_CTL`, in WORK. -/
def execDrainStart (req : Requester) (f sec : Nat) (s : State) : Host.Outcome State Fault Refusal :=
  onField f (match req with
    | .keeper _ => if (s.fld f).phase = .work then s.startDrain f sec else s.refuse f req (fieldWin f 0x20010)
    | _ => s.refuse f req (fieldWin f 0x20010))

/-- Cycles since a sector's drain began in a field. -/
def State.drainElapsed (s : State) (f sec : Nat) : Nat :=
  match (s.fld f).draining.find? (·.1 = sec) with
  | some (_, c) => s.cycle f - c
  | none => 0

/-- A drain ends in a field; with the last field of the sector, DRAIN_SECTOR completes (R317, R805). -/
def State.endDrain (s : State) (f sec : Nat) : State :=
  let n := s.drainElapsed f sec
  let s := (s.quiesce f sec).sf F.strDrainStatus_elapsed f 0 (min n 65535)
  if (s.fieldsOf sec).all fun g => s.isQuiesced g sec || (s.fld g).held then
    s.finishOp (.drain sec) mbOk [((s.fieldsOf sec).map fun g => s.gf F.strDrainStatus_elapsed g).foldl max 0]
  else s

/-- DRAIN_COMPLETE (R317): a field's drain is found empty. -/
def execDrainComplete (f sec : Nat) (s : State) : Host.Outcome State Fault Refusal :=
  onField f (if s.isDraining f sec = true ∧ s.sectorEmpty f sec = true then s.endDrain f sec else s)

/-- DRAIN_TIMEOUT (R322): the drain has not completed B cycles after its start: TIMEOUT, one event, and every slot of
the sector flushed; DRAIN_SECTOR answers TIMEOUT (R808). -/
def execDrainTimeout (f sec : Nat) (s : State) : Host.Outcome State Fault Refusal :=
  onField f (match (s.fld f).draining.find? (·.1 = sec) with
    | none => s
    | some (_, c0) =>
      if s.sectorEmpty f sec = true ∨ (s.gf F.strDrainStatus_state f = 3 ∧ s.gf F.strDrainStatus_sector f = sec) then s
      else
        let s := s.advanceTo (cycleInstant (s.fld f) (c0 + s.drainBound f sec))
        let s := (s.sf F.strDrainStatus_state f 0 3).sf F.strDrainStatus_sector f 0 sec
        let s := s.logEv evDrainTimeout f sec (s.drainBound f sec)
        let s := s.finishOp (.drain sec) mbTimeout [s.drainBound f sec]
        s.each (s.sectorTiles f sec) fun s t => s.each (s.slotsOf t) fun s k => s.flushWithAbort t k)

/-- A drain falls due in every field that holds a sector, at WORK cycle 512 of the watch after the present one (R315, R838); in a
field that is held then, at that of the first watch it runs. -/
def State.dueDrain (s : State) (sec : Nat) : State :=
  s.each (s.fieldsOf sec) fun s f =>
    let x := s.fld f
    if s.isDraining f sec = true ∨ s.isQuiesced f sec = true ∨ x.drainDue.any (·.1 = sec) = true then s
    else s.setFld f { x with drainDue := x.drainDue ++ [(sec, x.watch + 1)] }

/-! ### Sector health (R837) -/

/-- A sector's health: 2 DOWN and 3 STRANDED as recorded, 1 QUIESCED once every field has drained it, else 0. -/
def State.health (s : State) (sec : Nat) : Nat :=
  match s.sec sec with
  | none => 0
  | some x =>
    if 2 ≤ x.health then x.health
    else if s.fieldsOf sec ≠ [] ∧ (s.fieldsOf sec).all (fun f => s.isQuiesced f sec) = true then 1 else 0

/-- A sector goes DOWN on the event named; where it still runs it is drained (R837, R838). -/
def State.sectorDown (s : State) (sec code : Nat) : State :=
  match s.sec sec with
  | none => s
  | some x =>
    if x.health = 2 then s
    else
      let s := s.setSec sec { x with health := 2, cause := code }
      (s.logEv evSectorDown 64 sec code).dueDrain sec

/-- A DOWN sector becomes STRANDED (R837); the cause is that for which it went DOWN, as the worked case of the chapter shows. -/
def State.sectorStranded (s : State) (sec : Nat) : State :=
  match s.sec sec with
  | none => s
  | some x =>
    if x.health ≠ 2 then s
    else (s.setSec sec { x with health := 3 }).logEv evSectorStranded 64 sec x.cause

/-- The sectors of the loaded image with tiles in a field. -/
def State.boundSectors (s : State) (f : Nat) : List Nat := (s.sectors.map (·.1)).filter fun k => (s.fieldsOf k).contains f

/-! ### Jalfen frames (R784, R860, R861) -/

/-- One bit of the IEEE 802.3 CRC-32, reflected. -/
def crcBit (c : BitVec 32) : BitVec 32 := if c.getLsbD 0 then (c >>> 1) ^^^ 0xEDB88320#32 else c >>> 1

/-- CRC-32 over bytes. -/
def crc32 (bs : List Nat) : BitVec 32 :=
  ~~~ (bs.foldl (fun c b => crcBit (crcBit (crcBit (crcBit (crcBit (crcBit (crcBit (crcBit
    (c ^^^ BitVec.ofNat 32 (b % 256)))))))))) 0xFFFFFFFF#32)

/-- `n` bytes of a number, lowest first. -/
def bytesLe (n v : Nat) : List Nat := (List.range n).map fun j => v / 256 ^ j % 256

def State.jlf (s : State) (k : Nat) : Jalfen := mget {} s.jalfen k
def State.setJlf (s : State) (k : Nat) (x : Jalfen) : State := { s with jalfen := mput s.jalfen k x }

/-- Whether a Jalfen link carries frames: enabled and trained. -/
def State.linkUp (s : State) (k : Nat) : Bool := s.flag F.jlfCfg_enable 0 k && (s.gf F.stnStartupPorts_jalfen).testBit k

/-- A frame sent on a link: header, payload and CRC (R784). -/
def State.sendFrame (s : State) (k ty grant ring : Nat) (payload : List Nat) : State :=
  let x := s.jlf k
  let head := [ty, s.gf F.jlfCfg_wafer 0 k] ++ bytesLe 2 x.tx ++ bytesLe 2 (s.gf F.jlfCfg_job 0 k) ++
    bytesLe 2 payload.length ++ bytesLe 2 grant ++ [ring, 0, 0, 0, 0, 0]
  let bs := head ++ payload
  let s := s.setJlf k { x with tx := (x.tx + 1) % 65536, lastTx := s.now }
  { s with out := Output.frame k ty (bs ++ bytesLe 4 (crc32 bs).toNat) :: s.out }

/-- Whether a link is FABRIC_MANAGED (R859). -/
def State.fabric (s : State) (k : Nat) : Bool := s.flag F.stnPeerCfg_mode 0 k

/-- An event recorded for the fabric manager: MSI-X vector 1 of every port's physical function (R862). -/
def State.peerIrq (s : State) : State := { s with out := (List.range 4).map (fun p => Output.msix p 0 1) ++ s.out }

/-- PEER, KIND and CODE of `STN_PEER_STATUS`. -/
def State.peerRecord (s : State) (k peer kind code : Nat) : State :=
  ((s.sf F.stnPeerStatus_peer 0 k peer).sf F.stnPeerStatus_kind 0 k kind).sf F.stnPeerStatus_code 0 k code

/-- A NOTICE on every trained link of the job that `onLink` admits and whose NOTICE_MASK enables the kind (R860, R861). On
a FABRIC_MANAGED link the wafer records it, signals and logs it too (R862). -/
def State.sendNotice (s : State) (kind code : Nat) (onLink : Nat → Bool) : State :=
  s.each ((List.range 8).filter fun k => s.linkUp k && onLink k && (s.gf F.stnPeerCfg_notice_mask 0 k).testBit (kind - 1))
    fun s k =>
      let own := s.gf F.jlfCfg_wafer 0 k
      let s := s.sendFrame k 3 0 0 ([kind, own] ++ bytesLe 2 (s.gf F.jlfCfg_job 0 k) ++
        bytesLe 4 s.stationWatch ++ bytesLe 2 code ++ List.replicate 54 0)
      if s.fabric k then (s.peerRecord k own kind code).peerIrq.logEv evPeerNotice 64 k (detail2 kind code) else s

/-- Whether a sector of a field is bound to a ring that relays on a link (R861). -/
def State.relaysOn (s : State) (f k : Nat) : Bool :=
  s.hostSlots.any fun (e : (Nat × Nat) × HostSlot) => (s.fieldsOf e.1.1).contains f && match e.2.ring with
    | some r => s.gf F.hstRingCfg_target r = 1 && s.gf F.hstRingCfg_jlink r = k
    | none => false

/-! ### The loaded image leaves (R180, R593, R598, R599) -/

/-- Registers that an image's content fills in a tile. -/
def contentRegs : List Reg := [.tilRole, .tilSplit, .tgpWdog, .chnSlotCfg, .chnSlotDest, .chnSlotWindow, .chnSlotDone,
  .chnSlotCredit, .strRule, .strRuleParam, .strRuleState, .mshTileSector, .mshPortCfg]

/-- Registers that an image's content fills in a field or the station. -/
def contentFieldRegs : List Reg := [.fstRegionCfg, .fstRegionSpan, .fstRegionFill, .mveDesc, .lnsMode, .lnsPanelOwner,
  .lnsPanelMap, .lnsDesc, .lnsPreload, .buyCfg, .buyInit, .buyTarget, .buySectorGroup, .sptTagParent, .strDrainBound,
  .mshEpoch, .mshEpochCtl, .mshOldEpochCount]

/-- Whether a register word survives unloading: content is cleared, and light-list entries but WAFER ones. -/
def keepUnloaded (e : RegKey × BitVec 64) : Bool :=
  !(contentRegs.contains e.1.reg || contentFieldRegs.contains e.1.reg) &&
    !(decide (e.1.reg = .mshLlEntry) && !e.2.getLsbD 28)

/-- The image unloaded: no content in the structure, every tile IDLE, every group INACTIVE, `BCN_SETTLE_LEN` on its way
back to 1,024 (R88). Rings keep the requests they own. -/
def State.unload (s : State) : State :=
  let worked := s.regs.filterMap fun (e : RegKey × BitVec 64) =>
    if e.1.reg = .tilRole ∧ s.gf F.tilRole_role e.1.unit ≠ 0 then some e.1.unit else none
  let s := s.each worked State.loseSram
  let s : State := { s with
    regs := s.regs.filter keepUnloaded
    groups := [], slots := [], rules := [], tiles := s.tiles.map fun (e : Nat × Tile) => (e.1, { tags := e.2.tags })
    buoys := [], journal := [], lenses := [], mvs := [], sectorTags := [], tagMsgs := [], mcast := []
    orders := [], destages := [], sectors := [], loaded := none, loadedBind := none, loadRun := none, stopAt := none
    plan := s.plan.map fun (e : Nat × PlanField) => (e.1, { e.2 with predicted := [] })
    fields := s.fields.map fun (e : Nat × FieldSt) => (e.1, { e.2 with
      draining := [], quiesced := [], drainDue := [], voids := [], prevVoid := [], votes := [], overrun := [], armed := [] }) }
  let s := { s.setSettle 1024 with rwlWrites := [], unlocked := [] }
  let s := s.wr .stnImageLoaded 0 0 0
  let s := s.wr .stnImageId 0 0 0
  s.each (List.range 12) fun s k => s.wr .stnImageDigest 0 k 0

/-- A load, patch or restore under way fails (R598, R604, R854): the event for it, the candidate REJECTED with LOAD_FAULT
or another code, nothing loaded after a failed load; after a failed patch its sectors stay quiesced with their tiles reset. -/
def State.failLoading (s : State) (code : Nat) : State :=
  match s.loadRun with
  | none => s
  | some run =>
    let s := match run.mbox with | some u => s.mboxDone u mbFailed [] | none => s
    let reject (s : State) : State := (s.sf F.stnImageStatus_state 0 0 3).sf F.stnImageStatus_reason 0 0 code
    match run.kind with
    | .full => (reject s.unload).logEv evImageLoadFault 64 64 code
    | .patch =>
      let secs := match s.candidate with | some img => img.sectors.map (·.sector) | none => []
      let s := reject { s with loadRun := none }
      let s := match s.candidate, s.loaded, s.loadedBind with
        | some p, some base, some bt => s.dropPatched p base bt
        | _, _, _ => s
      s.each secs fun s k => s.logEv { evImageLoadFault with cls := 3 } 64 k code
    | .restore secs =>
      let s := ({ s with loadRun := none } : State).sf F.stnImageStatus_state 0 0 2
      s.each secs fun s k => s.logEv { evImageLoadFault with cls := 3 } 64 k code

/-- Rejection code LOAD_FAULT (R593). -/
def loadFault : Nat := 0x24

/-- The loading under way fails where a field reset or fog falls in its way (R598, R604, R854, R865). -/
def State.breakLoading (s : State) (f : Nat) : State :=
  match s.loadRun with
  | none => s
  | some run =>
    let hit := match run.kind with
      | .full => true
      | .patch => (match s.candidate with
        | some img => img.sectors.any fun k => (s.fieldsOf k.sector).contains f
        | none => false)
      | .restore secs => secs.any fun k => (s.fieldsOf k).contains f
    if hit then s.failLoading loadFault else s

/-! ### Holding and fogging a field (R121, R847) -/

/-- The tiles at the corners of a data-plane path by dimension order, X first. -/
def pathFields (src dst : Nat) : List Nat :=
  let fx := tileX src / 96
  let fy := tileY src / 96
  let gx := tileX dst / 96
  let gy := tileY dst / 96
  ((List.range 8).filter fun x => (fx ≤ x && x ≤ gx) || (gx ≤ x && x ≤ fx)).map (fun x => fy * 8 + x) ++
    ((List.range 8).filter fun y => (fy ≤ y && y ≤ gy) || (gy ≤ y && y ≤ fy)).map (fun y => y * 8 + gx)

/-- Whether a lane of a transfer ends in or crosses a field. -/
def Order.crosses (o : Order) (f : Nat) : Bool :=
  o.plan.lanes.any fun l => (pathFields l.1 (bayPort (bayAt o.plan.field l.2))).contains f

/-- A block's clocks stopped: lenses and MV engine of a field. -/
def State.stopFieldClocks (s : State) (f : Nat) : State :=
  s.wr .clkRunning 0 f (BitVec.ofNat 64 (s.gf F.clkRunning_run 0 f / 32 * 32))

/-- A field fogs on an event: clocks stopped, its bays FOGGED, or DARK where `dark` says that power is removed, its
sectors DOWN, loading stopped, the transfers that cross it failed, an arm of an epoch flip dropped, the field held (R121,
R822, R847, R865). -/
def State.fogField (s : State) (f code : Nat) (dark : Bool) : State :=
  if (s.fld f).fogged then s
  else
    let s := s.stopFieldClocks f
    let s := s.each (baysOf f) fun s b => match s.bayState b with
      | 1 => s.openGate b 0
      | 2 => if dark then s.openGate b 0 else s.setBay b 3
      | 3 => if dark then s.openGate b 0 else s
      | _ => s
    let s := (s.sf F.fkpStatus_fogged f 0 1).sf F.fkpStatus_fog_cause f 0 code
    let s := s.sf F.fkpStatus_fenced f 0 1
    let s := s.bump .stnCountFog 0 0 1
    let s := s.logEv evFieldFogged f f code
    let s := s.setFld f { s.fld f with fogged := true, held := true, fogAt := s.now, fogCause := code }
    let s := { s with rewrites := s.rewrites ++ [(f, s.now + 2000000)] }
    let s := s.dropArms f
    let s := s.each (s.boundSectors f) fun s sec => s.sectorDown sec code
    let s := s.breakLoading f
    let s := s.each (s.orders.filter fun o => !o.failed && o.crosses f) fun s o => s.failTransfer o
    s.sendNotice 4 code (s.relaysOn f)

/-- Ledger records after one more: a removal takes the record of its resource out (R28). -/
def ledgerWith (l : List Ledger) : Ledger → List Ledger
  | .removal d => l.filter fun x => match x with | .defect e _ => decide (e ≠ d) | _ => true
  | r => l ++ [r]

/-- Whether a record is one that the Keeper heeds before it is written: a live record, or the removal of one. -/
def Ledger.isDefect : Ledger → Bool
  | .defect .. | .removal _ => true
  | _ => false

/-- A journalled write of a copy (R676): the record enters its journal, then its records, and the journal is free again. -/
def LedgerCopy.put (c : LedgerCopy) (r : Ledger) : LedgerCopy :=
  let begun : LedgerCopy := { c with journal := some r }
  { journal := none, records := match begun.journal with | some x => ledgerWith begun.records x | none => begun.records }

/-- Whether a record written to a copy reads back. -/
def LedgerCopy.readsBack (c : LedgerCopy) : Ledger → Bool
  | .removal d => !c.records.any fun x => match x with | .defect e _ => decide (e = d) | _ => false
  | r => decide (c.records.getLast? = some r)

/-- A record written to copy A, read back, and only then written to copy B (R676). -/
def State.writeRecord (s : State) (r : Ledger) : State :=
  let a := s.copyA.put r
  { s with copyA := a, copyB := if a.readsBack r then s.copyB.put r else s.copyB }

/-- The copies that failed their check rewritten (R75). -/
def State.repairCopies (s : State) : State :=
  match s.ledgerRepair with
  | none => s
  | some (a, b, l) =>
    { s with
      copyA := if a then { records := l } else s.copyA
      copyB := if b then { records := l } else s.copyB
      ledgerRepair := none }

/-- A service-ledger record (R34, R37, R673): written, or queued while the inhibit holds; the queue drops its oldest trim record
when full (R675-R677). A live record, or the removal of one, counts for the Keeper at once. -/
def State.ledger (s : State) (r : Ledger) : State :=
  let s := if r.isDefect then { s with live := ledgerWith s.live r } else s
  if s.flag F.stnNvInhibit_inhibit then
    let isTrim (x : Ledger) : Bool := match x with | .trim .. => true | _ => false
    if s.ledgerQueue.length < 512 then
      let s : State := { s with ledgerQueue := s.ledgerQueue ++ [r] }
      s.sf F.stnNvInhibit_queued 0 0 s.ledgerQueue.length
    else
      match s.ledgerQueue.find? isTrim with
      | some x => ({ s with ledgerQueue := s.ledgerQueue.erase x ++ [r] } : State).logEv evNvDeferredDrop 64 64 0
      | none => if isTrim r then s.logEv evNvDeferredDrop 64 64 0 else { s with ledgerQueue := s.ledgerQueue ++ [r] }
  else
    let s := s.writeRecord r
    if r.isDefect then s else { s with live := ledgerWith s.live r }

end Sys2Proof.Machine
end

