-- ==== Sys2Proof/Machine/Rings.lean ====
section
/-! DEFINITION. Host rings: intake and outbox areas, fetch, delivery, results, retirement
(spec/19_external_interfaces.md, R789-R802, R812-R815; R708, R709 of spec/16_watch_planner.md). -/

namespace Sys2Proof.Machine

/-! ### Rings and slots -/

/-- The number of a ring: 256 to a function, 64 functions to a port (R789). -/
def ringNum (port fn ring : Nat) : Nat := (port * 64 + fn) * 256 + ring

def ringPort (r : Nat) : Nat := r / 16384
def ringFn (r : Nat) : Nat := r / 256 % 64

def State.hring (s : State) (r : Nat) : HostRing := mget {} s.hostRings r
def State.setHring (s : State) (r : Nat) (x : HostRing) : State := { s with hostRings := mput s.hostRings r x }
def State.hslot (s : State) (sec i : Nat) : HostSlot := mget {} s.hostSlots (sec, i)

/-- The instant of a watch's snapshot Q, half a period after its beacon (R685). -/
def State.snapshotAt (s : State) : Nat := s.lastBeacon + s.gf F.bcnPeriod_period / 2

/-- Before the slots or the tenants change after the snapshot instant of a watch: what the round of that watch works on is kept as it
stands (R685, R687). -/
def State.keepSnapshot (s : State) : State :=
  if s.flag F.bcnStatus_running = false ∨ s.now < s.snapshotAt ∨ s.snapshot.any (fun e => e.1 = s.stationWatch) = true then s
  else { s with snapshot := some (s.stationWatch, s.hostSlots, s.tenants) }

def State.setHslot (s : State) (sec i : Nat) (x : HostSlot) : State :=
  let s := s.keepSnapshot
  { s with hostSlots := mput s.hostSlots (sec, i) x }

/-- The tenant slot a ring is bound to. -/
def State.slotOfRing (s : State) (r : Nat) : Option (Nat × Nat) :=
  (s.hostSlots.find? fun (e : (Nat × Nat) × HostSlot) => e.2.ring = some r).map (·.1)

/-- The tenant slots of a sector that the loaded image binds. -/
def State.slotsOfSector (s : State) (sec : Nat) : List Nat := (s.hostSlots.filter fun (e : (Nat × Nat) × HostSlot) => e.1.1 = sec).map (·.1.2)

/-- Entries a ring has room for. -/
def State.ringSize (s : State) (r : Nat) : Nat := 2 ^ s.gf F.hstRingCfg_size_log2 r

/-- Entries from the count `b` up to the count `a`, both 32 bits and free-running. -/
def count32 (a b : Nat) : Nat := (a + 2 ^ 32 - b) % 2 ^ 32

/-! ### Intake and outbox areas (R795, R796) -/

/-- The lowest region of a kind in a field that a sector alone owns. -/
def State.ownRegion (s : State) (f sec kind : Nat) : Option Nat :=
  (List.range 256).find? fun r => s.flag F.fstRegionCfg_valid f r && s.regionKind f r = kind &&
    s.gf F.fstRegionCfg_owner f r = sec && s.gf F.fstRegionCfg_access f r = 0

/-- Number of tenant slots of a sector. -/
def State.slotCount (s : State) (sec : Nat) : Nat := match s.sec sec with | some x => x.table.slots | none => 0

/-- Start and length of half `h` of a slot's share of a region. -/
def State.halfOf (s : State) (f sec r slot h : Nat) : Nat × Nat :=
  let size := (s.gf F.fstRegionSpan_size_m1 f r + 1) * 4096
  let share := size / max 1 (s.slotCount sec) / 128 * 128
  (s.gf F.fstRegionSpan_base f r * 4096 + slot * share + h * (share / 2), share / 2)

/-- Entries a half holds. -/
def halfEntries (len : Nat) : Nat := len / 64 - 1

/-- The home field, intake region and outbox region of a slot that can take requests (R796). -/
def State.slotAreas (s : State) (sec slot : Nat) : Option (Nat × Nat × Nat) :=
  let f := s.homeOf sec
  match s.ownRegion f sec 0, s.ownRegion f sec 1 with
  | some i, some o =>
    if 2 ≤ halfEntries (s.halfOf f sec i slot 0).2 ∧ 2 ≤ halfEntries (s.halfOf f sec o slot 0).2 then some (f, i, o)
    else none
  | _, _ => none

/-! ### Results -/

/-- A result entry that the rim itself writes, with FINAL set (R794). -/
def rimResult (tenant reqId status : Nat) : List Nat :=
  [tenant % 2 ^ 18 + 7 * 2 ^ 24, status * 2 ^ 16, reqId % 2 ^ 32, reqId / 2 ^ 32 % 2 ^ 32] ++ List.replicate 12 0 ++ [2 ^ 33]

/-- Whether the rim itself made a result that waits. -/
def rimMade (e : List Nat) : Bool := e.getD 16 0 = 2 ^ 33

/-- Result entries appended to what waits for a ring. -/
def State.queueResults (s : State) (r : Nat) (es : List (List Nat)) : State :=
  let x := s.hring r
  s.setHring r { x with results := x.results ++ es }

/-- A request is retired. -/
def State.retireReq (s : State) (sec slot seq : Nat) : State :=
  let x := s.hslot sec slot
  if x.owned.any (·.seq = seq) then
    let s := s.setHslot sec slot { x with owned := x.owned.filter (·.seq ≠ seq) }
    s.bump .hstCountRetired 0 (ringPort (x.ring.getD 0)) 1
  else s

/-- Every request of a slot retired, with the rim's result of a status or with none. -/
def State.retireAll (s : State) (sec slot : Nat) (status : Option Nat) : State :=
  let x := s.hslot sec slot
  s.each x.owned fun s o =>
    let s := match status, x.ring with
      | some st, some r => s.queueResults r [rimResult o.tenant o.reqId st]
      | _, _ => s
    s.retireReq sec slot o.seq

/-- A ring disabled: its requests retired, with a RING_RESET result or without (R794). -/
def State.disableRing (s : State) (r : Nat) (answer : Bool) : State :=
  let s := s.sf F.hstRingCfg_enable r 0 0
  let x := s.hring r
  let s := s.setHring r { x with part := [], skip := none, results := if answer then x.results else [] }
  match s.slotOfRing r with
  | some (sec, i) => s.retireAll sec i (if answer then some 5 else none)
  | none => s

/-- The status block written, with the ring's interrupt (R791). -/
def State.writeStatus (s : State) (r : Nat) : State :=
  let x := s.hring r
  let o := Output.hostWrite (ringPort r) (ringFn r) (s.gf F.hstRingStatusAddr_addr r) [x.reqHead, x.resTail, 0, 0]
  let irq := if s.flag F.hstRingCfg_irq r then [Output.msix (ringPort r) (ringFn r) (s.gf F.hstRingCfg_vector r)] else []
  { s with out := irq ++ o :: s.out }

/-! ### Delivery (R797, R800, R801) -/

/-- Whether a sector takes requests into its next batch: its home field runs, it is neither quiesced nor DOWN, and the
next watch does not shelve it (R319, R704, R847). -/
def State.takesRequests (s : State) (sec : Nat) : Bool :=
  let f := s.homeOf sec
  !(s.fld f).fogged && !s.isQuiesced f sec && s.health sec ≤ 1 &&
    match s.sec sec with
    | some x => !x.next.shelved
    | none => false

/-- An intake entry (R793). -/
def intakeEntry (o : Owned) (k : Nat) (e : List Nat) : List Nat :=
  [o.tenant % 2 ^ 18 + (if k = 0 then 2 ^ 24 else 0) + (if k + 1 = o.entries.length then 2 ^ 25 else 0) +
    (if o.again then 2 ^ 27 else 0), e.headD 0 % 2 ^ 16, o.seq, o.fetchWatch % 2 ^ 32] ++ e.drop 1

/-- Words written to field store from an offset. -/
def State.fstPutWords (s : State) (f off : Nat) (ws : List Nat) : State :=
  s.fstPutBytes f off ((ws.map fun w => (bytesLe 4 w).map (BitVec.ofNat 8)).flatten)

/-- Requests that wait are written, in order and whole, into the half of the next batch while they fit (R797). -/
def State.deliver (s : State) (sec slot : Nat) : State :=
  match s.slotAreas sec slot with
  | none => s
  | some (f, i, _) =>
    if s.takesRequests sec = false then s
    else
      let m := (s.fld f).watch + 1
      let half := s.halfOf f sec i slot (m % 2)
      let cap := halfEntries half.2
      let x := s.hslot sec slot
      let filled := if x.filling = m then x.filled else 0
      let r := x.owned.foldl (fun (acc : State × Nat × Bool × List Owned) o =>
        let (s, n, stop, done_) := acc
        if o.batch.isSome = true ∧ o.again = false ∨ stop = true ∨ cap < n + o.entries.length then
          (s, n, stop || (o.batch.isNone || o.again), done_ ++ [o])
        else
          let s := s.each ((List.range o.entries.length).zip o.entries) fun s ke =>
            s.fstPutWords f (half.1 + 64 * (n + ke.1 + 1)) (intakeEntry o ke.1 ke.2)
          (s, n + o.entries.length, stop, done_ ++ [{ o with batch := some m, again := false }]))
        (s, filled, false, [])
      r.1.setHslot sec slot { r.1.hslot sec slot with owned := r.2.2.2, filling := m, filled := r.2.1 }

/-- The header of a batch written during INTAKE of watch `m` (R796, R797), and the demand noted (R708). -/
def State.openBatch (s : State) (sec slot m : Nat) : State :=
  let x := s.hslot sec slot
  let s := s.updSec sec fun y => { y with demand := mput y.demand slot x.owned.length }
  match s.slotAreas sec slot with
  | none => s
  | some (f, i, _) =>
    let half := s.halfOf f sec i slot (m % 2)
    s.fstPutWords f half.1 ([if x.filling = m then x.filled else 0, m % 2 ^ 32] ++ List.replicate 14 0)

/-! ### Fetch (R792, R793, R797, R812, R813) -/

/-- Whether the rim may fetch from a ring (R792). -/
def State.mayFetch (s : State) (r : Nat) : Bool :=
  let x := s.hring r
  s.flag F.hstRingCfg_enable r && s.imageStarted && decide (count32 x.reqTail x.reqHead ≤ s.ringSize r) &&
    match s.slotOfRing r with
    | some (sec, i) => decide ((s.hslot sec i).owned.length < 4096)
    | none => false

/-- A ring whose counts break the bound of R792 is disabled with FAULT. -/
def State.checkCounts (s : State) (r : Nat) : State :=
  let x := s.hring r
  if s.flag F.hstRingCfg_enable r = true ∧ s.ringSize r < count32 x.reqTail x.reqHead then
    (s.hset F.hstRingState_fault r 0).disableRing r true
  else s

/-- Whether an entry can follow those already fetched of its request (R793, R812). -/
def entryOk (part : List (List Nat)) (e : List Nat) : Bool :=
  let w := e.headD 0
  let first := w.testBit 24
  decide (first = part.isEmpty) && decide (w / 2 ^ 26 = 0) && decide (bits w 23 18 = 0) &&
    decide (e.getD 1 0 / 2 ^ 16 = 0) && decide (e.getD 1 0 % 2 ^ 16 ≤ 48) && decide (part.length < 256) &&
    match part with
    | [] => true
    | p :: _ => decide (p.headD 0 % 2 ^ 18 = w % 2 ^ 18) && p.getD 2 0 = e.getD 2 0 && p.getD 3 0 = e.getD 3 0

/-- A whole request: answered by the rim, or owned with the ring's next SEQ (R792, R793, R796, R813). -/
def State.takeRequest (s : State) (r : Nat) (es : List (List Nat)) : State :=
  let e := es.headD []
  let tenant := e.headD 0 % 2 ^ 18
  let reqId := e.getD 2 0 + e.getD 3 0 * 2 ^ 32
  match s.slotOfRing r with
  | none => s.queueResults r [rimResult tenant reqId 4]
  | some (sec, i) =>
    let x := s.hslot sec i
    let s := s.bump .hstCountFetched 0 (ringPort r) 1
    if x.tenant ≠ some tenant then
      (s.bump .hstCountBadTenant 0 (ringPort r) 1).queueResults r [rimResult tenant reqId 2]
    else if (s.slotAreas sec i).isNone then s.queueResults r [rimResult tenant reqId 4]
    else
      let h := s.hring r
      let o : Owned := { seq := h.seq, tenant := tenant, reqId := reqId, fetchAt := s.now
                         fetchWatch := s.stationWatch
                         entries := es.map fun e => (e.getD 1 0 % 2 ^ 16) :: (e.drop 4).take 12 }
      let s := s.setHring r { h with seq := (h.seq + 1) % 2 ^ 32 }
      (s.setHslot sec i { x with owned := x.owned ++ [o] }).deliver sec i

/-- One entry fetched from a ring. -/
def State.takeEntry (s : State) (r : Nat) (e : List Nat) : State :=
  let x := s.hring r
  let last := (e.headD 0).testBit 25
  let x := { x with reqHead := (x.reqHead + 1) % 2 ^ 32 }
  match x.skip with
  | some n => s.setHring r { x with skip := if last = true ∨ 255 ≤ n then none else some (n + 1) }
  | none =>
    if entryOk x.part e then
      if last then (s.setHring r { x with part := [] }).takeRequest r (x.part ++ [e])
      else s.setHring r { x with part := x.part ++ [e] }
    else
      let n := x.part.length + 1
      let s := s.setHring r { x with part := [], skip := if last = true ∨ 256 ≤ n then none else some n }
      s.queueResults r [rimResult (e.headD 0 % 2 ^ 18) (e.getD 2 0 + e.getD 3 0 * 2 ^ 32) 3]

/-- Whether a port, function and ring exist. -/
def ringNamed (port fn ring : Nat) : Bool := decide (port < 4) && decide (fn < 64) && decide (ring < 256)

/-- HST_DB_REQ_TAIL (R790, R792). -/
def execHstDbReqTail (port fn ring value : Nat) (s : State) : Host.Outcome State Fault Refusal :=
  onUnit port 4 (if ringNamed port fn ring = false then s
    else
      let r := ringNum port fn ring
      (s.setHring r { s.hring r with reqTail := value % 2 ^ 32 }).checkCounts r)

/-- HST_DB_RES_HEAD (R790, R800). -/
def execHstDbResHead (port fn ring value : Nat) (s : State) : Host.Outcome State Fault Refusal :=
  onUnit port 4 (if ringNamed port fn ring = false then s
    else
      let r := ringNum port fn ring
      s.setHring r { s.hring r with resHead := value % 2 ^ 32 })

/-- RING_FETCH (R792, R793, R797): entries of a ring, in ring order, no more than the host has produced. -/
def execRingFetch (port fn ring : Nat) (entries : List (List Nat)) (s : State) : Host.Outcome State Fault Refusal :=
  onUnit port 4 (
    let r := ringNum port fn ring
    if ringNamed port fn ring = false ∨ s.mayFetch r = false then s
    else
      let x := s.hring r
      let es := entries.take (count32 x.reqTail x.reqHead)
      if es = [] then s else (s.each es fun s e => if s.mayFetch r then s.takeEntry r e else s).writeStatus r)

/-- HOST_DMA_FAULT (R779, R814): a ring fetch fails. -/
def execHostDmaFault (port fn ring : Nat) (s : State) : Host.Outcome State Fault Refusal :=
  onUnit port 4 (
    let r := ringNum port fn ring
    if ringNamed port fn ring = false ∨ s.mayFetch r = false then s
    else
      let s := (s.hset F.hstRingState_fault r 0).disableRing r true
      s.logEv evHostDmaFault 64 port (detail2 fn ring))

/-! ### Results read from the outbox (R798, R799, R801) -/

/-- Words of field store as a rim reads them: what has committed. -/
def State.fstWords (s : State) (f off n : Nat) : List Nat :=
  (List.range n).map fun j => (s.seeWord f none (off + 4 * j)).w.toNat

/-- Result entries a port's result buffer holds: 32 MiB (R800). -/
def State.portResults (s : State) (port : Nat) : Nat :=
  (s.hostRings.filter fun (e : Nat × HostRing) => ringPort e.1 = port).foldl (fun n e => n + e.2.results.length) 0

/-- An outbox entry as the result that is pushed, with the request it retires. -/
def resultOf (o : Owned) (e : List Nat) : List Nat :=
  let w := e.headD 0
  let retires := w.testBit 25 && w.testBit 26
  [w, e.getD 1 0, o.reqId % 2 ^ 32, o.reqId / 2 ^ 32 % 2 ^ 32] ++ (e.drop 4).take 12 ++ [if retires then o.seq + 1 else 0]

/-- Whether a slot of a watch counts towards a character's declared results, and the count taken (R708). -/
def State.countAnswers (s : State) (sec slot n : Nat) : State :=
  match s.sec sec with
  | none => s
  | some x => match tableChar x.table x.now.char with
    | none => s
    | some c =>
      let need := (c.slots.getD slot (0, 0, 0)).2.2
      if mget 0 x.demand slot < need then s
      else
        let a := mget {} x.answered (c.id, slot)
        let recent := ((n, decide (n < need)) :: a.recent).take 64
        let short := decide (16 ≤ (recent.filter (·.2)).length)
        let mean := recent.foldl (fun m e => m + e.1) 0 / max 1 recent.length
        let s := if short = true ∧ a.short = none then s.logEv evDeclarationShort 64 sec (detail2 c.id slot) else s
        s.updSec sec fun x => { x with
          answered := mput x.answered (c.id, slot)
            { recent := recent, short := if a.short.isSome then a.short else if short then some mean else none } }

/-- The outbox half of one slot read from the commit point of watch `m` (R798, R799, R801). -/
def State.readOutbox (s : State) (sec slot m : Nat) : State :=
  match s.slotAreas sec slot, (s.hslot sec slot).ring with
  | some (f, _, o), some r =>
    let x := s.hslot sec slot
    let half := s.halfOf f sec o slot (m % 2)
    let head := s.fstWords f half.1 2
    let n := if head.getD 1 0 = m % 2 ^ 32 then min (head.headD 0) (halfEntries half.2) else 0
    let es := (List.range n).map fun k => s.fstWords f (half.1 + 64 * (k + 1)) 16
    let owner (e : List Nat) : Option Owned :=
      if x.tenant = some (e.headD 0 % 2 ^ 18) then x.owned.find? (·.seq = e.getD 2 0) else none
    let bad := (es.filter fun e => (owner e).isNone).length
    let good := es.filterMap fun e => (owner e).map fun q => resultOf q e
    let s := s.bump .hstCountResultBad 0 (ringPort r) bad
    let s := if bad = 0 then s
      else (s.setHslot sec slot { x with badAt := some m }).logEv evResultBad 64 sec (detail2 slot bad)
    if 524288 < s.portResults (ringPort r) + good.length then
      let s := (s.bump .hstCountResultOverflow 0 (ringPort r) 1).logEv evResultOverflow 64 sec slot
      let seqs := es.filterMap fun e => (owner e).map (·.seq)
      let y := s.hslot sec slot
      s.setHslot sec slot { y with owned := y.owned.map fun q => if seqs.contains q.seq then { q with again := true } else q }
    else (s.queueResults r good).countAnswers sec slot (good.filter fun e => e.getD 16 0 ≠ 0).length
  | _, _ => s

/-! ### Push (R791, R794, R800, R802, R709) -/

/-- The request a pushed entry retires, timed against its tenant's deadline (R709, R794). -/
def State.retirePushed (s : State) (r : Nat) (e : List Nat) : State :=
  match e.getD 16 0, s.slotOfRing r with
  | n + 1, some (sec, i) =>
    let s := match (s.hslot sec i).owned.find? (·.seq = n) with
      | some o =>
        let t := mget ({} : Tenant) s.tenants o.tenant
        if t.cls = 0 ∧ t.deadline < s.now - o.fetchAt then s.bump .stnPlanCountMiss 0 0 1 else s
      | none => s
    s.retireReq sec i n
  | _, _ => s

/-- One result entry written to the host's result ring. -/
def State.pushHost (s : State) (r : Nat) (e : List Nat) : State :=
  let x := s.hring r
  let addr := s.gf F.hstRingResBase_addr r + x.resTail % s.ringSize r * 64
  let s : State := { s with out := Output.hostWrite (ringPort r) (ringFn r) addr (e.take 16) :: s.out }
  (s.setHring r { x with resTail := (x.resTail + 1) % 2 ^ 32 }).retirePushed r e

/-- One result entry sent as a DATA frame on a Jalfen link (R785, R802). -/
def State.pushRelay (s : State) (r k : Nat) (e : List Nat) : State :=
  let s := s.sendFrame k 0 0 (s.gf F.hstRingCfg_peer_ring r) ((e.take 16).flatMap (bytesLe 4))
  let y := s.jlf k
  s.setJlf k { y with credit := y.credit - 1, uncovered := y.uncovered ++ [(r, e)] }

/-- Whether a tenant's results are pushed in the phase in which the home field of a ring's slot stands: from the commit point to
the end of its watch, or while it runs none (R92). -/
def State.resultsFlow (s : State) (r : Nat) : Bool :=
  match s.slotOfRing r with
  | none => true
  | some (sec, _) =>
    let x := s.fld (s.homeOf sec)
    x.held || [Phase.idle, .commit, .handover, .rest].contains x.phase

/-- RESULT_PUSH (R92, R791, R794, R798, R800, R802): results that wait, in INTAKE, WORK and the drain window only those that the
rim made, are written to the host while its result ring has room, or
relayed while the link carries frames and its credit lasts; RES_TAIL is written after the entries it covers. -/
def execResultPush (port fn ring count : Nat) (s : State) : Host.Outcome State Fault Refusal :=
  onUnit port 4 (
    let r := ringNum port fn ring
    let x := s.hring r
    let relay := s.flag F.hstRingCfg_target r
    let k := s.gf F.hstRingCfg_jlink r
    let room := if relay then (if s.linkUp k && !s.flag F.stnPeerStatus_broken 0 k then (s.jlf k).credit else 0)
      else if (s.gf F.stnStartupPorts_pcie).testBit port then s.ringSize r - count32 x.resTail x.resHead else 0
    let due := if s.resultsFlow r then x.results else x.results.takeWhile rimMade
    let es := due.take (min count room)
    if ringNamed port fn ring = false ∨ es = [] then s
    else
      let s := s.setHring r { x with results := x.results.drop es.length }
      if relay then s.each es fun s e => s.pushRelay r k e
      else (s.each es fun s e => s.pushHost r e).writeStatus r)

/-! ### Configuration (R789, R792, R794, R817) -/

/-- Whether a requester may write a ring's registers: the ring's own function, its port's physical function, or a
Keeper (R789). -/
def mayConfigure (req : Requester) (port fn : Nat) : Bool :=
  match req with
  | .host p g => decide (p = port) && (decide (g = 0) || decide (g = fn))
  | .keeper _ => true
  | _ => false

/-- A word of `HST_RING_CFG` with its RSV bits 0 (R817). -/
def ringCfgWord (value : Nat) : Nat := setBits (setBits (value % 2 ^ 32) 28 23 0) 11 10 0

/-- HST_RING_CFG_WRITE (R792, R794, R817): while ENABLE is 1 only a write to ENABLE counts; a SIZE_LOG2 outside 4–15 is
ignored and logged; clearing ENABLE disables the ring. RSV bits ignore what is written to them (R10, R929). -/
def execHstRingCfgWrite (req : Requester) (port fn ring value : Nat) (s : State) : Host.Outcome State Fault Refusal :=
  onUnit port 4 (
    let r := ringNum port fn ring
    let addr := 0x200000 + fn * 0x4000 + ring * 0x40 + 0x18
    if ringNamed port fn ring = false ∨ mayConfigure req port fn = false then s.refuse 64 req addr
    else if s.flag F.hstRingCfg_enable r then (if value.testBit 31 then s else s.disableRing r true)
    else if value % 16 < 4 then s.refuse 64 req addr
    else (s.wr .hstRingCfg r 0 (BitVec.ofNat 64 (ringCfgWord value))).checkCounts r)

/-- FUNCTION_LEVEL_RESET (R780, R794): every ring of a VF is disabled, its requests retired without result. -/
def execFunctionLevelReset (port fn : Nat) (s : State) : Host.Outcome State Fault Refusal :=
  onUnit port 4 (if fn = 0 ∨ 64 ≤ fn then s
    else s.each (List.range 256) fun s k =>
      let r := ringNum port fn k
      if s.flag F.hstRingCfg_enable r then s.disableRing r false else s)

end Sys2Proof.Machine
end

