-- ==== Sys2Proof/Machine/Defects.lean ====
section
/-! DEFINITION. Defect maps: the merged map, what it makes of tiles, links, bays and lenses, and the arrival of a live
record (spec/01_wafer_geometry_and_binding.md, R26-R37, R64, R70-R72, R77; R451-R453 of spec/09_lens_arrays.md). -/

namespace Sys2Proof.Machine

/-- The bad 16 × 16 panels of a lens. -/
def State.badPanels (s : State) (l : Nat) : List Nat :=
  (s.merged.filter fun d => d.kind = 6 && d.loc = l).map (·.detail % 1024)

/-- Whether a lens has full geometry (R36). -/
def State.lensFull (s : State) (l : Nat) : Bool := (s.badPanels l).isEmpty

/-- Good panels of a lens at a panel size of 16 or 32, in ascending index order (R35, R46). A 32 × 32 panel at (i, j) of
a 16 × 16 array holds the 16 × 16 panels (2i, 2j) … (2i + 1, 2j + 1) of a 32 × 32 array. -/
def State.goodPanels (s : State) (l size : Nat) : List Nat :=
  let bad := s.badPanels l
  if size = 32 then (List.range 256).filter fun p =>
    let r := p / 16 * 2
    let c := p % 16 * 2
    !(bad.contains (r * 32 + c) || bad.contains (r * 32 + c + 1) || bad.contains ((r + 1) * 32 + c) ||
      bad.contains ((r + 1) * 32 + c + 1))
  else (List.range 1024).filter fun p => !bad.contains p

/-- `LNS_GEOM` and `LNS_REPAIR` of a lens as the merged map has them (R36, R451, R461). -/
def State.writeGeometry (s : State) (l : Nat) : State :=
  let s := s.wr .lnsGeom l 0 (BitVec.ofNat 64 ((if s.lensFull l then 2 ^ 31 else 0) +
    (s.goodPanels l 16).length * 2 ^ 16 + (s.goodPanels l 32).length))
  s.each (List.range 32) fun s k =>
    let kind := if k < 16 then 4 else 5
    match s.merged.find? fun d => d.kind = kind && d.loc = l && bits d.detail 13 10 = k % 16 with
    | some d => s.wr .lnsRepair l k (BitVec.ofNat 64 (2 ^ 31 + (if d.source = 2 then 2 ^ 30 else 0) + d.detail % 1024))
    | none => s.wr .lnsRepair l k 0

/-! ### Counts and grade (R64, R77, R79) -/

/-- Bays that count as retired for binding: those of the merged map, and every bay of a field held after its power-up (R768). -/
def State.retiredBays (s : State) : List Nat := (List.range 2304).filter s.bayOut

/-- `STN_TILE_COUNT`: the retired bays of the merged map, and the serviceable tiles, none of them in a held field (R768). -/
def State.writeTileCount (s : State) : State :=
  let out := s.retiredBays
  let dark := ((s.merged.filter fun d => d.kind = 1 && !out.contains (bayOf d.loc)).map (·.loc)).eraseDups
  let retired := (s.merged.filter (·.kind = 3)).length
  let s := s.wr .stnTileCount 0 0 (BitVec.ofNat 64 (retired * 2 ^ 20 + (589824 - 256 * out.length - dark.length)))
  { s with countWritten := true }

/-- Whether the merged map lies below the limits of the wafer's grade (R64). -/
def State.underGrade (s : State) : Bool :=
  let w8s := s.fuses.grade = 1
  let out := s.retiredBays
  let dark := ((s.merged.filter fun d => d.kind = 1).map (·.loc)).eraseDups
  let full := ((List.range 256).filter s.lensFull).length
  decide (s.gf F.stnTileCount_serviceable < (if w8s then 575000 else 560000)) ||
    decide (full < (if w8s then 256 else 248)) ||
    (List.range 64).any (fun f =>
      decide ((if w8s then 0 else 1) < ((List.range 4).filter fun k => !s.lensFull (f * 4 + k)).length) ||
      decide ((if w8s then 2 else 4) < (out.filter fun b => fieldOfBay b = f).length)) ||
    dark.any fun t => !out.contains (bayOf t) &&
      decide ((if w8s then 8 else 16) < (dark.filter fun u => bayOf u = bayOf t).length)

/-- The grade checked after a change of the merged map (R77). The record's DETAIL is the word of `STN_TILE_COUNT` (DESIGN CHOICE,
assumption 102). -/
def State.checkGrade (s : State) : State :=
  let u := s.underGrade
  let s := if u = true ∧ s.belowGrade = false then s.logEv evBelowGrade 64 64 (s.rd .stnTileCount).toNat else s
  { s with belowGrade := u }

/-! ### What a bind table uses (R71) -/

/-- A transfer's lanes, their entry tiles and bays where binding placed them (R24, R528). -/
def BindTable.lanesOf (bt : BindTable) (x : ImgTransfer) : List (Nat × Nat) :=
  x.lanes.map fun l => (bt.physical l.1, bayInField (mget (bayAt x.field l.2) bt.bays (bayAt x.field l.2)))

/-- Whether a path crosses a link. -/
def pathCrosses (path : List Nat) (t d : Nat) : Bool :=
  match linkEnd t d with
  | some n => (path.zip (path.drop 1)).any fun e => e = (t, n) || e = (n, t)
  | none => false

/-- Whether a bind table uses the resource a record names (R71). -/
def BindTable.uses (bt : BindTable) (img : Image) (d : Defect) : Bool :=
  match d.kind with
  | 1 => (match bt.logicalOf d.loc with | some t => decide (roleOf img t ≠ 0) | none => false) ||
      bt.paths.any fun p => p.path.contains d.loc || p.back.contains d.loc
  | 2 => bt.paths.any fun p => pathCrosses p.path d.loc (d.detail % 4) || pathCrosses p.back d.loc (d.detail % 4)
  | 3 => bt.bays.any fun e => e.2 = d.loc
  | _ => bt.lenses.any fun e => e.2 = d.loc

/-- The sectors of an image that a resource carries (R837): of a tile or bay, of the lens's owners, and of the routes
that cross it. -/
def BindTable.sectorsUsing (bt : BindTable) (img : Image) (d : Defect) : List Nat :=
  let ofTile (t : Nat) : List Nat := match bt.logicalOf t with
    | some l => if roleOf img l ≠ 0 then [imgSectorOf img l] else []
    | none => []
  let crossed := (bt.paths.filter fun p => match d.kind with
    | 1 => p.path.contains d.loc || p.back.contains d.loc
    | 2 => pathCrosses p.path d.loc (d.detail % 4) || pathCrosses p.back d.loc (d.detail % 4)
    | 3 => (p.path ++ p.back).any fun t => bayOf t = d.loc
    | _ => false).map (·.route)
  let routed := (img.routes.filter fun r => crossed.contains r.route).flatMap fun r => [imgSectorOf img r.src, imgSectorOf img r.dst]
  let own := match d.kind with
    | 1 => ofTile d.loc
    | 3 => (List.range 256).flatMap fun k => ofTile (tileOfBay d.loc k)
    | 2 => []
    | _ => (img.lenses.filter fun x => mfind bt.lenses (x.field * 4 + x.lens) = some d.loc).flatMap (·.owners)
  ((own ++ routed).filter (· ≠ 0xFFF)).eraseDups

/-- The wafer's view of a resource's loss: the sectors of the loaded image that use it go DOWN (R72, R837). -/
def State.resourceLost (s : State) (d : Defect) (code : Nat) : State :=
  match s.loaded, s.loadedBind with
  | some img, some bt => s.each (bt.sectorsUsing img d) fun s k => s.sectorDown k code
  | _, _ => s

/-! ### A live record (R70-R72, R849) -/

/-- The binding registers after a binding or a refused BIND (R76, R79). -/
def State.bindReport (s : State) (state reason item excess displaced moved : Nat) : State :=
  let s := (s.sf F.stnBindStatus_state 0 0 state).sf F.stnBindStatus_reason 0 0 reason
  let s := (s.sf F.stnBindDetail_item 0 0 item).sf F.stnBindDetail_excess 0 0 excess
  (s.sf F.stnBindStats_displaced_bays 0 0 displaced).sf F.stnBindStats_remapped_tiles 0 0 moved

/-- A live record met by a binding under way (R70): the first restarts it from the snapshot step, a second makes it fail with
MAP_CHANGED. -/
def State.rebind (s : State) : State :=
  if s.gf F.stnBindStatus_state ≠ 1 then s
  else if s.flag F.stnBindStatus_restarted = false then
    ({ s with bindMap := some s.merged } : State).sf F.stnBindStatus_restarted 0 0 1
  else
    ({ s with bindMap := none } : State).bindReport 3 3 0 0 0 0 |>.finishOp .bind mbBindFailed []

/-- A live record arrives: it enters the ledger and the event log, which holds its 64 bits (R32), `STN_TILE_COUNT` follows, a bound candidate that uses
the resource is unbound, the sectors of the loaded image that use it go DOWN, and the WAFER entries around it are to
be rewritten 2 ms later. -/
def State.liveRecord (s : State) (d : Defect) : State :=
  let s := s.ledger (.defect d s.stationWatch)
  let s := s.logEv evLiveRecord 64 d.loc d.word
  let s := (if s.countWritten then s.writeTileCount.checkGrade else s)
  let s := if d.kind = 4 ∨ d.kind = 5 ∨ d.kind = 6 then s.writeGeometry d.loc else s
  let s := match s.boundTo, s.candidate with
    | some bt, some img =>
      if s.gf F.stnBindStatus_state = 2 ∧ bt.uses img d = true ∧ s.loadRun = none then
        ({ s with boundTo := none } : State).sf F.stnBindStatus_state 0 0 0
      else s
    | _, _ => s
  let s : State := { s with loadRun := s.loadRun.map fun r => { r with news := r.news ++ [d] } }
  let s := s.rebind
  let s := s.resourceLost d (evCode evLiveRecord)
  let f := if d.kind = 3 then fieldOfBay d.loc else if d.kind ≤ 2 then fieldOf d.loc else d.loc / 4
  if d.kind ≤ 3 then { s with rewrites := s.rewrites ++ [(f, s.now + 2000000)] } else s

/-- Live records removed: what a passed test no longer shows; one of source GATE stays (R28). -/
def State.dropRecords (s : State) (gone : Defect → Bool) : State :=
  let s := s.each (s.liveDefects.filter fun d => gone d && decide (d.source ≠ 3)) fun s d => s.ledger (.removal d)
  if s.countWritten then s.writeTileCount.checkGrade else s

end Sys2Proof.Machine
end

