-- ==== Sys2Proof/Machine/Power.lean ====
section
/-! DEFINITION. Rails, bay gates, droop, thermal trip, the energy of the wafer and the non-volatile write inhibit
(spec/15_power_delivery_gates_and_droop.md). -/

namespace Sys2Proof.Machine

/-! ### Voltage tables (R643) -/

/-- Entry of `PWR_VF_CORE` for a core level in MHz. -/
def coreEntry (mhz : Nat) : Nat := (mhz - 500) / 10

/-- Entry of `PWR_VF_LENS` for a lens level; a level of 0 reads the 600 MHz entry (R611). -/
def lensEntry (mhz : Nat) : Nat := (max mhz 600 - 600) / 10

/-- V(p) of an operating point in a field, in mV. -/
def State.voltage (s : State) (f core lens : Nat) : Nat :=
  max (s.gf F.pwrVfCore_mv f (coreEntry core)) (s.gf F.pwrVfLens_mv f (lensEntry lens))

/-- Whether both levels of a point are available in a field (R646). -/
def State.pointAvail (s : State) (f core lens : Nat) : Bool :=
  s.flag F.pwrVfCore_avail f (coreEntry core) && s.flag F.pwrVfLens_avail f (lensEntry lens)

/-- The commanded target of a field's VDDC: the largest V(p) over the point in force and the points selected for later
watches (R644). -/
def State.setTarget (s : State) (f : Nat) : State :=
  let x := s.fld f
  let later := (x.nextLevel.toList ++ x.afterLevel.toList).map fun p => s.voltage f p.1 p.2
  s.sf F.pwrStatus_target_mv f 0 (later.foldl max (s.voltage f x.mhz x.lensMhz))

/-! ### Rails (R639, R642, R680) -/

/-- Rated current of a rail, in A (R639). -/
def railLimit (r : Nat) : Nat :=
  if r < 64 then 420 else if r < 128 then 90 else [40, 120, 40, 4, 5].getD (r - 128) 0

/-- The target a rail is held to, in mV. -/
def State.railTarget (s : State) (r : Nat) : Nat :=
  if r < 64 then s.gf F.pwrStatus_target_mv r
  else if r < 128 then 700 + s.gf F.pwrStatus_sram_mv (r - 64)
  else [800, 750, 1200, 1800, 3300].getD (r - 128) 0

/-- Distance of two numbers. -/
def dist (a b : Nat) : Nat := if a < b then b - a else a - b

/-- Whether a reading fails its check (R642). -/
def State.railBad (s : State) (x : RailReading) : Bool :=
  let t := s.railTarget x.rail
  x.timeout || x.fault || decide (railLimit x.rail < x.iout) ||
    (if x.rail < 129 then decide (15 < dist x.vout t)
     else if x.rail < 132 then decide (t * 3 < dist x.vout t * 100)
     else decide (x.vout < 3200) || decide (3450 < x.vout))

/-- The power of a field's bays removed: every RAMPING, LIT or FOGGED one goes DARK (R665, R680, R847). -/
def State.darkenBays (s : State) (f : Nat) : State :=
  s.each (baysOf f) fun s b => if 1 ≤ s.bayState b ∧ s.bayState b ≤ 3 then s.openGate b 0 else s

/-- A rail fault (R680): a field's rail darkens and fogs it; the others are logged. -/
def State.railFault (s : State) (r : Nat) : State :=
  let s := s.hset F.pwrRailStatus_fault 0 r
  if r < 128 then
    let f := r % 64
    let s := s.logEv { evRailFault with cls := 4 } f r 0
    (s.darkenBays f).fogField f (evCode { evRailFault with cls := 4 }) true
  else s.logEv { evRailFault with cls := if r = 132 then 1 else 5 } 64 r 0

/-- One reading taken (R642): three failed checks in a row, or one fault bit, make a rail fault. -/
def State.takeReading (s : State) (x : RailReading) : State :=
  if 133 ≤ x.rail ∨ (x.rail < 128 ∧ s.flag F.pwrRailStatus_enabled 0 x.rail = false) then s
  else
    let s := if x.timeout then s
      else (s.sf F.pwrRailStatus_vout 0 x.rail x.vout).sf F.pwrRailStatus_iout 0 x.rail x.iout
    let n := if s.railBad x then mget 0 s.railFails x.rail + 1 else 0
    let s : State := { s with railFails := mput s.railFails x.rail n }
    if (3 ≤ n ∨ x.fault = true) ∧ s.flag F.pwrRailStatus_fault 0 x.rail = false then s.railFault x.rail else s

/-- RAIL_TELEMETRY_POLL (R642). -/
def execRailTelemetryPoll (readings : List RailReading) (s : State) : Host.Outcome State Fault Refusal :=
  .next (s.each readings State.takeReading)

/-- PMB_ALERT (R642): the rails are read at once. -/
def execPmbAlert (readings : List RailReading) (s : State) : Host.Outcome State Fault Refusal :=
  .next (s.each readings State.takeReading)

/-! ### Bay gates (R652-R658) -/

/-- A bay's ramp begins (R653, R654); one retired by its gate never ramps. -/
def State.startRamp (s : State) (b : Nat) : State :=
  match s.bayState b with
  | 0 | 4 => (s.setBay b 1).sf F.pwrBayState_retry_pending (fieldOfBay b) (bayInField b) 0
  | 5 => if (s.fuses.records ++ s.liveDefects).any fun d => d.kind = 3 && d.loc = b && d.source = 3 then s else s.setBay b 1
  | _ => s

/-- Bays of a field that are RAMPING. -/
def State.ramping (s : State) (f : Nat) : Nat := ((baysOf f).filter fun b => s.bayState b = 1).length

/-- A ramp that begins no earlier than an instant. -/
def State.rampFrom (s : State) (b t : Nat) : State :=
  let s := s.startRamp b
  let y := mget {} s.bays b
  { s with bays := mput s.bays b { y with rampAt := y.rampAt.map (max t) } }

/-- The instant from which the next ramp of a field may begin while the beacon does not run: 1 µs after the one before (R656). -/
def State.rampAfter (s : State) (f : Nat) : Nat :=
  ((baysOf f).filterMap fun b => if s.bayState b = 1 then (mget {} s.bays b).rampAt.map (· + 1000) else none).foldl max 0

/-- A bay has ended its ramp while the beacon does not run: the lowest bay of the field that waits begins its own (R656;
DEDUCED, log 114). -/
def State.nextRamp (s : State) (b : Nat) : State :=
  let f := fieldOfBay b
  match (baysOf f).find? fun c => decide (c ≠ b) && s.rampQueue.contains c with
  | none => s
  | some c =>
    if s.flag F.bcnStatus_running = true ∨ 4 ≤ s.ramping f then s
    else ({ s with rampQueue := s.rampQueue.filter (· ≠ c) } : State).rampFrom c (s.rampAfter f)

/-- A ramp asked for: queued for a HANDOVER while the beacon runs, else begun while fewer than four of the field's bays
ramp (R656). -/
def State.askRamp (s : State) (b : Nat) : State :=
  if s.flag F.bcnStatus_running = true ∨ 4 ≤ s.ramping (fieldOfBay b) then
    if s.rampQueue.contains b then s else { s with rampQueue := s.rampQueue ++ [b] }
  else s.rampFrom b (s.rampAfter (fieldOfBay b))

/-- The ramps that begin in one HANDOVER of a field, at its cycles 0, 64, 128 and 192: at most four, the lower bay first, and none
while its Keeper restarts (R656, R842). -/
def State.handoverRamps (s : State) (f : Nat) : State :=
  if s.flag F.fkpStatus_restarting f then s
  else
    let due := ((baysOf f).filter s.rampQueue.contains).take 4
    let s : State := { s with rampQueue := s.rampQueue.filter fun b => !due.contains b }
    let x := s.fld f
    s.each ((List.range 4).zip due) fun s e => s.rampFrom e.2 (cycleInstant x (x.nCycles - 256 + 64 * e.1))

/-- A bay's gate opens on its current (R655, R658): the second trip retires it for good. -/
def State.gateTrip (s : State) (b step current : Nat) : State :=
  let f := fieldOfBay b
  let k := bayInField b
  let n := s.gf F.pwrBayState_gate_faults f k
  let s := s.openGate b (if n = 0 then 4 else 5)
  let s := s.sf F.pwrBayState_gate_faults f k (min 2 (n + 1))
  let s := s.sf F.pwrBayState_fault_step f k step
  let s := s.sf F.pwrBayState_fault_current f k (min 255 current)
  let s := s.sf F.pwrBayState_retry_pending f k (if n = 0 then 1 else 0)
  let s := (s.bump .pwrCountGateFault f k 1).hset F.pwrStatus_gate_fault f 0
  let s : State := { s with bays := mput s.bays b { mget {} s.bays b with tripAt := some s.now } }
  let s := s.logEv evBayGateFault f b (detail2 step current)
  if n = 0 then s.resourceLost { kind := 3, source := 3, loc := b } (evCode evBayGateFault)
  else s.liveRecord { kind := 3, source := 3, loc := b }

/-- RAMP_STEP (R654): the next step of a ramp begins, 1.25 µs after the one before; the bay is LIT at the end of step 16.
-/
def execRampStep (bay : Nat) (s : State) : Host.Outcome State Fault Refusal :=
  onUnit bay 2304 (
    let y := mget {} s.bays bay
    match y.rampAt with
    | none => s
    | some t =>
      if s.bayState bay ≠ 1 then s
      else if y.step < 16 then
        ({ s with bays := mput s.bays bay { y with step := y.step + 1 } } : State).advanceTo (t + y.step * 1250)
      else ((s.advanceTo (t + 20000)).setBay bay 2).nextRamp bay)

/-- Current limit of a bay, in A: 2 + k in step k of a ramp, 18 while LIT (R654). -/
def State.bayLimit (s : State) (b : Nat) : Nat := if s.bayState b = 1 then 2 + (mget {} s.bays b).step else 18

/-- BAY_GATE_FAULT (R653, R655, R658). -/
def execBayGateFault (bay current : Nat) (s : State) : Host.Outcome State Fault Refusal :=
  onUnit bay 2304 (
    if (s.bayState bay = 1 ∨ s.bayState bay = 2) ∧ 4 * s.bayLimit bay < current then
      (s.gateTrip bay (if s.bayState bay = 1 then (mget {} s.bays bay).step else 0) current).nextRamp bay
    else s)

/-- GATE_RETRY (R656, R657): the retry falls due 1 s after the trip; it waits while the field holds. -/
def execGateRetry (bay : Nat) (s : State) : Host.Outcome State Fault Refusal :=
  onUnit bay 2304 (match (mget {} s.bays bay).tripAt with
    | none => s
    | some t => if s.bayState bay = 4 ∧ (s.fld (fieldOfBay bay)).fogged = false then
        (s.advanceTo (t + 1000000000)).askRamp bay
      else s)

/-- GATE_FAULT_COUNT_CLEAR (R658). -/
def execGateFaultCountClear (bay : Nat) (s : State) : Host.Outcome State Fault Refusal :=
  onUnit bay 2304 (match (mget {} s.bays bay).litAt with
    | some t => if s.bayState bay = 2 then
        (s.advanceTo (t + 3600000000000)).sf F.pwrBayState_gate_faults (fieldOfBay bay) (bayInField bay) 0
      else s
    | none => s)

/-! ### Droop (R660-R662) -/

/-- A cycle in which something falls due, after cycle `c` of its bay has been stretched: what lay beyond it comes one cycle
later (R90, R144). -/
def dueAfter (c v : Nat) : Nat := if c < v then v + 1 else v

/-- A tile whose cycle `c` is stretched: its issue, its special-function unit, its steering path, its service port, its tags and
the release points of its loads come a cycle later. -/
def Tile.stretched (y : Tile) (c : Nat) : Tile :=
  { y with
    stretches := y.stretches ++ [c], svcFree := dueAfter c y.svcFree
    cyc := dueAfter c y.cyc, sfuFree := dueAfter c y.sfuFree, pathFree := dueAfter c y.pathFree
    move := y.move.map fun m => { m with from_ := dueAfter c m.from_ }
    tags := y.tags.map fun (e : Nat × RTag) => (e.1, { e.2 with freeFrom := dueAfter c e.2.freeFrom })
    loads := y.loads.map fun l => if c < l.issue + l.rel then { l with issue := l.issue + 1 } else l
    tagLog := y.tagLog.map fun e => (dueAfter c e.1, e.2), shadowLog := y.shadowLog.map fun e => (dueAfter c e.1, e.2) }

/-- A group whose tile's cycle `c` is stretched: its results come a cycle later. -/
def Group.stretched (x : Group) (c : Nat) : Group :=
  { x with ready := x.ready.map fun (e : Nat × Nat) => (e.1, dueAfter c e.2) }

/-- A cycle of a bay stretched: its tiles execute one cycle fewer, what they wait for comes a cycle later, and nothing that
counts executed cycles counts it (R90, R144, R172, R178, R272). -/
def State.stretchBay (s : State) (b c : Nat) : State :=
  { s with
    tiles := s.tiles.map fun (e : Nat × Tile) => if bayOf e.1 = b then (e.1, e.2.stretched c) else e
    groups := s.groups.map fun (e : (Nat × Nat) × Group) => if bayOf e.1.1 = b then (e.1, e.2.stretched c) else e
    slots := s.slots.map fun (e : (Nat × Nat) × Slot) =>
      if bayOf e.1.1 = b then (e.1, { e.2 with
        queue := e.2.queue.map fun w => { w with stamp := dueAfter c w.stamp }, pushedAt := dueAfter c e.2.pushedAt
        creditLog := e.2.creditLog.map fun l => (l.1, dueAfter c l.2.1, l.2.2)
        roomLog := e.2.roomLog.map fun l => (dueAfter c l.1, l.2) })
      else e
    rules := s.rules.map fun (e : (Nat × Nat) × RuleSt) =>
      if bayOf e.1.1 = b then (e.1, { e.2 with freeAt := dueAfter c e.2.freeAt }) else e }

/-- DROOP_STRETCH (R104, R660-R662): a droop request of cycle t stretches t + 1, or t + 2, at most one cycle in any 8; else it is
denied. The running ledger counts the stretched cycles that lie in WORK. -/
def execDroopStretch (bay : Nat) (s : State) : Host.Outcome State Fault Refusal :=
  onUnit bay 2304 (
    let f := fieldOfBay bay
    let k := bayInField bay
    let y := mget {} s.bays bay
    let t := s.cycleMark f
    if s.bayState bay ≠ 2 ∨ (s.fld f).fogged = true ∨ (s.fld f).phase = .idle then s
    else
      let free (c : Nat) : Bool := match y.stretchAt with | some l => decide (l + 8 ≤ c) | none => true
      if free (t + 1) || free (t + 2) then
        let c := if free (t + 1) then t + 1 else t + 2
        let s : State := { s with bays := mput s.bays bay { y with stretchAt := some c } }
        let s := s.bump .pwrCountStretch f k 1
        let s := s.stretchBay bay (c % 2 ^ 21)
        let x := s.fld f
        if 512 ≤ c % 2 ^ 21 ∧ c % 2 ^ 21 < settleStart x then s.bayStretch f bay else s
      else
        let s : State := { s with bays := mput s.bays bay { y with denied := (t :: y.denied).take 16 } }
        s.bump .pwrCountDenied f k 1)

/-- DROOP_SUSTAINED (R661): 16 requests of a bay denied within 256 cycles, or a point 100 mV low for 4 cycles: the field's
clocks stop, and it holds and fogs. -/
def execDroopSustained (bay : Nat) (deep : Bool) (s : State) : Host.Outcome State Fault Refusal :=
  onUnit bay 2304 (
    let f := fieldOfBay bay
    let d := (mget {} s.bays bay).denied
    let often := decide (d.length = 16) && decide (d.headD 0 < d.getD 15 0 + 256)
    if (deep || often) && decide (s.bayState bay = 2) && !(s.fld f).fogged then
      let s := (s.hset F.pwrStatus_droop_sustained f 0).logEv evDroopSustained f bay 0
      s.fogField f (evCode evDroopSustained) false
    else s)

/-! ### Thermal (R663-R666) -/

/-- The highest of a field's latest readings, signed. -/
def State.hottest (s : State) (f : Nat) : Int :=
  ((List.range 9).map fun k => toSigned 12 (s.gf F.thmTemp_temp f k)).foldl max (-2048)

/-- Whether a thermal trip of a field has yet to cool: its reset waits until every sensor reads below 85.0 °C (R665;
DEDUCED for a reset commanded, log 113). -/
def State.tooHot (s : State) (f : Nat) : Bool := s.flag F.thmStatus_trip f && decide (680 ≤ s.hottest f)

/-- Fields with TRIP set. -/
def State.tripped (s : State) : Nat := ((List.range 64).filter fun f => s.flag F.thmStatus_trip f).length

/-- THERMAL_SAMPLE (R663, R665-R667): readings and alert; 105 °C twice trips the field and darkens its bays; 115 °C twice,
or three fields tripped, assert THERMTRIP_N, which only PORST_N releases. -/
def execThermalSample (f : Nat) (temps : List Int) (s : State) : Host.Outcome State Fault Refusal :=
  onField f (
    let take (s : State) (kt : Nat × Int) : State :=
      let s := s.sf F.thmTemp_temp f kt.1 (ofSigned 12 kt.2)
      let s := if (s.gf F.thmCfg_alert f : Int) ≤ kt.2 then s.hset F.thmStatus_alert f 0 else s
      let h := mget (0, 0) s.hot (f, kt.1)
      { s with hot := mput s.hot (f, kt.1) (if 840 ≤ kt.2 then h.1 + 1 else 0, if 920 ≤ kt.2 then h.2 + 1 else 0) }
    let s := s.each ((List.range 9).zip temps) take
    let hotFor (p : Nat × Nat → Nat) : Bool := (List.range 9).any fun k => decide (2 ≤ p (mget (0, 0) s.hot (f, k)))
    let s := if hotFor (·.1) = true ∧ s.flag F.thmStatus_trip f = false then
        let s := (s.sf F.thmStatus_trip f 0 1).logEv evThermalTrip f f (ofSigned 32 (s.hottest f))
        let s := (s.stopFieldClocks f).darkenBays f
        s.fogField f (evCode evThermalTrip) true
      else s
    if (hotFor (·.2) = true ∨ 3 ≤ s.tripped) ∧ s.thermtrip = false then
      ({ s with thermtrip := true } : State).logEv evThermtripAsserted 64 f 0
    else s)

/-- Whether ALERT_N is asserted (R667). -/
def State.alertN (s : State) : Bool :=
  let en (k : Nat) : Bool := (s.gf F.pwrAlertEn_en).testBit k
  (en 0 && (List.range 64).any fun f => s.flag F.thmStatus_throttle f) ||
    (en 1 && (List.range 64).any fun f => decide ((s.gf F.thmCfg_alert f : Int) ≤ s.hottest f)) ||
    (en 2 && (List.range 133).any fun r => s.flag F.pwrRailStatus_fault 0 r) ||
    (en 3 && s.flag F.stnNvInhibit_inhibit) ||
    (en 4 && (List.range 64).any fun f => s.flag F.pwrStatus_gate_fault f)

/-! ### Wafer energy (R651, R681) -/

/-- Power of the station rails at their last telemetry, in mW. -/
def State.stationPower (s : State) : Nat :=
  sumNat ((List.range 5).map fun k => s.gf F.pwrRailStatus_vout 0 (128 + k) * s.gf F.pwrRailStatus_iout 0 (128 + k))

/-- WAFER_ENERGY (R651): once every running field has latched, the sum of the latched values and the station rails' part,
in µJ rounded down. `suspects` are the fields whose meter and telemetry have differed by more than 5 % over 1,024
watches (R681). -/
def execWaferEnergy (suspects : List Nat) (s : State) : Host.Outcome State Fault Refusal :=
  let late := (List.range 64).any fun f => !(s.fld f).held && match (s.fld f).phase with
    | .handover | .rest | .idle => false
    | _ => true
  if late then .next s
  else
    let p := s.gf F.bcnPeriod_period
    let stn := s.stationPower * p
    let nj := sumNat ((List.range 64).map fun f => s.gf F.pwrEnergyWatch_nj f)
    let s := s.wr .pwrWaferEnergy 0 0 (BitVec.ofNat 64 ((nj * 1000 + stn) / 1000000 % 2 ^ 32))
    let s : State := { s with stnEnergy := (stn / 1000000, p) }
    .next (s.each (suspects.filter fun f => decide (f < 64) && !s.flag F.pwrStatus_meter_suspect f) fun s f =>
      (s.hset F.pwrStatus_meter_suspect f 0).logEv evMeterSuspect f f 0)

/-! ### The non-volatile write inhibit (R674-R677) -/

/-- NV_INHIBIT (R674): VDD_AUX33, VDD_STN or both low set INHIBIT; with neither low, both rails have come back above their release
thresholds, and the release interval begins, or begins again (DESIGN CHOICE, log 112). -/
def execNvInhibit (aux core : Bool) (s : State) : Host.Outcome State Fault Refusal :=
  .next (if aux = false ∧ core = false then
      if s.flag F.stnNvInhibit_inhibit = false then s
      else { s.sf F.stnNvInhibit_releasing 0 0 1 with railsBack := some s.now }
    else
      let s : State := { (s.sf F.stnNvInhibit_inhibit 0 0 1).sf F.stnNvInhibit_releasing 0 0 0 with railsBack := none }
      let s := if aux then s.hset F.stnNvInhibit_aux_low 0 0 else s
      if core then s.hset F.stnNvInhibit_core_low 0 0 else s)

/-- NV_INHIBIT_RELEASE (R674, R675, R677): both rails have been back for 10 ms: the inhibit clears, and the ledger writes that wait
are made in order. -/
def execNvInhibitRelease (s : State) : Host.Outcome State Fault Refusal :=
  .next (if s.flag F.stnNvInhibit_inhibit = false then s
    else
      let s := match s.railsBack with | some t => s.advanceTo (t + 10000000) | none => s
      let s := ((s.sf F.stnNvInhibit_inhibit 0 0 0).sf F.stnNvInhibit_releasing 0 0 0).repairCopies
      let s := s.each s.ledgerQueue fun s r => s.writeRecord r
      let s : State := { s with live := s.live ++ s.ledgerQueue.filter (fun x => !x.isDefect), ledgerQueue := [], railsBack := none }
      s.sf F.stnNvInhibit_queued 0 0 0)

/-! ### Ageing (R668, R671-R673) -/

/-- One table entry raised by 5 mV, not above 850 mV (R669, R671). -/
def State.raiseEntry (s : State) (f k : Nat) : State :=
  let v := s.gf F.pwrVfCore_mv f k + 5
  if 850 < v then (s.sf F.pwrVfCore_mv f k 850).sf F.pwrVfCore_avail f k 0 else s.sf F.pwrVfCore_mv f k v

/-- The words of `PWR_VF_CORE` (0 to 70) and `PWR_VF_LENS` (71 on) of a field. -/
def State.trimWords (s : State) (f : Nat) : List (Nat × Nat) :=
  ((List.range 71).map fun k => (k, (s.rd .pwrVfCore f k).toNat)) ++
    (List.range 81).map fun k => (71 + k, (s.rd .pwrVfLens f k).toNat)

/-- The trim record of a trim that changed an entry (R673). -/
def State.trimmed (s : State) (f bay watch : Nat) (old : List (Nat × Nat)) : State :=
  let new := (s.trimWords f).filter fun e => !old.contains e
  if new = [] then s else s.ledger (.trim f bay watch new)

/-- The margins a HANDOVER latches, and what they raise (R668, R671-R673): below 8 % in a watch that is a multiple of
2^20, below 4 % in any. -/
def State.ageCheck (s : State) (f : Nat) (margins : List Nat) : State :=
  let x := s.fld f
  let s := s.each (List.range 36) fun s k =>
    let lit := s.bayState (bayAt f k) = 2
    s.wr .pwrAgeMargin f k (BitVec.ofNat 64 (if lit then 2 ^ 31 + min 1023 (margins.getD k 1023) else 0))
  let low (s : State) (limit : Nat) : List Nat := (List.range 36).filter fun k =>
    s.flag F.pwrAgeMargin_valid f k && decide (s.gf F.pwrAgeMargin_margin f k < limit)
  let bad := if x.watch % 2 ^ 20 = 0 then low s 80 else low s 40
  let s := if low s 40 = [] then s
    else (s.hset F.pwrStatus_age_low f 0).logEv evAgeMarginLow f (bayAt f ((low s 40).headD 0)) 0
  if bad = [] then s
  else
    let worst := bad.foldl (fun w k => if s.gf F.pwrAgeMargin_margin f k < s.gf F.pwrAgeMargin_margin f w then k else w)
      (bad.headD 0)
    let tooHigh := decide (coreEntry x.mhz ≤ 50) && decide (840 < s.gf F.pwrVfCore_mv f 50 + 5)
    if tooHigh then { s with retireQueue := s.retireQueue ++ [(bayAt f worst, 4)] }
    else
      let old := s.trimWords f
      let s := s.each ((List.range 71).filter fun k => coreEntry x.mhz ≤ k) fun s k => s.raiseEntry f k
      s.trimmed f (bayAt f worst) x.watch old

end Sys2Proof.Machine
end

