-- ==== Sys2Proof/Machine/Content.lean ====
section
/-! DEFINITION. What loading, patching, restoring and resets write from an image and its bind table: routers, tiles,
channels, steering rules, field-store regions, lenses, MV descriptors, buoys, tag trees, and the drain bound
(spec/13_efsen_image.md R581, R582, R596; spec/06_steering.md R320; spec/20_meeting_points_and_guarantees.md R823). -/

namespace Sys2Proof.Machine

/-! ### Routers (R738, R823) -/

/-- The copies into which a reset field's entries of a sector go, and CURRENT (R823): as the sector's epoch group stands
in its other fields. -/
def State.copiesFor (s : State) (f sec : Nat) : List Nat × Nat :=
  let others := ((List.range 64).filter (· ≠ f)).flatMap fun g => ((s.sectorsIn g).filter (s.epochMates g sec)).map fun k => (g, k)
  match others with
  | [] => ([0], 0)
  | e :: _ =>
    let moving := others.any fun h => s.flipping h.1 h.2 || s.flag F.mshEpoch_armed h.1 h.2
    let c := s.gf F.mshEpoch_current e.1 e.2
    (if moving then [0, 1] else [c], c)

/-- The light lists, tile sectors and ports of the tiles that `which` admits rewritten before their routers reopen, and
CURRENT of their sectors in the field set to match the other fields (R738, R823). -/
def State.rewriteRouters (s : State) (f : Nat) (which : Nat → Bool) : State :=
  match s.loaded, s.loadedBind with
  | some img, some bt =>
    let tiles := (bt.bays.filter fun (e : Nat × Nat) => fieldOfBay e.2 = f).flatMap fun e =>
      ((List.range 256).map (tileOfBay e.2)).filter which
    let s := s.each tiles fun s t => s.writeRouter img bt (s.copiesFor f (bt.sectorAt img t)).1 t
    let secs := (tiles.map (bt.sectorAt img)).eraseDups.filter (· ≠ 0xFFF)
    s.each secs fun s k =>
      let c := (s.copiesFor f k).2
      let s := s.setFld f { s.fld f with armed := mdel (s.fld f).armed k }
      ((s.sf F.mshEpoch_current f k c).sf F.mshEpoch_armed f k 0).sf F.mshEpoch_flipping f k 0
  | _, _ => s

/-! ### Tiles (R581, R596 steps 7 and 8) -/

/-- The bytes of a word list. -/
def bytesOf (ws : List Word) : List Byte := ws.flatMap fun w => [byteOf w 0, byteOf w 1, byteOf w 2, byteOf w 3]

/-- A segment of a TILES record copied into tile SRAM. -/
def State.writeSeg (s : State) (img : Image) (t : Nat) (g : ImgSeg) : State :=
  match img.blobs.find? (·.blob = g.blob) with
  | none => s
  | some b =>
    s.sramPutBytes t g.sramOff (((bytesOf b.words).drop g.blobOff).take g.len)

/-- An address constant written (R581). -/
def State.writeConst (s : State) (bt : BindTable) (t : Nat) (c : ImgConst) : State :=
  let w := (s.sramWord t c.off).w.toNat
  let p := bt.physical c.target
  let v := if c.kind = 0 then setBits w 19 0 p else setBits w 27 8 p
  s.sramPut t c.off { w := BitVec.ofNat 32 v }

/-- The word of `CHN_SLOT_DEST` with its tile translated; that of a multicast slot holds a group id (R24). -/
def chanDest (bt : BindTable) (c : ImgChan) : Nat :=
  if 16 ≤ c.slot ∧ bits c.cfg 28 27 = 1 then c.dest else setBits c.dest 19 0 (bt.physical (c.dest % 2 ^ 20))

/-- A logical tile's content written where binding placed it: role, split, watchdog, segments, constants, channel slots,
steering rules. -/
def State.writeTile (s : State) (img : Image) (bt : BindTable) (l : Nat) : State :=
  let t := bt.physical l
  let s := s.sf F.tilRole_role t 0 (roleOf img l)
  let s := match img.tiles.find? (·.tile = l) with
    | none => s
    | some r =>
      let s := (s.wr .tilSplit t 0 (BitVec.ofNat 64 r.split)).wr .tgpWdog t 0 (BitVec.ofNat 64 r.wdog)
      s.each r.segs fun s g => s.writeSeg img t g
  let s := s.each (img.constants.filter (·.tile = l)) fun s c => s.writeConst bt t c
  let s := s.each (img.channels.filter (·.tile = l)) fun s c =>
    let s := s.wr .chnSlotCfg t c.slot (BitVec.ofNat 64 c.cfg)
    let s := s.wr .chnSlotDest t c.slot (BitVec.ofNat 64 (chanDest bt c))
    (s.wr .chnSlotWindow t c.slot (BitVec.ofNat 64 c.window)).wr .chnSlotDone t c.slot (BitVec.ofNat 64 c.done_)
  s.each (img.steering.filter (·.tile = l)) fun s r =>
    (s.wr .strRule t r.rule (BitVec.ofNat 64 r.word)).wr .strRuleParam t r.rule (BitVec.ofNat 64 r.param)

/-! ### Fields (R596 steps 2-5) -/

/-- A region entry written, a staged one EMPTY (R540). -/
def State.writeRegion (s : State) (r : ImgRegion) : State :=
  let s := s.wr .fstRegionCfg r.field r.region (BitVec.ofNat 64 r.cfg)
  let s := s.wr .fstRegionSpan r.field r.region (BitVec.ofNat 64 r.span)
  let s := s.wr .fstRegionFill r.field r.region 0
  s.sf F.fstRegionCfg_state r.field r.region (if bits r.cfg 30 29 = 2 then 0 else 2)

/-- A lens written as its plan says, at the lens that binding chose (R462); its clock is enabled (R461). -/
def State.writeLens (s : State) (bt : BindTable) (x : ImgLens) : State :=
  let l := mget (x.field * 4 + x.lens) bt.lenses (x.field * 4 + x.lens)
  let s := s.wr .lnsMode l 0 (BitVec.ofNat 64 x.mode)
  let s := s.each ((List.range 1024).zip x.owners) fun s (e : Nat × Nat) => s.wr .lnsPanelOwner l e.1 (BitVec.ofNat 64 e.2)
  let s := s.each (bt.panels.filter fun (e : (Nat × Nat) × Nat) => e.1.1 = l) fun s e =>
    s.wr .lnsPanelMap l e.1.2 (BitVec.ofNat 64 e.2)
  let s := s.each ((List.range 2048).zip x.descs) fun s (e : Nat × Nat) => s.wr .lnsDesc l e.1 (BitVec.ofNat 64 e.2)
  let s := s.each ((List.range 16).zip x.preloads) fun s (e : Nat × Nat) => s.wr .lnsPreload l e.1 (BitVec.ofNat 64 e.2)
  let bit (n : Nat) : Nat := setBits n (l % 4) (l % 4) 1
  let s : State := { s with lenses := mdel s.lenses l }
  let s := s.sf F.clkEnable_en 0 (l / 4) (bit (s.gf F.clkEnable_en 0 (l / 4)))
  s.sf F.clkRunning_run 0 (l / 4) (bit (s.gf F.clkRunning_run 0 (l / 4)))

/-- An MV descriptor written; its engine's clock is enabled (R540). -/
def State.writeMv (s : State) (x : ImgMv) : State :=
  let s := s.each ((List.range 16).zip x.words) fun s (e : Nat × Nat) =>
    s.wr .mveDesc x.field (x.desc * 16 + e.1) (BitVec.ofNat 64 e.2)
  let s := s.sf F.clkEnable_en 0 x.field (setBits (s.gf F.clkEnable_en 0 x.field) 4 4 1)
  s.sf F.clkRunning_run 0 x.field (setBits (s.gf F.clkRunning_run 0 x.field) 4 4 1)

/-- A buoy written, its count at `BUY_INIT` (R411). -/
def State.writeBuoy (s : State) (x : ImgBuoy) : State :=
  let s := s.wr .buyCfg x.field x.index (BitVec.ofNat 64 x.cfg)
  let s := s.wr .buyInit x.field x.index (BitVec.ofNat 64 x.init)
  let s := s.wr .buyTarget x.field x.index (BitVec.ofNat 64 x.target)
  s.setBuoy x.field x.index { count := x.init % 2 ^ 24 }

/-- The sector groups of every sector in the buoy blocks named (R582). -/
def State.writeGroups (s : State) (img : Image) (blocks : List Nat) : State :=
  s.each blocks fun s b => s.each img.sectors fun s k =>
    s.wr .buySectorGroup b k.sector (BitVec.ofNat 64 k.epochGroup)

/-- A tag tree written in its sector's home field (R572). -/
def State.writeTree (s : State) (x : ImgSpec) : State :=
  s.each ((List.range 16).zip x.parents) fun s (e : Nat × Nat) =>
    s.wr .sptTagParent (s.homeOf x.sector) (x.sector * 16 + e.1) (BitVec.ofNat 64 e.2)

/-- The field-held records of an image, in the fields that `inField` admits (64 is the station's buoy block): regions, MV
descriptors, lenses, buoys (R596 steps 2-4). -/
def State.writeFields (s : State) (img : Image) (bt : BindTable) (inField : Nat → Bool) : State :=
  let s := s.each (img.regions.filter fun r => inField r.field) State.writeRegion
  let s := s.each (img.mv.filter fun r => inField r.field) State.writeMv
  let s := s.each (img.lenses.filter fun r => inField r.field) fun s x => s.writeLens bt x
  let s := s.writeGroups img ((List.range 65).filter inField)
  s.each (img.buoys.filter fun r => inField r.field) State.writeBuoy

/-! ### The drain bound (R320) -/

/-- Words of a slot from its configuration word. -/
def chanWords (cfg : Nat) : Nat := (bits cfg 18 10 + 1) * 4

/-- Links of the data-plane dimension-order path between two logical tiles, each as (tile, direction). -/
def dimLinks (a b : Nat) : List (Nat × Nat) :=
  let ax := tileX a
  let ay := tileY a
  let bx := tileX b
  let by_ := tileY b
  (if ax ≤ bx then (List.range (bx - ax)).map fun k => (tileAt (ax + k) ay, 1)
   else (List.range (ax - bx)).map fun k => (tileAt (ax - k) ay, 3)) ++
  (if ay ≤ by_ then (List.range (by_ - ay)).map fun k => (tileAt bx (ay + k), 2)
   else (List.range (ay - by_)).map fun k => (tileAt bx (ay - k), 0))

/-- Logical cost of a dimension-order path (R55, R56). -/
def dimCost (a b : Nat) : Nat :=
  (dimLinks a b).length + (if tileX a ≠ tileX b ∧ tileY a ≠ tileY b then 1 else 0)

/-- Whether a CHANNELS record is a LOCAL channel's in-slot. -/
def chanLocal (c : ImgChan) : Bool := decide (c.slot < 16) && c.cfg.testBit 29

/-- The in-slot records an out-slot record feeds. -/
def chanDests (img : Image) (c : ImgChan) : List ImgChan :=
  let tiles := if bits c.cfg 28 27 = 1 then (match img.mcast.find? (·.group = c.dest % 4096) with
      | some m => m.dests.take (bits c.dest 30 28 + 1)
      | none => [])
    else [c.dest % 2 ^ 20]
  img.channels.filter fun d => tiles.contains d.tile && decide (d.slot = bits c.dest 27 24)

/-- The largest item of a channel, in words: no more than its slots hold. -/
def chanItem (img : Image) (c : ImgChan) : Nat :=
  ((chanDests img c).map fun d => chanWords d.cfg).foldl min (chanWords c.cfg)

/-- The routes of a channel: its own, or every branch of its group. -/
def chanRoutes (img : Image) (c : ImgChan) : List ImgRoute :=
  match c.route with
  | none => []
  | some k => match img.routes.find? (·.route = k) with
    | some r => if r.group = 0xFFFF then [r] else img.routes.filter (·.group = r.group)
    | none => []

/-- Links a VC0 channel uses, and 1 + LEN of its largest packet. -/
def chanFlow (img : Image) (c : ImgChan) : List (Nat × Nat) × Nat :=
  (((chanRoutes img c).flatMap fun r => dimLinks r.src r.dst).eraseDups, 1 + ceilDiv (chanItem img c) 4)

/-- E of a channel to one of its destinations (R320), with the queuing terms of R373 and R374; 0 for a LOCAL channel. -/
def chanE (img : Image) (c d : ImgChan) : Nat :=
  if chanLocal c then 0
  else
    let n := chanItem img c
    (((chanRoutes img c).filter fun r => r.dst = d.tile).map fun r =>
      let links := dimLinks r.src r.dst
      let q := if c.cfg.testBit 30 then 64 * ceilDiv (66 * (links.length + r.allow) + 1 + ceilDiv n 4) 5
        else
          let others := img.channels.filter fun e => e ≠ c && decide (16 ≤ e.slot) && e.cfg.testBit 31 && !e.cfg.testBit 30
          sumNat (others.map fun e =>
            let fl := chanFlow img e
            (links.filter fl.1.contains).length * fl.2)
      dimCost r.src r.dst + r.allow + 1 + (n - 1) / 4 + q).foldl max 0

/-- Enabled steering rules of a logical tile. -/
def tileRules (img : Image) (t : Nat) : List ImgRule := img.steering.filter fun r => r.tile = t && r.word.testBit 31

/-- The record of the in-slot that feeds input `i` of a tile's steering unit. -/
def unitIn (img : Image) (t i : Nat) : Option ImgChan :=
  img.channels.find? fun c => c.tile = t && decide (c.slot < 16) && c.cfg.testBit 31 && bits c.cfg 28 27 = 2 &&
    bits c.cfg 23 22 = i

/-- Records of the channels that leave a tile's steering unit. -/
def unitOuts (img : Image) (t : Nat) : List ImgChan :=
  img.channels.filter fun c => c.tile = t && c.cfg.testBit 31 && c.cfg.testBit 29

/-- Whether an input of a unit is the feedback input of a LOOP. -/
def loopBack (img : Image) (t i : Nat) : Bool :=
  (tileRules img t).any fun r => bits r.word 30 28 = 5 && (maskBits (bits r.word 23 20)).drop 1 = [i]

/-- The in-slot records that a channel's record, of an out-slot or of a LOCAL in-slot, feeds. -/
def chanEnds (img : Image) (c : ImgChan) : List ImgChan := if chanLocal c then [c] else chanDests img c

/-- The records of the channels that feed an in-slot: itself where it is LOCAL, else out-slots. -/
def feeders (img : Image) (d : ImgChan) : List ImgChan :=
  if chanLocal d then [d]
  else img.channels.filter fun c => decide (16 ≤ c.slot) && c.cfg.testBit 31 && (chanDests img c).contains d

/-- Whether a channel's record is of one that leaves a steering unit of a sector. -/
def ofUnit (img : Image) (sec : Nat) (c : ImgChan) : Bool := c.cfg.testBit 29 && decide (imgSectorOf img c.tile = sec)

/-- The data inputs of a tile's steering unit, each with its rule (R299). -/
def dataInputs (img : Image) (t : Nat) : List (Nat × ImgRule) :=
  (tileRules img t).flatMap fun r => (maskBits (bits r.word 23 20)).map fun i => (i, r)

/-- W_j of a unit: every word it could be asked to move (R320); `n` bounds the recursion. -/
def unitWords (img : Image) (sec : Nat) : Nat → Nat → Nat
  | 0, _ => 0
  | n + 1, t =>
    sumNat ((dataInputs img t).map fun e =>
      match unitIn img t e.1 with
      | none => 0
      | some d =>
        let x := if bits e.2.word 30 28 = 6 then ceilDiv (e.2.param % 16 + 1) (bits e.2.param 7 4 + 1) else 1
        let ups := if loopBack img t e.1 then [] else (((feeders img d).filter (ofUnit img sec)).map (·.tile)).eraseDups
        x * (chanWords d.cfg + sumNat (ups.map (unitWords img sec n))))

/-- The larger of two bounds, either of which may be none. -/
def maxBound : Option Nat → Option Nat → Option Nat
  | some a, some b => some (max a b)
  | a, none => a
  | none, b => b

/-- The longest chain from a unit on, its own moves and the channels beyond it (R320): it ends at a channel that leaves the sector, or
whose in-slot feeds no data input of a unit; feedback edges are not followed. None where no chain goes on from the unit. -/
def chainFrom (img : Image) (sec units : Nat) : Nat → Nat → Option Nat
  | 0, _ => none
  | n + 1, t =>
    let beyond (c d : ImgChan) : Option Nat :=
      let i := bits d.cfg 23 22
      let unit := decide (bits d.cfg 28 27 = 2) && decide (imgSectorOf img d.tile = sec) && (dataInputs img d.tile).any fun e => e.1 = i
      if unit = false then some (chanE img c d)
      else if loopBack img d.tile i then none
      else (chainFrom img sec units n d.tile).map (chanE img c d + ·)
    let best := ((unitOuts img t).flatMap fun c => (chanEnds img c).map (beyond c)).foldl maxBound none
    best.map fun e => 2 + ceilDiv (unitWords img sec units t) 4 + e

/-- The drain bound B of a sector (R320; assumption 52). -/
def drainBoundOf (img : Image) (sec : Nat) : Nat :=
  let sends := img.channels.filter fun c => c.cfg.testBit 31 && decide (16 ≤ c.slot)
  let here (c : ImgChan) : Bool := decide (imgSectorOf img c.tile = sec)
  let b0 := (sends.flatMap fun c => ((chanDests img c).filter fun d => here c || here d).map (chanE img c)).foldl max 0
  let units := ((img.steering.filter fun r => r.word.testBit 31 && decide (imgSectorOf img r.tile = sec)).map (·.tile)).eraseDups
  let starts := units.flatMap fun t => (dataInputs img t).flatMap fun e => match unitIn img t e.1 with
    | none => []
    | some d => ((feeders img d).filter fun c => !ofUnit img sec c).map fun c => (t, chanE img c d)
  (starts.filterMap fun (e : Nat × Nat) => (chainFrom img sec units.length units.length e.1).map (e.2 + ·)).foldl max b0

end Sys2Proof.Machine
end

