-- ==== Sys2Proof/Machine/Sessions.lean ====
section
/-! DEFINITION. What mailbox commands, debug sessions, the foghorn and the failover of the Station Keeper share
(spec/19_external_interfaces.md R803-R808; spec/18_start_up.md R772; spec/21_faults_hangs_and_recovery.md R844-R846,
R598, R604, R854; spec/22_debug_and_observability.md R872, R878). -/

namespace Sys2Proof.Machine

/-! ### Taking a mailbox command (R772, R803-R805) -/

/-- Argument word `k` of a mailbox slot. -/
def State.arg (s : State) (u k : Nat) : Nat := (s.rd .hstMboxArg u k).toNat % 2 ^ 32

/-- Whether every argument bit outside the masks given, word by word, is 0 (R805). -/
def State.argsZero (s : State) (u : Nat) (masks : List Nat) : Bool :=
  (List.range 64).all fun k => Nat.land (s.arg u k) (masks.getD k 0) = s.arg u k

/-- The slot whose command the Keeper takes next (R804). A SET_CAP waits for its snapshot and holds up no other. -/
def State.mboxNext (s : State) : Option Nat := s.mboxQueue.find? fun u => s.gf F.hstMboxStatus_opcode u ≠ 8

/-- A mailbox command of opcode `op` taken from slot `u`: it runs, unless it is not accepted yet in start-up (`accepted`)
or an unused argument bit is set; nothing happens where the command is not the next one. JTAG's slot takes DEBUG_AUTH and
QUERY only (R874). -/
def State.takeMbox (s : State) (u op : Nat) (accepted : Bool) (masks : List Nat) (act : State → State) : State :=
  if s.mboxNext ≠ some u ∨ s.gf F.hstMboxStatus_opcode u ≠ op then s
  else
    let s : State := { s with mboxQueue := s.mboxQueue.erase u }
    let s := s.sf F.hstMboxStatus_state u 0 2
    if u = 64 ∧ op ≠ 0xA ∧ op ≠ 0xD then s.mboxDone u mbBadOpcode []
    else if accepted = false then s.mboxDone u mbBadState []
    else if s.argsZero u masks = false then s.mboxDone u mbRange []
    else act s

/-- `STN_STARTUP`.READY. -/
def State.ready (s : State) : Bool := s.flag F.stnStartup_ready

/-- Whether step BEACON of start-up has completed. -/
def State.beaconStepDone (s : State) : Bool := s.stepsDone.contains 6

/-! ### Debug sessions (R872, R878) -/

/-- The release of a HALTED group (R878): in the watch in which it became HALTED it runs on, its watchdog with the count it had
(R178), or from the start of WORK where it was halted at INTAKE (R879); later it restarts at the next INTAKE. HALT clears. -/
def State.releaseGroup (s : State) (t g : Nat) : State :=
  let x := s.grp t g
  let s := s.sf F.tgpCtl_halt t g 0
  if x.st ≠ .halted then s
  else
    let fs := s.fld (fieldOf t)
    let same := decide (s.gf F.dbgHaltCause_watch_low t g = fs.watch % 65536)
    if same = true ∧ fs.phase = .work then
      let c := s.tileCycle t
      s.setGrp t g { x with st := .running, skipBreak := true, stepPending := false, waitFrom := c
                            lastRetire := c - 1 - s.executed t (x.lastRetire + 1) x.haltedAt }
    else if same = true ∧ fs.phase = .intake then
      s.setGrp t g { x with st := .running, skipBreak := true, stepPending := false }
    else s.setGrp t g { x with released := true, stepPending := false }

/-- A group becomes HALTED (R875-R879). -/
def State.haltGroup (s : State) (t g cause : Nat) : State :=
  let c := s.tileCycle t
  let s := s.endWait t g c
  let s := s.setGrp t g { s.grp t g with st := .halted, stepPending := false, released := false, haltedAt := c }
  s.wr .dbgHaltCause t g (BitVec.ofNat 64 ((s.fld (fieldOf t)).watch % 65536 * 65536 + cause))

/-- A port's session ends: the HALTs, STEPs and breakpoints it set are cleared, the groups it halted released (R872). In
`haltedBy`, second indices 0–7 are groups' HALTs, 8–9 breakpoints, 16–23 groups' STEPs. -/
def State.endSession (s : State) (port : Nat) : State :=
  if s.flag F.stnDebugSession_active 0 port = false then s
  else
    let mine := s.haltedBy.filter fun (e : (Nat × Nat) × Nat) => e.2 = port
    let s : State := { s with haltedBy := s.haltedBy.filter fun (e : (Nat × Nat) × Nat) => e.2 ≠ port
                              sessionEnd := mdel s.sessionEnd port }
    let s := s.each mine fun s e =>
      if e.1.2 < 8 then s.releaseGroup e.1.1 e.1.2
      else if e.1.2 < 16 then s.wr .dbgBreak e.1.1 (e.1.2 - 8) 0
      else s.releaseGroup e.1.1 (e.1.2 - 16)
    let s := s.sf F.stnDebugSession_active 0 port 0
    let s := (s.sf F.stnDebugSession_rights 0 port 0).sf F.stnDebugSession_remaining 0 port 0
    let s := s.wr .stnDebugFields 0 port 0
    s.logEv evDebugSessionEnd 64 port 0

/-! ### The foghorn and the failover of the Station Keeper (R844-R846) -/

/-- FOGHORN_N asserted, with bit `bit` of its cause; a NOTICE of STATION_HANG goes out where a Station Keeper runs (R861).
-/
def State.foghorn (s : State) (bit : Nat) (keeper : Bool) (code : Nat) : State :=
  let s := s.sf F.stnFoghorn_asserted 0 0 1
  let s := s.sf F.stnFoghorn_cause 0 0 (Nat.lor (s.gf F.stnFoghorn_cause) (2 ^ bit))
  let s : State := if (bit = 4 ∨ bit = 5) ∧ s.flag F.stnWdogCfg_auto_reset = true ∧ s.fogAutoAt = none then
      { s with fogAutoAt := some (s.now + 1000000000) }
    else s
  if keeper then s.sendNotice 2 code fun _ => true else s

/-- The field whose Keeper mirrors the active Station Keeper. -/
def State.mirrorAt (s : State) : Nat := if s.keeperAt = 27 then 36 else 27

/-- Whether the mirror can take over (R844). -/
def State.mirrorAble (s : State) : Bool := s.mirrorReady && !s.fieldDown s.mirrorAt

/-- Mailbox commands at a failover (R845): those RUNNING complete with FAILED; a validation leaves the candidate EMPTY, a
binding leaves it UNBOUND, a load under way fails. -/
def State.failRunning (s : State) : State :=
  let s := if s.gf F.stnImageStatus_state = 1 then ({ s with candidate := none } : State).wr .stnImageStatus 0 0 0 else s
  let s := if s.gf F.stnBindStatus_state = 1 then s.sf F.stnBindStatus_state 0 0 0 else s
  let s := s.failLoading loadFault
  s.each ((List.range 65).filter fun u => s.gf F.hstMboxStatus_state u = 2) fun s u => s.mboxDone u mbFailed []

/-- The mirror takes over, or KEEPER_FATAL where it cannot (R844-R846, R872). -/
def State.failover (s : State) : State :=
  if s.mirrorAble then
    let m := s.mirrorAt
    let s : State := { s with keeperAt := m, mirrorReady := false }
    let s := s.sf F.stnFwStatus_mirror 0 0 (if m = 36 then 1 else 0)
    let s := (s.bump .stnCountFailover 0 0 1).logEv evKeeperFailover 64 m 0
    (s.each (List.range 5) State.endSession).failRunning
  else (s.logEv evKeeperFatal 64 64 0).foghorn 5 false (evCode evKeeperFatal)

/-! ### Retiring a bay (R855, R857) -/

/-- A bay retired: its gate opens, a live record of the source given is written, its command completes (R672, R855). -/
def State.retireBay (s : State) (b source : Nat) : State :=
  let s := s.openGate b 5
  let s := s.liveRecord { kind := 3, source := source, loc := b }
  (s.logEv evBayRetired 64 b 0).finishOp (.retire b) mbOk []

/-! ### Sector health after a return (R837, R851) -/

/-- Whether a tile is in service: recorded neither dark nor in a retired bay, its bay LIT and tested, its field neither held
nor fogged nor in reset. -/
def State.tileInService (s : State) (t : Nat) : Bool :=
  s.serviceable t && decide (s.bayState (bayOf t) = 2) && (mget ({} : BayPower) s.bays (bayOf t)).tested &&
    !s.fieldDown (fieldOf t) && !s.closedTile t

/-- Whether every resource that the bind table names for a sector is in service (R837). -/
def State.sectorIntact (s : State) (img : Image) (bt : BindTable) (sec : Nat) : Bool :=
  let tiles := ((imgTilesOf img sec).filter fun l => roleOf img l ≠ 0).map bt.physical
  let bays := (img.placement.filter (·.sector = sec)).map fun b => mget b.lbay bt.bays b.lbay
  let routes := (img.routes.filter fun r => imgSectorOf img r.src = sec || imgSectorOf img r.dst = sec).map (·.route)
  let paths := (bt.paths.filter fun p => routes.contains p.route).flatMap fun p => [p.path, p.back]
  let hops (p : List Nat) : Bool := (p.zip (p.drop 1)).all fun (e : Nat × Nat) =>
    !(List.range 4).any fun d => linkEnd e.1 d = some e.2 && s.linkDark e.1 d
  let panels := (img.lenses.filter fun x => x.owners.contains sec).flatMap fun x =>
    let l := mget (x.field * 4 + x.lens) bt.lenses (x.field * 4 + x.lens)
    ((List.range 1024).filter fun p => x.owners.getD p 0xFFF = sec).map fun p => (l, mget p bt.panels (l, p))
  tiles.all s.tileInService && bays.all (fun b => decide (s.bayState b = 2) && !s.fieldDown (fieldOfBay b)) &&
    paths.all (fun p => p.all s.tileInService && hops p) &&
    panels.all (fun (e : Nat × Nat) => !(s.badPanels e.1).contains e.2 && !s.fieldDown (e.1 / 4))

/-- DOWN sectors whose resources are all back in service become STRANDED (R837, R851). -/
def State.strand (s : State) : State :=
  match s.loaded, s.loadedBind with
  | some img, some bt =>
    s.each ((s.sectors.map (·.1)).filter fun k => s.health k = 2 && s.sectorIntact img bt k) fun s k =>
      s.sectorStranded k
  | _, _ => s

end Sys2Proof.Machine
end

