-- ==== Sys2Proof/Machine/Resets.lean ====
section
/-! DEFINITION. The reset domains (spec/17_clocks_and_reset_domains.md R733-R746; spec/18_start_up.md R765, R766;
spec/20_meeting_points_and_guarantees.md R822, R823). -/

namespace Sys2Proof.Machine

/-! ### Domains (R733, R744) -/

/-- Whether domain `d` at `t` contains domain `e` at `u`. A group's target is its number × 2^20 + its tile. -/
def domainHolds (d t e u : Nat) : Bool :=
  let tile := if e = 0 then u % 2 ^ 20 else u
  let bay := if e ≤ 1 then bayOf tile else u
  let field := if e ≤ 2 then fieldOfBay bay else u
  match d with
  | 1 => decide (e = 0) && decide (tile = t)
  | 2 => decide (e ≤ 1) && decide (bay = t)
  | 3 => decide (e ≤ 2) && decide (field = t)
  | 5 => decide (e < 5)
  | _ => false

/-- Recovery time of a domain in ns (R733). -/
def recoveryTime (d t : Nat) : Nat :=
  match d with
  | 0 => 2000
  | 1 => 20000
  | 2 => 5000000
  | 3 => 250000000
  | 4 => if t < 4 then 150000000 else if t < 20 then 3000000000 else 500000000
  | _ => 20000000000

/-! ### What each domain resets (R737) -/

/-- Registers of a field that its reset returns to their reset values; the rest of the field's registers are handled one by
one. -/
def fieldRegs : List Reg :=
  ((rowsTilWin ++ rowsMshField ++ rowsMve ++ rowsFst ++ rowsBuy ++ rowsSptField ++ rowsFkp ++ rowsPwr ++ rowsDbgField).map
    (·.reg)).filter fun r => !([Reg.thmCfg, .pwrBayState, .fkpStatus].contains r)

/-- A group reset (R737, R740): its registers, markers, mask, stack, nesting, latch and trap record; its loads are
discarded on arrival. -/
def State.resetGroup (s : State) (t g : Nat) : State :=
  let y := s.til t
  let x := s.grp t g
  let lost := decide ((s.fld (fieldOf t)).phase = .work) && y.active.testBit g && decide (x.st ≠ .done)
  let s := s.setTil t { y with
    loads := y.loads.map fun l => if l.group = g then { l with killed := true } else l
    held := y.held.filter (·.group ≠ g)
    withhold := y.withhold || lost }
  let s := s.setGrp t g {}
  (s.wr .tgpTrap t g 0).wr .tgpTrapAddr t g 0

/-- Registers of a bay within its field. -/
def bayRegs : List Reg := [.pwrStretchLedger, .pwrStretchLive, .pwrAgeMargin, .pwrCountStretch, .pwrCountDenied]

/-- What a bay reset clears, its gate apart (R737): its droop detector has seen nothing. -/
def State.clearBay (s : State) (b : Nat) : State :=
  let s := s.clearTiles fun t => bayOf t = b
  let f := fieldOfBay b
  let s : State := { s with
    regs := s.regs.filter fun (e : RegKey × BitVec 64) =>
      !(bayRegs.contains e.1.reg && decide (e.1.unit = f) && decide (e.1.idx = bayInField b))
    bayQueues := mdel s.bayQueues b
    bays := mput s.bays b { mget {} s.bays b with stretchAt := none, denied := [] } }
  if s.bayState b = 5 then s.sf F.pwrBayState_gate_faults f (bayInField b) 0 else s

/-- A bay reset (R737): its tiles and port cleared; its gate ramps under R656. A RETIRED bay does not ramp. -/
def State.resetBay (s : State) (b : Nat) : State :=
  let s := s.clearBay b
  if s.bayState b = 5 then s else (s.setBay b 0).askRamp b

/-- Registers of the lenses of a field, and the station's registers that are the field's. -/
def ofField (f : Nat) (k : RegKey) : Bool :=
  (fieldRegs.contains k.reg && decide (k.unit = f)) ||
    ((rowsLns.map (·.reg)).contains k.reg && decide (k.unit / 4 = f)) ||
    ((decide (k.reg = .clkEnable) || decide (k.reg = .clkRunning)) && decide (k.idx = f))

/-- What a field reset clears (R737): every bay, lenses, MV engine, field store, buoys, SPT, beacon registers, tables, clock
enables. Its bays are DARK, or stay RETIRED; gate-fault counts stay. -/
def State.clearField (s : State) (f : Nat) : State :=
  let homes := (s.sectorsIn f).filter fun k => s.homeOf k = f
  let s := s.clearTiles fun t => fieldOf t = f
  let s := s.each (baysOf f) fun s b =>
    let s := s.clearBay b
    if s.bayState b = 5 then s else
      let s := s.setBay b 0
      { s with bays := mput s.bays b { tripAt := (mget {} s.bays b).tripAt } }
  { s with
    regs := s.regs.filter fun (e : RegKey × BitVec 64) => !ofField f e.1
    fst := memClear s.fst (fstAddr f 0) 67108864
    fstBad := s.fstBad.filter fun a => a / 67108864 ≠ f
    fstWeak := s.fstWeak.filter fun a => a / 67108864 ≠ f
    journal := s.journal.filter (·.field ≠ f)
    lenses := s.lenses.filter fun (e : Nat × LensSt) => e.1 / 4 ≠ f
    mvs := mdel s.mvs f
    buoys := s.buoys.filter fun (e : (Nat × Nat) × Buoy) => e.1.1 ≠ f
    buoyBlocks := mdel s.buoyBlocks f
    bankLast := s.bankLast.filter fun (e : (Nat × Nat) × Nat) => e.1.1 ≠ f
    sectorTags := s.sectorTags.filter fun (e : (Nat × Nat) × TagState) => !homes.contains e.1.1
    hot := s.hot.filter fun (e : (Nat × Nat) × Nat × Nat) => e.1.1 ≠ f
    rampQueue := s.rampQueue.filter fun b => fieldOfBay b ≠ f }

/-- What a fog does to the rest of the wafer: it is counted and logged, sectors DOWN, loading stopped, transfers failed, WAFER
entries due, peers told (R847, R849, R861). -/
def State.fieldLost (s : State) (f code : Nat) : State :=
  let s := (s.bump .stnCountFog 0 0 1).logEv evFieldFogged f f code
  let s : State := { s with rewrites := s.rewrites ++ [(f, s.now + 2000000)] }
  let s := s.sendNotice 4 code (s.relaysOn f)
  let s := s.each (s.boundSectors f) fun s sec => s.sectorDown sec code
  let s := s.breakLoading f
  s.each (s.orders.filter fun o => !o.failed && o.crosses f) fun s o => s.failTransfer o

/-- A thermal trip's field reset: the field's thermal allowance restarts at half its value, and no less than 40 W (R710). -/
def State.cutAllow (s : State) (f : Nat) : State :=
  if s.flag F.thmStatus_trip f = false then s
  else
    let y := mget {} s.plan f
    { s with plan := mput s.plan f { y with allow := max 40 (y.allow / 2) } }

/-- A field reset begins (R710, R737, R741, R847): where an image is loaded it acts as a fog whose cause is the command. The field
holds, and `STN_STARTUP_FIELDS` no longer shows it running. -/
def State.resetField (s : State) (f : Nat) : State :=
  let s := if s.imageLoaded = true ∧ (s.fld f).fogged = false then s.fieldLost f 0 else s.breakLoading f
  let x := s.fld f
  let s := (s.cutAllow f).clearField f
  let s := s.setFld f { watch := x.watch, heldVoid := x.verdictWatch, held := true, fogged := x.fogged, fogAt := x.fogAt, fogCause := x.fogCause }
  let s := ((s.sf F.fkpStatus_resetting f 0 1).sf F.fkpStatus_restarting f 0 0).sf F.fkpStatus_standby f 0 0
  let s : State := { s with restartAt := mdel s.restartAt f, restarted := mdel s.restarted f }
  let s := ((s.sf F.clkPllStatus_lock 0 (1 + f) 0).sf F.clkPllStatus_lock 0 (65 + f) 0)
  s.sf F.stnStartupFields_running 0 0 (setBits (s.gf F.stnStartupFields_running) f f 0)

/-! ### Rim ports (R737, R742, R787, R816) -/

/-- A PCIe port resets: its rings disabled with their bindings, owned requests and waiting results kept, its doorbells and counts 0
(R816, R894), its mailbox IDLE, its session ended. -/
def State.resetPcie (s : State) (p : Nat) : State :=
  let s := s.sf F.stnStartupPorts_pcie 0 0 (setBits (s.gf F.stnStartupPorts_pcie) p p 0)
  let s := s.sf F.clkEnable_en 0 64 (setBits (s.gf F.clkEnable_en 0 64) p p 0)
  let s := s.sf F.clkRunning_run 0 64 (setBits (s.gf F.clkRunning_run 0 64) p p 0)
  let s := s.endSession p
  let mine := (s.regs.filter fun (e : RegKey × BitVec 64) => e.1.reg = .hstRingCfg && decide (e.1.unit / 16384 = p)).map (·.1.unit)
  let s := s.each mine fun s r => s.sf F.hstRingCfg_enable r 0 0
  { s with
    hostRings := s.hostRings.map fun (e : Nat × HostRing) => if e.1 / 16384 = p then
      (e.1, { results := e.2.results }) else e
    wdogDoorbell := mdel s.wdogDoorbell p
    regs := s.regs.filter fun (e : RegKey × BitVec 64) =>
      !((rowsMbox.map (·.reg)).contains e.1.reg && decide (e.1.unit / 16 = p))
    mboxQueue := s.mboxQueue.filter fun u => u / 16 ≠ p
    mboxJobs := s.mboxJobs.filter fun (e : Nat × MboxOp) => e.1 / 16 ≠ p
    caps := s.caps.filter fun (e : Nat × Nat) => e.1 / 16 ≠ p
    nonces := mdel s.nonces p, nonceEnd := mdel s.nonceEnd p }

/-- A CXL port resets: its staging engine and its transfers in progress, which fail (R536). -/
def State.resetCxl (s : State) (p : Nat) : State :=
  let s := s.sf F.stnStartupPorts_cxl 0 0 (setBits (s.gf F.stnStartupPorts_cxl) p p 0)
  let off (n : Nat) : Nat := setBits (setBits n p p 0) (16 + p) (16 + p) 0
  let s := s.sf F.clkEnable_en 0 65 (off (s.gf F.clkEnable_en 0 65))
  let s := s.sf F.clkRunning_run 0 65 (off (s.gf F.clkRunning_run 0 65))
  let s := s.each (s.orders.filter fun o => !o.failed && o.plan.device = p && o.completeAt.isNone && s.orderBegun o)
    fun s o => s.failTransfer o
  s.wr .stgEngineStatus 0 p 2

/-- A Jalfen link resets: DATA frames that no grant has covered go back to wait whole; credit restarts at 16,384 (R787,
R816). -/
def State.resetJalfen (s : State) (j : Nat) : State :=
  let x := s.jlf j
  let s := s.sf F.stnStartupPorts_jalfen 0 0 (setBits (s.gf F.stnStartupPorts_jalfen) j j 0)
  let s := s.sf F.clkEnable_en 0 64 (setBits (s.gf F.clkEnable_en 0 64) (8 + j) (8 + j) 0)
  let s := s.sf F.clkRunning_run 0 64 (setBits (s.gf F.clkRunning_run 0 64) (8 + j) (8 + j) 0)
  let s := s.setJlf j { lastRx := x.lastRx }
  s.each x.uncovered.reverse fun s (e : Nat × List Nat) =>
    let y := s.hring e.1
    s.setHring e.1 { y with results := e.2 :: y.results }

/-- The place of a rim-port target among the ports that start-up trains: kinds 0 PCIe, 1 CXL, 2 Jalfen. -/
def trainKey (target : Nat) : Nat × Nat :=
  if target < 4 then (0, target) else if target < 20 then (1, target - 4) else (2, target - 20)

/-- A port no longer in training, nor declared down. -/
def State.portTrained (s : State) (target : Nat) : State :=
  let k := trainKey target
  { s with startDeadlines := mdel (if k.1 = 1 then mdel s.startDeadlines (3, k.2) else s.startDeadlines) k
           portsDown := s.portsDown.filter (· ≠ k) }

/-- The training of a port that start-up trains begins again, its bound counted afresh (R774). -/
def State.retrain (s : State) (target : Nat) : State :=
  let k := trainKey target
  let busy := (mfind s.startDeadlines k).isSome || (decide (k.1 = 1) && (mfind s.startDeadlines (3, k.2)).isSome)
  let bound := if k.1 = 0 then 150000000 else if k.1 = 1 then 3000000000 else 500000000
  let s := s.portTrained target
  if busy then { s with startDeadlines := mput s.startDeadlines k (s.now + bound) } else s

/-- A rim port reset begins. -/
def State.resetRim (s : State) (target : Nat) : State :=
  let s := s.retrain target
  if target < 4 then s.resetPcie target
  else if target < 20 then s.resetCxl (target - 4)
  else s.resetJalfen (target - 20)

/-- The rim of a rim-port target. -/
def rimOf (target : Nat) : Nat :=
  if target < 4 then target else if target < 20 then (target - 4) / 4 else (target - 20) / 2

/-- A rim port has trained: its clock enable set again, its bit in `STN_STARTUP_PORTS` set. -/
def State.rimUp (s : State) (target : Nat) : State :=
  let on (s : State) (i b : Nat) : State :=
    (s.sf F.clkEnable_en 0 i (setBits (s.gf F.clkEnable_en 0 i) b b 1)).sf F.clkRunning_run 0 i
      (setBits (s.gf F.clkRunning_run 0 i) b b 1)
  if target < 4 then (on s 64 target).sf F.stnStartupPorts_pcie 0 0 (setBits (s.gf F.stnStartupPorts_pcie) target target 1)
  else if target < 20 then
    let p := target - 4
    let s := on (on s 65 p) 65 (16 + p)
    (s.sf F.stnStartupPorts_cxl 0 0 (setBits (s.gf F.stnStartupPorts_cxl) p p 1)).sf F.stgEngineStatus_link_down 0 p 0
  else
    let j := target - 20
    let s := (on s 64 (8 + j)).sf F.stnStartupPorts_jalfen 0 0 (setBits (s.gf F.stnStartupPorts_jalfen) j j 1)
    s.setJlf j { s.jlf j with lastTx := s.now, lastRx := s.now }

/-! ### Station and cold (R737, R746) -/

/-- Whether a register survives a station reset: the inhibit, the foghorn (R846), the reset record, source status, loss and gating counts,
`THM_CFG`, and the gate-fault counts of bays not RETIRED. -/
def survivesStation (e : RegKey × BitVec 64) : Bool :=
  [Reg.stnNvInhibit, .stnFoghorn, .rstCause, .clkSrcStatus, .clkCountLoss, .clkCountGated, .thmCfg].contains e.1.reg ||
    (decide (e.1.reg = .pwrBayState) && decide (bits e.2.toNat 2 0 ≠ 5))

/-- A station reset begins with a cause (R737): what R737 keeps stays, every bay is DARK, start-up begins anew. -/
def State.resetStation (s : State) (cause : Nat) : State :=
  let regs := (s.regs.filter survivesStation).map fun (e : RegKey × BitVec 64) =>
    if e.1.reg = .pwrBayState then (e.1, BitVec.ofNat 64 (bits e.2.toNat 5 4 * 16)) else e
  let n : State := { State.reset with
    pending := s.pending, now := s.now, fresh := s.fresh, nextPkt := s.nextPkt, fuses := s.fuses, out := s.out
    rings := s.rings, irqWatch := s.irqWatch, live := s.live, ledgerQueue := s.ledgerQueue, thermtrip := s.thermtrip
    copyA := s.copyA, copyB := s.copyB, ledgerRepair := s.ledgerRepair, railsBack := s.railsBack, recovered := s.recovered
    nonceCount := s.nonceCount, startedAt := s.now, regs := regs, stationRetried := s.stationRetried }
  let n := n.sf F.stnNvInhibit_queued 0 0 s.ledgerQueue.length
  let n := n.sf F.rstCause_count 0 0 (min 65535 (s.gf F.rstCause_count + 1))
  let n := (n.sf F.rstCause_cause 0 0 cause).sf F.stnStartup_cold 0 0 0
  let n := (n.sf F.clkSrcStatus_stn_lock 0 0 0).sf F.clkSrcStatus_ref 0 0 0
  let n := (n.sf F.clkSrcStatus_holdover 0 0 0).sf F.clkSrcStatus_xb_mode 0 0 0
  { n with resets := [{ domain := 5, target := 0, begun := s.now, cause := cause }] }

/-- A cold reset: everything but the fuses, the config stores and the service ledger (R674, R737). -/
def State.resetCold (s : State) (cause : Nat) : State :=
  let n : State := { State.reset with
    pending := s.pending, now := s.now, fresh := s.fresh, nextPkt := s.nextPkt, fuses := s.fuses, out := s.out
    live := s.copyA.records, copyA := s.copyA, copyB := s.copyB, nonceCount := s.nonceCount, startedAt := s.now
    recovered := s.recovered }
  (n.sf F.rstCause_cause 0 0 cause).sf F.stnStartup_cold 0 0 1

/-! ### Beginning a reset (R734, R744) -/

/-- A domain reset: the lock of its RWL fields is released until it engages again (R13). -/
def State.unlock (s : State) (d t : Nat) : State := { s with unlocked := (d, t) :: s.unlocked.filter (· ≠ (d, t)) }

/-- What a reset does as it begins, its job apart. -/
def State.resetEffect (s : State) (d t cause : Nat) : State :=
  let down (s : State) (sec : Nat) : State := if sec = 0xFFF then s else s.sectorDown sec 0
  match d with
  | 0 => s.resetGroup (t % 2 ^ 20) (t / 2 ^ 20)
  | 1 => ((down s (s.sectorOf t)).resetTile t).unlock 1 t
  | 2 => ((down s (s.sectorOfBay t)).resetBay t).unlock 2 t
  | 3 => (s.resetField t).unlock 3 t
  | 4 => s.resetRim t
  | _ => s.resetStation cause

/-- A reset begins, or joins one of its own domain or a containing one that is under way; contained resets are abandoned and
their requests wait for it (R744). `slot` is the mailbox slot that asked. -/
def State.beginReset (s : State) (d t cause : Nat) (slot : Option Nat) : State :=
  match s.resets.find? fun j => (j.domain = d && j.target = t) || domainHolds j.domain j.target d t with
  | some j => match slot with
    | some u => { s with mboxJobs := s.mboxJobs ++ [(u, .reset j.domain j.target)] }
    | none => s
  | none =>
    let inner (j : ResetJob) : Bool := domainHolds d t j.domain j.target
    let s := (s.sf F.rstDomainCtl_domain 0 0 d).sf F.rstDomainCtl_target 0 0 t
    let s : State := { s with
      resets := s.resets.filter fun j => !inner j
      mboxJobs := (s.mboxJobs.map fun (e : Nat × MboxOp) => match e.2 with
        | .reset e' u => if domainHolds d t e' u then (e.1, .reset d t) else e
        | _ => e) ++ (match slot with | some u => [(u, .reset d t)] | none => []) }
    let s := s.resetEffect d t cause
    let s := (s.sf F.rstStatus_busy 0 0 1).sf F.rstStatus_domain 0 0 d
    let s := s.sf F.rstStatus_target 0 0 t
    if d = 5 then s
    else { s with resets := s.resets ++ [{ domain := d, target := t, begun := s.now, cause := cause }] }

/-- A station reset that the Keeper commands: peers are told before the rims reset (R861). -/
def State.commandStation (s : State) (cause : Nat) (slot : Option Nat) : State :=
  (s.sendNotice 1 (evCode evResetCause) fun _ => true).beginReset 5 0 cause slot

/-- Whether a sector is started and not quiesced in a field (R734). -/
def State.sectorLive (s : State) (f sec : Nat) : Bool :=
  s.imageStarted && decide (sec ≠ 0xFFF) && !s.isQuiesced f sec && decide (s.health sec ≤ 1)

/-- RESET_DOMAIN taken from a mailbox slot for a domain of `n` targets, with the state check given (R734, R805). -/
def State.resetCommand (s : State) (u d t n : Nat) (refused : Option Nat) (act : State → State) : State :=
  if s.mboxNext = some u ∧ s.gf F.hstMboxStatus_opcode u = 0xE ∧
      (bits (s.arg u 0) 26 24 ≠ d ∨ bits (s.arg u 0) 22 0 ≠ t) then s
  else s.takeMbox u 0xE true [0x77FFFFF] fun s =>
    if n ≤ t then s.mboxDone u mbRange []
    else match refused with
      | some st => s.mboxDone u st []
      | none => act s

/-- GROUP_RESET (R733-R735, R740). -/
def execGroupReset (slot : Option Nat) (t g : Nat) (s : State) : Host.Outcome State Fault Refusal :=
  let target := g * 2 ^ 20 + t
  match slot with
  | none => onGroup t g (s.beginReset 0 target 2 none)
  | some u => .next (s.resetCommand u 0 target (8 * 2 ^ 20)
      (if isTile t = false then some mbRange
       else if s.right (if u = 64 then .jtag else .host (u / 16) 0) 0 (fieldOf t) then none else some mbDenied)
      fun s => s.beginReset 0 target 2 (some u))

/-- TILE_RESET (R733-R735, R738). -/
def execTileReset (slot : Option Nat) (t : Nat) (s : State) : Host.Outcome State Fault Refusal :=
  match slot with
  | none => onTile t (s.beginReset 1 t 2 none)
  | some u => .next (s.resetCommand u 1 t 589824
      (if s.sectorLive (fieldOf t) (s.sectorOf t) then some mbBadState else none) fun s => s.beginReset 1 t 2 (some u))

/-- BAY_RESET (R733-R735, R737). -/
def execBayReset (slot : Option Nat) (bay : Nat) (s : State) : Host.Outcome State Fault Refusal :=
  match slot with
  | none => onUnit bay 2304 (s.beginReset 2 bay 2 none)
  | some u => .next (s.resetCommand u 2 bay 2304
      (if s.sectorLive (fieldOfBay bay) (s.sectorOfBay bay) then some mbBadState else none)
      fun s => s.beginReset 2 bay 2 (some u))

/-- A field reset, which waits for the failover of its Station Keeper (R734, R844), and after a thermal trip until the field has
cooled: it begins then with FOG_HOLD_EXPIRY, and a mailbox command waits for it (R665, R850). -/
def State.beginFieldReset (s : State) (f : Nat) (slot : Option Nat) : State :=
  if s.tooHot f then
    { s with mboxJobs := s.mboxJobs ++ match slot with | some u => [(u, .reset 3 f)] | none => [] }
  else
    let s := if f = s.keeperAt ∧ s.ready = true then s.failover else s
    s.beginReset 3 f 2 slot

/-- FIELD_RESET (R733-R735, R741, R850). The Keeper resets a fogged field only once `FOG_HOLD` has passed, which is
FOG_HOLD_EXPIRY. -/
def execFieldReset (slot : Option Nat) (f : Nat) (s : State) : Host.Outcome State Fault Refusal :=
  match slot with
  | none => onField f (s.beginFieldReset f none)
  | some u => .next (s.resetCommand u 3 f 64 none fun s => s.beginFieldReset f (some u))

/-- RIM_PORT_RESET (R733, R737, R742). -/
def execRimPortReset (slot : Option Nat) (target : Nat) (s : State) : Host.Outcome State Fault Refusal :=
  match slot with
  | none => onUnit target 28 (s.beginReset 4 target 2 none)
  | some u => .next (s.resetCommand u 4 target 28 none fun s => s.beginReset 4 target 2 (some u))

/-- STATION_RESET (R733, R737, R746, R861): by the Keeper, with a cause of R748, or by a mailbox command, which a value
that names no domain or another target leaves with RANGE. -/
def execStationReset (slot : Option Nat) (cause : Nat) (s : State) : Host.Outcome State Fault Refusal :=
  match slot with
  | none => .next (s.commandStation (cause % 16) none)
  | some u =>
    if s.mboxNext = some u ∧ s.gf F.hstMboxStatus_opcode u = 0xE ∧ 5 ≤ bits (s.arg u 0) 26 24 then
      .next (s.takeMbox u 0xE true [0x77FFFFF] fun s =>
        if bits (s.arg u 0) 26 24 = 5 ∧ bits (s.arg u 0) 22 0 = 0 then s.commandStation 2 (some u)
        else s.mboxDone u mbRange [])
    else .next s

/-- COLD_RESET (R733, R736, R737): at power-on (cause 0), or PORST_N (cause 1). THERMTRIP_N is released (R666). -/
def execColdReset (powerOn : Bool) (s : State) : Host.Outcome State Fault Refusal :=
  .next (s.resetCold (if powerOn then 0 else 1))

/-- PERST_N (R742, R780): PERST_N, a hot reset or link-down of a PCIe port is a rim-port reset. -/
def execPerstN (port : Nat) (s : State) : Host.Outcome State Fault Refusal :=
  onUnit port 4 (s.beginReset 4 port 2 none)

/-! ### Powering a field up (R669-R673, R765, R766) -/

/-- `PWR_VF_CORE` and `PWR_VF_LENS` as boot trim sets them (R669, R673). -/
def State.bootTrim (s : State) (f : Nat) (test : FieldTest) : State :=
  let entry (v : Nat) : BitVec 64 := BitVec.ofNat 64 (if v ≤ 850 then 2 ^ 31 + v else 850)
  let old := s.trimWords f
  let s := s.each (List.range 71) fun s k => s.wr .pwrVfCore f k (entry (test.need.getD k 850 + 10))
  let gone := s.gf F.pwrVfCore_mv f 50 - mget 0 s.fuses.vfCore 50 % 1024
  let s := s.each (List.range 81) fun s k => s.wr .pwrVfLens f k (entry (mget 0 s.fuses.vfLens k % 1024 + gone))
  s.trimmed f test.worst (s.fld f).watch old

/-- The records of a bay and what lies in it. -/
def ofBay (b : Nat) (d : Defect) : Bool :=
  (decide (d.kind ≤ 2) && decide (bayOf d.loc = b)) || (decide (d.kind = 3) && decide (d.loc = b))

/-- What a test finds bad, as a record of BIST or RETEST (R34). -/
def foundRecord (b : Nat × Nat × Nat) : Defect :=
  Defect.ofWord ({ kind := b.1, source := if b.1 ≤ 3 then 1 else 2, loc := b.2.1, detail := b.2.2 } : Defect).word

/-- Live records that a test of some places makes for what it finds bad (R766). -/
def State.failRecords (s : State) (here : Defect → Bool) (bad : List (Nat × Nat × Nat)) : State :=
  s.each ((bad.map foundRecord).filter fun d => here d && !s.liveDefects.any fun e => e.key = d.key) fun s d => s.liveRecord d

/-- Live records after a test of RETURN_BAY or a field's power-up: those of places that now pass go, and what it finds bad is
recorded (R28, R766). -/
def State.testRecords (s : State) (here : Defect → Bool) (bad : List (Nat × Nat × Nat)) : State :=
  (s.dropRecords fun d => here d && !(bad.map foundRecord).any fun e => e.key = d.key).failRecords here bad

/-- Lens and MV clocks of a field that the loaded image uses (R461, R540). -/
def State.usedClocks (s : State) (f : Nat) : Nat :=
  match s.loaded, s.loadedBind with
  | some img, some bt =>
    let ls := (img.lenses.map fun x => mget (x.field * 4 + x.lens) bt.lenses (x.field * 4 + x.lens)).filter fun l => l / 4 = f
    sumNat ((List.range 4).map fun k => if ls.contains (f * 4 + k) then 2 ^ k else 0) +
      (if img.mv.any fun x => x.field = f then 16 else 0)
  | _, _ => 0

/-- A bay that a ramp of the power-up brings up, or that trips on the way (R653, R655). -/
def State.powerBay (s : State) (test : FieldTest) (b : Nat) : State :=
  let pending := s.mboxJobs.any fun (e : Nat × MboxOp) => e.2 = .return_ b
  if s.merged.any (fun d => d.kind = 3 && d.loc = b) = true ∧ pending = false then s.openGate b 5
  else match test.trips.find? (·.1 = b) with
    | some (_, step, current) => (s.setBay b 1).gateTrip b step current
    | none => s.setBay b 2

/-- A field powered up and tested (R765, R822): retirements still due first; PLLs at the home point, rails, ramps, boot trim,
BIST and retest, field store zero, routers written; the field runs empty watches from the next beacon. -/
def State.powerUpField (s : State) (f : Nat) (test : FieldTest) : State :=
  let pll (s : State) (k mhz : Nat) : State := (s.sf F.clkPllStatus_lock 0 k 1).sf F.clkPllStatus_mhz 0 k mhz
  let due := s.retireQueue.filter fun (e : Nat × Nat) => fieldOfBay e.1 = f
  let s : State := { s with retireQueue := s.retireQueue.filter fun (e : Nat × Nat) => fieldOfBay e.1 ≠ f }
  let s := s.each due fun s e => s.retireBay e.1 e.2
  let s := pll (pll s (1 + f) 1000) (65 + f) 1200
  let s := (s.sf F.pwrRailStatus_enabled 0 (64 + f) 1).sf F.pwrRailStatus_enabled 0 f 1
  let s := s.each (baysOf f) fun s b => s.powerBay test b
  let s := s.each (test.aged.filter fun b => fieldOfBay b = f && decide (s.bayState b = 2)) fun s b => s.retireBay b 4
  let s := s.bootTrim f test
  let s := s.sf F.pwrStatus_sram_mv f 0 s.fuses.sramMv
  let lit := (baysOf f).filter fun b => s.bayState b = 2
  let s := s.testRecords (fun d => match d.kind with
    | 1 | 2 => lit.contains (bayOf d.loc)
    | 3 => lit.contains d.loc
    | _ => decide (d.loc / 4 = f)) test.bad
  let failed := test.bad.filterMap fun b => if b.1 = 3 then some b.2.1 else none
  let s := s.each lit fun s b =>
    if failed.contains b then (s.openGate b 5).finishOp (.return_ b) mbFailed []
    else
      let s : State := { s with bays := mput s.bays b { mget {} s.bays b with tested := true } }
      s.finishOp (.return_ b) mbOk []
  let s := s.each (List.range 4) fun s k => s.writeGeometry (f * 4 + k)
  let s := (s.sf F.clkEnable_en 0 f (s.usedClocks f)).sf F.clkRunning_run 0 f (s.usedClocks f)
  let s : State := { s with
    fst := memClear s.fst (fstAddr f 0) 67108864, fstBad := s.fstBad.filter fun a => a / 67108864 ≠ f
    fstWeak := s.fstWeak.filter fun a => a / 67108864 ≠ f
    fieldFails := mdel s.fieldFails f, rewrites := s.rewrites ++ [(f, s.now)] }
  let s := s.rewriteRouters f fun _ => true
  let s := s.setFld f { watch := (s.fld f).watch, mhz := 1000, lensMhz := 1200 }
  let s := ((s.sf F.fkpStatus_resetting f 0 0).sf F.fkpStatus_fogged f 0 0).sf F.fkpStatus_fenced f 0 0
  let s := (s.sf F.thmStatus_trip f 0 0).setTarget f
  let s := if s.countWritten then s.writeTileCount.checkGrade else s
  s.sf F.stnStartupFields_running 0 0 (setBits (s.gf F.stnStartupFields_running) f f 1)

/-! ### The end of a reset (R733, R745, R851) -/

/-- A reset has completed: its commands answer OK, BUSY clears with the last one. -/
def State.endReset (s : State) (d t : Nat) : State :=
  let s : State := { s with resets := s.resets.filter fun j => !(decide (j.domain = d) && decide (j.target = t)) }
  let s := if s.resets = [] then s.sf F.rstStatus_busy 0 0 0 else s
  s.finishOp (.reset d t) mbOk []

/-- Class of a RESET_TIMEOUT (R835). -/
def timeoutClass (d : Nat) : Nat := if d ≤ 1 then 2 else if d = 2 then 4 else 5

/-- RESET_TIMEOUT (R745, R846): a reset is abandoned and escalates: a group to its tile, a tile to its bay, a bay to its
field, a field or rim port to the station. A station reset sounds the foghorn and is restarted once, where AUTO_RESET is
set. -/
def execResetTimeout (domain target : Nat) (s : State) : Host.Outcome State Fault Refusal :=
  match s.resets.find? fun j => j.domain = domain && j.target = target with
  | none => .next s
  | some j =>
    let s := s.advanceTo (j.begun + recoveryTime domain target)
    let ev := { evResetTimeout with cls := timeoutClass domain }
    let s := s.logEv ev 64 target domain
    let s : State := { s with resets := s.resets.erase j }
    let s := (s.finishOp (.reset domain target) mbTimeout []).hset F.rstStatus_timeout 0 0
    .next (match domain with
      | 0 => s.beginReset 1 (target % 2 ^ 20) 5 none
      | 1 => s.beginReset 2 (bayOf target) 5 none
      | 2 => s.beginFieldReset (fieldOfBay target) none
      | 3 | 4 => s.commandStation 5 none
      | _ =>
        let s := s.foghorn 3 false (evCode ev)
        if s.stationRetried = false ∧ s.flag F.stnWdogCfg_auto_reset = true then
          { s.resetStation 5 with stationRetried := true }
        else s)

end Sys2Proof.Machine
end

