-- ==== Sys2Proof/Machine/Planner.lean ====
section
/-! DEFINITION. The watch planner: demand and value, prediction and calibration, candidates and clock domains, the selection
with its downgrades and brownout, recovery and staging orders (spec/16_watch_planner.md, R685-R711; runnability and
admission: R102, R610, R630). -/

namespace Sys2Proof.Machine

/-- An operating point: core and lens level in MHz. -/
abbrev Point := Nat × Nat

/-- The home point with its lens level (R609). -/
def homePoint : Point := (1000, 1200)

/-! ### What the coming watches run under -/

/-- The fields that hold a sector of the loaded image, a field in reset among them. -/
def State.holders (s : State) (sec : Nat) : List Nat :=
  match s.loaded, s.loadedBind with
  | some img, some bt =>
    let mine := (img.placement.filter (·.sector = sec)).map fun b => fieldOfBay (mget b.lbay bt.bays b.lbay)
    (List.range 64).filter fun f => mine.contains f || (s.fieldsOf sec).contains f
  | _, _ => s.fieldsOf sec

/-- The beacon period that will be in force in watch `w` (R114-R116). -/
def State.periodAt (s : State) (w : Nat) : Nat :=
  let base := (((s.periodWrites.filter fun d => d.2 ≤ w).getLast?).map (·.1)).getD (s.gf F.bcnPeriod_period)
  match s.periodDue with
  | some (p, e) => if w < e then base else if e + 2 ≤ w then s.periodHeld.getD p else p
  | none => base

/-- The SETTLE length that will be in force in watch `w` (R89). -/
def State.settleAt (s : State) (w : Nat) : Nat :=
  (((s.settleDue.filter fun d => d.2 ≤ w).getLast?).map (·.1)).getD (s.gf F.bcnSettleLen_len)

/-- Whether a character is runnable at a core level, period and SETTLE length (R102). -/
def runnable (c : ImgChar) (core period settle : Nat) : Bool :=
  let l := watchCycles period core - settle - 768
  decide (c.t + ceilDiv (3 * l) 100 + c.b ≤ l)

/-- The point a character names (R611). -/
def charPoint (t : ImgTable) (c : ImgChar) : Point := t.points.getD c.point (1000, 0)

/-- Whether a character is compatible with a domain point (R610, R700): the fallback is with every one. -/
def compatWith (t : ImgTable) (c : ImgChar) (x : Point) : Bool :=
  c.id = t.fallback || ((charPoint t c).1 = x.1 && ((charPoint t c).2 = 0 || (charPoint t c).2 = x.2))

/-! ### Tenants (R630, R688-R691) -/

/-- The occupied slots of a sector with their tenants. -/
def State.residents (s : State) (sec : Nat) : List (Nat × Nat) :=
  s.hostSlots.filterMap fun (e : (Nat × Nat) × HostSlot) => if e.1.1 = sec then e.2.tenant.map fun t => (e.1.2, t) else none

/-- The record of a tenant. -/
def State.tenant (s : State) (t : Nat) : Tenant := mget {} s.tenants t

/-- DEV, LATENCY and RESULTS a character declares for a slot (R615). -/
def declared (c : ImgChar) (i : Nat) : Nat × Nat × Nat := c.slots.getD i (255, 0, 0)

/-- Whether a character is admissible for a sector (R630). -/
def State.admissible (s : State) (sec : Nat) (c : ImgChar) : Bool :=
  (s.residents sec).all fun e =>
    let dev := (declared c e.1).1
    let word := (s.tenant e.2).prec
    decide (dev = 255) || (word.testBit 31 && decide (word % 256 ≤ dev))

/-- The class of a sector (R691). -/
def State.sectorClass (s : State) (sec : Nat) : Nat := (s.residents sec).foldl (fun m e => min m (s.tenant e.2).cls) 2

/-- Weight of a service class (R688). -/
def classWeight (c : Nat) : Nat := if c = 0 then 4 else if c = 1 then 2 else 1

/-- The value of a character for a sector (R690, R708). -/
def State.charValue (s : State) (sec : Nat) (c : ImgChar) : Nat :=
  sumNat ((s.residents sec).map fun e =>
    let short := match s.sec sec with
      | some x => (mget ({} : Answered) x.answered (c.id, e.1)).short
      | none => none
    classWeight (s.tenant e.2).cls * min (short.getD (declared c e.1).2.2) (s.hslot sec e.1).owned.length)

/-- Whether a character meets the deadline of a tenant in a slot (R689). -/
def State.meets (s : State) (c : ImgChar) (p : Nat) (e : Nat × Nat) : Bool :=
  decide ((s.tenant e.2).cls ≠ 0) || decide (((declared c e.1).2.1 + 1) * p ≤ (s.tenant e.2).deadline)

/-! ### Energy (R618, R692, R693) -/

/-- E_ACT and P_REST of a character at a domain point: a fallback declares them for every point of its table, and takes those
of the point in force where its table lists it, else of one with its core level. -/
def powerAt (t : ImgTable) (c : ImgChar) (x : Point) : Nat × Nat :=
  let listed (p : Point → Bool) : Option Nat := (List.range t.points.length).find? fun k => p (t.points.getD k (0, 0))
  let k := if c.id = t.fallback then
      ((listed fun q => q = x).orElse fun _ => (listed fun q => q = (x.1, 0)).orElse fun _ => listed fun q => q.1 = x.1).getD 0
    else c.point
  c.power.getD k (0, 0)

/-- The declared energy of a character at a point, in µJ (R618). -/
def charEnergy (t : ImgTable) (c : ImgChar) (x : Point) (period settle : Nat) : Rat :=
  let e := powerAt t c x
  let rest : Rat := (period : Rat) - ((c.t + settle + 768 : Nat) : Rat) * 1000 / (x.1 : Rat)
  (e.1 : Rat) + (e.2 : Rat) * rest / 1000000

/-- What a shelved sector draws: P_REST of its fallback over the watch, in µJ (R692). -/
def shelvedEnergy (t : ImgTable) (x : Point) (period : Nat) : Rat :=
  match tableChar t t.fallback with
  | some c => ((powerAt t c x).2 : Rat) * (period : Rat) / 1000000
  | none => 0

/-- The share of a sector's compute tiles that lies in a field (R692). -/
def State.share (s : State) (f : Nat) (t : ImgTable) : Rat :=
  let tiles := t.tiles.map fun (e : Nat × List Nat) => match s.loadedBind with
    | some bt => bt.physical e.1
    | none => e.1
  ((tiles.filter fun p => fieldOf p = f).length : Rat) / ((max 1 tiles.length : Nat) : Rat)

/-- The planner's record of a field. -/
def State.planField (s : State) (f : Nat) : PlanField := mget {} s.plan f
def State.setPlanField (s : State) (f : Nat) (x : PlanField) : State := { s with plan := mput s.plan f x }

/-- E_base of a field at a point, in µJ (R693). -/
def State.baseEnergy (s : State) (f : Nat) (x : Point) (period : Nat) : Rat :=
  let v : Rat := (s.voltage f x.1 x.2 : Rat)
  let h : Rat := (max 1 (s.voltage f homePoint.1 homePoint.2) : Nat)
  (s.planField f).base * (v / h) * (v / h) * (period : Rat) / 1000

/-- A sector's part in a round: its character or that it is shelved, and why. -/
structure Choice where
  sec : Nat
  char : Nat
  shelved : Bool := false
  plan : Nat := 0
  deriving DecidableEq, Repr

/-- A clock domain in a round (R700): its fields, its sectors, and its candidate points from the chosen one down. -/
structure Domain where
  fields : List Nat
  secs : List Nat
  pts : List Point
  deriving DecidableEq, Repr

/-- A selection in the making. -/
structure Draft where
  domains : List Domain
  picks : List Choice
  deriving DecidableEq, Repr

/-- The point a domain stands at. -/
def Domain.point (d : Domain) : Point := d.pts.headD homePoint

/-- The point of a field: that of its domain, the home point where it holds no sector. -/
def Draft.pointOf (x : Draft) (f : Nat) : Point :=
  match x.domains.find? fun d => d.fields.contains f with
  | some d => d.point
  | none => homePoint

/-- The unscaled energy of a sector's choice at a point (R692). -/
def State.choiceEnergy (s : State) (c : Choice) (x : Point) (period settle : Nat) : Rat :=
  match s.sec c.sec with
  | none => 0
  | some y =>
    if c.shelved then shelvedEnergy y.table x period
    else match tableChar y.table c.char with
      | some k => charEnergy y.table k x period settle
      | none => 0

/-- The unscaled prediction of a field at a point (R692). -/
def State.unscaled (s : State) (f : Nat) (x : Point) (picks : List Choice) (period settle : Nat) : Rat :=
  picks.foldl (fun e c => match s.sec c.sec with
    | some y => e + s.share f y.table * s.choiceEnergy c x period settle
    | none => e) (s.baseEnergy f x period)

/-- The terms of a round: the watch selected for, its period and SETTLE length. -/
structure Terms where
  watch : Nat
  period : Nat
  settle : Nat
  deriving DecidableEq, Repr

/-- E_pred of a field under a draft (R692). -/
def State.predict (s : State) (q : Terms) (x : Draft) (f : Nat) : Rat :=
  (s.planField f).k * s.unscaled f (x.pointOf f) x.picks q.period q.settle

/-- The scaled energy a sector's choice adds over its fields (R701). -/
def State.scaledEnergy (s : State) (q : Terms) (c : Choice) (x : Point) : Rat :=
  match s.sec c.sec with
  | none => 0
  | some y => (s.holders c.sec).foldl (fun e f => e + (s.planField f).k * s.share f y.table *
      s.choiceEnergy c x q.period q.settle) 0

/-! ### Budget (R697) -/

/-- The energy of the station's rails in a watch of the period given. -/
def State.stationEnergy (s : State) (q : Terms) : Rat :=
  (s.stnEnergy.1 : Rat) * (q.period : Rat) / ((max 1 s.stnEnergy.2 : Nat) : Rat)

/-- A field's allowance in µJ. -/
def State.fieldBudget (s : State) (q : Terms) (f : Nat) : Rat := ((s.planField f).allow : Rat) * (q.period : Rat) / 1000

/-- The wafer's budget in µJ. -/
def State.waferBudget (s : State) (q : Terms) : Rat :=
  (if s.flag F.stnPlanStatus_calibrated then (98 : Rat) / 100 else (95 : Rat) / 100) * (s.gf F.pwrCap_cap : Rat) *
    (q.period : Rat) / 1000

/-- The prediction of the wafer's fields together. -/
def State.total (s : State) (q : Terms) (x : Draft) : Rat := (List.range 64).foldl (fun e f => e + s.predict q x f) 0

/-- Whether the wafer's budget is exceeded. -/
def State.waferOver (s : State) (q : Terms) (x : Draft) : Bool := decide (s.waferBudget q < s.total q x + s.stationEnergy q)

/-- Whether a draft is within budget. -/
def State.inBudget (s : State) (q : Terms) (x : Draft) : Bool :=
  !s.waferOver q x && (List.range 64).all fun f => decide (s.predict q x f ≤ s.fieldBudget q f)

/-! ### Candidates (R698, R699) -/

/-- Whether a point is available in fields, and within the limits of holdover while it lasts (R124, R646). -/
def State.pointOk (s : State) (fs : List Nat) (x : Point) : Bool :=
  (fs.all fun f => s.pointAvail f x.1 x.2) &&
    (!s.flag F.bcnStatus_holdover || (decide (x.1 ≤ 1140) && decide (x.2 ≤ 1330)))

/-- The staged transfer of the loaded image with an id. -/
def State.transfer (s : State) (k : Nat) : Option ImgTransfer :=
  match s.loaded with
  | some img => img.staging.find? fun t => t.transfer = k
  | none => none

/-- Whether a character's transfers are ready, or ordered for the watch or before it (R698). -/
def State.staged (s : State) (c : ImgChar) (w : Nat) : Bool :=
  (c.transfers.filter (· ≠ 0xFFFF)).all fun k => match s.transfer k with
    | some t => decide (s.gf F.fstRegionCfg_state t.field t.region = 2) ||
        s.orders.any fun o => o.plan.transfer = k && !o.failed && decide (o.target ≤ w)
    | none => false

/-- Every test of a candidate at a point but that of deadlines; `staging` says whether its transfers are tested. -/
def State.passes (s : State) (q : Terms) (y : SectorSt) (sec : Nat) (x : Point) (staging : Bool) (c : ImgChar) : Bool :=
  let p := if c.id = y.table.fallback then x else charPoint y.table c
  compatWith y.table c x && runnable c p.1 q.period q.settle && s.pointOk (s.holders sec) p && s.admissible sec c &&
    (!staging || s.staged c q.watch) && (!y.recovery || decide (c.id = y.table.recovery))

/-- The points a character may run at: its own, or for the fallback every point of the table (R611, R624). -/
def charPoints (t : ImgTable) (c : ImgChar) : List Point := if c.id = t.fallback then t.points else [charPoint t c]

/-- The latency-class tenants of a sector that no candidate serves (R699), by slot. -/
def State.unservable (s : State) (q : Terms) (y : SectorSt) (sec : Nat) : List (Nat × Nat) :=
  (s.residents sec).filter fun e => !(y.table.chars.any fun c =>
    (charPoints y.table c).any (fun x => s.passes q y sec x true c) && s.meets c q.period e)

/-- The candidates of a sector compatible with a point. -/
def State.candidates (s : State) (q : Terms) (sec : Nat) (x : Point) (staging : Bool) : List ImgChar :=
  match s.sec sec with
  | none => []
  | some y =>
    let lifted := s.unservable q y sec
    y.table.chars.filter fun c => s.passes q y sec x staging c &&
      (s.residents sec).all fun e => lifted.contains e || s.meets c q.period e

/-- The best of some characters of a sector at a point: greatest value, then least energy, then lowest id (R701). -/
def State.best (s : State) (q : Terms) (sec : Nat) (x : Point) : List ImgChar → Option ImgChar
  | [] => none
  | c :: cs => match s.best q sec x cs with
    | none => some c
    | some d =>
      let v := s.charValue sec c
      let w := s.charValue sec d
      let e := s.scaledEnergy q { sec := sec, char := c.id } x
      let g := s.scaledEnergy q { sec := sec, char := d.id } x
      if w < v ∨ (v = w ∧ (e < g ∨ (e = g ∧ c.id < d.id))) then some c else some d

/-- The least-energy one of some characters, the lower id where equal. -/
def State.leastOf (s : State) (q : Terms) (sec : Nat) (x : Point) : List ImgChar → Option ImgChar
  | [] => none
  | c :: cs => match s.leastOf q sec x cs with
    | none => some c
    | some d =>
      let e := s.scaledEnergy q { sec := sec, char := c.id } x
      let g := s.scaledEnergy q { sec := sec, char := d.id } x
      if e < g ∨ (e = g ∧ c.id < d.id) then some c else some d

/-- The least-energy admissible compatible character of a sector, deadlines disregarded (R701, R703): among those that pass
every other test, and the fallback where it is runnable. A sector with none of them is shelved, since the planner selects no
character that is not runnable (R103). -/
def State.least (s : State) (q : Terms) (sec : Nat) (x : Point) : Choice :=
  match s.sec sec with
  | none => { sec := sec, char := 0, plan := 4 }
  | some y =>
    let cs := y.table.chars.filter fun c => s.passes q y sec x true c ||
      (decide (c.id = y.table.fallback) && runnable c x.1 q.period q.settle)
    match s.leastOf q sec x cs with
    | some c => { sec := sec, char := c.id, plan := 4 }
    | none => { sec := sec, char := y.table.fallback, shelved := true, plan := 5 }

/-- What a sector is given at a point before any downgrade (R701, R699). -/
def State.pickAt (s : State) (q : Terms) (x : Point) (why sec : Nat) : Choice :=
  match s.sec sec, s.best q sec x (s.candidates q sec x true) with
  | some y, some c =>
    { sec := sec, char := c.id, plan := if s.unservable q y sec ≠ [] then 4 else if y.recovery then 3 else why }
  | _, _ => s.least q sec x

/-! ### Domains (R700, R701) -/

/-- The sectors a round selects for: those of the loaded image that run, neither quiesced nor draining. -/
def State.planned (s : State) : List Nat :=
  (((s.sectors.map (·.1)).filter fun k => s.imageStarted && s.health k = 0 &&
    !(s.fieldsOf k).any fun f => s.isQuiesced f k || s.isDraining f k).mergeSort (· ≤ ·))

/-- A set of fields joined to those it shares a field with. -/
def joinFields (acc : List (List Nat)) (fs : List Nat) : List (List Nat) :=
  let hit := acc.filter fun a => a.any fs.contains
  (fs ++ hit.flatten).eraseDups :: acc.filter fun a => !a.any fs.contains

/-- The field sets of the clock domains (R700). -/
def State.domainSets (s : State) (secs : List Nat) : List (List Nat) :=
  let sets := secs.map fun k => match s.sec k with
    | some y => ((secs.filter fun j => match s.sec j with
        | some z => z.clockGroup = y.clockGroup
        | none => false).flatMap s.holders).eraseDups
    | none => s.holders k
  ((sets.foldl joinFields []).map fun fs => fs.mergeSort (· ≤ ·)).mergeSort fun a b => a.headD 0 ≤ b.headD 0

/-- The candidate points of a domain, by descending core, then descending lens (R700). -/
def State.domainPoints (s : State) (fs secs : List Nat) : List Point :=
  let listed := secs.flatMap fun k => match s.sec k with
    | some y => y.table.points
    | none => []
  let cores := (listed.map (·.1)).eraseDups
  let all := cores.flatMap fun c =>
    let ls := ((listed.filter fun p => p.1 = c && p.2 ≠ 0).map (·.2)).eraseDups
    (if ls = [] then [600] else ls).map fun l => (c, l)
  ((all.filter (s.pointOk fs)).mergeSort fun a b => decide (b.1 < a.1) || (decide (a.1 = b.1) && decide (b.2 ≤ a.2)))

/-- The score of a point (R701): latency-class sectors with a pick, value, energy. -/
def State.score (s : State) (q : Terms) (secs : List Nat) (x : Point) : Nat × Nat × Rat :=
  let picks := secs.filterMap fun k => (s.best q k x (s.candidates q k x true)).map fun c => (k, c)
  ((picks.filter fun e => s.sectorClass e.1 = 0).length, sumNat (picks.map fun e => s.charValue e.1 e.2),
    picks.foldl (fun a e => a + s.scaledEnergy q { sec := e.1, char := e.2.id } x) 0)

/-- Whether one score is greater than another. -/
def scoreAbove (a b : Nat × Nat × Rat) : Bool :=
  decide (b.1 < a.1) || (decide (a.1 = b.1) && (decide (b.2.1 < a.2.1) || (decide (a.2.1 = b.2.1) && decide (a.2.2 < b.2.2))))

/-- The points from the one with the greatest score on, ties going to the earlier (R701). -/
def State.fromBest (s : State) (q : Terms) (secs : List Nat) : List Point → List Point
  | [] => []
  | x :: xs => match s.fromBest q secs xs with
    | [] => [x]
    | y :: ys => if scoreAbove (s.score q secs y) (s.score q secs x) then y :: ys else x :: xs

/-- The arrangement a round starts from (R701). -/
def State.firstDraft (s : State) (q : Terms) : Draft :=
  let secs := s.planned
  let domains := (s.domainSets secs).map fun fs =>
    let mine := secs.filter fun k => (s.holders k).any fs.contains
    ({ fields := fs, secs := mine, pts := s.fromBest q mine (s.domainPoints fs mine) } : Domain)
  { domains := domains, picks := domains.flatMap fun d => d.secs.map (s.pickAt q d.point 0) }

/-! ### Downgrades (R702) -/

/-- A possible step of the walk: whether it is a domain move, the sector or domain id, and the draft it leads to. -/
structure Move where
  domain : Bool
  id : Nat
  to_ : Draft
  deriving DecidableEq, Repr

/-- A draft with one sector's choice replaced. -/
def Draft.put (x : Draft) (c : Choice) : Draft := { x with picks := x.picks.map fun d => if d.sec = c.sec then c else d }

/-- The point a sector's domain stands at. -/
def Draft.pointOfSec (x : Draft) (k : Nat) : Point :=
  match x.domains.find? fun d => d.secs.contains k with
  | some d => d.point
  | none => homePoint

/-- The value of a draft. -/
def State.draftValue (s : State) (x : Draft) : Nat :=
  sumNat (x.picks.map fun c => match s.sec c.sec with
    | some y => if c.shelved then 0 else ((tableChar y.table c.char).map (s.charValue c.sec)).getD 0
    | none => 0)

/-- A domain moved to other points, its sectors picked again; those shelved stay so. -/
def State.moveDomain (s : State) (q : Terms) (x : Draft) (d : Domain) (pts : List Point) : Draft :=
  let d' := { d with pts := pts }
  { domains := x.domains.map fun e => if e = d then d' else e
    picks := x.picks.map fun c => if d.secs.contains c.sec && !c.shelved then s.pickAt q d'.point 2 c.sec else c }

/-- The sector moves and domain moves open to a draft. -/
def State.moves (s : State) (q : Terms) (x : Draft) : List Move :=
  (x.picks.filterMap fun c =>
    let p := x.pointOfSec c.sec
    let lower := (s.candidates q c.sec p true).filter fun k =>
      decide (s.scaledEnergy q { sec := c.sec, char := k.id } p < s.scaledEnergy q c p)
    if c.shelved then none
    else (s.best q c.sec p lower).map fun k =>
      ({ domain := false, id := c.sec, to_ := x.put { sec := c.sec, char := k.id, plan := 1 } } : Move)) ++
    x.domains.filterMap fun d => match d.pts with
      | _ :: y :: ys => some { domain := true, id := d.fields.headD 0, to_ := s.moveDomain q x d (y :: ys) }
      | _ => none

/-- The cost of a step: value lost over energy saved; none where it saves nothing (R702). -/
def State.cost (s : State) (q : Terms) (x y : Draft) : Option Rat :=
  let saved := s.total q x - s.total q y
  if saved ≤ 0 then none else some (((s.draftValue x : Rat) - (s.draftValue y : Rat)) / saved)

/-- Whether a step helps where a budget is exceeded (R702). -/
def State.eligible (s : State) (q : Terms) (x y : Draft) : Bool :=
  s.waferOver q x || (List.range 64).any fun f =>
    decide (s.fieldBudget q f < s.predict q x f) && decide (s.predict q y f < s.predict q x f)

/-- The cheapest of some steps, each with its cost; the earlier where `first` holds of equals. -/
def cheapest (first : Move → Move → Bool) : List (Rat × Move) → Option (Rat × Move)
  | [] => none
  | a :: l => match cheapest first l with
    | none => some a
    | some b => if a.1 < b.1 ∨ (a.1 = b.1 ∧ first a.2 b.2 = true) then some a else some b

/-- The order of steps of equal cost: a sector move before a domain move, then the lower id. -/
def moveBefore (a b : Move) : Bool := (!a.domain && b.domain) || (a.domain == b.domain && decide (a.id ≤ b.id))

/-- The walk downhill, until the draft is within budget or no eligible step remains (R701). -/
def State.walk (s : State) (q : Terms) : Nat → Draft → Draft
  | 0, x => x
  | n + 1, x =>
    if s.inBudget q x then x
    else
      let ms := (s.moves q x).filterMap fun m =>
        if s.eligible q x m.to_ then (s.cost q x m.to_).map fun c => (c, m) else none
      match cheapest moveBefore ms with
      | some (_, m) => s.walk q n m.to_
      | none => x

/-! ### Brownout (R703) -/

/-- One stage: steps on one sector at a time, least cost first, ties going to the higher id, until within budget. -/
def State.stage (s : State) (q : Terms) (steps : Draft → List Move) : Nat → Draft → Draft × Bool
  | 0, x => (x, false)
  | n + 1, x =>
    if s.inBudget q x then (x, false)
    else match cheapest (fun a b => decide (b.id ≤ a.id)) ((steps x).filterMap fun m => (s.cost q x m.to_).map fun c => (c, m)) with
      | some (_, m) => ((s.stage q steps n m.to_).1, true)
      | none => (x, false)

/-- The sectors of a class that a draft does not shelve, each changed by `f`. -/
def State.classMoves (s : State) (cls : Nat) (f : Draft → Choice → Choice) (x : Draft) : List Move :=
  (x.picks.filter fun c => !c.shelved && s.sectorClass c.sec = cls).map fun c =>
    { domain := false, id := c.sec, to_ := x.put (f x c) }

/-- A sector shelved: it shows its fallback's id. -/
def State.shelve (s : State) (_ : Draft) (c : Choice) : Choice :=
  { sec := c.sec, char := match s.sec c.sec with | some y => y.table.fallback | none => 0, shelved := true, plan := 5 }

/-- Brownout: the draft it ends with and the last stage applied. -/
def State.brownout (s : State) (q : Terms) (x : Draft) : Draft × Nat :=
  let n := x.picks.length + 1
  let run (k : Nat) (steps : Draft → List Move) (y : Draft × Nat) : Draft × Nat :=
    let r := s.stage q steps n y.1
    (r.1, if r.2 then k else y.2)
  let y := run 1 (s.classMoves 2 s.shelve) (x, 0)
  let y := run 2 (s.classMoves 1 s.shelve) y
  let y := run 3 (s.classMoves 0 fun d c => s.least q c.sec (d.pointOfSec c.sec)) y
  let y := run 4 (s.classMoves 0 s.shelve) y
  if s.inBudget q y.1 then y
  else (y.1.domains.foldl (fun z d => s.moveDomain q z d (d.pts.getLast?.toList)) y.1, 5)

/-! ### Recovery (R705) -/

/-- Whether a sector is void in the watch its fields are in. -/
def State.voidNow (s : State) (sec : Nat) : Bool := (s.holders sec).any fun f => (s.fld f).voids.any (·.1 = sec)

/-- The verdicts of the watch taken: recovery where it is a candidate and the selection stays within budget, else deferred. -/
def State.recover (s : State) (q : Terms) (x : Draft) : State × Draft :=
  (x.picks.filter fun c => s.voidNow c.sec).foldl (fun (acc : State × Draft) c => match s.sec c.sec with
    | none => acc
    | some y =>
      let d : Choice := { sec := c.sec, char := y.table.recovery, plan := 3 }
      let p := acc.2.pointOfSec c.sec
      let fits := !c.shelved && ((s.candidates q c.sec p true).any fun k => k.id = y.table.recovery) &&
        s.inBudget q (acc.2.put d)
      if fits then (acc.1, acc.2.put d)
      else (((acc.1.updSec c.sec fun z => { z with recovery := true }).logEv evRecoveryDeferred 64 c.sec 0), acc.2)) (s, x)

/-! ### Calibration and allowance (R694-R696) -/

/-- k_f taken on by the ratio of the last watch, where the watch counts (R694). -/
def State.calibrate (s : State) (f : Nat) : State :=
  let y := s.planField f
  match mfind y.predicted (s.stationWatch - 1) with
  | none => s
  | some e =>
    if e ≤ 0 then s
    else
      let r : Rat := (s.gf F.pwrEnergyWatch_nj f : Rat) / 1000 / e
      let k := y.k + (r - y.k) / 64
      let k' : Rat := if k < 4 / 5 then 4 / 5 else if 5 / 4 < k then 5 / 4 else k
      let log := decide (k' ≠ k) && match y.limitAt with
        | some w => decide (w + 65536 ≤ s.stationWatch)
        | none => true
      let s := s.setPlanField f { y with k := k', updates := y.updates + 1, predicted := []
                                         limitAt := if log then some s.stationWatch else y.limitAt }
      if log then s.logEv evCalibrationLimit 64 f 0 else s

/-- H_f adjusted from the temperature latched (R696); frozen while the field holds. DEDUCED: the previous 8 rounds are the rounds n − 8
to n − 1 (log 111). -/
def State.adjustAllow (s : State) (f : Nat) : State :=
  let y := s.planField f
  let t := toSigned 12 (s.gf F.thmStatus_max_watch f)
  let lim := toSigned 12 (s.gf F.thmCfg_throttle f)
  let cut := (decide (lim ≤ t) && decide (8 ≤ y.sinceCut)) || decide (lim + 40 ≤ t)
  if (s.fld f).held then s
  else if cut then s.setPlanField f { y with allow := max 40 (y.allow * 9 / 10), sinceCut := 0 }
  else s.setPlanField f { y with
    allow := if t < lim - 40 then min 340 (y.allow + 2) else y.allow
    sinceCut := y.sinceCut + 1 }

/-- Whether the wafer is calibrated (R695). -/
def State.allCalibrated (s : State) : Bool :=
  s.sectors ≠ [] && (List.range 64).all fun f => (s.boundSectors f).isEmpty || decide (4096 ≤ (s.planField f).updates)

/-- `STN_PLAN_FIELD` of every field, and CALIBRATED. -/
def State.showPlan (s : State) : State :=
  let s := s.sf F.stnPlanStatus_calibrated 0 0 (b2n s.allCalibrated)
  s.each (List.range 64) fun s f =>
    let y := s.planField f
    ((s.sf F.stnPlanField_k 0 f (y.k * 1024).floor.toNat).sf F.stnPlanField_allow 0 f y.allow).sf F.stnPlanField_base 0 f
      (y.base * 10).floor.toNat

/-! ### Staging orders (R706, R707) -/

/-- A transfer ordered for watch `n` + L: its region FILLING, whatever was ordered into it before gone (R529). -/
def State.orderTransfer (s : State) (sec : Nat) (t : ImgTransfer) (base : Nat) : State :=
  let n := s.stationWatch
  let s := (s.sf F.fstRegionCfg_state t.field t.region 1).wr .fstRegionFill t.field t.region (BitVec.ofNat 64 (t.lines * 2 ^ 32))
  let lanes := match s.loadedBind with
    | some bt => bt.lanesOf t
    | none => t.lanes
  let o : Order := { plan := { t with source := t.source + base, lanes := lanes }, sector := sec, target := n + t.lead, begin_ := n + 1 }
  { s with orders := s.orders.filter (fun x => !(x.plan.field = t.field && x.plan.region = t.region)) ++ [o] }

/-- Whether a transfer is due to be ordered: its region EMPTY, FAILED for 1,024 watches, or holding data of a previous occupant
of the sector's slot. -/
def State.orderDue (s : State) (t : ImgTransfer) (base : Nat) : Bool :=
  let mine := s.orders.find? fun o => o.plan.field = t.field && o.plan.region = t.region
  match s.gf F.fstRegionCfg_state t.field t.region, mine with
  | 0, _ => true
  | 2, some o => o.plan.transfer = t.transfer && decide (o.plan.source ≠ t.source + base)
  | 3, some o => decide (o.failedAt + 1024 ≤ s.stationWatch)
  | 3, none => true
  | _, _ => false

/-- The orders of a round: the transfers of each sector's preferred character. -/
def State.orderAll (s : State) (q : Terms) (x : Draft) : State :=
  s.each x.picks fun s c =>
    let p := x.pointOfSec c.sec
    let base := ((s.residents c.sec).map fun e => (s.hslot c.sec e.1).base).foldl max 0
    match s.best q c.sec p (s.candidates q c.sec p false) with
    | none => s
    | some k => s.each ((k.transfers.filter (· ≠ 0xFFFF)).filterMap s.transfer) fun s t =>
      if s.orderDue t base then s.orderTransfer c.sec t base else s

/-! ### The round (R685, R712, R713) -/

/-- The levels a field takes at a point: the lens clock at 600 MHz where every character there has lens level 0 (R611, R700).
-/
def State.levelsAt (s : State) (f : Nat) (x : Point) (picks : List Choice) : Point :=
  let here := picks.filter fun c => !c.shelved && (s.holders c.sec).contains f && match s.sec c.sec with
    | some y => decide (c.char ≠ y.table.fallback)
    | none => false
  let dark (c : Choice) : Bool := match s.sec c.sec with
    | some y => match tableChar y.table c.char with
      | some k => decide ((charPoint y.table k).2 = 0)
      | none => false
    | none => false
  if here ≠ [] ∧ here.all dark = true then (x.1, 600) else x

/-- The draft published: selections for the watch two ahead, and every field's levels for it. -/
def State.publish (s : State) (x : Draft) : State :=
  let s := s.each x.picks fun s c =>
    let v := if c.shelved then 0 else match s.sec c.sec with
      | some y => ((tableChar y.table c.char).map (s.charValue c.sec)).getD 0
      | none => 0
    let cls := s.sectorClass c.sec
    s.updSec c.sec fun y => { y with
      after := { char := c.char, shelved := c.shelved, plan := c.plan, value := min 65535 v, cls := cls } }
  s.each (List.range 64) fun s f =>
    s.setFld f { s.fld f with afterLevel := some (s.levelsAt f (x.pointOf f) x.picks) }

/-- The tenants newly unservable logged, and the list kept (R699). -/
def State.noteUnservable (s : State) (q : Terms) (sec : Nat) : State :=
  match s.sec sec with
  | none => s
  | some y =>
    let now := (s.unservable q y sec).map (·.2)
    let s := s.each (now.filter fun t => !y.unservable.contains t) fun s t => s.logEv evDeadlineUnservable 64 sec t
    s.updSec sec fun y => { y with unservable := now }

/-- Whether the verdicts of the watch are in: every running field is past its commit point (R705). -/
def State.verdictsIn (s : State) : Bool :=
  (List.range 64).all fun f => let x := s.fld f
    x.held || s.boundSectors f = [] || decide (x.phase = .commit)

/-- The round of a watch (R685-R708). -/
def State.round (s : State) : State :=
  let n := s.stationWatch
  let q : Terms := { watch := n + 2, period := s.periodAt (n + 2), settle := s.settleAt (n + 2) }
  let s := (s.each (List.range 64) fun s f => (s.calibrate f).adjustAllow f).showPlan
  let s := s.each s.planned fun s k => s.noteUnservable q k
  let first := s.firstDraft q
  let w := s.walk q 4096 first
  let r := if s.inBudget q w then (w, 0) else s.brownout q w
  let prev := s.gf F.stnPlanStatus_stage
  let s := s.sf F.stnPlanStatus_stage 0 0 r.2
  let s := if r.2 ≠ prev then s.logEv evBrownout 64 64 r.2 else s
  let s := if r.2 = 5 ∧ prev ≠ 5 then s.logEv evCapUnreachable 64 64 0 else s
  let s := if r.2 ≠ 0 then s.bump .stnPlanCountBrownout 0 0 1 else s
  let (s, x) := s.recover q r.1
  let s := s.bump .stnPlanCountShelved 0 0 (x.picks.filter (·.shelved)).length
  let s := s.wr .stnPlanBudget 0 0 (BitVec.ofNat 64 ((s.waferBudget q).floor.toNat % 2 ^ 32))
  let s := s.wr .stnPlanPredict 0 0 (BitVec.ofNat 64 ((s.total q x + s.stationEnergy q).floor.toNat % 2 ^ 32))
  let s := (s.publish x).orderAll q x
  { s with planAt := some n }

/-- The slots and the tenants as they stood at the watch's snapshot instant (R685, R687). -/
def State.asAtSnapshot (s : State) : State :=
  match s.snapshot with
  | some (w, slots, tenants) => if w = s.stationWatch then { s with hostSlots := slots, tenants := tenants } else s
  | none => s

/-- PLANNING_ROUND (R685): the round of the current watch, `atNs` after its beacon, once its verdicts are in, at most once and
before HANDOVER, on demand, classes and residency as they stood at the snapshot. -/
def execPlanningRound (atNs : Nat) (s : State) : Host.Outcome State Fault Refusal :=
  .next (if s.flag F.bcnStatus_running = false ∨ s.planAt = some s.stationWatch ∨ s.verdictsIn = false then s
    else
      let r := (s.asAtSnapshot.advanceTo (s.lastBeacon + atNs)).round
      { r with hostSlots := s.hostSlots, tenants := s.tenants })

/-! ### Substitution (R626, R627, R711) -/

/-- A selection repeated from the watch before (R711, R842). -/
def repeated (x : Selection) : Selection := { x with plan := 6, why := 0 }

/-- A round not delivered by HANDOVER: every selection is repeated and the round counted late (R711). -/
def State.lateRound (s : State) : State :=
  let s := s.each (s.sectors.map (·.1)) fun s k => s.updSec k fun y => { y with after := repeated y.next }
  let s := s.each (List.range 64) fun s f =>
    let x := s.fld f
    s.setFld f { x with afterLevel := x.nextLevel.orElse fun _ => some (x.mhz, x.lensMhz) }
  let s := (s.hset F.stnPlanStatus_late 0 0).bump .stnPlanCountLate 0 0 1
  ({ s with planAt := some s.stationWatch } : State).logEv evPlanLate 64 64 0

/-- The fallback of a sector as a substitute. -/
def SectorSt.substitute (y : SectorSt) (x : Selection) (why : Nat) : Selection :=
  { x with char := y.table.fallback, shelved := false, why := why }

/-- The checks of R627 on a sector's selection for the watch two ahead: runnable, compatible with its field's levels,
admissible. -/
def State.checkSelection (s : State) (f sec : Nat) : State :=
  match s.sec sec with
  | none => s
  | some y =>
    if y.after.shelved = true ∨ y.after.char = y.table.fallback then s
    else match tableChar y.table y.after.char with
      | none => s
      | some c =>
        let w := s.stationWatch + 2
        let p := charPoint y.table c
        let level := ((s.fld f).afterLevel).getD ((s.fld f).mhz, (s.fld f).lensMhz)
        let fits := decide (p.1 = level.1) && (decide (p.2 = 0) || decide (p.2 = level.2))
        if runnable c p.1 (s.periodAt w) (s.settleAt w) = true ∧ fits = true ∧ s.admissible sec c = true then s
        else (s.setSec sec { y with after := y.substitute y.after 3 }).logEv evCharacterReplaced f sec y.after.char

/-- The domain point under which holdover runs a selection (R626): the highest candidate point that every character selected is
compatible with, else the home point. -/
def State.holdoverPoint (s : State) (d : Domain) (pick : SectorSt → Selection) : Point :=
  let fits (x : Point) : Bool := d.secs.all fun k => match s.sec k with
    | some y => (pick y).shelved || match tableChar y.table (pick y).char with
      | some c => compatWith y.table c x
      | none => true
    | none => true
  ((s.domainPoints d.fields d.secs).find? fits).getD homePoint

/-- Holdover's limits applied to the selections of one watch not yet in force: `pick` reads a sector's selection, `put` replaces
it, `level` sets a field's levels. -/
def State.holdoverWatch (s : State) (pick : SectorSt → Selection) (put : SectorSt → Selection → SectorSt)
    (level : FieldSt → Point → FieldSt) : State :=
  let secs := s.planned
  s.each (s.domainSets secs) fun s fs =>
    let d : Domain := { fields := fs, secs := secs.filter fun k => (s.holders k).any fs.contains, pts := [] }
    let x := s.holdoverPoint d pick
    let s := s.each d.secs fun s k => s.updSec k fun y => match tableChar y.table (pick y).char with
      | some c => if (pick y).shelved = true ∨ compatWith y.table c x = true then y else put y (y.substitute (pick y) 2)
      | none => y
    let picks := d.secs.filterMap fun k => (s.sec k).map fun y =>
      ({ sec := k, char := (pick y).char, shelved := (pick y).shelved } : Choice)
    s.each fs fun s f => s.setFld f (level (s.fld f) (s.levelsAt f x picks))

/-- The limits of holdover applied to every selection not yet in force (R626). -/
def State.holdoverLimits (s : State) : State :=
  let s := s.holdoverWatch (·.next) (fun y x => { y with next := x }) fun x p => { x with nextLevel := some p }
  if s.planAt = some s.stationWatch then
    s.holdoverWatch (·.after) (fun y x => { y with after := x }) fun x p => { x with afterLevel := some p }
  else s

end Sys2Proof.Machine
end

