-- ==== Sys2Proof/Machine/Beacon.lean ====
section
/-! DEFINITION. The beacon and the watch: the station beacon, the phases of a field's watch, verdicts, coasting and holding
(spec/02_beacon_and_watch.md; INTAKE: spec/03_tiles_and_thread_groups.md R138; HANDOVER: spec/07_mesh_and_routing.md R368-R371,
spec/15_power_delivery_gates_and_droop.md R644-R668, spec/21_faults_hangs_and_recovery.md R839-R842). -/

namespace Sys2Proof.Machine

/-! ### Which sectors run -/

/-- The sectors with tiles in a field that begin a watch there: begun, neither quiesced nor draining (R319). -/
def State.starting (s : State) (f : Nat) : List (Nat × SectorSt) :=
  (s.sectorsIn f).filterMap fun k => match s.sec k with
    | some y => if s.begunIn f y = true ∧ s.isQuiesced f k = false ∧ s.isDraining f k = false then some (k, y) else none
    | none => none

/-- The sectors that run in a field in the current watch, those whose drain began in it among them; a shelved sector runs
none (R704). -/
def State.running (s : State) (f : Nat) : List Nat :=
  (s.sectorsIn f).filter fun k => match s.sec k with
    | some y => s.begunIn f y && !(s.selIn f y).shelved &&
        (!(s.isQuiesced f k || s.isDraining f k) || (s.fld f).voids.any (·.1 = k))
    | none => false

/-- Whether a sector holds bays in several fields. -/
def State.multiField (s : State) (k : Nat) : Bool := decide (1 < (s.holders k).length)

/-! ### The heartbeat of a Field Keeper (R841, R842) -/

/-- A Field Keeper restarts (R842), on its pair or on the standby core. -/
def State.restartKeeper (s : State) (f : Nat) (standby : Bool) : State :=
  let s := (s.sf F.fkpStatus_restarting f 0 1).sf F.fkpHeartbeat_restarts f 0 (min 255 (s.gf F.fkpHeartbeat_restarts f + 1))
  let s := if standby then s.sf F.fkpStatus_standby f 0 1 else s
  { s with restartAt := mput s.restartAt f (s.now + 20000000) }

/-- The comparison made at each beacon (R841). -/
def State.checkHeartbeat (s : State) (f : Nat) : State :=
  let x := s.fld f
  if x.held = true ∨ x.fogged = true ∨ s.flag F.fkpStatus_resetting f = true ∨ s.flag F.fkpStatus_restarting f = true then s
  else if s.gf F.fkpHeartbeat_watch f = x.watch % 65536 then s.sf F.fkpHeartbeat_missed f 0 0
  else
    let s := s.sf F.fkpHeartbeat_missed f 0 (min 255 (s.gf F.fkpHeartbeat_missed f + 1))
    let s := (s.bump .fkpCountMiss f 0 1).logEv evHeartbeatMissed f f (s.gf F.fkpHeartbeat_watch f)
    let again := match mfind s.restarted f with
      | some w => decide (x.watch < w + 65536)
      | none => false
    if again then s.fogField f (evCode evHeartbeatMissed) false else s.restartKeeper f false

/-! ### INTAKE -/

/-- The group mask of a tile for a character (R616). -/
def State.charMask (s : State) (y : SectorSt) (k t : Nat) : Nat :=
  let l := match s.loadedBind with
    | some bt => (bt.logicalOf t).getD t
    | none => t
  match y.table.tiles.find? (·.1 = l) with
  | some e => e.2.getD k 0
  | none => 0

/-- The offset of a group's entry point for a character (R617). -/
def entryOff (k g : Nat) : Nat := (k * 8 + g) * 2

/-- The entry point of a group for a character (R617). -/
def State.entryPoint (s : State) (t k g : Nat) : Nat :=
  (s.sramByte t (entryOff k g)).toNat + (s.sramByte t (entryOff k g + 1)).toNat * 256

/-- A running group's entry point has been read (R177); an uncorrectable word of the table traps the group (DESIGN CHOICE,
assumption 94). -/
def State.readEntry (s : State) (t k g : Nat) : State :=
  let a := entryOff k g / 4 * 4
  let s := s.readEcc t [a]
  if (s.sramWord t a).bad then s.trap t g 0 0x0B (s.grp t g).pc (globalOf t a) else s

/-- A group at INTAKE cycle 0 (R138, R178, R198, R237, R248, R319, R404, R547, R878, R879): `mask` is the tile's group mask, `char`
the character's id, `void` whether the sector was void in the watch before. A group held TRAPPED keeps its stacks, one held HALTED
its reconvergence stack; in a quiesced sector none is held. -/
def State.intakeGroup (s : State) (t g mask char : Nat) (void : Bool) : State :=
  let x := s.grp t g
  let w := (s.fld (fieldOf t)).watch
  let trapped := decide (x.st = .trapped) && s.flag F.tgpCtl_hold_on_trap t g && !x.released
  let keeps := (trapped || (decide (x.st = .halted) && !x.released)) && !s.isQuiesced (fieldOf t) (s.sectorOf t)
  let view := (s.til t).view
  let marks := x.marks.map fun (e : Nat × Marker) => (e.1, match viewMark view e.2 with
    | .tag _ => Marker.dead
    | m => m)
  let runs := mask.testBit g
  let u := mput (mput x.u 15 (BitVec.ofNat 32 w)) 14 (BitVec.ofNat 32 (char % 8 + (if void then 256 else 0)))
  let x : Group := { x with
    u := u, marks := marks, amask := 0xFF, aMark := .none, ctl := .none, latch := .empty, latchAt := 0, watchSent := false
    lastRetire := 511, ended := false, ready := [], loading := [], rstOut := [], opsOut := 0, sendsOut := 0
    skipBreak := false, released := false, waitFrom := 0, haltedAt := 0 }
  if keeps then s.setGrp t g (if trapped then x else { x with nest := [] })
  else
    let s := if s.gf F.tgpTrap_cause t g = 0 then s else s.sf F.tgpTrap_cause t g 0
    let s := s.setGrp t g { x with
      st := if runs then .running else .inactive, pc := if runs then s.entryPoint t char g else x.pc
      stack := if runs = true ∨ x.st = .trapped then [] else x.stack, nest := [], stepPending := false }
    let s := if runs then s.readEntry t char g else s
    if runs = true ∧ s.flag F.tgpCtl_halt t g = true then s.haltGroup t g 1 else s

/-- A tile at INTAKE cycle 0 (R138, R165, R171, R281, R308): `sel` is its sector's selection where the sector starts a watch,
`whole` that the sector was complete in the watch before. -/
def State.intakeTile (s : State) (t : Nat) (sel : Option (SectorSt × Nat)) (void whole : Bool) : State :=
  let y := s.til t
  let mask := match sel with
    | some (z, k) => s.charMask z k t
    | none => 0
  let char := match sel with
    | some (_, k) => k
    | none => 0
  let s := s.intakeSlots t whole
  let s : State := { s with rules := s.rules.filter fun (e : (Nat × Nat) × RuleSt) => e.1.1 ≠ t }
  let s := if s.gf F.tilRole_role t = 1 then s.each (List.range 8) fun s g => s.intakeGroup t g mask char void else s
  let tags := y.tags.map fun (e : Nat × RTag) =>
    (e.1, if e.2.taken then ({ gen := !e.2.gen } : RTag) else { e.2 with freeFrom := 0 })
  let window (r : SvcReq) : Bool := match r with | .window _ => true | _ => false
  s.setTil t { tags := tags, active := mask, svc := y.svc.filter window, faultWatches := y.faultWatches, escalated := y.escalated }

/-- A single-field sector of a field whose rail is late runs its fallback where its selection names another point (R647). -/
def State.railSubstitute (s : State) (f : Nat) : State :=
  let x := s.fld f
  s.each ((s.starting f).filter fun e => !s.multiField e.1) fun s e => match tableChar e.2.table (s.selIn f e.2).char with
    | some c =>
      let p := charPoint e.2.table c
      if (s.selIn f e.2).shelved = true ∨ c.id = e.2.table.fallback ∨ (p.1 = x.mhz ∧ (p.2 = 0 ∨ p.2 = x.lensMhz)) then s
      else s.setSec e.1 (s.putSel f e.2 (e.2.substitute (s.selIn f e.2) 3))
    | none => s

/-- What a field has sent over its tag bus in a watch that is over is discarded (R560). -/
def State.endTagOps (s : State) (f : Nat) : State := { s with tagMsgs := s.tagMsgs.filter fun m => m.from_ ≠ f }

/-- INTAKE of a field whose watch has just begun: tiles, buoys, lenses, MV engine, staged regions, batches, tags. -/
def State.intake (s : State) (f : Nat) : State :=
  let x := s.fld f
  let s := if x.railLate then s.railSubstitute f else s
  let on := s.starting f
  let s : State := { s with sectorTags := s.sectorTags.filter fun (e : (Nat × Nat) × TagState) => s.homeOf e.1.1 ≠ f }
  let s := s.each (s.liveTiles f) fun s t =>
    let k := s.sectorOf t
    let sel := (on.find? (·.1 = k)).bind fun e =>
      let c := s.selIn f e.2
      if c.shelved then none else some (e.2, c.char)
    s.intakeTile t sel (x.prevVoid.contains k) (decide (k ≠ 0xFFF) && !x.overrun.contains k)
  let s := s.setFld f { s.fld f with overrun := [] }
  let s := (s.intakeBlock f).endTagOps f
  let s := s.each (List.range 4) fun s l => s.intakeLens (f * 4 + l)
  let m := s.mv f
  let s := if m = {} then s else s.setMv f { m with nextSeq := 0, free := 0 }
  let s := s.each (List.range 36) fun s k => if s.gf F.pwrStretchLive_count f k = 0 then s else s.sf F.pwrStretchLive_count f k 0
  let s := s.intakeStaging f x.watch s.lastBeacon
  let s := s.each (on.filter fun e => !(s.selIn f e.2).shelved) fun s e =>
    match ((s.holders e.1).flatMap fun g => s.lateFor g e.1 x.watch s.lastBeacon).getLast? with
    | some o => s.stageLate f e.1 o
    | none => s
  s.each (on.filter fun e => s.homeOf e.1 = f) fun s e => s.each (s.slotsOfSector e.1) fun s i =>
    (s.openBatch e.1 i x.watch).deliver e.1 i

/-- A drain still under way when a watch ends is over once the queues are emptied (R318). -/
def State.closeDrains (s : State) (f : Nat) : State :=
  s.each ((s.fld f).draining.map (·.1)) fun s k =>
    let s := s.each (s.sectorTiles f k) State.flushTile
    if s.sectorEmpty f k then s.endDrain f k else s

/-- A field begins watch `w` at instant `t` (R84-R87, R90): levels, N, S; then INTAKE. A watch that coasts has no station word: N and
the beacon expected next go by the period the field latched last, even where `BCN_PERIOD` changed at the very beacon it missed,
while S is the station register's (DESIGN CHOICE, assumption 100). -/
def State.beginWatch (s : State) (f w t : Nat) (coast : Bool) : State :=
  let s := s.closeDrains f
  let x := s.fld f
  let now : Point := if x.mhz = 0 then homePoint else (x.mhz, x.lensMhz)
  let level := if x.railLate then now else x.nextLevel.getD now
  let period := if coast then x.stnPeriod else s.gf F.bcnPeriod_period
  let s := s.setFld f { x with
    watch := w, phase := .intake, startAt := t, nCycles := watchCycles period level.1, settleLen := s.gf F.bcnSettleLen_len
    mhz := level.1, lensMhz := level.2, nextLevel := x.afterLevel, afterLevel := none
    coast := coast, expectAt := some ((if coast then x.expectAt.getD t else t) + period)
    voids := [], prevVoid := x.voids.map (·.1), votes := [], votesSent := [], swept := [], overdraft := []
    fenceLogged := false
    stnWatch := if coast then x.stnWatch else s.stationWatch
    stnPeriod := period
    stnCap := if coast then x.stnCap else s.gf F.pwrCap_cap }
  s.intake f

/-- Whether a field runs and waits for a beacon. -/
def State.awaitsBeacon (s : State) (f : Nat) : Bool :=
  !s.fieldDown f && (s.gf F.stnStartupFields_running).testBit f &&
    match (s.fld f).phase with
    | .idle | .rest => true
    | _ => false

/-- The earliest and latest instant at which fields have begun the station's watch, with instant `t` among them (R82). -/
def State.spanWith (s : State) (t : Nat) : Nat × Nat :=
  match s.watchSpan with
  | some (w, lo, hi) => if w = s.stationWatch then (min lo t, max hi t) else (t, t)
  | none => (t, t)

/-- Whether a field may begin the station's watch at instant `t`: all begin it within ±20 ns of one instant (R82). -/
def State.inSkew (s : State) (t : Nat) : Bool := decide ((s.spanWith t).2 ≤ (s.spanWith t).1 + 40)

/-- The instant noted at which a field has begun the station's watch. -/
def State.noteSpan (s : State) (t : Nat) : State := { s with watchSpan := some (s.stationWatch, s.spanWith t) }

/-- FIELD_WATCH_BEGIN (R82, R84, R118, R122): the beacon's copy comes out of the tree at a field at instant `at_`, and the field
delays it by `BCN_SKEW_COMP`. A beacon outside E ± 32 ns is ignored; the miss is BEACON_MISSED. An instant more than 40 ns from
another field's is none that the compensated tree can give (R82). -/
def execFieldWatchBegin (f at_ : Nat) (s : State) : Host.Outcome State Fault Refusal :=
  onField f (
    let x := s.fld f
    let t := at_ + s.gf F.bcnSkewComp_comp f
    if s.awaitsBeacon f = false ∨ s.inSkew t = false then s
    else match x.expectAt with
      | none =>
        if s.flag F.bcnStatus_running then ((s.advanceTo t).noteSpan t).beginWatch f s.stationWatch t false else s
      | some e =>
        if 32 < dist t e ∨ s.stationWatch ≤ x.watch then s
        else
          let s := ((s.advanceTo t).noteSpan t).checkHeartbeat f
          if (s.fld f).held then s else s.beginWatch f (x.watch + 1) t false)

/-- BEACON_MISSED (R118-R121): no beacon by E + 32 ns. The first miss coasts; one in the watch after a coasted watch holds and
fogs the field. -/
def execBeaconMissed (f : Nat) (s : State) : Host.Outcome State Fault Refusal :=
  onField f (
    let x := s.fld f
    match x.expectAt with
    | none => s
    | some e =>
      if s.awaitsBeacon f = false then s
      else
        let s := s.advanceTo (e + 32)
        let s := (s.hset F.bcnMiss_missed f 0).sf F.bcnMiss_count f 0 (min 65535 (s.gf F.bcnMiss_count f + 1))
        if x.coast then
          let s := s.logEv evBeaconLost f f 0
          (s.setFld f { s.fld f with held := true }).fogField f (evCode evBeaconLost) false
        else
          (s.logEv evBeaconMissed f f 0).beginWatch f (x.watch + 1) (e + 32) true)

/-! ### The station beacon (R81, R84) -/

/-- The void run of a sector for the watch that ends (R637). -/
def State.countVoids (s : State) (k : Nat) : State :=
  match s.sec k with
  | none => s
  | some y =>
    let fs := s.holders k
    let rs := fs.flatMap fun f => ((s.fld f).voids.filter (·.1 = k)).map (·.2)
    let breaks := fs.any (fun f => (s.fld f).held) || rs.any fun r => decide (r = .coastVoid) || decide (r = .held)
    let n := if breaks then 0 else if rs = [] then 0 else y.voidRun + 1
    let s := s.setSec k { y with voidRun := n }
    if n = 16 then (s.logEv evContractBreach 64 k 0).dueDrain k else s

/-- What a watch leaves on record for each sector and field at its end (R638, R694). -/
def State.closeWatch (s : State) : State :=
  let n := s.stationWatch
  let ran := (s.sectors.map (·.1)).filter fun k => match s.sec k with
    | some y => s.sectorBegun y && (s.holders k).any fun f => (s.running f).contains k
    | none => false
  let s := s.each ran fun s k => (s.updSec k fun y => { y with
    runs := mput y.runs y.now.char (satAdd32 (mget 0 y.runs y.now.char) 1)
    recovery := y.recovery && decide (y.now.char ≠ y.table.recovery) }).countVoids k
  let picks := s.sectors.filterMap fun (e : Nat × SectorSt) =>
    if s.sectorBegun e.2 then some ({ sec := e.1, char := e.2.now.char, shelved := e.2.now.shelved } : Choice) else none
  s.each (List.range 64) fun s f =>
    let x := s.fld f
    let y := s.planField f
    let counts := x.watch = n ∧ x.coast = false ∧ x.held = false ∧ x.railLate = false ∧
      s.flag F.pwrStatus_meter_suspect f = false ∧ (picks.any fun c => (s.sectorsIn f).contains c.sec) = true
    if counts then
      s.setPlanField f { y with predicted := [(n, s.unscaled f (x.mhz, x.lensMhz) picks x.stnPeriod x.settleLen)] }
    else if y.predicted = [] then s else s.setPlanField f { y with predicted := [] }

/-- The periods that fall due at the beacon that begins watch `w`: one written into `BCN_PERIOD` (R116), then one set by SET_PERIOD,
which prevails where both fall due (R112-R115; DESIGN CHOICE, assumption 76). -/
def State.takePeriod (s : State) (w : Nat) : State :=
  let due := s.periodWrites.filter fun d => d.2 ≤ w
  let s := s.each due fun s d => s.sf F.bcnPeriod_period 0 0 d.1
  let s : State := if due = [] then s else { s with periodWrites := s.periodWrites.filter fun d => w < d.2 }
  match s.periodDue with
  | none => s
  | some (p, e) =>
    if w < e then s
    else
      let s := s.sf F.bcnPeriod_period 0 0 p
      let s : State := { s with periodDue := s.periodHeld.map fun q => (q, w + 2), periodHeld := none }
      let s := s.wr .bcnPeriodNext 0 0 (BitVec.ofNat 64 (match s.periodDue with | some (q, _) => 2 ^ 31 + q | none => 0))
      s.sf F.bcnStatus_period_pending 0 0 (b2n s.periodDue.isSome)

/-- The SETTLE lengths that fall due, each at the second beacon after its own write (R89). -/
def State.takeSettle (s : State) (w : Nat) : State :=
  let due := s.settleDue.filter fun d => d.2 ≤ w
  let s := s.each due fun s d => s.sf F.bcnSettleLen_len 0 0 d.1
  if due = [] then s else { s with settleDue := s.settleDue.filter fun d => w < d.2 }

/-- STOP takes effect at the end of its watch (R117, R599): no sector of the loaded image runs. -/
def State.stopDue (s : State) (n : Nat) : State :=
  match s.stopAt with
  | some w =>
    if w ≤ n then
      let s : State := { s.sf F.stnImageLoaded_state 0 0 2 with stopAt := none }
      s.finishOp (.stop w) mbOk [w % 2 ^ 32]
    else s
  | none => s

/-- The sectors' selections moved on by one watch, late transfers substituted (R531, R620). -/
def State.shiftSelections (s : State) (w : Nat) : State :=
  let s := s.each (s.sectors.map (·.1)) fun s k => s.updSec k fun y => { y with now := y.next, next := y.after }
  s.each (s.sectors.map (·.1)) fun s k => match s.sec k with
    | none => s
    | some y =>
      let late := (s.holders k).any fun f => s.lateFor f k w s.now ≠ []
      if late = true ∧ y.now.shelved = false ∧ s.sectorBegun y = true then
        s.setSec k { y with now := y.substitute y.now 1 } else s

/-- A step of start-up completes; STEP shows the lowest that has not (R750). -/
def State.stepDone (s : State) (n : Nat) : State :=
  let s : State := { s with stepsDone := n :: s.stepsDone }
  s.sf F.stnStartup_step 0 0 (((List.range 8).find? fun k => !s.stepsDone.contains k).getD 8)

/-- Step BEACON of start-up completes when 16 empty watches have ended (R769). -/
def State.beaconStep (s : State) : State :=
  if s.stepsDone.contains 5 = true ∧ s.beaconStepDone = false ∧ 16 ≤ s.stationWatch then s.stepDone 6 else s

/-- STATION_BEACON (R81, R84): one period after the last, the next watch begins at the station. -/
def execStationBeacon (s : State) : Host.Outcome State Fault Refusal :=
  .next (if s.flag F.bcnStatus_running = false then s
    else
      let n := s.stationWatch
      let s := s.advanceTo (s.lastBeacon + s.gf F.bcnPeriod_period)
      let s := (s.closeWatch).stopDue n
      let s : State := { s.sf F.bcnWatch_watch 0 0 (n + 1) with lastBeacon := s.lastBeacon + s.gf F.bcnPeriod_period }
      ((((s.takePeriod (n + 1)).takeSettle (n + 1)).intakeBlock 64).shiftSelections (n + 1)).beaconStep)

/-! ### WORK and SETTLE -/

/-- WORK_BEGIN (R87, R139, R315): watch cycle 512. Drains due begin. -/
def execWorkBegin (f : Nat) (s : State) : Host.Outcome State Fault Refusal :=
  onField f (
    let x := s.fld f
    if x.phase ≠ .intake ∨ x.held = true then s
    else
      let s := s.advanceTo (cycleInstant x 512)
      let due := (x.drainDue.filter fun e => e.2 ≤ x.watch).map (·.1)
      let s := s.setFld f { s.fld f with phase := .work, drainDue := x.drainDue.filter fun e => x.watch < e.2 }
      s.each (due.filter fun k => (s.sectorsIn f).contains k) fun s k => s.startDrain f k)

/-- Whether a tile has retired its end-of-work (R96): one with no group in the character's mask has none to wait for, but a group held
TRAPPED (R175). -/
def State.tileComplete (s : State) (t : Nat) : Bool :=
  let y := s.til t
  decide (s.gf F.tilRole_role t ≠ 1) || y.eow ||
    (decide (y.active = 0) && !y.withhold && !((List.range 8).any fun g => (s.grp t g).st = .trapped))

/-- The channel queues of a sector's tiles in a field flushed (R106, R277), the waits of its steering rules ended. -/
def State.flushSector (s : State) (f k : Nat) : State :=
  s.each (s.sectorTiles f k) fun s t =>
    (s.countStalls t (s.cycle f)).each (s.slotsOf t) fun s j => s.flushWithAbort t j

/-- SETTLE_BEGIN (R95-R99, R106, R120, R277, R314, R448, R524): the verdicts of a field at SETTLE cycle 0. -/
def execSettleBegin (f : Nat) (s : State) : Host.Outcome State Fault Refusal :=
  onField f (
    let x := s.fld f
    if x.phase ≠ .work ∨ x.held = true then s
    else
      let s := s.advanceTo (cycleInstant x (settleStart x))
      let s := s.each (s.liveTiles f) fun s t => s.closeWork t (settleStart x)
      let on := s.running f
      let bad := on.filter fun k => x.voids.any (·.1 = k) || !(s.sectorTiles f k).all s.tileComplete
      let flushed := on.filter fun k => bad.contains k || (x.coast && s.multiField k)
      let votes := (on.filter s.multiField).map fun k => (k, !bad.contains k && !x.coast && !x.railLate)
      let s := s.setFld f { s.fld f with phase := .settle, overrun := bad, votesSent := votes }
      let s := s.each (List.range 4) fun s l => s.abandonLens (f * 4 + l) fun _ => true
      let s := s.abandonMv f fun _ => true
      let s := s.each bad fun s k => s.each (s.sectorTiles f k) State.haltGroups
      s.each flushed fun s k => s.flushSector f k)

/-- VERDICT_VOTE (R99, R125): a field's vote for a multi-field sector reaches another field; one that cannot be decoded counts as
overrun. -/
def execVerdictVote (to_ from_ sector : Nat) (readable : Bool) (s : State) : Host.Outcome State Fault Refusal :=
  if 64 ≤ from_ then .fault .noSuchUnit
  else onField to_ (
    let x := s.fld to_
    match (s.fld from_).votesSent.find? (·.1 = sector) with
    | none => s
    | some (_, complete) =>
      if x.held = true ∨ (s.fld from_).watch ≠ x.watch ∨ x.votes.any (fun v => v.1 = sector && v.2.1 = from_) = true then s
      else
        let s := s.setFld to_ { x with votes := x.votes ++ [(sector, from_, complete && readable)] }
        if readable then s else (s.hset F.bcnStatus_verdict_fault 0 0).logEv evVerdictFault to_ to_ (detail2 sector from_))

/-- Whether a sector's drain is complete in a field at its commit point (R98, R513, R534). -/
def State.drained (s : State) (f k : Nat) : Bool :=
  !(s.packets.any fun p => decide (p.ty = .item) && decide (p.sector = k) && decide (fieldOf p.at_ = f)) &&
    (s.sectorTiles f k).all (fun t => (s.til t).shadow = []) &&
    !((baysOf f).any fun b => (mget [] s.bayQueues b).any fun p => decide (p.ty = .rstore) && decide (p.sector = k)) &&
    s.destagesDone f k

/-- Whether the home field's sweep has reached a field for a sector (R566, R824): without it, no tag of the sector counts as
COMMITTED there unless its tiles saw it so. -/
def State.sweptFor (s : State) (f k : Nat) : Bool :=
  let h := s.homeOf k
  decide (h = f) || (decide ((s.fld h).watch = (s.fld f).watch) && (s.fld h).swept.contains k)

/-- R824: every tag that the tiles of a field do not see as COMMITTED is SQUASHED there. -/
def State.localSweep (s : State) (f k : Nat) : State :=
  let s := s.hset F.sptStatus_swept f 0
  s.each (s.sectorTiles f k) fun s t => s.each (List.range 16) fun s tag =>
    match mget .free (s.til t).view tag with
    | .committed | .squashed => s
    | _ => s.squashAt t tag

/-- The verdict of a field for a sector at its commit point (R98, R100, R131). -/
def State.verdict (s : State) (f k : Nat) : VoidReason :=
  let x := s.fld f
  let votesIn := (s.holders k).all fun g => decide (g = f) || x.votes.any fun v => v.1 = k && v.2.1 = g && v.2.2
  let own := (x.votesSent.filter (·.1 = k)).all (·.2)
  if x.held then .held
  else if x.coast = true ∧ s.multiField k = true then .coastVoid
  else if x.overrun.contains k then .workOverrun
  else if s.drained f k = false then .settleSlip
  else if s.multiField k = true ∧ (votesIn = false ∨ own = false ∨ s.sweptFor f k = false) then .peerVoid
  else .none

/-- Code of a void reason (R131). -/
def VoidReason.code : VoidReason → Nat
  | .none => 0 | .workOverrun => 1 | .settleSlip => 2 | .peerVoid => 3 | .coastVoid => 4 | .held => 5

/-- A journal entry at a field's commit point (R512): committed where its sector is good, freed where it is void. -/
def settleEntry (f : Nat) (good : List Nat) (e : JEntry) : Option JEntry :=
  if e.field ≠ f ∨ e.committed = true then some e
  else if e.sector ∈ good then some { e with committed := true }
  else none

/-- The void sectors of watch `w` recorded in a field: events, count, and the lowest sector with its reason (R109, R131). -/
def State.recordVoids (s : State) (f w : Nat) (void : List (Nat × VoidReason)) : State :=
  let s := s.each void fun s v => s.logEv evSectorVoid f v.1 v.2.code
  let s := s.bump .bcnOverrunCount f 0 void.length
  match void with
  | [] => s
  | v :: _ => s.wr .bcnOverrunLast f 0 (BitVec.ofNat 64 (v.2.code * 2 ^ 28 + v.1 * 2 ^ 16 + w % 65536))

/-- The watch whose voids a held field records next. -/
def State.heldWatch (s : State) (f : Nat) : Nat :=
  match (s.fld f).verdictWatch with
  | some w => w + 1
  | none => if (s.fld f).phase = .idle then s.stationWatch else (s.fld f).watch

/-- A watch passes while a field is held, or is cut short by it: each sector with bays in the field that runs a character is void
with reason HELD, and nothing of it commits (R109, R121, R131, R741). -/
def State.heldCommit (s : State) (f : Nat) : State :=
  let w := s.heldWatch f
  if max s.stationWatch (s.fld f).watch < w then s
  else
    let on := ((s.sectors.map (·.1)).filter fun k => (s.holders k).contains f && match s.sec k with
      | some y => s.imageStarted && decide (y.from_ ≤ w) && !(s.selIn f y).shelved && (y.health = 0 || y.health = 2) &&
          !s.isQuiesced f k
      | none => false).mergeSort (· ≤ ·)
    let void := on.map fun k => (k, VoidReason.held)
    let s := s.setFld f { s.fld f with voids := void, heldVoid := some w }
    { s.recordVoids f w void with journal := s.journal.filterMap (settleEntry f []) }

/-- COMMIT_POINT (R95, R98, R106, R109, R131, R512, R533, R798, R824): what is not void commits; the queues of a sector found void
only now are flushed. A held field records its void sectors. -/
def execCommitPoint (f : Nat) (s : State) : Host.Outcome State Fault Refusal :=
  onField f (
    let x := s.fld f
    if x.held then s.heldCommit f
    else if x.phase ≠ .settle then s
    else
      let s := s.advanceTo (cycleInstant x (settleStart x + x.settleLen - 512))
      let on := (s.running f).mergeSort (· ≤ ·)
      let s := s.each (on.filter fun k => s.multiField k && !s.sweptFor f k) fun s k => s.localSweep f k
      let vs := on.map fun k => (k, s.verdict f k)
      let void := vs.filter fun v => v.2 ≠ .none
      let good := (vs.filter fun v => v.2 = .none).map (·.1)
      let s := (s.setFld f { s.fld f with phase := .commit, voids := void }).recordVoids f x.watch void
      let late := (void.map (·.1)).filter fun k => !(x.overrun.contains k || (x.coast && s.multiField k))
      let s := s.each late fun s k => s.flushSector f k
      let s : State := { s with journal := s.journal.filterMap (settleEntry f good) }
      let s := (s.each good fun s k => s.releaseDestages f k).dropFailedDestages f
      s.each (good.filter fun k => s.homeOf k = f) fun s k => s.each (s.slotsOfSector k) fun s i => s.readOutbox k i x.watch)

/-! ### HANDOVER -/

/-- The epoch flip of a sector due at HANDOVER cycle 0 (R368), and one that does not end, logged once for its group (R371). -/
def State.epochHandover (s : State) (f k : Nat) : State :=
  let w := (s.fld f).watch
  if s.flag F.mshEpoch_armed f k = true ∧ mfind (s.fld f).armed k = some (w % 65536) then
    let old := s.gf F.mshEpoch_current f k
    let n := (s.packets.filter fun p => decide (p.st = .flying) && decide (fieldOf p.at_ = f) && !p.wafer &&
      s.epochMates f k p.sector && decide (b2n p.epoch = old)).length
    let s := (s.sf F.mshEpoch_current f k (1 - old)).sf F.mshEpoch_armed f k 0
    let s := s.setFld f { s.fld f with armed := mdel (s.fld f).armed k }
    let s := (s.sf F.mshOldEpochCount_count f k n).sf F.mshEpoch_flipping f k (if n = 0 then 0 else 1)
    s.sf F.mshEpoch_last_flip f k w
  else if s.flag F.mshEpoch_flipping f k = true ∧ (s.epochGroup f k).all (k ≤ ·) = true ∧ (s.gf F.mshEpoch_last_flip f k + 4) % 65536 = w % 65536 then
    s.logEv evEpochStuck f k (s.gf F.mshOldEpochCount_count f k)
  else s

/-- The meters, ledgers and counters latched at cycle N − 256 (R104, R456, R649, R663, R664, R693, R884). -/
def State.latchTelemetry (s : State) (f nanojoules : Nat) : State :=
  let x := s.fld f
  let s := s.wr .pwrEnergyWatch f 0 (BitVec.ofNat 64 (min nanojoules 0xFFFFFFFF))
  let s := s.setFld f { x with energy := x.energy + nanojoules }
  let s := s.wr .pwrEnergyTotal f 0 (BitVec.ofNat 64 ((x.energy + nanojoules) / 1000))
  let s := s.each (List.range 36) fun s k =>
    let n := s.gf F.pwrStretchLive_count f k
    if s.gf F.pwrStretchLedger_count f k = n then s else s.sf F.pwrStretchLedger_count f k n
  let s := s.each (List.range 4) fun s l => s.wr .lnsStretchLedger (f * 4 + l) 0 (BitVec.ofNat 64 (s.lens (f * 4 + l)).stretch)
  let hot := s.hottest f
  let s := s.sf F.thmStatus_max_watch f 0 (ofSigned 12 hot)
  let s := s.sf F.thmStatus_throttle f 0 (b2n (decide (toSigned 12 (s.gf F.thmCfg_throttle f) ≤ hot)))
  let t := s.gf F.dbgSampleCfg_tile f
  let counters : List Reg := [.tilCountIssue, .tilCountIdle, .tilCountTagStall, .tilCountCacheHit, .tilCountCacheMiss,
    .tilCountReleaseLate, .tilCountStaleDiscard, .tilCountEccCorr]
  let s := s.each ((List.range 8).zip counters) fun s e => s.wr .dbgSample f e.1 (s.rd e.2 t)
  let s := s.sf F.dbgSampleCfg_watch f 0 x.watch
  if s.running f = [] ∧ s.starting f = [] then
    s.setPlanField f { s.planField f with base := (nanojoules : Rat) / ((max 1 x.stnPeriod : Nat) : Rat) }
  else s

/-- The tiles of a field that logged, in watch `w`, an event that counts towards escalation (R839). -/
def State.faultyTiles (s : State) (f w : Nat) : List Nat :=
  let r := s.ring f
  let counts (e : Event) : Bool := !e.copy && decide (e.watch = w) &&
    ([evCode evChannelPoison, evCode evShadowPoison, evCode evLinkFault].contains e.code ||
      (decide (e.code = evCode evTileTrap) && decide (e.detail / 2 ^ 32 = 0x0B)))
  ((r.queue ++ r.slots.map (·.2)).filter counts).map (·.loc) |>.eraseDups

/-- Escalation (R839): bay resets that have fallen due begin; then the tiles that have had a fault in 8 of 64 watches. What a tile
logged after the HANDOVER of the watch before counts for that watch (DEDUCED, log 115). -/
def State.escalate (s : State) (f : Nat) : State :=
  let w := (s.fld f).watch
  let due := ((s.liveTiles f).filter fun t => (s.til t).escalated &&
    (decide (s.sectorOf t = 0xFFF) || s.isQuiesced f (s.sectorOf t))).map bayOf |>.eraseDups
  let s := s.each due fun s b =>
    let s := s.each ((s.tilesOfBay b).filter fun t => (s.til t).escalated) fun s t =>
      s.setTil t { s.til t with escalated := false, faultWatches := [] }
    s.beginReset 2 b 0 none
  let late := s.faultyTiles f (w - 1)
  let now := s.faultyTiles f w
  s.each (late ++ now).eraseDups fun s t =>
    let y := s.til t
    let ws := ((if now.contains t then [w] else []) ++ (if late.contains t then [w - 1] else []) ++
      y.faultWatches.filter fun v => w < v + 64).eraseDups
    let s := s.setTil t { y with faultWatches := ws }
    if ws.length < 8 ∨ y.escalated = true then s
    else
      let k := s.sectorOf t
      let s := (s.setTil t { s.til t with escalated := true }).logEv evEscalation 64 t k
      if k = 0xFFF then s else s.dueDrain k

/-- The slots of a sector at the HANDOVER of its home field (R805, R807): evictions, then new residents. -/
def State.residency (s : State) (k : Nat) : State :=
  s.each (s.slotsOfSector k) fun s i =>
    let x := s.hslot k i
    match x.evicting, x.tenant with
    | some _, some t =>
      let n := x.owned.length
      let s := s.retireAll k i (some 1)
      let s := s.setHslot k i { s.hslot k i with tenant := none, base := 0, evicting := none }
      s.finishOp (.evict t) mbOk [n]
    | _, _ => match x.due with
      | some (t, base) => s.setHslot k i { x with tenant := some t, base := base, due := none }
      | none => s

/-- A field whose Keeper restarts repeats its sectors' selections (R842), and with it its whole clock domain, whose fields never
part in their levels (R101, R612). -/
def State.repeatAll (s : State) (f : Nat) : State :=
  if s.flag F.fkpStatus_restarting f = false then s
  else
    let fs := ((s.domainSets s.planned).find? (·.contains f)).getD [f]
    let s := s.each (fs.flatMap s.sectorsIn).eraseDups fun s k => s.updSec k fun y => { y with after := repeated y.next }
    s.each fs fun s g =>
      let x := s.fld g
      (s.setFld g { x with afterLevel := x.nextLevel.orElse fun _ => some (x.mhz, x.lensMhz) }).setTarget g

/-- Bays whose return ends in this HANDOVER (R856): traffic may be routed to them; sectors that waited for them are
STRANDED. -/
def State.joinBays (s : State) (f : Nat) : State :=
  let due := (baysOf f).filter fun b => match (mget ({} : BayPower) s.bays b).joins with
    | some w => decide (w ≤ (s.fld f).watch)
    | none => false
  if due = [] then s
  else
    let s : State := { s with rewrites := s.rewrites ++ [(f, s.now)] }
    let s := s.each due fun s b =>
      let asked := s.mboxJobs.any fun e => e.2 = .return_ b
      let s : State := { s with bays := mput s.bays b { mget {} s.bays b with joins := none } }
      if asked then (s.logEv evBayReturned 64 b 0).finishOp (.return_ b) mbOk [] else s
    s.strand

/-- HANDOVER_BEGIN (R92, R314, R368, R627, R644, R649, R656, R711, R839, R841, R844, R856): cycle N − 256. -/
def execHandoverBegin (f nanojoules : Nat) (margins : List Nat) (beat : Bool) (s : State) : Host.Outcome State Fault Refusal :=
  onField f (
    let x := s.fld f
    if x.phase ≠ .commit ∨ x.held = true then s
    else
      let s := s.advanceTo (cycleInstant x (x.nCycles - 256))
      let s := s.setFld f { s.fld f with phase := .handover }
      let s := s.each (s.sectorsIn f) fun s k => s.epochHandover f k
      let s := s.each (s.liveTiles f) fun s t => (s.countStalls t (x.nCycles - 256)).abortMoves t (x.nCycles - 257) true
      let s := (s.latchTelemetry f nanojoules).ageCheck f margins
      let s := if s.planAt = some s.stationWatch then s else s.lateRound
      let s := s.repeatAll f
      let s := s.each ((s.sectorsIn f).filter fun k => s.homeOf k = f) fun s k => (s.checkSelection f k).residency k
      let s := s.setTarget f
      let free := !s.flag F.fkpStatus_restarting f
      let due := if free then s.retireQueue.filter fun (e : Nat × Nat) => fieldOfBay e.1 = f else []
      let s : State := { s with retireQueue := s.retireQueue.filter fun e => !due.contains e }
      let s := s.each due fun s e => s.retireBay e.1 e.2
      let s := (s.joinBays f).handoverRamps f
      let s := s.escalate f
      let s := if beat then s.sf F.fkpHeartbeat_watch f 0 x.watch else s
      if f = s.keeperAt ∧ s.fieldDown s.mirrorAt = false then { s with mirrorReady := true } else s)

/-- REST_INTERVAL_BEGIN (R86, R450, R647): the levels of the coming watch are taken; a rail more than 15 mV below the coming
target is late. -/
def execRestIntervalBegin (f senseMv : Nat) (s : State) : Host.Outcome State Fault Refusal :=
  onField f (
    let x := s.fld f
    if x.phase ≠ .handover ∨ x.held = true then s
    else
      let s := s.advanceTo (cycleInstant x x.nCycles)
      let s := s.each (List.range 4) fun s l => s.suspendLens (f * 4 + l)
      let next := x.nextLevel.getD (x.mhz, x.lensMhz)
      let late := decide (senseMv + 15 < s.voltage f next.1 next.2)
      let s := s.setFld f { s.fld f with phase := .rest, railLate := late }
      let s := s.sf F.pwrStatus_sense_mv f 0 (min senseMv 1023)
      let s := if late then (s.hset F.pwrStatus_rail_late f 0).logEv evRailLate f f (detail2 senseMv (s.voltage f next.1 next.2)) else s
      let level := if late then (x.mhz, x.lensMhz) else next
      (s.sf F.clkPllStatus_mhz 0 (1 + f) level.1).sf F.clkPllStatus_mhz 0 (65 + f) level.2)

end Sys2Proof.Machine
end

