-- ==== Sys2Proof/Machine/Ranges.lean ====
section
/-! DEFINITION. The values a register admits (R929): what its owning chapter's table gives for each field, as far as the
word itself shows it. What depends on other state is in `State.agrees` of Machine/Registers.lean; the records of an image are held to the
same ranges (R580). -/

namespace Sys2Proof.Machine

/-- A sector id, or 0xFFF for none. -/
def sectorRange (n : Nat) : Bool := decide (n ≤ 2303) || decide (n = 0xFFF)

/-- Whether `n` lies in an inclusive range. -/
def within (lo hi n : Nat) : Bool := decide (lo ≤ n) && decide (n ≤ hi)

/-- The bits of a register that a write may set. -/
def Reg.writable (r : Reg) : List (Nat × Nat) :=
  (r.fields.filter fun f => f.acc = .rw || f.acc = .rwl || f.acc = .wo).map fun f => (f.hi, f.lo)

/-- Whether a word is 0 outside the bits that a write may set. -/
def Reg.fits (r : Reg) (w : Nat) : Bool :=
  (r.writable.foldl (fun v (e : Nat × Nat) => setBits v e.1 e.2 0) w) = 0

/-- Whether every field of a word holds a value in its range that is not reserved (R929). `idx` is the register's index. -/
def rangeOk (r : Reg) (idx w : Nat) : Bool :=
  match r with
  | .stnTileCount => within 0 2303 (bits w 31 20)
  | .bcnPeriod => within 10000 1000000 (bits w 19 0)
  | .bcnSettleLen => within 1024 65535 (bits w 15 0)
  | .tilSplit => within 2 8 (bits w 7 4)
  | .tgpWdog => decide (bits w 20 0 = 0) || within 256 2097151 (bits w 20 0)
  | .chnSlotCfg => if idx < 16 then decide (bits w 28 27 ≠ 3) else decide (bits w 28 27 ≤ 1) && decide (bits w 18 10 ≤ 63)
  | .chnSlotWindow => decide (bits w 31 16 % 4 = 0) && decide (bits w 15 0 % 4 = 0)
  | .chnSlotDone => if w.testBit 31 then decide (bits w 15 0 % 4 = 0) else within 0 1279 (bits w 26 16)
  | .strRule => decide (bits w 30 28 ≠ 7) && (decide (bits w 30 28 = 3) || !w.testBit 27)
  | .mshLlEntry => within 0 2303 (bits w 43 32) && decide (bits w 26 24 ≠ 5) && decide (bits w 26 24 ≠ 6) &&
      (if w.testBit 29 then decide (bits w 19 12 = 0) else decide (bits w 19 0 < 589824))
  | .mshTileSector | .mshPortCfg | .lnsPanelOwner | .buySectorGroup => sectorRange (bits w 11 0)
  | .buyCfg => decide (bits w 28 27 ≠ 3) && sectorRange (bits w 11 0)
  | .buyTarget => within 1 16777215 (bits w 23 0)
  | .buyKop => decide (bits w 31 29 ≤ 2)
  | .lnsMode => decide (bits w 2 0 ≤ 5)
  | .fstRegionCfg => decide (bits w 30 29 ≠ 3) && decide (bits w 28 27 ≠ 3) && sectorRange (bits w 11 0)
  | .pwrDroopCfg => within 10 60 (bits w 5 0) && decide (bits w 5 0 % 5 = 0)
  | .pwrVfCore | .pwrVfLens => within 550 850 (bits w 9 0)
  | .thmCfg => within 560 832 (bits w 27 16) && within 560 800 (bits w 11 0)
  | .rstDomainCtl => match bits w 26 24 with
      | 0 | 1 => decide (bits w 19 0 < 589824)
      | 2 => within 0 2303 (bits w 22 0)
      | 3 => within 0 63 (bits w 22 0)
      | 4 => within 0 27 (bits w 22 0)
      | 5 => decide (bits w 22 0 = 0)
      | _ => false
  | .hstRingCfg => within 4 15 (bits w 3 0)
  | .hstRingReqBase => decide (w % 64 = 0)
  | .hstRingStatusAddr => decide (w % 16 = 0)
  | .hstTimeout => within 1 1000 (bits w 25 16) && within 1 1000 (bits w 9 0)
  | .jlfTimeout => within 1 1000 (bits w 9 0)
  | .fkpCfg => within 0 60000 (bits w 15 0)
  | .stnWdogCfg => decide (bits w 19 0 = 0) || within 16 1048575 (bits w 19 0)
  | .stnEventSel => within 0 64 (bits w 6 0)
  | .stnEventIrq => within 0 5 (bits w 3 0)
  | .dbgBreak => decide (bits w 15 0 % 4 = 0)
  | .fstWinAddr => decide (bits w 1 0 = 0)
  | .mgtUartCfg => within 9600 3000000 (bits w 21 0)
  | _ => true

end Sys2Proof.Machine
end

