-- ==== Sys2Proof/Machine/ImageCheck.lean ====
section
/-! DEFINITION. Validation of an image candidate: the stages of R589 with every rejection code of R593
(spec/13_efsen_image.md R576-R593, R600, R601, R930; the rules it enforces stand in spec/03, 05, 06, 09, 11, 12 and 14). A
failure is (code, section, record). -/

namespace Sys2Proof.Machine

/-! ### Stage 1: the header and the section table (R577-R580) -/

/-- Sections that an image of a kind must have (R580). -/
def requiredTypes (kind : Nat) : List Nat := if kind = 0 then [0x01, 0x02, 0x05, 0x0F] else [0x01, 0x05, 0x0F]

/-- The header's ranges (R577), MAGIC, FORMAT and the greatest SIZE apart. -/
def headerOk (img : Image) : Bool :=
  within 0 1 img.kind && within 1 2 img.grade && within 0 255 img.svn && within 0 1 img.flags &&
    within 1 17 img.table.length && decide (1536 ≤ img.size) && decide (img.sigOffset % 64 = 0) &&
    decide (img.sigOffset + 608 = img.size) && within 10000 img.periodMax img.periodMin &&
    within img.periodMin 1000000 img.periodMax && within 1024 65535 img.settleLen && within 1 2304 img.sectorCount &&
    (img.kind = 1 || img.baseDigest.all (· = 0)) && img.rsvOk

/-- Whether two sections share a byte. -/
def sectionsMeet (a b : ImgSection) : Bool :=
  decide (a.offset < b.offset + b.length) && decide (b.offset < a.offset + a.length)

/-- The section table's rules (R579) and the required sections. -/
def tableOk (img : Image) : Bool :=
  (img.table.zip (img.table.drop 1)).all (fun (e : ImgSection × ImgSection) => decide (e.1.type < e.2.type)) &&
    img.table.all (fun x => within 0x01 0x11 x.type && decide (x.offset % 64 = 0) &&
      decide (0x100 + 96 * img.table.length ≤ x.offset) && decide (x.offset + x.length ≤ img.sigOffset) &&
      (img.table.filter fun y => y.type ≠ x.type).all fun y => !sectionsMeet x y) &&
    (requiredTypes img.kind).all fun t => img.table.any (·.type = t)

/-- Stage 1. -/
def checkHeader (img : Image) : Option (Nat × Nat × Nat) :=
  if img.magic ≠ 0x4E534645 then some (0x01, 0, 0)
  else if img.format ≠ 0x0100 then some (0x02, 0, 0)
  else if 4294967296 < img.size ∨ img.scatter < img.size then some (0x04, 0, 0)
  else if headerOk img = false then some (0x03, 0, 0)
  else if tableOk img = false then some (0x05, 0, 0)
  else none

/-! ### Stages 2 to 4 (R584, R585, R930, R931) -/

/-- Whether a certificate's layout is right: OWNER_ID from 1, ALLOW bits 7:4 zero. -/
def certOk (c : ImgCert) : Bool := c.layoutOk && within 1 65535 c.ownerId && decide (c.allow < 16)

/-- Whether ALLOW admits the header's KIND and GRADE. -/
def certAdmits (img : Image) (c : ImgCert) : Bool := c.allow.testBit img.kind && c.allow.testBit (img.grade + 1)

/-- Stage 2, with the owner id and the floors of the wafer. -/
def checkTrust (img : Image) (owner svnFloor keyFloor : Nat) : Option (Nat × Nat × Nat) :=
  if certOk img.owner = false then some (0x06, 0, 1)
  else if certOk img.key = false then some (0x06, 0, 2)
  else if img.owner.sigOk = false then some (0x07, 0, 1)
  else if owner ≠ 0 ∧ img.owner.ownerId ≠ owner then some (0x08, 0, 1)
  else if img.key.ownerId ≠ img.owner.ownerId then some (0x08, 0, 2)
  else if img.key.sigOk = false then some (0x07, 0, 2)
  else if img.key.serial < keyFloor then some (0x09, 0, 2)
  else if certAdmits img img.owner = false then some (0x0A, 0, 1)
  else if certAdmits img img.key = false then some (0x0A, 0, 2)
  else if img.signatureOk = false then some (0x0B, 0, 3)
  else if img.svn < svnFloor then some (0x0C, 0, 0)
  else none

/-- Whether a list of supported versions admits a TOOL value (R589). -/
def toolOk (tools : List Nat) (tool : Nat) : Bool :=
  tools.any fun v => v = tool || (v % 65536 = 0xFFFF && v / 65536 = tool / 65536)

/-- Stage 4. -/
def checkDigests (img : Image) : Option (Nat × Nat × Nat) :=
  (img.table.find? fun x => !x.digestOk).map fun x => (0x0E, x.type, 0)

/-! ### Stage 5: records (R580) -/

/-- Records in turn: ascending keys, then the fields; the first failure with its index. -/
def scanRecords {α : Type} (key : α → Nat) (ok : α → Bool) : List α → Nat → Option Nat → Option (Nat × Nat)
  | [], _, _ => none
  | x :: xs, i, prev =>
    if (match prev with | some p => decide (key x ≤ p) | none => false) = true then some (0x12, i)
    else if ok x = false then some (0x11, i)
    else scanRecords key ok xs (i + 1) (some (key x))

/-- A word that fits a register and lies in its ranges (R580). -/
def wordFits (r : Reg) (idx w : Nat) : Bool := r.fits w && rangeOk r idx w

/-- A section's records checked: their number and bytes, then each of them. -/
def checkRecords {α : Type} (x : ImgSection) (l : List α) (size : Nat) (key : α → Nat) (ok : α → Bool) : Option (Nat × Nat × Nat) :=
  if x.changed then some (0x0F, x.type, 0)
  else if x.records ≠ l.length ∨ x.length ≠ size then some (0x11, x.type, 0)
  else (scanRecords key ok l 0 none).map fun e => (e.1, x.type, e.2)

/-- Bytes of a BLOBS section: every record but the last fills up to a 64-byte boundary. -/
def blobBytes : List ImgBlob → Nat
  | [] => 0
  | [b] => 16 + 4 * b.words.length
  | b :: bs => ceilDiv (16 + 4 * b.words.length) 64 * 64 + blobBytes bs

def segOk (g : ImgSeg) : Bool := decide (g.blob < 2 ^ 24)

/-- A CHANNELS record's fields. -/
def chanFits (c : ImgChan) : Bool :=
  isTile c.tile && within 0 31 c.slot && (match c.route with | some r => decide (r < 2 ^ 20) | none => true) &&
    wordFits .chnSlotCfg c.slot c.cfg && wordFits .chnSlotDest c.slot c.dest && wordFits .chnSlotWindow c.slot c.window &&
    wordFits .chnSlotDone c.slot c.done_

/-- An MV descriptor's words: those of R517 with nothing in the bits it leaves out. -/
def mvWordsOk (w : Nat → Nat) : Bool :=
  let d0 := setBits (setBits (setBits (setBits (w 0) 31 31 0) 26 26 0) 23 12 0) 11 0 0
  decide (d0 = 0) && decide (bits (w 1) 15 15 = 0) && decide (w 2 < 8) &&
    ([3, 4, 5, 6, 7, 8].all fun k => decide (w k < 2 ^ 26)) && ([9, 10, 11, 12, 13, 14, 15].all fun k => decide (w k = 0))

/-- Stage 5 on one section. -/
def checkSection (img : Image) (x : ImgSection) : Option (Nat × Nat × Nat) :=
  let n (l : Nat) (bytes : Nat) : Nat := l * bytes
  match x.type with
  | 0x01 => checkRecords x img.sectors (n img.sectors.length 16) (·.sector) fun r =>
      within 0 2303 r.sector && within 0 2303 r.epochGroup && within 0 2303 r.clockGroup
  | 0x02 => if img.placement.length ≠ 2304 then some (0x11, 0x02, 0)
      else checkRecords x img.placement (n 2304 72) (·.lbay) fun r =>
        within 0 2303 r.lbay && sectorRange r.sector && decide (r.roles.length = 256) && r.roles.all (within 0 3)
  | 0x03 => checkRecords x img.routes (n img.routes.length 16) (·.route) fun r =>
      decide (r.route < 2 ^ 20) && isTile r.src && isTile r.dst && within 0 63 r.allow && within 0 1 r.scope &&
        (within 0 4095 r.group || decide (r.group = 0xFFFF))
  | 0x04 => checkRecords x img.mcast (n img.mcast.length 40) (·.group) fun r =>
      within 0 4095 r.group && isTile r.src && within 1 8 r.dests.length && r.dests.all isTile
  | 0x05 => checkRecords x img.tiles (sumNat (img.tiles.map fun r => 32 + 16 * r.segs.length)) (·.tile) fun r =>
      isTile r.tile && within 0 64 r.segs.length && wordFits .tilSplit 0 r.split && wordFits .tgpWdog 0 r.wdog &&
        r.segs.all segOk
  | 0x06 => checkRecords x img.blobs (blobBytes img.blobs) (·.blob) fun r =>
      decide (r.blob < 2 ^ 24) && within 1 10240 r.words.length
  | 0x07 => checkRecords x img.constants (n img.constants.length 16) (fun r => r.tile * 65536 + r.off) fun r =>
      isTile r.tile && decide (r.off < 65536) && decide (r.off % 4 = 0) && within 0 1 r.kind && isTile r.target
  | 0x08 => checkRecords x img.channels (n img.channels.length 32) (fun r => r.tile * 32 + r.slot) chanFits
  | 0x09 => checkRecords x img.steering (n img.steering.length 16) (fun r => r.tile * 4 + r.rule) fun r =>
      isTile r.tile && within 0 3 r.rule && wordFits .strRule 0 r.word && wordFits .strRuleParam 0 r.param
  | 0x0A => checkRecords x img.lenses (n img.lenses.length 10384) (fun r => r.field * 4 + r.lens) fun r =>
      within 0 63 r.field && within 0 3 r.lens && wordFits .lnsMode 0 r.mode && decide (r.owners.length = 1024) &&
        r.owners.all sectorRange && decide (r.descs.length = 2048) && r.descs.all (fun w => decide (w < 2 ^ 32)) &&
        decide (r.preloads.length = 16) && r.preloads.all (wordFits .lnsPreload 0)
  | 0x0B => checkRecords x img.mv (n img.mv.length 72) (fun r => r.field * 64 + r.desc) fun r =>
      within 0 63 r.field && within 0 63 r.desc && decide (r.words.length = 16) && mvWordsOk (r.words.getD · 0)
  | 0x0C => checkRecords x img.regions (n img.regions.length 16) (fun r => r.field * 256 + r.region) fun r =>
      within 0 63 r.field && within 0 255 r.region && wordFits .fstRegionCfg 0 r.cfg && wordFits .fstRegionSpan 0 r.span
  | 0x0D => checkRecords x img.buoys (n img.buoys.length 16) (fun r => r.field * 1024 + r.index) fun r =>
      within 0 64 r.field && within 0 (if r.field = 64 then 255 else 1023) r.index && wordFits .buyCfg 0 r.cfg &&
        wordFits .buyInit 0 r.init && wordFits .buyTarget 0 r.target
  | 0x0E => checkRecords x img.spec (n img.spec.length 68) (·.sector) fun r =>
      within 0 2303 r.sector && decide (r.parents.length = 16) && r.parents.all (wordFits .sptTagParent 0)
  | 0x0F => checkRecords x img.characters (sumNat (img.characters.map fun t => 2688 + 16 * t.tiles.length)) (·.sector) fun t =>
      within 0 2303 t.sector
  | 0x10 => checkRecords x img.staging (sumNat (img.staging.map fun r => 32 + 8 * r.lanes.length)) (·.transfer) fun r =>
      decide (r.transfer < 65536) && within 0 15 r.device && decide (1 ≤ r.lines) && within 0 63 r.field &&
        within 0 255 r.region && within 1 64 r.lanes.length && r.lanes.all fun l => isTile l.1 && within 0 35 l.2
  | _ => checkRecords x img.host (n img.host.length 16) (fun r => r.sector * 16 + r.slot) fun r =>
      within 0 2303 r.sector && within 0 15 r.slot && within 0 3 r.port && within 0 63 r.fn && within 0 255 r.ring

/-! ### What stage 6 reads -/

/-- The first record of a section that fails a check. -/
def firstBad {α : Type} (code sec : Nat) (l : List α) (ok : α → Bool) : Option (Nat × Nat × Nat) :=
  (((List.range l.length).zip l).find? fun e => !ok e.2).map fun e => (code, sec, e.1)

/-- Whether a bay placed by an image belongs to one of its sectors. -/
def inSector (img : Image) (t : Nat) : Bool := imgSectorOf img t ≠ 0xFFF

def hasSector (img : Image) (k : Nat) : Bool := img.sectors.any (·.sector = k)

/-- A sector id that names none or a sector of the image. -/
def ownerOk (img : Image) (k : Nat) : Bool := decide (k = 0xFFF) || hasSector img k

/-- The `TIL_SPLIT` word of a tile, the reset word where it has no record. -/
def splitOf (img : Image) (t : Nat) : Nat :=
  match img.tiles.find? (·.tile = t) with
  | some r => r.split
  | none => 0x10020

/-- C, P, SH and F of a split in KiB (R149). -/
def splitParts (w : Nat) : Nat × Nat × Nat × Nat :=
  ([0, 4, 8, 16].getD (bits w 1 0) 0, bits w 7 4, bits w 13 8, bits w 21 16)

/-- Local store of a tile in bytes by its role (R149, R154). -/
def localStore (role split : Nat) : Nat :=
  let p := splitParts split
  if role = 1 then (39 - p.1 - p.2.1) * 1024 else if role = 3 then (39 - p.2.1) * 1024 else 0

/-- Whether a split meets the ranges of a role (R149, R152, R154). -/
def splitOk (role split : Nat) : Bool :=
  let p := splitParts split
  let f := p.2.2.2
  match role with
  | 0 => true
  | 1 => within 2 8 p.2.1 && within 1 36 p.2.2.1 && within 1 37 f && decide (p.2.2.1 + f ≤ 39 - p.1 - p.2.1)
  | _ => decide (p.1 = 0) && within 2 8 p.2.1

/-- Occupancy of a compute tile (R151). -/
def occupancyOf (split : Nat) : Nat :=
  let p := splitParts split
  min 8 ((39 - p.1 - p.2.1 - p.2.2.1) / max 1 p.2.2.2)

/-- The byte an image places at an offset of a tile, by its segments. -/
def imgByte (img : Image) (t off : Nat) : Nat :=
  match img.tiles.find? (·.tile = t) with
  | none => 0
  | some r =>
    r.segs.foldl (fun v g =>
      if g.sramOff ≤ off ∧ off < g.sramOff + g.len then
        match img.blobs.find? (·.blob = g.blob) with
        | some b => let k := g.blobOff + off - g.sramOff
            (byteOf (b.words.getD (k / 4) 0) (k % 4)).toNat
        | none => v
      else v) 0

/-- Entry point of group `g` under character `k` (R617). -/
def entryPoint (img : Image) (t k g : Nat) : Nat :=
  imgByte img t ((k * 8 + g) * 2) + 256 * imgByte img t ((k * 8 + g) * 2 + 1)

/-! ### Stage 6: the checks (R590) -/

/-- REFERENCE: SECTORS to BLOBS. -/
def checkPlaces (img : Image) : Option (Nat × Nat × Nat) :=
  ((((((if img.sectorCount = img.sectors.length then none else some (0x13, 0x01, 0)).orElse fun _ =>
    firstBad 0x13 0x01 img.sectors fun r => img.sectors.any (fun y => y.sector = r.epochGroup && y.epochGroup = r.epochGroup) &&
      img.sectors.any (fun y => y.sector = r.clockGroup && y.clockGroup = r.clockGroup) &&
      decide (r.epochGroup ≤ r.sector) && decide (r.clockGroup ≤ r.sector)).orElse fun _ =>
    firstBad 0x13 0x02 img.placement fun r => ownerOk img r.sector).orElse fun _ =>
    firstBad 0x13 0x03 img.routes fun r => inSector img r.src && inSector img r.dst &&
      (r.scope = 1 || imgSectorOf img r.src = imgSectorOf img r.dst) &&
      (r.group = 0xFFFF || img.mcast.any fun m => m.group = r.group && m.src = r.src && m.dests.contains r.dst)).orElse fun _ =>
    firstBad 0x13 0x04 img.mcast fun r => inSector img r.src && r.dests.all (inSector img)).orElse fun _ =>
    firstBad 0x13 0x05 img.tiles fun r => inSector img r.tile && r.segs.all fun g =>
      img.blobs.any fun b => b.blob = g.blob && decide (g.blobOff + g.len ≤ 4 * b.words.length)).orElse fun _ =>
    firstBad 0x13 0x02 img.placement fun p => p.sector = 0xFFF || (List.range 256).all fun i =>
      p.roles.getD i 0 = 0 || img.tiles.any (·.tile = tileOfBay p.lbay i)

/-- Descriptor `k` of a LENS record. -/
def lensDescAt (x : ImgLens) (k : Nat) : LensDesc := lensDescOf fun w => x.descs.getD (k * 16 + w) 0

/-- REFERENCE: the other sections. -/
def checkOwners (img : Image) : Option (Nat × Nat × Nat) :=
  ((((((((firstBad 0x13 0x07 img.constants fun r => inSector img r.tile).orElse fun _ =>
    firstBad 0x13 0x08 img.channels fun r => inSector img r.tile && (match r.route with
      | some k => img.routes.any (·.route = k)
      | none => true)).orElse fun _ =>
    firstBad 0x13 0x09 img.steering fun r => inSector img r.tile).orElse fun _ =>
    firstBad 0x13 0x0A img.lenses fun r => r.owners.all (ownerOk img) && (List.range 128).all fun k =>
      !(lensDescAt r k).valid || hasSector img (lensDescAt r k).sector).orElse fun _ =>
    firstBad 0x13 0x0B img.mv fun r =>
      let d := mvDescOf fun w => r.words.getD w 0
      !d.valid || hasSector img d.sector).orElse fun _ =>
    firstBad 0x13 0x0C img.regions fun r => ownerOk img (r.cfg % 4096)).orElse fun _ =>
    firstBad 0x13 0x0D img.buoys fun r => ownerOk img (r.cfg % 4096)).orElse fun _ =>
    firstBad 0x13 0x0E img.spec fun r => hasSector img r.sector).orElse fun _ =>
  (firstBad 0x13 0x0F img.characters fun r => hasSector img r.sector).orElse fun _ =>
  (firstBad 0x13 0x01 img.sectors fun r => img.characters.any (·.sector = r.sector)).orElse fun _ =>
  firstBad 0x13 0x11 img.host fun r => hasSector img r.sector

/-- POOL: splits, segments, constants, group masks. -/
def checkPool (img : Image) : Option (Nat × Nat × Nat) :=
  ((firstBad 0x14 0x05 img.tiles fun r => r.segs.all fun g =>
    decide (g.sramOff + g.len ≤ localStore (roleOf img r.tile) r.split)).orElse fun _ =>
    firstBad 0x14 0x07 img.constants fun r =>
      decide (r.off + 4 ≤ localStore (roleOf img r.tile) (splitOf img r.tile))).orElse fun _ =>
  (firstBad 0x14 0x05 img.tiles fun r => splitOk (roleOf img r.tile) r.split).orElse fun _ =>
  firstBad 0x14 0x0F img.characters fun t => t.tiles.all fun (e : Nat × List Nat) => t.chars.all fun c =>
    decide (e.2.getD c.id 0 < 2 ^ occupancyOf (splitOf img e.1))

/-- First word and end of a slot's region in the pool (R253). -/
def poolSpan (c : ImgChan) : Nat × Nat := (bits c.cfg 8 0 * 4, bits c.cfg 8 0 * 4 + chanWords c.cfg)

/-- POOL: channel regions (R253). -/
def checkRegionsOfPool (img : Image) : Option (Nat × Nat × Nat) :=
  firstBad 0x14 0x08 img.channels fun c => !c.cfg.testBit 31 ||
    (decide ((poolSpan c).2 ≤ bits (splitOf img c.tile) 7 4 * 256) &&
      (img.channels.filter fun d => d.tile = c.tile && d.slot ≠ c.slot && d.cfg.testBit 31).all fun d =>
        decide ((poolSpan c).2 ≤ (poolSpan d).1) || decide ((poolSpan d).2 ≤ (poolSpan c).1))

/-- Whether the route of an out-slot joins its tile to its destinations. -/
def routeJoins (img : Image) (c : ImgChan) : Bool :=
  match c.route with
  | none => false
  | some k => match img.routes.find? (·.route = k) with
    | none => false
    | some r =>
      if bits c.cfg 28 27 = 1 then
        match img.mcast.find? (·.group = c.dest % 4096) with
        | some m => decide (m.src = c.tile) && decide (r.group = m.group) && decide (m.dests.length = bits c.dest 30 28 + 1) &&
            m.dests.all fun d => img.routes.any fun b => b.group = m.group && b.src = c.tile && b.dst = d
        | none => false
      else decide (r.src = c.tile) && decide (r.dst = c.dest % 2 ^ 20) && decide (r.group = 0xFFFF)

/-- REFERENCE: the two ends of every channel (R258, R284, R285). -/
def checkEnds (img : Image) : Option (Nat × Nat × Nat) :=
  firstBad 0x13 0x08 img.channels fun c => !c.cfg.testBit 31 ||
    (if c.slot < 16 then c.route.isNone && (bits c.cfg 28 27 ≠ 1 ||
        (decide (bits c.window 15 0 ≤ bits c.window 31 16) &&
          decide (bits c.window 31 16 ≤ localStore (roleOf img c.tile) (splitOf img c.tile))))
      else
        let ds := chanDests img c
        let wanted := if bits c.cfg 28 27 = 1 then bits c.dest 30 28 + 1 else 1
        routeJoins img c && decide (ds.length = wanted) && ds.all fun d => d.cfg.testBit 31 && !d.cfg.testBit 29 &&
          d.cfg.testBit 30 == c.cfg.testBit 30 &&
          (!c.cfg.testBit 30 || imgLinked img (imgSectorOf img c.tile) (imgSectorOf img d.tile)))

/-- Inputs of a rule, its control input among them. -/
def ruleInputs (r : ImgRule) : List Nat :=
  maskBits (bits r.word 23 20) ++ (if r.word.testBit 26 then [bits r.word 25 24] else [])

/-- Whether a rule has the form of its operation (R299, R309). -/
def ruleForm (w : Nat) : Bool :=
  let i := (maskBits (bits w 23 20)).length
  let o := (maskBits (bits w 19 16)).length
  let ctl := w.testBit 26
  (!ctl || !(maskBits (bits w 23 20)).contains (bits w 25 24)) && match bits w 30 28 with
    | 0 | 6 => decide (i = 1) && decide (o = 1) && !ctl
    | 1 => decide (i = 1) && decide (2 ≤ o) && !ctl
    | 2 => decide (i = 1) && decide (2 ≤ o) && ctl
    | 3 => decide (2 ≤ i) && decide (o = 1) && (ctl == !w.testBit 27)
    | 4 => decide (i = 1) && decide (o = 1) && ctl
    | 5 => decide (i = 2) && decide (o = 2)
    | _ => false

/-- STEER_FORM (R299). -/
def checkSteer (img : Image) : Option (Nat × Nat × Nat) :=
  firstBad 0x15 0x09 img.steering fun r => !r.word.testBit 31 ||
    (ruleForm r.word && (ruleInputs r).all (fun i => (unitIn img r.tile i).isSome) &&
      (maskBits (bits r.word 19 16)).all (fun o => (unitOuts img r.tile).any fun c => bits c.cfg 21 20 = o) &&
      ((tileRules img r.tile).filter fun q => q.rule ≠ r.rule).all fun q =>
        (ruleInputs q).all (fun i => !(ruleInputs r).contains i) &&
        decide (Nat.land (bits q.word 19 16) (bits r.word 19 16) = 0))

/-- The clock group of a logical tile's sector, 0xFFF for none. -/
def imgClockGroup (img : Image) (t : Nat) : Nat :=
  match img.sectors.find? (·.sector = imgSectorOf img t) with
  | some r => r.clockGroup
  | none => 0xFFF

/-- CLOCK_LOCK (R335): a route, or a branch of a group, that only open channels use is no VC0 route. -/
def checkClockGroups (img : Image) : Option (Nat × Nat × Nat) :=
  firstBad 0x1E 0x03 img.routes fun r =>
    let users := img.channels.filter fun c => (chanRoutes img c).any fun q => q.route = r.route
    decide (fieldOf r.src = fieldOf r.dst) || decide (imgClockGroup img r.src = imgClockGroup img r.dst) ||
      (users ≠ [] && users.all fun c => c.cfg.testBit 30)

/-! #### Lens plans and descriptors (R45, R427, R430) -/

/-- Whether formats are permitted together in a lens (R416, R419, R423, R495). -/
def lensFormats (d : LensDesc) : Bool :=
  match fmtOfCode d.wfmt, fmtOfCode d.afmt, fmtOfCode d.ofmt with
  | some w, some a, some o =>
    let int := (w = .t2 || w = .i4 || w = .i8 || w = .i16) && (a = .i4 || a = .i8 || a = .i16)
    let float := w ≠ .i32 && w ≠ .fp32 && (a = .e4m3 || a = .e5m2 || a = .bf16 || a = .fp16 || a = .fp32)
    (int || float) && (o = .i8 || o = .i16 || o = .e4m3 || o = .e5m2 || o = .bf16 || o = .fp16 || o = .fp32 ||
      (o = .i32 && int)) && (!d.acc || o = .i32 || o = .fp32)
  | _, _, _ => false

/-- Whether a descriptor is valid in a mode (R429, R430), the owners of its panels apart. -/
def LensDesc.ok (d : LensDesc) (mode : Nat) : Bool :=
  let rows := if 4 ≤ mode then 1024 else 512
  let cols := if mode = 5 then 1024 else 512
  let narrow := decide (fmtOfCode d.afmt = some .i4)
  let b4 := decide (fmtOfCode d.wfmt = some .b4)
  decide (mode ≠ 0) && decide (d.kind ≠ 3) && decide (d.k = d.kh * d.kw * d.clen) && decide (d.cin0 + d.clen ≤ d.c) &&
    decide (d.rbase + d.k ≤ rows) && decide (d.cbase + d.n ≤ cols) && lensFormats d &&
    (!narrow || (decide (d.c % 2 = 0) && decide (d.cin0 % 2 = 0))) &&
    (!b4 || (decide (d.rbase % 32 = 0) && decide (d.k % 32 = 0))) && decide (d.nOut mode ≤ d.opitch) &&
    decide (d.waddr % 64 = 0) && decide (1 ≤ d.h) && decide (1 ≤ d.w) && within 1 1024 d.clen && decide (1 ≤ d.kh) &&
    decide (1 ≤ d.kw) && decide (1 ≤ d.sh) && decide (1 ≤ d.sw) && decide (1 ≤ d.dh) && decide (1 ≤ d.dw) &&
    decide (1 ≤ d.ohn) && decide (1 ≤ d.own) && match panelSize mode with
      | some p => decide (d.rbase % p = 0) && decide (d.k % p = 0) && decide (d.cbase % p = 0) && decide (d.n % p = 0)
      | none => !d.reduce

/-- Mode of a lens's plan, 0 where the image has none. -/
def modeAt (img : Image) (f l : Nat) : Nat :=
  match img.lenses.find? fun y => y.field = f && y.lens = l with
  | some y => y.mode
  | none => 0

/-- Whether a LENS record's gang is whole (R45, R425). -/
def gangOk (img : Image) (x : ImgLens) : Bool :=
  if x.mode = 4 then modeAt img x.field (if x.lens % 2 = 0 then x.lens + 1 else x.lens - 1) = 4
  else if x.mode = 5 then (List.range 4).all fun l => modeAt img x.field l = 5
  else true

/-- LENS_DESC. -/
def checkLenses (img : Image) : Option (Nat × Nat × Nat) :=
  firstBad 0x16 0x0A img.lenses fun x => gangOk img x &&
    ((List.range 128).all fun k =>
      let d := lensDescAt x k
      !d.valid || (d.ok x.mode && decide (x.descs.getD (k * 16 + 14) 0 = 0) &&
        decide (x.descs.getD (k * 16 + 15) 0 = 0) && ((panelSize x.mode).isNone ||
          d.panels.all fun p => x.owners.getD (p.1 * 32 + p.2) 0xFFF = d.sector))) &&
    x.preloads.all fun w => !w.testBit 63 ||
      (let d := lensDescAt x (bits w 62 56); d.valid && (decide (d.kind = 1) || decide (d.kind = 2)))

/-! #### MV descriptors, regions, tags -/

/-- Whether an MV descriptor is valid (R519). -/
def MvDesc.ok (d : MvDesc) : Bool :=
  match fmtOfCode d.wfmt, fmtOfCode d.afmt with
  | some w, some a =>
    let wOk := w ≠ .i32 && w ≠ .i16 && w ≠ .fp32
    let aOk := a = .i8 || a = .e4m3 || a = .e5m2 || a = .bf16 || a = .fp16 || a = .fp32
    let act := d.k * (fmtWidth a / 8)
    let row := if w = .b4 then d.k / 32 * 17 else ceilDiv (d.k * fmtWidth w) 8
    wOk && aOk && decide (d.ofmt = if d.integer then 0 else 0xA) && decide (d.v * act ≤ 65536) && decide (d.waddr % 64 = 0) &&
      decide (row ≤ d.wpitch) && (w ≠ .b4 || decide (d.k % 32 = 0)) && decide (d.yaddr % 4 = 0) &&
      (decide (d.v = 1) || (decide (act ≤ d.xpitch) && decide (4 * d.m ≤ d.ypitch)))
  | _, _ => false

/-- MV_DESC. -/
def checkMv (img : Image) : Option (Nat × Nat × Nat) :=
  firstBad 0x17 0x0B img.mv fun x =>
    let d := mvDescOf fun w => x.words.getD w 0
    !d.valid || d.ok

/-- First 4 KiB unit and end of a region. -/
def regionUnits (r : ImgRegion) : Nat × Nat := (bits r.span 29 16, bits r.span 29 16 + bits r.span 13 0 + 1)

/-- REGION (R501, R505): the journal begins at unit 0x3F80. -/
def checkRegions (img : Image) : Option (Nat × Nat × Nat) :=
  firstBad 0x18 0x0C img.regions fun r => !r.cfg.testBit 31 || (decide ((regionUnits r).2 ≤ 0x3F80) &&
    (img.regions.filter fun q => q.field = r.field && q.region ≠ r.region && q.cfg.testBit 31).all fun q =>
      decide ((regionUnits r).2 ≤ (regionUnits q).1) || decide ((regionUnits q).2 ≤ (regionUnits r).1))

/-- Quotas of the committed regions of a field. -/
def quotaSum (l : List ImgRegion) (f : Nat) : Nat :=
  sumNat ((l.filter fun r => r.field = f && r.cfg.testBit 31 && bits r.cfg 30 29 = 1).map fun r => bits r.cfg 24 13)

/-- QUOTA (R509): the record named is the one with which the sum passes 4,096. -/
def checkQuota (img : Image) : Option (Nat × Nat × Nat) :=
  ((List.range img.regions.length).find? fun k =>
    let l := img.regions.take (k + 1)
    match l.getLast? with
    | some r => decide (4096 < quotaSum l r.field)
    | none => false).map fun k => (0x19, 0x0C, k)

/-- Whether tag `t` comes to a root in at most `n` tags (R543). -/
def tagRooted (parents : List Nat) : Nat → Nat → Bool
  | 0, _ => false
  | n + 1, t =>
    let w := parents.getD t 16
    w.testBit 4 || tagRooted parents n (w % 16)

/-- TAG_TREE (R543). -/
def checkTags (img : Image) : Option (Nat × Nat × Nat) :=
  firstBad 0x1A 0x0E img.spec fun r => (List.range 16).all (tagRooted r.parents 4)

/-! #### Character tables (R608-R619, R622-R624) -/

/-- Whether an operating point lies in the ranges of R608. -/
def pointRange (p : Nat × Nat) : Bool :=
  within 500 1200 p.1 && decide (p.1 % 10 = 0) &&
    (decide (p.2 = 0) || (within 600 1400 p.2 && decide (p.2 % 10 = 0)))

/-- A destage names a committed region that admits the sector (R533, R619). -/
def destageOk (img : Image) (sec : Nat) (d : ImgDestage) : Bool :=
  within 0 63 d.field && within 0 15 d.device && within 64 1048576 d.length && decide (d.length % 64 = 0) &&
    decide (d.offset % 64 = 0) && decide (d.target % 64 = 0) && img.regions.any fun r =>
      r.field = d.field && r.region = d.region && r.cfg.testBit 31 && bits r.cfg 30 29 = 1 &&
        decide (d.offset + d.length ≤ (bits r.span 13 0 + 1) * 4096) && match bits r.cfg 28 27 with
          | 0 => decide (r.cfg % 4096 = sec)
          | 1 => imgLinked img sec (r.cfg % 4096)
          | _ => true

/-- Fields in which the logical bays of a sector lie. -/
def imgFieldsOf (img : Image) (sec : Nat) : List Nat := (img.placement.filter (·.sector = sec)).map fun b => fieldOfBay b.lbay

/-- A character entry (R615, R617, R619). -/
def charOk (img : Image) (t : ImgTable) (c : ImgChar) : Bool :=
  let settle := img.settleLen
  let pair (k : Nat) : Nat × Nat := c.power.getD k (0, 0)
  let fall := decide (c.id = t.fallback)
  within 0 7 c.id && (fall || decide (c.point < t.points.length)) && within 1 2097151 c.t && within 0 65535 c.b &&
    (List.range 8).all (fun k => decide (k < t.points.length ∧ (fall = true ∨ k = c.point)) == decide (pair k ≠ (0, 0))) &&
    (List.range 16).all (fun k => let e := c.slots.getD k (0, 0, 0)
      if k < t.slots then decide (e.1 ≤ 255) && within 1 255 e.2.1 && decide (e.2.2 < 65536) else decide (e = (0, 0, 0))) &&
    decide (c.transfers.length ≤ 8) && c.transfers.all (fun k => decide (k = 0xFFFF) || img.staging.any fun x =>
      x.transfer = k && (imgFieldsOf img t.sector).contains x.field) &&
    decide (c.destages.length ≤ 4) && c.destages.all (destageOk img t.sector) &&
    (if fall then t.points.all fun p => runnable c p.1 img.periodMax settle && runnable c p.1 img.periodMin settle
      else runnable c (charPoint t c).1 img.periodMax settle) &&
    (decide (c.id ≠ t.recovery) || fall || runnable c (charPoint t c).1 img.periodMin settle) &&
    (!fall || c.transfers.all (· = 0xFFFF)) &&
    (!(fall || decide (c.id = t.reference)) || (List.range t.slots).all fun k => (c.slots.getD k (0, 0, 0)).1 = 255) &&
    t.tiles.all fun (e : Nat × List Nat) => (List.range 8).all fun g => !(e.2.getD c.id 0).testBit g ||
      (let p := entryPoint img e.1 c.id g
       decide (p % 4 = 0) && decide (0x80 ≤ p) && decide (p < (splitParts (splitOf img e.1)).2.2.1 * 1024))

/-- A character table (R613-R619). -/
def charTableOk (img : Image) (t : ImgTable) : Bool :=
  let compute := (imgTilesOf img t.sector).filter fun l => roleOf img l = 1
  within 1 8 t.count && decide (t.count = t.chars.length) &&
    (t.chars.zip (t.chars.drop 1)).all (fun (e : ImgChar × ImgChar) => decide (e.1.id < e.2.id)) &&
    [t.reference, t.recovery, t.fallback].all (fun k => t.chars.any (·.id = k)) && within 1 8 t.points.length &&
    t.points.all pointRange && decide (t.points.eraseDups.length = t.points.length) &&
    (t.points.contains (1000, 1200) || t.points.contains (1000, 0)) && within 0 16 t.slots &&
    (t.tiles.zip (t.tiles.drop 1)).all (fun (e : (Nat × List Nat) × (Nat × List Nat)) => decide (e.1.1 < e.2.1)) &&
    decide (t.tiles.length = compute.length) && t.tiles.all (fun (e : Nat × List Nat) => compute.contains e.1) &&
    t.tiles.all (fun (e : Nat × List Nat) => (List.range 8).all fun k =>
      decide (e.2.getD k 0 < 2 ^ occupancyOf (splitOf img e.1))) &&
    t.chars.all (charOk img t)

/-- CHARACTER. -/
def checkChars (img : Image) : Option (Nat × Nat × Nat) := firstBad 0x1B 0x0F img.characters (charTableOk img)

/-- STAGING (R525, R528). -/
def checkStaging (img : Image) : Option (Nat × Nat × Nat) :=
  firstBad 0x1C 0x10 img.staging fun x => within 2 255 x.lead && x.lanes.all (fun l => atRim x.device l.1) &&
    img.regions.any fun r => r.field = x.field && r.region = x.region && r.cfg.testBit 31 && bits r.cfg 30 29 = 2 &&
      decide (x.offset + x.lines ≤ (bits r.span 13 0 + 1) * 64)

/-- HOST (R580). -/
def checkHost (img : Image) : Option (Nat × Nat × Nat) :=
  if 16384 < sumNat (img.characters.map (·.slots)) then some (0x1D, 0x11, 0)
  else firstBad 0x1D 0x11 img.host fun x => img.characters.any fun t => t.sector = x.sector && decide (x.slot < t.slots)

/-- Stage 6, its checks in the table's order. -/
def checkConsistency (img : Image) : Option (Nat × Nat × Nat) :=
  [checkPlaces, checkOwners, checkPool, checkRegionsOfPool, checkEnds, checkSteer, checkClockGroups, checkLenses, checkMv,
    checkRegions, checkQuota, checkTags, checkChars, checkStaging, checkHost].findSome? fun c => c img

/-! ### Patches (R600, R601) -/

/-- The sectors of an image. -/
def imgSectors (img : Image) : List Nat := img.sectors.map (·.sector)

/-- The base image with the tile-level content of a patch's sectors replaced. The patch's blobs are renumbered past the
base's. -/
def patched (base p : Image) : Image :=
  let keep (t : Nat) : Bool := !(imgSectors p).contains (imgSectorOf base t)
  let off := (base.blobs.map (·.blob + 1)).foldl max 0
  { base with
    tiles := base.tiles.filter (fun r => keep r.tile) ++ p.tiles.map fun r =>
      { r with segs := r.segs.map fun g => { g with blob := g.blob + off } }
    blobs := base.blobs ++ p.blobs.map fun b => { b with blob := b.blob + off }
    constants := base.constants.filter (fun r => keep r.tile) ++ p.constants
    channels := base.channels.filter (fun r => keep r.tile) ++ p.channels
    steering := base.steering.filter (fun r => keep r.tile) ++ p.steering
    characters := base.characters.filter (fun t => !(imgSectors p).contains t.sector) ++ p.characters }

/-- The ends inside the patch of channels that cross its boundary. -/
def crossingEnds (img : Image) (secs : List Nat) : List ImgChan :=
  let inside (c : ImgChan) : Bool := secs.contains (imgSectorOf img c.tile)
  let outs := img.channels.filter fun c => decide (16 ≤ c.slot) && c.cfg.testBit 31
  (outs.filter fun c => inside c && (chanDests img c).any fun d => !inside d) ++
    (outs.filter fun c => !inside c).flatMap fun c => (chanDests img c).filter inside

/-- PATCH_BOUNDARY (R601). -/
def patchBoundary (base p : Image) : Option (Nat × Nat × Nat) :=
  let secs := imgSectors p
  let mine (t : Nat) : Bool := secs.contains (imgSectorOf base t)
  ((((((firstBad 0x21 0x01 p.sectors fun r => base.sectors.contains r).orElse fun _ =>
    firstBad 0x21 0x05 p.tiles fun r => mine r.tile).orElse fun _ =>
    firstBad 0x21 0x07 p.constants fun r => mine r.tile).orElse fun _ =>
    firstBad 0x21 0x08 p.channels fun r => mine r.tile &&
      (r.slot < 16 || !r.cfg.testBit 31 || routeJoins (patched base p) r)).orElse fun _ =>
    firstBad 0x21 0x09 p.steering fun r => mine r.tile).orElse fun _ =>
    firstBad 0x21 0x0F p.characters fun t => secs.contains t.sector).orElse fun _ =>
  if (crossingEnds base secs).all (p.channels.contains ·) &&
    (crossingEnds (patched base p) secs).all (base.channels.contains ·) then none else some (0x21, 0x08, 0)

/-- Stage 7. -/
def checkPatch (base : Option Image) (p : Image) : Option (Nat × Nat × Nat) :=
  match base with
  | none => some (0x1F, 0, 0)
  | some b =>
    if b.digest ≠ p.baseDigest then some (0x1F, 0, 0)
    else match p.table.find? fun x => !([0x01, 0x05, 0x06, 0x07, 0x08, 0x09, 0x0F].contains x.type) with
      | some x => some (0x20, x.type, 0)
      | none => patchBoundary b p

/-! ### All stages (R589) -/

/-- What stage 6 looks at: the image, or a patch joined to the loaded image. -/
def checkedImage (base : Option Image) (img : Image) : Image :=
  match img.kind, base with
  | 0, _ => img
  | _, some b => patched b img
  | _, none => img

/-- The Grilerex versions that the running firmware supports, 1 to 46 of them, ascending (R931). -/
def State.tools (s : State) : List Nat :=
  let v := Config.supportedTools (s.gf F.stnFwStatus_major * 256 + s.gf F.stnFwStatus_minor)
  (((v.1 :: v.2).map (· % 2 ^ 32)).eraseDups.take 46).mergeSort (· ≤ ·)

/-- The first failure of validation with its stage, none where the candidate is valid. -/
def State.checkImage (s : State) (img : Image) : Option (Nat × Nat × Nat × Nat) :=
  let at_ (k : Nat) (r : Option (Nat × Nat × Nat)) : Option (Nat × Nat × Nat × Nat) := r.map fun e => (k, e.1, e.2.1, e.2.2)
  let count := if img.kind = 1 ∧ img.sectorCount ≠ img.sectors.length then some (0x13, 0x01, 0) else none
  [fun _ => at_ 1 (checkHeader img),
   fun _ => at_ 2 (checkTrust img (s.gf F.stnOwner_owner) (s.gf F.stnImageFloor_svn) (s.rd .stnKeyFloor).toNat),
   fun _ => at_ 3 (if toolOk s.tools img.tool then none else some (0x0D, 0, 0)),
   fun _ => at_ 4 (checkDigests img),
   fun _ => at_ 5 (img.table.findSome? (checkSection img)),
   fun _ => at_ 6 (count.orElse fun _ => checkConsistency (checkedImage s.loaded img)),
   fun _ => at_ 7 (if img.kind = 1 then checkPatch s.loaded img else none)].findSome? fun (f : Unit → _) => f ()

end Sys2Proof.Machine
end

