-- ==== Sys2Proof/Machine/Binding.lean ====
section
/-! DEFINITION. Binding an image to the merged defect map: lens assignment, bay placement, tile remapping, routes and
light-list entries (spec/01_wafer_geometry_and_binding.md R40-R63, R70-R76; spec/07_mesh_and_routing.md R349-R356), and the
BIND command. -/

namespace Sys2Proof.Machine

/-- Why a step of binding stops: REASON, ITEM and EXCESS (R63). -/
structure BindFail where
  reason : Nat
  item : Nat := 0
  excess : Nat := 0
  deriving DecidableEq, Repr

/-! ### Lens assignment (R43-R47) -/

/-- Logical 16 × 16 panels that a split plan owns. -/
def ownedPanels (x : ImgLens) : List Nat := (List.range 1024).filter fun p => x.owners.getD p 0xFFF ≠ 0xFFF

/-- Panels of a plan's size that the plan uses (R46). -/
def usedPanels (x : ImgLens) : List Nat :=
  if x.mode = 2 then (List.range 256).filter fun p => (List.range 4).any fun k =>
    x.owners.getD ((2 * (p / 16) + k / 2) * 32 + 2 * (p % 16) + k % 2) 0xFFF ≠ 0xFFF
  else ownedPanels x

/-- Whether a lens plan has whole or ganged mode (R44). -/
def wholePlan (x : ImgLens) : Bool := x.mode = 1 || x.mode = 4 || x.mode = 5

/-- A logical lens given a physical one, the lowest-numbered one that may take it. -/
def State.assignLens (s : State) (x : ImgLens) (acc : Smap Nat Nat) : Except BindFail (Smap Nat Nat) :=
  let l := x.field * 4 + x.lens
  let taken (k : Nat) : Bool := acc.any (·.2 = x.field * 4 + k)
  let free (k : Nat) : Bool := !taken k && s.lensFull (x.field * 4 + k)
  if (mfind acc l).isSome then .ok acc
  else match x.mode with
    | 4 => match [0, 2].find? fun k => free k && free (k + 1) with
      | some k => let low := x.field * 4 + x.lens / 2 * 2
          .ok (acc ++ [(low, x.field * 4 + k), (low + 1, x.field * 4 + k + 1)])
      | none => .error { reason := 0x04, item := l }
    | 5 => if [0, 1, 2, 3].all free then .ok (acc ++ (List.range 4).map fun k => (x.field * 4 + k, x.field * 4 + k))
      else .error { reason := 0x04, item := l }
    | _ =>
      let size := if x.mode = 2 then 32 else 16
      let takes (k : Nat) : Bool := !taken k && (s.lensFull (x.field * 4 + k) ||
        (!wholePlan x && decide ((usedPanels x).length ≤ (s.goodPanels (x.field * 4 + k) size).length)))
      match [0, 1, 2, 3].find? takes with
      | some k => .ok (acc ++ [(l, x.field * 4 + k)])
      | none => .error { reason := 0x04, item := l }

/-- Every lens plan assigned, field by field, whole and ganged plans first (R42 step 2, R44). -/
def State.assignLenses (s : State) (img : Image) : Except BindFail (Smap Nat Nat) :=
  let inField (f : Nat) : List ImgLens :=
    let own := (List.range 4).flatMap fun k => img.lenses.filter fun x => x.field = f && x.lens = k
    own.filter wholePlan ++ own.filter fun x => !wholePlan x
  ((List.range 64).flatMap inField).foldlM (fun acc x => s.assignLens x acc) []

/-- The panel map of a split plan on a lens of reduced geometry (R46, R428): the plan's panels on good panels in ascending
order. -/
def State.panelMap (s : State) (img : Image) (lenses : Smap Nat Nat) : Smap (Nat × Nat) Nat :=
  img.lenses.flatMap fun x =>
    let l := mget 0 lenses (x.field * 4 + x.lens)
    if wholePlan x = true ∨ s.lensFull l = true then []
    else if x.mode = 2 then
      ((usedPanels x).zip (s.goodPanels l 32)).flatMap fun (e : Nat × Nat) => (List.range 4).map fun k =>
        let at_ (p : Nat) : Nat := (2 * (p / 16) + k / 2) * 32 + 2 * (p % 16) + k % 2
        ((l, at_ e.1), at_ e.2)
    else ((usedPanels x).zip (s.goodPanels l 16)).map fun (e : Nat × Nat) => ((l, e.1), e.2)

/-! ### Bay placement (R48-R51) -/

/-- Manhattan distance of two bays. -/
def bayDistance (a b : Nat) : Nat := (a / 48 - b / 48) + (b / 48 - a / 48) + (a % 48 - b % 48) + (b % 48 - a % 48)

/-- The least of a list by a key, the first where keys are equal. -/
def leastBy {α : Type} (key : α → Nat) : List α → Option α
  | [] => none
  | x :: xs => match leastBy key xs with
    | some y => if key y < key x then some y else some x
    | none => some x

/-- One logical bay placed; `held` maps physical bays to the sectors they hold. -/
def State.placeBay (s : State) (img : Image) (p : ImgBay) (acc : Smap Nat Nat × Smap Nat Nat) :
    Except BindFail (Smap Nat Nat × Smap Nat Nat) :=
  let eligible (b : Nat) : Bool := fieldOfBay b = fieldOfBay p.lbay && !s.bayOut b && (mfind acc.2 b).isNone &&
    (b = p.lbay || (match img.placement.find? (·.lbay = b) with | some q => decide (q.sector = 0xFFF) | none => true))
  let near (b : Nat) : Bool := acc.2.any fun (e : Nat × Nat) => e.2 = p.sector && bayDistance e.1 b = 1
  let choice := if eligible p.lbay then some p.lbay
    else leastBy (bayDistance p.lbay) ((List.range 2304).filter fun b => eligible b && near b)
  match choice with
  | some b => .ok (acc.1 ++ [(p.lbay, b)], acc.2 ++ [(b, p.sector)])
  | none => .error { reason := 0x06, item := p.lbay }

/-- The assigned bays in the order of placement (R42 step 3). -/
def placementOrder (img : Image) : List ImgBay :=
  (List.range 64).flatMap fun f => (baysOf f).flatMap fun b => img.placement.filter fun p => p.lbay = b && p.sector ≠ 0xFFF

/-! ### Tile remapping (R52, R53) -/

/-- Manhattan distance of two local indices. -/
def localDistance (i j : Nat) : Nat := (i / 16 - j / 16) + (j / 16 - i / 16) + (i % 16 - j % 16) + (j % 16 - i % 16)

/-- One tile of a placed bay moved if its place is dark, with the IDLE tile whose place it takes. -/
def State.moveTile (s : State) (p : ImgBay) (b i : Nat) (acc : Smap Nat Nat) : Except BindFail (Smap Nat Nat) :=
  if p.roles.getD i 0 = 0 ∨ s.tileDark (tileOfBay b i) = false then .ok acc
  else
    let spare := (List.range 256).filter fun j => p.roles.getD j 0 = 0 && !s.tileDark (tileOfBay b j) &&
      (mfind acc (tileOfBay p.lbay j)).isNone
    match leastBy (localDistance i) spare with
    | some j => .ok (acc ++ [(tileOfBay p.lbay i, tileOfBay b j), (tileOfBay p.lbay j, tileOfBay b i)])
    | none => .error { reason := 0x05, item := tileOfBay p.lbay i }

/-! ### Paths (R54-R61) -/

/-- Whether the tile next to `t` in direction `d` may be entered, and that tile. -/
def State.stepTo (s : State) (inside : Nat → Bool) (t d : Nat) : Option Nat :=
  match linkEnd t d with
  | some n => if inside n && s.serviceable n && !s.linkDark t d then some n else none
  | none => none

/-- The cost of leaving by `out` for a packet that came in direction `inn` (4: it starts here): 1, or 2 at a turn (R55). -/
def hopCost (inn out : Nat) : Nat := if inn = 4 ∨ inn = out then 1 else 2

/-- Costs to the destination, from cost `c` up: each element is a tile with the direction of the hop that entered it (4 at
the source) and the exact least cost that remains. -/
def State.costsFrom (s : State) (inside : Nat → Bool) (src dst : Nat) : Nat → Nat → List ((Nat × Nat) × Nat) → List ((Nat × Nat) × Nat)
  | 0, _, seen => seen
  | n + 1, c, seen =>
    if seen.any (·.1 = (src, 4)) then seen
    else
      let back := seen.flatMap fun (e : (Nat × Nat) × Nat) =>
        if e.2 + 2 < c ∨ e.1.2 = 4 then [] else
          match linkEnd e.1.1 (dirNum (opposite (dirOf e.1.2))) with
          | none => []
          | some t =>
            if t = dst ∨ inside t = false ∨ s.serviceable t = false ∨ s.stepTo inside t e.1.2 ≠ some e.1.1 then []
            else ((List.range 5).filter fun d => (decide (d ≠ 4) || decide (t = src)) && decide (e.2 + hopCost d e.1.2 = c)).map
              fun d => (t, d)
      let new := (back.filter fun k => !seen.any (·.1 = k)).eraseDups
      State.costsFrom s inside src dst n (c + 1) (seen ++ new.map fun k => (k, c))

/-- The path that takes the lower-numbered direction where least-cost paths differ (R58). -/
def State.walkPath (s : State) (inside : Nat → Bool) (dst : Nat) (costs : List ((Nat × Nat) × Nat)) : Nat → Nat → Nat → Nat → List Nat
  | 0, _, _, _ => []
  | n + 1, t, inn, rem =>
    if t = dst then [t]
    else match (List.range 4).find? fun d => match s.stepTo inside t d with
        | some k => costs.any fun e => e.1 = (k, d) && e.2 + hopCost inn d = rem
        | none => false with
      | some d => t :: State.walkPath s inside dst costs n ((linkEnd t d).getD t) d (rem - hopCost inn d)
      | none => []

/-- The least-cost path between two tiles inside a region, none where there is none (R57, R58). `size` bounds the tiles of
the region. -/
def State.leastPath (s : State) (inside : Nat → Bool) (size src dst : Nat) : Option (List Nat) :=
  if src = dst then some [src]
  else if inside src = false ∨ inside dst = false ∨ s.serviceable src = false ∨ s.serviceable dst = false then none
  else
    let costs := s.costsFrom inside src dst (8 * size + 2) 1 ((List.range 4).map fun d => ((dst, d), 0))
    match costs.find? (·.1 = (src, 4)) with
    | some e => some (s.walkPath inside dst costs (e.2 + 1) src 4 e.2)
    | none => none

/-- Direction of each hop of a path. -/
def pathDirs (p : List Nat) : List Nat :=
  (p.zip (p.drop 1)).map fun (e : Nat × Nat) => ((List.range 4).find? fun d => linkEnd e.1 d = some e.2).getD 4

/-- Cost of a path (R55). -/
def pathCost (p : List Nat) : Nat :=
  let ds := pathDirs p
  ds.length + ((ds.zip (ds.drop 1)).filter fun (e : Nat × Nat) => e.1 ≠ e.2).length

/-- A branch joined to the tree of the earlier branches at the router furthest along it that the tree holds (R355). -/
def joinTree (earlier : List (List Nat)) (p : List Nat) : List Nat :=
  match ((List.range p.length).reverse).find? fun k => earlier.any fun q => q.contains (p.getD k 0) with
  | none => p
  | some k => match earlier.find? fun q => q.contains (p.getD k 0) with
    | some q => q.takeWhile (· ≠ p.getD k 0) ++ p.drop k
    | none => p

/-- What the routes of an image bind in: the image, the bind table so far and the snapshot's state. -/
structure RouteBind where
  img : Image
  bt : BindTable
  s : State

/-- The tiles inside which a route's paths lie (R57): the bays of its sector, or of its two. -/
def RouteBind.inside (x : RouteBind) (r : ImgRoute) (t : Nat) : Bool :=
  let secs := imgSectorOf x.img r.src :: (if r.scope = 1 then [imgSectorOf x.img r.dst] else [])
  x.bt.bays.any fun (e : Nat × Nat) => e.2 = bayOf t &&
    (match x.img.placement.find? (·.lbay = e.1) with | some p => secs.contains p.sector | none => false)

/-- A route's own least-cost path, and its return path (R57, R61). -/
def RouteBind.path (x : RouteBind) (r : ImgRoute) (back : Bool) : Option (List Nat) :=
  let a := x.bt.physical r.src
  let b := x.bt.physical r.dst
  let size := 256 * x.bt.bays.length
  if back then x.s.leastPath (x.inside r) size b a else x.s.leastPath (x.inside r) size a b

/-- Branches of a multicast group in ascending destination index. -/
def branchesOf (img : Image) (g : Nat) : List ImgRoute :=
  match img.mcast.find? (·.group = g) with
  | some m => m.dests.flatMap fun d => img.routes.filter fun r => r.group = g && r.dst = d
  | none => []

/-- Paths of a group's branches, each joined to the tree of the earlier ones (R355). -/
def RouteBind.tree (x : RouteBind) (g : Nat) : List (ImgRoute × Option (List Nat)) :=
  (branchesOf x.img g).foldl (fun acc r =>
    let done := acc.filterMap fun (e : ImgRoute × Option (List Nat)) => e.2
    acc ++ [(r, (x.path r false).map (joinTree done))]) []

/-- One route bound: its path and return path, each checked (R59-R61). -/
def RouteBind.route (x : RouteBind) (r : ImgRoute) : Except BindFail BoundPath :=
  let path := if r.group = 0xFFFF then x.path r false else ((x.tree r.group).find? (·.1 = r)).bind (·.2)
  let logical := dimCost r.src r.dst
  let check (p : Option (List Nat)) (mark : Nat) : Except BindFail (List Nat) :=
    match p with
    | none => .error { reason := 0x07, item := r.route + mark }
    | some q =>
      if logical + r.allow < pathCost q then
        .error { reason := 0x08, item := r.route + mark, excess := min 63 (pathCost q - logical) }
      else .ok q
  match check path 0 with
  | .error e => .error e
  | .ok p => match check (x.path r true) (2 ^ 23) with
    | .error e => .error e
    | .ok b =>
      let dests := match x.img.mcast.find? (·.group = r.group) with | some m => m.dests | none => []
      .ok { route := r.route, branch := (dests.takeWhile (· ≠ r.dst)).length % 8, path := p, back := b }

/-- Routes in the order of checking (R42 step 5). -/
def routeOrder (img : Image) : List ImgRoute :=
  (img.routes.mergeSort fun a b => decide (imgSectorOf img a.src < imgSectorOf img b.src) ||
    (decide (imgSectorOf img a.src = imgSectorOf img b.src) && decide (a.route ≤ b.route)))

/-! ### Light-list entries (R349, R350, R355, R356, R62) -/

/-- A hop of a bound path: the router, arrival port, output, destination, source bay, and whether dimension order agrees. -/
structure Hop where
  at_ : Nat
  inp : Nat
  out : Nat
  dest : Nat
  bay : Nat
  straight : Bool
  deriving DecidableEq, Repr

/-- The hops of a path on a plane. -/
def hopsOf (control : Bool) (p : List Nat) : List Hop :=
  let src := p.headD 0
  let dst := p.getLastD 0
  let ds := pathDirs p
  ((p.zip ds).zip (4 :: ds)).map fun (e : (Nat × Nat) × Nat) =>
    { at_ := e.1.1, inp := if e.2 = 4 then 4 else dirNum (opposite (dirOf e.2)), out := e.1.2, dest := dst, bay := bayOf src
      straight := dimensionOrder control e.1.1 dst = dirOf e.1.2 }

/-- A detour entry (R380): the plane, its source bay if it is scoped. -/
def detourWord (control : Bool) (h : Hop) (src : Bool) : Nat :=
  (if src then 2 ^ 63 + h.bay * 2 ^ 32 else 0) + 2 ^ 31 + (if control then 2 ^ 30 else 0) + h.inp * 2 ^ 24 + h.out * 2 ^ 20 + h.dest

/-- Whether two hops match one entry without source scope. -/
def Hop.meets (a b : Hop) : Bool := a.dest = b.dest && a.inp = b.inp

/-- Detour entries of a router from the hops of its plane: those with source scope, then those without; none where no entry
can tell two routes apart (R350). -/
def detours (control : Bool) (hs : List Hop) : Option (List Nat) :=
  let torn (h : Hop) : Bool := hs.any fun k => h.meets k && k.out ≠ h.out
  if hs.any (fun h => hs.any fun k => h.meets k && k.out ≠ h.out && (control || k.bay = h.bay)) then none
  else
    let own := hs.filter fun h => !h.straight
    some (((own.filter torn).map (detourWord control · true)).eraseDups ++
      ((own.filter fun h => !torn h).map (detourWord control · false)).eraseDups)

/-- The multicast entry of a router for a group (R356), if a branch passes it. -/
def forkWord (g t : Nat) (branches : List BoundPath) : List Nat :=
  let here := branches.filter fun b => b.path.contains t
  if here = [] then []
  else
    let outs := here.map fun b => if b.path.getLastD 0 = t then 4 else
      ((pathDirs b.path).zip b.path |>.find? (fun (e : Nat × Nat) => e.2 = t)).map (·.1) |>.getD 4
    let didx := match here.find? fun b => b.path.getLastD 0 = t with | some b => b.branch | none => 0
    let fork := outs.eraseDups.foldl (fun v o => v + 2 ^ (55 + o)) 0
    [didx * 2 ^ 60 + fork + 2 ^ 31 + 2 ^ 29 + 7 * 2 ^ 24 + g]

/-- Entries of a router, none where they cannot be told apart. -/
def routerEntries (img : Image) (paths : List BoundPath) (t : Nat) : Option (List Nat) :=
  let groupOf (b : BoundPath) : Nat := (img.routes.find? (·.route = b.route)).elim 0xFFFF (·.group)
  let data := (paths.filter fun b => groupOf b = 0xFFFF).flatMap fun b => (hopsOf false b.path).filter (·.at_ = t)
  let ctl := paths.flatMap fun b => (hopsOf true b.back).filter (·.at_ = t)
  match detours false data, detours true ctl with
  | some a, some b =>
    some (a ++ b ++ img.mcast.flatMap fun m => forkWord m.group t (paths.filter fun p => groupOf p = m.group))
  | _, _ => none

/-- Step 6: every router's entries; the lowest tile where they exceed the 32 places of a copy or cannot be told apart fails (R62,
R347). The WAFER entries that a router holds are not counted: what binds depends on the image and the map alone (R39;
DESIGN CHOICE, assumption 51). -/
def bindEntries (img : Image) (paths : List BoundPath) : Except BindFail (Smap Nat (List Nat)) :=
  let tiles := (paths.flatMap fun b => b.path ++ b.back).eraseDups
  let es := tiles.map fun t => (t, routerEntries img paths t)
  let bad := es.filter fun (e : Nat × Option (List Nat)) => match e.2 with
    | some l => decide (32 < l.length)
    | none => true
  match minOf (bad.map (·.1)) with
  | some t => .error { reason := 0x09, item := t }
  | none => .ok (es.filterMap fun e => match e.2 with | some (x :: xs) => some (e.1, x :: xs) | _ => none)

/-! ### All steps (R42) -/

/-- How far a binding came: bays displaced once step 3 is complete, tiles moved once step 4 is, and its end. -/
structure BindRun where
  displaced : Nat := 0
  moved : Nat := 0
  result : Except BindFail BindTable

/-- The steps of R42 on a snapshot of the merged map; `s` is the machine with that map in place of its own. -/
def State.bindSteps (s : State) (img : Image) : BindRun :=
  match s.assignLenses img with
  | .error e => { result := .error e }
  | .ok lenses =>
    match (placementOrder img).foldlM (fun acc p => s.placeBay img p acc) ([], []) with
    | .error e => { result := .error e }
    | .ok (bays, _) =>
      let displaced := min 4095 (bays.filter fun (e : Nat × Nat) => e.1 ≠ e.2).length
      let moves := (placementOrder img).flatMap fun p => (List.range 256).map fun i => (p, i)
      match moves.foldlM (fun acc (e : ImgBay × Nat) => s.moveTile e.1 (mget e.1.lbay bays e.1.lbay) e.2 acc) [] with
      | .error e => { displaced := displaced, result := .error e }
      | .ok tiles =>
        let moved := min 4095 (tiles.length / 2)
        let bt : BindTable := { lenses := lenses, panels := s.panelMap img lenses, bays := bays, tiles := tiles }
        match (routeOrder img).mapM (RouteBind.route { img := img, bt := bt, s := s }) with
        | .error e => { displaced := displaced, moved := moved, result := .error e }
        | .ok paths => match bindEntries img paths with
          | .error e => { displaced := displaced, moved := moved, result := .error e }
          | .ok es => { displaced := displaced, moved := moved, result := .ok { bt with paths := paths, entries := es } }

/-- The machine with a snapshot in place of its merged map. -/
def State.withMap (s : State) (m : List Defect) : State := { s with fuses := { s.fuses with records := m }, live := [] }

/-- The binding under way ends: BOUND with its table, or FAILED with its reason and item. -/
def State.endBind (s : State) : State :=
  match s.bindMap, s.candidate with
  | some m, some img =>
    let run := (s.withMap m).bindSteps img
    let s : State := { s with bindMap := none }
    match run.result with
    | .ok bt => (({ s with boundTo := some bt } : State).bindReport 2 0 0 0 run.displaced run.moved).finishOp .bind mbOk []
    | .error e => (({ s with boundTo := none } : State).bindReport 3 e.reason e.item e.excess run.displaced run.moved).finishOp
        .bind mbBindFailed []
  | _, _ => s

/-! ### The BIND command -/

/-- Whether a patch, load or restore is being applied. -/
def State.loading (s : State) : Bool := s.loadRun.isSome

/-- Whether the candidate is a valid restore candidate (R852). -/
def State.restoreHeld (s : State) : Bool :=
  match s.candidate, s.loaded with
  | some c, some b => decide (s.gf F.stnImageStatus_state = 2) && decide (c.kind = 0) && decide (c.digest = b.digest)
  | _, _ => false

/-- Whether the candidate is a patch, which is never bound (R600). -/
def State.patchCandidate (s : State) : Bool := match s.candidate with | some c => decide (c.kind = 1) | none => false

/-- Whether the candidate is a valid patch. -/
def State.patchHeld (s : State) : Bool :=
  match s.candidate with
  | some c => decide (s.gf F.stnImageStatus_state = 2) && decide (c.kind = 1)
  | none => false

/-- The checks with which binding begins, in their order (R42, R41, R73, R74). -/
def State.bindRefusal (s : State) : Option Nat :=
  if s.imageStarted then some 0x0B
  else if s.fuses.mapOk = false then some 0x0A
  else match s.candidate with
    | some c => if s.gf F.stnImageStatus_state ≠ 2 then some 0x01
        else if c.grade = 1 ∧ s.fuses.grade ≠ 1 then some 0x02 else none
    | none => some 0x01

/-- BIND taken: refused, a patch and a restore candidate too (R600, R852), failed at once by a first check, or begun on a snapshot of
the merged map. -/
def State.beginBind (s : State) (slot : Nat) : State :=
  if s.loading = true ∨ s.gf F.stnBindStatus_state = 1 then s.mboxDone slot mbBusy []
  else if s.patchCandidate = true ∨ s.restoreHeld = true then s.mboxDone slot mbBadState []
  else
    let s := s.sf F.stnBindStatus_restarted 0 0 0
    match s.bindRefusal with
    | some r => (s.bindReport 3 r 0 0 0 0).mboxDone slot mbBindFailed []
    | none =>
      let s := (s.sf F.stnBindStatus_state 0 0 1).sf F.stnBindStatus_reason 0 0 0
      { s with bindMap := some s.merged, boundTo := none, mboxJobs := s.mboxJobs ++ [(slot, .bind)] }

/-- BIND (R40, R42): the Keeper takes the command and begins to bind; where that slot's BIND is under way, it ends. -/
def execBind (slot : Nat) (s : State) : Host.Outcome State Fault Refusal :=
  onUnit slot 65 (
    if s.mboxJobs.contains (slot, .bind) then s.endBind
    else s.takeMbox slot 2 s.countWritten [] fun s => s.beginBind slot)

/-- LIVE_RECORD (R32-R34, R70-R72): a live record arrives, as its 64 bits hold it. -/
def execLiveRecord (kind source loc detail : Nat) (s : State) : Host.Outcome State Fault Refusal :=
  .next (s.liveRecord (Defect.ofWord ({ kind := kind, source := source, loc := loc, detail := detail } : Defect).word))

end Sys2Proof.Machine
end

