-- ==== Sys2Proof/Machine/Clocks.lean ====
section
/-! DEFINITION. Clock sources, PLLs, holdover and clock enables (spec/17_clocks_and_reset_domains.md, R717-R732, R747). -/

namespace Sys2Proof.Machine

/-! ### Sources and PLLs -/

/-- The source-status bit of a clock source: 0 XA, 1 XB, 2 FIRC, 3 SIRC. -/
def sourceField : Nat → RegField
  | 0 => F.clkSrcStatus_xa_ok
  | 1 => F.clkSrcStatus_xb_ok
  | 2 => F.clkSrcStatus_firc_ok
  | _ => F.clkSrcStatus_sirc_ok

/-- A source declared lost: its status bit clears and its count rises (R720, R749). -/
def State.sourceLost (s : State) (k : Nat) : State := (s.sf (sourceField k) 0 0 0).bump .clkCountLoss 0 k 1

/-- A PLL's lock bit set or cleared; losing lock sets LOST (R720). -/
def State.setLock (s : State) (k : Nat) (lock : Bool) : State :=
  let s := s.sf F.clkPllStatus_lock 0 k (b2n lock)
  let s := if k = 0 then s.sf F.clkSrcStatus_stn_lock 0 0 (b2n lock) else s
  if lock then s else s.hset F.clkPllStatus_lost 0 k

/-- No source is left for the station PLL (R725, R846): the beacon stops after the current watch. -/
def State.stationClockLost (s : State) : State :=
  ((s.logEv evStationClockLost 64 64 0).sf F.bcnStatus_running 0 0 0).foghorn 2 true (evCode evStationClockLost)

/-- Whether the wafer waits for a reference after R725. -/
def State.clockDead (s : State) : Bool := (s.gf F.stnFoghorn_cause).testBit 2

/-- XA_LOSS (R722, R725, R744): with FIRC good and the station PLL on XA, holdover begins; without, the station's clock is lost. Lost
again before holdover has ended, XA leaves it as it is. -/
def execXaLoss (s : State) : Host.Outcome State Fault Refusal :=
  .next (if s.flag F.clkSrcStatus_xa_ok = false then s
    else
      let s : State := { s.sourceLost 0 with xaLostAt := some s.now }
      if s.flag F.clkSrcStatus_stn_lock = false then s
      else if s.flag F.clkSrcStatus_firc_ok = false then s.stationClockLost
      else
        let again := s.flag F.clkSrcStatus_holdover
        let s := (s.sf F.clkSrcStatus_holdover 0 0 1).sf F.bcnStatus_holdover 0 0 1
        if again then s else (s.logEv evClockHoldover 64 64 0).holdoverLimits)

/-- HOLDOVER_SWITCH (R722): in the first rest interval at least 2 µs after the loss, the station PLL's reference becomes FIRC. -/
def execHoldoverSwitch (s : State) : Host.Outcome State Fault Refusal :=
  .next (match s.xaLostAt with
    | some t =>
      if s.flag F.clkSrcStatus_holdover = false ∨ s.flag F.clkSrcStatus_ref = true ∨ s.flag F.clkSrcStatus_firc_ok = false then s
      else (s.advanceTo (t + 2000)).sf F.clkSrcStatus_ref 0 0 1
    | none => s)

/-- CLOCK_HOLDOVER_END (R723): XA is good again; the reference is XA and both HOLDOVER bits clear at the beacon. -/
def execClockHoldoverEnd (s : State) : Host.Outcome State Fault Refusal :=
  .next (if s.flag F.clkSrcStatus_holdover = false ∨ s.flag F.clkSrcStatus_xa_ok = false then s
    else
      let s := ((s.sf F.clkSrcStatus_holdover 0 0 0).sf F.bcnStatus_holdover 0 0 0).sf F.clkSrcStatus_ref 0 0 0
      ({ s with xaLostAt := none } : State).logEv evClockHoldoverEnd 64 64 0)

/-- The link of a rim port goes down (R726, R728). -/
def State.linkDown (s : State) (target : Nat) : State :=
  if target < 4 then s.sf F.stnStartupPorts_pcie 0 0 (setBits (s.gf F.stnStartupPorts_pcie) target target 0)
  else if target < 20 then
    (s.sf F.stnStartupPorts_cxl 0 0 (setBits (s.gf F.stnStartupPorts_cxl) (target - 4) (target - 4) 0)).sf
      F.stgEngineStatus_link_down 0 (target - 4) 1
  else s.sf F.stnStartupPorts_jalfen 0 0 (setBits (s.gf F.stnStartupPorts_jalfen) (target - 20) (target - 20) 0)

/-- The rim ports of a rim. -/
def portsOfRim (r : Nat) : List Nat := (List.range 28).filter fun t => rimOf t = r

/-- REFCLK_LOST (R726, R744): XB is lost: every rim PLL group loses lock and every rim link goes down. Resets of rim ports are
abandoned until XB is good; their requests wait. -/
def execRefclkLost (s : State) : Host.Outcome State Fault Refusal :=
  .next (if s.flag F.clkSrcStatus_xb_ok = false then s
    else
      let s := s.sourceLost 1
      let s := s.each (List.range 4) fun s r => if s.flag F.clkPllStatus_lock 0 (129 + r) then s.setLock (129 + r) false else s
      let s : State := { s with resets := s.resets.filter (·.domain ≠ 4) }
      let s := if s.resets = [] then s.sf F.rstStatus_busy 0 0 0 else s
      (s.each (List.range 28) State.linkDown).logEv evRefclkLost 64 64 0)

/-- CLOCK_LOSS (R725, R727): FIRC, or SIRC, is lost. -/
def execClockLoss (sirc : Bool) (s : State) : Host.Outcome State Fault Refusal :=
  let k := if sirc then 3 else 2
  .next (if s.flag (sourceField k) = false then s
    else
      let s := s.sourceLost k
      if s.flag F.clkSrcStatus_xa_ok then s.logEv evClockLoss 64 k 0
      else if sirc = false ∧ s.flag F.clkSrcStatus_stn_lock = true then s.stationClockLost
      else s)

/-- A field PLL loses lock during its field's reset: the reset restarts from its first step, its recovery time afresh (R744). -/
def State.restartReset (s : State) (f pll : Nat) : State :=
  if s.resets.any fun j => j.domain = 3 && j.target = f then
    let s := (s.hset F.clkPllStatus_lost 0 pll).logEv evPllUnlock f f pll
    { s with resets := s.resets.map fun j => if j.domain = 3 ∧ j.target = f then { j with begun := s.now } else j }
  else s

/-- PLL_UNLOCK (R720, R728, R744): a field PLL stops its field's clocks and fogs it; the ports of a rim PLL group go down. -/
def execPllUnlock (pll : Nat) (s : State) : Host.Outcome State Fault Refusal :=
  onUnit pll 133 (if s.flag F.clkPllStatus_lock 0 pll = false then
      if 1 ≤ pll ∧ pll < 129 then s.restartReset ((pll - 1) % 64) pll else s
    else
      let s := s.setLock pll false
      if pll = 0 then s
      else if pll < 129 then
        let f := (pll - 1) % 64
        (s.logEv evPllUnlock f f pll).fogField f (evCode evPllUnlock) false
      else s.each (portsOfRim (pll - 129)) State.linkDown)

/-- SOURCE_GOOD (R721, R725, R726): a source, or a PLL that has relocked, is good again. With XB, the Keeper resets every rim
port; with a reference for a station that has lost its clock, it resets the station. -/
def execSourceGood (source : Nat) (s : State) : Host.Outcome State Fault Refusal :=
  onUnit source 137 (
    if source < 4 then
      if s.flag (sourceField source) then s
      else
        let s := s.sf (sourceField source) 0 0 1
        if source = 1 then
          let used := (if s.flag F.pwrRailStatus_enabled 0 129 then List.range 4 else []) ++
            if s.stepsDone.contains 4 then (List.range 24).map (· + 4) else []
          s.each used fun s t => s.beginReset 4 t 2 none
        else if s.clockDead = true ∧ (source = 0 ∨ source = 2) then s.commandStation 6 none
        else s
    else
      let k := source - 4
      let fed := if 129 ≤ k then s.flag F.clkSrcStatus_xb_ok else s.flag F.clkSrcStatus_stn_lock || decide (k = 0)
      if fed then s.setLock k true else s)

/-- FIRC_TRIM (R719, R724): the trim that keeps FIRC within 0.1 % of 200 MHz. No register shows it. -/
def execFircTrim (s : State) : Host.Outcome State Fault Refusal := .next s

/-! ### Clock enables (R729-R731) -/

/-- The defined bits of a word of `CLK_ENABLE` (R748). -/
def enableMask (i : Nat) : Nat := if i < 64 then 0x1F else if i = 64 then 0xFF0F else if i = 65 then 0xFFFFFFFF else 0xFF

/-- Whether a block is idle (R730). -/
def State.blockIdle (s : State) (i b : Nat) : Bool :=
  if i < 64 then
    if b < 4 then
      let x := s.lens (i * 4 + b)
      x.exec.isNone && x.next.isNone && decide (x.queue = []) && decide (x.engine = [])
    else
      let x := s.mv i
      x.exec.isNone && decide (x.queue = [])
  else if i = 64 then
    if b < 4 then !(s.gf F.stnStartupPorts_pcie).testBit b else !(s.gf F.stnStartupPorts_jalfen).testBit (b - 8)
  else if i = 65 then
    if b < 16 then !(s.gf F.stnStartupPorts_cxl).testBit b
    else !s.orders.any fun o => o.plan.device = b - 16 && !o.failed && o.completeAt.isNone && s.orderBegun o
  else true

/-- The clock of a block stops. -/
def State.stopClock (s : State) (i b : Nat) : State :=
  s.sf F.clkRunning_run 0 i (setBits (s.gf F.clkRunning_run 0 i) b b 0)

/-- The clock of a block starts, the block in its reset state (R730). -/
def State.startClock (s : State) (i b : Nat) : State :=
  let s := s.sf F.clkRunning_run 0 i (setBits (s.gf F.clkRunning_run 0 i) b b 1)
  if 64 ≤ i then s
  else if b < 4 then
    let mine (e : RegKey × BitVec 64) : Bool := (rowsLns.map (·.reg)).contains e.1.reg && decide (e.1.unit = i * 4 + b)
    { s with lenses := mdel s.lenses (i * 4 + b), regs := s.regs.filter fun e => !mine e }
  else
    let mine (e : RegKey × BitVec 64) : Bool := (rowsMve.map (·.reg)).contains e.1.reg && decide (e.1.unit = i)
    { s with mvs := mdel s.mvs i, regs := s.regs.filter fun e => !mine e }

/-- A word of `CLK_ENABLE` set by the Keeper: a staging engine's bit needs its port's (R731); clocks start at once, and stop where
the block is idle. -/
def State.setEnable (s : State) (i v : Nat) : State :=
  let v := Nat.land v (enableMask i)
  let v := if i = 65 then v % 2 ^ 16 + Nat.land (v / 2 ^ 16) (v % 2 ^ 16) * 2 ^ 16 else v
  let s := s.sf F.clkEnable_en 0 i v
  s.each (List.range 32) fun s b =>
    let on := (s.gf F.clkRunning_run 0 i).testBit b
    if v.testBit b = true ∧ on = false then s.startClock i b
    else if v.testBit b = false ∧ on = true ∧ s.blockIdle i b = true then s.stopClock i b
    else s

/-- CLK_ENABLE_WRITE (R729): the Keeper's write of a word; any other is ignored and logged. -/
def execClkEnableWrite (req : Requester) (index value : Nat) (s : State) : Host.Outcome State Fault Refusal :=
  onUnit index 67 (match req with
    | .keeper _ => s.setEnable index value
    | _ => s.refuse 64 req (0x20100 + 4 * index))

/-- CLOCK_STOP (R730): a block whose enable bit is 0 has become idle. -/
def execClockStop (index bit : Nat) (s : State) : Host.Outcome State Fault Refusal :=
  onUnit index 67 (if (s.gf F.clkEnable_en 0 index).testBit bit = false ∧ (s.gf F.clkRunning_run 0 index).testBit bit = true ∧
      s.blockIdle index bit = true then s.stopClock index bit else s)

/-- CLOCK_LOSS_EACH_MINUTE (R747, R770): a minute of start-up's wait for XA in CLOCKS, or for holdover to end before the beacon.
-/
def execClockLossEachMinute (s : State) : Host.Outcome State Fault Refusal :=
  let inClocks := s.stepsDone.contains 1 && !s.stepsDone.contains 2 && !s.flag F.clkSrcStatus_xa_ok
  let inBeacon := s.stepsDone.contains 5 && !s.flag F.bcnStatus_running && !s.stepsDone.contains 6 && s.flag F.clkSrcStatus_holdover
  .next (if inClocks = false ∧ inBeacon = false then s
    else
      let s := match s.minuteLog with
        | some t => s.advanceTo (t + 60000000000)
        | none => s
      ({ s with minuteLog := some s.now } : State).logEv evClockLoss 64 0 0)

end Sys2Proof.Machine
end

