-- ==== Sys2Proof/Machine/TileArith.lean ====
section
/-! DEFINITION. Arithmetic, conversion, comparison and predicate instructions of the tile (R208-R215, R479). -/

namespace Sys2Proof.Machine

/-- An integer lane operation of format R (R208): latency 1 (R143). -/
def rLane (f : Word → Word → Word) (x : Ctx) (s : State) : State :=
  match x.inst with
  | .reg _ _ _ d a b _ => execLane x d.toNat 1 (fun k => f (x.operand a k) (x.operand b k)) s
  | _ => s

/-- The format of a float instruction. -/
def fmtField (fmt : BitVec 4) : Fmt := (fmtOfCode fmt.toNat).getD .fp32

/-- A float lane operation of format R on A, B and, for FMA, D (R210, R479): latency 4 (R143). -/
def fLane (op : FVal → FVal → FVal → FVal) (x : Ctx) (s : State) : State :=
  match x.inst with
  | .reg _ _ _ d a b fmt =>
    execLane x d.toNat 4 (fun k => arithReg (fmtField fmt) op (x.operand a k) (x.operand b k) (x.operand d k)) s
  | _ => s

/-- Source lane B[2:0] of A (R208). -/
def shflVal (x : Ctx) (a b : BitVec 6) (k : Nat) : Word := x.operand a ((x.operand b k).toNat % 8)

/-- DOT (R211): two signed byte products, or one signed 16-bit product, added to D with wrap. -/
def dotVal (fmt : BitVec 4) (a b d : Word) : Word :=
  if fmt = 3 then
    d + (a.extractLsb' 0 8).signExtend 32 * (b.extractLsb' 0 8).signExtend 32 +
      (a.extractLsb' 8 8).signExtend 32 * (b.extractLsb' 8 8).signExtend 32
  else d + (a.extractLsb' 0 16).signExtend 32 * (b.extractLsb' 0 16).signExtend 32

/-- Word operations of the integer opcodes (R208). -/
def shlVal (a b : Word) : Word := a <<< (b.toNat % 32)
def shrVal (a b : Word) : Word := a >>> (b.toNat % 32)
def sarVal (a b : Word) : Word := a.sshiftRight (b.toNat % 32)
def minVal (a b : Word) : Word := if b.slt a then b else a
def maxVal (a b : Word) : Word := if a.slt b then b else a
def minuVal (a b : Word) : Word := if b.ult a then b else a
def maxuVal (a b : Word) : Word := if a.ult b then b else a

/-- CVT (R214): FP32 to another format, or another format to FP32. -/
def cvtVal (src dst : Nat) (w : Word) : Word :=
  if src = 10 then cvtFromFp32 ((fmtOfCode dst).getD .i32) w else cvtToFp32 ((fmtOfCode src).getD .i32) w

/-- The SFU function of B[5:4] (R215). -/
def sfuFnOf (b : BitVec 6) : SfuFn :=
  match b.toNat / 16 with
  | 0 => .recip | 1 => .rsqrt | 2 => .exp2 | _ => .log2

/-- SFU (R215): a domain violation in an active lane traps where T is set; otherwise each lane takes its result, and
the unit stays busy for 4 cycles (R143). A DEAD operand raises no trap (R551). -/
def sfuBody (x : Ctx) (s : State) : State :=
  match x.inst with
  | .reg _ _ _ d a b _ =>
    if b.getLsbD 3 && !x.dead &&
        (x.lanes.any fun k => sfuDomain (sfuFnOf b) (decodeFloat .fp32 (x.operand a k).toNat)) then
      s.issueTrap x.t x.g x.cyc 0x0D 0
    else
      let s := execLane x d.toNat 12 (fun k => sfuEval (sfuFnOf b) (x.operand a k)) s
      s.setTil x.t { s.til x.t with sfuFree := s.after x.t x.cyc 4 }
  | _ => s

/-- MOVI, MOVHI, ADDI (R209). -/
def immVal (op : IOp) (imm : BitVec 16) (d : Word) : Word :=
  match op with
  | .movi => imm.signExtend 32
  | .movhi => imm ++ d.extractLsb' 0 16
  | .addi => d + imm.signExtend 32

/-- A lane operation of format I. -/
def immBody (x : Ctx) (s : State) : State :=
  match x.inst with
  | .imm op _ _ d imm => execLane x d.toNat 1 (fun k => immVal op imm (x.operand d k)) s
  | _ => s

/-- ADD (R208). -/
def execAdd (t g : Nat) (s : State) : Host.Outcome State Fault Refusal :=
  onGroup t g (issueAs t g .add (rLane (fun a b => a + b)) s)

/-- SUB (R208). -/
def execSub (t g : Nat) (s : State) : Host.Outcome State Fault Refusal :=
  onGroup t g (issueAs t g .sub (rLane (fun a b => a - b)) s)

/-- MUL (R208). -/
def execMul (t g : Nat) (s : State) : Host.Outcome State Fault Refusal :=
  onGroup t g (issueAs t g .mul (rLane (fun a b => a * b)) s)

/-- AND (R208). -/
def execAnd (t g : Nat) (s : State) : Host.Outcome State Fault Refusal :=
  onGroup t g (issueAs t g .and (rLane (fun a b => a &&& b)) s)

/-- OR (R208). -/
def execOr (t g : Nat) (s : State) : Host.Outcome State Fault Refusal :=
  onGroup t g (issueAs t g .or (rLane (fun a b => a ||| b)) s)

/-- XOR (R208). -/
def execXor (t g : Nat) (s : State) : Host.Outcome State Fault Refusal :=
  onGroup t g (issueAs t g .xor (rLane (fun a b => a ^^^ b)) s)

/-- SHL (R208). -/
def execShl (t g : Nat) (s : State) : Host.Outcome State Fault Refusal :=
  onGroup t g (issueAs t g .shl (rLane shlVal) s)

/-- SHR (R208). -/
def execShr (t g : Nat) (s : State) : Host.Outcome State Fault Refusal :=
  onGroup t g (issueAs t g .shr (rLane shrVal) s)

/-- SAR (R208). -/
def execSar (t g : Nat) (s : State) : Host.Outcome State Fault Refusal :=
  onGroup t g (issueAs t g .sar (rLane sarVal) s)

/-- MIN (R208). -/
def execMin (t g : Nat) (s : State) : Host.Outcome State Fault Refusal :=
  onGroup t g (issueAs t g .min (rLane minVal) s)

/-- MAX (R208). -/
def execMax (t g : Nat) (s : State) : Host.Outcome State Fault Refusal :=
  onGroup t g (issueAs t g .max (rLane maxVal) s)

/-- MINU (R208). -/
def execMinu (t g : Nat) (s : State) : Host.Outcome State Fault Refusal :=
  onGroup t g (issueAs t g .minu (rLane minuVal) s)

/-- MAXU (R208). -/
def execMaxu (t g : Nat) (s : State) : Host.Outcome State Fault Refusal :=
  onGroup t g (issueAs t g .maxu (rLane maxuVal) s)

/-- MOV (R208). -/
def execMov (t g : Nat) (s : State) : Host.Outcome State Fault Refusal :=
  onGroup t g (issueAs t g .mov (rLane (fun a _ => a)) s)

/-- SHFL (R208): the source lane need not be active. -/
def execShfl (t g : Nat) (s : State) : Host.Outcome State Fault Refusal :=
  onGroup t g (issueAs t g .shfl (fun x s => match x.inst with
    | .reg _ _ _ d a b _ => execLane x d.toNat 1 (shflVal x a b) s
    | _ => s) s)

/-- MOVI (R209). -/
def execMovi (t g : Nat) (s : State) : Host.Outcome State Fault Refusal :=
  onGroup t g (issueAs t g .movi immBody s)

/-- MOVHI (R209). -/
def execMovhi (t g : Nat) (s : State) : Host.Outcome State Fault Refusal :=
  onGroup t g (issueAs t g .movhi immBody s)

/-- ADDI (R209). -/
def execAddi (t g : Nat) (s : State) : Host.Outcome State Fault Refusal :=
  onGroup t g (issueAs t g .addi immBody s)

/-- FADD (R210, R476). -/
def execFadd (t g : Nat) (s : State) : Host.Outcome State Fault Refusal :=
  onGroup t g (issueAs t g .fadd (fLane (fun a b _ => fadd a b)) s)

/-- FSUB (R210, R476). -/
def execFsub (t g : Nat) (s : State) : Host.Outcome State Fault Refusal :=
  onGroup t g (issueAs t g .fsub (fLane (fun a b _ => fadd a (fneg b))) s)

/-- FMUL (R210, R476). -/
def execFmul (t g : Nat) (s : State) : Host.Outcome State Fault Refusal :=
  onGroup t g (issueAs t g .fmul (fLane (fun a b _ => fmul a b)) s)

/-- FMA (R210, R476). -/
def execFma (t g : Nat) (s : State) : Host.Outcome State Fault Refusal :=
  onGroup t g (issueAs t g .fma (fLane (fun a b d => fadd (fmul a b) d)) s)

/-- FMIN (R479). -/
def execFmin (t g : Nat) (s : State) : Host.Outcome State Fault Refusal :=
  onGroup t g (issueAs t g .fmin (fLane (fun a b _ => fmin a b)) s)

/-- FMAX (R479). -/
def execFmax (t g : Nat) (s : State) : Host.Outcome State Fault Refusal :=
  onGroup t g (issueAs t g .fmax (fLane (fun a b _ => fmax a b)) s)

/-- DOT (R211): latency 3 (R143). -/
def execDot (t g : Nat) (s : State) : Host.Outcome State Fault Refusal :=
  onGroup t g (issueAs t g .dot (fun x s => match x.inst with
    | .reg _ _ _ d a b fmt =>
      execLane x d.toNat 3 (fun k => dotVal fmt (x.operand a k) (x.operand b k) (x.operand d k)) s
    | _ => s) s)

/-- CMP (R212). -/
def execCmp (t g : Nat) (s : State) : Host.Outcome State Fault Refusal :=
  onGroup t g (issueAs t g .cmp (fun x s => match x.inst with
    | .cmp _ _ pd cond a b fmt =>
      execPred x pd.toNat 1 (fun k => cmpBy fmt.toNat cond.toNat (x.operand a k) (x.operand b k)) s
    | _ => s) s)

/-- PLOG (R213). -/
def execPlog (t g : Nat) (s : State) : Host.Outcome State Fault Refusal :=
  onGroup t g (issueAs t g .plog (fun x s => match x.inst with
    | .plog _ _ pd pa pb tt =>
      execPred x pd.toNat 1
        (fun k => plogBit tt ((x.grp.pred pa.toNat).getLsbD k) ((x.grp.pred pb.toNat).getLsbD k)) s
    | _ => s) s)

/-- PFROMU (R213): the whole predicate is set, once, where any lane is active (R202). -/
def execPfromu (t g : Nat) (s : State) : Host.Outcome State Fault Refusal :=
  onGroup t g (issueAs t g .pfromu (fun x s => match x.inst with
    | .reg _ _ _ d a _ _ =>
      let s := s.retire x 1
      let grp := s.grp t g
      s.setGrp t g (if x.em = 0 then grp
        else { grp with p := mput grp.p d.toNat ((x.grp.uni (a.toNat - 0x20)).extractLsb' 0 8)
                        marks := mput grp.marks (0x40 + d.toNat) (if x.dead then .dead else x.mark)
                        ready := mput grp.ready (0x40 + d.toNat) (x.cyc + 1) }).bumpPc
    | _ => s) s)

/-- UFROMP (R213): the uniform register takes the predicate, zero-extended. -/
def execUfromp (t g : Nat) (s : State) : Host.Outcome State Fault Refusal :=
  onGroup t g (issueAs t g .ufromp (fun x s => match x.inst with
    | .reg _ _ _ d a _ _ => execLane x d.toNat 1 (fun _ => (x.grp.pred a.toNat).setWidth 32) s
    | _ => s) s)

/-- CVT (R214): latency 2 (R143). -/
def execCvt (t g : Nat) (s : State) : Host.Outcome State Fault Refusal :=
  onGroup t g (issueAs t g .cvt (fun x s => match x.inst with
    | .reg _ _ _ d a b fmt => execLane x d.toNat 2 (fun k => cvtVal b.toNat fmt.toNat (x.operand a k)) s
    | _ => s) s)

/-- SFU (R215, R485, R486). -/
def execSfu (t g : Nat) (s : State) : Host.Outcome State Fault Refusal := onGroup t g (issueAs t g .sfu sfuBody s)

end Sys2Proof.Machine
end

