-- ==== Sys2Proof/Machine/Debug.lean ====
section
/-! DEFINITION. Debug sessions, group control, the debug register view and the event rings
(spec/22_debug_and_observability.md). -/

namespace Sys2Proof.Machine

/-! ### DEBUG_AUTH (R868-R873, R890) -/

/-- Port of a mailbox slot: 0-3, or 4 for JTAG's own (R874). -/
def portOfSlot (u : Nat) : Nat := u / 16

/-- DEBUG_AUTH taken with one sub-operation (R869): nothing where the next command is another. -/
def State.debugAuth (s : State) (u sub : Nat) (masks : List Nat) (act : State → State) : State :=
  if s.mboxNext = some u ∧ s.gf F.hstMboxStatus_opcode u = 0xD ∧ s.arg u 0 % 4 ≠ sub then s
  else s.takeMbox u 0xD true masks act

/-- Whether a port is locked out (R873). -/
def State.lockedOut (s : State) (port : Nat) : Bool := decide (s.now < mget 0 s.lockEnd port)

/-- DEBUG_AUTH CHALLENGE (R869, R873): a nonce, a free value, valid for 10 s. -/
def execDebugAuthChallenge (slot : Nat) (s : State) : Host.Outcome State Fault Refusal :=
  .next (s.debugAuth slot 0 [3] fun s =>
    let p := portOfSlot slot
    if s.lockedOut p then (s.logEv evDebugAuthFail 64 p 4).mboxDone slot mbDenied []
    else
      let n := (Config.nonce s.nonceCount).toNat
      let s : State := { s with
        nonces := mput s.nonces p s.nonceCount, nonceCount := s.nonceCount + 1
        nonceEnd := mput s.nonceEnd p (s.now + 10000000000) }
      s.mboxDone slot mbOk ((List.range 12).map (fun k => n / 2 ^ (32 * k) % 2 ^ 32) ++
        (List.range 4).map (fun k => s.fuses.serial / 2 ^ (32 * k) % 2 ^ 32) ++ [p]))

/-- A RESPONSE denied, counted towards the lockout (R873, R890). -/
def State.denyResponse (s : State) (u check : Nat) : State :=
  let p := portOfSlot u
  let s := s.logEv evDebugAuthFail 64 p check
  let times := s.now :: ((mget [] s.denials p).filter fun t => s.now < t + 60000000000)
  let s : State := { s with denials := mput s.denials p times }
  let s := if 3 ≤ times.length then
      ({ s with denials := mput s.denials p [], lockEnd := mput s.lockEnd p (s.now + 60000000000) } : State).logEv
        evDebugLockout 64 p 0
    else s
  s.mboxDone u mbDenied []

/-- DEBUG_AUTH RESPONSE (R869-R871, R890): a session with the rights, fields and length asked for, once the port holds a
valid nonce and key digest and signature pass; every RESPONSE consumes the nonce. -/
def execDebugAuthResponse (slot : Nat) (keyOk sigOk : Bool) (s : State) : Host.Outcome State Fault Refusal :=
  let full := 0xFFFFFFFF
  .next (s.debugAuth slot 1 ([3, 7, full, full, 0xFFFFFF, 0, 0, 0] ++ List.replicate 48 full) fun s =>
    let p := portOfSlot slot
    if s.arg slot 4 = 0 then s.mboxDone slot mbRange []
    else
      let valid := (mfind s.nonces p).isSome && decide (s.now < mget 0 s.nonceEnd p)
      let s : State := { s with nonces := mdel s.nonces p }
      if valid = false then (s.logEv evDebugAuthFail 64 p 1).mboxDone slot mbBadState []
      else if keyOk = false then s.denyResponse slot 2
      else if sigOk = false then s.denyResponse slot 3
      else
        let s := s.endSession p
        let s := (s.sf F.stnDebugSession_active 0 p 1).sf F.stnDebugSession_rights 0 p (s.arg slot 1)
        let s := s.sf F.stnDebugSession_remaining 0 p (s.arg slot 4)
        let s := s.wr .stnDebugFields 0 p (BitVec.ofNat 64 (s.arg slot 2 + s.arg slot 3 * 2 ^ 32))
        let s : State := { s with sessionEnd := mput s.sessionEnd p (s.now + s.arg slot 4 * s.gf F.bcnPeriod_period) }
        (s.logEv evDebugAuthOk 64 p (s.arg slot 1)).mboxDone slot mbOk [])

/-- DEBUG_AUTH END (R869, R872); the reserved sub-operation 3 completes with RANGE. -/
def execDebugAuthEnd (slot : Nat) (s : State) : Host.Outcome State Fault Refusal :=
  if s.arg slot 0 % 4 = 3 then .next (s.debugAuth slot 3 [3] fun s => s.mboxDone slot mbRange [])
  else .next (s.debugAuth slot 2 [3] fun s => (s.endSession (portOfSlot slot)).mboxDone slot mbOk [])

/-- DEBUG_SESSION_EXPIRY (R872): WATCHES beacon periods after it opened, a port's session ends. -/
def execDebugSessionExpiry (port : Nat) (s : State) : Host.Outcome State Fault Refusal :=
  onUnit port 5 (match mfind s.sessionEnd port with
    | some t => (s.advanceTo t).endSession port
    | none => s)

/-! ### Group control (R875-R879, R881) -/

/-- The port of a session's requester. -/
def reqPort : Requester → Nat
  | .host p _ => p
  | _ => 4

/-- A HALT, STEP or breakpoint noted as its session's; the Keeper has no session (R872). -/
def State.noteDebug (s : State) (req : Requester) (t k : Nat) : State :=
  match req with
  | .host .. | .jtag => { s with haltedBy := mput s.haltedBy (t, k) (reqPort req) }
  | _ => { s with haltedBy := mdel s.haltedBy (t, k) }

/-- An access to `TGP_CTL` without the GROUP right is ignored and logged (R184, R871). -/
def State.groupControl (s : State) (req : Requester) (t g : Nat) (act : State → State) : State :=
  if s.right req 0 (fieldOf t) then act s
  else s.refuse (fieldOf t) req (fieldWin (fieldOf t) (0xA1100 + 4 * g))

/-- HALT (R875, R879, R881): a RUNNING group is HALTED from the next cycle; for any other the bit takes effect later. -/
def execHalt (req : Requester) (t g : Nat) (s : State) : Host.Outcome State Fault Refusal :=
  onGroup t g (s.groupControl req t g fun s =>
    let s := (s.sf F.tgpCtl_halt t g 1).noteDebug req t g
    if (s.grp t g).st = .running then s.haltGroup t g 1 else s)

/-- STEP (R877): asked of a HALTED group; a second one while one is pending is ignored. -/
def execStep (req : Requester) (t g : Nat) (s : State) : Host.Outcome State Fault Refusal :=
  onGroup t g (s.groupControl req t g fun s =>
    let x := s.grp t g
    if x.st = .halted ∧ x.stepPending = false then
      (s.noteDebug req t (16 + g)).setGrp t g { x with stepPending := true }
    else s)

/-- RESUME (R878, R881): a HALTED group is released; a TRAPPED one with HALT set becomes HALTED at its trapping
instruction, with HALT clear it restarts at the next INTAKE. -/
def execResume (req : Requester) (t g : Nat) (s : State) : Host.Outcome State Fault Refusal :=
  onGroup t g (s.groupControl req t g fun s =>
    match (s.grp t g).st with
    | .halted => ({ s with haltedBy := mdel (mdel s.haltedBy (t, 16 + g)) (t, g) } : State).releaseGroup t g
    | .trapped =>
      if s.flag F.tgpCtl_halt t g then s.haltGroup t g 5
      else s.setGrp t g { s.grp t g with released := true }
    | _ => s)

/-- BREAKPOINT (R872, R876, R889): the scan reaches a RUNNING group whose next, ready instruction stands at a breakpoint. The
session that set the breakpoint has halted the group. -/
def execBreakpoint (t g : Nat) (s : State) : Host.Outcome State Fault Refusal :=
  onGroup t g (
    let ready := match nextCycle (s.nextOf t g) with
      | some c => decide (c < settleStart (s.fld (fieldOf t)))
      | none => false
    match s.breakAt t g with
    | some k =>
      if s.scan t = some g ∧ ready = true ∧ (s.grp t g).skipBreak = false ∧ (s.grp t g).st = .running then
        let s : State := match mfind s.haltedBy (t, 8 + k) with
          | some p => { s with haltedBy := mput s.haltedBy (t, g) p }
          | none => s
        (s.haltGroup t g (2 + k)).logEv evGroupHalted (fieldOf t) t (detail2 g (2 + k))
      else s
    | none => s)

/-- The command by which an instruction of one row issues. -/
def execOf (m : Mnem) (t g : Nat) (s : State) : Host.Outcome State Fault Refusal :=
  match m with
  | .nop => execNop t g s
  | .end_ => execEnd t g s
  | .bra => execBra t g s
  | .bany => execBany t g s
  | .bnone => execBnone t g s
  | .pushif => execPushif t g s
  | .else_ => execElse t g s
  | .pop => execPop t g s
  | .mask => execMask t g s
  | .badd => execBadd t g s
  | .barrive => execBarrive t g s
  | .bset => execBset t g s
  | .bclear => execBclear t g s
  | .bawaitge => execBawaitge t g s
  | .bawaitflag => execBawaitflag t g s
  | .add => execAdd t g s
  | .sub => execSub t g s
  | .mul => execMul t g s
  | .and => execAnd t g s
  | .or => execOr t g s
  | .xor => execXor t g s
  | .shl => execShl t g s
  | .shr => execShr t g s
  | .sar => execSar t g s
  | .min => execMin t g s
  | .max => execMax t g s
  | .minu => execMinu t g s
  | .maxu => execMaxu t g s
  | .shfl => execShfl t g s
  | .mov => execMov t g s
  | .movi => execMovi t g s
  | .movhi => execMovhi t g s
  | .addi => execAddi t g s
  | .fadd => execFadd t g s
  | .fsub => execFsub t g s
  | .fmul => execFmul t g s
  | .fma => execFma t g s
  | .fmin => execFmin t g s
  | .fmax => execFmax t g s
  | .dot => execDot t g s
  | .cmp => execCmp t g s
  | .plog => execPlog t g s
  | .pfromu => execPfromu t g s
  | .ufromp => execUfromp t g s
  | .cvt => execCvt t g s
  | .sfu => execSfu t g s
  | .specBegin => execSpecBegin t g s
  | .specEnd => execSpecEnd t g s
  | .specConfirm => execSpecConfirm t g s
  | .specSquash => execSpecSquash t g s
  | .ld => execLd t g s
  | .st => execSt t g s
  | .rld => execRld t g s
  | .rldu => execRldu t g s
  | .rst => execRst t g s
  | .sendw => execSendw t g s
  | .sendv => execSendv t g s
  | .sendm => execSendm t g s

/-- STEP_ISSUE (R877): the pending STEP of a HALTED group issues its next instruction, past any breakpoint, once that is
ready and the scan comes to it; the group is HALTED again at the following one. An END that waits goes on waiting
(R889). -/
def execStepIssue (t g : Nat) (s : State) : Host.Outcome State Fault Refusal :=
  let x := s.grp t g
  if isTile t = false ∨ 8 ≤ g then .fault .noSuchUnit
  else if x.st ≠ .halted ∨ x.stepPending = false ∨ (s.fld (fieldOf t)).phase ≠ .work then .next s
  else
    let s1 := s.setGrp t g { x with st := .running, skipBreak := true, stepPending := false }
    let m := match s1.nextOf t g with
      | .go _ i => mnemOf i
      | _ => .nop
    match execOf m t g s1 with
    | .next s2 =>
      if (s2.til t).cyc = (s.til t).cyc then .next s
      else
        let s2 : State := { s2 with haltedBy := mdel s2.haltedBy (t, 16 + g) }
        let y := s2.grp t g
        if y.st = .running ∧ y.ended = false then .next (s2.haltGroup t g 4) else .next s2
    | o => o

/-! ### The debug register view (R880) -/

/-- A marker as `DBG_REG` shows it. -/
def markerWord : Marker → Nat
  | .none => 0
  | .tag t => 2 ^ 31 + t * 2 ^ 16
  | .dead => 2 ^ 30

/-- An entry of `DBG_REG`: value, and marker word. Where the four predicates of an entry differ in marker, the specification does
not say which the entry shows: a free value. -/
def State.dbgEntry (s : State) (t g i : Nat) : Nat × Nat :=
  let x := s.grp t g
  let view := (s.til t).view
  let mark (c : Nat) : Nat := markerWord (viewMark view (mget .none x.marks c))
  let preds (k : Nat) : Nat := sumNat ((List.range 4).map fun j =>
    (if k + j = 0 then 255 else (mget (0 : BitVec 8) x.p (k + j)).toNat) * 2 ^ (8 * j))
  let predMark (k : Nat) : Nat :=
    let ms := (List.range 4).map fun j => mark (0x40 + k + j)
    if ms.all (· = ms.headD 0) then ms.headD 0 else (Config.predsMarker ms).toNat
  if i < 256 then ((mget (0 : Word) x.v (i / 8, i % 8)).toNat, mark (i / 8))
  else if i < 272 then ((mget (0 : Word) x.u (i - 256)).toNat, mark (0x20 + (i - 256)))
  else if i = 272 then (preds 0, predMark 0)
  else if i = 273 then (preds 4, predMark 4)
  else if i = 274 then (x.amask.toNat + x.stack.length * 256, markerWord (viewMark view x.aMark))
  else (x.pc, 0)

/-- A write of the upper word of an entry, of a HALTED group (R880). Loads outstanding for a register written do not write
it any more (R889). -/
def State.dbgPut (s : State) (t g i : Nat) (v : Word) : Option State :=
  let x := s.grp t g
  let drop (s : State) (c : Nat) : State :=
    s.setGrp t g { s.grp t g with loading := mdel (s.grp t g).loading c }
  let clear (m : Smap Nat Marker) (cs : List Nat) : Smap Nat Marker := cs.foldl mdel m
  let preds (k n0 : Nat) : State :=
    let ks := (List.range 4).filter fun j => n0 ≤ k + j
    s.setGrp t g { x with
      p := ks.foldl (fun m j => mput m (k + j) (byteOf v j)) x.p
      marks := clear x.marks (ks.map fun j => 0x40 + k + j) }
  if i < 256 then
    some (drop (s.setGrp t g { x with v := mput x.v (i / 8, i % 8) v, marks := mdel x.marks (i / 8) }) (i / 8))
  else if i < 272 then
    let c := 0x20 + (i - 256)
    some (drop (s.setGrp t g { x with u := mput x.u (i - 256) v, marks := mdel x.marks c }) c)
  else if i = 272 then some (preds 0 1)
  else if i = 273 then some (preds 4 4)
  else if i = 274 then some (s.setGrp t g { x with amask := byteOf v 0, aMark := .none })
  else
    let pc := v.toNat % 65536
    if pc % 4 = 0 ∧ pc < s.sharedBytes t then some (s.setGrp t g { x with pc := pc }) else none

/-- DBG_REG_WRITE (R871, R880): the upper word of entry `index` of the group that `DBG_GROUP_SEL` names, in the tile that
`TIL_WIN_SEL` names; ignored and logged without the WRITE right, for a group not HALTED, or for a bad program counter.
-/
def execDbgRegWrite (req : Requester) (f index : Nat) (value : Word) (s : State) : Host.Outcome State Fault Refusal :=
  onField f (
    let t := s.gf F.tilWinSel_tile f
    let g := s.gf F.dbgGroupSel_group f
    let no := s.refuse f req (fieldWin f (0xB1004 + 8 * index))
    if 276 ≤ index then s
    else if s.right req 1 f = false ∨ (s.grp t g).st ≠ .halted then no
    else (s.dbgPut t g index value).getD no)

/-! ### Event rings (R885, R886) -/

/-- EVENT_RING_WRITE (R886): the oldest pending event of a field enters its ring, 16 cycles after the one before at the earliest;
where events were dropped, the record carries LOST_BEFORE, and one EVENT_LOST is queued, at most once in a watch. A field
without clocks writes nothing. -/
def execEventRingWrite (f : Nat) (s : State) : Host.Outcome State Fault Refusal :=
  onField f (
    let r := s.ring f
    match r.queue with
    | [] => s
    | e :: q =>
      if (s.fld f).fogged = true ∨ s.flag F.fkpStatus_resetting f = true then s
      else
        let s := s.advanceTo r.nextAt
        let e := { e with seq := r.head, lost := r.lostPending }
        let w := (s.fld f).watch
        let due := decide (0 < r.lostNew) && decide (r.lostWatch ≠ some w)
        let l : Event := { code := evCode evEventLost, cls := evEventLost.cls, field := f, watch := w,
                           cycle := s.eventCycle f, loc := f, detail := r.lostNew }
        s.setRing f { r with
          nextAt := s.now + ceilDiv 16000 (max (s.fld f).mhz 1)
          slots := mput r.slots (r.head % 2048) e, head := (r.head + 1) % 2 ^ 32, lostPending := false
          queue := if due then q ++ [l] else q
          lostNew := if due then 0 else r.lostNew, lostWatch := if due then some w else r.lostWatch })

end Sys2Proof.Machine
end

