-- ==== Sys2Proof/Machine/Loading.lean ====
section
/-! DEFINITION. LOAD_IMAGE and validation, START with its loads, patches, restores and restarts, and STOP
(spec/13_efsen_image.md R586-R607; spec/21_faults_hangs_and_recovery.md R852-R854; R117, R129 of
spec/02_beacon_and_watch.md; R527, R828 on what is checked while loading). -/

namespace Sys2Proof.Machine

/-! ### LOAD_IMAGE and validation (R587-R593) -/

/-- Every bit of an argument word. -/
def wholeArg : Nat := 0xFFFFFFFF

/-- The candidate rejected: REASON, STAGE, DETAIL, one event, the command's status (R592). -/
def State.reject (s : State) (stage code sec record : Nat) : State :=
  let s := (s.sf F.stnImageStatus_state 0 0 3).sf F.stnImageStatus_reason 0 0 code
  let s := s.sf F.stnImageStatus_stage 0 0 stage
  let s := (s.sf F.stnImageDetail_section 0 0 sec).sf F.stnImageDetail_record 0 0 (min record 0xFFFFFF)
  (s.logEv evImageRejected 64 64 (detail2 code (sec * 2 ^ 24 + min record 0xFFFFFF))).finishOp .load mbRejected []

/-- A new image becomes the candidate: nothing is bound (R605). A binding under way ends with its candidate. -/
def State.replaceCandidate (s : State) (slot : Nat) (image : Option Image) : State :=
  let s := if s.bindMap.isSome then s.finishOp .bind mbFailed [] else s
  let s : State := { s with
    candidate := image, boundTo := none, bindMap := none, mboxJobs := s.mboxJobs ++ [(slot, .load)] }
  let s := s.sf F.stnBindStatus_state 0 0 0
  let s := (s.wr .stnImageStatus 0 0 1).wr .stnImageDetail 0 0 0
  match image with
  | some img => s.sf F.stnImageStatus_kind 0 0 img.kind
  | none => s.reject 1 0x10 0 0

/-- LOAD_IMAGE (R587, R605, R606, R805): the Keeper reads the image from host memory; a read that fails rejects it. -/
def execLoadImage (slot : Nat) (image : Option Image) (s : State) : Host.Outcome State Fault Refusal :=
  onUnit slot 65 (s.takeMbox slot 1 s.countWritten [wholeArg, wholeArg, wholeArg] fun s =>
    if within 1 65536 (s.arg slot 2) = false then s.mboxDone slot mbRange []
    else if s.gf F.stnImageStatus_state = 1 ∨ s.loading = true then s.mboxDone slot mbBusy []
    else s.replaceCandidate slot image)

/-- IMAGE_VALIDATION (R589-R592): the stages have run; the candidate is VALID or REJECTED. -/
def execImageValidation (s : State) : Host.Outcome State Fault Refusal :=
  .next (
    if s.gf F.stnImageStatus_state ≠ 1 then s
    else match s.candidate with
      | none => s
      | some img => match s.checkImage img with
        | some (stage, code, sec, record) => s.reject stage code sec record
        | none =>
          let s := (s.sf F.stnImageStatus_state 0 0 2).sf F.stnImageStatus_stage 0 0 (if img.kind = 1 then 7 else 6)
          s.finishOp .load mbOk [])

/-! ### START taken (R594, R599, R602, R805, R852, R853) -/

/-- Sector ids in argument words, two to a word from A1 on. -/
def State.startIds (s : State) (slot n : Nat) : List Nat :=
  (List.range n).map fun k => bits (s.arg slot (1 + k / 2)) (k % 2 * 16 + 15) (k % 2 * 16)

/-- The argument bits that START uses with `n` sectors. -/
def startMasks (n : Nat) : List Nat :=
  wholeArg :: if n = 0 then [] else if n ≤ 126 then
      (List.replicate (n / 2) wholeArg) ++ (if n % 2 = 1 then [0xFFFF] else [])
    else if n ≤ 2304 then [wholeArg, wholeArg] else []

/-- The watch of acceptance as result words (R805). -/
def State.watchWords (s : State) : List Nat := [s.stationWatch % 2 ^ 32, s.stationWatch / 2 ^ 32]

/-- Sectors that run again from watch n + 2 (R129, R319): no field holds them quiesced. -/
def State.restartSectors (s : State) (secs : List Nat) : State :=
  let s := s.each secs fun s k => s.updSec k fun y => { y with from_ := s.stationWatch + 2, voidRun := 0 }
  { s with fields := s.fields.map fun (e : Nat × FieldSt) =>
      (e.1, { e.2 with quiesced := e.2.quiesced.filter fun k => !secs.contains k }) }

/-- The floors raised when an image with RAISE_FLOORS starts (R586, R597). -/
def State.raiseFloors (s : State) (img : Image) : State :=
  if img.flags % 2 = 0 then s
  else
    let up := (if floorIn s.live false < img.svn then [Ledger.floor false img.svn] else []) ++
      (if floorIn s.live true < img.key.serial then [Ledger.floor true img.key.serial] else [])
    let s := if up ≠ [] ∧ s.flag F.stnNvInhibit_inhibit = true then s.logEv evFloorDeferred 64 64 0 else s
    s.each up fun s r => s.ledger r

/-- The whole loaded image starts again with no reloading (R599). -/
def State.restartImage (s : State) (slot : Nat) : State :=
  if s.gf F.stnImageLoaded_state ≠ 2 then s.mboxDone slot mbBadState []
  else
    let s := (s.sf F.stnImageLoaded_state 0 0 3).restartSectors (s.sectors.map (·.1))
    let s := match s.loaded with | some img => s.raiseFloors img | none => s
    s.mboxDone slot mbOk s.watchWords

/-- Loading, a patch or a restore begins; the mailbox slot waits for it, and the first stage of the lock engages (R13). -/
def State.beginLoad (s : State) (slot : Nat) (kind : LoadKind) (secs : List Nat) : State :=
  { (s.engageLock false) with
    loadRun := some { kind := kind, begun := s.now, mbox := some slot }
    mboxJobs := s.mboxJobs ++ [(slot, .start secs)] }

/-- START of the bound candidate (R594): the loaded image leaves, and loading begins. -/
def State.startLoad (s : State) (slot n : Nat) : State :=
  if n ≠ 0 ∨ s.imageStarted = true then s.mboxDone slot mbBadState []
  else
    let s := if s.imageLoaded then s.unload else s
    (s.sf F.stnImageLoaded_state 0 0 1).beginLoad slot .full []

/-- The sectors of a patch and those that share an epoch group with one of them. -/
def patchMates (base p : Image) : List Nat :=
  (imgSectors base).filter fun k => (imgSectors p).any fun j => j = k || imgEpochGroup base j = imgEpochGroup base k

/-- START with a held patch (R602, R605). -/
def State.startPatch (s : State) (slot : Nat) (base p : Image) (ids : List Nat) : State :=
  if s.imageStarted = false then s.mboxDone slot mbBadState []
  else if ids.any fun k => !hasSector base k then s.mboxDone slot mbNotFound []
  else if ids.any fun k => !(imgSectors p).contains k && !((patchMates base p).contains k && decide (s.health k = 1)) then
    s.mboxDone slot mbBadState []
  else if (patchMates base p).any fun k => s.health k ≠ 1 then
    (s.sf F.stnImageStatus_reason 0 0 0x23).mboxDone slot mbRejected []
  else (s.sf F.stnImageStatus_state 0 0 4).beginLoad slot .patch ids

/-- Fields reset since the image was loaded, and not restored: its sector groups are no longer written there (R411). -/
def State.emptiedFields (s : State) (img : Image) : List Nat :=
  (List.range 64).filter fun f => img.sectors.any fun k => s.gf F.buySectorGroup_group f k.sector = 0xFFF

/-- Whether a sector owns content that a field holds: a region, a lens panel, an MV descriptor, or its speculation tree
(R853). -/
def State.ownsIn (s : State) (img : Image) (f k : Nat) : Bool :=
  img.regions.any (fun r => r.field = f && r.cfg.testBit 31 && decide (r.cfg % 4096 = k)) ||
    img.lenses.any (fun x => x.field = f && x.owners.contains k) ||
    img.mv.any (fun x => x.field = f && let d := mvDescOf fun w => x.words.getD w 0; d.valid && decide (d.sector = k)) ||
    (img.spec.any (·.sector = k) && decide (s.homeOf k = f))

/-- Whether a field runs: neither held, fogged nor resetting. -/
def State.fieldRuns (s : State) (f : Nat) : Bool := !s.fieldDown f && (s.gf F.stnStartupFields_running).testBit f

/-- START with a restore candidate (R852, R853, R865). -/
def State.startRestore (s : State) (slot : Nat) (img : Image) (ids : List Nat) : State :=
  let gone := s.emptiedFields img
  let owners := ((s.sectors.map (·.1)).filter fun k => s.health k = 3).filter fun k => gone.any fun f => s.ownsIn img f k
  if s.imageStarted = false then s.mboxDone slot mbBadState []
  else if ids.any fun k => !hasSector img k then s.mboxDone slot mbNotFound []
  else if ids.any (fun k => s.health k ≠ 3 || (s.holders k).any fun f => !s.fieldRuns f) = true ∨
      owners.any (fun k => !ids.contains k) = true then s.mboxDone slot mbBadState []
  else if ids.any (fun k => ((imgSectors img).filter (imgLinked img k)).any fun j => (s.fieldsOf j).any fun f =>
      s.flag F.mshEpoch_armed f j || s.flipping f j) = true ∨
      ids.any (fun k => (s.holders k).any fun f =>
        ((s.fld f).draining ++ (s.fld f).drainDue).any fun e => imgLinked img e.1 k) = true then s.mboxDone slot mbBusy []
  else (s.sf F.stnImageStatus_state 0 0 4).beginLoad slot (.restore ids) ids

/-- START naming sectors of the started image: those quiesced run again (R319). -/
def State.startQuiesced (s : State) (slot : Nat) (ids : List Nat) : State :=
  if s.imageStarted = false then s.mboxDone slot mbBadState []
  else if ids.any fun k => (s.sec k).isNone then s.mboxDone slot mbNotFound []
  else if ids.any fun k => s.health k ≠ 1 then s.mboxDone slot mbBadState []
  else (s.restartSectors ids).mboxDone slot mbOk s.watchWords

/-- START taken, with the sectors it names. -/
def State.startCommand (s : State) (slot n : Nat) (ids : List Nat) : State :=
  if s.loading = true ∨ s.gf F.stnBindStatus_state = 1 then s.mboxDone slot mbBusy []
  else if s.restoreHeld then
    match s.candidate with
    | some img => if n = 0 then s.mboxDone slot mbBadState [] else s.startRestore slot img ids
    | none => s
  else if s.patchHeld = true ∧ n ≠ 0 then
    match s.loaded, s.candidate with
    | some base, some p => s.startPatch slot base p ids
    | _, _ => s.mboxDone slot mbBadState []
  else if s.gf F.stnBindStatus_state = 2 ∧ s.gf F.stnImageStatus_state = 2 then s.startLoad slot n
  else if n = 0 then s.restartImage slot
  else s.startQuiesced slot ids

/-- START (R594, R805, R806): `list` is the list of sectors that the Keeper reads from host memory where n is 127 or more. -/
def execStart (slot : Nat) (list : Option (List Nat)) (s : State) : Host.Outcome State Fault Refusal :=
  onUnit slot 65 (
    let n := s.arg slot 0
    s.takeMbox slot 3 s.ready (startMasks n) fun s =>
      if 2304 < n then s.mboxDone slot mbRange []
      else if n ≤ 126 then s.startCommand slot n (s.startIds slot n)
      else match list with
        | some ids => s.startCommand slot n ((List.range n).map fun k => ids.getD k 0xFFFF)
        | none => s.mboxDone slot mbSourceFault [])

/-- STOP (R599, R605): it takes effect at the end of the watch in which it is accepted. -/
def execStop (slot : Nat) (s : State) : Host.Outcome State Fault Refusal :=
  onUnit slot 65 (s.takeMbox slot 4 s.ready [] fun s =>
    if s.loading then s.mboxDone slot mbBusy []
    else if s.imageStarted = false ∨ s.stopAt.isSome = true then s.mboxDone slot mbBadState []
    else { s with stopAt := some s.stationWatch, mboxJobs := s.mboxJobs ++ [(slot, .stop s.stationWatch)] })

/-! ### What is checked while loading (R527, R828) -/

/-- Edges between the links of a path: from each hop to the next, a hop named by the router it leaves and its direction. -/
def pathEdges (p : List Nat) : List ((Nat × Nat) × (Nat × Nat)) :=
  let hops := p.zip (pathDirs p)
  hops.zip (hops.drop 1)

/-- Edges left once those that no cycle can hold are taken away, over and over; `n` bounds the rounds. -/
def trimEdges : Nat → List ((Nat × Nat) × (Nat × Nat)) → List ((Nat × Nat) × (Nat × Nat))
  | 0, es => es
  | n + 1, es =>
    let left := es.filter fun e => es.any (fun k => k.1 = e.2) && es.any fun k => k.2 = e.1
    if left.length = es.length then es else trimEdges n left

/-- Nodes reached from a set in at most `n` rounds. -/
def reachFrom (es : List ((Nat × Nat) × (Nat × Nat))) : Nat → List (Nat × Nat) → List (Nat × Nat)
  | 0, seen => seen
  | n + 1, seen =>
    let more := ((es.filter fun e => seen.contains e.1).map (·.2)).eraseDups.filter fun k => !seen.contains k
    if more = [] then seen else reachFrom es n (seen ++ more)

/-- A tile on a cycle of a plane's graph of router buffers, if it has one (R828). -/
def cycleTile (paths : List (List Nat)) : Option Nat :=
  let es := (paths.flatMap pathEdges).eraseDups
  let left := trimEdges es.length es
  (left.find? fun e => (reachFrom left left.length [e.2]).contains e.1).map fun e => e.1.1

/-- Links that a STAGE packet crosses from a tile to its bay port (R526), at most `n` of them. -/
def State.laneLinks (s : State) (p : Packet) : Nat → Nat → Dir → List (Nat × Nat)
  | 0, _, _ => []
  | n + 1, t, inn => match s.routing t { p with at_ := t, inPort := inn } with
    | .one d => match neighbour t d with
      | some k => (t, dirNum d) :: State.laneLinks s p n k (opposite d)
      | none => []
    | _ => []

/-- The links of a transfer's lanes, where binding placed them, a link once for every lane that crosses it. -/
def State.transferLinks (s : State) (bt : BindTable) (x : ImgTransfer) : List (Nat × Nat) :=
  (bt.lanesOf x).flatMap fun l =>
    let dst := bayPort (bayAt x.field l.2)
    s.laneLinks { id := 0, ty := .stage, vc := 3, len := 4, dest := dst, src := l.1, at_ := l.1, wafer := true } 1536 l.1
      (rimPort x.device l.1)

/-- Whether no link carries more than four lanes in one direction (R527). Transfers into one region are never in progress
together (R528), so each region counts by the transfer that uses the link most. -/
def State.lanesOk (s : State) (img : Image) (bt : BindTable) : Bool :=
  let each := img.staging.map fun x => ((x.field, x.region), (s.transferLinks bt x))
  let regions := (each.map (·.1)).eraseDups
  let links := (each.flatMap (·.2)).eraseDups
  links.all fun l => decide (sumNat (regions.map fun r =>
    ((each.filter (·.1 = r)).map fun e => (e.2.filter (· = l)).length).foldl max 0) ≤ 4)

/-! ### Loading (R595-R598) -/

/-- The tenant slots of a loaded image and the rings its HOST records bind to them; residents stay. -/
def State.bindRings (s : State) (img : Image) : State :=
  let keys := img.characters.flatMap fun t => (List.range t.slots).map fun i => (t.sector, i)
  let ringOf (k : Nat × Nat) : Option Nat :=
    (img.host.find? fun h => h.sector = k.1 && h.slot = k.2).map fun h => ringNum h.port h.fn h.ring
  let rest := s.hostSlots.filter fun (e : (Nat × Nat) × HostSlot) => !keys.contains e.1
  { s with hostSlots := keys.map (fun k => (k, { mget {} s.hostSlots k with ring := ringOf k })) ++
      rest.map fun (e : (Nat × Nat) × HostSlot) => (e.1, { e.2 with ring := none }) }

/-- The sectors of a loaded image, none begun before watch n + 2. -/
def State.sectorTable (s : State) (img : Image) : Smap Nat SectorSt :=
  img.characters.map fun t =>
    let k := img.sectors.find? (·.sector = t.sector)
    (t.sector, { table := t, epochGroup := (k.map (·.epochGroup)).getD t.sector
                 clockGroup := (k.map (·.clockGroup)).getD t.sector
                 now := { char := t.fallback }, next := { char := t.fallback }, after := { char := t.fallback }
                 from_ := s.stationWatch + 2 })

/-- Physical tiles of the bays that a bind table fills. -/
def BindTable.physicalTiles (bt : BindTable) : List Nat :=
  bt.bays.flatMap fun (e : Nat × Nat) => (List.range 256).map (tileOfBay e.2)

/-- The drain bound of every sector, in every field that holds it (R320, R325). -/
def State.writeBounds (s : State) (img : Image) : State :=
  s.each (imgSectors img) fun s k => s.each (s.fieldsOf k) fun s f =>
    s.wr .strDrainBound f k (BitVec.ofNat 64 (min (drainBoundOf img k) 65535))

/-- The structure of an image written where binding placed it (R596 steps 1-8), WAFER entries apart. -/
def State.writeImage (s : State) (img : Image) (bt : BindTable) : State :=
  let s := s.setSettle img.settleLen
  let s := s.writeFields img bt fun _ => true
  let s := s.each bt.physicalTiles fun s t => s.writeRouter img bt [0] t
  let s := s.each (imgSectors img) fun s k => s.each (s.fieldsOf k) fun s f => s.sf F.mshEpoch_current f k 0
  let s := s.each img.spec State.writeTree
  let s := s.each ((imgSectors img).flatMap (imgTilesOf img)) fun s l => s.writeTile img bt l
  let s := s.writeBounds img
  { s with mcast := img.mcast.map fun m => (m.group, m.dests.map bt.physical) }

/-- An image loaded and started (R597), the second stage of the lock engaged (R13): the Keeper's tables, the image registers, the floors; there is no candidate. Sectors that
use what live records have named since START are DOWN (R72). -/
def State.acceptImage (s : State) (img : Image) (bt : BindTable) : State :=
  let news := match s.loadRun with | some r => r.news | none => []
  let s : State := { s with
    loaded := some img, loadedBind := some bt, loadRun := none, candidate := none, boundTo := none
    sectors := s.sectorTable img
    plan := s.plan.map fun (e : Nat × PlanField) => (e.1, ({ base := e.2.base } : PlanField)) }
  let s := (s.bindRings img).sf F.stnPlanStatus_stage 0 0 0
  let s := s.wr .stnImageLoaded 0 0 3
  let s := s.wr .stnImageId 0 0 (BitVec.ofNat 64 img.imageId)
  let s := s.each ((List.range 12).zip img.digest) fun s e => s.wr .stnImageDigest 0 e.1 (BitVec.ofNat 64 (e.2 % 2 ^ 32))
  let s := (s.wr .stnImageStatus 0 0 0).wr .stnImageDetail 0 0 0
  let s := s.sf F.stnBindStatus_state 0 0 0
  let s := s.each news fun s d => s.resourceLost d (evCode evLiveRecord)
  ((s.raiseFloors img).finishOp (.start []) mbOk s.watchWords).engageLock true

/-- IMAGE_LOAD_COMPLETE (R595-R598, R527, R828): the image's structure is written, unless a fault, a routing cycle or the
lane limit stops the loading. `cycle` is what the check of R828 finds in the traffic that WAFER entries carry. -/
def execImageLoadComplete (fault : Option Nat) (cycle : Option Nat) (s : State) : Host.Outcome State Fault Refusal :=
  .next (match s.loadRun, s.candidate, s.boundTo with
    | some { kind := .full, .. }, some img, some bt =>
      match fault with
      | some code => s.failLoading code
      | none =>
        let found := (cycleTile (bt.paths.map (·.path))).orElse fun _ =>
          (cycleTile (bt.paths.map (·.back))).orElse fun _ => cycle
        match found with
        | some t => (s.logEv evRouteCycle 64 t 0).failLoading loadFault
        | none =>
          let s := s.writeImage img bt
          if s.lanesOk img bt = false then s.failLoading 0x22 else s.acceptImage img bt
    | _, _, _ => s)

/-! ### Patches (R602-R604) -/

/-- A patched sector: its tiles reset, routers rewritten in both copies, content loaded (R602). -/
def State.patchSector (s : State) (img : Image) (bt : BindTable) (k : Nat) : State :=
  let s := s.each (bt.sectorTiles img k) fun s t => (s.resetForPatch t).writeRouter img bt [0, 1] t
  let s := s.each (imgTilesOf img k) fun s l => s.writeTile img bt l
  s.each (s.fieldsOf k) fun s f => s.wr .strDrainBound f k (BitVec.ofNat 64 (min (drainBoundOf img k) 65535))

/-- The sectors that the START under way names. -/
def State.startNames (s : State) : List Nat :=
  s.mboxJobs.flatMap fun (e : Nat × MboxOp) => match e.2 with | .start ids => ids | _ => []

/-- A START that loaded a patch or a restore is accepted: its candidate is spent. -/
def State.endStart (s : State) : State :=
  let ids := s.startNames
  let s : State := { s with candidate := none, loadRun := none }
  let s := (s.wr .stnImageStatus 0 0 0).wr .stnImageDetail 0 0 0
  (s.finishOp (.start ids) mbOk s.watchWords).engageLock true

/-- PATCH_APPLY_COMPLETE (R602-R604): the patched sectors hold the patch's content, and every sector that START names runs
from watch n + 2. -/
def execPatchApplyComplete (fault : Bool) (s : State) : Host.Outcome State Fault Refusal :=
  .next (match s.loadRun, s.candidate, s.loaded, s.loadedBind with
    | some { kind := .patch, .. }, some p, some base, some bt =>
      let secs := imgSectors p
      if fault then s.failLoading loadFault
      else
        let img := patched base p
        let s := s.each secs fun s k => s.patchSector img bt k
        let s := s.each p.characters fun s t => s.updSec t.sector fun y => { y with table := t, answered := [] }
        let s := s.restartSectors (secs ++ s.startNames).eraseDups
        let s := s.sf F.stnImageLoaded_patch_count 0 0 (min 65535 (s.gf F.stnImageLoaded_patch_count + 1))
        ({ s with loaded := some img } : State).endStart
    | _, _, _, _ => s)

/-! ### Restores (R853, R854) -/

/-- The inactive copy of a running sector's routers made equal to the active one (R853). -/
def State.mirrorCopy (s : State) (t inactive : Nat) : State :=
  s.each (List.range 32) fun s k =>
    let w := s.rd .mshLlEntry t ((1 - inactive) * 32 + k)
    if w.getLsbD 28 then s else s.wr .mshLlEntry t (inactive * 32 + k) w

/-- The light-list entries of a restored sector: in drain mode where its whole epoch group stands still, else in the inactive
copy, with the group's flip armed for the HANDOVER before its first watch (R853). -/
def State.restoreRoutes (s : State) (img : Image) (bt : BindTable) (ids : List Nat) (k : Nat) : State :=
  let group := (imgSectors img).filter fun j => imgEpochGroup img j = imgEpochGroup img k
  let tiles := bt.sectorTiles img k
  if group.all fun j => 1 ≤ s.health j || ids.contains j then s.each tiles fun s t => s.writeRouter img bt [0, 1] t
  else
    let inactive (f : Nat) : Nat := 1 - s.gf F.mshEpoch_current f k
    let s := s.each tiles fun s t => s.writeRouter img bt [inactive (fieldOf t)] t
    let s := s.each (group.filter fun j => !ids.contains j) fun s j =>
      s.each (bt.sectorTiles img j) fun s t => s.mirrorCopy t (inactive (fieldOf t))
    s.each (group.flatMap fun j => (s.fieldsOf j).map fun f => (f, j)) fun s e =>
      let w := (s.stationWatch + 1) % 65536
      let s := (s.sf F.mshEpoch_armed e.1 e.2 1).sf F.mshEpochCtl_watch_low e.1 e.2 w
      s.setFld e.1 { s.fld e.1 with armed := mput (s.fld e.1).armed e.2 w }

/-- The content of the fields reset since the image was loaded, once they run (R853 step 1). -/
def State.restoreFields (s : State) (img : Image) (bt : BindTable) : State :=
  let fs := (s.emptiedFields img).filter s.fieldRuns
  let s := s.writeFields img bt fun f => fs.contains f
  s.each (img.spec.filter fun x => fs.contains (s.homeOf x.sector)) State.writeTree

/-- RESTORE_COMPLETE (R853, R854, R865): the named sectors hold their content again and run from watch n + 2, but for those
that a live record has meanwhile put DOWN. -/
def execRestoreComplete (fault : Bool) (s : State) : Host.Outcome State Fault Refusal :=
  .next (match s.loadRun, s.candidate, s.loaded, s.loadedBind with
    | some { kind := .restore named, .. }, some img, some base, some bt =>
      let ids := named.filter fun k => s.health k = 3
      if fault = true ∨ ids = [] then s.failLoading loadFault
      else
        let s := s.each (named.filter fun k => !ids.contains k) fun s k =>
          s.logEv { evImageLoadFault with cls := 3 } 64 k loadFault
        let s := s.restoreFields img bt
        let s := s.each (ids.flatMap (imgTilesOf img)) fun s l => s.writeTile img bt l
        let s := s.each ids fun s k => s.restoreRoutes img bt ids k
        let s := s.each (img.characters.filter fun t => ids.contains t.sector) fun s t =>
          s.updSec t.sector fun y => { y with table := t, health := 0, answered := [] }
        let s := s.each ids fun s k => s.each (s.fieldsOf k) fun s f =>
          s.wr .strDrainBound f k (BitVec.ofNat 64 (min (drainBoundOf img k) 65535))
        let keep (t : Nat) : Bool := !ids.contains (imgSectorOf base t)
        let fresh (t : Nat) : Bool := ids.contains (imgSectorOf img t)
        let merged : Image := { base with
          tiles := base.tiles.filter (fun c => keep c.tile) ++ img.tiles.filter fun c => fresh c.tile
          constants := base.constants.filter (fun c => keep c.tile) ++ img.constants.filter fun c => fresh c.tile
          characters := base.characters.filter (fun t => !ids.contains t.sector) ++
            img.characters.filter fun t => ids.contains t.sector
          channels := base.channels.filter (fun c => keep c.tile) ++ img.channels.filter fun c => fresh c.tile
          steering := base.steering.filter (fun c => keep c.tile) ++ img.steering.filter fun c => fresh c.tile }
        (({ s with loaded := some merged } : State).restartSectors ids).endStart
    | _, _, _, _ => s)

end Sys2Proof.Machine
end

