-- ==== Sys2Proof/Machine/Mailbox.lean ====
section
/-! DEFINITION. The mailbox commands on sectors, bays, tenants, cap and period, and the queries
(spec/19_external_interfaces.md R803-R808, R931; spec/21_faults_hangs_and_recovery.md R855-R857; spec/02_beacon_and_watch.md
R112-R116; spec/06_steering.md R315; spec/14_schedule_contract_and_characters.md R629-R631; spec/16_watch_planner.md
R686-R688). -/

namespace Sys2Proof.Machine

/-! ### Drains -/

/-- Whether a load under way stands in the way of draining a sector: a patch of it, or a restore of a linked one (R605,
R865). -/
def State.drainBusy (s : State) (k : Nat) : Bool :=
  match s.loadRun, s.candidate, s.loaded with
  | some run, some img, some base => match run.kind with
    | .full => true
    | .patch => (imgSectors img).contains k
    | .restore ids => ids.any fun j => imgLinked base j k
  | some _, _, _ => true
  | none, _, _ => false

/-- DRAIN_SECTOR (R315, R805): the drain begins at WORK cycle 512 of the next watch in every field that holds the sector. -/
def execDrainSector (slot : Nat) (s : State) : Host.Outcome State Fault Refusal :=
  onUnit slot 65 (s.takeMbox slot 5 s.ready [wholeArg] fun s =>
    let k := s.arg slot 0
    if (s.sec k).isNone then s.mboxDone slot mbNotFound []
    else if s.drainBusy k then s.mboxDone slot mbBusy []
    else if s.imageStarted = false then s.mboxDone slot mbBadState []
    else if (s.fieldsOf k).all fun f => s.isQuiesced f k then
      s.mboxDone slot mbOk [((s.fieldsOf k).map fun f => s.gf F.strDrainStatus_elapsed f).foldl max 0]
    else ({ s with mboxJobs := s.mboxJobs ++ [(slot, .drain k)] } : State).dueDrain k)

/-! ### Bays (R855, R856) -/

/-- RETIRE_BAY (R855): refused while a sector there is started and not quiesced; else due at the next HANDOVER. -/
def execRetireBay (slot : Nat) (s : State) : Host.Outcome State Fault Refusal :=
  onUnit slot 65 (s.takeMbox slot 6 s.ready [wholeArg] fun s =>
    let b := s.arg slot 0
    if 2304 ≤ b then s.mboxDone slot mbNotFound []
    else if s.sectorLive (fieldOfBay b) (s.sectorOfBay b) then s.mboxDone slot mbBadState []
    else { s with retireQueue := s.retireQueue ++ [(b, 5)], mboxJobs := s.mboxJobs ++ [(slot, .retire b)] })

/-- Whether the fused or the live map holds a bay record of a source. -/
def State.bayRecord (s : State) (b source : Nat) : Bool :=
  (s.fuses.records ++ s.liveDefects).any fun d => d.kind = 3 && d.loc = b && d.source = source

/-- RETURN_BAY (R659, R856, R857): the bay ramps, from the HANDOVER of this watch on. -/
def execReturnBay (slot : Nat) (s : State) : Host.Outcome State Fault Refusal :=
  onUnit slot 65 (s.takeMbox slot 7 s.ready [wholeArg] fun s =>
    let b := s.arg slot 0
    if 2304 ≤ b then s.mboxDone slot mbNotFound []
    else if s.bayRecord b 3 = true ∨ (s.bayRecord b 4 = true ∧ s.imageLoaded = true) ∨ s.fieldRuns (fieldOfBay b) = false ∨
        (s.bayState b ≠ 0 ∧ s.bayState b ≠ 5) then s.mboxDone slot mbBadState []
    else ({ s with mboxJobs := s.mboxJobs ++ [(slot, .return_ b)] } : State).askRamp b)

/-- BAY_BIST (R28, R856): a LIT bay has been tested. Where it fails it stays RETIRED; where it passes, traffic may be routed to it from the HANDOVER of the first full watch that follows, and on a
RETURN_BAY its live records go. -/
def execBayBist (bay : Nat) (bad : List (Nat × Nat × Nat)) (s : State) : Host.Outcome State Fault Refusal :=
  onUnit bay 2304 (
    let f := fieldOfBay bay
    if s.bayState bay ≠ 2 ∨ (mget {} s.bays bay).tested = true ∨
        s.resets.any (fun j => domainHolds j.domain j.target 2 bay || (decide (j.domain = 2) && decide (j.target = bay))) = true then s
    else
      let returned := s.mboxJobs.any fun (e : Nat × MboxOp) => e.2 = .return_ bay
      let s := if returned then s.testRecords (ofBay bay) bad else s.failRecords (ofBay bay) bad
      if bad.any fun e => e.1 = 3 && e.2.1 = bay then (s.openGate bay 5).finishOp (.return_ bay) mbFailed []
      else { s with bays := mput s.bays bay { mget {} s.bays bay with tested := true, joins := some ((s.fld f).watch + 1) } })

/-! ### Cap and period -/

/-- SET_CAP (R686): taken at the snapshot, half a period after the beacon; the commands that wait are taken in mailbox
order. -/
def execSetCap (slot : Nat) (s : State) : Host.Outcome State Fault Refusal :=
  onUnit slot 65 (
    let q := s.snapshotAt
    if s.mboxQueue.find? (fun u => s.gf F.hstMboxStatus_opcode u = 8) ≠ some slot then s
    else
      let taken : State := { s with mboxQueue := s.mboxQueue.erase slot }
      if slot = 64 then taken.mboxDone slot mbBadOpcode []
      else if s.beaconStepDone = false then taken.mboxDone slot mbBadState []
      else if q < s.now then s
      else
        let s := taken.advanceTo q
        let v := s.arg slot 0
        if s.argsZero slot [wholeArg] = false ∨ within 2000 22000 v = false then s.mboxDone slot mbRange []
        else (s.sf F.pwrCap_cap 0 0 v).mboxDone slot mbOk [(s.stationWatch + 2) % 2 ^ 32])

/-- A pending period with the watch of its effect, and what `BCN_PERIOD_NEXT` and PERIOD_PENDING show of it (R112). -/
def State.setPending (s : State) (p e : Nat) : State :=
  let s : State := { s with periodDue := some (p, e) }
  (s.wr .bcnPeriodNext 0 0 (BitVec.ofNat 64 (2 ^ 31 + p))).sf F.bcnStatus_period_pending 0 0 1

/-- Whether a period is refused (R113): out of range, outside the image's range, or such that a sector's recovery or fallback
character is not runnable. -/
def State.periodBad (s : State) (p : Nat) : Bool :=
  within 10000 1000000 p = false || match s.loaded with
    | none => false
    | some img => within img.periodMin img.periodMax p = false || img.characters.any fun t =>
      !(match tableChar t t.recovery with | some c => runnable c (charPoint t c).1 p img.settleLen | none => true) ||
      !(match tableChar t t.fallback with
        | some c => t.points.all fun x => runnable c x.1 p img.settleLen
        | none => true)

/-- Whether some field has begun the HANDOVER of watch `n`. -/
def State.handoverBegun (s : State) (n : Nat) : Bool :=
  (List.range 64).any fun f => let x := s.fld f
    decide (x.watch = n) && (decide (x.phase = .handover) || decide (x.phase = .rest))

/-- SET_PERIOD (R112-R115, R605): pending for watch n + 2; it replaces a pending period where the HANDOVER in which that is planned
has not begun, or waits behind it. One that comes while another waits takes that one's place (DESIGN CHOICE, assumption 76). -/
def execSetPeriod (slot : Nat) (s : State) : Host.Outcome State Fault Refusal :=
  onUnit slot 65 (s.takeMbox slot 9 s.beaconStepDone [wholeArg] fun s =>
    let p := s.arg slot 0
    let n := s.stationWatch
    if s.loading then s.mboxDone slot mbBusy []
    else if s.periodBad p then s.mboxDone slot mbRange []
    else match s.periodDue with
      | none => (s.setPending p (n + 2)).mboxDone slot mbOk [(n + 2) % 2 ^ 32]
      | some (_, e) =>
        if n + 2 = e ∧ s.handoverBegun n = false then (s.setPending p e).mboxDone slot mbOk [e % 2 ^ 32]
        else ({ s with periodHeld := some p } : State).mboxDone slot mbOk [(e + 2) % 2 ^ 32])

/-! ### Queries (R805, R931) -/

/-- QUERY taken, where its kind is one the command is about. -/
def State.takeQuery (s : State) (slot : Nat) (kind : Nat → Bool) (masks : List Nat) (act : State → State) : State :=
  if kind (s.arg slot 0) then s.takeMbox slot 0xA true masks act else s

/-- QUERY of kind 0 (R931). A reserved kind is refused with RANGE. -/
def execQueryFirmware (slot : Nat) (s : State) : Host.Outcome State Fault Refusal :=
  onUnit slot 65 (s.takeQuery slot (fun k => k = 0 || 2 < k) [wholeArg] fun s =>
    if s.arg slot 0 ≠ 0 then s.mboxDone slot mbRange []
    else s.mboxDone slot mbOk ([s.gf F.stnFwStatus_svn * 65536 + s.gf F.stnFwStatus_major * 256 + s.gf F.stnFwStatus_minor,
      s.tools.length] ++ s.tools))

/-- Where a tenant is resident: sector, slot and SOURCE_BASE. -/
def State.seatOf (s : State) (t : Nat) : Option (Nat × Nat × Nat) :=
  (s.hostSlots.find? fun (e : (Nat × Nat) × HostSlot) => e.2.tenant = some t).map fun e => (e.1.1, e.1.2, e.2.base)

/-- QUERY of kind 1: a tenant's record. -/
def execQueryTenant (slot : Nat) (s : State) : Host.Outcome State Fault Refusal :=
  onUnit slot 65 (s.takeQuery slot (· = 1) [wholeArg, wholeArg] fun s =>
    let t := s.arg slot 1
    match mfind s.tenants t with
    | none => s.mboxDone slot mbNotFound []
    | some x => s.mboxDone slot mbOk (Config.tenantWords x.cls x.deadline x.prec (s.seatOf t)))

/-- QUERY of kind 2: the residency of a sector. -/
def execQueryResidency (slot : Nat) (s : State) : Host.Outcome State Fault Refusal :=
  onUnit slot 65 (s.takeQuery slot (· = 2) [wholeArg, wholeArg] fun s =>
    let k := s.arg slot 1
    if (s.sec k).isNone then s.mboxDone slot mbNotFound []
    else s.mboxDone slot mbOk (Config.residencyWords k ((List.range (s.slotCount k)).map fun i => (s.hslot k i).tenant)))

/-! ### Tenants (R629, R688, R807) -/

/-- Resident tenants, those to become so among them. -/
def State.residentCount (s : State) : Nat :=
  (s.hostSlots.filter fun (e : (Nat × Nat) × HostSlot) => e.2.tenant.isSome || e.2.due.isSome).length

/-- Whether a tenant is resident in some slot or about to be. -/
def State.seated (s : State) (t : Nat) : Bool :=
  s.hostSlots.any fun (e : (Nat × Nat) × HostSlot) => decide (e.2.tenant = some t) ||
    (match e.2.due with | some d => decide (d.1 = t) | none => false)

/-- The arguments of REGISTER_TENANT out of range (R629, R688, R807). -/
def State.tenantRange (s : State) (u : Nat) : Bool :=
  let k := s.arg u 4
  let base := s.arg u 6 + s.arg u 7 * 2 ^ 32
  decide (262143 < s.arg u 0) || decide (2 < s.arg u 1) || (decide (s.arg u 1 = 0) && decide (s.arg u 2 < 20000)) ||
    decide (s.arg u 3 % 256 = 255) || decide (bits (s.arg u 3) 30 8 ≠ 0) ||
    (decide (k ≠ 0xFFF) && (s.sec k).isSome &&
      (decide (s.slotCount k ≤ s.arg u 5) || (decide (base ≠ 0) && decide (s.slotCount k ≠ 1))))

/-- A tenant registered or updated; with a sector, due in its slot at the next HANDOVER (R687, R807). -/
def State.register (s : State) (u : Nat) : State :=
  let t := s.arg u 0
  let k := s.arg u 4
  let i := s.arg u 5
  let s := s.keepSnapshot
  let s : State := { s with tenants := mput s.tenants t { cls := s.arg u 1, deadline := s.arg u 2, prec := s.arg u 3 } }
  let s := if k = 0xFFF then s
    else s.setHslot k i { s.hslot k i with due := some (t, s.arg u 6 + s.arg u 7 * 2 ^ 32) }
  s.mboxDone u mbOk []

/-- REGISTER_TENANT (R807, R811). -/
def execRegisterTenant (slot : Nat) (s : State) : Host.Outcome State Fault Refusal :=
  onUnit slot 65 (s.takeMbox slot 0xB s.ready (List.replicate 8 wholeArg) fun s =>
    let k := s.arg slot 4
    let x := s.hslot k (s.arg slot 5)
    if s.tenantRange slot then s.mboxDone slot mbRange []
    else if k ≠ 0xFFF ∧ (s.sec k).isNone = true then s.mboxDone slot mbNotFound []
    else if k ≠ 0xFFF ∧ (x.tenant.isSome = true ∨ x.due.isSome = true ∨ s.seated (s.arg slot 0) = true) then
      s.mboxDone slot mbBadState []
    else if k ≠ 0xFFF ∧ 16384 ≤ s.residentCount then s.mboxDone slot mbNoResource []
    else s.register slot)

/-- EVICT_TENANT (R805): the tenant's slot empties at the HANDOVER of its sector. -/
def execEvictTenant (slot : Nat) (s : State) : Host.Outcome State Fault Refusal :=
  onUnit slot 65 (s.takeMbox slot 0xC s.ready [wholeArg] fun s =>
    let t := s.arg slot 0
    if (mfind s.tenants t).isNone then s.mboxDone slot mbNotFound []
    else match s.seatOf t with
      | none => s.mboxDone slot mbBadState []
      | some (k, i, _) =>
        if (s.hslot k i).evicting.isSome then s.mboxDone slot mbBusy []
        else
          let s := s.setHslot k i { s.hslot k i with evicting := some slot }
          { s with mboxJobs := s.mboxJobs ++ [(slot, .evict t)] })

/-- BAD_OPCODE (R808): a reserved opcode. -/
def execBadOpcode (slot : Nat) (s : State) : Host.Outcome State Fault Refusal :=
  onUnit slot 65 (
    let op := s.gf F.hstMboxStatus_opcode slot
    if s.mboxNext ≠ some slot ∨ within 1 14 op = true then s
    else ({ s with mboxQueue := s.mboxQueue.erase slot } : State).mboxDone slot mbBadOpcode [])

end Sys2Proof.Machine
end

