-- ==== Sys2Proof/Machine/Keepers.lean ====
section
/-! DEFINITION. The Keepers and what watches them: the station watchdog, failover, the foghorn's automatic reset, restarts of
Field Keepers, WAFER entries, the hold of a fogged field, and the writes of the beacon's period and SETTLE length
(spec/21_faults_hangs_and_recovery.md R839-R851; spec/02_beacon_and_watch.md R88, R89, R112, R116;
spec/19_external_interfaces.md R810). -/

namespace Sys2Proof.Machine

/-! ### The station watchdog (R843, R844) -/

/-- WATCHDOG_FEED (R790, R843): a write of any value to the doorbell; a feed awaits acknowledgement. -/
def execWatchdogFeed (port value : Nat) (s : State) : Host.Outcome State Fault Refusal :=
  onUnit port 4 (
    let s : State := { s with wdogDoorbell := mput s.wdogDoorbell port (value % 2 ^ 32) }
    s.sf F.stnWdogStatus_fed 0 0 1)

/-- STN_WDOG_ACK (R843, R866): accepted from the Station Keeper only; an acknowledged feed sets the count to 0. -/
def execStnWdogAck (req : Requester) (s : State) : Host.Outcome State Fault Refusal :=
  .next (if req ≠ .keeper 64 then s.refuse 64 req 0x608
    else if s.flag F.stnWdogStatus_fed = false then s
    else { s.sf F.stnWdogStatus_fed 0 0 0 with wdogFrom := s.now })

/-- Whether the station watchdog counts (R843, R771). -/
def State.wdogArmed (s : State) : Bool := s.ready && decide (s.gf F.stnWdogCfg_watches ≠ 0)

/-- STATION_WATCHDOG (R843, R844, R846): the count reaches WATCHES. With no feed since the last acknowledgement the host is
silent; else the Station Keeper is, and its mirror takes over. -/
def execStationWatchdog (s : State) : Host.Outcome State Fault Refusal :=
  .next (if s.wdogArmed = false then s
    else
      let s := s.advanceTo (s.wdogFrom + s.gf F.stnWdogCfg_watches * s.gf F.bcnPeriod_period)
      let s : State := { s with wdogFrom := s.now }
      if s.flag F.stnWdogStatus_fed = false then (s.sf F.stnWdogStatus_last 0 0 1).logEv evHostSilent 64 64 0
      else
        let s := (s.sf F.stnWdogStatus_last 0 0 2).logEv evStationWatchdog 64 64 0
        if s.mirrorAble then s.failover else s.failover.foghorn 4 false (evCode evStationWatchdog))

/-- KEEPER_FAILOVER (R844): the active Station Keeper's field has fogged or resets, or its heartbeat has missed twice in a
row; the mirror takes over, or KEEPER_FATAL sounds once. -/
def execKeeperFailover (s : State) : Host.Outcome State Fault Refusal :=
  .next (
    let k := s.keeperAt
    let lost := (s.fld k).fogged || s.flag F.fkpStatus_resetting k || decide (2 ≤ s.gf F.fkpHeartbeat_missed k)
    if lost = false ∨ (s.gf F.stnFoghorn_cause).testBit 5 = true then s else s.failover)

/-- FOGHORN_AUTO_RESET (R846): 1 s after the foghorn sounded for KEEPER_FATAL or STATION_WATCHDOG the always-on block begins a
station reset. -/
def execFoghornAutoReset (s : State) : Host.Outcome State Fault Refusal :=
  .next (match s.fogAutoAt with
    | none => s
    | some t =>
      let s : State := { s.advanceTo t with fogAutoAt := none }
      s.beginReset 5 0 (if (s.gf F.stnFoghorn_cause).testBit 4 then 3 else 4) none)

/-! ### Field Keepers (R841, R842) -/

/-- LOCKSTEP_FAULT (R842): the Field Keeper restarts on the standby core. -/
def execLockstepFault (f : Nat) (s : State) : Host.Outcome State Fault Refusal :=
  onField f (
    if s.fieldDown f = true ∨ s.flag F.fkpStatus_restarting f = true then s
    else (s.logEv evLockstepFault f f 0).restartKeeper f true)

/-- KEEPER_RESTART_COMPLETE (R842). -/
def execKeeperRestartComplete (f : Nat) (s : State) : Host.Outcome State Fault Refusal :=
  onField f (
    if s.flag F.fkpStatus_restarting f = false then s
    else { s.sf F.fkpStatus_restarting f 0 0 with
      restartAt := mdel s.restartAt f, restarted := mput s.restarted f (s.fld f).watch })

/-- KEEPER_RESTART_TIMEOUT (R841): 20 ms have passed; the field fogs. -/
def execKeeperRestartTimeout (f : Nat) (s : State) : Host.Outcome State Fault Refusal :=
  onField f (
    match mfind s.restartAt f with
    | none => s
    | some t =>
      if s.flag F.fkpStatus_restarting f = false then s
      else ({ s.advanceTo t with restartAt := mdel s.restartAt f } : State).fogField f (evCode evHeartbeatMissed) false)

/-! ### Around a fogged field (R849, R850) -/

/-- One WAFER entry written in both copies (R351), where the place holds no sector entry and the router's field runs with its
Keeper. -/
def State.writeWafer (s : State) (e : Nat × Nat × BitVec 64) : State :=
  let t := e.1
  let k := e.2.1
  let f := fieldOf t
  let taken (j : Nat) : Bool := s.flag F.mshLlEntry_valid t j && !s.flag F.mshLlEntry_wafer t j
  if isTile t = false ∨ 32 ≤ k ∨ (s.fld f).fogged = true ∨ s.flag F.fkpStatus_restarting f = true ∨
      (taken k || taken (k + 32)) = true then s
  else
    let w := BitVec.ofNat 64 (setBits e.2.2.toNat 28 28 1)
    (s.wr .mshLlEntry t k w).wr .mshLlEntry t (k + 32) w

/-- WAFER_ENTRY_REWRITE (R351, R849): the entries the Keeper chooses, in both copies; what was due for the field is done. -/
def execWaferEntryRewrite (f : Nat) (entries : List (Nat × Nat × BitVec 64)) (s : State) :
    Host.Outcome State Fault Refusal :=
  onField f (
    let s : State := { s with rewrites := s.rewrites.filter fun (e : Nat × Nat) => !(decide (e.1 = f) && decide (e.2 ≤ s.now)) }
    s.each entries State.writeWafer)

/-- Whether the reset of a fogged field may begin (R665, R850): its sensors below 85 °C after a thermal trip, its rails good after a
rail fault, before the fog or in it, and no active Station Keeper in it. -/
def State.fogOver (s : State) (f : Nat) : Bool :=
  let c := (s.fld f).fogCause
  !s.tooHot f && (decide (c ≠ evCode evThermalTrip) || decide (s.hottest f < 680)) &&
    ((decide (c ≠ evCode evRailFault) && !s.flag F.pwrRailStatus_fault 0 f && !s.flag F.pwrRailStatus_fault 0 (64 + f)) ||
      (decide (mget 0 s.railFails f = 0) && decide (mget 0 s.railFails (64 + f) = 0))) &&
    decide (f ≠ s.keeperAt)

/-- FOG_HOLD_EXPIRY (R850): the Keeper begins the reset of a fogged field. -/
def execFogHoldExpiry (f : Nat) (s : State) : Host.Outcome State Fault Refusal :=
  onField f (
    let x := s.fld f
    if x.fogged = false ∨ s.flag F.fkpStatus_resetting f = true ∨ s.fogOver f = false then s
    else (s.advanceTo (x.fogAt + s.gf F.fkpCfg_fog_hold f * 1000000)).beginReset 3 f 2 none)

/-! ### The beacon's registers (R88, R89, R112, R116) -/

/-- BCN_PERIOD_WRITE (R13, R112, R116, R772, R929): with no image loaded the value is in force from the second beacon on; while
one is being loaded, only the Keeper's write is taken. -/
def execBcnPeriodWrite (req : Requester) (value : Nat) (s : State) : Host.Outcome State Fault Refusal :=
  let p := bits value 19 0
  .next (if s.imageLoaded = true ∨ (s.loading = true ∧ byKeeper req = false) ∨ s.beaconStepDone = false ∨
        within 10000 1000000 p = false then s.refuse 64 req 0x10000
    else
      let e := s.stationWatch + 2
      ({ s with periodWrites := s.periodWrites.filter (fun d => d.2 ≠ e) ++ [(p, e)] } : State).noteRwl
        { at_ := s.now, req := req, addr := 0x10000, key := { reg := .bcnPeriod }, due := s.periodWrites })

/-- BCN_SETTLE_LEN_WRITE (R88, R89): from the Station Keeper, with the image's length while it loads; in force from the second
beacon on. Any other write is ignored and logged. -/
def execBcnSettleLenWrite (req : Requester) (value : Nat) (s : State) : Host.Outcome State Fault Refusal :=
  let n := bits value 15 0
  let mine : Bool := match s.loadRun, s.candidate with
    | some run, some img => decide (req = .keeper 64) && decide (run.kind = .full) && decide (n = img.settleLen)
    | _, _ => false
  .next (if mine then s.setSettle n else s.refuse 64 req 0x10010)

/-! ### The management buses (R810) -/

/-- SMBUS_CLOCK_LOW_TIMEOUT (R810): the clock of I3C0 or I3C1 has been low for 30 ms: the transaction is abandoned and
logged. -/
def execSmbusClockLowTimeout (bus : Nat) (s : State) : Host.Outcome State Fault Refusal :=
  onUnit bus 2 (s.refuse 64 .block bus)

end Sys2Proof.Machine
end

