-- ==== Sys2Proof/Machine/Peers.lean ====
section
/-! DEFINITION. Jalfen frames received, and the peers of a multi-wafer job (spec/19_external_interfaces.md R784-R787,
R802; spec/21_faults_hangs_and_recovery.md R859-R864). -/

namespace Sys2Proof.Machine

/-! ### Frames (R784-R787) -/

/-- A frame on a trained link: one with a bad CRC, or whose SEQ does not follow the last good frame, is discarded and the link
is reset; else `act` takes it (R787). -/
def State.receive (s : State) (k : Nat) (good : Bool) (seq : Nat) (act : State → State) : State :=
  let x := s.jlf k
  if s.linkUp k = false then s
  else if good = false ∨ seq ≠ x.rx then
    let s := (s.bump .jlfCountCrc 0 k 1).logEv evJalfenLinkReset 64 k 0
    s.beginReset 4 (20 + k) 2 none
  else act (s.setJlf k { x with rx := (x.rx + 1) % 65536, lastRx := s.now })

/-- Credit granted back to the peer in a CREDIT frame (R785). -/
def State.grant (s : State) (k units : Nat) : State := if units = 0 then s else s.sendFrame k 1 units 0 []

/-- A relayed entry taken as a request entry of a ring, its TENANT rewritten to the ring's resident tenant (R802). FINAL,
which no request entry has, is dropped. -/
def State.takeRelayed (s : State) (r : Nat) (e : List Nat) : State :=
  match s.slotOfRing r with
  | none => s.queueResults r [rimResult (e.headD 0 % 2 ^ 18) (e.getD 2 0 + e.getD 3 0 * 2 ^ 32) 4]
  | some (sec, i) =>
    let head := (s.hring r).reqHead
    let w := setBits (setBits (e.headD 0) 17 0 ((s.hslot sec i).tenant.getD 0)) 26 26 0
    let s := s.takeEntry r (w :: e.drop 1)
    s.setHring r { s.hring r with reqHead := head }

/-- JALFEN_DATA (R785, R802, R864): each entry goes to the peer ring of the physical function of the port that holds the
link; the buffer it leaves is granted back. A broken link discards the entries. -/
def execJalfenData (link : Nat) (good : Bool) (seq ring : Nat) (entries : List (List Nat)) (s : State) :
    Host.Outcome State Fault Refusal :=
  onUnit link 8 (s.receive link good seq fun s =>
    let r := ringNum (link / 2) 0 (ring % 256)
    let s := if s.flag F.stnPeerStatus_broken 0 link then s else s.each entries fun s e => s.takeRelayed r e
    s.grant link entries.length)

/-- JALFEN_CREDIT (R785, R787, R802): the grant covers the oldest frames sent; an entry with FINAL so covered retires its
request. -/
def execJalfenCredit (link : Nat) (good : Bool) (seq grant : Nat) (s : State) : Host.Outcome State Fault Refusal :=
  onUnit link 8 (s.receive link good seq fun s =>
    let x := s.jlf link
    let covered := x.uncovered.take grant
    let s := s.setJlf link { x with credit := min 16384 (x.credit + grant), uncovered := x.uncovered.drop grant }
    s.each covered fun s (e : Nat × List Nat) => s.retirePushed e.1 e.2)

/-- JALFEN_BEAT (R786, R864). -/
def execJalfenBeat (link : Nat) (good : Bool) (seq : Nat) (s : State) : Host.Outcome State Fault Refusal :=
  onUnit link 8 (s.receive link good seq fun s => s.setJlf link { s.jlf link with beat := true })

/-- JALFEN_KEEPER (R784): the frame counts as one received; the specification gives its payload no effect on the wafer. -/
def execJalfenKeeper (link : Nat) (good : Bool) (seq : Nat) (s : State) : Host.Outcome State Fault Refusal :=
  onUnit link 8 (s.receive link good seq id)

/-- JALFEN_IDLE_BEAT (R786): 100 µs without a frame sent. -/
def execJalfenIdleBeat (link : Nat) (s : State) : Host.Outcome State Fault Refusal :=
  onUnit link 8 (if s.linkUp link then (s.advanceTo ((s.jlf link).lastTx + 100000)).sendFrame link 2 0 0 [] else s)

/-! ### Breaking a job (R859-R864) -/

/-- The job on a link breaks: every ring that relays on it is disabled, BROKEN is set (R864). -/
def State.breakJob (s : State) (k : Nat) : State :=
  let mine := (s.regs.filter fun (e : RegKey × BitVec 64) => e.1.reg = .hstRingCfg && e.2.toNat.testBit 31 &&
    e.2.toNat.testBit 29 && decide (bits e.2.toNat 22 20 = k)).map (·.1.unit)
  let s := s.each mine fun s r => s.disableRing r true
  s.sf F.stnPeerStatus_broken 0 k 1

/-- A SELF_TIMED link breaks its job: PEER_LOST, and JOB_BROKEN on the other SELF_TIMED links of the same job (R863). -/
def State.selfBreak (s : State) (k : Nat) : State :=
  if s.flag F.stnPeerStatus_broken 0 k then s
  else
    let s := (s.breakJob k).logEv evPeerLost 64 k 0
    s.sendNotice 3 (evCode evPeerLost) fun j => j ≠ k && !s.fabric j && s.gf F.jlfCfg_job 0 j = s.gf F.jlfCfg_job 0 k

/-- JALFEN_NOTICE (R862, R863): recorded; a SELF_TIMED link breaks its job on WAFER_RESET, STATION_HANG or JOB_BROKEN; a
FABRIC_MANAGED one signals the host. -/
def execJalfenNotice (link : Nat) (good : Bool) (seq kind wafer job code : Nat) (s : State) :
    Host.Outcome State Fault Refusal :=
  onUnit link 8 (s.receive link good seq fun s =>
    let s := (s.peerRecord link wafer kind code).hset F.stnPeerStatus_notice 0 link
    if s.fabric link then s.peerIrq.logEv evPeerNotice 64 link (detail2 kind job)
    else if 1 ≤ kind ∧ kind ≤ 3 then s.selfBreak link
    else s.logEv evPeerNotice 64 link (detail2 kind job))

/-- PEER_LOST (R786, R862, R863): no frame for `JLF_TIMEOUT`, on an enabled link, once until a frame comes again. -/
def execPeerLost (link : Nat) (s : State) : Host.Outcome State Fault Refusal :=
  onUnit link 8 (
    if s.flag F.jlfCfg_enable 0 link = false ∨ s.flag F.stnPeerStatus_lost 0 link = true then s
    else
      let s := s.advanceTo ((s.jlf link).lastRx + s.gf F.jlfTimeout_ms 0 link * 1000000)
      let s := s.hset F.stnPeerStatus_lost 0 link
      if s.fabric link then s.peerIrq.logEv evPeerLost 64 link 0 else s.selfBreak link)

/-- Who may write `STN_PEER_CTL`: a physical function, the Keeper, or JTAG. -/
def peerWriter : Requester → Bool
  | .host _ fn => fn = 0
  | .keeper _ | .jtag => true
  | _ => false

/-- PEER_BREAK (R861, R862, R864): the job on a link is marked broken, and the other links of the job are told. -/
def execPeerBreak (req : Requester) (link : Nat) (s : State) : Host.Outcome State Fault Refusal :=
  onUnit link 8 (
    if peerWriter req = false then s.refuse 64 req (0x660 + 4 * link)
    else if s.flag F.stnPeerStatus_broken 0 link then s
    else (s.breakJob link).sendNotice 3 (evCode evPeerLost) fun j => s.gf F.jlfCfg_job 0 j = s.gf F.jlfCfg_job 0 link)

/-- PEER_CLEAR (R864): BROKEN clears once the link has trained and received a BEAT. -/
def execPeerClear (req : Requester) (link : Nat) (s : State) : Host.Outcome State Fault Refusal :=
  onUnit link 8 (
    if peerWriter req = false then s.refuse 64 req (0x660 + 4 * link)
    else if s.linkUp link = true ∧ (s.jlf link).beat = true then s.sf F.stnPeerStatus_broken 0 link 0
    else s)

end Sys2Proof.Machine
end

