-- ==== Sys2Proof/Machine/Views.lean ====
section
/-! DEFINITION. What registers read (R10): the registers that show state held elsewhere, computed from it; all others read
the word that State holds. Each clause follows the register's table in the chapter that owns its prefix. -/

namespace Sys2Proof.Machine

/-! ### The beacon, sectors and the planner (spec/02, 14, 16, 21) -/

/-- The sector that `STN_CHAR_SECTOR_SEL` names. -/
def State.selSector (s : State) : Option SectorSt := s.sec (s.gf F.stnCharSectorSel_sector)

/-- `STN_CHAR_STATE` (R638). -/
def State.charStateWord (s : State) : Nat :=
  match s.selSector with
  | none => 0
  | some x => x.now.char * 2 ^ 29 + x.next.char * 2 ^ 26 + x.after.char * 2 ^ 23 +
      (if x.now.why = 0 then 0 else 2 ^ 22) + x.now.why % 4 * 2 ^ 20 + min x.voidRun 31 * 2 ^ 15

/-- `STN_PLAN_SECTOR` (R713): the round published most recently. -/
def State.planSectorWord (s : State) : Nat :=
  match s.selSector with
  | none => 2 * 2 ^ 27
  | some x => x.after.plan % 8 * 2 ^ 29 + x.after.cls % 4 * 2 ^ 27 + min x.after.value 65535

/-- `STN_SECTOR_HEALTH` (R866). -/
def State.healthWord (s : State) : Nat :=
  match s.selSector with
  | none => 0
  | some x => x.health % 4 * 2 ^ 30 + x.cause % 65536

/-- `STN_WDOG_STATUS` (R866): COUNT is the beacon periods since the last acknowledged feed. -/
def State.wdogWord (s : State) : Nat :=
  let n := if s.wdogArmed then (s.now - s.wdogFrom) / max 1 (s.gf F.bcnPeriod_period) else 0
  setBits (s.rd .stnWdogStatus).toNat 19 0 (min n 1048575)

/-- `STN_DEBUG_SESSION` (R872, R873) of a port. -/
def State.sessionWord (s : State) (p : Nat) : Nat :=
  let left := if s.flag F.stnDebugSession_active 0 p then
      ceilDiv (mget 0 s.sessionEnd p - s.now) (max 1 (s.gf F.bcnPeriod_period)) else 0
  setBits (setBits (s.rd .stnDebugSession 0 p).toNat 30 30 (b2n (s.lockedOut p))) 23 0 (min left 0xFFFFFF)

/-! ### Tiles (spec/03, 05, 06, 12, 22) -/

/-- `TIL_STATUS` (R184). -/
def State.tilStatusWord (s : State) (t : Nat) : Nat :=
  let mask (st : GState) : Nat := sumNat ((List.range 8).map fun g => if (s.grp t g).st = st then 2 ^ g else 0)
  (s.til t).active % 256 * 2 ^ 16 + mask .done * 2 ^ 8 + mask .trapped

/-- `TIL_TAG_STATUS` (R184). -/
def State.tagStatusWord (s : State) (t : Nat) : Nat :=
  b2n (s.til t).eow * 2 ^ 16 +
    sumNat ((List.range 16).map fun k => if (mget ({} : RTag) (s.til t).tags k).taken then 2 ^ k else 0)

/-- Code of a thread-group state (R137). -/
def stateCode : GState → Nat
  | .inactive => 0 | .running => 1 | .done => 2 | .trapped => 3 | .halted => 4

/-- `TGP_STATE`.WAIT of a RUNNING group (R184): why it is not ready in its tile's cycle. -/
def State.waitCode (s : State) (t g : Nat) : Nat :=
  if (s.grp t g).st ≠ .running then 0
  else match s.nextOf t g with
    | .stuck _ w => w
    | .go _ i =>
      let c := max (s.til t).cyc (s.cycle (fieldOf t))
      if (s.sourcesOf t i).any fun r => decide (c < (s.grp t g).readyAt r) then 1
      else if c < s.portsFrom t g i 0 then 2
      else if decide (c < (s.til t).sfuFree) && decide (mnemOf i = .sfu) then 6
      else match s.lastWait (s.mkCtx t g c i) with
        | some (r, _, short) => if short c then (if r = .tilCountTagStall then 3 else if r = .chnCountStallCredit then 4 else 7) else 0
        | none => 0
    | _ => 0

/-- `TGP_STATE` (R184). -/
def State.groupWord (s : State) (t g : Nat) : Nat :=
  let x := s.grp t g
  stateCode x.st * 2 ^ 29 + min x.stack.length 8 * 2 ^ 25 + s.waitCode t g * 2 ^ 22 + x.pc % 65536

/-- `CHN_SLOT_STATUS` (R294): depth of an in-slot's queue, or words of an out-slot's send buffer in use. -/
def State.slotWord (s : State) (t k : Nat) : Nat :=
  let x := s.slot t k
  let isTag (m : Marker) : Bool := match viewMark (s.til t).view m with | .tag _ => true | _ => false
  let tagged := if k < 16 then x.queue.any fun w => isTag w.mark
    else x.sendBuf.any fun id => match s.pkt id with | some p => isTag p.mark | none => false
  let depth := if k < 16 then x.queue.length else s.sendUsed t k
  setBits (setBits (setBits (s.rd .chnSlotStatus t k).toNat 31 20 (min depth 4095)) 7 7 (b2n x.partial_)) 0 0 (b2n tagged)

/-- `STR_RULE_STATE` (R324). -/
def State.ruleWord (s : State) (t r : Nat) : Nat :=
  let x := s.rule t r
  let c := s.cycle (fieldOf t)
  let moving := decide (x.left ≠ 0) || (s.til t).move.any fun m => decide (m.rule = r ∧ m.from_ ≤ c ∧ c < (s.til t).pathFree)
  b2n x.active * 2 ^ 31 + (if moving then 2 ^ 30 else 0) + x.r % 4096 * 2 ^ 4 + x.acc % 16

/-- `STR_RULE` (R297): ENABLE reads 0 where the tile has no steering unit at work. -/
def State.ruleCfgWord (s : State) (t r : Nat) : Nat :=
  let w := (s.rd .strRule t r).toNat
  if s.gf F.tilRole_role t = 1 ∨ s.gf F.tilRole_role t = 2 then w else setBits w 31 31 0

/-- `SPT_TILE_STATUS` (R573), of the group in `DBG_GROUP_SEL`. -/
def State.specTileWord (s : State) (t : Nat) : Nat :=
  let x := s.til t
  let ctl := match viewMark x.view (s.grp t (s.gf F.dbgGroupSel_group (fieldOf t))).ctl with
    | .none => 0
    | .tag k => 2 ^ 5 + k
    | .dead => 2 * 2 ^ 5
  setBits (setBits (setBits (s.rd .sptTileStatus t).toNat 6 0 ctl) 31 27 x.shadow.length) 26 22
    ((x.shadow.filter fun (e : Nat × ShadowLine) => e.2.op.isSome).length)

/-- `SPT_SHADOW_META` of a line (R573). -/
def State.shadowMetaWord (s : State) (t k : Nat) : Nat :=
  match mfind (s.til t).shadow k with
  | none => 0
  | some l => 2 ^ 31 + b2n l.wb * 2 ^ 30 + b2n l.op.isSome * 2 ^ 29 + l.tag * 2 ^ 16 + l.block % 1024

/-- `SPT_SHADOW_DATA` (R574): the data word above, the marker below. -/
def State.shadowDataWord (s : State) (t i : Nat) : Nat :=
  match mfind (s.til t).shadow (i / 16) with
  | none => 0
  | some l =>
    let byte (k : Nat) : Nat := (mget (0 : Byte) l.data (i % 16 * 4 + k)).toNat
    (byte 0 + byte 1 * 2 ^ 8 + byte 2 * 2 ^ 16 + byte 3 * 2 ^ 24) * 2 ^ 32 + 2 ^ 31 + l.tag * 2 ^ 16

/-- Code of a tag state (R544). -/
def tagCode : TagState → Nat
  | .free => 0 | .open_ => 1 | .held => 2 | .committed => 3 | .squashed => 4

/-- `SPT_STATE` (R573). -/
def State.specStateWord (s : State) (f : Nat) : Nat :=
  let sec := s.gf F.sptSectorSel_sector f
  s.homeOf sec * 2 ^ 48 + sumNat ((List.range 16).map fun k => tagCode (s.tagSt sec k) * 2 ^ (3 * k))

/-! ### Buoys, lenses, MV engine, field store, staging (spec/08, 09, 11) -/

/-- `BUY_STATE` (R412). -/
def State.buoyWord (s : State) (b i : Nat) : Nat :=
  let x := s.buoy b i
  b2n (s.buoyFlag b i) * 2 ^ 31 + b2n x.sat * 2 ^ 30 + b2n x.poison * 2 ^ 29 + x.count % 2 ^ 24

/-- `LNS_STATUS` (R463); a member of a gang shows the gang's. A pass ready while EXEC is empty waits there on a load
(R439). -/
def State.lensWord (s : State) (l : Nat) : Nat :=
  let lead := s.lensLead l
  let x := s.lens lead
  let side (n : Nat) : List Nat := List.range (32 * n)
  let rows := if 4 ≤ s.lensMode l then 2 else 1
  let cols := if s.lensMode l = 5 then 2 else 1
  let full (k : Nat) : Bool := (side rows).all fun r => (side cols).all fun c => x.loaded.contains (k, r, c)
  let waits : Bool := x.exec.isNone && (match x.next with | some q => q.ready | none => false)
  let exec := if x.exec.isSome then 1 else if waits then 2 else 0
  let next := if waits then 0 else match x.next with
    | none => 0
    | some q => if q.ready then 2 else 1
  let top := min x.queue.length 4 * 2 ^ 5 + exec * 2 ^ 3 + next * 2 + (if x.engine = [] then 0 else 1)
  setBits (setBits (s.rd .lnsStatus l).toNat 31 24 top) 17 16 (b2n (full 0) + b2n (full 1) * 2)

/-- `LNS_COUNT_BUSY` (R464): with the lens cycles that the pass in EXEC has had. -/
def State.lensBusy (s : State) (l : Nat) : Nat :=
  min 0xFFFFFFFF ((s.rd .lnsCountBusy l).toNat + match (s.lens l).exec with
    | some q => s.lensCycle (l / 4) - q.begun
    | none => 0)

/-- `LNS_COUNT_LOAD` (R464): with the lens cycles that the load at the engine has had, which a pass in EXEC does not hold back (R437). -/
def State.lensLoads (s : State) (l : Nat) : Nat :=
  let x := s.lens l
  min 0xFFFFFFFF ((s.rd .lnsCountLoad l).toNat + match x.engine with
    | j :: _ =>
      let held : Bool := match x.exec with
        | some q => (s.lensDesc l j.desc).clash (s.lensDesc l q.desc)
        | none => false
      if held || decide ((s.fld (l / 4)).phase = .rest) then 0 else s.loadHad l j + j.stretched
    | [] => 0)

/-- `MVE_COUNT_BUSY` (R542): with the cycles that the executing operation has had. -/
def State.mvBusy (s : State) (f : Nat) : Nat :=
  min 0xFFFFFFFF ((s.rd .mveCountBusy f).toNat + match (s.mv f).exec with
    | some (_, _, begun) => s.cycle f - begun
    | none => 0)

/-- `MVE_STATUS` (R541): the bursts in flight of an executing operation are a free value (assumption 16). -/
def State.mvWord (s : State) (f : Nat) : Nat :=
  let x := s.mv f
  setBits (setBits (setBits (s.rd .mveStatus f).toNat 31 28 (min x.queue.length 8)) 27 27 (b2n x.exec.isSome)) 26 20
    (if x.exec.isSome then min 64 (Config.mvBursts s.fresh) else 0)

/-- `FST_STATUS` (R541). -/
def State.fstWord (s : State) (f : Nat) : Nat :=
  let mine := s.journal.filter fun e => e.field = f
  setBits (setBits (s.rd .fstStatus f).toNat 31 18 (min mine.length 8192)) 3 3
    (b2n (mine.any fun e => e.committed))

/-- `STG_ENGINE_STATUS` (R541) of an engine. -/
def State.engineWord (s : State) (e : Nat) : Nat :=
  let os := s.orders.filter fun o => decide (o.plan.device = e) && !o.failed && o.completeAt.isNone && s.orderBegun o
  setBits (setBits (s.rd .stgEngineStatus 0 e).toNat 31 22 (min 512 (sumNat (os.map Order.inFlight)))) 21 15
    (min 64 (sumNat (os.map Order.injecting)))

/-- The word of field store that `FST_WIN_ADDR` points at (R541). -/
def State.fstWinWord (s : State) (f : Nat) : Nat :=
  let a := s.gf F.fstWinAddr_addr f / 4 * 4
  (wordOfBytes (s.fstByte f a) (s.fstByte f (a + 1)) (s.fstByte f (a + 2)) (s.fstByte f (a + 3))).toNat

/-! ### Rings (spec/19) -/

/-- `HST_RING_STATE` (R817). -/
def State.ringStateWord (s : State) (r : Nat) : Nat :=
  match s.slotOfRing r with
  | none => (s.rd .hstRingState r).toNat
  | some (sec, i) =>
    let w := setBits (setBits (s.rd .hstRingState r).toNat 11 0 sec) 30 30 (b2n s.imageStarted)
    setBits w 29 12 ((s.hslot sec i).tenant.getD 0)

/-- `HST_RING_OWNED` (R817): requests the bound slot owns. -/
def State.ringOwnedWord (s : State) (r : Nat) : Nat :=
  match s.slotOfRing r with
  | none => 0
  | some (sec, i) => (s.hslot sec i).owned.length

/-! ### The whole map -/

/-- What a register holds: for a register that shows other state, that state; else its word. -/
def State.shows (s : State) (k : RegKey) : Nat :=
  let u := k.unit
  let i := k.idx
  match k.reg with
  | .bcnPhase => s.bcnPhaseWord u
  | .bcnWatchCycles => (s.fld u).nCycles
  | .bcnWatchField => (s.fld u).watch
  | .stnCharState => s.charStateWord
  | .stnCharRuns => match s.selSector with | some x => min (mget 0 x.runs i) 0xFFFFFFFF | none => 0
  | .stnPlanSector => s.planSectorWord
  | .stnSectorHealth => s.healthWord
  | .stnWdogStatus => s.wdogWord
  | .stnDebugSession => s.sessionWord i
  | .stnEventHead => (s.ring 64).head
  | .stnStartup =>
    let w := (s.rd .stnStartup).toNat
    if s.ready then w else setBits w 19 0 (min ((s.now - s.startedAt) / 1000000) 1048575)
  | .clkSrcStatus => setBits (s.rd .clkSrcStatus).toNat 5 5 (s.gf F.clkSrcCfg_xb_mode)
  | .dbgEventHead => (s.ring u).head
  | .dbgEventLost => (s.ring u).lostTotal
  | .mgtGpio => (Config.gpioLevel s.fresh).toNat
  | .strDrainBound => s.gf F.strDrainBound_bound u (s.gf F.strDrainCtl_sector u)
  | .strDrainStatus =>
    let w := (s.rd .strDrainStatus u).toNat
    if s.isDraining u (bits w 27 16) then setBits w 15 0 (min (s.drainElapsed u (bits w 27 16)) 65535) else w
  | .mshEpoch => (s.rd .mshEpoch u (s.gf F.mshSectorSel_sector u)).toNat
  | .mshEpochCtl => (s.rd .mshEpochCtl u (s.gf F.mshSectorSel_sector u)).toNat
  | .mshOldEpochCount => (s.rd .mshOldEpochCount u (s.gf F.mshSectorSel_sector u)).toNat
  | .mshPortCfg => setBits (s.rd .mshPortCfg u i).toNat 29 29 (b2n (s.linkDark u i))
  | .tilSplit => setBits (s.rd .tilSplit u).toNat 31 28 (s.occupancy u)
  | .tilStatus => s.tilStatusWord u
  | .tilTagStatus => s.tagStatusWord u
  | .tgpState => s.groupWord u i
  | .chnSlotStatus => s.slotWord u i
  | .chnSlotCredit => if i < 16 then 0 else (s.slot u i).full % 4096 * 2 ^ 12 + s.creditOf u i % 4096
  | .strRule => s.ruleCfgWord u i
  | .strRuleState => s.ruleWord u i
  | .sptState => s.specStateWord u
  | .sptTagParent => (s.rd .sptTagParent u (s.gf F.sptSectorSel_sector u * 16 + i)).toNat
  | .sptTileStatus => s.specTileWord u
  | .sptShadowMeta => s.shadowMetaWord u i
  | .sptShadowMask => match mfind (s.til u).shadow i with | some l => l.mask | none => 0
  | .sptShadowData => s.shadowDataWord u i
  | .dbgReg =>
    let e := s.dbgEntry u (s.gf F.dbgGroupSel_group (fieldOf u)) i
    e.1 * 2 ^ 32 + e.2
  | .buyState => s.buoyWord u i
  | .buyStatus => setBits (s.rd .buyStatus u).toNat 31 19 (min (s.blk u).watches.length 4096)
  | .lnsStatus => s.lensWord u
  | .lnsCountBusy => s.lensBusy u
  | .lnsCountLoad => s.lensLoads u
  | .mveStatus => s.mvWord u
  | .mveCountBusy => s.mvBusy u
  | .fstRegionCfg =>
    let w := (s.rd .fstRegionCfg u i).toNat
    if bits w 31 31 = 1 ∧ bits w 30 29 ≠ 2 then setBits w 26 25 2 else w
  | .fstStatus => s.fstWord u
  | .fstWinData => s.fstWinWord u
  | .stgEngineStatus => s.engineWord i
  | .hstRingState => s.ringStateWord u
  | .hstRingOwned => s.ringOwnedWord u
  | _ => (s.rd k.reg u i).toNat

/-- What a read of a register returns of what it holds: RSV and WO fields read 0 (R10). -/
def Reg.readable (r : Reg) (w : Nat) : Nat :=
  (r.fields.filter fun f => f.acc ≠ .wo && f.acc ≠ .rsv).foldl (fun a f => a + bits w f.hi f.lo * 2 ^ f.lo) 0

end Sys2Proof.Machine
end

