-- ==== Sys2Proof/Machine/Registers.lean ====
section
/-! DEFINITION. Register accesses (spec/00_scope.md R7-R15; spec/23_register_map.md R893-R908, R929; R183, R773, R836, R850):
where an address lies, who may access it, what a read returns and what a write does. -/

namespace Sys2Proof.Machine

/-! ### Where an address lies (R893-R903) -/

/-- Where an access goes: to a reserved range, to an offset of a block that names no register, to word `word` of a register,
to SRAM of the selected tile, to the mapped event ring, to a doorbell (REQ_TAIL or RES_HEAD), or to the watchdog doorbell.
-/
inductive Place where
  | reserved
  | empty
  | reg (k : RegKey) (word : Nat)
  | sram (t off : Nat)
  | event (off : Nat)
  | doorbell (ring : Nat) (head : Bool)
  | feed (port : Nat)
  deriving DecidableEq, Repr

/-- The register at an offset of a block, with its index and the word of it (R896). -/
def findRow (rows : List RegRow) (off : Nat) : Option (Reg × Nat × Nat) :=
  rows.findSome? fun r =>
    let n := if r.reg.wide then 8 else 4
    if r.base ≤ off ∧ off < r.base + r.count * n then some (r.reg, (off - r.base) / n, (off - r.base) % n / 4) else none

/-- The place of an offset in a block whose registers belong to one unit. -/
def placeIn (rows : List RegRow) (unit off : Nat) : Place :=
  match findRow rows off with
  | some (r, i, w) => .reg ⟨r, unit, i⟩ w
  | none => .empty

/-- The station register block (R897, R898); the station's buoys are 256 (R901). -/
def placeStation (off : Nat) : Place :=
  if 0xA0000 ≤ off then .reserved
  else if off / 0x10000 = 4 then
    match findRow rowsBuy (off - 0x40000) with
    | some (r, i, w) => if 256 ≤ i ∧ r ≠ .buySectorGroup then .empty else .reg ⟨r, 64, i⟩ w
    | none => .empty
  else placeIn rowsStation 0 off

/-- A block that holds registers of its field and of the selected tile `t`. -/
def placeBoth (own tile : List RegRow) (f t off : Nat) : Place :=
  match placeIn own f off with
  | .empty => placeIn tile t off
  | p => p

/-- A field window (R899-R902), with tile `t` selected. -/
def placeField (f t off : Nat) : Place :=
  let o := off % 0x10000
  match off / 0x10000 with
  | 0 => placeIn rowsFkp f o
  | 1 => placeIn rowsPwr f o
  | 2 => placeBoth rowsMshField rowsMshTile f t o
  | 3 => placeIn rowsLns (f * 4) o
  | 4 => placeIn rowsLns (f * 4 + 1) o
  | 5 => placeIn rowsLns (f * 4 + 2) o
  | 6 => placeIn rowsLns (f * 4 + 3) o
  | 7 => placeIn rowsMve f o
  | 8 => placeIn rowsFst f o
  | 9 => placeIn rowsBuy f o
  | 0xA => if 0x4000 ≤ o ∧ o < 0xE000 then .sram t (o - 0x4000) else placeBoth rowsTilWin rowsTilTile f t o
  | 0xB => placeBoth rowsDbgField rowsDbgTile f t o
  | 0xC => placeBoth rowsSptField rowsSptTile f t o
  | _ => .reserved

/-- The doorbell page of a function (R790). -/
def placeDoorbell (port fn off : Nat) : Place :=
  match off % 16 with
  | 0 => .doorbell (ringNum port fn (off / 16)) false
  | 4 => .doorbell (ringNum port fn (off / 16)) true
  | _ => .empty

/-- BAR2 in the addresses of this model: its offsets lie above 2^32 (assumption 17). -/
def bar2 : Nat := 2 ^ 32

/-- The PF's BAR0, and the Keeper's map (R893), for the rings and mailbox slots of a port. -/
def State.placePf (s : State) (port addr : Nat) : Place :=
  if addr < 0x100000 then placeStation addr
  else if addr < 0x102000 then placeIn rowsMbox (port * 16 + (addr - 0x100000) / 0x200) (addr % 0x200)
  else if 0x110000 ≤ addr ∧ addr < 0x120000 then .event (addr - 0x110000)
  else if 0x200000 ≤ addr ∧ addr < 0x300000 then
    placeIn rowsRing (ringNum port ((addr - 0x200000) / 0x4000) (addr % 0x4000 / 0x40)) (addr % 0x40)
  else if 0x4000000 ≤ addr ∧ addr < 0x8000000 then
    let f := (addr - 0x4000000) / 0x100000
    placeField f (s.gf F.tilWinSel_tile f) (addr % 0x100000)
  else .reserved

/-- The place of an address for a requester (R789, R790, R874, R893, R894): a VF reaches its own ring registers and doorbells,
JTAG the station block, the field windows and one mailbox slot, a tile nothing. -/
def State.place (s : State) (req : Requester) (addr : Nat) : Place :=
  match req with
  | .keeper _ => s.placePf 0 addr
  | .host p fn =>
    if bar2 ≤ addr then
      let off := addr - bar2
      if off < 0x1000 then placeDoorbell p fn off
      else if off = 0x1000 ∧ fn = 0 then .feed p
      else .reserved
    else if fn = 0 then s.placePf p addr
    else if addr < 0x4000 then placeIn rowsRing (ringNum p fn (addr / 0x40)) (addr % 0x40)
    else .reserved
  | .jtag =>
    if 0x100000 ≤ addr ∧ addr < 0x100200 then placeIn rowsMbox 64 (addr % 0x200)
    else if addr < 0x100000 ∨ 0x4000000 ≤ addr then s.placePf 0 addr
    else .reserved
  | _ => .reserved

/-- The field whose window an address lies in, 64 where it lies in none. -/
def fieldOfAddr (req : Requester) (addr : Nat) : Nat :=
  match req with
  | .host _ fn => if fn = 0 ∧ 0x4000000 ≤ addr ∧ addr < 0x8000000 then (addr - 0x4000000) / 0x100000 else 64
  | _ => if 0x4000000 ≤ addr ∧ addr < 0x8000000 then (addr - 0x4000000) / 0x100000 else 64

/-! ### What stands in the way -/

/-- The block behind a gated clock that an offset of a field window lies in (R732): a lens's locator, or 256 + f for the MV
engine. -/
def State.gatedBlock (s : State) (f off : Nat) : Option Nat :=
  let b := off / 0x10000
  if 64 ≤ f ∨ b < 3 ∨ 7 < b then none
  else if (s.gf F.clkRunning_run 0 f).testBit (b - 3) then none
  else some (if b = 7 then 256 + f else f * 4 + (b - 3))

/-- Whether a domain that holds a register has been reset since the lock last engaged, which releases its lock (R13). -/
def State.lockReleased (s : State) (k : RegKey) : Bool :=
  s.unlocked.any fun d => match d.1 with
    | 1 => k.reg.isTile && decide (k.unit = d.2)
    | 2 => k.reg.isTile && decide (bayOf k.unit = d.2)
    | 3 => decide (k.field = d.2)
    | _ => false

/-- Whether the RWL fields of a register refuse a requester (R13, R14, R595): while structure is loaded, everyone but the
Keeper; once an image is loaded, everyone. -/
def State.locked (s : State) (req : Requester) (k : RegKey) : Bool :=
  if s.loading then !(byKeeper req)
  else s.imageLoaded && !s.lockReleased k

/-! ### Reads -/

/-- The tile and group selected for a register reached through the tile window (R8). -/
def State.selection (s : State) (k : RegKey) : Nat × Nat :=
  if k.reg.isTile then (k.unit, s.gf F.dbgGroupSel_group (fieldOf k.unit)) else (0, 0)

/-- Whether a read of a register needs a right the requester does not hold (R573, R871). -/
def State.readDenied (s : State) (req : Requester) (k : RegKey) : Bool :=
  match k.reg with
  | .sptShadowData => !s.right req 2 (fieldOf k.unit)
  | .dbgReg => !s.right req 0 (fieldOf k.unit)
  | _ => false

/-- The value a read of a register gives (R10, R850, R903). -/
def State.readValue (s : State) (k : RegKey) : Nat :=
  if k.reg.isTile && s.darkTile k.unit then 0
  else k.reg.readable (if k.reg.isTile && decide (s.gf F.tilRole_role k.unit = 0) then k.reg.resetWord k.unit k.idx
    else s.shows k)

/-- A read of a word of a register (R8): the lowest word of a wide register latches the upper one for its requester; an upper
word comes from the latch, and is 0 where the latch is bound to something else. -/
def State.readReg (s : State) (req : Requester) (k : RegKey) (word addr : Nat) : State × Word :=
  if s.readDenied req k then (s.refuse k.field req addr, 0)
  else
    let v := s.readValue k
    let sel := s.selection k
    if k.reg.wide = false then (s, BitVec.ofNat 32 v)
    else if word = 0 then
      ({ s with latches := mput s.latches req { key := k, tile := sel.1, group := sel.2, upper := BitVec.ofNat 32 (v / 2 ^ 32) } },
        BitVec.ofNat 32 v)
    else match mfind s.latches req with
      | none => (s, 0)
      | some l =>
        if l.key = k ∧ l.tile = sel.1 ∧ l.group = sel.2 then ({ s with latches := mdel s.latches req }, l.upper) else (s, 0)

/-- A word of an event record (R885). -/
def eventWord (e : Event) (w : Nat) : Nat :=
  match w with
  | 0 => e.code % 2 ^ 16 + e.field % 2 ^ 8 * 2 ^ 16 + b2n e.lost * 2 ^ 24 + b2n e.copy * 2 ^ 25
  | 1 => e.seq
  | 2 => e.watch
  | 3 => e.watch / 2 ^ 32 % 2 ^ 16
  | 4 => e.cycle
  | 5 => e.loc
  | 6 => e.detail
  | _ => e.detail / 2 ^ 32

/-- A word of the ring that `STN_EVENT_SEL` maps (R887); a place no record has been written to reads 0. -/
def State.eventRead (s : State) (off : Nat) : Word :=
  match mfind (s.ring (s.gf F.stnEventSel_sel)).slots (off / 32 % 2048) with
  | some e => BitVec.ofNat 32 (eventWord e (off % 32 / 4))
  | none => 0

/-- The status that stands for no completion yet. -/
def pendingStatus : Nat := 3

/-- A read at an address: the state, the completion (0 good, 1 Completer Abort or bus error, 2 poisoned, 3 none yet) and the word. -/
def State.readAt (s : State) (req : Requester) (addr : Nat) : State × Nat × Word :=
  let f := fieldOfAddr req addr
  let off := addr % 0x100000
  let p := s.place req addr
  if addr % 4 ≠ 0 ∨ s.barred f off false = true ∨ p = .reserved then (s.refuse f req addr, 1, 0)
  else match s.gatedBlock f off with
    | some b => (s.gatedAccess f b req addr, 1, 0)
    | none => match p with
      | .reg k w =>
        let r := s.readReg req k w addr
        (r.1.tickFresh, 0, r.2)
      | .sram t o =>
        if s.darkTile t then (s, 0, 0)
        else if s.portIdle t o then (s.windowEcc t o, s.windowStatus t o, s.windowRead t o)
        else (s.queueWindow req t o none, pendingStatus, 0)
      | .event o => (s, 0, s.eventRead o)
      | .doorbell r head => (s, 0, BitVec.ofNat 32 (if head then (s.hring r).resHead else (s.hring r).reqTail))
      | .feed p => (s, 0, BitVec.ofNat 32 (mget 0 s.wdogDoorbell p))
      | _ => (s, 0, 0)

/-! ### Writes -/

/-- The state a command leaves. -/
def outcomeOr (o : Host.Outcome State Fault Refusal) (s : State) : State :=
  match o with
  | .next t => t
  | _ => s

/-- A register's 64 bits with word `word` as written. -/
def withWord (old word : Nat) (v : Word) : Nat := setBits old (32 * word + 31) (32 * word) v.toNat

/-- The word of a register after a write by its fields' access types (R10); `locked` refuses its RWL fields, and of a W1C field
the bits in `held`, which hardware sets in the same cycle, remain (R12). -/
def Reg.written (r : Reg) (old word : Nat) (v : Word) (locked : Bool) (held : Nat) : Nat :=
  let new := withWord old word v
  r.fields.foldl (fun a f =>
    if f.lo / 32 ≤ word ∧ word ≤ f.hi / 32 then
      let lo := max f.lo (32 * word)
      let hi := min f.hi (32 * word + 31)
      match f.acc with
      | .rw => setBits a hi lo (bits new hi lo)
      | .rwl => if locked then a else setBits a hi lo (bits new hi lo)
      | .w1c =>
        let ones := bits v.toNat (hi % 32) (lo % 32)
        setBits a hi lo (Nat.land (bits a hi lo) (2 ^ (hi + 1 - lo) - 1 - ones + Nat.land ones (bits held hi lo)))
      | _ => a
    else a) old

/-- Whether a register has an RWL field. -/
def Reg.lockable (r : Reg) : Bool := r.fields.any fun f => f.acc = .rwl

/-- A register written by its fields' access types; a lock that refuses the requester is logged, and an accepted write of RWL
fields is noted (R10, R12, R13, R14). -/
def State.store (s : State) (req : Requester) (k : RegKey) (word addr : Nat) (v : Word) : State :=
  let lock := k.reg.lockable && s.locked req k
  let old := (s.rd k.reg k.unit k.idx).toNat
  let new := k.reg.written old word v lock (s.setNow k)
  let s := if new = old then s else s.wr k.reg k.unit k.idx (BitVec.ofNat 64 new)
  if lock then s.refuse k.field req addr
  else if k.reg.lockable && decide (new ≠ old) then
    s.noteRwl { at_ := s.now, req := req, addr := addr, key := k, old := BitVec.ofNat 64 old }
  else s

/-- Slots of a tile that are enabled, other than `k`, with their configuration words. -/
def State.otherSlots (s : State) (t k : Nat) : List (Nat × Nat) :=
  ((List.range 32).map fun j => (j, (s.rd .chnSlotCfg t j).toNat)).filter fun (e : Nat × Nat) => e.1 ≠ k && e.2.testBit 31

/-- Whether an enabled slot's region lies in the pool and apart from the others (R253). -/
def State.poolOk (s : State) (t k w : Nat) : Bool :=
  let span (c : Nat) : Nat × Nat := (bits c 8 0 * 4, bits c 8 0 * 4 + chanWords c)
  !w.testBit 31 || (decide ((span w).2 ≤ s.gf F.tilSplit_pool t * 256) && (s.otherSlots t k).all fun (e : Nat × Nat) =>
    decide ((span w).2 ≤ (span e.2).1) || decide ((span e.2).2 ≤ (span w).1))

/-- Whether an enabled rule has its form, names bound inputs and outputs, and shares none with another (R299). -/
def State.steerOk (s : State) (t r w : Nat) : Bool :=
  let ins (v : Nat) : List Nat := maskBits (bits v 23 20) ++ (if v.testBit 26 then [bits v 25 24] else [])
  let slots := s.otherSlots t 32
  let others := ((List.range 4).filter (· ≠ r)).map (fun q => (s.rd .strRule t q).toNat) |>.filter fun v => v.testBit 31
  !w.testBit 31 || (ruleForm w &&
    (ins w).all (fun i => slots.any fun (e : Nat × Nat) => decide (e.1 < 16) && decide (bits e.2 28 27 = 2) && decide (bits e.2 23 22 = i)) &&
    (maskBits (bits w 19 16)).all (fun o => slots.any fun (e : Nat × Nat) => e.2.testBit 29 && decide (bits e.2 21 20 = o)) &&
    others.all fun v => (ins v).all (fun i => !(ins w).contains i) && decide (Nat.land (bits v 19 16) (bits w 19 16) = 0))

/-- Whether a `TIL_SPLIT` word meets the ranges of the tile's role (R149, R152, R154), and leaves the regions of the enabled slots
in the channel pool (R253). FRAME and SHARED are ignored on MEMORY and STEERING_RELAY tiles. -/
def State.splitAgrees (s : State) (t w : Nat) : Bool :=
  (match s.gf F.tilRole_role t with
    | 0 => within 1 37 (bits w 21 16)
    | r => splitOk r w) &&
    (s.otherSlots t 32).all fun (e : Nat × Nat) => decide (bits e.2 8 0 * 4 + chanWords e.2 ≤ bits w 7 4 * 256)

/-- Whether a code names a number format. -/
def isFmtCode (c : Nat) : Bool := (fmtOfCode c).isSome

/-- Whether word `k` of a pass descriptor holds only values that the table of R429 gives: no reserved KIND or format, and the
ranges it states. -/
def lensWordOk (k w : Nat) : Bool :=
  match k with
  | 0 => decide (bits w 30 29 ≠ 3) && isFmtCode (bits w 23 20) && isFmtCode (bits w 19 16) && isFmtCode (bits w 15 12) &&
      sectorRange (bits w 11 0)
  | 3 => decide (bits w 25 0 % 64 = 0)
  | 6 | 12 => decide (1 ≤ bits w 31 16) && decide (1 ≤ bits w 15 0)
  | 8 => within 1 1024 (bits w 31 16) && decide (1 ≤ bits w 15 8) && decide (1 ≤ bits w 7 0)
  | 9 => decide (1 ≤ bits w 31 24) && decide (1 ≤ bits w 23 16) && decide (1 ≤ bits w 15 8) && decide (1 ≤ bits w 7 0)
  | _ => true

/-- Whether word `k` of an MV descriptor holds only values that the table of R517 gives. -/
def mvWordOk (k w : Nat) : Bool :=
  match k with
  | 0 => isFmtCode (bits w 23 20) && isFmtCode (bits w 19 16) && (decide (bits w 15 12 = 0) || decide (bits w 15 12 = 0xA)) &&
      sectorRange (bits w 11 0) && decide (bits w 30 27 = 0) && decide (bits w 25 24 = 0)
  | _ => true

/-- Whether the value a register would hold agrees with the rest of the machine's configuration, beyond its own fields'
ranges (R929): a tile of the field (R181), the SRAM split (R152), the channel pool (R253), a landing window in local store
(R258, R295), a steering rule's form and ports (R299), a preload's descriptor (R438). -/
def State.agrees (s : State) (k : RegKey) (w : Nat) : Bool :=
  match k.reg with
  | .tilWinSel | .dbgSampleCfg => isTile (bits w 19 0) && decide (fieldOf (bits w 19 0) = k.unit)
  | .tilSplit => s.splitAgrees k.unit w
  | .lnsDesc => lensWordOk (k.idx % 16) w
  | .mveDesc => mvWordOk (k.idx % 16) w
  | .chnSlotCfg => s.poolOk k.unit k.idx w
  | .chnSlotDest => decide (k.idx < 16) || (if s.gf F.chnSlotCfg_landing k.unit k.idx = 1 then decide (bits w 19 12 = 0)
      else isTile (bits w 19 0) && decide (bits w 30 28 = 0))
  | .chnSlotWindow => decide (16 ≤ k.idx) || (decide (bits w 31 16 ≤ s.lsBytes k.unit) &&
      (decide (s.gf F.chnSlotCfg_landing k.unit k.idx ≠ 1) || decide (bits w 15 0 ≤ bits w 31 16)))
  | .strRule => s.steerOk k.unit k.idx w
  | .lnsPreload => !w.testBit 63 || (let d := (s.lensDesc k.unit (bits w 62 56)).kind; decide (d = 1) || decide (d = 2))
  | _ => true

/-- Who may write a register at all: the Keeper alone (R15, R683), a session's rights (R184, R871), the function a ring
belongs to; the rest is open to everyone who reaches it. -/
def State.mayWrite (s : State) (req : Requester) (k : RegKey) : Bool :=
  match k.reg with
  | .stnTileCount | .bcnSkewComp | .pwrVfCore | .pwrVfLens | .pwrDroopCfg => byKeeper req
  | .fkpHeartbeat => decide (req = .keeper k.unit)
  | .tgpCtl | .dbgBreak => s.right req 0 (fieldOf k.unit)
  | .hstRingReqBase | .hstRingResBase | .hstRingStatusAddr => mayConfigure req (ringPort k.unit) (ringFn k.unit)
  | .hstMboxArg => decide (s.gf F.hstMboxStatus_state k.unit ≠ 1) && decide (s.gf F.hstMboxStatus_state k.unit ≠ 2)
  | .hstMboxResult => false
  | .strRule => decide (s.gf F.tilRole_role k.unit = 1) || decide (s.gf F.tilRole_role k.unit = 2)
  | .clkSrcCfg => !(List.range 4).any fun r => s.flag F.clkPllStatus_lock 0 (129 + r)
  | _ => true

/-- Whether a channel register applies only to the other side of the tile's slots than its index names (R295). -/
def wrongSide (k : RegKey) : Bool :=
  match k.reg with
  | .chnSlotDest => decide (k.idx < 16)
  | .chnSlotWindow | .chnSlotDone => decide (16 ≤ k.idx)
  | _ => false

/-- A command posted to a mailbox slot (R803, R804): results of the last one go, the Keeper takes commands in the order of
their GO writes. -/
def State.postMbox (s : State) (u op : Nat) : State :=
  let s := s.wr .hstMboxStatus u 0 (BitVec.ofNat 64 (2 ^ 30 + op % 256 * 2 ^ 16))
  let s := s.each (List.range 48) fun s k => s.wr .hstMboxResult u k 0
  { s with mboxQueue := s.mboxQueue ++ [u] }

/-- A write of `TGP_CTL` (R875-R881): HOLD_ON_TRAP as written; HALT halts, and overrides RESUME; RESUME acts on the HALT bit as
it stood, which then reads as written. -/
def State.writeTgpCtl (s : State) (req : Requester) (t g v : Nat) : State :=
  let s := s.sf F.tgpCtl_hold_on_trap t g (bits v 3 3)
  let s := if v.testBit 0 then outcomeOr (execHalt req t g s) s
    else
      let s := if v.testBit 2 then outcomeOr (execResume req t g s) s else s
      s.sf F.tgpCtl_halt t g 0
  if v.testBit 1 then outcomeOr (execStep req t g s) s else s

/-- A write of GO to `RST_DOMAIN_CTL` by the Keeper (R733, R734): the reset begins. -/
def State.commandReset (s : State) (w : Nat) : State :=
  let n := bits w 22 0
  outcomeOr (match bits w 26 24 with
    | 0 => execGroupReset none (n % 2 ^ 20) (n / 2 ^ 20) s
    | 1 => execTileReset none n s
    | 2 => execBayReset none n s
    | 3 => execFieldReset none n s
    | 4 => execRimPortReset none n s
    | _ => execStationReset none 2 s) s

/-- A write of a word of a register: the whole of it is ignored and logged where a field would leave its range (R929) or the
requester may not write it; otherwise its fields follow their access types, and what the register commands is done. -/
def State.writeReg (s : State) (req : Requester) (k : RegKey) (word addr : Nat) (v : Word) : State :=
  let u := k.unit
  let i := k.idx
  let n := v.toNat
  let no := s.refuse k.field req addr
  let full := withWord (s.rd k.reg u i).toNat word v
  let ok := rangeOk k.reg i full && s.agrees k full && s.mayWrite req k
  match k.reg with
  | .bcnPeriod => outcomeOr (execBcnPeriodWrite req n s) s
  | .bcnSettleLen => outcomeOr (execBcnSettleLenWrite req n s) s
  | .clkEnable => outcomeOr (execClkEnableWrite req i n s) s
  | .stnWdogAck => if n.testBit 0 then outcomeOr (execStnWdogAck req s) s else s
  | .stnPeerCtl =>
    let s := if n.testBit 0 then outcomeOr (execPeerBreak req i s) s else s
    if n.testBit 1 then outcomeOr (execPeerClear req i s) s else s
  | .hstRingCfg => outcomeOr (execHstRingCfgWrite req (ringPort u) (ringFn u) (u % 256) n s) s
  | .hstMboxCmd =>
    if n.testBit 31 = false then s
    else if s.gf F.hstMboxStatus_state u = 1 ∨ s.gf F.hstMboxStatus_state u = 2 then no
    else s.postMbox u (bits n 7 0)
  | .chnSlotCtl => if n.testBit 0 then outcomeOr (execFlush req u i s) s else s
  | .mshLlEntry => if rangeOk .mshLlEntry i full then outcomeOr (execLightListWrite req u i (BitVec.ofNat 64 full) s) s else no
  | .mshEpochCtl =>
    if n.testBit 31 then outcomeOr (execEpochArm req u (bits n 15 0) s) s
    else s.sf F.mshEpochCtl_watch_low u (s.gf F.mshSectorSel_sector u) (bits n 15 0)
  | .strDrainCtl =>
    let s := s.sf F.strDrainCtl_sector u 0 (bits n 11 0)
    if n.testBit 31 then outcomeOr (execDrainStart req u (bits n 11 0) s) s else s
  | .buyKop =>
    match bits n 31 29 with
    | 0 => outcomeOr (execBuyKopAdd req u (bits n 9 0) s) s
    | 1 => outcomeOr (execBuyKopSet req u (bits n 9 0) s) s
    | 2 => outcomeOr (execBuyKopClear req u (bits n 9 0) s) s
    | _ => no
  | .buyState => if n.testBit 30 then s.setBuoy u i { s.buoy u i with sat := (s.setNow k).testBit 30 && (s.buoy u i).sat } else s
  | .dbgReg => if word = 1 then outcomeOr (execDbgRegWrite req (fieldOf u) i v s) s else s
  | .fstWinData => s
  | .tgpCtl => if ok then s.writeTgpCtl req u i n else no
  | .sptTagParent =>
    let k := { k with idx := s.gf F.sptSectorSel_sector u * 16 + i }
    s.store req k word addr v
  | .tilRole =>
    if ok = false then no
    else
      let t := s.store req k word addr v
      if s.gf F.tilRole_role u ≠ 0 ∧ t.gf F.tilRole_role u = 0 then t.loseSram u else t
  | .stnTileCount => if ok then { s.store req k word addr v with countWritten := true } else no
  | .stnWdogCfg =>
    if ok = false then no
    else
      let t := s.store req k word addr v
      if s.wdogArmed = false ∧ t.wdogArmed = true then { t with wdogFrom := t.now } else t
  | .dbgBreak =>
    if ok = false then no
    else
      let s := s.store req k word addr v
      if n.testBit 31 then s.noteDebug req u (8 + i) else { s with haltedBy := mdel s.haltedBy (u, 8 + i) }
  | .rstDomainCtl =>
    if ok = false then no
    else
      let s := s.store req k word addr v
      if n.testBit 31 = false then s
      else if byKeeper req then s.commandReset n
      else s.refuse 64 req addr
  | _ => if wrongSide k then s else if ok then s.store req k word addr v else no

/-- Whether a word of field store may be written through `FST_WIN_DATA` (R183, R541): the sector that owns its region is not
started, or every group of the sector's tiles is HALTED. -/
def State.fstWindowMayWrite (s : State) (f a : Nat) : Bool :=
  let r := (List.range 256).find? fun r => s.flag F.fstRegionCfg_valid f r &&
    decide (s.gf F.fstRegionSpan_base f r * 4096 ≤ a) &&
    decide (a < (s.gf F.fstRegionSpan_base f r + s.gf F.fstRegionSpan_size_m1 f r + 1) * 4096)
  match r with
  | none => true
  | some r =>
    let sec := s.gf F.fstRegionCfg_owner f r
    !s.startedIn f sec || ((s.fieldsOf sec).flatMap fun g => s.tilesOf g sec).all fun t =>
      (List.range 8).all fun g => decide ((s.grp t g).st = .halted)

/-- A write through `FST_WIN_DATA` (R541). -/
def State.fstWindowWrite (s : State) (req : Requester) (f : Nat) (v : Word) (addr : Nat) : State × Nat :=
  let a := s.gf F.fstWinAddr_addr f / 4 * 4
  if s.fstWindowMayWrite f a then (s.fstPutBytes f a [byteOf v 0, byteOf v 1, byteOf v 2, byteOf v 3], 0)
  else (s.refuse f req addr, 1)

/-- A write at an address: the state and the completion. -/
def State.writeAt (s : State) (req : Requester) (addr : Nat) (v : Word) : State × Nat :=
  let f := fieldOfAddr req addr
  let off := addr % 0x100000
  let p := s.place req addr
  if addr % 4 ≠ 0 ∨ s.barred f off true = true ∨ p = .reserved then (s.refuse f req addr, 1)
  else match s.gatedBlock f off with
    | some b => (s.gatedAccess f b req addr, 1)
    | none => match p with
      | .reg k w =>
        if k.reg = .fstWinData then s.fstWindowWrite req f v addr
        else (s.writeReg req k w addr v, 0)
      | .sram t o =>
        if s.portIdle t o = false then (s.queueWindow req t o (some v), pendingStatus)
        else if s.windowMayWrite t then (s.windowWrite t o v, 0) else (s.refuse f req addr, 1)
      | .doorbell r head =>
        (outcomeOr (if head then execHstDbResHead (ringPort r) (ringFn r) (r % 256) v.toNat s
          else execHstDbReqTail (ringPort r) (ringFn r) (r % 256) v.toNat s) s, 0)
      | .feed p => (outcomeOr (execWatchdogFeed p v.toNat s) s, 0)
      | _ => (s, 0)

/-! ### The commands -/

/-- A read: one of any size but a word completes as an abort or a bus error, and is logged (R9). -/
def State.readSized (s : State) (req : Requester) (a : SizedAccess) : State × Nat × Word :=
  if a.size = 4 then s.readAt req a.addr else (s.refuse (fieldOfAddr req a.addr) req a.addr, 1, 0)

/-- A write (R9). -/
def State.writeSized (s : State) (req : Requester) (a : SizedAccess) (v : Word) : State × Nat :=
  if a.size = 4 then s.writeAt req a.addr v else (s.refuse (fieldOfAddr req a.addr) req a.addr, 1)

/-- An access completed, but for one that waits for a service port: its KRESP will (R183). -/
def State.complete (s : State) (req : Requester) (status : Nat) (w : Word) : State :=
  if status = pendingStatus then s else s.answer req status w

/-- The registers that I3C0 serves (R906). -/
def State.i3cWord (s : State) (addr : Nat) : Word :=
  let w (r : Reg) (u : Nat) : Word := BitVec.ofNat 32 (r.readable (s.shows ⟨r, u, 0⟩))
  if addr % 4 ≠ 0 then 0xFFFFFFFF
  else if addr < 0x100 then w .thmStatus (addr / 4)
  else match addr with
    | 0x100 => w .pwrWaferEnergy 0
    | 0x104 => w .pwrCap 0
    | 0x108 => w .stnStartup 0
    | 0x10C => w .stnEventHead 0
    | _ => 0xFFFFFFFF

/-- REGISTER_READ (R8-R10, R895, R903): the word comes back to its requester. A hardware block's read is a private read of
I3C0's target (R906). -/
def execRegisterRead (req : Requester) (access : SizedAccess) (s : State) : Host.Outcome State Fault Refusal :=
  .next (if req = .block then s.answer req 0 (s.i3cWord access.addr)
    else
      let r := s.readSized req access
      r.1.complete req r.2.1 r.2.2)

/-- REGISTER_WRITE (R9, R10, R13, R929). I3C0 ignores writes (R906). -/
def execRegisterWrite (req : Requester) (access : SizedAccess) (value : Word) (s : State) :
    Host.Outcome State Fault Refusal :=
  .next (if req = .block then s
    else
      let r := s.writeSized req access value
      r.1.complete req r.2 0)

/-- TILE_WINDOW_WRITE (R182, R183): a word of the SRAM of the tile that its field's window exposes, behind what waits at its service
port. -/
def execTileWindowWrite (req : Requester) (t off : Nat) (value : Word) (s : State) : Host.Outcome State Fault Refusal :=
  let f := fieldOf t
  onTile t (
    if s.gf F.tilWinSel_tile f ≠ t ∨ 0xA000 ≤ off then s
    else
      let r := s.writeAt req (fieldWin f (0xA4000 + off)) value
      r.1.complete req r.2 0)

/-- FST_WIN_DATA_WRITE (R183, R541): `FST_WIN_DATA` of field `f` is written. -/
def execFstWinDataWrite (req : Requester) (f : Nat) (value : Word) (s : State) : Host.Outcome State Fault Refusal :=
  onField f (
    let r := s.writeAt req (fieldWin f 0x80008) value
    r.1.answer req r.2 0)

/-- The tile at which the Keeper of a field, or the active Station Keeper, meets the control plane. -/
def State.keeperTile (s : State) (n : Nat) : Nat := fieldTile (if n < 64 then n else s.keeperAt)

/-- The tile at which a register request meets the unit that holds the register: its field's, or the station's (R329). -/
def State.registerTile (s : State) (req : Requester) (addr : Nat) : Nat :=
  let f := fieldOfAddr req addr
  if f < 64 then fieldTile f else s.keeperTile 64

/-- The register request, ejected where its register lies, that an access of a Keeper is. -/
def State.kregHere (s : State) (req : Requester) (addr : Nat) (write : Option Word) : Option Packet :=
  s.packets.find? fun p => decide (p.ty = .kreg ∧ p.st = .ejected ∧ p.addr = addr ∧ p.req = some req ∧ p.write = write)

/-- The answer to a register request: the completion and, for a read, the word (R338). -/
def State.kregAnswer (s : State) (n : Nat) (p : Packet) (status : Nat) (body : List TWord) : State :=
  s.addPkt { id := 0, ty := .kregResp, control := true, wafer := true, parity := s.parity (fieldOf p.at_), len := 1 + body.length
             dest := s.keeperTile n, src := p.at_, at_ := p.at_, addr := p.addr, req := p.req, status := status, body := body }

/-- KREG (R9, R329, R338): a Keeper's register request goes out on CV1; one that has come to where its register lies is performed, and
a KREG_RESP goes back. A request that no packet can carry completes at once as a bus error, and is logged; a fogged field is reached
over its configuration chain (R773, R850). -/
def execKreg (n : Nat) (access : SizedAccess) (write : Option Word) (s : State) : Host.Outcome State Fault Refusal :=
  onUnit n 65 (
    let req : Requester := .keeper n
    let addr := access.addr
    let f := fieldOfAddr req addr
    if access.size ≠ 4 ∨ addr % 4 ≠ 0 ∨ (f < 64 ∧ (s.fld f).fogged = true) then
      match write with
      | none =>
        let r := s.readSized req access
        r.1.complete req r.2.1 r.2.2
      | some v =>
        let r := s.writeSized req access v
        r.1.complete req r.2 0
    else match s.kregHere req addr write with
      | none =>
        s.addPkt { id := 0, ty := .kreg, control := true, wafer := true, parity := s.parity (fieldOf (s.keeperTile n))
                   len := 2 + b2n write.isSome, dest := s.registerTile req addr, src := s.keeperTile n, at_ := s.keeperTile n
                   addr := addr, body := write.toList.map fun w => { w := w }, req := some req, write := write }
      | some p =>
        let s := s.dropPkt p.id
        match write with
        | none =>
          let r := s.readAt req addr
          if r.2.1 = pendingStatus then r.1 else r.1.kregAnswer n p r.2.1 [{ w := r.2.2 }]
        | some v =>
          let r := s.writeAt req addr v
          if r.2 = pendingStatus then r.1 else r.1.kregAnswer n p r.2 [])

/-- KREG_RESP (R338): the response reaches its Keeper and completes the access. -/
def execKregResp (pkt : Nat) (s : State) : Host.Outcome State Fault Refusal :=
  match s.arrived pkt .kregResp with
  | none => .next s
  | some p => .next ((s.dropPkt pkt).answer (p.req.getD (.keeper 64)) p.status (p.body.headD { w := 0 }).w)

end Sys2Proof.Machine
end

