-- ==== Sys2Proof/Machine/Startup.lean ====
section
/-! DEFINITION. Start-up, step by step (spec/18_start_up.md, R750-R776; CXL capacity: R781). -/

namespace Sys2Proof.Machine

/-- Whether a failure has stopped start-up (R775). -/
def State.halted (s : State) : Bool := (s.gf F.stnFoghorn_cause).testBit 1

/-- Whether step `n` may be worked on: those before it done, itself not, start-up not stopped. -/
def State.inStep (s : State) (n : Nat) (after : List Nat) : Bool :=
  !s.halted && !s.stepsDone.contains n && after.all s.stepsDone.contains

/-- Start-up stops at a step (R775, R846). -/
def State.failStartup (s : State) (step : Nat) : State :=
  ((s.sf F.stnStartup_failed 0 0 1).logEv evStartupFail 64 64 step).foghorn 1 false (evCode evStartupFail)

/-! ### ROM (R754-R758) -/

/-- Whether a firmware copy verifies (R755). -/
def State.fwOk (s : State) (c : FwCopy) : Bool := c.sigOk && decide (s.fuses.fwFloor ≤ c.svn)

/-- BOOT_ROM (R754-R758): the boot ROM selects a firmware copy and starts the Keeper, or enters recovery. Copy A is the one that
recovery wrote, once it has (R757). -/
def execBootRom (a b : FwCopy) (f27 : Bool) (s : State) : Host.Outcome State Fault Refusal :=
  .next (if s.stepsDone ≠ [] ∨ s.halted = true then s
    else
      let a := s.recovered.getD a
      let aOk := s.fwOk a
      let bOk := s.fwOk b
      let s := (s.sf F.stnFwStatus_a_ok 0 0 (b2n aOk)).sf F.stnFwStatus_b_ok 0 0 (b2n bOk)
      let s := s.stepDone 0
      if aOk = false ∧ bOk = false then s.foghorn 0 false 0
      else
        let useB := bOk && (!aOk || decide (a.major * 256 + a.minor < b.major * 256 + b.minor))
        let c := if useB then b else a
        let s := (s.sf F.stnFwStatus_active 0 0 (b2n useB)).sf F.stnFwStatus_svn 0 0 c.svn
        let s := (s.sf F.stnFwStatus_major 0 0 c.major).sf F.stnFwStatus_minor 0 0 c.minor
        let s := (s.setEnable 66 0x3C).stepDone 1
        let s := if aOk then s else s.logEv evFwCopyBad 64 0 0
        let s := if bOk then s else s.logEv evFwCopyBad 64 1 0
        if f27 then { s with keeperAt := 27 }
        else
          let s : State := { s with keeperAt := 36, mirrorReady := false }
          ((s.sf F.stnFwStatus_mirror 0 0 1).bump .stnCountFailover 0 0 1).logEv evKeeperFailover 64 36 0)

/-- FIRMWARE_RECOVERY (R757): a copy received in recovery that verifies is written to copy A, once the inhibit is 0, and start-up
begins again as a station reset. -/
def execFirmwareRecovery (copy : FwCopy) (s : State) : Host.Outcome State Fault Refusal :=
  .next (if s.stepsDone ≠ [0] ∨ (s.gf F.stnFoghorn_cause).testBit 0 = false ∨ s.fwOk copy = false ∨
      s.flag F.stnNvInhibit_inhibit = true then s
    else ({ s with recovered := some copy } : State).resetStation 2)

/-! ### CLOCKS and STATION -/

/-- STARTUP_CLOCKS (R747): the station PLL locks to XA, and FIRC is trimmed. -/
def execStartupClocks (s : State) : Host.Outcome State Fault Refusal :=
  .next (if s.inStep 2 [1] = false ∨ s.flag F.clkSrcStatus_xa_ok = false ∨ s.flag F.clkSrcStatus_firc_ok = false then s
    else ({ (s.setLock 0 true).sf F.clkPllStatus_mhz 0 0 1000 with minuteLog := none } : State).stepDone 2)

/-- A station rail missing or failing: RAIL_FAULT of station class, and start-up stops (R682). -/
def State.stationRails (s : State) (bad : List Nat) (step : Nat) : State :=
  (s.each bad fun s r => (s.hset F.pwrRailStatus_fault 0 r).logEv { evRailFault with cls := 5 } 64 r 0).failStartup step

/-- The live map to be rebuilt after both ledger copies failed (R75): each OPERATOR record of a copy whose own check passes,
among those that `legible` names by bay and watch, is logged once and lost; what BIST and retest can find anew is dropped;
GATE records, floors and trim records stay (R28, DESIGN CHOICE, assumption 101). -/
def State.rebuildLedger (s : State) (legible : List (Nat × Nat)) (unknown : Nat) : State :=
  let both := s.copyA.records ++ s.copyB.records
  let lost := (both.filterMap fun r => match r with
    | .defect d w => if d.source = 5 ∧ legible.contains (d.loc, w) = true then some (d.loc, w) else none
    | _ => none).eraseDups
  let s := s.each lost fun s e => s.logEv evLedgerRecordLost 64 e.1 e.2
  let kept := both.eraseDups.filter fun r => match r with | .defect d _ => decide (d.source = 3) | _ => true
  ({ s with live := kept, ledgerRepair := some (true, true, kept) } : State).logEv evLedgerRebuilt 64 64
    (min unknown both.length)

/-- The ledger read (R75, R606): a copy that fails its check is rewritten from the other, once the inhibit is 0; where both
fail, the live map is rebuilt. Live records that still wait to be written count. -/
def State.readLedger (s : State) (copyA copyB : Bool) (legible : List (Nat × Nat)) (unknown : Nat) : State :=
  let s : State := match copyA, copyB with
    | true, true => { s with live := s.copyA.records }
    | true, false => { s with live := s.copyA.records, ledgerRepair := some (false, true, s.copyA.records) }
    | false, true => { s with live := s.copyB.records, ledgerRepair := some (true, false, s.copyB.records) }
    | false, false => s.rebuildLedger legible unknown
  let s := if s.flag F.stnNvInhibit_inhibit then s else s.repairCopies
  { s with live := (s.ledgerQueue.filter Ledger.isDefect).foldl ledgerWith s.live }

/-- A boot setting out of its range (R760): the default, logged. -/
def State.badSetting (s : State) (bad : Bool) : State := if bad then s.refuse 64 .block 0 else s

/-- STARTUP_STATION (R759, R760): ledger, floors, rail map, boot settings, XB_MODE; a corrupt fused map stops start-up at FIELDS.
-/
def execStartupStation (copyA copyB : Bool) (lost : List (Nat × Nat)) (unknown : Nat) (badRails : List Nat) (xbMode : Bool)
    (period : Option Nat) (ports : Option (Nat × Nat × Nat)) (caps : Option (Nat × Nat)) (s : State) :
    Host.Outcome State Fault Refusal :=
  .next (if s.inStep 3 [2] = false then s
    else
      let s := s.readLedger copyA copyB lost unknown
      if badRails ≠ [] then s.stationRails badRails 3
      else
        let p := period.getD 50000
        let bad := decide (p < 10000) || decide (1000000 < p)
        let s := s.badSetting bad
        let m := ports.getD (0xF, 0xFFFF, 0xFF)
        let c := caps.getD (60000, 10000)
        let s : State := { s with
          bootPeriod := if bad then 50000 else p
          bootPorts := (m.1 % 16, m.2.1 % 2 ^ 16, m.2.2 % 256)
          bootCaps := (min c.1 60000, min c.2 10000) }
        let s := (s.sf F.clkSrcCfg_xb_mode 0 0 (b2n xbMode)).sf F.clkSrcStatus_xb_mode 0 0 (b2n xbMode)
        let s := s.stepDone 3
        if s.fuses.mapOk then s
        else ((s.sf F.stnBindStatus_reason 0 0 0x0A).logEv evMapCorrupt 64 64 0).failStartup 5)

/-! ### LINKS and MEMORY -/

/-- Whether a port being trained is up: kinds 0 PCIe, 1 and 3 CXL, 2 Jalfen. -/
def State.portUp (s : State) (kind p : Nat) : Bool :=
  match kind with
  | 0 => (s.gf F.stnStartupPorts_pcie).testBit p
  | 2 => (s.gf F.stnStartupPorts_jalfen).testBit p
  | _ => (s.gf F.stnStartupPorts_cxl).testBit p

/-- A port's deadline removed. -/
def State.endTraining (s : State) (kind p : Nat) : State := { s with startDeadlines := mdel s.startDeadlines (kind, p) }

/-- Whether an enabled port of a kind is neither up nor declared down. -/
def State.portsWait (s : State) (kind : Nat) : Bool :=
  let m := s.bootPorts
  let enabled := if kind = 0 then m.1 else if kind = 1 then m.2.1 else m.2.2
  (List.range 16).any fun p => enabled.testBit p && !s.portUp kind p && !s.portsDown.contains (kind, p)

/-- LINKS completes with the last PCIe port; CXL ports and Jalfen links are enabled and train (R761, R763). MEMORY completes with
the last of those, every enabled port that a lost XB took down trained again (R774). -/
def State.checkLinks (s : State) : State :=
  let waits (s : State) (kinds : List Nat) : Bool := kinds.any s.portsWait
  let s := if s.inStep 4 [3] = true ∧ s.flag F.pwrRailStatus_enabled 0 129 = true ∧ waits s [0] = false then
      let s := s.stepDone 4
      let cxl := (List.range 16).filter s.bootPorts.2.1.testBit
      let jlf := (List.range 8).filter s.bootPorts.2.2.testBit
      let s := s.setEnable 65 s.bootPorts.2.1
      let s := s.setEnable 64 (Nat.lor (s.gf F.clkEnable_en 0 64) (s.bootPorts.2.2 * 256))
      { s with startDeadlines := s.startDeadlines ++ cxl.map (fun p => ((1, p), s.now + 3000000000)) ++
          jlf.map (fun j => ((2, j), s.now + 500000000)) }
    else s
  if s.inStep 7 [4] = true ∧ waits s [0, 1, 2] = false then s.stepDone 7 else s

/-- STARTUP_LINKS (R761): the SerDes rails, the rim PLL groups and the PCIe ports are enabled. -/
def execStartupLinks (badRails : List Nat) (s : State) : Host.Outcome State Fault Refusal :=
  .next (if s.inStep 4 [3] = false ∨ s.flag F.pwrRailStatus_enabled 0 129 = true then s
    else if badRails ≠ [] then s.stationRails badRails 4
    else if s.flag F.clkSrcStatus_xb_ok = false then s
    else
      let s := (s.sf F.pwrRailStatus_enabled 0 129 1).sf F.pwrRailStatus_enabled 0 130 1
      let s := s.each (List.range 4) fun s r => s.setLock (129 + r) true
      let s := s.setEnable 64 s.bootPorts.1
      let ports := (List.range 4).filter s.bootPorts.1.testBit
      ({ s with startDeadlines := ports.map fun p => ((0, p), s.now + 150000000) } : State).checkLinks)

/-- Whether a port of a kind is in training. -/
def State.training (s : State) (kind p : Nat) : Bool := (mfind s.startDeadlines (kind, p)).isSome && !s.portUp kind p

/-- PCIE_LINK_UP (R761, R762): a PCIe port in training reaches link-up. -/
def execPcieLinkUp (port : Nat) (s : State) : Host.Outcome State Fault Refusal :=
  onUnit port 4 (if s.training 0 port = false ∨ s.flag F.clkSrcStatus_xb_ok = false then s
    else ((s.rimUp port).endTraining 0 port).checkLinks)

/-- LINK_TRAINED (R763): a CXL port trains and waits for its device, or a Jalfen link trains. -/
def execLinkTrained (kind port : Nat) (s : State) : Host.Outcome State Fault Refusal :=
  onUnit port 16 (if s.training kind port = false ∨ s.flag F.clkSrcStatus_xb_ok = false then s
    else match kind with
      | 1 =>
        let cap := if s.flag F.stnStartup_cold then s.bootCaps.1 else s.bootCaps.2
        let s := s.endTraining 1 port
        { s with startDeadlines := mput s.startDeadlines (3, port) (s.now + cap * 1000000) }
      | 2 => ((s.rimUp (20 + port)).endTraining 2 port).checkLinks
      | _ => s)

/-- LINK_TRAIN_FAIL (R761, R763): a port has not trained within its bound and is declared down until a RESET_DOMAIN names it. -/
def execLinkTrainFail (kind port : Nat) (s : State) : Host.Outcome State Fault Refusal :=
  onUnit port 16 (match mfind s.startDeadlines (kind, port) with
    | none => s
    | some t =>
      if 3 ≤ kind ∨ s.training kind port = false ∨ s.flag F.clkSrcStatus_xb_ok = false then s
      else
        let s := (s.advanceTo t).endTraining kind port
        let s : State := { s with portsDown := s.portsDown ++ [(kind, port)] }
        let s := if kind = 1 then s.sf F.stgEngineStatus_link_down 0 port 1
          else s.logEv evLinkTrainFail 64 port kind
        s.checkLinks)

/-- MEMORY_ACTIVE (R763, R764, R781): a CXL device becomes active; beyond 2 TiB it is clipped. -/
def execMemoryActive (port capacity : Nat) (s : State) : Host.Outcome State Fault Refusal :=
  onUnit port 16 (if s.training 3 port = false then s
    else
      let s := (s.rimUp (4 + port)).endTraining 3 port
      let s := if 2 ^ 41 < capacity then s.logEv evCxlCapacityClipped 64 port capacity else s
      s.checkLinks)

/-- A CXL port declared down for want of its device: CXL_MEMORY_TIMEOUT (R763). -/
def State.memoryDown (s : State) (port : Nat) : State :=
  let s : State := { s.endTraining 3 port with portsDown := s.portsDown ++ [(1, port)] }
  let s := s.sf F.clkEnable_en 0 65 (setBits (s.gf F.clkEnable_en 0 65) (16 + port) (16 + port) 0)
  ((s.sf F.stgEngineStatus_link_down 0 port 1).logEv evCxlMemoryTimeout 64 port 0).checkLinks

/-- CXL_MEMORY_TIMEOUT (R763): a trained port's device is not active by the cap. -/
def execCxlMemoryTimeout (port : Nat) (s : State) : Host.Outcome State Fault Refusal :=
  onUnit port 16 (match mfind s.startDeadlines (3, port) with
    | none => s
    | some t => if s.training 3 port = false then s else (s.advanceTo t).memoryDown port)

/-- CXL_IO_CONFIGURATION_TIMEOUT (R810): a configuration transaction of a CXL port has not completed within 100 ms: the port is
declared down. -/
def execCxlIoConfigurationTimeout (port : Nat) (s : State) : Host.Outcome State Fault Refusal :=
  onUnit port 16 (
    if s.training 1 port = true ∨ s.training 3 port = true then
      let s : State := { (s.endTraining 1 port).endTraining 3 port with portsDown := s.portsDown ++ [(1, port)] }
      (s.sf F.stgEngineStatus_link_down 0 port 1).checkLinks
    else if s.portUp 1 port then
      let s : State := { s with portsDown := s.portsDown ++ [(1, port)] }
      s.linkDown (4 + port)
    else s)

/-! ### The end of a reset (R733) -/

/-- RESET_COMPLETE (R733): a domain has reached the point that completes its reset: a tile once its bay is LIT and its
routers are rewritten; a bay once LIT and tested; a field once powered up, its skew measured again (R127); a rim port once trained, with XB and its PLL
group good. A station reset completes with STARTUP_READY. -/
def execResetComplete (domain target : Nat) (test : FieldTest) (s : State) : Host.Outcome State Fault Refusal :=
  if s.resets.any (fun j => j.domain = domain && j.target = target) = false then .next s
  else match domain with
    | 0 => .next (s.endReset 0 target)
    | 1 =>
      if s.bayState (bayOf target) ≠ 2 then .next s
      else .next (((s.rewriteRouters (fieldOf target) (· = target)).endReset 1 target).strand)
    | 2 =>
      if s.bayState target ≠ 2 then .next s
      else
        let s := s.failRecords (ofBay target) test.bad
        if test.bad.any fun b => b.1 = 3 && b.2.1 = target then .next (s.openGate target 5)
        else
          let s : State := { s with bays := mput s.bays target { mget {} s.bays target with tested := true } }
          .next (((s.rewriteRouters (fieldOfBay target) fun t => bayOf t = target).endReset 2 target).strand)
    | 3 =>
      if test.fail.isSome then .next s
      else .next (((s.powerUpField target test).sf F.bcnSkewComp_comp target 0 test.skew).endReset 3 target).strand
    | 4 =>
      if s.flag F.clkSrcStatus_xb_ok = false ∨ s.flag F.clkPllStatus_lock 0 (129 + rimOf target) = false then .next s
      else .next ((((s.rimUp target).portTrained target).checkLinks).endReset 4 target)
    | _ => .next s

/-! ### FIELDS -/

/-- Whether a field's power-up is over in this start-up (R765, R768). -/
def State.fieldOver (s : State) (f : Nat) : Bool :=
  (s.gf F.stnStartupFields_running).testBit f || decide (2 ≤ mget 0 s.fieldFails f)

/-- A rail of a field missing, or failing its first check (R682): one RAIL_FAULT of field class. -/
def State.fieldRail (s : State) (f rail : Nat) : State :=
  let r := if rail = 64 + f then rail else f
  (s.hset F.pwrRailStatus_fault 0 r).logEv { evRailFault with cls := 4 } f r 0

/-- FIELD_POWER_UP (R765, R766, R768): a field of the current wave is powered up and tested, with what its tests find; a second
failure leaves it held. A retry after a thermal trip waits until the field has cooled. The last field completes FIELDS. -/
def execFieldPowerUp (f : Nat) (test : FieldTest) (s : State) : Host.Outcome State Fault Refusal :=
  onField f (
    let wave := (List.range (f / 8 * 8)).all s.fieldOver
    if s.inStep 5 [3] = false ∨ wave = false ∨ s.fieldOver f = true ∨ s.tooHot f = true then s
    else
      let s := match test.fail with
        | none => s.powerUpField f test
        | some item =>
          let n := mget 0 s.fieldFails f + 1
          let s : State := { s with fieldFails := mput s.fieldFails f n }
          let s := if item = 2 then s.fieldRail f test.rail else s
          if n < 2 then s
          else
            let s := (s.sf F.stnStartup_failed 0 0 1).logEv evFieldStartupFail f f item
            let s := s.setFld f { s.fld f with held := true }
            { s with rewrites := s.rewrites ++ [(f, s.now)] }
      if (List.range 64).all s.fieldOver then (s.writeTileCount.checkGrade).stepDone 5 else s)

/-! ### BEACON and READY -/

/-- BEACON_START (R126, R127, R769, R770): the skew of every one of the 64 fields is written, the beacon starts at the boot period with watch 0. -/
def execBeaconStart (skews : List Nat) (s : State) : Host.Outcome State Fault Refusal :=
  .next (if s.inStep 6 [5] = false ∨ s.flag F.bcnStatus_running = true ∨ s.flag F.clkSrcStatus_holdover = true ∨
      s.flag F.clkSrcStatus_stn_lock = false ∨ skews.length ≠ 64 then s
    else
      let s := s.each ((List.range 64).zip skews) fun s e => s.sf F.bcnSkewComp_comp e.1 0 e.2
      let s := (s.sf F.bcnPeriod_period 0 0 s.bootPeriod).sf F.bcnStatus_running 0 0 1
      { s.intakeBlock 64 with lastBeacon := s.now, minuteLog := none })

/-- STARTUP_READY (R746, R771, R846): BEACON and MEMORY are complete: READY, the reset cause logged, FOGHORN_N released, the
station reset complete. -/
def execStartupReady (s : State) : Host.Outcome State Fault Refusal :=
  .next (if s.halted = true ∨ s.ready = true ∨ s.stepsDone.contains 6 = false ∨ s.stepsDone.contains 7 = false then s
    else
      let ms := min 1048575 ((s.now - s.startedAt) / 1000000)
      let s := (s.sf F.stnStartup_ready 0 0 1).sf F.stnStartup_elapsed_ms 0 0 ms
      let s := (s.stepDone 8).sf F.stnStartup_step 0 0 8
      let s := s.logEv evStartupReady 64 64 ms
      let s := s.logEv evResetCause 64 64 (s.gf F.rstCause_cause)
      let s := (s.sf F.stnFoghorn_asserted 0 0 0).sf F.stnFoghorn_cause 0 0 0
      let s : State := { s with wdogFrom := s.now, fogAutoAt := none, stationRetried := false }
      s.endReset 5 0)

/-- STARTUP_FAIL (R775): a step that has begun fails with no outcome of its own. -/
def execStartupFail (failedStep : Nat) (s : State) : Host.Outcome State Fault Refusal :=
  .next (if s.halted = true ∨ s.ready = true ∨ s.stepsDone.contains failedStep = true ∨ 8 ≤ failedStep then s
    else s.failStartup failedStep)

end Sys2Proof.Machine
end

