-- ==== Sys2Proof/Machine/Dispatch.lean ====
section
/-! DEFINITION. The dispatch: one arm per command, each one call of the command's meaning. -/

namespace Sys2Proof.Machine

/-- The effect of a command on everything but the queue. -/
def exec (i : Instr) (s : State) : Host.Outcome State Fault Refusal :=
  match i with
  | .stationBeacon => Sys2Proof.Machine.execStationBeacon s
  | .fieldWatchBegin f at_ => Sys2Proof.Machine.execFieldWatchBegin f at_ s
  | .beaconMissed f => Sys2Proof.Machine.execBeaconMissed f s
  | .workBegin f => Sys2Proof.Machine.execWorkBegin f s
  | .settleBegin f => Sys2Proof.Machine.execSettleBegin f s
  | .verdictVote to_ from_ sector readable => Sys2Proof.Machine.execVerdictVote to_ from_ sector readable s
  | .specSweep f sector => Sys2Proof.Machine.execSpecSweep f sector s
  | .commitPoint f => Sys2Proof.Machine.execCommitPoint f s
  | .journalApply f => Sys2Proof.Machine.execJournalApply f s
  | .handoverBegin f nanojoules margins beat => Sys2Proof.Machine.execHandoverBegin f nanojoules margins beat s
  | .restIntervalBegin f senseMv => Sys2Proof.Machine.execRestIntervalBegin f senseMv s
  | .planningRound atNs => Sys2Proof.Machine.execPlanningRound atNs s
  | .nop t g => Sys2Proof.Machine.execNop t g s
  | .end_ t g => Sys2Proof.Machine.execEnd t g s
  | .endOfWork t g => Sys2Proof.Machine.execEndOfWork t g s
  | .bra t g => Sys2Proof.Machine.execBra t g s
  | .bany t g => Sys2Proof.Machine.execBany t g s
  | .bnone t g => Sys2Proof.Machine.execBnone t g s
  | .pushif t g => Sys2Proof.Machine.execPushif t g s
  | .else_ t g => Sys2Proof.Machine.execElse t g s
  | .pop t g => Sys2Proof.Machine.execPop t g s
  | .mask t g => Sys2Proof.Machine.execMask t g s
  | .badd t g => Sys2Proof.Machine.execBadd t g s
  | .barrive t g => Sys2Proof.Machine.execBarrive t g s
  | .bset t g => Sys2Proof.Machine.execBset t g s
  | .bclear t g => Sys2Proof.Machine.execBclear t g s
  | .bawaitge t g => Sys2Proof.Machine.execBawaitge t g s
  | .bawaitflag t g => Sys2Proof.Machine.execBawaitflag t g s
  | .watchRelease t g => Sys2Proof.Machine.execWatchRelease t g s
  | .add t g => Sys2Proof.Machine.execAdd t g s
  | .sub t g => Sys2Proof.Machine.execSub t g s
  | .mul t g => Sys2Proof.Machine.execMul t g s
  | .and t g => Sys2Proof.Machine.execAnd t g s
  | .or t g => Sys2Proof.Machine.execOr t g s
  | .xor t g => Sys2Proof.Machine.execXor t g s
  | .shl t g => Sys2Proof.Machine.execShl t g s
  | .shr t g => Sys2Proof.Machine.execShr t g s
  | .sar t g => Sys2Proof.Machine.execSar t g s
  | .min t g => Sys2Proof.Machine.execMin t g s
  | .max t g => Sys2Proof.Machine.execMax t g s
  | .minu t g => Sys2Proof.Machine.execMinu t g s
  | .maxu t g => Sys2Proof.Machine.execMaxu t g s
  | .shfl t g => Sys2Proof.Machine.execShfl t g s
  | .mov t g => Sys2Proof.Machine.execMov t g s
  | .movi t g => Sys2Proof.Machine.execMovi t g s
  | .movhi t g => Sys2Proof.Machine.execMovhi t g s
  | .addi t g => Sys2Proof.Machine.execAddi t g s
  | .fadd t g => Sys2Proof.Machine.execFadd t g s
  | .fsub t g => Sys2Proof.Machine.execFsub t g s
  | .fmul t g => Sys2Proof.Machine.execFmul t g s
  | .fma t g => Sys2Proof.Machine.execFma t g s
  | .fmin t g => Sys2Proof.Machine.execFmin t g s
  | .fmax t g => Sys2Proof.Machine.execFmax t g s
  | .dot t g => Sys2Proof.Machine.execDot t g s
  | .cmp t g => Sys2Proof.Machine.execCmp t g s
  | .plog t g => Sys2Proof.Machine.execPlog t g s
  | .pfromu t g => Sys2Proof.Machine.execPfromu t g s
  | .ufromp t g => Sys2Proof.Machine.execUfromp t g s
  | .cvt t g => Sys2Proof.Machine.execCvt t g s
  | .sfu t g => Sys2Proof.Machine.execSfu t g s
  | .specBegin t g => Sys2Proof.Machine.execSpecBegin t g s
  | .specEnd t g => Sys2Proof.Machine.execSpecEnd t g s
  | .specConfirm t g => Sys2Proof.Machine.execSpecConfirm t g s
  | .specSquash t g => Sys2Proof.Machine.execSpecSquash t g s
  | .ld t g => Sys2Proof.Machine.execLd t g s
  | .st t g => Sys2Proof.Machine.execSt t g s
  | .rld t g => Sys2Proof.Machine.execRld t g s
  | .rldu t g => Sys2Proof.Machine.execRldu t g s
  | .rst t g => Sys2Proof.Machine.execRst t g s
  | .sendw t g => Sys2Proof.Machine.execSendw t g s
  | .sendv t g => Sys2Proof.Machine.execSendv t g s
  | .sendm t g => Sys2Proof.Machine.execSendm t g s
  | .releasePoint t load => Sys2Proof.Machine.execReleasePoint t load s
  | .watchdog t g => Sys2Proof.Machine.execWatchdog t g s
  | .packetHop pkt link => Sys2Proof.Machine.execPacketHop pkt link s
  | .item pkt flits => Sys2Proof.Machine.execItem pkt flits s
  | .landingCompletion t slot => Sys2Proof.Machine.execLandingCompletion t slot s
  | .rload pkt => Sys2Proof.Machine.execRload pkt s
  | .rstore pkt => Sys2Proof.Machine.execRstore pkt s
  | .servicePortAccess t => Sys2Proof.Machine.execServicePortAccess t s
  | .rdata pkt => Sys2Proof.Machine.execRdata pkt s
  | .rfail pkt => Sys2Proof.Machine.execRfail pkt s
  | .rpoison pkt => Sys2Proof.Machine.execRpoison pkt s
  | .kaccess req t access write => Sys2Proof.Machine.execKaccess req t access write s
  | .kresp pkt => Sys2Proof.Machine.execKresp pkt s
  | .credit pkt => Sys2Proof.Machine.execCredit pkt s
  | .ack pkt => Sys2Proof.Machine.execAck pkt s
  | .nack pkt => Sys2Proof.Machine.execNack pkt s
  | .kreg n addr write => Sys2Proof.Machine.execKreg n addr write s
  | .kregResp pkt => Sys2Proof.Machine.execKregResp pkt s
  | .buoyOp pkt => Sys2Proof.Machine.execBuoyOp pkt s
  | .buoyApply block => Sys2Proof.Machine.execBuoyApply block s
  | .buoyNotice pkt => Sys2Proof.Machine.execBuoyNotice pkt s
  | .buoyAck pkt => Sys2Proof.Machine.execBuoyAck pkt s
  | .buoyTrunkPacket => Sys2Proof.Machine.execBuoyTrunkPacket s
  | .buoyUnreachable block => Sys2Proof.Machine.execBuoyUnreachable block s
  | .buyKopAdd req block index => Sys2Proof.Machine.execBuyKopAdd req block index s
  | .buyKopSet req block index => Sys2Proof.Machine.execBuyKopSet req block index s
  | .buyKopClear req block index => Sys2Proof.Machine.execBuyKopClear req block index s
  | .controlSpaceRead pkt => Sys2Proof.Machine.execControlSpaceRead pkt s
  | .lensLaunch pkt => Sys2Proof.Machine.execLensLaunch pkt s
  | .lensPassAccept f lens => Sys2Proof.Machine.execLensPassAccept f lens s
  | .lensLoadComplete f lens stalls accesses waits => Sys2Proof.Machine.execLensLoadComplete f lens stalls accesses waits s
  | .lensPassExec f lens => Sys2Proof.Machine.execLensPassExec f lens s
  | .lensPassComplete f lens stalls accesses waits parity => Sys2Proof.Machine.execLensPassComplete f lens stalls accesses waits parity s
  | .lensPreload f lens k => Sys2Proof.Machine.execLensPreload f lens k s
  | .lensStretch f lens => Sys2Proof.Machine.execLensStretch f lens s
  | .mvLaunch pkt => Sys2Proof.Machine.execMvLaunch pkt s
  | .mvOperationBegin f => Sys2Proof.Machine.execMvOperationBegin f s
  | .mvOperationComplete f stalls accesses waits => Sys2Proof.Machine.execMvOperationComplete f stalls accesses waits s
  | .fieldStoreRequest pkt => Sys2Proof.Machine.execFieldStoreRequest pkt s
  | .fieldStoreBankAccess f bank waited => Sys2Proof.Machine.execFieldStoreBankAccess f bank waited s
  | .fstScrub f bank line found => Sys2Proof.Machine.execFstScrub f bank line found s
  | .stageLaneInject transfer lane => Sys2Proof.Machine.execStageLaneInject transfer lane s
  | .stage pkt => Sys2Proof.Machine.execStage pkt s
  | .stageNotify f transfer => Sys2Proof.Machine.execStageNotify f transfer s
  | .cxlReadComplete transfer line data poison stalled => Sys2Proof.Machine.execCxlReadComplete transfer line data poison stalled s
  | .cxlMemTimeout port transfer => Sys2Proof.Machine.execCxlMemTimeout port transfer s
  | .cxlWriteComplete port => Sys2Proof.Machine.execCxlWriteComplete port s
  | .tagOp f => Sys2Proof.Machine.execTagOp f s
  | .resolution t tag => Sys2Proof.Machine.execResolution t tag s
  | .pass t r => Sys2Proof.Machine.execPass t r s
  | .fork t r => Sys2Proof.Machine.execFork t r s
  | .switch t r => Sys2Proof.Machine.execSwitch t r s
  | .mergeOrdered t r => Sys2Proof.Machine.execMergeOrdered t r s
  | .mergeArrival t r => Sys2Proof.Machine.execMergeArrival t r s
  | .gate t r => Sys2Proof.Machine.execGate t r s
  | .loop t r => Sys2Proof.Machine.execLoop t r s
  | .rate t r => Sys2Proof.Machine.execRate t r s
  | .flush req t slot => Sys2Proof.Machine.execFlush req t slot s
  | .drainStart req f sec => Sys2Proof.Machine.execDrainStart req f sec s
  | .drainComplete f sec => Sys2Proof.Machine.execDrainComplete f sec s
  | .drainTimeout f sec => Sys2Proof.Machine.execDrainTimeout f sec s
  | .lightListWrite req t k value => Sys2Proof.Machine.execLightListWrite req t k value s
  | .epochArm req f watchLow => Sys2Proof.Machine.execEpochArm req f watchLow s
  | .hstDbReqTail port fn ring value => Sys2Proof.Machine.execHstDbReqTail port fn ring value s
  | .hstDbResHead port fn ring value => Sys2Proof.Machine.execHstDbResHead port fn ring value s
  | .ringFetch port fn ring entries => Sys2Proof.Machine.execRingFetch port fn ring entries s
  | .hostDmaFault port fn ring => Sys2Proof.Machine.execHostDmaFault port fn ring s
  | .resultPush port fn ring count => Sys2Proof.Machine.execResultPush port fn ring count s
  | .hstRingCfgWrite req port fn ring value => Sys2Proof.Machine.execHstRingCfgWrite req port fn ring value s
  | .functionLevelReset port fn => Sys2Proof.Machine.execFunctionLevelReset port fn s
  | .jalfenData link good seq ring entries => Sys2Proof.Machine.execJalfenData link good seq ring entries s
  | .jalfenCredit link good seq grant => Sys2Proof.Machine.execJalfenCredit link good seq grant s
  | .jalfenBeat link good seq => Sys2Proof.Machine.execJalfenBeat link good seq s
  | .jalfenNotice link good seq kind wafer job code => Sys2Proof.Machine.execJalfenNotice link good seq kind wafer job code s
  | .jalfenKeeper link good seq => Sys2Proof.Machine.execJalfenKeeper link good seq s
  | .jalfenIdleBeat link => Sys2Proof.Machine.execJalfenIdleBeat link s
  | .peerLost link => Sys2Proof.Machine.execPeerLost link s
  | .peerBreak req link => Sys2Proof.Machine.execPeerBreak req link s
  | .peerClear req link => Sys2Proof.Machine.execPeerClear req link s
  | .railTelemetryPoll readings => Sys2Proof.Machine.execRailTelemetryPoll readings s
  | .pmbAlert readings => Sys2Proof.Machine.execPmbAlert readings s
  | .rampStep bay => Sys2Proof.Machine.execRampStep bay s
  | .bayGateFault bay current => Sys2Proof.Machine.execBayGateFault bay current s
  | .gateRetry bay => Sys2Proof.Machine.execGateRetry bay s
  | .gateFaultCountClear bay => Sys2Proof.Machine.execGateFaultCountClear bay s
  | .droopStretch bay => Sys2Proof.Machine.execDroopStretch bay s
  | .droopSustained bay deep => Sys2Proof.Machine.execDroopSustained bay deep s
  | .thermalSample f temps => Sys2Proof.Machine.execThermalSample f temps s
  | .waferEnergy suspects => Sys2Proof.Machine.execWaferEnergy suspects s
  | .nvInhibit aux core => Sys2Proof.Machine.execNvInhibit aux core s
  | .nvInhibitRelease => Sys2Proof.Machine.execNvInhibitRelease s
  | .xaLoss => Sys2Proof.Machine.execXaLoss s
  | .holdoverSwitch => Sys2Proof.Machine.execHoldoverSwitch s
  | .clockHoldoverEnd => Sys2Proof.Machine.execClockHoldoverEnd s
  | .refclkLost => Sys2Proof.Machine.execRefclkLost s
  | .clockLoss sirc => Sys2Proof.Machine.execClockLoss sirc s
  | .pllUnlock pll => Sys2Proof.Machine.execPllUnlock pll s
  | .sourceGood source => Sys2Proof.Machine.execSourceGood source s
  | .fircTrim => Sys2Proof.Machine.execFircTrim s
  | .clkEnableWrite req index value => Sys2Proof.Machine.execClkEnableWrite req index value s
  | .clockStop index bit => Sys2Proof.Machine.execClockStop index bit s
  | .groupReset slot t g => Sys2Proof.Machine.execGroupReset slot t g s
  | .tileReset slot t => Sys2Proof.Machine.execTileReset slot t s
  | .bayReset slot bay => Sys2Proof.Machine.execBayReset slot bay s
  | .fieldReset slot f => Sys2Proof.Machine.execFieldReset slot f s
  | .rimPortReset slot target => Sys2Proof.Machine.execRimPortReset slot target s
  | .stationReset slot cause => Sys2Proof.Machine.execStationReset slot cause s
  | .coldReset powerOn => Sys2Proof.Machine.execColdReset powerOn s
  | .resetComplete domain target test => Sys2Proof.Machine.execResetComplete domain target test s
  | .resetTimeout domain target => Sys2Proof.Machine.execResetTimeout domain target s
  | .perstN port => Sys2Proof.Machine.execPerstN port s
  | .bootRom a b f27 => Sys2Proof.Machine.execBootRom a b f27 s
  | .firmwareRecovery copy => Sys2Proof.Machine.execFirmwareRecovery copy s
  | .startupClocks => Sys2Proof.Machine.execStartupClocks s
  | .startupStation copyA copyB lost unknown badRails xbMode period ports caps => Sys2Proof.Machine.execStartupStation copyA copyB lost unknown badRails xbMode period ports caps s
  | .startupLinks badRails => Sys2Proof.Machine.execStartupLinks badRails s
  | .pcieLinkUp port => Sys2Proof.Machine.execPcieLinkUp port s
  | .linkTrainFail kind port => Sys2Proof.Machine.execLinkTrainFail kind port s
  | .memoryActive port capacity => Sys2Proof.Machine.execMemoryActive port capacity s
  | .cxlMemoryTimeout port => Sys2Proof.Machine.execCxlMemoryTimeout port s
  | .fieldPowerUp f test => Sys2Proof.Machine.execFieldPowerUp f test s
  | .beaconStart skews => Sys2Proof.Machine.execBeaconStart skews s
  | .startupReady => Sys2Proof.Machine.execStartupReady s
  | .startupFail failedStep => Sys2Proof.Machine.execStartupFail failedStep s
  | .loadImage slot image => Sys2Proof.Machine.execLoadImage slot image s
  | .imageValidation => Sys2Proof.Machine.execImageValidation s
  | .bind slot => Sys2Proof.Machine.execBind slot s
  | .liveRecord kind source loc detail => Sys2Proof.Machine.execLiveRecord kind source loc detail s
  | .start slot list => Sys2Proof.Machine.execStart slot list s
  | .imageLoadComplete fault cycle => Sys2Proof.Machine.execImageLoadComplete fault cycle s
  | .patchApplyComplete fault => Sys2Proof.Machine.execPatchApplyComplete fault s
  | .restoreComplete fault => Sys2Proof.Machine.execRestoreComplete fault s
  | .stop slot => Sys2Proof.Machine.execStop slot s
  | .drainSector slot => Sys2Proof.Machine.execDrainSector slot s
  | .retireBay slot => Sys2Proof.Machine.execRetireBay slot s
  | .returnBay slot => Sys2Proof.Machine.execReturnBay slot s
  | .bayBist bay bad => Sys2Proof.Machine.execBayBist bay bad s
  | .setCap slot => Sys2Proof.Machine.execSetCap slot s
  | .setPeriod slot => Sys2Proof.Machine.execSetPeriod slot s
  | .queryFirmware slot => Sys2Proof.Machine.execQueryFirmware slot s
  | .queryTenant slot => Sys2Proof.Machine.execQueryTenant slot s
  | .queryResidency slot => Sys2Proof.Machine.execQueryResidency slot s
  | .registerTenant slot => Sys2Proof.Machine.execRegisterTenant slot s
  | .evictTenant slot => Sys2Proof.Machine.execEvictTenant slot s
  | .debugAuthChallenge slot => Sys2Proof.Machine.execDebugAuthChallenge slot s
  | .debugAuthResponse slot keyOk sigOk => Sys2Proof.Machine.execDebugAuthResponse slot keyOk sigOk s
  | .debugAuthEnd slot => Sys2Proof.Machine.execDebugAuthEnd slot s
  | .debugSessionExpiry port => Sys2Proof.Machine.execDebugSessionExpiry port s
  | .halt req t g => Sys2Proof.Machine.execHalt req t g s
  | .step req t g => Sys2Proof.Machine.execStep req t g s
  | .stepIssue t g => Sys2Proof.Machine.execStepIssue t g s
  | .resume req t g => Sys2Proof.Machine.execResume req t g s
  | .breakpoint t g => Sys2Proof.Machine.execBreakpoint t g s
  | .dbgRegWrite req f index value => Sys2Proof.Machine.execDbgRegWrite req f index value s
  | .eventRingWrite f => Sys2Proof.Machine.execEventRingWrite f s
  | .watchdogFeed port value => Sys2Proof.Machine.execWatchdogFeed port value s
  | .stnWdogAck req => Sys2Proof.Machine.execStnWdogAck req s
  | .stationWatchdog => Sys2Proof.Machine.execStationWatchdog s
  | .keeperFailover => Sys2Proof.Machine.execKeeperFailover s
  | .foghornAutoReset => Sys2Proof.Machine.execFoghornAutoReset s
  | .lockstepFault f => Sys2Proof.Machine.execLockstepFault f s
  | .keeperRestartComplete f => Sys2Proof.Machine.execKeeperRestartComplete f s
  | .waferEntryRewrite f entries => Sys2Proof.Machine.execWaferEntryRewrite f entries s
  | .fogHoldExpiry f => Sys2Proof.Machine.execFogHoldExpiry f s
  | .bcnPeriodWrite req value => Sys2Proof.Machine.execBcnPeriodWrite req value s
  | .bcnSettleLenWrite req value => Sys2Proof.Machine.execBcnSettleLenWrite req value s
  | .tileWindowWrite req t off value => Sys2Proof.Machine.execTileWindowWrite req t off value s
  | .fstWinDataWrite req f value => Sys2Proof.Machine.execFstWinDataWrite req f value s
  | .registerWrite req access value => Sys2Proof.Machine.execRegisterWrite req access value s
  | .keeperRestartTimeout f => Sys2Proof.Machine.execKeeperRestartTimeout f s
  | .linkTrained kind port => Sys2Proof.Machine.execLinkTrained kind port s
  | .cxlIoConfigurationTimeout port => Sys2Proof.Machine.execCxlIoConfigurationTimeout port s
  | .smbusClockLowTimeout bus => Sys2Proof.Machine.execSmbusClockLowTimeout bus s
  | .badOpcode slot => Sys2Proof.Machine.execBadOpcode slot s
  | .registerRead req access => Sys2Proof.Machine.execRegisterRead req access s
  | .clockLossEachMinute => Sys2Proof.Machine.execClockLossEachMinute s

end Sys2Proof.Machine
end

