-- ==== Sys2Proof/Machine/Step.lean ====
section
/-! DEFINITION. One step of the block: the command at the front of the queue, or, where none waits, one tick of the
timebase (assumption 2). -/

namespace Sys2Proof.Machine

/-- One step: the first waiting command acts on the state whose queue is the rest; with none waiting the timebase of R80
counts one nanosecond. -/
def step (s : State) : Host.Outcome State Fault Refusal :=
  match s.pending with
  | [] => .next (s.advanceTo (s.now + 1))
  | c :: rest => exec c { s with pending := rest }

/-- The state with the command that a word spells put in front of its queue; the same state where the word spells none. -/
def State.withFetchWord (s : State) (nbits w : Nat) : State :=
  match Sys2Proof.decodeTableWord nbits w with
  | none => s
  | some c => { s with pending := c :: s.pending }

end Sys2Proof.Machine
end

