-- ==== Sys2Proof/WellFormed.lean ====
section
/-! DEFINITION. Which commands are well formed: every number in a command names a unit that the wafer has (R20, R21, R8,
R31, R776, R782, R784, R804) and every word fits its width. A command that is not well formed spells no event that can happen;
the machine stops it by name or leaves the state as it is. -/

namespace Sys2Proof

/-- A requester that exists (R8, R836): four ports of 64 functions, 64 Field Keepers and the Station Keeper, the groups of
the 589,824 tiles. -/
def wfReq : Requester → Bool
  | .host p fn => decide (p < 4) && decide (fn < 64)
  | .keeper n => decide (n < 65)
  | .tile t g => decide (t < 589824) && decide (g < 8)
  | .jtag => true
  | .block => true

/-- An optional unit number below `n`. -/
def wfOpt (n : Nat) : Option Nat → Bool
  | none => true
  | some k => decide (k < n)

/-- A defect-map record that R32 to R34 admit: KIND and SOURCE not reserved, LOC a tile, bay or lens as KIND says, the unused
bits of DETAIL 0. -/
def wfRecord (kind source loc detail : Nat) : Bool :=
  decide (source < 6) && match kind with
    | 1 => decide (loc < 589824) && decide (detail = 0)
    | 2 => decide (loc < 589824) && decide (detail < 4)
    | 3 => decide (loc < 2304) && decide (detail = 0)
    | 4 | 5 => decide (loc < 256) && decide (detail % 1024 < 528) && decide (detail < 16384)
    | 6 => decide (loc < 256) && decide (detail < 1024)
    | _ => false

/-- Whether a command is well formed: fields 0–63, sectors and bays below 2,304, physical tiles below 589,824, groups 0–7,
lenses 0–3 of a field, buoy blocks 0–63 and the station's 64 with 1,024 and 256 buoys, mailbox slots 0–64, rings 0–255,
ports and links as many as there are, register words of 32 bits, defect records
as R32 lays them out. -/
def Instr.wf : Instr → Bool
  | .stationBeacon => true
  | .fieldWatchBegin f _ => decide (f < 64)
  | .beaconMissed f => decide (f < 64)
  | .workBegin f => decide (f < 64)
  | .settleBegin f => decide (f < 64)
  | .verdictVote to_ from_ sector _ => decide (to_ < 64) && decide (from_ < 64) && decide (sector < 2304)
  | .specSweep f sector => decide (f < 64) && decide (sector < 2304)
  | .commitPoint f => decide (f < 64)
  | .journalApply f => decide (f < 64)
  | .handoverBegin f _ _ _ => decide (f < 64)
  | .restIntervalBegin f _ => decide (f < 64)
  | .planningRound _ => true
  | .nop t g => decide (t < 589824) && decide (g < 8)
  | .end_ t g => decide (t < 589824) && decide (g < 8)
  | .endOfWork t g => decide (t < 589824) && decide (g < 8)
  | .bra t g => decide (t < 589824) && decide (g < 8)
  | .bany t g => decide (t < 589824) && decide (g < 8)
  | .bnone t g => decide (t < 589824) && decide (g < 8)
  | .pushif t g => decide (t < 589824) && decide (g < 8)
  | .else_ t g => decide (t < 589824) && decide (g < 8)
  | .pop t g => decide (t < 589824) && decide (g < 8)
  | .mask t g => decide (t < 589824) && decide (g < 8)
  | .badd t g => decide (t < 589824) && decide (g < 8)
  | .barrive t g => decide (t < 589824) && decide (g < 8)
  | .bset t g => decide (t < 589824) && decide (g < 8)
  | .bclear t g => decide (t < 589824) && decide (g < 8)
  | .bawaitge t g => decide (t < 589824) && decide (g < 8)
  | .bawaitflag t g => decide (t < 589824) && decide (g < 8)
  | .watchRelease t g => decide (t < 589824) && decide (g < 8)
  | .add t g => decide (t < 589824) && decide (g < 8)
  | .sub t g => decide (t < 589824) && decide (g < 8)
  | .mul t g => decide (t < 589824) && decide (g < 8)
  | .and t g => decide (t < 589824) && decide (g < 8)
  | .or t g => decide (t < 589824) && decide (g < 8)
  | .xor t g => decide (t < 589824) && decide (g < 8)
  | .shl t g => decide (t < 589824) && decide (g < 8)
  | .shr t g => decide (t < 589824) && decide (g < 8)
  | .sar t g => decide (t < 589824) && decide (g < 8)
  | .min t g => decide (t < 589824) && decide (g < 8)
  | .max t g => decide (t < 589824) && decide (g < 8)
  | .minu t g => decide (t < 589824) && decide (g < 8)
  | .maxu t g => decide (t < 589824) && decide (g < 8)
  | .shfl t g => decide (t < 589824) && decide (g < 8)
  | .mov t g => decide (t < 589824) && decide (g < 8)
  | .movi t g => decide (t < 589824) && decide (g < 8)
  | .movhi t g => decide (t < 589824) && decide (g < 8)
  | .addi t g => decide (t < 589824) && decide (g < 8)
  | .fadd t g => decide (t < 589824) && decide (g < 8)
  | .fsub t g => decide (t < 589824) && decide (g < 8)
  | .fmul t g => decide (t < 589824) && decide (g < 8)
  | .fma t g => decide (t < 589824) && decide (g < 8)
  | .fmin t g => decide (t < 589824) && decide (g < 8)
  | .fmax t g => decide (t < 589824) && decide (g < 8)
  | .dot t g => decide (t < 589824) && decide (g < 8)
  | .cmp t g => decide (t < 589824) && decide (g < 8)
  | .plog t g => decide (t < 589824) && decide (g < 8)
  | .pfromu t g => decide (t < 589824) && decide (g < 8)
  | .ufromp t g => decide (t < 589824) && decide (g < 8)
  | .cvt t g => decide (t < 589824) && decide (g < 8)
  | .sfu t g => decide (t < 589824) && decide (g < 8)
  | .specBegin t g => decide (t < 589824) && decide (g < 8)
  | .specEnd t g => decide (t < 589824) && decide (g < 8)
  | .specConfirm t g => decide (t < 589824) && decide (g < 8)
  | .specSquash t g => decide (t < 589824) && decide (g < 8)
  | .ld t g => decide (t < 589824) && decide (g < 8)
  | .st t g => decide (t < 589824) && decide (g < 8)
  | .rld t g => decide (t < 589824) && decide (g < 8)
  | .rldu t g => decide (t < 589824) && decide (g < 8)
  | .rst t g => decide (t < 589824) && decide (g < 8)
  | .sendw t g => decide (t < 589824) && decide (g < 8)
  | .sendv t g => decide (t < 589824) && decide (g < 8)
  | .sendm t g => decide (t < 589824) && decide (g < 8)
  | .releasePoint t _ => decide (t < 589824)
  | .watchdog t g => decide (t < 589824) && decide (g < 8)
  | .packetHop _ _ => true
  | .item _ _ => true
  | .landingCompletion t slot => decide (t < 589824) && decide (slot < 16)
  | .rload _ => true
  | .rstore _ => true
  | .servicePortAccess t => decide (t < 589824)
  | .rdata _ => true
  | .rfail _ => true
  | .rpoison _ => true
  | .kaccess req t a _ => wfReq req && decide (t < 2^20) && decide (a.addr < 0x10000) && decide (a.size ≤ 64)
  | .kresp _ => true
  | .credit _ => true
  | .ack _ => true
  | .nack _ => true
  | .kreg n _ _ => decide (n < 65)
  | .kregResp _ => true
  | .buoyOp _ => true
  | .buoyApply block => decide (block < 65)
  | .buoyNotice _ => true
  | .buoyAck _ => true
  | .buoyTrunkPacket => true
  | .buoyUnreachable block => decide (block < 64)
  | .buyKopAdd req block index => wfReq req && decide (block < 65) && decide (index < (if block = 64 then 256 else 1024))
  | .buyKopSet req block index => wfReq req && decide (block < 65) && decide (index < (if block = 64 then 256 else 1024))
  | .buyKopClear req block index => wfReq req && decide (block < 65) && decide (index < (if block = 64 then 256 else 1024))
  | .controlSpaceRead _ => true
  | .lensLaunch _ => true
  | .lensPassAccept f lens => decide (f < 64) && decide (lens < 4)
  | .lensLoadComplete f lens _ _ _ => decide (f < 64) && decide (lens < 4)
  | .lensPassExec f lens => decide (f < 64) && decide (lens < 4)
  | .lensPassComplete f lens _ _ _ _ => decide (f < 64) && decide (lens < 4)
  | .lensPreload f lens k => decide (f < 64) && decide (lens < 4) && decide (k < 16)
  | .lensStretch f lens => decide (f < 64) && decide (lens < 4)
  | .mvLaunch _ => true
  | .mvOperationBegin f => decide (f < 64)
  | .mvOperationComplete f _ _ _ => decide (f < 64)
  | .fieldStoreRequest _ => true
  | .fieldStoreBankAccess f bank _ => decide (f < 64) && decide (bank < 32)
  | .fstScrub f bank line _ => decide (f < 64) && decide (bank < 32) && decide (line < 16384)
  | .stageLaneInject _ lane => decide (lane < 64)
  | .stage _ => true
  | .stageNotify f _ => decide (f < 64)
  | .cxlReadComplete _ _ _ _ _ => true
  | .cxlMemTimeout port _ => decide (port < 16)
  | .cxlWriteComplete port => decide (port < 16)
  | .tagOp f => decide (f < 64)
  | .resolution t tag => decide (t < 589824) && decide (tag < 16)
  | .pass t r => decide (t < 589824) && decide (r < 4)
  | .fork t r => decide (t < 589824) && decide (r < 4)
  | .switch t r => decide (t < 589824) && decide (r < 4)
  | .mergeOrdered t r => decide (t < 589824) && decide (r < 4)
  | .mergeArrival t r => decide (t < 589824) && decide (r < 4)
  | .gate t r => decide (t < 589824) && decide (r < 4)
  | .loop t r => decide (t < 589824) && decide (r < 4)
  | .rate t r => decide (t < 589824) && decide (r < 4)
  | .flush req t slot => wfReq req && decide (t < 589824) && decide (slot < 32)
  | .drainStart req f sec => wfReq req && decide (f < 64) && decide (sec < 2304)
  | .drainComplete f sec => decide (f < 64) && decide (sec < 2304)
  | .drainTimeout f sec => decide (f < 64) && decide (sec < 2304)
  | .lightListWrite req t k _ => wfReq req && decide (t < 589824) && decide (k < 64)
  | .epochArm req f watchLow => wfReq req && decide (f < 64) && decide (watchLow < 65536)
  | .hstDbReqTail port fn ring value => decide (port < 4) && decide (fn < 64) && decide (ring < 256) && decide (value < 2 ^ 32)
  | .hstDbResHead port fn ring value => decide (port < 4) && decide (fn < 64) && decide (ring < 256) && decide (value < 2 ^ 32)
  | .ringFetch port fn ring _ => decide (port < 4) && decide (fn < 64) && decide (ring < 256)
  | .hostDmaFault port fn ring => decide (port < 4) && decide (fn < 64) && decide (ring < 256)
  | .resultPush port fn ring _ => decide (port < 4) && decide (fn < 64) && decide (ring < 256)
  | .hstRingCfgWrite req port fn ring value => wfReq req && decide (port < 4) && decide (fn < 64) && decide (ring < 256) && decide (value < 2 ^ 32)
  | .functionLevelReset port fn => decide (port < 4) && decide (fn < 64)
  | .jalfenData link _ _ ring _ => decide (link < 8) && decide (ring < 256)
  | .jalfenCredit link _ _ _ => decide (link < 8)
  | .jalfenBeat link _ _ => decide (link < 8)
  | .jalfenNotice link _ _ kind wafer _ _ => decide (link < 8) && decide (kind < 256) && decide (wafer < 256)
  | .jalfenKeeper link _ _ => decide (link < 8)
  | .jalfenIdleBeat link => decide (link < 8)
  | .peerLost link => decide (link < 8)
  | .peerBreak req link => wfReq req && decide (link < 8)
  | .peerClear req link => wfReq req && decide (link < 8)
  | .railTelemetryPoll _ => true
  | .pmbAlert _ => true
  | .rampStep bay => decide (bay < 2304)
  | .bayGateFault bay _ => decide (bay < 2304)
  | .gateRetry bay => decide (bay < 2304)
  | .gateFaultCountClear bay => decide (bay < 2304)
  | .droopStretch bay => decide (bay < 2304)
  | .droopSustained bay _ => decide (bay < 2304)
  | .thermalSample f _ => decide (f < 64)
  | .waferEnergy _ => true
  | .nvInhibit _ _ => true
  | .nvInhibitRelease => true
  | .xaLoss => true
  | .holdoverSwitch => true
  | .clockHoldoverEnd => true
  | .refclkLost => true
  | .clockLoss _ => true
  | .pllUnlock pll => decide (pll < 133)
  | .sourceGood source => decide (source < 137)
  | .fircTrim => true
  | .clkEnableWrite req index value => wfReq req && decide (index < 67) && decide (value < 2 ^ 32)
  | .clockStop index bit => decide (index < 67) && decide (bit < 32)
  | .groupReset slot t g => wfOpt 65 slot && decide (t < 589824) && decide (g < 8)
  | .tileReset slot t => wfOpt 65 slot && decide (t < 589824)
  | .bayReset slot bay => wfOpt 65 slot && decide (bay < 2304)
  | .fieldReset slot f => wfOpt 65 slot && decide (f < 64)
  | .rimPortReset slot target => wfOpt 65 slot && decide (target < 28)
  | .stationReset slot cause => wfOpt 65 slot && decide (cause < 16)
  | .coldReset _ => true
  | .resetComplete domain _ _ => decide (domain < 6)
  | .resetTimeout domain _ => decide (domain < 6)
  | .perstN port => decide (port < 4)
  | .bootRom _ _ _ => true
  | .firmwareRecovery _ => true
  | .startupClocks => true
  | .startupStation _ _ _ _ _ _ _ _ _ => true
  | .startupLinks _ => true
  | .pcieLinkUp port => decide (port < 4)
  | .linkTrainFail kind port => decide (kind < 3) && decide (port < (if kind = 0 then 4 else if kind = 1 then 16 else 8))
  | .memoryActive port _ => decide (port < 16)
  | .cxlMemoryTimeout port => decide (port < 16)
  | .fieldPowerUp f _ => decide (f < 64)
  | .beaconStart _ => true
  | .startupReady => true
  | .startupFail failedStep => decide (failedStep < 16)
  | .loadImage slot _ => decide (slot < 65)
  | .imageValidation => true
  | .bind slot => decide (slot < 65)
  | .liveRecord kind source loc detail => wfRecord kind source loc detail
  | .start slot _ => decide (slot < 65)
  | .imageLoadComplete _ _ => true
  | .patchApplyComplete _ => true
  | .restoreComplete _ => true
  | .stop slot => decide (slot < 65)
  | .drainSector slot => decide (slot < 65)
  | .retireBay slot => decide (slot < 65)
  | .returnBay slot => decide (slot < 65)
  | .bayBist bay _ => decide (bay < 2304)
  | .setCap slot => decide (slot < 65)
  | .setPeriod slot => decide (slot < 65)
  | .queryFirmware slot => decide (slot < 65)
  | .queryTenant slot => decide (slot < 65)
  | .queryResidency slot => decide (slot < 65)
  | .registerTenant slot => decide (slot < 65)
  | .evictTenant slot => decide (slot < 65)
  | .debugAuthChallenge slot => decide (slot < 65)
  | .debugAuthResponse slot _ _ => decide (slot < 65)
  | .debugAuthEnd slot => decide (slot < 65)
  | .debugSessionExpiry port => decide (port < 5)
  | .halt req t g => wfReq req && decide (t < 589824) && decide (g < 8)
  | .step req t g => wfReq req && decide (t < 589824) && decide (g < 8)
  | .stepIssue t g => decide (t < 589824) && decide (g < 8)
  | .resume req t g => wfReq req && decide (t < 589824) && decide (g < 8)
  | .breakpoint t g => decide (t < 589824) && decide (g < 8)
  | .dbgRegWrite req f index _ => wfReq req && decide (f < 64) && decide (index < 276)
  | .eventRingWrite f => decide (f < 64)
  | .watchdogFeed port value => decide (port < 4) && decide (value < 2 ^ 32)
  | .stnWdogAck req => wfReq req
  | .stationWatchdog => true
  | .keeperFailover => true
  | .foghornAutoReset => true
  | .lockstepFault f => decide (f < 64)
  | .keeperRestartComplete f => decide (f < 64)
  | .waferEntryRewrite f _ => decide (f < 64)
  | .fogHoldExpiry f => decide (f < 64)
  | .bcnPeriodWrite req value => wfReq req && decide (value < 2 ^ 32)
  | .bcnSettleLenWrite req value => wfReq req && decide (value < 2 ^ 32)
  | .tileWindowWrite req t off _ => wfReq req && decide (t < 589824) && decide (off < 0xA000)
  | .fstWinDataWrite req f _ => wfReq req && decide (f < 64)
  | .registerWrite req a _ => wfReq req && decide (a.size ≤ 64)
  | .keeperRestartTimeout f => decide (f < 64)
  | .linkTrained kind port => decide (port < (if kind = 1 then 16 else 8)) && decide ((kind = 1 ∨ kind = 2))
  | .cxlIoConfigurationTimeout port => decide (port < 16)
  | .smbusClockLowTimeout bus => decide (bus < 2)
  | .badOpcode slot => decide (slot < 65)
  | .registerRead req a => wfReq req && decide (a.size ≤ 64)
  | .clockLossEachMinute => true

end Sys2Proof
end

