-- ==== Sys2Proof/Safety.lean ====
section
/-! DEFINITION. What counts as a safe run, in the terms the claims use. -/

namespace Sys2Proof.Machine

/-- The two byte memories, tile SRAM and field store, are in canonical form. -/
def State.memoryOk (s : State) : Bool := memWf s.sram && memWf s.fst

/-- Every waiting command names units that exist. -/
def State.pendingOk (s : State) : Bool := s.pending.all Instr.wf

/-- A step goes on: it neither faults nor refuses. -/
def Goes (s : State) : Prop := ∃ t, step s = .next t

/-- `k` steps from `s` all go on, and end in `t`. -/
inductive Runs : Nat → State → State → Prop where
  | done (s : State) : Runs 0 s s
  | more {k : Nat} {s t u : State} : step s = .next t → Runs k t u → Runs (k + 1) s u

end Sys2Proof.Machine
end

