-- ==== Sys2Proof/Certificates/Slice0/Obligations.lean ====
section
/-! DEFINITION. The statements for the provers. Each formalises what the numbered rules of spec/ say a command does; where a
hypothesis tells when the command's event occurs, it is a condition on the state and the operands alone. -/

namespace Sys2Proof.Claims

open Sys2Proof.Machine

/-- The command runs on the state and leaves one with the property. -/
def Gives (c : Instr) (s : State) (P : State → Prop) : Prop := ∃ s', exec c s = .next s' ∧ P s'

/-- Group `g` of tile `t` issues instruction `i` in cycle `c`, an executed one (R140): the scan of R142 has come to it, nothing stands
in its way (R141, R249), the cycle lies before SETTLE, and no breakpoint is set on it (R876). -/
structure Issues (s : State) (t g c : Nat) (i : TInst) : Prop where
  tile : t < 589824
  group : g < 8
  turn : s.scan t = some g
  next : s.nextOf t g = .go c i
  inWork : c < settleStart (s.fld (fieldOf t))
  executed : c ∉ (s.til t).stretches
  noBreak : s.breakAt t g = none

/-- One event more stands in the station ring, of the code named (R887). -/
def Logged (s s' : State) (ev : Ev) : Prop :=
  (s'.ring 64).head = ((s.ring 64).head + 1) % 2 ^ 32 ∧
    ∃ e, mfind (s'.ring 64).slots ((s.ring 64).head % 2048) = some e ∧ e.code = evCode ev

/-- The registers that an issuing instruction may count in or mark (R177, R185, R273, R296, R292, R549, R551, R575). -/
def issueCounts : List Reg :=
  [.tilCountIdle, .tilCountIssue, .tilCountTagStall, .tilCountCacheHit, .tilCountCacheMiss, .tilCountReleaseLate,
   .chnCountStallCredit, .chnCountStallRecv, .chnSlotStatus, .sptCountDead, .sptCountShadowStall, .sptCountConflict,
   .sptStatus, .tilCountEccCorr]

/-- What no issuing instruction touches: other groups, the fields, the memories of the fields, buoys, steering rules, lenses,
MV engines, the journal, the sectors, the home tag states, time, and every register but the counts above. -/
structure TileFrame (s s' : State) (t g : Nat) : Prop where
  groups : ∀ a b, (a, b) ≠ (t, g) → s'.grp a b = s.grp a b
  regs : ∀ r u k, r ∉ issueCounts → s'.rd r u k = s.rd r u k
  fst : s'.fst = s.fst ∧ s'.fstBad = s.fstBad
  fields : s'.fields = s.fields
  buoys : s'.buoys = s.buoys ∧ s'.buoyBlocks = s.buoyBlocks
  engines : s'.lenses = s.lenses ∧ s'.mvs = s.mvs ∧ s'.rules = s.rules
  others : s'.journal = s.journal ∧ s'.sectors = s.sectors ∧ s'.sectorTags = s.sectorTags ∧ s'.now = s.now ∧
    s'.pending = s.pending ∧ s'.fuses = s.fuses

/-- An instruction has written destination code `d` of group `x.g` with `val`, readable from cycle `at_`, or later where it has left
lanes that another instruction writes later: per active lane for a
lane register, the lowest active lane's value for a uniform one (R197, R201); nothing else of the group's registers, masks and
stacks changes, the program counter moves on by 4, no memory is written. -/
structure Wrote (s s' : State) (x : Ctx) (d at_ : Nat) (val : Nat → Word) : Prop where
  lanes : ∀ r k, (s'.grp x.t x.g).lane r k = if d < 0x20 ∧ r = d ∧ k ∈ x.lanes then val k else x.grp.lane r k
  uniform : ∀ r, (s'.grp x.t x.g).uni r =
    if 0x20 ≤ d ∧ r = d - 0x20 ∧ x.lanes ≠ [] then val x.lane0 else x.grp.uni r
  ready : x.lanes ≠ [] → (s'.grp x.t x.g).readyAt d =
    if x.lanes.length = 8 ∨ 0x20 ≤ d then at_ else max (x.grp.readyAt d) at_
  preds : ∀ r, (s'.grp x.t x.g).pred r = x.grp.pred r
  pc : (s'.grp x.t x.g).pc = (x.grp.pc + 4) % 65536
  control : (s'.grp x.t x.g).amask = x.grp.amask ∧ (s'.grp x.t x.g).stack = x.grp.stack ∧
    (s'.grp x.t x.g).nest = x.grp.nest ∧ (s'.grp x.t x.g).st = x.grp.st
  sram : s'.sram = s.sram ∧ s'.sramBad = s.sramBad
  frame : TileFrame s s' x.t x.g

/-- An instruction has written bit `k` of predicate `pd` with `val k` in each active lane `k` (R212, R213), and nothing else. -/
structure WrotePred (s s' : State) (x : Ctx) (pd : Nat) (val : Nat → Bool) : Prop where
  bits : ∀ k, k < 8 → ((s'.grp x.t x.g).pred pd).getLsbD k = if k ∈ x.lanes then val k else (x.grp.pred pd).getLsbD k
  preds : ∀ r, r ≠ pd → (s'.grp x.t x.g).pred r = x.grp.pred r
  lanes : ∀ r k, (s'.grp x.t x.g).lane r k = x.grp.lane r k
  uniform : ∀ r, (s'.grp x.t x.g).uni r = x.grp.uni r
  pc : (s'.grp x.t x.g).pc = (x.grp.pc + 4) % 65536
  control : (s'.grp x.t x.g).amask = x.grp.amask ∧ (s'.grp x.t x.g).stack = x.grp.stack ∧
    (s'.grp x.t x.g).nest = x.grp.nest ∧ (s'.grp x.t x.g).st = x.grp.st
  sram : s'.sram = s.sram ∧ s'.sramBad = s.sramBad
  frame : TileFrame s s' x.t x.g

/-- A control instruction has left the group with program counter `pc`, active mask `m` and a stack whose masks are `st`; its
registers, its nest and all memory are as they were (R206). -/
structure Steered (s s' : State) (t g pc : Nat) (m : BitVec 8) (st : List (BitVec 8 × BitVec 8)) : Prop where
  pc : (s'.grp t g).pc = pc
  amask : (s'.grp t g).amask = m
  stack : (s'.grp t g).stack.map (fun e => (e.m, e.e)) = st
  regs : (s'.grp t g).v = (s.grp t g).v ∧ (s'.grp t g).u = (s.grp t g).u ∧ (s'.grp t g).p = (s.grp t g).p
  rest : (s'.grp t g).nest = (s.grp t g).nest ∧ (s'.grp t g).st = (s.grp t g).st
  sram : s'.sram = s.sram ∧ s'.sramBad = s.sramBad
  frame : TileFrame s s' t g

/-- The integer instructions of format R, each with its opcode and what it computes of A and B (R208). -/
def intOps (t g : Nat) : List (Instr × ROp × (Word → Word → Word)) :=
  [(.add t g, .add, fun a b => BitVec.ofInt 32 (a.toInt + b.toInt)),
   (.sub t g, .sub, fun a b => BitVec.ofInt 32 (a.toInt - b.toInt)),
   (.mul t g, .mul, fun a b => BitVec.ofInt 32 (a.toInt * b.toInt)),
   (.and t g, .and, fun a b => a &&& b), (.or t g, .or, fun a b => a ||| b), (.xor t g, .xor, fun a b => a ^^^ b),
   (.shl t g, .shl, fun a b => BitVec.ofNat 32 (a.toNat * 2 ^ (b.toNat % 32))),
   (.shr t g, .shr, fun a b => BitVec.ofNat 32 (a.toNat / 2 ^ (b.toNat % 32))),
   (.sar t g, .sar, fun a b => BitVec.ofInt 32 (a.toInt / (2 ^ (b.toNat % 32) : Nat))),
   (.min t g, .min, fun a b => if a.toInt ≤ b.toInt then a else b),
   (.max t g, .max, fun a b => if b.toInt ≤ a.toInt then a else b),
   (.minu t g, .minu, fun a b => if a.toNat ≤ b.toNat then a else b),
   (.maxu t g, .maxu, fun a b => if b.toNat ≤ a.toNat then a else b)]

/-- The float instructions on A, B and D, each with its opcode and its operation on decoded values (R210, R476, R479). -/
def floatOps (t g : Nat) : List (Instr × ROp × (FVal → FVal → FVal → FVal)) :=
  [(.fadd t g, .fadd, fun a b _ => fadd a b), (.fsub t g, .fsub, fun a b _ => fadd a (fneg b)),
   (.fmul t g, .fmul, fun a b _ => fmul a b), (.fma t g, .fma, fun a b d => fadd (fmul a b) d),
   (.fmin t g, .fmin, fun a b _ => fmin a b), (.fmax t g, .fmax, fun a b _ => fmax a b)]

/-- The commands that issue an instruction of a tile's group. -/
def issueCommands (t g : Nat) : List Instr :=
  [.nop t g, .end_ t g, .bra t g, .bany t g, .bnone t g, .pushif t g, .else_ t g, .pop t g, .mask t g, .badd t g, .barrive t g,
   .bset t g, .bclear t g, .bawaitge t g, .bawaitflag t g, .add t g, .sub t g, .mul t g, .and t g, .or t g, .xor t g,
   .shl t g, .shr t g, .sar t g, .min t g, .max t g, .minu t g, .maxu t g, .shfl t g, .mov t g, .movi t g, .movhi t g,
   .addi t g, .fadd t g, .fsub t g, .fmul t g, .fma t g, .fmin t g, .fmax t g, .dot t g, .cmp t g, .plog t g, .pfromu t g,
   .ufromp t g, .cvt t g, .sfu t g, .specBegin t g, .specEnd t g, .specConfirm t g, .specSquash t g, .ld t g, .st t g,
   .rld t g, .rldu t g, .rst t g, .sendw t g, .sendv t g, .sendm t g]

/-- The words of SRAM that an ST of the active lanes stores: the offset of each (R216). -/
def storeOffset (x : Ctx) (a : BitVec 6) (woff : BitVec 10) (k : Nat) : Nat :=
  (x.operand a k).toNat + 4 * woff.toNat

end Sys2Proof.Claims

open Sys2Proof Sys2Proof.Machine Sys2Proof.Claims

/-! ### The block -/

/-- A step with a command at the front of the queue is that command's effect on the state with the queue's rest. The
queue is the model's form of the block's input (log 1). -/
def Obligations.StepRunsCommand : Prop :=
  ∀ (s : State) (c : Instr) (rest : List Instr), s.pending = c :: rest → step s = exec c { s with pending := rest }

/-- On an empty queue the timebase counts one tick of 1 ns and nothing else changes (R80; the tick on an empty queue is the
model's choice, log 2). -/
def Obligations.EmptyQueueTicks : Prop :=
  ∀ s : State, s.pending = [] → ∃ s', step s = .next s' ∧ s' = { s with now := s.now + 1 }

/-- No command changes the queue behind it, turns time back, or changes a fuse, and the numbers of the packets under way stay below
that of the next. The queue, the running clock, the fuses as data and the numbers of packets are the model's choices (log 1, 2, 10,
87). -/
def Obligations.CommandsKeepQueueTimeAndFuses : Prop :=
  ∀ (c : Instr) (s s' : State), exec c s = .next s' →
    s'.pending = s.pending ∧ s.now ≤ s'.now ∧ s'.fuses = s.fuses ∧
      ((∀ p ∈ s.packets, p.id < s.nextPkt) → ∀ p ∈ s'.packets, p.id < s'.nextPkt)

/-- A well-formed command always goes on: it never faults and is never refused. That a command whose event cannot
occur leaves the state as it is, is the model's choice (log 1). -/
def Obligations.WellFormedCommandsGoOn : Prop :=
  ∀ (c : Instr) (s : State), c.wf = true → ∃ s', exec c s = .next s'

/-- A tile instruction's command that names a tile or a group the wafer does not have stops with noSuchUnit (R20,
R21). The stop is the model's choice (log 1). -/
def Obligations.NoSuchTileFaults : Prop :=
  ∀ (s : State) (t g : Nat), (589824 ≤ t ∨ 8 ≤ g) → ∀ c ∈ issueCommands t g, exec c s = .fault .noSuchUnit

/-- Every step keeps tile SRAM and field store in canonical form. The canonical form, and that an unlisted byte reads
0, are the model's choices (log 9). -/
def Obligations.MemoryStaysCanonical : Prop :=
  ∀ s s' : State, s.memoryOk = true → step s = .next s' → s'.memoryOk = true

/-- The memories at reset are canonical and list nothing, and no command waits. What reset leaves in registers whose
tables give a reset value: the period is 50,000 ticks, the SETTLE length 1,024 cycles, watch 0; every bay is DARK, the
cap 18,000 W; no image is loaded, start-up stands at its first step, every field is not fogged; a tile's identity
register names the tile. That bytes read 0 before anything is written is the model's choice (log 9). -/
def Obligations.ResetState : Prop :=
  (State.reset.memoryOk = true ∧ State.reset.sram = [] ∧ State.reset.fst = [] ∧ State.reset.pending = [] ∧
     ∀ t off, State.reset.sramByte t off = 0) ∧
  (State.reset.gf F.bcnPeriod_period = 50000 ∧ State.reset.gf F.bcnSettleLen_len = 1024 ∧ State.reset.gf F.bcnWatch_watch = 0 ∧
     (∀ f k, State.reset.gf F.pwrBayState_state f k = 0) ∧ State.reset.gf F.pwrCap_cap = 18000 ∧
     State.reset.gf F.stnImageLoaded_state = 0 ∧ (∀ f, (State.reset.fld f).fogged = false) ∧
     (∀ t, t < 589824 → State.reset.gf F.tilId_tile t = t) ∧
     (∀ t k, State.reset.gf F.mshTileSector_sector t = 0xFFF ∧ State.reset.gf F.stnDebugSession_active 0 k = 0))

/-! ### Tile instructions -/

/-- Decoding the word of a legal instruction gives the instruction back, every field at every value (R186 to R192). -/
def Obligations.TileWordRoundTrip : Prop := ∀ i : TInst, legal i = true → decodeTile (encodeTile i) = some i

/-- Every word that decodes is the word of the legal instruction it decodes to: no bit of a word is dropped, and no two words
hold one instruction (R186 to R192). -/
def Obligations.TileDecodeIsEncode : Prop :=
  ∀ (w : Word) (i : TInst), decodeTile w = some i → legal i = true ∧ encodeTile i = w

/-- A group that runs in WORK, whose sector neither drains nor is quiesced, on a tile that is not dark (R31) and has stored nothing to
its shared region of late (R172), whose word at the program counter is intact and decodes to a MOVI, ADDI or integer
instruction on registers alone, all readable and awaited by no load, has that instruction next, in the first cycle in
which the tile is free and its registers readable (R141), or the one after where that is stretched (R144). That commands name the instruction which the word decides is
the model's reading (log 3). -/
def Obligations.ReadyInstructionIsNext : Prop :=
  ∀ (s : State) (t g : Nat) (i : TInst),
    (s.grp t g).st = .running → (s.grp t g).ended = false → (s.fld (fieldOf t)).phase = .work →
    s.isDraining (fieldOf t) (s.sectorOf t) = false → s.isQuiesced (fieldOf t) (s.sectorOf t) = false →
    s.tileDark t = false → (s.grp t g).pc < s.sharedBytes t → (s.grp t g).pc % 4 = 0 → (s.til t).codeWrites = [] →
    (s.sramWord t (s.grp t g).pc).bad = false → decodeTile (s.sramWord t (s.grp t g).pc).w = some i → portsOf i = [] →
    ((∃ op gp gn d v, i = .imm op gp gn d v) ∨ (∃ e ∈ intOps t g, ∃ gp gn d a b fmt, i = .reg e.2.1 gp gn d a b fmt)) →
    (∀ r ∈ s.sourcesOf t i, (s.grp t g).readyAt r ≤ max (max (s.til t).cyc (s.cycle (fieldOf t))) 512 ∧
      ∀ e ∈ (s.grp t g).loading, e.1 ≠ r) →
    s.nextOf t g = .go (skipStretch (s.til t).stretches (max (max (s.til t).cyc (s.cycle (fieldOf t))) 512)) i

/-- ADD, SUB, MUL, AND, OR, XOR, SHL, SHR, SAR, MIN, MAX, MINU, MAXU write their result of A and B, readable one executed
cycle after issue, and nothing else (R208, R143). MOV writes A, SHFL lane B[2:0] of A, MOVI its sign-extended immediate,
MOVHI the immediate above D's low half, ADDI D plus the immediate; each is readable one executed cycle after issue, and
nothing else changes (R208, R209, R143). -/
def Obligations.IntegerAndMoveResults : Prop :=
  (∀ (s : State) (t g c : Nat) (gp : BitVec 3) (gn : Bool) (d a b : BitVec 6) (fmt : BitVec 4),
     ∀ e ∈ intOps t g, Issues s t g c (.reg e.2.1 gp gn d a b fmt) →
       let x := s.mkCtx t g c (.reg e.2.1 gp gn d a b fmt)
       Gives e.1 s fun s' => Wrote s s' x d.toNat (s.after t c 1) fun k => e.2.2 (x.operand a k) (x.operand b k)) ∧
  (∀ (s : State) (t g c : Nat) (gp : BitVec 3) (gn : Bool) (d a b : BitVec 6) (fmt : BitVec 4) (v : BitVec 16),
     (Issues s t g c (.reg .mov gp gn d a b fmt) →
       let x := s.mkCtx t g c (.reg .mov gp gn d a b fmt)
       Gives (.mov t g) s fun s' => Wrote s s' x d.toNat (s.after t c 1) fun k => x.operand a k) ∧
     (Issues s t g c (.reg .shfl gp gn d a b fmt) →
       let x := s.mkCtx t g c (.reg .shfl gp gn d a b fmt)
       Gives (.shfl t g) s fun s' =>
         Wrote s s' x d.toNat (s.after t c 1) fun k => x.operand a ((x.operand b k).toNat % 8)) ∧
     (Issues s t g c (.imm .movi gp gn d v) →
       let x := s.mkCtx t g c (.imm .movi gp gn d v)
       Gives (.movi t g) s fun s' => Wrote s s' x d.toNat (s.after t c 1) fun _ => BitVec.ofInt 32 v.toInt) ∧
     (Issues s t g c (.imm .movhi gp gn d v) →
       let x := s.mkCtx t g c (.imm .movhi gp gn d v)
       Gives (.movhi t g) s fun s' => Wrote s s' x d.toNat (s.after t c 1) fun k =>
         BitVec.ofNat 32 (v.toNat * 65536 + (x.operand d k).toNat % 65536)) ∧
     (Issues s t g c (.imm .addi gp gn d v) →
       let x := s.mkCtx t g c (.imm .addi gp gn d v)
       Gives (.addi t g) s fun s' => Wrote s s' x d.toNat (s.after t c 1) fun k =>
         BitVec.ofInt 32 ((x.operand d k).toInt + v.toInt)))

/-- FADD, FSUB, FMUL, FMA, FMIN, FMAX write the operation on A, B and D in the instruction's format, readable four
executed cycles after issue; DOT adds to D the products of signed bytes 0 and 1, or of the signed low halves, readable after
three; CVT writes A in the other format, readable after two; SFU, where no active lane violates its domain under a set
T, writes the function's value, readable after twelve, with the unit busy for four (R210, R211, R214, R215, R143). The
latency of FMIN and FMAX is deduced (log 23); SFU's value, where the spec only bounds it, is a free value within the
bound (log 6). -/
def Obligations.FloatResults : Prop :=
  ∀ (s : State) (t g c : Nat) (gp : BitVec 3) (gn : Bool) (d a b : BitVec 6) (fmt : BitVec 4),
    (∀ e ∈ floatOps t g, Issues s t g c (.reg e.2.1 gp gn d a b fmt) →
      let x := s.mkCtx t g c (.reg e.2.1 gp gn d a b fmt)
      Gives e.1 s fun s' => Wrote s s' x d.toNat (s.after t c 4) fun k =>
        arithReg (fmtField fmt) e.2.2 (x.operand a k) (x.operand b k) (x.operand d k)) ∧
    (Issues s t g c (.reg .dot gp gn d a b fmt) →
      let x := s.mkCtx t g c (.reg .dot gp gn d a b fmt)
      Gives (.dot t g) s fun s' => Wrote s s' x d.toNat (s.after t c 3) fun k => BitVec.ofInt 32 ((x.operand d k).toInt +
        if fmt = 3 then ((x.operand a k).extractLsb' 0 8).toInt * ((x.operand b k).extractLsb' 0 8).toInt +
          ((x.operand a k).extractLsb' 8 8).toInt * ((x.operand b k).extractLsb' 8 8).toInt
        else ((x.operand a k).extractLsb' 0 16).toInt * ((x.operand b k).extractLsb' 0 16).toInt)) ∧
    (Issues s t g c (.reg .cvt gp gn d a b fmt) →
      let x := s.mkCtx t g c (.reg .cvt gp gn d a b fmt)
      Gives (.cvt t g) s fun s' =>
        Wrote s s' x d.toNat (s.after t c 2) fun k => cvtVal b.toNat fmt.toNat (x.operand a k)) ∧
    (Issues s t g c (.reg .sfu gp gn d a b fmt) →
      let x := s.mkCtx t g c (.reg .sfu gp gn d a b fmt)
      (b.getLsbD 3 = false ∨ x.dead = true ∨
        ∀ k ∈ x.lanes, sfuDomain (sfuFnOf b) (decodeFloat .fp32 (x.operand a k).toNat) = false) →
      Gives (.sfu t g) s fun s' =>
        Wrote s s' x d.toNat (s.after t c 12) (fun k => sfuEval (sfuFnOf b) (x.operand a k)) ∧ (s'.til t).sfuFree = s.after t c 4)

/-- CMP writes its condition, PLOG bit 2 pPA[k] + pPB[k] of TT, in each active lane of PD; PFROMU writes the low byte of a
uniform register into a predicate, UFROMP a predicate into a uniform register, zero-extended; nothing else changes (R212,
R213). PD is not p0 (R250). -/
def Obligations.PredicateResults : Prop :=
  ∀ (s : State) (t g c : Nat) (gp pd pa pb cond : BitVec 3) (gn : Bool) (d a b : BitVec 6) (fmt tt : BitVec 4),
    (Issues s t g c (.cmp gp gn pd cond a b fmt) → pd ≠ 0 →
      let x := s.mkCtx t g c (.cmp gp gn pd cond a b fmt)
      Gives (.cmp t g) s fun s' =>
        WrotePred s s' x pd.toNat fun k => cmpBy fmt.toNat cond.toNat (x.operand a k) (x.operand b k)) ∧
    (Issues s t g c (.plog gp gn pd pa pb tt) → pd ≠ 0 →
      let x := s.mkCtx t g c (.plog gp gn pd pa pb tt)
      Gives (.plog t g) s fun s' => WrotePred s s' x pd.toNat fun k =>
        tt.getLsbD (2 * (if (x.grp.pred pa.toNat).getLsbD k then 1 else 0) +
          if (x.grp.pred pb.toNat).getLsbD k then 1 else 0)) ∧
    (Issues s t g c (.reg .pfromu gp gn d a b fmt) → d ≠ 0 →
      let x := s.mkCtx t g c (.reg .pfromu gp gn d a b fmt)
      Gives (.pfromu t g) s fun s' =>
        (∀ r, (s'.grp t g).pred r =
          if r = d.toNat ∧ x.lanes ≠ [] then ((x.grp.uni (a.toNat - 0x20)).setWidth 8) else x.grp.pred r) ∧
        (∀ r k, (s'.grp t g).lane r k = x.grp.lane r k) ∧ (∀ r, (s'.grp t g).uni r = x.grp.uni r) ∧
        (s'.grp t g).pc = (x.grp.pc + 4) % 65536 ∧ s'.sram = s.sram ∧ TileFrame s s' t g) ∧
    (Issues s t g c (.reg .ufromp gp gn d a b fmt) →
      let x := s.mkCtx t g c (.reg .ufromp gp gn d a b fmt)
      Gives (.ufromp t g) s fun s' =>
        Wrote s s' x d.toNat (s.after t c 1) fun _ => BitVec.ofNat 32 (x.grp.pred a.toNat).toNat)

/-- NOP, BRA, BANY, BNONE, PUSHIF, ELSE, POP, MASK: where the program counter goes, what the active mask and the
reconvergence stack become, and that nothing else of the group's registers, and no memory, changes (R204 to R207). `q` is
the guard predicate or, negated, its complement. -/
def Obligations.ControlResults : Prop :=
  ∀ (s : State) (t g c : Nat) (op : CtlOp) (gp : BitVec 3) (gn : Bool) (off : BitVec 16),
    Issues s t g c (.ctl op gp gn off) →
    let x := s.grp t g
    let q : BitVec 8 := if gn then ~~~(x.pred gp.toNat) else x.pred gp.toNat
    let on := (x.pc + 4) % 65536
    let away := (x.pc + 4 * off.toNat) % 65536
    let masks := x.stack.map fun e => (e.m, e.e)
    (op = .nop → Gives (.nop t g) s fun s' => Steered s s' t g on x.amask masks) ∧
    (op = .bra → Gives (.bra t g) s fun s' => Steered s s' t g away x.amask masks) ∧
    (op = .bany → Gives (.bany t g) s fun s' =>
      Steered s s' t g (if x.amask &&& q ≠ 0 then away else on) x.amask masks) ∧
    (op = .bnone → Gives (.bnone t g) s fun s' =>
      Steered s s' t g (if x.amask &&& q = 0 then away else on) x.amask masks) ∧
    (op = .pushif → Gives (.pushif t g) s fun s' =>
      Steered s s' t g (if x.amask &&& q = 0 then away else on) (x.amask &&& q) ((x.amask, x.amask &&& ~~~q) :: masks)) ∧
    (op = .else_ → ∀ e rest, x.stack = e :: rest → Gives (.else_ t g) s fun s' =>
      Steered s s' t g (if e.e = 0 then away else on) e.e masks) ∧
    (op = .pop → ∀ e rest, x.stack = e :: rest → Gives (.pop t g) s fun s' =>
      Steered s s' t g on e.m (rest.map fun e => (e.m, e.e))) ∧
    (op = .mask → Gives (.mask t g) s fun s' => Steered s s' t g on (x.amask &&& q) masks)

/-- END makes the group issue nothing further; it is DONE at once where nothing it issued is in flight, and otherwise
waits until END_OF_WORK finds nothing in flight; the tile's end-of-work comes with the last group of its mask, unless
a fault withholds it or a group is TRAPPED (R148, R174, R175, R241, R290). WATCHDOG: a running group that has not retired for LIMIT executed cycles of WORK,
LIMIT not 0, and issues nothing by then traps with cause 0xC; its registers and all memory stay (R178). The instant
from which the watchdog counts is deduced (log 4). -/
def Obligations.EndOfWorkAndWatchdog : Prop :=
  (∀ (s : State) (t g c : Nat) (off : BitVec 16),
     (Issues s t g c (.ctl .end_ 0 false off) → Gives (.end_ t g) s fun s' =>
       (s.quiet t g = true → (s'.grp t g).st = .done) ∧
       (s.quiet t g = false → (s'.grp t g).st = .running ∧ (s'.grp t g).ended = true) ∧
       (s'.grp t g).v = (s.grp t g).v ∧ (s'.grp t g).u = (s.grp t g).u ∧ (s'.grp t g).p = (s.grp t g).p ∧
       s'.sram = s.sram ∧ TileFrame s s' t g) ∧
     (t < 589824 → g < 8 → (s.grp t g).st = .running → (s.grp t g).ended = true → (s.fld (fieldOf t)).phase = .work →
       s.quiet t g = true → s.isDraining (fieldOf t) (s.sectorOf t) = false → Gives (.endOfWork t g) s fun s' =>
         (s'.grp t g).st = .done ∧ (s'.grp t g).ended = false ∧ s'.sram = s.sram ∧ TileFrame s s' t g ∧
         ((s.til t).withhold = false →
           (∀ k, k < 8 → k ≠ g → (s.grp t k).st ≠ .trapped ∧ ((s.til t).active.testBit k = true → (s.grp t k).st = .done)) →
             (s'.til t).eow = true) ∧
         ((s.til t).withhold = true → (s'.til t).eow = (s.til t).eow))) ∧
  (∀ (s : State) (t g : Nat), t < 589824 → g < 8 → s.gf F.tgpWdog_limit t ≠ 0 → (s.grp t g).st = .running →
     (s.fld (fieldOf t)).phase = .work →
     s.after t (s.grp t g).lastRetire (s.gf F.tgpWdog_limit t) < settleStart (s.fld (fieldOf t)) →
     (∀ c, nextCycle (s.nextOf t g) = some c → s.after t (s.grp t g).lastRetire (s.gf F.tgpWdog_limit t) < c) →
     Gives (.watchdog t g) s fun s' =>
       (s'.grp t g).st = .trapped ∧ bits (s'.rd .tgpTrap t g).toNat 20 16 = 0xC ∧ (s'.grp t g).v = (s.grp t g).v ∧
       (s'.grp t g).u = (s.grp t g).u ∧ s'.sram = s.sram ∧ s'.packets = s.packets)

/-- A tile instruction whose encoding, program counter or stack traps takes the trap as it issues, whatever
instruction was named: the group is TRAPPED, TGP_TRAP holds the cause and the program counter, TGP_TRAP_ADDR the
word's address where the fetch is at fault, and nothing is written, the stack and A as they were (R173, R174, R207,
R249). The causes, for a tile that is not dark (R31), that the word and the group decide (R249, R250), in the first cycle free for it that is not stretched (R144): a running group in WORK whose program counter lies
outside its tile's shared region traps SRAM_REGION (2), one whose fetched word is uncorrectable traps 0xB, one whose
word decodes to nothing traps ILLEGAL_OP (1), PUSHIF on a full stack traps 7, ELSE and POP on an empty one trap 8,
SPEC BEGIN at depth 4 traps 9. That a trap the word decides is taken whatever instruction is named is the model's
reading (log 3). -/
def Obligations.TrapsAtIssue : Prop :=
  (∀ (s : State) (t g c cause : Nat), t < 589824 → g < 8 → s.scan t = some g → s.nextOf t g = .trap c cause →
     c < settleStart (s.fld (fieldOf t)) → s.breakAt t g = none → ∀ i ∈ issueCommands t g, Gives i s fun s' =>
       (s'.grp t g).st = .trapped ∧ s'.rd .tgpTrap t g = BitVec.ofNat 64 (cause * 65536 + (s.grp t g).pc % 65536) ∧
       s'.rd .tgpTrapAddr t g =
         BitVec.ofNat 64 (if cause = 2 ∨ cause = 0xB then t * 2 ^ 40 + (s.grp t g).pc else 0) ∧
       (s'.grp t g).v = (s.grp t g).v ∧ (s'.grp t g).u = (s.grp t g).u ∧ (s'.grp t g).p = (s.grp t g).p ∧
       (s'.grp t g).amask = (s.grp t g).amask ∧ (s'.grp t g).stack = (s.grp t g).stack ∧
       s'.sram = s.sram ∧ s'.fst = s.fst ∧ s'.packets = s.packets ∧
       (∀ a b, (a, b) ≠ (t, g) → s'.grp a b = s.grp a b)) ∧
  (∀ (s : State) (t g : Nat),
     (s.grp t g).st = .running → (s.grp t g).ended = false → (s.fld (fieldOf t)).phase = .work →
     s.isDraining (fieldOf t) (s.sectorOf t) = false → s.isQuiesced (fieldOf t) (s.sectorOf t) = false →
     s.tileDark t = false →
     let pc := (s.grp t g).pc
     let at_ := max (max (s.til t).cyc (s.cycle (fieldOf t))) 512
     let c := skipStretch (s.til t).stretches at_
     let w := s.fetched t pc at_
     (s.sharedBytes t ≤ pc → s.nextOf t g = .trap c 2) ∧
     (pc < s.sharedBytes t → pc % 4 = 0 → w.bad = true → s.nextOf t g = .trap c 0xB) ∧
     (pc < s.sharedBytes t → pc % 4 = 0 → w.bad = false → decodeTile w.w = none → s.nextOf t g = .trap c 1) ∧
     (pc < s.sharedBytes t → pc % 4 = 0 → w.bad = false → ∀ gp gn off, decodeTile w.w = some (.ctl .pushif gp gn off) →
       8 ≤ (s.grp t g).stack.length → s.nextOf t g = .trap c 7) ∧
     (pc < s.sharedBytes t → pc % 4 = 0 → w.bad = false → ∀ op gp gn off, decodeTile w.w = some (.ctl op gp gn off) →
       (op = .else_ ∨ op = .pop) → (s.grp t g).stack = [] → s.nextOf t g = .trap c 8) ∧
     (pc < s.sharedBytes t → pc % 4 = 0 → w.bad = false → ∀ tag, decodeTile w.w = some (.spec .begin_ tag) →
       4 ≤ (s.grp t g).nest.length → s.nextOf t g = .trap c 9))

/-- SPEC BEGIN pushes its tag on the nest and, where the tile does not know the tag open, sends an open on the tag bus; END
removes the innermost entry; CONFIRM and SQUASH send theirs unless DEAD (R237 to R239, R545, R551, R560). -/
def Obligations.SpecResults : Prop :=
  ∀ (s : State) (t g c : Nat) (tag : BitVec 4),
    let sent (op : TagOp) : TagMsg := { op := op, sector := s.sectorOf t, tag := tag.toNat, parity := s.parity (fieldOf t),
                                        from_ := fieldOf t, cycle := c }
    (Issues s t g c (.spec .begin_ tag) →
      let x := s.mkCtx t g c (.spec .begin_ tag)
      Gives (.specBegin t g) s fun s' =>
        (s'.grp t g).nest = tag.toNat :: x.grp.nest ∧ (s'.grp t g).pc = (x.grp.pc + 4) % 65536 ∧ s'.sram = s.sram ∧
        TileFrame s s' t g ∧ (x.dead = false → (s.til t).opened.contains tag.toNat = false →
          mget .free (s.til t).view tag.toNat = .free → sent .open_ ∈ s'.tagMsgs)) ∧
    (Issues s t g c (.spec .end_ 0) →
      Gives (.specEnd t g) s fun s' =>
        (s'.grp t g).nest = (s.grp t g).nest.tail ∧ (s'.grp t g).pc = ((s.grp t g).pc + 4) % 65536 ∧ s'.sram = s.sram ∧
        TileFrame s s' t g) ∧
    (Issues s t g c (.spec .confirm tag) →
      let x := s.mkCtx t g c (.spec .confirm tag)
      Gives (.specConfirm t g) s fun s' =>
        (s'.grp t g).nest = x.grp.nest ∧ (s'.grp t g).pc = (x.grp.pc + 4) % 65536 ∧ s'.sram = s.sram ∧
        TileFrame s s' t g ∧ (x.dead = false → sent .confirm ∈ s'.tagMsgs)) ∧
    (Issues s t g c (.spec .squash tag) →
      let x := s.mkCtx t g c (.spec .squash tag)
      Gives (.specSquash t g) s fun s' =>
        (s'.grp t g).nest = x.grp.nest ∧ (s'.grp t g).pc = (x.grp.pc + 4) % 65536 ∧ s'.sram = s.sram ∧
        TileFrame s s' t g ∧ (x.dead = false → sent .squash ∈ s'.tagMsgs))

/-- LD, where no active lane's offset is misaligned or outside local store and no word read is uncorrectable, writes the
words at A + 4 WOFF as its tile sees them (shadow over SRAM) into its destination, readable three executed cycles after the last
of its issue cycles, one for each 16-byte block (R143, R216 to R218, R555). -/
def Obligations.LocalLoadResults : Prop :=
  ∀ (s : State) (t g c : Nat) (gp : BitVec 3) (gn : Bool) (d a : BitVec 6) (woff : BitVec 10),
    Issues s t g c (.loc .ld gp gn d a woff) →
    let x := s.mkCtx t g c (.loc .ld gp gn d a woff)
    let offs := x.lanes.map (storeOffset x a woff)
    x.dead = false → (∀ o ∈ offs, o % 4 = 0 ∧ o < s.lsBytes t ∧ (s.loadWord t o).2.2 = false) →
    Gives (.ld t g) s fun s' =>
      Wrote s s' x d.toNat (s.after t (s.after t c (blocks16 offs) - 1) 3) fun k => (s.loadWord t (storeOffset x a woff k)).1

/-- ST, where no active lane's offset is misaligned or outside local store, without a tag stores each lane's word at its
offset, the highest lane winning, and changes no other byte; under a tag it changes no byte of SRAM (R216 to R220, R554). No
register of the group changes but the program counter. -/
def Obligations.LocalStoreResults : Prop :=
  ∀ (s : State) (t g c : Nat) (gp : BitVec 3) (gn : Bool) (d a : BitVec 6) (woff : BitVec 10),
    Issues s t g c (.loc .st gp gn d a woff) →
    let x := s.mkCtx t g c (.loc .st gp gn d a woff)
    let off := storeOffset x a woff
    (∀ k ∈ x.lanes, off k % 4 = 0 ∧ off k < s.lsBytes t) →
    Gives (.st t g) s fun s' =>
      (∀ k ∈ x.lanes, x.mark = .none → (∀ j ∈ x.lanes, k < j → off j ≠ off k) →
        (s'.sramWord t (off k)).w = x.operand d k) ∧
      (∀ b, (∀ k ∈ x.lanes, b < sramAddr t (off k) ∨ sramAddr t (off k) + 4 ≤ b) →
        memRead s'.sram b = memRead s.sram b) ∧
      (x.mark ≠ .none → s'.sram = s.sram) ∧
      (s'.grp t g).v = x.grp.v ∧ (s'.grp t g).u = x.grp.u ∧ (s'.grp t g).p = x.grp.p ∧
      (s'.grp t g).pc = (x.grp.pc + 4) % 65536 ∧ TileFrame s s' t g

/-- RLD and RLDU, neither DEAD nor in conflict, where no lane's address traps, send one RLOAD for each 64-byte block that
neither the tile nor, for RLD, its cache serves, to the tile or bay port the address names, and take one tag for each; the
destination waits for the load and no register changes. With no such block the destination gets each lane's word from the
tile's own store or the cache. RST sends one RSTORE for each block it writes and counts it outstanding. None of them writes
memory here (R160 to R167, R177, R221 to R224). -/
def Obligations.RemoteAccessSends : Prop :=
  ∀ (s : State) (t g c : Nat) (op : MOp) (gp : BitVec 3) (gn : Bool) (d ap : BitVec 6) (rel : BitVec 10),
    Issues s t g c (.rem op gp gn d ap rel) →
    let x := s.mkCtx t g c (.rem op gp gn d ap rel)
    let addr := pairAddr x.grp ap.toNat
    let addrs := x.lanes.map addr
    let isOwn (a : Nat) : Bool := addrSpace a = 0 && addrTile a = t
    let own := (addrs.filter isOwn).map (· % 65536)
    let miss := s.missBlocks t (op = .rld) addrs
    x.dead = false → x.conflict = none →
    ((op = .rld ∨ op = .rldu) → remoteFault false addrs = none →
      (∀ o ∈ own, o % 4 = 0 ∧ o < s.lsBytes t ∧ (s.loadWord t o).2.2 = false) →
      Gives (if op = .rld then .rld t g else .rldu t g) s fun s' =>
        (s'.packets.drop s.packets.length).map (fun p => (p.ty, p.dest, p.full, p.src)) =
          miss.map (fun b => (.rload, remoteDest t (b * 64), b * 64, t)) ∧
        (miss ≠ [] → (s'.grp t g).v = x.grp.v ∧ (s'.grp t g).u = x.grp.u ∧
          ∃ l ∈ (s'.til t).loads, mfind (s'.grp t g).loading d.toNat = some l.id ∧ l.group = g ∧ l.dst = d.toNat ∧
            l.issue + rel.toNat = s.after t c rel.toNat ∧ l.rel = rel.toNat ∧ l.lanes = x.lanes.map (fun k => (k, addr k)) ∧ l.waiting.map (·.2) = miss) ∧
        (miss = [] → (∀ r k, (s'.grp t g).lane r k = if d.toNat < 0x20 ∧ r = d.toNat ∧ k ∈ x.lanes then
            (if isOwn (addr k) then (s.loadWord t (addr k % 65536)).1
              else ((cacheWord (s.til t) (addr k)).getD { w := 0 }).w) else x.grp.lane r k) ∧
          (x.lanes ≠ [] → let at_ := max (s.after t (s.after t c (blocks16 own) - 1) 3) (s.after t c rel.toNat)
            (s'.grp t g).readyAt d.toNat =
              if x.lanes.length = 8 ∨ 0x20 ≤ d.toNat then at_ else max (x.grp.readyAt d.toNat) at_)) ∧
        s'.sram = s.sram ∧ (s'.grp t g).p = x.grp.p ∧ (s'.grp t g).pc = (x.grp.pc + 4) % 65536 ∧ TileFrame s s' t g) ∧
    (op = .rst → remoteFault true addrs = none →
      Gives (.rst t g) s fun s' =>
        (s'.packets.drop s.packets.length).map (fun p => (p.ty, p.dest, p.full, p.src)) =
          ((addrs.map (· / 64)).eraseDups).map (fun b => (.rstore, remoteDest t (b * 64), b * 64, t)) ∧
        (s'.grp t g).rstOut.length = x.grp.rstOut.length + ((addrs.map (· / 64)).eraseDups).length ∧
        s'.sram = s.sram ∧ (s'.grp t g).v = x.grp.v ∧ (s'.grp t g).u = x.grp.u ∧ (s'.grp t g).p = x.grp.p ∧
        (s'.grp t g).pc = (x.grp.pc + 4) % 65536 ∧ TileFrame s s' t g)

/-- SENDW buffers one word, SENDV one word of each active lane, SENDM N1 + 1 words of local store, as one item for the
out-slot's destination, and spends a credit for each word at every destination (R227 to R230, R262, R263). -/
def Obligations.SendResults : Prop :=
  ∀ (s : State) (t g c : Nat) (vec : Bool) (gp : BitVec 3) (gn : Bool) (slot : BitVec 4) (r : Bool) (src : BitVec 6)
    (ua ul : BitVec 4) (n1 : BitVec 8),
    let k := 16 + slot.toNat
    let sent (x : Ctx) (words : List Word) (s' : State) : Prop :=
      ∃ p ∈ s'.packets, p.ty = .item ∧ p.st = .buffered ∧ p.src = t ∧ p.dest = s.gf F.chnSlotDest_tile t k ∧
        p.dslot = s.gf F.chnSlotDest_dslot t k ∧ p.body.map (·.w) = words ∧
        (s'.slot t k).sendBuf = (s.slot t k).sendBuf ++ [p.id] ∧
        (s'.slot t k).credits = (s.slot t k).credits.map (· - words.length) ∧
        (s'.grp t g).sendsOut = x.grp.sendsOut + 1 ∧ (s'.grp t g).pc = (x.grp.pc + 4) % 65536 ∧ s'.sram = s.sram ∧
        TileFrame s s' t g
    (Issues s t g c (.send vec gp gn slot r src ul) →
      let x := s.mkCtx t g c (.send vec gp gn slot r src ul)
      x.dead = false → x.conflict = none → x.em ≠ 0 →
      Gives (if vec then .sendv t g else .sendw t g) s
        (sent x (if vec then x.lanes.map (x.operand src) else [x.operand src x.lane0]))) ∧
    (Issues s t g c (.sendm gp gn slot r ua ul n1) →
      let x := s.mkCtx t g c (.sendm gp gn slot r ua ul n1)
      let offs := (List.range (n1.toNat + 1)).map fun j => (x.grp.uni ua.toNat).toNat + 4 * j
      x.dead = false → x.em ≠ 0 → x.conflict = none → (s.til t).shadow = [] →
      (∀ o ∈ offs, o % 4 = 0 ∧ o < s.lsBytes t ∧ (s.sramWord t o).bad = false) →
      Gives (.sendm t g) s (sent x (offs.map fun o => (s.sramWord t o).w)))

/-- BADD, BARRIVE, BSET and BCLEAR without a tag send the operation with its operand to the buoy named, over the bay port,
and count it outstanding; behind earlier stores it is held instead, and under a tag it takes a shadow line (R233 to R235,
R384, R389, R559). -/
def Obligations.BuoyInstructionResults : Prop :=
  ∀ (s : State) (t g c : Nat) (op : BOp) (gp : BitVec 3) (gn : Bool) (name : BuoyName) (v : BitVec 6) (b i : Nat)
    (far : Option Nat) (cmd : Instr) (bop : BuoyOp) (n : Nat),
    Issues s t g c (.buoy op gp gn name v) →
    let x := s.mkCtx t g c (.buoy op gp gn name v)
    x.dead = false → x.em ≠ 0 → x.conflict = none → buoyTarget x.grp t name = some (b, i, far) →
    (op, cmd, bop, n) ∈ [(BOp.badd, Instr.badd t g, BuoyOp.add, (x.single v).toNat % 2 ^ 24),
      (BOp.barrive, Instr.barrive t g, BuoyOp.add, 1), (BOp.bset, Instr.bset t g, BuoyOp.set, (x.single v).toNat % 2 ^ 24),
      (BOp.bclear, Instr.bclear t g, BuoyOp.clear, 0)] →
    let m : BuoyMsg := { op := bop, block := b, index := i, operand := n, tile := t, group := g, sector := s.sectorOf t
                         parity := s.parity (fieldOf t) }
    Gives cmd s fun s' =>
      (s'.grp t g).opsOut = x.grp.opsOut + 1 ∧ (s'.grp t g).pc = (x.grp.pc + 4) % 65536 ∧ s'.sram = s.sram ∧
      TileFrame s s' t g ∧
      (x.mark = .none → x.grp.rstOut = [] → ∃ p ∈ s'.packets, p.ty = .buoyOp ∧ p.dest = bayPort (bayOf t) ∧ p.buoy = some m) ∧
      (x.mark = .none → x.grp.rstOut ≠ [] → ∃ h ∈ (s'.til t).held, h.group = g ∧ h.op = some m ∧ h.far = far) ∧
      (∀ tag, x.mark = .tag tag → ∃ l ∈ (s'.til t).shadow, l.2.tag = tag ∧ l.2.op = some m)

/-- BAWAITGE and BAWAITFLAG, once their latch is filled, retire and empty it; WATCH_RELEASE sends the WATCH of an await that
waits with an empty latch, and fills the latch at once for BAWAITGE with operand 0 (R236, R395, R397). -/
def Obligations.AwaitResults : Prop :=
  ∀ (s : State) (t g c : Nat) (op : BOp) (gp : BitVec 3) (gn : Bool) (name : BuoyName) (v : BitVec 6),
    (Issues s t g c (.buoy op gp gn name v) → (op = .bawaitge ∨ op = .bawaitflag) →
      let x := s.mkCtx t g c (.buoy op gp gn name v)
      (buoyTarget x.grp t name).isSome = true →
      Gives (if op = .bawaitge then .bawaitge t g else .bawaitflag t g) s fun s' =>
        (s'.grp t g).latch = .empty ∧ (s'.grp t g).watchSent = false ∧
        (s'.grp t g).pc = (x.grp.pc + 4) % 65536 ∧ s'.sram = s.sram ∧ TileFrame s s' t g) ∧
    (∀ x m far, t < 589824 → g < 8 → s.waitingAwait t g = some x → s.buoyMsgOf x = some (m, far) →
      (s.grp t g).latch = .empty → (s.grp t g).watchSent = false → Gives (.watchRelease t g) s fun s' =>
        (m.op = .watchGe → m.operand = 0 → (s'.grp t g).latch = .met ∧ s'.packets = s.packets) ∧
        (m.op = .watchFlag ∨ (m.op = .watchGe ∧ m.operand ≠ 0) → (s'.grp t g).watchSent = true ∧
          ∃ p ∈ s'.packets, p.ty = .buoyOp ∧ p.dest = bayPort (bayOf t) ∧ p.buoy = some m) ∧
        (s'.grp t g).pc = (s.grp t g).pc ∧ s'.sram = s.sram ∧ s'.regs = s.regs)

/-! ### Packets on the mesh -/

/-- PACKET_HOP of a flying unicast packet to which its output is granted: at its destination it is ejected with its
body; elsewhere, where no light-list entry matches, the way in dimension order is open, the link is good and the next
router's port takes it, it moves to that neighbour (R341, R346, R348). Not granted, it stays and a cycle is counted
(R340, R381); so it does on VC1 to VC3 while a VC0 head is ready for the same output towards another router (R343).
Nothing is stored. That a hop is one command, the packets a list, is the model's choice (log 87). -/
def Obligations.PacketHopMoves : Prop :=
  ∀ (s : State) (id n : Nat) (p : Packet), s.pkt id = some p → p.st = .flying → p.refused = false → p.mcast = false → p.len ≤ 64 →
    (∀ k, p.ty ≠ .reserved k) → (s.fld (fieldOf p.at_)).fogged = false →
    let d := dimensionOrder p.control p.at_ p.dest
    (s.mayHop p = false → Gives (.packetHop id .good) s fun s' => s'.packets = s.packets ∧
      s'.rd .mshCountStall p.at_ = BitVec.ofNat 64 (satAdd32 (s.rd .mshCountStall p.at_).toNat 1) ∧ s'.sram = s.sram) ∧
    (∀ q ∈ s.packets, ∀ o ∈ s.outsOf p, q.st = .flying → q.refused = false → q.at_ = p.at_ → q.id ≠ p.id → q.control = false →
      p.control = false → q.vc = 0 → p.vc ≠ 0 → o ≠ .l → o ∈ s.outsOf q → s.headReady q = true →
      Gives (.packetHop id .good) s fun s' => s'.packets = s.packets) ∧
    (p.dest = p.at_ → s.mayHop p = true → Gives (.packetHop id .good) s fun s' =>
      (∃ q ∈ s'.packets, q.st = .ejected ∧ q.at_ = p.at_ ∧ q.ty = p.ty ∧ q.src = p.src ∧ q.body = p.body) ∧
      s'.sram = s.sram ∧ s'.groups = s.groups ∧ s'.tiles = s.tiles) ∧
    (p.dest ≠ p.at_ → s.mayHop p = true → s.lookup p.at_ p = none → s.outputDark p.at_ d p = false → neighbour p.at_ d = some n →
      s.boundaryOk n (dirNum (opposite d)) { p with
        at_ := n, inPort := opposite d, hops := p.hops + hopTime p.inPort d } = true →
      Gives (.packetHop id .good) s fun s' =>
        (∃ q ∈ s'.packets, q.st = .flying ∧ q.at_ = n ∧ q.inPort = opposite d ∧ q.ty = p.ty ∧ q.src = p.src ∧
          q.dest = p.dest ∧ q.body = p.body ∧ q.hops = p.hops + hopTime p.inPort d) ∧
        s'.sram = s.sram ∧ s'.groups = s.groups ∧ s'.tiles = s.tiles)

/-- ITEM: the flits of an item of this watch, at an enabled slot that no drain, fault or rival holds back and that has
room, join its queue in order, the last word of the item marked as tail (R252, R258, R270). CREDIT: the credits of
this watch, taken outside the rest interval, add to the out-slot's counter of that destination (R266, R269). LANDING_COMPLETION
signals the oldest completion of an address-landing slot: by mode, one BADD 1 to the slot's buoy or the count of items
completed in the watch on its way to the flag word (R259). Which in-slot faults and rivals hold an item back is in
part deduced (log 31, 33). -/
def Obligations.ItemsAndSignalsArrive : Prop :=
  (∀ (s : State) (id flits : Nat) (p : Packet),
     (s.arrived id .item = some p →
       let t := p.at_
       let k := p.dslot
       let n := min (4 * flits) p.body.length
       let x := s.slot t k
       0 < n → p.parity = s.parity (fieldOf t) → s.flag F.chnSlotCfg_enable t k = true →
       s.flag F.chnSlotCfg_source t k = false → (s.fld (fieldOf t)).phase = .work → p.count = 0 → x.midItem = false →
       x.partial_ = false → s.yieldsSlot p = false → s.drainDiscards t k p.sector = false →
       viewMark (s.til t).view p.mark ≠ .dead → s.gf F.chnSlotCfg_landing t k ≠ 1 → x.queue.length + n ≤ s.slotSize t k →
       Gives (.item id flits) s fun s' =>
         (s'.slot t k).queue.map (fun q => (q.w, q.tail)) = (x.queue.map fun q => (q.w, q.tail)) ++
           (((List.range n).zip (p.body.take n)).map fun e => (e.2.w, decide (e.1 + 1 = p.body.length))) ∧
         (s'.slot t k).midItem = decide (n < p.body.length) ∧ s'.sram = s.sram ∧ s'.groups = s.groups) ∧
     (s.arrived id .credit = some p → p.parity = s.parity (fieldOf p.at_) → (s.fld (fieldOf p.at_)).phase ≠ .rest →
       let x := s.slot p.at_ (16 + p.sslot)
       Gives (.credit id) s fun s' =>
         (s'.slot p.at_ (16 + p.sslot)).credits = x.credits.modify p.didx (fun c => c + p.count) ∧
         s'.sram = s.sram ∧ s'.groups = s.groups ∧ s'.regs = s.regs)) ∧
  (∀ (s : State) (t k : Nat) (m : Marker) (rest : List Marker), t < 589824 → (s.slot t k).doneDue = m :: rest →
     (s.gf F.chnSlotDone_mode t k ≠ 0 → Gives (.landingCompletion t k) s fun s' =>
       (s'.til t).svc = (s.til t).svc ++
         [.flag k (s.gf F.chnSlotDone_flag t k) ((s.slot t k).doneCount + 1) (viewMark (s.til t).view m)] ∧
       (s'.slot t k).doneDue = rest ∧ (s'.slot t k).doneCount = (s.slot t k).doneCount + 1 ∧ s'.sram = s.sram) ∧
     (s.gf F.chnSlotDone_mode t k = 0 → viewMark (s.til t).view m = .none → Gives (.landingCompletion t k) s fun s' =>
       (∃ p ∈ s'.packets, p.ty = .buoyOp ∧ p.dest = bayPort (bayOf t) ∧ ∃ b, p.buoy = some b ∧ b.op = .landing ∧
         b.operand = 1 ∧ b.tile = t ∧ (s.gf F.chnSlotDone_buoy t k < 1024 →
           b.block = fieldOf t ∧ b.index = s.gf F.chnSlotDone_buoy t k)) ∧
       (s'.slot t k).doneDue = rest ∧ s'.sram = s.sram))

/-- RLOAD and RSTORE of this watch that name local store of their tile wait at its service port; outside it they are refused
with RFAIL or NACK, and nothing is stored (R158, R361). While the response store of the router is full an RLOAD waits in the
ejection buffer (R826). -/
def Obligations.RemoteRequestsQueueOrRefuse : Prop :=
  ∀ (s : State) (id : Nat) (p : Packet), addrSpace p.full = 0 → p.at_ = p.dest → s.stalePacket p = false →
    viewMark (s.til p.at_).view p.mark ≠ .dead →
    (s.arrived id .rload = some p → s.storeFull p.at_ = true → Gives (.rload id) s fun s' =>
      s'.packets = s.packets ∧ s'.tiles = s.tiles ∧ s'.sram = s.sram) ∧
    (s.arrived id .rload = some p → s.storeFull p.at_ = false →
      (p.addr % 65536 < s.lsBytes p.at_ → Gives (.rload id) s fun s' =>
        (s'.til p.at_).svc = (s.til p.at_).svc ++ [.load p] ∧ s'.pkt id = none ∧ s'.sram = s.sram ∧ s'.groups = s.groups) ∧
      (s.lsBytes p.at_ ≤ p.addr % 65536 → Gives (.rload id) s fun s' =>
        (∃ q ∈ s'.packets, q.ty = .rfail ∧ q.dest = p.src ∧ q.sslot = p.sslot ∧ q.gen = p.gen) ∧ s'.sram = s.sram)) ∧
    (s.arrived id .rstore = some p →
      (p.addr % 65536 < s.lsBytes p.at_ → Gives (.rstore id) s fun s' =>
        (s'.til p.at_).svc = (s.til p.at_).svc ++ [.store p] ∧ s'.pkt id = none ∧ s'.sram = s.sram ∧
        s'.groups = s.groups) ∧
      (s.lsBytes p.at_ ≤ p.addr % 65536 → Gives (.rstore id) s fun s' =>
        (∃ q ∈ s'.packets, q.ty = .nack ∧ q.dest = p.src ∧ q.serial = p.serial ∧ q.group = p.group) ∧
        s'.sram = s.sram))

/-- SERVICE_PORT_ACCESS serves a request of the highest rank among those that have come by the cycle it is served in (R156), unless
the core port touches its words first (R157): a load of intact words sends their 16 words back as RDATA; an
untagged store writes the words of its mask, every other byte of SRAM staying as it was, and sends ACK (R159, R183, R222). -/
def Obligations.ServicePortServes : Prop :=
  ∀ (s : State) (t c k : Nat) (p : Packet), t < 589824 →
    let base := p.addr % 65536 / 64 * 64
    (∀ r, s.svcNext t = some (c, k, r) → (s.til t).svc[k]? = some r ∧
      (∀ e ∈ s.svcWaiting t, s.svcFrom t e.2 ≤ c → (svcRank r).1 ≤ (svcRank e.2).1) ∧
      (s.coreFirst t c (svcTouches r) = true → Gives (.servicePortAccess t) s fun s' => s' = s)) ∧
    (s.svcNext t = some (c, k, .load p) → s.coreFirst t c (svcTouches (.load p)) = false → (∀ j, j < 16 → (s.sramWord t (base + 4 * j)).bad = false) →
      Gives (.servicePortAccess t) s fun s' =>
        (∃ q ∈ s'.packets, q.ty = .rdata ∧ q.dest = p.src ∧ q.sslot = p.sslot ∧ q.gen = p.gen ∧
          q.body.map (·.w) = (List.range 16).map fun j => (s.sramWord t (base + 4 * j)).w) ∧
        (s'.til t).svc = (s.til t).svc.eraseIdx k ∧ s'.sram = s.sram) ∧
    (s.svcNext t = some (c, k, .store p) → s.coreFirst t c (svcTouches (.store p)) = false →
      viewMark (s.til t).view p.mark = .none → Gives (.servicePortAccess t) s fun s' =>
        (∀ j, j < 16 → p.mask.testBit j = true →
          (s'.sramWord t (base + 4 * j)).w = (p.body.getD j { w := 0 }).w) ∧
        (∀ b, (∀ j, j < 16 → p.mask.testBit j = true →
            b < sramAddr t (base + 4 * j) ∨ sramAddr t (base + 4 * j) + 4 ≤ b) →
          memRead s'.sram b = memRead s.sram b) ∧
        (∃ q ∈ s'.packets, q.ty = .ack ∧ q.dest = p.src ∧ q.serial = p.serial) ∧
        (s'.til t).svc = (s.til t).svc.eraseIdx k ∧ s'.groups = s.groups)

/-- KACCESS of a word that the field does not bar goes out as one window request over VC2 to its tile and, once there, waits at the
tile's service port while the response store has room; one of a tile the wafer does not have, of another size or unaligned completes
as an abort or a bus error and is done nowhere. KREG goes out on CV1 and, once where its register lies, performs the Keeper's read or
write and answers it; KRESP and KREG_RESP complete their requester's access with status and word (R9, R21, R183, R338). Where a
KREG_RESP goes, how a requester sees its answer, and that a window request enters at its tile's own bay port, are the model's
choices (log 80, 105). -/
def Obligations.KeeperAccesses : Prop :=
  ∀ (s : State) (id t off size n addr : Nat) (req : Requester) (write : Option Word) (p : Packet),
    (t < 589824 → off % 4 = 0 → s.barred (fieldOf t) (0xA4000 + off) write.isSome = false → (s.fld (fieldOf t)).fogged = false →
      (s.windowHere req t off write = none → Gives (.kaccess req t ⟨off, 4⟩ write) s fun s' =>
        (∃ q, s'.packets = s.packets ++ [q] ∧ q.ty = .kaccess ∧ q.vc = 2 ∧ q.wafer = true ∧ q.dest = t ∧ q.src = bayPort (bayOf t) ∧
          q.at_ = bayPort (bayOf t) ∧ q.addr = off ∧ q.write = write ∧ q.req = some req) ∧ s'.sram = s.sram ∧ s'.tiles = s.tiles) ∧
      (s.windowHere req t off write = some p → s.storeFull t = false → Gives (.kaccess req t ⟨off, 4⟩ write) s fun s' =>
        (s'.til t).svc = (s.til t).svc ++ [.window p] ∧ s'.pkt p.id = none ∧ s'.sram = s.sram)) ∧
    (589824 ≤ t ∨ size ≠ 4 ∨ off % 4 ≠ 0 → Gives (.kaccess req t ⟨off, size⟩ write) s fun s' =>
      mfind s'.answers req = some (1, 0) ∧ s'.sram = s.sram ∧ s'.packets = s.packets ∧ s'.tiles = s.tiles) ∧
    (s.arrived id .kresp = some p → Gives (.kresp id) s fun s' =>
      mfind s'.answers (p.req.getD .block) = some (p.status, (p.body.headD { w := 0 }).w) ∧ s'.pkt id = none ∧
      s'.sram = s.sram ∧ s'.regs = s.regs) ∧
    (n < 65 → addr % 4 = 0 → (fieldOfAddr (.keeper n) addr < 64 → (s.fld (fieldOfAddr (.keeper n) addr)).fogged = false) →
      (s.kregHere (.keeper n) addr write = none → Gives (.kreg n ⟨addr, 4⟩ write) s fun s' =>
        (∃ q, s'.packets = s.packets ++ [q] ∧ q.ty = .kreg ∧ q.control = true ∧ q.wafer = true ∧ q.src = s.keeperTile n ∧
          q.dest = s.registerTile (.keeper n) addr ∧ q.addr = addr ∧ q.write = write ∧ q.req = some (.keeper n)) ∧
        s'.regs = s.regs ∧ s'.sram = s.sram) ∧
      (s.kregHere (.keeper n) addr none = some p →
        let r := (s.dropPkt p.id).readAt (.keeper n) addr
        r.2.1 ≠ pendingStatus → Gives (.kreg n ⟨addr, 4⟩ none) s fun s' =>
          ∃ q ∈ s'.packets, q.ty = .kregResp ∧ q.dest = s'.keeperTile n ∧ q.req = p.req ∧ q.addr = addr ∧
            q.status = r.2.1 ∧ q.body.map (·.w) = [r.2.2]) ∧
      (∀ v, s.kregHere (.keeper n) addr (some v) = some p →
        let r := (s.dropPkt p.id).writeAt (.keeper n) addr v
        r.2 ≠ pendingStatus → Gives (.kreg n ⟨addr, 4⟩ (some v)) s fun s' =>
          ∃ q ∈ s'.packets, q.ty = .kregResp ∧ q.dest = s'.keeperTile n ∧ q.req = p.req ∧ q.addr = addr ∧
            q.status = r.2 ∧ q.body = [])) ∧
    (s.arrived id .kregResp = some p → Gives (.kregResp id) s fun s' =>
      mfind s'.answers (p.req.getD (.keeper 64)) = some (p.status, (p.body.headD { w := 0 }).w) ∧ s'.sram = s.sram ∧
      s'.regs = s.regs)

/-- RDATA with intact words for a load that still waits for it frees its tag. While the load waits for more data, or
for its release point, the words of its lanes are kept with it and no register changes; with REL = 0 and no more data
to come, each lane of that block receives its word, readable in the next cycle (R145, R146, R168, R170, R226). RFAIL
and RPOISON trap the group on its load with causes 6 and 0xB, the tag freed and no register written (R177, R225).
RELEASE_POINT of a load whose data has come: the destination is written with it, readable at i + REL or, later, in the
cycle after the data, the late cycles counted (R145, R147). ACK: the store is no longer outstanding; NACK: the group
traps with cause 6 on its store (R222, R225). One ACK answers one store packet: deduced (log 26). -/
def Obligations.LoadResponsesAndReleases : Prop :=
  (∀ (s : State) (id : Nat) (p : Packet) (l : Load), s.loadFor p = some l → l.killed = false →
     let t := p.at_
     let block := (mget {} (s.til t).tags p.sslot).block
     let more := l.waiting.filter fun w => w.1 ≠ p.sslot
     (s.arrived id .rdata = some p → (∀ w ∈ p.body, w.bad = false) →
       mfind (s.grp t l.group).loading l.dst = some l.id → Gives (.rdata id) s fun s' =>
         (mget {} (s'.til t).tags p.sslot).taken = false ∧ s'.sram = s.sram ∧ (s'.grp t l.group).p = (s.grp t l.group).p ∧
         (more ≠ [] ∨ l.rel ≠ 0 → s'.groups = s.groups ∧ ∃ m ∈ (s'.til t).loads, m.id = l.id ∧ m.waiting = more ∧
           m.got = l.got ++ (l.lanes.filter fun e => e.2 / 64 = block).map fun e =>
             (e.1, (p.body.getD (e.2 % 64 / 4) { w := 0 }).w)) ∧
         (more = [] → l.rel = 0 → l.dst < 0x20 → (l.lanes.map (·.1)).Nodup →
           (∀ e ∈ l.lanes, e.2 / 64 = block →
             (s'.grp t l.group).lane l.dst e.1 = (p.body.getD (e.2 % 64 / 4) { w := 0 }).w) ∧
           (∀ r k, (r ≠ l.dst ∨ ((∀ e ∈ l.lanes, e.1 = k → e.2 / 64 ≠ block) ∧ ∀ e ∈ l.got, e.1 ≠ k)) →
             (s'.grp t l.group).lane r k = (s.grp t l.group).lane r k) ∧
           (s'.grp t l.group).readyAt l.dst = s.tileCycle t + 1)) ∧
     (s.arrived id .rfail = some p → Gives (.rfail id) s fun s' =>
         (s'.grp t l.group).st = .trapped ∧ s'.rd .tgpTrap t l.group = BitVec.ofNat 64 (6 * 65536 + l.pc % 65536) ∧
         s'.rd .tgpTrapAddr t l.group = BitVec.ofNat 64 (block * 64) ∧
         (s'.grp t l.group).v = (s.grp t l.group).v ∧ (s'.grp t l.group).u = (s.grp t l.group).u ∧
         (mget {} (s'.til t).tags p.sslot).taken = false ∧ s'.sram = s.sram) ∧
     (s.arrived id .rpoison = some p → Gives (.rpoison id) s fun s' =>
         (s'.grp t l.group).st = .trapped ∧ s'.rd .tgpTrap t l.group = BitVec.ofNat 64 (0xB * 65536 + l.pc % 65536) ∧
         (s'.grp t l.group).v = (s.grp t l.group).v ∧ (s'.grp t l.group).u = (s.grp t l.group).u ∧
         (mget {} (s'.til t).tags p.sslot).taken = false ∧ s'.sram = s.sram)) ∧
  (∀ (s : State) (id t : Nat) (p : Packet) (l : Load),
     (t < 589824 → (s.til t).loads.find? (·.id = id) = some l → l.waiting = [] → l.rel ≠ 0 → l.killed = false →
       mfind (s.grp t l.group).loading l.dst = some l.id → Gives (.releasePoint t id) s fun s' =>
         (s'.grp t l.group).readyAt l.dst = max (l.issue + l.rel) (l.doneAt + 1) ∧
         mfind (s'.grp t l.group).loading l.dst = none ∧ (s'.grp t l.group).p = (s.grp t l.group).p ∧
         (l.dst < 0x20 → (l.got.map (·.1)).Nodup → (s'.grp t l.group).u = (s.grp t l.group).u ∧
           (∀ e ∈ l.got, (s'.grp t l.group).lane l.dst e.1 = e.2) ∧
           (∀ r k, (r ≠ l.dst ∨ ∀ e ∈ l.got, e.1 ≠ k) → (s'.grp t l.group).lane r k = (s.grp t l.group).lane r k)) ∧
         (0x20 ≤ l.dst → (s'.grp t l.group).v = (s.grp t l.group).v ∧
           ∀ e w, l.lanes.head? = some e → mfind l.got e.1 = some w → (s'.grp t l.group).uni (l.dst - 0x20) = w) ∧
         (∀ m ∈ (s'.til t).loads, m.id ≠ id) ∧ s'.sram = s.sram ∧
         (let late := s.executed t (l.issue + l.rel) (l.doneAt + 1)
          late ≠ 0 → s'.rd .tilCountReleaseLate t = BitVec.ofNat 64
            (satAdd32 (s.rd .tilCountReleaseLate t).toNat late))) ∧
     (s.arrived id .ack = some p → Gives (.ack id) s fun s' =>
       (s'.grp p.at_ p.group).rstOut = (s.grp p.at_ p.group).rstOut.filter (· ≠ p.serial) ∧
       (s'.grp p.at_ p.group).v = (s.grp p.at_ p.group).v ∧ s'.sram = s.sram ∧ s'.regs = s.regs) ∧
     (s.arrived id .nack = some p → (s.grp p.at_ p.group).rstOut.contains p.serial = true → Gives (.nack id) s fun s' =>
       (s'.grp p.at_ p.group).st = .trapped ∧
       s'.rd .tgpTrap p.at_ p.group = BitVec.ofNat 64 (6 * 65536 + p.pc % 65536) ∧
       s'.rd .tgpTrapAddr p.at_ p.group = BitVec.ofNat 64 p.full ∧ s'.sram = s.sram))

/-- CONTROL_SPACE_READ of the block at offset 0, no lane reading an unlisted offset: space 3 answers the station's watch,
period and cap as the field latched them, space 2 of the own field its phase word, N, watch and power status (R905). -/
def Obligations.ControlSpaceReads : Prop :=
  ∀ (s : State) (id : Nat) (p : Packet), s.arrived id .rload = some p → p.full % 65536 = 0 →
    s.storeFull p.at_ = false →
    let f := fieldOf p.at_
    let x := s.fld f
    let sp := addrSpace p.full
    (∀ l ∈ (s.til p.src).loads, (l.waiting.any fun w => w.1 = p.sslot) = true → ∀ e ∈ l.lanes, e.2 / 64 = p.full / 64 →
      (s.controlWord f sp (e.2 % 65536)).isSome = true) →
    (sp = 3 → bits p.full 59 16 = 0 → Gives (.controlSpaceRead id) s fun s' =>
      (∃ q ∈ s'.packets, q.ty = .rdata ∧ q.dest = p.src ∧ (q.body.take 4).map (·.w) =
        [BitVec.ofNat 32 x.stnWatch, BitVec.ofNat 32 (x.stnWatch / 2 ^ 32), BitVec.ofNat 32 x.stnPeriod,
         BitVec.ofNat 32 x.stnCap]) ∧ s'.sram = s.sram) ∧
    (sp = 2 → fieldOf (addrTile p.full) = f → Gives (.controlSpaceRead id) s fun s' =>
      (∃ q ∈ s'.packets, q.ty = .rdata ∧ q.dest = p.src ∧ (q.body.take 4).map (·.w) =
        [BitVec.ofNat 32 (s.bcnPhaseWord f), BitVec.ofNat 32 x.nCycles, BitVec.ofNat 32 x.watch,
         BitVec.ofNat 32 (x.watch / 2 ^ 32)]) ∧ s'.sram = s.sram)

/-- LIGHT_LIST_WRITE by a Keeper in drain mode writes a sector's entry where no WAFER entry stands; a WAFER entry goes into both
copies, where no sector's entry stands; by another requester it changes no entry (R351, R353, R364). EPOCH_ARM by a Keeper, at most
256 watches ahead, with no flip of the epoch group armed or in progress, arms the flip of each of the group's sectors; one refused for
such a flip changes nothing (R366, R367). A flush asked for by the Keeper empties an in-slot's queue and counts in CHN_COUNT_FLUSH, also at an out-slot;
asked for without the right it changes no slot (R277 to R280, R871). WAFER_ENTRY_REWRITE writes an entry with its WAFER bit into both
copies where the router's field runs with its Keeper and no sector's entry stands, and nothing else (R351, R849). -/
def Obligations.LightListsAndFlush : Prop :=
  (∀ (s : State) (f t k : Nat) (entry : BitVec 64), isTile t = true → f < 64 → k < 32 → (s.fld (fieldOf t)).fogged = false →
     s.flag F.fkpStatus_restarting (fieldOf t) = false →
     (∀ j ∈ [k, k + 32], s.flag F.mshLlEntry_valid t j = true → s.flag F.mshLlEntry_wafer t j = true) →
     Gives (.waferEntryRewrite f [(t, k, entry)]) s fun s' =>
       (∀ j ∈ [k, k + 32], s'.rd .mshLlEntry t j = entry ||| BitVec.ofNat 64 (2 ^ 28)) ∧
       (∀ r u i, (r, u, i) ≠ (Reg.mshLlEntry, t, k) → (r, u, i) ≠ (Reg.mshLlEntry, t, k + 32) → s'.rd r u i = s.rd r u i) ∧
       s'.sram = s.sram ∧ s'.packets = s.packets) ∧
  (∀ (s : State) (n t k f watchLow : Nat) (req : Requester) (value : BitVec 64),
     (let stands (wafer : Bool) : Prop := ∃ j ∈ [k % 32, k % 32 + 32],
        s.flag F.mshLlEntry_valid t j = true ∧ s.flag F.mshLlEntry_wafer t j = wafer
      t < 589824 → k < 64 →
       (value.getLsbD 28 = false → ¬ stands true → s.drainModeOk t = true →
         Gives (.lightListWrite (.keeper n) t k value) s fun s' =>
           s'.rd .mshLlEntry t k = value ∧ (∀ r u i, (r, u, i) ≠ (Reg.mshLlEntry, t, k) → s'.rd r u i = s.rd r u i) ∧
           s'.sram = s.sram) ∧
       (value.getLsbD 28 = true → ¬ stands false → Gives (.lightListWrite (.keeper n) t k value) s fun s' =>
         (∀ j ∈ [k % 32, k % 32 + 32], s'.rd .mshLlEntry t j = value) ∧
         (∀ r u i, (r, u, i) ≠ (Reg.mshLlEntry, t, k % 32) → (r, u, i) ≠ (Reg.mshLlEntry, t, k % 32 + 32) →
           s'.rd r u i = s.rd r u i) ∧ s'.sram = s.sram)) ∧
     (t < 589824 → (∀ m, req ≠ .keeper m) → Gives (.lightListWrite req t k value) s fun s' =>
       (∀ u i, s'.rd .mshLlEntry u i = s.rd .mshLlEntry u i) ∧ s'.sram = s.sram) ∧
     (f < 64 →
       let sec := s.gf F.mshSectorSel_sector f
       let group := s.epochGroup f sec
       ((∃ k ∈ group, s.flag F.mshEpoch_armed f k = true ∨ s.flipping f k = true) →
         Gives (.epochArm (.keeper n) f watchLow) s fun s' => s'.regs = s.regs ∧ s'.fields = s.fields ∧ s'.sram = s.sram) ∧
       ((watchLow % 65536 + 65536 - (s.fld f).watch % 65536) % 65536 ≤ 256 → s.fieldDown f = false →
         (watchLow % 65536 ≠ (s.fld f).watch % 65536 ∨ ((s.fld f).phase ≠ .handover ∧ (s.fld f).phase ≠ .rest)) →
         (∀ k ∈ group, s.flag F.mshEpoch_armed f k = false ∧ s.flipping f k = false) →
         Gives (.epochArm (.keeper n) f watchLow) s fun s' =>
           (∀ k ∈ group, s'.gf F.mshEpoch_armed f k = 1 ∧ s'.gf F.mshEpochCtl_watch_low f k = watchLow % 65536 ∧
             s'.gf F.mshEpoch_current f k = s.gf F.mshEpoch_current f k) ∧ s'.sram = s.sram))) ∧
  (∀ (s : State) (n t k : Nat), t < 589824 → k < 32 →
     Gives (.flush (.keeper n) t k) s (fun s' =>
       (k < 16 → (s'.slot t k).queue = []) ∧
       s'.rd .chnCountFlush t k = BitVec.ofNat 64 (satAdd32 (s.rd .chnCountFlush t k).toNat 1) ∧ s'.sram = s.sram) ∧
     ∀ req, s.right req 1 (fieldOf t) = false → (∀ m, req ≠ .keeper m) → Gives (.flush req t k) s fun s' =>
       s'.slots = s.slots ∧ s'.packets = s.packets ∧ s'.sram = s.sram)

/-! ### Buoys -/

/-- How the operations that meet at a buoy in one application cycle combine (R384 to R386): on a COUNT or BARRIER buoy the
lowest input's SET stands alone, else the ADDs go onto the count, or onto 0 after a CLEAR, clamped to 0 … 16,777,215; a
FLAG becomes 1 by a non-zero SET or ADD and 0 by a CLEAR; a LATCH that is not 0 keeps its count but for a Keeper's CLEAR. -/
def Obligations.BuoyCombination : Prop :=
  ∀ (kind old : Nat) (clear keeper : Bool) (adds : List Int) (v : Nat),
    (kind < 2 → (combineCount kind old clear keeper adds (some v)).1 = v) ∧
    (kind < 2 → ((combineCount kind old clear keeper adds none).1 : Int) =
      max 0 (min 16777215 ((if clear then 0 else (old : Int)) + adds.sum))) ∧
    (combineCount 2 old clear keeper adds (some v)).1 = (if v = 0 then 0 else 1) ∧
    (combineCount 2 old clear keeper adds none).1 =
      (if ∃ a ∈ adds, a ≠ 0 then 1 else if clear = true then 0 else old) ∧
    (old ≠ 0 → (combineCount 3 old clear false adds (some v)).1 = old ∧
      (combineCount 3 old clear false adds none).1 = old) ∧
    (combineCount 3 old true true adds none).1 = 0

/-- BUOY_OP: an operation for its own field's block waits there for its application cycle, under its input; one for
the station leaves on the trunk. BUOY_TRUNK_PACKET delivers the oldest trunk operation to a block that answers, as
input 36. BUOY_UNREACHABLE answers the oldest forwarded operation UNREACHABLE, 2,048 ticks after it left (R387, R389,
R399, R409). BUOY_NOTICE of this watch fills the group's latch, or spoils it and withholds the tile's end-of-work;
BUOY_ACK counts the operation as performed (R392, R397, R408). -/
def Obligations.BuoyTransportAndReplies : Prop :=
  (∀ (s : State) (id b : Nat) (p : Packet) (m : BuoyMsg) (src dst at_ : Nat) (rest : List TrunkMsg)
     (fs : List (BuoyMsg × Nat)),
     let f := fieldOf p.at_
     let m' : BuoyMsg := { m with epoch := p.epoch, parity := p.parity, sector := p.sector }
     (s.arrived id .buoyOp = some p → p.far = none → p.buoy = some m → m.reserved = false →
       (∀ e ∈ (s.blk f).far, (e.1, e.2.1) ≠ (p.src, p.group)) →
       (m.block ≠ 64 → Gives (.buoyOp id) s fun s' =>
         (s'.blk f).arrived = (s.blk f).arrived ++ [(bayInField (bayOf p.src), { m' with block := f })] ∧
         s'.pkt id = none ∧ s'.buoys = s.buoys ∧ s'.sram = s.sram) ∧
       (m.block = 64 → f < 64 → Gives (.buoyOp id) s fun s' =>
         s'.trunk = s.trunk ++ [.op m' f 64] ∧ s'.pkt id = none ∧ s'.buoys = s.buoys ∧ s'.sram = s.sram)) ∧
     (s.trunk = .op m src dst :: rest → (dst = 64 ∨ s.fieldDown dst = false) → Gives .buoyTrunkPacket s fun s' =>
       s'.trunk = rest ∧ (s'.blk dst).arrived = (s.blk dst).arrived ++ [(36, m)] ∧ s'.buoys = s.buoys) ∧
     (b < 64 → (s.blk b).forwarded = (m, at_) :: fs → Gives (.buoyUnreachable b) s fun s' =>
       (s'.blk b).forwarded = fs ∧ at_ + 2048 ≤ s'.now ∧ s'.buoys = s.buoys ∧
       ∃ q ∈ s'.packets, q.dest = m.tile ∧ q.group = m.group ∧ q.status = 3)) ∧
  (∀ (s : State) (id : Nat) (p : Packet), p.parity = s.parity (fieldOf p.at_) →
     (s.arrived id .buoyNotice = some p → Gives (.buoyNotice id) s fun s' =>
       (s'.grp p.at_ p.group).latch = (if p.status = 0 then .met else .refused) ∧
       (p.status ≠ 0 → (s'.til p.at_).withhold = true) ∧ (s'.grp p.at_ p.group).pc = (s.grp p.at_ p.group).pc ∧
       s'.sram = s.sram ∧ s'.regs = s.regs) ∧
     (s.arrived id .buoyAck = some p → (∀ m, p.buoy = some m → m.op ≠ .landing) → Gives (.buoyAck id) s fun s' =>
       (s'.grp p.at_ p.group).opsOut = (s.grp p.at_ p.group).opsOut - 1 ∧
       (p.status = 1 ∨ p.status = 3 → (s'.til p.at_).withhold = true) ∧ s'.sram = s.sram ∧ s'.regs = s.regs))

/-- BUOY_APPLY of one waiting ADD, SET or CLEAR that is neither late nor refused gives its buoy the combined count and
leaves every other buoy alone; a late one changes no buoy and counts (R384 to R386, R405). -/
def Obligations.BuoyApplies : Prop :=
  ∀ (s : State) (b input : Nat) (m : BuoyMsg), b < 65 → (b < 64 → (s.fld b).fogged = false) →
    (s.blk b).arrived = [(input, m)] → (m.op = .add ∨ m.op = .set ∨ m.op = .clear) →
    (s.buoyLate b m = false → s.buoyBad b m = false → Gives (.buoyApply b) s fun s' =>
      (s'.buoy b m.index).count = (combineCount (s.buoyKind b m.index) (s.buoy b m.index).count (decide (m.op = .clear)) false
        (if m.op = .add then [toSigned 24 m.operand] else []) (if m.op = .set then some m.operand else none)).1 ∧
      (∀ c i, (c, i) ≠ (b, m.index) → s'.buoy c i = s.buoy c i) ∧ (s'.blk b).arrived = [] ∧ s'.sram = s.sram ∧
      s'.groups = s.groups) ∧
    (s.buoyLate b m = true → Gives (.buoyApply b) s fun s' =>
      s'.buoys = s.buoys ∧ (s'.blk b).arrived = [] ∧
      s'.rd .buyCountLate b = BitVec.ofNat 64 (satAdd32 (s.rd .buyCountLate b).toNat 1) ∧ s'.sram = s.sram)

/-- Keeper operations on a buoy of the block: ADD, SET and CLEAR take BUY_KOP_ARG at once by the rules for combination (R386), and SET and
CLEAR clear POISON; without the right nothing changes (R406, R410, R412). -/
def Obligations.KeeperBuoyOperations : Prop :=
  ∀ (s : State) (n b i : Nat) (req : Requester), b < 65 → i < (if b = 64 then 256 else 1024) →
    let v := s.gf F.buyKopArg_operand b
    let old := (s.buoy b i).count
    let k := s.buoyKind b i
    Gives (.buyKopAdd (.keeper n) b i) s (fun s' =>
      (s'.buoy b i).count = (combineCount k old false true [toSigned 24 v] none).1 ∧ s'.sram = s.sram) ∧
    Gives (.buyKopSet (.keeper n) b i) s (fun s' =>
      (s'.buoy b i).count = (combineCount k old false true [] (some v)).1 ∧ (s'.buoy b i).poison = false ∧
      s'.sram = s.sram) ∧
    Gives (.buyKopClear (.keeper n) b i) s (fun s' =>
      (s'.buoy b i).count = (combineCount k old true true [] none).1 ∧ (s'.buoy b i).poison = false ∧
      s'.sram = s.sram) ∧
    ((∀ m, req ≠ .keeper m) → s.right req 1 b = false → Gives (.buyKopSet req b i) s fun s' => s'.buoys = s.buoys)

/-! ### Steering -/

namespace Sys2Proof.Claims

/-- Output slot `o` can hold an item of `n` words (R324). -/
def Fits (s : State) (t n o : Nat) : Prop := n ≤ s.outLimit t o

/-- The marker of a firing: that of its control word and of every word of its item, as the tile sees them (R313, R548). -/
def firingMarker (s : State) (t : Nat) (x : Firing) : Marker :=
  (s.combineAll (s.sectorOf t) ((((x.ctl.bind fun k => (s.slot t k).queue.head?).toList.map (·.mark)) ++
    ((x.src.bind fun k => s.itemAt t k).getD []).map (·.mark)).map (viewMark (s.til t).view))).1

/-- The queue a firing leaves in in-slot `j`, each word with its tail mark: its control word popped, the item's words pushed at
the outputs, the item gone from its own slot unless later emissions still need it (R304, R305, R311). -/
def firedQueue (s : State) (t : Nat) (x : Firing) (lost : Bool) (j : Nat) : List (Word × Bool) :=
  let item := (x.src.bind fun k => s.itemAt t k).getD []
  let q := (s.slot t j).queue.map fun w => (w.w, w.tail)
  let q := if x.ctl = some j then q.drop 1 else q
  let q := if lost = false ∧ x.src ≠ none ∧ j ∈ x.outs then q ++ item.map (fun w => (w.value, w.tail)) else q
  if x.src = some j ∧ (lost = true ∨ x.keep = false) then q.drop item.length else q

/-- The steering commands, each with the operation it carries out and the ORDER it asks for (R299, R309). -/
def steerOps (t r : Nat) : List (Instr × Nat × Option Nat) :=
  [(.pass t r, 0, none), (.fork t r, 1, none), (.switch t r, 2, none), (.mergeOrdered t r, 3, some 0),
   (.mergeArrival t r, 3, some 1), (.gate t r, 4, none), (.loop t r, 5, none), (.rate t r, 6, none)]

end Sys2Proof.Claims

/-- What an enabled rule does outside a drain, its data item complete at its in-slot and no longer than its outputs can ever take (R309
to R311, R324): PASS moves it to the output, FORK to every output, SWITCH to the output the control word names, MERGE the
item of the input the word names or the earliest, GATE moves it or, at 0, discards it; LOOP begins with its trips and
counts them down; RATE emits (acc + n) / m copies. PASS, FORK, SWITCH, MERGE, GATE, LOOP and RATE carry out their
rule's firing when the unit's scan has come to it (R302 to R306, R310, R311), in an executed cycle of WORK or SETTLE (R144, R307) in
which its inputs are complete and every output has room (R300, R303): the control word is consumed, the item
moves to the outputs or, discarded or DEAD, only leaves; LOOP and RATE keep what the firing leaves. Memory and groups
are untouched. A firing is one command with all its moves: the model's choice (log 27). -/
def Obligations.SteeringRules : Prop :=
  (∀ (s : State) (t r k c o : Nat) (w : Word) (q : List QWord) (ins : List Nat),
     s.flag F.strRule_enable t r = true → s.isDraining (fieldOf t) (s.sectorOf t) = false → s.ruleIns t r = k :: ins →
     s.itemAt t k = some q →
     let op := s.gf F.strRule_op t r
     let outs := s.ruleOuts t r
     let n := q.length
     (op = 0 → outs.head? = some o → Fits s t n o → s.ruleReady t r = some { src := some k, outs := [o] }) ∧
     (op = 1 → outs ≠ [] → (∀ o ∈ outs, Fits s t n o) → s.ruleReady t r = some { src := some k, outs := outs }) ∧
     (op = 2 → s.controlAt t r = .word c w →
       (outs[w.toNat % 4]? = some o → Fits s t n o →
         s.ruleReady t r = some { ctl := some c, src := some k, outs := [o] }) ∧
       (outs[w.toNat % 4]? = none →
         s.ruleReady t r = some { ctl := some c, src := some k, discard := true, fault := some 1 })) ∧
     (op = 3 → s.gf F.strRule_order t r ≠ 1 → s.controlAt t r = .word c w → w.toNat % 4 = 0 → outs.head? = some o →
       Fits s t n o → s.ruleReady t r = some { ctl := some c, src := some k, outs := [o] }) ∧
     (op = 3 → s.gf F.strRule_order t r = 1 → (∀ j ∈ ins, ∀ p, s.itemAt t j = some p →
         (q.getLast?.map (·.stamp)).getD 0 ≤ (p.getLast?.map (·.stamp)).getD 0) → outs.head? = some o →
       Fits s t n o → s.ruleReady t r = some { src := some k, outs := [o] }) ∧
     (op = 4 → s.controlAt t r = .word c w →
       (w = 0 → s.ruleReady t r = some { ctl := some c, src := some k, discard := true }) ∧
       (w ≠ 0 → outs.head? = some o → Fits s t n o →
         s.ruleReady t r = some { ctl := some c, src := some k, outs := [o] })) ∧
     (op = 5 → (s.rule t r).active = false → s.flag F.strRule_ctl_en t r = false →
       let trips := s.gf F.strRuleParam_trips t r
       (trips ≠ 0 → outs[0]? = some o → Fits s t n o →
         s.ruleReady t r = some { src := some k, outs := [o], loop := some (true, trips - 1) }) ∧
       (trips = 0 → outs[1]? = some o → Fits s t n o →
         s.ruleReady t r = some { src := some k, outs := [o], loop := some (false, 0) })) ∧
     (op = 6 → (s.rule t r).left = 0 →
       let m := s.gf F.strRuleParam_rate_m t r + 1
       let a := (s.rule t r).acc + s.gf F.strRuleParam_rate_n t r + 1
       (a < m → s.ruleReady t r = some { src := some k, discard := true, acc := some a }) ∧
       (m ≤ a → outs.head? = some o → Fits s t n o → s.ruleReady t r = some
         { src := some k, outs := [o], keep := decide (1 < a / m), acc := some (a % m), left := a / m - 1 }))) ∧
  (∀ (s : State) (t r c : Nat) (x : Firing), t < 589824 → s.steerActive t = true → s.ruleReady t r = some x →
     s.nextRule t = some (r, c) → x.outs.Nodup → (∀ p ∈ s.packets, p.id < s.nextPkt) →
     (∀ o ∈ x.outs, o < 16 → s.drainDiscards t o (s.sectorOf t) = false ∧ (s.gf F.chnSlotCfg_landing t o = 1 →
       s.landFails t o 0 ((x.src.bind fun k => s.itemAt t k).getD []).length (firingMarker s t x) = false)) →
     512 ≤ c ∧ c < (s.fld (fieldOf t)).nCycles - 256 ∧ s.inputsFrom t r x ≤ c ∧ ∀ e ∈ steerOps t r, s.gf F.strRule_op t r = e.2.1 →
       (∀ o, e.2.2 = some o → s.gf F.strRule_order t r = o) →
       let lost : Bool := x.discard || decide (firingMarker s t x = .dead)
       let item := (x.src.bind fun k => s.itemAt t k).getD []
       Gives e.1 s fun s' =>
         (∀ j, j < 16 → (s'.slot t j).queue.map (fun w => (w.w, w.tail)) = firedQueue s t x lost j) ∧
         (lost = false → x.src ≠ none → ∀ o ∈ x.outs, 16 ≤ o → ∃ p ∈ s'.packets, p.ty = .item ∧ p.st = .buffered ∧ p.src = t ∧
           p.sslot = o - 16 ∧ p.dest = s.gf F.chnSlotDest_tile t o ∧ p.mark = firingMarker s t x ∧
           p.body.map (·.w) = item.map QWord.value) ∧
         (lost = true → x.src ≠ none →
           s'.rd .strCountDiscard t r = BitVec.ofNat 64 (satAdd32 (s.rd .strCountDiscard t r).toNat 1)) ∧
         (lost = false → x.src ≠ none → s'.rd .strCountWords t r =
           BitVec.ofNat 64 (satAdd32 (s.rd .strCountWords t r).toNat (item.length * x.outs.length))) ∧
         (∀ a n, x.loop = some (a, n) → firingMarker s t x ≠ .dead →
            (s'.rule t r).active = a ∧ (s'.rule t r).r = n) ∧
         (x.loop = none → (s'.rule t r).active = (s.rule t r).active ∧ (s'.rule t r).r = (s.rule t r).r) ∧
         (s'.rule t r).acc = x.acc.getD (s.rule t r).acc ∧ (s'.rule t r).left = (if lost then 0 else x.left) ∧
         s'.sram = s.sram ∧ s'.groups = s.groups ∧ s'.fst = s.fst)

/-! ### Speculation -/

/-- TAG_OP of one message of this watch at the home, in WORK or SETTLE (R544, R545, R562): SQUASH squashes a tag that is not COMMITTED; CONFIRM
commits a FREE or OPEN tag without unresolved ancestor and holds one with such; an open opens a FREE one; other sectors'
tags stay. RESOLUTION (R557, R563, R564): committed, each held line's masked bytes reach local store and nothing else does;
squashed, the lines and queued words of the tag go and memory stays. SPEC_SWEEP: all 16 tags end COMMITTED or SQUASHED
(R566). -/
def Obligations.TagsResolve : Prop :=
  (∀ (s : State) (f : Nat) (m : TagMsg), f < 64 → ((s.fld f).phase = .work ∨ (s.fld f).phase = .settle) → s.tagMsgsTo f = [m] → m.parity = s.parity f → m.tag < 16 →
    Gives (.tagOp f) s fun s' =>
      let old := s.tagSt m.sector m.tag
      let up : Bool := (s.ancestors m.sector 4 m.tag).any fun a => decide (a ≠ m.tag) && (s.tagSt m.sector a).unresolved
      m ∉ s'.tagMsgs ∧ (∀ sec k, sec ≠ m.sector → s'.tagSt sec k = s.tagSt sec k) ∧
      (m.op = .squash → s'.tagSt m.sector m.tag = if old = .committed then .committed else .squashed) ∧
      (m.op = .confirm → old = .free ∨ old = .open_ →
        s'.tagSt m.sector m.tag = if up then .held else .committed) ∧
      (m.op = .open_ → s'.tagSt m.sector m.tag = if old = .free then .open_ else old) ∧ s'.sram = s.sram) ∧
  (∀ (s : State) (t tag : Nat), t < 589824 → tag < 16 →
    mget .free (s.til t).view tag ≠ .committed → mget .free (s.til t).view tag ≠ .squashed →
    (∀ a ∈ s.ancestors (s.sectorOf t) 4 tag, a ≠ tag →
      mget .free (s.til t).view a = .committed ∨ mget .free (s.til t).view a = .squashed) →
    let lines := (s.til t).shadow.filter fun e => e.2.tag = tag
    (s.tagSt (s.sectorOf t) tag = .committed → (∀ e ∈ lines, e.2.op = none ∧ e.2.bad = 0) →
      (lines.map (·.2.block)).Nodup → Gives (.resolution t tag) s fun s' =>
        (∀ e ∈ lines, ∀ b, b < 64 → e.2.mask.testBit b = true →
          s'.sramByte t (e.2.block * 64 + b) = mget 0 e.2.data b) ∧
        (∀ a, (∀ e ∈ lines, ∀ b, b < 64 → e.2.mask.testBit b = true → a ≠ sramAddr t (e.2.block * 64 + b)) →
          memRead s'.sram a = memRead s.sram a) ∧
        (∀ e ∈ (s'.til t).shadow, e.2.tag ≠ tag) ∧ mget .free (s'.til t).view tag = .committed) ∧
    (s.tagSt (s.sectorOf t) tag = .squashed → Gives (.resolution t tag) s fun s' =>
        s'.sram = s.sram ∧ (∀ e ∈ (s'.til t).shadow, e.2.tag ≠ tag) ∧ mget .free (s'.til t).view tag = .squashed ∧
        ∀ k, k < 16 → ∀ q ∈ (s'.slot t k).queue, q.mark ≠ .tag tag)) ∧
  (∀ (s : State) (f sec : Nat), f < 64 → (s.fld f).phase = .settle → s.homeOf sec = f →
    (s.fld f).swept.contains sec = false → (s.sectorsIn f).contains sec = true → Gives (.specSweep f sec) s fun s' =>
      (∀ k, k < 16 → s'.tagSt sec k = .committed ∨ s'.tagSt sec k = .squashed) ∧
      (∀ b k, b ≠ sec → s'.tagSt b k = s.tagSt b k) ∧ (s'.fld f).swept.contains sec = true ∧ s'.sram = s.sram)

/-! ### Drains -/

/-- DRAIN_START by a Keeper in WORK puts the sector into draining and STR_DRAIN_STATUS at 1, by another it changes no slot and
no field (R315, R316); DRAIN_COMPLETE of an empty sector quiesces it, STATE 2 (R317); DRAIN_TIMEOUT of one not empty gives
STATE 3 no earlier than its bound and empties its in-slots (R322). -/
def Obligations.DrainsRun : Prop :=
  ∀ (s : State) (req : Requester) (n f sec c0 : Nat), f < 64 → sec < 4096 →
    ((s.fld f).phase = .work → s.isDraining f sec = false → s.isQuiesced f sec = false →
      Gives (.drainStart (.keeper n) f sec) s fun s' => s'.isDraining f sec = true ∧
        s'.gf F.strDrainStatus_state f = 1 ∧ s'.gf F.strDrainStatus_sector f = sec ∧ s'.sram = s.sram) ∧
    ((∀ k, req ≠ .keeper k) → Gives (.drainStart req f sec) s fun s' => s'.fields = s.fields ∧ s'.slots = s.slots ∧
      s'.regs = s.regs ∧ s'.sram = s.sram) ∧
    (s.isDraining f sec = true → s.sectorEmpty f sec = true → Gives (.drainComplete f sec) s fun s' =>
      s'.isDraining f sec = false ∧ s'.isQuiesced f sec = true ∧ s'.gf F.strDrainStatus_state f = 2 ∧
      s'.slots = s.slots ∧ s'.sram = s.sram) ∧
    ((s.fld f).draining.find? (fun e => e.1 = sec) = some (sec, c0) → s.sectorEmpty f sec = false →
      ¬(s.gf F.strDrainStatus_state f = 3 ∧ s.gf F.strDrainStatus_sector f = sec) →
      Gives (.drainTimeout f sec) s fun s' => s'.gf F.strDrainStatus_state f = 3 ∧
        cycleInstant (s.fld f) (c0 + s.drainBound f sec) ≤ s'.now ∧ s'.isDraining f sec = true ∧
        (∀ t ∈ s.sectorTiles f sec, ∀ k, k < 16 → s.flag F.chnSlotCfg_enable t k = true →
          (s'.slot t k).queue = []) ∧ s'.sram = s.sram)

/-! ### Field store -/

/-- FIELD_STORE_REQUEST of this watch, outside INTAKE, at a field that is not fogged waits at its bay port where a
region admits it; refused, it is answered RFAIL or NACK and counted (R505 to R508). FIELD_STORE_BANK_ACCESS serves the
port whose turn it is: a load of intact words answers the 16 words as its sector reads them; a store into a SCRATCH
region writes the bytes of its mask at once and no other, one into a COMMITTED region only enters the journal (R502,
R509 to R513). JOURNAL_APPLY writes the bytes of the field's next committed entry to field store, no others, and frees
the entry (R512). FST_SCRUB marks a word in which it meets an uncorrectable error and sets POISON, counts a corrected
one, and changes no byte (R514, R539). What scrub meets is an operand, and a word with one bit in error a mark of
State: the model's choices (log 28). -/
def Obligations.FieldStoreAndJournal : Prop :=
  (∀ (s : State) (id f bank waited b r : Nat) (p : Packet) (rest : List Nat) (ps : List Packet),
     (s.fsArrived id = some p → addrSpace p.full = 1 → (s.fld (fieldOf p.at_)).fogged = false → s.stalePacket p = false →
       (p.ty = .rload → s.storeFull p.at_ = false) →
       fsAddrOk (fieldOf p.at_) p.full = true → (s.fld (fieldOf p.at_)).phase ≠ .intake →
       (s.fsAdmits (fieldOf p.at_) p = true → Gives (.fieldStoreRequest id) s fun s' =>
         mget [] s'.bayQueues (bayOf p.at_) = mget [] s.bayQueues (bayOf p.at_) ++ [p] ∧ s'.pkt id = none ∧
         s'.fst = s.fst ∧ s'.journal = s.journal) ∧
       (s.fsAdmits (fieldOf p.at_) p = false → Gives (.fieldStoreRequest id) s fun s' =>
         (∃ q ∈ s'.packets, q.ty = (if p.ty = .rload then .rfail else .nack) ∧ q.dest = p.src) ∧
         s'.rd .fstCountRefused (fieldOf p.at_) =
           BitVec.ofNat 64 (satAdd32 (s.rd .fstCountRefused (fieldOf p.at_)).toNat 1) ∧
         s'.bayQueues = s.bayQueues ∧ s'.fst = s.fst ∧ s'.journal = s.journal)) ∧
     (f < 64 → (s.fld f).fogged = false → scrubSlot bank (s.cycle f) = false →
       (∀ e ∈ s.journal, e.field = f → e.committed = true → bankOf (e.block * 64) ≠ bank) →
       s.bankTurn f bank = b :: rest → mget [] s.bayQueues b = p :: ps →
       let off := p.full % 2 ^ 26 / 64 * 64
       (p.ty = .rload → (∀ j, j < 16 → (s.seeWord f (some p.sector) (off + 4 * j)).bad = false) →
         Gives (.fieldStoreBankAccess f bank waited) s fun s' =>
           (∃ q ∈ s'.packets, q.ty = .rdata ∧ q.dest = p.src ∧ q.sslot = p.sslot ∧ q.gen = p.gen ∧ q.body.map (·.w) =
             (List.range 16).map fun j => (s.seeWord f (some p.sector) (off + 4 * j)).w) ∧
           mget [] s'.bayQueues b = ps ∧ s'.fst = s.fst ∧ s'.journal = s.journal) ∧
       (p.ty ≠ .rload → s.regionFor f p.sector off 64 = some r → s.regionKind f r = 0 →
         Gives (.fieldStoreBankAccess f bank waited) s fun s' =>
           (∀ j, j < 64 → p.mask.testBit (j / 4) = true →
             s'.fstByte f (off + j) = byteOf (p.body.getD (j / 4) { w := 0 }).w (j % 4)) ∧
           (∀ a, (∀ j, j < 64 → p.mask.testBit (j / 4) = true → a ≠ fstAddr f (off + j)) →
             memRead s'.fst a = memRead s.fst a) ∧
           (∃ q ∈ s'.packets, q.ty = .ack ∧ q.dest = p.src ∧ q.serial = p.serial) ∧
           mget [] s'.bayQueues b = ps ∧ s'.journal = s.journal) ∧
       (p.ty ≠ .rload → s.regionFor f p.sector off 64 = some r → s.regionKind f r = 1 → s.beforeCommit f = true →
         s.ownEntry f p.sector (off / 64) = none → s.quotaUsed f r < s.gf F.fstRegionCfg_quota f r →
         Gives (.fieldStoreBankAccess f bank waited) s fun s' =>
           (∃ e, s'.journal = s.journal ++ [e] ∧ e.field = f ∧ e.sector = p.sector ∧ e.block = off / 64 ∧
             e.committed = false ∧ ∀ j, j < 64 → p.mask.testBit (j / 4) = true →
               mget 0 e.data j = byteOf (p.body.getD (j / 4) { w := 0 }).w (j % 4)) ∧
           (∃ q ∈ s'.packets, q.ty = .ack ∧ q.dest = p.src ∧ q.serial = p.serial) ∧ s'.fst = s.fst))) ∧
  (∀ (s : State) (f bank line w : Nat) (e : JEntry), f < 64 → (s.fld f).fogged = false →
     (s.journal.find? (fun e => e.field = f && e.committed) = some e → Gives (.journalApply f) s fun s' =>
       (∀ j, j < 64 → e.mask.testBit j = true → s'.fstByte f (e.block * 64 + j) = mget 0 e.data j) ∧
       (∀ a, (∀ j, j < 64 → e.mask.testBit j = true → a ≠ fstAddr f (e.block * 64 + j)) →
         memRead s'.fst a = memRead s.fst a) ∧ s'.journal = s.journal.erase e ∧ s'.sram = s.sram) ∧
     (bank < 32 → line < 16384 → w < 16 →
       Gives (.fstScrub f bank line (some (w, true))) s (fun s' =>
         s'.fstMarked f (line * 4096 + bank * 128 + w * 8) = true ∧ s'.flag F.fstStatus_poison f = true ∧
         s'.fst = s.fst ∧ s'.journal = s.journal) ∧
       Gives (.fstScrub f bank line (some (w, false))) s fun s' =>
         let weak := ((List.range 16).filter fun j => s.fstWeak.contains (fstAddr f (line * 4096 + bank * 128 + j * 8))).length
         s'.rd .fstCountEccCorr f = BitVec.ofNat 64 (satAdd32 (satAdd32 (s.rd .fstCountEccCorr f).toNat 1) weak) ∧
         s'.fst = s.fst ∧ s'.fstBad = s.fstBad ∧ s'.journal = s.journal))

/-! ### Lenses and the MV engine -/

/-- LENS_LAUNCH at a lens that takes it and has room waits in its queue, entering in the lens cycle after the next
core cycle; refused, it is answered RFAIL with LNS_STATUS.REFUSED (R431 to R433). LENS_PASS_ACCEPT moves the queue's
head to a free NEXT with the next sequence number, a load asked for where its kind loads (R434). LENS_PRELOAD asks for
the engine once a watch (R438). LENS_LOAD_COMPLETE whose reads field store serves: the engine is free, the
descriptor's panels are loaded, the planes hold the cells read (each cell's low planes its element, the higher ones as
they were), and the waiting pass is ready, or, of a load-only kind, reported DONE (R416, R435, R436, R437, R442).
Counts of waits are operands: the model's choice (log 28). -/
def Obligations.LensQueuesAndLoads : Prop :=
  (∀ (s : State) (id f lens k c : Nat) (p : Packet) (rest : List (Packet × Nat)),
     (s.arrived id .rload = some p → addrSpace p.full = 2 → 0x8000 ≤ p.full % 2 ^ 16 →
       (s.fld (fieldOf p.at_)).fogged = false → s.stalePacket p = false → s.storeFull p.at_ = false →
       let g := fieldOf p.at_
       let l := g * 4 + (launchOf p.full).1
       let d := (launchOf p.full).2
       (s.launchBad g l d p = false → (s.lens l).queue.length < 4 → Gives (.lensLaunch id) s fun s' =>
         let c := lensCycleFrom (s.fld g) (cycleInstant (s.fld g) (s.cycle g + 2))
         ((∀ e ∈ (s.lens l).queue, e.2 < c) → s'.lens l = { s.lens l with queue := (s.lens l).queue ++ [(p, c)] }) ∧
         (∀ e, (s.lens l).queue = [e] → e.2 = c → bayInField (bayOf p.src) < bayInField (bayOf e.1.src) →
           s'.lens l = { s.lens l with queue := [(p, c), e] }) ∧
         s'.pkt id = none ∧ s'.fst = s.fst ∧ s'.sram = s.sram) ∧
       (s.launchBad g l d p = true → Gives (.lensLaunch id) s fun s' => s'.lenses = s.lenses ∧
         s'.flag F.lnsStatus_refused l = true ∧ s'.fst = s.fst ∧
         ∃ q ∈ s'.packets, q.ty = .rfail ∧ q.dest = p.src ∧ q.sslot = p.sslot ∧ q.gen = p.gen)) ∧
     (f < 64 → lens < 4 → (s.fld f).fogged = false → (s.fld f).phase = .work →
       let l := f * 4 + lens
       let x := s.lens l
       (x.queue = (p, c) :: rest → x.next = none → Gives (.lensPassAccept f lens) s fun s' =>
         ∃ q, (s'.lens l).next = some q ∧ q.pkt = p ∧ q.desc = (launchOf p.full).2 ∧ q.seq = x.nextSeq ∧
           q.accept = max c x.nextFree ∧ (q.ready = true ↔ (s.lensDesc l q.desc).kind = 0) ∧
           (s'.lens l).nextSeq = x.nextSeq + 1 ∧ (s'.lens l).queue = rest ∧ (s'.lens l).exec = x.exec ∧
           (s'.lens l).planes = x.planes ∧
           ((s.lensDesc l q.desc).kind ≠ 0 → ∃ j ∈ (s'.lens l).engine, j.preload = none ∧ j.desc = q.desc ∧
             j.asked = q.accept) ∧ s'.fst = s.fst) ∧
       (k < 16 → s.flag F.lnsPreload_valid l k = true → x.preloaded.contains k = false →
         (∃ ch, s.runChar f (s.lensDesc l (s.gf F.lnsPreload_desc l k)).sector = some ch ∧
           (s.gf F.lnsPreload_chars l k).testBit ch.id = true) →
         ((s.lensDesc l (s.gf F.lnsPreload_desc l k)).kind = 1 ∨ (s.lensDesc l (s.gf F.lnsPreload_desc l k)).kind = 2) →
         s.gf F.lnsPreload_start l k < (s.fld f).nCycles → s.lensTakes l = true → Gives (.lensPreload f lens k) s fun s' =>
           (s'.lens l).preloaded = k :: x.preloaded ∧
           cycleInstant (s.fld f) (s.gf F.lnsPreload_start l k + 1) ≤ s'.now ∧
           (∃ j ∈ (s'.lens l).engine, j.preload = some k ∧ j.desc = s.gf F.lnsPreload_desc l k) ∧
           (s'.lens l).planes = x.planes ∧ s'.fst = s.fst))) ∧
  ((∀ (s : State) (l f r j v : Nat) (d : LensDesc), descFmt d.wfmt ≠ .b4 →
     s.readElem f d.sector d.waddr (r * d.n + j) (lensPlanes (descFmt d.wfmt)) = .ok v →
     v < 2 ^ lensPlanes (descFmt d.wfmt) → ∃ y, s.loadCell l f d r j = .ok y ∧
       let b := lensPlanes (descFmt d.wfmt)
       let key := (d.pset, d.rbase + r, d.cbase + j)
       mget 0 y.planes key % 2 ^ b = v ∧ mget 0 y.planes key / 2 ^ b = mget 0 (s.lens l).planes key / 2 ^ b ∧
       ∀ k, k ≠ key → mget 0 y.planes k = mget 0 (s.lens l).planes k) ∧
   ∀ (s : State) (f lens stalls accesses waits : Nat) (j : LoadJob) (js : List LoadJob), f < 64 → lens < 4 →
     (s.fld f).fogged = false → (s.fld f).phase = .work →
     let l := f * 4 + lens
     let d := s.lensDesc l j.desc
     let endAt := (s.lens l).loadEnd j d stalls
     let r := (s.loadSpent l j stalls accesses waits).loadCells l f d d.cells
     (if j.preload = none then lensInstant (s.fld f) endAt ≤ s.workEnd f
       else lensInstant (s.fld f) endAt ≤ cycleInstant (s.fld f) (s.fld f).nCycles) →
     (s.lens l).engine = j :: js → (∀ q, (s.lens l).exec = some q → d.clash (s.lensDesc l q.desc) = false) → r.2 = none →
     Gives (.lensLoadComplete f lens stalls accesses waits) s fun s' =>
       (s'.lens l).engine = js ∧ (s'.lens l).engineFree = endAt ∧ (s'.lens l).planes = (r.1.lens l).planes ∧
       (∀ p ∈ d.panels, (d.pset, p.1, p.2) ∈ (s'.lens l).loaded) ∧ lensInstant (s.fld f) endAt ≤ s'.now ∧
       (∀ q, j.preload = none → (s.lens l).next = some q → d.kind ≠ 2 → ∃ q', (s'.lens l).next = some q' ∧
         q'.ready = true ∧ q'.readyAt = endAt ∧ q'.pkt = q.pkt ∧ q'.seq = q.seq) ∧
       (∀ q, j.preload = none → (s.lens l).next = some q → d.kind = 2 → (s'.lens l).next = none ∧
         ∃ p ∈ s'.packets, p.ty = .rdata ∧ p.dest = q.pkt.src ∧ p.sslot = q.pkt.sslot ∧ (p.body.map (·.w)).take 6 =
           (passReport q.seq 0 (endAt - q.accept) q.stretched (q.stall + stalls) 0 0).map (BitVec.ofNat 32)) ∧
       s'.fst = s.fst)

/-- LENS_PASS_EXEC of a ready pass on loaded panels moves it to EXEC, on unloaded ones refuses it; LENS_PASS_COMPLETE
whose accesses field store serves leaves the results of its vectors in field store and the journal and reports DONE
with cycles, stretch, stall and saturations; an integer column is the sum of products clamped to INT32; LENS_STRETCH
counts the lens cycle in the ledgers (R420, R434, R439 to R446, R455, R456). Counts of waits are operands (log 28);
busy counts take in stretched cycles: deduced (log 40). -/
def Obligations.LensPassesRun : Prop :=
  (∀ (x : LensSt) (d : LensDesc) (acts : List Nat) (j : Nat), 0 < d.k → d.rbase + d.k ≤ 512 →
    (intColumn x d acts (fun _ => true) j).1 = clampInt int32Min int32Max
      (sumInt ((List.range d.k).map fun r => match x.weight d r j with
        | some (.fin t m _) => decodeInt (descFmt d.afmt) (acts.getD r 0) * (if t then -(m : Int) else m)
        | _ => 0))) ∧
  ∀ (s : State) (f lens stalls accesses waits : Nat) (q : LensPass), f < 64 → lens < 4 → (s.fld f).fogged = false →
    (s.fld f).phase = .work →
    let l := f * 4 + lens
    let x := s.lens l
    let d := s.lensDesc l q.desc
    (x.next = some q → x.exec = none → q.ready = true → d.kind ≠ 2 →
      (∀ j, x.engine.head? = some j → d.clash (s.lensDesc l j.desc) = false) →
      ((∀ p ∈ d.panels, (d.pset, p.1, p.2) ∈ x.loaded) → Gives (.lensPassExec f lens) s fun s' =>
        (s'.lens l).next = none ∧ (∃ q', (s'.lens l).exec = some q' ∧ q'.pkt = q.pkt ∧ q'.desc = q.desc ∧ q'.seq = q.seq ∧
          q.readyAt ≤ q'.begun ∧ x.execFree ≤ q'.begun) ∧ (s'.lens l).planes = x.planes ∧ s'.fst = s.fst) ∧
      ((∃ p ∈ d.panels, (d.pset, p.1, p.2) ∉ x.loaded) → Gives (.lensPassExec f lens) s fun s' =>
        (s'.lens l).next = none ∧ (s'.lens l).exec = none ∧ s'.flag F.lnsStatus_refused l = true ∧ s'.fst = s.fst)) ∧
    (let endAt := s.passEnd l q stalls
      let r := (s.passSpent l q stalls accesses waits).runVectors l f d (List.range d.vectors)
      lensInstant (s.fld f) endAt ≤ s.workEnd f →
      x.exec = some q → r.2.2 = none → Gives (.lensPassComplete f lens stalls accesses waits none) s fun s' =>
        (s'.lens l).exec = none ∧ (s'.lens l).execFree = endAt ∧ s'.fst = r.1.fst ∧ s'.journal = r.1.journal ∧
        lensInstant (s.fld f) endAt ≤ s'.now ∧
        (∃ p ∈ s'.packets, p.ty = .rdata ∧ p.dest = q.pkt.src ∧ p.sslot = q.pkt.sslot ∧ (p.body.map (·.w)).take 6 =
          (passReport q.seq 0 (endAt - q.accept) q.stretched (q.stall + stalls) r.2.1 (x.reservedCodes d)).map
            (BitVec.ofNat 32)) ∧ s'.sram = s.sram) ∧
    (s.lensLead l = l → (∀ k, x.lastStretch = some k → k + 8 ≤ s.lensCycle f) → Gives (.lensStretch f lens) s fun s' =>
      (s'.lens l).lastStretch = some (s.lensCycle f) ∧ (s'.lens l).stretch = x.stretch + 1 ∧
      (s'.lens l).exec.map (·.stretched) = x.exec.map (·.stretched + 1) ∧
      (s'.lens l).next.map (·.stretched) = x.next.map (·.stretched + 1) ∧ (s'.lens l).planes = x.planes ∧ s'.fst = s.fst)

/-- MV_LAUNCH taken waits in the engine's queue of 8 from two cycles on; MV_OPERATION_BEGIN gives the idle engine the
queue's head; MV_OPERATION_COMPLETE whose accesses field store serves leaves the results of its rows there and reports
DONE (R515, R520 to R523). Counts of waits are operands: the model's choice (log 28). -/
def Obligations.MvOperationsRun : Prop :=
  ∀ (s : State) (id f c seq begun stalls accesses waits : Nat) (p : Packet) (rest : List (Packet × Nat)),
    (s.arrived id .rload = some p → addrSpace p.full = 2 → 0x7000 ≤ p.full % 2 ^ 16 → p.full % 2 ^ 16 < 0x8000 →
      (s.fld (fieldOf p.at_)).fogged = false → s.stalePacket p = false → s.storeFull p.at_ = false →
      let g := fieldOf p.at_
      s.mvBad g (mvLaunchOf p.full) p = false → (s.mv g).queue.length < 8 → (∀ e ∈ (s.mv g).queue, e.2 < s.cycle g + 2) →
        Gives (.mvLaunch id) s fun s' => s'.mv g = { s.mv g with queue := (s.mv g).queue ++ [(p, s.cycle g + 2)] } ∧ s'.pkt id = none ∧ s'.fst = s.fst) ∧
    (f < 64 → (s.fld f).fogged = false → (s.fld f).phase = .work →
      ((s.mv f).queue = (p, c) :: rest → (s.mv f).exec = none → Gives (.mvOperationBegin f) s fun s' =>
        s'.mv f = { s.mv f with queue := rest, exec := some (p, (s.mv f).nextSeq, max c (s.mv f).free),
                                nextSeq := (s.mv f).nextSeq + 1 } ∧ s'.fst = s.fst) ∧
      (let d := s.mvDesc f (mvLaunchOf p.full)
        let t := d.cycles + stalls
        let r := (s.mvSpent f begun t stalls accesses waits).mvRun f d d.m
        (s.mv f).exec = some (p, seq, begun) → r.2.2.2 = none → begun + t ≤ settleStart (s.fld f) →
        Gives (.mvOperationComplete f stalls accesses waits) s fun s' =>
          (s'.mv f).exec = none ∧ (s'.mv f).free = begun + t ∧ s'.fst = r.1.fst ∧ s'.journal = r.1.journal ∧
          cycleInstant (s.fld f) (begun + t) ≤ s'.now ∧
          (∃ q ∈ s'.packets, q.ty = .rdata ∧ q.dest = p.src ∧ q.sslot = p.sslot ∧ (q.body.map (·.w)).take 6 =
            (passReport seq 0 t 0 stalls r.2.1 r.2.2.1).map (BitVec.ofNat 32)) ∧ s'.sram = s.sram))

/-! ### Staging -/

/-- CXL_READ_COMPLETE keeps a line's 16 words; poison, or CXL_MEM_TIMEOUT, fails the transfer and its region; STAGE_LANE_INJECT
sends the lane's next line to the bay port of its lane, by the outward port of its entry tile where that has room (R328); STAGE
writes the 64 bytes into the FILLING region, no others, and counts; STAGE_NOTIFY marks the field told; CXL_WRITE_COMPLETE writes the destage's next 64 bytes out (R525, R526, R529,
R530, R533, R536). That an entry tile moved off the rim is entered by its L port is the model's choice (log 109). -/
def Obligations.StagingMoves : Prop :=
  ∀ (s : State) (id k line lane stalled f port entry bay r : Nat) (data ws : List Word) (o : Order) (p : Packet)
    (d : DestageJob),
    (s.order k = some o → s.engineUp o.plan.device = true → s.orderBegun o = true →
      (line < o.plan.lines → mfind o.arrived line = none → o.plan.device < 16 → o.plan.source + 64 * line < 2 ^ 41 →
        Gives (.cxlReadComplete k line data false stalled) s (fun s' =>
          (∃ o', s'.order k = some o' ∧
            mfind o'.arrived line = some ((List.range 16).map fun j => data.getD j 0) ∧ o'.sent = o.sent) ∧
          s'.fst = s.fst ∧ s'.packets = s.packets) ∧
        Gives (.cxlReadComplete k line data true stalled) s fun s' =>
          s'.order k = none ∧ s'.gf F.fstRegionCfg_state o.plan.field o.plan.region = 3 ∧ s'.fst = s.fst) ∧
      (o.plan.lanes[lane]? = some (entry, bay) →
        let n := mget 0 o.sent lane
        let line := lane + n * o.lanes
        mfind o.arrived line = some ws → line < o.plan.lines → (∀ t, mfind o.last lane = some t → t + 128 ≤ s.now) →
        (rimPort o.plan.device entry = .l ∨ s.bufferUse { id := s.nextPkt, ty := .stage, vc := 3, dest := 0, src := entry, at_ := entry }
          entry (rimPort o.plan.device entry) = 0) →
        Gives (.stageLaneInject k lane) s fun s' =>
          (∃ q ∈ s'.packets, q.ty = .stage ∧ q.src = entry ∧ q.inPort = rimPort o.plan.device entry ∧ q.dest = bayPort (bayAt o.plan.field bay) ∧
            q.body.map (·.w) = ws ∧
            q.addr = s.gf F.fstRegionSpan_base o.plan.field o.plan.region * 4096 + (o.plan.offset + line) * 64) ∧
          (∃ o', s'.order k = some o' ∧ mget 0 o'.sent lane = n + 1) ∧ s'.fst = s.fst) ∧
      (o.plan.device = port → port < 16 → o.arrived.length < o.plan.lines →
        Gives (.cxlMemTimeout port (some k)) s fun s' =>
          s'.order k = none ∧ s'.gf F.fstRegionCfg_state o.plan.field o.plan.region = 3 ∧ s'.fst = s.fst)) ∧
    (s.order k = some o → f < 64 → o.completeAt.isSome = true → (s.fieldsOf o.sector).contains f = true →
      o.notified.contains f = false → (s.fld f).fogged = false → Gives (.stageNotify f k) s fun s' =>
        ∃ o', s'.order k = some o' ∧ o'.notified = f :: o.notified ∧ o'.completeAt = o.completeAt) ∧
    (s.arrived id .stage = some p → p.body.length = 16 → (∀ w ∈ p.body, w.bad = false) →
      let g := fieldOf p.at_
      let off := p.addr % 67108864
      s.fillingRegion g off = some r → Gives (.stage id) s fun s' =>
        (∀ j, j < 64 → s'.fstByte g (off + j) = byteOf (p.body.getD (j / 4) { w := 0 }).w (j % 4)) ∧
        (∀ a, (∀ j, j < 64 → a ≠ fstAddr g (off + j)) → memRead s'.fst a = memRead s.fst a) ∧
        s'.pkt id = none ∧ s'.sram = s.sram) ∧
    (s.destages.find? (fun d => d.plan.device = port && !d.failed) = some d → port < 16 →
      (s.fld d.plan.field).fogged = false → (s.gf F.stnStartupPorts_cxl).testBit port = true → d.plan.target + d.done_ < 2 ^ 41 →
      Gives (.cxlWriteComplete port) s fun s' =>
        s'.out = .cxlWrite port (d.plan.target + d.done_) ((List.range 16).map fun j => (s.seeWord d.plan.field none
          (s.gf F.fstRegionSpan_base d.plan.field d.plan.region * 4096 + d.plan.offset + d.done_ + 4 * j)).w) :: s.out ∧
        s'.fst = s.fst ∧ s'.sram = s.sram)

/-! ### The beacon, the watch and the planner -/

/-- STATION_BEACON: one period after the last beacon the station's watch counts on (R81, R84). FIELD_WATCH_BEGIN of a beacon that the
field, with its skew compensation, sees within 32 ns of E and within 40 ns of every other field's, the Keeper's heartbeat in order: the
field's next watch begins at that instant in INTAKE, N from the period and the core
level in force (R82, R84 to R87, R118). BEACON_MISSED: the first miss begins the next watch at E + 32 ns, coasted, a miss after a
coasted watch holds and fogs the field (R118 to R121). A write of the beacon's period while no image is loaded, or of its SETTLE length
by the Station Keeper that loads the image, waits for watch n + 2 and changes no register yet; any other is refused and logged (R88,
R89, R116). -/
def Obligations.BeaconsBeginWatches : Prop :=
  (∀ (s : State) (v begun : Nat) (img : Image) (mbox : Option Nat) (req : Requester),
     let p := bits v 19 0
     let e := s.stationWatch + 2
     (s.imageLoaded = false → (s.loadRun = none ∨ byKeeper req = true) → s.beaconStepDone = true → 10000 ≤ p → p ≤ 1000000 →
       Gives (.bcnPeriodWrite req v) s fun s' => (p, e) ∈ s'.periodWrites ∧ (∀ d ∈ s'.periodWrites, d.2 = e → d.1 = p) ∧
         (∀ d, d.2 ≠ e → (d ∈ s'.periodWrites ↔ d ∈ s.periodWrites)) ∧ s'.regs = s.regs ∧ s'.fields = s.fields) ∧
     (s.imageLoaded = true ∨ p < 10000 ∨ 1000000 < p → Gives (.bcnPeriodWrite req v) s fun s' =>
       s'.periodWrites = s.periodWrites ∧ s'.regs = s.regs ∧ Logged s s' evAccessRefused) ∧
     (s.loadRun = some { kind := .full, begun := begun, mbox := mbox } → s.candidate = some img → bits v 15 0 = img.settleLen →
       Gives (.bcnSettleLenWrite (.keeper 64) v) s fun s' => (img.settleLen, e) ∈ s'.settleDue ∧
         (∀ d ∈ s'.settleDue, d.2 = e → d.1 = img.settleLen) ∧ (∀ d, d.2 ≠ e → (d ∈ s'.settleDue ↔ d ∈ s.settleDue)) ∧
         s'.regs = s.regs ∧ s'.fields = s.fields) ∧
     (s.loadRun = none → Gives (.bcnSettleLenWrite req v) s fun s' =>
       s'.settleDue = s.settleDue ∧ s'.regs = s.regs ∧ Logged s s' evAccessRefused)) ∧
  (∀ s : State, s.flag F.bcnStatus_running = true → Gives .stationBeacon s fun s' =>
    s'.gf F.bcnWatch_watch = (s.stationWatch + 1) % 2 ^ 48 ∧ s'.lastBeacon = s.lastBeacon + s.gf F.bcnPeriod_period ∧
    s.lastBeacon + s.gf F.bcnPeriod_period ≤ s'.now ∧ s'.sram = s.sram) ∧
  (∀ (s : State) (f at_ e : Nat), f < 64 → s.awaitsBeacon f = true → (s.fld f).expectAt = some e →
    let t := at_ + s.gf F.bcnSkewComp_comp f
    Sys2Proof.Machine.dist t e ≤ 32 → s.inSkew t = true → (s.fld f).watch < s.stationWatch → s.gf F.fkpHeartbeat_watch f = (s.fld f).watch % 65536 →
    Gives (.fieldWatchBegin f at_) s fun s' =>
      let x := s.fld f
      let y := s'.fld f
      y.watch = x.watch + 1 ∧ y.phase = .intake ∧ y.startAt = t ∧ y.coast = false ∧ t ≤ s'.now ∧
      y.expectAt = some (t + s.gf F.bcnPeriod_period) ∧ y.nCycles = watchCycles (s.gf F.bcnPeriod_period) y.mhz ∧
      y.settleLen = s.gf F.bcnSettleLen_len ∧ y.stnWatch = s.stationWatch ∧ y.stnCap = s.gf F.pwrCap_cap ∧
      (x.railLate = false → ∀ p, x.nextLevel = some p → (y.mhz, y.lensMhz) = p)) ∧
  (∀ (s : State) (f e : Nat), f < 64 → s.awaitsBeacon f = true → (s.fld f).expectAt = some e →
    ((s.fld f).coast = false → Gives (.beaconMissed f) s fun s' =>
      (s'.fld f).watch = (s.fld f).watch + 1 ∧ (s'.fld f).coast = true ∧ (s'.fld f).phase = .intake ∧
      (s'.fld f).startAt = e + 32 ∧ e + 32 ≤ s'.now ∧ s'.flag F.bcnMiss_missed f = true) ∧
    ((s.fld f).coast = true → Gives (.beaconMissed f) s fun s' =>
      (s'.fld f).held = true ∧ (s'.fld f).fogged = true ∧ (s'.fld f).watch = (s.fld f).watch))

/-- WORK_BEGIN at watch cycle 512 and SETTLE_BEGIN at SETTLE's first cycle (R96 to R99): overrun are the running
sectors already void or with a tile not complete. VERDICT_VOTE records a vote sent. COMMIT_POINT: what has no void
reason commits, its journal entries become committed, those of void sectors go, field store itself stays (R98, R131,
R512). HANDOVER_BEGIN latches the energy at cycle N - 256 (R649). REST_INTERVAL_BEGIN shows the coming levels, or, the
rail late, the old ones (R647). PLANNING_ROUND, once a watch and its verdicts in: the round is noted for the watch,
every field has levels for the watch two ahead; time does not go back, and memories, tiles, groups and the watch are
as they were (R685, R686, R712). That the planning round is one command, and the cases of tiles without mask, are
deduced (log 61, 65). -/
def Obligations.WatchPhasesAndPlanning : Prop :=
  (∀ (s : State) (f g k nanojoules senseMv : Nat) (readable complete beat : Bool) (margins : List Nat), f < 64 →
     (s.fld f).held = false →
     let x := s.fld f
     (x.phase = .intake → Gives (.workBegin f) s fun s' =>
       (s'.fld f).phase = .work ∧ cycleInstant x 512 ≤ s'.now ∧ (s'.fld f).watch = x.watch ∧ s'.sram = s.sram) ∧
     (x.phase = .work → Gives (.settleBegin f) s fun s' =>
       (s'.fld f).phase = .settle ∧ cycleInstant x (settleStart x) ≤ s'.now ∧
       (∀ k, k ∈ (s'.fld f).overrun ↔ k ∈ s.running f ∧
         ((∃ v ∈ x.voids, v.1 = k) ∨ ∃ t ∈ s.sectorTiles f k, s.tileComplete t = false)) ∧
       (s'.fld f).votesSent = ((s.running f).filter s.multiField).map (fun k =>
         (k, !(s'.fld f).overrun.contains k && !x.coast && !x.railLate)) ∧ s'.sram = s.sram) ∧
     (g < 64 → (s.fld g).votesSent.find? (fun v => v.1 = k) = some (k, complete) → (s.fld g).watch = x.watch →
       (∀ v ∈ x.votes, (v.1, v.2.1) ≠ (k, g)) → Gives (.verdictVote f g k readable) s fun s' =>
         (s'.fld f).votes = x.votes ++ [(k, g, complete && readable)] ∧ s'.sram = s.sram) ∧
     (x.phase = .settle → (∀ k ∈ s.running f, s.multiField k = true → s.sweptFor f k = true) →
       Gives (.commitPoint f) s fun s' =>
         (s'.fld f).phase = .commit ∧
         (∀ k r, (k, r) ∈ (s'.fld f).voids ↔ k ∈ s.running f ∧ r = s.verdict f k ∧ r ≠ .none) ∧
         (∀ e ∈ s.journal, e.field = f → e.sector ∈ s.running f → s.verdict f e.sector = .none →
           { e with committed := true } ∈ s'.journal) ∧
         (∀ e ∈ s'.journal, e.field = f → e.committed = true) ∧ (∀ e ∈ s.journal, e.field ≠ f → e ∈ s'.journal) ∧
         s'.fst = s.fst ∧ s'.sram = s.sram) ∧
     (x.phase = .commit → Gives (.handoverBegin f nanojoules margins beat) s fun s' =>
       (s'.fld f).phase = .handover ∧ s'.gf F.pwrEnergyWatch_nj f = min nanojoules 0xFFFFFFFF ∧
       cycleInstant x (x.nCycles - 256) ≤ s'.now) ∧
     (x.phase = .handover → let next := x.nextLevel.getD (x.mhz, x.lensMhz)
       Gives (.restIntervalBegin f senseMv) s fun s' =>
         (s'.fld f).phase = .rest ∧ cycleInstant x x.nCycles ≤ s'.now ∧
         ((s'.fld f).railLate = true ↔ senseMv + 15 < s.voltage f next.1 next.2) ∧
         s'.gf F.clkPllStatus_mhz 0 (1 + f) =
           (if senseMv + 15 < s.voltage f next.1 next.2 then x.mhz else next.1) % 2048 ∧ s'.sram = s.sram)) ∧
  (∀ (s : State) (atNs : Nat), s.flag F.bcnStatus_running = true → s.planAt ≠ some s.stationWatch → s.verdictsIn = true →
     Gives (.planningRound atNs) s fun s' =>
       s'.planAt = some s.stationWatch ∧ (∀ f, f < 64 → (s'.fld f).afterLevel.isSome = true) ∧
       s.lastBeacon + atNs ≤ s'.now ∧ s'.sram = s.sram ∧ s'.fst = s.fst ∧ s'.tiles = s.tiles ∧ s'.groups = s.groups ∧
       s'.gf F.bcnWatch_watch = s.stationWatch)

/-! ### Host rings -/

namespace Sys2Proof.Claims

/-- An entry that is a whole request by itself: FIRST and LAST set, its reserved bits 0 (R793). -/
def Whole (e : List Nat) : Prop := entryOk [] e = true ∧ (e.headD 0).testBit 25 = true

/-- Ring `r` is bound to slot `i` of sector `k`, whose tenant is `t`, with its areas; no request of it is half fetched. -/
structure Bound (s : State) (r k i t : Nat) : Prop where
  slot : s.slotOfRing r = some (k, i)
  tenant : (s.hslot k i).tenant = some t
  areas : (s.slotAreas k i).isSome = true
  part : (s.hring r).part = []
  skip : (s.hring r).skip = none

end Sys2Proof.Claims

/-- The rings' doorbells set their counts, a count beyond the ring's size disabling it with FAULT (R790, R792);
RING_FETCH of a whole request of the resident tenant makes the slot own it under the ring's next SEQ (R793, R797);
HOST_DMA_FAULT disables the ring with FAULT (R814); RESULT_PUSH writes the oldest result at RES_TAIL (R791, R800);
HST_RING_CFG_WRITE by the ring's function sets a disabled ring's word, clears ENABLE of an enabled one (R792, R794); a
function's reset disables its rings (R780). What counts as fetched and retired is deduced (log 44). -/
def Obligations.RingsRun : Prop :=
  ∀ (s : State) (port fn ring value k i t : Nat) (e : List Nat) (es : List (List Nat)) (req : Requester),
    port < 4 → fn < 64 → ring < 256 →
    let r := ringNum port fn ring
    let x := s.hring r
    Gives (.hstDbReqTail port fn ring value) s (fun s' => (s'.hring r).reqTail = value % 2 ^ 32 ∧
      (s.flag F.hstRingCfg_enable r = false ∨ count32 (value % 2 ^ 32) x.reqHead ≤ s.ringSize r →
        s'.regs = s.regs ∧ s'.hring r = { x with reqTail := value % 2 ^ 32 }) ∧
      (s.flag F.hstRingCfg_enable r = true → s.ringSize r < count32 (value % 2 ^ 32) x.reqHead →
        s'.flag F.hstRingCfg_enable r = false ∧ s'.flag F.hstRingState_fault r = true)) ∧
    Gives (.hstDbResHead port fn ring value) s (fun s' => s'.hring r = { x with resHead := value % 2 ^ 32 } ∧
      s'.regs = s.regs) ∧
    (s.mayFetch r = true → 1 ≤ count32 x.reqTail x.reqHead → Bound s r k i t → Whole e → e.headD 0 % 2 ^ 18 = t →
      Gives (.ringFetch port fn ring [e]) s fun s' =>
        (∃ o ∈ (s'.hslot k i).owned, o.seq = x.seq ∧ o.tenant = t ∧
          o.reqId = e.getD 2 0 + e.getD 3 0 * 2 ^ 32 ∧ o.fetchAt = s.now) ∧
        (s'.hring r).reqHead = (x.reqHead + 1) % 2 ^ 32 ∧ (s'.hring r).seq = (x.seq + 1) % 2 ^ 32 ∧ s'.sram = s.sram) ∧
    (s.mayFetch r = true → Gives (.hostDmaFault port fn ring) s fun s' =>
      s'.flag F.hstRingCfg_enable r = false ∧ s'.flag F.hstRingState_fault r = true) ∧
    (s.flag F.hstRingCfg_target r = false → (s.gf F.stnStartupPorts_pcie).testBit port = true → x.results = e :: es →
      (s.resultsFlow r = true ∨ rimMade e = true) → count32 x.resTail x.resHead < s.ringSize r → Gives (.resultPush port fn ring 1) s fun s' =>
        (s'.hring r).results = es ∧ (s'.hring r).resTail = (x.resTail + 1) % 2 ^ 32 ∧
        Output.hostWrite port fn (s.gf F.hstRingResBase_addr r + x.resTail % s.ringSize r * 64) (e.take 16) ∈ s'.out) ∧
    (mayConfigure req port fn = true →
      (s.flag F.hstRingCfg_enable r = false → 4 ≤ value % 16 →
        count32 x.reqTail x.reqHead ≤ 2 ^ (value % 16) → Gives (.hstRingCfgWrite req port fn ring value) s fun s' =>
          s'.rd .hstRingCfg r = BitVec.ofNat 64 (setBits (setBits (value % 2 ^ 32) 28 23 0) 11 10 0) ∧ s'.hostRings = s.hostRings) ∧
      (s.flag F.hstRingCfg_enable r = true → value.testBit 31 = false →
        Gives (.hstRingCfgWrite req port fn ring value) s fun s' => s'.flag F.hstRingCfg_enable r = false)) ∧
    (fn ≠ 0 → Gives (.functionLevelReset port fn) s fun s' =>
      ∀ j, j < 256 → s'.flag F.hstRingCfg_enable (ringNum port fn j) = false)

/-- Good Jalfen frames in sequence count and are noted (R787): CREDIT adds to the credit and covers the oldest frames,
BEAT marks the link, a NOTICE is recorded and breaks a self-timed job on kinds 1 to 3, a DATA frame on an unbroken
link becomes a request of the peer ring under its resident tenant and grants back (R785, R786, R802, R862, R863); a
bad one changes only the count of errors and resets the link. An idle BEAT leaves 100 µs after the last frame (R786).
Loss, break and clear set and clear LOST and BROKEN (R861 to R864). That a Keeper frame has no effect beyond its
reception, and the relay's grants, are deduced (log 45, 57). -/
def Obligations.PeersExchange : Prop :=
  ∀ (s : State) (link seq grant ring kind wafer job code k i t : Nat) (e : List Nat) (req : Requester), link < 8 →
    let x := s.jlf link
    let noted : Jalfen := { x with rx := (x.rx + 1) % 65536, lastRx := s.now }
    (s.linkUp link = true → seq = x.rx →
      Gives (.jalfenBeat link true seq) s (fun s' => s'.jlf link = { noted with beat := true } ∧ s'.regs = s.regs) ∧
      Gives (.jalfenKeeper link true seq) s (fun s' => s'.jlf link = noted ∧ s'.regs = s.regs ∧ s'.out = s.out) ∧
      Gives (.jalfenCredit link true seq grant) s (fun s' => s'.jlf link =
        { noted with credit := min 16384 (x.credit + grant), uncovered := x.uncovered.drop grant }) ∧
      Gives (.jalfenNotice link true seq kind wafer job code) s (fun s' =>
        s'.flag F.stnPeerStatus_notice 0 link = true ∧ s'.gf F.stnPeerStatus_peer 0 link = wafer % 32 ∧
        s'.gf F.stnPeerStatus_kind 0 link = kind % 256 ∧ s'.gf F.stnPeerStatus_code 0 link = code % 65536 ∧
        (s.fabric link = false → 1 ≤ kind → kind ≤ 3 → s'.flag F.stnPeerStatus_broken 0 link = true)) ∧
      (let r := ringNum (link / 2) 0 (ring % 256)
        let w := setBits (setBits (e.headD 0) 17 0 t) 26 26 0
        s.flag F.stnPeerStatus_broken 0 link = false → t < 2 ^ 18 → Bound s r k i t → Whole (w :: e.drop 1) →
        Gives (.jalfenData link true seq ring [e]) s fun s' =>
          (∃ o ∈ (s'.hslot k i).owned, o.seq = (s.hring r).seq ∧ o.tenant = t) ∧
          (s'.hring r).reqHead = (s.hring r).reqHead ∧ (∃ bs, Output.frame link 1 bs ∈ s'.out))) ∧
    (s.linkUp link = true → (∀ j ∈ s.resets, j.domain ≠ 5 ∧ (j.domain, j.target) ≠ (4, 20 + link)) →
      Gives (.jalfenBeat link false seq) s fun s' =>
        s'.rd .jlfCountCrc 0 link = BitVec.ofNat 64 (satAdd32 (s.rd .jlfCountCrc 0 link).toNat 1) ∧
        s'.linkUp link = false ∧ s'.hostSlots = s.hostSlots) ∧
    (s.linkUp link = true → Gives (.jalfenIdleBeat link) s fun s' =>
      (∃ bs, Output.frame link 2 bs ∈ s'.out) ∧ x.lastTx + 100000 ≤ s'.now ∧ (s'.jlf link).tx = (x.tx + 1) % 65536) ∧
    (s.flag F.jlfCfg_enable 0 link = true → s.flag F.stnPeerStatus_lost 0 link = false → Gives (.peerLost link) s fun s' =>
      s'.flag F.stnPeerStatus_lost 0 link = true ∧ x.lastRx + s.gf F.jlfTimeout_ms 0 link * 1000000 ≤ s'.now ∧
      (s.fabric link = false → s'.flag F.stnPeerStatus_broken 0 link = true)) ∧
    (peerWriter req = true →
      Gives (.peerBreak req link) s (fun s' => s'.flag F.stnPeerStatus_broken 0 link = true) ∧
      (s.linkUp link = true → x.beat = true → Gives (.peerClear req link) s fun s' =>
        s'.flag F.stnPeerStatus_broken 0 link = false ∧ s'.jalfen = s.jalfen)) ∧
    (peerWriter req = false → Gives (.peerBreak req link) s (fun s' => s'.regs = s.regs ∧ s'.hostRings = s.hostRings) ∧
      Gives (.peerClear req link) s fun s' => s'.regs = s.regs)

/-! ### Power -/

/-- Telemetry and an alert record VOUT and IOUT of a rail; a fault bit makes a rail fault, which fogs the field of a field's rail
(R642, R680). Ramps go step by step to LIT (R654); an overcurrent opens the gate, for good the second time (R655, R658); a
retry waits 1 s and asks for a ramp (R656, R657); an hour LIT clears the count (R658). -/
def Obligations.RailsAndGates : Prop :=
  ∀ (s : State) (bay current t : Nat) (x : RailReading),
    (x.rail < 133 → (x.rail < 128 → s.flag F.pwrRailStatus_enabled 0 x.rail = true) → x.timeout = false → x.vout < 65536 → x.iout < 1024 →
      ∀ c ∈ [Instr.railTelemetryPoll [x], Instr.pmbAlert [x]], Gives c s fun s' =>
        s'.gf F.pwrRailStatus_vout 0 x.rail = x.vout ∧ s'.gf F.pwrRailStatus_iout 0 x.rail = x.iout ∧
        (s.railBad x = false → s'.fields = s.fields ∧ mget 0 s'.railFails x.rail = 0) ∧
        (x.fault = true → s.flag F.pwrRailStatus_fault 0 x.rail = false → s'.flag F.pwrRailStatus_fault 0 x.rail = true ∧
          (x.rail < 128 → (s'.fld (x.rail % 64)).fogged = true))) ∧
    (bay < 2304 →
      let f := fieldOfBay bay
      let k := bayInField bay
      let y : BayPower := mget {} s.bays bay
      let n := s.gf F.pwrBayState_gate_faults f k
      (y.rampAt = some t → s.bayState bay = 1 →
        (y.step < 16 → Gives (.rampStep bay) s fun s' => (mget ({} : BayPower) s'.bays bay).step = y.step + 1 ∧
          t + y.step * 1250 ≤ s'.now ∧ s'.bayState bay = 1) ∧
        (16 ≤ y.step → Gives (.rampStep bay) s fun s' => s'.bayState bay = 2 ∧ t + 20000 ≤ s'.now)) ∧
      (s.bayState bay = 1 ∨ s.bayState bay = 2 → 4 * s.bayLimit bay < current → Gives (.bayGateFault bay current) s fun s' =>
        s'.bayState bay = (if n = 0 then 4 else 5) ∧ s'.gf F.pwrBayState_gate_faults f k = min 2 (n + 1) ∧
        s'.rd .pwrCountGateFault f k = BitVec.ofNat 64 (satAdd32 (s.rd .pwrCountGateFault f k).toNat 1) ∧
        (n = 0 → (mget ({} : BayPower) s'.bays bay).tripAt = some s.now)) ∧
      (y.tripAt = some t → s.bayState bay = 4 → (s.fld f).fogged = false → Gives (.gateRetry bay) s fun s' =>
        t + 1000000000 ≤ s'.now ∧ (s.flag F.bcnStatus_running = true → bay ∈ s'.rampQueue) ∧
        (s.flag F.bcnStatus_running = false → s.ramping f < 4 → s'.bayState bay = 1)) ∧
      (y.litAt = some t → s.bayState bay = 2 → Gives (.gateFaultCountClear bay) s fun s' =>
        s'.gf F.pwrBayState_gate_faults f k = 0 ∧ t + 3600000000000 ≤ s'.now ∧ s'.bayState bay = 2))

/-- A droop request of a LIT bay stretches the next free cycle and counts it, or is denied and counted (R660, R661); a deep or
sustained one fogs the field (R661). Temperatures are recorded, a second one of 105 °C trips and fogs the field (R663,
R665). WAFER_ENERGY sums what the fields latched (R651). NV_INHIBIT and its release set and clear INHIBIT, the release
making the queued ledger writes (R674 to R677). -/
def Obligations.DroopHeatAndEnergy : Prop :=
  ∀ (s : State) (bay f k : Nat) (temps : List Int) (suspects : List Nat) (aux core : Bool),
    (bay < 2304 → s.bayState bay = 2 → (s.fld (fieldOfBay bay)).fogged = false → (s.fld (fieldOfBay bay)).phase ≠ .idle →
      let g := fieldOfBay bay
      let j := bayInField bay
      let y : BayPower := mget {} s.bays bay
      ((∀ l, y.stretchAt = some l → l + 8 ≤ s.cycleMark g + 1) → Gives (.droopStretch bay) s fun s' =>
        (mget ({} : BayPower) s'.bays bay).stretchAt = some (s.cycleMark g + 1) ∧
        s'.rd .pwrCountStretch g j = BitVec.ofNat 64 (satAdd32 (s.rd .pwrCountStretch g j).toNat 1) ∧ s'.sram = s.sram) ∧
      (∀ l, y.stretchAt = some l → s.cycleMark g + 2 < l + 8 → Gives (.droopStretch bay) s fun s' =>
        s'.rd .pwrCountDenied g j = BitVec.ofNat 64 (satAdd32 (s.rd .pwrCountDenied g j).toNat 1) ∧
        (mget ({} : BayPower) s'.bays bay).stretchAt = some l ∧ s'.groups = s.groups ∧ s'.tiles = s.tiles) ∧
      Gives (.droopSustained bay true) s fun s' => (s'.fld g).fogged = true ∧ (s'.fld g).held = true ∧
        s'.flag F.pwrStatus_droop_sustained g = true) ∧
    (f < 64 → k < 9 → ∀ v, temps[k]? = some v → -2048 ≤ v → v < 2048 → Gives (.thermalSample f temps) s fun s' =>
      toSigned 12 (s'.gf F.thmTemp_temp f k) = v ∧
      ((s.gf F.thmCfg_alert f : Int) ≤ v → s'.flag F.thmStatus_alert f = true) ∧
      (840 ≤ v → 1 ≤ (mget (0, 0) s.hot (f, k)).1 → s.flag F.thmStatus_trip f = false →
        s'.flag F.thmStatus_trip f = true ∧ (s'.fld f).fogged = true)) ∧
    ((∀ g, g < 64 → (s.fld g).held = true ∨ (s.fld g).phase = .handover ∨ (s.fld g).phase = .rest ∨
        (s.fld g).phase = .idle) → Gives (.waferEnergy suspects) s fun s' =>
      s'.rd .pwrWaferEnergy = BitVec.ofNat 64 ((sumNat ((List.range 64).map fun g => s.gf F.pwrEnergyWatch_nj g) * 1000 +
        s.stationPower * s.gf F.bcnPeriod_period) / 1000000 % 2 ^ 32) ∧ s'.fields = s.fields) ∧
    (aux = true ∨ core = true → Gives (.nvInhibit aux core) s fun s' => s'.flag F.stnNvInhibit_inhibit = true ∧
      (aux = true → s'.flag F.stnNvInhibit_aux_low = true) ∧ (core = true → s'.flag F.stnNvInhibit_core_low = true) ∧
      s'.live = s.live) ∧
    (s.flag F.stnNvInhibit_inhibit = true → Gives .nvInhibitRelease s fun s' => s'.flag F.stnNvInhibit_inhibit = false ∧
      s'.ledgerQueue = [] ∧ (∃ l, s'.live = s.live ++ l) ∧
      ∀ key v, Ledger.floor key v ∈ s.ledgerQueue → Ledger.floor key v ∈ s'.live)

/-! ### Clocks -/

/-- XA's loss with FIRC good begins holdover, the switch makes FIRC the reference 2 µs later at the earliest, its end
returns to XA (R722, R723); XB's loss takes down every rim PLL group and link (R726); SIRC's is counted (R727); a
field PLL out of lock fogs its field (R720, R728); a source or a PLL good again shows so (R721); FIRC's trim changes
no register (R719). The Keeper's CLK_ENABLE starts the clocks it enables and stops idle blocks; others' writes change
nothing (R729, R730). What follows the loss of the station clock and trims is deduced (log 69). -/
def Obligations.ClocksFollow : Prop :=
  ∀ (s : State) (t pll index value bit source : Nat) (n : Nat) (req : Requester),
    (s.flag F.clkSrcStatus_xa_ok = true → s.flag F.clkSrcStatus_stn_lock = true → s.flag F.clkSrcStatus_firc_ok = true →
      Gives .xaLoss s fun s' => s'.flag F.clkSrcStatus_xa_ok = false ∧ s'.flag F.clkSrcStatus_holdover = true ∧
        s'.flag F.bcnStatus_holdover = true ∧ s'.xaLostAt = some s.now) ∧
    (s.xaLostAt = some t → s.flag F.clkSrcStatus_holdover = true → s.flag F.clkSrcStatus_ref = false →
      s.flag F.clkSrcStatus_firc_ok = true → Gives .holdoverSwitch s fun s' =>
        s'.flag F.clkSrcStatus_ref = true ∧ t + 2000 ≤ s'.now) ∧
    (s.flag F.clkSrcStatus_holdover = true → s.flag F.clkSrcStatus_xa_ok = true → Gives .clockHoldoverEnd s fun s' =>
      s'.flag F.clkSrcStatus_holdover = false ∧ s'.flag F.bcnStatus_holdover = false ∧
      s'.flag F.clkSrcStatus_ref = false) ∧
    (s.flag F.clkSrcStatus_xb_ok = true → Gives .refclkLost s fun s' => s'.flag F.clkSrcStatus_xb_ok = false ∧
      (∀ r, r < 4 → s'.flag F.clkPllStatus_lock 0 (129 + r) = false) ∧
      (∀ p, p < 4 → (s'.gf F.stnStartupPorts_pcie).testBit p = false) ∧
      (∀ p, p < 16 → (s'.gf F.stnStartupPorts_cxl).testBit p = false) ∧
      ∀ p, p < 8 → (s'.gf F.stnStartupPorts_jalfen).testBit p = false) ∧
    (s.flag F.clkSrcStatus_sirc_ok = true → Gives (.clockLoss true) s fun s' => s'.flag F.clkSrcStatus_sirc_ok = false ∧
      s'.rd .clkCountLoss 0 3 = BitVec.ofNat 64 (satAdd32 (s.rd .clkCountLoss 0 3).toNat 1)) ∧
    (1 ≤ pll → pll < 129 → s.flag F.clkPllStatus_lock 0 pll = true → Gives (.pllUnlock pll) s fun s' =>
      s'.flag F.clkPllStatus_lock 0 pll = false ∧ s'.flag F.clkPllStatus_lost 0 pll = true ∧
      (s'.fld ((pll - 1) % 64)).fogged = true) ∧
    (source = 3 → Gives (.sourceGood source) s fun s' => s'.flag F.clkSrcStatus_sirc_ok = true) ∧
    (4 ≤ source → source < 133 → s.flag F.clkSrcStatus_stn_lock = true → Gives (.sourceGood source) s fun s' =>
      s'.flag F.clkPllStatus_lock 0 (source - 4) = true) ∧
    Gives .fircTrim s (fun s' => s' = s) ∧
    (index < 64 → Gives (.clkEnableWrite (.keeper n) index value) s fun s' =>
      s'.gf F.clkEnable_en 0 index = value % 32 ∧
      ∀ b, b < 5 → value.testBit b = true → (s'.gf F.clkRunning_run 0 index).testBit b = true) ∧
    (index < 67 → (∀ k, req ≠ .keeper k) → Gives (.clkEnableWrite req index value) s fun s' => s'.regs = s.regs) ∧
    (index < 67 → bit < 32 → (s.gf F.clkEnable_en 0 index).testBit bit = false →
      (s.gf F.clkRunning_run 0 index).testBit bit = true → s.blockIdle index bit = true →
      Gives (.clockStop index bit) s fun s' => (s'.gf F.clkRunning_run 0 index).testBit bit = false) ∧
    (s.stepsDone.contains 1 = true → s.stepsDone.contains 2 = false → s.flag F.clkSrcStatus_xa_ok = false →
      s.minuteLog = some t → Gives .clockLossEachMinute s fun s' =>
        t + 60000000000 ≤ s'.now ∧ s'.minuteLog = some s'.now ∧ s'.regs = s.regs)

/-! ### Resets -/

/-- A reset that the Keeper commands, none under way that holds it, clears its domain and is noted as busy: a group's
registers, a tile's and a bay's groups and SRAM, a field's store, queues and state with the field held, a PCIe port
down with its mailbox commands gone; a station and a cold reset leave SRAM, field store and groups empty, the ledger
and the fuses as they were (R733, R737). RESET_COMPLETE of a group, or of a rim port whose XB and PLL group are good,
ends it, BUSY clearing with the last reset, the port trained (R733); RESET_TIMEOUT gives up after the domain's
recovery time and escalates a group's reset to its tile (R745). A fogged field whose cause is over is reset no earlier than FOG_HOLD
after it fogged, and stays held and fogged meanwhile (R850); the reset of a field that has tripped waits until it has cooled
(R665). Ring pointers over a port reset, and what a domain
reset leaves, are in part deduced (log 50, 53, 58). -/
def Obligations.ResetsClearAndEnd : Prop :=
  (∀ (s : State) (f : Nat), f < 64 → (s.fld f).fogged = true → s.flag F.fkpStatus_resetting f = false → s.fogOver f = true →
     s.resets = [] → Gives (.fogHoldExpiry f) s fun s' =>
       s'.flag F.fkpStatus_resetting f = true ∧ s'.flag F.rstStatus_busy = true ∧ (s'.fld f).held = true ∧ (s'.fld f).fogged = true ∧
       (s.fld f).fogAt + s.gf F.fkpCfg_fog_hold f * 1000000 ≤ s'.now ∧ ∀ off, off < 67108864 → s'.fstByte f off = 0) ∧
  (∀ (s : State) (t g bay f port cause : Nat) (powerOn : Bool), s.resets = [] →
     (t < 589824 → g < 8 → Gives (.groupReset none t g) s fun s' =>
       s'.grp t g = {} ∧ (∀ a b, (a, b) ≠ (t, g) → s'.grp a b = s.grp a b) ∧ s'.rd .tgpTrap t g = 0 ∧
       s'.flag F.rstStatus_busy = true ∧ s'.gf F.rstStatus_domain = 0 ∧ s'.sram = s.sram ∧ s'.fst = s.fst) ∧
     (t < 589824 → Gives (.tileReset none t) s fun s' =>
       (∀ off, off < 65536 → s'.sramByte t off = 0) ∧
       (∀ a, a / 65536 ≠ t → memRead s'.sram a = memRead s.sram a) ∧ (∀ b, s'.grp t b = {}) ∧
       (∀ a b, a ≠ t → s'.grp a b = s.grp a b) ∧ s'.flag F.rstStatus_busy = true ∧
       s'.gf F.rstStatus_domain = 1 ∧ s'.gf F.rstStatus_target = t ∧ s'.fst = s.fst) ∧
     (bay < 2304 → Gives (.bayReset none bay) s fun s' =>
       (∀ u off, bayOf u = bay → off < 65536 → s'.sramByte u off = 0) ∧
       (∀ a, bayOf (a / 65536) ≠ bay → memRead s'.sram a = memRead s.sram a) ∧
       (∀ u b, bayOf u = bay → s'.grp u b = {}) ∧ mget [] s'.bayQueues bay = [] ∧
       (s.bayState bay = 5 → s'.bayState bay = 5) ∧ s'.flag F.rstStatus_busy = true ∧ s'.fst = s.fst) ∧
     (f < 64 → f ≠ s.keeperAt → s.tooHot f = true → Gives (.fieldReset none f) s fun s' =>
       s'.regs = s.regs ∧ s'.fst = s.fst ∧ s'.resets = s.resets) ∧
     (f < 64 → f ≠ s.keeperAt → s.tooHot f = false → Gives (.fieldReset none f) s fun s' =>
       (∀ off, off < 67108864 → s'.fstByte f off = 0) ∧
       (∀ a, a / 67108864 ≠ f → memRead s'.fst a = memRead s.fst a) ∧ (s'.fld f).held = true ∧ (s'.fld f).phase = .idle ∧
       s'.flag F.fkpStatus_resetting f = true ∧ (∀ e ∈ s'.journal, e.field ≠ f) ∧ s'.mv f = {} ∧
       (∀ i, s'.buoy f i = {}) ∧ s'.gf F.clkRunning_run 0 f = 0) ∧
     (port < 4 → ∀ c ∈ [Instr.rimPortReset none port, Instr.perstN port], Gives c s fun s' =>
       (s'.gf F.stnStartupPorts_pcie).testBit port = false ∧ (∀ u ∈ s'.mboxQueue, u / 16 ≠ port) ∧
       s'.flag F.stnDebugSession_active 0 port = false ∧ s'.flag F.rstStatus_busy = true ∧ s'.sram = s.sram ∧
       s'.fst = s.fst) ∧
     Gives (.stationReset none cause) s (fun s' =>
       s'.gf F.rstCause_cause = cause % 16 ∧ s'.flag F.stnStartup_cold = false ∧ s'.sram = [] ∧ s'.fst = [] ∧
       s'.groups = [] ∧ s'.loaded = none ∧ s'.live = s.live ∧ s'.fuses = s.fuses ∧ s'.flag F.rstStatus_busy = true) ∧
     Gives (.coldReset powerOn) s (fun s' =>
       s'.gf F.rstCause_cause = (if powerOn then 0 else 1) ∧ s'.flag F.stnStartup_cold = true ∧ s'.sram = [] ∧
       s'.fst = [] ∧ s'.groups = [] ∧ s'.rings = [] ∧ s'.thermtrip = false ∧ s'.live = s.copyA.records ∧ s'.copyA = s.copyA ∧
       s'.copyB = s.copyB ∧ s'.fuses = s.fuses)) ∧
  (∀ (s : State) (d t : Nat) (test : FieldTest) (j : ResetJob), s.resets = [j] → j.domain = d → j.target = t →
     (d = 0 ∨ (d = 4 ∧ t < 28 ∧ s.flag F.clkSrcStatus_xb_ok = true ∧ s.flag F.clkPllStatus_lock 0 (129 + rimOf t) = true) →
       Gives (.resetComplete d t test) s fun s' => s'.resets = [] ∧ s'.flag F.rstStatus_busy = false ∧
         (d = 4 → t < 4 → (s'.gf F.stnStartupPorts_pcie).testBit t = true)) ∧
     (d = 0 → Gives (.resetTimeout d t) s fun s' => s'.flag F.rstStatus_timeout = true ∧ j.begun + 2000 ≤ s'.now ∧
       (∃ k ∈ s'.resets, k.domain = 1 ∧ k.target = t % 2 ^ 20 ∧ k.cause = 5) ∧
       ∀ off, off < 65536 → s'.sramByte (t % 2 ^ 20) off = 0))

/-! ### Start-up -/

/-- The steps of start-up in their order (R750): BOOT_ROM selects the newer verified copy (R755, R756), recovery
writes copy A and restarts it (R757), CLOCKS locks the station PLL (R747), STATION takes period and masks (R760), LINKS enables rails
and ports (R761), ports come up or are declared down (R761 to R764, R810), a field powered up runs with its store zero
(R765), one that has tripped not before it has cooled (R665, R768), BEACON begins at watch 0 (R769), READY shows READY and releases the foghorn (R771); a failed step stops start-
up (R775). The causes of a stop and what a bad boot period does are deduced (log 70). -/
def Obligations.StartUpSteps : Prop :=
  ∀ (s : State) (a b copy : FwCopy) (p f k t capacity : Nat) (unknown : Nat) (lost : List (Nat × Nat)) (xbMode copyA : Bool)
    (ports : Option (Nat × Nat × Nat)) (caps : Option (Nat × Nat)) (skews : List Nat) (test : FieldTest),
    (let x := s.recovered.getD a;
      s.stepsDone = [] → s.halted = false → s.fwOk x = true → s.fwOk b = true → x.svn < 256 → b.svn < 256 →
      Gives (.bootRom a b true) s fun s' =>
        let new := x.major * 256 + x.minor < b.major * 256 + b.minor
        s'.stepsDone = [1, 0] ∧ (s'.flag F.stnFwStatus_active = true ↔ new) ∧
        (new → s'.gf F.stnFwStatus_svn = b.svn) ∧ (¬new → s'.gf F.stnFwStatus_svn = x.svn) ∧ s'.keeperAt = 27) ∧
    (s.stepsDone = [0] → (s.gf F.stnFoghorn_cause).testBit 0 = true → s.fwOk copy = true →
      s.flag F.stnNvInhibit_inhibit = false → Gives (.firmwareRecovery copy) s fun s' =>
        s'.stepsDone = [] ∧ s'.gf F.rstCause_cause = 2 ∧ s'.fuses = s.fuses ∧ s'.recovered = some copy) ∧
    (s.inStep 2 [1] = true → s.flag F.clkSrcStatus_xa_ok = true → s.flag F.clkSrcStatus_firc_ok = true →
      Gives .startupClocks s fun s' => s'.stepsDone = 2 :: s.stepsDone ∧ s'.flag F.clkSrcStatus_stn_lock = true) ∧
    (s.inStep 3 [2] = true → s.fuses.mapOk = true → copyA = true → 10000 ≤ p → p ≤ 1000000 →
      Gives (.startupStation copyA false lost unknown [] xbMode (some p) ports caps) s fun s' =>
        s'.stepsDone = 3 :: s.stepsDone ∧ s'.bootPeriod = p ∧ (s'.flag F.clkSrcCfg_xb_mode ↔ xbMode) ∧
        (ports = none → s'.bootPorts = (0xF, 0xFFFF, 0xFF)) ∧
        s'.live = (s.ledgerQueue.filter Ledger.isDefect).foldl ledgerWith s.copyA.records) ∧
    (s.inStep 4 [3] = true → s.flag F.pwrRailStatus_enabled 0 129 = false → s.flag F.clkSrcStatus_xb_ok = true →
      Gives (.startupLinks []) s fun s' => s'.flag F.pwrRailStatus_enabled 0 129 = true ∧
        s'.flag F.pwrRailStatus_enabled 0 130 = true ∧ ∀ r, r < 4 → s'.flag F.clkPllStatus_lock 0 (129 + r) = true) ∧
    (p < 4 → s.training 0 p = true → s.flag F.clkSrcStatus_xb_ok = true → Gives (.pcieLinkUp p) s fun s' =>
      s'.portUp 0 p = true ∧ mfind s'.startDeadlines (0, p) = none) ∧
    (p < 8 → s.flag F.clkSrcStatus_xb_ok = true → s.training 2 p = true → Gives (.linkTrained 2 p) s fun s' =>
      s'.portUp 2 p = true) ∧
    (p < 16 → s.flag F.clkSrcStatus_xb_ok = true → s.training 1 p = true → Gives (.linkTrained 1 p) s fun s' =>
      (mfind s'.startDeadlines (3, p)).isSome = true ∧ mfind s'.startDeadlines (1, p) = none) ∧
    (p < 16 → k < 3 → s.flag F.clkSrcStatus_xb_ok = true → mfind s.startDeadlines (k, p) = some t →
      s.training k p = true → Gives (.linkTrainFail k p) s fun s' =>
      (k, p) ∈ s'.portsDown ∧ t ≤ s'.now) ∧
    (p < 16 → s.training 3 p = true → Gives (.memoryActive p capacity) s fun s' => s'.portUp 3 p = true) ∧
    (p < 16 → mfind s.startDeadlines (3, p) = some t → s.training 3 p = true → Gives (.cxlMemoryTimeout p) s fun s' =>
      (1, p) ∈ s'.portsDown ∧ t ≤ s'.now) ∧
    (p < 16 → s.training 1 p = false → s.training 3 p = false → s.portUp 1 p = true →
      Gives (.cxlIoConfigurationTimeout p) s fun s' => (1, p) ∈ s'.portsDown ∧ s'.portUp 1 p = false) ∧
    (f < 64 → s.inStep 5 [3] = true → (List.range (f / 8 * 8)).all s.fieldOver = true → s.fieldOver f = false →
      s.tooHot f = true → Gives (.fieldPowerUp f test) s fun s' => s' = s) ∧
    (f < 64 → s.inStep 5 [3] = true → (List.range (f / 8 * 8)).all s.fieldOver = true → s.fieldOver f = false →
      s.tooHot f = false → test.fail = none → Gives (.fieldPowerUp f test) s fun s' => (s'.gf F.stnStartupFields_running).testBit f = true ∧
        (s'.fld f).fogged = false ∧ (s'.fld f).held = false ∧ (s'.fld f).mhz = 1000 ∧
        (∀ off, off < 67108864 → s'.fstByte f off = 0)) ∧
    (s.inStep 6 [5] = true → s.flag F.bcnStatus_running = false → s.flag F.clkSrcStatus_holdover = false →
      s.flag F.clkSrcStatus_stn_lock = true → skews.length = 64 → Gives (.beaconStart skews) s fun s' =>
        (∀ f, f < 64 → s'.gf F.bcnSkewComp_comp f = skews.getD f 0 % 65536) ∧
        s'.flag F.bcnStatus_running = true ∧ s'.gf F.bcnPeriod_period = s.bootPeriod % 2 ^ 20 ∧ s'.lastBeacon = s.now ∧
        s'.stationWatch = s.stationWatch) ∧
    (s.halted = false → s.ready = false → s.stepsDone.contains 6 = true → s.stepsDone.contains 7 = true →
      Gives .startupReady s fun s' => s'.ready = true ∧ s'.gf F.stnStartup_step = 8 ∧
        s'.flag F.stnFoghorn_asserted = false ∧ s'.gf F.stnFoghorn_cause = 0) ∧
    (s.halted = false → s.ready = false → k < 8 → s.stepsDone.contains k = false → Gives (.startupFail k) s fun s' =>
      s'.flag F.stnStartup_failed = true ∧ s'.halted = true ∧ s'.flag F.stnFoghorn_asserted = true)

namespace Sys2Proof.Claims

/-- The command of mailbox slot `u` is the next the Keeper takes (R804): its opcode is `op`, its unused argument bits are 0
(R805), and its port may give it, JTAG only QUERY and DEBUG_AUTH (R874). -/
structure Taken (s : State) (u op : Nat) (masks : List Nat) : Prop where
  slot : u < 65
  next : s.mboxNext = some u
  opcode : s.gf F.hstMboxStatus_opcode u = op
  unused : s.argsZero u masks = true
  jtag : u = 64 → op = 0xA ∨ op = 0xD

/-- The command of slot `u` has left the queue and shows DONE with a status and result words (R804, R808). -/
structure Answered (s s' : State) (u status : Nat) (results : List Nat) : Prop where
  done : s'.gf F.hstMboxStatus_state u = 3
  status : s'.gf F.hstMboxStatus_status u = status
  words : ∀ k w, k < 48 → results[k]? = some w → s'.rd .hstMboxResult u k = BitVec.ofNat 64 (w % 2 ^ 32)
  queue : s'.mboxQueue = s.mboxQueue.erase u

/-- Every slot that waited for an operation shows DONE with a status. -/
def Finished (s s' : State) (op : MboxOp) (status : Nat) : Prop :=
  ∀ u, (u, op) ∈ s.mboxJobs → s'.gf F.hstMboxStatus_state u = 3 ∧ s'.gf F.hstMboxStatus_status u = status

/-- Every bit of an argument word. -/
def full : Nat := 0xFFFFFFFF

end Sys2Proof.Claims

/-! ### Images -/

/-- LOAD_IMAGE makes the image the candidate, or rejects what could not be read (R587, R592, R605); validation makes
it VALID or REJECTED with its reason (R589 to R592); BIND begins on a snapshot of the merged map, or fails with the
reason of its first check, and ends BOUND with its table or FAILED (R40, R42, R63, R70); START begins to load a bound
image, starts a loaded one again, runs quiesced sectors again, or begins a patch or a restore (R594, R599, R319, R602,
R853); STOP waits for the end of the watch (R599). Verdicts of digests and signatures are operands, and BIND stands
for both its ends: the model's choices (log 12, 71); statuses in part deduced (log 73, 74). -/
def Obligations.ImagesBegin : Prop :=
  ∀ (s : State) (u : Nat) (img base : Image) (list : Option (List Nat)),
    (Taken s u 1 [full, full, full] → s.countWritten = true → 1 ≤ s.arg u 2 → s.arg u 2 ≤ 65536 →
      s.gf F.stnImageStatus_state ≠ 1 → s.loadRun = none →
      (Gives (.loadImage u (some img)) s fun s' => s'.candidate = some img ∧ s'.gf F.stnImageStatus_state = 1 ∧
        s'.boundTo = none ∧ s'.gf F.stnBindStatus_state = 0 ∧ (u, MboxOp.load) ∈ s'.mboxJobs ∧ s'.loaded = s.loaded) ∧
      (Gives (.loadImage u none) s fun s' => s'.candidate = none ∧ s'.gf F.stnImageStatus_state = 3 ∧
        s'.gf F.stnImageStatus_reason = 0x10 ∧ Answered s s' u 7 [] ∧ s'.loaded = s.loaded)) ∧
    (s.gf F.stnImageStatus_state = 1 → s.candidate = some img →
      (s.checkImage img = none → Gives .imageValidation s fun s' => s'.gf F.stnImageStatus_state = 2 ∧
        s'.candidate = some img ∧ Finished s s' .load 0) ∧
      ∀ stage code sec record, s.checkImage img = some (stage, code, sec, record) →
        Gives .imageValidation s fun s' => s'.gf F.stnImageStatus_state = 3 ∧
          s'.gf F.stnImageStatus_reason = code % 256 ∧ Finished s s' .load 7) ∧
    (Taken s u 2 [] → (u, MboxOp.bind) ∉ s.mboxJobs → s.countWritten = true → s.loadRun = none →
      s.gf F.stnBindStatus_state ≠ 1 → s.patchCandidate = false → s.restoreHeld = false →
      (s.bindRefusal = none → Gives (.bind u) s fun s' => s'.gf F.stnBindStatus_state = 1 ∧ s'.bindMap = some s.merged ∧
        s'.boundTo = none ∧ (u, MboxOp.bind) ∈ s'.mboxJobs) ∧
      ∀ r, s.bindRefusal = some r → Gives (.bind u) s fun s' => s'.gf F.stnBindStatus_state = 3 ∧
        s'.gf F.stnBindStatus_reason = r % 256 ∧ Answered s s' u 8 []) ∧
    (∀ map, u < 65 → (u, MboxOp.bind) ∈ s.mboxJobs → s.bindMap = some map → s.candidate = some img →
      (∀ table, ((s.withMap map).bindSteps img).result = .ok table → Gives (.bind u) s fun s' =>
        s'.boundTo = some table ∧ s'.gf F.stnBindStatus_state = 2 ∧ s'.bindMap = none ∧ Finished s s' .bind 0) ∧
      ∀ e, ((s.withMap map).bindSteps img).result = .error e → Gives (.bind u) s fun s' =>
        s'.boundTo = none ∧ s'.gf F.stnBindStatus_state = 3 ∧ s'.gf F.stnBindStatus_reason = e.reason % 256 ∧
        Finished s s' .bind 8) ∧
    (let n := s.arg u 0
     let ids := s.startIds u n
     Taken s u 3 (startMasks n) → s.ready = true → s.loadRun = none → s.gf F.stnBindStatus_state ≠ 1 → n ≤ 126 →
      s.restoreHeld = false →
      (n = 0 → s.gf F.stnBindStatus_state = 2 → s.gf F.stnImageStatus_state = 2 → s.imageStarted = false →
        Gives (.start u list) s fun s' => s'.loadRun = some { kind := .full, begun := s.now, mbox := some u } ∧
          s'.gf F.stnImageLoaded_state = 1 ∧ s'.candidate = s.candidate ∧ s'.boundTo = s.boundTo ∧
          (u, MboxOp.start []) ∈ s'.mboxJobs) ∧
      (s.gf F.stnBindStatus_state = 0 →
        (n = 0 → s.gf F.stnImageLoaded_state = 2 → Gives (.start u list) s fun s' => s'.imageStarted = true ∧
          Answered s s' u 0 [s.stationWatch % 2 ^ 32, s.stationWatch / 2 ^ 32]) ∧
        (n ≠ 0 → s.patchHeld = false → s.imageStarted = true →
          (∀ k ∈ ids, (s.sec k).isSome = true ∧ s.health k = 1) → Gives (.start u list) s fun s' =>
            (∀ f, ∀ k ∈ ids, k ∉ (s'.fld f).quiesced) ∧
            Answered s s' u 0 [s.stationWatch % 2 ^ 32, s.stationWatch / 2 ^ 32]) ∧
        (n ≠ 0 → s.patchHeld = true → s.candidate = some img → s.loaded = some base → s.imageStarted = true →
          (∀ k ∈ ids, hasSector base k = true ∧ (imgSectors img).contains k = true) →
          (∀ k ∈ patchMates base img, s.health k = 1) → Gives (.start u list) s fun s' =>
            s'.loadRun = some { kind := .patch, begun := s.now, mbox := some u } ∧
            s'.gf F.stnImageStatus_state = 4 ∧ (u, MboxOp.start ids) ∈ s'.mboxJobs))) ∧
    (let ids := s.startIds u (s.arg u 0)
     Taken s u 3 (startMasks (s.arg u 0)) → s.ready = true → s.loadRun = none → s.gf F.stnBindStatus_state ≠ 1 →
      s.arg u 0 ≠ 0 → s.arg u 0 ≤ 126 → s.restoreHeld = true → s.candidate = some img → s.imageStarted = true →
      (∀ k ∈ ids, hasSector img k = true ∧ s.health k = 3 ∧ ∀ f ∈ s.holders k, s.fieldRuns f = true ∧
        s.flag F.mshEpoch_armed f k = false ∧ s.flipping f k = false ∧ (s.fld f).draining = [] ∧ (s.fld f).drainDue = []) →
      (∀ e ∈ s.sectors, s.health e.1 = 3 → e.1 ∈ ids) → Gives (.start u list) s fun s' =>
        s'.loadRun = some { kind := .restore ids, begun := s.now, mbox := some u } ∧
        s'.gf F.stnImageStatus_state = 4 ∧ (u, MboxOp.start ids) ∈ s'.mboxJobs) ∧
    (Taken s u 3 (startMasks (s.arg u 0)) → s.ready = true → 127 ≤ s.arg u 0 → s.arg u 0 ≤ 2304 →
      Gives (.start u none) s fun s' => Answered s s' u 10 [] ∧ s'.loaded = s.loaded ∧ s'.loadRun = s.loadRun) ∧
    (Taken s u 4 [] → s.ready = true → s.loadRun = none → s.imageStarted = true → s.stopAt = none →
      Gives (.stop u) s fun s' => s'.stopAt = some s.stationWatch ∧ (u, MboxOp.stop s.stationWatch) ∈ s'.mboxJobs ∧
        s'.imageStarted = true)

/-- A load ends with the image loaded and started, or fails on a fault with nothing loaded (R595 to R598); a patch
ends with the patched image loaded, or fails with the loaded image as it was (R602 to R604); a restore ends with its
sectors no longer STRANDED, or fails with the candidate VALID (R853, R854); a live record enters the ledger, unbinds a
bound candidate that uses its resource and restarts a binding under way once (R70, R71). Statuses after a load are
deduced (log 73). -/
def Obligations.ImagesEnd : Prop :=
  ∀ (s : State) (img base : Image) (bt : BindTable) (begun : Nat) (mbox : Option Nat),
    (s.loadRun = some { kind := .full, begun := begun, mbox := mbox } → s.candidate = some img → s.boundTo = some bt →
      (cycleTile (bt.paths.map (·.path)) = none → cycleTile (bt.paths.map (·.back)) = none →
        (s.writeImage img bt).lanesOk img bt = true → Gives (.imageLoadComplete none none) s fun s' =>
          s'.loaded = some img ∧ s'.loadedBind = some bt ∧ s'.loadRun = none ∧ s'.candidate = none ∧
          s'.gf F.stnImageLoaded_state = 3 ∧ s'.rd .stnImageId = BitVec.ofNat 64 img.imageId ∧
          Finished s s' (.start []) 0) ∧
      ∀ code cycle, Gives (.imageLoadComplete (some code) cycle) s fun s' =>
        s'.loaded = none ∧ s'.loadRun = none ∧ s'.gf F.stnImageLoaded_state = 0 ∧ s'.gf F.stnImageStatus_state = 3 ∧
        s'.gf F.stnImageStatus_reason = code % 256 ∧ s'.groups = []) ∧
    (s.loadRun = some { kind := .patch, begun := begun, mbox := mbox } → s.candidate = some img → s.loaded = some base →
      s.loadedBind = some bt →
      (Gives (.patchApplyComplete false) s fun s' => s'.loaded = some (patched base img) ∧ s'.candidate = none ∧
        s'.loadRun = none ∧ s'.gf F.stnImageLoaded_patch_count = min 65535 (s.gf F.stnImageLoaded_patch_count + 1) ∧
        ∀ u ids, s.mboxJobs = [(u, .start ids)] → Finished s s' (.start ids) 0) ∧
      (Gives (.patchApplyComplete true) s fun s' => s'.loaded = some base ∧ s'.loadRun = none ∧
        s'.gf F.stnImageStatus_state = 3 ∧ s'.gf F.stnImageStatus_reason = 0x24)) ∧
    (∀ named, s.loadRun = some { kind := .restore named, begun := begun, mbox := mbox } → s.candidate = some img →
      s.loaded = some base → s.loadedBind = some bt →
      ((∃ k ∈ named, s.health k = 3) → Gives (.restoreComplete false) s fun s' => s'.candidate = none ∧
        s'.loadRun = none ∧ ∀ t ∈ img.characters, t.sector ∈ named → s.health t.sector = 3 →
          ∀ x, s'.sec t.sector = some x → x.health = 0 ∧ x.table.sector = t.sector) ∧
      (Gives (.restoreComplete true) s fun s' => s'.loaded = some base ∧ s'.loadRun = none ∧
        s'.gf F.stnImageStatus_state = 2)) ∧
    (∀ kind source loc detail, Gives (.liveRecord kind source loc detail) s fun s' =>
      let d := Defect.ofWord ({ kind := kind, source := source, loc := loc, detail := detail } : Defect).word
      s'.live = s.live ++ [.defect d s.stationWatch] ∧ s'.fuses = s.fuses ∧
      (s.gf F.stnBindStatus_state = 2 → s.boundTo = some bt → s.candidate = some img → s.loadRun = none →
        bt.uses img d = true → s'.boundTo = none ∧ s'.gf F.stnBindStatus_state = 0) ∧
      (s.gf F.stnBindStatus_state = 1 → s.flag F.stnBindStatus_restarted = false →
        s'.flag F.stnBindStatus_restarted = true ∧ s'.bindMap = some s'.merged))

/-! ### Mailbox commands -/

/-- What a mailbox command does that is taken with good arguments (R805): a drain falls due in the next watch of each
field that holds the sector (R315); a bay is retired at the next HANDOVER, or ramps again (R855, R856) and, once its
BIST passes, is tested, with no live record of it but a gate's (R28); a cap within 2,000 to 22,000 W is taken at the
snapshot, another answers RANGE (R686); a period is pending for watch n + 2 (R112); queries answer their words (R931);
a tenant is registered and due in its slot, or evicted (R807); a reserved opcode answers BAD_OPCODE (R808). Which
status wins, and where R805 leaves results open, are the model's (log 14, 55, 75, 76). -/
def Obligations.MailboxCommands : Prop :=
  ∀ (s : State) (u bay : Nat),
    let a := s.arg u 0
    let w := s.stationWatch
    (Taken s u 5 [full] → s.ready = true → (s.sec a).isSome = true → s.drainBusy a = false → s.imageStarted = true →
      ((∀ f ∈ s.fieldsOf a, s.isQuiesced f a = true) → Gives (.drainSector u) s fun s' =>
        Answered s s' u 0 [((s.fieldsOf a).map fun f => s.gf F.strDrainStatus_elapsed f).foldl max 0]) ∧
      ((∃ f ∈ s.fieldsOf a, s.isQuiesced f a = false) → Gives (.drainSector u) s fun s' =>
        (u, MboxOp.drain a) ∈ s'.mboxJobs ∧ ∀ f ∈ s.fieldsOf a, s.isDraining f a = false →
          s.isQuiesced f a = false → (s.fld f).drainDue = [] → (s'.fld f).drainDue = [(a, (s.fld f).watch + 1)])) ∧
    (Taken s u 6 [full] → s.ready = true →
      (a < 2304 → s.sectorLive (fieldOfBay a) (s.sectorOfBay a) = false → Gives (.retireBay u) s fun s' =>
        s'.retireQueue = s.retireQueue ++ [(a, 5)] ∧ (u, MboxOp.retire a) ∈ s'.mboxJobs) ∧
      (a < 2304 → s.sectorLive (fieldOfBay a) (s.sectorOfBay a) = true → Gives (.retireBay u) s fun s' =>
        Answered s s' u 3 [] ∧ s'.retireQueue = s.retireQueue) ∧
      (2304 ≤ a → Gives (.retireBay u) s fun s' => Answered s s' u 5 [])) ∧
    (Taken s u 7 [full] → s.ready = true → a < 2304 → s.bayRecord a 3 = false →
      (s.bayRecord a 4 = false ∨ s.imageLoaded = false) → s.fieldRuns (fieldOfBay a) = true →
      (s.bayState a = 0 ∨ s.bayState a = 5) → Gives (.returnBay u) s fun s' => (u, MboxOp.return_ a) ∈ s'.mboxJobs ∧
        (s.flag F.bcnStatus_running = true → a ∈ s'.rampQueue) ∧
        (s.flag F.bcnStatus_running = false → s.ramping (fieldOfBay a) < 4 → s'.bayState a = 1)) ∧
    (bay < 2304 → s.bayState bay = 2 → (mget ({} : BayPower) s.bays bay).tested = false → s.resets = [] →
      (Gives (.bayBist bay []) s fun s' => (mget ({} : BayPower) s'.bays bay).tested = true ∧
        (mget ({} : BayPower) s'.bays bay).joins = some ((s.fld (fieldOfBay bay)).watch + 1) ∧
        ∀ d at_, Ledger.defect d at_ ∈ s'.live → d.kind = 3 → d.loc = bay → d.source = 3) ∧
      ∀ detail, s.gf F.stnBindStatus_state ≠ 1 → Gives (.bayBist bay [(3, bay, detail)]) s fun s' => s'.bayState bay = 5 ∧
        Finished s s' (.return_ bay) 12) ∧
    (u < 64 → s.mboxQueue.find? (fun v => s.gf F.hstMboxStatus_opcode v = 8) = some u → s.beaconStepDone = true →
      s.now ≤ s.lastBeacon + s.gf F.bcnPeriod_period / 2 → s.argsZero u [full] = true →
      (2000 ≤ a → a ≤ 22000 → Gives (.setCap u) s fun s' => s'.gf F.pwrCap_cap = a ∧
        s'.now = s.lastBeacon + s.gf F.bcnPeriod_period / 2 ∧ Answered s s' u 0 [(w + 2) % 2 ^ 32]) ∧
      ((a < 2000 ∨ 22000 < a) → Gives (.setCap u) s fun s' => s'.gf F.pwrCap_cap = s.gf F.pwrCap_cap ∧
        Answered s s' u 4 [])) ∧
    (Taken s u 9 [full] → s.beaconStepDone = true → s.loadRun = none →
      (s.periodBad a = true → Gives (.setPeriod u) s fun s' => Answered s s' u 4 [] ∧ s'.periodDue = s.periodDue) ∧
      (s.periodBad a = false → s.periodDue = none → Gives (.setPeriod u) s fun s' =>
        s'.periodDue = some (a, w + 2) ∧ s'.flag F.bcnStatus_period_pending = true ∧
        s'.gf F.bcnPeriodNext_period = a ∧ Answered s s' u 0 [(w + 2) % 2 ^ 32]) ∧
      ∀ q e, s.periodBad a = false → s.periodDue = some (q, e) →
        (w + 2 = e → s.handoverBegun w = false → Gives (.setPeriod u) s fun s' => s'.periodDue = some (a, e) ∧
          Answered s s' u 0 [e % 2 ^ 32]) ∧
        (w + 2 ≠ e ∨ s.handoverBegun w = true → Gives (.setPeriod u) s fun s' => s'.periodDue = s.periodDue ∧
          s'.periodHeld = some a ∧ Answered s s' u 0 [(e + 2) % 2 ^ 32])) ∧
    (Taken s u 0xA [full] →
      (a = 0 → Gives (.queryFirmware u) s fun s' => Answered s s' u 0
        ([s.gf F.stnFwStatus_svn * 65536 + s.gf F.stnFwStatus_major * 256 + s.gf F.stnFwStatus_minor, s.tools.length] ++
          s.tools)) ∧
      (2 < a → Gives (.queryFirmware u) s fun s' => Answered s s' u 4 [])) ∧
    (Taken s u 0xA [full, full] →
      (a = 1 → mfind s.tenants (s.arg u 1) = none → Gives (.queryTenant u) s fun s' => Answered s s' u 5 []) ∧
      (a = 1 → ∀ x, mfind s.tenants (s.arg u 1) = some x → Gives (.queryTenant u) s fun s' =>
        Answered s s' u 0 (Config.tenantWords x.cls x.deadline x.prec (s.seatOf (s.arg u 1))) ∧ s'.tenants = s.tenants) ∧
      (a = 2 → s.sec (s.arg u 1) = none → Gives (.queryResidency u) s fun s' => Answered s s' u 5 []) ∧
      (a = 2 → (s.sec (s.arg u 1)).isSome = true → Gives (.queryResidency u) s fun s' =>
        Answered s s' u 0 (Config.residencyWords (s.arg u 1)
          ((List.range (s.slotCount (s.arg u 1))).map fun i => (s.hslot (s.arg u 1) i).tenant)))) ∧
    (Taken s u 0xB (List.replicate 8 full) → s.ready = true →
      let k := s.arg u 4
      let i := s.arg u 5
      let new : Tenant := { cls := s.arg u 1, deadline := s.arg u 2, prec := s.arg u 3 }
      (s.tenantRange u = true → Gives (.registerTenant u) s fun s' => Answered s s' u 4 [] ∧ s'.tenants = s.tenants) ∧
      (s.tenantRange u = false → k = 0xFFF → Gives (.registerTenant u) s fun s' =>
        mfind s'.tenants a = some new ∧ s'.hostSlots = s.hostSlots ∧ Answered s s' u 0 []) ∧
      (s.tenantRange u = false → k ≠ 0xFFF → (s.sec k).isSome = true → (s.hslot k i).tenant = none →
        (s.hslot k i).due = none → s.seated a = false → s.residentCount < 16384 →
        Gives (.registerTenant u) s fun s' => mfind s'.tenants a = some new ∧
          (s'.hslot k i).due = some (a, s.arg u 6 + s.arg u 7 * 2 ^ 32) ∧ Answered s s' u 0 [])) ∧
    (Taken s u 0xC [full] → s.ready = true →
      ((mfind s.tenants a).isNone = true → Gives (.evictTenant u) s fun s' => Answered s s' u 5 []) ∧
      ∀ k i base, (mfind s.tenants a).isSome = true → s.seatOf a = some (k, i, base) →
        (s.hslot k i).evicting = none → Gives (.evictTenant u) s fun s' => (s'.hslot k i).evicting = some u ∧
          (u, MboxOp.evict a) ∈ s'.mboxJobs) ∧
    (u < 65 → s.mboxNext = some u → (s.gf F.hstMboxStatus_opcode u = 0 ∨ 14 < s.gf F.hstMboxStatus_opcode u) →
      Gives (.badOpcode u) s fun s' => Answered s s' u 2 [])

/-- RESET_DOMAIN from the mailbox (R734, R805): with no reset under way, the reset of the domain and target that the
argument names begins, that of a field still hot from a thermal trip once it has cooled (R665), and the slot waits for it; a tile or bay whose sector runs answers BAD_STATE, a target that
does not exist RANGE. That a target out of range is RANGE is deduced (log 55). -/
def Obligations.MailboxResets : Prop :=
  ∀ (s : State) (u t g cause : Nat), Taken s u 0xE [0x77FFFFF] → s.resets = [] → s.loadRun = none →
    let d := bits (s.arg u 0) 26 24
    let n := bits (s.arg u 0) 22 0
    (d = 0 → n = g * 2 ^ 20 + t → t < 589824 → g < 8 → s.right (.host (u / 16) 0) 0 (fieldOf t) = true →
      Gives (.groupReset (some u) t g) s fun s' => s'.grp t g = {} ∧ (u, MboxOp.reset 0 n) ∈ s'.mboxJobs) ∧
    (d = 0 → n = g * 2 ^ 20 + t → t < 589824 → g < 8 → s.right (.host (u / 16) 0) 0 (fieldOf t) = false →
      Gives (.groupReset (some u) t g) s fun s' => Answered s s' u 6 [] ∧ s'.groups = s.groups) ∧
    (d = 1 → n < 589824 →
      (s.sectorLive (fieldOf n) (s.sectorOf n) = false → Gives (.tileReset (some u) n) s fun s' =>
        (∀ off, off < 65536 → s'.sramByte n off = 0) ∧ (u, MboxOp.reset 1 n) ∈ s'.mboxJobs) ∧
      (s.sectorLive (fieldOf n) (s.sectorOf n) = true → Gives (.tileReset (some u) n) s fun s' =>
        Answered s s' u 3 [] ∧ s'.sram = s.sram)) ∧
    (d = 2 → n < 2304 → s.sectorLive (fieldOfBay n) (s.sectorOfBay n) = false → Gives (.bayReset (some u) n) s fun s' =>
      (∀ v b, bayOf v = n → s'.grp v b = {}) ∧ (u, MboxOp.reset 2 n) ∈ s'.mboxJobs) ∧
    (d = 3 → n < 64 → n ≠ s.keeperAt → s.tooHot n = true → Gives (.fieldReset (some u) n) s fun s' =>
      s'.fst = s.fst ∧ s'.resets = s.resets ∧ (u, MboxOp.reset 3 n) ∈ s'.mboxJobs) ∧
    (d = 3 → n < 64 → n ≠ s.keeperAt → s.tooHot n = false → Gives (.fieldReset (some u) n) s fun s' =>
      (s'.fld n).held = true ∧ s'.flag F.fkpStatus_resetting n = true ∧ (u, MboxOp.reset 3 n) ∈ s'.mboxJobs) ∧
    (d = 4 → n < 28 → u / 16 ≠ n → Gives (.rimPortReset (some u) n) s fun s' => (u, MboxOp.reset 4 n) ∈ s'.mboxJobs ∧
      s'.flag F.rstStatus_busy = true ∧ (n < 4 → (s'.gf F.stnStartupPorts_pcie).testBit n = false)) ∧
    (d = 1 → 589824 ≤ n → Gives (.tileReset (some u) n) s fun s' => Answered s s' u 4 []) ∧
    (d = 2 → 2304 ≤ n → Gives (.bayReset (some u) n) s fun s' => Answered s s' u 4 []) ∧
    (d = 3 → 64 ≤ n → Gives (.fieldReset (some u) n) s fun s' => Answered s s' u 4 []) ∧
    (d = 4 → 28 ≤ n → Gives (.rimPortReset (some u) n) s fun s' => Answered s s' u 4 []) ∧
    (d = 5 → n = 0 → Gives (.stationReset (some u) cause) s fun s' => s'.gf F.rstCause_cause = 2 ∧ s'.sram = [] ∧
      s'.groups = [] ∧ s'.loaded = none) ∧
    ((d = 5 ∧ n ≠ 0) ∨ 5 < d → Gives (.stationReset (some u) cause) s fun s' => Answered s s' u 4 [])

/-! ### Debug -/

/-- CHALLENGE gives a nonce, or answers DENIED under lockout; RESPONSE consumes the nonce and, with a valid nonce, key
and signature, opens a session with the rights, fields and length asked for, else answers BAD_STATE or DENIED and
opens none; END and expiry end a session (R869 to R873). The nonce is a free value (log 7); a reserved sub-operation
is RANGE: deduced (log 55). -/
def Obligations.DebugSessions : Prop :=
  ∀ (s : State) (u port t : Nat) (keyOk sigOk : Bool),
    let p := u / 16
    let sub := s.arg u 0 % 4
    (Taken s u 0xD [3] → sub = 0 →
      (s.lockedOut p = false → Gives (.debugAuthChallenge u) s fun s' =>
        mfind s'.nonces p = some s.nonceCount ∧ mfind s'.nonceEnd p = some (s.now + 10000000000) ∧
        Answered s s' u 0 ((List.range 12).map (fun k => (Config.nonce s.nonceCount).toNat / 2 ^ (32 * k) % 2 ^ 32) ++
          (List.range 4).map (fun k => s.fuses.serial / 2 ^ (32 * k) % 2 ^ 32) ++ [p])) ∧
      (s.lockedOut p = true → Gives (.debugAuthChallenge u) s fun s' => Answered s s' u 6 [] ∧
        s'.nonces = s.nonces)) ∧
    (Taken s u 0xD ([3, 7, full, full, 0xFFFFFF, 0, 0, 0] ++ List.replicate 48 full) → sub = 1 → s.arg u 4 ≠ 0 →
      ((mfind s.nonces p).isSome = true → s.now < mget 0 s.nonceEnd p →
        (keyOk = true → sigOk = true → Gives (.debugAuthResponse u keyOk sigOk) s fun s' =>
          s'.flag F.stnDebugSession_active 0 p = true ∧ s'.gf F.stnDebugSession_rights 0 p = s.arg u 1 ∧
          s'.rd .stnDebugFields 0 p = BitVec.ofNat 64 (s.arg u 2 + s.arg u 3 * 2 ^ 32) ∧
          mfind s'.sessionEnd p = some (s.now + s.arg u 4 * s.gf F.bcnPeriod_period) ∧ mfind s'.nonces p = none ∧
          Answered s s' u 0 []) ∧
        (keyOk = false ∨ sigOk = false → Gives (.debugAuthResponse u keyOk sigOk) s fun s' =>
          s'.flag F.stnDebugSession_active 0 p = s.flag F.stnDebugSession_active 0 p ∧ mfind s'.nonces p = none ∧
          Answered s s' u 6 [])) ∧
      (mfind s.nonces p = none ∨ mget 0 s.nonceEnd p ≤ s.now → Gives (.debugAuthResponse u keyOk sigOk) s fun s' =>
        s'.flag F.stnDebugSession_active 0 p = s.flag F.stnDebugSession_active 0 p ∧ mfind s'.nonces p = none ∧
        Answered s s' u 3 [])) ∧
    (Taken s u 0xD [3] → sub = 2 → Gives (.debugAuthEnd u) s fun s' =>
      s'.flag F.stnDebugSession_active 0 p = false ∧ Answered s s' u 0 []) ∧
    (Taken s u 0xD [3] → sub = 3 → Gives (.debugAuthEnd u) s fun s' => Answered s s' u 4 []) ∧
    (port < 5 → mfind s.sessionEnd port = some t → Gives (.debugSessionExpiry port) s fun s' =>
      s'.flag F.stnDebugSession_active 0 port = false ∧ t ≤ s'.now)

/-- With the GROUP right: HALT halts a RUNNING group with cause 1; STEP marks a HALTED one, whose next instruction
then issues past any breakpoint and leaves it HALTED with cause 4 (here a NOP); RESUME lets a HALTED group run on in
the watch it was halted in, later frees it for the next INTAKE. A breakpoint halts the group with cause 2 or 3.
Without the right nothing of the group changes (R875 to R879). The WRITE right lets a lane register of a HALTED group
be written (R880). A field's oldest event enters its ring (R886). That only a session holds the rights is deduced (log
56). -/
def Obligations.GroupControl : Prop :=
  ∀ (s : State) (req : Requester) (t g f c k : Nat) (gp : BitVec 3) (gn : Bool) (off : BitVec 16) (v : Word),
    let x := s.grp t g
    let cause (n : Nat) : BitVec 64 := BitVec.ofNat 64 ((s.fld (fieldOf t)).watch % 65536 * 65536 + n)
    (t < 589824 → g < 8 →
      (s.right req 0 (fieldOf t) = false → ∀ i ∈ [Instr.halt req t g, .step req t g, .resume req t g], Gives i s fun s' =>
        s'.groups = s.groups ∧ s'.regs = s.regs) ∧
      (s.right req 0 (fieldOf t) = true →
        (x.st = .running → Gives (.halt req t g) s fun s' => (s'.grp t g).st = .halted ∧ (s'.grp t g).pc = x.pc ∧
          s'.rd .dbgHaltCause t g = cause 1 ∧ s'.flag F.tgpCtl_halt t g = true ∧ s'.sram = s.sram) ∧
        (x.st ≠ .running → Gives (.halt req t g) s fun s' => s'.groups = s.groups ∧
          s'.flag F.tgpCtl_halt t g = true) ∧
        (x.st = .halted → x.stepPending = false → Gives (.step req t g) s fun s' =>
          (s'.grp t g).st = .halted ∧ (s'.grp t g).stepPending = true ∧ s'.regs = s.regs) ∧
        (x.st = .halted →
          (s.gf F.dbgHaltCause_watch_low t g = (s.fld (fieldOf t)).watch % 65536 → (s.fld (fieldOf t)).phase = .work →
            Gives (.resume req t g) s fun s' => (s'.grp t g).st = .running ∧ (s'.grp t g).pc = x.pc ∧
              s'.flag F.tgpCtl_halt t g = false) ∧
          (s.gf F.dbgHaltCause_watch_low t g ≠ (s.fld (fieldOf t)).watch % 65536 →
            Gives (.resume req t g) s fun s' => (s'.grp t g).st = .halted ∧ (s'.grp t g).released = true ∧
              s'.flag F.tgpCtl_halt t g = false)) ∧
        (x.st = .trapped → s.flag F.tgpCtl_halt t g = true → Gives (.resume req t g) s fun s' =>
          (s'.grp t g).st = .halted ∧ s'.rd .dbgHaltCause t g = cause 5) ∧
        (x.st = .trapped → s.flag F.tgpCtl_halt t g = false → Gives (.resume req t g) s fun s' =>
          (s'.grp t g).st = .trapped ∧ (s'.grp t g).released = true)) ∧
      (x.st = .halted → x.stepPending = true → (s.fld (fieldOf t)).phase = .work →
        let s1 := s.setGrp t g { x with st := .running, skipBreak := true, stepPending := false }
        s1.scan t = some g → s1.nextOf t g = .go c (.ctl .nop gp gn off) → c < settleStart (s.fld (fieldOf t)) →
        Gives (.stepIssue t g) s fun s' => (s'.grp t g).st = .halted ∧ (s'.grp t g).pc = (x.pc + 4) % 65536 ∧
          (s'.grp t g).stepPending = false ∧ s'.rd .dbgHaltCause t g = cause 4 ∧ (s'.til t).cyc = s.after t c 1) ∧
      (∀ i, x.st = .running → x.skipBreak = false → s.scan t = some g → s.nextOf t g = .go c i →
        c < settleStart (s.fld (fieldOf t)) → s.breakAt t g = some k → Gives (.breakpoint t g) s fun s' =>
          (s'.grp t g).st = .halted ∧ (s'.grp t g).pc = x.pc ∧ s'.rd .dbgHaltCause t g = cause (2 + k))) ∧
    (f < 64 → s.gf F.tilWinSel_tile f = t → s.gf F.dbgGroupSel_group f = g →
      (s.right req 1 f = true → x.st = .halted → k < 256 → Gives (.dbgRegWrite req f k v) s fun s' =>
        (∀ r j, (s'.grp t g).lane r j = if r = k / 8 ∧ j = k % 8 then v else x.lane r j) ∧
        (s'.grp t g).pc = x.pc ∧ (s'.grp t g).st = .halted ∧ s'.sram = s.sram) ∧
      (s.right req 1 f = false ∨ x.st ≠ .halted → Gives (.dbgRegWrite req f k v) s fun s' => s'.groups = s.groups)) ∧
    (f < 64 → (s.fld f).fogged = false → s.flag F.fkpStatus_resetting f = false → ∀ e q, (s.ring f).queue = e :: q →
      Gives (.eventRingWrite f) s fun s' => (s'.ring f).head = ((s.ring f).head + 1) % 2 ^ 32 ∧
        mfind (s'.ring f).slots ((s.ring f).head % 2048) =
          some { e with seq := (s.ring f).head, lost := (s.ring f).lostPending } ∧
        ((s.ring f).lostNew = 0 → (s'.ring f).queue = q))

/-! ### Keepers and registers -/

/-- A feed is noted, the Station Keeper's acknowledgement restarts the count, another's is refused and logged, and at the count's end
with no feed HOST_SILENT is logged (R790, R843); at its end with a feed, and where the Station Keeper's field is lost, the mirror takes
over and every debug session ends, or KEEPER_FATAL is logged and sounds (R844 to R846, R872); the foghorn's
automatic reset is a station reset (R846); a Field Keeper restarts on its standby core, is back within 20 ms or its field fogs (R841,
R842); a bus held low for 30 ms is logged and changes nothing else (R810). The cause of the automatic reset, and what a bus timeout
logs, are deduced (log 77). -/
def Obligations.KeepersWatch : Prop :=
  ∀ (s : State) (f t v port bus : Nat) (req : Requester),
    (port < 4 → Gives (.watchdogFeed port v) s fun s' => s'.flag F.stnWdogStatus_fed = true ∧
      mget 0 s'.wdogDoorbell port = v % 2 ^ 32) ∧
    (s.flag F.stnWdogStatus_fed = true → Gives (.stnWdogAck (.keeper 64)) s fun s' =>
      s'.flag F.stnWdogStatus_fed = false ∧ s'.wdogFrom = s.now) ∧
    (req ≠ .keeper 64 → Gives (.stnWdogAck req) s fun s' => s'.regs = s.regs ∧ s'.wdogFrom = s.wdogFrom ∧
      Logged s s' evAccessRefused) ∧
    (s.wdogArmed = true →
      let due := s.wdogFrom + s.gf F.stnWdogCfg_watches * s.gf F.bcnPeriod_period
      (s.flag F.stnWdogStatus_fed = false → Gives .stationWatchdog s fun s' => s'.gf F.stnWdogStatus_last = 1 ∧
        due ≤ s'.now ∧ s'.wdogFrom = s'.now ∧ s'.keeperAt = s.keeperAt ∧ Logged s s' evHostSilent) ∧
      (s.flag F.stnWdogStatus_fed = true → s.mirrorAble = true → Gives .stationWatchdog s fun s' =>
        s'.gf F.stnWdogStatus_last = 2 ∧ due ≤ s'.now ∧ s'.keeperAt = s.mirrorAt)) ∧
    ((s.fld s.keeperAt).fogged = true → (s.gf F.stnFoghorn_cause).testBit 5 = false →
      (s.mirrorAble = true → Gives .keeperFailover s fun s' => s'.keeperAt = s.mirrorAt ∧ s'.mirrorReady = false ∧
        ∀ p, p < 5 → s'.flag F.stnDebugSession_active 0 p = false) ∧
      (s.mirrorAble = false → Gives .keeperFailover s fun s' => s'.keeperAt = s.keeperAt ∧
        s'.flag F.stnFoghorn_asserted = true ∧ (s'.gf F.stnFoghorn_cause).testBit 5 = true ∧ Logged s s' evKeeperFatal)) ∧
    (s.fogAutoAt = some t → s.resets = [] → Gives .foghornAutoReset s fun s' => t ≤ s'.now ∧
      s'.gf F.rstCause_cause = (if (s.gf F.stnFoghorn_cause).testBit 4 then 3 else 4) ∧ s'.sram = [] ∧
      s'.fogAutoAt = none) ∧
    (f < 64 →
      (s.fieldDown f = false → s.flag F.fkpStatus_restarting f = false → Gives (.lockstepFault f) s fun s' =>
        s'.flag F.fkpStatus_restarting f = true ∧ s'.flag F.fkpStatus_standby f = true ∧
        mfind s'.restartAt f = some (s.now + 20000000)) ∧
      (s.flag F.fkpStatus_restarting f = true → Gives (.keeperRestartComplete f) s fun s' =>
        s'.flag F.fkpStatus_restarting f = false ∧ mfind s'.restartAt f = none ∧ s'.fields = s.fields) ∧
      (s.flag F.fkpStatus_restarting f = true → mfind s.restartAt f = some t → Gives (.keeperRestartTimeout f) s fun s' =>
        (s'.fld f).fogged = true ∧ t ≤ s'.now)) ∧
    (bus < 2 → Gives (.smbusClockLowTimeout bus) s fun s' => Logged s s' evAccessRefused ∧ s'.regs = s.regs ∧
      s'.fields = s.fields ∧ s'.answers = s.answers ∧ s'.now = s.now)

/-- A register whose write commands nothing and holds no state elsewhere. -/
def Sys2Proof.Claims.plainRegs : List Reg :=
  [.pwrAlertEn, .thmCfg, .stnEventIrq, .pwrCap, .fkpCfg, .stnEventSel, .dbgGroupSel, .mshSectorSel, .sptSectorSel,
   .tilWinSel, .fstWinAddr, .bcnStatus, .thmStatus, .pwrStatus, .rstCause, .stnFoghorn]

/-- A write of a word of a register by someone who may, with values in range, changes each field in that word by its
access type: RW as written, W1C cleared where written 1 but for the bits that hardware sets in the same cycle, RO unchanged (R10, R12),
and nothing else; a read gives the word; an access to a reserved or misaligned address, or of a size other than a word, completes with
an abort and changes no register (R7, R9, R895, R929). A word is
written through a tile's window, and a word of field store through FST_WIN_DATA, and no other byte (R183, R541). How a
requester sees its completion is the model's choice (log 17, 80); when a window may write is deduced (log 83). -/
def Obligations.RegisterAccesses : Prop :=
  ∀ (s : State) (req : Requester) (addr size word t off f : Nat) (k : RegKey) (v : Word), req ≠ .block →
    (s.place req addr = .reg k word → addr % 4 = 0 → word < 2 → s.barred (fieldOfAddr req addr) (addr % 0x100000) true = false →
      s.gatedBlock (fieldOfAddr req addr) (addr % 0x100000) = none → k.reg ∈ plainRegs → s.mayWrite req k = true →
      rangeOk k.reg k.idx (withWord (s.rd k.reg k.unit k.idx).toNat word v) = true →
      s.agrees k (withWord (s.rd k.reg k.unit k.idx).toNat word v) = true →
      Gives (.registerWrite req ⟨addr, 4⟩ v) s fun s' => mfind s'.answers req = some (0, 0) ∧
        (∀ r a b, ⟨r, a, b⟩ ≠ k → s'.rd r a b = s.rd r a b) ∧ s'.sram = s.sram ∧ s'.fst = s.fst ∧
        ∀ x ∈ k.reg.fields, x.lo / 32 = word → x.hi / 32 = word →
          let old := bits (s.rd k.reg k.unit k.idx).toNat x.hi x.lo
          let new := bits v.toNat (x.hi % 32) (x.lo % 32)
          let now := bits (s'.rd k.reg k.unit k.idx).toNat x.hi x.lo
          (x.acc = .rw → now = new) ∧ (x.acc = .ro → now = old) ∧
          (x.acc = .w1c → now = Nat.land old (2 ^ (x.hi + 1 - x.lo) - 1 - new + Nat.land new (bits (s.setNow k) x.hi x.lo)))) ∧
    (s.place req addr = .reg k word → addr % 4 = 0 → s.barred (fieldOfAddr req addr) (addr % 0x100000) false = false →
      s.gatedBlock (fieldOfAddr req addr) (addr % 0x100000) = none → s.readDenied req k = false →
      k.reg.wide = false ∨ word = 0 → Gives (.registerRead req ⟨addr, 4⟩) s fun s' =>
        mfind s'.answers req = some (0, BitVec.ofNat 32 (s.readValue k)) ∧ s'.regs = s.regs ∧ s'.sram = s.sram ∧
        s'.fst = s.fst) ∧
    (size ≠ 4 ∨ addr % 4 ≠ 0 ∨ s.place req addr = .reserved →
      (Gives (.registerRead req ⟨addr, size⟩) s fun s' => mfind s'.answers req = some (1, 0) ∧ s'.regs = s.regs) ∧
      (Gives (.registerWrite req ⟨addr, size⟩ v) s fun s' => mfind s'.answers req = some (1, 0) ∧ s'.regs = s.regs ∧
        s'.sram = s.sram ∧ s'.fst = s.fst)) ∧
    ((byKeeper req = true ∨ req = .jtag ∨ ∃ p, req = .host p 0) →
      (t < 589824 → off < 0x9C00 → off % 4 = 0 → s.gf F.tilWinSel_tile (fieldOf t) = t →
        s.gf F.tilRole_role t ≠ 0 → s.gf F.tilRole_role t ≠ 2 → s.barred (fieldOf t) (0xA4000 + off) true = false →
        s.portIdle t off = true → s.windowMayWrite t = true →
        Gives (.tileWindowWrite req t off v) s fun s' => s'.sramWord t off = { w := v } ∧
          (∀ a, (a < sramAddr t off ∨ sramAddr t off + 4 ≤ a) → memRead s'.sram a = memRead s.sram a) ∧
          mfind s'.answers req = some (0, 0) ∧ s'.regs = s.regs ∧ s'.fst = s.fst ∧ s'.groups = s.groups) ∧
      (f < 64 → s.barred f 0x80008 true = false →
        let a := fstAddr f (s.gf F.fstWinAddr_addr f / 4 * 4)
        (s.fstWindowMayWrite f (s.gf F.fstWinAddr_addr f / 4 * 4) = true → Gives (.fstWinDataWrite req f v) s fun s' =>
          (∀ j, j < 4 → memRead s'.fst (a + j) = byteOf v j) ∧
          (∀ b, (b < a ∨ a + 4 ≤ b) → memRead s'.fst b = memRead s.fst b) ∧ mfind s'.answers req = some (0, 0) ∧
          s'.regs = s.regs ∧ s'.sram = s.sram) ∧
        (s.fstWindowMayWrite f (s.gf F.fstWinAddr_addr f / 4 * 4) = false → Gives (.fstWinDataWrite req f v) s fun s' =>
          s'.fst = s.fst ∧ mfind s'.answers req = some (1, 0))))
end

