-- ==== Sys2Proof/Laws/Map.lean ====
section
/-! SUPPORT. Laws of the sparse maps and of the memories: what is read after a write, and that every memory operation keeps
the canonical form. -/

namespace Sys2Proof.Machine

variable {κ α : Type} [DecidableEq κ]

@[simp] theorem mget_nil (d : α) (k : κ) : mget d [] k = d := rfl
@[simp] theorem mfind_nil (k : κ) : mfind ([] : Smap κ α) k = none := rfl

theorem mget_mdel (d : α) (m : Smap κ α) (k j : κ) : mget d (mdel m k) j = if j = k then d else mget d m j := by
  induction m with
  | nil => simp [mdel]
  | cons e m ih =>
    obtain ⟨i, v⟩ := e
    by_cases h : i = k
    · subst h
      simp only [mdel, if_true, ih, mget]
      by_cases hj : j = i
      · simp [hj]
      · simp [hj, Ne.symm hj]
    · simp only [mdel, h, if_false, mget, ih]
      by_cases hj : i = j
      · subst hj
        simp [h]
      · simp [hj]

theorem mfind_mdel (m : Smap κ α) (k j : κ) : mfind (mdel m k) j = if j = k then none else mfind m j := by
  induction m with
  | nil => simp [mdel]
  | cons e m ih =>
    obtain ⟨i, v⟩ := e
    by_cases h : i = k
    · subst h
      simp only [mdel, if_true, ih, mfind]
      by_cases hj : j = i
      · simp [hj]
      · simp [hj, Ne.symm hj]
    · simp only [mdel, h, if_false, mfind, ih]
      by_cases hj : i = j
      · subst hj
        simp [h]
      · simp [hj]

theorem mget_mput (d : α) (m : Smap κ α) (k j : κ) (v : α) : mget d (mput m k v) j = if j = k then v else mget d m j := by
  by_cases h : j = k
  · simp [mput, mget, h]
  · simp [mput, mget, mget_mdel, h, Ne.symm h]

theorem mfind_mput (m : Smap κ α) (k j : κ) (v : α) : mfind (mput m k v) j = if j = k then some v else mfind m j := by
  by_cases h : j = k
  · simp [mput, mfind, h]
  · simp [mput, mfind, mfind_mdel, h, Ne.symm h]

@[simp] theorem mget_mput_self (d : α) (m : Smap κ α) (k : κ) (v : α) : mget d (mput m k v) k = v := by simp [mget_mput]
@[simp] theorem mget_mput_ne (d : α) (m : Smap κ α) {k j : κ} (v : α) (h : j ≠ k) : mget d (mput m k v) j = mget d m j := by
  simp [mget_mput, h]
@[simp] theorem mfind_mput_self (m : Smap κ α) (k : κ) (v : α) : mfind (mput m k v) k = some v := by simp [mfind_mput]

theorem mget_eq_mfind (d : α) (m : Smap κ α) (k : κ) : mget d m k = (mfind m k).getD d := by
  induction m with
  | nil => rfl
  | cons e m ih =>
    obtain ⟨i, v⟩ := e
    by_cases h : i = k
    · simp [mget, mfind, h]
    · simp [mget, mfind, h, ih]

/-! ### Memory -/

theorem memRead_memErase (m : List Host.Cell) (a b : Nat) :
    memRead (memErase a m) b = if b = a then unlistedByte else memRead m b := by
  induction m with
  | nil => simp [memErase, memRead]
  | cons e m ih =>
    obtain ⟨k, v⟩ := e
    by_cases h : k = a
    · subst h
      by_cases hb : b = k
      · subst hb
        simp only [if_true] at ih
        simp only [memErase, if_true, ih]
      · simp [memErase, ih, memRead, hb, Ne.symm hb]
    · by_cases hb : k = b
      · subst hb
        simp [memErase, memRead, h]
      · simp [memErase, memRead, h, hb, ih]

theorem memRead_memInsert (m : List Host.Cell) (a b : Nat) (v : Byte) (hm : ∀ e ∈ m, e.1 ≠ a) :
    memRead (memInsert a v m) b = if b = a then v else memRead m b := by
  induction m with
  | nil =>
    by_cases hb : b = a
    · simp [memInsert, memRead, hb]
    · simp [memInsert, memRead, hb, Ne.symm hb]
  | cons e m ih =>
    obtain ⟨k, c⟩ := e
    have hk : k ≠ a := hm (k, c) (by simp)
    have ih := ih fun e he => hm e (List.mem_cons_of_mem _ he)
    by_cases hlt : a < k
    · by_cases hb : b = a
      · simp [memInsert, memRead, hlt, hb]
      · simp [memInsert, memRead, hlt, hb, Ne.symm hb]
    · by_cases hb : k = b
      · subst hb
        simp [memInsert, memRead, hlt, hk]
      · simp [memInsert, memRead, hlt, hb, ih]

theorem memErase_ne (m : List Host.Cell) (a : Nat) : ∀ e ∈ memErase a m, e.1 ≠ a := by
  induction m with
  | nil => simp [memErase]
  | cons e m ih =>
    obtain ⟨k, c⟩ := e
    by_cases h : k = a
    · simpa [memErase, h] using ih
    · intro e he
      simp only [memErase, h, if_false, List.mem_cons] at he
      rcases he with rfl | he
      · exact h
      · exact ih e he

/-- A byte read after a write is the byte written, and every other byte reads as before, whatever the memory's form. -/
theorem memRead_memWrite (m : List Host.Cell) (a b : Nat) (v : Byte) :
    memRead (memWrite m a v) b = if b = a then v else memRead m b := by
  by_cases hv : v = unlistedByte
  · simp [memWrite, hv, memRead_memErase]
  · rw [memWrite, if_neg hv, memRead_memInsert _ _ _ _ (memErase_ne m a), memRead_memErase]
    by_cases hb : b = a <;> simp [hb]

@[simp] theorem memRead_memWrite_self (m : List Host.Cell) (a : Nat) (v : Byte) : memRead (memWrite m a v) a = v := by
  simp [memRead_memWrite]

@[simp] theorem memRead_memWrite_ne (m : List Host.Cell) {a b : Nat} (v : Byte) (h : b ≠ a) :
    memRead (memWrite m a v) b = memRead m b := by simp [memRead_memWrite, h]

/-- A word written changes its four bytes and no other. -/
theorem memRead_memWriteWord (m : List Host.Cell) (a b : Nat) (w : Word) :
    memRead (memWriteWord m a w) b = if a ≤ b ∧ b < a + 4 then byteOf w (b - a) else memRead m b := by
  simp only [memWriteWord, memRead_memWrite]
  split
  · next h => subst h; simp
  · split
    · next h => subst h; simp
    · split
      · next h => subst h; simp
      · split
        · next h => subst h; simp
        · rw [if_neg (by omega)]

theorem memWriteWord_frame (m : List Host.Cell) (a b : Nat) (w : Word) (h : b < a ∨ a + 4 ≤ b) :
    memRead (memWriteWord m a w) b = memRead m b := by
  rw [memRead_memWriteWord, if_neg (by omega)]

/-- The canonical form, cell by cell. -/
theorem memWf_cons (k : Nat) (b : Byte) (m : List Host.Cell) :
    memWf ((k, b) :: m) = true ↔ b ≠ unlistedByte ∧ (∀ e, m.head? = some e → k < e.1) ∧ memWf m = true := by
  cases m with
  | nil => simp [memWf]
  | cons e m =>
    obtain ⟨k', b'⟩ := e
    simp [memWf, and_assoc]

/-- In canonical form the first address is the lowest. -/
theorem memWf_lowest {k : Nat} {b : Byte} {m : List Host.Cell} (h : memWf ((k, b) :: m) = true) : ∀ e ∈ m, k < e.1 := by
  induction m generalizing k b with
  | nil => simp
  | cons e m ih =>
    obtain ⟨k', b'⟩ := e
    rw [memWf_cons] at h
    have hk : k < k' := h.2.1 _ rfl
    intro e he
    rcases List.mem_cons.1 he with rfl | he
    · exact hk
    · exact lt_trans hk (ih h.2.2 e he)

theorem memWf_cons' (k : Nat) (b : Byte) (m : List Host.Cell) (hb : b ≠ unlistedByte) (hm : memWf m = true)
    (hk : ∀ e ∈ m, k < e.1) : memWf ((k, b) :: m) = true := by
  rw [memWf_cons]
  exact ⟨hb, fun e he => hk e (List.mem_of_mem_head? he), hm⟩

/-- Cells left out keep the form. -/
theorem memWf_filter (p : Host.Cell → Bool) (m : List Host.Cell) (h : memWf m = true) : memWf (m.filter p) = true := by
  induction m with
  | nil => simpa using h
  | cons e m ih =>
    obtain ⟨k, b⟩ := e
    have hw := (memWf_cons k b m).1 h
    have ih := ih hw.2.2
    by_cases hp : p (k, b) = true
    · rw [List.filter_cons_of_pos hp]
      exact memWf_cons' k b _ hw.1 ih fun e he => memWf_lowest h e (List.mem_filter.1 he).1
    · rw [List.filter_cons_of_neg hp]
      exact ih

theorem memErase_eq_filter (a : Nat) (m : List Host.Cell) : memErase a m = m.filter fun e => e.1 ≠ a := by
  induction m with
  | nil => rfl
  | cons e m ih =>
    obtain ⟨k, b⟩ := e
    by_cases h : k = a <;> simp [memErase, h, ih]

theorem memWf_memErase (a : Nat) (m : List Host.Cell) (h : memWf m = true) : memWf (memErase a m) = true := by
  rw [memErase_eq_filter]
  exact memWf_filter _ m h

theorem memWf_memClear (m : List Host.Cell) (lo n : Nat) (h : memWf m = true) : memWf (memClear m lo n) = true :=
  memWf_filter _ m h

theorem mem_memInsert {a : Nat} {b : Byte} {m : List Host.Cell} {e : Host.Cell} (h : e ∈ memInsert a b m) :
    e = (a, b) ∨ e ∈ m := by
  induction m with
  | nil => simpa [memInsert] using h
  | cons f m ih =>
    obtain ⟨k, c⟩ := f
    simp only [memInsert] at h
    split at h
    · simpa using h
    · rcases List.mem_cons.1 h with rfl | h
      · simp
      · rcases ih h with h | h <;> simp [h]

theorem memWf_memInsert (a : Nat) (b : Byte) (m : List Host.Cell) (hb : b ≠ unlistedByte) (hm : memWf m = true)
    (ha : ∀ e ∈ m, e.1 ≠ a) : memWf (memInsert a b m) = true := by
  induction m with
  | nil => simp [memInsert, memWf, hb]
  | cons e m ih =>
    obtain ⟨k, c⟩ := e
    have hw := (memWf_cons k c m).1 hm
    have hne : k ≠ a := ha (k, c) (by simp)
    simp only [memInsert]
    split
    · next hlt =>
      refine memWf_cons' a b _ hb hm fun e he => ?_
      rcases List.mem_cons.1 he with rfl | he
      · exact hlt
      · exact lt_trans hlt (memWf_lowest hm e he)
    · next hlt =>
      refine memWf_cons' k c _ hw.1 (ih hw.2.2 fun e he => ha e (List.mem_cons_of_mem _ he)) fun e he => ?_
      rcases mem_memInsert he with rfl | he
      · simp only
        omega
      · exact memWf_lowest hm e he

/-- A write keeps the canonical form. -/
theorem memWf_memWrite (m : List Host.Cell) (a : Nat) (b : Byte) (h : memWf m = true) : memWf (memWrite m a b) = true := by
  unfold memWrite
  split
  · exact memWf_memErase a m h
  · next hb => exact memWf_memInsert a b _ hb (memWf_memErase a m h) (memErase_ne m a)

theorem memWf_memWriteWord (m : List Host.Cell) (a : Nat) (w : Word) (h : memWf m = true) :
    memWf (memWriteWord m a w) = true := by
  unfold memWriteWord
  exact memWf_memWrite _ _ _ (memWf_memWrite _ _ _ (memWf_memWrite _ _ _ (memWf_memWrite _ _ _ h)))

theorem memWf_memWriteBytes (m : List Host.Cell) (a : Nat) (bs : List Byte) (h : memWf m = true) :
    memWf (memWriteBytes m a bs) = true := by
  induction bs generalizing m a with
  | nil => exact h
  | cons b bs ih => exact ih _ _ (memWf_memWrite m a b h)

/-- Bytes written change the bytes at their addresses and no other. -/
theorem memWriteBytes_frame (m : List Host.Cell) (a : Nat) (bs : List Byte) (b : Nat) (h : b < a ∨ a + bs.length ≤ b) :
    memRead (memWriteBytes m a bs) b = memRead m b := by
  induction bs generalizing m a with
  | nil => rfl
  | cons x bs ih =>
    simp only [List.length_cons] at h
    rw [memWriteBytes, ih _ _ (by omega), memRead_memWrite, if_neg (by omega)]

theorem memRead_memWriteBytes (m : List Host.Cell) (a : Nat) (bs : List Byte) (k : Nat) (h : k < bs.length) :
    memRead (memWriteBytes m a bs) (a + k) = bs[k] := by
  induction bs generalizing m a k with
  | nil => simp at h
  | cons x bs ih =>
    cases k with
    | zero => simp [memWriteBytes, memWriteBytes_frame _ (a + 1) bs a (by omega)]
    | succ k =>
      have := ih (memWrite m a x) (a + 1) k (by simpa using h)
      simpa [memWriteBytes, Nat.add_assoc, Nat.add_comm 1 k] using this

end Sys2Proof.Machine
end

