-- ==== Sys2Proof/Laws/State.lean ====
section
/-! SUPPORT. What each update of State leaves as it is, one lemma for each field and each getter, and what is read after an
update. -/

namespace Sys2Proof.Machine

/-! ### `State.wr` -/

@[simp] theorem State.wr_pending (s : State) (r : Reg) (u i : Nat) (w : BitVec 64) : (s.wr r u i w).pending = s.pending := rfl
@[simp] theorem State.wr_now (s : State) (r : Reg) (u i : Nat) (w : BitVec 64) : (s.wr r u i w).now = s.now := rfl
@[simp] theorem State.wr_fresh (s : State) (r : Reg) (u i : Nat) (w : BitVec 64) : (s.wr r u i w).fresh = s.fresh := rfl
@[simp] theorem State.wr_nextPkt (s : State) (r : Reg) (u i : Nat) (w : BitVec 64) : (s.wr r u i w).nextPkt = s.nextPkt := rfl
@[simp] theorem State.wr_fuses (s : State) (r : Reg) (u i : Nat) (w : BitVec 64) : (s.wr r u i w).fuses = s.fuses := rfl
@[simp] theorem State.wr_out (s : State) (r : Reg) (u i : Nat) (w : BitVec 64) : (s.wr r u i w).out = s.out := rfl
@[simp] theorem State.wr_sram (s : State) (r : Reg) (u i : Nat) (w : BitVec 64) : (s.wr r u i w).sram = s.sram := rfl
@[simp] theorem State.wr_sramBad (s : State) (r : Reg) (u i : Nat) (w : BitVec 64) : (s.wr r u i w).sramBad = s.sramBad := rfl
@[simp] theorem State.wr_sramWeak (s : State) (r : Reg) (u i : Nat) (w : BitVec 64) : (s.wr r u i w).sramWeak = s.sramWeak := rfl
@[simp] theorem State.wr_fst (s : State) (r : Reg) (u i : Nat) (w : BitVec 64) : (s.wr r u i w).fst = s.fst := rfl
@[simp] theorem State.wr_fstBad (s : State) (r : Reg) (u i : Nat) (w : BitVec 64) : (s.wr r u i w).fstBad = s.fstBad := rfl
@[simp] theorem State.wr_fstWeak (s : State) (r : Reg) (u i : Nat) (w : BitVec 64) : (s.wr r u i w).fstWeak = s.fstWeak := rfl
@[simp] theorem State.wr_rings (s : State) (r : Reg) (u i : Nat) (w : BitVec 64) : (s.wr r u i w).rings = s.rings := rfl
@[simp] theorem State.wr_fields (s : State) (r : Reg) (u i : Nat) (w : BitVec 64) : (s.wr r u i w).fields = s.fields := rfl
@[simp] theorem State.wr_groups (s : State) (r : Reg) (u i : Nat) (w : BitVec 64) : (s.wr r u i w).groups = s.groups := rfl
@[simp] theorem State.wr_tiles (s : State) (r : Reg) (u i : Nat) (w : BitVec 64) : (s.wr r u i w).tiles = s.tiles := rfl
@[simp] theorem State.wr_slots (s : State) (r : Reg) (u i : Nat) (w : BitVec 64) : (s.wr r u i w).slots = s.slots := rfl
@[simp] theorem State.wr_rules (s : State) (r : Reg) (u i : Nat) (w : BitVec 64) : (s.wr r u i w).rules = s.rules := rfl
@[simp] theorem State.wr_buoys (s : State) (r : Reg) (u i : Nat) (w : BitVec 64) : (s.wr r u i w).buoys = s.buoys := rfl
@[simp] theorem State.wr_buoyBlocks (s : State) (r : Reg) (u i : Nat) (w : BitVec 64) : (s.wr r u i w).buoyBlocks = s.buoyBlocks := rfl
@[simp] theorem State.wr_sectorTags (s : State) (r : Reg) (u i : Nat) (w : BitVec 64) : (s.wr r u i w).sectorTags = s.sectorTags := rfl
@[simp] theorem State.wr_packets (s : State) (r : Reg) (u i : Nat) (w : BitVec 64) : (s.wr r u i w).packets = s.packets := rfl
@[simp] theorem State.wr_answers (s : State) (r : Reg) (u i : Nat) (w : BitVec 64) : (s.wr r u i w).answers = s.answers := rfl
@[simp] theorem State.wr_journal (s : State) (r : Reg) (u i : Nat) (w : BitVec 64) : (s.wr r u i w).journal = s.journal := rfl
@[simp] theorem State.wr_lenses (s : State) (r : Reg) (u i : Nat) (w : BitVec 64) : (s.wr r u i w).lenses = s.lenses := rfl
@[simp] theorem State.wr_mvs (s : State) (r : Reg) (u i : Nat) (w : BitVec 64) : (s.wr r u i w).mvs = s.mvs := rfl
@[simp] theorem State.wr_sectors (s : State) (r : Reg) (u i : Nat) (w : BitVec 64) : (s.wr r u i w).sectors = s.sectors := rfl
@[simp] theorem State.wr_live (s : State) (r : Reg) (u i : Nat) (w : BitVec 64) : (s.wr r u i w).live = s.live := rfl
@[simp] theorem State.wr_mboxQueue (s : State) (r : Reg) (u i : Nat) (w : BitVec 64) : (s.wr r u i w).mboxQueue = s.mboxQueue := rfl
@[simp] theorem State.wr_mboxJobs (s : State) (r : Reg) (u i : Nat) (w : BitVec 64) : (s.wr r u i w).mboxJobs = s.mboxJobs := rfl
@[simp] theorem State.wr_resets (s : State) (r : Reg) (u i : Nat) (w : BitVec 64) : (s.wr r u i w).resets = s.resets := rfl
@[simp] theorem State.wr_bays (s : State) (r : Reg) (u i : Nat) (w : BitVec 64) : (s.wr r u i w).bays = s.bays := rfl
@[simp] theorem State.wr_settleDue (s : State) (r : Reg) (u i : Nat) (w : BitVec 64) : (s.wr r u i w).settleDue = s.settleDue := rfl
@[simp] theorem State.wr_periodWrites (s : State) (r : Reg) (u i : Nat) (w : BitVec 64) : (s.wr r u i w).periodWrites = s.periodWrites := rfl
@[simp] theorem State.wr_watchSpan (s : State) (r : Reg) (u i : Nat) (w : BitVec 64) : (s.wr r u i w).watchSpan = s.watchSpan := rfl
@[simp] theorem State.wr_hwSet (s : State) (r : Reg) (u i : Nat) (w : BitVec 64) : (s.wr r u i w).hwSet = s.hwSet := rfl
@[simp] theorem State.wr_rwlWrites (s : State) (r : Reg) (u i : Nat) (w : BitVec 64) : (s.wr r u i w).rwlWrites = s.rwlWrites := rfl
@[simp] theorem State.wr_unlocked (s : State) (r : Reg) (u i : Nat) (w : BitVec 64) : (s.wr r u i w).unlocked = s.unlocked := rfl
@[simp] theorem State.wr_copyA (s : State) (r : Reg) (u i : Nat) (w : BitVec 64) : (s.wr r u i w).copyA = s.copyA := rfl
@[simp] theorem State.wr_copyB (s : State) (r : Reg) (u i : Nat) (w : BitVec 64) : (s.wr r u i w).copyB = s.copyB := rfl
@[simp] theorem State.wr_ledgerRepair (s : State) (r : Reg) (u i : Nat) (w : BitVec 64) : (s.wr r u i w).ledgerRepair = s.ledgerRepair := rfl
@[simp] theorem State.wr_lostTiles (s : State) (r : Reg) (u i : Nat) (w : BitVec 64) : (s.wr r u i w).lostTiles = s.lostTiles := rfl
@[simp] theorem State.wr_fld (s : State) (r : Reg) (u i : Nat) (w : BitVec 64) (f' : Nat) :
    (s.wr r u i w).fld f' = s.fld f' := rfl
@[simp] theorem State.wr_grp (s : State) (r : Reg) (u i : Nat) (w : BitVec 64) (t' g' : Nat) :
    (s.wr r u i w).grp t' g' = s.grp t' g' := rfl
@[simp] theorem State.wr_til (s : State) (r : Reg) (u i : Nat) (w : BitVec 64) (t' : Nat) :
    (s.wr r u i w).til t' = s.til t' := rfl
@[simp] theorem State.wr_slot (s : State) (r : Reg) (u i : Nat) (w : BitVec 64) (t' k' : Nat) :
    (s.wr r u i w).slot t' k' = s.slot t' k' := rfl
@[simp] theorem State.wr_rule (s : State) (r : Reg) (u i : Nat) (w : BitVec 64) (t' k' : Nat) :
    (s.wr r u i w).rule t' k' = s.rule t' k' := rfl
@[simp] theorem State.wr_buoy (s : State) (r : Reg) (u i : Nat) (w : BitVec 64) (b' i' : Nat) :
    (s.wr r u i w).buoy b' i' = s.buoy b' i' := rfl
@[simp] theorem State.wr_blk (s : State) (r : Reg) (u i : Nat) (w : BitVec 64) (b' : Nat) :
    (s.wr r u i w).blk b' = s.blk b' := rfl
@[simp] theorem State.wr_tagSt (s : State) (r : Reg) (u i : Nat) (w : BitVec 64) (a' b' : Nat) :
    (s.wr r u i w).tagSt a' b' = s.tagSt a' b' := rfl
@[simp] theorem State.wr_ring (s : State) (r : Reg) (u i : Nat) (w : BitVec 64) (r' : Nat) :
    (s.wr r u i w).ring r' = s.ring r' := rfl
@[simp] theorem State.wr_sramByte (s : State) (r : Reg) (u i : Nat) (w : BitVec 64) (t' o' : Nat) :
    (s.wr r u i w).sramByte t' o' = s.sramByte t' o' := rfl
@[simp] theorem State.wr_fstByte (s : State) (r : Reg) (u i : Nat) (w : BitVec 64) (f' o' : Nat) :
    (s.wr r u i w).fstByte f' o' = s.fstByte f' o' := rfl
@[simp] theorem State.wr_pkt (s : State) (r : Reg) (u i : Nat) (w : BitVec 64) (id' : Nat) :
    (s.wr r u i w).pkt id' = s.pkt id' := rfl

/-! ### `State.sf` -/

@[simp] theorem State.sf_pending (s : State) (f : RegField) (u i v : Nat) : (s.sf f u i v).pending = s.pending := rfl
@[simp] theorem State.sf_now (s : State) (f : RegField) (u i v : Nat) : (s.sf f u i v).now = s.now := rfl
@[simp] theorem State.sf_fresh (s : State) (f : RegField) (u i v : Nat) : (s.sf f u i v).fresh = s.fresh := rfl
@[simp] theorem State.sf_nextPkt (s : State) (f : RegField) (u i v : Nat) : (s.sf f u i v).nextPkt = s.nextPkt := rfl
@[simp] theorem State.sf_fuses (s : State) (f : RegField) (u i v : Nat) : (s.sf f u i v).fuses = s.fuses := rfl
@[simp] theorem State.sf_out (s : State) (f : RegField) (u i v : Nat) : (s.sf f u i v).out = s.out := rfl
@[simp] theorem State.sf_sram (s : State) (f : RegField) (u i v : Nat) : (s.sf f u i v).sram = s.sram := rfl
@[simp] theorem State.sf_sramBad (s : State) (f : RegField) (u i v : Nat) : (s.sf f u i v).sramBad = s.sramBad := rfl
@[simp] theorem State.sf_sramWeak (s : State) (f : RegField) (u i v : Nat) : (s.sf f u i v).sramWeak = s.sramWeak := rfl
@[simp] theorem State.sf_fst (s : State) (f : RegField) (u i v : Nat) : (s.sf f u i v).fst = s.fst := rfl
@[simp] theorem State.sf_fstBad (s : State) (f : RegField) (u i v : Nat) : (s.sf f u i v).fstBad = s.fstBad := rfl
@[simp] theorem State.sf_fstWeak (s : State) (f : RegField) (u i v : Nat) : (s.sf f u i v).fstWeak = s.fstWeak := rfl
@[simp] theorem State.sf_rings (s : State) (f : RegField) (u i v : Nat) : (s.sf f u i v).rings = s.rings := rfl
@[simp] theorem State.sf_fields (s : State) (f : RegField) (u i v : Nat) : (s.sf f u i v).fields = s.fields := rfl
@[simp] theorem State.sf_groups (s : State) (f : RegField) (u i v : Nat) : (s.sf f u i v).groups = s.groups := rfl
@[simp] theorem State.sf_tiles (s : State) (f : RegField) (u i v : Nat) : (s.sf f u i v).tiles = s.tiles := rfl
@[simp] theorem State.sf_slots (s : State) (f : RegField) (u i v : Nat) : (s.sf f u i v).slots = s.slots := rfl
@[simp] theorem State.sf_rules (s : State) (f : RegField) (u i v : Nat) : (s.sf f u i v).rules = s.rules := rfl
@[simp] theorem State.sf_buoys (s : State) (f : RegField) (u i v : Nat) : (s.sf f u i v).buoys = s.buoys := rfl
@[simp] theorem State.sf_buoyBlocks (s : State) (f : RegField) (u i v : Nat) : (s.sf f u i v).buoyBlocks = s.buoyBlocks := rfl
@[simp] theorem State.sf_sectorTags (s : State) (f : RegField) (u i v : Nat) : (s.sf f u i v).sectorTags = s.sectorTags := rfl
@[simp] theorem State.sf_packets (s : State) (f : RegField) (u i v : Nat) : (s.sf f u i v).packets = s.packets := rfl
@[simp] theorem State.sf_answers (s : State) (f : RegField) (u i v : Nat) : (s.sf f u i v).answers = s.answers := rfl
@[simp] theorem State.sf_journal (s : State) (f : RegField) (u i v : Nat) : (s.sf f u i v).journal = s.journal := rfl
@[simp] theorem State.sf_lenses (s : State) (f : RegField) (u i v : Nat) : (s.sf f u i v).lenses = s.lenses := rfl
@[simp] theorem State.sf_mvs (s : State) (f : RegField) (u i v : Nat) : (s.sf f u i v).mvs = s.mvs := rfl
@[simp] theorem State.sf_sectors (s : State) (f : RegField) (u i v : Nat) : (s.sf f u i v).sectors = s.sectors := rfl
@[simp] theorem State.sf_live (s : State) (f : RegField) (u i v : Nat) : (s.sf f u i v).live = s.live := rfl
@[simp] theorem State.sf_mboxQueue (s : State) (f : RegField) (u i v : Nat) : (s.sf f u i v).mboxQueue = s.mboxQueue := rfl
@[simp] theorem State.sf_mboxJobs (s : State) (f : RegField) (u i v : Nat) : (s.sf f u i v).mboxJobs = s.mboxJobs := rfl
@[simp] theorem State.sf_resets (s : State) (f : RegField) (u i v : Nat) : (s.sf f u i v).resets = s.resets := rfl
@[simp] theorem State.sf_bays (s : State) (f : RegField) (u i v : Nat) : (s.sf f u i v).bays = s.bays := rfl
@[simp] theorem State.sf_settleDue (s : State) (f : RegField) (u i v : Nat) : (s.sf f u i v).settleDue = s.settleDue := rfl
@[simp] theorem State.sf_periodWrites (s : State) (f : RegField) (u i v : Nat) : (s.sf f u i v).periodWrites = s.periodWrites := rfl
@[simp] theorem State.sf_watchSpan (s : State) (f : RegField) (u i v : Nat) : (s.sf f u i v).watchSpan = s.watchSpan := rfl
@[simp] theorem State.sf_hwSet (s : State) (f : RegField) (u i v : Nat) : (s.sf f u i v).hwSet = s.hwSet := rfl
@[simp] theorem State.sf_rwlWrites (s : State) (f : RegField) (u i v : Nat) : (s.sf f u i v).rwlWrites = s.rwlWrites := rfl
@[simp] theorem State.sf_unlocked (s : State) (f : RegField) (u i v : Nat) : (s.sf f u i v).unlocked = s.unlocked := rfl
@[simp] theorem State.sf_copyA (s : State) (f : RegField) (u i v : Nat) : (s.sf f u i v).copyA = s.copyA := rfl
@[simp] theorem State.sf_copyB (s : State) (f : RegField) (u i v : Nat) : (s.sf f u i v).copyB = s.copyB := rfl
@[simp] theorem State.sf_ledgerRepair (s : State) (f : RegField) (u i v : Nat) : (s.sf f u i v).ledgerRepair = s.ledgerRepair := rfl
@[simp] theorem State.sf_lostTiles (s : State) (f : RegField) (u i v : Nat) : (s.sf f u i v).lostTiles = s.lostTiles := rfl
@[simp] theorem State.sf_fld (s : State) (f : RegField) (u i v : Nat) (f' : Nat) :
    (s.sf f u i v).fld f' = s.fld f' := rfl
@[simp] theorem State.sf_grp (s : State) (f : RegField) (u i v : Nat) (t' g' : Nat) :
    (s.sf f u i v).grp t' g' = s.grp t' g' := rfl
@[simp] theorem State.sf_til (s : State) (f : RegField) (u i v : Nat) (t' : Nat) :
    (s.sf f u i v).til t' = s.til t' := rfl
@[simp] theorem State.sf_slot (s : State) (f : RegField) (u i v : Nat) (t' k' : Nat) :
    (s.sf f u i v).slot t' k' = s.slot t' k' := rfl
@[simp] theorem State.sf_rule (s : State) (f : RegField) (u i v : Nat) (t' k' : Nat) :
    (s.sf f u i v).rule t' k' = s.rule t' k' := rfl
@[simp] theorem State.sf_buoy (s : State) (f : RegField) (u i v : Nat) (b' i' : Nat) :
    (s.sf f u i v).buoy b' i' = s.buoy b' i' := rfl
@[simp] theorem State.sf_blk (s : State) (f : RegField) (u i v : Nat) (b' : Nat) :
    (s.sf f u i v).blk b' = s.blk b' := rfl
@[simp] theorem State.sf_tagSt (s : State) (f : RegField) (u i v : Nat) (a' b' : Nat) :
    (s.sf f u i v).tagSt a' b' = s.tagSt a' b' := rfl
@[simp] theorem State.sf_ring (s : State) (f : RegField) (u i v : Nat) (r' : Nat) :
    (s.sf f u i v).ring r' = s.ring r' := rfl
@[simp] theorem State.sf_sramByte (s : State) (f : RegField) (u i v : Nat) (t' o' : Nat) :
    (s.sf f u i v).sramByte t' o' = s.sramByte t' o' := rfl
@[simp] theorem State.sf_fstByte (s : State) (f : RegField) (u i v : Nat) (f' o' : Nat) :
    (s.sf f u i v).fstByte f' o' = s.fstByte f' o' := rfl
@[simp] theorem State.sf_pkt (s : State) (f : RegField) (u i v : Nat) (id' : Nat) :
    (s.sf f u i v).pkt id' = s.pkt id' := rfl

/-! ### `State.hset` -/

@[simp] theorem State.hset_pending (s : State) (f : RegField) (u i : Nat) : (s.hset f u i).pending = s.pending := rfl
@[simp] theorem State.hset_now (s : State) (f : RegField) (u i : Nat) : (s.hset f u i).now = s.now := rfl
@[simp] theorem State.hset_fresh (s : State) (f : RegField) (u i : Nat) : (s.hset f u i).fresh = s.fresh := rfl
@[simp] theorem State.hset_nextPkt (s : State) (f : RegField) (u i : Nat) : (s.hset f u i).nextPkt = s.nextPkt := rfl
@[simp] theorem State.hset_fuses (s : State) (f : RegField) (u i : Nat) : (s.hset f u i).fuses = s.fuses := rfl
@[simp] theorem State.hset_out (s : State) (f : RegField) (u i : Nat) : (s.hset f u i).out = s.out := rfl
@[simp] theorem State.hset_sram (s : State) (f : RegField) (u i : Nat) : (s.hset f u i).sram = s.sram := rfl
@[simp] theorem State.hset_sramBad (s : State) (f : RegField) (u i : Nat) : (s.hset f u i).sramBad = s.sramBad := rfl
@[simp] theorem State.hset_sramWeak (s : State) (f : RegField) (u i : Nat) : (s.hset f u i).sramWeak = s.sramWeak := rfl
@[simp] theorem State.hset_fst (s : State) (f : RegField) (u i : Nat) : (s.hset f u i).fst = s.fst := rfl
@[simp] theorem State.hset_fstBad (s : State) (f : RegField) (u i : Nat) : (s.hset f u i).fstBad = s.fstBad := rfl
@[simp] theorem State.hset_fstWeak (s : State) (f : RegField) (u i : Nat) : (s.hset f u i).fstWeak = s.fstWeak := rfl
@[simp] theorem State.hset_rings (s : State) (f : RegField) (u i : Nat) : (s.hset f u i).rings = s.rings := rfl
@[simp] theorem State.hset_fields (s : State) (f : RegField) (u i : Nat) : (s.hset f u i).fields = s.fields := rfl
@[simp] theorem State.hset_groups (s : State) (f : RegField) (u i : Nat) : (s.hset f u i).groups = s.groups := rfl
@[simp] theorem State.hset_tiles (s : State) (f : RegField) (u i : Nat) : (s.hset f u i).tiles = s.tiles := rfl
@[simp] theorem State.hset_slots (s : State) (f : RegField) (u i : Nat) : (s.hset f u i).slots = s.slots := rfl
@[simp] theorem State.hset_rules (s : State) (f : RegField) (u i : Nat) : (s.hset f u i).rules = s.rules := rfl
@[simp] theorem State.hset_buoys (s : State) (f : RegField) (u i : Nat) : (s.hset f u i).buoys = s.buoys := rfl
@[simp] theorem State.hset_buoyBlocks (s : State) (f : RegField) (u i : Nat) : (s.hset f u i).buoyBlocks = s.buoyBlocks := rfl
@[simp] theorem State.hset_sectorTags (s : State) (f : RegField) (u i : Nat) : (s.hset f u i).sectorTags = s.sectorTags := rfl
@[simp] theorem State.hset_packets (s : State) (f : RegField) (u i : Nat) : (s.hset f u i).packets = s.packets := rfl
@[simp] theorem State.hset_answers (s : State) (f : RegField) (u i : Nat) : (s.hset f u i).answers = s.answers := rfl
@[simp] theorem State.hset_journal (s : State) (f : RegField) (u i : Nat) : (s.hset f u i).journal = s.journal := rfl
@[simp] theorem State.hset_lenses (s : State) (f : RegField) (u i : Nat) : (s.hset f u i).lenses = s.lenses := rfl
@[simp] theorem State.hset_mvs (s : State) (f : RegField) (u i : Nat) : (s.hset f u i).mvs = s.mvs := rfl
@[simp] theorem State.hset_sectors (s : State) (f : RegField) (u i : Nat) : (s.hset f u i).sectors = s.sectors := rfl
@[simp] theorem State.hset_live (s : State) (f : RegField) (u i : Nat) : (s.hset f u i).live = s.live := rfl
@[simp] theorem State.hset_mboxQueue (s : State) (f : RegField) (u i : Nat) : (s.hset f u i).mboxQueue = s.mboxQueue := rfl
@[simp] theorem State.hset_mboxJobs (s : State) (f : RegField) (u i : Nat) : (s.hset f u i).mboxJobs = s.mboxJobs := rfl
@[simp] theorem State.hset_resets (s : State) (f : RegField) (u i : Nat) : (s.hset f u i).resets = s.resets := rfl
@[simp] theorem State.hset_bays (s : State) (f : RegField) (u i : Nat) : (s.hset f u i).bays = s.bays := rfl
@[simp] theorem State.hset_settleDue (s : State) (f : RegField) (u i : Nat) : (s.hset f u i).settleDue = s.settleDue := rfl
@[simp] theorem State.hset_periodWrites (s : State) (f : RegField) (u i : Nat) : (s.hset f u i).periodWrites = s.periodWrites := rfl
@[simp] theorem State.hset_watchSpan (s : State) (f : RegField) (u i : Nat) : (s.hset f u i).watchSpan = s.watchSpan := rfl
@[simp] theorem State.hset_rwlWrites (s : State) (f : RegField) (u i : Nat) : (s.hset f u i).rwlWrites = s.rwlWrites := rfl
@[simp] theorem State.hset_unlocked (s : State) (f : RegField) (u i : Nat) : (s.hset f u i).unlocked = s.unlocked := rfl
@[simp] theorem State.hset_copyA (s : State) (f : RegField) (u i : Nat) : (s.hset f u i).copyA = s.copyA := rfl
@[simp] theorem State.hset_copyB (s : State) (f : RegField) (u i : Nat) : (s.hset f u i).copyB = s.copyB := rfl
@[simp] theorem State.hset_ledgerRepair (s : State) (f : RegField) (u i : Nat) : (s.hset f u i).ledgerRepair = s.ledgerRepair := rfl
@[simp] theorem State.hset_lostTiles (s : State) (f : RegField) (u i : Nat) : (s.hset f u i).lostTiles = s.lostTiles := rfl
@[simp] theorem State.hset_fld (s : State) (f : RegField) (u i : Nat) (f' : Nat) :
    (s.hset f u i).fld f' = s.fld f' := rfl
@[simp] theorem State.hset_grp (s : State) (f : RegField) (u i : Nat) (t' g' : Nat) :
    (s.hset f u i).grp t' g' = s.grp t' g' := rfl
@[simp] theorem State.hset_til (s : State) (f : RegField) (u i : Nat) (t' : Nat) :
    (s.hset f u i).til t' = s.til t' := rfl
@[simp] theorem State.hset_slot (s : State) (f : RegField) (u i : Nat) (t' k' : Nat) :
    (s.hset f u i).slot t' k' = s.slot t' k' := rfl
@[simp] theorem State.hset_rule (s : State) (f : RegField) (u i : Nat) (t' k' : Nat) :
    (s.hset f u i).rule t' k' = s.rule t' k' := rfl
@[simp] theorem State.hset_buoy (s : State) (f : RegField) (u i : Nat) (b' i' : Nat) :
    (s.hset f u i).buoy b' i' = s.buoy b' i' := rfl
@[simp] theorem State.hset_blk (s : State) (f : RegField) (u i : Nat) (b' : Nat) :
    (s.hset f u i).blk b' = s.blk b' := rfl
@[simp] theorem State.hset_tagSt (s : State) (f : RegField) (u i : Nat) (a' b' : Nat) :
    (s.hset f u i).tagSt a' b' = s.tagSt a' b' := rfl
@[simp] theorem State.hset_ring (s : State) (f : RegField) (u i : Nat) (r' : Nat) :
    (s.hset f u i).ring r' = s.ring r' := rfl
@[simp] theorem State.hset_sramByte (s : State) (f : RegField) (u i : Nat) (t' o' : Nat) :
    (s.hset f u i).sramByte t' o' = s.sramByte t' o' := rfl
@[simp] theorem State.hset_fstByte (s : State) (f : RegField) (u i : Nat) (f' o' : Nat) :
    (s.hset f u i).fstByte f' o' = s.fstByte f' o' := rfl
@[simp] theorem State.hset_pkt (s : State) (f : RegField) (u i : Nat) (id' : Nat) :
    (s.hset f u i).pkt id' = s.pkt id' := rfl

/-! ### `State.bump` -/

@[simp] theorem State.bump_pending (s : State) (r : Reg) (u i n : Nat) : (s.bump r u i n).pending = s.pending := rfl
@[simp] theorem State.bump_now (s : State) (r : Reg) (u i n : Nat) : (s.bump r u i n).now = s.now := rfl
@[simp] theorem State.bump_fresh (s : State) (r : Reg) (u i n : Nat) : (s.bump r u i n).fresh = s.fresh := rfl
@[simp] theorem State.bump_nextPkt (s : State) (r : Reg) (u i n : Nat) : (s.bump r u i n).nextPkt = s.nextPkt := rfl
@[simp] theorem State.bump_fuses (s : State) (r : Reg) (u i n : Nat) : (s.bump r u i n).fuses = s.fuses := rfl
@[simp] theorem State.bump_out (s : State) (r : Reg) (u i n : Nat) : (s.bump r u i n).out = s.out := rfl
@[simp] theorem State.bump_sram (s : State) (r : Reg) (u i n : Nat) : (s.bump r u i n).sram = s.sram := rfl
@[simp] theorem State.bump_sramBad (s : State) (r : Reg) (u i n : Nat) : (s.bump r u i n).sramBad = s.sramBad := rfl
@[simp] theorem State.bump_sramWeak (s : State) (r : Reg) (u i n : Nat) : (s.bump r u i n).sramWeak = s.sramWeak := rfl
@[simp] theorem State.bump_fst (s : State) (r : Reg) (u i n : Nat) : (s.bump r u i n).fst = s.fst := rfl
@[simp] theorem State.bump_fstBad (s : State) (r : Reg) (u i n : Nat) : (s.bump r u i n).fstBad = s.fstBad := rfl
@[simp] theorem State.bump_fstWeak (s : State) (r : Reg) (u i n : Nat) : (s.bump r u i n).fstWeak = s.fstWeak := rfl
@[simp] theorem State.bump_rings (s : State) (r : Reg) (u i n : Nat) : (s.bump r u i n).rings = s.rings := rfl
@[simp] theorem State.bump_fields (s : State) (r : Reg) (u i n : Nat) : (s.bump r u i n).fields = s.fields := rfl
@[simp] theorem State.bump_groups (s : State) (r : Reg) (u i n : Nat) : (s.bump r u i n).groups = s.groups := rfl
@[simp] theorem State.bump_tiles (s : State) (r : Reg) (u i n : Nat) : (s.bump r u i n).tiles = s.tiles := rfl
@[simp] theorem State.bump_slots (s : State) (r : Reg) (u i n : Nat) : (s.bump r u i n).slots = s.slots := rfl
@[simp] theorem State.bump_rules (s : State) (r : Reg) (u i n : Nat) : (s.bump r u i n).rules = s.rules := rfl
@[simp] theorem State.bump_buoys (s : State) (r : Reg) (u i n : Nat) : (s.bump r u i n).buoys = s.buoys := rfl
@[simp] theorem State.bump_buoyBlocks (s : State) (r : Reg) (u i n : Nat) : (s.bump r u i n).buoyBlocks = s.buoyBlocks := rfl
@[simp] theorem State.bump_sectorTags (s : State) (r : Reg) (u i n : Nat) : (s.bump r u i n).sectorTags = s.sectorTags := rfl
@[simp] theorem State.bump_packets (s : State) (r : Reg) (u i n : Nat) : (s.bump r u i n).packets = s.packets := rfl
@[simp] theorem State.bump_answers (s : State) (r : Reg) (u i n : Nat) : (s.bump r u i n).answers = s.answers := rfl
@[simp] theorem State.bump_journal (s : State) (r : Reg) (u i n : Nat) : (s.bump r u i n).journal = s.journal := rfl
@[simp] theorem State.bump_lenses (s : State) (r : Reg) (u i n : Nat) : (s.bump r u i n).lenses = s.lenses := rfl
@[simp] theorem State.bump_mvs (s : State) (r : Reg) (u i n : Nat) : (s.bump r u i n).mvs = s.mvs := rfl
@[simp] theorem State.bump_sectors (s : State) (r : Reg) (u i n : Nat) : (s.bump r u i n).sectors = s.sectors := rfl
@[simp] theorem State.bump_live (s : State) (r : Reg) (u i n : Nat) : (s.bump r u i n).live = s.live := rfl
@[simp] theorem State.bump_mboxQueue (s : State) (r : Reg) (u i n : Nat) : (s.bump r u i n).mboxQueue = s.mboxQueue := rfl
@[simp] theorem State.bump_mboxJobs (s : State) (r : Reg) (u i n : Nat) : (s.bump r u i n).mboxJobs = s.mboxJobs := rfl
@[simp] theorem State.bump_resets (s : State) (r : Reg) (u i n : Nat) : (s.bump r u i n).resets = s.resets := rfl
@[simp] theorem State.bump_bays (s : State) (r : Reg) (u i n : Nat) : (s.bump r u i n).bays = s.bays := rfl
@[simp] theorem State.bump_settleDue (s : State) (r : Reg) (u i n : Nat) : (s.bump r u i n).settleDue = s.settleDue := rfl
@[simp] theorem State.bump_periodWrites (s : State) (r : Reg) (u i n : Nat) : (s.bump r u i n).periodWrites = s.periodWrites := rfl
@[simp] theorem State.bump_watchSpan (s : State) (r : Reg) (u i n : Nat) : (s.bump r u i n).watchSpan = s.watchSpan := rfl
@[simp] theorem State.bump_hwSet (s : State) (r : Reg) (u i n : Nat) : (s.bump r u i n).hwSet = s.hwSet := rfl
@[simp] theorem State.bump_rwlWrites (s : State) (r : Reg) (u i n : Nat) : (s.bump r u i n).rwlWrites = s.rwlWrites := rfl
@[simp] theorem State.bump_unlocked (s : State) (r : Reg) (u i n : Nat) : (s.bump r u i n).unlocked = s.unlocked := rfl
@[simp] theorem State.bump_copyA (s : State) (r : Reg) (u i n : Nat) : (s.bump r u i n).copyA = s.copyA := rfl
@[simp] theorem State.bump_copyB (s : State) (r : Reg) (u i n : Nat) : (s.bump r u i n).copyB = s.copyB := rfl
@[simp] theorem State.bump_ledgerRepair (s : State) (r : Reg) (u i n : Nat) : (s.bump r u i n).ledgerRepair = s.ledgerRepair := rfl
@[simp] theorem State.bump_lostTiles (s : State) (r : Reg) (u i n : Nat) : (s.bump r u i n).lostTiles = s.lostTiles := rfl
@[simp] theorem State.bump_fld (s : State) (r : Reg) (u i n : Nat) (f' : Nat) :
    (s.bump r u i n).fld f' = s.fld f' := rfl
@[simp] theorem State.bump_grp (s : State) (r : Reg) (u i n : Nat) (t' g' : Nat) :
    (s.bump r u i n).grp t' g' = s.grp t' g' := rfl
@[simp] theorem State.bump_til (s : State) (r : Reg) (u i n : Nat) (t' : Nat) :
    (s.bump r u i n).til t' = s.til t' := rfl
@[simp] theorem State.bump_slot (s : State) (r : Reg) (u i n : Nat) (t' k' : Nat) :
    (s.bump r u i n).slot t' k' = s.slot t' k' := rfl
@[simp] theorem State.bump_rule (s : State) (r : Reg) (u i n : Nat) (t' k' : Nat) :
    (s.bump r u i n).rule t' k' = s.rule t' k' := rfl
@[simp] theorem State.bump_buoy (s : State) (r : Reg) (u i n : Nat) (b' i' : Nat) :
    (s.bump r u i n).buoy b' i' = s.buoy b' i' := rfl
@[simp] theorem State.bump_blk (s : State) (r : Reg) (u i n : Nat) (b' : Nat) :
    (s.bump r u i n).blk b' = s.blk b' := rfl
@[simp] theorem State.bump_tagSt (s : State) (r : Reg) (u i n : Nat) (a' b' : Nat) :
    (s.bump r u i n).tagSt a' b' = s.tagSt a' b' := rfl
@[simp] theorem State.bump_ring (s : State) (r : Reg) (u i n : Nat) (r' : Nat) :
    (s.bump r u i n).ring r' = s.ring r' := rfl
@[simp] theorem State.bump_sramByte (s : State) (r : Reg) (u i n : Nat) (t' o' : Nat) :
    (s.bump r u i n).sramByte t' o' = s.sramByte t' o' := rfl
@[simp] theorem State.bump_fstByte (s : State) (r : Reg) (u i n : Nat) (f' o' : Nat) :
    (s.bump r u i n).fstByte f' o' = s.fstByte f' o' := rfl
@[simp] theorem State.bump_pkt (s : State) (r : Reg) (u i n : Nat) (id' : Nat) :
    (s.bump r u i n).pkt id' = s.pkt id' := rfl

/-! ### `State.setFld` -/

@[simp] theorem State.setFld_pending (s : State) (f : Nat) (x : FieldSt) : (s.setFld f x).pending = s.pending := rfl
@[simp] theorem State.setFld_now (s : State) (f : Nat) (x : FieldSt) : (s.setFld f x).now = s.now := rfl
@[simp] theorem State.setFld_fresh (s : State) (f : Nat) (x : FieldSt) : (s.setFld f x).fresh = s.fresh := rfl
@[simp] theorem State.setFld_nextPkt (s : State) (f : Nat) (x : FieldSt) : (s.setFld f x).nextPkt = s.nextPkt := rfl
@[simp] theorem State.setFld_fuses (s : State) (f : Nat) (x : FieldSt) : (s.setFld f x).fuses = s.fuses := rfl
@[simp] theorem State.setFld_out (s : State) (f : Nat) (x : FieldSt) : (s.setFld f x).out = s.out := rfl
@[simp] theorem State.setFld_regs (s : State) (f : Nat) (x : FieldSt) : (s.setFld f x).regs = s.regs := rfl
@[simp] theorem State.setFld_sram (s : State) (f : Nat) (x : FieldSt) : (s.setFld f x).sram = s.sram := rfl
@[simp] theorem State.setFld_sramBad (s : State) (f : Nat) (x : FieldSt) : (s.setFld f x).sramBad = s.sramBad := rfl
@[simp] theorem State.setFld_sramWeak (s : State) (f : Nat) (x : FieldSt) : (s.setFld f x).sramWeak = s.sramWeak := rfl
@[simp] theorem State.setFld_fst (s : State) (f : Nat) (x : FieldSt) : (s.setFld f x).fst = s.fst := rfl
@[simp] theorem State.setFld_fstBad (s : State) (f : Nat) (x : FieldSt) : (s.setFld f x).fstBad = s.fstBad := rfl
@[simp] theorem State.setFld_fstWeak (s : State) (f : Nat) (x : FieldSt) : (s.setFld f x).fstWeak = s.fstWeak := rfl
@[simp] theorem State.setFld_rings (s : State) (f : Nat) (x : FieldSt) : (s.setFld f x).rings = s.rings := rfl
@[simp] theorem State.setFld_groups (s : State) (f : Nat) (x : FieldSt) : (s.setFld f x).groups = s.groups := rfl
@[simp] theorem State.setFld_tiles (s : State) (f : Nat) (x : FieldSt) : (s.setFld f x).tiles = s.tiles := rfl
@[simp] theorem State.setFld_slots (s : State) (f : Nat) (x : FieldSt) : (s.setFld f x).slots = s.slots := rfl
@[simp] theorem State.setFld_rules (s : State) (f : Nat) (x : FieldSt) : (s.setFld f x).rules = s.rules := rfl
@[simp] theorem State.setFld_buoys (s : State) (f : Nat) (x : FieldSt) : (s.setFld f x).buoys = s.buoys := rfl
@[simp] theorem State.setFld_buoyBlocks (s : State) (f : Nat) (x : FieldSt) : (s.setFld f x).buoyBlocks = s.buoyBlocks := rfl
@[simp] theorem State.setFld_sectorTags (s : State) (f : Nat) (x : FieldSt) : (s.setFld f x).sectorTags = s.sectorTags := rfl
@[simp] theorem State.setFld_packets (s : State) (f : Nat) (x : FieldSt) : (s.setFld f x).packets = s.packets := rfl
@[simp] theorem State.setFld_answers (s : State) (f : Nat) (x : FieldSt) : (s.setFld f x).answers = s.answers := rfl
@[simp] theorem State.setFld_journal (s : State) (f : Nat) (x : FieldSt) : (s.setFld f x).journal = s.journal := rfl
@[simp] theorem State.setFld_lenses (s : State) (f : Nat) (x : FieldSt) : (s.setFld f x).lenses = s.lenses := rfl
@[simp] theorem State.setFld_mvs (s : State) (f : Nat) (x : FieldSt) : (s.setFld f x).mvs = s.mvs := rfl
@[simp] theorem State.setFld_sectors (s : State) (f : Nat) (x : FieldSt) : (s.setFld f x).sectors = s.sectors := rfl
@[simp] theorem State.setFld_live (s : State) (f : Nat) (x : FieldSt) : (s.setFld f x).live = s.live := rfl
@[simp] theorem State.setFld_mboxQueue (s : State) (f : Nat) (x : FieldSt) : (s.setFld f x).mboxQueue = s.mboxQueue := rfl
@[simp] theorem State.setFld_mboxJobs (s : State) (f : Nat) (x : FieldSt) : (s.setFld f x).mboxJobs = s.mboxJobs := rfl
@[simp] theorem State.setFld_resets (s : State) (f : Nat) (x : FieldSt) : (s.setFld f x).resets = s.resets := rfl
@[simp] theorem State.setFld_bays (s : State) (f : Nat) (x : FieldSt) : (s.setFld f x).bays = s.bays := rfl
@[simp] theorem State.setFld_settleDue (s : State) (f : Nat) (x : FieldSt) : (s.setFld f x).settleDue = s.settleDue := rfl
@[simp] theorem State.setFld_periodWrites (s : State) (f : Nat) (x : FieldSt) : (s.setFld f x).periodWrites = s.periodWrites := rfl
@[simp] theorem State.setFld_watchSpan (s : State) (f : Nat) (x : FieldSt) : (s.setFld f x).watchSpan = s.watchSpan := rfl
@[simp] theorem State.setFld_hwSet (s : State) (f : Nat) (x : FieldSt) : (s.setFld f x).hwSet = s.hwSet := rfl
@[simp] theorem State.setFld_rwlWrites (s : State) (f : Nat) (x : FieldSt) : (s.setFld f x).rwlWrites = s.rwlWrites := rfl
@[simp] theorem State.setFld_unlocked (s : State) (f : Nat) (x : FieldSt) : (s.setFld f x).unlocked = s.unlocked := rfl
@[simp] theorem State.setFld_copyA (s : State) (f : Nat) (x : FieldSt) : (s.setFld f x).copyA = s.copyA := rfl
@[simp] theorem State.setFld_copyB (s : State) (f : Nat) (x : FieldSt) : (s.setFld f x).copyB = s.copyB := rfl
@[simp] theorem State.setFld_ledgerRepair (s : State) (f : Nat) (x : FieldSt) : (s.setFld f x).ledgerRepair = s.ledgerRepair := rfl
@[simp] theorem State.setFld_lostTiles (s : State) (f : Nat) (x : FieldSt) : (s.setFld f x).lostTiles = s.lostTiles := rfl
@[simp] theorem State.setFld_rd (s : State) (f : Nat) (x : FieldSt) (r' : Reg) (u' i' : Nat) :
    (s.setFld f x).rd r' u' i' = s.rd r' u' i' := rfl
@[simp] theorem State.setFld_gf (s : State) (f : Nat) (x : FieldSt) (f' : RegField) (u' i' : Nat) :
    (s.setFld f x).gf f' u' i' = s.gf f' u' i' := rfl
@[simp] theorem State.setFld_flag (s : State) (f : Nat) (x : FieldSt) (f' : RegField) (u' i' : Nat) :
    (s.setFld f x).flag f' u' i' = s.flag f' u' i' := rfl
@[simp] theorem State.setFld_grp (s : State) (f : Nat) (x : FieldSt) (t' g' : Nat) :
    (s.setFld f x).grp t' g' = s.grp t' g' := rfl
@[simp] theorem State.setFld_til (s : State) (f : Nat) (x : FieldSt) (t' : Nat) :
    (s.setFld f x).til t' = s.til t' := rfl
@[simp] theorem State.setFld_slot (s : State) (f : Nat) (x : FieldSt) (t' k' : Nat) :
    (s.setFld f x).slot t' k' = s.slot t' k' := rfl
@[simp] theorem State.setFld_rule (s : State) (f : Nat) (x : FieldSt) (t' k' : Nat) :
    (s.setFld f x).rule t' k' = s.rule t' k' := rfl
@[simp] theorem State.setFld_buoy (s : State) (f : Nat) (x : FieldSt) (b' i' : Nat) :
    (s.setFld f x).buoy b' i' = s.buoy b' i' := rfl
@[simp] theorem State.setFld_blk (s : State) (f : Nat) (x : FieldSt) (b' : Nat) :
    (s.setFld f x).blk b' = s.blk b' := rfl
@[simp] theorem State.setFld_tagSt (s : State) (f : Nat) (x : FieldSt) (a' b' : Nat) :
    (s.setFld f x).tagSt a' b' = s.tagSt a' b' := rfl
@[simp] theorem State.setFld_ring (s : State) (f : Nat) (x : FieldSt) (r' : Nat) :
    (s.setFld f x).ring r' = s.ring r' := rfl
@[simp] theorem State.setFld_sramByte (s : State) (f : Nat) (x : FieldSt) (t' o' : Nat) :
    (s.setFld f x).sramByte t' o' = s.sramByte t' o' := rfl
@[simp] theorem State.setFld_fstByte (s : State) (f : Nat) (x : FieldSt) (f' o' : Nat) :
    (s.setFld f x).fstByte f' o' = s.fstByte f' o' := rfl
@[simp] theorem State.setFld_pkt (s : State) (f : Nat) (x : FieldSt) (id' : Nat) :
    (s.setFld f x).pkt id' = s.pkt id' := rfl

/-! ### `State.setGrp` -/

@[simp] theorem State.setGrp_pending (s : State) (t g : Nat) (x : Group) : (s.setGrp t g x).pending = s.pending := rfl
@[simp] theorem State.setGrp_now (s : State) (t g : Nat) (x : Group) : (s.setGrp t g x).now = s.now := rfl
@[simp] theorem State.setGrp_fresh (s : State) (t g : Nat) (x : Group) : (s.setGrp t g x).fresh = s.fresh := rfl
@[simp] theorem State.setGrp_nextPkt (s : State) (t g : Nat) (x : Group) : (s.setGrp t g x).nextPkt = s.nextPkt := rfl
@[simp] theorem State.setGrp_fuses (s : State) (t g : Nat) (x : Group) : (s.setGrp t g x).fuses = s.fuses := rfl
@[simp] theorem State.setGrp_out (s : State) (t g : Nat) (x : Group) : (s.setGrp t g x).out = s.out := rfl
@[simp] theorem State.setGrp_regs (s : State) (t g : Nat) (x : Group) : (s.setGrp t g x).regs = s.regs := rfl
@[simp] theorem State.setGrp_sram (s : State) (t g : Nat) (x : Group) : (s.setGrp t g x).sram = s.sram := rfl
@[simp] theorem State.setGrp_sramBad (s : State) (t g : Nat) (x : Group) : (s.setGrp t g x).sramBad = s.sramBad := rfl
@[simp] theorem State.setGrp_sramWeak (s : State) (t g : Nat) (x : Group) : (s.setGrp t g x).sramWeak = s.sramWeak := rfl
@[simp] theorem State.setGrp_fst (s : State) (t g : Nat) (x : Group) : (s.setGrp t g x).fst = s.fst := rfl
@[simp] theorem State.setGrp_fstBad (s : State) (t g : Nat) (x : Group) : (s.setGrp t g x).fstBad = s.fstBad := rfl
@[simp] theorem State.setGrp_fstWeak (s : State) (t g : Nat) (x : Group) : (s.setGrp t g x).fstWeak = s.fstWeak := rfl
@[simp] theorem State.setGrp_rings (s : State) (t g : Nat) (x : Group) : (s.setGrp t g x).rings = s.rings := rfl
@[simp] theorem State.setGrp_fields (s : State) (t g : Nat) (x : Group) : (s.setGrp t g x).fields = s.fields := rfl
@[simp] theorem State.setGrp_tiles (s : State) (t g : Nat) (x : Group) : (s.setGrp t g x).tiles = s.tiles := rfl
@[simp] theorem State.setGrp_slots (s : State) (t g : Nat) (x : Group) : (s.setGrp t g x).slots = s.slots := rfl
@[simp] theorem State.setGrp_rules (s : State) (t g : Nat) (x : Group) : (s.setGrp t g x).rules = s.rules := rfl
@[simp] theorem State.setGrp_buoys (s : State) (t g : Nat) (x : Group) : (s.setGrp t g x).buoys = s.buoys := rfl
@[simp] theorem State.setGrp_buoyBlocks (s : State) (t g : Nat) (x : Group) : (s.setGrp t g x).buoyBlocks = s.buoyBlocks := rfl
@[simp] theorem State.setGrp_sectorTags (s : State) (t g : Nat) (x : Group) : (s.setGrp t g x).sectorTags = s.sectorTags := rfl
@[simp] theorem State.setGrp_packets (s : State) (t g : Nat) (x : Group) : (s.setGrp t g x).packets = s.packets := rfl
@[simp] theorem State.setGrp_answers (s : State) (t g : Nat) (x : Group) : (s.setGrp t g x).answers = s.answers := rfl
@[simp] theorem State.setGrp_journal (s : State) (t g : Nat) (x : Group) : (s.setGrp t g x).journal = s.journal := rfl
@[simp] theorem State.setGrp_lenses (s : State) (t g : Nat) (x : Group) : (s.setGrp t g x).lenses = s.lenses := rfl
@[simp] theorem State.setGrp_mvs (s : State) (t g : Nat) (x : Group) : (s.setGrp t g x).mvs = s.mvs := rfl
@[simp] theorem State.setGrp_sectors (s : State) (t g : Nat) (x : Group) : (s.setGrp t g x).sectors = s.sectors := rfl
@[simp] theorem State.setGrp_live (s : State) (t g : Nat) (x : Group) : (s.setGrp t g x).live = s.live := rfl
@[simp] theorem State.setGrp_mboxQueue (s : State) (t g : Nat) (x : Group) : (s.setGrp t g x).mboxQueue = s.mboxQueue := rfl
@[simp] theorem State.setGrp_mboxJobs (s : State) (t g : Nat) (x : Group) : (s.setGrp t g x).mboxJobs = s.mboxJobs := rfl
@[simp] theorem State.setGrp_resets (s : State) (t g : Nat) (x : Group) : (s.setGrp t g x).resets = s.resets := rfl
@[simp] theorem State.setGrp_bays (s : State) (t g : Nat) (x : Group) : (s.setGrp t g x).bays = s.bays := rfl
@[simp] theorem State.setGrp_settleDue (s : State) (t g : Nat) (x : Group) : (s.setGrp t g x).settleDue = s.settleDue := rfl
@[simp] theorem State.setGrp_periodWrites (s : State) (t g : Nat) (x : Group) : (s.setGrp t g x).periodWrites = s.periodWrites := rfl
@[simp] theorem State.setGrp_watchSpan (s : State) (t g : Nat) (x : Group) : (s.setGrp t g x).watchSpan = s.watchSpan := rfl
@[simp] theorem State.setGrp_hwSet (s : State) (t g : Nat) (x : Group) : (s.setGrp t g x).hwSet = s.hwSet := rfl
@[simp] theorem State.setGrp_rwlWrites (s : State) (t g : Nat) (x : Group) : (s.setGrp t g x).rwlWrites = s.rwlWrites := rfl
@[simp] theorem State.setGrp_unlocked (s : State) (t g : Nat) (x : Group) : (s.setGrp t g x).unlocked = s.unlocked := rfl
@[simp] theorem State.setGrp_copyA (s : State) (t g : Nat) (x : Group) : (s.setGrp t g x).copyA = s.copyA := rfl
@[simp] theorem State.setGrp_copyB (s : State) (t g : Nat) (x : Group) : (s.setGrp t g x).copyB = s.copyB := rfl
@[simp] theorem State.setGrp_ledgerRepair (s : State) (t g : Nat) (x : Group) : (s.setGrp t g x).ledgerRepair = s.ledgerRepair := rfl
@[simp] theorem State.setGrp_lostTiles (s : State) (t g : Nat) (x : Group) : (s.setGrp t g x).lostTiles = s.lostTiles := rfl
@[simp] theorem State.setGrp_rd (s : State) (t g : Nat) (x : Group) (r' : Reg) (u' i' : Nat) :
    (s.setGrp t g x).rd r' u' i' = s.rd r' u' i' := rfl
@[simp] theorem State.setGrp_gf (s : State) (t g : Nat) (x : Group) (f' : RegField) (u' i' : Nat) :
    (s.setGrp t g x).gf f' u' i' = s.gf f' u' i' := rfl
@[simp] theorem State.setGrp_flag (s : State) (t g : Nat) (x : Group) (f' : RegField) (u' i' : Nat) :
    (s.setGrp t g x).flag f' u' i' = s.flag f' u' i' := rfl
@[simp] theorem State.setGrp_fld (s : State) (t g : Nat) (x : Group) (f' : Nat) :
    (s.setGrp t g x).fld f' = s.fld f' := rfl
@[simp] theorem State.setGrp_til (s : State) (t g : Nat) (x : Group) (t' : Nat) :
    (s.setGrp t g x).til t' = s.til t' := rfl
@[simp] theorem State.setGrp_slot (s : State) (t g : Nat) (x : Group) (t' k' : Nat) :
    (s.setGrp t g x).slot t' k' = s.slot t' k' := rfl
@[simp] theorem State.setGrp_rule (s : State) (t g : Nat) (x : Group) (t' k' : Nat) :
    (s.setGrp t g x).rule t' k' = s.rule t' k' := rfl
@[simp] theorem State.setGrp_buoy (s : State) (t g : Nat) (x : Group) (b' i' : Nat) :
    (s.setGrp t g x).buoy b' i' = s.buoy b' i' := rfl
@[simp] theorem State.setGrp_blk (s : State) (t g : Nat) (x : Group) (b' : Nat) :
    (s.setGrp t g x).blk b' = s.blk b' := rfl
@[simp] theorem State.setGrp_tagSt (s : State) (t g : Nat) (x : Group) (a' b' : Nat) :
    (s.setGrp t g x).tagSt a' b' = s.tagSt a' b' := rfl
@[simp] theorem State.setGrp_ring (s : State) (t g : Nat) (x : Group) (r' : Nat) :
    (s.setGrp t g x).ring r' = s.ring r' := rfl
@[simp] theorem State.setGrp_sramByte (s : State) (t g : Nat) (x : Group) (t' o' : Nat) :
    (s.setGrp t g x).sramByte t' o' = s.sramByte t' o' := rfl
@[simp] theorem State.setGrp_fstByte (s : State) (t g : Nat) (x : Group) (f' o' : Nat) :
    (s.setGrp t g x).fstByte f' o' = s.fstByte f' o' := rfl
@[simp] theorem State.setGrp_pkt (s : State) (t g : Nat) (x : Group) (id' : Nat) :
    (s.setGrp t g x).pkt id' = s.pkt id' := rfl

/-! ### `State.setTil` -/

@[simp] theorem State.setTil_pending (s : State) (t : Nat) (x : Tile) : (s.setTil t x).pending = s.pending := rfl
@[simp] theorem State.setTil_now (s : State) (t : Nat) (x : Tile) : (s.setTil t x).now = s.now := rfl
@[simp] theorem State.setTil_fresh (s : State) (t : Nat) (x : Tile) : (s.setTil t x).fresh = s.fresh := rfl
@[simp] theorem State.setTil_nextPkt (s : State) (t : Nat) (x : Tile) : (s.setTil t x).nextPkt = s.nextPkt := rfl
@[simp] theorem State.setTil_fuses (s : State) (t : Nat) (x : Tile) : (s.setTil t x).fuses = s.fuses := rfl
@[simp] theorem State.setTil_out (s : State) (t : Nat) (x : Tile) : (s.setTil t x).out = s.out := rfl
@[simp] theorem State.setTil_regs (s : State) (t : Nat) (x : Tile) : (s.setTil t x).regs = s.regs := rfl
@[simp] theorem State.setTil_sram (s : State) (t : Nat) (x : Tile) : (s.setTil t x).sram = s.sram := rfl
@[simp] theorem State.setTil_sramBad (s : State) (t : Nat) (x : Tile) : (s.setTil t x).sramBad = s.sramBad := rfl
@[simp] theorem State.setTil_sramWeak (s : State) (t : Nat) (x : Tile) : (s.setTil t x).sramWeak = s.sramWeak := rfl
@[simp] theorem State.setTil_fst (s : State) (t : Nat) (x : Tile) : (s.setTil t x).fst = s.fst := rfl
@[simp] theorem State.setTil_fstBad (s : State) (t : Nat) (x : Tile) : (s.setTil t x).fstBad = s.fstBad := rfl
@[simp] theorem State.setTil_fstWeak (s : State) (t : Nat) (x : Tile) : (s.setTil t x).fstWeak = s.fstWeak := rfl
@[simp] theorem State.setTil_rings (s : State) (t : Nat) (x : Tile) : (s.setTil t x).rings = s.rings := rfl
@[simp] theorem State.setTil_fields (s : State) (t : Nat) (x : Tile) : (s.setTil t x).fields = s.fields := rfl
@[simp] theorem State.setTil_groups (s : State) (t : Nat) (x : Tile) : (s.setTil t x).groups = s.groups := rfl
@[simp] theorem State.setTil_slots (s : State) (t : Nat) (x : Tile) : (s.setTil t x).slots = s.slots := rfl
@[simp] theorem State.setTil_rules (s : State) (t : Nat) (x : Tile) : (s.setTil t x).rules = s.rules := rfl
@[simp] theorem State.setTil_buoys (s : State) (t : Nat) (x : Tile) : (s.setTil t x).buoys = s.buoys := rfl
@[simp] theorem State.setTil_buoyBlocks (s : State) (t : Nat) (x : Tile) : (s.setTil t x).buoyBlocks = s.buoyBlocks := rfl
@[simp] theorem State.setTil_sectorTags (s : State) (t : Nat) (x : Tile) : (s.setTil t x).sectorTags = s.sectorTags := rfl
@[simp] theorem State.setTil_packets (s : State) (t : Nat) (x : Tile) : (s.setTil t x).packets = s.packets := rfl
@[simp] theorem State.setTil_answers (s : State) (t : Nat) (x : Tile) : (s.setTil t x).answers = s.answers := rfl
@[simp] theorem State.setTil_journal (s : State) (t : Nat) (x : Tile) : (s.setTil t x).journal = s.journal := rfl
@[simp] theorem State.setTil_lenses (s : State) (t : Nat) (x : Tile) : (s.setTil t x).lenses = s.lenses := rfl
@[simp] theorem State.setTil_mvs (s : State) (t : Nat) (x : Tile) : (s.setTil t x).mvs = s.mvs := rfl
@[simp] theorem State.setTil_sectors (s : State) (t : Nat) (x : Tile) : (s.setTil t x).sectors = s.sectors := rfl
@[simp] theorem State.setTil_live (s : State) (t : Nat) (x : Tile) : (s.setTil t x).live = s.live := rfl
@[simp] theorem State.setTil_mboxQueue (s : State) (t : Nat) (x : Tile) : (s.setTil t x).mboxQueue = s.mboxQueue := rfl
@[simp] theorem State.setTil_mboxJobs (s : State) (t : Nat) (x : Tile) : (s.setTil t x).mboxJobs = s.mboxJobs := rfl
@[simp] theorem State.setTil_resets (s : State) (t : Nat) (x : Tile) : (s.setTil t x).resets = s.resets := rfl
@[simp] theorem State.setTil_bays (s : State) (t : Nat) (x : Tile) : (s.setTil t x).bays = s.bays := rfl
@[simp] theorem State.setTil_settleDue (s : State) (t : Nat) (x : Tile) : (s.setTil t x).settleDue = s.settleDue := rfl
@[simp] theorem State.setTil_periodWrites (s : State) (t : Nat) (x : Tile) : (s.setTil t x).periodWrites = s.periodWrites := rfl
@[simp] theorem State.setTil_watchSpan (s : State) (t : Nat) (x : Tile) : (s.setTil t x).watchSpan = s.watchSpan := rfl
@[simp] theorem State.setTil_hwSet (s : State) (t : Nat) (x : Tile) : (s.setTil t x).hwSet = s.hwSet := rfl
@[simp] theorem State.setTil_rwlWrites (s : State) (t : Nat) (x : Tile) : (s.setTil t x).rwlWrites = s.rwlWrites := rfl
@[simp] theorem State.setTil_unlocked (s : State) (t : Nat) (x : Tile) : (s.setTil t x).unlocked = s.unlocked := rfl
@[simp] theorem State.setTil_copyA (s : State) (t : Nat) (x : Tile) : (s.setTil t x).copyA = s.copyA := rfl
@[simp] theorem State.setTil_copyB (s : State) (t : Nat) (x : Tile) : (s.setTil t x).copyB = s.copyB := rfl
@[simp] theorem State.setTil_ledgerRepair (s : State) (t : Nat) (x : Tile) : (s.setTil t x).ledgerRepair = s.ledgerRepair := rfl
@[simp] theorem State.setTil_lostTiles (s : State) (t : Nat) (x : Tile) : (s.setTil t x).lostTiles = s.lostTiles := rfl
@[simp] theorem State.setTil_rd (s : State) (t : Nat) (x : Tile) (r' : Reg) (u' i' : Nat) :
    (s.setTil t x).rd r' u' i' = s.rd r' u' i' := rfl
@[simp] theorem State.setTil_gf (s : State) (t : Nat) (x : Tile) (f' : RegField) (u' i' : Nat) :
    (s.setTil t x).gf f' u' i' = s.gf f' u' i' := rfl
@[simp] theorem State.setTil_flag (s : State) (t : Nat) (x : Tile) (f' : RegField) (u' i' : Nat) :
    (s.setTil t x).flag f' u' i' = s.flag f' u' i' := rfl
@[simp] theorem State.setTil_fld (s : State) (t : Nat) (x : Tile) (f' : Nat) :
    (s.setTil t x).fld f' = s.fld f' := rfl
@[simp] theorem State.setTil_grp (s : State) (t : Nat) (x : Tile) (t' g' : Nat) :
    (s.setTil t x).grp t' g' = s.grp t' g' := rfl
@[simp] theorem State.setTil_slot (s : State) (t : Nat) (x : Tile) (t' k' : Nat) :
    (s.setTil t x).slot t' k' = s.slot t' k' := rfl
@[simp] theorem State.setTil_rule (s : State) (t : Nat) (x : Tile) (t' k' : Nat) :
    (s.setTil t x).rule t' k' = s.rule t' k' := rfl
@[simp] theorem State.setTil_buoy (s : State) (t : Nat) (x : Tile) (b' i' : Nat) :
    (s.setTil t x).buoy b' i' = s.buoy b' i' := rfl
@[simp] theorem State.setTil_blk (s : State) (t : Nat) (x : Tile) (b' : Nat) :
    (s.setTil t x).blk b' = s.blk b' := rfl
@[simp] theorem State.setTil_tagSt (s : State) (t : Nat) (x : Tile) (a' b' : Nat) :
    (s.setTil t x).tagSt a' b' = s.tagSt a' b' := rfl
@[simp] theorem State.setTil_ring (s : State) (t : Nat) (x : Tile) (r' : Nat) :
    (s.setTil t x).ring r' = s.ring r' := rfl
@[simp] theorem State.setTil_sramByte (s : State) (t : Nat) (x : Tile) (t' o' : Nat) :
    (s.setTil t x).sramByte t' o' = s.sramByte t' o' := rfl
@[simp] theorem State.setTil_fstByte (s : State) (t : Nat) (x : Tile) (f' o' : Nat) :
    (s.setTil t x).fstByte f' o' = s.fstByte f' o' := rfl
@[simp] theorem State.setTil_pkt (s : State) (t : Nat) (x : Tile) (id' : Nat) :
    (s.setTil t x).pkt id' = s.pkt id' := rfl

/-! ### `State.setSlot` -/

@[simp] theorem State.setSlot_pending (s : State) (t k : Nat) (x : Slot) : (s.setSlot t k x).pending = s.pending := rfl
@[simp] theorem State.setSlot_now (s : State) (t k : Nat) (x : Slot) : (s.setSlot t k x).now = s.now := rfl
@[simp] theorem State.setSlot_fresh (s : State) (t k : Nat) (x : Slot) : (s.setSlot t k x).fresh = s.fresh := rfl
@[simp] theorem State.setSlot_nextPkt (s : State) (t k : Nat) (x : Slot) : (s.setSlot t k x).nextPkt = s.nextPkt := rfl
@[simp] theorem State.setSlot_fuses (s : State) (t k : Nat) (x : Slot) : (s.setSlot t k x).fuses = s.fuses := rfl
@[simp] theorem State.setSlot_out (s : State) (t k : Nat) (x : Slot) : (s.setSlot t k x).out = s.out := rfl
@[simp] theorem State.setSlot_regs (s : State) (t k : Nat) (x : Slot) : (s.setSlot t k x).regs = s.regs := rfl
@[simp] theorem State.setSlot_sram (s : State) (t k : Nat) (x : Slot) : (s.setSlot t k x).sram = s.sram := rfl
@[simp] theorem State.setSlot_sramBad (s : State) (t k : Nat) (x : Slot) : (s.setSlot t k x).sramBad = s.sramBad := rfl
@[simp] theorem State.setSlot_sramWeak (s : State) (t k : Nat) (x : Slot) : (s.setSlot t k x).sramWeak = s.sramWeak := rfl
@[simp] theorem State.setSlot_fst (s : State) (t k : Nat) (x : Slot) : (s.setSlot t k x).fst = s.fst := rfl
@[simp] theorem State.setSlot_fstBad (s : State) (t k : Nat) (x : Slot) : (s.setSlot t k x).fstBad = s.fstBad := rfl
@[simp] theorem State.setSlot_fstWeak (s : State) (t k : Nat) (x : Slot) : (s.setSlot t k x).fstWeak = s.fstWeak := rfl
@[simp] theorem State.setSlot_rings (s : State) (t k : Nat) (x : Slot) : (s.setSlot t k x).rings = s.rings := rfl
@[simp] theorem State.setSlot_fields (s : State) (t k : Nat) (x : Slot) : (s.setSlot t k x).fields = s.fields := rfl
@[simp] theorem State.setSlot_groups (s : State) (t k : Nat) (x : Slot) : (s.setSlot t k x).groups = s.groups := rfl
@[simp] theorem State.setSlot_tiles (s : State) (t k : Nat) (x : Slot) : (s.setSlot t k x).tiles = s.tiles := rfl
@[simp] theorem State.setSlot_rules (s : State) (t k : Nat) (x : Slot) : (s.setSlot t k x).rules = s.rules := rfl
@[simp] theorem State.setSlot_buoys (s : State) (t k : Nat) (x : Slot) : (s.setSlot t k x).buoys = s.buoys := rfl
@[simp] theorem State.setSlot_buoyBlocks (s : State) (t k : Nat) (x : Slot) : (s.setSlot t k x).buoyBlocks = s.buoyBlocks := rfl
@[simp] theorem State.setSlot_sectorTags (s : State) (t k : Nat) (x : Slot) : (s.setSlot t k x).sectorTags = s.sectorTags := rfl
@[simp] theorem State.setSlot_packets (s : State) (t k : Nat) (x : Slot) : (s.setSlot t k x).packets = s.packets := rfl
@[simp] theorem State.setSlot_answers (s : State) (t k : Nat) (x : Slot) : (s.setSlot t k x).answers = s.answers := rfl
@[simp] theorem State.setSlot_journal (s : State) (t k : Nat) (x : Slot) : (s.setSlot t k x).journal = s.journal := rfl
@[simp] theorem State.setSlot_lenses (s : State) (t k : Nat) (x : Slot) : (s.setSlot t k x).lenses = s.lenses := rfl
@[simp] theorem State.setSlot_mvs (s : State) (t k : Nat) (x : Slot) : (s.setSlot t k x).mvs = s.mvs := rfl
@[simp] theorem State.setSlot_sectors (s : State) (t k : Nat) (x : Slot) : (s.setSlot t k x).sectors = s.sectors := rfl
@[simp] theorem State.setSlot_live (s : State) (t k : Nat) (x : Slot) : (s.setSlot t k x).live = s.live := rfl
@[simp] theorem State.setSlot_mboxQueue (s : State) (t k : Nat) (x : Slot) : (s.setSlot t k x).mboxQueue = s.mboxQueue := rfl
@[simp] theorem State.setSlot_mboxJobs (s : State) (t k : Nat) (x : Slot) : (s.setSlot t k x).mboxJobs = s.mboxJobs := rfl
@[simp] theorem State.setSlot_resets (s : State) (t k : Nat) (x : Slot) : (s.setSlot t k x).resets = s.resets := rfl
@[simp] theorem State.setSlot_bays (s : State) (t k : Nat) (x : Slot) : (s.setSlot t k x).bays = s.bays := rfl
@[simp] theorem State.setSlot_settleDue (s : State) (t k : Nat) (x : Slot) : (s.setSlot t k x).settleDue = s.settleDue := rfl
@[simp] theorem State.setSlot_periodWrites (s : State) (t k : Nat) (x : Slot) : (s.setSlot t k x).periodWrites = s.periodWrites := rfl
@[simp] theorem State.setSlot_watchSpan (s : State) (t k : Nat) (x : Slot) : (s.setSlot t k x).watchSpan = s.watchSpan := rfl
@[simp] theorem State.setSlot_hwSet (s : State) (t k : Nat) (x : Slot) : (s.setSlot t k x).hwSet = s.hwSet := rfl
@[simp] theorem State.setSlot_rwlWrites (s : State) (t k : Nat) (x : Slot) : (s.setSlot t k x).rwlWrites = s.rwlWrites := rfl
@[simp] theorem State.setSlot_unlocked (s : State) (t k : Nat) (x : Slot) : (s.setSlot t k x).unlocked = s.unlocked := rfl
@[simp] theorem State.setSlot_copyA (s : State) (t k : Nat) (x : Slot) : (s.setSlot t k x).copyA = s.copyA := rfl
@[simp] theorem State.setSlot_copyB (s : State) (t k : Nat) (x : Slot) : (s.setSlot t k x).copyB = s.copyB := rfl
@[simp] theorem State.setSlot_ledgerRepair (s : State) (t k : Nat) (x : Slot) : (s.setSlot t k x).ledgerRepair = s.ledgerRepair := rfl
@[simp] theorem State.setSlot_lostTiles (s : State) (t k : Nat) (x : Slot) : (s.setSlot t k x).lostTiles = s.lostTiles := rfl
@[simp] theorem State.setSlot_rd (s : State) (t k : Nat) (x : Slot) (r' : Reg) (u' i' : Nat) :
    (s.setSlot t k x).rd r' u' i' = s.rd r' u' i' := rfl
@[simp] theorem State.setSlot_gf (s : State) (t k : Nat) (x : Slot) (f' : RegField) (u' i' : Nat) :
    (s.setSlot t k x).gf f' u' i' = s.gf f' u' i' := rfl
@[simp] theorem State.setSlot_flag (s : State) (t k : Nat) (x : Slot) (f' : RegField) (u' i' : Nat) :
    (s.setSlot t k x).flag f' u' i' = s.flag f' u' i' := rfl
@[simp] theorem State.setSlot_fld (s : State) (t k : Nat) (x : Slot) (f' : Nat) :
    (s.setSlot t k x).fld f' = s.fld f' := rfl
@[simp] theorem State.setSlot_grp (s : State) (t k : Nat) (x : Slot) (t' g' : Nat) :
    (s.setSlot t k x).grp t' g' = s.grp t' g' := rfl
@[simp] theorem State.setSlot_til (s : State) (t k : Nat) (x : Slot) (t' : Nat) :
    (s.setSlot t k x).til t' = s.til t' := rfl
@[simp] theorem State.setSlot_rule (s : State) (t k : Nat) (x : Slot) (t' k' : Nat) :
    (s.setSlot t k x).rule t' k' = s.rule t' k' := rfl
@[simp] theorem State.setSlot_buoy (s : State) (t k : Nat) (x : Slot) (b' i' : Nat) :
    (s.setSlot t k x).buoy b' i' = s.buoy b' i' := rfl
@[simp] theorem State.setSlot_blk (s : State) (t k : Nat) (x : Slot) (b' : Nat) :
    (s.setSlot t k x).blk b' = s.blk b' := rfl
@[simp] theorem State.setSlot_tagSt (s : State) (t k : Nat) (x : Slot) (a' b' : Nat) :
    (s.setSlot t k x).tagSt a' b' = s.tagSt a' b' := rfl
@[simp] theorem State.setSlot_ring (s : State) (t k : Nat) (x : Slot) (r' : Nat) :
    (s.setSlot t k x).ring r' = s.ring r' := rfl
@[simp] theorem State.setSlot_sramByte (s : State) (t k : Nat) (x : Slot) (t' o' : Nat) :
    (s.setSlot t k x).sramByte t' o' = s.sramByte t' o' := rfl
@[simp] theorem State.setSlot_fstByte (s : State) (t k : Nat) (x : Slot) (f' o' : Nat) :
    (s.setSlot t k x).fstByte f' o' = s.fstByte f' o' := rfl
@[simp] theorem State.setSlot_pkt (s : State) (t k : Nat) (x : Slot) (id' : Nat) :
    (s.setSlot t k x).pkt id' = s.pkt id' := rfl

/-! ### `State.setRule` -/

@[simp] theorem State.setRule_pending (s : State) (t k : Nat) (x : RuleSt) : (s.setRule t k x).pending = s.pending := rfl
@[simp] theorem State.setRule_now (s : State) (t k : Nat) (x : RuleSt) : (s.setRule t k x).now = s.now := rfl
@[simp] theorem State.setRule_fresh (s : State) (t k : Nat) (x : RuleSt) : (s.setRule t k x).fresh = s.fresh := rfl
@[simp] theorem State.setRule_nextPkt (s : State) (t k : Nat) (x : RuleSt) : (s.setRule t k x).nextPkt = s.nextPkt := rfl
@[simp] theorem State.setRule_fuses (s : State) (t k : Nat) (x : RuleSt) : (s.setRule t k x).fuses = s.fuses := rfl
@[simp] theorem State.setRule_out (s : State) (t k : Nat) (x : RuleSt) : (s.setRule t k x).out = s.out := rfl
@[simp] theorem State.setRule_regs (s : State) (t k : Nat) (x : RuleSt) : (s.setRule t k x).regs = s.regs := rfl
@[simp] theorem State.setRule_sram (s : State) (t k : Nat) (x : RuleSt) : (s.setRule t k x).sram = s.sram := rfl
@[simp] theorem State.setRule_sramBad (s : State) (t k : Nat) (x : RuleSt) : (s.setRule t k x).sramBad = s.sramBad := rfl
@[simp] theorem State.setRule_sramWeak (s : State) (t k : Nat) (x : RuleSt) : (s.setRule t k x).sramWeak = s.sramWeak := rfl
@[simp] theorem State.setRule_fst (s : State) (t k : Nat) (x : RuleSt) : (s.setRule t k x).fst = s.fst := rfl
@[simp] theorem State.setRule_fstBad (s : State) (t k : Nat) (x : RuleSt) : (s.setRule t k x).fstBad = s.fstBad := rfl
@[simp] theorem State.setRule_fstWeak (s : State) (t k : Nat) (x : RuleSt) : (s.setRule t k x).fstWeak = s.fstWeak := rfl
@[simp] theorem State.setRule_rings (s : State) (t k : Nat) (x : RuleSt) : (s.setRule t k x).rings = s.rings := rfl
@[simp] theorem State.setRule_fields (s : State) (t k : Nat) (x : RuleSt) : (s.setRule t k x).fields = s.fields := rfl
@[simp] theorem State.setRule_groups (s : State) (t k : Nat) (x : RuleSt) : (s.setRule t k x).groups = s.groups := rfl
@[simp] theorem State.setRule_tiles (s : State) (t k : Nat) (x : RuleSt) : (s.setRule t k x).tiles = s.tiles := rfl
@[simp] theorem State.setRule_slots (s : State) (t k : Nat) (x : RuleSt) : (s.setRule t k x).slots = s.slots := rfl
@[simp] theorem State.setRule_buoys (s : State) (t k : Nat) (x : RuleSt) : (s.setRule t k x).buoys = s.buoys := rfl
@[simp] theorem State.setRule_buoyBlocks (s : State) (t k : Nat) (x : RuleSt) : (s.setRule t k x).buoyBlocks = s.buoyBlocks := rfl
@[simp] theorem State.setRule_sectorTags (s : State) (t k : Nat) (x : RuleSt) : (s.setRule t k x).sectorTags = s.sectorTags := rfl
@[simp] theorem State.setRule_packets (s : State) (t k : Nat) (x : RuleSt) : (s.setRule t k x).packets = s.packets := rfl
@[simp] theorem State.setRule_answers (s : State) (t k : Nat) (x : RuleSt) : (s.setRule t k x).answers = s.answers := rfl
@[simp] theorem State.setRule_journal (s : State) (t k : Nat) (x : RuleSt) : (s.setRule t k x).journal = s.journal := rfl
@[simp] theorem State.setRule_lenses (s : State) (t k : Nat) (x : RuleSt) : (s.setRule t k x).lenses = s.lenses := rfl
@[simp] theorem State.setRule_mvs (s : State) (t k : Nat) (x : RuleSt) : (s.setRule t k x).mvs = s.mvs := rfl
@[simp] theorem State.setRule_sectors (s : State) (t k : Nat) (x : RuleSt) : (s.setRule t k x).sectors = s.sectors := rfl
@[simp] theorem State.setRule_live (s : State) (t k : Nat) (x : RuleSt) : (s.setRule t k x).live = s.live := rfl
@[simp] theorem State.setRule_mboxQueue (s : State) (t k : Nat) (x : RuleSt) : (s.setRule t k x).mboxQueue = s.mboxQueue := rfl
@[simp] theorem State.setRule_mboxJobs (s : State) (t k : Nat) (x : RuleSt) : (s.setRule t k x).mboxJobs = s.mboxJobs := rfl
@[simp] theorem State.setRule_resets (s : State) (t k : Nat) (x : RuleSt) : (s.setRule t k x).resets = s.resets := rfl
@[simp] theorem State.setRule_bays (s : State) (t k : Nat) (x : RuleSt) : (s.setRule t k x).bays = s.bays := rfl
@[simp] theorem State.setRule_settleDue (s : State) (t k : Nat) (x : RuleSt) : (s.setRule t k x).settleDue = s.settleDue := rfl
@[simp] theorem State.setRule_periodWrites (s : State) (t k : Nat) (x : RuleSt) : (s.setRule t k x).periodWrites = s.periodWrites := rfl
@[simp] theorem State.setRule_watchSpan (s : State) (t k : Nat) (x : RuleSt) : (s.setRule t k x).watchSpan = s.watchSpan := rfl
@[simp] theorem State.setRule_hwSet (s : State) (t k : Nat) (x : RuleSt) : (s.setRule t k x).hwSet = s.hwSet := rfl
@[simp] theorem State.setRule_rwlWrites (s : State) (t k : Nat) (x : RuleSt) : (s.setRule t k x).rwlWrites = s.rwlWrites := rfl
@[simp] theorem State.setRule_unlocked (s : State) (t k : Nat) (x : RuleSt) : (s.setRule t k x).unlocked = s.unlocked := rfl
@[simp] theorem State.setRule_copyA (s : State) (t k : Nat) (x : RuleSt) : (s.setRule t k x).copyA = s.copyA := rfl
@[simp] theorem State.setRule_copyB (s : State) (t k : Nat) (x : RuleSt) : (s.setRule t k x).copyB = s.copyB := rfl
@[simp] theorem State.setRule_ledgerRepair (s : State) (t k : Nat) (x : RuleSt) : (s.setRule t k x).ledgerRepair = s.ledgerRepair := rfl
@[simp] theorem State.setRule_lostTiles (s : State) (t k : Nat) (x : RuleSt) : (s.setRule t k x).lostTiles = s.lostTiles := rfl
@[simp] theorem State.setRule_rd (s : State) (t k : Nat) (x : RuleSt) (r' : Reg) (u' i' : Nat) :
    (s.setRule t k x).rd r' u' i' = s.rd r' u' i' := rfl
@[simp] theorem State.setRule_gf (s : State) (t k : Nat) (x : RuleSt) (f' : RegField) (u' i' : Nat) :
    (s.setRule t k x).gf f' u' i' = s.gf f' u' i' := rfl
@[simp] theorem State.setRule_flag (s : State) (t k : Nat) (x : RuleSt) (f' : RegField) (u' i' : Nat) :
    (s.setRule t k x).flag f' u' i' = s.flag f' u' i' := rfl
@[simp] theorem State.setRule_fld (s : State) (t k : Nat) (x : RuleSt) (f' : Nat) :
    (s.setRule t k x).fld f' = s.fld f' := rfl
@[simp] theorem State.setRule_grp (s : State) (t k : Nat) (x : RuleSt) (t' g' : Nat) :
    (s.setRule t k x).grp t' g' = s.grp t' g' := rfl
@[simp] theorem State.setRule_til (s : State) (t k : Nat) (x : RuleSt) (t' : Nat) :
    (s.setRule t k x).til t' = s.til t' := rfl
@[simp] theorem State.setRule_slot (s : State) (t k : Nat) (x : RuleSt) (t' k' : Nat) :
    (s.setRule t k x).slot t' k' = s.slot t' k' := rfl
@[simp] theorem State.setRule_buoy (s : State) (t k : Nat) (x : RuleSt) (b' i' : Nat) :
    (s.setRule t k x).buoy b' i' = s.buoy b' i' := rfl
@[simp] theorem State.setRule_blk (s : State) (t k : Nat) (x : RuleSt) (b' : Nat) :
    (s.setRule t k x).blk b' = s.blk b' := rfl
@[simp] theorem State.setRule_tagSt (s : State) (t k : Nat) (x : RuleSt) (a' b' : Nat) :
    (s.setRule t k x).tagSt a' b' = s.tagSt a' b' := rfl
@[simp] theorem State.setRule_ring (s : State) (t k : Nat) (x : RuleSt) (r' : Nat) :
    (s.setRule t k x).ring r' = s.ring r' := rfl
@[simp] theorem State.setRule_sramByte (s : State) (t k : Nat) (x : RuleSt) (t' o' : Nat) :
    (s.setRule t k x).sramByte t' o' = s.sramByte t' o' := rfl
@[simp] theorem State.setRule_fstByte (s : State) (t k : Nat) (x : RuleSt) (f' o' : Nat) :
    (s.setRule t k x).fstByte f' o' = s.fstByte f' o' := rfl
@[simp] theorem State.setRule_pkt (s : State) (t k : Nat) (x : RuleSt) (id' : Nat) :
    (s.setRule t k x).pkt id' = s.pkt id' := rfl

/-! ### `State.setBuoy` -/

@[simp] theorem State.setBuoy_pending (s : State) (b i : Nat) (x : Buoy) : (s.setBuoy b i x).pending = s.pending := rfl
@[simp] theorem State.setBuoy_now (s : State) (b i : Nat) (x : Buoy) : (s.setBuoy b i x).now = s.now := rfl
@[simp] theorem State.setBuoy_fresh (s : State) (b i : Nat) (x : Buoy) : (s.setBuoy b i x).fresh = s.fresh := rfl
@[simp] theorem State.setBuoy_nextPkt (s : State) (b i : Nat) (x : Buoy) : (s.setBuoy b i x).nextPkt = s.nextPkt := rfl
@[simp] theorem State.setBuoy_fuses (s : State) (b i : Nat) (x : Buoy) : (s.setBuoy b i x).fuses = s.fuses := rfl
@[simp] theorem State.setBuoy_out (s : State) (b i : Nat) (x : Buoy) : (s.setBuoy b i x).out = s.out := rfl
@[simp] theorem State.setBuoy_regs (s : State) (b i : Nat) (x : Buoy) : (s.setBuoy b i x).regs = s.regs := rfl
@[simp] theorem State.setBuoy_sram (s : State) (b i : Nat) (x : Buoy) : (s.setBuoy b i x).sram = s.sram := rfl
@[simp] theorem State.setBuoy_sramBad (s : State) (b i : Nat) (x : Buoy) : (s.setBuoy b i x).sramBad = s.sramBad := rfl
@[simp] theorem State.setBuoy_sramWeak (s : State) (b i : Nat) (x : Buoy) : (s.setBuoy b i x).sramWeak = s.sramWeak := rfl
@[simp] theorem State.setBuoy_fst (s : State) (b i : Nat) (x : Buoy) : (s.setBuoy b i x).fst = s.fst := rfl
@[simp] theorem State.setBuoy_fstBad (s : State) (b i : Nat) (x : Buoy) : (s.setBuoy b i x).fstBad = s.fstBad := rfl
@[simp] theorem State.setBuoy_fstWeak (s : State) (b i : Nat) (x : Buoy) : (s.setBuoy b i x).fstWeak = s.fstWeak := rfl
@[simp] theorem State.setBuoy_rings (s : State) (b i : Nat) (x : Buoy) : (s.setBuoy b i x).rings = s.rings := rfl
@[simp] theorem State.setBuoy_fields (s : State) (b i : Nat) (x : Buoy) : (s.setBuoy b i x).fields = s.fields := rfl
@[simp] theorem State.setBuoy_groups (s : State) (b i : Nat) (x : Buoy) : (s.setBuoy b i x).groups = s.groups := rfl
@[simp] theorem State.setBuoy_tiles (s : State) (b i : Nat) (x : Buoy) : (s.setBuoy b i x).tiles = s.tiles := rfl
@[simp] theorem State.setBuoy_slots (s : State) (b i : Nat) (x : Buoy) : (s.setBuoy b i x).slots = s.slots := rfl
@[simp] theorem State.setBuoy_rules (s : State) (b i : Nat) (x : Buoy) : (s.setBuoy b i x).rules = s.rules := rfl
@[simp] theorem State.setBuoy_buoyBlocks (s : State) (b i : Nat) (x : Buoy) : (s.setBuoy b i x).buoyBlocks = s.buoyBlocks := rfl
@[simp] theorem State.setBuoy_sectorTags (s : State) (b i : Nat) (x : Buoy) : (s.setBuoy b i x).sectorTags = s.sectorTags := rfl
@[simp] theorem State.setBuoy_packets (s : State) (b i : Nat) (x : Buoy) : (s.setBuoy b i x).packets = s.packets := rfl
@[simp] theorem State.setBuoy_answers (s : State) (b i : Nat) (x : Buoy) : (s.setBuoy b i x).answers = s.answers := rfl
@[simp] theorem State.setBuoy_journal (s : State) (b i : Nat) (x : Buoy) : (s.setBuoy b i x).journal = s.journal := rfl
@[simp] theorem State.setBuoy_lenses (s : State) (b i : Nat) (x : Buoy) : (s.setBuoy b i x).lenses = s.lenses := rfl
@[simp] theorem State.setBuoy_mvs (s : State) (b i : Nat) (x : Buoy) : (s.setBuoy b i x).mvs = s.mvs := rfl
@[simp] theorem State.setBuoy_sectors (s : State) (b i : Nat) (x : Buoy) : (s.setBuoy b i x).sectors = s.sectors := rfl
@[simp] theorem State.setBuoy_live (s : State) (b i : Nat) (x : Buoy) : (s.setBuoy b i x).live = s.live := rfl
@[simp] theorem State.setBuoy_mboxQueue (s : State) (b i : Nat) (x : Buoy) : (s.setBuoy b i x).mboxQueue = s.mboxQueue := rfl
@[simp] theorem State.setBuoy_mboxJobs (s : State) (b i : Nat) (x : Buoy) : (s.setBuoy b i x).mboxJobs = s.mboxJobs := rfl
@[simp] theorem State.setBuoy_resets (s : State) (b i : Nat) (x : Buoy) : (s.setBuoy b i x).resets = s.resets := rfl
@[simp] theorem State.setBuoy_bays (s : State) (b i : Nat) (x : Buoy) : (s.setBuoy b i x).bays = s.bays := rfl
@[simp] theorem State.setBuoy_settleDue (s : State) (b i : Nat) (x : Buoy) : (s.setBuoy b i x).settleDue = s.settleDue := rfl
@[simp] theorem State.setBuoy_periodWrites (s : State) (b i : Nat) (x : Buoy) : (s.setBuoy b i x).periodWrites = s.periodWrites := rfl
@[simp] theorem State.setBuoy_watchSpan (s : State) (b i : Nat) (x : Buoy) : (s.setBuoy b i x).watchSpan = s.watchSpan := rfl
@[simp] theorem State.setBuoy_hwSet (s : State) (b i : Nat) (x : Buoy) : (s.setBuoy b i x).hwSet = s.hwSet := rfl
@[simp] theorem State.setBuoy_rwlWrites (s : State) (b i : Nat) (x : Buoy) : (s.setBuoy b i x).rwlWrites = s.rwlWrites := rfl
@[simp] theorem State.setBuoy_unlocked (s : State) (b i : Nat) (x : Buoy) : (s.setBuoy b i x).unlocked = s.unlocked := rfl
@[simp] theorem State.setBuoy_copyA (s : State) (b i : Nat) (x : Buoy) : (s.setBuoy b i x).copyA = s.copyA := rfl
@[simp] theorem State.setBuoy_copyB (s : State) (b i : Nat) (x : Buoy) : (s.setBuoy b i x).copyB = s.copyB := rfl
@[simp] theorem State.setBuoy_ledgerRepair (s : State) (b i : Nat) (x : Buoy) : (s.setBuoy b i x).ledgerRepair = s.ledgerRepair := rfl
@[simp] theorem State.setBuoy_lostTiles (s : State) (b i : Nat) (x : Buoy) : (s.setBuoy b i x).lostTiles = s.lostTiles := rfl
@[simp] theorem State.setBuoy_rd (s : State) (b i : Nat) (x : Buoy) (r' : Reg) (u' i' : Nat) :
    (s.setBuoy b i x).rd r' u' i' = s.rd r' u' i' := rfl
@[simp] theorem State.setBuoy_gf (s : State) (b i : Nat) (x : Buoy) (f' : RegField) (u' i' : Nat) :
    (s.setBuoy b i x).gf f' u' i' = s.gf f' u' i' := rfl
@[simp] theorem State.setBuoy_flag (s : State) (b i : Nat) (x : Buoy) (f' : RegField) (u' i' : Nat) :
    (s.setBuoy b i x).flag f' u' i' = s.flag f' u' i' := rfl
@[simp] theorem State.setBuoy_fld (s : State) (b i : Nat) (x : Buoy) (f' : Nat) :
    (s.setBuoy b i x).fld f' = s.fld f' := rfl
@[simp] theorem State.setBuoy_grp (s : State) (b i : Nat) (x : Buoy) (t' g' : Nat) :
    (s.setBuoy b i x).grp t' g' = s.grp t' g' := rfl
@[simp] theorem State.setBuoy_til (s : State) (b i : Nat) (x : Buoy) (t' : Nat) :
    (s.setBuoy b i x).til t' = s.til t' := rfl
@[simp] theorem State.setBuoy_slot (s : State) (b i : Nat) (x : Buoy) (t' k' : Nat) :
    (s.setBuoy b i x).slot t' k' = s.slot t' k' := rfl
@[simp] theorem State.setBuoy_rule (s : State) (b i : Nat) (x : Buoy) (t' k' : Nat) :
    (s.setBuoy b i x).rule t' k' = s.rule t' k' := rfl
@[simp] theorem State.setBuoy_blk (s : State) (b i : Nat) (x : Buoy) (b' : Nat) :
    (s.setBuoy b i x).blk b' = s.blk b' := rfl
@[simp] theorem State.setBuoy_tagSt (s : State) (b i : Nat) (x : Buoy) (a' b' : Nat) :
    (s.setBuoy b i x).tagSt a' b' = s.tagSt a' b' := rfl
@[simp] theorem State.setBuoy_ring (s : State) (b i : Nat) (x : Buoy) (r' : Nat) :
    (s.setBuoy b i x).ring r' = s.ring r' := rfl
@[simp] theorem State.setBuoy_sramByte (s : State) (b i : Nat) (x : Buoy) (t' o' : Nat) :
    (s.setBuoy b i x).sramByte t' o' = s.sramByte t' o' := rfl
@[simp] theorem State.setBuoy_fstByte (s : State) (b i : Nat) (x : Buoy) (f' o' : Nat) :
    (s.setBuoy b i x).fstByte f' o' = s.fstByte f' o' := rfl
@[simp] theorem State.setBuoy_pkt (s : State) (b i : Nat) (x : Buoy) (id' : Nat) :
    (s.setBuoy b i x).pkt id' = s.pkt id' := rfl

/-! ### `State.setBlk` -/

@[simp] theorem State.setBlk_pending (s : State) (b : Nat) (x : BuoyBlock) : (s.setBlk b x).pending = s.pending := rfl
@[simp] theorem State.setBlk_now (s : State) (b : Nat) (x : BuoyBlock) : (s.setBlk b x).now = s.now := rfl
@[simp] theorem State.setBlk_fresh (s : State) (b : Nat) (x : BuoyBlock) : (s.setBlk b x).fresh = s.fresh := rfl
@[simp] theorem State.setBlk_nextPkt (s : State) (b : Nat) (x : BuoyBlock) : (s.setBlk b x).nextPkt = s.nextPkt := rfl
@[simp] theorem State.setBlk_fuses (s : State) (b : Nat) (x : BuoyBlock) : (s.setBlk b x).fuses = s.fuses := rfl
@[simp] theorem State.setBlk_out (s : State) (b : Nat) (x : BuoyBlock) : (s.setBlk b x).out = s.out := rfl
@[simp] theorem State.setBlk_regs (s : State) (b : Nat) (x : BuoyBlock) : (s.setBlk b x).regs = s.regs := rfl
@[simp] theorem State.setBlk_sram (s : State) (b : Nat) (x : BuoyBlock) : (s.setBlk b x).sram = s.sram := rfl
@[simp] theorem State.setBlk_sramBad (s : State) (b : Nat) (x : BuoyBlock) : (s.setBlk b x).sramBad = s.sramBad := rfl
@[simp] theorem State.setBlk_sramWeak (s : State) (b : Nat) (x : BuoyBlock) : (s.setBlk b x).sramWeak = s.sramWeak := rfl
@[simp] theorem State.setBlk_fst (s : State) (b : Nat) (x : BuoyBlock) : (s.setBlk b x).fst = s.fst := rfl
@[simp] theorem State.setBlk_fstBad (s : State) (b : Nat) (x : BuoyBlock) : (s.setBlk b x).fstBad = s.fstBad := rfl
@[simp] theorem State.setBlk_fstWeak (s : State) (b : Nat) (x : BuoyBlock) : (s.setBlk b x).fstWeak = s.fstWeak := rfl
@[simp] theorem State.setBlk_rings (s : State) (b : Nat) (x : BuoyBlock) : (s.setBlk b x).rings = s.rings := rfl
@[simp] theorem State.setBlk_fields (s : State) (b : Nat) (x : BuoyBlock) : (s.setBlk b x).fields = s.fields := rfl
@[simp] theorem State.setBlk_groups (s : State) (b : Nat) (x : BuoyBlock) : (s.setBlk b x).groups = s.groups := rfl
@[simp] theorem State.setBlk_tiles (s : State) (b : Nat) (x : BuoyBlock) : (s.setBlk b x).tiles = s.tiles := rfl
@[simp] theorem State.setBlk_slots (s : State) (b : Nat) (x : BuoyBlock) : (s.setBlk b x).slots = s.slots := rfl
@[simp] theorem State.setBlk_rules (s : State) (b : Nat) (x : BuoyBlock) : (s.setBlk b x).rules = s.rules := rfl
@[simp] theorem State.setBlk_buoys (s : State) (b : Nat) (x : BuoyBlock) : (s.setBlk b x).buoys = s.buoys := rfl
@[simp] theorem State.setBlk_sectorTags (s : State) (b : Nat) (x : BuoyBlock) : (s.setBlk b x).sectorTags = s.sectorTags := rfl
@[simp] theorem State.setBlk_packets (s : State) (b : Nat) (x : BuoyBlock) : (s.setBlk b x).packets = s.packets := rfl
@[simp] theorem State.setBlk_answers (s : State) (b : Nat) (x : BuoyBlock) : (s.setBlk b x).answers = s.answers := rfl
@[simp] theorem State.setBlk_journal (s : State) (b : Nat) (x : BuoyBlock) : (s.setBlk b x).journal = s.journal := rfl
@[simp] theorem State.setBlk_lenses (s : State) (b : Nat) (x : BuoyBlock) : (s.setBlk b x).lenses = s.lenses := rfl
@[simp] theorem State.setBlk_mvs (s : State) (b : Nat) (x : BuoyBlock) : (s.setBlk b x).mvs = s.mvs := rfl
@[simp] theorem State.setBlk_sectors (s : State) (b : Nat) (x : BuoyBlock) : (s.setBlk b x).sectors = s.sectors := rfl
@[simp] theorem State.setBlk_live (s : State) (b : Nat) (x : BuoyBlock) : (s.setBlk b x).live = s.live := rfl
@[simp] theorem State.setBlk_mboxQueue (s : State) (b : Nat) (x : BuoyBlock) : (s.setBlk b x).mboxQueue = s.mboxQueue := rfl
@[simp] theorem State.setBlk_mboxJobs (s : State) (b : Nat) (x : BuoyBlock) : (s.setBlk b x).mboxJobs = s.mboxJobs := rfl
@[simp] theorem State.setBlk_resets (s : State) (b : Nat) (x : BuoyBlock) : (s.setBlk b x).resets = s.resets := rfl
@[simp] theorem State.setBlk_bays (s : State) (b : Nat) (x : BuoyBlock) : (s.setBlk b x).bays = s.bays := rfl
@[simp] theorem State.setBlk_settleDue (s : State) (b : Nat) (x : BuoyBlock) : (s.setBlk b x).settleDue = s.settleDue := rfl
@[simp] theorem State.setBlk_periodWrites (s : State) (b : Nat) (x : BuoyBlock) : (s.setBlk b x).periodWrites = s.periodWrites := rfl
@[simp] theorem State.setBlk_watchSpan (s : State) (b : Nat) (x : BuoyBlock) : (s.setBlk b x).watchSpan = s.watchSpan := rfl
@[simp] theorem State.setBlk_hwSet (s : State) (b : Nat) (x : BuoyBlock) : (s.setBlk b x).hwSet = s.hwSet := rfl
@[simp] theorem State.setBlk_rwlWrites (s : State) (b : Nat) (x : BuoyBlock) : (s.setBlk b x).rwlWrites = s.rwlWrites := rfl
@[simp] theorem State.setBlk_unlocked (s : State) (b : Nat) (x : BuoyBlock) : (s.setBlk b x).unlocked = s.unlocked := rfl
@[simp] theorem State.setBlk_copyA (s : State) (b : Nat) (x : BuoyBlock) : (s.setBlk b x).copyA = s.copyA := rfl
@[simp] theorem State.setBlk_copyB (s : State) (b : Nat) (x : BuoyBlock) : (s.setBlk b x).copyB = s.copyB := rfl
@[simp] theorem State.setBlk_ledgerRepair (s : State) (b : Nat) (x : BuoyBlock) : (s.setBlk b x).ledgerRepair = s.ledgerRepair := rfl
@[simp] theorem State.setBlk_lostTiles (s : State) (b : Nat) (x : BuoyBlock) : (s.setBlk b x).lostTiles = s.lostTiles := rfl
@[simp] theorem State.setBlk_rd (s : State) (b : Nat) (x : BuoyBlock) (r' : Reg) (u' i' : Nat) :
    (s.setBlk b x).rd r' u' i' = s.rd r' u' i' := rfl
@[simp] theorem State.setBlk_gf (s : State) (b : Nat) (x : BuoyBlock) (f' : RegField) (u' i' : Nat) :
    (s.setBlk b x).gf f' u' i' = s.gf f' u' i' := rfl
@[simp] theorem State.setBlk_flag (s : State) (b : Nat) (x : BuoyBlock) (f' : RegField) (u' i' : Nat) :
    (s.setBlk b x).flag f' u' i' = s.flag f' u' i' := rfl
@[simp] theorem State.setBlk_fld (s : State) (b : Nat) (x : BuoyBlock) (f' : Nat) :
    (s.setBlk b x).fld f' = s.fld f' := rfl
@[simp] theorem State.setBlk_grp (s : State) (b : Nat) (x : BuoyBlock) (t' g' : Nat) :
    (s.setBlk b x).grp t' g' = s.grp t' g' := rfl
@[simp] theorem State.setBlk_til (s : State) (b : Nat) (x : BuoyBlock) (t' : Nat) :
    (s.setBlk b x).til t' = s.til t' := rfl
@[simp] theorem State.setBlk_slot (s : State) (b : Nat) (x : BuoyBlock) (t' k' : Nat) :
    (s.setBlk b x).slot t' k' = s.slot t' k' := rfl
@[simp] theorem State.setBlk_rule (s : State) (b : Nat) (x : BuoyBlock) (t' k' : Nat) :
    (s.setBlk b x).rule t' k' = s.rule t' k' := rfl
@[simp] theorem State.setBlk_buoy (s : State) (b : Nat) (x : BuoyBlock) (b' i' : Nat) :
    (s.setBlk b x).buoy b' i' = s.buoy b' i' := rfl
@[simp] theorem State.setBlk_tagSt (s : State) (b : Nat) (x : BuoyBlock) (a' b' : Nat) :
    (s.setBlk b x).tagSt a' b' = s.tagSt a' b' := rfl
@[simp] theorem State.setBlk_ring (s : State) (b : Nat) (x : BuoyBlock) (r' : Nat) :
    (s.setBlk b x).ring r' = s.ring r' := rfl
@[simp] theorem State.setBlk_sramByte (s : State) (b : Nat) (x : BuoyBlock) (t' o' : Nat) :
    (s.setBlk b x).sramByte t' o' = s.sramByte t' o' := rfl
@[simp] theorem State.setBlk_fstByte (s : State) (b : Nat) (x : BuoyBlock) (f' o' : Nat) :
    (s.setBlk b x).fstByte f' o' = s.fstByte f' o' := rfl
@[simp] theorem State.setBlk_pkt (s : State) (b : Nat) (x : BuoyBlock) (id' : Nat) :
    (s.setBlk b x).pkt id' = s.pkt id' := rfl

/-! ### `State.setTagSt` -/

@[simp] theorem State.setTagSt_pending (s : State) (a b : Nat) (x : TagState) : (s.setTagSt a b x).pending = s.pending := rfl
@[simp] theorem State.setTagSt_now (s : State) (a b : Nat) (x : TagState) : (s.setTagSt a b x).now = s.now := rfl
@[simp] theorem State.setTagSt_fresh (s : State) (a b : Nat) (x : TagState) : (s.setTagSt a b x).fresh = s.fresh := rfl
@[simp] theorem State.setTagSt_nextPkt (s : State) (a b : Nat) (x : TagState) : (s.setTagSt a b x).nextPkt = s.nextPkt := rfl
@[simp] theorem State.setTagSt_fuses (s : State) (a b : Nat) (x : TagState) : (s.setTagSt a b x).fuses = s.fuses := rfl
@[simp] theorem State.setTagSt_out (s : State) (a b : Nat) (x : TagState) : (s.setTagSt a b x).out = s.out := rfl
@[simp] theorem State.setTagSt_regs (s : State) (a b : Nat) (x : TagState) : (s.setTagSt a b x).regs = s.regs := rfl
@[simp] theorem State.setTagSt_sram (s : State) (a b : Nat) (x : TagState) : (s.setTagSt a b x).sram = s.sram := rfl
@[simp] theorem State.setTagSt_sramBad (s : State) (a b : Nat) (x : TagState) : (s.setTagSt a b x).sramBad = s.sramBad := rfl
@[simp] theorem State.setTagSt_sramWeak (s : State) (a b : Nat) (x : TagState) : (s.setTagSt a b x).sramWeak = s.sramWeak := rfl
@[simp] theorem State.setTagSt_fst (s : State) (a b : Nat) (x : TagState) : (s.setTagSt a b x).fst = s.fst := rfl
@[simp] theorem State.setTagSt_fstBad (s : State) (a b : Nat) (x : TagState) : (s.setTagSt a b x).fstBad = s.fstBad := rfl
@[simp] theorem State.setTagSt_fstWeak (s : State) (a b : Nat) (x : TagState) : (s.setTagSt a b x).fstWeak = s.fstWeak := rfl
@[simp] theorem State.setTagSt_rings (s : State) (a b : Nat) (x : TagState) : (s.setTagSt a b x).rings = s.rings := rfl
@[simp] theorem State.setTagSt_fields (s : State) (a b : Nat) (x : TagState) : (s.setTagSt a b x).fields = s.fields := rfl
@[simp] theorem State.setTagSt_groups (s : State) (a b : Nat) (x : TagState) : (s.setTagSt a b x).groups = s.groups := rfl
@[simp] theorem State.setTagSt_tiles (s : State) (a b : Nat) (x : TagState) : (s.setTagSt a b x).tiles = s.tiles := rfl
@[simp] theorem State.setTagSt_slots (s : State) (a b : Nat) (x : TagState) : (s.setTagSt a b x).slots = s.slots := rfl
@[simp] theorem State.setTagSt_rules (s : State) (a b : Nat) (x : TagState) : (s.setTagSt a b x).rules = s.rules := rfl
@[simp] theorem State.setTagSt_buoys (s : State) (a b : Nat) (x : TagState) : (s.setTagSt a b x).buoys = s.buoys := rfl
@[simp] theorem State.setTagSt_buoyBlocks (s : State) (a b : Nat) (x : TagState) : (s.setTagSt a b x).buoyBlocks = s.buoyBlocks := rfl
@[simp] theorem State.setTagSt_packets (s : State) (a b : Nat) (x : TagState) : (s.setTagSt a b x).packets = s.packets := rfl
@[simp] theorem State.setTagSt_answers (s : State) (a b : Nat) (x : TagState) : (s.setTagSt a b x).answers = s.answers := rfl
@[simp] theorem State.setTagSt_journal (s : State) (a b : Nat) (x : TagState) : (s.setTagSt a b x).journal = s.journal := rfl
@[simp] theorem State.setTagSt_lenses (s : State) (a b : Nat) (x : TagState) : (s.setTagSt a b x).lenses = s.lenses := rfl
@[simp] theorem State.setTagSt_mvs (s : State) (a b : Nat) (x : TagState) : (s.setTagSt a b x).mvs = s.mvs := rfl
@[simp] theorem State.setTagSt_sectors (s : State) (a b : Nat) (x : TagState) : (s.setTagSt a b x).sectors = s.sectors := rfl
@[simp] theorem State.setTagSt_live (s : State) (a b : Nat) (x : TagState) : (s.setTagSt a b x).live = s.live := rfl
@[simp] theorem State.setTagSt_mboxQueue (s : State) (a b : Nat) (x : TagState) : (s.setTagSt a b x).mboxQueue = s.mboxQueue := rfl
@[simp] theorem State.setTagSt_mboxJobs (s : State) (a b : Nat) (x : TagState) : (s.setTagSt a b x).mboxJobs = s.mboxJobs := rfl
@[simp] theorem State.setTagSt_resets (s : State) (a b : Nat) (x : TagState) : (s.setTagSt a b x).resets = s.resets := rfl
@[simp] theorem State.setTagSt_bays (s : State) (a b : Nat) (x : TagState) : (s.setTagSt a b x).bays = s.bays := rfl
@[simp] theorem State.setTagSt_settleDue (s : State) (a b : Nat) (x : TagState) : (s.setTagSt a b x).settleDue = s.settleDue := rfl
@[simp] theorem State.setTagSt_periodWrites (s : State) (a b : Nat) (x : TagState) : (s.setTagSt a b x).periodWrites = s.periodWrites := rfl
@[simp] theorem State.setTagSt_watchSpan (s : State) (a b : Nat) (x : TagState) : (s.setTagSt a b x).watchSpan = s.watchSpan := rfl
@[simp] theorem State.setTagSt_hwSet (s : State) (a b : Nat) (x : TagState) : (s.setTagSt a b x).hwSet = s.hwSet := rfl
@[simp] theorem State.setTagSt_rwlWrites (s : State) (a b : Nat) (x : TagState) : (s.setTagSt a b x).rwlWrites = s.rwlWrites := rfl
@[simp] theorem State.setTagSt_unlocked (s : State) (a b : Nat) (x : TagState) : (s.setTagSt a b x).unlocked = s.unlocked := rfl
@[simp] theorem State.setTagSt_copyA (s : State) (a b : Nat) (x : TagState) : (s.setTagSt a b x).copyA = s.copyA := rfl
@[simp] theorem State.setTagSt_copyB (s : State) (a b : Nat) (x : TagState) : (s.setTagSt a b x).copyB = s.copyB := rfl
@[simp] theorem State.setTagSt_ledgerRepair (s : State) (a b : Nat) (x : TagState) : (s.setTagSt a b x).ledgerRepair = s.ledgerRepair := rfl
@[simp] theorem State.setTagSt_lostTiles (s : State) (a b : Nat) (x : TagState) : (s.setTagSt a b x).lostTiles = s.lostTiles := rfl
@[simp] theorem State.setTagSt_rd (s : State) (a b : Nat) (x : TagState) (r' : Reg) (u' i' : Nat) :
    (s.setTagSt a b x).rd r' u' i' = s.rd r' u' i' := rfl
@[simp] theorem State.setTagSt_gf (s : State) (a b : Nat) (x : TagState) (f' : RegField) (u' i' : Nat) :
    (s.setTagSt a b x).gf f' u' i' = s.gf f' u' i' := rfl
@[simp] theorem State.setTagSt_flag (s : State) (a b : Nat) (x : TagState) (f' : RegField) (u' i' : Nat) :
    (s.setTagSt a b x).flag f' u' i' = s.flag f' u' i' := rfl
@[simp] theorem State.setTagSt_fld (s : State) (a b : Nat) (x : TagState) (f' : Nat) :
    (s.setTagSt a b x).fld f' = s.fld f' := rfl
@[simp] theorem State.setTagSt_grp (s : State) (a b : Nat) (x : TagState) (t' g' : Nat) :
    (s.setTagSt a b x).grp t' g' = s.grp t' g' := rfl
@[simp] theorem State.setTagSt_til (s : State) (a b : Nat) (x : TagState) (t' : Nat) :
    (s.setTagSt a b x).til t' = s.til t' := rfl
@[simp] theorem State.setTagSt_slot (s : State) (a b : Nat) (x : TagState) (t' k' : Nat) :
    (s.setTagSt a b x).slot t' k' = s.slot t' k' := rfl
@[simp] theorem State.setTagSt_rule (s : State) (a b : Nat) (x : TagState) (t' k' : Nat) :
    (s.setTagSt a b x).rule t' k' = s.rule t' k' := rfl
@[simp] theorem State.setTagSt_buoy (s : State) (a b : Nat) (x : TagState) (b' i' : Nat) :
    (s.setTagSt a b x).buoy b' i' = s.buoy b' i' := rfl
@[simp] theorem State.setTagSt_blk (s : State) (a b : Nat) (x : TagState) (b' : Nat) :
    (s.setTagSt a b x).blk b' = s.blk b' := rfl
@[simp] theorem State.setTagSt_ring (s : State) (a b : Nat) (x : TagState) (r' : Nat) :
    (s.setTagSt a b x).ring r' = s.ring r' := rfl
@[simp] theorem State.setTagSt_sramByte (s : State) (a b : Nat) (x : TagState) (t' o' : Nat) :
    (s.setTagSt a b x).sramByte t' o' = s.sramByte t' o' := rfl
@[simp] theorem State.setTagSt_fstByte (s : State) (a b : Nat) (x : TagState) (f' o' : Nat) :
    (s.setTagSt a b x).fstByte f' o' = s.fstByte f' o' := rfl
@[simp] theorem State.setTagSt_pkt (s : State) (a b : Nat) (x : TagState) (id' : Nat) :
    (s.setTagSt a b x).pkt id' = s.pkt id' := rfl

/-! ### `State.setRing` -/

@[simp] theorem State.setRing_pending (s : State) (r : Nat) (x : Ring) : (s.setRing r x).pending = s.pending := rfl
@[simp] theorem State.setRing_now (s : State) (r : Nat) (x : Ring) : (s.setRing r x).now = s.now := rfl
@[simp] theorem State.setRing_fresh (s : State) (r : Nat) (x : Ring) : (s.setRing r x).fresh = s.fresh := rfl
@[simp] theorem State.setRing_nextPkt (s : State) (r : Nat) (x : Ring) : (s.setRing r x).nextPkt = s.nextPkt := rfl
@[simp] theorem State.setRing_fuses (s : State) (r : Nat) (x : Ring) : (s.setRing r x).fuses = s.fuses := rfl
@[simp] theorem State.setRing_out (s : State) (r : Nat) (x : Ring) : (s.setRing r x).out = s.out := rfl
@[simp] theorem State.setRing_regs (s : State) (r : Nat) (x : Ring) : (s.setRing r x).regs = s.regs := rfl
@[simp] theorem State.setRing_sram (s : State) (r : Nat) (x : Ring) : (s.setRing r x).sram = s.sram := rfl
@[simp] theorem State.setRing_sramBad (s : State) (r : Nat) (x : Ring) : (s.setRing r x).sramBad = s.sramBad := rfl
@[simp] theorem State.setRing_sramWeak (s : State) (r : Nat) (x : Ring) : (s.setRing r x).sramWeak = s.sramWeak := rfl
@[simp] theorem State.setRing_fst (s : State) (r : Nat) (x : Ring) : (s.setRing r x).fst = s.fst := rfl
@[simp] theorem State.setRing_fstBad (s : State) (r : Nat) (x : Ring) : (s.setRing r x).fstBad = s.fstBad := rfl
@[simp] theorem State.setRing_fstWeak (s : State) (r : Nat) (x : Ring) : (s.setRing r x).fstWeak = s.fstWeak := rfl
@[simp] theorem State.setRing_fields (s : State) (r : Nat) (x : Ring) : (s.setRing r x).fields = s.fields := rfl
@[simp] theorem State.setRing_groups (s : State) (r : Nat) (x : Ring) : (s.setRing r x).groups = s.groups := rfl
@[simp] theorem State.setRing_tiles (s : State) (r : Nat) (x : Ring) : (s.setRing r x).tiles = s.tiles := rfl
@[simp] theorem State.setRing_slots (s : State) (r : Nat) (x : Ring) : (s.setRing r x).slots = s.slots := rfl
@[simp] theorem State.setRing_rules (s : State) (r : Nat) (x : Ring) : (s.setRing r x).rules = s.rules := rfl
@[simp] theorem State.setRing_buoys (s : State) (r : Nat) (x : Ring) : (s.setRing r x).buoys = s.buoys := rfl
@[simp] theorem State.setRing_buoyBlocks (s : State) (r : Nat) (x : Ring) : (s.setRing r x).buoyBlocks = s.buoyBlocks := rfl
@[simp] theorem State.setRing_sectorTags (s : State) (r : Nat) (x : Ring) : (s.setRing r x).sectorTags = s.sectorTags := rfl
@[simp] theorem State.setRing_packets (s : State) (r : Nat) (x : Ring) : (s.setRing r x).packets = s.packets := rfl
@[simp] theorem State.setRing_answers (s : State) (r : Nat) (x : Ring) : (s.setRing r x).answers = s.answers := rfl
@[simp] theorem State.setRing_journal (s : State) (r : Nat) (x : Ring) : (s.setRing r x).journal = s.journal := rfl
@[simp] theorem State.setRing_lenses (s : State) (r : Nat) (x : Ring) : (s.setRing r x).lenses = s.lenses := rfl
@[simp] theorem State.setRing_mvs (s : State) (r : Nat) (x : Ring) : (s.setRing r x).mvs = s.mvs := rfl
@[simp] theorem State.setRing_sectors (s : State) (r : Nat) (x : Ring) : (s.setRing r x).sectors = s.sectors := rfl
@[simp] theorem State.setRing_live (s : State) (r : Nat) (x : Ring) : (s.setRing r x).live = s.live := rfl
@[simp] theorem State.setRing_mboxQueue (s : State) (r : Nat) (x : Ring) : (s.setRing r x).mboxQueue = s.mboxQueue := rfl
@[simp] theorem State.setRing_mboxJobs (s : State) (r : Nat) (x : Ring) : (s.setRing r x).mboxJobs = s.mboxJobs := rfl
@[simp] theorem State.setRing_resets (s : State) (r : Nat) (x : Ring) : (s.setRing r x).resets = s.resets := rfl
@[simp] theorem State.setRing_bays (s : State) (r : Nat) (x : Ring) : (s.setRing r x).bays = s.bays := rfl
@[simp] theorem State.setRing_settleDue (s : State) (r : Nat) (x : Ring) : (s.setRing r x).settleDue = s.settleDue := rfl
@[simp] theorem State.setRing_periodWrites (s : State) (r : Nat) (x : Ring) : (s.setRing r x).periodWrites = s.periodWrites := rfl
@[simp] theorem State.setRing_watchSpan (s : State) (r : Nat) (x : Ring) : (s.setRing r x).watchSpan = s.watchSpan := rfl
@[simp] theorem State.setRing_hwSet (s : State) (r : Nat) (x : Ring) : (s.setRing r x).hwSet = s.hwSet := rfl
@[simp] theorem State.setRing_rwlWrites (s : State) (r : Nat) (x : Ring) : (s.setRing r x).rwlWrites = s.rwlWrites := rfl
@[simp] theorem State.setRing_unlocked (s : State) (r : Nat) (x : Ring) : (s.setRing r x).unlocked = s.unlocked := rfl
@[simp] theorem State.setRing_copyA (s : State) (r : Nat) (x : Ring) : (s.setRing r x).copyA = s.copyA := rfl
@[simp] theorem State.setRing_copyB (s : State) (r : Nat) (x : Ring) : (s.setRing r x).copyB = s.copyB := rfl
@[simp] theorem State.setRing_ledgerRepair (s : State) (r : Nat) (x : Ring) : (s.setRing r x).ledgerRepair = s.ledgerRepair := rfl
@[simp] theorem State.setRing_lostTiles (s : State) (r : Nat) (x : Ring) : (s.setRing r x).lostTiles = s.lostTiles := rfl
@[simp] theorem State.setRing_rd (s : State) (r : Nat) (x : Ring) (r' : Reg) (u' i' : Nat) :
    (s.setRing r x).rd r' u' i' = s.rd r' u' i' := rfl
@[simp] theorem State.setRing_gf (s : State) (r : Nat) (x : Ring) (f' : RegField) (u' i' : Nat) :
    (s.setRing r x).gf f' u' i' = s.gf f' u' i' := rfl
@[simp] theorem State.setRing_flag (s : State) (r : Nat) (x : Ring) (f' : RegField) (u' i' : Nat) :
    (s.setRing r x).flag f' u' i' = s.flag f' u' i' := rfl
@[simp] theorem State.setRing_fld (s : State) (r : Nat) (x : Ring) (f' : Nat) :
    (s.setRing r x).fld f' = s.fld f' := rfl
@[simp] theorem State.setRing_grp (s : State) (r : Nat) (x : Ring) (t' g' : Nat) :
    (s.setRing r x).grp t' g' = s.grp t' g' := rfl
@[simp] theorem State.setRing_til (s : State) (r : Nat) (x : Ring) (t' : Nat) :
    (s.setRing r x).til t' = s.til t' := rfl
@[simp] theorem State.setRing_slot (s : State) (r : Nat) (x : Ring) (t' k' : Nat) :
    (s.setRing r x).slot t' k' = s.slot t' k' := rfl
@[simp] theorem State.setRing_rule (s : State) (r : Nat) (x : Ring) (t' k' : Nat) :
    (s.setRing r x).rule t' k' = s.rule t' k' := rfl
@[simp] theorem State.setRing_buoy (s : State) (r : Nat) (x : Ring) (b' i' : Nat) :
    (s.setRing r x).buoy b' i' = s.buoy b' i' := rfl
@[simp] theorem State.setRing_blk (s : State) (r : Nat) (x : Ring) (b' : Nat) :
    (s.setRing r x).blk b' = s.blk b' := rfl
@[simp] theorem State.setRing_tagSt (s : State) (r : Nat) (x : Ring) (a' b' : Nat) :
    (s.setRing r x).tagSt a' b' = s.tagSt a' b' := rfl
@[simp] theorem State.setRing_sramByte (s : State) (r : Nat) (x : Ring) (t' o' : Nat) :
    (s.setRing r x).sramByte t' o' = s.sramByte t' o' := rfl
@[simp] theorem State.setRing_fstByte (s : State) (r : Nat) (x : Ring) (f' o' : Nat) :
    (s.setRing r x).fstByte f' o' = s.fstByte f' o' := rfl
@[simp] theorem State.setRing_pkt (s : State) (r : Nat) (x : Ring) (id' : Nat) :
    (s.setRing r x).pkt id' = s.pkt id' := rfl

/-! ### `State.dropPkt` -/

@[simp] theorem State.dropPkt_pending (s : State) (id : Nat) : (s.dropPkt id).pending = s.pending := rfl
@[simp] theorem State.dropPkt_now (s : State) (id : Nat) : (s.dropPkt id).now = s.now := rfl
@[simp] theorem State.dropPkt_fresh (s : State) (id : Nat) : (s.dropPkt id).fresh = s.fresh := rfl
@[simp] theorem State.dropPkt_nextPkt (s : State) (id : Nat) : (s.dropPkt id).nextPkt = s.nextPkt := rfl
@[simp] theorem State.dropPkt_fuses (s : State) (id : Nat) : (s.dropPkt id).fuses = s.fuses := rfl
@[simp] theorem State.dropPkt_out (s : State) (id : Nat) : (s.dropPkt id).out = s.out := rfl
@[simp] theorem State.dropPkt_regs (s : State) (id : Nat) : (s.dropPkt id).regs = s.regs := rfl
@[simp] theorem State.dropPkt_sram (s : State) (id : Nat) : (s.dropPkt id).sram = s.sram := rfl
@[simp] theorem State.dropPkt_sramBad (s : State) (id : Nat) : (s.dropPkt id).sramBad = s.sramBad := rfl
@[simp] theorem State.dropPkt_sramWeak (s : State) (id : Nat) : (s.dropPkt id).sramWeak = s.sramWeak := rfl
@[simp] theorem State.dropPkt_fst (s : State) (id : Nat) : (s.dropPkt id).fst = s.fst := rfl
@[simp] theorem State.dropPkt_fstBad (s : State) (id : Nat) : (s.dropPkt id).fstBad = s.fstBad := rfl
@[simp] theorem State.dropPkt_fstWeak (s : State) (id : Nat) : (s.dropPkt id).fstWeak = s.fstWeak := rfl
@[simp] theorem State.dropPkt_rings (s : State) (id : Nat) : (s.dropPkt id).rings = s.rings := rfl
@[simp] theorem State.dropPkt_fields (s : State) (id : Nat) : (s.dropPkt id).fields = s.fields := rfl
@[simp] theorem State.dropPkt_groups (s : State) (id : Nat) : (s.dropPkt id).groups = s.groups := rfl
@[simp] theorem State.dropPkt_tiles (s : State) (id : Nat) : (s.dropPkt id).tiles = s.tiles := rfl
@[simp] theorem State.dropPkt_slots (s : State) (id : Nat) : (s.dropPkt id).slots = s.slots := rfl
@[simp] theorem State.dropPkt_rules (s : State) (id : Nat) : (s.dropPkt id).rules = s.rules := rfl
@[simp] theorem State.dropPkt_buoys (s : State) (id : Nat) : (s.dropPkt id).buoys = s.buoys := rfl
@[simp] theorem State.dropPkt_buoyBlocks (s : State) (id : Nat) : (s.dropPkt id).buoyBlocks = s.buoyBlocks := rfl
@[simp] theorem State.dropPkt_sectorTags (s : State) (id : Nat) : (s.dropPkt id).sectorTags = s.sectorTags := rfl
@[simp] theorem State.dropPkt_answers (s : State) (id : Nat) : (s.dropPkt id).answers = s.answers := rfl
@[simp] theorem State.dropPkt_journal (s : State) (id : Nat) : (s.dropPkt id).journal = s.journal := rfl
@[simp] theorem State.dropPkt_lenses (s : State) (id : Nat) : (s.dropPkt id).lenses = s.lenses := rfl
@[simp] theorem State.dropPkt_mvs (s : State) (id : Nat) : (s.dropPkt id).mvs = s.mvs := rfl
@[simp] theorem State.dropPkt_sectors (s : State) (id : Nat) : (s.dropPkt id).sectors = s.sectors := rfl
@[simp] theorem State.dropPkt_live (s : State) (id : Nat) : (s.dropPkt id).live = s.live := rfl
@[simp] theorem State.dropPkt_mboxQueue (s : State) (id : Nat) : (s.dropPkt id).mboxQueue = s.mboxQueue := rfl
@[simp] theorem State.dropPkt_mboxJobs (s : State) (id : Nat) : (s.dropPkt id).mboxJobs = s.mboxJobs := rfl
@[simp] theorem State.dropPkt_resets (s : State) (id : Nat) : (s.dropPkt id).resets = s.resets := rfl
@[simp] theorem State.dropPkt_bays (s : State) (id : Nat) : (s.dropPkt id).bays = s.bays := rfl
@[simp] theorem State.dropPkt_settleDue (s : State) (id : Nat) : (s.dropPkt id).settleDue = s.settleDue := rfl
@[simp] theorem State.dropPkt_periodWrites (s : State) (id : Nat) : (s.dropPkt id).periodWrites = s.periodWrites := rfl
@[simp] theorem State.dropPkt_watchSpan (s : State) (id : Nat) : (s.dropPkt id).watchSpan = s.watchSpan := rfl
@[simp] theorem State.dropPkt_hwSet (s : State) (id : Nat) : (s.dropPkt id).hwSet = s.hwSet := rfl
@[simp] theorem State.dropPkt_rwlWrites (s : State) (id : Nat) : (s.dropPkt id).rwlWrites = s.rwlWrites := rfl
@[simp] theorem State.dropPkt_unlocked (s : State) (id : Nat) : (s.dropPkt id).unlocked = s.unlocked := rfl
@[simp] theorem State.dropPkt_copyA (s : State) (id : Nat) : (s.dropPkt id).copyA = s.copyA := rfl
@[simp] theorem State.dropPkt_copyB (s : State) (id : Nat) : (s.dropPkt id).copyB = s.copyB := rfl
@[simp] theorem State.dropPkt_ledgerRepair (s : State) (id : Nat) : (s.dropPkt id).ledgerRepair = s.ledgerRepair := rfl
@[simp] theorem State.dropPkt_lostTiles (s : State) (id : Nat) : (s.dropPkt id).lostTiles = s.lostTiles := rfl
@[simp] theorem State.dropPkt_rd (s : State) (id : Nat) (r' : Reg) (u' i' : Nat) :
    (s.dropPkt id).rd r' u' i' = s.rd r' u' i' := rfl
@[simp] theorem State.dropPkt_gf (s : State) (id : Nat) (f' : RegField) (u' i' : Nat) :
    (s.dropPkt id).gf f' u' i' = s.gf f' u' i' := rfl
@[simp] theorem State.dropPkt_flag (s : State) (id : Nat) (f' : RegField) (u' i' : Nat) :
    (s.dropPkt id).flag f' u' i' = s.flag f' u' i' := rfl
@[simp] theorem State.dropPkt_fld (s : State) (id : Nat) (f' : Nat) :
    (s.dropPkt id).fld f' = s.fld f' := rfl
@[simp] theorem State.dropPkt_grp (s : State) (id : Nat) (t' g' : Nat) :
    (s.dropPkt id).grp t' g' = s.grp t' g' := rfl
@[simp] theorem State.dropPkt_til (s : State) (id : Nat) (t' : Nat) :
    (s.dropPkt id).til t' = s.til t' := rfl
@[simp] theorem State.dropPkt_slot (s : State) (id : Nat) (t' k' : Nat) :
    (s.dropPkt id).slot t' k' = s.slot t' k' := rfl
@[simp] theorem State.dropPkt_rule (s : State) (id : Nat) (t' k' : Nat) :
    (s.dropPkt id).rule t' k' = s.rule t' k' := rfl
@[simp] theorem State.dropPkt_buoy (s : State) (id : Nat) (b' i' : Nat) :
    (s.dropPkt id).buoy b' i' = s.buoy b' i' := rfl
@[simp] theorem State.dropPkt_blk (s : State) (id : Nat) (b' : Nat) :
    (s.dropPkt id).blk b' = s.blk b' := rfl
@[simp] theorem State.dropPkt_tagSt (s : State) (id : Nat) (a' b' : Nat) :
    (s.dropPkt id).tagSt a' b' = s.tagSt a' b' := rfl
@[simp] theorem State.dropPkt_ring (s : State) (id : Nat) (r' : Nat) :
    (s.dropPkt id).ring r' = s.ring r' := rfl
@[simp] theorem State.dropPkt_sramByte (s : State) (id : Nat) (t' o' : Nat) :
    (s.dropPkt id).sramByte t' o' = s.sramByte t' o' := rfl
@[simp] theorem State.dropPkt_fstByte (s : State) (id : Nat) (f' o' : Nat) :
    (s.dropPkt id).fstByte f' o' = s.fstByte f' o' := rfl

/-! ### `State.setPkt` -/

@[simp] theorem State.setPkt_pending (s : State) (p : Packet) : (s.setPkt p).pending = s.pending := rfl
@[simp] theorem State.setPkt_now (s : State) (p : Packet) : (s.setPkt p).now = s.now := rfl
@[simp] theorem State.setPkt_fresh (s : State) (p : Packet) : (s.setPkt p).fresh = s.fresh := rfl
@[simp] theorem State.setPkt_nextPkt (s : State) (p : Packet) : (s.setPkt p).nextPkt = s.nextPkt := rfl
@[simp] theorem State.setPkt_fuses (s : State) (p : Packet) : (s.setPkt p).fuses = s.fuses := rfl
@[simp] theorem State.setPkt_out (s : State) (p : Packet) : (s.setPkt p).out = s.out := rfl
@[simp] theorem State.setPkt_regs (s : State) (p : Packet) : (s.setPkt p).regs = s.regs := rfl
@[simp] theorem State.setPkt_sram (s : State) (p : Packet) : (s.setPkt p).sram = s.sram := rfl
@[simp] theorem State.setPkt_sramBad (s : State) (p : Packet) : (s.setPkt p).sramBad = s.sramBad := rfl
@[simp] theorem State.setPkt_sramWeak (s : State) (p : Packet) : (s.setPkt p).sramWeak = s.sramWeak := rfl
@[simp] theorem State.setPkt_fst (s : State) (p : Packet) : (s.setPkt p).fst = s.fst := rfl
@[simp] theorem State.setPkt_fstBad (s : State) (p : Packet) : (s.setPkt p).fstBad = s.fstBad := rfl
@[simp] theorem State.setPkt_fstWeak (s : State) (p : Packet) : (s.setPkt p).fstWeak = s.fstWeak := rfl
@[simp] theorem State.setPkt_rings (s : State) (p : Packet) : (s.setPkt p).rings = s.rings := rfl
@[simp] theorem State.setPkt_fields (s : State) (p : Packet) : (s.setPkt p).fields = s.fields := rfl
@[simp] theorem State.setPkt_groups (s : State) (p : Packet) : (s.setPkt p).groups = s.groups := rfl
@[simp] theorem State.setPkt_tiles (s : State) (p : Packet) : (s.setPkt p).tiles = s.tiles := rfl
@[simp] theorem State.setPkt_slots (s : State) (p : Packet) : (s.setPkt p).slots = s.slots := rfl
@[simp] theorem State.setPkt_rules (s : State) (p : Packet) : (s.setPkt p).rules = s.rules := rfl
@[simp] theorem State.setPkt_buoys (s : State) (p : Packet) : (s.setPkt p).buoys = s.buoys := rfl
@[simp] theorem State.setPkt_buoyBlocks (s : State) (p : Packet) : (s.setPkt p).buoyBlocks = s.buoyBlocks := rfl
@[simp] theorem State.setPkt_sectorTags (s : State) (p : Packet) : (s.setPkt p).sectorTags = s.sectorTags := rfl
@[simp] theorem State.setPkt_answers (s : State) (p : Packet) : (s.setPkt p).answers = s.answers := rfl
@[simp] theorem State.setPkt_journal (s : State) (p : Packet) : (s.setPkt p).journal = s.journal := rfl
@[simp] theorem State.setPkt_lenses (s : State) (p : Packet) : (s.setPkt p).lenses = s.lenses := rfl
@[simp] theorem State.setPkt_mvs (s : State) (p : Packet) : (s.setPkt p).mvs = s.mvs := rfl
@[simp] theorem State.setPkt_sectors (s : State) (p : Packet) : (s.setPkt p).sectors = s.sectors := rfl
@[simp] theorem State.setPkt_live (s : State) (p : Packet) : (s.setPkt p).live = s.live := rfl
@[simp] theorem State.setPkt_mboxQueue (s : State) (p : Packet) : (s.setPkt p).mboxQueue = s.mboxQueue := rfl
@[simp] theorem State.setPkt_mboxJobs (s : State) (p : Packet) : (s.setPkt p).mboxJobs = s.mboxJobs := rfl
@[simp] theorem State.setPkt_resets (s : State) (p : Packet) : (s.setPkt p).resets = s.resets := rfl
@[simp] theorem State.setPkt_bays (s : State) (p : Packet) : (s.setPkt p).bays = s.bays := rfl
@[simp] theorem State.setPkt_settleDue (s : State) (p : Packet) : (s.setPkt p).settleDue = s.settleDue := rfl
@[simp] theorem State.setPkt_periodWrites (s : State) (p : Packet) : (s.setPkt p).periodWrites = s.periodWrites := rfl
@[simp] theorem State.setPkt_watchSpan (s : State) (p : Packet) : (s.setPkt p).watchSpan = s.watchSpan := rfl
@[simp] theorem State.setPkt_hwSet (s : State) (p : Packet) : (s.setPkt p).hwSet = s.hwSet := rfl
@[simp] theorem State.setPkt_rwlWrites (s : State) (p : Packet) : (s.setPkt p).rwlWrites = s.rwlWrites := rfl
@[simp] theorem State.setPkt_unlocked (s : State) (p : Packet) : (s.setPkt p).unlocked = s.unlocked := rfl
@[simp] theorem State.setPkt_copyA (s : State) (p : Packet) : (s.setPkt p).copyA = s.copyA := rfl
@[simp] theorem State.setPkt_copyB (s : State) (p : Packet) : (s.setPkt p).copyB = s.copyB := rfl
@[simp] theorem State.setPkt_ledgerRepair (s : State) (p : Packet) : (s.setPkt p).ledgerRepair = s.ledgerRepair := rfl
@[simp] theorem State.setPkt_lostTiles (s : State) (p : Packet) : (s.setPkt p).lostTiles = s.lostTiles := rfl
@[simp] theorem State.setPkt_rd (s : State) (p : Packet) (r' : Reg) (u' i' : Nat) :
    (s.setPkt p).rd r' u' i' = s.rd r' u' i' := rfl
@[simp] theorem State.setPkt_gf (s : State) (p : Packet) (f' : RegField) (u' i' : Nat) :
    (s.setPkt p).gf f' u' i' = s.gf f' u' i' := rfl
@[simp] theorem State.setPkt_flag (s : State) (p : Packet) (f' : RegField) (u' i' : Nat) :
    (s.setPkt p).flag f' u' i' = s.flag f' u' i' := rfl
@[simp] theorem State.setPkt_fld (s : State) (p : Packet) (f' : Nat) :
    (s.setPkt p).fld f' = s.fld f' := rfl
@[simp] theorem State.setPkt_grp (s : State) (p : Packet) (t' g' : Nat) :
    (s.setPkt p).grp t' g' = s.grp t' g' := rfl
@[simp] theorem State.setPkt_til (s : State) (p : Packet) (t' : Nat) :
    (s.setPkt p).til t' = s.til t' := rfl
@[simp] theorem State.setPkt_slot (s : State) (p : Packet) (t' k' : Nat) :
    (s.setPkt p).slot t' k' = s.slot t' k' := rfl
@[simp] theorem State.setPkt_rule (s : State) (p : Packet) (t' k' : Nat) :
    (s.setPkt p).rule t' k' = s.rule t' k' := rfl
@[simp] theorem State.setPkt_buoy (s : State) (p : Packet) (b' i' : Nat) :
    (s.setPkt p).buoy b' i' = s.buoy b' i' := rfl
@[simp] theorem State.setPkt_blk (s : State) (p : Packet) (b' : Nat) :
    (s.setPkt p).blk b' = s.blk b' := rfl
@[simp] theorem State.setPkt_tagSt (s : State) (p : Packet) (a' b' : Nat) :
    (s.setPkt p).tagSt a' b' = s.tagSt a' b' := rfl
@[simp] theorem State.setPkt_ring (s : State) (p : Packet) (r' : Nat) :
    (s.setPkt p).ring r' = s.ring r' := rfl
@[simp] theorem State.setPkt_sramByte (s : State) (p : Packet) (t' o' : Nat) :
    (s.setPkt p).sramByte t' o' = s.sramByte t' o' := rfl
@[simp] theorem State.setPkt_fstByte (s : State) (p : Packet) (f' o' : Nat) :
    (s.setPkt p).fstByte f' o' = s.fstByte f' o' := rfl

/-! ### `State.addPkt` -/

@[simp] theorem State.addPkt_pending (s : State) (p : Packet) : (s.addPkt p).pending = s.pending := rfl
@[simp] theorem State.addPkt_now (s : State) (p : Packet) : (s.addPkt p).now = s.now := rfl
@[simp] theorem State.addPkt_fresh (s : State) (p : Packet) : (s.addPkt p).fresh = s.fresh := rfl
@[simp] theorem State.addPkt_fuses (s : State) (p : Packet) : (s.addPkt p).fuses = s.fuses := rfl
@[simp] theorem State.addPkt_out (s : State) (p : Packet) : (s.addPkt p).out = s.out := rfl
@[simp] theorem State.addPkt_regs (s : State) (p : Packet) : (s.addPkt p).regs = s.regs := rfl
@[simp] theorem State.addPkt_sram (s : State) (p : Packet) : (s.addPkt p).sram = s.sram := rfl
@[simp] theorem State.addPkt_sramBad (s : State) (p : Packet) : (s.addPkt p).sramBad = s.sramBad := rfl
@[simp] theorem State.addPkt_sramWeak (s : State) (p : Packet) : (s.addPkt p).sramWeak = s.sramWeak := rfl
@[simp] theorem State.addPkt_fst (s : State) (p : Packet) : (s.addPkt p).fst = s.fst := rfl
@[simp] theorem State.addPkt_fstBad (s : State) (p : Packet) : (s.addPkt p).fstBad = s.fstBad := rfl
@[simp] theorem State.addPkt_fstWeak (s : State) (p : Packet) : (s.addPkt p).fstWeak = s.fstWeak := rfl
@[simp] theorem State.addPkt_rings (s : State) (p : Packet) : (s.addPkt p).rings = s.rings := rfl
@[simp] theorem State.addPkt_fields (s : State) (p : Packet) : (s.addPkt p).fields = s.fields := rfl
@[simp] theorem State.addPkt_groups (s : State) (p : Packet) : (s.addPkt p).groups = s.groups := rfl
@[simp] theorem State.addPkt_tiles (s : State) (p : Packet) : (s.addPkt p).tiles = s.tiles := rfl
@[simp] theorem State.addPkt_slots (s : State) (p : Packet) : (s.addPkt p).slots = s.slots := rfl
@[simp] theorem State.addPkt_rules (s : State) (p : Packet) : (s.addPkt p).rules = s.rules := rfl
@[simp] theorem State.addPkt_buoys (s : State) (p : Packet) : (s.addPkt p).buoys = s.buoys := rfl
@[simp] theorem State.addPkt_buoyBlocks (s : State) (p : Packet) : (s.addPkt p).buoyBlocks = s.buoyBlocks := rfl
@[simp] theorem State.addPkt_sectorTags (s : State) (p : Packet) : (s.addPkt p).sectorTags = s.sectorTags := rfl
@[simp] theorem State.addPkt_answers (s : State) (p : Packet) : (s.addPkt p).answers = s.answers := rfl
@[simp] theorem State.addPkt_journal (s : State) (p : Packet) : (s.addPkt p).journal = s.journal := rfl
@[simp] theorem State.addPkt_lenses (s : State) (p : Packet) : (s.addPkt p).lenses = s.lenses := rfl
@[simp] theorem State.addPkt_mvs (s : State) (p : Packet) : (s.addPkt p).mvs = s.mvs := rfl
@[simp] theorem State.addPkt_sectors (s : State) (p : Packet) : (s.addPkt p).sectors = s.sectors := rfl
@[simp] theorem State.addPkt_live (s : State) (p : Packet) : (s.addPkt p).live = s.live := rfl
@[simp] theorem State.addPkt_mboxQueue (s : State) (p : Packet) : (s.addPkt p).mboxQueue = s.mboxQueue := rfl
@[simp] theorem State.addPkt_mboxJobs (s : State) (p : Packet) : (s.addPkt p).mboxJobs = s.mboxJobs := rfl
@[simp] theorem State.addPkt_resets (s : State) (p : Packet) : (s.addPkt p).resets = s.resets := rfl
@[simp] theorem State.addPkt_bays (s : State) (p : Packet) : (s.addPkt p).bays = s.bays := rfl
@[simp] theorem State.addPkt_settleDue (s : State) (p : Packet) : (s.addPkt p).settleDue = s.settleDue := rfl
@[simp] theorem State.addPkt_periodWrites (s : State) (p : Packet) : (s.addPkt p).periodWrites = s.periodWrites := rfl
@[simp] theorem State.addPkt_watchSpan (s : State) (p : Packet) : (s.addPkt p).watchSpan = s.watchSpan := rfl
@[simp] theorem State.addPkt_hwSet (s : State) (p : Packet) : (s.addPkt p).hwSet = s.hwSet := rfl
@[simp] theorem State.addPkt_rwlWrites (s : State) (p : Packet) : (s.addPkt p).rwlWrites = s.rwlWrites := rfl
@[simp] theorem State.addPkt_unlocked (s : State) (p : Packet) : (s.addPkt p).unlocked = s.unlocked := rfl
@[simp] theorem State.addPkt_copyA (s : State) (p : Packet) : (s.addPkt p).copyA = s.copyA := rfl
@[simp] theorem State.addPkt_copyB (s : State) (p : Packet) : (s.addPkt p).copyB = s.copyB := rfl
@[simp] theorem State.addPkt_ledgerRepair (s : State) (p : Packet) : (s.addPkt p).ledgerRepair = s.ledgerRepair := rfl
@[simp] theorem State.addPkt_lostTiles (s : State) (p : Packet) : (s.addPkt p).lostTiles = s.lostTiles := rfl
@[simp] theorem State.addPkt_rd (s : State) (p : Packet) (r' : Reg) (u' i' : Nat) :
    (s.addPkt p).rd r' u' i' = s.rd r' u' i' := rfl
@[simp] theorem State.addPkt_gf (s : State) (p : Packet) (f' : RegField) (u' i' : Nat) :
    (s.addPkt p).gf f' u' i' = s.gf f' u' i' := rfl
@[simp] theorem State.addPkt_flag (s : State) (p : Packet) (f' : RegField) (u' i' : Nat) :
    (s.addPkt p).flag f' u' i' = s.flag f' u' i' := rfl
@[simp] theorem State.addPkt_fld (s : State) (p : Packet) (f' : Nat) :
    (s.addPkt p).fld f' = s.fld f' := rfl
@[simp] theorem State.addPkt_grp (s : State) (p : Packet) (t' g' : Nat) :
    (s.addPkt p).grp t' g' = s.grp t' g' := rfl
@[simp] theorem State.addPkt_til (s : State) (p : Packet) (t' : Nat) :
    (s.addPkt p).til t' = s.til t' := rfl
@[simp] theorem State.addPkt_slot (s : State) (p : Packet) (t' k' : Nat) :
    (s.addPkt p).slot t' k' = s.slot t' k' := rfl
@[simp] theorem State.addPkt_rule (s : State) (p : Packet) (t' k' : Nat) :
    (s.addPkt p).rule t' k' = s.rule t' k' := rfl
@[simp] theorem State.addPkt_buoy (s : State) (p : Packet) (b' i' : Nat) :
    (s.addPkt p).buoy b' i' = s.buoy b' i' := rfl
@[simp] theorem State.addPkt_blk (s : State) (p : Packet) (b' : Nat) :
    (s.addPkt p).blk b' = s.blk b' := rfl
@[simp] theorem State.addPkt_tagSt (s : State) (p : Packet) (a' b' : Nat) :
    (s.addPkt p).tagSt a' b' = s.tagSt a' b' := rfl
@[simp] theorem State.addPkt_ring (s : State) (p : Packet) (r' : Nat) :
    (s.addPkt p).ring r' = s.ring r' := rfl
@[simp] theorem State.addPkt_sramByte (s : State) (p : Packet) (t' o' : Nat) :
    (s.addPkt p).sramByte t' o' = s.sramByte t' o' := rfl
@[simp] theorem State.addPkt_fstByte (s : State) (p : Packet) (f' o' : Nat) :
    (s.addPkt p).fstByte f' o' = s.fstByte f' o' := rfl

/-! ### `State.advanceTo` -/

@[simp] theorem State.advanceTo_pending (s : State) (t : Nat) : (s.advanceTo t).pending = s.pending := rfl
@[simp] theorem State.advanceTo_fresh (s : State) (t : Nat) : (s.advanceTo t).fresh = s.fresh := rfl
@[simp] theorem State.advanceTo_nextPkt (s : State) (t : Nat) : (s.advanceTo t).nextPkt = s.nextPkt := rfl
@[simp] theorem State.advanceTo_fuses (s : State) (t : Nat) : (s.advanceTo t).fuses = s.fuses := rfl
@[simp] theorem State.advanceTo_out (s : State) (t : Nat) : (s.advanceTo t).out = s.out := rfl
@[simp] theorem State.advanceTo_regs (s : State) (t : Nat) : (s.advanceTo t).regs = s.regs := rfl
@[simp] theorem State.advanceTo_sram (s : State) (t : Nat) : (s.advanceTo t).sram = s.sram := rfl
@[simp] theorem State.advanceTo_sramBad (s : State) (t : Nat) : (s.advanceTo t).sramBad = s.sramBad := rfl
@[simp] theorem State.advanceTo_sramWeak (s : State) (t : Nat) : (s.advanceTo t).sramWeak = s.sramWeak := rfl
@[simp] theorem State.advanceTo_fst (s : State) (t : Nat) : (s.advanceTo t).fst = s.fst := rfl
@[simp] theorem State.advanceTo_fstBad (s : State) (t : Nat) : (s.advanceTo t).fstBad = s.fstBad := rfl
@[simp] theorem State.advanceTo_fstWeak (s : State) (t : Nat) : (s.advanceTo t).fstWeak = s.fstWeak := rfl
@[simp] theorem State.advanceTo_rings (s : State) (t : Nat) : (s.advanceTo t).rings = s.rings := rfl
@[simp] theorem State.advanceTo_fields (s : State) (t : Nat) : (s.advanceTo t).fields = s.fields := rfl
@[simp] theorem State.advanceTo_groups (s : State) (t : Nat) : (s.advanceTo t).groups = s.groups := rfl
@[simp] theorem State.advanceTo_tiles (s : State) (t : Nat) : (s.advanceTo t).tiles = s.tiles := rfl
@[simp] theorem State.advanceTo_slots (s : State) (t : Nat) : (s.advanceTo t).slots = s.slots := rfl
@[simp] theorem State.advanceTo_rules (s : State) (t : Nat) : (s.advanceTo t).rules = s.rules := rfl
@[simp] theorem State.advanceTo_buoys (s : State) (t : Nat) : (s.advanceTo t).buoys = s.buoys := rfl
@[simp] theorem State.advanceTo_buoyBlocks (s : State) (t : Nat) : (s.advanceTo t).buoyBlocks = s.buoyBlocks := rfl
@[simp] theorem State.advanceTo_sectorTags (s : State) (t : Nat) : (s.advanceTo t).sectorTags = s.sectorTags := rfl
@[simp] theorem State.advanceTo_packets (s : State) (t : Nat) : (s.advanceTo t).packets = s.packets := rfl
@[simp] theorem State.advanceTo_answers (s : State) (t : Nat) : (s.advanceTo t).answers = s.answers := rfl
@[simp] theorem State.advanceTo_journal (s : State) (t : Nat) : (s.advanceTo t).journal = s.journal := rfl
@[simp] theorem State.advanceTo_lenses (s : State) (t : Nat) : (s.advanceTo t).lenses = s.lenses := rfl
@[simp] theorem State.advanceTo_mvs (s : State) (t : Nat) : (s.advanceTo t).mvs = s.mvs := rfl
@[simp] theorem State.advanceTo_sectors (s : State) (t : Nat) : (s.advanceTo t).sectors = s.sectors := rfl
@[simp] theorem State.advanceTo_live (s : State) (t : Nat) : (s.advanceTo t).live = s.live := rfl
@[simp] theorem State.advanceTo_mboxQueue (s : State) (t : Nat) : (s.advanceTo t).mboxQueue = s.mboxQueue := rfl
@[simp] theorem State.advanceTo_mboxJobs (s : State) (t : Nat) : (s.advanceTo t).mboxJobs = s.mboxJobs := rfl
@[simp] theorem State.advanceTo_resets (s : State) (t : Nat) : (s.advanceTo t).resets = s.resets := rfl
@[simp] theorem State.advanceTo_bays (s : State) (t : Nat) : (s.advanceTo t).bays = s.bays := rfl
@[simp] theorem State.advanceTo_settleDue (s : State) (t : Nat) : (s.advanceTo t).settleDue = s.settleDue := rfl
@[simp] theorem State.advanceTo_periodWrites (s : State) (t : Nat) : (s.advanceTo t).periodWrites = s.periodWrites := rfl
@[simp] theorem State.advanceTo_watchSpan (s : State) (t : Nat) : (s.advanceTo t).watchSpan = s.watchSpan := rfl
@[simp] theorem State.advanceTo_hwSet (s : State) (t : Nat) : (s.advanceTo t).hwSet = s.hwSet := rfl
@[simp] theorem State.advanceTo_rwlWrites (s : State) (t : Nat) : (s.advanceTo t).rwlWrites = s.rwlWrites := rfl
@[simp] theorem State.advanceTo_unlocked (s : State) (t : Nat) : (s.advanceTo t).unlocked = s.unlocked := rfl
@[simp] theorem State.advanceTo_copyA (s : State) (t : Nat) : (s.advanceTo t).copyA = s.copyA := rfl
@[simp] theorem State.advanceTo_copyB (s : State) (t : Nat) : (s.advanceTo t).copyB = s.copyB := rfl
@[simp] theorem State.advanceTo_ledgerRepair (s : State) (t : Nat) : (s.advanceTo t).ledgerRepair = s.ledgerRepair := rfl
@[simp] theorem State.advanceTo_lostTiles (s : State) (t : Nat) : (s.advanceTo t).lostTiles = s.lostTiles := rfl
@[simp] theorem State.advanceTo_rd (s : State) (t : Nat) (r' : Reg) (u' i' : Nat) :
    (s.advanceTo t).rd r' u' i' = s.rd r' u' i' := rfl
@[simp] theorem State.advanceTo_gf (s : State) (t : Nat) (f' : RegField) (u' i' : Nat) :
    (s.advanceTo t).gf f' u' i' = s.gf f' u' i' := rfl
@[simp] theorem State.advanceTo_flag (s : State) (t : Nat) (f' : RegField) (u' i' : Nat) :
    (s.advanceTo t).flag f' u' i' = s.flag f' u' i' := rfl
@[simp] theorem State.advanceTo_fld (s : State) (t : Nat) (f' : Nat) :
    (s.advanceTo t).fld f' = s.fld f' := rfl
@[simp] theorem State.advanceTo_grp (s : State) (t : Nat) (t' g' : Nat) :
    (s.advanceTo t).grp t' g' = s.grp t' g' := rfl
@[simp] theorem State.advanceTo_til (s : State) (t : Nat) (t' : Nat) :
    (s.advanceTo t).til t' = s.til t' := rfl
@[simp] theorem State.advanceTo_slot (s : State) (t : Nat) (t' k' : Nat) :
    (s.advanceTo t).slot t' k' = s.slot t' k' := rfl
@[simp] theorem State.advanceTo_rule (s : State) (t : Nat) (t' k' : Nat) :
    (s.advanceTo t).rule t' k' = s.rule t' k' := rfl
@[simp] theorem State.advanceTo_buoy (s : State) (t : Nat) (b' i' : Nat) :
    (s.advanceTo t).buoy b' i' = s.buoy b' i' := rfl
@[simp] theorem State.advanceTo_blk (s : State) (t : Nat) (b' : Nat) :
    (s.advanceTo t).blk b' = s.blk b' := rfl
@[simp] theorem State.advanceTo_tagSt (s : State) (t : Nat) (a' b' : Nat) :
    (s.advanceTo t).tagSt a' b' = s.tagSt a' b' := rfl
@[simp] theorem State.advanceTo_ring (s : State) (t : Nat) (r' : Nat) :
    (s.advanceTo t).ring r' = s.ring r' := rfl
@[simp] theorem State.advanceTo_sramByte (s : State) (t : Nat) (t' o' : Nat) :
    (s.advanceTo t).sramByte t' o' = s.sramByte t' o' := rfl
@[simp] theorem State.advanceTo_fstByte (s : State) (t : Nat) (f' o' : Nat) :
    (s.advanceTo t).fstByte f' o' = s.fstByte f' o' := rfl
@[simp] theorem State.advanceTo_pkt (s : State) (t : Nat) (id' : Nat) :
    (s.advanceTo t).pkt id' = s.pkt id' := rfl

/-! ### `State.tickFresh` -/

@[simp] theorem State.tickFresh_pending (s : State) : s.tickFresh.pending = s.pending := rfl
@[simp] theorem State.tickFresh_now (s : State) : s.tickFresh.now = s.now := rfl
@[simp] theorem State.tickFresh_nextPkt (s : State) : s.tickFresh.nextPkt = s.nextPkt := rfl
@[simp] theorem State.tickFresh_fuses (s : State) : s.tickFresh.fuses = s.fuses := rfl
@[simp] theorem State.tickFresh_out (s : State) : s.tickFresh.out = s.out := rfl
@[simp] theorem State.tickFresh_regs (s : State) : s.tickFresh.regs = s.regs := rfl
@[simp] theorem State.tickFresh_sram (s : State) : s.tickFresh.sram = s.sram := rfl
@[simp] theorem State.tickFresh_sramBad (s : State) : s.tickFresh.sramBad = s.sramBad := rfl
@[simp] theorem State.tickFresh_sramWeak (s : State) : s.tickFresh.sramWeak = s.sramWeak := rfl
@[simp] theorem State.tickFresh_fst (s : State) : s.tickFresh.fst = s.fst := rfl
@[simp] theorem State.tickFresh_fstBad (s : State) : s.tickFresh.fstBad = s.fstBad := rfl
@[simp] theorem State.tickFresh_fstWeak (s : State) : s.tickFresh.fstWeak = s.fstWeak := rfl
@[simp] theorem State.tickFresh_rings (s : State) : s.tickFresh.rings = s.rings := rfl
@[simp] theorem State.tickFresh_fields (s : State) : s.tickFresh.fields = s.fields := rfl
@[simp] theorem State.tickFresh_groups (s : State) : s.tickFresh.groups = s.groups := rfl
@[simp] theorem State.tickFresh_tiles (s : State) : s.tickFresh.tiles = s.tiles := rfl
@[simp] theorem State.tickFresh_slots (s : State) : s.tickFresh.slots = s.slots := rfl
@[simp] theorem State.tickFresh_rules (s : State) : s.tickFresh.rules = s.rules := rfl
@[simp] theorem State.tickFresh_buoys (s : State) : s.tickFresh.buoys = s.buoys := rfl
@[simp] theorem State.tickFresh_buoyBlocks (s : State) : s.tickFresh.buoyBlocks = s.buoyBlocks := rfl
@[simp] theorem State.tickFresh_sectorTags (s : State) : s.tickFresh.sectorTags = s.sectorTags := rfl
@[simp] theorem State.tickFresh_packets (s : State) : s.tickFresh.packets = s.packets := rfl
@[simp] theorem State.tickFresh_answers (s : State) : s.tickFresh.answers = s.answers := rfl
@[simp] theorem State.tickFresh_journal (s : State) : s.tickFresh.journal = s.journal := rfl
@[simp] theorem State.tickFresh_lenses (s : State) : s.tickFresh.lenses = s.lenses := rfl
@[simp] theorem State.tickFresh_mvs (s : State) : s.tickFresh.mvs = s.mvs := rfl
@[simp] theorem State.tickFresh_sectors (s : State) : s.tickFresh.sectors = s.sectors := rfl
@[simp] theorem State.tickFresh_live (s : State) : s.tickFresh.live = s.live := rfl
@[simp] theorem State.tickFresh_mboxQueue (s : State) : s.tickFresh.mboxQueue = s.mboxQueue := rfl
@[simp] theorem State.tickFresh_mboxJobs (s : State) : s.tickFresh.mboxJobs = s.mboxJobs := rfl
@[simp] theorem State.tickFresh_resets (s : State) : s.tickFresh.resets = s.resets := rfl
@[simp] theorem State.tickFresh_bays (s : State) : s.tickFresh.bays = s.bays := rfl
@[simp] theorem State.tickFresh_settleDue (s : State) : s.tickFresh.settleDue = s.settleDue := rfl
@[simp] theorem State.tickFresh_periodWrites (s : State) : s.tickFresh.periodWrites = s.periodWrites := rfl
@[simp] theorem State.tickFresh_watchSpan (s : State) : s.tickFresh.watchSpan = s.watchSpan := rfl
@[simp] theorem State.tickFresh_hwSet (s : State) : s.tickFresh.hwSet = s.hwSet := rfl
@[simp] theorem State.tickFresh_rwlWrites (s : State) : s.tickFresh.rwlWrites = s.rwlWrites := rfl
@[simp] theorem State.tickFresh_unlocked (s : State) : s.tickFresh.unlocked = s.unlocked := rfl
@[simp] theorem State.tickFresh_copyA (s : State) : s.tickFresh.copyA = s.copyA := rfl
@[simp] theorem State.tickFresh_copyB (s : State) : s.tickFresh.copyB = s.copyB := rfl
@[simp] theorem State.tickFresh_ledgerRepair (s : State) : s.tickFresh.ledgerRepair = s.ledgerRepair := rfl
@[simp] theorem State.tickFresh_lostTiles (s : State) : s.tickFresh.lostTiles = s.lostTiles := rfl
@[simp] theorem State.tickFresh_rd (s : State) (r' : Reg) (u' i' : Nat) :
    s.tickFresh.rd r' u' i' = s.rd r' u' i' := rfl
@[simp] theorem State.tickFresh_gf (s : State) (f' : RegField) (u' i' : Nat) :
    s.tickFresh.gf f' u' i' = s.gf f' u' i' := rfl
@[simp] theorem State.tickFresh_flag (s : State) (f' : RegField) (u' i' : Nat) :
    s.tickFresh.flag f' u' i' = s.flag f' u' i' := rfl
@[simp] theorem State.tickFresh_fld (s : State) (f' : Nat) :
    s.tickFresh.fld f' = s.fld f' := rfl
@[simp] theorem State.tickFresh_grp (s : State) (t' g' : Nat) :
    s.tickFresh.grp t' g' = s.grp t' g' := rfl
@[simp] theorem State.tickFresh_til (s : State) (t' : Nat) :
    s.tickFresh.til t' = s.til t' := rfl
@[simp] theorem State.tickFresh_slot (s : State) (t' k' : Nat) :
    s.tickFresh.slot t' k' = s.slot t' k' := rfl
@[simp] theorem State.tickFresh_rule (s : State) (t' k' : Nat) :
    s.tickFresh.rule t' k' = s.rule t' k' := rfl
@[simp] theorem State.tickFresh_buoy (s : State) (b' i' : Nat) :
    s.tickFresh.buoy b' i' = s.buoy b' i' := rfl
@[simp] theorem State.tickFresh_blk (s : State) (b' : Nat) :
    s.tickFresh.blk b' = s.blk b' := rfl
@[simp] theorem State.tickFresh_tagSt (s : State) (a' b' : Nat) :
    s.tickFresh.tagSt a' b' = s.tagSt a' b' := rfl
@[simp] theorem State.tickFresh_ring (s : State) (r' : Nat) :
    s.tickFresh.ring r' = s.ring r' := rfl
@[simp] theorem State.tickFresh_sramByte (s : State) (t' o' : Nat) :
    s.tickFresh.sramByte t' o' = s.sramByte t' o' := rfl
@[simp] theorem State.tickFresh_fstByte (s : State) (f' o' : Nat) :
    s.tickFresh.fstByte f' o' = s.fstByte f' o' := rfl
@[simp] theorem State.tickFresh_pkt (s : State) (id' : Nat) :
    s.tickFresh.pkt id' = s.pkt id' := rfl

/-! ### `State.sramPut` -/

@[simp] theorem State.sramPut_pending (s : State) (t o : Nat) (x : TWord) : (s.sramPut t o x).pending = s.pending := rfl
@[simp] theorem State.sramPut_now (s : State) (t o : Nat) (x : TWord) : (s.sramPut t o x).now = s.now := rfl
@[simp] theorem State.sramPut_fresh (s : State) (t o : Nat) (x : TWord) : (s.sramPut t o x).fresh = s.fresh := rfl
@[simp] theorem State.sramPut_nextPkt (s : State) (t o : Nat) (x : TWord) : (s.sramPut t o x).nextPkt = s.nextPkt := rfl
@[simp] theorem State.sramPut_fuses (s : State) (t o : Nat) (x : TWord) : (s.sramPut t o x).fuses = s.fuses := rfl
@[simp] theorem State.sramPut_out (s : State) (t o : Nat) (x : TWord) : (s.sramPut t o x).out = s.out := rfl
@[simp] theorem State.sramPut_regs (s : State) (t o : Nat) (x : TWord) : (s.sramPut t o x).regs = s.regs := rfl
@[simp] theorem State.sramPut_fst (s : State) (t o : Nat) (x : TWord) : (s.sramPut t o x).fst = s.fst := rfl
@[simp] theorem State.sramPut_fstBad (s : State) (t o : Nat) (x : TWord) : (s.sramPut t o x).fstBad = s.fstBad := rfl
@[simp] theorem State.sramPut_fstWeak (s : State) (t o : Nat) (x : TWord) : (s.sramPut t o x).fstWeak = s.fstWeak := rfl
@[simp] theorem State.sramPut_rings (s : State) (t o : Nat) (x : TWord) : (s.sramPut t o x).rings = s.rings := rfl
@[simp] theorem State.sramPut_fields (s : State) (t o : Nat) (x : TWord) : (s.sramPut t o x).fields = s.fields := rfl
@[simp] theorem State.sramPut_groups (s : State) (t o : Nat) (x : TWord) : (s.sramPut t o x).groups = s.groups := rfl
@[simp] theorem State.sramPut_tiles (s : State) (t o : Nat) (x : TWord) : (s.sramPut t o x).tiles = s.tiles := rfl
@[simp] theorem State.sramPut_slots (s : State) (t o : Nat) (x : TWord) : (s.sramPut t o x).slots = s.slots := rfl
@[simp] theorem State.sramPut_rules (s : State) (t o : Nat) (x : TWord) : (s.sramPut t o x).rules = s.rules := rfl
@[simp] theorem State.sramPut_buoys (s : State) (t o : Nat) (x : TWord) : (s.sramPut t o x).buoys = s.buoys := rfl
@[simp] theorem State.sramPut_buoyBlocks (s : State) (t o : Nat) (x : TWord) : (s.sramPut t o x).buoyBlocks = s.buoyBlocks := rfl
@[simp] theorem State.sramPut_sectorTags (s : State) (t o : Nat) (x : TWord) : (s.sramPut t o x).sectorTags = s.sectorTags := rfl
@[simp] theorem State.sramPut_packets (s : State) (t o : Nat) (x : TWord) : (s.sramPut t o x).packets = s.packets := rfl
@[simp] theorem State.sramPut_answers (s : State) (t o : Nat) (x : TWord) : (s.sramPut t o x).answers = s.answers := rfl
@[simp] theorem State.sramPut_journal (s : State) (t o : Nat) (x : TWord) : (s.sramPut t o x).journal = s.journal := rfl
@[simp] theorem State.sramPut_lenses (s : State) (t o : Nat) (x : TWord) : (s.sramPut t o x).lenses = s.lenses := rfl
@[simp] theorem State.sramPut_mvs (s : State) (t o : Nat) (x : TWord) : (s.sramPut t o x).mvs = s.mvs := rfl
@[simp] theorem State.sramPut_sectors (s : State) (t o : Nat) (x : TWord) : (s.sramPut t o x).sectors = s.sectors := rfl
@[simp] theorem State.sramPut_live (s : State) (t o : Nat) (x : TWord) : (s.sramPut t o x).live = s.live := rfl
@[simp] theorem State.sramPut_mboxQueue (s : State) (t o : Nat) (x : TWord) : (s.sramPut t o x).mboxQueue = s.mboxQueue := rfl
@[simp] theorem State.sramPut_mboxJobs (s : State) (t o : Nat) (x : TWord) : (s.sramPut t o x).mboxJobs = s.mboxJobs := rfl
@[simp] theorem State.sramPut_resets (s : State) (t o : Nat) (x : TWord) : (s.sramPut t o x).resets = s.resets := rfl
@[simp] theorem State.sramPut_bays (s : State) (t o : Nat) (x : TWord) : (s.sramPut t o x).bays = s.bays := rfl
@[simp] theorem State.sramPut_settleDue (s : State) (t o : Nat) (x : TWord) : (s.sramPut t o x).settleDue = s.settleDue := rfl
@[simp] theorem State.sramPut_periodWrites (s : State) (t o : Nat) (x : TWord) : (s.sramPut t o x).periodWrites = s.periodWrites := rfl
@[simp] theorem State.sramPut_watchSpan (s : State) (t o : Nat) (x : TWord) : (s.sramPut t o x).watchSpan = s.watchSpan := rfl
@[simp] theorem State.sramPut_hwSet (s : State) (t o : Nat) (x : TWord) : (s.sramPut t o x).hwSet = s.hwSet := rfl
@[simp] theorem State.sramPut_rwlWrites (s : State) (t o : Nat) (x : TWord) : (s.sramPut t o x).rwlWrites = s.rwlWrites := rfl
@[simp] theorem State.sramPut_unlocked (s : State) (t o : Nat) (x : TWord) : (s.sramPut t o x).unlocked = s.unlocked := rfl
@[simp] theorem State.sramPut_copyA (s : State) (t o : Nat) (x : TWord) : (s.sramPut t o x).copyA = s.copyA := rfl
@[simp] theorem State.sramPut_copyB (s : State) (t o : Nat) (x : TWord) : (s.sramPut t o x).copyB = s.copyB := rfl
@[simp] theorem State.sramPut_ledgerRepair (s : State) (t o : Nat) (x : TWord) : (s.sramPut t o x).ledgerRepair = s.ledgerRepair := rfl
@[simp] theorem State.sramPut_rd (s : State) (t o : Nat) (x : TWord) (r' : Reg) (u' i' : Nat) :
    (s.sramPut t o x).rd r' u' i' = s.rd r' u' i' := rfl
@[simp] theorem State.sramPut_gf (s : State) (t o : Nat) (x : TWord) (f' : RegField) (u' i' : Nat) :
    (s.sramPut t o x).gf f' u' i' = s.gf f' u' i' := rfl
@[simp] theorem State.sramPut_flag (s : State) (t o : Nat) (x : TWord) (f' : RegField) (u' i' : Nat) :
    (s.sramPut t o x).flag f' u' i' = s.flag f' u' i' := rfl
@[simp] theorem State.sramPut_fld (s : State) (t o : Nat) (x : TWord) (f' : Nat) :
    (s.sramPut t o x).fld f' = s.fld f' := rfl
@[simp] theorem State.sramPut_grp (s : State) (t o : Nat) (x : TWord) (t' g' : Nat) :
    (s.sramPut t o x).grp t' g' = s.grp t' g' := rfl
@[simp] theorem State.sramPut_til (s : State) (t o : Nat) (x : TWord) (t' : Nat) :
    (s.sramPut t o x).til t' = s.til t' := rfl
@[simp] theorem State.sramPut_slot (s : State) (t o : Nat) (x : TWord) (t' k' : Nat) :
    (s.sramPut t o x).slot t' k' = s.slot t' k' := rfl
@[simp] theorem State.sramPut_rule (s : State) (t o : Nat) (x : TWord) (t' k' : Nat) :
    (s.sramPut t o x).rule t' k' = s.rule t' k' := rfl
@[simp] theorem State.sramPut_buoy (s : State) (t o : Nat) (x : TWord) (b' i' : Nat) :
    (s.sramPut t o x).buoy b' i' = s.buoy b' i' := rfl
@[simp] theorem State.sramPut_blk (s : State) (t o : Nat) (x : TWord) (b' : Nat) :
    (s.sramPut t o x).blk b' = s.blk b' := rfl
@[simp] theorem State.sramPut_tagSt (s : State) (t o : Nat) (x : TWord) (a' b' : Nat) :
    (s.sramPut t o x).tagSt a' b' = s.tagSt a' b' := rfl
@[simp] theorem State.sramPut_ring (s : State) (t o : Nat) (x : TWord) (r' : Nat) :
    (s.sramPut t o x).ring r' = s.ring r' := rfl
@[simp] theorem State.sramPut_fstByte (s : State) (t o : Nat) (x : TWord) (f' o' : Nat) :
    (s.sramPut t o x).fstByte f' o' = s.fstByte f' o' := rfl
@[simp] theorem State.sramPut_pkt (s : State) (t o : Nat) (x : TWord) (id' : Nat) :
    (s.sramPut t o x).pkt id' = s.pkt id' := rfl

/-! ### A unit of state after it is set -/

theorem State.fld_setFld (s : State) (f f' : Nat) (x : FieldSt) : (s.setFld f x).fld f' = if f' = f then x else s.fld f' :=
  mget_mput ..
theorem State.grp_setGrp (s : State) (t g t' g' : Nat) (x : Group) :
    (s.setGrp t g x).grp t' g' = if (t', g') = (t, g) then x else s.grp t' g' := mget_mput ..
theorem State.til_setTil (s : State) (t t' : Nat) (x : Tile) : (s.setTil t x).til t' = if t' = t then x else s.til t' :=
  mget_mput ..
theorem State.slot_setSlot (s : State) (t k t' k' : Nat) (x : Slot) :
    (s.setSlot t k x).slot t' k' = if (t', k') = (t, k) then x else s.slot t' k' := mget_mput ..
theorem State.rule_setRule (s : State) (t k t' k' : Nat) (x : RuleSt) :
    (s.setRule t k x).rule t' k' = if (t', k') = (t, k) then x else s.rule t' k' := mget_mput ..
theorem State.buoy_setBuoy (s : State) (b i b' i' : Nat) (x : Buoy) :
    (s.setBuoy b i x).buoy b' i' = if (b', i') = (b, i) then x else s.buoy b' i' := mget_mput ..
theorem State.blk_setBlk (s : State) (b b' : Nat) (x : BuoyBlock) : (s.setBlk b x).blk b' = if b' = b then x else s.blk b' :=
  mget_mput ..
theorem State.tagSt_setTagSt (s : State) (a b a' b' : Nat) (x : TagState) :
    (s.setTagSt a b x).tagSt a' b' = if (a', b') = (a, b) then x else s.tagSt a' b' := mget_mput ..
theorem State.ring_setRing (s : State) (r r' : Nat) (x : Ring) : (s.setRing r x).ring r' = if r' = r then x else s.ring r' :=
  mget_mput ..

@[simp] theorem State.fld_setFld_self (s : State) (f : Nat) (x : FieldSt) : (s.setFld f x).fld f = x := by simp [fld_setFld]
@[simp] theorem State.grp_setGrp_self (s : State) (t g : Nat) (x : Group) : (s.setGrp t g x).grp t g = x := by
  simp [grp_setGrp]
@[simp] theorem State.til_setTil_self (s : State) (t : Nat) (x : Tile) : (s.setTil t x).til t = x := by simp [til_setTil]
@[simp] theorem State.slot_setSlot_self (s : State) (t k : Nat) (x : Slot) : (s.setSlot t k x).slot t k = x := by
  simp [slot_setSlot]
@[simp] theorem State.ring_setRing_self (s : State) (r : Nat) (x : Ring) : (s.setRing r x).ring r = x := by
  simp [ring_setRing]

/-! ### Registers -/

@[simp] theorem State.rd_wr_self (s : State) (r : Reg) (u i : Nat) (w : BitVec 64) : (s.wr r u i w).rd r u i = w := by
  simp [State.rd, State.wr]

/-- What an unwritten register reads rests on the other registers only at a wafer's outer ports, which show the sector of the
tile across them. -/
theorem State.regDefault_wr (s : State) (r : Reg) (u i : Nat) (w : BitVec 64) (k : RegKey)
    (h : k.reg ≠ .mshPortCfg ∨ r ≠ .mshTileSector) : (s.wr r u i w).regDefault k = s.regDefault k := by
  have outer (hr : r ≠ .mshTileSector) : (s.wr r u i w).outerPort k.unit k.idx = s.outerPort k.unit k.idx := by
    have other (n : Nat) : (⟨.mshTileSector, n, 0⟩ : RegKey) ≠ ⟨r, u, i⟩ := fun e => hr (congrArg RegKey.reg e).symm
    simp only [State.outerPort, State.wr, mget_mput_ne _ _ _ (other _)]
  obtain ⟨reg, unit, idx⟩ := k
  rcases h with h | h
  · unfold State.regDefault
    cases reg <;> first | rfl | exact absurd rfl h
  · unfold State.regDefault
    cases reg <;> first | rfl | (rw [outer h])

theorem State.rd_wr (s : State) (r : Reg) (u i : Nat) (w : BitVec 64) (r' : Reg) (u' i' : Nat)
    (h : r' ≠ .mshPortCfg ∨ r ≠ .mshTileSector) :
    (s.wr r u i w).rd r' u' i' = if (⟨r', u', i'⟩ : RegKey) = ⟨r, u, i⟩ then w else s.rd r' u' i' := by
  unfold State.rd
  rw [State.regDefault_wr s r u i w _ h, State.wr, mget_mput]

/-! ### Packets -/

theorem State.pkt_dropPkt_self (s : State) (id : Nat) : (s.dropPkt id).pkt id = none := by
  simp [State.pkt, State.dropPkt]

/-! ### Bit fields -/

theorem bits_lt (n hi lo : Nat) : bits n hi lo < 2 ^ (hi + 1 - lo) := Nat.mod_lt _ (Nat.two_pow_pos _)

theorem satAdd32_le (a b : Nat) : satAdd32 a b ≤ 0xFFFFFFFF := Nat.min_le_right ..

end Sys2Proof.Machine
end

