-- ==== Sys2Proof/Laws/Ops.lean ====
section
/-! SUPPORT. What the operations that many commands share can do, said once. -/

namespace Sys2Proof.Machine

/-! ### `State.stationRecord` -/

/-- A record in the station ring changes the rings, what has been sent out and the watch of the last event interrupt; no more. -/
theorem State.stationRecord_spec (s : State) (e : Event) :
    ∃ r o i, s.stationRecord e = { s with rings := r, out := o, irqWatch := i } := ⟨_, _, _, rfl⟩

@[simp] theorem State.stationRecord_pending (s : State) (e : Event) : (s.stationRecord e).pending = s.pending := rfl
@[simp] theorem State.stationRecord_now (s : State) (e : Event) : (s.stationRecord e).now = s.now := rfl
@[simp] theorem State.stationRecord_fresh (s : State) (e : Event) : (s.stationRecord e).fresh = s.fresh := rfl
@[simp] theorem State.stationRecord_nextPkt (s : State) (e : Event) : (s.stationRecord e).nextPkt = s.nextPkt := rfl
@[simp] theorem State.stationRecord_fuses (s : State) (e : Event) : (s.stationRecord e).fuses = s.fuses := rfl
@[simp] theorem State.stationRecord_regs (s : State) (e : Event) : (s.stationRecord e).regs = s.regs := rfl
@[simp] theorem State.stationRecord_sram (s : State) (e : Event) : (s.stationRecord e).sram = s.sram := rfl
@[simp] theorem State.stationRecord_sramBad (s : State) (e : Event) : (s.stationRecord e).sramBad = s.sramBad := rfl
@[simp] theorem State.stationRecord_sramWeak (s : State) (e : Event) : (s.stationRecord e).sramWeak = s.sramWeak := rfl
@[simp] theorem State.stationRecord_fst (s : State) (e : Event) : (s.stationRecord e).fst = s.fst := rfl
@[simp] theorem State.stationRecord_fstBad (s : State) (e : Event) : (s.stationRecord e).fstBad = s.fstBad := rfl
@[simp] theorem State.stationRecord_fstWeak (s : State) (e : Event) : (s.stationRecord e).fstWeak = s.fstWeak := rfl
@[simp] theorem State.stationRecord_fields (s : State) (e : Event) : (s.stationRecord e).fields = s.fields := rfl
@[simp] theorem State.stationRecord_groups (s : State) (e : Event) : (s.stationRecord e).groups = s.groups := rfl
@[simp] theorem State.stationRecord_tiles (s : State) (e : Event) : (s.stationRecord e).tiles = s.tiles := rfl
@[simp] theorem State.stationRecord_slots (s : State) (e : Event) : (s.stationRecord e).slots = s.slots := rfl
@[simp] theorem State.stationRecord_rules (s : State) (e : Event) : (s.stationRecord e).rules = s.rules := rfl
@[simp] theorem State.stationRecord_buoys (s : State) (e : Event) : (s.stationRecord e).buoys = s.buoys := rfl
@[simp] theorem State.stationRecord_buoyBlocks (s : State) (e : Event) : (s.stationRecord e).buoyBlocks = s.buoyBlocks := rfl
@[simp] theorem State.stationRecord_sectorTags (s : State) (e : Event) : (s.stationRecord e).sectorTags = s.sectorTags := rfl
@[simp] theorem State.stationRecord_packets (s : State) (e : Event) : (s.stationRecord e).packets = s.packets := rfl
@[simp] theorem State.stationRecord_answers (s : State) (e : Event) : (s.stationRecord e).answers = s.answers := rfl
@[simp] theorem State.stationRecord_journal (s : State) (e : Event) : (s.stationRecord e).journal = s.journal := rfl
@[simp] theorem State.stationRecord_lenses (s : State) (e : Event) : (s.stationRecord e).lenses = s.lenses := rfl
@[simp] theorem State.stationRecord_mvs (s : State) (e : Event) : (s.stationRecord e).mvs = s.mvs := rfl
@[simp] theorem State.stationRecord_sectors (s : State) (e : Event) : (s.stationRecord e).sectors = s.sectors := rfl
@[simp] theorem State.stationRecord_live (s : State) (e : Event) : (s.stationRecord e).live = s.live := rfl
@[simp] theorem State.stationRecord_mboxQueue (s : State) (e : Event) : (s.stationRecord e).mboxQueue = s.mboxQueue := rfl
@[simp] theorem State.stationRecord_mboxJobs (s : State) (e : Event) : (s.stationRecord e).mboxJobs = s.mboxJobs := rfl
@[simp] theorem State.stationRecord_resets (s : State) (e : Event) : (s.stationRecord e).resets = s.resets := rfl
@[simp] theorem State.stationRecord_bays (s : State) (e : Event) : (s.stationRecord e).bays = s.bays := rfl
@[simp] theorem State.stationRecord_rd (s : State) (e : Event) (r' : Reg) (u' i' : Nat) :
    (s.stationRecord e).rd r' u' i' = s.rd r' u' i' := rfl
@[simp] theorem State.stationRecord_gf (s : State) (e : Event) (f' : RegField) (u' i' : Nat) :
    (s.stationRecord e).gf f' u' i' = s.gf f' u' i' := rfl
@[simp] theorem State.stationRecord_flag (s : State) (e : Event) (f' : RegField) (u' i' : Nat) :
    (s.stationRecord e).flag f' u' i' = s.flag f' u' i' := rfl
@[simp] theorem State.stationRecord_fld (s : State) (e : Event) (f' : Nat) :
    (s.stationRecord e).fld f' = s.fld f' := rfl
@[simp] theorem State.stationRecord_grp (s : State) (e : Event) (t' g' : Nat) :
    (s.stationRecord e).grp t' g' = s.grp t' g' := rfl
@[simp] theorem State.stationRecord_til (s : State) (e : Event) (t' : Nat) :
    (s.stationRecord e).til t' = s.til t' := rfl
@[simp] theorem State.stationRecord_slot (s : State) (e : Event) (t' k' : Nat) :
    (s.stationRecord e).slot t' k' = s.slot t' k' := rfl
@[simp] theorem State.stationRecord_pkt (s : State) (e : Event) (id' : Nat) :
    (s.stationRecord e).pkt id' = s.pkt id' := rfl

/-! ### `State.logEv` -/

/-- An event logged changes the rings, what has been sent out and the watch of the last event interrupt; no more. -/
theorem State.logEvAt_spec (s : State) (ev : Ev) (f cyc loc detail : Nat) :
    ∃ r o i, s.logEvAt ev f cyc loc detail = { s with rings := r, out := o, irqWatch := i } := by
  unfold State.logEvAt
  simp only
  split
  · split <;> split <;> exact ⟨_, _, _, rfl⟩
  · exact State.stationRecord_spec ..

theorem State.logEv_spec (s : State) (ev : Ev) (f loc detail : Nat) :
    ∃ r o i, s.logEv ev f loc detail = { s with rings := r, out := o, irqWatch := i } := State.logEvAt_spec ..

@[simp] theorem State.logEv_pending (s : State) (ev : Ev) (f loc detail : Nat) : (s.logEv ev f loc detail).pending = s.pending := by
  obtain ⟨_, _, _, h⟩ := s.logEv_spec ev f loc detail
  rw [h]
@[simp] theorem State.logEv_now (s : State) (ev : Ev) (f loc detail : Nat) : (s.logEv ev f loc detail).now = s.now := by
  obtain ⟨_, _, _, h⟩ := s.logEv_spec ev f loc detail
  rw [h]
@[simp] theorem State.logEv_fresh (s : State) (ev : Ev) (f loc detail : Nat) : (s.logEv ev f loc detail).fresh = s.fresh := by
  obtain ⟨_, _, _, h⟩ := s.logEv_spec ev f loc detail
  rw [h]
@[simp] theorem State.logEv_nextPkt (s : State) (ev : Ev) (f loc detail : Nat) : (s.logEv ev f loc detail).nextPkt = s.nextPkt := by
  obtain ⟨_, _, _, h⟩ := s.logEv_spec ev f loc detail
  rw [h]
@[simp] theorem State.logEv_fuses (s : State) (ev : Ev) (f loc detail : Nat) : (s.logEv ev f loc detail).fuses = s.fuses := by
  obtain ⟨_, _, _, h⟩ := s.logEv_spec ev f loc detail
  rw [h]
@[simp] theorem State.logEv_regs (s : State) (ev : Ev) (f loc detail : Nat) : (s.logEv ev f loc detail).regs = s.regs := by
  obtain ⟨_, _, _, h⟩ := s.logEv_spec ev f loc detail
  rw [h]
@[simp] theorem State.logEv_sram (s : State) (ev : Ev) (f loc detail : Nat) : (s.logEv ev f loc detail).sram = s.sram := by
  obtain ⟨_, _, _, h⟩ := s.logEv_spec ev f loc detail
  rw [h]
@[simp] theorem State.logEv_sramBad (s : State) (ev : Ev) (f loc detail : Nat) : (s.logEv ev f loc detail).sramBad = s.sramBad := by
  obtain ⟨_, _, _, h⟩ := s.logEv_spec ev f loc detail
  rw [h]
@[simp] theorem State.logEv_sramWeak (s : State) (ev : Ev) (f loc detail : Nat) : (s.logEv ev f loc detail).sramWeak = s.sramWeak := by
  obtain ⟨_, _, _, h⟩ := s.logEv_spec ev f loc detail
  rw [h]
@[simp] theorem State.logEv_fst (s : State) (ev : Ev) (f loc detail : Nat) : (s.logEv ev f loc detail).fst = s.fst := by
  obtain ⟨_, _, _, h⟩ := s.logEv_spec ev f loc detail
  rw [h]
@[simp] theorem State.logEv_fstBad (s : State) (ev : Ev) (f loc detail : Nat) : (s.logEv ev f loc detail).fstBad = s.fstBad := by
  obtain ⟨_, _, _, h⟩ := s.logEv_spec ev f loc detail
  rw [h]
@[simp] theorem State.logEv_fstWeak (s : State) (ev : Ev) (f loc detail : Nat) : (s.logEv ev f loc detail).fstWeak = s.fstWeak := by
  obtain ⟨_, _, _, h⟩ := s.logEv_spec ev f loc detail
  rw [h]
@[simp] theorem State.logEv_fields (s : State) (ev : Ev) (f loc detail : Nat) : (s.logEv ev f loc detail).fields = s.fields := by
  obtain ⟨_, _, _, h⟩ := s.logEv_spec ev f loc detail
  rw [h]
@[simp] theorem State.logEv_groups (s : State) (ev : Ev) (f loc detail : Nat) : (s.logEv ev f loc detail).groups = s.groups := by
  obtain ⟨_, _, _, h⟩ := s.logEv_spec ev f loc detail
  rw [h]
@[simp] theorem State.logEv_tiles (s : State) (ev : Ev) (f loc detail : Nat) : (s.logEv ev f loc detail).tiles = s.tiles := by
  obtain ⟨_, _, _, h⟩ := s.logEv_spec ev f loc detail
  rw [h]
@[simp] theorem State.logEv_slots (s : State) (ev : Ev) (f loc detail : Nat) : (s.logEv ev f loc detail).slots = s.slots := by
  obtain ⟨_, _, _, h⟩ := s.logEv_spec ev f loc detail
  rw [h]
@[simp] theorem State.logEv_rules (s : State) (ev : Ev) (f loc detail : Nat) : (s.logEv ev f loc detail).rules = s.rules := by
  obtain ⟨_, _, _, h⟩ := s.logEv_spec ev f loc detail
  rw [h]
@[simp] theorem State.logEv_buoys (s : State) (ev : Ev) (f loc detail : Nat) : (s.logEv ev f loc detail).buoys = s.buoys := by
  obtain ⟨_, _, _, h⟩ := s.logEv_spec ev f loc detail
  rw [h]
@[simp] theorem State.logEv_buoyBlocks (s : State) (ev : Ev) (f loc detail : Nat) : (s.logEv ev f loc detail).buoyBlocks = s.buoyBlocks := by
  obtain ⟨_, _, _, h⟩ := s.logEv_spec ev f loc detail
  rw [h]
@[simp] theorem State.logEv_sectorTags (s : State) (ev : Ev) (f loc detail : Nat) : (s.logEv ev f loc detail).sectorTags = s.sectorTags := by
  obtain ⟨_, _, _, h⟩ := s.logEv_spec ev f loc detail
  rw [h]
@[simp] theorem State.logEv_packets (s : State) (ev : Ev) (f loc detail : Nat) : (s.logEv ev f loc detail).packets = s.packets := by
  obtain ⟨_, _, _, h⟩ := s.logEv_spec ev f loc detail
  rw [h]
@[simp] theorem State.logEv_answers (s : State) (ev : Ev) (f loc detail : Nat) : (s.logEv ev f loc detail).answers = s.answers := by
  obtain ⟨_, _, _, h⟩ := s.logEv_spec ev f loc detail
  rw [h]
@[simp] theorem State.logEv_journal (s : State) (ev : Ev) (f loc detail : Nat) : (s.logEv ev f loc detail).journal = s.journal := by
  obtain ⟨_, _, _, h⟩ := s.logEv_spec ev f loc detail
  rw [h]
@[simp] theorem State.logEv_lenses (s : State) (ev : Ev) (f loc detail : Nat) : (s.logEv ev f loc detail).lenses = s.lenses := by
  obtain ⟨_, _, _, h⟩ := s.logEv_spec ev f loc detail
  rw [h]
@[simp] theorem State.logEv_mvs (s : State) (ev : Ev) (f loc detail : Nat) : (s.logEv ev f loc detail).mvs = s.mvs := by
  obtain ⟨_, _, _, h⟩ := s.logEv_spec ev f loc detail
  rw [h]
@[simp] theorem State.logEv_sectors (s : State) (ev : Ev) (f loc detail : Nat) : (s.logEv ev f loc detail).sectors = s.sectors := by
  obtain ⟨_, _, _, h⟩ := s.logEv_spec ev f loc detail
  rw [h]
@[simp] theorem State.logEv_live (s : State) (ev : Ev) (f loc detail : Nat) : (s.logEv ev f loc detail).live = s.live := by
  obtain ⟨_, _, _, h⟩ := s.logEv_spec ev f loc detail
  rw [h]
@[simp] theorem State.logEv_mboxQueue (s : State) (ev : Ev) (f loc detail : Nat) : (s.logEv ev f loc detail).mboxQueue = s.mboxQueue := by
  obtain ⟨_, _, _, h⟩ := s.logEv_spec ev f loc detail
  rw [h]
@[simp] theorem State.logEv_mboxJobs (s : State) (ev : Ev) (f loc detail : Nat) : (s.logEv ev f loc detail).mboxJobs = s.mboxJobs := by
  obtain ⟨_, _, _, h⟩ := s.logEv_spec ev f loc detail
  rw [h]
@[simp] theorem State.logEv_resets (s : State) (ev : Ev) (f loc detail : Nat) : (s.logEv ev f loc detail).resets = s.resets := by
  obtain ⟨_, _, _, h⟩ := s.logEv_spec ev f loc detail
  rw [h]
@[simp] theorem State.logEv_bays (s : State) (ev : Ev) (f loc detail : Nat) : (s.logEv ev f loc detail).bays = s.bays := by
  obtain ⟨_, _, _, h⟩ := s.logEv_spec ev f loc detail
  rw [h]
@[simp] theorem State.logEv_rd (s : State) (ev : Ev) (f loc detail : Nat) (r' : Reg) (u' i' : Nat) :
    (s.logEv ev f loc detail).rd r' u' i' = s.rd r' u' i' := by
  obtain ⟨_, _, _, h⟩ := s.logEv_spec ev f loc detail
  rw [h]
  rfl
@[simp] theorem State.logEv_gf (s : State) (ev : Ev) (f loc detail : Nat) (f' : RegField) (u' i' : Nat) :
    (s.logEv ev f loc detail).gf f' u' i' = s.gf f' u' i' := by
  obtain ⟨_, _, _, h⟩ := s.logEv_spec ev f loc detail
  rw [h]
  rfl
@[simp] theorem State.logEv_flag (s : State) (ev : Ev) (f loc detail : Nat) (f' : RegField) (u' i' : Nat) :
    (s.logEv ev f loc detail).flag f' u' i' = s.flag f' u' i' := by
  obtain ⟨_, _, _, h⟩ := s.logEv_spec ev f loc detail
  rw [h]
  rfl
@[simp] theorem State.logEv_fld (s : State) (ev : Ev) (f loc detail : Nat) (f' : Nat) :
    (s.logEv ev f loc detail).fld f' = s.fld f' := by
  obtain ⟨_, _, _, h⟩ := s.logEv_spec ev f loc detail
  rw [h]
  rfl
@[simp] theorem State.logEv_grp (s : State) (ev : Ev) (f loc detail : Nat) (t' g' : Nat) :
    (s.logEv ev f loc detail).grp t' g' = s.grp t' g' := by
  obtain ⟨_, _, _, h⟩ := s.logEv_spec ev f loc detail
  rw [h]
  rfl
@[simp] theorem State.logEv_til (s : State) (ev : Ev) (f loc detail : Nat) (t' : Nat) :
    (s.logEv ev f loc detail).til t' = s.til t' := by
  obtain ⟨_, _, _, h⟩ := s.logEv_spec ev f loc detail
  rw [h]
  rfl
@[simp] theorem State.logEv_slot (s : State) (ev : Ev) (f loc detail : Nat) (t' k' : Nat) :
    (s.logEv ev f loc detail).slot t' k' = s.slot t' k' := by
  obtain ⟨_, _, _, h⟩ := s.logEv_spec ev f loc detail
  rw [h]
  rfl
@[simp] theorem State.logEv_pkt (s : State) (ev : Ev) (f loc detail : Nat) (id' : Nat) :
    (s.logEv ev f loc detail).pkt id' = s.pkt id' := by
  obtain ⟨_, _, _, h⟩ := s.logEv_spec ev f loc detail
  rw [h]
  rfl

/-! ### `State.refuse` -/

/-- An access refused is logged, and changes nothing else. -/
theorem State.refuse_spec (s : State) (f : Nat) (req : Requester) (addr : Nat) :
    ∃ r o i, s.refuse f req addr = { s with rings := r, out := o, irqWatch := i } := State.logEv_spec ..

@[simp] theorem State.refuse_pending (s : State) (f : Nat) (req : Requester) (addr : Nat) : (s.refuse f req addr).pending = s.pending := by
  obtain ⟨_, _, _, h⟩ := s.refuse_spec f req addr
  rw [h]
@[simp] theorem State.refuse_now (s : State) (f : Nat) (req : Requester) (addr : Nat) : (s.refuse f req addr).now = s.now := by
  obtain ⟨_, _, _, h⟩ := s.refuse_spec f req addr
  rw [h]
@[simp] theorem State.refuse_fresh (s : State) (f : Nat) (req : Requester) (addr : Nat) : (s.refuse f req addr).fresh = s.fresh := by
  obtain ⟨_, _, _, h⟩ := s.refuse_spec f req addr
  rw [h]
@[simp] theorem State.refuse_nextPkt (s : State) (f : Nat) (req : Requester) (addr : Nat) : (s.refuse f req addr).nextPkt = s.nextPkt := by
  obtain ⟨_, _, _, h⟩ := s.refuse_spec f req addr
  rw [h]
@[simp] theorem State.refuse_fuses (s : State) (f : Nat) (req : Requester) (addr : Nat) : (s.refuse f req addr).fuses = s.fuses := by
  obtain ⟨_, _, _, h⟩ := s.refuse_spec f req addr
  rw [h]
@[simp] theorem State.refuse_regs (s : State) (f : Nat) (req : Requester) (addr : Nat) : (s.refuse f req addr).regs = s.regs := by
  obtain ⟨_, _, _, h⟩ := s.refuse_spec f req addr
  rw [h]
@[simp] theorem State.refuse_sram (s : State) (f : Nat) (req : Requester) (addr : Nat) : (s.refuse f req addr).sram = s.sram := by
  obtain ⟨_, _, _, h⟩ := s.refuse_spec f req addr
  rw [h]
@[simp] theorem State.refuse_sramBad (s : State) (f : Nat) (req : Requester) (addr : Nat) : (s.refuse f req addr).sramBad = s.sramBad := by
  obtain ⟨_, _, _, h⟩ := s.refuse_spec f req addr
  rw [h]
@[simp] theorem State.refuse_sramWeak (s : State) (f : Nat) (req : Requester) (addr : Nat) : (s.refuse f req addr).sramWeak = s.sramWeak := by
  obtain ⟨_, _, _, h⟩ := s.refuse_spec f req addr
  rw [h]
@[simp] theorem State.refuse_fst (s : State) (f : Nat) (req : Requester) (addr : Nat) : (s.refuse f req addr).fst = s.fst := by
  obtain ⟨_, _, _, h⟩ := s.refuse_spec f req addr
  rw [h]
@[simp] theorem State.refuse_fstBad (s : State) (f : Nat) (req : Requester) (addr : Nat) : (s.refuse f req addr).fstBad = s.fstBad := by
  obtain ⟨_, _, _, h⟩ := s.refuse_spec f req addr
  rw [h]
@[simp] theorem State.refuse_fstWeak (s : State) (f : Nat) (req : Requester) (addr : Nat) : (s.refuse f req addr).fstWeak = s.fstWeak := by
  obtain ⟨_, _, _, h⟩ := s.refuse_spec f req addr
  rw [h]
@[simp] theorem State.refuse_fields (s : State) (f : Nat) (req : Requester) (addr : Nat) : (s.refuse f req addr).fields = s.fields := by
  obtain ⟨_, _, _, h⟩ := s.refuse_spec f req addr
  rw [h]
@[simp] theorem State.refuse_groups (s : State) (f : Nat) (req : Requester) (addr : Nat) : (s.refuse f req addr).groups = s.groups := by
  obtain ⟨_, _, _, h⟩ := s.refuse_spec f req addr
  rw [h]
@[simp] theorem State.refuse_tiles (s : State) (f : Nat) (req : Requester) (addr : Nat) : (s.refuse f req addr).tiles = s.tiles := by
  obtain ⟨_, _, _, h⟩ := s.refuse_spec f req addr
  rw [h]
@[simp] theorem State.refuse_slots (s : State) (f : Nat) (req : Requester) (addr : Nat) : (s.refuse f req addr).slots = s.slots := by
  obtain ⟨_, _, _, h⟩ := s.refuse_spec f req addr
  rw [h]
@[simp] theorem State.refuse_rules (s : State) (f : Nat) (req : Requester) (addr : Nat) : (s.refuse f req addr).rules = s.rules := by
  obtain ⟨_, _, _, h⟩ := s.refuse_spec f req addr
  rw [h]
@[simp] theorem State.refuse_buoys (s : State) (f : Nat) (req : Requester) (addr : Nat) : (s.refuse f req addr).buoys = s.buoys := by
  obtain ⟨_, _, _, h⟩ := s.refuse_spec f req addr
  rw [h]
@[simp] theorem State.refuse_buoyBlocks (s : State) (f : Nat) (req : Requester) (addr : Nat) : (s.refuse f req addr).buoyBlocks = s.buoyBlocks := by
  obtain ⟨_, _, _, h⟩ := s.refuse_spec f req addr
  rw [h]
@[simp] theorem State.refuse_sectorTags (s : State) (f : Nat) (req : Requester) (addr : Nat) : (s.refuse f req addr).sectorTags = s.sectorTags := by
  obtain ⟨_, _, _, h⟩ := s.refuse_spec f req addr
  rw [h]
@[simp] theorem State.refuse_packets (s : State) (f : Nat) (req : Requester) (addr : Nat) : (s.refuse f req addr).packets = s.packets := by
  obtain ⟨_, _, _, h⟩ := s.refuse_spec f req addr
  rw [h]
@[simp] theorem State.refuse_answers (s : State) (f : Nat) (req : Requester) (addr : Nat) : (s.refuse f req addr).answers = s.answers := by
  obtain ⟨_, _, _, h⟩ := s.refuse_spec f req addr
  rw [h]
@[simp] theorem State.refuse_journal (s : State) (f : Nat) (req : Requester) (addr : Nat) : (s.refuse f req addr).journal = s.journal := by
  obtain ⟨_, _, _, h⟩ := s.refuse_spec f req addr
  rw [h]
@[simp] theorem State.refuse_lenses (s : State) (f : Nat) (req : Requester) (addr : Nat) : (s.refuse f req addr).lenses = s.lenses := by
  obtain ⟨_, _, _, h⟩ := s.refuse_spec f req addr
  rw [h]
@[simp] theorem State.refuse_mvs (s : State) (f : Nat) (req : Requester) (addr : Nat) : (s.refuse f req addr).mvs = s.mvs := by
  obtain ⟨_, _, _, h⟩ := s.refuse_spec f req addr
  rw [h]
@[simp] theorem State.refuse_sectors (s : State) (f : Nat) (req : Requester) (addr : Nat) : (s.refuse f req addr).sectors = s.sectors := by
  obtain ⟨_, _, _, h⟩ := s.refuse_spec f req addr
  rw [h]
@[simp] theorem State.refuse_live (s : State) (f : Nat) (req : Requester) (addr : Nat) : (s.refuse f req addr).live = s.live := by
  obtain ⟨_, _, _, h⟩ := s.refuse_spec f req addr
  rw [h]
@[simp] theorem State.refuse_mboxQueue (s : State) (f : Nat) (req : Requester) (addr : Nat) : (s.refuse f req addr).mboxQueue = s.mboxQueue := by
  obtain ⟨_, _, _, h⟩ := s.refuse_spec f req addr
  rw [h]
@[simp] theorem State.refuse_mboxJobs (s : State) (f : Nat) (req : Requester) (addr : Nat) : (s.refuse f req addr).mboxJobs = s.mboxJobs := by
  obtain ⟨_, _, _, h⟩ := s.refuse_spec f req addr
  rw [h]
@[simp] theorem State.refuse_resets (s : State) (f : Nat) (req : Requester) (addr : Nat) : (s.refuse f req addr).resets = s.resets := by
  obtain ⟨_, _, _, h⟩ := s.refuse_spec f req addr
  rw [h]
@[simp] theorem State.refuse_bays (s : State) (f : Nat) (req : Requester) (addr : Nat) : (s.refuse f req addr).bays = s.bays := by
  obtain ⟨_, _, _, h⟩ := s.refuse_spec f req addr
  rw [h]
@[simp] theorem State.refuse_rd (s : State) (f : Nat) (req : Requester) (addr : Nat) (r' : Reg) (u' i' : Nat) :
    (s.refuse f req addr).rd r' u' i' = s.rd r' u' i' := by
  obtain ⟨_, _, _, h⟩ := s.refuse_spec f req addr
  rw [h]
  rfl
@[simp] theorem State.refuse_gf (s : State) (f : Nat) (req : Requester) (addr : Nat) (f' : RegField) (u' i' : Nat) :
    (s.refuse f req addr).gf f' u' i' = s.gf f' u' i' := by
  obtain ⟨_, _, _, h⟩ := s.refuse_spec f req addr
  rw [h]
  rfl
@[simp] theorem State.refuse_flag (s : State) (f : Nat) (req : Requester) (addr : Nat) (f' : RegField) (u' i' : Nat) :
    (s.refuse f req addr).flag f' u' i' = s.flag f' u' i' := by
  obtain ⟨_, _, _, h⟩ := s.refuse_spec f req addr
  rw [h]
  rfl
@[simp] theorem State.refuse_fld (s : State) (f : Nat) (req : Requester) (addr : Nat) (f' : Nat) :
    (s.refuse f req addr).fld f' = s.fld f' := by
  obtain ⟨_, _, _, h⟩ := s.refuse_spec f req addr
  rw [h]
  rfl
@[simp] theorem State.refuse_grp (s : State) (f : Nat) (req : Requester) (addr : Nat) (t' g' : Nat) :
    (s.refuse f req addr).grp t' g' = s.grp t' g' := by
  obtain ⟨_, _, _, h⟩ := s.refuse_spec f req addr
  rw [h]
  rfl
@[simp] theorem State.refuse_til (s : State) (f : Nat) (req : Requester) (addr : Nat) (t' : Nat) :
    (s.refuse f req addr).til t' = s.til t' := by
  obtain ⟨_, _, _, h⟩ := s.refuse_spec f req addr
  rw [h]
  rfl
@[simp] theorem State.refuse_slot (s : State) (f : Nat) (req : Requester) (addr : Nat) (t' k' : Nat) :
    (s.refuse f req addr).slot t' k' = s.slot t' k' := by
  obtain ⟨_, _, _, h⟩ := s.refuse_spec f req addr
  rw [h]
  rfl
@[simp] theorem State.refuse_pkt (s : State) (f : Nat) (req : Requester) (addr : Nat) (id' : Nat) :
    (s.refuse f req addr).pkt id' = s.pkt id' := by
  obtain ⟨_, _, _, h⟩ := s.refuse_spec f req addr
  rw [h]
  rfl

/-! ### Commands on a unit -/

theorem onField_next {f : Nat} {x : State} (h : f < 64) : onField f x = .next x := if_pos h
theorem onField_fault {f : Nat} {x : State} (h : 64 ≤ f) : onField f x = .fault .noSuchUnit := if_neg (by omega)
theorem onField_inv {f : Nat} {x t : State} (h : onField f x = .next t) : f < 64 ∧ t = x := by
  unfold onField at h
  split at h
  · cases h
    exact ⟨‹_›, rfl⟩
  · cases h

theorem isTile_iff (t : Nat) : isTile t = true ↔ t < 589824 := by simp [isTile]

theorem onTile_next {t : Nat} {x : State} (h : t < 589824) : onTile t x = .next x := if_pos ((isTile_iff t).2 h)
theorem onTile_fault {t : Nat} {x : State} (h : 589824 ≤ t) : onTile t x = .fault .noSuchUnit :=
  if_neg fun e => by rw [isTile_iff] at e; omega
theorem onTile_inv {t : Nat} {x y : State} (h : onTile t x = .next y) : t < 589824 ∧ y = x := by
  unfold onTile at h
  split at h
  · next ht =>
    cases h
    exact ⟨(isTile_iff t).1 ht, rfl⟩
  · cases h

theorem onGroup_next {t g : Nat} {x : State} (ht : t < 589824) (hg : g < 8) : onGroup t g x = .next x := by
  simp [onGroup, (isTile_iff t).2 ht, hg]
theorem onGroup_fault {t g : Nat} {x : State} (h : 589824 ≤ t ∨ 8 ≤ g) : onGroup t g x = .fault .noSuchUnit := by
  unfold onGroup
  rw [if_neg]
  simp only [Bool.and_eq_true, isTile_iff, decide_eq_true_eq]
  omega
theorem onGroup_inv {t g : Nat} {x y : State} (h : onGroup t g x = .next y) : t < 589824 ∧ g < 8 ∧ y = x := by
  unfold onGroup at h
  split at h
  · next ht =>
    cases h
    simp only [Bool.and_eq_true, isTile_iff, decide_eq_true_eq] at ht
    exact ⟨ht.1, ht.2, rfl⟩
  · cases h

theorem onUnit_next {k n : Nat} {x : State} (h : k < n) : onUnit k n x = .next x := if_pos h
theorem onUnit_fault {k n : Nat} {x : State} (h : n ≤ k) : onUnit k n x = .fault .noSuchUnit := if_neg (by omega)
theorem onUnit_inv {k n : Nat} {x t : State} (h : onUnit k n x = .next t) : k < n ∧ t = x := by
  unfold onUnit at h
  split at h
  · cases h
    exact ⟨‹_›, rfl⟩
  · cases h

/-! ### Repeated effects -/

@[simp] theorem State.each_nil {α : Type} (s : State) (f : State → α → State) : s.each [] f = s := rfl
@[simp] theorem State.each_cons {α : Type} (s : State) (a : α) (l : List α) (f : State → α → State) :
    s.each (a :: l) f = (f s a).each l f := rfl

/-- What each effect keeps, they keep together. -/
theorem State.each_keeps {α : Type} (P : State → State → Prop) (hr : ∀ s, P s s) (ht : ∀ a b c, P a b → P b c → P a c)
    (f : State → α → State) (l : List α) (hf : ∀ s, ∀ a ∈ l, P s (f s a)) (s : State) : P s (s.each l f) := by
  induction l generalizing s with
  | nil => exact hr s
  | cons a l ih =>
    exact ht _ _ _ (hf s a (List.mem_cons_self ..)) (ih (fun s b hb => hf s b (List.mem_cons_of_mem _ hb)) _)

/-- A part of the state that no effect changes. -/
theorem State.each_same {α β : Type} (p : State → β) (f : State → α → State) (l : List α)
    (hf : ∀ s, ∀ a ∈ l, p (f s a) = p s) (s : State) : p (s.each l f) = p s :=
  State.each_keeps (fun a b => p b = p a) (fun _ => rfl) (fun _ _ _ h1 h2 => h2.trans h1) f l hf s

/-! ### Words of tile SRAM -/

/-- Bytes of a word put together again. -/
theorem wordOfBytes_byteOf (w : Word) : wordOfBytes (byteOf w 0) (byteOf w 1) (byteOf w 2) (byteOf w 3) = w := by
  apply BitVec.eq_of_getLsbD_eq
  intro i hi
  simp only [wordOfBytes, byteOf, BitVec.getLsbD_append, BitVec.getLsbD_extractLsb']
  split
  · simp [*]
  · split
    · next h1 h2 =>
      rw [show 8 * 1 + (i - 8) = i by omega]
      simp [h2]
    · split
      · next h1 h2 h3 =>
        rw [show 8 * 2 + (i - 8 - 8) = i by omega]
        simp [h3]
      · next h1 h2 h3 =>
        rw [show 8 * 3 + (i - 8 - 8 - 8) = i by omega]
        have : i - 8 - 8 - 8 < 8 := by omega
        simp [this]

/-- What is written counts as written (R134). -/
theorem State.keptNow_mem (s : State) (t off n m : Nat) (kept : List (Nat × Nat)) (h : mfind (s.keptNow t off n) t = some (m, kept)) :
    (off, n) ∈ kept := by
  unfold State.keptNow at h
  split at h
  · next hn => rw [hn] at h; cases h
  · next k l hl =>
    split at h
    · next hc =>
      rw [hl] at h
      cases h
      simpa using hc
    · rw [mfind_mput_self] at h
      cases h
      exact List.mem_cons_self ..

/-- A word of SRAM read after it is written is the word written. -/
@[simp] theorem State.sramWord_sramPut_self (s : State) (t off : Nat) (x : TWord) :
    ((s.sramPut t off x).sramWord t off).w = x.w := by
  have hl : ∀ k, k < 4 → (s.sramPut t off x).sramByte t (off + k) = byteOf x.w k := by
    intro k hk
    have hr : memRead (s.sramPut t off x).sram (sramAddr t (off + k)) = byteOf x.w k := by
      simp only [State.sramPut, memRead_memWriteWord, sramAddr]
      rw [if_pos (by omega), show t * 65536 + (off + k) - (t * 65536 + off) = k by omega]
    unfold State.sramByte
    split
    · exact hr
    · next n kept hf =>
      rw [if_pos, hr]
      have : (off, 4) ∈ kept := State.keptNow_mem s t off 4 n kept hf
      simp only [inRanges, List.any_eq_true]
      exact ⟨_, this, by simp; omega⟩
  have h0 := hl 0 (by omega)
  rw [Nat.add_zero] at h0
  simp only [State.sramWord, h0, hl 1 (by omega), hl 2 (by omega), hl 3 (by omega)]
  exact wordOfBytes_byteOf x.w

/-- A word of SRAM written changes no other byte. -/
theorem State.sramPut_frame (s : State) (t off a : Nat) (x : TWord) (h : a < sramAddr t off ∨ sramAddr t off + 4 ≤ a) :
    memRead (s.sramPut t off x).sram a = memRead s.sram a := memWriteWord_frame _ _ _ _ h

theorem State.sramPut_wf (s : State) (t off : Nat) (x : TWord) (h : memWf s.sram = true) :
    memWf (s.sramPut t off x).sram = true := memWf_memWriteWord _ _ _ h

theorem State.sramPutByte_wf (s : State) (t off : Nat) (b : Byte) (h : memWf s.sram = true) :
    memWf (s.sramPutByte t off b).sram = true := memWf_memWrite _ _ _ h

theorem State.fstPutBytes_wf (s : State) (f off : Nat) (bs : List Byte) (h : memWf s.fst = true) :
    memWf (s.fstPutBytes f off bs).fst = true := memWf_memWriteBytes _ _ _ h

/-- Reading words of SRAM changes at most the tile's count of corrections. -/
theorem State.readEcc_spec (s : State) (t : Nat) (offs : List Nat) :
    s.readEcc t offs = s ∨ ∃ n, s.readEcc t offs = s.bump .tilCountEccCorr t 0 n := by
  unfold State.readEcc
  simp only
  split
  · exact .inl rfl
  · exact .inr ⟨_, rfl⟩

/-! ### Traps -/

/-- A trap leaves the group TRAPPED, with its cause and program counter in `TGP_TRAP` and its address in `TGP_TRAPADDR`, and
logs one event; nothing else changes. -/
theorem State.trap_spec (s : State) (t g cyc cause pc addr : Nat) :
    ∃ r o i, s.trap t g cyc cause pc addr =
      { ((s.setGrp t g { s.grp t g with st := .trapped }).wr .tgpTrap t g (BitVec.ofNat 64 (cause * 65536 + pc % 65536))).wr
          .tgpTrapAddr t g (BitVec.ofNat 64 addr) with rings := r, out := o, irqWatch := i } := by
  unfold State.trap
  simp only
  obtain ⟨r, o, i, h⟩ := State.logEvAt_spec (((s.setGrp t g { s.grp t g with st := .trapped }).wr .tgpTrap t g
    (BitVec.ofNat 64 (cause * 65536 + pc % 65536))).wr .tgpTrapAddr t g (BitVec.ofNat 64 addr)) evTileTrap (fieldOf t) cyc t (detail2 g cause)
  rw [h]
  exact ⟨_, o, i, rfl⟩

/-! ### The mailbox -/

/-- A mailbox command that is the next, may be given on its port, is accepted and has its unused bits 0, runs with its slot
RUNNING and out of the queue. -/
theorem State.takeMbox_runs (s : State) (u op : Nat) (masks : List Nat) (act : State → State)
    (hn : s.mboxNext = some u) (ho : s.gf F.hstMboxStatus_opcode u = op) (hj : u = 64 → op = 0xA ∨ op = 0xD)
    (hz : (({ s with mboxQueue := s.mboxQueue.erase u } : State).sf F.hstMboxStatus_state u 0 2).argsZero u masks = true) :
    s.takeMbox u op true masks act = act (({ s with mboxQueue := s.mboxQueue.erase u } : State).sf F.hstMboxStatus_state u 0 2) := by
  unfold State.takeMbox
  rw [if_neg (by simp [hn, ho])]
  simp only
  rw [if_neg (by rintro ⟨h, a, b⟩; rcases hj h with h | h <;> contradiction), if_neg (by simp), if_neg (by simp [hz])]

/-- A mailbox command that is not the next changes nothing. -/
theorem State.takeMbox_other (s : State) (u op : Nat) (ok : Bool) (masks : List Nat) (act : State → State)
    (h : s.mboxNext ≠ some u ∨ s.gf F.hstMboxStatus_opcode u ≠ op) : s.takeMbox u op ok masks act = s := by
  unfold State.takeMbox
  rw [if_pos h]

/-! ### The issue of an instruction -/

/-- An instruction whose turn it is, with nothing in its way and no breakpoint, does what its body does. -/
theorem issueAs_go (s : State) (t g c : Nat) (m : Mnem) (i : TInst) (body : Ctx → State → State) (ht : s.scan t = some g)
    (hn : s.nextOf t g = .go c i) (hm : mnemOf i = m) (hw : c < settleStart (s.fld (fieldOf t))) (hb : s.breakAt t g = none) :
    issueAs t g m body s = body (s.mkCtx t g c i) s := by
  simp [issueAs, ht, hn, hm, hw, hb]

/-- An instruction whose encoding traps takes its trap, whatever was to issue. -/
theorem issueAs_trap (s : State) (t g c cause : Nat) (m : Mnem) (body : Ctx → State → State) (ht : s.scan t = some g)
    (hn : s.nextOf t g = .trap c cause) (hw : c < settleStart (s.fld (fieldOf t))) (hb : s.breakAt t g = none) :
    issueAs t g m body s = s.issueTrap t g c cause (fetchAddr t (s.grp t g).pc cause) (cause ≠ 0x02) := by
  simp [issueAs, ht, hn, hw, hb]

/-- What an issue can do: nothing, take its encoding's trap, or what the body does. -/
theorem issueAs_cases (s : State) (t g : Nat) (m : Mnem) (body : Ctx → State → State) :
    issueAs t g m body s = s ∨
    (∃ c cause, issueAs t g m body s = s.issueTrap t g c cause (fetchAddr t (s.grp t g).pc cause) (cause ≠ 0x02)) ∨
    ∃ c i, s.nextOf t g = .go c i ∧ mnemOf i = m ∧ issueAs t g m body s = body (s.mkCtx t g c i) s := by
  unfold issueAs
  split
  · split
    · split
      · exact .inr (.inl ⟨_, _, rfl⟩)
      · exact .inl rfl
    · next hn =>
      split
      · next h => exact .inr (.inr ⟨_, _, hn, h.1, rfl⟩)
      · exact .inl rfl
    · exact .inl rfl
  · exact .inl rfl

end Sys2Proof.Machine
end

