-- ==== Sys2Proof/Tests/Slice0.lean ====
section
/-! SUPPORT. Tests: words written out from the encoding tables, ill-formed commands that the checks refuse, and, for the
statements of Certificates/Slice0/Obligations.lean that have hypotheses, states and operands that meet them, most with part of
what the command then gives. -/

namespace Sys2Proof.Tests

open Sys2Proof Sys2Proof.Machine Sys2Proof.Claims

set_option Elab.async false

/-- The command goes on to a state with the property. -/
def gives (c : Instr) (s : State) (p : State → Bool) : Bool :=
  match exec c s with
  | .next t => p t
  | _ => false

/-- Field `f` in WORK of a watch of 49,936 cycles at 1,000 MHz, in cycle `c`. -/
def work (s : State) (f c : Nat) : State :=
  { s.setFld f { phase := .work, startAt := 0, nCycles := 49936, settleLen := 1024, mhz := 1000, lensMhz := 1200 } with now := c }

/-- Tile `t`, a compute tile with 5 KiB of shared space, whose group `g` runs with registers `x`, in cycle 600, with a word at
its program counter, 0. -/
def tileWith (t g : Nat) (w : Word) (x : Group) : State :=
  let s := (State.reset.sf F.tilRole_role t 0 1).wr .tilSplit t 0 (0x10520)
  let s := (work s (fieldOf t) 600).setTil t { active := 2 ^ g, lastGroup := 0 }
  (s.setGrp t g { x with st := .running }).sramPut t 0 { w := w }

/-- The conditions of an issue of an instruction. -/
def issues (s : State) (t g c : Nat) (i : TInst) : Bool :=
  decide (t < 589824) && decide (g < 8) && decide (s.scan t = some g) && decide (s.nextOf t g = .go c i) &&
    decide (c < settleStart (s.fld (fieldOf t))) && decide (c ∉ (s.til t).stretches) && decide (s.breakAt t g = none)

/-! ### Tile instructions -/

/-- Words written out from the encoding tables of R186 to R192 and the worked words of spec/04. -/
theorem test_words_decode :
    decodeTile 0x80010002#32 = some (.imm .movi 0 false 1 2) ∧ decodeTile 0x5800E410#32 = some (.reg .shl 0 false 0 0x39 1 0) ∧
    decodeTile 0xD0040100#32 = some (.loc .ld 0 false 4 0 0x100) ∧
    decodeTile 0x9804130A#32 = some (.reg .fmul 0 false 4 4 0x30 0xA) ∧
    decodeTile 0xB00A138A#32 = some (.cmp 0 false 1 2 4 0x38 0xA) ∧ decodeTile 0x7884E000#32 = some (.reg .mov 1 false 4 0x38 0 0) ∧
    decodeTile 0xE8040800#32 = some (.rem .rst 0 false 4 2 0) ∧
    decodeTile 0x2804B230#32 = some (.buoy .badd 0 false (.idx 300) 0x23 ) ∧ decodeTile 0x08000000#32 = some (.ctl .end_ 0 false 0) ∧
    decodeTile 0x00000000#32 = none := by decide +kernel

/-- A group whose lane registers r2 and r3 hold `a` and `b`, r1 holds `d`. -/
def regs3 (a b d : Word) : Group :=
  { v := (List.range 8).map (fun k => ((2, k), a)) ++ (List.range 8).map (fun k => ((3, k), b)) ++
      (List.range 8).map fun k => ((1, k), d) }

/-- An instruction of group 7 of the last tile about to issue. -/
def at_ (i : TInst) (x : Group) : State := tileWith 589823 7 (encodeTile i) x

/-- It issues, and the command named gives a state with the property of its group. -/
def runs (c : Instr) (i : TInst) (x : Group) (p : Group → Bool) : Bool :=
  issues (at_ i x) 589823 7 600 i && gives c (at_ i x) fun t => p (t.grp 589823 7)

/-- A destination lane of the last group. -/
def lane1 (w : Word) (x : Group) : Bool := decide (x.lane 1 0 = w) && decide (x.lane 1 7 = w) && decide (x.pc = 4)

theorem witness_IntegerResults : (((intOps 589823 7).zip [0xFFFFFFFC, 0xFFFFFFF6, 0xFFFFFFEB, 1, 0xFFFFFFFB, 0xFFFFFFFA, 0xFFFFFFC8,
    0x1FFFFFFF, 0xFFFFFFFF, 0xFFFFFFF9, 3, 3, 0xFFFFFFF9]).all fun (e : (Instr × ROp × (Word → Word → Word)) × Word) =>
      runs e.1.1 (.reg e.1.2.1 0 false 1 2 3 0) (regs3 0xFFFFFFF9 3 0) (lane1 e.2)) = true := by decide +kernel

theorem witness_MoveResults :
    runs (.mov 589823 7) (.reg .mov 0 false 1 2 0 0) (regs3 5 0 0) (lane1 5) = true ∧
    runs (.shfl 589823 7) (.reg .shfl 0 false 1 2 3 0) (regs3 5 15 0) (lane1 5) = true ∧
    runs (.movi 589823 7) (.imm .movi 0 false 1 0x8000) {} (lane1 0xFFFF8000) = true ∧
    runs (.movhi 589823 7) (.imm .movhi 0 false 1 0xFFFF) (regs3 0 0 0x12345678) (lane1 0xFFFF5678) = true ∧
    runs (.addi 589823 7) (.imm .addi 0 false 1 0xFFFF) (regs3 0 0 0) (lane1 0xFFFFFFFF) = true := by decide +kernel

theorem witness_FloatResults :
    (((floatOps 589823 7).zip [0x40400000, 0xBF800000, 0x40000000, 0x40A00000, 0x3F800000, 0x40000000]).all
      fun (e : (Instr × ROp × (FVal → FVal → FVal → FVal)) × Word) =>
        runs e.1.1 (.reg e.1.2.1 0 false 1 2 3 0xA) (regs3 0x3F800000 0x40000000 0x40400000) (lane1 e.2)) = true ∧
    runs (.dot 589823 7) (.reg .dot 0 false 1 2 3 3) (regs3 0x0000FF02 0x00000305 7) (lane1 14) = true ∧
    runs (.dot 589823 7) (.reg .dot 0 false 1 2 3 4) (regs3 0xFFFF 0xFFFF 0) (lane1 1) = true ∧
    runs (.cvt 589823 7) (.reg .cvt 0 false 1 2 0 0xA) (regs3 3 0 0) (fun x => decide (x.pc = 4)) = true ∧
    runs (.sfu 589823 7) (.reg .sfu 0 false 1 2 0 0xA) (regs3 0x3F800000 0 0) (fun x => decide (x.pc = 4)) = true := by
  decide +kernel

/-- A group with predicate 1 holding lanes 0 and 7. -/
def pred1 (x : Group) : Group := { x with p := [(1, 0x81)] }

theorem witness_PredicateResults :
    runs (.cmp 589823 7) (.cmp 0 false 1 2 2 3 0) (regs3 0xFFFFFFFF 3 0) (fun x => decide (x.pred 1 = 0xFF)) = true ∧
    runs (.plog 589823 7) (.plog 0 false 2 1 0 8) (pred1 {}) (fun x => decide (x.pred 2 = 0x81)) = true ∧
    runs (.pfromu 589823 7) (.reg .pfromu 0 false 7 0x20 0 0) { u := [(0, 0x1F0)] } (fun x => decide (x.pred 7 = 0xF0)) = true ∧
    runs (.ufromp 589823 7) (.reg .ufromp 0 false 0x2F 1 0 0) (pred1 {}) (fun x => decide (x.uni 15 = 0x81)) = true := by
  decide +kernel

/-- A stack of one entry whose masks are 0x0F and 0. -/
def stack1 (x : Group) : Group := { x with stack := [⟨0x0F, 0, .none⟩] }

theorem witness_ControlResults :
    runs (.nop 589823 7) (.ctl .nop 0 false 0) {} (fun x => decide (x.pc = 4)) = true ∧
    runs (.bra 589823 7) (.ctl .bra 0 false 0xFFFF) {} (fun x => decide (x.pc = 65532)) = true ∧
    runs (.bany 589823 7) (.ctl .bany 1 false 2) (pred1 {}) (fun x => decide (x.pc = 8)) = true ∧
    runs (.bnone 589823 7) (.ctl .bnone 1 true 2) (pred1 {}) (fun x => decide (x.pc = 4)) = true ∧
    runs (.pushif 589823 7) (.ctl .pushif 1 false 2) (pred1 {})
      (fun x => decide (x.pc = 4) && decide (x.amask = 0x81) && decide (x.stack = [⟨0xFF, 0x7E, .none⟩])) = true ∧
    runs (.else_ 589823 7) (.ctl .else_ 0 false 3) (stack1 {}) (fun x => decide (x.pc = 12) && decide (x.amask = 0)) = true ∧
    runs (.pop 589823 7) (.ctl .pop 0 false 0) (stack1 {}) (fun x => decide (x.amask = 0x0F) && decide (x.stack = [])) = true ∧
    runs (.mask 589823 7) (.ctl .mask 1 false 0) (pred1 {}) (fun x => decide (x.amask = 0x81)) = true := by decide +kernel

/-- The last group at END, quiet or with a store outstanding. -/
def atEnd (out : List Nat) (ended : Bool) : State := at_ (.ctl .end_ 0 false 0) { rstOut := out, ended := ended }

theorem witness_EndOfWork :
    runs (.end_ 589823 7) (.ctl .end_ 0 false 0) {} (fun x => decide (x.st = .done)) = true ∧
    runs (.end_ 589823 7) (.ctl .end_ 0 false 0) { rstOut := [3] } (fun x => decide (x.st = .running) && x.ended) = true ∧
    (atEnd [] true).quiet 589823 7 = true ∧
    gives (.endOfWork 589823 7) (atEnd [] true) (fun t => decide ((t.grp 589823 7).st = .done) && (t.til 589823).eow) = true := by
  decide +kernel

/-- The last group with a program counter, a stack and a word that decide a trap. -/
def trapAt (w : Word) (x : Group) : State := tileWith 589823 7 w x

theorem witness_TrapsAtIssue :
    (trapAt 0 {}).scan 589823 = some 7 ∧
    [(trapAt 0 { pc := 5120 }).nextOf 589823 7, ({ trapAt 0 {} with sramBad := [sramAddr 589823 0] } : State).nextOf 589823 7,
      (trapAt 0 {}).nextOf 589823 7,
      (trapAt (encodeTile (.ctl .pushif 0 false 0)) { stack := List.replicate 8 ⟨0, 0, .none⟩ }).nextOf 589823 7,
      (trapAt (encodeTile (.ctl .pop 0 false 0)) {}).nextOf 589823 7,
      (trapAt (encodeTile (.spec .begin_ 1)) { nest := [1, 2, 3, 4] }).nextOf 589823 7] =
      [.trap 600 2, .trap 600 0xB, .trap 600 1, .trap 600 7, .trap 600 8, .trap 600 9] ∧
    ((issueCommands 589823 7).all fun i => gives i (trapAt 0 {}) fun t =>
      decide ((t.grp 589823 7).st = .trapped) && decide (t.rd .tgpTrap 589823 7 = 0x10000)) = true ∧
    gives (.add 589823 7) ({ trapAt 0 {} with sramBad := [sramAddr 589823 0] } : State) (fun t =>
      decide (t.rd .tgpTrapAddr 589823 7 = BitVec.ofNat 64 (589823 * 2 ^ 40))) = true := by decide +kernel

/-- The last group stuck on an empty port, its watchdog set to 1 cycle. -/
def dogState : State :=
  (at_ (.reg .mov 0 false 1 0x30 0 0) {}).sf F.tgpWdog_limit 589823 0 1 |>.sf F.chnSlotCfg_enable 589823 0 1

theorem witness_WatchdogTraps :
    (∀ c, nextCycle (dogState.nextOf 589823 7) = some c → (512 : Nat) < c) ∧
    gives (.watchdog 589823 7) dogState (fun t => decide ((t.grp 589823 7).st = .trapped) &&
      decide (bits (t.rd .tgpTrap 589823 7).toNat 20 16 = 0xC)) = true := by
  refine ⟨?_, by decide +kernel⟩
  have h : nextCycle (dogState.nextOf 589823 7) = some 600 := by decide +kernel
  intro c hc
  rw [h] at hc
  exact Option.some.inj hc ▸ by decide

theorem witness_SpecResults :
    runs (.specBegin 589823 7) (.spec .begin_ 15) { nest := [3, 2, 1] } (fun x => decide (x.nest = [15, 3, 2, 1])) = true ∧
    runs (.specEnd 589823 7) (.spec .end_ 0) { nest := [3] } (fun x => decide (x.nest = [])) = true ∧
    runs (.specConfirm 589823 7) (.spec .confirm 15) {} (fun x => decide (x.pc = 4)) = true ∧
    runs (.specSquash 589823 7) (.spec .squash 0) {} (fun x => decide (x.pc = 4)) = true ∧
    gives (.specBegin 589823 7) (at_ (.spec .begin_ 15) {}) (fun t => t.tagMsgs.any fun m =>
      decide (m.op = .open_) && decide (m.tag = 15)) = true := by decide +kernel

/-- Lane offsets 4 k in r2. -/
def offsets (d : Word) : Group :=
  { v := (List.range 8).map (fun k => ((2, k), BitVec.ofNat 32 (4 * k))) ++ (List.range 8).map fun k => ((1, k), d) }

theorem witness_LocalAccess :
    runs (.ld 589823 7) (.loc .ld 0 false 1 2 0) (offsets 0)
      (fun x => decide (x.lane 1 0 = encodeTile (.loc .ld 0 false 1 2 0)) && decide (x.lane 1 7 = 0)) = true ∧
    (at_ (.loc .ld 0 false 1 2 0) (offsets 0)).lsBytes 589823 = 37888 ∧
    gives (.st 589823 7) (at_ (.loc .st 0 false 1 2 1023) (offsets 0xCAFE)) (fun t =>
      decide ((t.sramWord 589823 4092).w = 0xCAFE) && decide ((t.sramWord 589823 4120).w = 0xCAFE) &&
        decide ((t.sramWord 589823 4124).w = 0)) = true := by decide +kernel

/-- Lane addresses in the pair r2, r3: tile 1, offset 64. -/
def farPair : Group := regs3 64 0x100 0

theorem witness_RemoteAccessSends :
    (List.replicate 8 (pairAddr farPair 2 0)).map (fun a => (addrSpace a, addrTile a)) = List.replicate 8 (0, 1) ∧
    remoteFault false (List.replicate 8 (pairAddr farPair 2 0)) = none ∧
    remoteFault true (List.replicate 8 (pairAddr farPair 2 0)) = none ∧
    runs (.rld 589823 7) (.rem .rld 0 false 1 2 1023) farPair (fun x => decide (x.pc = 4)) = true ∧
    gives (.rldu 589823 7) (at_ (.rem .rldu 0 false 1 2 0) farPair) (fun t =>
      decide (t.packets.map (fun p => (p.ty, p.dest, p.full)) = [(.rload, 1, 1 * 2 ^ 40 + 64)])) = true ∧
    runs (.rld 589823 7) (.rem .rld 0 false 1 2 1) (regs3 0 0x8FFFF00 0) (fun x =>
      decide (x.lane 1 7 = encodeTile (.rem .rld 0 false 1 2 1)) && decide (x.readyAt 1 = 603)) = true ∧
    gives (.rst 589823 7) (at_ (.rem .rst 0 false 1 2 0) farPair) (fun t =>
      decide (t.packets.map (fun p => (p.ty, p.dest, p.full)) = [(.rstore, 1, 1 * 2 ^ 40 + 64)]) &&
        decide ((t.grp 589823 7).rstOut.length = 1)) = true := by decide +kernel

/-- Out-slot 15 of the last tile, enabled, bound for in-slot 15 of tile 0, with credit for `n` words. -/
def outSlot (i : TInst) (x : Group) (n : Nat) : State :=
  let s := (at_ i x).wr .chnSlotCfg 589823 31 (BitVec.ofNat 64 (2 ^ 31 + 63 * 2 ^ 10))
  (s.wr .chnSlotDest 589823 31 (BitVec.ofNat 64 (15 * 2 ^ 24))).setSlot 589823 31 { credits := [n], full := n }

theorem witness_SendResults :
    [TInst.send false 0 false 15 false 2 0, .send true 0 false 15 false 2 0, .sendm 0 false 15 false 0 0 255].map (fun i =>
      issues (outSlot i (regs3 7 0 0) 256) 589823 7 600 i) = [true, true, true] ∧
    gives (.sendw 589823 7) (outSlot (.send false 0 false 15 false 2 0) (regs3 7 0 0) 1) (fun t =>
      decide (t.packets.map (fun p => (p.dest, p.dslot, p.body.map (·.w))) = [(0, 15, [7])]) &&
        decide ((t.slot 589823 31).credits = [0])) = true ∧
    gives (.sendv 589823 7) (outSlot (.send true 0 false 15 false 2 0) (regs3 7 0 0) 8) (fun t =>
      decide (t.packets.map (fun p => p.body.length) = [8]) && decide ((t.slot 589823 31).credits = [0])) = true ∧
    gives (.sendm 589823 7) (outSlot (.sendm 0 false 15 false 0 0 255) (regs3 7 0 0) 256) (fun t =>
      decide (t.packets.map (fun p => p.body.length) = [256]) && decide ((t.slot 589823 31).credits = [0])) = true := by
  decide +kernel

theorem witness_BuoyInstructionResults :
    ([(BOp.badd, Instr.badd 589823 7, (2 : BitVec 6), 7), (.barrive, .barrive 589823 7, 0x38, 1), (.bset, .bset 589823 7, 2, 7),
      (.bclear, .bclear 589823 7, 0x38, 0)].all fun e =>
        runs e.2.1 (.buoy e.1 0 false (.idx 1279) e.2.2.1) (regs3 7 0 0) (fun x => decide (x.opsOut = 1)) &&
        decide (buoyTarget (regs3 7 0 0) 589823 (.idx 1279) = some (64, 255, none)) &&
        gives e.2.1 (at_ (.buoy e.1 0 false (.idx 0) e.2.2.1) (regs3 7 0 0)) fun t => t.packets.any fun p => match p.buoy with
          | some m => decide (p.dest = bayPort 2303) && decide (m.block = 63) && decide (m.operand = e.2.2.2)
          | none => false) = true ∧
    gives (.badd 589823 7) (at_ (.buoy .badd 0 false (.idx 0) 2) { regs3 7 0 0 with rstOut := [0] }) (fun t =>
      decide ((t.til 589823).held.length = 1) && decide (t.packets = [])) = true := by decide +kernel

theorem witness_AwaitResults :
    runs (.bawaitge 589823 7) (.buoy .bawaitge 0 false (.idx 1023) 2) { regs3 7 0 0 with latch := .met }
      (fun x => decide (x.latch = .empty) && decide (x.pc = 4)) = true ∧
    runs (.bawaitflag 589823 7) (.buoy .bawaitflag 0 false (.idx 1023) 0x38) { latch := .met }
      (fun x => decide (x.latch = .empty) && decide (x.pc = 4)) = true ∧
    gives (.watchRelease 589823 7) (at_ (.buoy .bawaitge 0 false (.idx 1023) 2) {}) (fun t =>
      decide ((t.grp 589823 7).latch = .met) && decide (t.packets = [])) = true ∧
    gives (.watchRelease 589823 7) (at_ (.buoy .bawaitge 0 false (.idx 1023) 2) (regs3 1 0 0)) (fun t =>
      (t.grp 589823 7).watchSent && decide (t.packets.length = 1)) = true ∧
    gives (.watchRelease 589823 7) (at_ (.buoy .bawaitflag 0 false (.idx 1023) 0x38) {}) (fun t =>
      (t.grp 589823 7).watchSent && decide (t.packets.length = 1)) = true := by decide +kernel

theorem witness_ReadyInstructionIsNext :
    (at_ (.imm .addi 0 false 1 5) {}).sourcesOf 589823 (.imm .addi 0 false 1 5) = [1] ∧ portsOf (.imm .addi 0 false 1 5) = [] ∧
    (at_ (.reg .add 0 false 1 2 3 0) {}).nextOf 589823 7 = .go 600 (.reg .add 0 false 1 2 3 0) := by decide +kernel

/-! ### Packets and buoys -/

/-- The state with one packet, numbered 0. -/
def withPkt (s : State) (p : Packet) : State := { s with packets := [{ p with id := 0 }], nextPkt := 1 }

/-- A packet of a type at a tile, with a destination. -/
def pktAt (ty : PType) (st : PState) (t dest : Nat) : Packet := { id := 0, ty := ty, dest := dest, src := 5, at_ := t, st := st }

/-- Two RLOADs at tile 0 for the tile in the far corner: number 0 on VC1, in its L port since instant `since`, and number 1 on
virtual channel `vc` at input N, in reach of the same output. -/
def rivalHeads (since vc : Nat) : State :=
  let p : Packet := { pktAt .rload .flying 0 589823 with vc := 1, since := since }
  { State.reset with packets := [p, { p with id := 1, vc := vc, inPort := .n, since := 5 }], nextPkt := 2 }

/-- A head waits while VC0 is ready for its output (R343), while a head of its own channel has waited longer (R344), and goes
where it has waited longest itself. -/
theorem test_arbitration :
    ([(rivalHeads 5 0, 0), (rivalHeads 6 1, 0), (rivalHeads 4 1, 1), (rivalHeads 5 1, 1), (rivalHeads 5 2, 1)].map fun e =>
      gives (.packetHop e.2 .good) e.1 fun t => decide (t.packets.map (·.at_) = [0, 0])) = [true, true, true, false, true] := by
  decide +kernel

theorem witness_PacketHopMoves :
    let s := withPkt State.reset (pktAt .rload .flying 0 589823)
    let p := pktAt .rload .flying 0 589823
    s.pkt 0 = some p ∧ p.len ≤ 64 ∧ s.mayHop p = true ∧ dimensionOrder false 0 589823 = .e ∧ neighbour 0 .e = some 1 ∧
    s.outputDark 0 .e p = false ∧ s.lookup 0 p = none ∧
    s.boundaryOk 1 (dirNum .w) { p with at_ := 1, inPort := .w, hops := p.hops + hopTime p.inPort .e } = true ∧
    gives (.packetHop 0 .good) s (fun t => decide (t.packets.map (fun q => (q.at_, q.st)) = [(1, .flying)])) = true ∧
    gives (.packetHop 0 .good) (withPkt State.reset (pktAt .rload .flying 9 9)) (fun t =>
      decide (t.packets.map (fun q => (q.at_, q.st)) = [(9, .ejected)])) = true ∧
    (rivalHeads 5 0).mayHop { pktAt .rload .flying 0 589823 with vc := 1, since := 5 } = false ∧
    ((rivalHeads 5 0).packets.any fun q => decide (q.id = 1 ∧ q.vc = 0) && (rivalHeads 5 0).headReady q &&
      ((rivalHeads 5 0).outsOf q).contains .e) = true ∧
    gives (.packetHop 0 .good) (rivalHeads 5 0) (fun t => decide (t.rd .mshCountStall 0 = 1)) = true := by decide +kernel

/-- An item of five words at in-slot 15 of tile 1, whose slot holds up to `size` words. -/
def itemState (size : Nat) : State :=
  let s := (work State.reset 0 600).wr .chnSlotCfg 1 15 (BitVec.ofNat 64 (2 ^ 31 + (size / 4 - 1) * 2 ^ 10))
  withPkt s { pktAt .item .ejected 1 1 with dslot := 15, body := List.replicate 5 { w := 9 } }

theorem witness_ItemsAndSignalsArrive :
    (match (itemState 8).arrived 0 .item with
      | some p => !(itemState 8).yieldsSlot p && !(itemState 8).drainDiscards 1 15 p.sector &&
          decide ((itemState 8).slotSize 1 15 = 8)
      | none => false) = true ∧
    gives (.item 0 1) (itemState 4) (fun t => (t.slot 1 15).midItem && decide ((t.slot 1 15).queue.length = 4)) = true ∧
    gives (.item 0 2) (itemState 8) (fun t => decide ((t.slot 1 15).queue.map (·.tail) = [false, false, false, false, true])) = true ∧
    gives (.credit 0) (withPkt ((work State.reset 0 600).setSlot 1 31 { credits := [3], full := 4 })
      { pktAt .credit .ejected 1 1 with sslot := 15, count := 9 }) (fun t => decide ((t.slot 1 31).credits = [12])) = true ∧
    gives (.landingCompletion 589823 15) ((State.reset.sf F.chnSlotDone_mode 589823 15 1).setSlot 589823 15 { doneDue := [.none] })
      (fun t => decide ((t.til 589823).svc = [.flag 15 0 1 .none])) = true ∧
    gives (.landingCompletion 589823 15) ((State.reset.sf F.chnSlotDone_buoy 589823 15 1023).setSlot 589823 15
      { doneDue := [.none] }) (fun t => t.packets.any fun p => match p.buoy with
        | some m => decide (m.block = 63) && decide (m.index = 1023) | none => false) = true := by decide +kernel

/-- A compute tile 1 of field 0 with a request of a type for an offset. -/
def reqState (ty : PType) (off : Nat) : State :=
  withPkt (work (State.reset.sf F.tilRole_role 1 0 1) 0 600) { pktAt ty .ejected 1 1 with addr := off, full := 2 ^ 40 + off, serial := 7 }

theorem witness_RemoteRequestsQueueOrRefuse :
    (reqState .rload 0).lsBytes 1 = 37888 ∧ (reqState .rload 0).storeFull 1 = false ∧
    gives (.rload 0) ((reqState .rload 0).setTil 1 { svc := List.replicate 8 (.load (pktAt .rload .ejected 1 1)) }) (fun t =>
      decide (t.packets.length = 1) && t.storeFull 1) = true ∧
    ([PType.rload, .rstore].all fun ty => ([37824, 37888].all fun off => match (reqState ty off).arrived 0 ty with
      | some p => decide (addrSpace p.full = 0) && !(reqState ty off).stalePacket p | none => false)) = true ∧
    gives (.rload 0) (reqState .rload 37824) (fun t => decide ((t.til 1).svc.length = 1) && decide (t.packets = [])) = true ∧
    gives (.rload 0) (reqState .rload 37888) (fun t => decide (t.packets.map (fun q => (q.ty, q.dest)) = [(.rfail, 5)])) = true ∧
    gives (.rstore 0) (reqState .rstore 37824) (fun t => decide ((t.til 1).svc.length = 1) && decide (t.packets = [])) = true ∧
    gives (.rstore 0) (reqState .rstore 37888) (fun t =>
      decide (t.packets.map (fun q => (q.ty, q.dest, q.serial)) = [(.nack, 5, 7)])) = true := by decide +kernel

/-- Tile 1 with one request at its service port. -/
def portState (r : SvcReq) : State := (State.reset.setTil 1 { svc := [r] }).sramPut 1 64 { w := 0xABCD }

/-- Group 7 of the last tile stores into offsets 0 to 28 in cycle 600, and a request waits at its service port. -/
def sharedWord (r : SvcReq) : State :=
  let s := at_ (.loc .st 0 false 1 2 0) (offsets 0xCAFE)
  s.setTil 589823 { s.til 589823 with svc := [r] }

theorem witness_ServicePortServes :
    ((portState (.load (pktAt .rload .ejected 1 1))).svcNext 1).map (·.2.1) = some 0 ∧
    (let r : SvcReq := .load { pktAt .rload .ejected 1 1 with addr := 64 }
     (portState r).svcNext 1 = some (0, 0, r) ∧ (portState r).coreFirst 1 0 (svcTouches r) = false) ∧
    (let r : SvcReq := .load (pktAt .rload .ejected 589823 589823)
     (sharedWord r).svcNext 589823 = some (600, 0, r) ∧ (sharedWord r).coreFirst 589823 600 (svcTouches r) = true ∧
     gives (.servicePortAccess 589823) (sharedWord r) (fun t => decide ((t.til 589823).svc = [r]) && decide (t.packets = [])) = true) ∧
    gives (.servicePortAccess 1) (portState (.load { pktAt .rload .ejected 1 1 with addr := 64 })) (fun t =>
      t.packets.any fun q => decide (q.ty = .rdata) && decide (q.body.length = 16) && decide (q.body.head?.map (·.w) = some 0xABCD)) =
      true ∧
    gives (.servicePortAccess 1) (portState (.store { pktAt .rstore .ejected 1 1 with
      addr := 64, mask := 0x8001, body := List.replicate 16 { w := 3 } })) (fun t => decide ((t.sramWord 1 64).w = 3) &&
        decide ((t.sramWord 1 68).w = 0) && decide ((t.sramWord 1 124).w = 3) && t.packets.any fun q => q.ty = .ack) = true := by
  decide +kernel

/-- The reset state with every field started. -/
def upState : State := State.reset.sf F.stnStartupFields_running 0 0 (2 ^ 64 - 1)

/-- A register request of Keeper `n` for an address, come to where the register lies. -/
def kregState (n addr : Nat) (write : Option Word) : State :=
  withPkt upState { pktAt .kreg .ejected 0 0 with addr := addr, req := some (.keeper n), write := write }

theorem witness_KeeperAccesses :
    upState.barred 63 0xADFFC false = false ∧ (upState.fld 63).fogged = false ∧
    upState.windowHere .jtag 589823 0x9FFC none = none ∧
    gives (.kaccess .jtag 589823 ⟨0x9FFC, 4⟩ none) upState (fun t => t.packets.any fun q =>
      decide (q.ty = .kaccess) && decide (q.dest = 589823) && decide (q.vc = 2) && decide ((t.til 589823).svc = [])) = true ∧
    (let s := withPkt upState { pktAt .kaccess .ejected 589823 589823 with addr := 0x9FFC, req := some .jtag }
     (s.windowHere .jtag 589823 0x9FFC none).isSome = true ∧
     gives (.kaccess .jtag 589823 ⟨0x9FFC, 4⟩ none) s (fun t => decide ((t.til 589823).svc.length = 1) && decide (t.packets = [])) = true) ∧
    ([(589824, 0x9FFC, 4), (589823, 0x9FFC, 2), (589823, 0x9FFE, 4)].all fun e =>
      gives (.kaccess .jtag e.1 ⟨e.2.1, e.2.2⟩ none) upState fun t => decide (mfind t.answers .jtag = some (1, 0))) = true ∧
    gives (.kresp 0) (withPkt State.reset { pktAt .kresp .ejected 0 0 with req := some .jtag, body := [{ w := 4 }] })
      (fun t => decide (mfind t.answers .jtag = some (0, 4))) = true ∧
    upState.kregHere (.keeper 64) 0x10000 none = none ∧
    gives (.kreg 64 ⟨0x10000, 4⟩ none) upState (fun t => t.packets.any fun q => decide (q.ty = .kreg) && decide (q.addr = 0x10000)) = true ∧
    ((kregState 64 0x10000 none).kregHere (.keeper 64) 0x10000 none).isSome = true ∧
    gives (.kreg 64 ⟨0x10000, 4⟩ none) (kregState 64 0x10000 none) (fun t => t.packets.any fun q => decide (q.ty = .kregResp) &&
      decide (q.dest = t.keeperTile 64) && decide (q.status = 0) && decide (q.body.map (·.w) = [50000])) = true ∧
    gives (.kreg 64 ⟨0x10000, 4⟩ (some 40000)) (kregState 64 0x10000 (some 40000)) (fun t => t.packets.any fun q =>
      decide (q.ty = .kregResp) && decide (q.dest = t.keeperTile 64) && decide (q.status = 0) && decide (q.body = [])) = true ∧
    gives (.kregResp 0) (withPkt State.reset { pktAt .kregResp .ejected 0 0 with req := some (.keeper 63), status := 1 })
      (fun t => decide (mfind t.answers (.keeper 63) = some (1, 0))) = true := by decide +kernel

/-- Group 7 of the last tile with a load into r31 outstanding under tag 15, and a response to it. -/
def respondState (ty : PType) (rel : Nat) : State :=
  let l : Load := { id := 3, group := 7, dst := 31, lanes := [(0, 64), (7, 124)], waiting := [(15, 1)], issue := 600, rel := rel,
                    pc := 8, mark := .none, cached := false }
  let s := (work State.reset 63 700).setTil 589823 { loads := [l], tags := [(15, { taken := true, load := 3, block := 1 })] }
  withPkt (s.setGrp 589823 7 { st := .running, loading := [(31, 3)] }) { pktAt ty .ejected 589823 589823 with
    sslot := 15, body := (List.range 16).map fun j => { w := BitVec.ofNat 32 j } }

/-- A response to a load with REL = 0. -/
def loadState (ty : PType) : State := respondState ty 0

/-- Its data comes before its release point. -/
def waitingState (rel : Nat) : State := respondState .rdata rel

theorem witness_LoadResponses :
    (match (loadState .rdata).pkt 0 with
      | some p => ((loadState .rdata).loadFor p).isSome && p.body.all fun w => !w.bad | none => false) = true ∧
    gives (.rdata 0) (loadState .rdata) (fun t => decide ((t.grp 589823 7).lane 31 0 = 0) &&
      decide ((t.grp 589823 7).lane 31 7 = 15) && !(mget ({} : RTag) (t.til 589823).tags 15).taken) = true ∧
    gives (.rdata 0) (waitingState 1023) (fun t => decide ((t.grp 589823 7).v = []) &&
      decide ((t.til 589823).loads.map (·.got) = [[(0, 0), (7, 15)]])) = true ∧
    gives (.rfail 0) (loadState .rfail) (fun t => decide (t.rd .tgpTrap 589823 7 = 0x60008) &&
      decide (t.rd .tgpTrapAddr 589823 7 = 64)) = true ∧
    gives (.rpoison 0) (loadState .rpoison) (fun t => decide (t.rd .tgpTrap 589823 7 = 0xB0008)) = true := by decide +kernel

/-- Group 7 of the last tile with a load whose data came in cycle 700 and whose release point is 600 + `rel`. -/
def releaseState (rel : Nat) : State :=
  let l : Load := { id := 3, group := 7, dst := 31, lanes := [(0, 64)], waiting := [], issue := 600, rel := rel, pc := 8,
                    mark := .none, cached := false, doneAt := 700, got := [(0, 9)] }
  ((work State.reset 63 700).setTil 589823 { loads := [l] }).setGrp 589823 7 { loading := [(31, 3)], rstOut := [5, 6] }

theorem witness_ReleaseAndAcknowledge :
    gives (.releasePoint 589823 3) (releaseState 1) (fun t => decide ((t.grp 589823 7).readyAt 31 = 701) &&
      decide (t.rd .tilCountReleaseLate 589823 = 100)) = true ∧
    gives (.releasePoint 589823 3) (releaseState 1023) (fun t => decide ((t.grp 589823 7).readyAt 31 = 1623) &&
      decide ((t.grp 589823 7).lane 31 0 = 9)) = true ∧
    gives (.ack 0) (withPkt (releaseState 1) { pktAt .ack .ejected 589823 589823 with group := 7, serial := 5 })
      (fun t => decide ((t.grp 589823 7).rstOut = [6])) = true ∧
    gives (.nack 0) (withPkt (releaseState 1) { pktAt .nack .ejected 589823 589823 with group := 7, serial := 6, full := 64 })
      (fun t => decide ((t.grp 589823 7).st = .trapped) && decide (t.rd .tgpTrapAddr 589823 7 = 64)) = true := by decide +kernel

/-- A read of a control space at the bay port of field 0. -/
def spaceState (space : Nat) : State :=
  withPkt (work State.reset 0 600) { pktAt .rload .ejected 0 0 with full := space * 2 ^ 60 }

theorem witness_ControlSpaceReads :
    ((spaceState 3).til 5).loads = [] ∧
    gives (.controlSpaceRead 0) (spaceState 3) (fun t => t.packets.any fun q => decide (q.ty = .rdata) &&
      decide ((q.body.take 4).map (·.w) = [0, 0, 50000, 0])) = true ∧
    gives (.controlSpaceRead 0) (spaceState 2) (fun t => t.packets.any fun q => decide (q.ty = .rdata) &&
      decide ((q.body.take 4).map (·.w) = [2 ^ 30 + 600, 49936, 0, 0])) = true := by decide +kernel

theorem witness_LightListsAndFlush :
    gives (.flush (.keeper 0) 589823 0) (State.reset.setSlot 589823 0 { queue := [{ w := 1, mark := .none, bad := false, tail := true, src := 0, sslot := 0, didx := 0, stamp := 0 }] })
      (fun t => decide ((t.slot 589823 0).queue = []) && decide (t.rd .chnCountFlush 589823 0 = 1)) = true ∧
    gives (.flush (.keeper 0) 589823 31) State.reset (fun t => decide (t.rd .chnCountFlush 589823 31 = 1)) = true ∧
    State.reset.right .jtag 1 63 = false ∧ State.reset.drainModeOk 589823 = true ∧
    gives (.lightListWrite (.keeper 0) 589823 63 5) State.reset (fun t => decide (t.rd .mshLlEntry 589823 63 = 5)) = true ∧
    gives (.lightListWrite (.keeper 0) 589823 63 0x10000005) State.reset (fun t => decide (t.rd .mshLlEntry 589823 63 = 0x10000005) &&
      decide (t.rd .mshLlEntry 589823 31 = 0x10000005)) = true ∧
    gives (.lightListWrite .jtag 589823 63 5) State.reset (fun t => decide (t.rd .mshLlEntry 589823 63 = 0)) = true ∧
    (State.reset.fld 63).fogged = false ∧ State.reset.flag F.fkpStatus_restarting 63 = false ∧
    State.reset.flag F.mshLlEntry_valid 589823 31 = false ∧
    gives (.waferEntryRewrite 63 [(589823, 31, 5)]) State.reset (fun t => decide (t.rd .mshLlEntry 589823 63 = 0x10000005) &&
      decide (t.rd .mshLlEntry 589823 31 = 0x10000005)) = true ∧
    State.reset.flag F.mshEpoch_armed 63 (State.reset.gf F.mshSectorSel_sector 63) = false ∧ State.reset.fieldDown 63 = false ∧
    (let s := State.reset.sf F.mshTileSector_sector 589823 0 0
     s.epochGroup 63 0 = [0] ∧ s.flipping 63 0 = false ∧
     gives (.epochArm (.keeper 0) 63 256) s (fun t => t.flag F.mshEpoch_armed 63 0 &&
       decide (t.gf F.mshEpochCtl_watch_low 63 0 = 256)) = true ∧
     gives (.epochArm (.keeper 0) 63 256) (s.sf F.mshEpoch_armed 63 0 1) (fun t => decide (t.gf F.mshEpochCtl_watch_low 63 0 = 0)) =
       true) := by decide +kernel

/-- An operation on buoy `i` of block `b` from tile 0. -/
def buoyMsg (op : BuoyOp) (b i n : Nat) : BuoyMsg :=
  { op := op, block := b, index := i, operand := n, tile := 0, group := 0, sector := 0xFFF, parity := false }

theorem witness_BuoyTransportAndReplies :
    gives (.buoyOp 0) (withPkt State.reset { pktAt .buoyOp .ejected 0 0 with buoy := some (buoyMsg .add 0 1023 1) })
      (fun t => decide ((t.blk 0).arrived.length = 1) && decide (t.packets = [])) = true ∧
    gives (.buoyOp 0) (withPkt State.reset { pktAt .buoyOp .ejected 0 0 with buoy := some (buoyMsg .add 64 255 1) })
      (fun t => decide (t.trunk.length = 1)) = true ∧
    gives .buoyTrunkPacket { State.reset with trunk := [.op (buoyMsg .add 64 255 1) 0 64] }
      (fun t => decide ((t.blk 64).arrived = [(36, buoyMsg .add 64 255 1)])) = true ∧
    gives .buoyTrunkPacket { State.reset with trunk := [.op (buoyMsg .add 63 0 1) 0 63] }
      (fun t => decide ((t.blk 63).arrived.length = 1)) = true ∧
    gives (.buoyUnreachable 63) (State.reset.setBlk 63 { forwarded := [(buoyMsg .add 0 0 1, 10)] })
      (fun t => decide (t.now = 2058) && t.packets.any fun q => decide (q.status = 3)) = true ∧
    gives (.buoyNotice 0) (withPkt State.reset (pktAt .buoyNotice .ejected 0 0)) (fun t => decide ((t.grp 0 0).latch = .met)) = true ∧
    gives (.buoyNotice 0) (withPkt State.reset { pktAt .buoyNotice .ejected 0 0 with status := 1 })
      (fun t => decide ((t.grp 0 0).latch = .refused) && (t.til 0).withhold) = true ∧
    gives (.buoyAck 0) (withPkt (State.reset.setGrp 0 0 { opsOut := 2 }) { pktAt .buoyAck .ejected 0 0 with status := 3 })
      (fun t => decide ((t.grp 0 0).opsOut = 1) && (t.til 0).withhold) = true := by decide +kernel

/-- Buoy `i` of block `b` open to anyone, of a kind, with a count, and one operation waiting at its block in WORK. -/
def buoyState (b i kind count : Nat) (m : BuoyMsg) : State :=
  let s := (work State.reset b 600).wr .buyCfg b i (BitVec.ofNat 64 (setBits (setBits 0 F.buyCfg_kind.hi F.buyCfg_kind.lo kind)
    F.buyCfg_access.hi F.buyCfg_access.lo 2))
  (s.setBuoy b i { count := count }).setBlk b { arrived := [(35, m)] }

theorem witness_BuoyApplies :
    (buoyState 63 1023 0 7 (buoyMsg .add 63 1023 1)).buoyLate 63 (buoyMsg .add 63 1023 1) = false ∧
    (buoyState 63 1023 0 7 (buoyMsg .add 63 1023 1)).buoyBad 63 (buoyMsg .add 63 1023 1) = false ∧
    gives (.buoyApply 63) (buoyState 63 1023 0 16777215 (buoyMsg .add 63 1023 1))
      (fun t => decide ((t.buoy 63 1023).count = 16777215) && (t.buoy 63 1023).sat) = true ∧
    gives (.buoyApply 63) (buoyState 63 1023 0 7 (buoyMsg .add 63 1023 0xFFFFFF))
      (fun t => decide ((t.buoy 63 1023).count = 6)) = true ∧
    gives (.buoyApply 63) (buoyState 63 1023 2 7 (buoyMsg .set 63 1023 0)) (fun t => decide ((t.buoy 63 1023).count = 0)) = true ∧
    gives (.buoyApply 63) (buoyState 63 1023 3 7 (buoyMsg .clear 63 1023 0)) (fun t => decide ((t.buoy 63 1023).count = 7)) = true ∧
    gives (.buoyApply 63) (buoyState 63 1023 0 7 { buoyMsg .add 63 1023 1 with parity := true })
      (fun t => decide ((t.buoy 63 1023).count = 7) && decide (t.rd .buyCountLate 63 = 1)) = true := by decide +kernel

theorem witness_KeeperBuoyOperations :
    gives (.buyKopAdd (.keeper 0) 64 255) (State.reset.sf F.buyKopArg_operand 64 0 3) (fun t => decide ((t.buoy 64 255).count = 3)) = true ∧
    gives (.buyKopSet (.keeper 0) 63 1023) (State.reset.sf F.buyKopArg_operand 63 0 4) (fun t => decide ((t.buoy 63 1023).count = 4)) = true ∧
    gives (.buyKopClear (.keeper 0) 63 1023) (State.reset.setBuoy 63 1023 { count := 4, poison := true })
      (fun t => decide ((t.buoy 63 1023).count = 0) && !(t.buoy 63 1023).poison) = true ∧
    State.reset.right .jtag 1 63 = false := by decide +kernel

/-! ### Steering, speculation, drains and field store -/

/-- A word in a queue. -/
def qw (w : Word) (tail : Bool) (stamp : Nat) : QWord := { w := w, mark := .none, bad := false, tail := tail, stamp := stamp }

/-- Rule 3 of the last tile with operation `op`, its data inputs at slots 15 (an item of five words) and 14 (one of one
word), its control input at slot 2 holding `c`, its outputs 0 at in-slot 13 and 1 at out-slot 31. -/
def steerState (op order ctlEn trips rate : Nat) (c : Word) : State :=
  let t := 589823
  let cfg (s : State) (k v : Nat) : State := s.wr .chnSlotCfg t k (BitVec.ofNat 64 (2 ^ 31 + 2 ^ 10 + v))
  let s := work (State.reset.sf F.tilRole_role t 0 1) 63 600
  let s := s.wr .strRule t 3 (BitVec.ofNat 64 (2 ^ 31 + op * 2 ^ 28 + order * 2 ^ 27 + ctlEn * 2 ^ 26 + 3 * 2 ^ 24 +
    3 * 2 ^ 20 + 3 * 2 ^ 16))
  let s := s.wr .strRuleParam t 3 (BitVec.ofNat 64 (trips * 2 ^ 16 + rate))
  let s := cfg (cfg (cfg s 15 (2 ^ 28)) 14 (2 ^ 28 + 2 ^ 22)) 2 (2 ^ 28 + 3 * 2 ^ 22)
  let s := cfg (cfg s 13 (2 ^ 29)) 31 (2 ^ 29 + 2 ^ 20)
  let s := (s.setSlot t 15 { queue := (List.range 5).map fun j => qw (BitVec.ofNat 32 j) (decide (j = 4)) 3 }).setSlot t 14
    { queue := [qw 9 true 4] }
  (s.setSlot t 2 { queue := [qw c true 0] }).setSlot t 31 { credits := [8], full := 8 }

/-- The rule's firing. -/
def fires (s : State) (x : Firing) : Bool := decide (s.ruleReady 589823 3 = some x) && (s.nextRule 589823).any (·.1 = 3)

theorem witness_SteeringReadiness :
    (steerState 0 0 0 0 0 0).ruleIns 589823 3 = [15, 14] ∧ (steerState 0 0 0 0 0 0).ruleOuts 589823 3 = [13, 31] ∧
    fires (steerState 0 0 0 0 0 0) { src := some 15, outs := [13] } = true ∧
    fires (steerState 1 0 0 0 0 0) { src := some 15, outs := [13, 31] } = true ∧
    fires (steerState 2 0 1 0 0 5) { ctl := some 2, src := some 15, outs := [31] } = true ∧
    fires (steerState 2 0 1 0 0 2) { ctl := some 2, src := some 15, discard := true, fault := some 1 } = true ∧
    fires (steerState 3 0 1 0 0 0) { ctl := some 2, src := some 15, outs := [13] } = true ∧
    fires (steerState 3 1 0 0 0 0) { src := some 15, outs := [13] } = true ∧
    fires (steerState 4 0 1 0 0 0) { ctl := some 2, src := some 15, discard := true } = true ∧
    fires (steerState 4 0 1 0 0 7) { ctl := some 2, src := some 15, outs := [13] } = true ∧
    fires (steerState 5 0 0 4095 0 0) { src := some 15, outs := [13], loop := some (true, 4094) } = true ∧
    fires (steerState 5 0 0 0 0 0) { src := some 15, outs := [31], loop := some (false, 0) } = true ∧
    fires (steerState 6 0 0 0 0x23 0) { src := some 15, outs := [13], acc := some 1 } = true ∧
    fires (steerState 6 0 0 0 0x20 0) { src := some 15, discard := true, acc := some 1 } = true ∧
    fires (steerState 6 0 0 0 0x2F 0) { src := some 15, outs := [13], keep := true, acc := some 1, left := 4 } = true := by
  decide +kernel

/-- What a command leaves in in-slots 15 and 13, and how many item packets. -/
def moved (c : Instr) (s : State) (a b n : Nat) : Bool :=
  gives c s fun t => decide ((t.slot 589823 15).queue.length = a) && decide ((t.slot 589823 13).queue.length = b) &&
    decide ((t.packets.filter fun p => p.ty = .item).length = n)

theorem witness_SteeringFires :
    (steerState 0 0 0 0 0 0).steerActive 589823 = true ∧ (steerState 0 0 0 0 0 0).packets = [] ∧
    (steerState 0 0 0 0 0 0).drainDiscards 589823 13 ((steerState 0 0 0 0 0 0).sectorOf 589823) = false ∧
    (steerState 0 0 0 0 0 0).gf F.chnSlotCfg_landing 589823 13 = 0 ∧
    moved (.pass 589823 3) (steerState 0 0 0 0 0 0) 0 5 0 = true ∧ moved (.fork 589823 3) (steerState 1 0 0 0 0 0) 0 5 1 = true ∧
    moved (.switch 589823 3) (steerState 2 0 1 0 0 5) 0 0 1 = true ∧
    moved (.switch 589823 3) (steerState 2 0 1 0 0 2) 0 0 0 = true ∧
    moved (.mergeOrdered 589823 3) (steerState 3 0 1 0 0 0) 0 5 0 = true ∧
    moved (.mergeArrival 589823 3) (steerState 3 1 0 0 0 0) 0 5 0 = true ∧
    moved (.gate 589823 3) (steerState 4 0 1 0 0 0) 0 0 0 = true ∧ moved (.gate 589823 3) (steerState 4 0 1 0 0 7) 0 5 0 = true ∧
    moved (.loop 589823 3) (steerState 5 0 0 4095 0 0) 0 5 0 = true ∧ moved (.loop 589823 3) (steerState 5 0 0 0 0 0) 0 0 1 = true ∧
    moved (.rate 589823 3) (steerState 6 0 0 0 0x2F 0) 5 5 0 = true ∧ moved (.rate 589823 3) (steerState 6 0 0 0 0x20 0) 0 0 0 = true ∧
    gives (.loop 589823 3) (steerState 5 0 0 4095 0 0) (fun t => decide ((t.rule 589823 3).r = 4094)) = true ∧
    gives (.gate 589823 3) (steerState 4 0 1 0 0 0) (fun t => decide (t.rd .strCountDiscard 589823 3 = 1)) = true := by decide +kernel

/-- Sector 5's home, field 63, with one operation on tag 15 under way. -/
def tagMsgState (op : TagOp) (st : TagState) : State :=
  let s := ((work State.reset 63 600).sf F.mshTileSector_sector 589823 0 5).setTagSt 5 15 st
  { s with tagMsgs := [{ op := op, sector := 5, tag := 15, parity := s.parity 63, from_ := 0, cycle := 600 }] }

/-- The last tile, with a line of tag 15 in its shadow and a queued word of that tag, which its home holds as `st`. -/
def tagTileState (st : TagState) : State :=
  let line : ShadowLine := { block := 592, tag := 15, mask := 1 + 2 ^ 63, data := [(0, 7), (63, 8)] }
  let s := (work State.reset 63 600).setTil 589823 { shadow := [(31, line)] }
  (s.setSlot 589823 15 { queue := [{ qw 1 true 0 with mark := .tag 15 }, qw 2 true 0] }).setTagSt (s.sectorOf 589823) 15 st

theorem witness_TagsResolve :
    gives (.tagOp ((tagMsgState .squash .open_).homeOf 5)) (tagMsgState .squash .open_)
      (fun t => decide (t.tagSt 5 15 = .squashed) && decide (t.tagMsgs = [])) = true ∧
    gives (.tagOp ((tagMsgState .squash .open_).homeOf 5)) (tagMsgState .squash .committed)
      (fun t => decide (t.tagSt 5 15 = .committed)) = true ∧
    gives (.tagOp ((tagMsgState .squash .open_).homeOf 5)) (tagMsgState .confirm .open_)
      (fun t => decide (t.tagSt 5 15 = .committed)) = true ∧
    gives (.tagOp ((tagMsgState .squash .open_).homeOf 5)) (tagMsgState .open_ .free)
      (fun t => decide (t.tagSt 5 15 = .open_)) = true ∧
    gives (.resolution 589823 15) (tagTileState .committed) (fun t => decide (t.sramByte 589823 37888 = 7) &&
      decide (t.sramByte 589823 37889 = 0) && decide (t.sramByte 589823 37951 = 8) && decide ((t.til 589823).shadow = []) &&
      decide ((t.slot 589823 15).queue.length = 2)) = true ∧
    gives (.resolution 589823 15) (tagTileState .squashed) (fun t => decide (t.sram = []) && decide ((t.til 589823).shadow = []) &&
      decide ((t.slot 589823 15).queue = [qw 2 true 0])) = true := by decide +kernel

/-- The last tile of sector 2303 in field 63 in SETTLE, with two tags unresolved. -/
def sweepState : State :=
  let s := ((work State.reset 63 600).sf F.mshTileSector_sector 589823 0 2303).setTagSt 2303 15 .open_
  (s.setFld 63 { s.fld 63 with phase := .settle }).setTagSt 2303 0 .held

/-- Field 63 draining sector 2303, whose one tile has `q` in in-slot 15, since cycle 500. -/
def drainState (q : List QWord) : State :=
  let s := ((work State.reset 63 600).sf F.mshTileSector_sector 589823 0 2303).wr .chnSlotCfg 589823 15 (BitVec.ofNat 64 (2 ^ 31))
  let s := (s.setSlot 589823 15 { queue := q }).sf F.strDrainBound_bound 63 2303 1000
  s.setFld 63 { s.fld 63 with draining := [(2303, 500)] }

theorem witness_SweepAndDrains :
    sweepState.homeOf 2303 = 63 ∧ (sweepState.sectorsIn 63).contains 2303 = true ∧
    gives (.specSweep 63 2303) sweepState (fun t => (List.range 16).all fun k => decide (t.tagSt 2303 k = .squashed)) = true ∧
    gives (.drainStart (.keeper 64) 63 2303) (work State.reset 63 600) (fun t => t.isDraining 63 2303 &&
      decide (t.gf F.strDrainStatus_state 63 = 1)) = true ∧
    gives (.drainStart .jtag 63 2303) (work State.reset 63 600) (fun t => !(t.isDraining 63 2303)) = true ∧
    (drainState []).sectorEmpty 63 2303 = true ∧ (drainState [qw 1 true 0]).sectorEmpty 63 2303 = false ∧
    gives (.drainComplete 63 2303) (drainState []) (fun t => t.isQuiesced 63 2303) = true ∧
    gives (.drainTimeout 63 2303) (drainState [qw 1 true 0]) (fun t => decide (t.gf F.strDrainStatus_state 63 = 3) &&
      decide ((t.slot 589823 15).queue = []) && decide (1500 ≤ t.now)) = true := by decide +kernel

/-- Region 255 of field 63, of a kind, at its last 4 KiB, open to anyone, with a quota of one entry; a request of a type for
its last block at a bay port of the field, of which bytes 0 to 3 and 60 to 63 are written. -/
def regionState (kind quota : Nat) (ty : PType) : State :=
  let s := (work State.reset 63 600).wr .fstRegionCfg 63 255 (BitVec.ofNat 64 (2 ^ 31 + kind * 2 ^ 29 + 2 * 2 ^ 27 + quota * 2 ^ 13 + 0xFFF))
  let s := s.wr .fstRegionSpan 63 255 (BitVec.ofNat 64 (16383 * 2 ^ 16))
  let p := { pktAt ty .ejected 589823 589823 with full := 2 ^ 60 + 63 * 2 ^ 40 + (2 ^ 26 - 64), mask := 0x8001, serial := 9,
                                                   body := List.replicate 16 { w := 0x01020304 } }
  withPkt s p

/-- The same request waiting at its bay port. -/
def bankState (kind quota : Nat) (ty : PType) : State :=
  let s := regionState kind quota ty
  { s with packets := [], bayQueues := [(2303, s.packets)], fst := [(fstAddr 63 (2 ^ 26 - 64), 5)] }

theorem witness_FieldStoreServes :
    ([0, 1].all fun k => match (regionState k 1 .rload).fsArrived 0 with
      | some p => fsAddrOk 63 p.full && (regionState k 1 .rload).fsAdmits 63 p && decide (bayOf p.at_ = 2303) | none => false) = true ∧
    gives (.fieldStoreRequest 0) (regionState 0 1 .rload) (fun t => decide ((mget [] t.bayQueues 2303).length = 1)) = true ∧
    gives (.fieldStoreRequest 0) (regionState 2 1 .rstore) (fun t => decide (t.packets.map (·.ty) = [.nack]) &&
      decide (t.rd .fstCountRefused 63 = 1)) = true ∧
    (bankState 0 1 .rload).bankTurn 63 31 = [2303] ∧ scrubSlot 31 ((bankState 0 1 .rload).cycle 63) = false ∧
    gives (.fieldStoreBankAccess 63 31 2) (bankState 0 1 .rload) (fun t => t.packets.any fun q => decide (q.ty = .rdata) &&
      decide (q.body.head?.map (·.w) = some 5)) = true ∧
    gives (.fieldStoreBankAccess 63 31 2) (bankState 0 1 .rstore) (fun t => decide (t.fstByte 63 (2 ^ 26 - 64) = 4) &&
      decide (t.fstByte 63 (2 ^ 26 - 1) = 1) && decide (t.fstByte 63 (2 ^ 26 - 5) = 0) && decide (t.journal = [])) = true ∧
    gives (.fieldStoreBankAccess 63 31 2) (bankState 1 1 .rstore) (fun t => decide (t.journal.length = 1) &&
      decide (t.fstByte 63 (2 ^ 26 - 64) = 5) && t.packets.any fun q => decide (q.ty = .ack) && decide (q.serial = 9)) = true := by
  decide +kernel

theorem witness_JournalAndScrub :
    gives (.journalApply 63) { State.reset with journal := [{ field := 63, sector := 2303, block := 1048575, region := 255
                                                              mask := 2 ^ 63, data := [(63, 7)], committed := true }] }
      (fun t => decide (t.fstByte 63 (2 ^ 26 - 1) = 7) && decide (t.journal = [])) = true ∧
    gives (.fstScrub 63 31 16383 (some (15, true))) State.reset (fun t => t.fstMarked 63 (2 ^ 26 - 1) &&
      t.flag F.fstStatus_poison 63) = true ∧
    gives (.fstScrub 63 31 16383 (some (15, false))) State.reset (fun t => decide (t.rd .fstCountEccCorr 63 = 1)) = true := by
  decide +kernel

/-! ### Lenses, the MV engine and staging -/

/-- Region 255 of field 63 at its last 4 KiB, SCRATCH and open to anyone, of a field in WORK. -/
def scratchState : State :=
  ((work State.reset 63 600).wr .fstRegionCfg 63 255 (BitVec.ofNat 64 (2 ^ 31 + 2 * 2 ^ 27 + 0xFFF))).wr .fstRegionSpan 63 255
    (BitVec.ofNat 64 (16383 * 2 ^ 16))

/-- Registers of consecutive indices set. -/
def wrs (s : State) (r : Reg) (u i : Nat) (vs : List Nat) : State :=
  ((List.range vs.length).zip vs).foldl (fun s e => s.wr r u (i + e.1) (BitVec.ofNat 64 e.2)) s

/-- Lens 255 whole, with descriptor 127 of a kind: two rows and one column, I8 weights and activations, I32 results, at the end
of field 63's store: weights 3 and -1, activations 5 and 2. -/
def lensState (kind : Nat) : State :=
  let s := (scratchState.sf F.lnsMode_mode 255 0 1).sf F.clkRunning_run 0 63 8
  let a := 2 ^ 26 - 64
  let s := wrs s .lnsDesc 255 (127 * 16) [2 ^ 31 + kind * 2 ^ 29 + 3 * 2 ^ 20 + 3 * 2 ^ 16 + 0xFFF, 0, 2 ^ 16, a, a + 16, a + 32,
    2 ^ 16 + 1, 2 * 2 ^ 16, 2 * 2 ^ 16 + 257, 2 ^ 24 + 2 ^ 16 + 257, 0, 0, 2 ^ 16 + 1, 2 ^ 16 + 1]
  { s with fst := [(fstAddr 63 a, 3), (fstAddr 63 (a + 1), 255), (fstAddr 63 (a + 16), 5), (fstAddr 63 (a + 17), 2)] }

/-- The launch of descriptor 127 of lens 255. -/
def launch : Packet := { pktAt .rload .ejected 589823 589823 with full := 2 * 2 ^ 60 + 589823 * 2 ^ 40 + 0xFFC0, id := 0 }

/-- A pass of it. -/
def pass (ready : Bool) : LensPass := { pkt := launch, desc := 127, seq := 4, accept := 700, readyAt := 700, begun := 700, ready := ready }

/-- The lens with the weights loaded. -/
def loadedLens (x : LensSt) : LensSt := { x with loaded := [(0, 0, 0)], planes := [((0, 0, 0), 3), ((0, 1, 0), 255)] }

theorem witness_LensLaunches :
    launchOf launch.full = (3, 127) ∧ (lensState 0).launchBad 63 255 127 launch = false ∧
    (lensState 3).launchBad 63 255 127 launch = true ∧
    gives (.lensLaunch 0) (withPkt (lensState 0) launch) (fun t => decide ((t.lens 255).queue.length = 1)) = true ∧
    gives (.lensLaunch 0) (withPkt (lensState 3) launch) (fun t => decide (t.packets.map (·.ty) = [.rfail])) = true ∧
    ([0, 1, 2].all fun k => gives (.lensPassAccept 63 3) ((lensState k).setLens 255 { queue := [(launch, 722)] }) fun t =>
      match (t.lens 255).next with
        | some q => decide (q.ready = (k = 0)) && decide ((t.lens 255).engine.length = min k 1) | none => false) = true := by
  decide +kernel

theorem witness_LensLoads :
    (lensState 1).readElem 63 0xFFF (2 ^ 26 - 64) 1 8 = .ok 255 ∧
    ([1, 2].all fun k =>
      let j : LoadJob := { preload := none, desc := 127, asked := 700, from_ := 700 }
      let s := (lensState k).setLens 255 { next := some (pass false), engine := [j] }
      gives (.lensLoadComplete 63 3 2 1 0) s fun t => decide ((t.lens 255).engine = []) &&
        decide (mget 0 (t.lens 255).planes (0, 1, 0) = 255) && decide ((t.lens 255).next.isSome = (k = 1))) = true := by decide +kernel

theorem witness_LensPassesRun :
    gives (.lensPassExec 63 3) ((lensState 0).setLens 255 (loadedLens { next := some (pass true) }))
      (fun t => (t.lens 255).exec.isSome) = true ∧
    gives (.lensPassExec 63 3) ((lensState 0).setLens 255 { next := some (pass true) })
      (fun t => (t.lens 255).exec.isNone && t.flag F.lnsStatus_refused 255) = true ∧
    gives (.lensPassComplete 63 3 2 1 0 none) ((lensState 0).setLens 255 (loadedLens { exec := some (pass true) }))
      (fun t => decide (t.fstByte 63 (2 ^ 26 - 32) = 13) && decide (t.fstByte 63 (2 ^ 26 - 31) = 0) &&
        t.packets.any fun q => decide (q.ty = .rdata) && decide (q.body.head?.map (·.w) = some 0x40000)) = true ∧
    gives (.lensStretch 63 3) ((lensState 0).setLens 255 { exec := some (pass true), lastStretch := some 712 })
      (fun t => decide ((t.lens 255).stretch = 1)) = true ∧ (lensState 0).lensCycle 63 = 720 := by decide +kernel

/-- Descriptor 63 of field 63's MV engine: two rows of two I8 weights, one vector, and its launch. -/
def mvState : State :=
  let a := 2 ^ 26 - 64
  let s := wrs ((scratchState.sf F.clkEnable_en 0 63 16).sf F.clkRunning_run 0 63 16) .mveDesc 63 (63 * 16) [2 ^ 31 + 3 * 2 ^ 20 + 3 * 2 ^ 16 + 0xFFF, 2 ^ 16 + 1, 0, a, 2,
    a + 16, 2, a + 32, 8]
  { s with fst := [(fstAddr 63 a, 3), (fstAddr 63 (a + 1), 255), (fstAddr 63 (a + 3), 1), (fstAddr 63 (a + 16), 5), (fstAddr 63 (a + 17), 2)] }

/-- The launch of descriptor 63. -/
def mvLaunch : Packet := { launch with full := 2 * 2 ^ 60 + 589823 * 2 ^ 40 + 0x7FC0 }

theorem witness_MvOperationsRun :
    mvLaunchOf mvLaunch.full = 63 ∧ mvState.mvBad 63 63 mvLaunch = false ∧
    gives (.mvLaunch 0) (withPkt mvState mvLaunch) (fun t => decide ((t.mv 63).queue.length = 1)) = true ∧
    gives (.mvOperationBegin 63) (mvState.setMv 63 { queue := [(mvLaunch, 602)] }) (fun t => (t.mv 63).exec.isSome) = true ∧
    gives (.mvOperationComplete 63 1 1 0) (mvState.setMv 63 { exec := some (mvLaunch, 5, 602) }) (fun t =>
      decide (t.fstByte 63 (2 ^ 26 - 32) = 13) && decide (t.fstByte 63 (2 ^ 26 - 28) = 2) &&
      t.packets.any fun q => decide (q.ty = .rdata)) = true := by decide +kernel

/-- Transfer 9 of device 15 into region 255 of field 63, STAGED and FILLING, of 17 lines over one lane. -/
def orderState (o : Order) : State :=
  let s := ((scratchState.sf F.fstRegionCfg_kind 63 255 2).sf F.fstRegionCfg_state 63 255 1).sf F.clkRunning_run 0 65 (2 ^ 31)
  { s.sf F.stnStartupPorts_cxl 0 0 0x8000 with orders := [o] }

/-- The transfer. -/
def order9 : Order :=
  { plan := { transfer := 9, device := 15, source := 0, lines := 17, field := 63, region := 255, offset := 47, lanes := [(5, 35)], lead := 1 },
    sector := 2303, target := 0, begin_ := 0 }

theorem witness_StagingMoves :
    (orderState order9).engineUp 15 = true ∧ (orderState order9).orderBegun order9 = true ∧
    gives (.cxlReadComplete 9 16 [7] false 0) (orderState order9) (fun t => match t.order 9 with
      | some o => decide (mfind o.arrived 16 = some (7 :: List.replicate 15 0)) | none => false) = true ∧
    gives (.cxlReadComplete 9 16 [7] true 0) (orderState order9) (fun t => (t.order 9).isNone) = true ∧
    gives (.cxlMemTimeout 15 (some 9)) (orderState order9) (fun t => decide (t.gf F.fstRegionCfg_state 63 255 = 3)) = true ∧
    gives (.stageLaneInject 9 0) (orderState { order9 with arrived := [(16, [1, 2])], sent := [(0, 16)], last := [(0, 472)] }) (fun t =>
      t.packets.any fun q => decide (q.ty = .stage) && decide (q.addr = 2 ^ 26 - 64)) = true ∧
    rimPort 15 768 = .w ∧
    gives (.stageLaneInject 9 0) (orderState { order9 with plan := { order9.plan with lanes := [(768, 35)] }, arrived := [(0, [1, 2])] })
      (fun t => t.packets.any fun q => decide (q.at_ = 768) && decide (q.inPort = .w)) = true ∧
    gives (.stage 0) (withPkt (orderState order9) { pktAt .stage .ejected 589823 589823 with addr := 2 ^ 26 - 64, body := List.replicate 16 { w := 0x0A000001 } })
      (fun t => decide (t.fstByte 63 (2 ^ 26 - 1) = 10) && decide (t.gf F.fstRegionFill_accepted 63 255 = 1)) = true ∧
    gives (.stageNotify 63 9) ((orderState { order9 with completeAt := some 3 }).sf F.mshTileSector_sector 589823 0 2303)
      (fun t => match t.order 9 with | some o => decide (o.notified = [63]) | none => false) = true ∧
    gives (.cxlWriteComplete 15) { orderState order9 with destages := [{ sector := 2303, plan :=
        { field := 63, region := 255, device := 15, offset := 0, length := 64, target := 128 } }] }
      (fun t => decide (t.out = [.cxlWrite 15 128 (List.replicate 16 0)]) && decide (t.destages = [])) = true := by decide +kernel

/-! ### Watches, the planner, rings and peers -/

/-- A running sector 2303 of one character in field 63, and with `two` in field 62 too, whose watch is in a phase. -/
def watchState (two : Bool) (ph : Phase) : State :=
  let c : ImgChar := { id := 0, point := 0, t := 1000, b := 0, power := [(0, 0)], slots := [(0, 0, 0)], transfers := [], destages := [] }
  let tb : ImgTable := { sector := 2303, count := 1, reference := 0, recovery := 0, fallback := 0, points := [(1000, 1200)], slots := 1,
                         chars := [c], tiles := [] }
  let s := ((work State.reset 63 600).sf F.mshTileSector_sector 589823 0 2303).sf F.stnImageLoaded_state 0 0 3
  let s := if two then s.sf F.mshTileSector_sector (589823 - 96) 0 2303 else s
  let s := (s.sf F.bcnStatus_running 0 0 1).sf F.stnStartupFields_running 0 0 (2 ^ 64 - 1)
  (s.setFld 63 { s.fld 63 with phase := ph, expectAt := some 50000 }).setSec 2303 { table := tb }

theorem witness_LensPreload :
    let s := (lensState 1).sf F.lnsDesc_word 255 2032 (2 ^ 31 + 2 ^ 29 + 3 * 2 ^ 20 + 3 * 2 ^ 16 + 2303)
    let s := s.wr .lnsPreload 255 15 (BitVec.ofNat 64 (2 ^ 63 + 127 * 2 ^ 56 + 2 ^ 48 + 49935))
    let s : State := { s.sf F.stnImageLoaded_state 0 0 3 with sectors := (watchState false .work).sectors }
    gives (.lensPreload 63 3 15) s (fun t => decide ((t.lens 255).preloaded = [15]) && decide ((t.lens 255).engine.length = 1) &&
      decide (t.now = 49936)) = true := by decide +kernel

/-- Field 63 at rest in watch 6, the station in watch 7, its Keeper's beat in order. -/
def restState (coast : Bool) : State :=
  let s := (watchState false .rest).sf F.bcnWatch_watch 0 0 7
  (s.sf F.fkpHeartbeat_watch 63 0 6).setFld 63 { s.fld 63 with watch := 6, coast := coast }

theorem witness_BeaconsBeginWatches :
    (let s : State := { State.reset with stepsDone := [6], periodWrites := [(30000, 1), (20000, 2)] }
     s.imageLoaded = false ∧ s.beaconStepDone = true ∧
     gives (.bcnPeriodWrite .jtag 10000) s (fun t => decide (t.periodWrites.filter (·.2 = 2) = [(10000, 2)]) &&
       t.periodWrites.contains (30000, 1)) = true) ∧
    (watchState false .work).imageLoaded = true ∧
    gives (.bcnPeriodWrite .jtag 10000) (watchState false .work) (fun t => decide (t.periodWrites = []) &&
      (mfind (t.ring 64).slots 0).any fun e => decide (e.code = evCode evAccessRefused)) = true ∧
    gives (.bcnSettleLenWrite .jtag 1024) State.reset (fun t => decide (t.settleDue = []) &&
      (mfind (t.ring 64).slots 0).any fun e => decide (e.code = evCode evAccessRefused)) = true ∧
    ((restState false).inSkew 49968 && (restState false).inSkew 50032) = true ∧
    gives (.fieldWatchBegin 63 49950) ((restState false).sf F.bcnSkewComp_comp 63 0 40) (fun t => decide ((t.fld 63).startAt = 49990)) = true ∧
    gives .stationBeacon (restState false) (fun t => decide (t.gf F.bcnWatch_watch = 8)) = true ∧
    (restState false).awaitsBeacon 63 = true ∧
    ([49968, 50032].all fun a => gives (.fieldWatchBegin 63 a) (restState false) fun t => decide ((t.fld 63).watch = 7) &&
      decide ((t.fld 63).startAt = a) && decide ((t.fld 63).nCycles = 49936)) = true ∧
    gives (.fieldWatchBegin 63 50033) (restState false) (fun t => decide ((t.fld 63).watch = 6)) = true ∧
    gives (.beaconMissed 63) (restState false) (fun t => (t.fld 63).coast && decide ((t.fld 63).startAt = 50032)) = true ∧
    gives (.beaconMissed 63) (restState true) (fun t => (t.fld 63).held && (t.fld 63).fogged) = true := by decide +kernel

theorem witness_WatchPhases :
    gives (.workBegin 63) (watchState false .intake) (fun t => decide ((t.fld 63).phase = .work)) = true ∧
    (watchState true .work).running 63 = [2303] ∧ (watchState true .work).multiField 2303 = true ∧
    gives (.settleBegin 63) (watchState true .work) (fun t => decide ((t.fld 63).votesSent = [(2303, true)])) = true ∧
    gives (.settleBegin 63) ((watchState true .work).sf F.tilRole_role 589823 0 1 |>.setTil 589823 { active := 1 })
      (fun t => decide ((t.fld 63).overrun = [2303]) && decide ((t.fld 63).votesSent = [(2303, false)])) = true ∧
    gives (.verdictVote 63 62 2303 true) ((watchState true .work).setFld 62 { votesSent := [(2303, true)] })
      (fun t => decide ((t.fld 63).votes = [(2303, 62, true)])) = true ∧
    gives (.commitPoint 63) { watchState false .settle with journal := [{ field := 63, sector := 2303, block := 0, region := 0 }] }
      (fun t => decide ((t.fld 63).voids = []) && decide (t.journal.map (·.committed) = [true])) = true ∧
    gives (.commitPoint 63) { (watchState false .settle).setFld 63 { (watchState false .settle).fld 63 with overrun := [2303] } with
                              journal := [{ field := 63, sector := 2303, block := 0, region := 0 }] }
      (fun t => decide ((t.fld 63).voids = [(2303, .workOverrun)]) && decide (t.journal = [])) = true ∧
    gives (.handoverBegin 63 (2 ^ 33) [] true) (watchState false .commit) (fun t => decide ((t.fld 63).phase = .handover) &&
      decide (t.gf F.pwrEnergyWatch_nj 63 = 0xFFFFFFFF)) = true ∧
    gives (.restIntervalBegin 63 900) (watchState false .handover) (fun t => decide ((t.fld 63).phase = .rest)) = true := by
  decide +kernel

theorem witness_PlanningRounds :
    (watchState false .commit).verdictsIn = true ∧ (watchState false .commit).flag F.bcnStatus_running = true ∧
    (watchState false .commit).planAt ≠ some (watchState false .commit).stationWatch := by decide +kernel

/-- Ring 255 of function 63 of port 3 enabled with 2^15 entries, one of them produced, bound to slot 0 of sector 2303, whose
tenant is 262143 and whose home, field 63, has its intake and outbox regions. -/
def ringState : State :=
  let s := (watchState false .work).sf F.hstRingCfg_size_log2 65535 0 15
  let s := (s.sf F.hstRingCfg_enable 65535 0 1).sf F.stnStartupPorts_pcie 0 0 8
  let s := (s.wr .fstRegionCfg 63 0 (BitVec.ofNat 64 (2 ^ 31 + 2303))).wr .fstRegionCfg 63 1 (BitVec.ofNat 64 (2 ^ 31 + 2 ^ 29 + 2303))
  let s := s.wr .fstRegionSpan 63 1 (BitVec.ofNat 64 (2 ^ 16))
  (s.setHslot 2303 0 { tenant := some 262143, ring := some 65535 }).setHring 65535 { reqTail := 1 }

/-- A whole request of tenant 262143. -/
def entry : List Nat := [262143 + 2 ^ 24 + 2 ^ 25, 48, 7, 1] ++ List.replicate 12 3

theorem witness_RingsRun :
    ringNum 3 63 255 = 65535 ∧ entryOk [] entry = true ∧ (ringState.slotAreas 2303 0).isSome = true ∧
    ringState.slotOfRing 65535 = some (2303, 0) ∧ ringState.mayFetch 65535 = true ∧
    gives (.hstDbReqTail 3 63 255 32768) ringState (fun t => t.flag F.hstRingCfg_enable 65535) = true ∧
    gives (.hstDbReqTail 3 63 255 32769) ringState (fun t => !(t.flag F.hstRingCfg_enable 65535) && t.flag F.hstRingState_fault 65535) = true ∧
    gives (.ringFetch 3 63 255 [entry]) ringState (fun t => decide ((t.hslot 2303 0).owned.map (·.reqId) = [2 ^ 32 + 7]) &&
      decide ((t.hring 65535).reqHead = 1)) = true ∧
    gives (.hostDmaFault 3 63 255) ringState (fun t => t.flag F.hstRingState_fault 65535) = true ∧
    gives (.resultPush 3 63 255 1) (ringState.setHring 65535 { results := [rimResult 5 6 0], resTail := 2 ^ 32 - 1, resHead := 2 ^ 32 - 1 })
      (fun t => decide ((t.hring 65535).resTail = 0) && decide (t.out.length = 2)) = true ∧
    gives (.hstRingCfgWrite (.host 3 0) 3 63 255 (2 ^ 31 + 15)) State.reset (fun t => t.flag F.hstRingCfg_enable 65535) = true ∧
    gives (.hstRingCfgWrite (.host 3 63) 3 63 255 0) ringState (fun t => !(t.flag F.hstRingCfg_enable 65535)) = true ∧
    gives (.functionLevelReset 3 63) ringState (fun t => !(t.flag F.hstRingCfg_enable 65535)) = true := by decide +kernel

/-- Link 7 trained, its next frame the last of the count; the ring 255 of port 3's physical function bound as in `ringState`. -/
def linkState : State :=
  let s := ((ringState.setHslot 2303 0 { tenant := some 262143, ring := some (ringNum 3 0 255) }).sf F.jlfCfg_enable 0 7 1).sf
    F.stnStartupPorts_jalfen 0 0 0x80
  s.setJlf 7 { rx := 65535, credit := 16000, uncovered := [(1, [])] }

theorem witness_PeersExchange :
    linkState.linkUp 7 = true ∧ linkState.fabric 7 = false ∧
    gives (.jalfenBeat 7 true 65535) linkState (fun t => (t.jlf 7).beat && decide ((t.jlf 7).rx = 0)) = true ∧
    gives (.jalfenKeeper 7 true 65535) linkState (fun t => decide ((t.jlf 7).rx = 0)) = true ∧
    gives (.jalfenCredit 7 true 65535 400) linkState (fun t => decide ((t.jlf 7).credit = 16384) && decide ((t.jlf 7).uncovered = [])) = true ∧
    gives (.jalfenNotice 7 true 65535 3 255 0 9) linkState (fun t => t.flag F.stnPeerStatus_broken 0 7) = true ∧
    gives (.jalfenNotice 7 true 65535 0 255 0 9) linkState (fun t => !(t.flag F.stnPeerStatus_broken 0 7)) = true ∧
    gives (.jalfenData 7 true 65535 255 [entry]) linkState (fun t => decide ((t.hslot 2303 0).owned.length = 1)) = true ∧
    gives (.jalfenBeat 7 false 65535) linkState (fun t => !(t.linkUp 7) && decide (t.rd .jlfCountCrc 0 7 = 1)) = true ∧
    gives (.jalfenIdleBeat 7) linkState (fun t => decide (t.now = 100000)) = true ∧
    gives (.peerLost 7) linkState (fun t => t.flag F.stnPeerStatus_lost 0 7 && t.flag F.stnPeerStatus_broken 0 7) = true ∧
    gives (.peerBreak .jtag 7) linkState (fun t => t.flag F.stnPeerStatus_broken 0 7) = true ∧
    gives (.peerBreak (.host 0 1) 7) linkState (fun t => !(t.flag F.stnPeerStatus_broken 0 7)) = true ∧
    gives (.peerClear (.host 0 0) 7) ((linkState.setJlf 7 { beat := true }).sf F.stnPeerStatus_broken 0 7 1)
      (fun t => !(t.flag F.stnPeerStatus_broken 0 7)) = true := by decide +kernel

/-! ### Power, clocks, resets and start-up -/

/-- The last bay in a state of its gate, with what the model keeps of it; the beacon does not run. -/
def bayPowerState (st : Nat) (y : BayPower) : State :=
  { (work State.reset 63 600).sf F.pwrBayState_state 63 35 st with bays := [(2303, y)] }

theorem witness_RailsAndGates :
    (([0, 127, 132].all fun r => [false, true].all fun fault =>
      let x : RailReading := { rail := r, vout := 65535, iout := 1023, fault := fault, timeout := false }
      let s := State.reset.sf F.pwrRailStatus_enabled 0 r 1
      [Instr.railTelemetryPoll [x], Instr.pmbAlert [x]].all fun c => gives c s fun t =>
        decide (t.gf F.pwrRailStatus_vout 0 r = 65535) && decide (t.gf F.pwrRailStatus_iout 0 r = 1023) &&
        decide ((t.fld (r % 64)).fogged = (fault = true ∧ r < 128))) = true) ∧
    State.reset.railBad { rail := 131, vout := 1800, iout := 0, fault := false, timeout := false } = false ∧
    gives (.rampStep 2303) (bayPowerState 1 { rampAt := some 100, step := 15 }) (fun t => decide (t.bayState 2303 = 1) &&
      decide (t.now = 18850)) = true ∧
    gives (.rampStep 2303) (bayPowerState 1 { rampAt := some 100, step := 16 }) (fun t => decide (t.bayState 2303 = 2) &&
      decide (t.now = 20100)) = true ∧
    gives (.bayGateFault 2303 73) (bayPowerState 2 {}) (fun t => decide (t.bayState 2303 = 4)) = true ∧
    gives (.bayGateFault 2303 72) (bayPowerState 2 {}) (fun t => decide (t.bayState 2303 = 2)) = true ∧
    gives (.bayGateFault 2303 73) ((bayPowerState 2 {}).sf F.pwrBayState_gate_faults 63 35 1) (fun t => decide (t.bayState 2303 = 5)) = true ∧
    gives (.gateRetry 2303) (bayPowerState 4 { tripAt := some 7 }) (fun t => decide (t.bayState 2303 = 1) && decide (t.now = 1000000007)) = true ∧
    gives (.gateFaultCountClear 2303) ((bayPowerState 2 { litAt := some 0 }).sf F.pwrBayState_gate_faults 63 35 2)
      (fun t => decide (t.gf F.pwrBayState_gate_faults 63 35 = 0)) = true := by decide +kernel

theorem witness_DroopHeatAndEnergy :
    (bayPowerState 2 {}).cycleMark 63 = 600 ∧
    gives (.droopStretch 2303) (bayPowerState 2 { stretchAt := some 593 }) (fun t => decide (t.rd .pwrCountStretch 63 35 = 1)) = true ∧
    gives (.droopStretch 2303) (bayPowerState 2 { stretchAt := some 595 }) (fun t => decide (t.rd .pwrCountDenied 63 35 = 1)) = true ∧
    gives (.droopSustained 2303 true) (bayPowerState 2 {}) (fun t => (t.fld 63).fogged && (t.fld 63).held) = true ∧
    gives (.thermalSample 63 [-2048, 0, 0, 0, 0, 0, 0, 0, 2047]) { State.reset with hot := [((63, 8), (1, 0))] } (fun t =>
      t.flag F.thmStatus_trip 63 && decide (toSigned 12 (t.gf F.thmTemp_temp 63 0) = -2048)) = true ∧
    gives (.waferEnergy []) (State.reset.sf F.pwrEnergyWatch_nj 63 0 5000) (fun t => decide (t.rd .pwrWaferEnergy = 5)) = true ∧
    gives (.nvInhibit true false) State.reset (fun t => t.flag F.stnNvInhibit_aux_low && !(t.flag F.stnNvInhibit_core_low)) = true ∧
    gives .nvInhibitRelease { State.reset.sf F.stnNvInhibit_inhibit 0 0 1 with ledgerQueue := [.floor true 3] }
      (fun t => decide (t.live = [.floor true 3]) && decide (t.ledgerQueue = [])) = true := by decide +kernel

/-- All clock sources good and the station PLL locked to XA. -/
def clockState : State := State.reset.wr .clkSrcStatus 0 0 0x1F

theorem witness_ClocksFollow :
    gives .xaLoss clockState (fun t => t.flag F.clkSrcStatus_holdover && decide (t.xaLostAt = some 0)) = true ∧
    gives .holdoverSwitch { clockState.sf F.clkSrcStatus_holdover 0 0 1 with xaLostAt := some 5 }
      (fun t => t.flag F.clkSrcStatus_ref && decide (t.now = 2005)) = true ∧
    gives .clockHoldoverEnd (clockState.sf F.clkSrcStatus_holdover 0 0 1) (fun t => !(t.flag F.clkSrcStatus_holdover)) = true ∧
    gives .refclkLost (clockState.sf F.stnStartupPorts_pcie 0 0 15) (fun t => decide (t.gf F.stnStartupPorts_pcie = 0)) = true ∧
    gives (.clockLoss true) clockState (fun t => decide (t.rd .clkCountLoss 0 3 = 1)) = true ∧
    ([1, 128].all fun p => gives (.pllUnlock p) (clockState.sf F.clkPllStatus_lock 0 p 1) fun t => (t.fld ((p - 1) % 64)).fogged) = true ∧
    gives (.sourceGood 3) State.reset (fun t => t.flag F.clkSrcStatus_sirc_ok) = true ∧
    ([4, 132].all fun k => gives (.sourceGood k) clockState fun t => t.flag F.clkPllStatus_lock 0 (k - 4)) = true ∧
    gives (.clkEnableWrite (.keeper 64) 63 31) State.reset (fun t => decide (t.gf F.clkRunning_run 0 63 = 31)) = true ∧
    gives (.clkEnableWrite .jtag 66 255) State.reset (fun t => decide (t.gf F.clkEnable_en 0 66 = State.reset.gf F.clkEnable_en 0 66)) = true ∧
    gives (.clockStop 63 4) (State.reset.sf F.clkRunning_run 0 63 16) (fun t => decide (t.gf F.clkRunning_run 0 63 = 0)) = true ∧
    gives .clockLossEachMinute { State.reset with stepsDone := [1, 0], minuteLog := some 9 } (fun t => decide (t.now = 60000000009)) = true := by
  decide +kernel

theorem witness_ResetsClear :
    (let s := State.reset.setFld 63 { fogged := true, fogAt := 5, held := true }
     s.fogOver 63 && gives (.fogHoldExpiry 63) s (fun t => t.flag F.fkpStatus_resetting 63 && (t.fld 63).fogged)) = true ∧
    gives (.groupReset none 589823 7) (State.reset.setGrp 589823 7 { st := .running }) (fun t => decide (t.grp 589823 7 = {})) = true ∧
    gives (.tileReset none 589823) (State.reset.sramPut 589823 65532 { w := 1 }) (fun t => decide (t.sram = []) && t.flag F.rstStatus_busy) = true ∧
    gives (.bayReset none 2303) ((bayPowerState 5 {}).sramPut 589823 0 { w := 1 }) (fun t => decide (t.sram = []) && decide (t.bayState 2303 = 5)) = true ∧
    gives (.fieldReset none 63) ({ work State.reset 63 600 with fst := [(fstAddr 63 (2 ^ 26 - 1), 3), (5, 4)] })
      (fun t => decide (t.fst = [(5, 4)]) && (t.fld 63).held) = true ∧
    ([Instr.rimPortReset none 3, Instr.perstN 3].all fun c => gives c (State.reset.sf F.stnStartupPorts_pcie 0 0 8)
      fun t => decide (t.gf F.stnStartupPorts_pcie = 0)) = true ∧
    gives (.stationReset none 15) State.reset (fun t => decide (t.gf F.rstCause_cause = 15)) = true ∧
    gives (.coldReset true) State.reset (fun t => t.flag F.stnStartup_cold) = true := by decide +kernel

/-- What a test of a field finds where nothing is wrong. -/
def cleanTest : FieldTest := { need := [], aged := [], trips := [], bad := [], fail := none, worst := 0 }

/-- One reset under way. -/
def resetState (d t : Nat) : State :=
  { (clockState.sf F.clkPllStatus_lock 0 (129 + rimOf t) 1).sf F.rstStatus_busy 0 0 1 with resets := [{ domain := d, target := t, begun := 4, cause := 2 }] }

theorem witness_ResetsEnd :
    gives (.resetComplete 0 5 cleanTest) (resetState 0 5) (fun t => decide (t.resets = []) && !(t.flag F.rstStatus_busy)) = true ∧
    ([3, 19, 27].all fun p => gives (.resetComplete 4 p cleanTest) (resetState 4 p) fun t => decide (t.resets = [])) = true ∧
    gives (.resetTimeout 0 (7 * 2 ^ 20 + 589823)) (resetState 0 (7 * 2 ^ 20 + 589823)) (fun t => decide (t.now = 2004) &&
      decide (t.resets.map (fun j => (j.domain, j.target, j.cause)) = [(1, 589823, 5)])) = true := by decide +kernel

/-- Steps of start-up done, with all clock sources good. -/
def stepsState (l : List Nat) : State := { clockState with stepsDone := l }

/-- A verified firmware copy. -/
def fw (major minor svn : Nat) : FwCopy := { sigOk := true, svn := svn, major := major, minor := minor }

theorem witness_StartUpSteps :
    gives (.bootRom (fw 1 255 3) (fw 2 0 255) true) State.reset (fun t => decide (t.stepsDone = [1, 0]) && t.flag F.stnFwStatus_active) = true ∧
    gives (.bootRom (fw 2 0 3) (fw 2 0 255) true) State.reset (fun t => !(t.flag F.stnFwStatus_active)) = true ∧
    gives (.firmwareRecovery (fw 1 0 0)) (((stepsState [0]).sf F.stnFoghorn_cause 0 0 1).sf F.stnNvInhibit_inhibit 0 0 0) (fun t => decide (t.stepsDone = [])) = true ∧
    gives .startupClocks (stepsState [1, 0]) (fun t => decide (t.stepsDone = [2, 1, 0])) = true ∧
    ([10000, 1000000].all fun p => gives (.startupStation true false [] 0 [] true (some p) none none) (stepsState [2, 1, 0])
      fun t => decide (t.bootPeriod = p) && t.flag F.clkSrcCfg_xb_mode) = true ∧
    gives (.startupLinks []) (stepsState [3]) (fun t => t.flag F.pwrRailStatus_enabled 0 130) = true ∧
    gives (.pcieLinkUp 3) { clockState with startDeadlines := [((0, 3), 5)] } (fun t => t.portUp 0 3) = true ∧
    gives (.linkTrained 2 7) { clockState with startDeadlines := [((2, 7), 5)] } (fun t => t.portUp 2 7) = true ∧
    gives (.linkTrained 1 15) { clockState with startDeadlines := [((1, 15), 5)] } (fun t => (mfind t.startDeadlines (3, 15)).isSome) = true ∧
    gives (.linkTrainFail 1 15) { clockState with startDeadlines := [((1, 15), 5)] } (fun t => t.portsDown.contains (1, 15)) = true ∧
    gives (.memoryActive 15 (2 ^ 42)) { clockState with startDeadlines := [((3, 15), 5)] } (fun t => t.portUp 3 15) = true ∧
    gives (.cxlMemoryTimeout 15) { clockState with startDeadlines := [((3, 15), 5)] } (fun t => t.portsDown.contains (1, 15)) = true ∧
    gives (.cxlIoConfigurationTimeout 15) (clockState.sf F.stnStartupPorts_cxl 0 0 0x8000) (fun t => !(t.portUp 1 15)) = true ∧
    (stepsState [3]).inStep 5 [3] = true ∧ (List.range (7 / 8 * 8)).all (stepsState [3]).fieldOver = true ∧
    (stepsState [3]).fieldOver 7 = false ∧
    gives (.beaconStart (List.replicate 63 7 ++ [255])) { stepsState [5] with bootPeriod := 1000000 } (fun t => decide (t.gf F.bcnPeriod_period = 1000000) &&
      decide (t.gf F.bcnSkewComp_comp 63 = 255)) = true ∧
    gives .startupReady (stepsState [7, 6]) (fun t => t.ready) = true ∧
    gives (.startupFail 7) State.reset (fun t => t.halted) = true := by decide +kernel

/-! ### Images, the mailbox, debug, Keepers and registers -/

/-- A certificate that admits everything. -/
def cert : ImgCert := { layoutOk := true, allow := 15, ownerId := 1, serial := 0, sigOk := true }

/-- A section of an image. -/
def section_ (ty n off len : Nat) : ImgSection := { type := ty, records := n, offset := off, length := len, digestOk := true, changed := false }

/-- A patch of sector 2303, or, with kind 0, an image of it, that no tile, route or lens carries. -/
def image (kind tool : Nat) : Image :=
  { magic := 0x4E534645, format := 0x0100, kind := kind, grade := 1, tool := tool, svn := 0, flags := 0, imageId := 2 ^ 64 - 1,
    size := 4000, sigOffset := 3392, periodMin := 50000, periodMax := 50000, settleLen := 1024, sectorCount := 1,
    baseDigest := List.replicate 12 0, digest := List.replicate 12 0, rsvOk := true, scatter := 4000, owner := cert, key := cert,
    signatureOk := true, table := [section_ 1 1 576 16, section_ 5 0 640 0, section_ 15 1 704 2688],
    sectors := [{ sector := 2303, epochGroup := 2303, clockGroup := 2303 }], placement := [], routes := [], mcast := [], tiles := [],
    blobs := [], constants := [], channels := [], steering := [], lenses := [], mv := [], regions := [], buoys := [], spec := [],
    staging := [], host := [], characters := [{
      sector := 2303, count := 1, reference := 0, recovery := 0, fallback := 0, points := [(1000, 1200)], slots := 1, tiles := []
      chars := [{ id := 0, point := 0, t := 1000, b := 0, power := [(1, 1)], slots := [(255, 1, 0)], transfers := [], destages := [] }] }] }

/-- A bind table with nothing in it. -/
def noTable : BindTable := { lenses := [], panels := [], bays := [], tiles := [], paths := [], entries := [] }

/-- The station ready with a command waiting in mailbox slot `u`. -/
def cmd (u op : Nat) (args : List Nat) (s : State) : State :=
  { ((wrs s .hstMboxArg u 0 args).sf F.hstMboxStatus_opcode u 0 op).sf F.stnStartup_ready 0 0 1 with
    mboxQueue := [u], countWritten := true, stepsDone := [6] }

/-- The command is the next taken. -/
def takes (s : State) (u op : Nat) (masks : List Nat) : Bool :=
  decide (s.mboxNext = some u) && decide (s.gf F.hstMboxStatus_opcode u = op) && s.argsZero u masks

/-- A mailbox slot's command is DONE with a status. -/
def answers (t : State) (u status : Nat) : Bool :=
  decide (t.gf F.hstMboxStatus_state u = 3) && decide (t.gf F.hstMboxStatus_status u = status) && decide (t.mboxQueue = [])

/-- The state with a valid candidate of a kind, and image state of the loaded image. -/
def candidate (kind loaded : Nat) : State :=
  { (State.reset.sf F.stnImageStatus_state 0 0 2).sf F.stnImageLoaded_state 0 0 loaded with candidate := some (image kind 0) }

theorem witness_ImageChecks :
    checkHeader (image 1 0) = none ∧ checkTrust (image 1 0) 1 0 0 = none ∧ checkDigests (image 1 0) = none ∧
    (image 1 0).table.findSome? (checkSection (image 1 0)) = none ∧
    checkConsistency (patched (image 0 0) (image 1 0)) = none ∧ checkPatch (some (image 0 0)) (image 1 0) = none ∧
    checkHeader { image 1 0 with sectorCount := 2305 } = some (3, 0, 0) ∧ checkDigests { image 1 0 with
      table := [{ section_ 1 1 576 16 with digestOk := false }] } = some (0x0E, 1, 0) := by decide +kernel

/-- The firmware supports some tool version, and images built with it pass that check. -/
theorem witness_ToolSupported (s : State) : ∃ tool, toolOk s.tools tool = true := by
  have h : ∃ a, a ∈ s.tools := by
    unfold State.tools
    simp only [List.mem_mergeSort, List.map_cons, List.eraseDups_cons, List.take_succ_cons]
    exact ⟨_, List.mem_cons_self⟩
  obtain ⟨a, ha⟩ := h
  exact ⟨a, by unfold toolOk; exact List.any_eq_true.2 ⟨a, ha, by simp⟩⟩

theorem witness_ImagesBegin :
    (let s := cmd 63 1 [0, 0, 65536] State.reset
     takes s 63 1 [full, full, full] && gives (.loadImage 63 (some (image 0 0))) s (fun t => decide (t.gf F.stnImageStatus_state = 1)) &&
     gives (.loadImage 63 none) s (fun t => answers t 63 7)) = true ∧
    gives .imageValidation { State.reset.sf F.stnImageStatus_state 0 0 1 with candidate := some { image 0 0 with magic := 0 } }
      (fun t => decide (t.gf F.stnImageStatus_state = 3) && decide (t.gf F.stnImageStatus_reason = 1)) = true ∧
    (let s := cmd 63 2 [] (candidate 0 0)
     takes s 63 2 [] && gives (.bind 63) s (fun t => decide (t.bindMap = some [])) &&
     gives (.bind 63) { s with fuses := { s.fuses with mapOk := false } } (fun t => answers t 63 8)) = true ∧
    gives (.bind 63) { (candidate 0 0).sf F.stnBindStatus_state 0 0 1 with mboxJobs := [(63, .bind)], bindMap := some [] }
      (fun t => decide (t.boundTo.isSome) && decide (t.gf F.stnBindStatus_state = 2)) = true ∧
    gives (.bind 63) { (candidate 0 0).sf F.stnBindStatus_state 0 0 1 with
      mboxJobs := [(63, .bind)], bindMap := some ((List.range 4).map fun l => { kind := 6, source := 1, loc := l })
      candidate := some { image 0 0 with lenses := [{ field := 0, lens := 0, mode := 1, owners := [2303], descs := [], preloads := [] }] } }
      (fun t => decide (t.gf F.stnBindStatus_state = 3)) = true ∧
    gives (.start 63 none) { (cmd 63 3 [0] (candidate 0 0)).sf F.stnBindStatus_state 0 0 2 with boundTo := some noTable }
      (fun t => decide (t.loadRun.isSome) && decide (t.gf F.stnImageLoaded_state = 1)) = true ∧
    gives (.start 63 none) (cmd 63 3 [0] (State.reset.sf F.stnImageLoaded_state 0 0 2)) (fun t => t.imageStarted && answers t 63 0) = true ∧
    (let s := cmd 63 3 [1, 2303] (watchState false .work)
     takes s 63 3 (startMasks 1) && gives (.start 63 none) (s.setFld 63 { s.fld 63 with quiesced := [2303] })
      (fun t => decide ((t.fld 63).quiesced = []) && answers t 63 0)) = true ∧
    (let s := cmd 63 3 [1, 2303] { watchState false .work with loaded := some (image 0 0), candidate := some (image 1 0) }
     gives (.start 63 none) ((s.setFld 63 { s.fld 63 with quiesced := [2303] }).sf F.stnImageStatus_state 0 0 2)
      (fun t => decide (t.gf F.stnImageStatus_state = 4))) = true ∧
    (let s := cmd 63 3 [1, 2303] { watchState false .work with loaded := some (image 0 0), candidate := some (image 0 0) }
     gives (.start 63 none) ((s.updSec 2303 fun y => { y with health := 3 }).sf F.stnImageStatus_state 0 0 2)
      (fun t => decide (t.loadRun.map (·.kind) = some (.restore [2303])))) = true ∧
    gives (.start 63 none) (cmd 63 3 [127] State.reset) (fun t => answers t 63 10) = true ∧
    gives (.stop 63) (cmd 63 4 [] (watchState false .work)) (fun t => decide (t.stopAt = some 0)) = true := by decide +kernel

/-- A load under way of a kind. -/
def loadingState (k : LoadKind) (kind : Nat) : State :=
  { watchState false .work with
    loaded := some (image 0 0), loadedBind := some noTable, candidate := some (image kind 0), boundTo := some noTable
    loadRun := some { kind := k, begun := 0, mbox := some 63 }, mboxJobs := [(63, .start [])] }

theorem witness_SettleLenWrite :
    gives (.bcnSettleLenWrite (.keeper 64) 1024) (loadingState .full 0) (fun t => decide (t.settleDue = [(1024, 2)])) = true := by
  decide +kernel

theorem witness_ImagesEnd :
    cycleTile (noTable.paths.map (·.path)) = none ∧
    ((loadingState .full 0).writeImage (image 0 0) noTable).lanesOk (image 0 0) noTable = true ∧
    gives (.imageLoadComplete none none) (loadingState .full 0) (fun t => t.loaded.isSome && decide (t.loadRun = none) &&
      decide (t.gf F.stnImageLoaded_state = 3)) = true ∧
    gives (.imageLoadComplete (some 0x24) none) (loadingState .full 0) (fun t => t.loaded.isNone) = true ∧
    gives (.patchApplyComplete false) (loadingState .patch 1) (fun t => decide (t.gf F.stnImageLoaded_patch_count = 1)) = true ∧
    gives (.patchApplyComplete true) (loadingState .patch 1) (fun t => decide (t.gf F.stnImageStatus_reason = 0x24)) = true ∧
    gives (.restoreComplete false) ((loadingState (.restore [2303]) 0).updSec 2303 fun y => { y with health := 3 })
      (fun t => decide ((t.sec 2303).map (·.health) = some 0)) = true ∧
    gives (.restoreComplete true) (loadingState (.restore [2303]) 0) (fun t => decide (t.gf F.stnImageStatus_state = 2)) = true ∧
    gives (.liveRecord 3 5 2303 0) { State.reset.sf F.stnBindStatus_state 0 0 2 with
      candidate := some (image 0 0), boundTo := some { noTable with bays := [(7, 2303)] } } (fun t => t.boundTo.isNone) = true ∧
    gives (.liveRecord 3 5 2303 0) { State.reset.sf F.stnBindStatus_state 0 0 1 with candidate := some (image 0 0) }
      (fun t => t.flag F.stnBindStatus_restarted && decide (t.live.length = 1)) = true := by decide +kernel

/-! ### Mailbox commands -/

/-- A tenant's arguments: class 1, deadline 20,000, precision 4, slot `i` of sector `k`, no base. -/
def tenantArgs (k i : Nat) : List Nat := [262143, 1, 20000, 4, k, i, 0, 0]

theorem witness_DrainsAndBays :
    (let s := cmd 63 5 [2303] (watchState false .work)
     takes s 63 5 [full] && (s.sec 2303).isSome && !(s.drainBusy 2303) && s.imageStarted &&
     gives (.drainSector 63) s (fun t => decide ((t.fld 63).drainDue = [(2303, 1)]) &&
       decide (t.mboxJobs = [(63, .drain 2303)])) &&
     gives (.drainSector 63) (s.setFld 63 { s.fld 63 with quiesced := [2303] })
       (fun t => answers t 63 0)) = true ∧
    (let s := cmd 63 6 [2303] State.reset
     takes s 63 6 [full] && !(s.sectorLive (fieldOfBay 2303) (s.sectorOfBay 2303)) &&
     gives (.retireBay 63) s (fun t => decide (t.retireQueue = [(2303, 5)]) && decide (t.mboxJobs = [(63, .retire 2303)]))) = true ∧
    (let s := cmd 63 6 [2303] ((watchState false .work).sf F.mshTileSector_sector (bayPort 2303) 0 2303)
     gives (.retireBay 63) s (fun t => answers t 63 3)) = true ∧
    gives (.retireBay 63) (cmd 63 6 [2304] State.reset) (fun t => answers t 63 5) = true ∧
    ([true, false].all fun run => [0, 5].all fun st =>
      let s := (((cmd 63 7 [2303] State.reset).sf F.pwrBayState_state 63 35 st).sf F.stnStartupFields_running 0 0 (2 ^ 63)).sf
        F.bcnStatus_running 0 0 (if run then 1 else 0)
      !(s.bayRecord 2303 3) && !(s.bayRecord 2303 4) && s.fieldRuns 63 && gives (.returnBay 63) s (fun t =>
        decide (t.mboxJobs = [(63, .return_ 2303)]) && if run then decide (t.rampQueue = [2303]) else decide (t.bayState 2303 = 1))) =
      true ∧
    gives (.bayBist 2303 []) (bayPowerState 2 {}) (fun t => (mget ({} : BayPower) t.bays 2303).tested &&
      decide ((mget ({} : BayPower) t.bays 2303).joins = some 1)) = true ∧
    gives (.bayBist 2303 [(3, 2303, 0)]) (bayPowerState 2 {}) (fun t => decide (t.bayState 2303 = 5)) = true := by decide +kernel

theorem witness_CapAndPeriod :
    ([2000, 22000].all fun a => gives (.setCap 63) (cmd 63 8 [a] State.reset) fun t => decide (t.gf F.pwrCap_cap = a) &&
      decide (t.now = 25000) && answers t 63 0) = true ∧
    ([1999, 22001].all fun a => gives (.setCap 63) (cmd 63 8 [a] State.reset) fun t => decide (t.gf F.pwrCap_cap = 18000) &&
      answers t 63 4) = true ∧
    ([9999, 1000001].all fun a => gives (.setPeriod 63) (cmd 63 9 [a] State.reset) fun t => answers t 63 4) = true ∧
    ([10000, 1000000].all fun a => takes (cmd 63 9 [a] State.reset) 63 9 [full] &&
      gives (.setPeriod 63) (cmd 63 9 [a] State.reset) fun t => decide (t.periodDue = some (a, 2)) &&
        decide (t.rd .hstMboxResult 63 0 = 2)) = true ∧
    gives (.setPeriod 63) { cmd 63 9 [60000] State.reset with periodDue := some (70000, 2) } (fun t =>
      decide (t.periodDue = some (60000, 2)) && decide (t.periodHeld = none)) = true ∧
    gives (.setPeriod 63) { cmd 63 9 [60000] State.reset with
      periodDue := some (70000, 2), fields := [(63, { phase := .handover })] } (fun t =>
      decide (t.periodDue = some (70000, 2)) && decide (t.periodHeld = some 60000)) = true ∧
    gives (.setPeriod 63) { cmd 63 9 [60000] State.reset with periodDue := some (70000, 1) } (fun t =>
      decide (t.periodHeld = some 60000) && decide (t.rd .hstMboxResult 63 0 = 3)) = true := by decide +kernel

theorem witness_QueriesAndTenants :
    takes (cmd 64 0xA [0] State.reset) 64 0xA [full] = true ∧
    gives (.queryFirmware 63) (cmd 63 0xA [3] State.reset) (fun t => answers t 63 4) = true ∧
    takes (cmd 63 0xA [1, 262143] State.reset) 63 0xA [full, full] = true ∧
    gives (.queryTenant 63) (cmd 63 0xA [1, 262143] State.reset) (fun t => answers t 63 5) = true ∧
    mfind (cmd 63 0xA [1, 262143] { State.reset with tenants := [(262143, {})] }).tenants 262143 = some {} ∧
    gives (.queryResidency 63) (cmd 63 0xA [2, 2303] State.reset) (fun t => answers t 63 5) = true ∧
    ((cmd 63 0xA [2, 2303] (watchState false .work)).sec 2303).isSome = true ∧
    (let s := cmd 63 0xB (tenantArgs 0xFFF 0) State.reset
     takes s 63 0xB (List.replicate 8 full) && !(s.tenantRange 63) && gives (.registerTenant 63) s (fun t =>
       decide (mfind t.tenants 262143 = some { cls := 1, deadline := 20000, prec := 4 }) && answers t 63 0)) = true ∧
    (let s := cmd 63 0xB (tenantArgs 2303 0) (watchState false .work)
     !(s.tenantRange 63) && !(s.seated 262143) && gives (.registerTenant 63) s (fun t =>
       decide ((t.hslot 2303 0).due = some (262143, 0)) && answers t 63 0)) = true ∧
    gives (.registerTenant 63) (cmd 63 0xB [262144] State.reset) (fun t => answers t 63 4) = true ∧
    gives (.evictTenant 63) (cmd 63 0xC [262143] State.reset) (fun t => answers t 63 5) = true ∧
    (let s := cmd 63 0xC [262143] { State.reset with tenants := [(262143, {})], hostSlots := [((2303, 3), { tenant := some 262143 })] }
     decide (s.seatOf 262143 = some (2303, 3, 0)) && gives (.evictTenant 63) s (fun t => decide ((t.hslot 2303 3).evicting = some 63) &&
       decide (t.mboxJobs = [(63, .evict 262143)]))) = true ∧
    ([0, 15, 255].all fun op => gives (.badOpcode 63) (cmd 63 op [] State.reset) fun t => answers t 63 2) = true := by decide +kernel

/-- RESET_DOMAIN of domain `d` and target `n` in the last slot of port 3. -/
def resetCmd (d n : Nat) (s : State) : State := cmd 63 0xE [d * 2 ^ 24 + n] s

/-- Field `f` of a state tripped, one sensor at 85 °C. -/
def hotField (s : State) (f : Nat) : State := (s.sf F.thmStatus_trip f 0 1).sf F.thmTemp_temp f 8 680

theorem witness_HotFieldWaits :
    gives (.fieldReset none 63) (hotField State.reset 63) (fun t => (hotField State.reset 63).tooHot 63 && decide (t.resets = [])) = true ∧
    gives (.fieldReset (some 63) 63) (hotField (resetCmd 3 63 State.reset) 63) (fun t => decide (t.resets = []) &&
      t.mboxJobs.contains (63, .reset 3 63)) = true ∧
    gives (.fieldPowerUp 7 { need := [], worst := 0, trips := [], bad := [], aged := [], fail := none }) (hotField (stepsState [3]) 7)
      (fun t => decide (t = hotField (stepsState [3]) 7)) = true := by decide +kernel

theorem test_nv_inhibit_releasing :
    gives (.nvInhibit false false) (State.reset.sf F.stnNvInhibit_inhibit 0 0 1) (fun t => t.flag F.stnNvInhibit_releasing &&
      decide (t.railsBack = some 0) && gives .nvInhibitRelease t fun u => decide (u.now = 10000000) &&
        !(u.flag F.stnNvInhibit_releasing)) = true := by decide +kernel

/-- A session of port `p` with every right on every field. -/
def session (p : Nat) (s : State) : State :=
  ((s.sf F.stnDebugSession_active 0 p 1).sf F.stnDebugSession_rights 0 p 7).wr .stnDebugFields 0 p (2 ^ 64 - 1)

theorem witness_MailboxResets :
    takes (resetCmd 0 (7 * 2 ^ 20 + 589823) State.reset) 63 0xE [0x77FFFFF] = true ∧
    gives (.groupReset (some 63) 589823 7) (resetCmd 0 (7 * 2 ^ 20 + 589823) (session 3 (State.reset.setGrp 589823 7 { pc := 4 })))
      (fun t => decide (t.grp 589823 7 = {}) && decide (t.mboxJobs = [(63, .reset 0 (7 * 2 ^ 20 + 589823))])) = true ∧
    gives (.groupReset (some 63) 589823 7) (resetCmd 0 (7 * 2 ^ 20 + 589823) State.reset) (fun t => answers t 63 6) = true ∧
    gives (.tileReset (some 63) 589823) (resetCmd 1 589823 (State.reset.sramPut 589823 65532 { w := 9 })) (fun t => decide (t.sram = [])) = true ∧
    gives (.tileReset (some 63) 589823) (resetCmd 1 589823 (watchState false .work))
      (fun t => answers t 63 3) = true ∧
    gives (.bayReset (some 63) 2303) (resetCmd 2 2303 (State.reset.setGrp 589823 7 { pc := 4 }))
      (fun t => decide (t.grp 589823 7 = {}) && decide (t.mboxJobs = [(63, .reset 2 2303)])) = true ∧
    gives (.fieldReset (some 63) 63) (resetCmd 3 63 State.reset) (fun t => (t.fld 63).held && t.flag F.fkpStatus_resetting 63) = true ∧
    ([0, 27].all fun n => gives (.rimPortReset (some 63) n) (resetCmd 4 n (State.reset.sf F.stnStartupPorts_pcie 0 0 15)) fun t =>
      t.flag F.rstStatus_busy && decide (t.mboxJobs = [(63, .reset 4 n)]) &&
      decide (t.gf F.stnStartupPorts_pcie = if n = 0 then 14 else 15)) = true ∧
    gives (.tileReset (some 63) 589824) (resetCmd 1 589824 State.reset) (fun t => answers t 63 4) = true ∧
    gives (.bayReset (some 63) 2304) (resetCmd 2 2304 State.reset) (fun t => answers t 63 4) = true ∧
    gives (.fieldReset (some 63) 64) (resetCmd 3 64 State.reset) (fun t => answers t 63 4) = true ∧
    gives (.rimPortReset (some 63) 28) (resetCmd 4 28 State.reset) (fun t => answers t 63 4) = true ∧
    gives (.stationReset (some 63) 0) (resetCmd 5 0 (State.reset.sramPut 589823 65532 { w := 9 })) (fun t => decide (t.gf F.rstCause_cause = 2) &&
      decide (t.sram = [])) = true ∧
    ([(5, 1), (6, 0), (7, 0)].all fun x => gives (.stationReset (some 63) 0) (resetCmd x.1 x.2 State.reset) fun t => answers t 63 4) =
      true := by decide +kernel

/-! ### Debug -/

/-- Masks of a RESPONSE's arguments. -/
def responseMasks : List Nat := [3, 7, full, full, 0xFFFFFF, 0, 0, 0] ++ List.replicate 48 full

theorem witness_DebugSessions :
    takes (cmd 64 0xD [0] State.reset) 64 0xD [3] = true ∧
    gives (.debugAuthChallenge 64) { cmd 64 0xD [0] State.reset with lockEnd := [(4, 1)] } (fun t => answers t 64 6) = true ∧
    (let s := { cmd 64 0xD [1, 7, 0, 2 ^ 31, 0xFFFFFF] State.reset with nonces := [(4, 9)], nonceEnd := [(4, 1)] }
     takes s 64 0xD responseMasks && gives (.debugAuthResponse 64 true true) s (fun t => t.flag F.stnDebugSession_active 0 4 &&
       t.right .jtag 2 63 && !(t.right .jtag 2 62) && answers t 64 0) &&
     gives (.debugAuthResponse 64 true false) s (fun t => decide (t.nonces = []) && answers t 64 6) &&
     gives (.debugAuthResponse 64 true true) { s with nonceEnd := [] } (fun t => answers t 64 3)) = true ∧
    gives (.debugAuthEnd 64) (cmd 64 0xD [2] (session 4 State.reset)) (fun t => !(t.flag F.stnDebugSession_active 0 4) && answers t 64 0) =
      true ∧
    gives (.debugAuthEnd 64) (cmd 64 0xD [3] State.reset) (fun t => answers t 64 4) = true ∧
    gives (.debugSessionExpiry 4) { session 4 State.reset with sessionEnd := [(4, 70)] } (fun t => decide (t.now = 70) &&
      !(t.flag F.stnDebugSession_active 0 4)) = true := by decide +kernel

/-- A NOP that group 7 of the last tile runs, in a session of JTAG, with the group in a state. -/
def debugState (st : GState) (x : Group) : State :=
  let s := session 4 (at_ (.ctl .nop 0 false 0) x)
  s.setGrp 589823 7 { s.grp 589823 7 with st := st }

theorem witness_GroupControl :
    State.reset.right .jtag 0 63 = false ∧ (debugState .running {}).right .jtag 0 63 = true ∧
    gives (.halt .jtag 589823 7) (debugState .running {}) (fun t => decide ((t.grp 589823 7).st = .halted) &&
      decide (t.rd .dbgHaltCause 589823 7 = 1)) = true ∧
    gives (.halt .jtag 589823 7) (debugState .done {}) (fun t => decide ((t.grp 589823 7).st = .done) && t.flag F.tgpCtl_halt 589823 7) =
      true ∧
    gives (.step .jtag 589823 7) (debugState .halted {}) (fun t => (t.grp 589823 7).stepPending) = true ∧
    gives (.resume .jtag 589823 7) (debugState .halted {}) (fun t => decide ((t.grp 589823 7).st = .running)) = true ∧
    gives (.resume .jtag 589823 7) ((debugState .halted {}).wr .dbgHaltCause 589823 7 0x50001) (fun t => (t.grp 589823 7).released) = true ∧
    gives (.resume .jtag 589823 7) ((debugState .trapped {}).sf F.tgpCtl_halt 589823 7 1) (fun t => decide (t.rd .dbgHaltCause 589823 7 = 5)) =
      true ∧
    gives (.resume .jtag 589823 7) (debugState .trapped {}) (fun t => (t.grp 589823 7).released) = true ∧
    gives (.stepIssue 589823 7) (debugState .halted { stepPending := true }) (fun t => decide ((t.grp 589823 7).pc = 4) &&
      decide (t.rd .dbgHaltCause 589823 7 = 4)) = true ∧
    gives (.breakpoint 589823 7) ((debugState .running {}).wr .dbgBreak 589823 1 0x80800000) (fun t =>
      decide ((t.grp 589823 7).st = .halted)) = true ∧
    (let s := (((debugState .halted {}).sf F.tilWinSel_tile 63 0 589823).sf F.dbgGroupSel_group 63 0 7)
     gives (.dbgRegWrite .jtag 63 255 3) s (fun t => decide ((t.grp 589823 7).lane 31 7 = 3)) &&
     gives (.dbgRegWrite (.keeper 63) 63 255 3) s (fun t => decide ((t.grp 589823 7).lane 31 7 = 0))) = true ∧
    gives (.eventRingWrite 63) (State.reset.setRing 63 { head := 0xFFFFFFFF, queue := [{ code := 1, cls := 1, field := 63, watch := 0, cycle := 0, loc := 0, detail := 0 }] })
      (fun t => decide ((t.ring 63).head = 0) && (mfind (t.ring 63).slots 2047).isSome) = true := by decide +kernel

/-! ### Keepers and registers -/

/-- The first event of the station ring has a code. -/
def logs (ev : Ev) (s : State) : Bool := (mfind (s.ring 64).slots 0).any fun e => decide (e.code = evCode ev)

theorem witness_KeepersWatch :
    gives (.watchdogFeed 3 5) State.reset (fun t => t.flag F.stnWdogStatus_fed && decide (mget 0 t.wdogDoorbell 3 = 5)) = true ∧
    gives (.stnWdogAck (.keeper 64)) { State.reset.sf F.stnWdogStatus_fed 0 0 1 with now := 8 } (fun t => decide (t.wdogFrom = 8)) = true ∧
    (let s := (State.reset.sf F.stnStartup_ready 0 0 1).sf F.stnWdogCfg_watches 0 0 65535
     s.wdogArmed && gives .stationWatchdog s (fun t => decide (t.now = 65535 * 50000) && decide (t.gf F.stnWdogStatus_last = 1)) &&
     gives .stationWatchdog { s.sf F.stnWdogStatus_fed 0 0 1 with mirrorReady := true } (fun t => decide (t.keeperAt = s.mirrorAt))) = true ∧
    (let s := State.reset.setFld State.reset.keeperAt { fogged := true }
     gives .keeperFailover { s with mirrorReady := true } (fun t => decide (t.keeperAt = s.mirrorAt)) &&
     gives .keeperFailover { s with mirrorReady := false } (fun t => t.flag F.stnFoghorn_asserted)) = true ∧
    gives .foghornAutoReset { State.reset.sf F.stnFoghorn_cause 0 0 16 with fogAutoAt := some 77 } (fun t =>
      decide (t.gf F.rstCause_cause = 3) && decide (t.now = 77)) = true ∧
    gives (.lockstepFault 63) State.reset (fun t => t.flag F.fkpStatus_restarting 63) = true ∧
    gives (.keeperRestartComplete 63) (State.reset.sf F.fkpStatus_restarting 63 0 1) (fun t => !(t.flag F.fkpStatus_restarting 63)) = true ∧
    gives (.keeperRestartTimeout 63) { State.reset.sf F.fkpStatus_restarting 63 0 1 with restartAt := [(63, 90)] } (fun t =>
      (t.fld 63).fogged && decide (t.now = 90)) = true ∧
    gives (.stnWdogAck .jtag) State.reset (logs evAccessRefused) = true ∧
    gives .stationWatchdog ((State.reset.sf F.stnStartup_ready 0 0 1).sf F.stnWdogCfg_watches 0 0 65535) (logs evHostSilent) = true ∧
    gives .keeperFailover { State.reset.setFld State.reset.keeperAt { fogged := true } with mirrorReady := false } (logs evKeeperFatal) =
      true ∧
    gives (.smbusClockLowTimeout 1) State.reset (fun t => decide (t.now = 0) && logs evAccessRefused t) = true := by decide +kernel

/-- Field 63 with its window open, which selects the last tile. -/
def windowState : State :=
  ((State.reset.sf F.stnStartupFields_running 0 0 (2 ^ 63)).sf F.tilWinSel_tile 63 0 589823).sf F.tilRole_role 589823 0 1

theorem witness_RegisterAccesses :
    (let k : RegKey := ⟨.pwrAlertEn, 0, 0⟩
     let s := State.reset
     decide (s.place .jtag 0x30008 = .reg k 0) && !(s.barred 64 0x30008 true) && decide (s.gatedBlock 64 0x30008 = none) &&
     plainRegs.contains .pwrAlertEn && s.mayWrite .jtag k && rangeOk .pwrAlertEn 0 7 && s.agrees k 7 &&
     gives (.registerWrite .jtag ⟨0x30008, 4⟩ 7) s (fun t => decide (t.rd .pwrAlertEn = 7) && decide (mfind t.answers .jtag = some (0, 0))) &&
     gives (.registerRead .jtag ⟨0x30008, 4⟩) s (fun t => decide (mfind t.answers .jtag = some (0, 31)))) = true ∧
    gives (.registerWrite .jtag ⟨0x10014, 4⟩ 8) (State.reset.wr .bcnStatus 0 0 9) (fun t => decide (t.rd .bcnStatus = 1)) = true ∧
    gives (.registerWrite .jtag ⟨0x10014, 4⟩ 8) { State.reset.wr .bcnStatus 0 0 9 with hwSet := [(⟨.bcnStatus, 0, 0⟩, (0, 8))] }
      (fun t => decide (t.rd .bcnStatus = 9)) = true ∧
    State.reset.readDenied .jtag ⟨.pwrAlertEn, 0, 0⟩ = false ∧
    ([(0x30009, 4), (0x30008, 2), (0xA0000, 4), (0xFFFFFFFC, 4)].all fun e => gives (.registerRead .jtag ⟨e.1, e.2⟩) State.reset (fun t =>
      decide (mfind t.answers .jtag = some (1, 0))) && gives (.registerWrite .jtag ⟨e.1, e.2⟩ 1) State.reset (fun t =>
      decide (mfind t.answers .jtag = some (1, 0)))) = true ∧
    (let s := windowState
     !(s.barred 63 (0xA4000 + 0x9BFC) true) && s.windowMayWrite 589823 && s.portIdle 589823 0x9BFC &&
     gives (.tileWindowWrite .jtag 589823 0x9BFC 5) s (fun t => decide ((t.sramWord 589823 0x9BFC).w = 5)) &&
     gives (.fstWinDataWrite .jtag 63 0x01020304) (s.sf F.fstWinAddr_addr 63 0 67108860) (fun t =>
       decide (memRead t.fst (fstAddr 63 67108860) = 4) && decide (memRead t.fst (fstAddr 63 67108863) = 1))) = true ∧
    (let s := ((watchState false .work).sf F.tilWinSel_tile 63 0 589823).sf F.fstWinAddr_addr 63 0 4
     let s := wrs (wrs s .fstRegionCfg 63 255 [2 ^ 31 + 2303]) .fstRegionSpan 63 255 [0]
     gives (.fstWinDataWrite .jtag 63 1) s (fun t => decide (t.fst = []) && decide (mfind t.answers .jtag = some (1, 0)))) = true := by decide +kernel

/-! ### The block -/

theorem witness_Block :
    (match step { State.reset with pending := [.stationBeacon, .imageValidation] } with
      | .next t => decide (t.pending = [.imageValidation]) | _ => false) = true ∧
    (match step State.reset with | .next t => decide (t.now = 1) | _ => false) = true ∧
    State.reset.memoryOk = true ∧ (Instr.nop 589823 7).wf = true ∧
    (match step { State.reset with pending := [.nop 589823 7] } with | .next t => t.memoryOk | _ => false) = true ∧
    ([Instr.nop 589824 7, .add 589823 8, .sendm 600000 0].all fun c =>
      (issueCommands 589824 7 ++ issueCommands 589823 8 ++ issueCommands 600000 0).contains c &&
      match exec c State.reset with | .fault .noSuchUnit => true | _ => false) = true := by decide +kernel

/-- A remote load of a block with one word in error, and a scrub of such a line: one correction each, and scrub rewrites. -/
theorem test_corrected_errors :
    gives (.servicePortAccess 1) { portState (.load { pktAt .rload .ejected 1 1 with addr := 64 }) with sramWeak := [sramAddr 1 124] }
      (fun t => decide (t.rd .tilCountEccCorr 1 = 1) && decide (t.sramWeak = [sramAddr 1 124])) = true ∧
    gives (.fstScrub 63 31 16383 none) { State.reset with fstWeak := [fstAddr 63 67108856] } (fun t =>
      decide (t.rd .fstCountEccCorr 63 = 1) && decide (t.fstWeak = [])) = true := by decide +kernel

/-- Ill-formed commands, one for each kind of number that a command names. -/
def illFormed : List Instr :=
  [.commitPoint 64, .verdictVote 64 0 0 true, .verdictVote 0 64 0 true, .verdictVote 0 0 2304 true, .specSweep 0 2304,
   .nop 589824 0, .nop 0 8, .releasePoint 589824 0, .landingCompletion 0 16, .kaccess (.host 4 0) 0 ⟨0, 4⟩ none,
   .kaccess (.host 0 64) 0 ⟨0, 4⟩ none, .kaccess (.keeper 65) 0 ⟨0, 4⟩ none, .kaccess (.tile 589824 0) 0 ⟨0, 4⟩ none,
   .kaccess (.tile 0 8) 0 ⟨0, 4⟩ none, .kaccess .jtag 0 ⟨0x10000, 4⟩ none, .kreg 65 ⟨0, 4⟩ none, .buoyApply 65, .buoyUnreachable 64, .buyKopAdd .jtag 65 0,
   .buyKopAdd .jtag 0 1024, .buyKopAdd .jtag 64 256, .lensPassAccept 0 4, .lensPreload 0 0 16,
   .fieldStoreBankAccess 0 32 0, .cxlMemTimeout 16 none, .resolution 0 16, .pass 0 4, .flush .jtag 0 32, .lightListWrite .jtag 0 64 0,
   .epochArm .jtag 0 65536, .hstDbReqTail 4 0 0 0, .hstDbReqTail 0 64 0 0, .hstDbReqTail 0 0 256 0, .hstDbReqTail 0 0 0 (2 ^ 32),
   .jalfenBeat 8 0 0, .rampStep 2304, .pllUnlock 133, .sourceGood 137, .clkEnableWrite .jtag 67 0, .clockStop 0 32,
   .groupReset (some 65) 0 0, .rimPortReset none 28, .stationReset none 16, .resetTimeout 6 0, .perstN 4,
   .linkTrainFail 3 0, .linkTrainFail 0 4, .linkTrainFail 1 16, .linkTrainFail 2 8, .startupFail 16, .stop 65, .debugSessionExpiry 5,
   .dbgRegWrite .jtag 0 276 0, .tileWindowWrite .jtag 0 0xA000 0]

theorem test_ill_formed_commands_refused : illFormed.all (fun c => !c.wf) = true ∧
    (Instr.registerRead .jtag ⟨0, 65⟩).wf = false := by decide +kernel

theorem test_last_numbers_well_formed :
    ([Instr.commitPoint 63, .verdictVote 63 63 2303 true, .nop 589823 7, .kaccess (.host 3 63) 589823 ⟨0xFFFF, 64⟩ none, .kreg 64 ⟨0, 4⟩ none,
      .buyKopAdd .jtag 64 255, .buyKopAdd .jtag 63 1023, .lensPreload 63 3 15, .resolution 0 15, .flush .jtag 0 31, .pllUnlock 132,
      .sourceGood 136, .linkTrainFail 1 15, .stop 64, .dbgRegWrite .jtag 63 275 0].all (·.wf)) = true := by decide +kernel

/-- No row of the table has bits, so no word spells a command. -/
theorem test_no_word_spells_a_command : decodeTableWord 32 0 = none ∧ State.reset.withFetchWord 32 0 = State.reset := by decide +kernel

end Sys2Proof.Tests
end

section
/-! SUPPORT. What an issuing instruction tallies: the counts, the pops of operand ports and the events of `State.retire`, and
that they leave the machine else as it was. -/

namespace Sys2Proof.Machine

open Sys2Proof.Claims

/-! ### What an issue leaves -/

/-- A group without what its watchdog, its waits and its breakpoint note of an issue (R178, R185, R876). -/
def Group.uncounted (x : Group) : Group := { x with lastRetire := 0, waitFrom := 0, skipBreak := false }

/-- The part of the state on which an issue's tallies never act: without registers, groups, tiles, in-slots, packets, tag
messages and the event log. -/
def State.beyondIssue (s : State) : State :=
  { s with regs := [], groups := [], tiles := [], slots := [], packets := [], nextPkt := 0, tagMsgs := [], rings := [], out := []
           irqWatch := none, hwSet := [] }

/-- The second state is the first with an issue of group `g` of tile `t` tallied: its counts, pops and events, and no more. -/
structure Tallied (t g : Nat) (s s' : State) : Prop where
  groups : ∀ a b, (a, b) ≠ (t, g) → s'.grp a b = s.grp a b
  group : (s'.grp t g).uncounted = (s.grp t g).uncounted
  regs : ∀ r u k, r ∉ issueCounts → s'.rd r u k = s.rd r u k
  stretches : ∀ a, (s'.til a).stretches = (s.til a).stretches
  beyond : s'.beyondIssue = s.beyondIssue

namespace Tallied

variable {t g : Nat} {s s' s'' : State}

theorem refl (s : State) : Tallied t g s s := ⟨fun _ _ _ => rfl, rfl, fun _ _ _ _ => rfl, fun _ => rfl, rfl⟩

theorem trans (h : Tallied t g s s') (h' : Tallied t g s' s'') : Tallied t g s s'' where
  groups a b hab := (h'.groups a b hab).trans (h.groups a b hab)
  group := h'.group.trans h.group
  regs r u k hr := (h'.regs r u k hr).trans (h.regs r u k hr)
  stretches a := (h'.stretches a).trans (h.stretches a)
  beyond := h'.beyond.trans h.beyond

theorem each {α : Type} (f : State → α → State) (l : List α) (hf : ∀ s, ∀ a ∈ l, Tallied t g s (f s a)) (s : State) :
    Tallied t g s (s.each l f) :=
  State.each_keeps (Tallied t g) refl (fun _ _ _ => trans) f l hf s

/-- Instants count the same executed cycles before and after. -/
theorem after_eq (h : Tallied t g s s') (a c n : Nat) : s'.after a c n = s.after a c n := by
  simp only [State.after, h.stretches]

/-- What a group holds beside what an issue notes in it. -/
theorem group_eq {α : Type} (h : Tallied t g s s') (f : Group → α) (hf : ∀ x : Group, f x.uncounted = f x) :
    f (s'.grp t g) = f (s.grp t g) := by
  rw [← hf, h.group, hf]

/-- What the state holds beyond what an issue tallies. -/
theorem beyond_eq {α : Type} (h : Tallied t g s s') (f : State → α) (hf : ∀ s : State, f s.beyondIssue = f s) : f s' = f s := by
  rw [← hf, h.beyond, hf]

end Tallied

section

variable {t g : Nat} (s : State)

/-! ### The updates that an issue makes -/

/-- The sector of a tile, which decides what an unwritten register at the wafer's outer ports reads, is no count. -/
theorem ne_mshTileSector_of_mem_issueCounts {r : Reg} (h : r ∈ issueCounts) : r ≠ .mshTileSector := by
  rintro rfl
  simp [issueCounts] at h

theorem tallied_wr {r : Reg} (h : r ∈ issueCounts) (u k : Nat) (w : BitVec 64) : Tallied t g s (s.wr r u k w) where
  groups _ _ _ := rfl
  group := rfl
  regs r' u' k' hr' := by
    rw [State.rd_wr _ _ _ _ _ _ _ _ (.inr (ne_mshTileSector_of_mem_issueCounts h)), if_neg]
    rintro ⟨⟩
    exact hr' h
  stretches _ := rfl
  beyond := rfl

theorem tallied_bump {r : Reg} (h : r ∈ issueCounts) (u k n : Nat) : Tallied t g s (s.bump r u k n) := tallied_wr s h ..

theorem tallied_hset {f : RegField} (h : f.reg ∈ issueCounts) (u k : Nat) : Tallied t g s (s.hset f u k) :=
  .trans (s' := s.noteSet f u k) ⟨fun _ _ _ => rfl, rfl, fun _ _ _ _ => rfl, fun _ => rfl, rfl⟩ (tallied_wr _ h ..)

theorem tallied_logEv (ev : Ev) (f loc detail : Nat) : Tallied t g s (s.logEv ev f loc detail) := by
  obtain ⟨r, o, i, h⟩ := s.logEv_spec ev f loc detail
  rw [h]
  exact ⟨fun _ _ _ => rfl, rfl, fun _ _ _ _ => rfl, fun _ => rfl, rfl⟩

theorem tallied_tagBus (a : Nat) (op : TagOp) (tag c : Nat) (tag2 : Option Nat) : Tallied t g s (s.tagBus a op tag c tag2) :=
  ⟨fun _ _ _ => rfl, rfl, fun _ _ _ _ => rfl, fun _ => rfl, rfl⟩

theorem tallied_setSlot (a k : Nat) (x : Slot) : Tallied t g s (s.setSlot a k x) :=
  ⟨fun _ _ _ => rfl, rfl, fun _ _ _ _ => rfl, fun _ => rfl, rfl⟩

theorem tallied_addPkt (p : Packet) : Tallied t g s (s.addPkt p) :=
  ⟨fun _ _ _ => rfl, rfl, fun _ _ _ _ => rfl, fun _ => rfl, rfl⟩

theorem tallied_setPkt (p : Packet) : Tallied t g s (s.setPkt p) :=
  ⟨fun _ _ _ => rfl, rfl, fun _ _ _ _ => rfl, fun _ => rfl, rfl⟩

theorem tallied_setTil {a : Nat} {y : Tile} (h : y.stretches = (s.til a).stretches) : Tallied t g s (s.setTil a y) where
  groups _ _ _ := rfl
  group := rfl
  regs _ _ _ _ := rfl
  stretches b := by
    rw [State.til_setTil]
    split
    · next hb => rw [h, hb]
    · rfl
  beyond := rfl

theorem tallied_setGrp {x : Group} (h : x.uncounted = (s.grp t g).uncounted) : Tallied t g s (s.setGrp t g x) where
  groups a b hab := by rw [State.grp_setGrp, if_neg hab]
  group := by rw [State.grp_setGrp_self, h]
  regs _ _ _ _ := rfl
  stretches _ := rfl
  beyond := rfl

/-! ### Popping operand ports -/

theorem tallied_returnCredit (a k src sslot didx n c : Nat) : Tallied t g s (s.returnCredit a k src sslot didx n c) := by
  unfold State.returnCredit
  split
  · exact .refl s
  · simp only
    split
    · exact tallied_setPkt s _
    · exact tallied_addPkt s _

theorem tallied_creditWords (a k c : Nat) (ws : List QWord) : Tallied t g s (s.creditWords a k c ws) :=
  .each _ _ (fun s _ _ => tallied_returnCredit s ..) s

theorem tallied_channelPoison (a k : Nat) : Tallied t g s (s.channelPoison a k) := by
  have hset : Tallied t g s (s.hset F.chnSlotStatus_poison a k) := tallied_hset s (by simp [issueCounts, F.chnSlotStatus_poison]) ..
  unfold State.channelPoison
  exact (hset.trans (tallied_setTil _ (by rfl))).trans (tallied_logEv ..)

theorem tallied_poolRead (a k : Nat) (ws : List QWord) : Tallied t g s (s.poolRead a k ws) := by
  have hecc : Tallied t g s (s.poolEcc a ws) := by
    unfold State.poolEcc
    split
    · exact tallied_bump s (by simp [issueCounts]) ..
    · exact .refl s
  exact hecc.trans (.each _ _ (fun s _ _ => tallied_channelPoison s a k) _)

theorem tallied_setQueue (a k c : Nat) (q : List QWord) : Tallied t g s (s.setQueue a k c q) := by
  unfold State.setQueue
  simp only
  refine .trans ?_ (tallied_setSlot ..)
  split
  · split
    · exact .refl s
    · exact tallied_bump s (by simp [issueCounts]) ..
  · exact .refl s

theorem tallied_popSlot (a k c : Nat) : Tallied t g s (s.popSlot a k c) := by
  unfold State.popSlot
  split
  · exact .refl s
  · exact ((tallied_setQueue s ..).trans (tallied_creditWords ..)).trans (tallied_poolRead ..)

/-! ### Counts and the issue slot -/

theorem tallied_readEcc (a : Nat) (offs : List Nat) : Tallied t g s (s.readEcc a offs) := by
  obtain h | ⟨n, h⟩ := s.readEcc_spec a offs
  · rw [h]
    exact .refl s
  · rw [h]
    exact tallied_bump s (by simp [issueCounts]) ..

theorem tallied_takeSlot (a b c : Nat) : Tallied t g s (s.takeSlot a b c) :=
  (tallied_bump s (by simp [issueCounts]) ..).trans (tallied_setTil _ (by rfl))

/-- What an instruction waits for last is counted in one of the counts of an issue. -/
theorem lastWait_mem_issueCounts {x : Ctx} {r : Reg} {i : Nat} {short : Nat → Bool} (h : s.lastWait x = some (r, i, short)) :
    r ∈ issueCounts := by
  have hr : r = .chnCountStallCredit ∨ r = .sptCountShadowStall ∨ r = .tilCountTagStall := by
    unfold State.lastWait at h
    grind
  rcases hr with rfl | rfl | rfl <;> simp [issueCounts]

theorem tallied_countWait (x : Ctx) (b : Nat) : Tallied t g s (s.countWait x b) := by
  unfold State.countWait
  split
  · exact .refl s
  · next h =>
    simp only
    split
    · exact .refl s
    · exact tallied_bump s (lastWait_mem_issueCounts s h) ..

theorem tallied_conflict (a b x y c : Nat) : Tallied t g s (s.conflict a b x y c) :=
  (((tallied_tagBus s ..).trans (tallied_hset _ (by simp [issueCounts, F.sptStatus_conflict]) ..)).trans
    (tallied_bump _ (by simp [issueCounts]) ..)).trans (tallied_logEv ..)

@[simp] theorem State.conflict_til (a b x y c t' : Nat) : (s.conflict a b x y c).til t' = s.til t' := by
  simp only [State.conflict, State.logEv_til, State.bump_til, State.hset_til]
  rfl

end

/-! ### Retiring -/

/-- A conflict that an instruction met is reported; with none, nothing happens (R549). -/
def State.reportConflict (s : State) (x : Ctx) : Option (Nat × Nat) → State
  | some (a, b) => s.conflict x.t x.g a b x.cyc
  | none => s

/-- The first part of `State.retire`: the word fetched, the issue slot, the ports popped, the count of issues. -/
def State.slotTaken (s : State) (x : Ctx) : State :=
  let s := ((s.countWait x x.cyc).readEcc x.t [x.grp.pc]).takeSlot x.t x.g x.cyc
  let s := if x.dead then s.bump .sptCountDead x.t 0 1
    else if x.em = 0 ∧ isControl x.inst = false then s
    else s.each x.ports fun s q => match s.portSlot x.t x.g q.1 with
      | some k => s.popSlot x.t k x.cyc
      | none => s
  s.bump .tilCountIssue x.t 0 1

/-- The second part of `State.retire`: the tile's clock moves on by the issue cycles, the group's watchdog starts anew. -/
def State.clockedOn (s : State) (x : Ctx) (occ : Nat) : State :=
  let next := s.after x.t x.cyc occ
  let s := s.setTil x.t { s.til x.t with cyc := next }
  s.setGrp x.t x.g { s.grp x.t x.g with lastRetire := next - 1, waitFrom := next, skipBreak := false }

theorem State.retire_eq (s : State) (x : Ctx) (occ : Nat) :
    s.retire x occ = ((s.slotTaken x).clockedOn x occ).reportConflict x x.conflict := rfl

theorem tallied_reportConflict {t g : Nat} (s : State) (x : Ctx) (c : Option (Nat × Nat)) :
    Tallied t g s (s.reportConflict x c) := by
  match c with
  | some _ => exact tallied_conflict s ..
  | none => exact .refl s

@[simp] theorem State.reportConflict_til (s : State) (x : Ctx) (c : Option (Nat × Nat)) (t' : Nat) :
    (s.reportConflict x c).til t' = s.til t' := by
  match c with
  | some _ => exact State.conflict_til s ..
  | none => rfl

theorem tallied_slotTaken {t g : Nat} (s : State) (x : Ctx) : Tallied t g s (s.slotTaken x) := by
  have htaken : Tallied t g s (((s.countWait x x.cyc).readEcc x.t [x.grp.pc]).takeSlot x.t x.g x.cyc) :=
    ((tallied_countWait s ..).trans (tallied_readEcc ..)).trans (tallied_takeSlot ..)
  refine htaken.trans (.trans ?_ (tallied_bump _ (by simp [issueCounts]) ..))
  split
  · exact tallied_bump _ (by simp [issueCounts]) ..
  · split
    · exact .refl _
    · refine .each _ _ (fun s q _ => ?_) _
      split
      · exact tallied_popSlot s ..
      · exact .refl s

theorem tallied_clockedOn (s : State) (x : Ctx) (occ : Nat) : Tallied x.t x.g s (s.clockedOn x occ) := by
  unfold State.clockedOn
  exact (tallied_setTil s (by rfl)).trans (tallied_setGrp _ (by rfl))

/-- Retiring an instruction only tallies its issue. -/
theorem tallied_retire (s : State) (x : Ctx) (occ : Nat) : Tallied x.t x.g s (s.retire x occ) := by
  rw [State.retire_eq]
  exact ((tallied_slotTaken s x).trans (tallied_clockedOn ..)).trans (tallied_reportConflict ..)

/-- A tile whose instruction retires is next free after its issue cycles (R140, R144). -/
theorem State.retire_cyc (s : State) (x : Ctx) (occ : Nat) : ((s.retire x occ).til x.t).cyc = s.after x.t x.cyc occ := by
  rw [State.retire_eq, State.reportConflict_til]
  calc (((s.slotTaken x).clockedOn x occ).til x.t).cyc
    _ = (s.slotTaken x).after x.t x.cyc occ := by simp [State.clockedOn]
    _ = s.after x.t x.cyc occ := (tallied_slotTaken (t := x.t) (g := x.g) s x).after_eq ..

end Sys2Proof.Machine
end

section
/-! SUPPORT. What an instruction with one destination writes, and how a command's issue comes to its body. -/

namespace Sys2Proof.Machine

open Sys2Proof.Claims

/-! ### The operands of an issue -/

section

variable (s : State) (t g c : Nat) (i : TInst)

@[simp] theorem State.mkCtx_t : (s.mkCtx t g c i).t = t := rfl
@[simp] theorem State.mkCtx_g : (s.mkCtx t g c i).g = g := rfl
@[simp] theorem State.mkCtx_cyc : (s.mkCtx t g c i).cyc = c := rfl
@[simp] theorem State.mkCtx_inst : (s.mkCtx t g c i).inst = i := rfl
@[simp] theorem State.mkCtx_grp : (s.mkCtx t g c i).grp = s.grp t g := rfl

end

/-! ### `writeDst` -/

section

variable (y : Group) (x : Ctx) (d : Nat) (m : Marker) (a : Nat) (val : Nat → Word)

/-- A lane register put in some lanes. -/
theorem mget_foldl_mput_lanes (l : List Nat) (v : Smap (Nat × Nat) Word) (r k : Nat) :
    mget 0 (l.foldl (fun v k => mput v (d, k) (val k)) v) (r, k) = if r = d ∧ k ∈ l then val k else mget 0 v (r, k) := by
  induction l generalizing v with
  | nil => simp
  | cons j l ih =>
    rw [List.foldl_cons, ih, mget_mput]
    by_cases hr : r = d <;> by_cases hk : k = j <;> by_cases hl : k ∈ l <;> simp [hr, hk, hl]

theorem writeDst_lane (r k : Nat) :
    (writeDst y x d m a val).lane r k = if d < 0x20 ∧ r = d ∧ k ∈ x.lanes then val k else y.lane r k := by
  unfold writeDst
  split
  · simp [*]
  · by_cases hd : d < 0x20
    · simp only [Group.lane, hd, if_true, true_and, mget_foldl_mput_lanes]
    · simp [Group.lane, hd]

theorem writeDst_uni (r : Nat) :
    (writeDst y x d m a val).uni r = if 0x20 ≤ d ∧ r = d - 0x20 ∧ x.lanes ≠ [] then val x.lane0 else y.uni r := by
  unfold writeDst
  split
  · simp [*]
  · next hl =>
    by_cases hd : d < 0x20
    · simp [Group.uni, hd, Nat.not_le.mpr hd]
    · simp [Group.uni, hd, Nat.not_lt.mp hd, hl, mget_mput]

theorem writeDst_readyAt (hl : x.lanes ≠ []) :
    (writeDst y x d m a val).readyAt d = if x.lanes.length = 8 ∨ 0x20 ≤ d then a else max (y.readyAt d) a := by
  simp [writeDst, hl, Group.readyAt]

/-- A destination written leaves the rest of its group. -/
theorem writeDst_frame {α : Type} (f : Group → α)
    (hf : ∀ (y : Group) v u marks ready loading,
      f { y with v := v, u := u, marks := marks, ready := ready, loading := loading } = f y) :
    f (writeDst y x d m a val) = f y := by
  unfold writeDst
  split
  · rfl
  · exact hf ..

end

/-! ### What stands after an issue -/

/-- An issue tallied, and its group then set, is within the frame of an issuing instruction. -/
theorem Tallied.tileFrame {t g : Nat} {s u : State} (h : Tallied t g s u) (y : Group) : TileFrame s (u.setGrp t g y) t g where
  groups a b hab := by rw [State.grp_setGrp, if_neg hab, h.groups a b hab]
  regs := h.regs
  fst := ⟨h.beyond_eq State.fst fun _ => rfl, h.beyond_eq State.fstBad fun _ => rfl⟩
  fields := h.beyond_eq State.fields fun _ => rfl
  buoys := ⟨h.beyond_eq State.buoys fun _ => rfl, h.beyond_eq State.buoyBlocks fun _ => rfl⟩
  engines := ⟨h.beyond_eq State.lenses fun _ => rfl, h.beyond_eq State.mvs fun _ => rfl, h.beyond_eq State.rules fun _ => rfl⟩
  others := ⟨h.beyond_eq State.journal fun _ => rfl, h.beyond_eq State.sectors fun _ => rfl,
    h.beyond_eq State.sectorTags fun _ => rfl, h.beyond_eq State.now fun _ => rfl, h.beyond_eq State.pending fun _ => rfl,
    h.beyond_eq State.fuses fun _ => rfl⟩

/-- An issue tallied, its destination written and its program counter moved on, is what `Wrote` says. -/
theorem Tallied.wrote {s u : State} {x : Ctx} (h : Tallied x.t x.g s u) (hx : x.grp = s.grp x.t x.g) (d : Nat) (m : Marker)
    (a : Nat) (val : Nat → Word) :
    Wrote s (u.setGrp x.t x.g (writeDst (u.grp x.t x.g) x d m a val).bumpPc) x d a val where
  lanes r k := by
    rw [State.grp_setGrp_self, hx, ← h.group_eq (·.lane r k) fun _ => rfl]
    exact writeDst_lane ..
  uniform r := by
    rw [State.grp_setGrp_self, hx, ← h.group_eq (·.uni r) fun _ => rfl]
    exact writeDst_uni ..
  ready hl := by
    rw [State.grp_setGrp_self, hx, ← h.group_eq (·.readyAt d) fun _ => rfl]
    exact writeDst_readyAt _ _ _ _ _ _ hl
  preds r := by
    rw [State.grp_setGrp_self, hx, ← h.group_eq (·.pred r) fun _ => rfl]
    exact writeDst_frame _ _ _ _ _ _ (·.pred r) fun _ _ _ _ _ _ => rfl
  pc := by
    rw [State.grp_setGrp_self, hx, ← h.group_eq (·.pc) fun _ => rfl]
    exact congrArg (fun n => (n + 4) % 65536) (writeDst_frame _ _ _ _ _ _ (·.pc) fun _ _ _ _ _ _ => rfl)
  control := by
    have hc := writeDst_frame (u.grp x.t x.g) x d m a val (fun y => (y.amask, y.stack, y.nest, y.st)) fun _ _ _ _ _ _ => rfl
    rw [h.group_eq (fun y => (y.amask, y.stack, y.nest, y.st)) fun _ => rfl, ← hx] at hc
    rw [State.grp_setGrp_self]
    simp only [Prod.mk.injEq] at hc
    exact hc
  sram := ⟨h.beyond_eq State.sram fun _ => rfl, h.beyond_eq State.sramBad fun _ => rfl⟩
  frame := h.tileFrame _

/-- What an instruction that writes one destination does: its issue tallied, then its group with the destination written. -/
theorem execLane_spec (x : Ctx) (d lat : Nat) (val : Nat → Word) (s : State) (occ : Nat) :
    ∃ u m, Tallied x.t x.g s u ∧ execLane x d lat val s occ = u.setGrp x.t x.g
      (writeDst (u.grp x.t x.g) x d m (s.after x.t (s.after x.t x.cyc occ - 1) lat) val).bumpPc := by
  let r := if x.lanes.length = 8 ∨ x.lanes = [] ∨ 0x20 ≤ d then (x.mark, none)
    else (s.retire x occ).combine x.sec x.mark (viewMark ((s.retire x occ).til x.t).view (x.grp.markOf d))
  let u := (s.retire x occ).reportConflict x r.2
  have hu : Tallied x.t x.g s u := (tallied_retire s x occ).trans (tallied_reportConflict ..)
  have hcyc : (u.til x.t).cyc = s.after x.t x.cyc occ := by rw [State.reportConflict_til, State.retire_cyc]
  refine ⟨u, if x.dead ∨ x.conflict.isSome then .dead else r.1, hu, ?_⟩
  rw [← hcyc, ← hu.after_eq]
  rfl

/-- An instruction that writes one destination writes it, readable its latency after the last of its issue cycles. -/
theorem execLane_wrote (x : Ctx) (d lat : Nat) (val : Nat → Word) (s : State) (occ : Nat) (hx : x.grp = s.grp x.t x.g) :
    Wrote s (execLane x d lat val s occ) x d (s.after x.t (s.after x.t x.cyc occ - 1) lat) val := by
  obtain ⟨u, m, hu, h⟩ := execLane_spec x d lat val s occ
  rw [h]
  exact hu.wrote hx ..

/-! ### From the command to the body -/

theorem onGroup_of_lt {t g : Nat} (ht : t < 589824) (hg : g < 8) (s : State) : onGroup t g s = .next s := by
  simp [onGroup, isTile, ht, hg]

/-- No stretched cycle but `c` itself delays what is due one cycle after `c`. -/
theorem afterCycles_one {l : List Nat} {c : Nat} (h : c ∉ l) : afterCycles l c 1 = c + 1 := by
  unfold afterCycles
  induction l with
  | nil => rfl
  | cons k l ih =>
    obtain ⟨hk, hl⟩ := not_or.mp (List.mem_cons.not.mp h)
    rw [List.foldl_cons, if_neg (by omega), ih hl]

end Sys2Proof.Machine

namespace Sys2Proof.Claims

open Sys2Proof.Machine

section

variable {s : State} {t g c : Nat} {i : TInst}

/-- A command whose instruction issues does what the instruction's body does. -/
theorem Issues.gives (h : Issues s t g c i) {cmd : Instr} {body : Ctx → State → State} {P : State → Prop}
    (hc : exec cmd s = onGroup t g (issueAs t g (mnemOf i) body s)) (hp : P (body (s.mkCtx t g c i) s)) : Gives cmd s P := by
  refine ⟨_, ?_, hp⟩
  rw [hc, issueAs_go s t g c _ i body h.turn h.next rfl h.inWork h.noBreak, onGroup_of_lt h.tile h.group]

/-- One executed cycle after an issue is the next cycle, stretched or not (R144). -/
theorem Issues.after_one (h : Issues s t g c i) : s.after t c 1 = c + 1 := afterCycles_one h.executed

/-- A command whose instruction issues, takes one issue cycle and writes one destination, writes it, readable its latency after
the issue (R143). -/
theorem Issues.gives_wrote (h : Issues s t g c i) {cmd : Instr} {body : Ctx → State → State} {d lat : Nat}
    {val val' : Nat → Word} (hc : exec cmd s = onGroup t g (issueAs t g (mnemOf i) body s))
    (hb : body (s.mkCtx t g c i) s = execLane (s.mkCtx t g c i) d lat val s) (hv : ∀ k, val k = val' k) :
    Gives cmd s fun s' => Wrote s s' (s.mkCtx t g c i) d (s.after t c lat) val' := by
  refine h.gives hc ?_
  obtain rfl := funext hv
  have hw := execLane_wrote (s.mkCtx t g c i) d lat val s 1 rfl
  rw [State.mkCtx_t, State.mkCtx_cyc, h.after_one, Nat.add_sub_cancel] at hw
  rwa [hb]

end

end Sys2Proof.Claims
end

section
/-! SUPPORT. The integer and move instructions: their word operations as arithmetic (R208, R209), and what they write. -/

namespace Sys2Proof.Machine

open Sys2Proof.Claims

variable (a b : Word)

theorem add_eq_ofInt : a + b = BitVec.ofInt 32 (a.toInt + b.toInt) := by
  rw [BitVec.ofInt_add, BitVec.ofInt_toInt, BitVec.ofInt_toInt]

theorem sub_eq_ofInt : a - b = BitVec.ofInt 32 (a.toInt - b.toInt) :=
  BitVec.eq_of_toInt_eq (by rw [BitVec.toInt_sub, BitVec.toInt_ofInt])

theorem mul_eq_ofInt : a * b = BitVec.ofInt 32 (a.toInt * b.toInt) := by
  rw [BitVec.ofInt_mul, BitVec.ofInt_toInt, BitVec.ofInt_toInt]

theorem shlVal_eq : shlVal a b = BitVec.ofNat 32 (a.toNat * 2 ^ (b.toNat % 32)) :=
  BitVec.eq_of_toNat_eq (by rw [shlVal, BitVec.toNat_shiftLeft, Nat.shiftLeft_eq, BitVec.toNat_ofNat])

theorem shrVal_eq : shrVal a b = BitVec.ofNat 32 (a.toNat / 2 ^ (b.toNat % 32)) := by
  have hlt : a.toNat / 2 ^ (b.toNat % 32) < 2 ^ 32 := (Nat.div_le_self ..).trans_lt a.isLt
  apply BitVec.eq_of_toNat_eq
  rw [shrVal, BitVec.toNat_ushiftRight, Nat.shiftRight_eq_div_pow, BitVec.toNat_ofNat, Nat.mod_eq_of_lt hlt]

theorem sarVal_eq : sarVal a b = BitVec.ofInt 32 (a.toInt / (2 ^ (b.toNat % 32) : Nat)) := by
  rw [sarVal, BitVec.sshiftRight, Int.shiftRight_eq_div_pow]

theorem minVal_eq : minVal a b = if a.toInt ≤ b.toInt then a else b := by
  simp only [minVal, BitVec.slt_iff_toInt_lt, ← Int.not_le, ite_not]

theorem maxVal_eq : maxVal a b = if b.toInt ≤ a.toInt then a else b := by
  simp only [maxVal, BitVec.slt_iff_toInt_lt, ← Int.not_le, ite_not]

theorem minuVal_eq : minuVal a b = if a.toNat ≤ b.toNat then a else b := by
  simp only [minuVal, BitVec.ult_iff_lt, BitVec.lt_def, ← Nat.not_le, ite_not]

theorem maxuVal_eq : maxuVal a b = if b.toNat ≤ a.toNat then a else b := by
  simp only [maxuVal, BitVec.ult_iff_lt, BitVec.lt_def, ← Nat.not_le, ite_not]

theorem movhi_eq (v : BitVec 16) : immVal .movhi v a = BitVec.ofNat 32 (v.toNat * 65536 + a.toNat % 65536) := by
  apply BitVec.eq_of_toNat_eq
  have hv := v.isLt
  have hd : a.toNat % 65536 < 65536 := Nat.mod_lt _ (by decide)
  simp only [immVal, BitVec.toNat_append, BitVec.extractLsb'_toNat, Nat.shiftRight_zero, BitVec.toNat_ofNat]
  rw [← Nat.shiftLeft_add_eq_or_of_lt hd, Nat.shiftLeft_eq]
  omega

theorem addi_eq (v : BitVec 16) : immVal .addi v a = BitVec.ofInt 32 (a.toInt + v.toInt) := by
  rw [BitVec.ofInt_add, BitVec.ofInt_toInt]
  rfl

/-- Each integer instruction of format R issues as a lane operation of what it computes of A and B. -/
theorem intOps_rLane (t g : Nat) (gp : BitVec 3) (gn : Bool) (d a b : BitVec 6) (fmt : BitVec 4) :
    ∀ e ∈ intOps t g, ∃ f, (∀ s, exec e.1 s = onGroup t g (issueAs t g (mnemOf (.reg e.2.1 gp gn d a b fmt)) (rLane f) s)) ∧
      ∀ x y, f x y = e.2.2 x y := by
  simp only [intOps, List.forall_mem_cons]
  exact ⟨⟨_, fun _ => rfl, add_eq_ofInt⟩, ⟨_, fun _ => rfl, sub_eq_ofInt⟩, ⟨_, fun _ => rfl, mul_eq_ofInt⟩,
    ⟨_, fun _ => rfl, fun _ _ => rfl⟩, ⟨_, fun _ => rfl, fun _ _ => rfl⟩, ⟨_, fun _ => rfl, fun _ _ => rfl⟩,
    ⟨_, fun _ => rfl, shlVal_eq⟩, ⟨_, fun _ => rfl, shrVal_eq⟩, ⟨_, fun _ => rfl, sarVal_eq⟩,
    ⟨_, fun _ => rfl, minVal_eq⟩, ⟨_, fun _ => rfl, maxVal_eq⟩, ⟨_, fun _ => rfl, minuVal_eq⟩,
    ⟨_, fun _ => rfl, maxuVal_eq⟩, List.forall_mem_nil _⟩

end Sys2Proof.Machine

namespace Sys2Proof.Claims

open Sys2Proof.Machine

/-- Settles O11: each command issues (`Issues.gives`), its body is one `execLane` of latency 1 (`execLane_wrote`), and its word
operation is the arithmetic of R208 and R209. -/
theorem integerAndMoveResults : Obligations.IntegerAndMoveResults := by
  refine ⟨fun s t g c gp gn d a b fmt e he h => ?_, fun s t g c gp gn d a b fmt v =>
    ⟨fun h => ?mov, fun h => ?shfl, fun h => ?movi, fun h => ?movhi, fun h => ?addi⟩⟩
  · obtain ⟨f, hexec, hval⟩ := intOps_rLane t g gp gn d a b fmt e he
    exact h.gives_wrote (hexec s) rfl fun _ => hval ..
  case mov => exact h.gives_wrote (body := rLane fun a _ => a) rfl rfl fun _ => rfl
  case shfl => exact h.gives_wrote rfl rfl fun _ => rfl
  case movi => exact h.gives_wrote (body := immBody) rfl rfl fun _ => rfl
  case movhi => exact h.gives_wrote (body := immBody) rfl rfl fun _ => movhi_eq ..
  case addi => exact h.gives_wrote (body := immBody) rfl rfl fun _ => addi_eq ..

end Sys2Proof.Claims
end

section
/-! SUPPORT. The traps that a tile instruction takes as it issues: their causes and what they leave (R173, R174, R249). -/

namespace Sys2Proof.Machine

open Sys2Proof.Claims

/-- Every command that issues a tile instruction does so through `issueAs`. -/
theorem issueCommands_issueAs (t g : Nat) (s : State) :
    ∀ i ∈ issueCommands t g, ∃ m body, exec i s = onGroup t g (issueAs t g m body s) := by
  simp only [issueCommands, List.forall_mem_cons]
  iterate 58 refine ⟨⟨_, _, rfl⟩, ?_⟩
  exact List.forall_mem_nil _

/-! ### What a trap at issue leaves -/

section

variable (s : State) (t g cyc cause addr : Nat) (fetches : Bool)

@[simp] theorem State.readEcc_grp (offs : List Nat) (a b : Nat) : (s.readEcc t offs).grp a b = s.grp a b := by
  obtain h | ⟨n, h⟩ := s.readEcc_spec t offs <;> rw [h]
  exact State.bump_grp ..

/-- A trap at issue is a trap that takes the issue slot, after a fetch that at most counts a correction (R172, R177). -/
theorem State.issueTrap_spec : ∃ u, (u = s ∨ ∃ n, u = s.bump .tilCountEccCorr t 0 n) ∧
    s.issueTrap t g cyc cause addr fetches = (u.trap t g cyc cause (s.grp t g).pc addr).takeSlot t g cyc := by
  cases fetches with
  | false => exact ⟨s, .inl rfl, rfl⟩
  | true =>
    refine ⟨_, s.readEcc_spec t [(s.grp t g).pc], ?_⟩
    simp only [State.issueTrap, if_true, State.readEcc_grp]

theorem State.takeSlot_rd {r : Reg} (h : r ≠ .tilCountIdle) (u k : Nat) : (s.takeSlot t g cyc).rd r u k = s.rd r u k := by
  simp only [State.takeSlot, State.setTil_rd, State.bump]
  rw [State.rd_wr _ _ _ _ _ _ _ _ (.inr (by decide)), if_neg]
  rintro ⟨⟩
  exact h rfl

@[simp] theorem State.takeSlot_grp (a b : Nat) : (s.takeSlot t g cyc).grp a b = s.grp a b := by simp [State.takeSlot]

/-- A trap leaves its group TRAPPED and every other group as it was. -/
theorem State.trap_grp (pc a b : Nat) : (s.trap t g cyc cause pc addr).grp a b =
    if (a, b) = (t, g) then { s.grp t g with st := .trapped } else s.grp a b := by
  obtain ⟨r, o, i, h⟩ := s.trap_spec t g cyc cause pc addr
  rw [h, State.grp]
  exact mget_mput ..

/-- An event logged leaves every register. -/
theorem State.rd_events (r : Smap Nat Ring) (o : List Output) (i : Option Nat) (reg : Reg) (u k : Nat) :
    ({ s with rings := r, out := o, irqWatch := i } : State).rd reg u k = s.rd reg u k := rfl

/-- `TGP_TRAP` holds the cause and the program counter (R173). -/
theorem State.trap_tgpTrap (pc : Nat) :
    (s.trap t g cyc cause pc addr).rd .tgpTrap t g = BitVec.ofNat 64 (cause * 65536 + pc % 65536) := by
  obtain ⟨r, o, i, h⟩ := s.trap_spec t g cyc cause pc addr
  rw [h, State.rd_events, State.rd_wr _ _ _ _ _ _ _ _ (.inr (by decide)), if_neg (by simp), State.rd_wr_self]

/-- `TGP_TRAP_ADDR` holds the address (R173). -/
theorem State.trap_tgpTrapAddr (pc : Nat) : (s.trap t g cyc cause pc addr).rd .tgpTrapAddr t g = BitVec.ofNat 64 addr := by
  obtain ⟨r, o, i, h⟩ := s.trap_spec t g cyc cause pc addr
  rw [h, State.rd_events, State.rd_wr_self]

/-- The group that traps as it issues is TRAPPED and else as it was, and no other group changes. -/
theorem State.issueTrap_grp (a b : Nat) : (s.issueTrap t g cyc cause addr fetches).grp a b =
    if (a, b) = (t, g) then { s.grp t g with st := .trapped } else s.grp a b := by
  obtain ⟨u, hu, h⟩ := s.issueTrap_spec t g cyc cause addr fetches
  rw [h, State.takeSlot_grp, State.trap_grp]
  obtain rfl | ⟨n, rfl⟩ := hu
  · rfl
  · simp only [State.bump_grp]

theorem State.issueTrap_tgpTrap : (s.issueTrap t g cyc cause addr fetches).rd .tgpTrap t g =
    BitVec.ofNat 64 (cause * 65536 + (s.grp t g).pc % 65536) := by
  obtain ⟨u, hu, h⟩ := s.issueTrap_spec t g cyc cause addr fetches
  rw [h, State.takeSlot_rd _ _ _ _ (by decide), State.trap_tgpTrap]

theorem State.issueTrap_tgpTrapAddr : (s.issueTrap t g cyc cause addr fetches).rd .tgpTrapAddr t g = BitVec.ofNat 64 addr := by
  obtain ⟨u, hu, h⟩ := s.issueTrap_spec t g cyc cause addr fetches
  rw [h, State.takeSlot_rd _ _ _ _ (by decide), State.trap_tgpTrapAddr]

/-- A trap at issue writes no memory and sends nothing. -/
theorem State.issueTrap_memory : (s.issueTrap t g cyc cause addr fetches).sram = s.sram ∧
    (s.issueTrap t g cyc cause addr fetches).fst = s.fst ∧
    (s.issueTrap t g cyc cause addr fetches).packets = s.packets := by
  obtain ⟨u, hu, h⟩ := s.issueTrap_spec t g cyc cause addr fetches
  obtain ⟨r, o, i, ht⟩ := u.trap_spec t g cyc cause (s.grp t g).pc addr
  rw [h, ht]
  obtain rfl | ⟨n, rfl⟩ := hu <;> simp [State.takeSlot]

end

/-! ### What decides a trap -/

/-- What the word at a group's program counter, fetched in cycle `c`, decides: the last part of `State.nextOf` (R141, R249). -/
def State.fetchedNext (s : State) (t g c : Nat) : Next :=
  let x := s.grp t g
  if s.sharedBytes t ≤ x.pc ∨ x.pc % 4 ≠ 0 then .trap c 0x02
  else if (s.fetched t x.pc c).bad then .trap c 0x0B
  else match decodeTile (s.fetched t x.pc c).w with
    | none => .trap c 0x01
    | some i => match s.staticTrap t g i with
      | some cause => .trap c cause
      | none =>
        if (s.sourcesOf t i).any fun r => x.loading.any (·.1 = r) then .stuck c 1
        else s.readiness t g (s.sourcesFrom t g i c) i

/-- A group that comes to fetch its next instruction: it runs, its field is in WORK, its sector neither drains nor is quiesced,
and its tile is not dark (R31, R141, R316, R319). -/
structure Fetching (s : State) (t g : Nat) : Prop where
  running : (s.grp t g).st = .running
  going : (s.grp t g).ended = false
  work : (s.fld (fieldOf t)).phase = .work
  flowing : s.isDraining (fieldOf t) (s.sectorOf t) = false
  awake : s.isQuiesced (fieldOf t) (s.sectorOf t) = false
  lit : s.tileDark t = false

namespace Fetching

variable {s : State} {t g : Nat} (h : Fetching s t g)

include h

theorem nextOf_eq : s.nextOf t g = Next.skip (s.til t).stretches (s.fetchedNext t g (s.fetchCycle t)) :=
  if_neg (by simp [h.running, h.going, h.work, h.flowing, h.awake, h.lit])

/-- A program counter outside the shared region traps (R249). -/
theorem nextOf_outside (hpc : s.sharedBytes t ≤ (s.grp t g).pc) :
    s.nextOf t g = .trap (skipStretch (s.til t).stretches (s.fetchCycle t)) 2 := by
  simp [h.nextOf_eq, State.fetchedNext, hpc, Next.skip]

variable (hin : (s.grp t g).pc < s.sharedBytes t) (hal : (s.grp t g).pc % 4 = 0)

include hin hal

/-- An uncorrectable word traps (R249). -/
theorem nextOf_uncorrectable (hbad : (s.fetched t (s.grp t g).pc (s.fetchCycle t)).bad = true) :
    s.nextOf t g = .trap (skipStretch (s.til t).stretches (s.fetchCycle t)) 0xB := by
  simp [h.nextOf_eq, State.fetchedNext, Nat.not_le.mpr hin, hal, hbad, Next.skip]

variable (hok : (s.fetched t (s.grp t g).pc (s.fetchCycle t)).bad = false)

include hok

/-- A word that decodes to nothing traps (R249). -/
theorem nextOf_illegal (hdec : decodeTile (s.fetched t (s.grp t g).pc (s.fetchCycle t)).w = none) :
    s.nextOf t g = .trap (skipStretch (s.til t).stretches (s.fetchCycle t)) 1 := by
  simp [h.nextOf_eq, State.fetchedNext, Nat.not_le.mpr hin, hal, hok, hdec, Next.skip]

/-- An instruction that its encoding and its group's stacks let trap takes that trap (R249). -/
theorem nextOf_static {i : TInst} {cause : Nat} (hdec : decodeTile (s.fetched t (s.grp t g).pc (s.fetchCycle t)).w = some i)
    (htrap : s.staticTrap t g i = some cause) :
    s.nextOf t g = .trap (skipStretch (s.til t).stretches (s.fetchCycle t)) cause := by
  simp [h.nextOf_eq, State.fetchedNext, Nat.not_le.mpr hin, hal, hok, hdec, htrap, Next.skip]

end Fetching

section

variable (s : State) (t g : Nat) (gp : BitVec 3) (gn : Bool) (off : BitVec 16)

theorem State.staticTrap_pushif (h : 8 ≤ (s.grp t g).stack.length) : s.staticTrap t g (.ctl .pushif gp gn off) = some 7 := by
  simp [State.staticTrap, portsOf, h]

theorem State.staticTrap_stackEmpty {op : CtlOp} (hop : op = .else_ ∨ op = .pop) (h : (s.grp t g).stack = []) :
    s.staticTrap t g (.ctl op gp gn off) = some 8 := by
  obtain rfl | rfl := hop <;> simp [State.staticTrap, portsOf, h]

theorem State.staticTrap_specBegin (tag : BitVec 4) (h : 4 ≤ (s.grp t g).nest.length) :
    s.staticTrap t g (.spec .begin_ tag) = some 9 := by
  simp [State.staticTrap, portsOf, h]

end

end Sys2Proof.Machine

namespace Sys2Proof.Claims

open Sys2Proof.Machine

/-- Settles O16: every command goes through `issueAs`, which takes the trap whatever was named, and what a trap at issue leaves
is said of `State.issueTrap`; the causes are those of a group that comes to fetch (`Fetching`). -/
theorem trapsAtIssue : Obligations.TrapsAtIssue := by
  refine ⟨fun s t g c cause ht hg hscan hnext hwork hbreak i hi => ?_, fun s t g h1 h2 h3 h4 h5 h6 => ?_⟩
  · obtain ⟨m, body, hexec⟩ := issueCommands_issueAs t g s i hi
    rw [onGroup_of_lt ht hg, issueAs_trap s t g c cause m body hscan hnext hwork hbreak] at hexec
    refine ⟨_, hexec, ?_⟩
    obtain ⟨hsram, hfst, hpackets⟩ := s.issueTrap_memory t g c cause (fetchAddr t (s.grp t g).pc cause) (cause ≠ 0x02)
    rw [State.issueTrap_grp, if_pos rfl]
    exact ⟨rfl, State.issueTrap_tgpTrap .., State.issueTrap_tgpTrapAddr .., rfl, rfl, rfl, rfl, rfl, hsram, hfst, hpackets,
      fun a b hab => (State.issueTrap_grp ..).trans (if_neg hab)⟩
  · have h : Fetching s t g := ⟨h1, h2, h3, h4, h5, h6⟩
    exact ⟨h.nextOf_outside, h.nextOf_uncorrectable, h.nextOf_illegal,
      fun hin hal hok gp gn off hdec hfull => h.nextOf_static hin hal hok hdec (s.staticTrap_pushif t g gp gn off hfull),
      fun hin hal hok op gp gn off hdec hop hempty =>
        h.nextOf_static hin hal hok hdec (s.staticTrap_stackEmpty t g gp gn off hop hempty),
      fun hin hal hok tag hdec hdeep => h.nextOf_static hin hal hok hdec (s.staticTrap_specBegin t g tag hdeep)⟩

end Sys2Proof.Claims
end

section
/-! SUPPORT. The words of tile instructions: a word is the concatenation of its fields, format by format (R186, R189). -/

namespace Sys2Proof.Machine

open BitVec (extractLsb' ofBool getLsbD_extractLsb' eq_of_getLsbD_eq extractLsb'_append_eq_left extractLsb'_append_eq_right
  extractLsb'_append_extractLsb' getLsbD_eq_extractLsb')

/-! ### Words as concatenations -/

/-- A vector is a concatenation exactly where its two parts are. -/
theorem eq_append_iff {v w : Nat} (z : BitVec (v + w)) (x : BitVec v) (y : BitVec w) :
    z = x ++ y ↔ z.extractLsb' w v = x ∧ z.extractLsb' 0 w = y := by
  constructor
  · rintro rfl
    exact ⟨extractLsb'_append_eq_left, extractLsb'_append_eq_right⟩
  · rintro ⟨rfl, rfl⟩
    exact extractLsb'_append_extractLsb'.symm

/-- A field cut out of a field. -/
theorem extractLsb'_of_extractLsb' {n : Nat} (z : BitVec n) (a b l m : Nat) (h : a + m ≤ l) :
    (z.extractLsb' b l).extractLsb' a m = z.extractLsb' (b + a) m := by
  apply eq_of_getLsbD_eq
  intro i hi
  simp only [getLsbD_extractLsb', hi, show a + i < l by omega, decide_true, Bool.true_and, Nat.add_assoc]

/-- A one-bit field is the bit. -/
theorem extractLsb'_one_eq_ofBool_iff {n : Nat} (z : BitVec n) (k : Nat) (b : Bool) :
    z.extractLsb' k 1 = ofBool b ↔ z.getLsbD k = b := by
  rw [getLsbD_eq_extractLsb']
  cases b <;> generalize z.extractLsb' k 1 = y <;> revert y <;> decide

/-! ### The formats of R189 -/

theorem eq_ctlWord_iff (w : Word) (op : BitVec 6) (gp : BitVec 3) (gn : Bool) (z : BitVec 6) (off : BitVec 16) :
    w = op ++ gp ++ ofBool gn ++ z ++ off ↔
      w.extractLsb' 26 6 = op ∧ w.extractLsb' 23 3 = gp ∧ w.getLsbD 22 = gn ∧ w.extractLsb' 16 6 = z ∧
        w.extractLsb' 0 16 = off := by
  rw [eq_append_iff (v := 6 + 3 + 1 + 6) (w := 16), eq_append_iff, eq_append_iff, eq_append_iff]
  simp only [extractLsb'_of_extractLsb', Nat.reduceAdd, Nat.reduceLeDiff, extractLsb'_one_eq_ofBool_iff, and_assoc]

theorem eq_regWord_iff (w : Word) (op : BitVec 6) (gp : BitVec 3) (gn : Bool) (d a b : BitVec 6) (fmt : BitVec 4) :
    w = op ++ gp ++ ofBool gn ++ d ++ a ++ b ++ fmt ↔
      w.extractLsb' 26 6 = op ∧ w.extractLsb' 23 3 = gp ∧ w.getLsbD 22 = gn ∧ w.extractLsb' 16 6 = d ∧
        w.extractLsb' 10 6 = a ∧ w.extractLsb' 4 6 = b ∧ w.extractLsb' 0 4 = fmt := by
  rw [eq_append_iff (v := 6 + 3 + 1 + 6 + 6 + 6) (w := 4), eq_append_iff, eq_append_iff, eq_append_iff, eq_append_iff, eq_append_iff]
  simp only [extractLsb'_of_extractLsb', Nat.reduceAdd, Nat.reduceLeDiff, extractLsb'_one_eq_ofBool_iff, and_assoc]

theorem eq_locWord_iff (w : Word) (op : BitVec 6) (gp : BitVec 3) (gn : Bool) (d a : BitVec 6) (m : BitVec 10) :
    w = op ++ gp ++ ofBool gn ++ d ++ a ++ m ↔
      w.extractLsb' 26 6 = op ∧ w.extractLsb' 23 3 = gp ∧ w.getLsbD 22 = gn ∧ w.extractLsb' 16 6 = d ∧
        w.extractLsb' 10 6 = a ∧ w.extractLsb' 0 10 = m := by
  rw [eq_append_iff (v := 6 + 3 + 1 + 6 + 6) (w := 10), eq_append_iff, eq_append_iff, eq_append_iff, eq_append_iff]
  simp only [extractLsb'_of_extractLsb', Nat.reduceAdd, Nat.reduceLeDiff, extractLsb'_one_eq_ofBool_iff, and_assoc]

theorem eq_specWord_iff (w : Word) (op : BitVec 6) (z : BitVec 18) (tag sub : BitVec 4) :
    w = op ++ z ++ tag ++ sub ↔
      w.extractLsb' 26 6 = op ∧ w.extractLsb' 8 18 = z ∧ w.extractLsb' 4 4 = tag ∧ w.extractLsb' 0 4 = sub := by
  rw [eq_append_iff (v := 6 + 18 + 4) (w := 4), eq_append_iff, eq_append_iff]
  simp only [extractLsb'_of_extractLsb', Nat.reduceAdd, Nat.reduceLeDiff, and_assoc]

theorem eq_cmpWord_iff (w : Word) (op : BitVec 6) (gp : BitVec 3) (gn : Bool) (pd cond : BitVec 3) (a b : BitVec 6) (fmt : BitVec 4) :
    w = op ++ gp ++ ofBool gn ++ pd ++ cond ++ a ++ b ++ fmt ↔
      w.extractLsb' 26 6 = op ∧ w.extractLsb' 23 3 = gp ∧ w.getLsbD 22 = gn ∧ w.extractLsb' 19 3 = pd ∧
        w.extractLsb' 16 3 = cond ∧ w.extractLsb' 10 6 = a ∧ w.extractLsb' 4 6 = b ∧ w.extractLsb' 0 4 = fmt := by
  rw [eq_append_iff (v := 6 + 3 + 1 + 3 + 3 + 6 + 6) (w := 4), eq_append_iff, eq_append_iff, eq_append_iff, eq_append_iff, eq_append_iff, eq_append_iff]
  simp only [extractLsb'_of_extractLsb', Nat.reduceAdd, Nat.reduceLeDiff, extractLsb'_one_eq_ofBool_iff, and_assoc]

theorem eq_plogWord_iff (w : Word) (op : BitVec 6) (gp : BitVec 3) (gn : Bool) (pd pa pb : BitVec 3) (tt : BitVec 4) (z : BitVec 9) :
    w = op ++ gp ++ ofBool gn ++ pd ++ pa ++ pb ++ tt ++ z ↔
      w.extractLsb' 26 6 = op ∧ w.extractLsb' 23 3 = gp ∧ w.getLsbD 22 = gn ∧ w.extractLsb' 19 3 = pd ∧
        w.extractLsb' 16 3 = pa ∧ w.extractLsb' 13 3 = pb ∧ w.extractLsb' 9 4 = tt ∧ w.extractLsb' 0 9 = z := by
  rw [eq_append_iff (v := 6 + 3 + 1 + 3 + 3 + 3 + 4) (w := 9), eq_append_iff, eq_append_iff, eq_append_iff, eq_append_iff, eq_append_iff, eq_append_iff]
  simp only [extractLsb'_of_extractLsb', Nat.reduceAdd, Nat.reduceLeDiff, extractLsb'_one_eq_ofBool_iff, and_assoc]

theorem eq_sendWord_iff (w : Word) (op : BitVec 6) (gp : BitVec 3) (gn : Bool) (slot : BitVec 4) (r : Bool) (src : BitVec 6) (ul : BitVec 4) (z : BitVec 7) :
    w = op ++ gp ++ ofBool gn ++ slot ++ ofBool r ++ src ++ ul ++ z ↔
      w.extractLsb' 26 6 = op ∧ w.extractLsb' 23 3 = gp ∧ w.getLsbD 22 = gn ∧ w.extractLsb' 18 4 = slot ∧
        w.getLsbD 17 = r ∧ w.extractLsb' 11 6 = src ∧ w.extractLsb' 7 4 = ul ∧ w.extractLsb' 0 7 = z := by
  rw [eq_append_iff (v := 6 + 3 + 1 + 4 + 1 + 6 + 4) (w := 7), eq_append_iff, eq_append_iff, eq_append_iff, eq_append_iff, eq_append_iff, eq_append_iff]
  simp only [extractLsb'_of_extractLsb', Nat.reduceAdd, Nat.reduceLeDiff, extractLsb'_one_eq_ofBool_iff, and_assoc]

theorem eq_sendmWord_iff (w : Word) (op : BitVec 6) (gp : BitVec 3) (gn : Bool) (slot : BitVec 4) (r : Bool) (ua ul : BitVec 4) (z : BitVec 1) (n1 : BitVec 8) :
    w = op ++ gp ++ ofBool gn ++ slot ++ ofBool r ++ ua ++ ul ++ z ++ n1 ↔
      w.extractLsb' 26 6 = op ∧ w.extractLsb' 23 3 = gp ∧ w.getLsbD 22 = gn ∧ w.extractLsb' 18 4 = slot ∧
        w.getLsbD 17 = r ∧ w.extractLsb' 13 4 = ua ∧ w.extractLsb' 9 4 = ul ∧ w.extractLsb' 8 1 = z ∧
        w.extractLsb' 0 8 = n1 := by
  rw [eq_append_iff (v := 6 + 3 + 1 + 4 + 1 + 4 + 4 + 1) (w := 8), eq_append_iff, eq_append_iff, eq_append_iff, eq_append_iff, eq_append_iff, eq_append_iff, eq_append_iff]
  simp only [extractLsb'_of_extractLsb', Nat.reduceAdd, Nat.reduceLeDiff, extractLsb'_one_eq_ofBool_iff, and_assoc]

theorem eq_buoyIdxWord_iff (w : Word) (op : BitVec 6) (gp : BitVec 3) (gn : Bool) (k : BitVec 1) (i : BitVec 11) (v : BitVec 6) (z : BitVec 4) :
    w = op ++ gp ++ ofBool gn ++ k ++ i ++ v ++ z ↔
      w.extractLsb' 26 6 = op ∧ w.extractLsb' 23 3 = gp ∧ w.getLsbD 22 = gn ∧ w.extractLsb' 21 1 = k ∧
        w.extractLsb' 10 11 = i ∧ w.extractLsb' 4 6 = v ∧ w.extractLsb' 0 4 = z := by
  rw [eq_append_iff (v := 6 + 3 + 1 + 1 + 11 + 6) (w := 4), eq_append_iff, eq_append_iff, eq_append_iff, eq_append_iff, eq_append_iff]
  simp only [extractLsb'_of_extractLsb', Nat.reduceAdd, Nat.reduceLeDiff, extractLsb'_one_eq_ofBool_iff, and_assoc]

theorem eq_buoyRegWord_iff (w : Word) (op : BitVec 6) (gp : BitVec 3) (gn : Bool) (k : BitVec 1) (ub : BitVec 4) (y : BitVec 7) (v : BitVec 6) (z : BitVec 4) :
    w = op ++ gp ++ ofBool gn ++ k ++ ub ++ y ++ v ++ z ↔
      w.extractLsb' 26 6 = op ∧ w.extractLsb' 23 3 = gp ∧ w.getLsbD 22 = gn ∧ w.extractLsb' 21 1 = k ∧
        w.extractLsb' 17 4 = ub ∧ w.extractLsb' 10 7 = y ∧ w.extractLsb' 4 6 = v ∧ w.extractLsb' 0 4 = z := by
  rw [eq_append_iff (v := 6 + 3 + 1 + 1 + 4 + 7 + 6) (w := 4), eq_append_iff, eq_append_iff, eq_append_iff, eq_append_iff, eq_append_iff, eq_append_iff]
  simp only [extractLsb'_of_extractLsb', Nat.reduceAdd, Nat.reduceLeDiff, extractLsb'_one_eq_ofBool_iff, and_assoc]

/-! ### Decoding an encoded word -/

theorem fieldsOf_encodeTile (i : TInst) : fieldsOf (encodeTile i) = some i := by
  generalize hw : encodeTile i = w
  cases i with
  | ctl op gp gn off =>
    obtain ⟨hop, hgp, hgn, hz, hoff⟩ := (eq_ctlWord_iff w ..).1 hw.symm
    cases op <;> simp [-BitVec.getLsbD_eq_getElem, fieldsOf, ctlCode, hop, hgp, hgn, hz, hoff]
  | reg op gp gn d a b fmt =>
    obtain ⟨hop, hgp, hgn, hd, ha, hb, hfmt⟩ := (eq_regWord_iff w ..).1 hw.symm
    cases op <;> simp [-BitVec.getLsbD_eq_getElem, fieldsOf, regCode, hop, hgp, hgn, hd, ha, hb, hfmt]
  | imm op gp gn d v =>
    obtain ⟨hop, hgp, hgn, hd, hv⟩ := (eq_ctlWord_iff w ..).1 hw.symm
    cases op <;> simp [-BitVec.getLsbD_eq_getElem, fieldsOf, immCode, hop, hgp, hgn, hd, hv]
  | loc op gp gn d a woff =>
    obtain ⟨hop, hgp, hgn, hd, ha, hm⟩ := (eq_locWord_iff w ..).1 hw.symm
    cases op <;> simp [-BitVec.getLsbD_eq_getElem, fieldsOf, locCode, hop, hgp, hgn, hd, ha, hm]
  | rem op gp gn d ap rel =>
    obtain ⟨hop, hgp, hgn, hd, ha, hm⟩ := (eq_locWord_iff w ..).1 hw.symm
    cases op <;> simp [-BitVec.getLsbD_eq_getElem, fieldsOf, remCode, hop, hgp, hgn, hd, ha, hm]
  | spec op tag =>
    obtain ⟨hop, hz, htag, hsub⟩ := (eq_specWord_iff w ..).1 hw.symm
    cases op <;> simp [-BitVec.getLsbD_eq_getElem, fieldsOf, specCode, hop, hz, htag, hsub]
  | cmp gp gn pd cond a b fmt =>
    obtain ⟨hop, hgp, hgn, hpd, hcond, ha, hb, hfmt⟩ := (eq_cmpWord_iff w ..).1 hw.symm
    simp [-BitVec.getLsbD_eq_getElem, fieldsOf, hop, hgp, hgn, hpd, hcond, ha, hb, hfmt]
  | plog gp gn pd pa pb tt =>
    obtain ⟨hop, hgp, hgn, hpd, hpa, hpb, htt, hz⟩ := (eq_plogWord_iff w ..).1 hw.symm
    simp [-BitVec.getLsbD_eq_getElem, fieldsOf, hop, hgp, hgn, hpd, hpa, hpb, htt, hz]
  | send vec gp gn slot r src ul =>
    obtain ⟨hop, hgp, hgn, hslot, hr, hsrc, hul, hz⟩ := (eq_sendWord_iff w ..).1 hw.symm
    cases vec <;> simp [-BitVec.getLsbD_eq_getElem, fieldsOf, hop, hgp, hgn, hslot, hr, hsrc, hul, hz]
  | sendm gp gn slot r ua ul n1 =>
    obtain ⟨hop, hgp, hgn, hslot, hr, hua, hul, hz, hn1⟩ := (eq_sendmWord_iff w ..).1 hw.symm
    have hz : w.getLsbD 8 = false := (extractLsb'_one_eq_ofBool_iff w 8 false).1 hz
    simp [-BitVec.getLsbD_eq_getElem, fieldsOf, hop, hgp, hgn, hslot, hr, hua, hul, hz, hn1]
  | buoy op gp gn name v =>
    cases name with
    | idx i =>
      obtain ⟨hop, hgp, hgn, hk, hi, hv, hz⟩ := (eq_buoyIdxWord_iff w ..).1 hw.symm
      have hk : w.getLsbD 21 = false := (extractLsb'_one_eq_ofBool_iff w 21 false).1 hk
      cases op <;> simp [-BitVec.getLsbD_eq_getElem, fieldsOf, buoyCode, hop, hgp, hgn, hk, hi, hv, hz]
    | reg ub =>
      obtain ⟨hop, hgp, hgn, hk, hub, hy, hv, hz⟩ := (eq_buoyRegWord_iff w ..).1 hw.symm
      have hk : w.getLsbD 21 = true := (extractLsb'_one_eq_ofBool_iff w 21 true).1 hk
      cases op <;> simp [-BitVec.getLsbD_eq_getElem, fieldsOf, buoyCode, hop, hgp, hgn, hk, hub, hy, hv, hz]

section

variable {w : Word} {i : TInst}

theorem encodeTile_of_ctl {op : CtlOp}
    (h : (if w.extractLsb' 16 6 = 0 then some (TInst.ctl op (w.extractLsb' 23 3) (w.getLsbD 22) (w.extractLsb' 0 16)) else none) =
      some i) (hop : (w.extractLsb' 26 6).toNat = (ctlCode op).toNat) : encodeTile i = w := by
  obtain ⟨hz, rfl⟩ := by simpa only [Option.ite_none_right_eq_some, Option.some.injEq] using h
  exact ((eq_ctlWord_iff w ..).2 ⟨BitVec.eq_of_toNat_eq hop, rfl, rfl, hz, rfl⟩).symm

theorem encodeTile_of_reg {op : ROp} (hop : (w.extractLsb' 26 6).toNat = (regCode op).toNat) :
    encodeTile (.reg op (w.extractLsb' 23 3) (w.getLsbD 22) (w.extractLsb' 16 6) (w.extractLsb' 10 6) (w.extractLsb' 4 6)
      (w.extractLsb' 0 4)) = w :=
  ((eq_regWord_iff w ..).2 ⟨BitVec.eq_of_toNat_eq hop, rfl, rfl, rfl, rfl, rfl, rfl⟩).symm

theorem encodeTile_of_imm {op : IOp} (hop : (w.extractLsb' 26 6).toNat = (immCode op).toNat) :
    encodeTile (.imm op (w.extractLsb' 23 3) (w.getLsbD 22) (w.extractLsb' 16 6) (w.extractLsb' 0 16)) = w :=
  ((eq_ctlWord_iff w ..).2 ⟨BitVec.eq_of_toNat_eq hop, rfl, rfl, rfl, rfl⟩).symm

theorem encodeTile_of_loc {op : LOp} (hop : (w.extractLsb' 26 6).toNat = (locCode op).toNat) :
    encodeTile (.loc op (w.extractLsb' 23 3) (w.getLsbD 22) (w.extractLsb' 16 6) (w.extractLsb' 10 6) (w.extractLsb' 0 10)) = w :=
  ((eq_locWord_iff w ..).2 ⟨BitVec.eq_of_toNat_eq hop, rfl, rfl, rfl, rfl, rfl⟩).symm

theorem encodeTile_of_rem {op : MOp} (hop : (w.extractLsb' 26 6).toNat = (remCode op).toNat) :
    encodeTile (.rem op (w.extractLsb' 23 3) (w.getLsbD 22) (w.extractLsb' 16 6) (w.extractLsb' 10 6) (w.extractLsb' 0 10)) = w :=
  ((eq_locWord_iff w ..).2 ⟨BitVec.eq_of_toNat_eq hop, rfl, rfl, rfl, rfl, rfl⟩).symm

theorem encodeTile_of_spec {op : SpecOp} (hop : (w.extractLsb' 26 6).toNat = 0x32) (hz : w.extractLsb' 8 18 = 0)
    (hsub : (w.extractLsb' 0 4).toNat = (specCode op).toNat) : encodeTile (.spec op (w.extractLsb' 4 4)) = w :=
  ((eq_specWord_iff w ..).2 ⟨BitVec.eq_of_toNat_eq (y := 0x32) hop, hz, rfl, BitVec.eq_of_toNat_eq hsub⟩).symm

theorem encodeTile_of_send {vec : Bool}
    (h : (if w.extractLsb' 0 7 = 0 then some (TInst.send vec (w.extractLsb' 23 3) (w.getLsbD 22) (w.extractLsb' 18 4)
      (w.getLsbD 17) (w.extractLsb' 11 6) (w.extractLsb' 7 4)) else none) = some i)
    (hop : (w.extractLsb' 26 6).toNat = (if vec then (0x3D : BitVec 6) else 0x3C).toNat) : encodeTile i = w := by
  obtain ⟨hz, rfl⟩ := by simpa only [Option.ite_none_right_eq_some, Option.some.injEq] using h
  exact ((eq_sendWord_iff w ..).2 ⟨BitVec.eq_of_toNat_eq hop, rfl, rfl, rfl, rfl, rfl, rfl, hz⟩).symm

theorem encodeTile_of_buoy {op : BOp}
    (h : (if w.extractLsb' 0 4 ≠ 0 then none
      else if w.getLsbD 21 then
        (if w.extractLsb' 10 7 = 0 then
          some (TInst.buoy op (w.extractLsb' 23 3) (w.getLsbD 22) (.reg (w.extractLsb' 17 4)) (w.extractLsb' 4 6)) else none)
      else some (TInst.buoy op (w.extractLsb' 23 3) (w.getLsbD 22) (.idx (w.extractLsb' 10 11)) (w.extractLsb' 4 6))) = some i)
    (hop : (w.extractLsb' 26 6).toNat = (buoyCode op).toNat) : encodeTile i = w := by
  have hop := BitVec.eq_of_toNat_eq hop
  split at h
  · cases h
  next hz =>
  have hz := Decidable.of_not_not hz
  split at h
  · next hk =>
    obtain ⟨hy, rfl⟩ := by simpa only [Option.ite_none_right_eq_some, Option.some.injEq] using h
    exact ((eq_buoyRegWord_iff w ..).2
      ⟨hop, rfl, rfl, (extractLsb'_one_eq_ofBool_iff w 21 true).2 hk, rfl, hy, rfl, hz⟩).symm
  · next hk =>
    obtain rfl := Option.some.inj h
    exact ((eq_buoyIdxWord_iff w ..).2
      ⟨hop, rfl, rfl, (extractLsb'_one_eq_ofBool_iff w 21 false).2 (Bool.eq_false_iff.2 hk), rfl, rfl, hz⟩).symm

/-- What `fieldsOf` cuts out of a word is an instruction of which it is the word: each opcode cuts by its format. -/
theorem encodeTile_of_fieldsOf (h : fieldsOf w = some i) : encodeTile i = w := by
  unfold fieldsOf at h
  simp only at h
  split at h
  iterate 9 next hop => exact encodeTile_of_ctl h hop
  iterate 6 next hop => exact encodeTile_of_buoy h hop
  iterate 15 next hop => cases h; exact encodeTile_of_reg hop
  iterate 3 next hop => cases h; exact encodeTile_of_imm hop
  iterate 7 next hop => cases h; exact encodeTile_of_reg hop
  case h_41 hop =>
    cases h
    exact ((eq_cmpWord_iff w ..).2 ⟨BitVec.eq_of_toNat_eq (y := 0x2C) hop, rfl, rfl, rfl, rfl, rfl, rfl, rfl⟩).symm
  case h_42 hop =>
    obtain ⟨hz, rfl⟩ := by simpa only [Option.ite_none_right_eq_some, Option.some.injEq] using h
    exact ((eq_plogWord_iff w ..).2 ⟨BitVec.eq_of_toNat_eq (y := 0x2D) hop, rfl, rfl, rfl, rfl, rfl, rfl, hz⟩).symm
  iterate 4 next hop => cases h; exact encodeTile_of_reg hop
  case h_47 hop =>
    split at h
    · next hz =>
      split at h
      iterate 4 next hsub => cases h; exact encodeTile_of_spec hop hz hsub
      · cases h
    · cases h
  iterate 2 next hop => cases h; exact encodeTile_of_loc hop
  iterate 3 next hop => cases h; exact encodeTile_of_rem hop
  iterate 2 next hop => exact encodeTile_of_send h hop
  case h_55 hop =>
    split at h
    · cases h
    · next hz =>
      cases h
      exact ((eq_sendmWord_iff w ..).2 ⟨BitVec.eq_of_toNat_eq (y := 0x3E) hop, rfl, rfl, rfl, rfl, rfl, rfl,
        (extractLsb'_one_eq_ofBool_iff w 8 false).2 (Bool.eq_false_iff.2 hz), rfl⟩).symm
  case h_56 => cases h

end

theorem decodeTile_eq_some_iff (w : Word) (i : TInst) : decodeTile w = some i ↔ fieldsOf w = some i ∧ legal i = true := by
  unfold decodeTile
  cases fieldsOf w with
  | none => simp
  | some j =>
    simp only [Option.ite_none_right_eq_some, Option.some.injEq]
    constructor
    · rintro ⟨h, rfl⟩
      exact ⟨rfl, h⟩
    · rintro ⟨rfl, h⟩
      exact ⟨h, rfl⟩

end Sys2Proof.Machine

namespace Sys2Proof.Claims

open Sys2Proof.Machine

/-- Settles O8: the fields cut out of an encoded word are those encoded. -/
theorem tileWordRoundTrip : Obligations.TileWordRoundTrip :=
  fun i hi => (decodeTile_eq_some_iff ..).2 ⟨fieldsOf_encodeTile i, hi⟩

/-- Settles O9: a word is the concatenation of the fields cut out of it. -/
theorem tileDecodeIsEncode : Obligations.TileDecodeIsEncode := fun w i h =>
  have ⟨hfields, hlegal⟩ := (decodeTile_eq_some_iff w i).1 h
  ⟨hlegal, encodeTile_of_fieldsOf hfields⟩

end Sys2Proof.Claims
end

section
/-! SUPPORT. The block's steps, the state at reset, and how operations on a buoy combine. -/

namespace Sys2Proof.Machine

open Sys2Proof.Claims

theorem sumInt_eq_sum : ∀ l : List Int, sumInt l = l.sum
  | [] => rfl
  | a :: l => by rw [sumInt, sumInt_eq_sum l, List.sum_cons]

theorem clampCount_fst (v : Int) : ((clampCount v).1 : Int) = max 0 (min 16777215 v) := by
  simp only [clampCount, clampInt, buoyMax]
  omega

/-- A field of a register at reset is cut out of its reset word (R10). -/
theorem reset_gf {f : RegField} {w : Nat} (u k : Nat) (h : State.reset.regDefault ⟨f.reg, u, k⟩ = BitVec.ofNat 64 w) :
    State.reset.gf f u k = bits (BitVec.ofNat 64 w).toNat f.hi f.lo := by
  rw [← h]
  rfl

end Sys2Proof.Machine

namespace Sys2Proof.Claims

open Sys2Proof.Machine

/-- Settles O1: `step` is defined by the front of the queue. -/
theorem stepRunsCommand : Obligations.StepRunsCommand := fun s c rest h => by
  rw [step, h]

/-- Settles O2: time moves on by one tick. -/
theorem emptyQueueTicks : Obligations.EmptyQueueTicks := fun s h => by
  refine ⟨_, by rw [step, h], ?_⟩
  rw [State.advanceTo, Nat.max_eq_right (Nat.le_succ _)]

/-- Settles O5: each of these commands runs through `onGroup`. -/
theorem noSuchTileFaults : Obligations.NoSuchTileFaults := fun s t g h c hc => by
  obtain ⟨m, body, hexec⟩ := issueCommands_issueAs t g s c hc
  rw [hexec, onGroup_fault h]

/-- Settles O7: the memories are empty lists, and each register reads its reset word. -/
theorem resetState : Obligations.ResetState := by
  refine ⟨⟨rfl, rfl, rfl, rfl, fun t off => rfl⟩, reset_gf (w := 50000) _ _ rfl, reset_gf (w := 1024) _ _ rfl,
    reset_gf (w := 0) _ _ rfl, fun f k => reset_gf (w := 0) _ _ rfl, reset_gf (w := 18000) _ _ rfl, reset_gf (w := 0) _ _ rfl, fun f => rfl,
    fun t ht => ?_, fun t k => ⟨reset_gf (w := 0xFFF) _ _ rfl, reset_gf (w := 0) _ _ rfl⟩⟩
  rw [reset_gf (w := t) t 0 rfl]
  simp only [bits, BitVec.toNat_ofNat, F.tilId_tile]
  omega

/-- Settles O32: the cases of R384 to R386, kind by kind. -/
theorem buoyCombination : Obligations.BuoyCombination := by
  intro kind old clear keeper adds v
  have hkind : kind < 2 → kind = 0 ∨ kind = 1 := by omega
  refine ⟨fun hk => ?_, fun hk => ?_, ?_, ?_, fun ho => ⟨?_, ?_⟩, rfl⟩
  · obtain rfl | rfl := hkind hk <;> rfl
  · have h : ((combineCount kind old clear keeper adds none).1 : Int) =
        max 0 (min 16777215 (((if clear then 0 else old : Nat) : Int) + sumInt adds)) := by
      obtain rfl | rfl := hkind hk <;> exact clampCount_fst _
    rw [h, sumInt_eq_sum]
    split <;> rfl
  · simp only [combineCount, ite_not]
  · simp only [combineCount, List.any_eq_true, decide_eq_true_eq]
  · simp [combineCount, ho]
  · simp [combineCount, ho]

end Sys2Proof.Claims
end

section
/-! SUPPORT. When a group's next instruction issues (R141), and what float, predicate and control instructions write. -/

namespace Sys2Proof.Machine

open Sys2Proof.Claims

/-! ### The next instruction -/

/-- A tile that has stored nothing to its shared region of late fetches the word that stands (R172). -/
theorem State.fetched_of_codeWrites_nil {s : State} {t : Nat} (h : (s.til t).codeWrites = []) (pc c : Nat) :
    s.fetched t pc c = s.sramWord t pc := by
  simp [State.fetched, h, seenWord]

/-- A maximum over cycles none of which lies after the first. -/
theorem foldl_max_of_le (f : Nat → Nat) (c : Nat) (l : List Nat) (h : ∀ r ∈ l, f r ≤ c) :
    l.foldl (fun a r => max a (f r)) c = c := by
  induction l with
  | nil => rfl
  | cons r l ih =>
    rw [List.foldl_cons, Nat.max_eq_left (h r (List.mem_cons_self ..))]
    exact ih fun q hq => h q (List.mem_cons_of_mem _ hq)

theorem State.portsFrom_of_portsOf_nil (s : State) (t g : Nat) {i : TInst} (h : portsOf i = []) (c : Nat) :
    s.portsFrom t g i c = c := by
  simp [State.portsFrom, h]

namespace Fetching

variable {s : State} {t g : Nat} (h : Fetching s t g)

include h

/-- A word that decodes to an instruction which nothing traps and no load holds back leaves the group as ready as the
instruction (R141). -/
theorem nextOf_readiness (hin : (s.grp t g).pc < s.sharedBytes t) (hal : (s.grp t g).pc % 4 = 0)
    (hok : (s.fetched t (s.grp t g).pc (s.fetchCycle t)).bad = false) {i : TInst}
    (hdec : decodeTile (s.fetched t (s.grp t g).pc (s.fetchCycle t)).w = some i) (htrap : s.staticTrap t g i = none)
    (hload : ∀ r ∈ s.sourcesOf t i, ∀ e ∈ (s.grp t g).loading, e.1 ≠ r) :
    s.nextOf t g = Next.skip (s.til t).stretches (s.readiness t g (s.sourcesFrom t g i (s.fetchCycle t)) i) := by
  have hload : ((s.sourcesOf t i).any fun r => (s.grp t g).loading.any (·.1 = r)) = false := by
    simp only [List.any_eq_false, List.any_eq_true, decide_eq_true_eq]
    rintro r hr ⟨e, he, heq⟩
    exact hload r hr e he heq
  simp only [h.nextOf_eq, State.fetchedNext, Nat.not_le.mpr hin, hal, hok, hdec, htrap, hload]
  rfl

end Fetching

/-- Instructions on registers alone trap by nothing but their encoding, and are ready once their registers are. -/
theorem State.ready_of_registers (s : State) (t g : Nat) {i : TInst} (hports : portsOf i = [])
    (hi : (∃ op gp gn d v, i = .imm op gp gn d v) ∨ ∃ e ∈ intOps t g, ∃ gp gn d a b fmt, i = .reg e.2.1 gp gn d a b fmt) :
    s.staticTrap t g i = none ∧ ∀ c, s.readiness t g c i = .go c i := by
  obtain ⟨op, gp, gn, d, v, rfl⟩ | ⟨e, he, gp, gn, d, a, b, fmt, rfl⟩ := hi
  · exact ⟨rfl, fun c => rfl⟩
  · have hsfu : e.2.1 ≠ .sfu := by
      revert e
      simp [intOps]
    obtain ⟨cmd, op, f⟩ := e
    simp only [State.staticTrap, State.readiness, hports, List.any_nil]
    cases op
    case sfu => exact absurd rfl hsfu
    all_goals exact ⟨rfl, fun c => rfl⟩

end Sys2Proof.Machine

namespace Sys2Proof.Claims

open Sys2Proof.Machine

/-- Settles O10: the group comes to fetch (`Fetching`), the word that stands is fetched, and each wait ends by the first cycle. -/
theorem readyInstructionIsNext : Obligations.ReadyInstructionIsNext := by
  intro s t g i hrun hgo hwork hflow hawake hlit hin hal hcode hok hdec hports hi hsrc
  have h : Fetching s t g := ⟨hrun, hgo, hwork, hflow, hawake, hlit⟩
  have hfetch := State.fetched_of_codeWrites_nil hcode (s.grp t g).pc (s.fetchCycle t)
  obtain ⟨htrap, hready⟩ := s.ready_of_registers t g hports hi
  rw [h.nextOf_readiness hin hal (by rw [hfetch, hok]) (by rw [hfetch, hdec]) htrap fun r hr => (hsrc r hr).2, hready,
    State.sourcesFrom, State.portsFrom_of_portsOf_nil s t g hports, foldl_max_of_le _ (s.fetchCycle t) _ fun r hr => (hsrc r hr).1]
  rfl

end Sys2Proof.Claims

namespace Sys2Proof.Machine

open Sys2Proof.Claims

/-! ### Float, dot and special functions -/

/-- An instruction that writes one destination leaves the cycles that are stretched. -/
theorem State.after_execLane (s : State) (x : Ctx) (d lat : Nat) (val : Nat → Word) (occ a b n : Nat) :
    (execLane x d lat val s occ).after a b n = s.after a b n := by
  obtain ⟨u, m, hu, h⟩ := execLane_spec x d lat val s occ
  rw [h]
  exact hu.after_eq ..

/-- Each float instruction issues as a float lane operation of its own. -/
theorem floatOps_fLane (t g : Nat) (gp : BitVec 3) (gn : Bool) (d a b : BitVec 6) (fmt : BitVec 4) :
    ∀ e ∈ floatOps t g, ∀ s,
      exec e.1 s = onGroup t g (issueAs t g (mnemOf (.reg e.2.1 gp gn d a b fmt)) (fLane e.2.2) s) := by
  simp only [floatOps, List.forall_mem_cons]
  exact ⟨fun _ => rfl, fun _ => rfl, fun _ => rfl, fun _ => rfl, fun _ => rfl, fun _ => rfl, List.forall_mem_nil _⟩

theorem mul_signExtend_eq_ofInt {m : Nat} (a b : BitVec m) :
    a.signExtend 32 * b.signExtend 32 = BitVec.ofInt 32 (a.toInt * b.toInt) := by
  rw [BitVec.ofInt_mul]
  rfl

/-- DOT as arithmetic on signed values (R211). -/
theorem dotVal_eq (fmt : BitVec 4) (a b d : Word) : dotVal fmt a b d = BitVec.ofInt 32 (d.toInt +
    if fmt = 3 then (a.extractLsb' 0 8).toInt * (b.extractLsb' 0 8).toInt + (a.extractLsb' 8 8).toInt * (b.extractLsb' 8 8).toInt
    else (a.extractLsb' 0 16).toInt * (b.extractLsb' 0 16).toInt) := by
  rw [BitVec.ofInt_add, BitVec.ofInt_toInt, dotVal]
  split
  · rw [mul_signExtend_eq_ofInt, mul_signExtend_eq_ofInt, BitVec.add_assoc, ← BitVec.ofInt_add]
  · rw [mul_signExtend_eq_ofInt]

end Sys2Proof.Machine

namespace Sys2Proof.Claims

open Sys2Proof.Machine

/-- A tile may be changed after an instruction has written its destination. -/
theorem Wrote.setTil {s s' : State} {x : Ctx} {d a : Nat} {val : Nat → Word} (h : Wrote s s' x d a val) (t : Nat) (y : Tile) :
    Wrote s (s'.setTil t y) x d a val where
  __ := h
  frame := { h.frame with }

/-- An instruction that issues in one cycle and writes one destination, writes it (R143). -/
theorem Issues.execLane_wrote {s : State} {t g c : Nat} {i : TInst} (h : Issues s t g c i) {d lat : Nat} {val : Nat → Word} :
    Wrote s (execLane (s.mkCtx t g c i) d lat val s) (s.mkCtx t g c i) d (s.after t c lat) val := by
  have hw := Machine.execLane_wrote (s.mkCtx t g c i) d lat val s 1 rfl
  rwa [State.mkCtx_t, State.mkCtx_cyc, h.after_one, Nat.add_sub_cancel] at hw

/-- Settles O12: the float instructions, DOT, CVT and SFU each write one destination by `execLane`. -/
theorem floatResults : Obligations.FloatResults := by
  intro s t g c gp gn d a b fmt
  refine ⟨fun e he h => ?_, fun h => ?dot, fun h => ?cvt, fun h hdom => ?sfu⟩
  · exact h.gives_wrote (floatOps_fLane t g gp gn d a b fmt e he s) rfl fun _ => rfl
  case dot => exact h.gives_wrote rfl rfl fun _ => dotVal_eq ..
  case cvt => exact h.gives_wrote rfl rfl fun _ => rfl
  case sfu =>
    let x := s.mkCtx t g c (.reg .sfu gp gn d a b fmt)
    have hgo : (b.getLsbD 3 && !x.dead && x.lanes.any fun k =>
        sfuDomain (sfuFnOf b) (decodeFloat .fp32 (x.operand a k).toNat)) = false := by
      obtain hb | hdead | hlanes := hdom
      · rw [hb, Bool.false_and, Bool.false_and]
      · rw [show x.dead = true from hdead, Bool.not_true, Bool.and_false, Bool.false_and]
      · rw [List.any_eq_false.2 fun k hk => by rw [hlanes k hk]; exact Bool.false_ne_true, Bool.and_false]
    have hw := h.execLane_wrote (d := d.toNat) (lat := 12) (val := fun k => sfuEval (sfuFnOf b) (x.operand a k))
    refine h.gives (body := sfuBody) rfl ?_
    rw [show sfuBody x s = _ from if_neg (Bool.eq_false_iff.1 hgo)]
    exact ⟨hw.setTil .., (congrArg Tile.sfuFree (State.til_setTil_self ..)).trans (State.after_execLane ..)⟩

end Sys2Proof.Claims
end

section
/-! SUPPORT. What comparisons and predicate operations write (R212, R213), and where control instructions lead (R204 to R207). -/

namespace Sys2Proof.Machine

open Sys2Proof.Claims

/-! ### `writePred` -/

/-- One bit of a predicate put. -/
theorem getLsbD_putBit (v : Bool) (b : BitVec 8) (j : Nat) {k : Nat} (hk : k < 8) :
    (if v then b ||| (1#8 <<< j) else b &&& ~~~(1#8 <<< j)).getLsbD k = if k = j then v else b.getLsbD k := by
  have hbit : (1#8 <<< j).getLsbD k = decide (k = j) := by
    rw [BitVec.getLsbD_shiftLeft, BitVec.getLsbD_one, Bool.eq_iff_iff]
    simp only [Bool.and_eq_true, Bool.not_eq_true', decide_eq_true_eq, decide_eq_false_iff_not]
    omega
  cases v
  · simp only [Bool.false_eq_true, if_false, BitVec.getLsbD_and, BitVec.getLsbD_not, hbit, hk]
    by_cases hj : k = j <;> simp [hj]
  · simp only [if_true, BitVec.getLsbD_or, hbit]
    by_cases hj : k = j <;> simp [hj]

/-- Bits of a predicate put in some lanes. -/
theorem getLsbD_foldl_putBit (val : Nat → Bool) (l : List Nat) (b : BitVec 8) {k : Nat} (hk : k < 8) :
    (l.foldl (fun b k => if val k then b ||| (1#8 <<< k) else b &&& ~~~(1#8 <<< k)) b).getLsbD k =
      if k ∈ l then val k else b.getLsbD k := by
  induction l generalizing b with
  | nil => simp
  | cons j l ih =>
    rw [List.foldl_cons, ih, getLsbD_putBit _ _ _ hk]
    by_cases hl : k ∈ l <;> by_cases hj : k = j <;> simp [hl, hj]

section

variable (y : Group) (x : Ctx) (pd : Nat) (m : Marker) (a : Nat) (val : Nat → Bool)

theorem writePred_bit (hpd : pd ≠ 0) {k : Nat} (hk : k < 8) :
    ((writePred y x pd m a val).pred pd).getLsbD k = if k ∈ x.lanes then val k else (y.pred pd).getLsbD k := by
  unfold writePred
  split
  · simp [*]
  · simp only [Group.pred, hpd, if_false, mget_mput_self]
    exact getLsbD_foldl_putBit _ _ _ hk

theorem writePred_pred_of_ne {r : Nat} (hr : r ≠ pd) : (writePred y x pd m a val).pred r = y.pred r := by
  unfold writePred
  split
  · rfl
  · simp only [Group.pred, mget_mput, hr, if_false]

/-- A predicate written leaves the rest of its group. -/
theorem writePred_frame {α : Type} (f : Group → α)
    (hf : ∀ (y : Group) p marks ready, f { y with p := p, marks := marks, ready := ready } = f y) :
    f (writePred y x pd m a val) = f y := by
  unfold writePred
  split
  · rfl
  · exact hf ..

end

/-- An instruction has an active lane exactly where its effective mask is not 0. -/
theorem lanes_ne_nil_iff (x : Ctx) : x.lanes ≠ [] ↔ x.em ≠ 0 := by
  rw [ne_eq, ne_eq, not_iff_not]
  simp only [Ctx.lanes, List.filter_eq_nil_iff, List.mem_range]
  constructor
  · intro h
    apply BitVec.eq_of_getLsbD_eq
    intro k hk
    simpa using h k hk
  · intro h k _
    simp [h]

/-- A group with predicate `pd` set whole from a uniform register, where any lane is active (R202, R213). -/
def putPred (y : Group) (x : Ctx) (pd : Nat) (w : Word) : Group :=
  if x.em = 0 then y
  else { y with p := mput y.p pd (w.extractLsb' 0 8)
                marks := mput y.marks (0x40 + pd) (if x.dead then .dead else x.mark)
                ready := mput y.ready (0x40 + pd) (x.cyc + 1) }

theorem putPred_pred (y : Group) (x : Ctx) {pd : Nat} (hpd : pd ≠ 0) (w : Word) (r : Nat) :
    (putPred y x pd w).pred r = if r = pd ∧ x.lanes ≠ [] then w.extractLsb' 0 8 else y.pred r := by
  simp only [lanes_ne_nil_iff]
  unfold putPred
  split
  · simp [*]
  · next hem =>
    simp only [Group.pred, mget_mput, ne_eq, hem, not_false_eq_true, and_true]
    by_cases hr : r = pd
    · simp only [hr, hpd, if_false, if_true]
    · simp only [hr, if_false]

theorem putPred_frame {α : Type} (f : Group → α) (hf : ∀ (y : Group) p marks ready,
    f { y with p := p, marks := marks, ready := ready } = f y) (y : Group) (x : Ctx) (pd : Nat) (w : Word) :
    f (putPred y x pd w) = f y := by
  unfold putPred
  split
  · rfl
  · exact hf ..

/-- An issue tallied, a predicate written and the program counter moved on, is what `WrotePred` says. -/
theorem Tallied.wrotePred {s u : State} {x : Ctx} (h : Tallied x.t x.g s u) (hx : x.grp = s.grp x.t x.g) {pd : Nat}
    (hpd : pd ≠ 0) (m : Marker) (a : Nat) (val : Nat → Bool) :
    WrotePred s (u.setGrp x.t x.g (writePred (u.grp x.t x.g) x pd m a val).bumpPc) x pd val where
  bits k hk := by
    rw [State.grp_setGrp_self, hx, ← h.group_eq (·.pred pd) fun _ => rfl]
    exact writePred_bit _ _ _ _ _ _ hpd hk
  preds r hr := by
    rw [State.grp_setGrp_self, hx, ← h.group_eq (·.pred r) fun _ => rfl]
    exact writePred_pred_of_ne _ _ _ _ _ _ hr
  lanes r k := by
    rw [State.grp_setGrp_self, hx, ← h.group_eq (·.lane r k) fun _ => rfl]
    exact writePred_frame _ _ _ _ _ _ (·.lane r k) fun _ _ _ _ => rfl
  uniform r := by
    rw [State.grp_setGrp_self, hx, ← h.group_eq (·.uni r) fun _ => rfl]
    exact writePred_frame _ _ _ _ _ _ (·.uni r) fun _ _ _ _ => rfl
  pc := by
    rw [State.grp_setGrp_self, hx, ← h.group_eq (·.pc) fun _ => rfl]
    exact congrArg (fun n => (n + 4) % 65536) (writePred_frame _ _ _ _ _ _ (·.pc) fun _ _ _ _ => rfl)
  control := by
    have hc := writePred_frame (u.grp x.t x.g) x pd m a val (fun y => (y.amask, y.stack, y.nest, y.st)) fun _ _ _ _ => rfl
    rw [h.group_eq (fun y => (y.amask, y.stack, y.nest, y.st)) fun _ => rfl, ← hx] at hc
    rw [State.grp_setGrp_self]
    simp only [Prod.mk.injEq] at hc
    exact hc
  sram := ⟨h.beyond_eq State.sram fun _ => rfl, h.beyond_eq State.sramBad fun _ => rfl⟩
  frame := h.tileFrame _

/-- An instruction that writes one predicate other than p0 writes it. -/
theorem execPred_wrotePred (x : Ctx) {pd : Nat} (hpd : pd ≠ 0) (lat : Nat) (val : Nat → Bool) (s : State)
    (hx : x.grp = s.grp x.t x.g) : WrotePred s (execPred x pd lat val s) x pd val := by
  let r := if x.lanes.length = 8 ∨ x.lanes = [] then (x.mark, none)
    else (s.retire x 1).combine x.sec x.mark (viewMark ((s.retire x 1).til x.t).view (x.grp.markOf (0x40 + pd)))
  have hu : Tallied x.t x.g s ((s.retire x 1).reportConflict x r.2) := (tallied_retire s x 1).trans (tallied_reportConflict ..)
  exact hu.wrotePred hx hpd ..

end Sys2Proof.Machine

namespace Sys2Proof.Claims

open Sys2Proof.Machine

/-- A command whose instruction issues and writes one predicate other than p0 writes it. -/
theorem Issues.gives_wrotePred {s : State} {t g c : Nat} {i : TInst} (h : Issues s t g c i) {cmd : Instr}
    {body : Ctx → State → State} {pd : BitVec 3} (hpd : pd ≠ 0) {val val' : Nat → Bool}
    (hc : exec cmd s = onGroup t g (issueAs t g (mnemOf i) body s))
    (hb : body (s.mkCtx t g c i) s = execPred (s.mkCtx t g c i) pd.toNat 1 val s) (hv : ∀ k, val k = val' k) :
    Gives cmd s fun s' => WrotePred s s' (s.mkCtx t g c i) pd.toNat val' := by
  refine h.gives hc ?_
  obtain rfl := funext hv
  rw [hb]
  exact execPred_wrotePred _ (fun h0 => hpd (BitVec.eq_of_toNat_eq h0)) 1 val s rfl

theorem plogBit_eq (tt : BitVec 4) (a b : Bool) :
    plogBit tt a b = tt.getLsbD (2 * (if a then 1 else 0) + if b then 1 else 0) := by
  cases a <;> cases b <;> rfl

/-- Settles O13: CMP and PLOG each write one predicate by `execPred`, UFROMP a uniform register by `execLane`; PFROMU
sets its predicate whole. -/
theorem predicateResults : Obligations.PredicateResults := by
  intro s t g c gp pd pa pb cond gn d a b fmt tt
  refine ⟨fun h hpd => ?cmp, fun h hpd => ?plog, fun h hd => ?pfromu, fun h => ?ufromp⟩
  case cmp => exact h.gives_wrotePred hpd rfl rfl fun _ => rfl
  case plog => exact h.gives_wrotePred hpd rfl rfl fun _ => plogBit_eq ..
  case ufromp => exact h.gives_wrote rfl rfl fun _ => (BitVec.ofNat_toNat ..).symm
  case pfromu =>
    let x := s.mkCtx t g c (.reg .pfromu gp gn d a b fmt)
    have hd : d.toNat ≠ 0 := fun h0 => hd (BitVec.eq_of_toNat_eq h0)
    let y := (s.retire x 1).grp t g
    let u := (s.retire x 1).setGrp t g (putPred y x d.toNat (x.grp.uni (a.toNat - 0x20))).bumpPc
    have hu : Tallied t g s (s.retire x 1) := tallied_retire s x 1
    have hy {α : Type} (f : Group → α) (hf : ∀ y : Group, f y.uncounted = f y) : f y = f x.grp := hu.group_eq f hf
    have hgrp : u.grp t g = (putPred y x d.toNat (x.grp.uni (a.toNat - 0x20))).bumpPc := State.grp_setGrp_self ..
    refine h.gives (body := fun x s => match x.inst with
      | .reg _ _ _ d a _ _ => (s.retire x 1).setGrp t g
          (putPred ((s.retire x 1).grp t g) x d.toNat (x.grp.uni (a.toNat - 0x20))).bumpPc
      | _ => s) rfl (show _ ∧ _ from ?_)
    change (∀ r, (u.grp t g).pred r = _) ∧ (∀ r k, (u.grp t g).lane r k = _) ∧ (∀ r, (u.grp t g).uni r = _) ∧ (u.grp t g).pc = _ ∧ _
    rw [hgrp]
    refine ⟨fun r => ?_, fun r k => ?_, fun r => ?_, ?_, hu.beyond_eq State.sram fun _ => rfl, hu.tileFrame _⟩
    · refine (putPred_pred y x hd _ r).trans ?_
      rw [show y.pred r = x.grp.pred r from hy (·.pred r) fun _ => rfl]
      rfl
    · exact (putPred_frame (·.lane r k) (fun _ _ _ _ => rfl) ..).trans (hy (·.lane r k) fun _ => rfl)
    · exact (putPred_frame (·.uni r) (fun _ _ _ _ => rfl) ..).trans (hy (·.uni r) fun _ => rfl)
    · exact congrArg (fun n => (n + 4) % 65536) ((putPred_frame (·.pc) (fun _ _ _ _ => rfl) ..).trans (hy _ fun _ => rfl))

end Sys2Proof.Claims

namespace Sys2Proof.Machine

open Sys2Proof.Claims

/-! ### Control instructions -/

/-- What a control instruction leaves of its group, but for the program counter, which it moves from here. -/
def Group.steady (y : Group) :
    Smap (Nat × Nat) Word × Smap Nat Word × Smap Nat (BitVec 8) × List Nat × GState × Nat :=
  (y.v, y.u, y.p, y.nest, y.st, y.pc)

/-- A control instruction that changes its group by `f` alone takes the branch or moves on, and leaves the active mask and the
stack that `f` makes of the group's. -/
theorem ctlRetire_steered {s : State} {x : Ctx} (hx : x.grp = s.grp x.t x.g) (taken : Bool) (off : BitVec 16) {f : Group → Group}
    {m : BitVec 8} {st : List (BitVec 8 × BitVec 8)} (hf : ∀ y, (f y).steady = y.steady)
    (hm : ∀ y, y.amask = x.grp.amask → y.stack = x.grp.stack → (f y).amask = m ∧ ((f y).stack.map fun e => (e.m, e.e)) = st) :
    Steered s (ctlRetire x taken off f s) x.t x.g (if taken then branchTo x.grp.pc off else (x.grp.pc + 4) % 65536) m st := by
  let y := (s.retire x 1).grp x.t x.g
  let q : Option (Nat × Nat) := if guardOf x.inst = (0, false) then none
    else ((s.retire x 1).withQ x (match x.inst with | .ctl .bany .. | .ctl .bnone .. => x.grp.ctl | _ => x.grp.aMark)).2
  let z : Group := if taken then { f y with pc := branchTo x.grp.pc off } else (f y).bumpPc
  have hu : Tallied x.t x.g s ((s.retire x 1).reportConflict x q) := (tallied_retire s x 1).trans (tallied_reportConflict ..)
  have hbody : ctlRetire x taken off f s = ((s.retire x 1).reportConflict x q).setGrp x.t x.g z := rfl
  have hy : y.uncounted = (s.grp x.t x.g).uncounted := (tallied_retire s x 1).group
  have hsteady : (f y).steady = (s.grp x.t x.g).steady := (hf y).trans (congrArg Group.steady hy :)
  simp only [Group.steady, Prod.mk.injEq] at hsteady
  obtain ⟨hv, hu', hp, hnest, hst', hpc⟩ := hsteady
  obtain ⟨hm, hst⟩ := hm y (by rw [hx]; exact (congrArg Group.amask hy :)) (by rw [hx]; exact (congrArg Group.stack hy :))
  rw [hx]
  have hz : (if taken then branchTo (s.grp x.t x.g).pc off else ((s.grp x.t x.g).pc + 4) % 65536) = z.pc := by
    cases taken
    · exact congrArg (fun n => (n + 4) % 65536) hpc.symm
    · exact congrArg (branchTo ·.pc off) hx.symm
  rw [hbody, hz]
  constructor
  case frame => exact hu.tileFrame z
  case sram => exact ⟨hu.beyond_eq State.sram fun _ => rfl, hu.beyond_eq State.sramBad fun _ => rfl⟩
  all_goals rw [State.grp_setGrp_self]
  case amask => cases taken <;> exact hm
  case stack => cases taken <;> exact hst
  case regs => cases taken <;> exact ⟨hv, hu', hp⟩
  case rest => cases taken <;> exact ⟨hnest, hst'⟩

end Sys2Proof.Machine

namespace Sys2Proof.Claims

open Sys2Proof.Machine

/-- A control instruction that issues and retires by `ctlRetire` leaves what that leaves. -/
theorem Issues.gives_steered {s : State} {t g c : Nat} {op : CtlOp} {gp : BitVec 3} {gn : Bool} {off : BitVec 16}
    (h : Issues s t g c (.ctl op gp gn off)) {cmd : Instr} {p : Prop} [Decidable p] {f : Group → Group} {m : BitVec 8}
    {st : List (BitVec 8 × BitVec 8)}
    (hc : exec cmd s = onGroup t g (issueAs t g (mnemOf (.ctl op gp gn off)) ctlBody s))
    (hb : ctlBody (s.mkCtx t g c (.ctl op gp gn off)) s = ctlRetire (s.mkCtx t g c (.ctl op gp gn off)) (decide p) off f s)
    (hf : ∀ y, (f y).steady = y.steady) (hm : ∀ y, y.amask = (s.grp t g).amask → y.stack = (s.grp t g).stack →
      (f y).amask = m ∧ ((f y).stack.map fun e => (e.m, e.e)) = st) :
    Gives cmd s fun s' => Steered s s' t g (if p then branchTo (s.grp t g).pc off else ((s.grp t g).pc + 4) % 65536) m st := by
  refine h.gives hc ?_
  have hsteered := ctlRetire_steered (x := s.mkCtx t g c (.ctl op gp gn off)) rfl (decide p) off hf hm
  simp only [decide_eq_true_eq] at hsteered
  rwa [hb]

/-- Settles O14: each instruction of format C retires by `ctlRetire` with a change of its own. -/
theorem controlResults : Obligations.ControlResults := by
  intro s t g c op gp gn off h x q on away masks
  refine ⟨?nop, ?bra, ?bany, ?bnone, ?pushif, ?else_, ?pop, ?mask⟩
  case nop =>
    rintro rfl
    have hb := show ctlBody (s.mkCtx t g c (.ctl .nop gp gn off)) s =
        ctlRetire (s.mkCtx t g c (.ctl .nop gp gn off)) (decide False) off _ s by
      simp only [ctlBody, State.mkCtx_inst]
      rfl
    exact h.gives_steered rfl hb (fun _ => rfl) fun y ha hs => ⟨ha, by rw [id, hs]⟩
  case bra =>
    rintro rfl
    have hb := show ctlBody (s.mkCtx t g c (.ctl .bra gp gn off)) s =
        ctlRetire (s.mkCtx t g c (.ctl .bra gp gn off)) (decide True) off _ s by
      simp only [ctlBody, State.mkCtx_inst]
      rfl
    exact h.gives_steered rfl hb (fun _ => rfl) fun y ha hs => ⟨ha, by rw [id, hs]⟩
  case bany =>
    rintro rfl
    have hb := show ctlBody (s.mkCtx t g c (.ctl .bany gp gn off)) s =
        ctlRetire (s.mkCtx t g c (.ctl .bany gp gn off)) (decide (x.amask &&& q ≠ 0)) off _ s by
      simp only [ctlBody, State.mkCtx_inst, State.mkCtx_grp]
      rfl
    exact h.gives_steered rfl hb (fun _ => rfl) fun y ha hs => ⟨ha, by rw [hs]⟩
  case bnone =>
    rintro rfl
    have hb := show ctlBody (s.mkCtx t g c (.ctl .bnone gp gn off)) s =
        ctlRetire (s.mkCtx t g c (.ctl .bnone gp gn off)) (decide (x.amask &&& q = 0)) off _ s by
      simp only [ctlBody, State.mkCtx_inst, State.mkCtx_grp]
      rfl
    exact h.gives_steered rfl hb (fun _ => rfl) fun y ha hs => ⟨ha, by rw [hs]⟩
  case pushif =>
    rintro rfl
    have hb := show ctlBody (s.mkCtx t g c (.ctl .pushif gp gn off)) s =
        ctlRetire (s.mkCtx t g c (.ctl .pushif gp gn off)) (decide (x.amask &&& q = 0)) off _ s by
      simp only [ctlBody, State.mkCtx_inst, State.mkCtx_grp]
      rfl
    exact h.gives_steered rfl hb (fun _ => rfl) fun y ha hs => ⟨by rw [ha]; rfl, by rw [List.map_cons, hs, ha]; rfl⟩
  case else_ =>
    rintro rfl e rest hstack
    have hb := show ctlBody (s.mkCtx t g c (.ctl .else_ gp gn off)) s =
        ctlRetire (s.mkCtx t g c (.ctl .else_ gp gn off)) (decide (e.e = 0)) off _ s by
      simp only [ctlBody, State.mkCtx_inst, State.mkCtx_grp, show (s.grp t g).stack = e :: rest from hstack]
      rfl
    exact h.gives_steered rfl hb (fun _ => rfl) fun y ha hs => ⟨rfl, by rw [hs]⟩
  case pop =>
    rintro rfl e rest hstack
    have hb := show ctlBody (s.mkCtx t g c (.ctl .pop gp gn off)) s =
        ctlRetire (s.mkCtx t g c (.ctl .pop gp gn off)) (decide False) off _ s by
      simp only [ctlBody, State.mkCtx_inst, State.mkCtx_grp, show (s.grp t g).stack = e :: rest from hstack]
      rfl
    exact h.gives_steered rfl hb (fun _ => rfl) fun y ha hs => ⟨rfl, rfl⟩
  case mask =>
    rintro rfl
    have hb := show ctlBody (s.mkCtx t g c (.ctl .mask gp gn off)) s =
        ctlRetire (s.mkCtx t g c (.ctl .mask gp gn off)) (decide False) off _ s by
      simp only [ctlBody, State.mkCtx_inst]
      rfl
    exact h.gives_steered rfl hb (fun _ => rfl) fun y ha hs => ⟨by rw [ha]; rfl, by rw [hs]⟩

end Sys2Proof.Claims
end

section
/-! SUPPORT. What an issue leaves of the tile that issues, of its out-slots and of the tag bus. -/

namespace Sys2Proof.Claims

open Sys2Proof.Machine

theorem TileFrame.refl (s : State) (t g : Nat) : TileFrame s s t g :=
  ⟨fun _ _ _ => rfl, fun _ _ _ _ => rfl, ⟨rfl, rfl⟩, rfl, ⟨rfl, rfl⟩, ⟨rfl, rfl, rfl⟩, ⟨rfl, rfl, rfl, rfl, rfl, rfl⟩⟩

theorem TileFrame.trans {s s' s'' : State} {t g : Nat} (h : TileFrame s s' t g) (h' : TileFrame s' s'' t g) :
    TileFrame s s'' t g where
  groups a b hab := (h'.groups a b hab).trans (h.groups a b hab)
  regs r u k hr := (h'.regs r u k hr).trans (h.regs r u k hr)
  fst := ⟨h'.fst.1.trans h.fst.1, h'.fst.2.trans h.fst.2⟩
  fields := h'.fields.trans h.fields
  buoys := ⟨h'.buoys.1.trans h.buoys.1, h'.buoys.2.trans h.buoys.2⟩
  engines := by
    obtain ⟨h1, h2, h3⟩ := h.engines
    obtain ⟨h1', h2', h3'⟩ := h'.engines
    exact ⟨h1'.trans h1, h2'.trans h2, h3'.trans h3⟩
  others := by
    obtain ⟨h1, h2, h3, h4, h5, h6⟩ := h.others
    obtain ⟨h1', h2', h3', h4', h5', h6'⟩ := h'.others
    exact ⟨h1'.trans h1, h2'.trans h2, h3'.trans h3, h4'.trans h4, h5'.trans h5, h6'.trans h6⟩

end Sys2Proof.Claims

namespace Sys2Proof.Machine

open Sys2Proof.Claims

/-- A tile without what an issue changes in it: its issue clock, its scan position, and whether it withholds its end of work. -/
def Tile.unissued (y : Tile) : Tile := { y with cyc := 0, lastGroup := 0, withhold := false }

/-- The second state has the tiles of the first but for what an issue changes in them, its out-slots, and every message of its
tag bus. -/
structure Issued (s s' : State) : Prop where
  tiles : ∀ a, (s'.til a).unissued = (s.til a).unissued
  outSlots : ∀ a k, 16 ≤ k → s'.slot a k = s.slot a k
  tagMsgs : ∀ m ∈ s.tagMsgs, m ∈ s'.tagMsgs

namespace Issued

variable {s s' s'' : State}

theorem refl (s : State) : Issued s s := ⟨fun _ => rfl, fun _ _ _ => rfl, fun _ h => h⟩

theorem trans (h : Issued s s') (h' : Issued s' s'') : Issued s s'' where
  tiles a := (h'.tiles a).trans (h.tiles a)
  outSlots a k hk := (h'.outSlots a k hk).trans (h.outSlots a k hk)
  tagMsgs m hm := h'.tagMsgs m (h.tagMsgs m hm)

theorem each {α : Type} (f : State → α → State) (l : List α) (hf : ∀ s, ∀ a ∈ l, Issued s (f s a)) (s : State) :
    Issued s (s.each l f) :=
  State.each_keeps Issued refl (fun _ _ _ => trans) f l hf s

/-- Tiles, slots and tag messages as they were. -/
theorem of_eq (ht : s'.tiles = s.tiles) (hs : s'.slots = s.slots) (hm : s'.tagMsgs = s.tagMsgs) : Issued s s' where
  tiles a := by rw [State.til, ht, State.til]
  outSlots a k _ := by rw [State.slot, hs, State.slot]
  tagMsgs m h := hm ▸ h

/-- What a tile holds beside what an issue changes. -/
theorem til_eq {α : Type} (h : Issued s s') (f : Tile → α) (hf : ∀ y : Tile, f y.unissued = f y) (a : Nat) :
    f (s'.til a) = f (s.til a) := by
  rw [← hf, h.tiles, hf]

end Issued

section

variable (s : State)

theorem issued_setTil {a : Nat} {y : Tile} (h : y.unissued = (s.til a).unissued) : Issued s (s.setTil a y) where
  tiles b := by
    rw [State.til_setTil]
    split
    · next hb => rw [h, hb]
    · rfl
  outSlots _ _ _ := rfl
  tagMsgs _ h := h

theorem issued_setSlot (a : Nat) {k : Nat} (hk : k < 16) (x : Slot) : Issued s (s.setSlot a k x) where
  tiles _ := rfl
  outSlots b j hj := by
    rw [State.slot_setSlot, if_neg]
    rintro ⟨⟩
    omega
  tagMsgs _ h := h

theorem issued_tagBus (a : Nat) (op : TagOp) (tag c : Nat) (tag2 : Option Nat) : Issued s (s.tagBus a op tag c tag2) where
  tiles _ := rfl
  outSlots _ _ _ := rfl
  tagMsgs _ h := List.mem_append_left _ h

theorem issued_logEv (ev : Ev) (f loc detail : Nat) : Issued s (s.logEv ev f loc detail) := by
  obtain ⟨r, o, i, h⟩ := s.logEv_spec ev f loc detail
  rw [h]
  exact .of_eq rfl rfl rfl

theorem issued_wr (r : Reg) (u k : Nat) (w : BitVec 64) : Issued s (s.wr r u k w) := .of_eq rfl rfl rfl

theorem issued_bump (r : Reg) (u k n : Nat) : Issued s (s.bump r u k n) := issued_wr s ..

theorem issued_hset (f : RegField) (u k : Nat) : Issued s (s.hset f u k) :=
  .trans (s' := s.noteSet f u k) (.of_eq rfl rfl rfl) (issued_wr _ ..)

theorem issued_returnCredit (a k src sslot didx n c : Nat) : Issued s (s.returnCredit a k src sslot didx n c) := by
  unfold State.returnCredit
  split
  · exact .refl s
  · simp only
    split <;> exact .of_eq rfl rfl rfl

theorem issued_creditWords (a k c : Nat) (ws : List QWord) : Issued s (s.creditWords a k c ws) :=
  .each _ _ (fun s _ _ => issued_returnCredit s ..) s

theorem issued_channelPoison (a k : Nat) : Issued s (s.channelPoison a k) := by
  exact ((issued_hset s F.chnSlotStatus_poison a k).trans (issued_setTil _ (by rfl))).trans (issued_logEv ..)

theorem issued_poolRead (a k : Nat) (ws : List QWord) : Issued s (s.poolRead a k ws) := by
  have hecc : Issued s (s.poolEcc a ws) := by
    unfold State.poolEcc
    split
    · exact issued_bump s ..
    · exact .refl s
  exact hecc.trans (.each _ _ (fun s _ _ => issued_channelPoison s a k) _)

theorem issued_setQueue (a : Nat) {k : Nat} (hk : k < 16) (c : Nat) (q : List QWord) : Issued s (s.setQueue a k c q) := by
  unfold State.setQueue
  simp only
  refine .trans ?_ (issued_setSlot _ _ hk _)
  split
  · split
    · exact .refl s
    · exact issued_bump s ..
  · exact .refl s

theorem issued_popSlot (a : Nat) {k : Nat} (hk : k < 16) (c : Nat) : Issued s (s.popSlot a k c) := by
  unfold State.popSlot
  split
  · exact .refl s
  · exact ((issued_setQueue s a hk ..).trans (issued_creditWords ..)).trans (issued_poolRead ..)

theorem issued_readEcc (a : Nat) (offs : List Nat) : Issued s (s.readEcc a offs) := by
  obtain h | ⟨n, h⟩ := s.readEcc_spec a offs <;> rw [h]
  · exact .refl s
  · exact issued_bump s ..

theorem issued_countWait (x : Ctx) (b : Nat) : Issued s (s.countWait x b) := by
  unfold State.countWait
  split
  · exact .refl s
  · simp only
    split
    · exact .refl s
    · exact issued_bump s ..

theorem issued_takeSlot (a b c : Nat) : Issued s (s.takeSlot a b c) :=
  (issued_bump s ..).trans (issued_setTil _ (by rfl))

theorem issued_conflict (a b x y c : Nat) : Issued s (s.conflict a b x y c) :=
  (((issued_tagBus s ..).trans (issued_hset ..)).trans (issued_bump ..)).trans (issued_logEv ..)

theorem issued_reportConflict (x : Ctx) (c : Option (Nat × Nat)) : Issued s (s.reportConflict x c) := by
  match c with
  | some _ => exact issued_conflict s ..
  | none => exact .refl s

/-- The operand ports of a group are in-slots. -/
theorem portSlot_lt {t g q k : Nat} (h : s.portSlot t g q = some k) : k < 16 :=
  List.mem_range.1 (List.mem_of_find?_eq_some h)

theorem issued_slotTaken (x : Ctx) : Issued s (s.slotTaken x) := by
  have htaken : Issued s (((s.countWait x x.cyc).readEcc x.t [x.grp.pc]).takeSlot x.t x.g x.cyc) :=
    ((issued_countWait s ..).trans (issued_readEcc ..)).trans (issued_takeSlot ..)
  refine htaken.trans (.trans ?_ (issued_bump ..))
  split
  · exact issued_bump ..
  · split
    · exact .refl _
    · refine .each _ _ (fun s q _ => ?_) _
      split
      · next hk => exact issued_popSlot s _ (portSlot_lt s hk) _
      · exact .refl s

theorem issued_clockedOn (x : Ctx) (occ : Nat) : Issued s (s.clockedOn x occ) :=
  (issued_setTil s (by rfl)).trans (.of_eq rfl rfl rfl)

theorem issued_retire (x : Ctx) (occ : Nat) : Issued s (s.retire x occ) := by
  rw [State.retire_eq]
  exact ((issued_slotTaken s x).trans (issued_clockedOn ..)).trans (issued_reportConflict ..)

end

/-! ### The end of a group's work -/

/-- A group that issues has come to fetch. -/
theorem Fetching.of_nextOf_go {s : State} {t g c : Nat} {i : TInst} (h : s.nextOf t g = .go c i) : Fetching s t g := by
  unfold State.nextOf at h
  simp only at h
  split at h
  · cases h
  · next hc =>
    simp only [not_or, ne_eq, not_not, Bool.not_eq_true] at hc
    obtain ⟨hrun, hgo, hwork, hflow, hawake, hlit⟩ := hc
    exact ⟨hrun, hgo, hwork, hflow, hawake, hlit⟩

/-- Whether a group is quiet rests on its tile's loads and held operations and on its counts of what is in flight. -/
theorem quiet_congr {s s' : State} {t g : Nat} (hloads : (s'.til t).loads = (s.til t).loads)
    (hheld : (s'.til t).held = (s.til t).held) (hrst : (s'.grp t g).rstOut = (s.grp t g).rstOut)
    (hops : (s'.grp t g).opsOut = (s.grp t g).opsOut) (hsends : (s'.grp t g).sendsOut = (s.grp t g).sendsOut) :
    s'.quiet t g = s.quiet t g := by
  simp only [State.quiet, hloads, hheld, hrst, hops, hsends]

/-- A group that retires END is DONE, and its tile may have ended its work. -/
theorem State.retireEnd_spec (s : State) (t g : Nat) :
    s.retireEnd t g = s.setGrp t g { s.grp t g with st := .done, ended := false } ∨
    s.retireEnd t g = (s.setGrp t g { s.grp t g with st := .done, ended := false }).setTil t { s.til t with eow := true } := by
  unfold State.retireEnd
  simp only
  split
  · exact .inr rfl
  · exact .inl rfl

/-- An issue of END tallied: its group issues nothing further, and its watchdog counts on. -/
def State.endIssued (u : State) (t g last : Nat) : State :=
  u.setGrp t g { u.grp t g with ended := true, lastRetire := last }

theorem State.endIssued_grp (u : State) (t g last : Nat) :
    (u.endIssued t g last).grp t g = { u.grp t g with ended := true, lastRetire := last } := State.grp_setGrp_self ..

theorem endIssued_quiet {s u : State} {t g : Nat} (hu : Tallied t g s u) (hi : Issued s u) (last : Nat) :
    (u.endIssued t g last).quiet t g = s.quiet t g := by
  apply quiet_congr
  · exact hi.til_eq (·.loads) (fun _ => rfl) t
  · exact hi.til_eq (·.held) (fun _ => rfl) t
  all_goals rw [State.endIssued_grp]
  · exact hu.group_eq (·.rstOut) fun _ => rfl
  · exact hu.group_eq (·.opsOut) fun _ => rfl
  · exact hu.group_eq (·.sendsOut) fun _ => rfl

/-- An issue of END only tallies, but for the mark on its group. -/
theorem tallied_endIssued_uncounted {s u : State} {t g : Nat} (hu : Tallied t g s u) (last : Nat) :
    ((u.endIssued t g last).grp t g).uncounted = { (s.grp t g).uncounted with ended := true } := by
  rw [State.endIssued_grp]
  exact congrArg (fun y : Group => { y with ended := true }) hu.group

/-- What a group that retires END leaves. -/
theorem State.retireEnd_grp (s : State) (t g : Nat) :
    (s.retireEnd t g).grp t g = { s.grp t g with st := .done, ended := false } := by
  obtain h | h := s.retireEnd_spec t g <;> rw [h]
  · exact State.grp_setGrp_self ..
  · exact State.grp_setGrp_self ..

theorem State.retireEnd_sram (s : State) (t g : Nat) : (s.retireEnd t g).sram = s.sram := by
  obtain h | h := s.retireEnd_spec t g <;> rw [h] <;> rfl

theorem Tallied.retireEnd {t g : Nat} {s u : State} (h : Tallied t g s u) : TileFrame s (u.retireEnd t g) t g := by
  obtain hr | hr := u.retireEnd_spec t g <;> rw [hr]
  · exact h.tileFrame _
  · exact { h.tileFrame { u.grp t g with st := .done, ended := false } with }

/-- The tile's end of work comes with the last group, none being TRAPPED, unless it is withheld (R148, R174, R175). -/
theorem State.retireEnd_eow (s : State) (t g : Nat) (hold : (s.til t).withhold = false)
    (hall : ∀ k, k < 8 → k ≠ g → (s.grp t k).st ≠ .trapped ∧ ((s.til t).active.testBit k = true → (s.grp t k).st = .done)) :
    ((s.retireEnd t g).til t).eow = true := by
  have hgroups : ((List.range 8).all fun k =>
      (!((s.til t).active.testBit k) && ((s.setGrp t g { s.grp t g with st := .done, ended := false }).grp t k).st ≠ .trapped) ||
        ((s.setGrp t g { s.grp t g with st := .done, ended := false }).grp t k).st = .done) = true := by
    rw [List.all_eq_true]
    intro k hk
    by_cases hkg : k = g
    · subst hkg
      simp
    · obtain ⟨htrap, hdone⟩ := hall k (List.mem_range.1 hk) hkg
      simp only [State.grp_setGrp, Prod.mk.injEq, true_and, hkg, if_false]
      cases hb : (s.til t).active.testBit k
      · simp [htrap]
      · simp [hdone hb]
  unfold State.retireEnd
  simp only
  rw [if_pos ⟨hold, hgroups⟩, State.til_setTil_self]

theorem State.retireEnd_withheld (s : State) (t g : Nat) (hold : (s.til t).withhold = true) :
    (s.retireEnd t g).til t = s.til t := by
  unfold State.retireEnd
  simp only
  rw [if_neg (fun h => Bool.false_ne_true (h.1.symm.trans hold)), State.setGrp_til]

/-- What END does once its issue is tallied: its group is DONE where it is quiet, and otherwise waits. -/
theorem endIssued_gives {s u : State} {t g : Nat} (hu : Tallied t g s u) (hi : Issued s u) (hrun : (s.grp t g).st = .running)
    (last : Nat) :
    let v := u.endIssued t g last
    let s' := if v.quiet t g then v.retireEnd t g else v
    (s.quiet t g = true → (s'.grp t g).st = .done) ∧
    (s.quiet t g = false → (s'.grp t g).st = .running ∧ (s'.grp t g).ended = true) ∧
    (s'.grp t g).v = (s.grp t g).v ∧ (s'.grp t g).u = (s.grp t g).u ∧ (s'.grp t g).p = (s.grp t g).p ∧
    s'.sram = s.sram ∧ TileFrame s s' t g := by
  intro v s'
  have hv := tallied_endIssued_uncounted hu last
  have hsram : v.sram = s.sram := hu.beyond_eq State.sram fun _ => rfl
  have hregs : (v.grp t g).v = (s.grp t g).v ∧ (v.grp t g).u = (s.grp t g).u ∧ (v.grp t g).p = (s.grp t g).p :=
    ⟨(congrArg Group.v hv :), (congrArg Group.u hv :), (congrArg Group.p hv :)⟩
  have hquiet : v.quiet t g = s.quiet t g := endIssued_quiet hu hi last
  cases hq : s.quiet t g
  · have hs' : s' = v := if_neg (by rw [hquiet, hq]; exact Bool.false_ne_true)
    rw [hs']
    exact ⟨fun h => absurd h Bool.false_ne_true, fun _ => ⟨(congrArg Group.st hv :).trans hrun, (congrArg Group.ended hv :)⟩,
      hregs.1, hregs.2.1, hregs.2.2, hsram, hu.tileFrame _⟩
  · have hs' : s' = v.retireEnd t g := if_pos (by rw [hquiet, hq])
    have hframe : TileFrame v (v.retireEnd t g) t g := (Tallied.refl v).retireEnd
    rw [hs', State.retireEnd_grp, State.retireEnd_sram]
    exact ⟨fun _ => rfl, fun h => absurd h.symm Bool.false_ne_true, hregs.1, hregs.2.1, hregs.2.2, hsram, (hu.tileFrame _).trans hframe⟩

/-! ### The watchdog -/

/-- A wait that ends is counted in one of the counts of an issue, or not at all. -/
theorem State.endWait_spec (s : State) (t g b : Nat) :
    s.endWait t g b = s ∨ ∃ u, (u = s ∨ ∃ r ∈ issueCounts, ∃ i n, u = s.bump r t i n) ∧
      s.endWait t g b = u.setGrp t g { u.grp t g with waitFrom := b } := by
  have hcount (c : Nat) (i : TInst) : s.countWait (s.mkCtx t g c i) b = s ∨
      ∃ r ∈ issueCounts, ∃ k n, s.countWait (s.mkCtx t g c i) b = s.bump r t k n := by
    unfold State.countWait
    split
    · exact .inl rfl
    · next h =>
      simp only
      split
      · exact .inl rfl
      · exact .inr ⟨_, lastWait_mem_issueCounts s h, _, _, rfl⟩
  unfold State.endWait
  simp only
  split
  · split
    · split
      · exact .inr ⟨_, hcount .., rfl⟩
      · exact .inl rfl
    · exact .inl rfl
  · split
    · exact .inr ⟨_, hcount .., rfl⟩
    · exact .inl rfl
  · exact .inl rfl

/-- What a wait that ends leaves: memory, packets, and its group's registers and program counter. -/
theorem State.endWait_frame (s : State) (t g b : Nat) : (s.endWait t g b).sram = s.sram ∧
    (s.endWait t g b).packets = s.packets ∧ ((s.endWait t g b).grp t g).v = (s.grp t g).v ∧
    ((s.endWait t g b).grp t g).u = (s.grp t g).u := by
  obtain h | ⟨u, rfl | ⟨r, _, i, n, rfl⟩, h⟩ := s.endWait_spec t g b <;> rw [h] <;> simp

end Sys2Proof.Machine

namespace Sys2Proof.Claims

open Sys2Proof.Machine

/-- Settles O15: an END retires by `State.retireEnd` once its group is quiet, which its issue does not change; the watchdog's
trap is a trap like any other. -/
theorem endOfWorkAndWatchdog : Obligations.EndOfWorkAndWatchdog := by
  refine ⟨fun s t g c off => ⟨fun h => ?end_, fun ht hg hrun hended hwork hquiet hflow => ?endOfWork⟩,
    fun s t g ht hg hlimit hrun hwork hbefore hidle => ?watchdog⟩
  case end_ =>
    let x := s.mkCtx t g c (.ctl .end_ 0 false off)
    have hrun : (s.grp t g).st = .running := (Fetching.of_nextOf_go h.next).running
    exact h.gives rfl (endIssued_gives (tallied_retire s x 1) (issued_retire s x 1) hrun _)
  case endOfWork =>
    refine ⟨_, (onGroup_of_lt ht hg _).trans (congrArg _ (if_pos ⟨hrun, hended, hwork, hquiet, hflow⟩)), ?_⟩
    beta_reduce
    rw [State.retireEnd_grp]
    exact ⟨rfl, rfl, s.retireEnd_sram t g, (Tallied.refl s).retireEnd, s.retireEnd_eow t g,
      fun hold => by rw [s.retireEnd_withheld t g hold]⟩
  case watchdog =>
    have hissue : issuesAfter (s.after t (s.grp t g).lastRetire (s.gf F.tgpWdog_limit t)) (s.nextOf t g) = true := by
      unfold issuesAfter
      split
      · next k hk => exact decide_eq_true (hidle k hk)
      · rfl
    refine ⟨_, (onGroup_of_lt ht hg _).trans (congrArg _ (if_pos ⟨hlimit, hrun, hwork, hbefore, hissue⟩)), ?_⟩
    generalize hc : s.after t (s.grp t g).lastRetire (s.gf F.tgpWdog_limit t) = c
    let w := (s.endWait t g c).advanceTo (cycleInstant (s.fld (fieldOf t)) c)
    obtain ⟨hsram, hpackets, hv, hu⟩ := s.endWait_frame t g c
    have hgrp := w.trap_grp t g c 0x0C 0 (s.grp t g).pc t g
    rw [if_pos rfl] at hgrp
    obtain ⟨r, o, i, htrap⟩ := w.trap_spec t g c 0x0C (s.grp t g).pc 0
    refine ⟨congrArg Group.st hgrp, ?_, (congrArg Group.v hgrp).trans hv, (congrArg Group.u hgrp).trans hu,
      (congrArg State.sram htrap).trans hsram, (congrArg State.packets htrap).trans hpackets⟩
    rw [State.trap_tgpTrap, BitVec.toNat_ofNat, bits]
    omega

end Sys2Proof.Claims
end

section
/-! SUPPORT. What SPEC does to the nest and the tag bus (R237 to R239, R545, R560). -/

namespace Sys2Proof.Machine

open Sys2Proof.Claims

/-- The message of a tag operation that a tile sends in cycle `c` (R560). -/
def State.tagMsg (s : State) (t : Nat) (op : TagOp) (tag c : Nat) : TagMsg :=
  { op := op, sector := s.sectorOf t, tag := tag, parity := s.parity (fieldOf t), from_ := fieldOf t, cycle := c }

theorem State.tagMsg_mem_tagBus (s : State) (t : Nat) (op : TagOp) (tag c : Nat) :
    s.tagMsg t op tag c ∈ (s.tagBus t op tag c).tagMsgs := List.mem_append_right _ (List.mem_singleton_self _)

section

variable {s u : State} {t g : Nat} (h : Tallied t g s u)

include h

/-- A field of a register that an issue does not count in. -/
theorem Tallied.gf_eq {f : RegField} (hf : f.reg ∉ issueCounts) (a k : Nat) : u.gf f a k = s.gf f a k := by
  rw [State.gf, h.regs _ _ _ hf, State.gf]

theorem Tallied.sectorOf_eq (a : Nat) : u.sectorOf a = s.sectorOf a := h.gf_eq (by decide) a 0

theorem Tallied.fld_eq (f : Nat) : u.fld f = s.fld f := by
  rw [State.fld, h.beyond_eq State.fields fun _ => rfl, State.fld]

theorem Tallied.tagMsg_eq (a : Nat) (op : TagOp) (tag c : Nat) : u.tagMsg a op tag c = s.tagMsg a op tag c := by
  rw [State.tagMsg, State.parity, h.sectorOf_eq, h.fld_eq, State.tagMsg, State.parity]

/-- A group set and a message sent, after an issue is tallied, is within the frame of an issuing instruction. -/
theorem Tallied.tileFrame_tagBus (y : Group) (a : Nat) (z : Tile) (op : TagOp) (tag c : Nat) :
    TileFrame s (((u.setGrp t g y).setTil a z).tagBus t op tag c) t g := { h.tileFrame y with }

end

end Sys2Proof.Machine

namespace Sys2Proof.Claims

open Sys2Proof.Machine

/-- What CONFIRM and SQUASH do once their issue is tallied. -/
theorem tagSent_gives {s u : State} {t g : Nat} (hu : Tallied t g s u) (dead : Bool) (op : TagOp) (tag c : Nat) :
    let v := u.setGrp t g (u.grp t g).bumpPc
    let s' := if dead then v else v.tagBus t op tag c
    (s'.grp t g).nest = (s.grp t g).nest ∧ (s'.grp t g).pc = ((s.grp t g).pc + 4) % 65536 ∧ s'.sram = s.sram ∧
      TileFrame s s' t g ∧ (dead = false → s.tagMsg t op tag c ∈ s'.tagMsgs) := by
  intro v s'
  have hgrp : s'.grp t g = (u.grp t g).bumpPc := by
    cases dead <;> exact State.grp_setGrp_self ..
  have hsram : s'.sram = u.sram := by cases dead <;> rfl
  have hframe : TileFrame s s' t g := by
    cases dead
    · exact { hu.tileFrame (u.grp t g).bumpPc with }
    · exact hu.tileFrame _
  rw [hgrp, hsram]
  refine ⟨hu.group_eq (·.nest) fun _ => rfl, congrArg (fun n => (n + 4) % 65536) (hu.group_eq (·.pc) fun _ => rfl),
    hu.beyond_eq State.sram fun _ => rfl, hframe, ?_⟩
  rintro rfl
  rw [← hu.tagMsg_eq]
  exact v.tagMsg_mem_tagBus t op tag c

/-- What BEGIN does once its issue is tallied: an open goes out unless the instruction is DEAD or the tile knows its tag open. -/
theorem specBegun_gives {s u : State} {t g : Nat} (hu : Tallied t g s u) (hi : Issued s u) (dead : Bool) (tag c : Nat) :
    let v := u.setGrp t g { u.grp t g with nest := tag :: (u.grp t g).nest }.bumpPc
    let s' := if dead ∨ (u.til t).opened.contains tag = true ∨ mget .free (u.til t).view tag ≠ .free then v
      else (v.setTil t { u.til t with opened := tag :: (u.til t).opened }).tagBus t .open_ tag c
    (s'.grp t g).nest = tag :: (s.grp t g).nest ∧ (s'.grp t g).pc = ((s.grp t g).pc + 4) % 65536 ∧ s'.sram = s.sram ∧
      TileFrame s s' t g ∧ (dead = false → (s.til t).opened.contains tag = false → mget .free (s.til t).view tag = .free →
        s.tagMsg t .open_ tag c ∈ s'.tagMsgs) := by
  intro v s'
  have hs' : s' = v ∨ s' = (v.setTil t { u.til t with opened := tag :: (u.til t).opened }).tagBus t .open_ tag c := by
    unfold s'
    split
    · exact .inl rfl
    · exact .inr rfl
  have hgrp : s'.grp t g = v.grp t g := by
    obtain h | h := hs'
    · rw [h]
    · rw [h]
      rfl
  have hsram : s'.sram = u.sram := by
    obtain h | h := hs'
    · rw [h]
      rfl
    · rw [h]
      rfl
  have hframe : TileFrame s s' t g := by
    obtain h | h := hs' <;> rw [h]
    · exact hu.tileFrame _
    · exact hu.tileFrame_tagBus ..
  rw [hgrp, hsram, State.grp_setGrp_self]
  refine ⟨congrArg (tag :: ·) (hu.group_eq (·.nest) fun _ => rfl),
    congrArg (fun n => (n + 4) % 65536) (hu.group_eq (·.pc) fun _ => rfl), hu.beyond_eq State.sram fun _ => rfl, hframe, ?_⟩
  intro hdead hopened hfree
  rw [← hi.til_eq (·.opened) fun _ => rfl] at hopened
  rw [← hi.til_eq (·.view) fun _ => rfl] at hfree
  have hs' : s' = _ := if_neg (by rw [hdead, hopened, hfree]; decide)
  rw [← hu.tagMsg_eq, hs']
  exact State.tagMsg_mem_tagBus (v.setTil t _) t .open_ tag c

/-- What SPEC END does once its issue is tallied. -/
theorem specEnded_gives {s u : State} {t g : Nat} (hu : Tallied t g s u) :
    let s' := u.setGrp t g { u.grp t g with nest := (u.grp t g).nest.tail }.bumpPc
    (s'.grp t g).nest = (s.grp t g).nest.tail ∧ (s'.grp t g).pc = ((s.grp t g).pc + 4) % 65536 ∧ s'.sram = s.sram ∧
      TileFrame s s' t g := by
  intro s'
  have hgrp : s'.grp t g = { u.grp t g with nest := (u.grp t g).nest.tail }.bumpPc := State.grp_setGrp_self ..
  rw [hgrp]
  exact ⟨congrArg List.tail (hu.group_eq (·.nest) fun _ => rfl), congrArg (fun n => (n + 4) % 65536) (hu.group_eq (·.pc) fun _ => rfl),
    hu.beyond_eq State.sram fun _ => rfl, hu.tileFrame _⟩

/-- Settles O17: SPEC changes its group's nest once its issue is tallied, and sends its message on the tag bus. -/
theorem specResults : Obligations.SpecResults := by
  intro s t g c tag sent
  refine ⟨fun h => ?begin_, fun h => ?end_, fun h => ?confirm, fun h => ?squash⟩
  case begin_ =>
    let x := s.mkCtx t g c (.spec .begin_ tag)
    exact h.gives rfl (specBegun_gives (tallied_retire s x 1) (issued_retire s x 1) x.dead tag.toNat c)
  case end_ =>
    exact h.gives rfl (specEnded_gives (tallied_retire s (s.mkCtx t g c (.spec .end_ 0)) 1))
  case confirm =>
    let x := s.mkCtx t g c (.spec .confirm tag)
    exact h.gives rfl (tagSent_gives (tallied_retire s x 1) x.dead .confirm tag.toNat c)
  case squash =>
    let x := s.mkCtx t g c (.spec .squash tag)
    exact h.gives rfl (tagSent_gives (tallied_retire s x 1) x.dead .squash tag.toNat c)

end Sys2Proof.Claims
end

section
/-! SUPPORT. LD and ST (R216 to R220): what a local load writes, and what the words of a store leave in SRAM. -/

namespace Sys2Proof.Machine

open Sys2Proof.Claims

/-! ### LD -/

/-- A local access whose offsets are aligned and inside local store does not trap (R217). -/
theorem localFault_eq_none {s : State} {t : Nat} {offs : List Nat} (h : ∀ o ∈ offs, o % 4 = 0 ∧ o < s.lsBytes t) :
    s.localFault t offs = none := by
  have hal : offs.find? (· % 4 ≠ 0) = none := by
    simp only [List.find?_eq_none, decide_eq_true_eq, ne_eq, not_not]
    exact fun o ho => (h o ho).1
  have hin : (offs.find? fun a => s.lsBytes t ≤ a) = none := by
    simp only [List.find?_eq_none, decide_eq_true_eq, Nat.not_le]
    exact fun o ho => (h o ho).2
  simp only [State.localFault, hal, hin]

/-- A local access that reads no uncorrectable word does not trap (R177). -/
theorem poisonFault_eq_none {s : State} {t : Nat} {offs : List Nat} (h : ∀ o ∈ offs, (s.loadWord t o).2.2 = false) :
    s.poisonFault t offs = none := by
  have hp : (offs.find? fun o => (s.loadWord t o).2.2) = none := by
    simp only [List.find?_eq_none, Bool.not_eq_true]
    exact h
  simp only [State.poisonFault, hp, Option.map_none]

/-- An instruction that writes one destination, its issue tallied after other tallies. -/
theorem Tallied.execLane_wrote {s u : State} {x : Ctx} (h : Tallied x.t x.g s u) (hx : x.grp = s.grp x.t x.g) (d lat : Nat)
    (val : Nat → Word) (occ : Nat) :
    Wrote s (execLane x d lat val u occ) x d (s.after x.t (s.after x.t x.cyc occ - 1) lat) val := by
  obtain ⟨v, m, hv, he⟩ := execLane_spec x d lat val u occ
  rw [he, h.after_eq, h.after_eq]
  exact (h.trans hv).wrote hx ..

/-- The marker that LD gives its destination, with the conflict met, in the context of its issue (R547, R555). -/
def Ctx.withLoads (x : Ctx) (s : State) (offs : List Nat) : Ctx :=
  let r := s.combineAll x.sec (x.mark :: offs.flatMap fun o => (s.loadWord x.t o).2.1)
  { x with mark := r.1, conflict := x.conflict.or r.2 }

/-- LD where nothing traps. -/
theorem ldBody_eq {x : Ctx} {s : State} {op : LOp} {gp : BitVec 3} {gn : Bool} {d a : BitVec 6} {woff : BitVec 10}
    (hi : x.inst = .loc op gp gn d a woff) (hdead : x.dead = false)
    (hfault : s.localFault x.t (x.lanes.map (x.offset a woff)) = none)
    (hpoison : s.poisonFault x.t (x.lanes.map (x.offset a woff)) = none) :
    ldBody x s = execLane (x.withLoads s (x.lanes.map (x.offset a woff))) d.toNat 3
      (fun k => (s.loadWord x.t (x.offset a woff k)).1)
      (s.readEcc x.t ((x.lanes.map (x.offset a woff)).filter fun o => (s.loadWord x.t o).2.1.contains .none))
      (blocks16 (x.lanes.map (x.offset a woff))) := by
  unfold ldBody
  split
  · next heq =>
    cases hi.symm.trans heq
    rw [if_neg (by rw [hdead]; exact Bool.false_ne_true), hfault, hpoison]
    rfl
  · next hne => exact (hne _ _ _ _ _ _ hi).elim

end Sys2Proof.Machine

namespace Sys2Proof.Claims

open Sys2Proof.Machine

/-- Settles O18: LD reads its words, tallies the corrections, and writes one destination. -/
theorem localLoadResults : Obligations.LocalLoadResults := by
  intro s t g c gp gn d a woff h x offs hdead hok
  refine h.gives rfl ?_
  rw [ldBody_eq (x := x) rfl hdead (localFault_eq_none fun o ho => ⟨(hok o ho).1, (hok o ho).2.1⟩)
    (poisonFault_eq_none fun o ho => (hok o ho).2.2)]
  have hw := (tallied_readEcc s t (offs.filter fun o => (s.loadWord t o).2.1.contains .none)).execLane_wrote
    (x := x.withLoads s offs) rfl d.toNat 3 (fun k => (s.loadWord t (storeOffset x a woff k)).1) (blocks16 offs)
  exact { hw with }

end Sys2Proof.Claims

namespace Sys2Proof.Machine

open Sys2Proof.Claims

/-! ### ST -/

/-- Bytes noted as written, outside the word that is written, are what they were. -/
theorem inRanges_keptNow {s : State} {t off b n : Nat} {kept : List (Nat × Nat)} (hlost : mfind s.lostTiles t = some (n, kept))
    (hb : b < off ∨ off + 4 ≤ b) :
    ∃ kept', mfind (s.keptNow t off 4) t = some (n, kept') ∧ inRanges kept' b = inRanges kept b := by
  unfold State.keptNow
  rw [hlost]
  simp only
  split
  · exact ⟨kept, hlost, rfl⟩
  · refine ⟨_, mfind_mput_self .., ?_⟩
    rw [inRanges, List.any_cons, ← inRanges, Bool.or_eq_right_iff_imp]
    simp only [Bool.and_eq_true, decide_eq_true_eq]
    omega

/-- A word of SRAM written leaves every byte outside it. -/
theorem sramByte_sramPut_of_ne {s : State} {t off b : Nat} {x : TWord} (hb : b < off ∨ off + 4 ≤ b) :
    (s.sramPut t off x).sramByte t b = s.sramByte t b := by
  have hread : memRead (s.sramPut t off x).sram (sramAddr t b) = memRead s.sram (sramAddr t b) :=
    s.sramPut_frame t off _ x (by simp only [sramAddr]; omega)
  unfold State.sramByte
  cases hlost : mfind s.lostTiles t with
  | none =>
    have hkept : mfind (s.sramPut t off x).lostTiles t = none := by
      simp only [State.sramPut, State.keptNow, hlost]
    rw [hkept]
    exact hread
  | some e =>
    obtain ⟨n, kept⟩ := e
    obtain ⟨kept', hkept, hin⟩ := inRanges_keptNow hlost hb
    rw [show mfind (s.sramPut t off x).lostTiles t = some (n, kept') from hkept]
    simp only [hin, hread]

/-- A word of SRAM written leaves every other aligned word. -/
theorem sramWord_sramPut_of_ne {s : State} {t off o : Nat} {x : TWord} (hoff : off % 4 = 0) (ho : o % 4 = 0) (hne : o ≠ off) :
    ((s.sramPut t off x).sramWord t o).w = (s.sramWord t o).w := by
  simp only [State.sramWord]
  rw [sramByte_sramPut_of_ne (by omega), sramByte_sramPut_of_ne (by omega), sramByte_sramPut_of_ne (by omega),
    sramByte_sramPut_of_ne (by omega)]

section

variable (t : Nat) (off : Nat → Nat) (val : Nat → TWord)

/-- The words of some lanes put in SRAM one after another. -/
def State.sramPuts (s : State) (l : List Nat) : State := s.each l fun s k => s.sramPut t (off k) (val k)

theorem sramPuts_frame (l : List Nat) (s : State) {b : Nat}
    (hb : ∀ k ∈ l, b < sramAddr t (off k) ∨ sramAddr t (off k) + 4 ≤ b) :
    memRead (s.sramPuts t off val l).sram b = memRead s.sram b :=
  State.each_same (fun s => memRead s.sram b) _ l (fun s k hk => s.sramPut_frame t (off k) b (val k) (hb k hk)) s

/-- A word that no lane stores stays. -/
theorem sramPuts_word_of_ne (l : List Nat) (s : State) {o : Nat} (hal : ∀ k ∈ l, off k % 4 = 0) (ho : o % 4 = 0)
    (hne : ∀ k ∈ l, off k ≠ o) : ((s.sramPuts t off val l).sramWord t o).w = (s.sramWord t o).w :=
  State.each_same (fun s => (s.sramWord t o).w) _ l
    (fun _ k hk => sramWord_sramPut_of_ne (hal k hk) ho (Ne.symm (hne k hk))) s

/-- Of the lanes that store one word, the last in the list decides it. -/
theorem sramPuts_word {l : List Nat} (hl : l.Pairwise (· < ·)) (s : State) (hal : ∀ k ∈ l, off k % 4 = 0) {k : Nat} (hk : k ∈ l)
    (hlast : ∀ j ∈ l, k < j → off j ≠ off k) : ((s.sramPuts t off val l).sramWord t (off k)).w = (val k).w := by
  induction l generalizing s with
  | nil => cases hk
  | cons j l ih =>
    obtain ⟨hj, hl⟩ := List.pairwise_cons.1 hl
    have hal' := fun i hi => hal i (List.mem_cons_of_mem _ hi)
    have hlast' := fun i hi => hlast i (List.mem_cons_of_mem _ hi)
    obtain rfl | hk' := List.mem_cons.1 hk
    · exact (sramPuts_word_of_ne t off val l _ hal' (hal k hk) fun i hi => hlast' i hi (hj i hi)).trans
        (State.sramWord_sramPut_self ..)
    · exact ih hl _ hal' hk' hlast'

end

/-- The active lanes ascend. -/
theorem lanes_pairwise (x : Ctx) : x.lanes.Pairwise (· < ·) := List.pairwise_lt_range.filter _

/-- A DEAD operand makes the instruction's marker DEAD (R548). -/
theorem mkCtx_mark_of_dead {s : State} {t g c : Nat} {i : TInst} (h : (s.mkCtx t g c i).dead = true) :
    (s.mkCtx t g c i).mark = .dead := by
  unfold State.mkCtx at h ⊢
  simp only at h ⊢
  rw [State.combineAll, if_pos h]

/-- An issue tallied is within the frame of an issuing instruction. -/
theorem Tallied.frame {t g : Nat} {s u : State} (h : Tallied t g s u) : TileFrame s u t g where
  groups := h.groups
  __ := h.tileFrame {}

theorem sramPuts_tileFrame (t : Nat) (off : Nat → Nat) (val : Nat → TWord) (l : List Nat) (s : State) (g : Nat) :
    TileFrame s (s.sramPuts t off val l) t g :=
  State.each_keeps (TileFrame · · t g) (fun _ => .refl _ _ _) (fun _ _ _ => .trans) (fun s k => s.sramPut t (off k) (val k)) l
    (fun s _ _ => { TileFrame.refl s t g with }) s

theorem sramPuts_groups (t : Nat) (off : Nat → Nat) (val : Nat → TWord) (l : List Nat) (s : State) :
    (s.sramPuts t off val l).groups = s.groups :=
  State.each_same State.groups (fun s k => s.sramPut t (off k) (val k)) l (fun _ _ _ => rfl) s

theorem tallied_noteCode {t g : Nat} (s : State) (a c : Nat) (offs : List Nat) : Tallied t g s (s.noteCode a c offs) := by
  unfold State.noteCode
  simp only
  split
  · exact .refl s
  · exact tallied_setTil s (by rfl)

@[simp] theorem shadowWrite_stretches (y : Tile) (off tag : Nat) (w : TWord) : (shadowWrite y off tag w).stretches = y.stretches := by
  unfold shadowWrite
  simp only
  split
  · rfl
  · split <;> rfl

@[simp] theorem noteShadow_stretches (y old : Tile) (c : Nat) : (y.noteShadow old c).stretches = y.stretches := by
  unfold Tile.noteShadow
  split <;> rfl

/-- A word stored under a marker other than NONE goes to the tile's shadow, or nowhere (R554). -/
theorem tallied_storeWord {t g : Nat} (s : State) (a off : Nat) {m : Marker} (hm : m ≠ .none) (w : TWord) :
    Tallied t g s (s.storeWord a off m w) := by
  unfold State.storeWord
  split
  · exact absurd rfl hm
  · exact tallied_setTil s (by simp)
  · exact .refl s

/-- What ST does where nothing traps: its words go to SRAM where its marker is NONE, and else nothing is written there. -/
theorem stBody_spec {x : Ctx} {s : State} {op : LOp} {gp : BitVec 3} {gn : Bool} {d a : BitVec 6} {woff : BitVec 10}
    (hi : x.inst = .loc op gp gn d a woff) (hdead : x.dead = true → x.mark = .dead)
    (hfault : s.localFault x.t (x.lanes.map (x.offset a woff)) = none) :
    ∃ u w, Tallied x.t x.g s u ∧ Tallied x.t x.g (u.setGrp x.t x.g (u.grp x.t x.g).bumpPc) w ∧
      (x.mark ≠ .none ∧ stBody x s = w ∨
        x.mark = .none ∧ stBody x s = w.sramPuts x.t (x.offset a woff) (fun k => { w := x.operand d k }) x.lanes) := by
  refine ⟨s.retire x (blocks16 (x.lanes.map (x.offset a woff))), ?_⟩
  unfold stBody
  split
  case h_2 hne => exact (hne _ _ _ _ _ _ hi).elim
  next heq =>
  cases hi.symm.trans heq
  simp only [hfault, ite_self]
  split
  · next hd => exact ⟨_, tallied_retire s x _, .refl _, .inl ⟨by rw [hdead hd]; exact Marker.noConfusion, rfl⟩⟩
  by_cases hm : x.mark = .none
  · simp only [hm, if_true]
    exact ⟨_, tallied_retire s x _, tallied_noteCode _ _ _ _, .inr ⟨trivial, rfl⟩⟩
  · simp only [hm, if_false]
    split
    · exact ⟨_, tallied_retire s x _, tallied_conflict _ _ _ _ _ _, .inl ⟨hm, rfl⟩⟩
    · exact ⟨_, tallied_retire s x _, .each _ _ (fun v k _ => tallied_storeWord v _ _ hm _) _, .inl ⟨hm, rfl⟩⟩

end Sys2Proof.Machine
end

section
/-! SUPPORT. ST settled. -/

namespace Sys2Proof.Claims

open Sys2Proof.Machine

/-- Settles O19: an issue's tallies and the code notes write no memory, and the words then stored are those of the lanes. -/
theorem localStoreResults : Obligations.LocalStoreResults := by
  intro s t g c gp gn d a woff h x off hoffs
  have hfault : s.localFault t (x.lanes.map (x.offset a woff)) = none := localFault_eq_none (by
    simp only [List.mem_map, forall_exists_index, and_imp, forall_apply_eq_imp_iff₂]
    exact hoffs)
  obtain ⟨u, w, hu, hw, hbody⟩ : ∃ u w, Tallied t g s u ∧ Tallied t g (u.setGrp t g (u.grp t g).bumpPc) w ∧
      (x.mark ≠ .none ∧ stBody x s = w ∨
        x.mark = .none ∧ stBody x s = w.sramPuts t off (fun k => { w := x.operand d k }) x.lanes) :=
    stBody_spec (x := x) (s := s) rfl mkCtx_mark_of_dead hfault
  have hframe : TileFrame s w t g := (hu.tileFrame _).trans hw.frame
  have hsram : w.sram = s.sram := (hw.beyond_eq State.sram fun _ => rfl).trans (hu.beyond_eq State.sram fun _ => rfl)
  have hgrp {α : Type} (f : Group → α) (hf : ∀ y : Group, f y.uncounted = f y) (hf' : ∀ y : Group, f y.bumpPc = f y) :
      f (w.grp t g) = f x.grp := by
    rw [hw.group_eq f hf, State.grp_setGrp_self, hf', hu.group_eq f hf]
    rfl
  have hpc : (w.grp t g).pc = (x.grp.pc + 4) % 65536 := by
    rw [hw.group_eq (·.pc) fun _ => rfl, State.grp_setGrp_self]
    exact congrArg (fun n => (n + 4) % 65536) (hu.group_eq (·.pc) fun _ => rfl)
  have hv := hgrp (·.v) (fun _ => rfl) fun _ => rfl
  have hun := hgrp (·.u) (fun _ => rfl) fun _ => rfl
  have hp := hgrp (·.p) (fun _ => rfl) fun _ => rfl
  refine h.gives (body := stBody) rfl ?_
  rw [show s.mkCtx t g c _ = x from rfl]
  obtain ⟨hm, hb⟩ | ⟨hm, hb⟩ := hbody
  · rw [hb, hsram]
    exact ⟨fun _ _ hn => (hm hn).elim, fun _ _ => rfl, fun _ => rfl, hv, hun, hp, hpc, hframe⟩
  · rw [hb]
    have hg : (w.sramPuts t off (fun k => { w := x.operand d k }) x.lanes).grp t g = w.grp t g := by
      simp only [State.grp, sramPuts_groups]
    refine ⟨fun k hk _ hlast => ?_, fun b hb => ?_, fun hn => (hn hm).elim, ?_, ?_, ?_, ?_, ?_⟩
    · exact sramPuts_word t off _ (lanes_pairwise x) w (fun j hj => (hoffs j hj).1) hk hlast
    · rw [sramPuts_frame t off _ x.lanes w hb, hsram]
    · rw [hg, hv]
    · rw [hg, hun]
    · rw [hg, hp]
    · rw [hg, hpc]
    · exact hframe.trans (sramPuts_tileFrame ..)

end Sys2Proof.Claims
end

section
/-! SUPPORT. Remote loads and stores (R160 to R167, R221 to R226): the requests they send, and the tags and counts they hold. -/

namespace Sys2Proof.Machine

open Sys2Proof.Claims

/-! ### Tags -/

/-- A group that is ready is so for the instruction that it has fetched. -/
theorem readiness_inst {s : State} {t g c c' : Nat} {i j : TInst} (h : s.readiness t g c j = .go c' i) : j = i := by
  unfold State.readiness at h
  grind

theorem ready_of_nextOf {s : State} {t g c : Nat} {i : TInst} (h : s.nextOf t g = .go c i) :
    ∃ c₀ c₁, s.staticTrap t g i = none ∧ s.readiness t g c₀ i = .go c₁ i ∧ c = skipStretch (s.til t).stretches c₁ := by
  rw [(Fetching.of_nextOf_go h).nextOf_eq] at h
  obtain ⟨c₁, hgo, hc⟩ : ∃ c₁, s.fetchedNext t g (s.fetchCycle t) = .go c₁ i ∧ skipStretch (s.til t).stretches c₁ = c := by
    unfold Next.skip at h
    split at h
    · cases h
    · next hgo =>
      obtain ⟨hc, rfl⟩ := Next.go.inj h
      exact ⟨_, hgo, hc⟩
    · next hne => exact (hne _ _ h).elim
  have hstep : ∃ j, s.staticTrap t g j = none ∧ s.readiness t g (s.sourcesFrom t g j (s.fetchCycle t)) j = .go c₁ i := by
    unfold State.fetchedNext at hgo
    grind
  obtain ⟨j, htrap, hready⟩ := hstep
  obtain rfl := readiness_inst hready
  exact ⟨_, c₁, htrap, hready, hc.symm⟩

theorem le_skipStretch (l : List Nat) (c : Nat) : c ≤ skipStretch l c := by
  unfold skipStretch
  split <;> omega

theorem le_foldl_max (f : Nat → Nat) {l : List Nat} {k : Nat} (hk : k ∈ l) (c : Nat) : f k ≤ l.foldl (fun a k => max a (f k)) c := by
  have hmono (l : List Nat) (c : Nat) : c ≤ l.foldl (fun a k => max a (f k)) c := by
    induction l generalizing c with
    | nil => exact Nat.le_refl c
    | cons j l ih => exact (Nat.le_max_left ..).trans (ih _)
  induction l generalizing c with
  | nil => cases hk
  | cons j l ih =>
    obtain rfl | hk := List.mem_cons.1 hk
    · exact (Nat.le_max_right ..).trans (hmono ..)
    · exact ih hk _

/-- The tags that a tile can take in cycle `c` (R168). -/
def tagsAt (y : Tile) (c : Nat) : List Nat :=
  (List.range 16).filter fun k => !(mget {} y.tags k).taken && decide ((mget {} y.tags k).freeFrom ≤ c)

theorem mem_tagsAt {y : Tile} {c k : Nat} :
    k ∈ tagsAt y c ↔ k < 16 ∧ (mget {} y.tags k).taken = false ∧ (mget {} y.tags k).freeFrom ≤ c := by
  simp [tagsAt]

/-- Where tags are ready, as many as asked for are free in that cycle and after it. -/
theorem le_length_tagsAt {y : Tile} {n c c₁ c₂ : Nat} (h : tagsReady y n c = some c₁) (hc : c₁ ≤ c₂) : n ≤ (tagsAt y c₂).length := by
  have hfilter : tagsAt y c₂ = ((List.range 16).filter fun k => !(mget {} y.tags k).taken).filter
      fun k => (mget {} y.tags k).freeFrom ≤ c₂ := by
    rw [tagsAt, List.filter_filter]
    exact List.filter_congr fun k _ => Bool.and_comm ..
  rw [hfilter]
  unfold tagsReady at h
  simp only at h
  split at h
  · next hn =>
    cases h
    refine hn.trans (List.monotone_filter_right _ ?_).length_le
    simp only [decide_eq_true_eq]
    exact fun k hk => hk.trans hc
  · split at h
    · next hn =>
      cases h
      rwa [List.filter_eq_self.2]
      exact fun k hk => decide_eq_true ((le_foldl_max (fun k => (mget {} y.tags k).freeFrom) hk _).trans hc)
    · cases h

/-- A tile with tag `k` taken for a block of a load (R168, R170). -/
def Tile.takeTag (y : Tile) (k load b : Nat) : Tile :=
  { y with tags := mput y.tags k { taken := true, gen := !(mget {} y.tags k).gen, load := load, block := b } }

theorem length_tagsAt_takeTag {y : Tile} {c k : Nat} (hk : k ∈ tagsAt y c) (load b : Nat) :
    (tagsAt (y.takeTag k load b) c).length = (tagsAt y c).length - 1 := by
  have hnd : (tagsAt y c).Nodup := List.nodup_range.filter _
  have hrest : tagsAt (y.takeTag k load b) c = (tagsAt y c).erase k := by
    rw [hnd.erase_eq_filter, tagsAt, tagsAt, List.filter_filter]
    refine List.filter_congr fun j _ => ?_
    by_cases hj : j = k <;> simp [Tile.takeTag, hj]
  rw [hrest, List.length_erase_of_mem hk]

/-- With tags enough every block gets one. -/
theorem takeTags_blocks (load c : Nat) (bs : List Nat) (y : Tile) (h : bs.length ≤ (tagsAt y c).length) :
    (takeTags y c load bs).2.map (·.2) = bs := by
  induction bs generalizing y with
  | nil => rfl
  | cons b bs ih =>
    obtain ⟨j, hj⟩ := List.exists_mem_of_length_pos (Nat.lt_of_lt_of_le (Nat.succ_pos _) h)
    unfold takeTags
    split
    · next hnone =>
      have := List.find?_eq_none.1 hnone j
      grind [mem_tagsAt]
    · next k hsome =>
      have hk : k ∈ tagsAt y c := List.mem_filter.2 ⟨List.mem_of_find?_eq_some hsome, by simpa using List.find?_some hsome⟩
      have hlen := length_tagsAt_takeTag hk load b
      exact congrArg (b :: ·) (ih (y.takeTag k load b) (by simp only [List.length_cons] at h; omega))

/-! ### What an issue without operand ports sends -/

/-- What an issue without operand ports leaves of the mesh: the packets, and the fields that hold tiles of each sector. -/
def State.mesh (s : State) : List Packet × (Nat → List Nat) := (s.packets, s.fieldsOf)

/-- Entries under a key that a predicate never holds of do not count. -/
theorem any_mput {κ α : Type} [DecidableEq κ] {p : κ × α → Bool} {k : κ} (hk : ∀ v, p (k, v) = false) (m : Smap κ α) (v : α) :
    (mput m k v).any p = m.any p := by
  rw [mput, List.any_cons, hk, Bool.false_or]
  induction m with
  | nil => rfl
  | cons e m ih =>
    obtain ⟨j, w⟩ := e
    by_cases hj : j = k
    · subst hj
      rw [mdel, if_pos rfl, ih, List.any_cons, hk, Bool.false_or]
    · rw [mdel, if_neg hj, List.any_cons, List.any_cons, ih]

section

variable (s : State)

theorem State.mesh_wr {r : Reg} (h : r ∈ issueCounts) (u k : Nat) (w : BitVec 64) : (s.wr r u k w).mesh = s.mesh := by
  refine Prod.ext rfl (funext fun sec => ?_)
  change (s.wr r u k w).fieldsOf sec = s.fieldsOf sec
  unfold State.fieldsOf
  refine List.filter_congr fun f _ => ?_
  exact any_mput (fun v => by simp [ne_mshTileSector_of_mem_issueCounts h]) ..

theorem State.mesh_bump {r : Reg} (h : r ∈ issueCounts) (u k n : Nat) : (s.bump r u k n).mesh = s.mesh := s.mesh_wr h ..

theorem State.mesh_setTil (t : Nat) (y : Tile) : (s.setTil t y).mesh = s.mesh := rfl

theorem State.mesh_setGrp (t g : Nat) (y : Group) : (s.setGrp t g y).mesh = s.mesh := rfl

theorem State.mesh_logEv (ev : Ev) (f loc detail : Nat) : (s.logEv ev f loc detail).mesh = s.mesh := by
  obtain ⟨r, o, i, h⟩ := s.logEv_spec ev f loc detail
  rw [h]
  rfl

theorem State.mesh_conflict (t g a b c : Nat) : (s.conflict t g a b c).mesh = s.mesh := by
  rw [State.conflict, State.mesh_logEv, State.mesh_bump _ (by simp [issueCounts])]
  exact State.mesh_wr (s.tagBus t .squash a c (some b)) (by decide) ..

theorem State.mesh_reportConflict (x : Ctx) (c : Option (Nat × Nat)) : (s.reportConflict x c).mesh = s.mesh := by
  match c with
  | some _ => exact State.mesh_conflict s ..
  | none => rfl

theorem State.mesh_readEcc (t : Nat) (offs : List Nat) : (s.readEcc t offs).mesh = s.mesh := by
  obtain h | ⟨n, h⟩ := s.readEcc_spec t offs <;> rw [h]
  exact s.mesh_bump (by simp [issueCounts]) ..

theorem State.mesh_countWait (x : Ctx) (b : Nat) : (s.countWait x b).mesh = s.mesh := by
  unfold State.countWait
  split
  · rfl
  · next h =>
    simp only
    split
    · rfl
    · exact s.mesh_bump (lastWait_mem_issueCounts s h) ..

/-- An issue that pops no operand port sends nothing. -/
theorem State.mesh_retire {x : Ctx} (hx : x.ports = []) (occ : Nat) : (s.retire x occ).mesh = s.mesh := by
  have htaken : (((s.countWait x x.cyc).readEcc x.t [x.grp.pc]).takeSlot x.t x.g x.cyc).mesh = s.mesh := by
    rw [State.takeSlot, State.mesh_setTil, State.mesh_bump _ (by simp [issueCounts]), State.mesh_readEcc, State.mesh_countWait]
  have hslot : (s.slotTaken x).mesh = s.mesh := by
    rw [State.slotTaken, State.mesh_bump _ (by simp [issueCounts]), hx, ← htaken]
    split
    · exact State.mesh_bump _ (by simp [issueCounts]) ..
    · split <;> rfl
  rw [State.retire_eq, State.mesh_reportConflict, State.clockedOn, State.mesh_setGrp, State.mesh_setTil, hslot]

end

/-! ### RLD and RLDU -/

/-! ### RLD and RLDU -/

/-- The second state is the first with an issue tallied that sends nothing. -/
structure Silent (t g : Nat) (s s' : State) : Prop where
  tallied : Tallied t g s s'
  issued : Issued s s'
  mesh : s'.mesh = s.mesh

namespace Silent

variable {t g : Nat} {s s' s'' : State}

theorem trans (h : Silent t g s s') (h' : Silent t g s' s'') : Silent t g s s'' where
  tallied := h.tallied.trans h'.tallied
  issued := h.issued.trans h'.issued
  mesh := h'.mesh.trans h.mesh

theorem readEcc (s : State) (a : Nat) (offs : List Nat) : Silent t g s (s.readEcc a offs) :=
  ⟨tallied_readEcc s .., issued_readEcc s .., s.mesh_readEcc ..⟩

theorem bump {r : Reg} (h : r ∈ issueCounts) (s : State) (u k n : Nat) : Silent t g s (s.bump r u k n) :=
  ⟨tallied_bump s h .., issued_bump s .., s.mesh_bump h ..⟩

theorem reportConflict (s : State) (x : Ctx) (c : Option (Nat × Nat)) : Silent t g s (s.reportConflict x c) :=
  ⟨tallied_reportConflict s .., issued_reportConflict s .., s.mesh_reportConflict ..⟩

theorem retire (s : State) {x : Ctx} (hx : x.ports = []) (occ : Nat) : Silent x.t x.g s (s.retire x occ) :=
  ⟨tallied_retire s .., issued_retire s .., s.mesh_retire hx occ⟩

theorem packets (h : Silent t g s s') : s'.packets = s.packets := (congrArg Prod.fst h.mesh :)

theorem homeOf_eq (h : Silent t g s s') (sec : Nat) : s'.homeOf sec = s.homeOf sec :=
  (congrArg (fun m => (m.2 sec).headD 0) h.mesh :)

theorem ancestors_eq (h : Silent t g s s') (sec n tag : Nat) : s'.ancestors sec n tag = s.ancestors sec n tag := by
  induction n generalizing tag with
  | zero => rfl
  | succ n ih =>
    have hparent : s'.parentOf sec tag = s.parentOf sec tag := by
      simp only [State.parentOf, h.homeOf_eq, h.tallied.gf_eq (f := F.sptTagParent_root) (by decide),
        h.tallied.gf_eq (f := F.sptTagParent_parent) (by decide)]
    simp only [State.ancestors, hparent, ih]

theorem deepest_eq (h : Silent t g s s') (sec : Nat) (l : List ShadowLine) : s'.deepest sec l = s.deepest sec l := by
  induction l with
  | nil => rfl
  | cons l ls ih =>
    simp only [State.deepest, State.depthOf, ih, h.ancestors_eq]
    rfl

theorem loadByte_eq (h : Silent t g s s') (a off : Nat) : s'.loadByte a off = s.loadByte a off := by
  have hlines (k b : Nat) : s'.linesAt a k b = s.linesAt a k b := by
    rw [State.linesAt, h.issued.til_eq (·.shadow) fun _ => rfl, State.linesAt]
  have hbyte : s'.sramByte a off = s.sramByte a off := h.tallied.beyond_eq (·.sramByte a off) fun _ => rfl
  have hbad : s'.sramBad = s.sramBad := h.tallied.beyond_eq State.sramBad fun _ => rfl
  simp only [State.loadByte, h.deepest_eq, hlines, h.tallied.sectorOf_eq, hbyte, hbad]

/-- A local load reads the same word. -/
theorem loadWord_eq (h : Silent t g s s') (a off : Nat) : s'.loadWord a off = s.loadWord a off := by
  simp only [State.loadWord, h.loadByte_eq]

theorem missBlocks_eq (h : Silent t g s s') (a : Nat) (cached : Bool) (addrs : List Nat) :
    s'.missBlocks a cached addrs = s.missBlocks a cached addrs := by
  unfold State.missBlocks
  rw [h.tallied.gf_eq (by decide), h.issued.til_eq (·.cache) fun _ => rfl]

end Silent

/-- The word that the tile itself, or its read cache, serves at an address. -/
def State.servedWord (s : State) (t a : Nat) : Word :=
  if addrSpace a = 0 && addrTile a = t then (s.loadWord t (a % 2 ^ 16)).1 else ((cacheWord (s.til t) a).getD { w := 0 }).w

theorem Silent.servedWord_eq {s s' : State} {t g : Nat} (h : Silent t g s s') (t' a : Nat) :
    s'.servedWord t' a = s.servedWord t' a := by
  rw [State.servedWord, h.loadWord_eq, h.issued.til_eq (fun y => (cacheWord y a).getD { w := 0 }) fun _ => rfl, State.servedWord]

/-- Lines made most recently used change no more than the cache of their tile. -/
theorem foldl_cacheTouch {α : Type} (f : Tile → α) (hf : ∀ (y : Tile) c, f { y with cache := c } = f y) (l : List Nat) (y : Tile) :
    f (l.foldl cacheTouch y) = f y := by
  induction l generalizing y with
  | nil => rfl
  | cons b l ih => exact (ih _).trans (hf ..)

theorem tallied_noteLate {t g : Nat} (s : State) (a b late : Nat) : Tallied t g s (s.noteLate a b late) := by
  unfold State.noteLate
  split
  · exact .refl s
  · have hb : Tallied t g s (s.bump .tilCountReleaseLate a 0 late) := tallied_bump s (by simp [issueCounts]) ..
    simp only
    split
    · exact hb
    · exact (hb.trans (tallied_setTil _ (by rfl))).trans (tallied_logEv ..)

@[simp] theorem State.noteLate_packets (s : State) (a b late : Nat) : (s.noteLate a b late).packets = s.packets := by
  unfold State.noteLate
  simp only
  split
  · rfl
  · split <;> simp

/-- The load that an RLD or RLDU begins while it waits for blocks. -/
structure BeginsLoad (s : State) (x : Ctx) (d rel : Nat) (addr : Nat → Nat) (waiting : List (Nat × Nat)) (l : Load) : Prop where
  group : l.group = x.g
  dst : l.dst = d
  issue : l.issue = s.after x.t x.cyc rel - rel
  rel : l.rel = rel
  lanes : l.lanes = x.lanes.map fun k => (k, addr k)
  waiting : l.waiting = waiting

/-- A group past an RLD or RLDU whose destination waits for a load. -/
def Group.holdLoad (y : Group) (d id : Nat) : Group := Group.bumpPc { y with loading := mput y.loading d id }

/-- A load that waits for blocks, with its tags, in its tile and its group. -/
def State.holdLoad (s : State) (x : Ctx) (y : Tile) (d : Nat) (l : Load) : State :=
  let s : State := { s with nextPkt := s.nextPkt + 1 }
  let s := s.setTil x.t { y.noteTags (s.til x.t) (x.cyc + 1) with loads := y.loads ++ [l] }
  s.setGrp x.t x.g ((s.grp x.t x.g).holdLoad d l.id)

/-- The RLOAD for a block under its tag. -/
def Ctx.loadPkt (x : Ctx) (rel : BitVec 10) (s : State) (tb : Nat × Nat) : Packet where
  id := 0
  ty := .rload
  vc := if rel = 0 then 1 else 0
  dest := remoteDest x.t (tb.2 * 64)
  src := x.t
  at_ := x.t
  sslot := tb.1
  gen := (mget {} (s.til x.t).tags tb.1).gen
  addr := tb.2 * 64 % 2 ^ 30
  full := tb.2 * 64
  mark := x.mark
  group := x.g
  pc := x.grp.pc

/-- One RLOAD for each tag taken. -/
def State.sendLoads (s : State) (x : Ctx) (rel : BitVec 10) (tags : List (Nat × Nat)) : State :=
  s.each tags fun s tb => s.inject x.t (x.loadPkt rel s tb)

/-- What RLD and RLDU do where they make their access: what they count before it sends nothing, and then they write their
destination, or take tags and wait for the blocks that nothing serves. -/
theorem rldBody_spec {x : Ctx} {s : State} {op : MOp} {gp : BitVec 3} {gn : Bool} {d ap : BitVec 6} {rel : BitVec 10}
    {addr : Nat → Nat} {addrs offs miss : List Nat}
    (hi : x.inst = .rem op gp gn d ap rel) (haddr : addr = pairAddr x.grp ap.toNat) (haddrs : addrs = x.lanes.map addr)
    (hoffs : offs = (addrs.filter fun a => addrSpace a = 0 && addrTile a = x.t).map (· % 2 ^ 16))
    (hmiss : miss = s.missBlocks x.t (op = .rld) addrs) (hgrp : x.grp = s.grp x.t x.g)
    (hport : x.ports = []) (hdead : x.dead = false) (hc : x.conflict = none) (hfault : s.rldFault x.t addrs offs = none) :
    miss = [] ∧ Wrote s (rldBody x s) x d.toNat
        (max (s.after x.t (s.after x.t x.cyc (blocks16 offs) - 1) 3) (s.after x.t x.cyc rel.toNat))
        (fun k => s.servedWord x.t (addr k)) ∧
      (rldBody x s).packets = s.packets ∧ ((rldBody x s).grp x.t x.g).p = x.grp.p ∨
    miss ≠ [] ∧ ∃ v l, Tallied x.t x.g s v ∧ v.packets = s.packets ∧ (v.til x.t).tags = (s.til x.t).tags ∧
      BeginsLoad s x d.toNat rel.toNat addr (takeTags (v.til x.t) x.cyc v.nextPkt miss).2 l ∧
      rldBody x s = (v.holdLoad x (takeTags (v.til x.t) x.cyc v.nextPkt miss).1 d.toNat l).sendLoads x rel
        (takeTags (v.til x.t) x.cyc v.nextPkt miss).2 := by
  subst haddr haddrs hoffs
  have hq : ¬ x.quiet = true := by rw [Ctx.quiet, hdead, hc]; exact Bool.false_ne_true
  unfold rldBody
  split
  case h_2 hne => exact (hne _ _ _ _ _ _ hi).elim
  next heq =>
  cases hi.symm.trans heq
  extract_lets +onlyGivenNames addr own addrs offs
  rw [if_neg (hdead ▸ Bool.false_ne_true), hfault]
  extract_lets fresh _ occ mark issued reported missed remote hit cached have_ value hits counted data point late noted
    touched touched' id numbered taken y held grp final
  rw [if_neg hq]
  have hreported : Silent x.t x.g s reported := ((Silent.readEcc s ..).trans (.retire _ hport _)).trans (.reportConflict _ x mark.2)
  have hcounted : Silent x.t x.g s counted := by
    have hhits : Silent x.t x.g s hits := hreported.trans (.bump (by simp [issueCounts]) ..)
    simp only [counted]
    split
    · exact hhits.trans (.bump (by simp [issueCounts]) ..)
    · exact hhits
  have hmissed : missed = miss := (hreported.missBlocks_eq ..).trans hmiss.symm
  have hvalue : value = fun k => s.servedWord x.t (addr k) := funext fun k => hreported.servedWord_eq ..
  by_cases hm : missed = []
  · refine .inl ⟨hmissed ▸ hm, ?_⟩
    have htouched : Tallied x.t x.g s touched :=
      (hcounted.tallied.trans (tallied_noteLate ..)).trans (tallied_setTil _ (foldl_cacheTouch (·.stretches) (fun _ _ => rfl) ..))
    rw [if_pos hm, ← hvalue]
    refine ⟨?_, (State.noteLate_packets ..).trans hcounted.packets, ?_⟩
    · have hcyc : (counted.til x.t).cyc = s.after x.t x.cyc (blocks16 offs) := by
        have hhits : hits.til x.t = issued.til x.t := State.reportConflict_til issued x mark.2 x.t
        have hcounted : counted.til x.t = hits.til x.t := by
          simp only [counted]
          split <;> rfl
        rw [hcounted, hhits, State.retire_cyc, (tallied_readEcc (t := x.t) (g := x.g) s ..).after_eq]
      have hdata : data = s.after x.t (s.after x.t x.cyc (blocks16 offs) - 1) 3 := by
        rw [← hcyc, ← hcounted.tallied.after_eq]
      rw [← hdata, ← hcounted.tallied.after_eq]
      exact htouched.wrote hgrp ..
    · rw [State.grp_setGrp_self, hgrp, ← htouched.group_eq (·.p) fun _ => rfl]
      exact writeDst_frame _ _ _ _ _ _ (·.p) fun _ _ _ _ _ _ => rfl
  · have htouched : Tallied x.t x.g s touched' :=
      hcounted.tallied.trans (tallied_setTil _ (foldl_cacheTouch (·.stretches) (fun _ _ => rfl) ..))
    refine .inr ⟨hmissed ▸ hm, touched', {
      id := id, group := x.g, dst := d.toNat, lanes := x.lanes.map fun k => (k, addr k), waiting := taken.2
      issue := touched'.after x.t x.cyc rel.toNat - rel.toNat, rel := rel.toNat, pc := x.grp.pc, mark := mark.1
      cached := cached, got := (x.lanes.filter have_).map fun k => (k, value k) }, htouched, hcounted.packets, ?_, ?_, ?_⟩
    · calc (touched'.til x.t).tags
        _ = (hit.foldl cacheTouch (counted.til x.t)).tags := by rw [State.til_setTil_self]
        _ = (counted.til x.t).tags := foldl_cacheTouch (·.tags) (fun _ _ => rfl) ..
        _ = (s.til x.t).tags := hcounted.issued.til_eq (·.tags) (fun _ => rfl) x.t
    · refine ⟨rfl, rfl, ?_, rfl, rfl, ?_⟩
      · rw [htouched.after_eq]
      · rw [← hmissed]
        rfl
    · rw [if_neg hm, ← hmissed]
      rfl

/-! ### What is sent -/

/-- What a packet asks for, and of whom. -/
def Packet.request (p : Packet) : PType × Nat × Nat × Nat := (p.ty, p.dest, p.full, p.src)

/-- The second state is the first with packets sent. -/
def Sent (s : State) (ps : List Packet) (n : Nat) : State := { s with packets := s.packets ++ ps, nextPkt := n }

theorem inject_spec (s : State) (t : Nat) (p : Packet) :
    ∃ q, s.inject t p = Sent s [q] (s.nextPkt + 1) ∧ q.request = (p.ty, p.dest, p.full, t) := ⟨_, rfl, rfl⟩

/-- Packets injected one for each entry of a list. -/
theorem each_inject_spec {α : Type} (t : Nat) (p : State → α → Packet) (ask : α → PType × Nat × Nat) (l : List α) (s : State)
    (hp : ∀ s a, ((p s a).ty, (p s a).dest, (p s a).full) = ask a) :
    ∃ ps n, s.each l (fun s a => s.inject t (p s a)) = Sent s ps n ∧
      ps.map Packet.request = l.map fun a => ((ask a).1, (ask a).2.1, (ask a).2.2, t) := by
  induction l generalizing s with
  | nil => exact ⟨[], s.nextPkt, by simp [State.each, Sent], rfl⟩
  | cons a l ih =>
    obtain ⟨q, hq, hreq⟩ := inject_spec s t (p s a)
    obtain ⟨ps, n, hs, hps⟩ := ih (s.inject t (p s a))
    refine ⟨q :: ps, n, hs.trans ?_, ?_⟩
    · simp [hq, Sent]
    · rw [List.map_cons, List.map_cons, hps, hreq, ← hp s a]

/-- A load with its tags and its RLOADs sent: what stands then. -/
theorem sendLoads_spec (s : State) (x : Ctx) (rel : BitVec 10) (tags : List (Nat × Nat)) :
    ∃ ps n, s.sendLoads x rel tags = Sent s ps n ∧
      ps.map Packet.request = (tags.map (·.2)).map fun b => (.rload, remoteDest x.t (b * 64), b * 64, x.t) := by
  obtain ⟨ps, n, hs, hps⟩ := each_inject_spec x.t (x.loadPkt rel) (fun tb => (.rload, remoteDest x.t (tb.2 * 64), tb.2 * 64)) tags s
    (fun _ _ => rfl)
  exact ⟨ps, n, hs, by rw [hps, List.map_map]; rfl⟩

/-! ### RST -/

/-- The RSTORE for a block (R222, R248). -/
def Ctx.storePkt (x : Ctx) (d : BitVec 6) (addr : Nat → Nat) (s : State) (b : Nat) : Packet where
  id := 0
  ty := .rstore
  vc := 0
  len := 4
  dest := remoteDest x.t (b * 64)
  src := x.t
  at_ := x.t
  mask := (storeBlock x d addr b).2
  body := (storeBlock x d addr b).1
  addr := b * 64 % 2 ^ 30
  full := b * 64
  mark := x.mark
  group := x.g
  serial := (s.grp x.t x.g).nextSerial
  pc := x.grp.pc

/-- A group with one remote store more outstanding. -/
def Group.postOne (y : Group) : Group := { y with rstOut := y.rstOut ++ [y.nextSerial], nextSerial := y.nextSerial + 1 }

/-- A block stored: its cached line leaves, one store more is outstanding, and its RSTORE goes out. -/
def State.postBlock (s : State) (x : Ctx) (d : BitVec 6) (addr : Nat → Nat) (b : Nat) : State :=
  let u := s.setTil x.t (invalidate (s.til x.t) b)
  (u.setGrp x.t x.g (u.grp x.t x.g).postOne).inject x.t (x.storePkt d addr u b)

theorem rstBody_eq {x : Ctx} {s : State} {op : MOp} {gp : BitVec 3} {gn : Bool} {d ap : BitVec 6} {rel : BitVec 10}
    (hi : x.inst = .rem op gp gn d ap rel) (hdead : x.dead = false) (hc : x.conflict = none)
    (hfault : remoteFault true (x.lanes.map (pairAddr x.grp ap.toNat)) = none) :
    rstBody x s = ((s.retire x 1).setGrp x.t x.g ((s.retire x 1).grp x.t x.g).bumpPc).each
      (((x.lanes.map (pairAddr x.grp ap.toNat)).map (· / 64)).eraseDups)
      fun s b => s.postBlock x d (pairAddr x.grp ap.toNat) b := by
  have hq : ¬ x.quiet = true := by rw [Ctx.quiet, hdead, hc]; exact Bool.false_ne_true
  unfold rstBody
  split
  case h_2 hne => exact (hne _ _ _ _ _ _ hi).elim
  next heq =>
  cases hi.symm.trans heq
  extract_lets +onlyGivenNames addr addrs
  rw [if_neg (hdead ▸ Bool.false_ne_true), show remoteFault true addrs = none from hfault]
  extract_lets
  rw [if_neg hq]
  rfl

/-- A group without its outstanding remote stores. -/
def Group.unposted (y : Group) : Group := { y with rstOut := [], nextSerial := 0 }

/-- The second state is the first with remote stores of group `g` of tile `t` sent, one for each block. -/
structure Posted (t g : Nat) (bs : List Nat) (s s' : State) : Prop where
  packets : ∃ ps, s'.packets = s.packets ++ ps ∧
    ps.map Packet.request = bs.map fun b => (.rstore, remoteDest t (b * 64), b * 64, t)
  outstanding : (s'.grp t g).rstOut.length = (s.grp t g).rstOut.length + bs.length
  group : (s'.grp t g).unposted = (s.grp t g).unposted
  sram : s'.sram = s.sram
  frame : TileFrame s s' t g

theorem Posted.trans {t g : Nat} {bs bs' : List Nat} {s s' s'' : State} (h : Posted t g bs s s') (h' : Posted t g bs' s' s'') :
    Posted t g (bs ++ bs') s s'' where
  packets := by
    obtain ⟨ps, hps, hreq⟩ := h.packets
    obtain ⟨ps', hps', hreq'⟩ := h'.packets
    exact ⟨ps ++ ps', by rw [hps', hps, List.append_assoc], by rw [List.map_append, hreq, hreq', List.map_append]⟩
  outstanding := by rw [h'.outstanding, h.outstanding, List.length_append, Nat.add_assoc]
  group := h'.group.trans h.group
  sram := h'.sram.trans h.sram
  frame := h.frame.trans h'.frame

theorem posted_postBlock (x : Ctx) (d : BitVec 6) (addr : Nat → Nat) (b : Nat) (s : State) :
    Posted x.t x.g [b] s (s.postBlock x d addr b) := by
  have hgrp : (s.postBlock x d addr b).grp x.t x.g = (s.grp x.t x.g).postOne := State.grp_setGrp_self ..
  refine ⟨⟨[_], rfl, rfl⟩, ?_, ?_, rfl, ?_⟩
  · rw [hgrp]
    exact List.length_append
  · rw [hgrp]
    rfl
  · exact { TileFrame.refl s x.t x.g with groups := fun a b hab => by exact (State.grp_setGrp ..).trans (if_neg hab) }

theorem posted_each (x : Ctx) (d : BitVec 6) (addr : Nat → Nat) (bs : List Nat) (s : State) :
    Posted x.t x.g bs s (s.each bs fun s b => s.postBlock x d addr b) := by
  induction bs generalizing s with
  | nil => exact ⟨⟨[], (List.append_nil _).symm, rfl⟩, rfl, rfl, rfl, .refl ..⟩
  | cons b bs ih => exact (posted_postBlock x d addr b s).trans (ih _)

end Sys2Proof.Machine
end

section
/-! SUPPORT. RLD, RLDU and RST settled. -/

namespace Sys2Proof.Claims

open Sys2Proof.Machine

/-- Packets sent are within the frame of an issuing instruction. -/
theorem tileFrame_sent (s : State) (t g : Nat) (ps : List Packet) (n : Nat) : TileFrame s (Sent s ps n) t g :=
  { TileFrame.refl s t g with }

/-- What a command whose instruction issues answers. -/
theorem Issues.exec_eq {s : State} {t g c : Nat} {i : TInst} (h : Issues s t g c i) {cmd : Instr} {body : Ctx → State → State}
    (hc : exec cmd s = onGroup t g (issueAs t g (mnemOf i) body s)) : exec cmd s = .next (body (s.mkCtx t g c i) s) := by
  obtain ⟨_, hexec, rfl⟩ := h.gives (P := (· = body (s.mkCtx t g c i) s)) hc rfl
  exact hexec

/-- A remote load that takes its tags: they are enough. -/
theorem Issues.length_missBlocks {s : State} {t g c : Nat} {op : MOp} {gp : BitVec 3} {gn : Bool} {d ap : BitVec 6}
    {rel : BitVec 10} (h : Issues s t g c (.rem op gp gn d ap rel)) (hop : op ≠ .rst)
    (hq : (s.mkCtx t g c (.rem op gp gn d ap rel)).quiet = false) :
    (s.missBlocks t (op = .rld) ((s.mkCtx t g c (.rem op gp gn d ap rel)).lanes.map (pairAddr (s.grp t g) ap.toNat))).length ≤
      (tagsAt (s.til t) c).length := by
  obtain ⟨c₀, c₁, _, hready, hc⟩ := ready_of_nextOf h.next
  have htags : ∃ c₁', tagsReady (s.til t) (s.missBlocks t (op = .rld)
      ((s.mkCtx t g c (.rem op gp gn d ap rel)).lanes.map (pairAddr (s.grp t g) ap.toNat))).length c₀ = some c₁' ∧ c₁' = c₁ := by
    have hwaits : ¬ (op = .rst ∨ (s.mkCtx t g c₀ (.rem op gp gn d ap rel)).quiet = true) := by
      rintro (hr | hr)
      · exact hop hr
      · exact Bool.false_ne_true (hq.symm.trans hr)
    unfold State.readiness at hready
    extract_lets y ctx at hready
    rw [if_neg (by exact Bool.false_ne_true)] at hready
    simp only at hready
    rw [if_neg hwaits] at hready
    split at hready
    · next c₁' htags => exact ⟨c₁', htags, (Next.go.inj hready).1⟩
    · cases hready
  obtain ⟨_, htags, rfl⟩ := htags
  exact le_length_tagsAt htags (hc ▸ le_skipStretch ..)

theorem rldFault_eq_none {s : State} {t : Nat} {addrs offs : List Nat} (hf : remoteFault false addrs = none)
    (hown : ∀ o ∈ offs, o % 4 = 0 ∧ o < s.lsBytes t ∧ (s.loadWord t o).2.2 = false) : s.rldFault t addrs offs = none := by
  have hin : (offs.find? fun a => s.lsBytes t ≤ a) = none := by
    simp only [List.find?_eq_none, decide_eq_true_eq, Nat.not_le]
    exact fun o ho => (hown o ho).2.1
  rw [State.rldFault, hf, hin, poisonFault_eq_none fun o ho => (hown o ho).2.2]
  rfl

theorem le_after (s : State) (t c n : Nat) : c + n ≤ s.after t c n := by
  have hmono (l : List Nat) (b : Nat) : b ≤ l.foldl (fun due k => if c ≤ k ∧ k < due then due + 1 else due) b := by
    induction l generalizing b with
    | nil => exact Nat.le_refl b
    | cons k l ih =>
      refine Nat.le_trans ?_ (ih _)
      beta_reduce
      split <;> omega
  exact hmono ..

section

variable {s v : State} {x : Ctx} (hv : Tallied x.t x.g s v) (y : Tile) (d : Nat) (l : Load)

theorem holdLoad_loads : l ∈ ((v.holdLoad x y d l).til x.t).loads := by
  simp [State.holdLoad]

theorem holdLoad_grp : (v.holdLoad x y d l).grp x.t x.g = (v.grp x.t x.g).holdLoad d l.id :=
  State.grp_setGrp_self ..

include hv

/-- The load held is within the frame of an issuing instruction. -/
theorem tileFrame_holdLoad : TileFrame s (v.holdLoad x y d l) x.t x.g :=
  { hv.tileFrame ((v.grp x.t x.g).holdLoad d l.id) with }

/-- What else the group of a load held has. -/
theorem holdLoad_group_eq {α : Type} (f : Group → α) (hf : ∀ y : Group, f y.uncounted = f y) (hf' : ∀ y : Group, f (y.holdLoad d l.id) = f y) :
    f ((v.holdLoad x y d l).grp x.t x.g) = f (s.grp x.t x.g) := by
  rw [holdLoad_grp, hf', hv.group_eq f hf]

end

theorem tagsAt_congr {y y' : Tile} (h : y'.tags = y.tags) (c : Nat) : tagsAt y' c = tagsAt y c := by rw [tagsAt, h, tagsAt]

/-- Settles O20: an issue without operand ports sends nothing itself; then one request goes out for each tag taken, or for each
block stored. -/
theorem remoteAccessSends : Obligations.RemoteAccessSends := by
  intro s t g c op gp gn d ap rel h x addr addrs isOwn own miss hdead hc
  have hports : x.ports = [] := rfl
  have hq : x.quiet = false := by rw [Ctx.quiet, hdead, hc]; rfl
  refine ⟨fun hop hfault hown => ?_, fun hop hfault => ?_⟩
  · have hrld : s.rldFault t addrs own = none := rldFault_eq_none hfault hown
    have hlen : miss.length ≤ (tagsAt (s.til t) c).length :=
      h.length_missBlocks (by rintro rfl; simp at hop) hq
    have hexec : exec (if op = .rld then .rld t g else .rldu t g) s = .next (rldBody x s) := by
      obtain rfl | rfl := hop
      · exact h.exec_eq rfl
      · exact h.exec_eq rfl
    refine ⟨_, hexec, ?_⟩
    obtain ⟨hm, hw, hp, hpred⟩ | ⟨hm, v, l, hv, hp, htags, hl, hb⟩ := rldBody_spec (x := x) (s := s) (addr := addr)
      (addrs := addrs) (offs := own) (miss := miss) rfl rfl rfl rfl rfl rfl hports hdead hc hrld
    · refine ⟨?_, fun hne => (hne hm).elim, fun _ => ⟨hw.lanes, hw.ready⟩, hw.sram.1, hpred, hw.pc, hw.frame⟩
      rw [hp, hm, List.drop_length]
      rfl
    · have htaken : (takeTags (v.til t) c v.nextPkt miss).2.map (·.2) = miss :=
        takeTags_blocks _ _ _ _ (by rwa [tagsAt_congr (y' := v.til t) htags])
      obtain ⟨ps, n, hs, hps⟩ := sendLoads_spec (v.holdLoad x (takeTags (v.til x.t) x.cyc v.nextPkt miss).1 d.toNat l) x rel
        (takeTags (v.til x.t) x.cyc v.nextPkt miss).2
      rw [hb, hs]
      have hload := holdLoad_loads (v := v) (x := x) (takeTags (v.til x.t) x.cyc v.nextPkt miss).1 d.toNat l
      have hgrp := holdLoad_grp (v := v) (x := x) (takeTags (v.til x.t) x.cyc v.nextPkt miss).1 d.toNat l
      have hframe := tileFrame_holdLoad hv (takeTags (v.til x.t) x.cyc v.nextPkt miss).1 d.toNat l
      have hsame {α : Type} := holdLoad_group_eq hv (takeTags (v.til x.t) x.cyc v.nextPkt miss).1 d.toNat l (α := α)
      have hpk : (v.holdLoad x (takeTags (v.til x.t) x.cyc v.nextPkt miss).1 d.toNat l).packets = s.packets := hp
      have hsram : (v.holdLoad x (takeTags (v.til x.t) x.cyc v.nextPkt miss).1 d.toNat l).sram = s.sram :=
        hv.beyond_eq State.sram fun _ => rfl
      generalize v.holdLoad x (takeTags (v.til x.t) x.cyc v.nextPkt miss).1 d.toNat l = z at *
      have hdrop : (Sent z ps n).packets.drop s.packets.length = ps := by
        rw [Sent, hpk]
        exact List.drop_left ..
      rw [hdrop]
      refine ⟨?_, fun _ => ⟨?_, ?_, l, hload, ?_, hl.group, hl.dst, ?_, hl.rel, hl.lanes, ?_⟩, fun hn => (hm hn).elim,
        hsram, ?_, ?_, hframe.trans (tileFrame_sent ..)⟩
      · rw [← htaken]
        exact hps
      · exact hsame (·.v) (fun _ => rfl) fun _ => rfl
      · exact hsame (·.u) (fun _ => rfl) fun _ => rfl
      · exact (congrArg (fun y : Machine.Group => mfind y.loading d.toNat) hgrp).trans (mfind_mput_self ..)
      · rw [hl.issue]
        exact Nat.sub_add_cancel ((Nat.le_add_left ..).trans (le_after s t c rel.toNat))
      · rw [hl.waiting]
        exact htaken
      · exact hsame (·.p) (fun _ => rfl) fun _ => rfl
      · refine (congrArg Machine.Group.pc hgrp).trans ?_
        exact congrArg (fun n => (n + 4) % 65536) (hv.group_eq (·.pc) fun _ => rfl)
  · refine ⟨_, h.exec_eq (cmd := .rst t g) (body := rstBody) (by subst hop; rfl), ?_⟩
    rw [show s.mkCtx t g c _ = x from rfl, rstBody_eq (x := x) rfl hdead hc hfault]
    have hu : Tallied t g s (s.retire x 1) := tallied_retire s x 1
    have hposted := posted_each x d addr (addrs.map (· / 64)).eraseDups
      ((s.retire x 1).setGrp x.t x.g ((s.retire x 1).grp x.t x.g).bumpPc)
    have hp : ((s.retire x 1).setGrp x.t x.g ((s.retire x 1).grp x.t x.g).bumpPc).packets = s.packets :=
      congrArg Prod.fst (s.mesh_retire hports 1)
    have hgrp : ((s.retire x 1).setGrp x.t x.g ((s.retire x 1).grp x.t x.g).bumpPc).grp x.t x.g =
      ((s.retire x 1).grp x.t x.g).bumpPc := State.grp_setGrp_self ..
    obtain ⟨⟨ps, hps, hreq⟩, hout, hgroup, hsram, hframe⟩ := hposted
    rw [hgrp] at hout hgroup
    rw [hp] at hps
    have hsame {α : Type} (f : Machine.Group → α) (hf : ∀ y : Machine.Group, f y.unposted = f y) {z : Machine.Group}
        (hz : z.unposted = ((s.retire x 1).grp x.t x.g).bumpPc.unposted) : f z = f ((s.retire x 1).grp x.t x.g).bumpPc := by
      rw [← hf, hz, hf]
    refine ⟨?_, hout.trans ?_, hsram.trans (hu.beyond_eq State.sram fun _ => rfl), ?_, ?_, ?_, ?_, (hu.tileFrame _).trans hframe⟩
    · rw [hps, List.drop_left]
      exact hreq
    · exact congrArg (· + _) (hu.group_eq (·.rstOut.length) fun _ => rfl)
    · exact (hsame (·.v) (fun _ => rfl) hgroup).trans (hu.group_eq (·.v) fun _ => rfl)
    · exact (hsame (·.u) (fun _ => rfl) hgroup).trans (hu.group_eq (·.u) fun _ => rfl)
    · exact (hsame (·.p) (fun _ => rfl) hgroup).trans (hu.group_eq (·.p) fun _ => rfl)
    · refine (hsame (·.pc) (fun _ => rfl) hgroup).trans ?_
      exact congrArg (fun n => (n + 4) % 65536) (hu.group_eq (·.pc) fun _ => rfl)

end Sys2Proof.Claims
end

section
/-! SUPPORT. Channel sends (R227 to R232, R262, R263): the item buffered and the credit spent, and the words that SENDM reads. -/

namespace Sys2Proof.Machine

open Sys2Proof.Claims

/-! ### An item buffered -/

/-- The second state is the first with one item of some words in the send buffer of an out-slot of a tile. -/
structure Buffers (s s' : State) (t k : Nat) (words : List Word) : Prop where
  item : ∃ p ∈ s'.packets, p.ty = .item ∧ p.st = .buffered ∧ p.src = t ∧ p.dest = s.gf F.chnSlotDest_tile t k ∧
    p.dslot = s.gf F.chnSlotDest_dslot t k ∧ p.body.map (·.w) = words ∧ (s'.slot t k).sendBuf = (s.slot t k).sendBuf ++ [p.id]
  credits : (s'.slot t k).credits = (s.slot t k).credits.map (· - words.length)
  sram : s'.sram = s.sram

section

variable (s : State) (x : Ctx) (slot : Nat) (r : Bool) (addr : Nat) (mark : Marker) (ws : List TWord)

theorem spendCredit_slot (t k c n : Nat) : (s.spendCredit t k c n).slot t k =
    { (s.slot t k).noteCredit (c + 1) (-n) (-n) with credits := (s.slot t k).credits.map fun c => c - n } :=
  State.slot_setSlot_self ..

theorem bufferItem_slot (t k g c : Nat) : (s.bufferItem t k g c addr mark ws).slot t k =
    { (s.spendCredit t k c ws.length).slot t k with sendBuf := ((s.spendCredit t k c ws.length).slot t k).sendBuf ++ [s.nextPkt] } :=
  State.slot_setSlot_self ..

theorem buffers_sendItem : Buffers s (s.sendItem x slot r addr mark ws) x.t (16 + slot) (ws.map (·.w)) := by
  unfold State.sendItem
  extract_lets id u g v y
  have hu : Buffers s u x.t (16 + slot) (ws.map (·.w)) := by
    have hslot := (bufferItem_slot s addr mark ws x.t (16 + slot) x.g x.cyc).trans (by rw [spendCredit_slot])
    refine ⟨⟨_, List.mem_append_right _ (List.mem_singleton_self _), rfl, rfl, rfl, rfl, rfl, rfl, ?_⟩, ?_, rfl⟩
    · exact congrArg Slot.sendBuf hslot
    · rw [List.length_map]
      exact congrArg Slot.credits hslot
  split
  · exact ⟨hu.item, hu.credits, hu.sram⟩
  · exact ⟨hu.item, hu.credits, hu.sram⟩

theorem sendItem_grp : (s.sendItem x slot r addr mark ws).grp x.t x.g =
    { s.grp x.t x.g with sendsOut := (s.grp x.t x.g).sendsOut + 1 } := by
  unfold State.sendItem
  extract_lets id u g v y
  split <;> exact State.grp_setGrp_self ..

theorem tileFrame_sendItem : TileFrame s (s.sendItem x slot r addr mark ws) x.t x.g := by
  unfold State.sendItem
  extract_lets id u g v y
  have hv : TileFrame s v x.t x.g :=
    { TileFrame.refl s x.t x.g with groups := fun a b hab => (State.grp_setGrp ..).trans (if_neg hab) }
  split
  · exact { hv with }
  · exact hv

end

/-! ### SENDW and SENDV -/

/-- SENDW and SENDV where they send. -/
theorem sendBody_eq {x : Ctx} {s : State} {vec : Bool} {gp : BitVec 3} {gn : Bool} {slot : BitVec 4} {r : Bool} {src : BitVec 6}
    {ul : BitVec 4} (hi : x.inst = .send vec gp gn slot r src ul) (hdead : x.dead = false) (hc : x.conflict = none) (hem : x.em ≠ 0) :
    sendBody x s = ((s.retire x 1).setGrp x.t x.g ((s.retire x 1).grp x.t x.g).bumpPc).sendItem x slot.toNat r
      (x.grp.uni ul.toNat).toNat x.mark
      ((if vec then x.lanes.map (x.operand src) else [x.operand src x.lane0]).map fun w => { w := w, mark := x.mark }) := by
  unfold sendBody
  split
  case h_2 hne => exact (hne _ _ _ _ _ _ _ hi).elim
  next heq =>
  cases hi.symm.trans heq
  extract_lets u v word
  have hgo : ¬ (x.dead = true ∨ x.conflict.isSome = true ∨ x.em = 0) := by
    rw [hdead, hc]
    rintro (h | h | h)
    exacts [Bool.false_ne_true h, Bool.false_ne_true h, hem h]
  rw [if_neg hgo]
  cases vec
  · rfl
  · refine congrArg (v.sendItem x _ r _ x.mark) ?_
    rw [if_pos rfl, if_pos rfl, List.map_map]
    rfl

/-! ### SENDM -/

section

variable {s : State}

/-- Markers of which none is DEAD, and that do not conflict, do not combine to DEAD (R548, R549). -/
theorem combineTags_ne_dead (sec : Nat) (l : List Marker) (hl : .dead ∉ l) (hc : (s.combineTags sec l).2 = none) :
    (s.combineTags sec l).1 ≠ .dead := by
  induction l with
  | nil => exact Marker.noConfusion
  | cons m l ih =>
    simp only [State.combineTags] at hc ⊢
    split at hc
    · cases hc
    · next hrest =>
      have hm : m ≠ .dead := fun h => hl (h ▸ List.mem_cons_self)
      have hl' := ih (fun h => hl (List.mem_cons_of_mem _ h)) hrest
      revert hc hl'
      generalize (s.combineTags sec l).1 = a
      intro hc ha
      unfold State.combine at hc ⊢
      grind

theorem mkCtx_mark_ne_dead {t g c : Nat} {i : TInst} (hdead : (s.mkCtx t g c i).dead = false) (hc : (s.mkCtx t g c i).conflict = none)
    (hem : (s.mkCtx t g c i).em ≠ 0) (hi : isControl i = false) : (s.mkCtx t g c i).mark ≠ .dead := by
  unfold State.mkCtx at hdead hc hem ⊢
  simp only [hi, Bool.false_eq_true, if_false, false_or] at hdead hc hem ⊢
  rw [if_neg hem, State.combineAll, if_neg (by rw [hdead]; exact Bool.false_ne_true)] at hc
  rw [State.combineAll, if_neg (by rw [hdead]; exact Bool.false_ne_true)]
  refine combineTags_ne_dead _ _ (fun hmem => ?_) hc
  rw [List.contains_iff_mem.2 hmem] at hdead
  exact Bool.noConfusion hdead

/-- A marker beside words of SRAM, which have none. -/
theorem combineAll_none {s : State} (sec : Nat) {m : Marker} (hm : m ≠ .dead) {l : List Marker} (hl : ∀ a ∈ l, a = .none) :
    s.combineAll sec (m :: l) = (m, none) := by
  have hrest : s.combineTags sec l = (.none, none) := by
    induction l with
    | nil => rfl
    | cons a l ih =>
      obtain rfl := hl a List.mem_cons_self
      rw [State.combineTags, ih fun b hb => hl b (List.mem_cons_of_mem _ hb)]
      rfl
  rw [State.combineAll, if_neg, State.combineTags, hrest]
  · cases m with
    | dead => exact absurd rfl hm
    | _ => rfl
  · rw [List.contains_iff_mem, List.mem_cons]
    rintro (h | h)
    · exact hm h.symm
    · exact Marker.noConfusion (hl _ h)

/-- A word that no shadow line holds is read from SRAM. -/
theorem loadWord_of_no_shadow {t : Nat} (h : (s.til t).shadow = []) {o : Nat} (ho : o % 4 = 0) :
    s.loadWord t o = ((s.sramWord t o).w, List.replicate 4 .none, (s.sramWord t o).bad) := by
  have hbyte (b : Nat) : s.loadByte t b = (s.sramByte t b, .none, s.sramBad.contains (sramAddr t (b / 4 * 4))) := by
    simp [State.loadByte, State.linesAt, h, State.deepest]
  have hblock : ∀ k < 4, (o + k) / 4 * 4 = o := fun k hk => by omega
  have hself : o / 4 * 4 = o := hblock 0 (by decide)
  simp [State.loadWord, hbyte, hblock, hself, State.sramWord, List.range_succ, List.replicate]

end

/-- SENDM where it sends words of SRAM that no shadow line holds. -/
theorem sendmBody_eq {x : Ctx} {s : State} {gp : BitVec 3} {gn : Bool} {slot : BitVec 4} {r : Bool} {ua ul : BitVec 4} {n1 : BitVec 8}
    {offs : List Nat} (hi : x.inst = .sendm gp gn slot r ua ul n1)
    (hoffs : offs = (List.range (n1.toNat + 1)).map fun j => (x.grp.uni ua.toNat).toNat + 4 * j)
    (hdead : x.dead = false) (hc : x.conflict = none) (hem : x.em ≠ 0) (hm : x.mark ≠ .dead) (hnone : (s.til x.t).shadow = [])
    (hok : ∀ o ∈ offs, o % 4 = 0 ∧ o < s.lsBytes x.t ∧ (s.sramWord x.t o).bad = false) :
    ∃ u, Tallied x.t x.g s u ∧ Issued s u ∧ sendmBody x s = (u.setGrp x.t x.g (u.grp x.t x.g).bumpPc).sendItem x slot.toNat r
      (x.grp.uni ul.toNat).toNat x.mark (offs.map fun o => { w := (s.sramWord x.t o).w, mark := x.mark }) := by
  subst hoffs
  unfold sendmBody
  split
  case h_2 hne => exact (hne _ _ _ _ _ _ _ hi).elim
  next heq =>
  cases hi.symm.trans heq
  have hidle : ¬ (x.dead = true ∨ x.em = 0) := by
    rw [hdead]
    rintro (h | h)
    exacts [Bool.false_ne_true h, hem h]
  extract_lets base offs idle ws read u r'
  have hload (o : Nat) (ho : o ∈ offs) : s.loadWord x.t o = ((s.sramWord x.t o).w, List.replicate 4 .none, false) := by
    rw [loadWord_of_no_shadow hnone (hok o ho).1, (hok o ho).2.2]
  have hfault : s.localFault x.t offs = none := localFault_eq_none fun o ho => ⟨(hok o ho).1, (hok o ho).2.1⟩
  have hpoison : s.poisonFault x.t offs = none := poisonFault_eq_none fun o ho => by rw [hload o ho]
  have hr' : r' = (x.mark, none) := combineAll_none _ hm (by
    simp only [ws, List.mem_flatMap, List.mem_map]
    rintro a ⟨_, ⟨o, ho, rfl⟩, ha⟩
    rw [hload o ho] at ha
    exact List.eq_of_mem_replicate ha)
  have hwords : (ws.map fun w => ({ w := w.1, mark := x.mark } : TWord)) =
      offs.map fun o => { w := (s.sramWord x.t o).w, mark := x.mark } := by
    rw [List.map_map]
    exact List.map_congr_left fun o ho => by simp [hload o ho]
  have hread : Tallied x.t x.g s read ∧ Issued s read := by
    have hidle' : ¬ idle := hidle
    simp only [read, if_neg hidle']
    exact ⟨(tallied_readEcc s ..).trans (tallied_retire ..), (issued_readEcc s ..).trans (issued_retire ..)⟩
  refine ⟨read, hread.1, hread.2, ?_⟩
  rw [if_neg hidle, hfault, hpoison]
  simp only [Option.or_none]
  rw [if_neg (by rw [hc]; simpa [idle] using hidle), hr']
  simp only
  rw [if_neg hm, hwords]

end Sys2Proof.Machine
end

section
/-! SUPPORT. SENDW, SENDV and SENDM settled. -/

namespace Sys2Proof.Claims

open Sys2Proof.Machine

/-- What stands after an issue that then buffers an item. -/
theorem sent_item {s u : State} {x : Ctx} (hx : x.grp = s.grp x.t x.g) (hu : Tallied x.t x.g s u) (hi : Issued s u) (slot : BitVec 4)
    (r : Bool) (addr : Nat) (ws : List TWord) (words : List Word) (hws : ws.map (·.w) = words) :
    let s' := (u.setGrp x.t x.g (u.grp x.t x.g).bumpPc).sendItem x slot.toNat r addr x.mark ws
    ∃ p ∈ s'.packets, p.ty = .item ∧ p.st = .buffered ∧ p.src = x.t ∧ p.dest = s.gf F.chnSlotDest_tile x.t (16 + slot.toNat) ∧
      p.dslot = s.gf F.chnSlotDest_dslot x.t (16 + slot.toNat) ∧ p.body.map (·.w) = words ∧
      (s'.slot x.t (16 + slot.toNat)).sendBuf = (s.slot x.t (16 + slot.toNat)).sendBuf ++ [p.id] ∧
      (s'.slot x.t (16 + slot.toNat)).credits = (s.slot x.t (16 + slot.toNat)).credits.map (· - words.length) ∧
      (s'.grp x.t x.g).sendsOut = x.grp.sendsOut + 1 ∧ (s'.grp x.t x.g).pc = (x.grp.pc + 4) % 65536 ∧ s'.sram = s.sram ∧
      TileFrame s s' x.t x.g := by
  intro s'
  subst hws
  have hb : Buffers (u.setGrp x.t x.g (u.grp x.t x.g).bumpPc) s' x.t (16 + slot.toNat) (ws.map (·.w)) := buffers_sendItem ..
  have hgrp : s'.grp x.t x.g = { (u.grp x.t x.g).bumpPc with sendsOut := (u.grp x.t x.g).bumpPc.sendsOut + 1 } := by
    rw [show s' = (u.setGrp x.t x.g (u.grp x.t x.g).bumpPc).sendItem x slot.toNat r addr x.mark ws from rfl, sendItem_grp,
      State.grp_setGrp_self]
  have hslot : (u.setGrp x.t x.g (u.grp x.t x.g).bumpPc).slot x.t (16 + slot.toNat) = s.slot x.t (16 + slot.toNat) :=
    hi.outSlots _ _ (Nat.le_add_right ..)
  have hdest {f : RegField} (hf : f.reg ∉ issueCounts) :
      (u.setGrp x.t x.g (u.grp x.t x.g).bumpPc).gf f x.t (16 + slot.toNat) = s.gf f x.t (16 + slot.toNat) := hu.gf_eq hf ..
  obtain ⟨⟨p, hp, hty, hst, hsrc, htile, hdslot, hbody, hbuf⟩, hcredits, hsram⟩ := hb
  rw [hslot] at hbuf hcredits
  refine ⟨p, hp, hty, hst, hsrc, htile.trans (hdest (by decide)), hdslot.trans (hdest (by decide)), hbody, hbuf, hcredits, ?_, ?_,
    hsram.trans (hu.beyond_eq State.sram fun _ => rfl), (hu.tileFrame _).trans (tileFrame_sendItem ..)⟩
  · rw [hgrp, hx]
    exact congrArg (· + 1) (hu.group_eq (·.sendsOut) fun _ => rfl)
  · rw [hgrp, hx]
    exact congrArg (fun n => (n + 4) % 65536) (hu.group_eq (·.pc) fun _ => rfl)

/-- Settles O21: an issue changes no out-slot, and the item is then buffered. -/
theorem sendResults : Obligations.SendResults := by
  intro s t g c vec gp gn slot r src ua ul n1 k sent
  refine ⟨?_, ?_⟩
  · intro h x hdead hc hem
    have hexec : exec (if vec then .sendv t g else .sendw t g) s = .next (sendBody x s) := by
      cases vec <;> exact h.exec_eq rfl
    refine ⟨_, hexec, ?_⟩
    rw [sendBody_eq (x := x) rfl hdead hc hem]
    exact sent_item (x := x) rfl (tallied_retire s x 1) (issued_retire s x 1) slot r _ _ _ ((List.map_map ..).trans (List.map_id _))
  · intro h x offs hdead hem hc hnone hok
    obtain ⟨u, hu, hi, hb⟩ := sendmBody_eq (x := x) (s := s) (offs := offs) rfl rfl hdead hc hem
      (mkCtx_mark_ne_dead hdead hc hem rfl) hnone hok
    refine ⟨_, h.exec_eq (body := sendmBody) rfl, ?_⟩
    rw [show s.mkCtx t g c _ = x from rfl, hb]
    exact sent_item (x := x) rfl hu hi slot r _ _ _ (List.map_map ..)

end Sys2Proof.Claims
end

section
/-! SUPPORT. Buoy instructions (R233 to R236, R384 to R397): where a posted operation waits or goes, and when an await retires. -/

namespace Sys2Proof.Machine

open Sys2Proof.Claims

/-! ### Posted operations -/

@[simp] theorem noteShadow_shadow (y old : Tile) (c : Nat) : (y.noteShadow old c).shadow = y.shadow := by
  unfold Tile.noteShadow
  split <;> rfl

theorem mfind_of_not_mem {κ α : Type} [DecidableEq κ] {m : Smap κ α} {k : κ} (h : k ∉ m.map (·.1)) : mfind m k = none := by
  induction m with
  | nil => rfl
  | cons e m ih =>
    obtain ⟨hk, hm⟩ := not_or.1 (fun hmem => h (List.mem_cons.2 hmem))
    exact (if_neg (Ne.symm hk)).trans (ih hm)

/-- A tile with fewer than 16 shadow lines has a free one. -/
theorem exists_freeLine {y : Tile} (h : 0 < shadowFree y) : ∃ k, freeLine y = some k := by
  rw [← Option.isSome_iff_exists, freeLine, List.find?_isSome]
  by_contra hnone
  have hsub : List.range 16 ⊆ y.shadow.map (·.1) := fun k hk => by
    by_contra hfree
    exact hnone ⟨k, hk, by rw [mfind_of_not_mem hfree]; rfl⟩
  have hlen := (List.nodup_range.subperm hsub).length_le
  simp only [List.length_range, List.length_map] at hlen
  simp only [shadowFree] at h
  omega

theorem mem_mput {κ α : Type} [DecidableEq κ] (m : Smap κ α) (k : κ) (v : α) : (k, v) ∈ mput m k v := List.mem_cons_self

theorem postBuoy_spec (s : State) (t : Nat) (m : BuoyMsg) (far : Option Nat) : ∃ ps n, s.postBuoy t m far = Sent s ps n ∧
    ∃ p ∈ ps, p.ty = .buoyOp ∧ p.dest = bayPort (bayOf t) ∧ p.buoy = some m := by
  match far with
  | none => exact ⟨[_], _, rfl, _, List.mem_singleton_self _, rfl, rfl, rfl⟩
  | some f =>
    obtain ⟨q, hq, _⟩ := inject_spec s t { id := 0, ty := .buoyOp, control := true, dest := bayPort (bayOf t), src := t, at_ := t
                                           group := m.group, far := some f }
    obtain ⟨q', hq', hbuoy⟩ : ∃ q', s.postBuoy t m (some f) = Sent (Sent s [q] (s.nextPkt + 1)) [q'] (s.nextPkt + 2) ∧
        q'.ty = .buoyOp ∧ q'.dest = bayPort (bayOf t) ∧ q'.buoy = some m := by
      rw [← hq]
      exact ⟨_, rfl, rfl, rfl, rfl⟩
    exact ⟨[q, q'], s.nextPkt + 2, hq'.trans (by simp [Sent]), q', by simp, hbuoy⟩

/-- A group with one buoy operation more outstanding. -/
def Group.postOp (y : Group) : Group := { y with opsOut := y.opsOut + 1 }

theorem tileFrame_setGrp (s : State) (t g : Nat) (y : Group) : TileFrame s (s.setGrp t g y) t g :=
  { TileFrame.refl s t g with groups := fun _ _ hab => (State.grp_setGrp ..).trans (if_neg hab) }

/-- The state after BADD, BARRIVE, BSET or BCLEAR has issued and counted its operation. -/
def State.postIssued (s : State) (x : Ctx) : State :=
  let u := s.retire x 1
  let u := u.setGrp x.t x.g (u.grp x.t x.g).bumpPc
  u.setGrp x.t x.g (u.grp x.t x.g).postOp

theorem postIssued_grp (s : State) (x : Ctx) : (s.postIssued x).grp x.t x.g = ((s.retire x 1).grp x.t x.g).bumpPc.postOp := by
  unfold State.postIssued
  simp only [State.grp_setGrp_self]

theorem tileFrame_postIssued (s : State) (x : Ctx) : TileFrame s (s.postIssued x) x.t x.g :=
  ((tallied_retire s x 1).tileFrame _).trans (tileFrame_setGrp ..)

theorem postIssued_til_eq {α : Type} (s : State) (x : Ctx) (f : Tile → α) (hf : ∀ y : Tile, f y.unissued = f y) (a : Nat) :
    f ((s.postIssued x).til a) = f (s.til a) := (issued_retire s x 1).til_eq f hf a

theorem postIssued_sram (s : State) (x : Ctx) : (s.postIssued x).sram = s.sram :=
  (tallied_retire s x 1).beyond_eq State.sram fun _ => rfl

theorem postIssued_group_eq {α : Type} (s : State) (x : Ctx) (f : Group → α) (hf : ∀ y : Group, f y.uncounted = f y)
    (hf' : ∀ y : Group, f y.bumpPc.postOp = f y) : f ((s.postIssued x).grp x.t x.g) = f (s.grp x.t x.g) := by
  rw [postIssued_grp, hf', (tallied_retire s x 1).group_eq f hf]

/-- BADD, BARRIVE, BSET and BCLEAR where they post an operation. -/
theorem postBody_spec {x : Ctx} {s : State} {m : BuoyMsg} {far : Option Nat} (hm : s.buoyMsgOf x = some (m, far))
    (hdead : x.dead = false) (hem : x.em ≠ 0) (hc : x.conflict = none) :
    (x.mark = .none → postBody x s = (s.postIssued x).releaseBuoy x.t m far) ∧
    ∀ tag, x.mark = .tag tag → 0 < shadowFree (s.til x.t) → ∃ y : Tile, postBody x s = (s.postIssued x).setTil x.t y ∧
      ∃ l ∈ y.shadow, l.2.tag = tag ∧ l.2.op = some m := by
  have hidle : ¬ (x.dead = true ∨ x.em = 0) := by
    rw [hdead]
    rintro (h | h)
    exacts [Bool.false_ne_true h, hem h]
  unfold postBody
  extract_lets idle u v g w y
  rw [hm]
  dsimp only
  have hgo : ¬ (idle ∨ x.conflict.isSome = true) := by simpa [idle, hc] using hidle
  rw [if_neg hgo]
  refine ⟨fun hmark => by rw [hmark]; rfl, fun tag hmark hfree => ?_⟩
  rw [hmark]
  have hfree' : 0 < shadowFree y := by rwa [show shadowFree y = _ from postIssued_til_eq s x shadowFree (fun _ => rfl) x.t]
  obtain ⟨k, hk⟩ := exists_freeLine hfree'
  rw [hk]
  exact ⟨_, rfl, _, by rw [noteShadow_shadow]; exact mem_mput .., rfl, rfl⟩

/-- A tagged buoy operation issues where a shadow line is free (R559). -/
theorem shadowFree_of_nextOf {s : State} {t g c tag : Nat} {op : BOp} {gp : BitVec 3} {gn : Bool} {name : BuoyName} {v : BitVec 6}
    (h : s.nextOf t g = .go c (.buoy op gp gn name v)) (hop : op ≠ .bawaitge ∧ op ≠ .bawaitflag)
    (hmark : (s.mkCtx t g c (.buoy op gp gn name v)).mark = .tag tag) : 0 < shadowFree (s.til t) := by
  obtain ⟨c₀, c₁, _, hready, _⟩ := ready_of_nextOf h
  have hmark' : (s.mkCtx t g c₀ (.buoy op gp gn name v)).mark = .tag tag := hmark
  unfold State.readiness at hready
  extract_lets x y ctx at hready
  split at hready
  · cases hready
  · cases op with
    | bawaitge => exact absurd rfl hop.1
    | bawaitflag => exact absurd rfl hop.2
    | _ =>
      simp only [ctx, hmark'] at hready
      split at hready
      · next hfree => exact hfree
      · cases hready

end Sys2Proof.Machine
end

section
/-! SUPPORT. The buoy instructions settled. -/

namespace Sys2Proof.Claims

open Sys2Proof.Machine

theorem releaseBuoy_spec (s : State) (t g : Nat) (m : BuoyMsg) (far : Option Nat) :
    TileFrame s (s.releaseBuoy t m far) t g ∧ (s.releaseBuoy t m far).grp t g = s.grp t g ∧ (s.releaseBuoy t m far).sram = s.sram ∧
      ((s.grp t m.group).rstOut = [] →
        ∃ p ∈ (s.releaseBuoy t m far).packets, p.ty = .buoyOp ∧ p.dest = bayPort (bayOf t) ∧ p.buoy = some m) ∧
      ((s.grp t m.group).rstOut ≠ [] →
        ∃ h ∈ ((s.releaseBuoy t m far).til t).held, h.group = m.group ∧ h.op = some m ∧ h.far = far) := by
  unfold State.releaseBuoy
  extract_lets y z
  split
  · next hout =>
    obtain ⟨ps, n, hs, p, hp, hpost⟩ := postBuoy_spec s t m far
    rw [hs]
    exact ⟨tileFrame_sent .., rfl, rfl, fun _ => ⟨p, List.mem_append_right _ hp, hpost⟩, fun hne => (hne hout).elim⟩
  · next hout =>
    refine ⟨{ TileFrame.refl s t g with }, rfl, rfl, fun hnil => (hout hnil).elim, fun _ => ?_⟩
    rw [State.til_setTil_self]
    exact ⟨_, List.mem_append_right _ (List.mem_singleton_self _), rfl, rfl, rfl⟩

/-- Settles O22: the operation is counted at its issue, and then goes out, is held, or takes a shadow line. -/
theorem buoyInstructionResults : Obligations.BuoyInstructionResults := by
  intro s t g c op gp gn name v b i far cmd bop n h x hdead hem hc htarget hcase m
  have hcase' : exec cmd s = .next (postBody x s) ∧ buoyOpOf op = bop ∧ x.buoyOperand op v = n ∧ op ≠ .bawaitge ∧ op ≠ .bawaitflag := by
    simp only [List.mem_cons, Prod.mk.injEq, List.not_mem_nil, or_false] at hcase
    obtain ⟨rfl, rfl, rfl, rfl⟩ | ⟨rfl, rfl, rfl, rfl⟩ | ⟨rfl, rfl, rfl, rfl⟩ | ⟨rfl, rfl, rfl, rfl⟩ := hcase
    all_goals exact ⟨h.exec_eq (body := postBody) rfl, rfl, rfl, BOp.noConfusion, BOp.noConfusion⟩
  obtain ⟨hexec, hbop, hn, hop⟩ := hcase'
  have hm : s.buoyMsgOf x = some (m, far) := by
    rw [show s.buoyMsgOf x = (buoyTarget x.grp t name).map _ from rfl, htarget, Option.map_some, hbop, hn]
    rfl
  refine ⟨_, hexec, ?_⟩
  obtain ⟨hpost, htag⟩ := postBody_spec hm hdead hem hc
  have hout : ((s.postIssued x).grp t g).opsOut = x.grp.opsOut + 1 := by
    rw [show (s.postIssued x).grp t g = _ from postIssued_grp s x]
    exact congrArg (· + 1) ((tallied_retire s x 1).group_eq (·.opsOut) fun _ => rfl)
  have hpc : ((s.postIssued x).grp t g).pc = (x.grp.pc + 4) % 65536 := by
    rw [show (s.postIssued x).grp t g = _ from postIssued_grp s x]
    exact congrArg (fun n => (n + 4) % 65536) ((tallied_retire s x 1).group_eq (·.pc) fun _ => rfl)
  have hrst : ((s.postIssued x).grp t g).rstOut = x.grp.rstOut := postIssued_group_eq s x (·.rstOut) (fun _ => rfl) fun _ => rfl
  have hframe : TileFrame s (s.postIssued x) t g := tileFrame_postIssued s x
  have hsram := postIssued_sram s x
  cases hmark : x.mark with
  | dead => exact (mkCtx_mark_ne_dead hdead hc hem rfl hmark).elim
  | none =>
    rw [hpost hmark]
    obtain ⟨hframe', hgrp, hsram', hgo, hheld⟩ := releaseBuoy_spec (s.postIssued x) t g m far
    rw [show x.t = t from rfl, hgrp, hsram']
    exact ⟨hout, hpc, hsram, hframe.trans hframe', fun _ hnil => hgo (hrst.trans hnil),
      fun _ hne => hheld fun hnil => hne (hrst.symm.trans hnil), fun _ hn => Marker.noConfusion hn⟩
  | tag tag =>
    obtain ⟨y, hy, hline⟩ := htag tag hmark (shadowFree_of_nextOf h.next hop hmark)
    rw [hy]
    refine ⟨hout, hpc, hsram, { hframe with }, Marker.noConfusion, Marker.noConfusion, ?_⟩
    rintro tag' ⟨⟩
    rw [show x.t = t from rfl, State.til_setTil_self]
    exact hline

/-- Settles O23: an await retires as an issue tallied, and the WATCH of one that waits goes out once. -/
theorem awaitResults : Obligations.AwaitResults := by
  intro s t g c op gp gn name v
  refine ⟨?_, ?_⟩
  · intro h hop x htarget
    have hexec : exec (if op = .bawaitge then .bawaitge t g else .bawaitflag t g) s = .next (awaitBody x s) := by
      obtain rfl | rfl := hop
      · exact h.exec_eq rfl
      · exact h.exec_eq rfl
    have hm : ¬ ((s.buoyMsgOf x).isNone ∧ ¬ (x.dead = true ∨ x.em = 0)) := by
      rw [show s.buoyMsgOf x = (buoyTarget x.grp t name).map _ from rfl]
      simp [Option.isSome_iff_ne_none.1 htarget]
    have hu := tallied_retire s x 1
    refine ⟨_, hexec, ?_⟩
    rw [awaitBody, if_neg hm]
    refine ⟨congrArg Machine.Group.latch (State.grp_setGrp_self ..), congrArg Machine.Group.watchSent (State.grp_setGrp_self ..),
      (congrArg Machine.Group.pc (State.grp_setGrp_self ..)).trans ?_, hu.beyond_eq State.sram fun _ => rfl, hu.tileFrame _⟩
    exact congrArg (fun n => (n + 4) % 65536) (hu.group_eq (·.pc) fun _ => rfl)
  · intro x m far ht hg hwait hm hlatch hsent
    have hexec : exec (.watchRelease t g) s = .next
        (if m.op = .watchGe ∧ m.operand = 0 then s.setGrp t g { s.grp t g with latch := .met }
          else (s.setGrp t g { s.grp t g with watchSent := true }).postBuoy t m far) := by
      rw [show exec (.watchRelease t g) s = onGroup t g _ from rfl, onGroup_of_lt ht hg, hwait]
      simp [hlatch, hsent, hm]
    refine ⟨_, hexec, ?_⟩
    split
    · next hnow =>
      refine ⟨fun _ _ => ⟨congrArg Machine.Group.latch (State.grp_setGrp_self ..), rfl⟩, ?_,
        (congrArg Machine.Group.pc (State.grp_setGrp_self ..)).trans rfl, rfl, rfl⟩
      rintro (hflag | ⟨_, hne⟩)
      · cases hflag.symm.trans hnow.1
      · exact (hne hnow.2).elim
    · next hlater =>
      obtain ⟨ps, n, hs, p, hp, hpost⟩ := postBuoy_spec (s.setGrp t g { s.grp t g with watchSent := true }) t m far
      rw [hs]
      exact ⟨fun hge hzero => (hlater ⟨hge, hzero⟩).elim,
        fun _ => ⟨congrArg Machine.Group.watchSent (State.grp_setGrp_self ..), p, List.mem_append_right _ hp, hpost⟩,
        (congrArg Machine.Group.pc (State.grp_setGrp_self ..)).trans rfl, rfl, rfl⟩

end Sys2Proof.Claims
end

section
/-! SUPPORT. Functions that only write registers and log events: what else they leave, and which registers they leave. -/

namespace Sys2Proof.Machine

open Sys2Proof.Claims

/-- The state without its registers, its event rings and what goes with them. -/
def State.beyondMarks (s : State) : State :=
  { s with regs := [], rings := [], out := [], irqWatch := none, hwSet := [] }

/-- The second state is the first with events logged and registers written that are listed. -/
structure Marks (rs : List Reg) (s s' : State) : Prop where
  beyond : s'.beyondMarks = s.beyondMarks
  regs : ∀ r u k, r ∉ rs → s'.rd r u k = s.rd r u k

namespace Marks

variable {rs : List Reg} {s s' s'' : State}

theorem refl (s : State) : Marks rs s s := ⟨rfl, fun _ _ _ _ => rfl⟩

theorem trans (h : Marks rs s s') (h' : Marks rs s' s'') : Marks rs s s'' where
  beyond := h'.beyond.trans h.beyond
  regs r u k hr := (h'.regs r u k hr).trans (h.regs r u k hr)

theorem each {α : Type} (f : State → α → State) (l : List α) (hf : ∀ s, ∀ a ∈ l, Marks rs s (f s a)) (s : State) :
    Marks rs s (s.each l f) :=
  State.each_keeps (Marks rs) refl (fun _ _ _ => trans) f l hf s

/-- More registers may be written. -/
theorem mono {rs' : List Reg} (h : Marks rs s s') (hsub : ∀ r ∈ rs, r ∈ rs') : Marks rs' s s' :=
  ⟨h.beyond, fun r u k hr => h.regs r u k fun hmem => hr (hsub r hmem)⟩

/-- What the state holds beyond registers and events. -/
theorem beyond_eq {α : Type} (h : Marks rs s s') (f : State → α) (hf : ∀ s : State, f s.beyondMarks = f s) : f s' = f s := by
  rw [← hf, h.beyond, hf]

theorem gf_eq (h : Marks rs s s') {f : RegField} (hf : f.reg ∉ rs) (u k : Nat) : s'.gf f u k = s.gf f u k := by
  rw [State.gf, h.regs _ _ _ hf, State.gf]

theorem flag_eq (h : Marks rs s s') {f : RegField} (hf : f.reg ∉ rs) (u k : Nat) : s'.flag f u k = s.flag f u k := by
  rw [State.flag, h.gf_eq hf, State.flag]

theorem wr {r : Reg} (h : r ∈ rs) (hr : r ≠ .mshTileSector) (s : State) (u k : Nat) (w : BitVec 64) : Marks rs s (s.wr r u k w) where
  beyond := rfl
  regs r' u' k' hr' := by
    rw [State.rd_wr _ _ _ _ _ _ _ _ (.inr hr), if_neg]
    rintro ⟨rfl, _⟩
    exact hr' h

theorem sf {f : RegField} (h : f.reg ∈ rs) (hr : f.reg ≠ .mshTileSector) (s : State) (u k v : Nat) : Marks rs s (s.sf f u k v) :=
  wr h hr ..

theorem bump {r : Reg} (h : r ∈ rs) (hr : r ≠ .mshTileSector) (s : State) (u k n : Nat) : Marks rs s (s.bump r u k n) :=
  wr h hr ..

theorem hset {f : RegField} (h : f.reg ∈ rs) (hr : f.reg ≠ .mshTileSector) (s : State) (u k : Nat) : Marks rs s (s.hset f u k) :=
  .trans (s' := s.noteSet f u k) ⟨rfl, fun _ _ _ _ => rfl⟩ (sf h hr ..)

theorem logEv (s : State) (ev : Ev) (f loc detail : Nat) : Marks rs s (s.logEv ev f loc detail) := by
  obtain ⟨r, o, i, h⟩ := s.logEv_spec ev f loc detail
  rw [h]
  exact ⟨rfl, fun _ _ _ _ => rfl⟩

end Marks

end Sys2Proof.Machine
end

section
/-! SUPPORT. A hop of a head (R340 to R348): what it changes beside its packet. -/

namespace Sys2Proof.Machine

open Sys2Proof.Claims

/-- The registers that a hop counts in (R369, R381). -/
def hopCounts : List Reg := [.mshCountFlits, .mshOldEpochCount, .mshEpoch]

theorem marks_oldHeads (s : State) (f : Nat) (p : Packet) (gone come : Nat) : Marks hopCounts s (s.oldHeads f p gone come) := by
  unfold State.oldHeads
  split
  · exact .refl s
  · refine .each _ _ (fun s sec _ => ?_) s
    extract_lets n u
    have hu : Marks hopCounts s u := .sf (by decide) (by decide) ..
    split
    · exact hu.trans (.sf (by decide) (by decide) ..)
    · exact hu

/-- The state without what a hop changes beside its packet. -/
def State.unhopped (s : State) : State :=
  { s.beyondMarks with packets := [], nextPkt := 0, fresh := 0, cvRefused := [], outTurn := [] }

theorem Marks.unhopped {rs : List Reg} {s s' : State} (h : Marks rs s s') : s'.unhopped = s.unhopped := by
  unfold State.unhopped
  rw [h.beyond]

theorem takeOutputs_spec (s : State) (p : Packet) : ∃ c o, s.takeOutputs p = { s with cvRefused := c, outTurn := o } := by
  refine State.each_keeps (fun s s' => ∃ c o, s' = { s with cvRefused := c, outTurn := o }) (fun s => ⟨_, _, rfl⟩) ?_ _ _
    (fun s d _ => ?_) s
  · rintro s _ _ ⟨c, o, rfl⟩ ⟨c', o', rfl⟩
    exact ⟨c', o', rfl⟩
  · simp only
    split
    · exact ⟨_, _, rfl⟩
    · split <;> exact ⟨_, _, rfl⟩

theorem boundaryOk_eq {s s' : State} (h : Marks hopCounts s s') (t port : Nat) (p : Packet) :
    s'.boundaryOk t port p = s.boundaryOk t port p := by
  simp only [State.boundaryOk, State.sectorOf, h.gf_eq (f := F.mshTileSector_sector) (by decide),
    h.gf_eq (f := F.mshPortCfg_neighbour) (by decide), h.flag_eq (f := F.mshPortCfg_linked) (by decide),
    h.flag_eq (f := F.mshPortCfg_boundary) (by decide)]
  rfl

/-- A head at its destination is ejected. -/
theorem leaveBy_local (s : State) (p : Packet) (didx : Nat) (link : LinkState) : ∃ u since, Marks hopCounts s u ∧
    s.leaveBy p .l didx link = u.addPkt { p with st := .ejected, didx := didx, since := since } :=
  ⟨_, _, (Marks.bump (by decide) (by decide) s ..).trans (marks_oldHeads ..), rfl⟩

/-- A head that the next router's port takes goes there. -/
theorem leaveBy_good {s : State} {p : Packet} {d : Dir} {n : Nat} (hn : neighbour p.at_ d = some n) (didx : Nat)
    (hok : s.boundaryOk n (dirNum (opposite d)) { p with at_ := n, inPort := opposite d, hops := p.hops + hopTime p.inPort d } = true) :
    ∃ (u : State) (since : Nat) (trail : List (Nat × Dir × Dir)), u.unhopped = s.unhopped ∧ s.leaveBy p d didx .good = u.addPkt { p with
      at_ := n, inPort := opposite d, hops := p.hops + hopTime p.inPort d, refused := false, since := since, trail := trail } := by
  unfold State.leaveBy
  extract_lets at_ counted ejecting port
  rw [show neighbour at_ d = some n from hn]
  dsimp -zeta only
  extract_lets q ticked left lost enter
  have hcounted : Marks hopCounts s counted := .bump (by decide) (by decide) ..
  have hticked : ∃ k, ticked = { counted with fresh := k } := by
    simp only [ticked]
    split <;> exact ⟨_, rfl⟩
  have hleft : Marks hopCounts ticked left := by
    simp only [left]
    split
    · exact .refl _
    · exact marks_oldHeads ..
  obtain ⟨k, hk⟩ := hticked
  have hok' : left.boundaryOk n (dirNum port) q = true := by
    rw [boundaryOk_eq hleft, hk]
    exact (boundaryOk_eq hcounted ..).trans hok
  have hunhopped : left.unhopped = s.unhopped := by
    rw [hleft.unhopped, hk]
    exact hcounted.unhopped
  have henter : enter left q = (if fieldOf n = fieldOf at_ then left else left.oldHeads (fieldOf n) p 0 1).addPkt { q with refused := false } := by
    simp only [enter, hok']
    rfl
  refine ⟨if fieldOf n = fieldOf at_ then left else left.oldHeads (fieldOf n) p 0 1, q.since, q.trail, ?_, henter⟩
  split
  · exact hunhopped
  · exact (marks_oldHeads ..).unhopped.trans hunhopped

/-- An output that yields to a ready VC0 head. -/
theorem yields_of_channel0 {s : State} {p q : Packet} {o : Dir} (hq : q ∈ s.packets) (hfly : q.st = .flying) (hgo : q.refused = false)
    (hat : q.at_ = p.at_) (hid : q.id ≠ p.id) (hqc : q.control = false) (hpc : p.control = false) (hqv : q.vc = 0) (hpv : p.vc ≠ 0)
    (ho : o ≠ .l) (hout : o ∈ s.outsOf q) (hready : s.headReady q = true) : s.yields p o = true := by
  have hmem : q ∈ s.contenders p o := List.mem_filter.2 ⟨hq, by simp [*]⟩
  have hyield : s.channelYields p o (s.contenders p o) = true := by
    unfold State.channelYields
    rw [if_neg ho, if_neg (by rw [hpc]; exact Bool.false_ne_true), Packet.chan, hpc]
    refine (Bool.and_eq_true ..).mpr ⟨decide_eq_true hpv, List.any_eq_true.2 ⟨q, hmem, ?_⟩⟩
    rw [Packet.chan, hqc]
    exact (Bool.or_eq_true ..).mpr (.inl (decide_eq_true hqv))
  rw [State.yields, hyield, Bool.or_true]

section

variable {s : State} {p : Packet} (hty : ∀ k, p.ty ≠ .reserved k) (huni : p.mcast = false) (hlen : p.len ≤ 64)

include hty huni hlen

/-- A unicast head is routed by the light list, and else in dimension order (R346, R348). -/
theorem routing_unicast : s.routing p.at_ p = if p.dest = p.at_ then .one .l else match s.lookup p.at_ p with
    | some k =>
      if s.flag F.mshLlEntry_kind p.at_ k then
        .fork (([Dir.n, .e, .s, .w, .l]).filter fun d => (s.gf F.mshLlEntry_fork p.at_ k).testBit (dirNum d))
          (s.gf F.mshLlEntry_didx p.at_ k)
      else if 4 ≤ s.gf F.mshLlEntry_out p.at_ k then .discard
      else .one (dirOf (s.gf F.mshLlEntry_out p.at_ k))
    | none => .one (dimensionOrder p.control p.at_ p.dest) := by
  unfold State.routing
  split
  · next k h => exact (hty k h).elim
  · rw [if_neg (by simp [huni]; omega)]
    simp only [huni, true_and, Bool.false_eq_true, if_false] <;> rfl

theorem routing_local (hdest : p.dest = p.at_) : s.routing p.at_ p = .one .l := by
  rw [routing_unicast hty huni hlen, if_pos hdest]

theorem routing_ahead (hdest : p.dest ≠ p.at_) (hlook : s.lookup p.at_ p = none) :
    s.routing p.at_ p = .one (dimensionOrder p.control p.at_ p.dest) := by
  rw [routing_unicast hty huni hlen, if_neg hdest, hlook]

end

/-- What a hop that routes a head by one lit output leaves. -/
theorem routeHead_one {s : State} {p : Packet} {d : Dir} (hr : s.routing p.at_ p = .one d) (hlit : s.outputDark p.at_ d p = false)
    (link : LinkState) : (s.takeOutputs p).routeHead p link = ((s.takeOutputs p).dropPkt p.id).leaveBy p d 0 link := by
  obtain ⟨c, o, h⟩ := takeOutputs_spec s p
  rw [h, State.routeHead, show State.routing { s with cvRefused := c, outTurn := o } p.at_ p = .one d from hr]
  dsimp only
  rw [if_neg]
  exact ne_true_of_eq_false hlit

end Sys2Proof.Machine
end

section
/-! SUPPORT. PACKET_HOP settled. -/

namespace Sys2Proof.Claims

open Sys2Proof.Machine

/-- Settles O24: a head that may not hop waits, one at its destination is ejected, and any other goes to the next router. -/
theorem packetHopMoves : Obligations.PacketHopMoves := by
  intro s id n p hp hfly hgo huni hlen hty hfog d
  have hexec : exec (.packetHop id .good) s =
      .next (if s.mayHop p then (s.takeOutputs p).routeHead p .good else s.stall p.at_) := by
    rw [show exec (.packetHop id .good) s = execPacketHop id .good s from rfl, execPacketHop, hp]
    simp [hfog, hfly, hgo]
  have hsame {u : State} (h : u.unhopped = ((s.takeOutputs p).dropPkt p.id).unhopped) :
      u.sram = s.sram ∧ u.groups = s.groups ∧ u.tiles = s.tiles := by
    obtain ⟨c, o, ho⟩ := takeOutputs_spec s p
    rw [ho] at h
    exact ⟨(congrArg State.sram h :), (congrArg State.groups h :), (congrArg State.tiles h :)⟩
  refine ⟨fun hwait => ⟨_, hexec, ?_⟩, fun q hq o ho hqf hqr hqa hqi hqc hpc hqv hpv hol hoq hqready => ⟨_, hexec, ?_⟩,
    fun hdest hmay => ⟨_, hexec, ?_⟩, fun hdest hmay hlook hlit hnext hok => ⟨_, hexec, ?_⟩⟩
  · rw [if_neg (by rw [hwait]; exact Bool.false_ne_true)]
    exact ⟨rfl, State.rd_wr_self .., rfl⟩
  · rw [if_neg]
    · rfl
    · have hyields := yields_of_channel0 hq hqf hqr hqa hqi hqc hpc hqv hpv hol hoq hqready
      have hany : (s.outsOf p).any (s.yields p) = true := List.any_eq_true.2 ⟨o, ho, hyields⟩
      simp [State.mayHop, hany]
  · rw [if_pos hmay, routeHead_one (routing_local hty huni hlen hdest) rfl]
    obtain ⟨u, since, hu, hleave⟩ := leaveBy_local ((s.takeOutputs p).dropPkt p.id) p 0 .good
    rw [hleave]
    exact ⟨⟨_, List.mem_append_right _ (List.mem_singleton_self _), rfl, rfl, rfl, rfl, rfl⟩, hsame hu.unhopped⟩
  · rw [if_pos hmay, routeHead_one (routing_ahead hty huni hlen hdest hlook) hlit]
    have hok' : ((s.takeOutputs p).dropPkt p.id).boundaryOk n (dirNum (opposite d)) { p with
        at_ := n, inPort := opposite d, hops := p.hops + hopTime p.inPort d } = true := by
      obtain ⟨c, o, ho⟩ := takeOutputs_spec s p
      rw [ho]
      exact hok
    obtain ⟨u, since, trail, hu, hleave⟩ := leaveBy_good hnext 0 hok'
    rw [hleave]
    exact ⟨⟨_, List.mem_append_right _ (List.mem_singleton_self _), hfly, rfl, rfl, rfl, rfl, rfl, rfl, rfl⟩, hsame hu⟩

end Sys2Proof.Claims
end

section
/-! SUPPORT. Items and credits that arrive (R252, R258, R266, R270), and the completion of landings (R259). -/

namespace Sys2Proof.Machine

open Sys2Proof.Claims

/-! ### Words pushed into an in-slot -/

theorem Marks.tiles {rs : List Reg} {s s' : State} (h : Marks rs s s') (ts : Smap Nat Tile) :
    Marks rs { s with tiles := ts } { s' with tiles := ts } where
  beyond := (congrArg (fun z : State => { z with tiles := ts }) h.beyond :)
  regs := h.regs

theorem Marks.slots {rs : List Reg} {s s' : State} (h : Marks rs s s') (sl : Smap (Nat × Nat) Slot) :
    Marks rs { s with slots := sl } { s' with slots := sl } where
  beyond := (congrArg (fun z : State => { z with slots := sl }) h.beyond :)
  regs := h.regs

/-- The registers that an item's arrival counts in or marks (R273, R275, R296). -/
def itemCounts : List Reg := [.chnCountCollide, .chnSlotStatus, .chnCountStallRecv, .chnCountWords, .chnCountItems]

theorem marks_collide (s : State) (t k : Nat) : ∃ ts, Marks itemCounts { s with tiles := ts } (s.collide t k) := by
  unfold State.collide
  extract_lets u
  have hu : Marks itemCounts s u := (Marks.bump (by decide) (by decide) s ..).trans (.hset (by decide) (by decide) ..)
  split
  · unfold State.slipOnce
    split
    · exact ⟨s.tiles, hu⟩
    · exact ⟨_, (hu.tiles (u.setTil t { u.til t with slip := true }).tiles).trans (.logEv ..)⟩
  · exact ⟨s.tiles, hu⟩

/-- What an in-slot's queue shows: its words and its tails. -/
def QWord.shown (q : QWord) : Word × Bool := (q.w, q.tail)

theorem setQueue_spec (s : State) (t k c : Nat) (q : List QWord) :
    (∃ sl, Marks itemCounts { s with slots := sl } (s.setQueue t k c q)) ∧
      ((s.setQueue t k c q).slot t k).queue = q := by
  unfold State.setQueue
  extract_lets x gain log full u
  have hu : Marks itemCounts s u := by
    simp only [u]
    split
    · split
      · exact .refl s
      · exact .bump (by decide) (by decide) ..
    · exact .refl s
  exact ⟨⟨_, hu.slots _⟩, congrArg Slot.queue (State.slot_setSlot_self ..)⟩

theorem State.each_concat {α : Type} (s : State) (l : List α) (a : α) (f : State → α → State) :
    s.each (l ++ [a]) f = f (s.each l f) a := by
  simp [State.each]

/-- One flit's words pushed: the step of `State.pushQueue`. -/
def State.pushFlit (s : State) (t k c : Nat) (qs : List QWord) (j : Nat) : State :=
  let cj := skipStretch (s.til t).stretches (s.after t c j)
  let ws := ((qs.drop (4 * j)).take 4).map fun w => { w with stamp := cj }
  (s.setQueue t k cj ((s.slot t k).queue ++ ws)).notePush t k cj

theorem pushFlit_spec (s : State) (t k c : Nat) (qs : List QWord) (j : Nat) :
    (∃ sl, Marks itemCounts { s with slots := sl } (s.pushFlit t k c qs j)) ∧
      ((s.pushFlit t k c qs j).slot t k).queue.map QWord.shown =
        (s.slot t k).queue.map QWord.shown ++ ((qs.drop (4 * j)).take 4).map QWord.shown := by
  unfold State.pushFlit
  extract_lets cj ws
  obtain ⟨⟨sl, hm⟩, hq⟩ := setQueue_spec s t k cj ((s.slot t k).queue ++ ws)
  refine ⟨⟨_, hm.slots _⟩, ?_⟩
  have hshown : ws.map QWord.shown = ((qs.drop (4 * j)).take 4).map QWord.shown := List.map_map ..
  rw [State.notePush, State.slot_setSlot_self]
  dsimp only
  rw [hq, List.map_append, hshown]

/-- Words that come four a cycle join the queue in order (R265, R270). -/
theorem pushFlits_spec (s : State) (t k c : Nat) (qs : List QWord) (n : Nat) :
    (∃ sl, Marks itemCounts { s with slots := sl } (s.each (List.range n) fun s j => s.pushFlit t k c qs j)) ∧
      ((s.each (List.range n) fun s j => s.pushFlit t k c qs j).slot t k).queue.map QWord.shown =
        (s.slot t k).queue.map QWord.shown ++ (qs.take (4 * n)).map QWord.shown := by
  induction n with
  | zero => exact ⟨⟨s.slots, .refl s⟩, by simp [State.each]⟩
  | succ n ih =>
    obtain ⟨⟨sl, hm⟩, hq⟩ := ih
    obtain ⟨⟨sl', hm'⟩, hq'⟩ := pushFlit_spec (s.each (List.range n) fun s j => s.pushFlit t k c qs j) t k c qs n
    rw [List.range_succ, State.each_concat]
    refine ⟨⟨sl', (hm.slots sl').trans hm'⟩, ?_⟩
    rw [hq', hq, List.append_assoc, ← List.map_append, Nat.mul_succ, List.take_add]

theorem ceilDiv_mul_ge (n : Nat) : n ≤ 4 * ceilDiv n 4 := by
  unfold ceilDiv
  omega

theorem pushQueue_spec (s : State) (t k c : Nat) (qs : List QWord) :
    (∃ sl, Marks itemCounts { s with slots := sl } (s.pushQueue t k c qs)) ∧
      ((s.pushQueue t k c qs).slot t k).queue.map QWord.shown = (s.slot t k).queue.map QWord.shown ++ qs.map QWord.shown := by
  obtain ⟨hm, hq⟩ := pushFlits_spec s t k c qs (ceilDiv qs.length 4)
  rw [List.take_of_length_le (ceilDiv_mul_ge _)] at hq
  exact ⟨hm, hq⟩

/-- The words of an item as the queue shows them: the last word of the whole item is its tail. -/
theorem pushWords_spec (s : State) (p : Packet) (n : Nat) (mark : Marker) (hn : n ≤ p.body.length)
    (hland : s.gf F.chnSlotCfg_landing p.at_ p.dslot ≠ 1) :
    ((s.pushWords p n mark).slot p.at_ p.dslot).queue.map QWord.shown = (s.slot p.at_ p.dslot).queue.map QWord.shown ++
        ((List.range n).zip (p.body.take n)).map (fun e => (e.2.w, decide (e.1 + 1 = p.body.length))) ∧
      ((s.pushWords p n mark).slot p.at_ p.dslot).midItem = decide (n < p.body.length) ∧
      (s.pushWords p n mark).sram = s.sram ∧ (s.pushWords p n mark).groups = s.groups := by
  unfold State.pushWords
  extract_lets t k tail ws m c qs pushed old noted counted whole
  have htaken : ∃ ps, s.takeWords p n = { s with packets := ps } := by
    unfold State.takeWords
    split <;> exact ⟨_, rfl⟩
  obtain ⟨ps, hps⟩ := htaken
  obtain ⟨⟨sl, hm⟩, hq⟩ := pushQueue_spec (s.takeWords p n) t k c qs
  have hwhole : Marks itemCounts noted whole := by
    have hcounted : Marks itemCounts noted counted := .bump (by decide) (by decide) ..
    simp only [whole]
    split
    · exact hcounted.trans (.bump (by decide) (by decide) ..)
    · exact hcounted
  have hslot : whole.slot t k = noted.slot t k := hwhole.beyond_eq (·.slot t k) fun _ => rfl
  have hnoted : noted.slot t k = { pushed.slot t k with midItem := !tail } := State.slot_setSlot_self ..
  have hland' : ¬ whole.gf F.chnSlotCfg_landing t k = 1 := by
    rw [hwhole.gf_eq (by decide), show noted.gf F.chnSlotCfg_landing t k = pushed.gf F.chnSlotCfg_landing t k from rfl,
      hm.gf_eq (by decide), hps]
    exact hland
  have hlen : m = n := (List.length_take ..).trans (Nat.min_eq_left hn)
  have hqs : qs.map QWord.shown = ((List.range n).zip ws).map fun e => (e.2.w, decide (e.1 + 1 = p.body.length)) := by
    simp only [qs, hlen, List.map_map]
    refine List.map_congr_left fun e he => ?_
    have hlt : e.1 < n := List.mem_range.1 (List.of_mem_zip he).1
    simp only [Function.comp, QWord.shown, tail]
    refine Prod.ext rfl (Bool.eq_iff_iff.2 ?_)
    simp only [Bool.and_eq_true, decide_eq_true_eq]
    omega
  rw [if_neg hland', hslot, hnoted]
  refine ⟨?_, ?_, ?_, ?_⟩
  · have htaken : (s.takeWords p n).slot t k = s.slot t k := by
      rw [hps]
      rfl
    rw [htaken] at hq
    rw [← hqs]
    exact hq
  · simp only [tail, ← decide_not, Nat.not_le]
  · rw [hwhole.beyond_eq State.sram fun _ => rfl, show noted.sram = pushed.sram from rfl, hm.beyond_eq State.sram fun _ => rfl, hps]
  · rw [hwhole.beyond_eq State.groups fun _ => rfl, show noted.groups = pushed.groups from rfl,
      hm.beyond_eq State.groups fun _ => rfl, hps]

/-- The operation that a completed landing makes on its buoy (R259). -/
def State.landingMsg (s : State) (t k : Nat) : BuoyMsg where
  op := .landing
  block := if s.gf F.chnSlotDone_buoy t k < 1024 then fieldOf t else 64
  index := if s.gf F.chnSlotDone_buoy t k < 1024 then s.gf F.chnSlotDone_buoy t k else s.gf F.chnSlotDone_buoy t k - 1024
  operand := 1
  tile := t
  group := 0
  sector := s.sectorOf t
  parity := s.parity (fieldOf t)

end Sys2Proof.Machine
end

section
/-! SUPPORT. ITEM, CREDIT and LANDING_COMPLETION settled. -/

namespace Sys2Proof.Claims

open Sys2Proof.Machine

theorem gives_onTile {c : Instr} {s x : State} {t : Nat} {P : State → Prop} (ht : t < 589824) (hc : exec c s = onTile t x) (hp : P x) :
    Gives c s P := ⟨x, hc.trans (onTile_next ht), hp⟩

theorem gives_onField {c : Instr} {s x : State} {f : Nat} {P : State → Prop} (hf : f < 64) (hc : exec c s = onField f x) (hp : P x) :
    Gives c s P := ⟨x, hc.trans (onField_next hf), hp⟩

/-- A collision first, where the item meets rivals: what the arrival rests on stays. -/
theorem collided_spec (s : State) (p : Packet) (t k : Nat) :
    let u := if p.count = 0 ∧ s.rivals p ≠ [] then s.collide t k else s
    ∃ ts, Marks itemCounts { s with tiles := ts } u := by
  intro u
  simp only [u]
  split
  · exact marks_collide s t k
  · exact ⟨s.tiles, .refl s⟩

theorem drainDiscards_eq {s s' : State} {ts : Smap Nat Tile} (h : Marks itemCounts { s with tiles := ts } s') (t k sec : Nat) :
    s'.drainDiscards t k sec = s.drainDiscards t k sec := by
  have hfld (f : Nat) : s'.fld f = s.fld f := h.beyond_eq (·.fld f) fun _ => rfl
  have hgf {f : RegField} (hf : f.reg ∉ itemCounts) (u j : Nat) : s'.gf f u j = s.gf f u j := h.gf_eq hf ..
  have hflag {f : RegField} (hf : f.reg ∉ itemCounts) (u j : Nat) : s'.flag f u j = s.flag f u j := h.flag_eq hf ..
  simp only [State.drainDiscards, State.isDraining, State.isQuiesced, State.feedsControl, State.sectorOf, hfld,
    hgf (f := F.mshTileSector_sector) (by decide), hgf (f := F.chnSlotCfg_landing) (by decide),
    hgf (f := F.chnSlotCfg_port) (by decide), hgf (f := F.strRule_ctl) (by decide), hflag (f := F.strRule_enable) (by decide),
    hflag (f := F.strRule_ctl_en) (by decide)]
  rfl

/-- Settles O25: the words of an item are pushed flit by flit, its credit counted, its landing signalled. -/
theorem itemsAndSignalsArrive : Obligations.ItemsAndSignalsArrive := by
  refine ⟨fun s id flits p => ⟨?_, ?_⟩, fun s t k m rest ht hdue => ⟨fun hmode => ?_, fun hmode hview => ?_⟩⟩
  · intro harr t k n x hn hpar hen hsrc hphase hcount hmid hpart hyield hdrain hmark hland hroom
    obtain ⟨ts, hu⟩ := collided_spec s p t k
    have hexec : exec (.item id flits) s =
        .next ((if p.count = 0 ∧ s.rivals p ≠ [] then s.collide t k else s).pushWords p n (viewMark (s.til t).view p.mark)) := by
      rw [show exec (.item id flits) s = execItem id flits s from rfl, execItem, harr]
      dsimp -zeta only
      extract_lets f tail ph mark u
      have hfull : ¬ u.slotSize t k < x.queue.length + n := by
        rw [State.slotSize, hu.gf_eq (by decide)]
        exact Nat.not_lt.2 hroom
      rw [if_neg (Nat.pos_iff_ne_zero.1 hn), if_neg (not_not_intro hpar), if_neg (not_not_intro ⟨hen, hsrc⟩),
        if_neg fun h => h.1 hphase, if_neg (by simp [hmid, hpart, hyield])]
      rw [if_neg (by rw [drainDiscards_eq hu]; exact ne_true_of_eq_false hdrain), if_neg (not_or.2 ⟨ne_true_of_eq_false hpart, hmark⟩),
        if_neg (by rw [hu.gf_eq (by decide)]; exact fun h => hland h.1), if_neg hfull]
    generalize (if p.count = 0 ∧ s.rivals p ≠ [] then s.collide t k else s) = u at hu hexec
    have hslot : u.slot t k = s.slot t k := hu.beyond_eq (·.slot t k) fun _ => rfl
    obtain ⟨hq, hmid', hsram, hgroups⟩ := pushWords_spec u p n (viewMark (s.til t).view p.mark) (Nat.min_le_right ..)
      (by rw [hu.gf_eq (by decide)]; exact hland)
    rw [show u.slot p.at_ p.dslot = s.slot t k from hslot] at hq
    exact ⟨_, hexec, hq, hmid', hsram.trans (hu.beyond_eq State.sram fun _ => rfl),
      hgroups.trans (hu.beyond_eq State.groups fun _ => rfl)⟩
  · intro harr hpar hphase x
    refine ⟨_, by
      rw [show exec (.credit id) s = execCredit id s from rfl, execCredit, harr]
      dsimp only
      rw [if_neg hphase, if_neg (not_not_intro (show p.parity = (s.dropPkt id).parity (fieldOf p.at_) from hpar))], ?_⟩
    exact ⟨congrArg Slot.credits (State.slot_setSlot_self ..), rfl, rfl, rfl⟩
  · refine gives_onTile ht rfl ?_
    rw [hdue]
    dsimp only
    rw [if_neg hmode]
    exact ⟨congrArg Tile.svc (State.til_setTil_self ..), congrArg Slot.doneDue (State.slot_setSlot_self ..),
      congrArg Slot.doneCount (State.slot_setSlot_self ..), rfl⟩
  · obtain ⟨ps, num, hs, q, hq, hpost⟩ := postBuoy_spec (s.setSlot t k { s.slot t k with
      doneDue := rest, doneCount := (s.slot t k).doneCount + 1 }) t (s.landingMsg t k) none
    have hslot : (Sent (s.setSlot t k { s.slot t k with doneDue := rest, doneCount := (s.slot t k).doneCount + 1 }) ps num).slot t k =
      { s.slot t k with doneDue := rest, doneCount := (s.slot t k).doneCount + 1 } := State.slot_setSlot_self ..
    refine gives_onTile ht rfl ?_
    rw [hdue]
    dsimp only
    rw [if_pos hmode, hview, show (State.landingBuoy _ t k .none).getD s = _ from hs]
    refine ⟨⟨q, List.mem_append_right _ hq, hpost.1, hpost.2.1, _, hpost.2.2, rfl, rfl, rfl, ?_⟩, congrArg Slot.doneDue hslot, rfl⟩
    exact fun hlt => ⟨if_pos hlt, if_pos hlt⟩

end Sys2Proof.Claims
end

section
/-! SUPPORT. Remote requests at their tile, and the service port (R156 to R159, R222, R361, R826). -/

namespace Sys2Proof.Claims

open Sys2Proof.Machine

theorem gives_next {c : Instr} {s x : State} {P : State → Prop} (hc : exec c s = .next x) (hp : P x) : Gives c s P := ⟨x, hc, hp⟩

theorem pkt_id {s : State} {id : Nat} {p : Packet} (h : s.pkt id = some p) : p.id = id := by
  simpa using List.find?_some h

theorem arrived_inv {s : State} {id : Nat} {ty : PType} {p : Packet} (h : s.arrived id ty = some p) : s.pkt id = some p ∧ p.ty = ty := by
  unfold State.arrived at h
  split at h
  · split at h
    · next hpkt hcond =>
      cases h
      exact ⟨hpkt, hcond.1⟩
    · cases h
  · cases h

/-- A load refused is answered RFAIL. -/
theorem refuseAccess_load {s : State} {p : Packet} (a : Nat) (h : p.ty = .rload) (place since : Nat) :
    (∃ q ∈ (s.refuseAccess a p place since).packets, q.ty = .rfail ∧ q.dest = p.src ∧ q.sslot = p.sslot ∧ q.gen = p.gen) ∧
      (s.refuseAccess a p place since).sram = s.sram := by
  unfold State.refuseAccess
  rw [if_pos h]
  exact ⟨⟨_, List.mem_append_right _ (List.mem_singleton_self _), rfl, rfl, rfl, rfl⟩, rfl⟩

/-- A store refused is answered NACK. -/
theorem refuseAccess_store {s : State} {p : Packet} (a : Nat) (h : p.ty = .rstore) (place since : Nat) :
    (∃ q ∈ (s.refuseAccess a p place since).packets, q.ty = .nack ∧ q.dest = p.src ∧ q.serial = p.serial ∧ q.group = p.group) ∧
      (s.refuseAccess a p place since).sram = s.sram := by
  unfold State.refuseAccess
  rw [if_neg (by rw [h]; exact PType.noConfusion), if_pos h]
  exact ⟨⟨_, List.mem_append_right _ (List.mem_singleton_self _), rfl, rfl, rfl, rfl⟩, rfl⟩

/-- Settles O26: the request's address decides whether it waits at the service port or is refused. -/
theorem remoteRequestsQueueOrRefuse : Obligations.RemoteRequestsQueueOrRefuse := by
  intro s id p hspace hat hstale hview
  have hhere : ¬ (addrSpace p.full ≠ 0 ∨ p.at_ ≠ p.dest) := not_or.2 ⟨not_not_intro hspace, not_not_intro hat⟩
  have hload (harr : s.arrived id .rload = some p) : exec (.rload id) s = .next
      (if s.storeFull p.at_ then s.stall p.at_
        else if s.lsBytes p.at_ ≤ p.addr % 65536 then s.refuseAccess p.at_ p
        else (s.dropPkt id).setTil p.at_ { s.til p.at_ with svc := (s.til p.at_).svc ++ [.load p] }) := by
    rw [show exec (.rload id) s = execRload id s from rfl, execRload, harr]
    dsimp only
    rw [if_neg hhere, if_neg (ne_true_of_eq_false hstale)]
    simp only [hview, or_false, apply_ite Host.Outcome.next, Nat.reducePow]
  have hstore (harr : s.arrived id .rstore = some p) : exec (.rstore id) s = .next
      (if s.lsBytes p.at_ ≤ p.addr % 65536 then s.refuseAccess p.at_ p
        else (s.dropPkt id).setTil p.at_ { s.til p.at_ with svc := (s.til p.at_).svc ++ [.store p] }) := by
    rw [show exec (.rstore id) s = execRstore id s from rfl, execRstore, harr]
    dsimp only
    rw [if_neg hhere, if_neg (ne_true_of_eq_false hstale), if_neg hview]
    simp only [apply_ite Host.Outcome.next, Nat.reducePow]
  refine ⟨fun harr hfull => gives_next (hload harr) ?_, fun harr hfull => ⟨fun hin => gives_next (hload harr) ?_,
    fun hout => gives_next (hload harr) ?_⟩, fun harr => ⟨fun hin => gives_next (hstore harr) ?_,
    fun hout => gives_next (hstore harr) ?_⟩⟩
  · rw [if_pos hfull]
    exact ⟨rfl, rfl, rfl⟩
  · rw [if_neg (ne_true_of_eq_false hfull), if_neg (Nat.not_le.2 hin)]
    exact ⟨congrArg Tile.svc (State.til_setTil_self ..), s.pkt_dropPkt_self id, rfl, rfl⟩
  · rw [if_neg (ne_true_of_eq_false hfull), if_pos hout]
    exact refuseAccess_load _ (arrived_inv harr).2 _ _
  · rw [if_neg (Nat.not_le.2 hin)]
    exact ⟨congrArg Tile.svc (State.til_setTil_self ..), s.pkt_dropPkt_self id, rfl, rfl⟩
  · rw [if_pos hout]
    exact refuseAccess_store _ (arrived_inv harr).2 _ _

end Sys2Proof.Claims
end

section
/-! SUPPORT. SERVICE_PORT_ACCESS settled. -/

namespace Sys2Proof.Claims

open Sys2Proof.Machine

theorem svcPick_none {l : List SvcReq} (h : svcPick l = none) : l = [] := by
  cases l with
  | nil => rfl
  | cons r l =>
    unfold svcPick at h
    split at h
    · cases h
    · simp only at h
      split at h <;> cases h

/-- The request picked has the highest rank of all (R156). -/
theorem svcPick_spec {l : List SvcReq} {i : Nat} (h : svcPick l = some i) :
    ∃ r, l[i]? = some r ∧ ∀ q ∈ l, (svcRank r).1 ≤ (svcRank q).1 := by
  induction l generalizing i with
  | nil => cases h
  | cons r l ih =>
    unfold svcPick at h
    split at h
    · next hnone =>
      cases h
      obtain rfl := svcPick_none hnone
      exact ⟨r, rfl, by simp⟩
    · next k hk =>
      obtain ⟨b, hb, hmin⟩ := ih hk
      have hget : l.getD k r = b := by rw [List.getD_eq_getElem?_getD, hb, Option.getD_some]
      simp only [hget] at h
      split at h
      · next hle =>
        cases h
        refine ⟨r, rfl, fun q hq => ?_⟩
        obtain rfl | hq := List.mem_cons.1 hq
        · exact Nat.le_refl _
        · have := hmin q hq
          omega
      · next hgt =>
        cases h
        refine ⟨b, by rwa [List.getElem?_cons_succ], fun q hq => ?_⟩
        obtain rfl | hq := List.mem_cons.1 hq
        · omega
        · exact hmin q hq

theorem svcNext_spec {s : State} {t c k : Nat} {r : SvcReq} (h : s.svcNext t = some (c, k, r)) :
    (s.til t).svc[k]? = some r ∧ ∀ e ∈ s.svcWaiting t, s.svcFrom t e.2 ≤ c → (svcRank r).1 ≤ (svcRank e.2).1 := by
  unfold State.svcNext at h
  simp only [Option.bind_eq_some_iff, Option.map_eq_some_iff, Prod.mk.injEq] at h
  obtain ⟨first, _, i, hpick, e, he, rfl, rfl⟩ := h
  obtain ⟨r', hr', hmin⟩ := svcPick_spec hpick
  obtain rfl : r' = r := by
    rw [List.getElem?_map, he, Option.map_some] at hr'
    exact (Option.some.inj hr').symm
  have hmem := List.mem_of_getElem? he
  obtain ⟨hwaits, _⟩ := List.mem_filter.1 hmem
  refine ⟨?_, fun e he hfrom => hmin _ (List.mem_map_of_mem (List.mem_filter.2 ⟨he, decide_eq_true hfrom⟩))⟩
  obtain ⟨j, hj, hz⟩ := List.mem_iff_getElem.1 (List.mem_filter.1 hwaits).1
  simp only [List.getElem_zip, List.getElem_range, Prod.mk.injEq] at hz
  obtain ⟨rfl, rfl⟩ := hz
  exact List.getElem?_eq_getElem _

end Sys2Proof.Claims

namespace Sys2Proof.Machine

/-- The state in which a served request is performed: it has left the queue. -/
def State.unqueued (s : State) (t c k : Nat) (r : SvcReq) : State :=
  let y := s.til t
  let s := s.setTil t { y with svcFree := s.after t c (svcCycles r) }
  s.setTil t { s.til t with svc := y.svc.eraseIdx k }

theorem unqueued_svc (s : State) (t c k : Nat) (r : SvcReq) : ((s.unqueued t c k r).til t).svc = (s.til t).svc.eraseIdx k := by
  simp [State.unqueued]

theorem unqueued_view (s : State) (t c k : Nat) (r : SvcReq) : ((s.unqueued t c k r).til t).view = (s.til t).view := by
  simp [State.unqueued]

/-- The words of a block that a store writes, in ascending order. -/
theorem storeOffs_pairwise (p : Packet) : p.storeOffs.Pairwise (· < ·) := by
  refine List.Pairwise.map _ (R := (· < ·)) (fun i j h => ?_) (List.pairwise_lt_range.filter _)
  omega

theorem mem_storeOffs {p : Packet} {o : Nat} :
    o ∈ p.storeOffs ↔ ∃ j, j < 16 ∧ p.mask.testBit j = true ∧ p.addr % 2 ^ 16 / 64 * 64 + 4 * j = o := by
  simp [Packet.storeOffs, and_assoc]

end Sys2Proof.Machine

namespace Sys2Proof.Claims

open Sys2Proof.Machine

/-- A load served where its words are intact. -/
theorem performLoad_spec {s : State} {t c : Nat} {p : Packet} (hok : ∀ o ∈ p.loadOffs, (s.sramWord t o).bad = false) :
    (∃ q ∈ (s.performLoad t c p).packets, q.ty = .rdata ∧ q.dest = p.src ∧ q.sslot = p.sslot ∧ q.gen = p.gen ∧
      q.body = p.loadOffs.map (s.sramWord t)) ∧
      (s.performLoad t c p).tiles = s.tiles ∧ (s.performLoad t c p).sram = s.sram := by
  unfold State.performLoad
  extract_lets ws u
  have hbad : ws.any (·.bad) = false := by simpa [ws] using hok
  have hu : u.sram = s.sram ∧ u.tiles = s.tiles := by
    simp only [u]
    obtain h | ⟨n, h⟩ := s.readEcc_spec t p.loadOffs <;> rw [h]
    · exact ⟨rfl, rfl⟩
    · exact ⟨rfl, rfl⟩
  rw [hbad]
  exact ⟨⟨_, List.mem_append_right _ (List.mem_singleton_self _), rfl, rfl, rfl, rfl, rfl⟩, hu.2, hu.1⟩

/-- An untagged store served. -/
theorem performStore_spec {s : State} {t c : Nat} {p : Packet} (hview : viewMark (s.til t).view p.mark = .none) :
    (∀ j, j < 16 → p.mask.testBit j = true →
      ((s.performStore t c p).sramWord t (p.addr % 65536 / 64 * 64 + 4 * j)).w = (p.body.getD j { w := 0 }).w) ∧
    (∀ b, (∀ j, j < 16 → p.mask.testBit j = true → b < sramAddr t (p.addr % 65536 / 64 * 64 + 4 * j) ∨
        sramAddr t (p.addr % 65536 / 64 * 64 + 4 * j) + 4 ≤ b) →
      memRead (s.performStore t c p).sram b = memRead s.sram b) ∧
    (∃ q ∈ (s.performStore t c p).packets, q.ty = .ack ∧ q.dest = p.src ∧ q.serial = p.serial) ∧
    (s.performStore t c p).tiles = s.tiles ∧ (s.performStore t c p).groups = s.groups := by
  unfold State.performStore
  extract_lets offs word done
  rw [hview]
  dsimp only
  have hword (o : Nat) (ho : o ∈ offs) : o % 4 = 0 := by
    obtain ⟨j, _, _, rfl⟩ := mem_storeOffs.1 ho
    omega
  refine ⟨fun j hj hbit => ?_, fun b hb => ?_, ⟨_, List.mem_append_right _ (List.mem_singleton_self _), rfl, rfl, rfl⟩, ?_, ?_⟩
  · have hmem : p.addr % 65536 / 64 * 64 + 4 * j ∈ offs := mem_storeOffs.2 ⟨j, hj, hbit, rfl⟩
    refine (sramPuts_word t id word (storeOffs_pairwise p) s hword hmem fun _ _ hlt => (Nat.ne_of_lt hlt).symm).trans ?_
    simp only [word]
    rw [show (p.addr % 65536 / 64 * 64 + 4 * j) % 64 / 4 = j by omega]
  · refine sramPuts_frame t id word offs s fun o ho => ?_
    obtain ⟨j, hj, hbit, rfl⟩ := mem_storeOffs.1 ho
    exact hb j hj hbit
  · exact State.each_same State.tiles (fun s o => s.sramPut t o (word o)) offs (fun _ _ _ => rfl) s
  · exact State.each_same State.groups (fun s o => s.sramPut t o (word o)) offs (fun _ _ _ => rfl) s

/-- Settles O27: the request picked leaves the queue and is performed. -/
theorem servicePortServes : Obligations.ServicePortServes := by
  intro s t c k p ht base
  have hserve {r : SvcReq} (hn : s.svcNext t = some (c, k, r)) (hc : s.coreFirst t c (svcTouches r) = false) {P : State → Prop}
      (hp : P (s.serve t c k r)) : Gives (.servicePortAccess t) s P := by
    refine gives_onTile ht rfl ?_
    rw [hn]
    dsimp only
    rw [if_neg (ne_true_of_eq_false hc)]
    exact hp
  refine ⟨fun r hn => ⟨(svcNext_spec hn).1, (svcNext_spec hn).2, fun hc => ?_⟩, fun hn hc hok => hserve hn hc ?_,
    fun hn hc hview => hserve hn hc ?_⟩
  · refine gives_onTile ht rfl ?_
    rw [hn]
    exact if_pos hc
  · have hok' : ∀ o ∈ p.loadOffs, ((s.unqueued t c k (.load p)).sramWord t o).bad = false := by
      simp only [Packet.loadOffs, List.mem_map, List.mem_range]
      rintro _ ⟨j, hj, rfl⟩
      exact hok j hj
    obtain ⟨⟨q, hq, hty, hdest, hslot, hgen, hbody⟩, htiles, hsram⟩ := performLoad_spec (c := c) hok'
    refine ⟨⟨q, hq, hty, hdest, hslot, hgen, ?_⟩, ?_, hsram⟩
    · rw [hbody, Packet.loadOffs, List.map_map, List.map_map]
      rfl
    · exact (congrArg (fun ts => (mget {} ts t).svc) htiles).trans (unqueued_svc ..)
  · obtain ⟨hword, hframe, hack, htiles, hgroups⟩ := performStore_spec (s := s.unqueued t c k (.store p)) (t := t) (c := c) (p := p)
      (by rw [unqueued_view, hview])
    exact ⟨hword, hframe, hack, (congrArg (fun ts => (mget {} ts t).svc) htiles).trans (unqueued_svc ..), hgroups⟩

end Sys2Proof.Claims
end

section
/-! SUPPORT. Window and register requests of the Keepers (R9, R21, R183, R338). -/

namespace Sys2Proof.Claims

open Sys2Proof.Machine

theorem isTile_of_lt {t : Nat} (h : t < 589824) : isTile t = true := (isTile_iff t).2 h

theorem gives_onUnit {c : Instr} {s x : State} {k n : Nat} {P : State → Prop} (hk : k < n) (hc : exec c s = onUnit k n x) (hp : P x) :
    Gives c s P := ⟨x, hc.trans (onUnit_next hk), hp⟩

/-- The request found is the one asked for. -/
theorem kregHere_addr {s : State} {req : Requester} {addr : Nat} {write : Option Word} {p : Packet}
    (h : s.kregHere req addr write = some p) : p.addr = addr := by
  have := List.find?_some h
  simp only [decide_eq_true_eq] at this
  exact this.2.2.1

/-- A packet that has arrived completes the access of its requester. -/
theorem gives_answered {s : State} {id : Nat} {ty : PType} {p : Packet} {c : Instr} {req : Requester}
    (h : s.arrived id ty = some p) (hc : exec c s = match s.arrived id ty with
      | none => .next s
      | some p => .next ((s.dropPkt id).answer (p.req.getD req) p.status (p.body.headD { w := 0 }).w)) :
    Gives c s fun s' => mfind s'.answers (p.req.getD req) = some (p.status, (p.body.headD { w := 0 }).w) ∧ s'.pkt id = none ∧
      s'.sram = s.sram ∧ s'.regs = s.regs := by
  rw [h] at hc
  exact gives_next hc ⟨mfind_mput_self .., s.pkt_dropPkt_self id, rfl, rfl⟩

/-- Settles O28: each command either completes the access, sends one packet, or takes the packet that has come. -/
theorem keeperAccesses : Obligations.KeeperAccesses := by
  intro s id t off size n addr req write p
  have hcarried (hal : addr % 4 = 0)
      (hlit : fieldOfAddr (.keeper n) addr < 64 → (s.fld (fieldOfAddr (.keeper n) addr)).fogged = false) :
      ¬ ((4 : Nat) ≠ 4 ∨ addr % 4 ≠ 0 ∨
        (fieldOfAddr (.keeper n) addr < 64 ∧ (s.fld (fieldOfAddr (.keeper n) addr)).fogged = true)) := by
    rintro (h | h | ⟨hf, h⟩)
    exacts [h rfl, h hal, Bool.false_ne_true ((hlit hf).symm.trans h)]
  refine ⟨fun ht hal hbar hlit => ⟨fun hnone => gives_next rfl ?_, fun hsome hroom => gives_next rfl ?_⟩,
    fun hbad => gives_next rfl ?_, fun harr => ?_, fun hn hal hlit => ⟨fun hnone => ?_, fun hsome => ?_, fun v hsome => ?_⟩,
    fun harr => ?_⟩
  · rw [if_neg (by simp [isTile_of_lt ht, hal, hbar]), if_neg (ne_true_of_eq_false hlit), hnone]
    exact ⟨⟨_, rfl, rfl, rfl, rfl, rfl, rfl, rfl, rfl, rfl, rfl⟩, rfl, rfl⟩
  · rw [if_neg (by simp [isTile_of_lt ht, hal, hbar]), if_neg (ne_true_of_eq_false hlit), hsome]
    dsimp only
    rw [if_neg (ne_true_of_eq_false hroom)]
    exact ⟨congrArg Tile.svc (State.til_setTil_self ..), s.pkt_dropPkt_self p.id, rfl⟩
  · have hbad' : isTile t = false ∨ size ≠ 4 ∨ off % 4 ≠ 0 ∨ s.barred (fieldOf t) (0xA4000 + off) write.isSome = true := by
      obtain h | h | h := hbad
      · exact .inl (Bool.eq_false_iff.2 fun ht => by have := (isTile_iff t).1 ht; omega)
      · exact .inr (.inl h)
      · exact .inr (.inr (.inl h))
    rw [if_pos hbad']
    exact ⟨mfind_mput_self .., State.refuse_sram .., State.refuse_packets .., State.refuse_tiles ..⟩
  · exact gives_answered harr (by rfl)
  · refine gives_onUnit hn rfl ?_
    rw [if_neg (hcarried hal hlit), hnone]
    exact ⟨⟨_, rfl, rfl, rfl, rfl, rfl, rfl, rfl, rfl, rfl⟩, rfl, rfl⟩
  · intro r hr
    refine gives_onUnit hn rfl ?_
    rw [if_neg (hcarried hal hlit), hsome]
    dsimp only
    rw [if_neg hr]
    exact ⟨_, List.mem_append_right _ (List.mem_singleton_self _), rfl, rfl, rfl, (kregHere_addr hsome :), rfl, rfl⟩
  · intro r hr
    refine gives_onUnit hn rfl ?_
    rw [if_neg (hcarried hal hlit), hsome]
    dsimp only
    rw [if_neg hr]
    exact ⟨_, List.mem_append_right _ (List.mem_singleton_self _), rfl, rfl, rfl, (kregHere_addr hsome :), rfl, rfl⟩
  · obtain ⟨s', hexec, hans, _, hsram, hregs⟩ := gives_answered (c := .kregResp id) (req := .keeper 64) harr (by rfl)
    exact ⟨s', hexec, hans, hsram, hregs⟩

end Sys2Proof.Claims
end

section
/-! SUPPORT. Load responses: what frees a tag, keeps a load's words and writes its destination. -/

namespace Sys2Proof.Machine

open Sys2Proof.Claims

/-- A command for a packet that has arrived does what it says of that packet. -/
theorem gives_arrived {c : Instr} {s : State} {id : Nat} {ty : PType} {p : Packet} {k : Packet → Host.Outcome State Fault Refusal}
    {P : State → Prop} (h : s.arrived id ty = some p) (hc : exec c s = match s.arrived id ty with
      | none => .next s
      | some p => k p) (hp : ∃ s', k p = .next s' ∧ P s') : Gives c s P := by
  rw [h] at hc
  obtain ⟨s', hk, hs'⟩ := hp
  exact ⟨s', hc.trans hk, hs'⟩

/-- Freeing a tag writes its tile only: the tag is no longer taken, and the loads are as they were. -/
theorem State.freeTag_spec (s : State) (t k : Nat) :
    ∃ y, s.freeTag t k = s.setTil t y ∧ (mget {} y.tags k).taken = false ∧ y.loads = (s.til t).loads := by
  refine ⟨_, rfl, ?_, ?_⟩
  · unfold Tile.noteTags
    split <;> simp
  · unfold Tile.noteTags
    split <;> rfl

section
variable {κ α β : Type} [DecidableEq κ] (d : α) (key : β → κ) (word : β → α)

/-- Words put one after the other leave the other keys. -/
theorem mget_foldl_mput_ne {l : List β} {j : κ} (h : ∀ e ∈ l, j ≠ key e) (m : Smap κ α) :
    mget d (l.foldl (fun m e => mput m (key e) (word e)) m) j = mget d m j := by
  induction l generalizing m with
  | nil => rfl
  | cons e l ih =>
    rw [List.foldl_cons, ih fun e he => h e (.tail _ he), mget_mput_ne d m _ (h e (.head _))]

/-- Words put at distinct keys are read there. -/
theorem mget_foldl_mput {l : List β} (h : (l.map key).Nodup) {e : β} (he : e ∈ l) (m : Smap κ α) :
    mget d (l.foldl (fun m e => mput m (key e) (word e)) m) (key e) = word e := by
  induction l generalizing m with
  | nil => cases he
  | cons a l ih =>
    obtain ⟨ha, hl⟩ := List.nodup_cons.1 h
    obtain _ | ⟨_, he⟩ := he
    · rw [List.foldl_cons, mget_foldl_mput_ne d key word (fun e he heq => ha (List.mem_map.2 ⟨e, he, heq.symm⟩)),
        mget_mput_self]
    · exact ih hl he _
end

/-- A load whose destination still waits for it writes its group: the destination no longer waits and is readable from `c`; the
words got are in the lanes of a lane register, the first in a uniform one. -/
structure LoadDone (x y : Group) (l : Load) (c : Nat) : Prop where
  p : y.p = x.p
  ready : y.ready = mput x.ready l.dst c
  loading : y.loading = mdel x.loading l.dst
  lanes : l.dst < 0x20 → y.u = x.u ∧ y.v = l.got.foldl (fun m e => mput m (l.dst, e.1) e.2) x.v
  uniform : 0x20 ≤ l.dst → y.v = x.v ∧ ∀ e w, l.lanes.head? = some e → mfind l.got e.1 = some w → y.u = mput x.u (l.dst - 0x20) w

/-- A group whose destination a load has written, readable from `c`. -/
def Group.finish (x : Group) (l : Load) (mark : Marker) (c : Nat) : Group :=
  { x with
    v := if l.dst < 0x20 then l.got.foldl (fun m k => mput m (l.dst, k.1) k.2) x.v else x.v
    u := match l.lanes.head?.bind fun e => mfind l.got e.1 with
      | some w => if l.dst < 0x20 then x.u else mput x.u (l.dst - 0x20) w
      | none => x.u
    loading := mdel x.loading l.dst, ready := mput x.ready l.dst c, marks := mput x.marks l.dst mark }

theorem finished_finish (x : Group) (l : Load) (mark : Marker) (c : Nat) : LoadDone x (x.finish l mark c) l c := by
  refine ⟨rfl, rfl, rfl, fun hd => ⟨?_, if_pos hd⟩, fun hd => ⟨if_neg (Nat.not_lt.2 hd), fun e w he hw => ?_⟩⟩
  · unfold Group.finish
    dsimp only
    split
    · exact if_pos hd
    · rfl
  · unfold Group.finish
    dsimp only
    rw [he, Option.bind_some, hw]
    exact if_neg (Nat.not_lt.2 hd)

theorem finishLoad_spec {s : State} {t c : Nat} {l : Load} (h : mfind (s.grp t l.group).loading l.dst = some l.id) :
    ∃ y, s.finishLoad t l c = (s.setGrp t l.group y).setTil t { s.til t with loads := (s.til t).loads.filter (·.id ≠ l.id) } ∧
      LoadDone (s.grp t l.group) y l c := by
  refine ⟨_, ?_, finished_finish _ l (viewMark (s.til t).view l.mark) c⟩
  unfold State.finishLoad
  extract_lets x u
  have hu : u = s.setGrp t l.group (x.finish l (viewMark (s.til t).view l.mark) c) := if_pos h
  clear_value u
  subst hu
  rfl

/-- A load changed by its response is in its tile, whose tags are as they were. -/
theorem State.answerLoad_spec (s : State) (t id : Nat) (f : Load → Load) :
    ∃ y : Tile, s.answerLoad t id f = s.setTil t y ∧ y.tags = (s.til t).tags ∧
      y.loads = (s.til t).loads.map fun m => if m.id = id then f m else m := ⟨_, rfl, rfl, rfl⟩

namespace LoadDone
variable {x y : Group} {l : Load} {c : Nat} (h : LoadDone x y l c)
include h

theorem readyAt_dst : y.readyAt l.dst = c := by rw [Group.readyAt, h.ready, mget_mput_self]

/-- Another register, or a lane with no word got, is as it was. -/
theorem lane_ne (hd : l.dst < 0x20) {r k : Nat} (hne : r ≠ l.dst ∨ ∀ e ∈ l.got, e.1 ≠ k) : y.lane r k = x.lane r k := by
  rw [Group.lane, (h.lanes hd).2]
  refine mget_foldl_mput_ne (0 : Word) (fun e : Nat × Word => (l.dst, e.1)) Prod.snd (fun e he heq => ?_) x.v
  obtain ⟨hr, hk⟩ := Prod.ext_iff.1 heq
  exact hne.elim (· hr) fun hne => hne e he hk.symm

/-- The words of the last block got are in their lanes. -/
theorem lane_got (hd : l.dst < 0x20) {old last : List (Nat × Word)} (hgot : l.got = old ++ last) (hl : (last.map (·.1)).Nodup)
    {e : Nat × Word} (he : e ∈ last) : y.lane l.dst e.1 = e.2 := by
  rw [Group.lane, (h.lanes hd).2, hgot, List.foldl_append]
  refine mget_foldl_mput (0 : Word) (fun e : Nat × Word => (l.dst, e.1)) Prod.snd ?_ he _
  rw [show (last.map fun e => (l.dst, e.1)) = (last.map (·.1)).map (Prod.mk l.dst) by rw [List.map_map]; rfl]
  exact hl.map (Prod.mk_right_injective l.dst)

theorem uni_dst (hd : 0x20 ≤ l.dst) {e : Nat × Nat} {w : Word} (he : l.lanes.head? = some e) (hw : mfind l.got e.1 = some w) :
    y.uni (l.dst - 0x20) = w := by
  rw [Group.uni, (h.uniform hd).2 e w he hw, mget_mput_self]
end LoadDone

/-- A trap leaves the tiles and the SRAM. -/
theorem State.trap_keeps (s : State) (t g cyc cause pc addr : Nat) :
    (s.trap t g cyc cause pc addr).tiles = s.tiles ∧ (s.trap t g cyc cause pc addr).sram = s.sram := by
  obtain ⟨r, o, i, h⟩ := s.trap_spec t g cyc cause pc addr
  rw [h]
  exact ⟨rfl, rfl⟩

/-- A failed response to a load that is not killed traps the group after its tag is freed. -/
theorem failLoad_eq {s : State} {p : Packet} {l : Load} (h : s.loadFor p = some l) (hk : l.killed = false) (cause : Nat) :
    ∃ (u : State) (c : Nat), s.failLoad p cause =
        u.trap p.at_ l.group c cause l.pc ((mget {} (s.til p.at_).tags p.sslot).block * 64) ∧
      u.groups = s.groups ∧ (mget {} (u.til p.at_).tags p.sslot).taken = false ∧ u.sram = s.sram := by
  obtain ⟨y, hy, htag, -⟩ := s.freeTag_spec p.at_ p.sslot
  simp only [State.failLoad, h]
  rw [if_neg (ne_true_of_eq_false hk), hy]
  obtain ⟨y', hy', htags, -⟩ := ((s.setTil p.at_ y).dropPkt p.id).answerLoad_spec p.at_ l.id _
  rw [hy']
  refine ⟨_, _, rfl, rfl, ?_, rfl⟩
  rw [State.til_setTil_self, htags]
  exact (congrArg (fun y : Tile => (mget {} y.tags p.sslot).taken) (State.til_setTil_self s p.at_ y)).trans htag

/-- A failed load's response traps its group on the load, frees the tag and stores nothing. -/
theorem failLoad_spec {s : State} {p : Packet} {l : Load} (h : s.loadFor p = some l) (hk : l.killed = false) (cause : Nat) :
    let t := p.at_
    let s' := s.failLoad p cause
    (s'.grp t l.group).st = .trapped ∧ s'.rd .tgpTrap t l.group = BitVec.ofNat 64 (cause * 65536 + l.pc % 65536) ∧
      s'.rd .tgpTrapAddr t l.group = BitVec.ofNat 64 ((mget {} (s.til t).tags p.sslot).block * 64) ∧
      (s'.grp t l.group).v = (s.grp t l.group).v ∧ (s'.grp t l.group).u = (s.grp t l.group).u ∧
      (mget {} (s'.til t).tags p.sslot).taken = false ∧ s'.sram = s.sram := by
  intro t s'
  obtain ⟨u, c, hs', hgroups, htag, hsram⟩ := failLoad_eq h hk cause
  have hgrp : s'.grp t l.group = { s.grp t l.group with st := .trapped } := by
    simp only [s', hs', State.trap_grp, t, if_true]
    rw [State.grp, hgroups, State.grp]
  rw [hgrp]
  refine ⟨rfl, ?_, ?_, rfl, rfl, ?_, ?_⟩
  · exact (congrArg (State.rd · .tgpTrap t l.group) hs').trans (State.trap_tgpTrap ..)
  · exact (congrArg (State.rd · .tgpTrapAddr t l.group) hs').trans (State.trap_tgpTrapAddr ..)
  · simp only [s', hs']
    rw [State.til, (State.trap_keeps ..).1]
    exact htag
  · simp only [s', hs']
    rw [(State.trap_keeps ..).2]
    exact hsram

/-- Late cycles counted leave the groups, the loads and the SRAM. -/
theorem State.noteLate_spec (s : State) (t g late : Nat) :
    (s.noteLate t g late).groups = s.groups ∧ ((s.noteLate t g late).til t).loads = (s.til t).loads ∧
      (s.noteLate t g late).sram = s.sram ∧
      (late ≠ 0 → (s.noteLate t g late).rd .tilCountReleaseLate t =
        BitVec.ofNat 64 (satAdd32 (s.rd .tilCountReleaseLate t).toNat late)) := by
  unfold State.noteLate
  by_cases h : late = 0
  · rw [if_pos h]
    exact ⟨rfl, rfl, rfl, fun hne => (hne h).elim⟩
  rw [if_neg h]
  extract_lets u
  have hu : u.rd .tilCountReleaseLate t = BitVec.ofNat 64 (satAdd32 (s.rd .tilCountReleaseLate t).toNat late) := State.rd_wr_self ..
  split
  · exact ⟨rfl, rfl, rfl, fun _ => hu⟩
  · rw [State.logEv_groups, State.logEv_til, State.til_setTil_self, State.logEv_sram, State.logEv_rd]
    exact ⟨rfl, rfl, rfl, fun _ => hu⟩

/-- A load with the words of a block that has come, whose data was complete in cycle `c`. -/
def Load.withBlock (l : Load) (p : Packet) (block c : Nat) : Load :=
  { l with
    waiting := l.waiting.filter (·.1 ≠ p.sslot), doneAt := c
    got := l.got ++ (l.lanes.filter fun e => e.2 / 64 = block).map fun e => (e.1, (p.body.getD (e.2 % 64 / 4) { w := 0 }).w) }

/-- Data for a load that waits for it frees its tag and is kept with the load, which is finished where nothing more is to come. -/
theorem rdata_spec {s : State} {id : Nat} {p : Packet} {l : Load} (harr : s.arrived id .rdata = some p) (hload : s.loadFor p = some l)
    (hbody : ∀ w ∈ p.body, w.bad = false) (hk : l.killed = false) :
    let t := p.at_
    let l' := l.withBlock p (mget {} (s.til t).tags p.sslot).block (s.tileCycle t)
    ∃ u : State, u.groups = s.groups ∧ u.sram = s.sram ∧ (mget {} (u.til t).tags p.sslot).taken = false ∧ l' ∈ (u.til t).loads ∧
      exec (.rdata id) s = (.next (if l'.waiting = [] ∧ l.rel = 0 then u.finishLoad t l' (s.tileCycle t + 1) else u) : Host.Outcome State Fault Refusal) := by
  intro t l'
  obtain ⟨y, hy, htag, hloads⟩ := s.freeTag_spec p.at_ p.sslot
  have hbad : p.body.any (·.bad) = false := by simpa using hbody
  have hmem : l ∈ (s.til p.at_).loads := by
    unfold State.loadFor at hload
    simp only at hload
    split at hload
    · exact List.mem_of_find?_eq_some hload
    · cases hload
  rw [exec, execRdata, harr]
  dsimp -zeta only
  rw [hbad, if_neg Bool.false_ne_true, hload]
  dsimp -zeta only
  extract_lets +onlyGivenNames tag block c v
  rw [if_neg (ne_true_of_eq_false hk)]
  extract_lets +onlyGivenNames word mine y₀ y₁ l₁ w
  have hy₀ : y₀ = y := by
    simp only [y₀, v, t, hy]
    exact State.til_setTil_self s p.at_ y
  have hy₁ : y₁.tags = y.tags ∧ y₁.loads = y.loads := by
    simp only [y₁, hy₀]
    split
    · exact ⟨rfl, rfl⟩
    · exact ⟨rfl, rfl⟩
  obtain ⟨y₂, hy₂, htags, hloads'⟩ := State.answerLoad_spec (v.setTil t y₁) t l.id fun _ => l₁
  rw [State.til_setTil_self] at htags hloads'
  have hw : w = (v.setTil t y₁).setTil t y₂ := hy₂
  refine ⟨w, ?_, ?_, ?_, ?_, ?_⟩
  · rw [hw]
    rfl
  · rw [hw]
    rfl
  · rw [hw, State.til_setTil_self, htags, hy₁.1]
    exact htag
  · rw [hw, State.til_setTil_self, hloads', hy₁.2, hloads]
    exact List.mem_map.2 ⟨l, hmem, if_pos rfl⟩
  · exact (apply_ite Host.Outcome.next ..).symm

/-- Releasing what a group's stores held back sends packets only. -/
theorem releaseHeld_spec (s : State) (t g : Nat) :
    (s.releaseHeld t g).groups = s.groups ∧ (s.releaseHeld t g).sram = s.sram ∧ (s.releaseHeld t g).regs = s.regs := by
  unfold State.releaseHeld
  extract_lets hs y u
  have hstep {α : Type} (read : State → α) (hsent' : ∀ v ps n, read (Sent v ps n) = read v) (hset : ∀ v q, read (State.setPkt v q) = read v) :
      read (u.each hs fun s h => match h.op with
        | some m => s.postBuoy t m h.far
        | none => match s.pkt (h.pkt - 1) with
          | some q => s.setPkt { q with since := max q.since (s.headAt t (s.cycle (fieldOf t))) }
          | none => s) = read u := by
    refine State.each_same read _ hs (fun v h _ => ?_) u
    split
    · obtain ⟨ps, n, hsent, -⟩ := postBuoy_spec v t _ h.far
      rw [hsent]
      exact hsent' ..
    · split
      · exact hset ..
      · rfl
  exact ⟨hstep State.groups (fun _ _ _ => rfl) fun _ _ => rfl, hstep State.sram (fun _ _ _ => rfl) fun _ _ => rfl,
    hstep State.regs (fun _ _ _ => rfl) fun _ _ => rfl⟩

end Sys2Proof.Machine
end

section

namespace Sys2Proof.Claims

open Sys2Proof.Machine

/-- Settles O29: data frees its tag and either waits with its load or finishes it; a failed response traps the group; the release point
finishes a load; ACK and NACK answer one store. -/
theorem loadResponsesAndReleases : Obligations.LoadResponsesAndReleases := by
  refine ⟨fun s id p l hload hk => ?_, fun s id t p l => ⟨fun ht hfind hwait hrel hk hmine => ?_, fun harr => ?_, fun harr hout => ?_⟩⟩
  · intro t block more
    refine ⟨fun harr hbody hmine => ?_, fun harr => gives_arrived harr (by rfl) ⟨_, rfl, failLoad_spec hload hk 6⟩,
      fun harr => gives_arrived harr (by rfl) ⟨_, rfl, ?_⟩⟩
    · obtain ⟨u, hgroups, hsram, htag, hl', hexec⟩ := rdata_spec harr hload hbody hk
      refine gives_next hexec ?_
      split
      · next hdone =>
        have hgrp : u.grp t l.group = s.grp t l.group := by rw [State.grp, hgroups, State.grp]
        obtain ⟨y, hy, hfin⟩ := finishLoad_spec (s := u) (t := t) (c := s.tileCycle t + 1) (l := l.withBlock p block (s.tileCycle t))
          ((congrArg (fun x : Machine.Group => mfind x.loading l.dst) hgrp).trans hmine)
        have hfin : LoadDone (s.grp t l.group) y (l.withBlock p block (s.tileCycle t)) (s.tileCycle t + 1) := hgrp ▸ hfin
        have hy' : (u.finishLoad t (l.withBlock p block (s.tileCycle t)) (s.tileCycle t + 1)).grp t l.group = y := by
          rw [hy]
          exact State.grp_setGrp_self u t l.group y
        refine ⟨?_, ?_, hy' ▸ hfin.p, fun hwaits => ?_, fun _ _ hd hnd => ?_⟩
        · rw [hy, State.til_setTil_self]
          exact htag
        · rw [hy]
          exact hsram
        · exact (hwaits.elim (· hdone.1) (· hdone.2)).elim
        · rw [hy']
          refine ⟨fun e he hblock => ?_, fun r k hne => hfin.lane_ne hd (hne.imp_right fun hne e he => ?_), hfin.readyAt_dst⟩
          · refine hfin.lane_got hd (e := (e.1, (p.body.getD (e.2 % 64 / 4) { w := 0 }).w)) rfl ?_
              (List.mem_map_of_mem (List.mem_filter.2 ⟨he, decide_eq_true hblock⟩))
            rw [List.map_map]
            exact hnd.sublist ((List.filter_sublist ..).map _)
          · obtain he | he := List.mem_append.1 he
            · exact hne.2 e he
            · obtain ⟨e', he', rfl⟩ := List.mem_map.1 he
              obtain ⟨he', hblock⟩ := List.mem_filter.1 he'
              exact fun hk => hne.1 e' he' hk (of_decide_eq_true hblock)
      · next hwaits =>
        refine ⟨htag, hsram, ?_, fun _ => ⟨hgroups, _, hl', rfl, rfl, rfl⟩, fun hmore hrel => (hwaits ⟨hmore, hrel⟩).elim⟩
        rw [State.grp, hgroups, State.grp]
    · obtain ⟨hst, htrap, -, hrest⟩ := failLoad_spec hload hk 0xB
      exact ⟨hst, htrap, hrest⟩
  · refine gives_onTile ht rfl ?_
    rw [hfind]
    dsimp only
    rw [if_neg (by simp [hwait, hrel, hk])]
    obtain ⟨y, hy, hfin⟩ := finishLoad_spec (c := max (l.issue + l.rel) (l.doneAt + 1)) hmine
    obtain ⟨hgroups, hloads, hsram, hlate⟩ := (s.finishLoad t l (max (l.issue + l.rel) (l.doneAt + 1))).noteLate_spec t l.group
      (s.executed t (l.issue + l.rel) (l.doneAt + 1))
    have hgrp : ((s.finishLoad t l (max (l.issue + l.rel) (l.doneAt + 1))).noteLate t l.group
        (s.executed t (l.issue + l.rel) (l.doneAt + 1))).grp t l.group = y := by
      rw [State.grp, hgroups, hy]
      exact State.grp_setGrp_self s t l.group y
    rw [hgrp, hsram, hloads]
    refine ⟨hfin.readyAt_dst, ?_, hfin.p, fun hd hnd => ⟨(hfin.lanes hd).1, fun e he => ?_, fun r k hne => hfin.lane_ne hd hne⟩,
      fun hd => ⟨(hfin.uniform hd).1, fun e w he hw => hfin.uni_dst hd he hw⟩, ?_, ?_, fun hne => ?_⟩
    · rw [hfin.loading, mfind_mdel, if_pos rfl]
    · exact hfin.lane_got hd (old := []) rfl hnd he
    · rw [hy, State.til_setTil_self]
      have hid : l.id = id := by simpa using List.find?_some hfind
      intro m hm
      simpa [hid] using (List.mem_filter.1 hm).2
    · rw [hy]
      rfl
    · rw [hlate hne, hy]
      rfl
  · refine gives_arrived harr (by rfl) ⟨_, rfl, ?_⟩
    obtain ⟨hgroups, hsram, hregs⟩ := releaseHeld_spec ((s.dropPkt id).setGrp p.at_ p.group
      { s.grp p.at_ p.group with rstOut := (s.grp p.at_ p.group).rstOut.filter (· ≠ p.serial) }) p.at_ p.group
    refine ⟨?_, ?_, hsram, hregs⟩
    all_goals
      rw [State.grp, hgroups]
    · exact congrArg Machine.Group.rstOut (State.grp_setGrp_self (s.dropPkt id) p.at_ p.group _)
    · exact (congrArg Machine.Group.v (State.grp_setGrp_self (s.dropPkt id) p.at_ p.group _)).trans rfl
  · refine gives_arrived harr (by rfl) ⟨_, if_pos hout, ?_⟩
    rw [State.trap_grp, if_pos rfl]
    exact ⟨rfl, State.trap_tgpTrap .., State.trap_tgpTrapAddr .., (State.trap_keeps ..).2⟩

end Sys2Proof.Claims
end

section

namespace Sys2Proof.Claims

open Sys2Proof.Machine

/-- A control space's first block, all of whose lanes the table lists, is answered with the words of the table. -/
theorem controlSpaceRead_spec {s : State} {id : Nat} {p : Packet} {sp : Nat} (harr : s.arrived id .rload = some p)
    (hoff : p.full % 65536 = 0) (hroom : s.storeFull p.at_ = false) (hsp : addrSpace p.full = sp) (hkind : sp = 3 ∨ sp = 2)
    (hlisted : ∀ l ∈ (s.til p.src).loads, (l.waiting.any fun w => w.1 = p.sslot) = true → ∀ e ∈ l.lanes, e.2 / 64 = p.full / 64 →
      (s.controlWord (fieldOf p.at_) sp (e.2 % 65536)).isSome = true)
    (hhere : (if sp = 2 then decide (fieldOf (addrTile p.full) = fieldOf p.at_) else decide (bits p.full 59 16 = 0)) = true)
    {ws : List Word} (hws : (List.range 4).map (fun j => (s.controlWord (fieldOf p.at_) sp (4 * j)).getD 0) = ws) :
    Gives (.controlSpaceRead id) s fun s' =>
      (∃ q ∈ s'.packets, q.ty = .rdata ∧ q.dest = p.src ∧ (q.body.take 4).map (·.w) = ws) ∧ s'.sram = s.sram := by
  subst hsp
  refine gives_arrived harr (by rfl) ?_
  rw [if_neg (by simpa [hoff] using fun h => hkind.resolve_left h), if_neg (ne_true_of_eq_false hroom)]
  extract_lets lanes known here words
  have hknown : known = true := by
    simp only [known, lanes, List.all_eq_true, List.mem_flatMap, List.mem_filter, List.mem_map, decide_eq_true_eq]
    rintro a ⟨l, ⟨hl, hwait⟩, ⟨e, he, rfl⟩, hblock⟩
    exact hlisted l hl hwait e he hblock
  rw [hknown, show here = true from hhere, if_pos (by simpa using hoff)]
  exact ⟨_, rfl, ⟨_, List.mem_append_right _ (List.mem_singleton_self _), rfl, rfl, hws⟩, rfl⟩

/-- Settles O30: the words of the first block, read off the table. -/
theorem controlSpaceReads : Obligations.ControlSpaceReads := by
  intro s id p harr hoff hroom f x sp hlisted
  refine ⟨fun hsp hzero => ?_, fun hsp hown => ?_⟩
  · refine controlSpaceRead_spec harr hoff hroom hsp (.inl rfl) (hsp ▸ hlisted) ?_ rfl
    simpa using hzero
  · refine controlSpaceRead_spec harr hoff hroom hsp (.inr rfl) (hsp ▸ hlisted) ?_ rfl
    simpa using hown

end Sys2Proof.Claims
end

section
/-! SUPPORT. Parts of a state that functions keep: a relation that states it once, with the registers that may be written. -/

namespace Sys2Proof.Machine

/-- The second state looks as the first, and reads as the first in every register that is not listed. -/
structure Keeps {α : Type} (look : State → α) (rs : List Reg) (s s' : State) : Prop where
  look_eq : look s' = look s
  regs : ∀ r u k, r ∉ rs → s'.rd r u k = s.rd r u k

namespace Keeps

variable {α : Type} {look : State → α} {rs : List Reg} {s s' s'' : State}

theorem refl (s : State) : Keeps look rs s s := ⟨rfl, fun _ _ _ _ => rfl⟩

theorem trans (h : Keeps look rs s s') (h' : Keeps look rs s' s'') : Keeps look rs s s'' where
  look_eq := h'.look_eq.trans h.look_eq
  regs r u k hr := (h'.regs r u k hr).trans (h.regs r u k hr)

theorem each {β : Type} (f : State → β → State) (l : List β) (hf : ∀ s, ∀ a ∈ l, Keeps look rs s (f s a)) (s : State) :
    Keeps look rs s (s.each l f) :=
  State.each_keeps (Keeps look rs) refl (fun _ _ _ => trans) f l hf s

theorem mono {rs' : List Reg} (h : Keeps look rs s s') (hsub : ∀ r ∈ rs, r ∈ rs') : Keeps look rs' s s' :=
  ⟨h.look_eq, fun r u k hr => h.regs r u k fun hmem => hr (hsub r hmem)⟩

/-- What is read off the look is as it was. -/
theorem eq_of {β : Type} (h : Keeps look rs s s') (f : State → β) (g : α → β) (hf : ∀ s, f s = g (look s)) : f s' = f s := by
  rw [hf, h.look_eq, hf]

theorem gf_eq (h : Keeps look rs s s') {f : RegField} (hf : f.reg ∉ rs) (u k : Nat) : s'.gf f u k = s.gf f u k := by
  rw [State.gf, h.regs _ _ _ hf, State.gf]

theorem flag_eq (h : Keeps look rs s s') {f : RegField} (hf : f.reg ∉ rs) (u k : Nat) : s'.flag f u k = s.flag f u k := by
  rw [State.flag, h.gf_eq hf, State.flag]

/-- Registers written and events logged, where the look is not at them. -/
theorem marks (hl : ∀ s, look s.beyondMarks = look s) (h : Marks rs s s') : Keeps look rs s s' where
  look_eq := h.beyond_eq look hl
  regs := h.regs

/-- Neither what is looked at nor what registers read is touched. -/
theorem quiet (hlook : look s' = look s) (hregs : ∀ r u k, s'.rd r u k = s.rd r u k) : Keeps look rs s s' :=
  ⟨hlook, fun r u k _ => hregs r u k⟩

end Keeps

end Sys2Proof.Machine
end

section
/-! SUPPORT. The fields of registers: what a field reads after a field was set. -/

namespace Sys2Proof.Machine

/-- A number with a field replaced, in its three parts. -/
theorem setBits_eq (n lo w v : Nat) :
    setBits n (lo + w) lo v = 2 ^ lo * (2 ^ (w + 1) * (n / 2 ^ lo / 2 ^ (w + 1)) + v % 2 ^ (w + 1)) + n % 2 ^ lo := by
  have hlow : 2 ^ lo * (n / 2 ^ lo) + n % 2 ^ lo = n := Nat.div_add_mod ..
  have hhigh : 2 ^ (w + 1) * (n / 2 ^ lo / 2 ^ (w + 1)) + n / 2 ^ lo % 2 ^ (w + 1) = n / 2 ^ lo := Nat.div_add_mod ..
  rw [setBits, bits, show lo + w + 1 - lo = w + 1 by omega]
  generalize n / 2 ^ lo % 2 ^ (w + 1) = b at hhigh ⊢
  rw [← hhigh, Nat.mul_add, ] at hlow
  rw [Nat.mul_add, Nat.mul_comm b, Nat.mul_comm (v % _)]
  omega

/-- A number with a field replaced, bit by bit. -/
theorem testBit_setBits (n hi lo v i : Nat) :
    (setBits n hi lo v).testBit i = if lo ≤ i ∧ i ≤ hi then v.testBit (i - lo) else n.testBit i := by
  obtain hlt | hle := Nat.lt_or_ge hi lo
  · rw [if_neg (by omega), setBits, bits, Nat.sub_eq_zero_of_le hlt]
    simp [Nat.mod_one]
  · obtain ⟨w, rfl⟩ := Nat.exists_eq_add_of_le hle
    rw [setBits_eq, Nat.testBit_two_pow_mul_add _ (Nat.mod_lt _ (Nat.two_pow_pos lo)),
      Nat.testBit_two_pow_mul_add _ (Nat.mod_lt _ (Nat.two_pow_pos (w + 1)))]
    obtain hlow | hlow := Nat.lt_or_ge i lo
    · rw [if_pos hlow, if_neg (by omega), Nat.testBit_mod_two_pow, decide_eq_true hlow, Bool.true_and]
    · rw [if_neg (Nat.not_lt.2 hlow)]
      obtain hin | hout := Nat.lt_or_ge (i - lo) (w + 1)
      · rw [if_pos hin, if_pos (by omega), Nat.testBit_mod_two_pow, decide_eq_true hin, Bool.true_and]
      · rw [if_neg (Nat.not_lt.2 hout), if_neg (by omega), Nat.testBit_div_two_pow, Nat.testBit_div_two_pow]
        congr 1
        omega

/-- A field of a number, bit by bit. -/
theorem testBit_bits (n hi lo i : Nat) : (bits n hi lo).testBit i = (decide (i < hi + 1 - lo) && n.testBit (i + lo)) := by
  rw [bits, Nat.testBit_mod_two_pow, Nat.testBit_div_two_pow]

/-- A field of a register of 64 bits, just set. -/
theorem bits_ofNat_setBits {hi lo : Nat} (h : hi < 64) (n v : Nat) :
    bits (BitVec.ofNat 64 (setBits n hi lo v)).toNat hi lo = v % 2 ^ (hi + 1 - lo) := by
  refine Nat.eq_of_testBit_eq fun i => ?_
  rw [testBit_bits, BitVec.toNat_ofNat, Nat.testBit_mod_two_pow, testBit_setBits, Nat.testBit_mod_two_pow]
  obtain hi' | hi' := Nat.lt_or_ge i (hi + 1 - lo)
  · rw [decide_eq_true hi', decide_eq_true (show i + lo < 64 by omega), if_pos (by omega), Nat.add_sub_cancel]
    rfl
  · rw [decide_eq_false (Nat.not_lt.2 hi'), Bool.false_and, Bool.false_and]

/-- A field apart from the one just set. -/
theorem bits_ofNat_setBits_ne {hi lo hi' lo' : Nat} (h : hi' < lo ∨ hi < lo') (w : BitVec 64) (v : Nat) :
    bits (BitVec.ofNat 64 (setBits w.toNat hi lo v)).toNat hi' lo' = bits w.toNat hi' lo' := by
  refine Nat.eq_of_testBit_eq fun i => ?_
  rw [testBit_bits, testBit_bits, BitVec.toNat_ofNat, Nat.testBit_mod_two_pow, testBit_setBits]
  obtain hi' | hi' := Nat.lt_or_ge i (hi' + 1 - lo')
  · rw [if_neg (by omega)]
    congr 1
    obtain h64 | h64 := Nat.lt_or_ge (i + lo') 64
    · rw [decide_eq_true h64, Bool.true_and]
    · rw [decide_eq_false (Nat.not_lt.2 h64), Bool.false_and]
      exact (Nat.testBit_lt_two_pow (Nat.lt_of_lt_of_le w.isLt (Nat.pow_le_pow_right (by decide) h64))).symm
  · rw [decide_eq_false (Nat.not_lt.2 hi'), Bool.false_and, Bool.false_and]

namespace State
variable (s : State) (f : RegField) (u k v : Nat)

/-- A field just set, taken modulo its width. -/
theorem gf_sf_self (h : f.hi < 64) {m : Nat} (hm : 2 ^ (f.hi + 1 - f.lo) = m) : (s.sf f u k v).gf f u k = v % m := by
  rw [gf, sf, rd_wr_self, bits_ofNat_setBits h, hm]

/-- Another field of the same register. -/
theorem gf_sf_apart {g : RegField} (hreg : g.reg = f.reg) (h : g.hi < f.lo ∨ f.hi < g.lo) : (s.sf f u k v).gf g u k = s.gf g u k := by
  rw [gf, sf, hreg, rd_wr_self, bits_ofNat_setBits_ne h, gf, hreg]

/-- Another register. -/
theorem rd_sf_ne {r : Reg} {u' k' : Nat} (hr : r ≠ .mshPortCfg ∨ f.reg ≠ .mshTileSector) (h : (r, u', k') ≠ (f.reg, u, k)) :
    (s.sf f u k v).rd r u' k' = s.rd r u' k' := by
  rw [sf, rd_wr _ _ _ _ _ _ _ _ hr, if_neg]
  rintro ⟨⟩
  exact h rfl

/-- A field of another register. -/
theorem gf_sf_ne {g : RegField} {u' k' : Nat} (hr : g.reg ≠ .mshPortCfg ∨ f.reg ≠ .mshTileSector)
    (h : (g.reg, u', k') ≠ (f.reg, u, k)) : (s.sf f u k v).gf g u' k' = s.gf g u' k' := by
  rw [gf, rd_sf_ne s f u k v hr h, gf]
end State

/-- What each step gives for its own element, and no step takes away, holds of every element. -/
theorem State.each_gives {α : Type} {P : α → State → Prop} {f : State → α → State} {l : List α} (hset : ∀ s, ∀ a ∈ l, P a (f s a))
    (hkeep : ∀ s, ∀ a ∈ l, ∀ b, P b s → P b (f s a)) (s : State) : ∀ a ∈ l, P a (s.each l f) := by
  suffices h : ∀ b, P b s ∨ b ∈ l → P b (s.each l f) from fun a ha => h a (.inr ha)
  induction l generalizing s with
  | nil => exact fun b h => h.resolve_right (List.not_mem_nil)
  | cons a l ih =>
    intro b h
    refine ih (fun s a ha => hset s a (.tail _ ha)) (fun s a ha => hkeep s a (.tail _ ha)) (f s a) b ?_
    obtain h | h := h
    · exact .inl (hkeep s a (.head _) b h)
    · obtain _ | ⟨_, h⟩ := h
      · exact .inl (hset s a (.head _))
      · exact .inr h

/-- The WAFER bit set in an entry. -/
theorem ofNat_setBits_wafer (entry : BitVec 64) :
    BitVec.ofNat 64 (setBits entry.toNat 28 28 1) = entry ||| BitVec.ofNat 64 (2 ^ 28) := by
  refine BitVec.eq_of_getLsbD_eq fun i hi => ?_
  rw [BitVec.getLsbD_or, BitVec.getLsbD_ofNat, BitVec.getLsbD_ofNat, testBit_setBits, Nat.testBit_two_pow]
  by_cases h : i = 28
  · subst h
    simp
  · rw [if_neg (by omega), decide_eq_false (Ne.symm h), Bool.and_false, Bool.or_false, decide_eq_true hi, Bool.true_and]
    rfl

/-- The registers of an entry in both copies of a light list, and no others. -/
theorem rd_both_copies (s : State) (t k : Nat) (w : BitVec 64) :
    (∀ j ∈ [k, k + 32], ((s.wr .mshLlEntry t k w).wr .mshLlEntry t (k + 32) w).rd .mshLlEntry t j = w) ∧
      ∀ r u i, (r, u, i) ≠ (Reg.mshLlEntry, t, k) → (r, u, i) ≠ (Reg.mshLlEntry, t, k + 32) →
        ((s.wr .mshLlEntry t k w).wr .mshLlEntry t (k + 32) w).rd r u i = s.rd r u i := by
  have hrd (s : State) (j : Nat) (r : Reg) (u i : Nat) : (s.wr .mshLlEntry t j w).rd r u i =
      if (⟨r, u, i⟩ : RegKey) = ⟨.mshLlEntry, t, j⟩ then w else s.rd r u i := State.rd_wr _ _ _ _ _ _ _ _ (.inr (by decide))
  refine ⟨fun j hj => ?_, fun r u i h h' => ?_⟩
  · rw [hrd, hrd]
    simp only [List.mem_cons, List.not_mem_nil, or_false] at hj
    obtain rfl | rfl := hj <;> simp
  · rw [hrd, hrd, if_neg, if_neg]
    · rintro ⟨⟩
      exact h rfl
    · rintro ⟨⟩
      exact h' rfl

/-! ### Flushes -/

/-- The counters that an abort or a flush may write. -/
def abortCounts : List Reg := [.chnCountDiscard, .chnCountWords, .chnCountItems, .chnCountStallRecv, .strCountWords, .strStatus, .chnSlotStatus]

/-- What no part of an abort writes: neither the shadow lines of tiles nor what they know of tags. -/
def State.abortLook (s : State) : (Nat → Smap Nat ShadowLine × Smap Nat TagState) × State :=
  (fun t => ((s.til t).shadow, (s.til t).view),
    { s.beyondMarks with slots := [], tiles := [], groups := [], rules := [], packets := [], nextPkt := 0 })

/-- A part of an abort: it puts no word into a queue, writes only its counters, and keeps what lies beyond channels. -/
structure Aborts (s s' : State) : Prop where
  queue : ∀ t j, (s'.slot t j).queue ⊆ (s.slot t j).queue
  keeps : Keeps State.abortLook abortCounts s s'

namespace Aborts
variable {t : Nat} {s s' s'' : State}

theorem refl (s : State) : Aborts s s := ⟨fun _ _ _ h => h, .refl s⟩

theorem trans (h : Aborts s s') (h' : Aborts s' s'') : Aborts s s'' :=
  ⟨fun t j _ hw => h.queue t j (h'.queue t j hw), h.keeps.trans h'.keeps⟩

theorem each {α : Type} (f : State → α → State) (l : List α) (hf : ∀ s a, Aborts s (f s a)) (s : State) : Aborts s (s.each l f) :=
  State.each_keeps Aborts refl (fun _ _ _ => trans) f l (fun s a _ => hf s a) s

theorem queue_nil (h : Aborts s s') {j : Nat} (hj : (s.slot t j).queue = []) : (s'.slot t j).queue = [] :=
  List.subset_nil.1 (hj ▸ h.queue t j)

theorem regs (h : Aborts s s') (r : Reg) (u k : Nat) (hr : r ∉ abortCounts) : s'.rd r u k = s.rd r u k := h.keeps.regs r u k hr

theorem eq_of {β : Type} (h : Aborts s s') (f : State → β) (g : State → β) (hf : ∀ s : State, f s = g s.abortLook.2) : f s' = f s :=
  h.keeps.eq_of f (fun l => g l.2) hf

theorem sram (h : Aborts s s') : s'.sram = s.sram := h.eq_of State.sram State.sram fun _ => rfl

/-- Registers written that are counters of aborts. -/
theorem of_marks {rs : List Reg} (hm : Marks rs s s') (hsub : ∀ r ∈ rs, r ∈ abortCounts) : Aborts s s' where
  queue t j _ hw := (hm.beyond_eq (fun s => (s.slot t j).queue) fun _ => rfl) ▸ hw
  keeps := (Keeps.marks (fun _ => rfl) hm).mono hsub

theorem bump {r : Reg} (h : r ∈ abortCounts) (hr : r ≠ .mshTileSector) (s : State) (u k n : Nat) : Aborts s (s.bump r u k n) :=
  of_marks (.bump h hr ..) fun _ h => h

theorem hset {f : RegField} (h : f.reg ∈ abortCounts) (hr : f.reg ≠ .mshTileSector) (s : State) (u k : Nat) :
    Aborts s (s.hset f u k) := of_marks (.hset h hr ..) fun _ h => h

theorem unbump {r : Reg} (h : r ∈ abortCounts) (hr : r ≠ .mshTileSector) (s : State) (u k n : Nat) : Aborts s (s.unbump r u k n) := by
  unfold State.unbump
  simp only
  split
  · exact .refl s
  · exact of_marks (.wr h hr ..) fun _ h => h

/-- What else of a state an abort may write. -/
theorem quiet (hslots : s'.slots = s.slots) (hregs : ∀ r u k, s'.rd r u k = s.rd r u k) (hlook : s'.abortLook = s.abortLook) :
    Aborts s s' where
  queue t j w hw := by rwa [State.slot, hslots] at hw
  keeps := .quiet hlook hregs

/-- A tile changed beside its shadow lines and its view of tags. -/
theorem setTil {u : Nat} {y : Tile} (hs : y.shadow = (s.til u).shadow) (hv : y.view = (s.til u).view) : Aborts s (s.setTil u y) := by
  refine .quiet rfl (fun _ _ _ => rfl) (Prod.ext (funext fun a => ?_) rfl)
  refine (congrArg (fun y : Tile => (y.shadow, y.view)) (State.til_setTil s u a y)).trans ?_
  split
  · next h => exact h ▸ Prod.ext hs hv
  · rfl

/-- A slot changed. -/
theorem setSlot {k : Nat} {x : Slot} (hx : x.queue ⊆ (s.slot t k).queue) : Aborts s (s.setSlot t k x) where
  queue u j := by
    rw [State.slot_setSlot]
    split
    · next h => cases h; exact hx
    · exact fun _ h => h
  keeps := .quiet rfl fun _ _ _ => rfl

theorem setQueue {k c : Nat} {q : List QWord} (hq : q ⊆ (s.slot t k).queue) : Aborts s (s.setQueue t k c q) := by
  unfold State.setQueue
  extract_lets x gain log full u
  have hu : Aborts s u ∧ u.slots = s.slots := by
    simp only [u]
    split
    · split
      · exact ⟨.refl s, rfl⟩
      · exact ⟨.bump (by decide) (by decide) .., rfl⟩
    · exact ⟨.refl s, rfl⟩
  refine hu.1.trans (.setSlot ?_)
  rw [State.slot, hu.2]
  exact hq

theorem unpush (s : State) (k a : Nat) (m : SteerMove) (done : Nat) : Aborts s (s.unpush t k a m done) := by
  unfold State.unpush
  extract_lets q ours u v w y
  have hu : Aborts s u := .setQueue (List.filter_sublist ..).subset
  have hw : Aborts s w := ((hu.trans (.bump (by decide) (by decide) ..)).trans (.unbump (by decide) (by decide) ..)).trans
    (.unbump (by decide) (by decide) ..)
  exact hw.trans (.setTil rfl rfl)

theorem dropBuffered (s : State) (k c : Nat) (ids : List Nat) (written : Option Nat) : Aborts s (s.dropBuffered t k c ids written) := by
  refine .each _ ids (fun s id => ?_) s
  split
  · exact .refl s
  · extract_lets x n u _ v w y z g
    have hv : Aborts s v := .trans (s' := u) (.quiet rfl (fun _ _ _ => rfl) rfl) (.setSlot (List.Subset.refl _))
    have hz : Aborts s z := (hv.trans (.bump (by decide) (by decide) ..)).trans (.setTil rfl rfl)
    split
    · exact hz
    · exact hz.trans (.quiet rfl (fun _ _ _ => rfl) rfl)

theorem abortMoves (s : State) (a : Nat) : Aborts s (s.abortMoves t a false) := by
  unfold State.abortMoves
  extract_lets y stop r
  have hstop (s : State) : Aborts s (stop s) := by
    simp only [stop]
    split
    · refine .trans ?_ (.hset (f := F.strStatus_abort) (by decide) (by decide) ..)
      exact .quiet rfl (fun _ _ _ => rfl) rfl
    · exact .refl s
  split
  · exact hstop s
  · extract_lets b n done u v w x _ _ z p
    have hr : Aborts s r := hstop s
    split
    · exact hr
    have hu : Aborts s u := hr.trans (.each _ _ (fun s k => .unpush ..) r)
    have hv : Aborts s v := by
      refine hu.trans (.each _ _ (fun s e => ?_) u)
      split
      · exact .dropBuffered ..
      · exact .refl s
    have hw : Aborts s w := hv.trans (.unbump (by decide) (by decide) ..)
    have hx : Aborts s x := by
      simp only [x, Bool.false_eq_true, if_false]
      split
      · exact hw
      · exact hw.trans (.bump (by decide) (by decide) ..)
    have hz : Aborts s z := hx.trans (.setTil rfl rfl)
    refine .trans (hz.trans ?_) (.hset (f := F.strStatus_abort) (by decide) (by decide) ..)
    exact .quiet rfl (fun _ _ _ => rfl) rfl

theorem discardWords (s : State) (k c : Nat) (ws : List QWord) : Aborts s (s.discardWords t k c ws) := by
  refine .trans (.each _ _ (fun s o => ?_) s) (.bump (by decide) (by decide) ..)
  unfold State.returnCredit
  simp only
  split
  · exact .refl s
  · split
    · exact .quiet rfl (fun _ _ _ => rfl) rfl
    · exact .quiet rfl (fun _ _ _ => rfl) rfl
end Aborts

/-- A slot flushed, with or without an abort: the flush is counted between parts of aborts, the first of which empties an in-slot's queue. -/
theorem flushWithAbort_parts (s : State) (t k : Nat) :
    ∃ u, Aborts s u ∧ (k < 16 → (u.slot t k).queue = []) ∧ Aborts (u.bump .chnCountFlush t k 1) (s.flushWithAbort t k) := by
  obtain ⟨u, hu, hq, hrest⟩ : ∃ u, Aborts s u ∧ (k < 16 → (u.slot t k).queue = []) ∧
      Aborts (u.bump .chnCountFlush t k 1) (s.flushSlot t k) := by
    unfold State.flushSlot
    split
    · unfold State.flushIn
      extract_lets x c v w z
      have hv : Aborts s v := .trans (.setQueue (List.nil_subset _)) (.discardWords ..)
      refine ⟨w, hv.trans (.setTil rfl rfl), fun _ => ?_, ?_⟩
      · have hcleared : ((s.setQueue t k c []).slot t k).queue = [] := (setQueue_spec s t k c []).2
        exact (Aborts.discardWords (s.setQueue t k c []) k c x.queue).queue_nil hcleared
      · split
        · refine .trans (s' := z.setPartial t k false) (.setSlot (List.Subset.refl _)) ?_
          exact .hset (f := F.chnSlotStatus_flushed_partial) (by decide) (by decide) ..
        · exact .refl z
    · next hk => exact ⟨_, .dropBuffered .., fun h => (hk h).elim, .refl _⟩
  have hdone : Aborts (s.flushSlot t k) (s.flushWithAbort t k) := by
    unfold State.flushWithAbort
    simp only
    split
    · exact .abortMoves ..
    · exact .refl _
  exact ⟨u, hu, hq, hrest.trans hdone⟩

/-- A slot flushed: an in-slot's queue is empty, and the flush is counted. -/
theorem flushWithAbort_spec (s : State) (t k : Nat) :
    (k < 16 → ((s.flushWithAbort t k).slot t k).queue = []) ∧
      (s.flushWithAbort t k).rd .chnCountFlush t k = BitVec.ofNat 64 (satAdd32 (s.rd .chnCountFlush t k).toNat 1) ∧
      (s.flushWithAbort t k).sram = s.sram := by
  obtain ⟨u, hu, hq, hafter⟩ := flushWithAbort_parts s t k
  refine ⟨fun h => hafter.queue_nil (hq h), ?_, hafter.sram.trans hu.sram⟩
  rw [hafter.regs _ _ _ (by decide), State.bump, State.rd_wr_self, hu.regs _ _ _ (by decide)]

end Sys2Proof.Machine
end

section

namespace Sys2Proof.Claims

open Sys2Proof.Machine

/-- The flip of one sector of a field armed. -/
def armFlip (s : State) (f watchLow k : Nat) : State :=
  let s := (s.sf F.mshEpoch_armed f k 1).sf F.mshEpochCtl_watch_low f k watchLow
  s.setFld f { s.fld f with armed := mput (s.fld f).armed k (watchLow % 65536) }

/-- The flips of a group armed, one sector after the other. -/
theorem armEach_spec (s : State) (f watchLow : Nat) (group : List Nat) :
    let s' := s.each group fun s k => armFlip s f watchLow k
    (∀ k ∈ group, s'.gf F.mshEpoch_armed f k = 1 ∧ s'.gf F.mshEpochCtl_watch_low f k = watchLow % 65536 ∧
      s'.gf F.mshEpoch_current f k = s.gf F.mshEpoch_current f k) ∧ s'.sram = s.sram := by
  intro s'
  have harm (s : State) (k j : Nat) : (armFlip s f watchLow k).gf F.mshEpoch_armed f j =
      if j = k then 1 else s.gf F.mshEpoch_armed f j := by
    rw [armFlip, State.setFld_gf]
    rw [State.gf_sf_ne _ _ _ _ _ (.inr (by decide)) (by simp [F.mshEpoch_armed, F.mshEpochCtl_watch_low])]
    split
    · next h => exact h ▸ State.gf_sf_self s F.mshEpoch_armed f j 1 (by decide) (by rfl)
    · next h => exact State.gf_sf_ne _ _ _ _ _ (.inr (by decide)) (by simp [h])
  have hlow (s : State) (k j : Nat) : (armFlip s f watchLow k).gf
      F.mshEpochCtl_watch_low f j = if j = k then watchLow % 65536 else s.gf F.mshEpochCtl_watch_low f j := by
    rw [armFlip, State.setFld_gf]
    split
    · next h => exact h ▸ State.gf_sf_self _ F.mshEpochCtl_watch_low f j watchLow (by decide) (by rfl)
    · next h =>
      rw [State.gf_sf_ne _ _ _ _ _ (.inr (by decide)) (by simp [h]),
        State.gf_sf_ne _ _ _ _ _ (.inr (by decide)) (by simp [F.mshEpoch_armed, F.mshEpochCtl_watch_low])]
  have hcurrent (s : State) (k j : Nat) : (armFlip s f watchLow k).gf
      F.mshEpoch_current f j = s.gf F.mshEpoch_current f j := by
    rw [armFlip, State.setFld_gf]
    rw [State.gf_sf_ne _ _ _ _ _ (.inr (by decide)) (by simp [F.mshEpoch_current, F.mshEpochCtl_watch_low])]
    by_cases h : j = k
    · exact h ▸ State.gf_sf_apart s F.mshEpoch_armed f j 1 rfl (by decide)
    · exact State.gf_sf_ne _ _ _ _ _ (.inr (by decide)) (by simp [h])
  have harmed : ∀ k ∈ group, s'.gf F.mshEpoch_armed f k = 1 ∧ s'.gf F.mshEpochCtl_watch_low f k = watchLow % 65536 := by
    refine State.each_gives (P := fun k s => s.gf F.mshEpoch_armed f k = 1 ∧ s.gf F.mshEpochCtl_watch_low f k = watchLow % 65536)
      (fun s k _ => ⟨(harm s k k).trans (if_pos rfl), (hlow s k k).trans (if_pos rfl)⟩) (fun s k _ j h => ⟨?_, ?_⟩) s
    · refine (harm s k j).trans ?_
      split
      · rfl
      · exact h.1
    · refine (hlow s k j).trans ?_
      split
      · rfl
      · exact h.2
  exact ⟨fun k hk => ⟨(harmed k hk).1, (harmed k hk).2, State.each_same (State.gf · F.mshEpoch_current f k) _ group
    (fun s j _ => hcurrent s j k) s⟩, State.each_same State.sram (fun s k => armFlip s f watchLow k) group (fun _ _ _ => rfl) s⟩

theorem not_byKeeper {req : Requester} (h : ∀ m, req ≠ .keeper m) : byKeeper req = false := by
  cases req with
  | keeper m => exact (h m rfl).elim
  | _ => rfl

/-- Settles O31: each command writes the entries, arms or flushes as it says where its conditions hold, and is refused elsewhere. -/
theorem lightListsAndFlush : Obligations.LightListsAndFlush := by
  refine ⟨fun s f t k entry ht hf hk hlit hrun hfree => ?_, fun s n t k f watchLow req value => ⟨?_, fun ht hreq => ?_, fun hf => ?_⟩,
    fun s n t k ht hk => ⟨gives_onTile ht rfl ?_, fun req hright hreq => gives_onTile ht rfl ?_⟩⟩
  · refine gives_onField hf (x := State.writeWafer _ (t, k, entry)) rfl ?_
    unfold State.writeWafer
    extract_lets _ _ f' taken w
    have htaken (j : Nat) (hj : j ∈ [k, k + 32]) : taken j = false := by
      refine Bool.eq_false_iff.2 fun h => ?_
      obtain ⟨hvalid, hwafer⟩ := Bool.and_eq_true_iff.1 h
      exact absurd (hfree j hj hvalid) (ne_true_of_eq_false (Bool.not_eq_eq_eq_not.1 hwafer))
    rw [if_neg]
    · obtain ⟨hself, hother⟩ := rd_both_copies _ t k w
      exact ⟨fun j hj => (hself j hj).trans (ofNat_setBits_wafer entry), fun r u i h h' => (hother r u i h h').trans rfl, rfl, rfl⟩
    · rintro (h | h | h | h | h)
      · exact Bool.false_ne_true (h.symm.trans ht)
      · exact Nat.not_le.2 hk h
      · exact Bool.false_ne_true (hlit.symm.trans h)
      · exact Bool.false_ne_true (hrun.symm.trans h)
      · rw [htaken k (.head _), htaken (k + 32) (.tail _ (.head _))] at h
        exact Bool.false_ne_true h
  · intro stands ht hk
    have hstands {wafer : Bool} (hnone : ¬ stands wafer) : ([k % 32, k % 32 + 32].any fun j =>
        s.flag F.mshLlEntry_valid t j && s.flag F.mshLlEntry_wafer t j == wafer) = false := by
      rw [List.any_eq_false]
      intro j hj h
      obtain ⟨hvalid, hwafer⟩ := Bool.and_eq_true_iff.1 h
      exact hnone ⟨j, hj, hvalid, eq_of_beq hwafer⟩
    refine ⟨fun hsector hnone hdrain => gives_onTile ht rfl ?_, fun hwafer hnone => gives_onTile ht rfl ?_⟩
    · have hnot := hstands hnone
      rw [if_neg (Nat.not_le.2 hk), if_neg, if_pos]
      rotate_left
      · rw [hsector, hdrain]
        dsimp only
        rw [hnot]
        rfl
      · rw [hsector]
        dsimp only
        rw [hnot]
        simp
      refine ⟨State.rd_wr_self .., fun r u i hne => ?_, rfl⟩
      rw [State.rd_wr _ _ _ _ _ _ _ _ (.inr (by decide)), if_neg]
      rintro ⟨⟩
      exact hne rfl
    · have hnot := hstands hnone
      rw [if_neg (Nat.not_le.2 hk), if_pos]
      rotate_left
      · rw [hwafer, if_pos rfl]
        dsimp only
        rw [hnot]
        rfl
      obtain ⟨hself, hother⟩ := rd_both_copies s t (k % 32) value
      exact ⟨hself, hother, rfl⟩
  · refine gives_onTile ht rfl ?_
    by_cases hk : 64 ≤ k
    · rw [if_pos hk]
      exact ⟨fun _ _ => rfl, rfl⟩
    · rw [if_neg hk, if_neg (by simp [not_byKeeper hreq]), if_neg (by simp [not_byKeeper hreq])]
      exact ⟨fun _ _ => State.refuse_rd .., State.refuse_sram ..⟩
  · intro sec group
    refine ⟨fun hbusy => gives_onField hf rfl ?_, fun hahead hup hnow hfree => gives_onField hf rfl ?_⟩
    · rw [if_pos]
      · exact ⟨State.refuse_regs .., State.refuse_fields .., State.refuse_sram ..⟩
      · obtain ⟨k, hk, h⟩ := hbusy
        refine .inr (.inr (.inr (.inr (List.any_eq_true.2 ⟨k, hk, ?_⟩))))
        simpa using h
    · rw [if_neg]
      · exact armEach_spec s f watchLow group
      · rintro (h | h | h | h | h)
        · exact Bool.false_ne_true h.symm
        · exact Bool.false_ne_true (hup.symm.trans h)
        · simp only [Bool.and_eq_true, Bool.or_eq_true, decide_eq_true_eq] at h
          obtain ⟨hahead0, hphase⟩ := h
          refine hnow.elim (fun hne => hne ?_) fun hne => hphase.elim hne.1 hne.2
          have hmod : (watchLow % 65536 + 65536 - (s.fld f).watch % 65536) % 65536 = 0 := hahead0
          omega
        · exact Nat.not_lt.2 hahead h
        · obtain ⟨k, hk, h⟩ := List.any_eq_true.1 h
          obtain ⟨harmed, hflip⟩ := hfree k hk
          rw [harmed, hflip] at h
          exact Bool.false_ne_true h
  · rw [if_neg (Nat.not_le.2 hk), if_pos (.inl rfl)]
    exact flushWithAbort_spec s t k
  · rw [if_neg (Nat.not_le.2 hk), if_neg (by simp [not_byKeeper hreq, hright])]
    exact ⟨State.refuse_slots .., State.refuse_packets .., State.refuse_sram ..⟩

end Sys2Proof.Claims
end

section
/-! SUPPORT. Answers of buoy blocks. -/

namespace Sys2Proof.Machine

open Sys2Proof.Claims

/-- A state beyond what answering buoy operations writes: packets, the trunk, blocks' ports and WATCHes, counts and events. -/
def State.beyondAnswers (s : State) : State × (Nat → List (Nat × BuoyMsg) × List (BuoyMsg × Nat)) :=
  ({ s.beyondMarks with packets := [], nextPkt := 0, trunk := [], buoyBlocks := [] }, fun b => ((s.blk b).arrived, (s.blk b).forwarded))

/-- The registers that a block counts its operations in. -/
def buoyCounts : List Reg := [.buyCountNotice, .buyCountRefused, .buyStatus, .buyCountWatch, .buyCountOps, .buyCountSaturate]

/-- Answers given, and what goes with them. -/
def Answers (s s' : State) : Prop := Keeps State.beyondAnswers buoyCounts s s'

theorem State.blk_setBlk_self (s : State) (b : Nat) (x : BuoyBlock) : (s.setBlk b x).blk b = x := (s.blk_setBlk b b x).trans (if_pos rfl)

theorem answers_bump {r : Reg} (h : r ∈ buoyCounts) (hr : r ≠ .mshTileSector) (s : State) (u k n : Nat) : Answers s (s.bump r u k n) :=
  .marks (fun _ => rfl) (.bump h hr ..)

/-- A block changed beside what waits for it and what it has forwarded. -/
theorem answers_setBlk {s : State} {b : Nat} {x : BuoyBlock} (hx : x.arrived = (s.blk b).arrived)
    (hx' : x.forwarded = (s.blk b).forwarded) : Answers s (s.setBlk b x) := by
  refine .quiet (Prod.ext rfl (funext fun c => ?_)) fun _ _ _ => rfl
  refine (congrArg (fun x : BuoyBlock => (x.arrived, x.forwarded)) (State.blk_setBlk s b c x)).trans ?_
  split
  · next h => exact h ▸ Prod.ext hx hx'
  · rfl

theorem answers_sendReply (s : State) (m : BuoyMsg) (st : BuoyStatus) : Answers s (s.sendReply m st) := by
  unfold State.sendReply
  extract_lets port f x leaves u
  exact .trans (s' := u) (answers_setBlk rfl rfl) (.quiet rfl fun _ _ _ => rfl)

theorem answers_reply (s : State) (b input : Nat) (m : BuoyMsg) (st : BuoyStatus) : Answers s (s.reply b input m st) := by
  unfold State.reply
  extract_lets u
  have hu : Answers s u := by
    simp only [u]
    split
    · exact answers_bump (by decide) (by decide) ..
    · exact .refl s
  split
  · exact hu.trans (.quiet rfl fun _ _ _ => rfl)
  · exact hu.trans (answers_sendReply ..)

theorem answers_evalWatches (s : State) (b : Nat) (changed : List Nat) (met : List BuoyMsg) (acks : List (Nat × BuoyMsg × BuoyStatus)) :
    Answers s (s.evalWatches b changed met acks) := by
  unfold State.evalWatches
  extract_lets x due u
  exact .trans (s' := u) (answers_setBlk rfl rfl) (.each _ _ (fun s e _ => answers_reply ..) u)

theorem answers_logEv (s : State) (ev : Ev) (f loc detail : Nat) : Answers s (s.logEv ev f loc detail) := .marks (fun _ => rfl) (.logEv ..)

theorem Answers.buoys {s s' : State} (h : Answers s s') : s'.buoys = s.buoys := h.eq_of State.buoys (·.1.buoys) fun _ => rfl

theorem Answers.sram {s s' : State} (h : Answers s s') : s'.sram = s.sram := h.eq_of State.sram (·.1.sram) fun _ => rfl

theorem Answers.arrived {s s' : State} (h : Answers s s') (b : Nat) : (s'.blk b).arrived = (s.blk b).arrived :=
  h.eq_of (fun s => (s.blk b).arrived) (·.2 b |>.1) fun _ => rfl

theorem Answers.forwarded {s s' : State} (h : Answers s s') (b : Nat) : (s'.blk b).forwarded = (s.blk b).forwarded :=
  h.eq_of (fun s => (s.blk b).forwarded) (·.2 b |>.2) fun _ => rfl

theorem Answers.now {s s' : State} (h : Answers s s') : s'.now = s.now := h.eq_of State.now (·.1.now) fun _ => rfl

/-- A reply is one packet more, to the tile and group of its operation. -/
theorem sendReply_packet (s : State) (m : BuoyMsg) (st : BuoyStatus) :
    ∃ q ∈ (s.sendReply m st).packets, q.dest = m.tile ∧ q.group = m.group ∧ q.status = st.code :=
  ⟨_, List.mem_append_right _ (List.mem_singleton_self _), rfl, rfl, rfl⟩

end Sys2Proof.Machine
end

section

namespace Sys2Proof.Claims

open Sys2Proof.Machine

/-- Settles O33: an operation waits at its block or leaves on the trunk, the trunk delivers, and replies reach their group. -/
theorem buoyTransportAndReplies : Obligations.BuoyTransportAndReplies := by
  refine ⟨fun s id b p m src dst at_ rest fs => ?_, fun s id p hpar => ⟨fun harr => ?_, fun harr hnot => ?_⟩⟩
  · intro f m'
    refine ⟨fun harr hfar hbuoy hres hnone => ?_, fun htrunk hup => ?_, fun hb hfwd => gives_onField hb rfl ?_⟩
    · have hfree : ((s.dropPkt id).blk (fieldOf p.at_)).far.find? (fun e => e.1 = p.src && e.2.1 = p.group) = none := by
        rw [List.find?_eq_none]
        intro e he heq
        simp only [Bool.and_eq_true, decide_eq_true_eq] at heq
        exact hnone e he (Prod.ext heq.1 heq.2)
      refine ⟨fun hblock => gives_arrived harr (by rfl) ?_, fun hblock hf => gives_arrived harr (by rfl) ?_⟩
      · simp only [hfar, hbuoy, hfree, hres, hblock, if_false, Option.map_none, Option.getD_none, Option.isSome_none, Bool.false_and,
          Bool.or_false]
        rw [if_pos (.inl trivial)]
        refine ⟨_, rfl, ?_, s.pkt_dropPkt_self id, rfl, rfl⟩
        dsimp only [f, m']
        rw [State.blk_setBlk_self, hres]
        rfl
      · simp only [hfar, hbuoy, hfree, hres, hblock, if_true, Option.isSome_none, Bool.false_and, Bool.or_false]
        rw [if_neg (by simp only [Bool.false_eq_true, or_false]; exact fun h => Nat.lt_irrefl 64 (h ▸ hf))]
        refine ⟨_, rfl, ?_, s.pkt_dropPkt_self id, rfl, rfl⟩
        dsimp only [f, m']
        rw [hblock, hres]
        rfl
    · have hnot : ¬ (dst ≠ 64 ∧ s.fieldDown dst = true) := fun h => hup.elim h.1 fun hd => Bool.false_ne_true (hd.symm.trans h.2)
      refine gives_next (x := ({ s with trunk := rest } : State).setBlk dst
        { s.blk dst with arrived := (s.blk dst).arrived ++ [(36, m)] }) ?_
        ⟨rfl, congrArg BuoyBlock.arrived (State.blk_setBlk_self ..), rfl⟩
      simp only [exec, execBuoyTrunkPacket, htrunk]
      exact if_neg hnot
    · rw [hfwd]
      have hans : Answers ((s.advanceTo (at_ + 2048)).setBlk b { (s.advanceTo (at_ + 2048)).blk b with forwarded := fs })
          ((State.unreachable ((s.advanceTo (at_ + 2048)).setBlk b { (s.advanceTo (at_ + 2048)).blk b with forwarded := fs }) b m).sendReply m
            .unreachable) :=
        (answers_logEv ..).trans (answers_sendReply ..)
      refine ⟨(hans.forwarded b).trans (congrArg BuoyBlock.forwarded (State.blk_setBlk_self ..)), ?_, hans.buoys,
        sendReply_packet ..⟩
      rw [hans.now]
      exact Nat.le_max_right ..
  · refine gives_arrived harr (by rfl) ?_
    extract_lets t u g
    have hpar' : ¬ p.parity ≠ u.parity (fieldOf t) := not_not.2 hpar
    rw [if_neg hpar']
    split
    · next hmet =>
      refine ⟨_, rfl, ?_, fun h => (h hmet).elim, ?_, rfl, rfl⟩
      · exact congrArg Machine.Group.latch (State.grp_setGrp_self ..)
      · exact (congrArg Machine.Group.pc (State.grp_setGrp_self ..)).trans rfl
    · next hmet =>
      refine ⟨_, rfl, ?_, fun _ => ?_, ?_, rfl, rfl⟩
      · exact congrArg Machine.Group.latch (State.grp_setGrp_self ..)
      · exact congrArg Tile.withhold (State.til_setTil_self ..)
      · exact (congrArg Machine.Group.pc (State.grp_setGrp_self ..)).trans rfl
  · refine gives_arrived harr (by rfl) ?_
    extract_lets t u g landing v
    have hpar' : ¬ p.parity ≠ u.parity (fieldOf t) := not_not.2 hpar
    rw [if_neg hpar']
    have hlanding : landing = false := by
      simp only [landing]
      split
      · next m hm => exact decide_eq_false (hnot m hm)
      · rfl
    have hv : v = u.setGrp t p.group { g with opsOut := g.opsOut - 1 } := by
      simp only [v, hlanding]
      rfl
    rw [hv]
    split
    · refine ⟨_, rfl, ?_, fun _ => ?_, rfl, rfl⟩
      · exact congrArg Machine.Group.opsOut (State.grp_setGrp_self ..)
      · exact congrArg Tile.withhold (State.til_setTil_self ..)
    · next hst =>
      refine ⟨_, rfl, ?_, fun h => (hst h).elim, rfl, rfl⟩
      exact congrArg Machine.Group.opsOut (State.grp_setGrp_self ..)

end Sys2Proof.Claims
end

section
/-! SUPPORT. A buoy's count put, and what a block does in an application cycle. -/

namespace Sys2Proof.Machine

open Sys2Proof.Claims

/-- A count put is its buoy's count; registers count the saturation and nothing else changes. -/
theorem putCount_spec (s : State) (b i : Nat) (r : Nat × Bool) :
    ∃ x : Buoy, x.count = r.1 ∧ Marks buoyCounts (s.setBuoy b i x) (s.putCount b i r) := by
  unfold State.putCount
  extract_lets x u v
  refine ⟨_, ?_, (?_ : Marks _ u _)⟩
  · rfl
  · split
    · have hv : Marks buoyCounts u v := by
        refine .trans (.trans (s' := u.bump .buyCountSaturate b 0 1) (.bump (by decide) (by decide) ..) ?_)
          (.hset (f := F.buyStatus_saturated) (by decide) (by decide) ..)
        exact ⟨rfl, fun _ _ _ _ => rfl⟩
      split
      · exact hv
      · exact hv.trans (.logEv ..)
    · exact .refl u

/-- Finding an error leaves the count, the registers and the SRAM. -/
theorem findBroken_spec (s : State) (b i : Nat) :
    ((s.findBroken b i).buoy b i).count = (s.buoy b i).count ∧ (∀ r u k, (s.findBroken b i).rd r u k = s.rd r u k) ∧
      (s.findBroken b i).sram = s.sram := by
  unfold State.findBroken
  split
  · obtain ⟨r, o, w, h⟩ := State.logEv_spec (s.setBuoy b i { s.buoy b i with broken := false, poison := true }) evBuoyPoison b (b * 1024 + i) 0
    rw [h]
    refine ⟨?_, fun _ _ _ => rfl, rfl⟩
    exact (congrArg Buoy.count ((State.buoy_setBuoy s b i b i _).trans (if_pos rfl))).trans rfl
  · exact ⟨rfl, fun _ _ _ => rfl, rfl⟩

theorem Answers.buoy {s s' : State} (h : Answers s s') (b i : Nat) : s'.buoy b i = s.buoy b i := by
  rw [State.buoy, h.buoys, State.buoy]

/-- The count of a Keeper operation `op`: 0 adds, 1 sets, another clears. -/
def kopCount (k old v op : Nat) : Nat × Bool :=
  match op with
  | 0 => combineCount k old false true [toSigned 24 v] none
  | 1 => combineCount k old false true [] (some v)
  | _ => combineCount k old true true [] none

/-- A Keeper's operation on a buoy that its block has. -/
theorem keeperOp_spec (s : State) (n b i op : Nat) (hi : i < if b = 64 then 256 else 1024) :
    let s' := s.keeperOp (.keeper n) b i op
    (s'.buoy b i).count = (kopCount (s.buoyKind b i) (s.buoy b i).count (s.gf F.buyKopArg_operand b) op).1 ∧
      (op ≠ 0 → (s'.buoy b i).poison = false) ∧ s'.sram = s.sram := by
  intro s'
  obtain ⟨u, hbuoy, hsram, hpoison, hans⟩ : ∃ u : State,
      (u.buoy b i).count = (kopCount (s.buoyKind b i) (s.buoy b i).count (s.gf F.buyKopArg_operand b) op).1 ∧
      u.sram = s.sram ∧ (op ≠ 0 → (u.buoy b i).poison = false) ∧ Answers u s' := by
    simp only [s']
    unfold State.keeperOp
    extract_lets ok x u v old k r w w' z
    obtain ⟨hcount, hrd, hsram⟩ := findBroken_spec (s.setBlk b { x with applied := max s.now x.applied + s.blockTicks b 1 }) b i
    have hgf (f : RegField) (c j : Nat) : u.gf f c j = s.gf f c j := congrArg (fun w : BitVec 64 => bits w.toNat f.hi f.lo) (hrd ..)
    have hr : r = kopCount (s.buoyKind b i) (s.buoy b i).count (s.gf F.buyKopArg_operand b) op := by
      have hold : old = (s.buoy b i).count := hcount
      have hk : k = s.buoyKind b i := hgf ..
      have hv : v = s.gf F.buyKopArg_operand b := hgf ..
      rw [← hold, ← hk, ← hv]
      rfl
    obtain ⟨y, hy, hmarks⟩ := putCount_spec u b i r
    have hw : Marks buoyCounts (u.setBuoy b i y) w := hmarks.trans (.bump (by decide) (by decide) ..)
    have hw' : w' = y := (hw.beyond_eq (State.buoy · b i) fun _ => rfl).trans ((State.buoy_setBuoy ..).trans (if_pos rfl))
    have hwsram : w.sram = s.sram := (hw.beyond_eq State.sram fun _ => rfl).trans hsram
    have hz : (z.buoy b i).count = r.1 ∧ (op ≠ 0 → (z.buoy b i).poison = false) ∧ z.sram = s.sram := by
      simp only [z]
      split
      · next hop => exact ⟨(congrArg Buoy.count hw').trans hy, fun h => (h hop).elim, hwsram⟩
      · refine ⟨?_, fun _ => ?_, hwsram⟩
        · exact (congrArg Buoy.count ((State.buoy_setBuoy ..).trans (if_pos rfl))).trans ((congrArg Buoy.count hw').trans hy)
        · exact congrArg Buoy.poison ((State.buoy_setBuoy ..).trans (if_pos rfl))
    have hok : ok = true := by simp only [ok, Bool.true_and, decide_eq_true hi]
    rw [if_neg (by simp [hok])]
    refine ⟨z, hr ▸ hz.1, hz.2.2, hz.2.1, ?_⟩
    split
    · exact .refl z
    · exact answers_evalWatches ..
  exact ⟨(congrArg Buoy.count (hans.buoy b i)).trans hbuoy, fun h => (congrArg Buoy.poison (hans.buoy b i)).trans (hpoison h),
    hans.sram.trans hsram⟩

end Sys2Proof.Machine
end

section

namespace Sys2Proof.Claims

open Sys2Proof.Machine

/-- An operation of one who has not the right is refused. -/
theorem keeperOp_of_not_right {s : State} {req : Requester} {b : Nat} (hreq : ∀ m, req ≠ .keeper m) (hright : s.right req 1 b = false)
    (i op : Nat) : s.keeperOp req b i op = s.refuse b req (if b = 64 then 0x40008 else fieldWin b 0x90008) := by
  unfold State.keeperOp
  refine if_pos ?_
  cases req with
  | keeper m => exact (hreq m rfl).elim
  | _ => rw [hright, Bool.false_and]

/-- Settles O35: each of the three operations is the Keeper's operation on its buoy. -/
theorem keeperBuoyOperations : Obligations.KeeperBuoyOperations := by
  intro s n b i req hb hi v old k
  refine ⟨gives_onUnit hb rfl ?_, gives_onUnit hb rfl ?_, gives_onUnit hb rfl ?_, fun hreq hright => gives_onUnit hb rfl ?_⟩
  · obtain ⟨hcount, -, hsram⟩ := keeperOp_spec s n b i 0 hi
    exact ⟨hcount, hsram⟩
  · obtain ⟨hcount, hpoison, hsram⟩ := keeperOp_spec s n b i 1 hi
    exact ⟨hcount, hpoison (by decide), hsram⟩
  · obtain ⟨hcount, hpoison, hsram⟩ := keeperOp_spec s n b i 2 hi
    exact ⟨hcount, hpoison (by decide), hsram⟩
  · rw [keeperOp_of_not_right hreq hright]
    exact State.refuse_buoys ..

end Sys2Proof.Claims
end

section

namespace Sys2Proof.Claims

open Sys2Proof.Machine

theorem firstOfInputs_singleton (e : Nat × BuoyMsg) : firstOfInputs [e] = [e] := by
  simp [firstOfInputs, List.eraseDups_cons]

/-- The one operation that waits is ripe at its block's next application cycle. -/
theorem ripe_nextApply {s : State} {b : Nat} {e : Nat × BuoyMsg} (h : (s.blk b).arrived = [e]) : (s.blk b).ripe (s.nextApply b) e = true := by
  unfold BuoyBlock.ripe
  split
  · next d hd =>
    refine decide_eq_true ?_
    unfold State.nextApply
    simp only [h, firstOfInputs_singleton, hd, List.foldl_nil]
    exact Nat.le_max_right ..
  · rfl

/-- Settles O34: of the one operation that waits, an application cycle makes one late count or one combined count. -/
theorem buoyApplies : Obligations.BuoyApplies := by
  intro s b input m hb hlit harr hop
  have hrun : ¬ ((b < 64 ∧ (s.fld b).fogged = true) ∨ (s.blk b).arrived = []) := by
    rintro (⟨hlt, hfog⟩ | h)
    · exact Bool.false_ne_true ((hlit hlt).symm.trans hfog)
    · rw [harr] at h
      cases h
  have hwatch : m.isWatch = false := by
    obtain h | h | h := hop <;> simp [BuoyMsg.isWatch, h]
  refine ⟨fun hlate hbad => gives_onUnit hb rfl ?_, fun hlate => gives_onUnit hb rfl ?_⟩
  all_goals
    rw [if_neg hrun]
    extract_lets t u x now late rest bad good ops v w y idx old z z' acks new met z''
    have hx : x.arrived = [(input, m)] := harr
    have hnow : now = [(input, m)] := by
      have hripe : x.ripe t (input, m) = true := ripe_nextApply harr
      simp only [now, hx, firstOfInputs_singleton]
      exact List.filter_eq_self.2 fun e he => List.mem_singleton.1 he ▸ hripe
    have hvarr : (v.blk b).arrived = [] := by
      refine (congrArg BuoyBlock.arrived (State.blk_setBlk_self ..)).trans ?_
      rw [hx, hnow]
      simp [restOfInputs]
  · have hlate0 : late = [] := by
      rw [show late = now.filter (fun e => s.buoyLate b e.2) from rfl, hnow]
      simp [hlate]
    have hrest : rest = [(input, m)] := by
      rw [show rest = now.filter (fun e => !s.buoyLate b e.2) from rfl, hnow]
      simp [hlate]
    have hbad0 : bad = [] := by
      rw [show bad = rest.filter (fun e => s.buoyBad b e.2) from rfl, hrest]
      simp [hbad]
    have hgood : good = [(input, m)] := by
      rw [show good = rest.filter (fun e => !s.buoyBad b e.2) from rfl, hrest]
      simp [hbad]
    have hops : ops = [(input, m)] := by simp [ops, hgood, hwatch]
    have hnew : new = [] := by simp [new, hgood, hwatch]
    have hy : y = v := by
      simp only [y, w, hlate0, hbad0]
      rfl
    have hidx : idx = [m.index] := by simp [idx, hops, List.eraseDups_cons]
    have hz : z = v.putCount b m.index (combineCount (s.buoyKind b m.index) (s.buoy b m.index).count (decide (m.op = .clear)) false
        (if m.op = .add then [toSigned 24 m.operand] else []) (if m.op = .set then some m.operand else none)) := by
      refine (congrArg (y.each · _) hidx).trans ?_
      rw [hy]
      show v.putCount b m.index (combineCount (s.buoyKind b m.index) (s.buoy b m.index).count _ false _ _) = _
      rw [hops]
      obtain h | h | h := hop <;> simp [h]
    have hans : Answers z z'' := ((answers_bump (by decide) (by decide) ..).trans (answers_bump (by decide) (by decide) ..)).trans
      (answers_evalWatches ..)
    rw [hnew, List.filter_nil, State.each, List.foldl_nil]
    obtain ⟨c, hc, hmarks⟩ := putCount_spec v b m.index (combineCount (s.buoyKind b m.index) (s.buoy b m.index).count
      (decide (m.op = .clear)) false (if m.op = .add then [toSigned 24 m.operand] else []) (if m.op = .set then some m.operand else none))
    rw [← hz] at hmarks
    have hbuoy (b' i' : Nat) : z''.buoy b' i' = if (b', i') = (b, m.index) then c else s.buoy b' i' :=
      (hans.buoy b' i').trans ((hmarks.beyond_eq (State.buoy · b' i') fun _ => rfl).trans (State.buoy_setBuoy ..))
    refine ⟨(congrArg Buoy.count ((hbuoy ..).trans (if_pos rfl))).trans hc, fun b' i' hne => (hbuoy b' i').trans (if_neg hne), ?_, ?_, ?_⟩
    · exact (hans.arrived b).trans ((hmarks.beyond_eq (fun s => (s.blk b).arrived) fun _ => rfl).trans hvarr)
    · exact hans.sram.trans (hmarks.beyond_eq State.sram fun _ => rfl)
    · exact (hans.eq_of State.groups (·.1.groups) fun _ => rfl).trans (hmarks.beyond_eq State.groups fun _ => rfl)
  · have hlate1 : late = [(input, m)] := by
      rw [show late = now.filter (fun e => s.buoyLate b e.2) from rfl, hnow]
      simp [hlate]
    have hrest : rest = [] := by
      rw [show rest = now.filter (fun e => !s.buoyLate b e.2) from rfl, hnow]
      simp [hlate]
    have hbad0 : bad = [] := by simp [bad, hrest]
    have hgood : good = [] := by simp [good, hrest]
    have hops : ops = [] := by simp [ops, hgood]
    have hnew : new = [] := by simp [new, hgood]
    have hidx : idx = [] := by simp [idx, hops]
    have hz : z = (v.bump .buyCountLate b 0 1).hset F.buyStatus_late b 0 := by
      simp only [z, y, w, hidx, hbad0, hlate1]
      rfl
    have hans : Answers (v.bump .buyCountLate b 0 1) z'' := by
      refine .trans (s' := z) ?_ (((answers_bump (by decide) (by decide) ..).trans (answers_bump (by decide) (by decide) ..)).trans
        (answers_evalWatches ..))
      rw [hz]
      exact .marks (fun _ => rfl) (.hset (f := F.buyStatus_late) (by decide) (by decide) ..)
    rw [hnew, List.filter_nil, State.each, List.foldl_nil]
    refine ⟨hans.buoys, (hans.arrived b).trans hvarr, ?_, hans.sram⟩
    exact (hans.regs .buyCountLate b 0 (by decide)).trans (State.rd_wr_self ..)

end Sys2Proof.Claims
end

section
/-! SUPPORT. Firings of a steering unit: what each part of a firing does to the queues of its tile, to packets and to the rest. -/

namespace Sys2Proof.Machine

open Sys2Proof.Claims

/-- The queues of a tile's slots, each word with its tail mark. -/
def State.shown (s : State) (t j : Nat) : List (Word × Bool) := (s.slot t j).queue.map QWord.shown

/-- What a firing leaves but for the state of its rule. -/
def State.firingLook (s : State) : Smap (Nat × Nat) Group × Smap (Nat × Nat) RuleSt × State :=
  (s.groups, s.rules, { s.beyondMarks with
    groups := [], rules := [], slots := [], tiles := [], packets := [], nextPkt := 0, tagMsgs := [] })

/-- The counters and flags that the parts of a firing write. -/
def fireCounts : List Reg := [.chnCountStallRecv, .chnSlotStatus, .chnCountDiscard, .chnCountWords, .chnCountItems, .tilCountEccCorr,
  .strCountStallOut, .strCountStallPath, .strCountFire, .strStatus, .sptStatus, .sptCountConflict]

/-- The packet is in the mesh, no credit shares its number, and every packet's number is below the next. -/
structure Stands (s : State) (p : Packet) : Prop where
  mem : p ∈ s.packets
  only : ∀ q ∈ s.packets, q.id = p.id → q.ty = .item
  below : ∀ q ∈ s.packets, q.id < s.nextPkt

/-- Items sent stand, and packet numbers stay below the next. -/
structure Persists (s s' : State) : Prop where
  below : (∀ q ∈ s.packets, q.id < s.nextPkt) → ∀ q ∈ s'.packets, q.id < s'.nextPkt
  stands : ∀ p, Stands s p → Stands s' p

/-- A part of a firing: it changes the tile's queues by `g`, writes the registers listed, and keeps the items sent. -/
structure Moves (rs : List Reg) (t : Nat) (g : (Nat → List (Word × Bool)) → Nat → List (Word × Bool)) (s s' : State) : Prop where
  keeps : Keeps State.firingLook rs s s'
  queues : s'.shown t = g (s.shown t)
  pkts : Persists s s'

theorem persists_of_eq {s s' : State} (h : s'.packets = s.packets) (hn : s'.nextPkt = s.nextPkt) : Persists s s' where
  below hb := by rwa [h, hn]
  stands p hp := ⟨h ▸ hp.mem, h ▸ hp.only, by rw [h, hn]; exact hp.below⟩

theorem Persists.trans {s s' s'' : State} (h : Persists s s') (h' : Persists s' s'') : Persists s s'' :=
  ⟨fun hb => h'.below (h.below hb), fun p hp => h'.stands p (h.stands p hp)⟩

/-- A packet added gets the next number. -/
theorem persists_addPkt (s : State) (p : Packet) : Persists s (s.addPkt p) where
  below hb q hq := by
    obtain hq | hq := List.mem_append.1 hq
    · exact Nat.lt_succ_of_lt (hb q hq)
    · rw [List.mem_singleton.1 hq]
      exact Nat.lt_succ_self _
  stands p' hp' := by
    refine ⟨List.mem_append_left _ hp'.mem, fun q hq hid => ?_, fun q hq => ?_⟩
    · obtain hq | hq := List.mem_append.1 hq
      · exact hp'.only q hq hid
      · rw [List.mem_singleton.1 hq] at hid
        exact absurd (hp'.below p' hp'.mem) (Nat.not_lt.2 (Nat.le_of_eq hid))
    · obtain hq | hq := List.mem_append.1 hq
      · exact Nat.lt_succ_of_lt (hp'.below q hq)
      · rw [List.mem_singleton.1 hq]
        exact Nat.lt_succ_self _

/-- A credit rewritten is no item. -/
theorem persists_setPkt {s : State} {q q' : Packet} (hq : q ∈ s.packets) (hty : q.ty = .credit) (hid : q'.id = q.id) :
    Persists s (s.setPkt q') := by
  have hback {r : Packet} (hr : r ∈ (s.setPkt q').packets) : ∃ r' ∈ s.packets, r'.id = r.id ∧ (r.id ≠ q.id → r' = r) := by
    obtain ⟨r', hr', rfl⟩ := List.mem_map.1 hr
    split
    · next h => exact ⟨r', hr', h, fun hne => (hne hid).elim⟩
    · exact ⟨r', hr', rfl, fun _ => rfl⟩
  have hbelow (hb : ∀ r ∈ s.packets, r.id < s.nextPkt) : ∀ r ∈ (s.setPkt q').packets, r.id < (s.setPkt q').nextPkt := by
    intro r hr
    obtain ⟨r', hr', hrid, -⟩ := hback hr
    exact hrid ▸ hb r' hr'
  refine ⟨hbelow, fun p hp => ?_⟩
  have hne : p.id ≠ q.id := fun h => PType.noConfusion ((hp.only q hq h.symm).symm.trans hty)
  refine ⟨List.mem_map.2 ⟨p, hp.mem, if_neg fun h => hne (h.trans hid)⟩, fun r hr hrid => ?_, hbelow hp.below⟩
  obtain ⟨r', hr', hrid', hsame⟩ := hback hr
  rw [← hsame (hrid ▸ hne)]
  exact hp.only r' hr' (hrid'.trans hrid)

namespace Moves
variable {rs : List Reg} {t : Nat} {g g' : (Nat → List (Word × Bool)) → Nat → List (Word × Bool)} {s s' s'' : State}

theorem refl (s : State) : Moves rs t id s s := ⟨.refl s, rfl, persists_of_eq rfl rfl⟩

theorem trans (h : Moves rs t g s s') (h' : Moves rs t g' s' s'') : Moves rs t (g' ∘ g) s s'' :=
  ⟨h.keeps.trans h'.keeps, h'.queues.trans (congrArg g' h.queues), h.pkts.trans h'.pkts⟩

/-- Another account of what becomes of the queues. -/
theorem congr (h : Moves rs t g s s') (hg : g (s.shown t) = g' (s.shown t)) : Moves rs t g' s s' :=
  ⟨h.keeps, h.queues.trans hg, h.pkts⟩

theorem still (h : Moves rs t id s s') (h' : Moves rs t id s' s'') : Moves rs t id s s'' := h.trans h'

theorem andStill (h : Moves rs t g s s') (h' : Moves rs t id s' s'') : Moves rs t g s s'' := h.trans h'

theorem each {α : Type} (f : State → α → State) (l : List α) (hf : ∀ s, ∀ a ∈ l, Moves rs t id s (f s a)) (s : State) :
    Moves rs t id s (s.each l f) :=
  State.each_keeps (Moves rs t id) refl (fun _ _ _ => still) f l hf s

theorem mono {rs' : List Reg} (h : Moves rs t g s s') (hsub : ∀ r ∈ rs, r ∈ rs') : Moves rs' t g s s' :=
  ⟨h.keeps.mono hsub, h.queues, h.pkts⟩

/-- Registers written and events logged. -/
theorem marks (h : Marks rs s s') : Moves rs t id s s' where
  keeps := .marks (fun _ => rfl) h
  queues := h.beyond_eq (State.shown · t) fun _ => rfl
  pkts := persists_of_eq (h.beyond_eq State.packets fun _ => rfl) (h.beyond_eq State.nextPkt fun _ => rfl)

theorem bump {r : Reg} (h : r ∈ rs) (hr : r ≠ .mshTileSector) (s : State) (u k n : Nat) : Moves rs t id s (s.bump r u k n) :=
  .marks (.bump h hr ..)

theorem hset {f : RegField} (h : f.reg ∈ rs) (hr : f.reg ≠ .mshTileSector) (s : State) (u k : Nat) : Moves rs t id s (s.hset f u k) :=
  .marks (.hset h hr ..)

/-- Nothing that is looked at is touched. -/
theorem quiet (hlook : s'.firingLook = s.firingLook) (hregs : ∀ r u k, s'.rd r u k = s.rd r u k) (hslots : s'.shown t = s.shown t)
    (hpkts : s'.packets = s.packets) (hnext : s'.nextPkt = s.nextPkt) : Moves rs t id s s' :=
  ⟨.quiet hlook hregs, hslots, persists_of_eq hpkts hnext⟩

/-- A slot changed. -/
theorem setSlot (s : State) (k : Nat) (x : Slot) :
    Moves rs t (Function.update · k (x.queue.map QWord.shown)) s (s.setSlot t k x) where
  keeps := .quiet rfl fun _ _ _ => rfl
  queues := by
    funext j
    rw [Function.update_apply, State.shown, State.slot_setSlot]
    by_cases h : j = k
    · rw [if_pos h, if_pos (by rw [h])]
    · rw [if_neg h, if_neg (by simp [h])]
      rfl
  pkts := persists_of_eq rfl rfl

/-- A slot changed beside its queue. -/
theorem setSlot_still {k : Nat} {x : Slot} (hx : x.queue = (s.slot t k).queue) : Moves rs t id s (s.setSlot t k x) := by
  obtain ⟨hkeeps, hqueues, hpkts⟩ := setSlot (rs := rs) (t := t) s k x
  refine ⟨hkeeps, hqueues.trans ?_, hpkts⟩
  rw [hx]
  exact Function.update_eq_self k (s.shown t)

theorem setQueue (s : State) (k c : Nat) (q : List QWord) :
    Moves fireCounts t (Function.update · k (q.map QWord.shown)) s (s.setQueue t k c q) := by
  unfold State.setQueue
  extract_lets x gain log full u
  have hu : Moves fireCounts t id s u := by
    simp only [u]
    split
    · split
      · exact .refl s
      · exact .bump (by decide) (by decide) ..
    · exact .refl s
  exact (hu.trans (.setSlot u k _)).congr rfl

theorem withhold (s : State) (a : Nat) : Moves rs t id s (s.withhold a) := .quiet rfl (fun _ _ _ => rfl) rfl rfl rfl

theorem logEv (s : State) (ev : Ev) (f loc detail : Nat) : Moves rs t id s (s.logEv ev f loc detail) := .marks (.logEv ..)

theorem poolRead (s : State) (k : Nat) (ws : List QWord) : Moves fireCounts t id s (s.poolRead t k ws) := by
  have hecc : Moves fireCounts t id s (s.poolEcc t ws) := by
    unfold State.poolEcc
    split
    · exact .bump (by decide) (by decide) ..
    · exact .refl s
  refine hecc.still (.each _ _ (fun s w _ => ?_) _)
  exact ((hset (f := F.chnSlotStatus_poison) (by decide) (by decide) s t k).still (.withhold _ t)).still (.logEv ..)

theorem returnCredit (s : State) (k src sslot didx n c : Nat) : Moves rs t id s (s.returnCredit t k src sslot didx n c) := by
  unfold State.returnCredit
  simp only
  split
  · exact .refl s
  · split
    · next q hq =>
      have hcredit := List.find?_some hq
      simp only [Bool.and_eq_true, decide_eq_true_eq] at hcredit
      exact ⟨.quiet rfl fun _ _ _ => rfl, rfl, persists_setPkt (List.mem_of_find?_eq_some hq) hcredit.1.1 rfl⟩
    · exact ⟨.quiet rfl fun _ _ _ => rfl, rfl, persists_addPkt ..⟩

theorem creditWords (s : State) (k c : Nat) (ws : List QWord) : Moves rs t id s (s.creditWords t k c ws) :=
  .each _ _ (fun _ _ _ => .returnCredit ..) s

/-- Words at the head of a queue popped, or discarded. -/
def dropHead (k n : Nat) (q : Nat → List (Word × Bool)) : Nat → List (Word × Bool) := Function.update q k ((q k).drop n)

/-- Words of one cycle popped: the step of `State.popWords`. -/
def popFlit (s : State) (t k c n j : Nat) : State :=
  let q := (s.slot t k).queue
  let m := min 4 (n - 4 * j)
  let cj := s.after t c j
  ((s.setQueue t k cj (q.drop m)).creditWords t k cj (q.take m)).poolRead t k (q.take m)

theorem moves_popFlit (s : State) (k c n j : Nat) : Moves fireCounts t (dropHead k (min 4 (n - 4 * j))) s (popFlit s t k c n j) := by
  unfold popFlit
  extract_lets q m cj
  refine (((setQueue s k cj (q.drop m)).trans (creditWords (t := t) _ k cj (q.take m))).trans (poolRead (t := t) _ k (q.take m))).congr ?_
  rw [Function.id_comp, Function.id_comp, List.map_drop]
  rfl

theorem popFlits (s : State) (k c n i : Nat) :
    Moves fireCounts t (dropHead k (min n (4 * i))) s (s.each (List.range i) fun s j => popFlit s t k c n j) := by
  induction i with
  | zero =>
    refine (refl s).congr ?_
    rw [Nat.mul_zero, Nat.min_zero, dropHead, List.drop_zero, Function.update_eq_self]
    rfl
  | succ i ih =>
    rw [List.range_succ, State.each_concat]
    refine (ih.trans (moves_popFlit ..)).congr ?_
    simp only [Function.comp, dropHead, Function.update_self, Function.update_idem, List.drop_drop]
    congr 2
    omega

theorem popWords (s : State) (k c n : Nat) : Moves fireCounts t (dropHead k n) s (s.popWords t k c n) := by
  have h := popFlits (t := t) s k c n (ceilDiv n 4)
  rwa [Nat.min_eq_left (ceilDiv_mul_ge n)] at h

/-- An item discarded: a part of a firing, and a count. -/
theorem discardItem (s : State) (k r c n : Nat) :
    ∃ u, Moves fireCounts t (dropHead k n) s u ∧ s.discardItem t k r c n = u.bump .strCountDiscard t r 1 := by
  refine ⟨_, ?_, rfl⟩
  refine ((((setQueue s k c _).trans (creditWords (t := t) _ k c _)).trans (bump (by decide) (by decide) _ t k _)).trans
    (poolRead (t := t) _ k _)).congr ?_
  simp only [Function.id_comp, List.map_drop]
  rfl

theorem countStall (s : State) (r b : Nat) : Moves fireCounts t id s (s.countStall t r b) := by
  unfold State.countStall
  split
  · exact .refl s
  · extract_lets y a cs short held u
    have hu : Moves fireCounts t id s u := by
      simp only [u]
      split
      · exact .refl s
      · exact .bump (by decide) (by decide) ..
    split
    · exact hu
    · exact hu.still (.bump (by decide) (by decide) ..)

theorem conflict (s : State) (a b c : Nat) : Moves fireCounts t id s (s.conflict t 0 a b c) := by
  unfold State.conflict
  extract_lets u v w
  have hu : Moves fireCounts t id s u := .quiet rfl (fun _ _ _ => rfl) rfl rfl rfl
  exact ((hu.still (.hset (f := F.sptStatus_conflict) (by decide) (by decide) ..)).still (.bump (by decide) (by decide) ..)).still (.logEv ..)

theorem steerFault (s : State) (r bit : Nat) : Moves fireCounts t id s (s.steerFault t r bit) := by
  unfold State.steerFault
  extract_lets f
  have hf : f.reg = .strStatus := by
    simp only [f]
    split <;> rfl
  exact ((hset (by rw [hf]; decide) (by rw [hf]; decide) ..).still (.logEv ..)).still (.withhold ..)

/-- Words joined to a queue. -/
def addTail (k : Nat) (ws : List (Word × Bool)) (q : Nat → List (Word × Bool)) : Nat → List (Word × Bool) := Function.update q k (q k ++ ws)

theorem pushFlit (s : State) (k c : Nat) (qs : List QWord) (j : Nat) :
    Moves fireCounts t (addTail k (((qs.drop (4 * j)).take 4).map QWord.shown)) s (s.pushFlit t k c qs j) := by
  unfold State.pushFlit
  extract_lets cj ws
  refine (andStill (setQueue s k cj ((s.slot t k).queue ++ ws)) ?_).congr (g' := addTail k _) ?_
  · exact setSlot_still rfl
  have hshown : ws.map QWord.shown = ((qs.drop (4 * j)).take 4).map QWord.shown := List.map_map ..
  rw [List.map_append, hshown]
  rfl

theorem pushFlits (s : State) (k c : Nat) (qs : List QWord) (n : Nat) :
    Moves fireCounts t (addTail k ((qs.take (4 * n)).map QWord.shown)) s (s.each (List.range n) fun s j => s.pushFlit t k c qs j) := by
  induction n with
  | zero =>
    refine (refl s).congr ?_
    rw [Nat.mul_zero, List.take_zero, List.map_nil, addTail, List.append_nil, Function.update_eq_self]
    rfl
  | succ n ih =>
    rw [List.range_succ, State.each_concat]
    refine (ih.trans (pushFlit ..)).congr ?_
    simp only [Function.comp, addTail, Function.update_self, Function.update_idem, List.append_assoc]
    rw [← List.map_append, Nat.mul_succ, List.take_add]

theorem pushQueue (s : State) (k c : Nat) (qs : List QWord) : Moves fireCounts t (addTail k (qs.map QWord.shown)) s (s.pushQueue t k c qs) := by
  have h := pushFlits (t := t) s k c qs (ceilDiv qs.length 4)
  rwa [List.take_of_length_le (ceilDiv_mul_ge _)] at h

/-- A word as its item moves it: its value, and whether it is the last of `n`. -/
def itemShown (ws : List QWord) : List (Word × Bool) :=
  ((List.range ws.length).zip ws).map fun e => (e.2.value, decide (e.1 + 1 = ws.length))

theorem emitLocal {s : State} {k : Nat} {mark : Marker} {ws : List QWord} (hdrain : s.drainDiscards t k (s.sectorOf t) = false)
    (hland : s.gf F.chnSlotCfg_landing t k = 1 → s.landFails t k 0 ws.length mark = false) (c : Nat) (token : Option (Nat × Nat)) :
    Moves fireCounts t (addTail k (itemShown ws)) s (s.emitLocal t k c mark token ws) := by
  unfold State.emitLocal
  extract_lets n lands vs u qs v y
  rw [if_neg (ne_true_of_eq_false hdrain), if_neg (fun h => Bool.false_ne_true ((hland h.1).symm.trans h.2))]
  have hv : Moves fireCounts t (addTail k (itemShown ws)) s v := by
    refine (((pushQueue s k c qs).trans (bump (by decide) (by decide) _ t k n)).trans (bump (by decide) (by decide) _ t k 1)).congr ?_
    rw [Function.id_comp, Function.id_comp, itemShown, List.map_map]
    rfl
  split
  · refine hv.andStill ?_
    exact .quiet rfl (fun _ _ _ => rfl) rfl rfl rfl
  · exact hv

/-- An item buffered is a packet that stands. -/
theorem bufferItem (s : State) (k g c : Nat) (mark : Marker) (ws : List TWord) (since : Nat) (token : Option (Nat × Nat)) :
    Moves rs t id s (s.bufferItem t k g c 0 mark ws since token) ∧
      ((∀ q ∈ s.packets, q.id < s.nextPkt) → ∃ p, Stands (s.bufferItem t k g c 0 mark ws since token) p ∧ p.ty = .item ∧ p.st = .buffered ∧
        p.src = t ∧ p.sslot = k - 16 ∧ p.dest = s.gf F.chnSlotDest_tile t k ∧ p.mark = mark ∧ p.body = ws) := by
  unfold State.bufferItem
  extract_lets u id' v x
  have hu : Moves rs t id s u := setSlot_still rfl
  have hv : Moves rs t id u v := ⟨.quiet rfl fun _ _ _ => rfl, rfl, persists_addPkt ..⟩
  refine ⟨(hu.still hv).still (setSlot_still rfl), fun hbelow => ⟨_, ⟨List.mem_append_right _ (List.mem_singleton_self _), ?_, ?_⟩,
    rfl, rfl, rfl, rfl, rfl, rfl, rfl⟩⟩
  · intro q hq hid
    obtain hq | hq := List.mem_append.1 hq
    · exact absurd (hbelow q hq) (Nat.not_lt.2 (Nat.le_of_eq hid.symm))
    · rw [List.mem_singleton.1 hq]
  · exact (persists_addPkt u _).below hbelow

/-- What decides whether an in-slot discards is as it was. -/
theorem drainDiscards_eq (h : Moves fireCounts t g s s') (k sec : Nat) : s'.drainDiscards t k sec = s.drainDiscards t k sec := by
  have hfld (f : Nat) : s'.fld f = s.fld f := h.keeps.eq_of (State.fld · f) (fun l => l.2.2.fld f) fun _ => rfl
  have hgf {f : RegField} (hf : f.reg ∉ fireCounts) (u j : Nat) : s'.gf f u j = s.gf f u j := h.keeps.gf_eq hf ..
  have hflag {f : RegField} (hf : f.reg ∉ fireCounts) (u j : Nat) : s'.flag f u j = s.flag f u j := h.keeps.flag_eq hf ..
  simp only [State.drainDiscards, State.isDraining, State.isQuiesced, State.feedsControl, State.sectorOf, hfld,
    hgf (f := F.mshTileSector_sector) (by decide), hgf (f := F.chnSlotCfg_landing) (by decide),
    hgf (f := F.chnSlotCfg_port) (by decide), hgf (f := F.strRule_ctl) (by decide), hflag (f := F.strRule_enable) (by decide),
    hflag (f := F.strRule_ctl_en) (by decide)]
  rfl

/-- Whether a landing fails its window is as it was. -/
theorem landFails_eq (h : Moves fireCounts t g s s') (k addr n : Nat) (mark : Marker) :
    s'.landFails t k addr n mark = s.landFails t k addr n mark := by
  simp only [State.landFails, h.keeps.gf_eq (f := F.chnSlotWindow_start) (by decide), h.keeps.gf_eq (f := F.chnSlotWindow_end) (by decide)]

end Moves

/-- Whether the words of an item may be pushed into an output slot, where that is a LOCAL in-slot. -/
def Admits (s : State) (t n : Nat) (mark : Marker) (o : Nat) : Prop :=
  o < 16 → s.drainDiscards t o (s.sectorOf t) = false ∧ (s.gf F.chnSlotCfg_landing t o = 1 → s.landFails t o 0 n mark = false)

theorem Moves.admits {t : Nat} {g : (Nat → List (Word × Bool)) → Nat → List (Word × Bool)} {s s' : State} (h : Moves fireCounts t g s s')
    {n o : Nat} {mark : Marker} (ha : Admits s t n mark o) : Admits s' t n mark o := by
  intro ho
  obtain ⟨hdrain, hland⟩ := ha ho
  refine ⟨?_, fun hl => ?_⟩
  · rw [h.drainDiscards_eq, State.sectorOf, h.keeps.gf_eq (by decide)]
    exact hdrain
  · rw [h.landFails_eq]
    exact hland ((h.keeps.gf_eq (by decide) ..).symm.trans hl)

/-- The packet that an item leaves in the send buffer of out-slot `o`. -/
structure Emitted (s : State) (t : Nat) (mark : Marker) (item : List QWord) (o : Nat) (p : Packet) : Prop where
  ty : p.ty = .item
  st : p.st = .buffered
  src : p.src = t
  sslot : p.sslot = o - 16
  dest : p.dest = s.gf F.chnSlotDest_tile t o
  mark : p.mark = mark
  body : p.body.map (·.w) = item.map QWord.value

/-- An item pushed into the LOCAL in-slots among its outputs. -/
def pushAll (outs : List Nat) (ws : List (Word × Bool)) (q : Nat → List (Word × Bool)) (j : Nat) : List (Word × Bool) :=
  if j ∈ outs ∧ j < 16 then q j ++ ws else q j

theorem emit_spec {s : State} {t o : Nat} {mark : Marker} {item : List QWord} (ha : Admits s t item.length mark o) (c last : Nat)
    (token : Option (Nat × Nat)) :
    Moves fireCounts t (pushAll [o] (Moves.itemShown item)) s (s.emit t o c last mark token item) ∧
      (16 ≤ o → (∀ q ∈ s.packets, q.id < s.nextPkt) → ∃ p, Stands (s.emit t o c last mark token item) p ∧ Emitted s t mark item o p) := by
  unfold State.emit
  split
  · next ho =>
    refine ⟨(Moves.emitLocal (ha ho).1 (ha ho).2 c token).congr ?_, fun h => (Nat.not_le.2 ho h).elim⟩
    funext j
    rw [Moves.addTail, Function.update_apply, pushAll]
    by_cases h : j = o
    · rw [if_pos h, if_pos ⟨by simp [h], h ▸ ho⟩, h]
    · rw [if_neg h, if_neg (by simp [h])]
  · next ho =>
    obtain ⟨hmoves, hp⟩ := Moves.bufferItem (rs := fireCounts) s (t := t) o 0 c mark (item.map fun w => { w := w.value, mark := mark })
      (s.headAt t last) token
    refine ⟨hmoves.congr ?_, fun _ hbelow => ?_⟩
    · funext j
      refine (if_neg fun h => ho ?_).symm
      rw [← List.mem_singleton.1 h.1]
      exact h.2
    · obtain ⟨p, hstands, hty, hst, hsrc, hsslot, hdest, hmark, hbody⟩ := hp hbelow
      refine ⟨p, hstands, hty, hst, hsrc, hsslot, hdest, hmark, ?_⟩
      rw [hbody, List.map_map]
      rfl

/-- An item emitted at each of its outputs. -/
theorem emits_spec {t : Nat} {mark : Marker} {item : List QWord} (c last : Nat) (token : Option (Nat × Nat)) {outs : List Nat}
    (hnd : outs.Nodup) (s : State) (ha : ∀ o ∈ outs, Admits s t item.length mark o) :
    let s' := s.each outs fun s o => s.emit t o c last mark token item
    Moves fireCounts t (pushAll outs (Moves.itemShown item)) s s' ∧
      ((∀ q ∈ s.packets, q.id < s.nextPkt) → ∀ o ∈ outs, 16 ≤ o → ∃ p, Stands s' p ∧ Emitted s t mark item o p) := by
  induction outs generalizing s with
  | nil =>
    refine ⟨(Moves.refl s).congr ?_, fun _ o ho => absurd ho List.not_mem_nil⟩
    funext j
    exact (if_neg fun h => absurd h.1 List.not_mem_nil).symm
  | cons o outs ih =>
    obtain ⟨hnot, hnd⟩ := List.nodup_cons.1 hnd
    obtain ⟨hfirst, hpkt⟩ := emit_spec (ha o (.head _)) c last token
    obtain ⟨hrest, hpkts⟩ := ih hnd (s.emit t o c last mark token item) fun o' ho' => hfirst.admits (ha o' (.tail _ ho'))
    refine ⟨(hfirst.trans hrest).congr ?_, fun hbelow o' ho' hle => ?_⟩
    · funext j
      simp only [Function.comp, pushAll, List.mem_cons, List.not_mem_nil, or_false]
      by_cases hj : j = o
      · subst hj
        simp [hnot]
      · simp [hj]
    · obtain _ | ⟨_, ho'⟩ := ho'
      · obtain ⟨p, hp, he⟩ := hpkt hle hbelow
        exact ⟨p, hrest.pkts.stands p hp, he⟩
      · obtain ⟨p, hp, he⟩ := hpkts (hfirst.pkts.below hbelow) o' ho' hle
        exact ⟨p, hp, { he with dest := he.dest.trans (hfirst.keeps.gf_eq (by decide) ..) }⟩

theorem headItem_ne_nil {q ws : List QWord} (h : headItem q = some ws) : ws ≠ [] := by
  cases q with
  | nil => cases h
  | cons w q =>
    unfold headItem at h
    split at h
    · cases h
      exact List.cons_ne_nil _ _
    · obtain ⟨l, -, rfl⟩ := Option.map_eq_some_iff.1 h
      exact List.cons_ne_nil _ _

/-- Of the item at the head of a queue the last word is its tail, and no other. -/
theorem tail_of_headItem {q ws : List QWord} (h : headItem q = some ws) (i : Nat) (hi : i < ws.length) :
    ws[i].tail = decide (i + 1 = ws.length) := by
  induction q generalizing ws i with
  | nil => cases h
  | cons w q ih =>
    unfold headItem at h
    split at h
    · next hw =>
      cases h
      obtain rfl : i = 0 := by simpa using hi
      exact hw
    · next hw =>
      obtain ⟨l, hl, rfl⟩ := Option.map_eq_some_iff.1 h
      have hne : l ≠ [] := by
        rintro rfl
        exact headItem_ne_nil hl rfl
      cases i with
      | zero => simp [hw, hne]
      | succ i => simpa using ih hl i (by simpa using hi)

theorem itemShown_of_headItem {q ws : List QWord} (h : headItem q = some ws) : Moves.itemShown ws = ws.map fun w => (w.value, w.tail) := by
  refine List.ext_getElem (by simp [Moves.itemShown]) fun i hi hi' => ?_
  simp only [Moves.itemShown, List.getElem_map, List.getElem_zip, List.getElem_range, tail_of_headItem h i (by simpa using hi')]

/-! ### The whole firing -/

/-- The queues once the control word has gone. -/
def popControl (ctl : Option Nat) (q : Nat → List (Word × Bool)) : Nat → List (Word × Bool) :=
  match ctl with
  | some k => Moves.dropHead k 1 q
  | none => q

/-- The queues once the item has moved or gone. -/
def moveItem (src : Option Nat) (outs : List Nat) (lost keep : Bool) (item : List QWord) (q : Nat → List (Word × Bool)) :
    Nat → List (Word × Bool) :=
  match src with
  | none => q
  | some k =>
    let q := if lost then q else pushAll outs (Moves.itemShown item) q
    if lost || !keep then Moves.dropHead k item.length q else q

theorem moveItem_popControl (s : State) (t : Nat) (x : Firing) (lost : Bool) {j : Nat} (hj : j < 16) :
    moveItem x.src x.outs lost x.keep ((x.src.bind fun k => s.itemAt t k).getD []) (popControl x.ctl (s.shown t)) j =
      firedQueue s t x lost j := by
  have hshown : Moves.itemShown ((x.src.bind fun k => s.itemAt t k).getD []) =
      ((x.src.bind fun k => s.itemAt t k).getD []).map fun w => (w.value, w.tail) := by
    cases h : x.src.bind fun k => s.itemAt t k with
    | none => rfl
    | some ws =>
      obtain ⟨k, -, hk⟩ := Option.bind_eq_some_iff.1 h
      exact itemShown_of_headItem hk
  have hctl : popControl x.ctl (s.shown t) j = if x.ctl = some j then (s.shown t j).drop 1 else s.shown t j := by
    unfold popControl
    cases x.ctl with
    | none => simp
    | some k =>
      dsimp only
      rw [Moves.dropHead, Function.update_apply]
      by_cases h : j = k
      · simp [h]
      · simp [h, Ne.symm h]
  unfold firedQueue
  extract_lets item q₀ q₁ q₂
  have hq₁ : q₁ = popControl x.ctl (s.shown t) j := hctl.symm
  have hq₂ : q₂ = if lost = false ∧ x.src ≠ none ∧ j ∈ x.outs then q₁ ++ Moves.itemShown item else q₁ := by rw [hshown]
  rw [hq₁] at hq₂
  generalize popControl x.ctl (s.shown t) = q at hq₂ ⊢
  rw [hq₂]
  refine .trans (b := moveItem x.src x.outs lost x.keep item q j) rfl ?_
  clear_value item
  unfold moveItem
  cases x.src with
  | none => simp
  | some k =>
    have hpush : (if lost then q else pushAll x.outs (Moves.itemShown item) q) j =
        if lost = false ∧ some k ≠ none ∧ j ∈ x.outs then q j ++ Moves.itemShown item else q j := by
      cases lost <;> simp [pushAll, hj]
    dsimp only
    rw [← hpush]
    generalize (if lost then q else pushAll x.outs (Moves.itemShown item) q) = q'
    by_cases hgone : lost = true ∨ x.keep = false
    · rw [if_pos (by simpa using hgone), Moves.dropHead, Function.update_apply]
      by_cases hk : j = k
      · rw [if_pos hk, if_pos ⟨by rw [hk], hgone⟩, hk]
      · rw [if_neg hk, if_neg fun h => hk (Option.some.inj h.1).symm]
    · rw [if_neg (by simpa using hgone), if_neg fun h => hgone h.2]

/-- The registers of a firing, with those that count what it moves. -/
def firedCounts : List Reg := .strCountDiscard :: .strCountWords :: fireCounts

/-- What a firing does to the tile's queues, packets and counts, before its rule is set. -/
theorem perform_spec {s : State} {t r c : Nat} {x : Firing} (hnd : x.outs.Nodup)
    (hadm : ∀ o ∈ x.outs, Admits s t ((x.src.bind fun k => s.itemAt t k).getD []).length (firingMarker s t x) o) :
    let item := (x.src.bind fun k => s.itemAt t k).getD []
    let lost : Bool := x.discard || decide (firingMarker s t x = .dead)
    ∃ u : State, Moves firedCounts t (fun q => moveItem x.src x.outs lost x.keep item (popControl x.ctl q)) s u ∧
      ((∀ q ∈ s.packets, q.id < s.nextPkt) → lost = false → x.src ≠ none → ∀ o ∈ x.outs, 16 ≤ o →
        ∃ p, Stands u p ∧ Emitted s t (firingMarker s t x) item o p) ∧
      (lost = true → x.src ≠ none → u.rd .strCountDiscard t r = BitVec.ofNat 64 (satAdd32 (s.rd .strCountDiscard t r).toNat 1)) ∧
      (lost = false → x.src ≠ none → u.rd .strCountWords t r =
        BitVec.ofNat 64 (satAdd32 (s.rd .strCountWords t r).toNat (item.length * x.outs.length))) ∧
      ∃ free, s.perform t r c x = u.setRule t r { s.rule t r with
        active := ((if x.loop.isSome ∧ firingMarker s t x = .dead then some (false, 0) else x.loop).map (·.1)).getD (s.rule t r).active
        r := ((if x.loop.isSome ∧ firingMarker s t x = .dead then some (false, 0) else x.loop).map (·.2)).getD (s.rule t r).r
        acc := x.acc.getD (s.rule t r).acc, left := if lost then 0 else x.left, freeAt := free } := by
  intro item lost
  unfold State.perform
  extract_lets view word n marks cm st first lost' moves last token a b d e move emitted counted f h loop y free z
  have he : Moves fireCounts t (popControl x.ctl) s e := by
    have hb : Moves fireCounts t id s b := by
      refine .still (.countStall (t := t) s r c) ?_
      simp only [b]
      split
      · exact .bump (by decide) (by decide) ..
      · exact .refl a
    have hd : Moves fireCounts t (popControl x.ctl) s d := by
      simp only [d]
      unfold popControl
      cases x.ctl with
      | none => exact hb
      | some k => exact hb.trans (.popWords b k c 1)
    simp only [e]
    split
    · exact hd.andStill (.conflict ..)
    · exact hd
  obtain ⟨hemit, hpkt⟩ := emits_spec (t := t) (mark := cm.1) (item := item) c last token hnd e fun o ho => he.admits (hadm o ho)
  have hz : Moves fireCounts t id f z := by
    refine .still (s' := h) ?_ (.quiet rfl (fun _ _ _ => rfl) rfl rfl rfl)
    simp only [h]
    split
    · exact .steerFault ..
    · exact .refl f
  have hsub {g : (Nat → List (Word × Bool)) → Nat → List (Word × Bool)} {v w : State} (hm : Moves fireCounts t g v w) :
      Moves firedCounts t g v w := hm.mono fun r hr => .tail _ (.tail _ hr)
  suffices hf : Moves firedCounts t (fun q => moveItem x.src x.outs lost x.keep item (popControl x.ctl q)) s f ∧
      ((∀ q ∈ s.packets, q.id < s.nextPkt) → lost = false → x.src ≠ none → ∀ o ∈ x.outs, 16 ≤ o →
        ∃ p, Stands f p ∧ Emitted s t cm.1 item o p) ∧
      (lost = true → x.src ≠ none → f.rd .strCountDiscard t r = BitVec.ofNat 64 (satAdd32 (s.rd .strCountDiscard t r).toNat 1)) ∧
      (lost = false → x.src ≠ none → f.rd .strCountWords t r =
        BitVec.ofNat 64 (satAdd32 (s.rd .strCountWords t r).toNat (item.length * x.outs.length))) by
    obtain ⟨hmoves, hpkts, hdiscards, hwords⟩ := hf
    refine ⟨z, hmoves.andStill (hsub hz), fun hbelow hl hs o ho hle => ?_, fun hl hs => ?_, fun hl hs => ?_, free, rfl⟩
    · obtain ⟨p, hp, hem⟩ := hpkts hbelow hl hs o ho hle
      exact ⟨p, hz.pkts.stands p hp, hem⟩
    · exact (hz.keeps.regs _ _ _ (by decide)).trans (hdiscards hl hs)
    · exact (hz.keeps.regs _ _ _ (by decide)).trans (hwords hl hs)
  clear_value e
  simp only [f]
  cases x.src with
  | none => exact ⟨hsub he, fun _ _ hs => (hs rfl).elim, fun _ hs => (hs rfl).elim, fun _ hs => (hs rfl).elim⟩
  | some k =>
    cases hl : lost with
    | true =>
      dsimp only
      rw [if_pos (show lost' = true from hl)]
      obtain ⟨u, hu, hdiscard⟩ := Moves.discardItem (t := t) e k r c n
      rw [hdiscard]
      have hbump : Moves firedCounts t id u (u.bump .strCountDiscard t r 1) := .bump (by decide) (by decide) ..
      refine ⟨((hsub (he.trans hu)).andStill hbump).congr ?_, fun _ h => absurd h (by decide), fun _ _ => ?_, fun h => absurd h (by decide)⟩
      · simp [moveItem, n]
      · rw [State.bump, State.rd_wr_self, (he.trans hu).keeps.regs _ _ _ (by decide)]
    | false =>
      dsimp only
      rw [if_neg (ne_true_of_eq_false (show lost' = false from hl))]
      have hcounted : Moves firedCounts t id emitted counted := .bump (by decide) (by decide) ..
      have hm : Moves firedCounts t (pushAll x.outs (Moves.itemShown item) ∘ popControl x.ctl) s counted :=
        (hsub (he.trans hemit)).andStill hcounted
      have hw : counted.rd .strCountWords t r = BitVec.ofNat 64 (satAdd32 (s.rd .strCountWords t r).toNat (item.length * x.outs.length)) := by
        simp only [counted]
        rw [State.bump, State.rd_wr_self, (he.trans hemit).keeps.regs _ _ _ (by decide)]
      have hp (hbelow : ∀ q ∈ s.packets, q.id < s.nextPkt) (o : Nat) (ho : o ∈ x.outs) (hle : 16 ≤ o) :
          ∃ p, Stands counted p ∧ Emitted s t cm.1 item o p := by
        obtain ⟨p, hp, hem⟩ := hpkt (he.pkts.below hbelow) o ho hle
        exact ⟨p, hcounted.pkts.stands p hp, { hem with dest := hem.dest.trans (he.keeps.gf_eq (by decide) ..) }⟩
      cases hk : x.keep with
      | true =>
        rw [if_pos rfl]
        refine ⟨hm.congr ?_, fun hbelow _ _ => hp hbelow, fun h => absurd h (by decide), fun _ _ => hw⟩
        simp [moveItem]
      | false =>
        rw [if_neg (by decide)]
        have hpop : Moves fireCounts t (Moves.dropHead k n) counted (counted.popWords t k c n) := .popWords ..
        refine ⟨(hm.trans (hsub hpop)).congr ?_, fun hbelow _ _ o ho hle => ?_, fun h => absurd h (by decide), fun _ _ => ?_⟩
        · simp [moveItem, n]
        · obtain ⟨p, hp, hem⟩ := hp hbelow o ho hle
          exact ⟨p, hpop.pkts.stands p hp, hem⟩
        · exact (hpop.keeps.regs _ _ _ (by decide)).trans hw

end Sys2Proof.Machine
end

section
/-! SUPPORT. When a rule is ready, and the cycle in which the unit begins its firing. -/

namespace Sys2Proof.Claims

open Sys2Proof.Machine

theorem moveTo_of_fits {s : State} {t n k : Nat} {outs : List Nat} (hne : outs ≠ []) (hfit : ∀ o ∈ outs, Fits s t n o) (x : Firing) :
    s.moveTo t k n outs x = some { x with src := some k, outs := outs } := by
  unfold State.moveTo
  rw [if_neg hne, if_neg]
  simpa [Fits] using hfit

theorem moveTo_one {s : State} {t n k o : Nat} (hfit : Fits s t n o) (x : Firing) :
    s.moveTo t k n [o] x = some { x with src := some k, outs := [o] } :=
  moveTo_of_fits (List.cons_ne_nil _ _) (fun _ h => List.mem_singleton.1 h ▸ hfit) x

theorem take_one_of_head? {l : List Nat} {o : Nat} (h : l.head? = some o) : l.take 1 = [o] := by
  cases l with
  | nil => cases h
  | cons a l => cases h; rfl

theorem drop_one_take_one {l : List Nat} {o : Nat} (h : l[1]? = some o) : (l.drop 1).take 1 = [o] := by
  match l, h with
  | _ :: _ :: _, rfl => rfl

/-- A completed item's words were pushed by the cycle before the one from which it is complete. -/
theorem completeFrom_of_itemAt {s : State} {t k : Nat} {q : List QWord} (h : s.itemAt t k = some q) :
    completeFrom q = (q.getLast?.map (·.stamp)).getD 0 + 1 := by
  obtain ⟨w, hw⟩ := Option.isSome_iff_exists.1 (List.getLast?_isSome.2 (headItem_ne_nil h))
  rw [completeFrom, hw]
  rfl

theorem longControl_of_not_bad {s : State} {t r : Nat} (h : ∀ c, s.controlAt t r ≠ .bad c) : s.longControl t r = none := by
  unfold State.longControl
  split
  · split
    · next c hc => exact (h c hc).elim
    · rfl
  · rfl

theorem longControl_of_no_control {s : State} {t r : Nat} (h : s.takesControl t r = false) : s.longControl t r = none := by
  rw [State.longControl, h]
  rfl

theorem minOf_mem {l : List Nat} {a : Nat} (h : minOf l = some a) : a ∈ l := by
  induction l generalizing a with
  | nil => cases h
  | cons b l ih =>
    unfold minOf at h
    split at h
    · cases h
      exact .head _
    · next m hm =>
      cases h
      obtain h | h := Nat.le_total b m
      · rw [Nat.min_eq_left h]
        exact .head _
      · rw [Nat.min_eq_right h]
        exact .tail _ (ih hm)

theorem le_firstCycle {holds : Nat → Bool} {cs : List Nat} {c a : Nat} (h : firstCycle holds cs c = some a) : c ≤ a := by
  obtain ⟨ha, -⟩ := List.mem_filter.1 (minOf_mem h)
  obtain _ | ⟨_, ha⟩ := ha
  · exact Nat.le_refl c
  · exact Nat.le_of_lt (of_decide_eq_true (List.mem_filter.1 ha).2)

theorem earliest_mem {l : List (Nat × Nat)} {e : Nat × Nat} (h : earliest l = some e) : e ∈ l := by
  induction l generalizing e with
  | nil => cases h
  | cons d l ih =>
    unfold earliest at h
    split at h
    · next d' hd' =>
      split at h
      · cases h
        exact .tail _ (ih hd')
      · cases h
        exact .head _
    · cases h
      exact .head _

/-- The rule that begins a firing next is ready, in a cycle in which it can begin. -/
theorem fireCycle_of_nextRule {s : State} {t r c : Nat} {x : Firing} (hready : s.ruleReady t r = some x) (h : s.nextRule t = some (r, c)) :
    s.fireCycle t r x = some c := by
  obtain ⟨r', -, hr'⟩ := List.mem_filterMap.1 (earliest_mem h)
  obtain ⟨c', hc', heq⟩ := Option.map_eq_some_iff.1 hr'
  cases heq
  rwa [hready, Option.bind_some] at hc'

theorem fireCycle_bounds {s : State} {t r c : Nat} {x : Firing} (h : s.fireCycle t r x = some c) :
    512 ≤ c ∧ c < (s.fld (fieldOf t)).nCycles - 256 ∧ s.inputsFrom t r x ≤ c := by
  obtain ⟨c₀, hc₀, hc⟩ := Option.bind_eq_some_iff.1 h
  have hle := le_firstCycle hc₀
  split at hc
  · next hlt =>
    cases hc
    have hskip := le_skipStretch (s.til t).stretches c₀
    exact ⟨by omega, hlt, by omega⟩
  · cases hc

theorem exec_of_mem_steerOps {t r : Nat} {e : Instr × Nat × Option Nat} (he : e ∈ steerOps t r) (s : State) :
    exec e.1 s = onTile t (s.fireRule t r e.2.1 e.2.2) := by
  simp only [steerOps, List.mem_cons, List.not_mem_nil, or_false] at he
  obtain rfl | rfl | rfl | rfl | rfl | rfl | rfl | rfl := he <;> rfl

/-- A rule whose turn it is fires. -/
theorem fireRule_eq {s : State} {t r c op : Nat} {order : Option Nat} {x : Firing} (hact : s.steerActive t = true)
    (hop : s.gf F.strRule_op t r = op) (hord : ∀ o, order = some o → s.gf F.strRule_order t r = o) (hready : s.ruleReady t r = some x)
    (hnext : s.nextRule t = some (r, c)) : s.fireRule t r op order = s.perform t r c x := by
  unfold State.fireRule
  rw [if_neg, hnext, hready]
  · exact if_pos rfl
  · rintro (h | h | h)
    · exact Bool.false_ne_true (h.symm.trans hact)
    · exact h hop
    · cases order with
      | none => cases h
      | some o => exact of_decide_eq_true h (hord o rfl)

/-- Settles O36: a ready rule's firing read off its operation, and what a firing carried out leaves. -/
theorem steeringRules : Obligations.SteeringRules := by
  refine ⟨fun s t r k c o w q ins hen hdrain hins hitem => ?_, fun s t r c x ht hact hready hnext hnd hbelow hadm => ?_⟩
  · intro op outs n
    have hwith : ∀ c', s.controlAt t r = .word c w → s.controlAt t r ≠ .bad c' := fun c' h h' => by rw [h] at h'; cases h'
    have hlong : s.takesControl t r = false ∨ s.controlAt t r = .word c w → s.longControl t r = none
      | .inl h => longControl_of_no_control h
      | .inr h => longControl_of_not_bad fun c' => hwith c' h
    have hlast {o' : Nat} (ho : outs.head? = some o') : (s.ruleOuts t r).take 1 = [o'] := take_one_of_head? ho
    refine ⟨fun hop ho hfit => ?_, fun hop hne hfit => ?_, fun hop hctl => ⟨fun ho hfit => ?_, fun ho => ?_⟩,
      fun hop hord hctl hw ho hfit => ?_, fun hop hord hfirst ho hfit => ?_, fun hop hctl => ⟨fun hw => ?_, fun hw ho hfit => ?_⟩,
      fun hop hact hen' => ?_, fun hop hleft => ?_⟩
    all_goals have hop' : s.gf F.strRule_op t r = _ := hop
    · have hnone := hlong (.inl (by simp only [State.takesControl, hop']))
      simp only [State.ruleReady, hen, hnone, hop', hins, hitem, hlast ho, List.head?_cons, Option.bind_some, Option.map_some,
        Bool.true_eq_false, if_false]
      exact moveTo_one hfit _
    · have hnone := hlong (.inl (by simp only [State.takesControl, hop']))
      simp only [State.ruleReady, hen, hnone, hop', hins, hitem, List.head?_cons, Option.bind_some, Option.map_some,
        Bool.true_eq_false, if_false]
      exact moveTo_of_fits hne hfit _
    · have ho' : (s.ruleOuts t r)[w.toNat % 4]? = some o := ho
      simp only [State.ruleReady, hen, hlong (.inr hctl), hop', hdrain, hins, hitem, hctl, ho', List.head?_cons, Option.bind_some, Option.map_some,
        Bool.true_eq_false, Bool.false_eq_true, if_false]
      exact moveTo_one hfit _
    · have ho' : (s.ruleOuts t r)[w.toNat % 4]? = none := ho
      simp only [State.ruleReady, hen, hlong (.inr hctl), hop', hdrain, hins, hitem, hctl, ho', List.head?_cons, Option.bind_some, Option.map_some,
        Bool.true_eq_false, Bool.false_eq_true, if_false]
    · simp only [State.ruleReady, hen, hlong (.inr hctl), hop', hdrain, hord, hins, hitem, hctl, hw, hlast ho, List.getElem?_cons_zero,
        Option.bind_some, Bool.true_eq_false, Bool.false_eq_true, if_false]
      exact moveTo_one hfit _
    · have hnone := hlong (.inl (by simp only [State.takesControl, hop', hord]; rfl))
      have hcand : ((k :: ins).filterMap fun k => (s.itemAt t k).map fun q => (k, q.length, completeFrom q)).find? (fun c =>
          ((k :: ins).filterMap fun k => (s.itemAt t k).map fun q => (k, q.length, completeFrom q)).all fun d => c.2.2 ≤ d.2.2) =
            some (k, q.length, completeFrom q) := by
        rw [List.filterMap_cons, hitem]
        refine List.find?_cons_of_pos ?_
        simp only [Option.map_some, List.all_cons, Nat.le_refl, decide_true, Bool.true_and, List.all_eq_true, List.mem_filterMap,
          Option.map_eq_some_iff, decide_eq_true_eq]
        rintro d ⟨j, hj, p, hp, rfl⟩
        rw [completeFrom_of_itemAt hitem, completeFrom_of_itemAt hp]
        exact Nat.succ_le_succ (hfirst j hj p hp)
      simp only [State.ruleReady, hen, hnone, hop', hord, hins, hcand, hlast ho, Option.bind_some, Bool.true_eq_false, if_false, if_true]
      exact moveTo_one hfit _
    · simp only [State.ruleReady, hen, hlong (.inr hctl), hop', hdrain, hins, hitem, hctl, hw, List.head?_cons, Option.bind_some,
        Option.map_some, Bool.true_eq_false, Bool.false_eq_true, if_false, if_true]
    · simp only [State.ruleReady, hen, hlong (.inr hctl), hop', hdrain, hins, hitem, hctl, hw, hlast ho, List.head?_cons, Option.bind_some,
        Option.map_some, Bool.true_eq_false, Bool.false_eq_true, if_false]
      exact moveTo_one hfit _
    · have hctl : s.controlAt t r = .none := by simp only [State.controlAt, State.ruleCtl, hen', Bool.false_eq_true, if_false]
      have hnone : s.longControl t r = none := longControl_of_not_bad fun c' h => by rw [hctl] at h; cases h
      intro trips
      refine ⟨fun htrips ho hfit => ?_, fun htrips ho hfit => ?_⟩
      · have ho' : (s.ruleOuts t r).take 1 = [o] := take_one_of_head? (List.head?_eq_getElem?.trans ho)
        simp only [State.ruleReady, hen, hnone, hop', hdrain, hact, hen', hins, hitem, ho', List.getElem?_cons_zero, Option.bind_some,
          Option.map_some, Bool.true_eq_false, Bool.false_eq_true, if_false]
        rw [if_neg htrips]
        exact moveTo_one hfit _
      · have ho' : ((s.ruleOuts t r).drop 1).take 1 = [o] := drop_one_take_one ho
        simp only [State.ruleReady, hen, hnone, hop', hdrain, hact, hen', hins, hitem, ho', List.getElem?_cons_zero, Option.bind_some,
          Option.map_some, Bool.true_eq_false, Bool.false_eq_true, if_false]
        rw [if_pos htrips]
        exact moveTo_one hfit _
    · have hnone := hlong (.inl (by simp only [State.takesControl, hop']))
      intro m a
      refine ⟨fun hlt => ?_, fun hle ho hfit => ?_⟩
      · simp only [State.ruleReady, hen, hnone, hop', hins, hitem, hleft, List.head?_cons, Option.bind_some,
          Option.map_some, Bool.true_eq_false, if_false, ne_eq, not_true_eq_false]
        exact if_pos (Nat.div_eq_of_lt hlt)
      · simp only [State.ruleReady, hen, hnone, hop', hins, hitem, hleft, hlast ho, List.head?_cons, Option.bind_some,
          Option.map_some, Bool.true_eq_false, if_false, ne_eq, not_true_eq_false]
        rw [if_neg (Nat.pos_iff_ne_zero.1 (Nat.div_pos hle (Nat.succ_pos _)))]
        refine (moveTo_one hfit _).trans ?_
        rw [Nat.mod_eq_sub_mul_div, Nat.mul_comm]
  · obtain ⟨hlow, hhigh, hin⟩ := fireCycle_bounds (fireCycle_of_nextRule hready hnext)
    refine ⟨hlow, hhigh, hin, fun e he hop hord => ?_⟩
    intro lost item
    obtain ⟨u, hmoves, hpkts, hdiscards, hwords, free, hperform⟩ := perform_spec (r := r) (c := c) hnd hadm
    refine gives_onTile ht (exec_of_mem_steerOps he s) ?_
    rw [fireRule_eq hact hop hord hready hnext, hperform]
    refine ⟨fun j hj => ?_, fun hl hs o ho hle => ?_, hdiscards, hwords, fun a n hloop hdead => ?_, fun hloop => ?_, ?_, ?_, ?_, ?_, ?_⟩
    · exact (congrFun hmoves.queues j).trans (moveItem_popControl s t x lost hj)
    · obtain ⟨p, hp, hem⟩ := hpkts hbelow hl hs o ho hle
      exact ⟨p, hp.mem, hem.ty, hem.st, hem.src, hem.sslot, hem.dest, hem.mark, hem.body⟩
    · have hrule : (if x.loop.isSome ∧ firingMarker s t x = .dead then some (false, 0) else x.loop) = some (a, n) := by
        rw [if_neg fun h => hdead h.2, hloop]
      rw [State.rule_setRule, if_pos rfl, hrule]
      exact ⟨rfl, rfl⟩
    · rw [State.rule_setRule, if_pos rfl, hloop]
      exact ⟨rfl, rfl⟩
    · rw [State.rule_setRule, if_pos rfl]
    · rw [State.rule_setRule, if_pos rfl]
    · exact hmoves.keeps.eq_of State.sram (·.2.2.sram) fun _ => rfl
    · exact hmoves.keeps.eq_of State.groups (·.1) fun _ => rfl
    · exact hmoves.keeps.eq_of State.fst (·.2.2.fst) fun _ => rfl

end Sys2Proof.Claims
end

section
/-! SUPPORT. Operations on a sector's tags at its home. -/

namespace Sys2Proof.Machine

open Sys2Proof.Claims

/-- The state beyond the tags of one sector and what counts its operations. -/
def State.beyondTags (sec : Nat) (s : State) : (Nat → Nat → TagState) × State :=
  (fun b k => if b = sec then .free else s.tagSt b k, { s.beyondMarks with sectorTags := [] })

/-- The counters of tag operations. -/
def tagCounts : List Reg := [.sptCountSquash, .sptCountConfirm, .sptCountSweep, .sptStatus]

/-- Tags of one sector changed, and the counts that go with it. -/
def Retags (sec : Nat) (s s' : State) : Prop := Keeps (State.beyondTags sec) tagCounts s s'

section
variable {sec : Nat} {s s' : State}

theorem Retags.tagSt_ne (h : Retags sec s s') {b : Nat} (hb : b ≠ sec) (k : Nat) : s'.tagSt b k = s.tagSt b k := by
  have hlook := congrFun (congrFun (congrArg Prod.fst h.look_eq) b) k
  simpa only [State.beyondTags, if_neg hb] using hlook

theorem Retags.eq_of {β : Type} (h : Retags sec s s') (f : State → β) (hf : ∀ s : State, f { s.beyondMarks with sectorTags := [] } = f s) :
    f s' = f s :=
  Keeps.eq_of h f (fun l => f l.2) fun s => (hf s).symm

theorem retags_setTagSt (s : State) (sec k : Nat) (x : TagState) : Retags sec s (s.setTagSt sec k x) := by
  refine .quiet (Prod.ext (funext fun b => funext fun j => ?_) rfl) fun _ _ _ => rfl
  dsimp only [State.beyondTags]
  split
  · rfl
  · next h => exact (State.tagSt_setTagSt s sec k b j x).trans (if_neg fun heq => h (Prod.ext_iff.1 heq).1)

theorem retags_bump {r : Reg} (h : r ∈ tagCounts) (hr : r ≠ .mshTileSector) (s : State) (u k n : Nat) : Retags sec s (s.bump r u k n) :=
  .marks (fun _ => rfl) (.bump h hr ..)

/-- What one tag becomes by a change of others: it stays, or, unresolved, it is squashed. -/
def TagFalls (old new : TagState) : Prop := new = old ∨ (old.unresolved = true ∧ new = .squashed)

theorem TagFalls.trans {a b c : TagState} (h : TagFalls a b) (h' : TagFalls b c) : TagFalls a c := by
  obtain rfl | ⟨ha, rfl⟩ := h
  · exact h'
  · obtain rfl | ⟨hb, rfl⟩ := h'
    · exact .inr ⟨ha, rfl⟩
    · exact .inr ⟨ha, rfl⟩

theorem tagSt_setTagSt_self (s : State) (sec k : Nat) (x : TagState) : (s.setTagSt sec k x).tagSt sec k = x :=
  (State.tagSt_setTagSt ..).trans (if_pos rfl)

theorem tagSt_setTagSt_ne (s : State) (sec : Nat) {k j : Nat} (h : j ≠ k) (x : TagState) :
    (s.setTagSt sec k x).tagSt sec j = s.tagSt sec j :=
  (State.tagSt_setTagSt ..).trans (if_neg fun heq => h (Prod.ext_iff.1 heq).2)

/-- The unresolved among some tags squashed. -/
theorem squashEach_spec (sec : Nat) (l : List Nat) (s : State) :
    let s' := s.each l fun s k => if (s.tagSt sec k).unresolved then s.setTagSt sec k .squashed else s
    Retags sec s s' ∧ ∀ k, TagFalls (s.tagSt sec k) (s'.tagSt sec k) := by
  refine State.each_keeps (fun s s' => Retags sec s s' ∧ ∀ k, TagFalls (s.tagSt sec k) (s'.tagSt sec k))
    (fun s => ⟨.refl s, fun k => .inl rfl⟩) (fun a b c h h' => ⟨h.1.trans h'.1, fun k => (h.2 k).trans (h'.2 k)⟩) _ l (fun s k _ => ?_) s
  split
  · next hk =>
    refine ⟨retags_setTagSt .., fun j => ?_⟩
    by_cases h : j = k
    · subst h
      exact .inr ⟨hk, tagSt_setTagSt_self ..⟩
    · exact .inl (tagSt_setTagSt_ne _ _ h _)
  · exact ⟨.refl s, fun _ => .inl rfl⟩

/-- A SQUASH at home squashes its tag unless it is COMMITTED; another tag stays, or falls with it. -/
theorem squashTag_spec (s : State) (sec tag : Nat) :
    Retags sec s (s.squashTag sec tag) ∧
      (s.squashTag sec tag).tagSt sec tag = (if s.tagSt sec tag = .committed then .committed else .squashed) ∧
      ∀ k, k ≠ tag → TagFalls (s.tagSt sec k) ((s.squashTag sec tag).tagSt sec k) := by
  have hfall (hne : s.tagSt sec tag ≠ .committed) :
      let s' := (s.setTagSt sec tag .squashed).each (s.descendants sec tag) fun s k =>
        if (s.tagSt sec k).unresolved then s.setTagSt sec k .squashed else s
      Retags sec s s' ∧ s'.tagSt sec tag = (if s.tagSt sec tag = .committed then .committed else .squashed) ∧
        ∀ k, k ≠ tag → TagFalls (s.tagSt sec k) (s'.tagSt sec k) := by
    obtain ⟨hkeeps, hfalls⟩ := squashEach_spec sec (s.descendants sec tag) (s.setTagSt sec tag .squashed)
    refine ⟨(retags_setTagSt ..).trans hkeeps, ?_, fun k hk => ?_⟩
    · rw [if_neg hne]
      have h := hfalls tag
      rw [tagSt_setTagSt_self] at h
      exact h.elim id And.right
    · rw [← tagSt_setTagSt_ne s sec hk .squashed]
      exact hfalls k
  unfold State.squashTag
  cases hst : s.tagSt sec tag with
  | committed => exact ⟨.refl s, hst, fun _ _ => .inl rfl⟩
  | squashed => exact ⟨.refl s, hst, fun _ _ => .inl rfl⟩
  | free => exact ⟨retags_setTagSt .., tagSt_setTagSt_self .., fun k hk => .inl (tagSt_setTagSt_ne _ _ hk _)⟩
  | open_ =>
    rw [hst] at hfall
    exact hfall (by decide)
  | held =>
    rw [hst] at hfall
    exact hfall (by decide)

/-- Two tags squashed, as a conflict names them: the first ends as if it were squashed alone. -/
theorem squashBoth_spec (s : State) (sec tag : Nat) (tag2 : Option Nat) :
    let s' := s.each (tag :: tag2.toList) fun s k => s.squashTag sec k
    Retags sec s s' ∧ s'.tagSt sec tag = (if s.tagSt sec tag = .committed then .committed else .squashed) := by
  obtain ⟨hkeeps, hself, -⟩ := squashTag_spec s sec tag
  cases tag2 with
  | none => exact ⟨hkeeps, hself⟩
  | some k =>
    obtain ⟨hkeeps', hself', hothers⟩ := squashTag_spec (s.squashTag sec tag) sec k
    refine ⟨hkeeps.trans hkeeps', ?_⟩
    show ((s.squashTag sec tag).squashTag sec k).tagSt sec tag = _
    by_cases hk : tag = k
    · subst hk
      rw [hself', hself]
      split <;> rfl
    · obtain h | ⟨hun, -⟩ := hothers tag hk
      · rw [h, hself]
      · rw [hself] at hun
        split at hun <;> exact absurd hun (by decide)

/-- HELD tags that settle: no other tag changes. -/
theorem settleHeld_spec (sec n : Nat) (s : State) :
    Retags sec s (s.settleHeld sec n) ∧ ∀ k, s.tagSt sec k ≠ .held → (s.settleHeld sec n).tagSt sec k = s.tagSt sec k := by
  induction n with
  | zero => exact ⟨.refl s, fun _ _ => rfl⟩
  | succ n ih =>
    have hstep := State.each_keeps (fun s s' => Retags sec s s' ∧ ∀ k, s.tagSt sec k ≠ .held → s'.tagSt sec k = s.tagSt sec k)
      (fun s => ⟨.refl s, fun _ _ => rfl⟩)
      (fun a b c h h' => ⟨h.1.trans h'.1, fun k hk => (h'.2 k (by rw [h.2 k hk]; exact hk)).trans (h.2 k hk)⟩)
      (fun s k => if s.tagSt sec k = .held ∧ ((s.ancestors sec 4 k).all fun a => a = k || !(s.tagSt sec a).unresolved) = true then
          s.setTagSt sec k .committed else s) (List.range 16) (fun s k _ => by
        split
        · next h =>
          refine ⟨retags_setTagSt .., fun j hj => tagSt_setTagSt_ne _ _ (fun heq : j = k => hj (heq ▸ h.1)) _⟩
        · exact ⟨.refl s, fun _ _ => rfl⟩) (s.settleHeld sec n)
    exact ⟨ih.1.trans hstep.1, fun k hk => (hstep.2 k (by rw [ih.2 k hk]; exact hk)).trans (ih.2 k hk)⟩

theorem confirmTag_spec (s : State) (sec tag : Nat) :
    Retags sec s (s.confirmTag sec tag) ∧ (s.tagSt sec tag = .free ∨ s.tagSt sec tag = .open_ →
      (s.confirmTag sec tag).tagSt sec tag =
        if ((s.ancestors sec 4 tag).any fun a => decide (a ≠ tag) && (s.tagSt sec a).unresolved) = true then .held else .committed) := by
  have hcommit : Retags sec s ((s.setTagSt sec tag .committed).settleHeld sec 4) ∧
      ((s.setTagSt sec tag .committed).settleHeld sec 4).tagSt sec tag = .committed := by
    obtain ⟨hkeeps, hstay⟩ := settleHeld_spec sec 4 (s.setTagSt sec tag .committed)
    have hself := tagSt_setTagSt_self s sec tag .committed
    exact ⟨(retags_setTagSt ..).trans hkeeps, (hstay tag (by rw [hself]; decide)).trans hself⟩
  unfold State.confirmTag
  extract_lets go
  split
  · next hgo =>
    split
    · exact ⟨retags_setTagSt .., fun _ => tagSt_setTagSt_self ..⟩
    · exact ⟨hcommit.1, fun _ => hcommit.2⟩
  · next hgo =>
    refine ⟨.refl s, fun h => (hgo ?_).elim⟩
    obtain h | h := h <;> simp only [go, h]

theorem openTag_spec (s : State) (sec tag : Nat) :
    Retags sec s (s.openTag sec tag) ∧
      (s.openTag sec tag).tagSt sec tag = if s.tagSt sec tag = .free then .open_ else s.tagSt sec tag := by
  unfold State.openTag
  split
  · exact ⟨retags_setTagSt .., tagSt_setTagSt_self ..⟩
  · exact ⟨.refl s, rfl⟩

/-- Operations of one sector applied change the tags of that sector. -/
theorem retags_applyTagOps (f : Nat) {ms : List TagMsg} (hms : ∀ m ∈ ms, m.sector = sec) (s : State) : Retags sec s (s.applyTagOps f ms) := by
  have hsec {o : TagOp} {m : TagMsg} (h : m ∈ ms.filter (·.op = o)) : m.sector = sec := hms m (List.mem_filter.1 h).1
  unfold State.applyTagOps
  refine ((Keeps.each _ _ (fun s m hm => ?_) s).trans (.each _ _ (fun s m hm => ?_) _)).trans (.each _ _ (fun s m hm => ?_) _)
  · rw [hsec hm]
    exact (squashBoth_spec s sec m.tag m.tag2).1.trans (retags_bump (by decide) (by decide) ..)
  · rw [hsec hm]
    exact (confirmTag_spec s sec m.tag).1.trans (retags_bump (by decide) (by decide) ..)
  · rw [hsec hm]
    exact (openTag_spec s sec m.tag).1

theorem retags_applyInOrder (f n : Nat) {ms : List TagMsg} (hms : ∀ m ∈ ms, m.sector = sec) (s : State) :
    Retags sec s (s.applyInOrder f n ms) := by
  induction n generalizing s ms with
  | zero => exact .refl s
  | succ n ih =>
    unfold State.applyInOrder
    split
    · exact .refl s
    · next now hnow =>
      obtain ⟨t, -, heq⟩ := Option.map_eq_some_iff.1 hnow
      cases heq
      exact (retags_applyTagOps f (fun m hm => hms m (List.mem_filter.1 hm).1) s).trans
        (ih (fun m hm => hms m (List.mem_filter.1 hm).1) _)

/-- The tags of a sector after its sweep. -/
theorem sweep_spec (s : State) (f sec : Nat) :
    (∀ k, k < 16 → (s.sweep f sec).tagSt sec k = .committed ∨ (s.sweep f sec).tagSt sec k = .squashed) ∧
      (∀ b k, b ≠ sec → (s.sweep f sec).tagSt b k = s.tagSt b k) ∧ ((s.sweep f sec).fld f).swept.contains sec = true ∧
      (s.sweep f sec).sram = s.sram := by
  unfold State.sweep
  extract_lets n u v w
  have hone (s : State) (k : Nat) : Retags sec s (if s.tagSt sec k = .committed then s else s.setTagSt sec k .squashed) ∧
      (if s.tagSt sec k = .committed then s else s.setTagSt sec k .squashed).tagSt sec k ∈ [TagState.committed, .squashed] ∧
      ∀ j, s.tagSt sec j ∈ [TagState.committed, .squashed] →
        (if s.tagSt sec k = .committed then s else s.setTagSt sec k .squashed).tagSt sec j ∈ [TagState.committed, .squashed] := by
    split
    · next h => exact ⟨.refl s, by simp [h], fun _ h => h⟩
    · refine ⟨retags_setTagSt .., by simp [tagSt_setTagSt_self], fun j hj => ?_⟩
      by_cases h : j = k
      · simp [h, tagSt_setTagSt_self]
      · rwa [tagSt_setTagSt_ne _ _ h]
  have hu : Retags sec s u := Keeps.each _ _ (fun s k _ => (hone s k).1) s
  have hall : ∀ k ∈ List.range 16, u.tagSt sec k ∈ [TagState.committed, .squashed] :=
    State.each_gives (P := fun k s => s.tagSt sec k ∈ [TagState.committed, .squashed]) (fun s k _ => (hone s k).2.1)
      (fun s k _ j hj => (hone s k).2.2 j hj) s
  have hw : Marks tagCounts u w := by
    have hv : Marks tagCounts u v := .bump (by decide) (by decide) ..
    simp only [w]
    split
    · exact hv
    · exact hv.trans (.hset (f := F.sptStatus_swept) (by decide) (by decide) ..)
  have htag (b k : Nat) : w.tagSt b k = u.tagSt b k := hw.beyond_eq (State.tagSt · b k) fun _ => rfl
  refine ⟨fun k hk => ?_, fun b k hb => (htag b k).trans (hu.tagSt_ne hb k), ?_, ?_⟩
  · have h := hall k (List.mem_range.2 hk)
    rw [← htag sec k] at h
    simpa using h
  · rw [State.fld_setFld, if_pos rfl]
    simp
  · exact (hw.beyond_eq State.sram fun _ => rfl).trans (hu.eq_of State.sram fun _ => rfl)

end
end Sys2Proof.Machine
end

section
/-! SUPPORT. What a resolution does at a tile: the lines of a committed tag written back, those of a squashed one dropped. -/

namespace Sys2Proof.Machine

open Sys2Proof.Claims

/-- A byte put is read there, and no other offset of the tile reads otherwise. -/
theorem sramByte_sramPutByte (s : State) (t off : Nat) (b : Byte) (o : Nat) :
    (s.sramPutByte t off b).sramByte t o = if o = off then b else s.sramByte t o := by
  have hmem : memRead (memWrite s.sram (sramAddr t off) b) (sramAddr t o) = if o = off then b else memRead s.sram (sramAddr t o) := by
    rw [memRead_memWrite]
    simp only [sramAddr, Nat.add_left_cancel_iff]
  have hranges (kept : List (Nat × Nat)) : inRanges ((off, 1) :: kept) o = (decide (o = off) || inRanges kept o) := by
    simp only [inRanges, List.any_cons]
    congr 1
    rw [← Bool.decide_and]
    exact decide_eq_decide.2 (by omega)
  unfold State.sramByte State.sramPutByte State.keptNow
  dsimp only
  cases hlost : mfind s.lostTiles t with
  | none => simpa only [hlost] using hmem
  | some e =>
    obtain ⟨n, kept⟩ := e
    dsimp only
    by_cases hin : kept.contains (off, 1) = true
    · have hkept : inRanges kept off = true := by
        refine List.any_eq_true.2 ⟨(off, 1), List.contains_iff_mem.1 hin, ?_⟩
        simp
      rw [if_pos hin, hlost]
      dsimp only
      rw [hmem]
      by_cases ho : o = off
      · rw [if_pos ho, if_pos ho, if_pos (ho ▸ hkept)]
      · rw [if_neg ho, if_neg ho]
    · rw [if_neg hin, mfind_mput_self]
      dsimp only
      rw [hmem, hranges]
      by_cases ho : o = off
      · simp [ho]
      · simp [ho]

/-- What a write-back reads and leaves: its masked bytes, other bytes of the memory, lines and view. -/
structure WritesBack (t k : Nat) (l : ShadowLine) (s s' : State) : Prop where
  bytes : ∀ b, b < 64 → l.mask.testBit b = true → s'.sramByte t (l.block * 64 + b) = mget 0 l.data b
  others : ∀ o, (∀ b, b < 64 → l.mask.testBit b = true → o ≠ l.block * 64 + b) → s'.sramByte t o = s.sramByte t o
  mem : ∀ a, (∀ b, b < 64 → l.mask.testBit b = true → a ≠ sramAddr t (l.block * 64 + b)) → memRead s'.sram a = memRead s.sram a
  lines : (s'.til t).shadow = mdel (s.til t).shadow k
  view : (s'.til t).view = (s.til t).view

theorem freeShadow_spec (s : State) (t k c : Nat) : ∃ y : Tile, s.freeShadow t k c = s.setTil t y ∧ y.shadow = mdel (s.til t).shadow k ∧
    y.view = (s.til t).view := by
  refine ⟨_, rfl, ?_, ?_⟩
  · unfold Tile.noteShadow
    split <;> rfl
  · unfold Tile.noteShadow
    split <;> rfl

theorem writesBack (s : State) (t k c : Nat) {l : ShadowLine} (hbad : l.bad = 0) : WritesBack t k l s (s.writeBack t k c l) := by
  unfold State.writeBack
  extract_lets u v w x
  rw [if_neg (not_not.2 hbad)]
  have hmask {b : Nat} : b ∈ (List.range 64).filter l.mask.testBit ↔ b < 64 ∧ l.mask.testBit b = true := by
    rw [List.mem_filter, List.mem_range]
  have hbyte (s : State) (b o : Nat) : (s.sramPutByte t (l.block * 64 + b) (mget 0 l.data b)).sramByte t o =
      if o = l.block * 64 + b then mget 0 l.data b else s.sramByte t o := sramByte_sramPutByte ..
  have hput : ∀ b ∈ (List.range 64).filter l.mask.testBit, u.sramByte t (l.block * 64 + b) = mget 0 l.data b :=
    State.each_gives (P := fun b s => s.sramByte t (l.block * 64 + b) = mget 0 l.data b) (fun s b _ => (hbyte s b _).trans (if_pos rfl))
      (fun s b _ b' h => by
        rw [hbyte]
        split
        · next heq => rw [Nat.add_left_cancel heq]
        · exact h) s
  obtain ⟨y, hy, hshadow, hview⟩ := freeShadow_spec v t k c
  have hx {α : Type} (f : State → α) (hf : ∀ (s : State) l, f { s with sramBad := l } = f s) : f x = f w := by
    refine State.each_same f _ _ (fun s j _ => ?_) w
    simp only
    split
    · rfl
    · exact hf ..
  have hxbyte (o : Nat) : x.sramByte t o = u.sramByte t o := by
    rw [hx (State.sramByte · t o) fun _ _ => rfl, show w = v.setTil t y from hy]
    exact State.bump_sramByte u .sptCountLinesCommit t 0 1 t o
  have hxtil : x.til t = y := by
    rw [hx (State.til · t) fun _ _ => rfl, show w = v.setTil t y from hy, State.til_setTil_self]
  have hvtil : v.til t = s.til t :=
    State.each_same (State.til · t) (fun s b => s.sramPutByte t (l.block * 64 + b) (mget 0 l.data b)) _ (fun _ _ _ => rfl) s
  refine ⟨fun b hb hbit => (hxbyte _).trans (hput b (hmask.2 ⟨hb, hbit⟩)), fun o ho => (hxbyte o).trans ?_, fun a ha => ?_, ?_, ?_⟩
  · refine State.each_same (State.sramByte · t o) _ _ (fun s b hb => ?_) s
    exact (hbyte s b o).trans (if_neg (ho b (hmask.1 hb).1 (hmask.1 hb).2))
  · rw [hx State.sram fun _ _ => rfl, show w = v.setTil t y from hy]
    refine State.each_same (fun s => memRead s.sram a) _ _ (fun s b hb => ?_) s
    exact memRead_memWrite_ne _ _ (ha b (hmask.1 hb).1 (hmask.1 hb).2)
  · rw [hxtil, hshadow, hvtil]
  · rw [hxtil, hview, hvtil]

/-- An entry of a map without a key. -/
theorem mem_mdel {κ α : Type} [DecidableEq κ] {m : Smap κ α} {k : κ} {e : κ × α} : e ∈ mdel m k ↔ e ∈ m ∧ e.1 ≠ k := by
  induction m with
  | nil => simp [mdel]
  | cons d m ih =>
    obtain ⟨j, v⟩ := d
    unfold mdel
    split
    · next h =>
      rw [ih, List.mem_cons]
      refine ⟨fun he => ⟨.inr he.1, he.2⟩, fun he => ⟨he.1.resolve_left ?_, he.2⟩⟩
      rintro rfl
      exact he.2 h
    · next h =>
      rw [List.mem_cons, List.mem_cons, ih]
      refine ⟨fun he => he.elim (fun he => ⟨.inl he, he ▸ h⟩) fun he => ⟨.inr he.1, he.2⟩, fun he => he.1.imp_right fun hm => ⟨hm, he.2⟩⟩

/-- Lines of distinct blocks written back one after the other. -/
theorem writesBack_each {t : Nat} {lines : List (Nat × ShadowLine)} (hbad : ∀ e ∈ lines, e.2.bad = 0)
    (hnd : (lines.map (·.2.block)).Nodup) (c : Nat → State → Nat) (s : State) {l : List (Nat × Nat × ShadowLine)}
    (hl : ∀ a ∈ l, a.2 ∈ lines) :
    let s' := s.each l fun s a => s.writeBack t a.2.1 (c a.1 s) a.2.2
    (∀ a ∈ l, ∀ b, b < 64 → a.2.2.mask.testBit b = true → s'.sramByte t (a.2.2.block * 64 + b) = mget 0 a.2.2.data b) ∧
      (∀ a, (∀ e ∈ lines, ∀ b, b < 64 → e.2.mask.testBit b = true → a ≠ sramAddr t (e.2.block * 64 + b)) →
        memRead s'.sram a = memRead s.sram a) ∧
      (∀ e ∈ (s'.til t).shadow, e ∈ (s.til t).shadow ∧ ∀ a ∈ l, e.1 ≠ a.2.1) ∧ (s'.til t).view = (s.til t).view := by
  have hback (s : State) (a : Nat × Nat × ShadowLine) (ha : a ∈ l) :
      WritesBack t a.2.1 a.2.2 s (s.writeBack t a.2.1 (c a.1 s) a.2.2) := writesBack s t a.2.1 (c a.1 s) (hbad _ (hl a ha))
  intro s'
  refine ⟨fun a ha => ?_, fun a ha => ?_, fun e he => ⟨?_, fun a ha => ?_⟩, ?_⟩
  · refine State.each_gives (P := fun a s => a ∈ l → ∀ b, b < 64 → a.2.2.mask.testBit b = true →
      s.sramByte t (a.2.2.block * 64 + b) = mget 0 a.2.2.data b) (fun s d hd _ => (hback s d hd).bytes) (fun s d hd a h ha b hb hbit => ?_) s a ha ha
    by_cases heq : d.2 = a.2
    · rw [← heq] at hbit ⊢
      exact (hback s d hd).bytes b hb hbit
    · rw [← h ha b hb hbit]
      refine (hback s d hd).others _ fun b' hb' _ hoff => heq ?_
      exact List.inj_on_of_nodup_map hnd (hl d hd) (hl a ha) (by omega)
  · exact State.each_same (fun s => memRead s.sram a) _ l (fun s d hd => (hback s d hd).mem a (ha d.2 (hl d hd))) s
  · have hsub := State.each_keeps (fun s s' => (s'.til t).shadow ⊆ (s.til t).shadow) (fun s => List.Subset.refl _)
      (fun _ _ _ h h' => List.Subset.trans h' h) _ l (fun s d hd e he => (mem_mdel.1 ((hback s d hd).lines ▸ he)).1) s
    exact hsub he
  · refine State.each_gives (P := fun a s => ∀ e ∈ (s.til t).shadow, e.1 ≠ a.2.1) (fun s d hd e he => ?_) (fun s d hd a h e he => ?_) s a ha e he
    · exact (mem_mdel.1 ((hback s d hd).lines ▸ he)).2
    · exact h e (mem_mdel.1 ((hback s d hd).lines ▸ he)).1
  · exact State.each_same (fun s => (s.til t).view) _ l (fun s d hd => (hback s d hd).view) s

theorem mem_tagLines {s : State} {t tag : Nat} {e : Nat × ShadowLine} : e ∈ s.tagLines t tag ↔ e ∈ (s.til t).shadow ∧ e.2.tag = tag := by
  unfold State.tagLines
  rw [List.mem_mergeSort, List.mem_filter, decide_eq_true_iff]

/-- A tag seen COMMITTED, all of whose lines are intact data of distinct blocks. -/
theorem commitAt_spec (s : State) (t tag : Nat) (hlines : ∀ e ∈ (s.til t).shadow.filter fun e => e.2.tag = tag, e.2.op = none ∧ e.2.bad = 0)
    (hnd : (((s.til t).shadow.filter fun e => e.2.tag = tag).map (·.2.block)).Nodup) :
    (∀ e ∈ (s.til t).shadow.filter fun e => e.2.tag = tag, ∀ b, b < 64 → e.2.mask.testBit b = true →
        (s.commitAt t tag).sramByte t (e.2.block * 64 + b) = mget 0 e.2.data b) ∧
      (∀ a, (∀ e ∈ (s.til t).shadow.filter fun e => e.2.tag = tag, ∀ b, b < 64 → e.2.mask.testBit b = true →
          a ≠ sramAddr t (e.2.block * 64 + b)) → memRead (s.commitAt t tag).sram a = memRead s.sram a) ∧
      (∀ e ∈ ((s.commitAt t tag).til t).shadow, e.2.tag ≠ tag) ∧
      ((s.commitAt t tag).til t).view = mput (s.til t).view tag .committed := by
  unfold State.commitAt
  extract_lets y c u lines v
  have htil : u.til t = { y with view := mput y.view tag .committed } := State.til_setTil_self ..
  have hmem (e : Nat × ShadowLine) : e ∈ lines ↔ e ∈ (s.til t).shadow.filter fun e => e.2.tag = tag := by
    rw [List.mem_filter, mem_tagLines, htil, List.mem_filter, decide_eq_true_iff]
    refine and_iff_left_of_imp fun h => ?_
    rw [(hlines e (List.mem_filter.2 ⟨h.1, decide_eq_true h.2⟩)).1]
    rfl
  have hzip (a : Nat × Nat × ShadowLine) (ha : a ∈ (List.range lines.length).zip lines) :
      a.2 ∈ (s.til t).shadow.filter fun e => e.2.tag = tag := (hmem a.2).1 (List.of_mem_zip ha).2
  obtain ⟨hbytes, hothers, hshadow, hview⟩ := writesBack_each (fun e he => (hlines e he).2) hnd (fun i s => s.after t c i) u hzip
  have hgone (e : Nat × ShadowLine) (he : e ∈ (v.til t).shadow) : e.2.tag ≠ tag := fun htag => by
    obtain ⟨hold, hkeys⟩ := hshadow e he
    rw [htil] at hold
    have hin : e ∈ lines := (hmem e).2 (List.mem_filter.2 ⟨hold, decide_eq_true htag⟩)
    obtain ⟨i, hi, heq⟩ := List.getElem_of_mem hin
    refine hkeys (i, e) (List.mem_iff_getElem.2 ⟨i, by simpa using hi, ?_⟩) rfl
    rw [List.getElem_zip, List.getElem_range, heq]
  have hnone : v.tagLines t tag = [] := List.eq_nil_iff_forall_not_mem.2 fun e he => hgone e (mem_tagLines.1 he).1 (mem_tagLines.1 he).2
  rw [hnone, State.each, List.foldl_nil]
  refine ⟨fun e he b hb hbit => ?_, fun a ha => hothers a ha, hgone, ?_⟩
  · obtain ⟨i, hi, heq⟩ := List.getElem_of_mem ((hmem e).2 he)
    refine hbytes (i, e) (List.mem_iff_getElem.2 ⟨i, by simpa using hi, ?_⟩) b hb hbit
    rw [List.getElem_zip, List.getElem_range, heq]
  · exact hview.trans (congrArg Tile.view htil)

namespace Aborts
variable {t : Nat}

theorem loopIdle (s : State) (u r : Nat) : Aborts s (s.loopIdle u r) := by
  unfold State.loopIdle
  simp only
  split
  · exact .quiet rfl (fun _ _ _ => rfl) rfl
  · exact .refl s

theorem itemLost (s : State) (k : Nat) (token : Option (Nat × Nat)) : Aborts s (s.itemLost t k token) := by
  unfold State.itemLost
  extract_lets u
  have hu : Aborts s u := by
    cases token with
    | none => exact .refl s
    | some e => exact loopIdle s e.1 e.2
  split
  · exact hu.trans (loopIdle ..)
  · exact hu

theorem setPartial (s : State) (k : Nat) (b : Bool) : Aborts s (s.setPartial t k b) := .setSlot (List.Subset.refl _)

/-- The words of a squashed tag leave a queue. -/
theorem squashQueue (s : State) (k tag : Nat) :
    Aborts s (s.squashQueue t k tag) ∧ ∀ q ∈ ((s.squashQueue t k tag).slot t k).queue, q.mark ≠ .tag tag := by
  unfold State.squashQueue
  extract_lets x c gone cut u y v w
  split
  · next hgone =>
    refine ⟨.refl s, fun q hq hmark => ?_⟩
    have hin : q ∈ gone := List.mem_filter.2 ⟨hq, decide_eq_true hmark⟩
    exact List.not_mem_nil (hgone ▸ hin)
  · have hcleared : ((s.setQueue t k c (x.queue.filter (·.mark ≠ .tag tag))).slot t k).queue = x.queue.filter (·.mark ≠ .tag tag) :=
      (setQueue_spec ..).2
    have hrest : Aborts (s.setQueue t k c (x.queue.filter (·.mark ≠ .tag tag))) (w.each (gone.map (·.token)).eraseDups fun s q => s.itemLost t k q) := by
      have hv : Aborts (s.setQueue t k c (x.queue.filter (·.mark ≠ .tag tag))) v := .trans (s' := u) (.discardWords ..) (.setTil rfl rfl)
      have hw : Aborts v w := by
        simp only [w]
        split
        · exact setPartial ..
        · exact .refl v
      exact (hv.trans hw).trans (.each _ _ (fun s q => itemLost ..) w)
    refine ⟨(Aborts.setQueue (List.filter_sublist ..).subset).trans hrest, fun q hq => ?_⟩
    have hin := hrest.queue t k hq
    rw [hcleared] at hin
    exact of_decide_eq_true (List.mem_filter.1 hin).2

theorem squashMove (s : State) (tag : Nat) : Aborts s (s.squashMove t tag) := by
  unfold State.squashMove
  extract_lets y c
  split
  · exact .refl s
  · next m hm =>
    extract_lets under going u
    have hu : Aborts s u := (abortMoves ..).trans (itemLost ..)
    split
    · exact .refl s
    · split
      · exact hu.trans (loopIdle ..)
      · exact hu
end Aborts

/-- A tag seen SQUASHED: its lines and its queued words are gone, and no memory has changed. -/
theorem squashAt_spec (s : State) (t tag : Nat) :
    (s.squashAt t tag).sram = s.sram ∧ (∀ e ∈ ((s.squashAt t tag).til t).shadow, e.2.tag ≠ tag) ∧
      ((s.squashAt t tag).til t).view = mput (s.til t).view tag .squashed ∧
      ∀ k, k < 16 → ∀ q ∈ ((s.squashAt t tag).slot t k).queue, q.mark ≠ .tag tag := by
  unfold State.squashAt
  extract_lets y lines c u₀ u v w
  have hu : (u.til t).shadow = y.shadow.filter (·.2.tag ≠ tag) ∧ (u.til t).view = mput y.view tag .squashed := by
    rw [State.bump_til u₀ .sptCountLinesDiscard t 0 lines.length t, State.til_setTil_self]
    unfold Tile.noteShadow
    split <;> exact ⟨rfl, rfl⟩
  have hv : Aborts u v := by
    refine .each _ _ (fun s kl => ?_) u
    split
    · split
      · exact .refl s
      · exact .quiet rfl (fun _ _ _ => rfl) rfl
    · exact .refl s
  have hqueues : Aborts v w ∧ ∀ k ∈ List.range 16, ∀ q ∈ (w.slot t k).queue, q.mark ≠ .tag tag := by
    have hall := State.each_gives (P := fun k s => ∀ q ∈ (s.slot t k).queue, q.mark ≠ .tag tag) (f := fun s k => s.squashQueue t k tag)
      (l := List.range 16) (fun s k _ => (Aborts.squashQueue s k tag).2)
      (fun s k _ j h q hq => h q ((Aborts.squashQueue s k tag).1.queue t j hq)) v
    have hmove := Aborts.squashMove (t := t) (v.each (List.range 16) fun s k => s.squashQueue t k tag) tag
    exact ⟨.trans (.each _ _ (fun s k => (Aborts.squashQueue s k tag).1) v) hmove, fun k hk q hq => hall k hk q (hmove.queue t k hq)⟩
  suffices hend : ∀ r, Aborts w r → r.sram = s.sram ∧ (∀ e ∈ (r.til t).shadow, e.2.tag ≠ tag) ∧
      (r.til t).view = mput (s.til t).view tag .squashed ∧ ∀ k, k < 16 → ∀ q ∈ (r.slot t k).queue, q.mark ≠ .tag tag by
    refine hend _ (.each _ _ (fun s k => .trans (.each _ _ (fun s q => ?_) s) (.dropBuffered ..)) w)
    cases q with
    | none => exact .refl s
    | some e => exact .loopIdle s e.1 e.2
  intro r hr
  have hall := (hv.trans hqueues.1).trans hr
  have hlook := congrFun (congrArg Prod.fst hall.keeps.look_eq) t
  have hshadow : (r.til t).shadow = (u.til t).shadow := congrArg Prod.fst hlook
  have hview : (r.til t).view = (u.til t).view := congrArg Prod.snd hlook
  refine ⟨hall.sram.trans (State.bump_sram u₀ .sptCountLinesDiscard t 0 lines.length), fun e he => ?_, ?_,
    fun k hk q hq => hqueues.2 k (List.mem_range.2 hk) q (hr.queue t k hq)⟩
  · rw [hshadow, hu.1] at he
    exact of_decide_eq_true (List.mem_filter.1 he).2
  · exact hview.trans hu.2

/-- A step that acts on one element only, and once it has acted no more. -/
theorem State.each_once {α : Type} {f : State → α → State} {x : α} {s u : State} {l : List α} (hs : ∀ a ∈ l, a ≠ x → f s a = s)
    (hx : f s x = u) (hu : ∀ a ∈ l, f u a = u) (hmem : x ∈ l) : s.each l f = u := by
  induction l with
  | nil => exact (List.not_mem_nil hmem).elim
  | cons a l ih =>
    show (f s a).each l f = u
    by_cases ha : a = x
    · rw [ha, hx]
      clear ih hs hx hmem
      induction l with
      | nil => rfl
      | cons b l ih =>
        show (f u b).each l f = u
        rw [hu b (.tail _ (.head _))]
        exact ih fun c hc => hu c (by grind)
    · rw [hs a (.head _) ha]
      exact ih (fun b hb => hs b (.tail _ hb)) (fun b hb => hu b (.tail _ hb)) ((List.mem_cons.1 hmem).resolve_left fun h => ha h.symm)

/-- A tag seen resolved. -/
def Seen (s : State) (t tag : Nat) : Prop := mget .free (s.til t).view tag = .committed ∨ mget .free (s.til t).view tag = .squashed

/-- The ancestors of a tag seen resolved, only the tag itself is acted on. -/
theorem resolveAt_eq {s u : State} {t tag : Nat} {x : TagState} (hopen : ¬ Seen s t tag)
    (hup : ∀ a ∈ s.ancestors (s.sectorOf t) 4 tag, a ≠ tag → Seen s t a) (hx : s.tagSt (s.sectorOf t) tag = x)
    (hact : x = .committed ∧ s.commitAt t tag = u ∨ x = .squashed ∧ s.squashAt t tag = u)
    (hview : (u.til t).view = mput (s.til t).view tag x) : s.resolveAt t tag = u := by
  have hseen (a : Nat) (ha : a ∈ s.ancestors (s.sectorOf t) 4 tag) : Seen u t a := by
    unfold Seen
    rw [hview]
    by_cases h : a = tag
    · rw [h, mget_mput_self]
      exact hact.imp And.left And.left
    · rw [mget_mput_ne _ _ _ h]
      exact hup a ha h
  unfold State.resolveAt
  refine State.each_once (x := tag) (fun a ha hne => ?_) ?_ (fun a ha => ?_) ?_
  · obtain h | h := hup a (List.mem_reverse.1 ha) hne <;> simp only [h]
  · split
    · next h => exact (hopen (.inl h)).elim
    · next h => exact (hopen (.inr h)).elim
    · next h _ _ =>
      rw [h] at hx
      exact hact.elim And.right fun h => absurd (hx.trans h.1) (by decide)
    · next h _ _ =>
      rw [h] at hx
      rw [if_pos rfl]
      exact hact.elim (fun h => absurd (hx.trans h.1) (by decide)) And.right
    · next h h' =>
      rw [hx] at h h'
      exact hact.elim (fun hc => (h hc.1).elim) fun hc => (h' hc.1).elim
  · obtain h | h := hseen a (List.mem_reverse.1 ha) <;> simp only [h]
  · rw [List.mem_reverse]
    unfold State.ancestors
    split
    · exact List.mem_singleton_self _
    · exact .head _

/-- Operations of one message in its cycle. -/
theorem applyTagOps_singleton (s : State) (f : Nat) (m : TagMsg) :
    Retags m.sector s (s.applyTagOps f [m]) ∧
      (m.op = .squash → (s.applyTagOps f [m]).tagSt m.sector m.tag = if s.tagSt m.sector m.tag = .committed then .committed else .squashed) ∧
      (m.op = .confirm → s.tagSt m.sector m.tag = .free ∨ s.tagSt m.sector m.tag = .open_ → (s.applyTagOps f [m]).tagSt m.sector m.tag =
        if ((s.ancestors m.sector 4 m.tag).any fun a => decide (a ≠ m.tag) && (s.tagSt m.sector a).unresolved) = true then .held
        else .committed) ∧
      (m.op = .open_ → (s.applyTagOps f [m]).tagSt m.sector m.tag =
        if s.tagSt m.sector m.tag = .free then .open_ else s.tagSt m.sector m.tag) := by
  refine ⟨retags_applyTagOps f (fun x hx => by rw [List.mem_singleton.1 hx]) s, fun h => ?_, fun h hst => ?_, fun h => ?_⟩
  · rw [← (squashBoth_spec s m.sector m.tag m.tag2).2]
    simp only [State.applyTagOps, List.filter_cons, List.filter_nil, h]
    rfl
  · rw [← (confirmTag_spec s m.sector m.tag).2 hst]
    simp only [State.applyTagOps, List.filter_cons, List.filter_nil, h]
    rfl
  · rw [← (openTag_spec s m.sector m.tag).2]
    simp only [State.applyTagOps, List.filter_cons, List.filter_nil, h]
    rfl

/-- Settles O37: the operations of a cycle, a resolution and the sweep, each by the lemma that says what it leaves. -/
theorem tagsResolve : Obligations.TagsResolve := by
  refine ⟨fun s f m hf hph hto hpar htag => gives_onField hf rfl ?_, fun s t tag ht htag hcom hsq hup => ?_,
    fun s f sec hf hph hhome hswept hin => gives_onField hf rfl ?_⟩
  · have hops : s.firstOps f [m] = some (s.tagArrival m, [m]) := by
      simp [State.firstOps, minOf]
    rw [hto, hops]
    extract_lets old up
    split
    · next heq => nomatch heq
    · next t now heq =>
      cases heq
      extract_lets _ u ph
      have hnow : [m].filter (fun x => x.parity = u.parity f) = [m] := List.filter_cons_of_pos (decide_eq_true hpar)
      rw [if_pos (show ph = .work ∨ ph = .settle from hph), hnow]
      obtain ⟨hkeeps, hsquash, hconfirm, hopen⟩ := applyTagOps_singleton u f m
      refine ⟨?_, fun sec k hne => hkeeps.tagSt_ne hne k, hsquash, hconfirm, hopen, hkeeps.eq_of State.sram fun _ => rfl⟩
      rw [hkeeps.eq_of State.tagMsgs fun _ => rfl]
      simp [u]
  · intro lines
    have hopen : ¬ Seen s t tag := fun h => h.elim hcom hsq
    refine ⟨fun hst hlines hnd => gives_onTile ht rfl ?_, fun hst => gives_onTile ht rfl ?_⟩
    · rw [if_pos htag]
      obtain ⟨hbytes, hothers, hshadow, hview⟩ := commitAt_spec s t tag hlines hnd
      rw [resolveAt_eq hopen hup hst (.inl ⟨rfl, rfl⟩) hview]
      exact ⟨hbytes, hothers, hshadow, hview ▸ mget_mput_self ..⟩
    · rw [if_pos htag]
      obtain ⟨hsram, hshadow, hview, hqueues⟩ := squashAt_spec s t tag
      rw [resolveAt_eq hopen hup hst (.inr ⟨rfl, rfl⟩) hview]
      exact ⟨hsram, hshadow, hview ▸ mget_mput_self .., hqueues⟩
  · extract_lets x s0 u ms v
    rw [if_neg (by simp only [x]; rintro (h | h | h | h) <;> simp_all)]
    obtain ⟨hall, hne, hdone, hsram⟩ := sweep_spec (v.applyInOrder f ms.length (ms.filter fun m => m.parity = v.parity f)) f sec
    have hms : Retags sec v (v.applyInOrder f ms.length (ms.filter fun m => m.parity = v.parity f)) :=
      retags_applyInOrder f _ (fun m hm => of_decide_eq_true (List.mem_filter.1 (List.mem_filter.1 hm).1).2) v
    exact ⟨hall, fun b k hb => (hne b k hb).trans (hms.tagSt_ne hb k), hdone, hsram.trans (hms.eq_of State.sram fun _ => rfl)⟩

end Sys2Proof.Machine
end

section
/-! SUPPORT. What the lenses, the MV engine and their accesses to field store leave as it was. -/

namespace Sys2Proof.Machine

open Sys2Proof.Claims

namespace Keeps
variable {α : Type} {look : State → α} {rs : List Reg} {s s' : State}

/-- What is seen of the look, and more registers that may be written. -/
theorem weaken {β : Type} {look' : State → β} {rs' : List Reg} (h : Keeps look rs s s') (g : α → β) (hg : ∀ s, look' s = g (look s))
    (hsub : ∀ r ∈ rs, r ∈ rs') : Keeps look' rs' s s' :=
  ⟨h.eq_of look' g hg, fun r u k hr => h.regs r u k fun hmem => hr (hsub r hmem)⟩

end Keeps

/-- A state but for the lenses, the MV engines, field store, packets, registers and events. -/
def State.beyondEngines (s : State) : State :=
  { s.beyondMarks with lenses := [], mvs := [], fst := [], fstBad := [], fstWeak := [], journal := [], packets := [], nextPkt := 0 }

/-- The counters and status registers of the engines and of field store. -/
def engineCounts : List Reg := [.lnsStatus, .lnsCountAbandoned, .lnsCountReservedCode, .lnsCountBusy, .lnsCountSaturate, .lnsCountLoad,
  .lnsCountPasses, .lnsCountFsStall, .mveStatus, .mveCountAbandoned, .mveCountBusy, .mveCountSaturate, .mveCountReservedCode, .mveCountOps,
  .mveCountFsStall, .fstStatus, .fstCountRefused, .fstCountPoison, .fstCountEccCorr, .fstCountAccess, .fstCountConflict]

/-- Single-bit errors met are counted. -/
theorem marks_fstEcc (s : State) (f : Nat) (offs : List Nat) : Marks [.fstCountEccCorr] s (s.fstEcc f offs) := by
  unfold State.fstEcc
  simp only
  split
  · exact .refl s
  · exact .bump (by decide) (by decide) ..

/-- A state but for field store, the journal, registers and events. -/
def State.beyondStore (s : State) : State := { s.beyondMarks with fst := [], fstBad := [], fstWeak := [], journal := [] }

/-- Results written to field store: counters apart, nothing beyond the store and its journal changes. -/
abbrev StoreWork (s s' : State) : Prop := Keeps State.beyondStore engineCounts s s'

namespace StoreWork
variable {s s' : State}

theorem quiet (hlook : s'.beyondStore = s.beyondStore) (hregs : ∀ r u k, s'.rd r u k = s.rd r u k) : StoreWork s s' := Keeps.quiet hlook hregs

theorem quotaRefused (s : State) (f r off : Nat) : StoreWork s (s.quotaRefused f r off) :=
  .marks (fun _ => rfl) (.trans (.hset (f := F.fstStatus_quota) (by decide) (by decide) ..) (.logEv ..))

theorem regionWrite {f sec r block : Nat} {bs : List (Nat × Byte)} {bad : List Nat} {cyc : Nat}
    (h : s.regionWrite f sec r block bs bad cyc = some s') : StoreWork s s' := by
  unfold State.regionWrite at h
  split at h
  · extract_lets u whole addr at h
    cases h
    have hu : StoreWork s u := by
      refine .each _ bs (fun s b _ => ?_) s
      exact quiet rfl fun _ _ _ => rfl
    exact hu.trans (quiet rfl fun _ _ _ => rfl)
  · split at h
    · cases h
      exact .refl s
    · split at h
      · cases h
        exact .quiet rfl fun _ _ _ => rfl
      · split at h
        · cases h
          exact .quiet rfl fun _ _ _ => rfl
        · nomatch h
  · nomatch h

theorem fsWrite (f sec block : Nat) (bss : List (List (Nat × Byte))) (s : State) : StoreWork s (s.fsWrite f sec block bss).1 := by
  induction bss generalizing block s with
  | nil => exact .refl s
  | cons bs rest ih =>
    unfold State.fsWrite
    split
    · exact ih ..
    · extract_lets off
      split
      · exact .refl s
      · next r hr =>
        split
        · dsimp only
          split
          · exact quotaRefused ..
          · exact .refl s
        · next u hu => exact (regionWrite hu).trans (ih ..)

theorem runVector (s : State) (l f : Nat) (d : LensDesc) (v : Nat) : StoreWork s (s.runVector l f d v).1 := by
  unfold State.runVector
  extract_lets mode oh ow of_
  split
  · exact .refl s
  · dsimp only
    generalize (ite (d.acc = true) _ _ : Except FsErr (List Nat)) = old
    cases old with
    | error e => exact .refl s
    | ok olds => exact fsWrite ..

theorem runVectors (l f : Nat) (d : LensDesc) (vs : List Nat) (s : State) : StoreWork s (s.runVectors l f d vs).1 := by
  induction vs generalizing s with
  | nil => exact .refl s
  | cons v vs ih =>
    have hv := runVector s l f d v
    unfold State.runVectors
    split
    · next u sat e heq => rwa [heq] at hv
    · next u sat heq =>
      rw [heq] at hv
      exact hv.trans (ih u)

theorem mvRowOut (f : Nat) (d : MvDesc) (r : Nat) (ws : List (Option FVal)) (acts : List (List Nat)) (vs : List Nat) (s : State) :
    StoreWork s (s.mvRowOut f d r ws acts vs).1 := by
  induction vs generalizing s with
  | nil => exact .refl s
  | cons v vs ih =>
    unfold State.mvRowOut
    extract_lets off
    split
    · exact .refl s
    · extract_lets o
      have hw := fsWrite f d.sector (off / 64) (blocksOf off (elemBytes 32 o.1)) s
      split
      · next u e heq => rwa [heq] at hw
      · next u heq =>
        rw [heq] at hw
        exact hw.trans (ih u)

theorem mvRows (f : Nat) (d : MvDesc) (acts : List (List Nat)) (rs : List Nat) (s : State) : StoreWork s (s.mvRows f d acts rs).1 := by
  induction rs generalizing s with
  | nil => exact .refl s
  | cons r rs ih =>
    unfold State.mvRows
    split
    · exact .refl s
    · next ws hws =>
      extract_lets resv
      have hr := mvRowOut f d r ws acts (List.range d.v) s
      split
      · next u sat e heq => rwa [heq] at hr
      · next u sat heq =>
        rw [heq] at hr
        exact hr.trans (ih u)

theorem mvRun (s : State) (f : Nat) (d : MvDesc) (n : Nat) : StoreWork s (s.mvRun f d n).1 := by
  unfold State.mvRun
  split
  · exact .refl s
  · exact mvRows ..

end StoreWork

/-- The work of an engine: it writes its counters, and keeps what lies beyond engines, field store and packets. -/
abbrev EngineWork (s s' : State) : Prop := Keeps State.beyondEngines engineCounts s s'

namespace EngineWork
variable {s s' s'' : State}

theorem of_store (h : StoreWork s s') : EngineWork s s' := h.weaken State.beyondEngines (fun _ => rfl) fun _ hr => hr

theorem quiet (hlook : s'.beyondEngines = s.beyondEngines) (hregs : ∀ r u k, s'.rd r u k = s.rd r u k) : EngineWork s s' := Keeps.quiet hlook hregs

theorem bump {r : Reg} (h : r ∈ engineCounts) (hr : r ≠ .mshTileSector) (s : State) (u k n : Nat) : EngineWork s (s.bump r u k n) :=
  .marks (fun _ => rfl) (.bump h hr ..)

theorem hset {f : RegField} (h : f.reg ∈ engineCounts) (hr : f.reg ≠ .mshTileSector) (s : State) (u k : Nat) : EngineWork s (s.hset f u k) :=
  .marks (fun _ => rfl) (.hset h hr ..)

theorem logEv (s : State) (ev : Ev) (f loc detail : Nat) : EngineWork s (s.logEv ev f loc detail) := .marks (fun _ => rfl) (.logEv ..)

theorem setLens (s : State) (l : Nat) (x : LensSt) : EngineWork s (s.setLens l x) := .quiet rfl fun _ _ _ => rfl

theorem setMv (s : State) (f : Nat) (x : MvSt) : EngineWork s (s.setMv f x) := .quiet rfl fun _ _ _ => rfl

theorem respond (s : State) (t : Nat) (q p : Packet) : EngineWork s (s.respond t q p) := .quiet rfl fun _ _ _ => rfl

theorem refuseAccess (s : State) (t : Nat) (p : Packet) (place since : Nat) : EngineWork s (s.refuseAccess t p place since) := by
  unfold State.refuseAccess
  extract_lets u
  have hu : EngineWork s u := .quiet rfl fun _ _ _ => rfl
  split
  · exact hu.trans (respond ..)
  · split
    · exact hu.trans (respond ..)
    · exact hu

theorem fstEcc (s : State) (f : Nat) (offs : List Nat) : EngineWork s (s.fstEcc f offs) :=
  .marks (fun _ => rfl) ((marks_fstEcc s f offs).mono (by decide))

theorem readsEcc (s : State) (f : Nat) (offs : List Nat) : EngineWork s (s.readsEcc f offs) := fstEcc ..

theorem freeLoads (s : State) (l : Nat) (d : LensDesc) (endAt : Nat) : EngineWork s (s.freeLoads l d endAt) := setLens ..

theorem launchReport (s : State) (p : Packet) (words : List Nat) (since : Nat) : EngineWork s (s.launchReport p words since) := respond ..

theorem abandonPass (s : State) (l : Nat) (q : LensPass) (sat resv : Nat) : EngineWork s (s.abandonPass l q sat resv) :=
  (((bump (by decide) (by decide) ..).trans (hset (f := F.lnsStatus_abandoned) (by decide) (by decide) ..)).trans
    (bump (by decide) (by decide) ..)).trans (launchReport ..)

theorem abandonLens (s : State) (l : Nat) (mine : Nat → Bool) : EngineWork s (s.abandonLens l mine) := by
  unfold State.abandonLens
  extract_lets f x c u y t own v z w
  have hu : EngineWork s u := by
    simp only [u]
    split
    · split
      · refine .trans (.trans (.trans (.trans ?_ (readsEcc ..)) (freeLoads ..)) (bump (by decide) (by decide) ..)) (abandonPass ..)
        exact (bump (r := .lnsCountBusy) (by decide) (by decide) ..).trans (of_store (.runVectors ..))
      · exact .refl s
    · exact .refl s
  have hload (s : State) (l : Nat) (y : LensSt) : EngineWork s (match y.engine with
      | j :: _ => if j.preload.isNone then s.bump .lnsCountLoad l 0 (s.loadHad l j + j.stretched) else s
      | [] => s) := by
    split
    · split
      · exact bump (by decide) (by decide) ..
      · exact .refl s
    · exact .refl s
  have hv : EngineWork u v := by
    simp only [v]
    split
    · split
      · exact ((hload ..).trans (setLens ..)).trans (abandonPass ..)
      · exact .refl u
    · exact .refl u
  refine (((hu.trans hv).trans (setLens ..))).trans (.each _ _ (fun s e _ => ?_) w)
  exact refuseAccess ..

theorem mvCounts (s : State) (f : Nat) (d : MvDesc) (rows sat resv : Nat) : EngineWork s (s.mvCounts f d rows sat resv) :=
  ((readsEcc ..).trans (bump (by decide) (by decide) ..)).trans (bump (by decide) (by decide) ..)

theorem abandonMv (s : State) (f : Nat) (mine : Nat → Bool) : EngineWork s (s.abandonMv f mine) := by
  unfold State.abandonMv
  extract_lets x c u y v
  have hu : EngineWork s u := by
    simp only [u]
    split
    · split
      · refine .trans (.trans (.trans (.trans ?_ (bump (r := .mveCountAbandoned) (by decide) (by decide) ..))
          (hset (f := F.mveStatus_abandoned) (by decide) (by decide) ..)) (bump (r := .mveCountBusy) (by decide) (by decide) ..)) (launchReport ..)
        exact ((of_store (.mvRun ..)).trans (setMv ..)).trans (mvCounts ..)
      · exact .refl s
    · exact .refl s
  refine (hu.trans (setMv ..)).trans (.each _ _ (fun s e _ => ?_) v)
  exact refuseAccess ..

end EngineWork
end Sys2Proof.Machine
end

section
/-! SUPPORT. What the parts of a drain leave as it was. -/

namespace Sys2Proof.Machine

open Sys2Proof.Claims

theorem filterMap_mput {κ α β : Type} [DecidableEq κ] (g : κ × α → Option β) {k : κ} (hg : ∀ v, g (k, v) = none) (m : Smap κ α) (v : α) :
    (mput m k v).filterMap g = m.filterMap g := by
  unfold mput
  rw [List.filterMap_cons_none (hg v)]
  induction m with
  | nil => rfl
  | cons e m ih =>
    obtain ⟨j, w⟩ := e
    unfold mdel
    split
    · next h => rw [h, List.filterMap_cons_none (hg w), ih]
    · rw [List.filterMap_cons, List.filterMap_cons, ih]

/-- The registers that list a tile of a field. -/
def listingRegs : List Reg := [.tilRole, .chnSlotCfg, .strRule, .mshTileSector]

theorem liveTiles_wr {r : Reg} (h : r ∉ listingRegs) (s : State) (u i : Nat) (w : BitVec 64) (f : Nat) :
    (s.wr r u i w).liveTiles f = s.liveTiles f := by
  refine congrArg (fun l : List Nat =>
    ((s.tiles.map (·.1) ++ s.groups.map (·.1.1) ++ s.slots.map (·.1.1) ++ l).eraseDups.filter fun t => fieldOf t = f))
    (filterMap_mput _ (fun v => ?_) s.regs w)
  dsimp only
  split
  · exact (h (by decide)).elim
  · exact (h (by decide)).elim
  · exact (h (by decide)).elim
  · exact (h (by decide)).elim
  · rfl

theorem sectorTiles_wr {r : Reg} (h : r ∉ listingRegs) (s : State) (u i : Nat) (w : BitVec 64) (f sec : Nat) :
    (s.wr r u i w).sectorTiles f sec = s.sectorTiles f sec := by
  have hsec (t : Nat) : (s.wr r u i w).sectorOf t = s.sectorOf t := by
    unfold State.sectorOf State.gf
    rw [State.rd_wr _ _ _ _ _ _ _ _ (.inl (by decide)), if_neg]
    rintro ⟨⟩
    exact h (by decide)
  unfold State.sectorTiles
  rw [liveTiles_wr h]
  simp only [hsec]

theorem sectorTiles_sf {g : RegField} (h : g.reg ∉ listingRegs) (s : State) (u i v f sec : Nat) :
    (s.sf g u i v).sectorTiles f sec = s.sectorTiles f sec := sectorTiles_wr h ..

theorem sectorTiles_logEv (s : State) (ev : Ev) (g loc detail f sec : Nat) : (s.logEv ev g loc detail).sectorTiles f sec = s.sectorTiles f sec := by
  obtain ⟨r, o, i, h⟩ := s.logEv_spec ev g loc detail
  rw [h]
  rfl

/-- A state but for its registers, its mailbox jobs and what it tells a host. -/
def State.beyondMbox (s : State) : State := { s.beyondMarks with mboxJobs := [] }

/-- Mailbox commands complete: no tile is listed or unlisted, and nothing but registers of the mailbox changes. -/
theorem finishOp_spec (s : State) (op : MboxOp) (status : Nat) (results : List Nat) :
    Keeps State.beyondMbox [.hstMboxStatus, .hstMboxResult] s (s.finishOp op status results) ∧
      ∀ f sec, (s.finishOp op status results).sectorTiles f sec = s.sectorTiles f sec := by
  have hone (s : State) (u : Nat) : Keeps State.beyondMbox [.hstMboxStatus, .hstMboxResult] s (s.mboxDone u status results) ∧
      ∀ f sec, (s.mboxDone u status results).sectorTiles f sec = s.sectorTiles f sec := by
    unfold State.mboxDone
    extract_lets v w
    have hv : Marks [.hstMboxStatus, .hstMboxResult] s v :=
      (Marks.sf (f := F.hstMboxStatus_state) (by decide) (by decide) ..).trans (.sf (f := F.hstMboxStatus_status) (by decide) (by decide) ..)
    have hw : Marks [.hstMboxStatus, .hstMboxResult] v w := .each _ _ (fun s e _ => .wr (by decide) (by decide) ..) v
    refine ⟨.trans (s' := w) (.marks (fun _ => rfl) (hv.trans hw)) (.quiet rfl fun _ _ _ => rfl), fun f sec => ?_⟩
    have htiles : w.sectorTiles f sec = v.sectorTiles f sec :=
      State.each_same (State.sectorTiles · f sec) _ _ (fun s e _ => sectorTiles_wr (by decide) ..) v
    refine Eq.trans (b := w.sectorTiles f sec) rfl (htiles.trans ?_)
    exact (sectorTiles_wr (by decide) ..).trans (sectorTiles_wr (by decide) ..)
  exact ⟨.each _ _ (fun s u _ => (hone s u).1) s,
    fun f sec => State.each_same (State.sectorTiles · f sec) _ _ (fun s u _ => (hone s u).2 f sec) s⟩

/-- The fields and local store. -/
def State.drainLook (s : State) : Smap Nat FieldSt × List Host.Cell := (s.fields, s.sram)

/-- The counters and status registers that a drain writes, its own status apart. -/
def drainCounts : List Reg :=
  ([.chnCountFlush, .chnCountStallCredit, .sptCountShadowStall, .tilCountTagStall] : List Reg) ++ abortCounts ++ engineCounts

/-- A part of a drain: it writes its counters, no field and no local store. -/
abbrev Drains (s s' : State) : Prop := Keeps State.drainLook drainCounts s s'

namespace Drains
variable {s s' : State}

theorem of_aborts (h : Aborts s s') : Drains s s' :=
  h.keeps.weaken (fun l => l.2.drainLook) (fun _ => rfl) fun _ hr => List.mem_append_left _ (List.mem_append_right _ hr)

theorem of_work (h : EngineWork s s') : Drains s s' := h.weaken State.drainLook (fun _ => rfl) fun _ hr => List.mem_append_right _ hr

theorem quiet (hlook : s'.drainLook = s.drainLook) (hregs : ∀ r u k, s'.rd r u k = s.rd r u k) : Drains s s' := Keeps.quiet hlook hregs

theorem bump {r : Reg} (h : r ∈ drainCounts) (hr : r ≠ .mshTileSector) (s : State) (u k n : Nat) : Drains s (s.bump r u k n) :=
  .marks (fun _ => rfl) (.bump h hr ..)

theorem lastWait_reg {x : Ctx} {r : Reg} {i : Nat} {short : Nat → Bool} (h : s.lastWait x = some (r, i, short)) :
    r = .chnCountStallCredit ∨ r = .tilCountTagStall ∨ r = .sptCountShadowStall := by
  unfold State.lastWait at h
  extract_lets y send lines at h
  split at h
  · cases h; exact .inl rfl
  · cases h; exact .inl rfl
  · split at h
    · nomatch h
    · cases h; exact .inr (.inl rfl)
  · nomatch h
  · nomatch h
  · split at h
    · cases h; exact .inr (.inr rfl)
    · nomatch h
  · split at h
    · cases h; exact .inr (.inr rfl)
    · nomatch h
  · nomatch h

theorem countWait (s : State) (x : Ctx) (b : Nat) : Drains s (s.countWait x b) := by
  unfold State.countWait
  split
  · exact .refl s
  · next r i short hr =>
    extract_lets a n
    split
    · exact .refl s
    · obtain rfl | rfl | rfl := lastWait_reg hr <;> exact bump (by decide) (by decide) ..

theorem endWait (s : State) (t g b : Nat) : Drains s (s.endWait t g b) := by
  unfold State.endWait
  extract_lets count
  have hcount (c : Nat) (i : TInst) : Drains s (count c i) := (countWait ..).trans (.quiet rfl fun _ _ _ => rfl)
  split
  · split
    · split
      · exact hcount ..
      · exact .refl s
    · exact .refl s
  · split
    · exact hcount ..
    · exact .refl s
  · exact .refl s

theorem drainTile (s : State) (t : Nat) : Drains s (s.drainTile t) := by
  unfold State.drainTile
  extract_lets c u _ v w outs x outside ins
  have hu : Drains s u := by
    simp only [u, State.haltGroups]
    split
    · exact .refl s
    · exact quiet rfl fun _ _ _ => rfl
  have hv : Drains u v := quiet rfl fun _ _ _ => rfl
  have hw : Drains v w := .marks (fun _ => rfl) (.sf (f := F.strStatus_draining) (by decide) (by decide) ..)
  have hx : Drains w x := .each _ _ (fun s k _ => .trans (of_aborts (.dropBuffered ..)) (bump (by decide) (by decide) ..)) w
  refine (((hu.trans hv).trans hw).trans hx).trans (.each _ _ (fun s k _ => ?_) x)
  extract_lets y kept z
  have hz : Drains s z := of_aborts (((Aborts.setQueue (List.take_subset ..)).trans (.discardWords ..)).trans (.setTil rfl rfl))
  split
  · exact hz.trans (of_aborts (.setPartial ..))
  · exact hz

end Drains

/-- A drain's status read after its sector was named. -/
theorem drainState_named (s : State) (f sec : Nat) :
    (s.sf F.strDrainStatus_sector f 0 sec).gf F.strDrainStatus_state f = s.gf F.strDrainStatus_state f :=
  State.gf_sf_apart s F.strDrainStatus_sector f 0 sec rfl (.inr (by decide))

/-- The sector of a drain's status, just named. -/
theorem drainSector_named (s : State) (f : Nat) {sec : Nat} (hsec : sec < 4096) :
    (s.sf F.strDrainStatus_sector f 0 sec).gf F.strDrainStatus_sector f = sec :=
  (State.gf_sf_self s F.strDrainStatus_sector f 0 sec (by decide) (by rfl : _ = 4096)).trans (Nat.mod_eq_of_lt hsec)

/-- The state of a drain's status, just set. -/
theorem drainState_set (s : State) (f : Nat) {x : Nat} (hx : x < 4) :
    (s.sf F.strDrainStatus_state f 0 x).gf F.strDrainStatus_state f = x :=
  (State.gf_sf_self s F.strDrainStatus_state f 0 x (by decide) (by rfl : _ = 4)).trans (Nat.mod_eq_of_lt hx)

theorem Drains.status {s s' : State} (h : Drains s s') {g : RegField} (hg : g.reg ∉ drainCounts) (f : Nat) : s'.gf g f = s.gf g f :=
  h.gf_eq hg f 0

theorem Drains.fld {s s' : State} (h : Drains s s') (f : Nat) : s'.fld f = s.fld f :=
  h.eq_of (State.fld · f) (fun l => mget {} l.1 f) fun _ => rfl

theorem Drains.sram {s s' : State} (h : Drains s s') : s'.sram = s.sram := h.eq_of State.sram Prod.snd fun _ => rfl

/-- A drain under way in a field: what is read of it there. -/
structure UnderWay (f sec st : Nat) (s : State) : Prop where
  draining : s.isDraining f sec = true
  state : s.gf F.strDrainStatus_state f = st
  sector : s.gf F.strDrainStatus_sector f = sec

theorem UnderWay.drains {f sec st : Nat} {s s' : State} (h : UnderWay f sec st s) (hd : Drains s s') : UnderWay f sec st s' where
  draining := by
    rw [State.isDraining, hd.fld]
    exact h.draining
  state := (hd.status (by decide) f).trans h.state
  sector := (hd.status (by decide) f).trans h.sector

/-- A drain just begun in a field. -/
theorem beginDrain_spec (s : State) {f sec : Nat} (hsec : sec < 4096) (hdr : s.isDraining f sec = false) (hq : s.isQuiesced f sec = false) :
    UnderWay f sec 1 (s.beginDrain f sec) ∧ (s.beginDrain f sec).sram = s.sram := by
  unfold State.beginDrain
  extract_lets x a b c d e
  have hgo : ¬(x.quiesced.contains sec = true ∨ s.isDraining f sec = true) := fun h =>
    h.elim (fun h => Bool.false_ne_true (hq.symm.trans h)) fun h => Bool.false_ne_true (hdr.symm.trans h)
  rw [if_neg hgo]
  have ha : Drains s a := .each _ _ (fun s t _ => .each _ _ (fun s g _ => Drains.endWait ..) s) s
  have he : Drains d e := .each _ _ (fun s t _ => Drains.drainTile s t) d
  clear_value e a
  have hd : UnderWay f sec 1 d := by
    refine ⟨?_, (drainState_named ..).trans ?_, drainSector_named _ _ hsec⟩
    · have hb : (b.fld f).draining = x.draining ++ [(sec, a.cycle f)] := congrArg FieldSt.draining ((State.fld_setFld ..).trans (if_pos rfl))
      have hfld : d.fld f = b.fld f := rfl
      rw [State.isDraining, hfld, hb]
      simp
    · rw [State.gf_sf_ne _ F.strDrainCtl_sector _ _ _ (.inr (by decide)) (by simp [F.strDrainCtl_sector, F.strDrainStatus_state])]
      exact drainState_set _ _ (by decide)
  have hsram : d.sram = s.sram := ha.sram
  split
  · have hg : Drains e (e.each (List.range 16) fun s tag => match s.tagSt sec tag with
        | .open_ | .held => s.setTagSt sec tag .squashed
        | _ => s) := .each _ _ (fun s tag _ => by split <;> exact .quiet rfl fun _ _ _ => rfl) e
    exact ⟨(hd.drains he).drains hg, (hg.sram.trans he.sram).trans hsram⟩
  · exact ⟨hd.drains he, he.sram.trans hsram⟩

/-- A drain just begun, with the abandonment that goes with it. -/
theorem startDrain_spec (s : State) {f sec : Nat} (hsec : sec < 4096) (hdr : s.isDraining f sec = false) (hq : s.isQuiesced f sec = false) :
    UnderWay f sec 1 (s.startDrain f sec) ∧ (s.startDrain f sec).sram = s.sram := by
  obtain ⟨hbegun, hsram⟩ := beginDrain_spec s hsec hdr hq
  have hrest : Drains (s.beginDrain f sec) (s.startDrain f sec) := by
    unfold State.startDrain
    rw [if_neg (by simp [hdr, hq])]
    extract_lets v w
    have hw : Drains v w := .each _ _ (fun s l _ => Drains.of_work (.abandonLens ..)) v
    exact hw.trans (Drains.of_work (.abandonMv ..))
  exact ⟨hbegun.drains hrest, hrest.sram.trans hsram⟩

/-- A sector quiesced in a field. -/
theorem quiesce_spec (s : State) (f sec : Nat) :
    (s.quiesce f sec).isDraining f sec = false ∧ (s.quiesce f sec).isQuiesced f sec = true ∧
      (s.quiesce f sec).gf F.strDrainStatus_state f = 2 ∧ (s.quiesce f sec).slots = s.slots ∧ (s.quiesce f sec).sram = s.sram := by
  unfold State.quiesce
  extract_lets x a b c
  have hc : Marks [.strStatus] c (c.each (c.sectorTiles f sec) fun s t => s.sf F.strStatus_draining t 0 0) :=
    .each _ _ (fun s t _ => .sf (by decide) (by decide) ..) c
  have hset := (State.fld_setFld s f f
    { x with draining := x.draining.filter (·.1 ≠ sec), quiesced := sec :: x.quiesced.filter (· ≠ sec) }).trans (if_pos rfl)
  have hdraining : (a.fld f).draining = x.draining.filter (·.1 ≠ sec) := congrArg FieldSt.draining hset
  have hquiesced : (a.fld f).quiesced = sec :: x.quiesced.filter (· ≠ sec) := congrArg FieldSt.quiesced hset
  have hend : (c.each (c.sectorTiles f sec) fun s t => s.sf F.strStatus_draining t 0 0).fld f = a.fld f :=
    hc.beyond_eq (State.fld · f) fun _ => rfl
  refine ⟨?_, ?_, ?_, hc.beyond_eq State.slots fun _ => rfl, hc.beyond_eq State.sram fun _ => rfl⟩
  · rw [State.isDraining, hend, hdraining]
    simp
  · rw [State.isQuiesced, hend, hquiesced]
    simp
  · rw [hc.gf_eq (by decide)]
    exact (drainState_named ..).trans (drainState_set _ _ (by decide))

/-- A drain ended in a field. -/
theorem endDrain_spec (s : State) (f sec : Nat) :
    (s.endDrain f sec).isDraining f sec = false ∧ (s.endDrain f sec).isQuiesced f sec = true ∧
      (s.endDrain f sec).gf F.strDrainStatus_state f = 2 ∧ (s.endDrain f sec).slots = s.slots ∧ (s.endDrain f sec).sram = s.sram := by
  obtain ⟨hdr, hq, hst, hslots, hsram⟩ := quiesce_spec s f sec
  unfold State.endDrain
  extract_lets n u
  have hst' : u.gf F.strDrainStatus_state f = 2 :=
    (State.gf_sf_apart (g := F.strDrainStatus_state) _ F.strDrainStatus_elapsed f 0 _ rfl (.inr (by decide))).trans hst
  split
  · obtain ⟨hk, -⟩ := finishOp_spec u (.drain sec) mbOk
      [((u.fieldsOf sec).map fun g => u.gf F.strDrainStatus_elapsed g).foldl max 0]
    refine ⟨(hk.eq_of (State.isDraining · f sec) (State.isDraining · f sec) fun _ => rfl).trans hdr,
      (hk.eq_of (State.isQuiesced · f sec) (State.isQuiesced · f sec) fun _ => rfl).trans hq, (hk.gf_eq (by decide) _ _).trans hst',
      (hk.eq_of State.slots State.slots fun _ => rfl).trans hslots, (hk.eq_of State.sram State.sram fun _ => rfl).trans hsram⟩
  · exact ⟨hdr, hq, hst', hslots, hsram⟩

/-- A flush: it puts no word into a queue, writes its counters, and keeps what lies beyond channels. -/
structure Flushes (s s' : State) : Prop where
  queue : ∀ t j, (s'.slot t j).queue ⊆ (s.slot t j).queue
  keeps : Keeps State.abortLook (.chnCountFlush :: abortCounts) s s'

theorem Flushes.each {α : Type} (f : State → α → State) (l : List α) (hf : ∀ s a, Flushes s (f s a)) (s : State) : Flushes s (s.each l f) :=
  State.each_keeps Flushes (fun s => ⟨fun _ _ _ h => h, .refl s⟩)
    (fun _ _ _ h h' => ⟨fun t j _ hw => h.queue t j (h'.queue t j hw), h.keeps.trans h'.keeps⟩) f l (fun s a _ => hf s a) s

theorem Flushes.drains {s s' : State} (h : Flushes s s') : Drains s s' :=
  h.keeps.weaken (fun l => l.2.drainLook) (fun _ => rfl) fun r hr => by
    obtain rfl | hr := List.mem_cons.1 hr
    · decide
    · exact List.mem_append_left _ (List.mem_append_right _ hr)

theorem flushes (s : State) (t k : Nat) : Flushes s (s.flushWithAbort t k) := by
  obtain ⟨u, hu, -, hafter⟩ := flushWithAbort_parts s t k
  have hmono {v w : State} (h : Aborts v w) : Keeps State.abortLook (.chnCountFlush :: abortCounts) v w := h.keeps.mono fun r hr => .tail _ hr
  exact ⟨fun t' j w hw => hu.queue t' j (hafter.queue t' j hw),
    ((hmono hu).trans (.marks (fun _ => rfl) (.bump (by decide) (by decide) ..))).trans (hmono hafter)⟩

/-- Every slot of some tiles flushed: their in-slots are empty. -/
theorem flushAll_spec (s : State) (ts : List Nat) :
    Flushes s (s.each ts fun s t => s.each (s.slotsOf t) fun s k => s.flushWithAbort t k) ∧
      ∀ t ∈ ts, ∀ k, k < 16 → s.flag F.chnSlotCfg_enable t k = true →
        ((s.each ts fun s t => s.each (s.slotsOf t) fun s k => s.flushWithAbort t k).slot t k).queue = [] := by
  have htile (s : State) (t : Nat) : Flushes s (s.each (s.slotsOf t) fun s k => s.flushWithAbort t k) := .each _ _ (fun s k => flushes ..) s
  refine ⟨.each _ _ htile s, fun t ht k hk hen => ?_⟩
  refine State.each_gives (P := fun t s => s.flag F.chnSlotCfg_enable t k = true → (s.slot t k).queue = []) (fun s t _ => ?_)
    (fun s t _ u h => ?_) s t ht ?_
  · intro hen
    refine State.each_gives (P := fun k s => k < 16 → (s.slot t k).queue = []) (f := fun s k => s.flushWithAbort t k)
      (fun s k _ => (flushWithAbort_spec s t k).1) (fun s k _ j h hj => ?_) s k ?_ hk
    · exact List.subset_nil.1 (h hj ▸ (flushes s t k).queue t j)
    · rw [(htile s t).keeps.flag_eq (by decide)] at hen
      rw [State.slotsOf, List.mem_filter, List.mem_range]
      exact ⟨by omega, hen⟩
  · rw [(htile s t).keeps.flag_eq (by decide)]
    exact fun hen => List.subset_nil.1 (h hen ▸ (htile s t).queue u k)
  · rw [(Flushes.each _ _ htile s).keeps.flag_eq (by decide)]
    exact hen

/-- Settles O38: a drain begun, found empty, and timed out. -/
theorem drainsRun : Obligations.DrainsRun := by
  intro s req n f sec c0 hf hsec
  refine ⟨fun hph hdr hq => gives_onField hf rfl ?_, fun hreq => gives_onField hf rfl ?_, fun hdr hempty => gives_onField hf rfl ?_,
    fun hfind hempty hnot => gives_onField hf rfl ?_⟩
  · dsimp only
    rw [if_pos hph]
    obtain ⟨⟨hdr', hst, hsector⟩, hsram⟩ := startDrain_spec s hsec hdr hq
    exact ⟨hdr', hst, hsector, hsram⟩
  · have href (r : Requester) : (s.refuse f r (fieldWin f 0x20010)).fields = s.fields ∧ (s.refuse f r (fieldWin f 0x20010)).slots = s.slots ∧
        (s.refuse f r (fieldWin f 0x20010)).regs = s.regs ∧ (s.refuse f r (fieldWin f 0x20010)).sram = s.sram :=
      ⟨State.refuse_fields .., State.refuse_slots .., State.refuse_regs .., State.refuse_sram ..⟩
    cases req with
    | keeper k => exact (hreq k rfl).elim
    | _ => exact href _
  · rw [if_pos ⟨hdr, hempty⟩]
    exact endDrain_spec s f sec
  · rw [hfind]
    split
    · next h => nomatch h
    · next k c h =>
      cases h
      rw [if_neg (by simpa [hempty] using hnot)]
      extract_lets a b c d
      obtain ⟨hfin, htiles⟩ := finishOp_spec c (.drain sec) mbTimeout [c.drainBound f sec]
      obtain ⟨hflush, hqueues⟩ := flushAll_spec d (d.sectorTiles f sec)
      have hc : Marks [.strDrainStatus] a c :=
        ((Marks.sf (f := F.strDrainStatus_state) (by decide) (by decide) ..).trans (.sf (f := F.strDrainStatus_sector) (by decide) (by decide) ..)).trans
          (.logEv ..)
      have hst : c.gf F.strDrainStatus_state f = 3 :=
        (State.logEv_gf ..).trans ((drainState_named ..).trans (drainState_set _ _ (by decide)))
      have hdr : c.isDraining f sec = true := by
        rw [State.isDraining, hc.beyond_eq (State.fld · f) fun _ => rfl, List.any_eq_true]
        exact ⟨(sec, c0), List.mem_of_find?_eq_some hfind, decide_eq_true rfl⟩
      have hsec' (t : Nat) (ht : t ∈ s.sectorTiles f sec) : t ∈ d.sectorTiles f sec := by
        have hc' : c.sectorTiles f sec = b.sectorTiles f sec := sectorTiles_logEv ..
        have hb : b.sectorTiles f sec = a.sectorTiles f sec :=
          (sectorTiles_sf (g := F.strDrainStatus_sector) (by decide) ..).trans (sectorTiles_sf (g := F.strDrainStatus_state) (by decide) ..)
        rw [htiles, hc', hb]
        exact ht
      refine ⟨(hflush.drains.gf_eq (by decide) f 0).trans ((hfin.gf_eq (by decide) f 0).trans hst), ?_, ?_, fun t ht k hk hen => ?_, ?_⟩
      · rw [hflush.keeps.eq_of State.now (fun l => l.2.now) fun _ => rfl, hfin.eq_of State.now State.now fun _ => rfl,
          hc.beyond_eq State.now fun _ => rfl]
        exact Nat.le_max_right ..
      · rw [State.isDraining, hflush.drains.fld]
        exact (hfin.eq_of (State.isDraining · f sec) (State.isDraining · f sec) fun _ => rfl).trans hdr
      · refine hqueues t (hsec' t ht) k hk ?_
        rw [hfin.flag_eq (by decide), hc.flag_eq (by decide)]
        exact hen
      · rw [hflush.drains.sram, hfin.eq_of State.sram State.sram fun _ => rfl, hc.beyond_eq State.sram fun _ => rfl]
        rfl

end Sys2Proof.Machine
end

section
/-! SUPPORT. Field store: its requests, its banks, the journal and scrub. -/

namespace Sys2Proof.Machine

open Sys2Proof.Claims

/-- The state that has written field store byte by byte. -/
abbrev State.writeEach {α : Type} (s : State) (addr : α → Nat) (val : α → Byte) (l : List α) : State :=
  s.each l fun s x => { s with fst := memWrite s.fst (addr x) (val x) }

/-- A state but for the bytes of field store. -/
def State.beyondFst (s : State) : State := { s with fst := [] }

/-- Bytes written at addresses that name one byte each are read there; no other byte of field store changes, and nothing else. -/
theorem writeEach_spec {α : Type} {addr : α → Nat} {val : α → Byte} {l : List α} (h : ∀ x ∈ l, ∀ y ∈ l, addr x = addr y → val x = val y)
    (s : State) :
    (∀ x ∈ l, memRead (s.writeEach addr val l).fst (addr x) = val x) ∧
      (∀ a, (∀ x ∈ l, a ≠ addr x) → memRead (s.writeEach addr val l).fst a = memRead s.fst a) ∧
      (s.writeEach addr val l).beyondFst = s.beyondFst := by
  refine ⟨fun x hx => ?_, fun a ha => ?_, State.each_same State.beyondFst (fun s x => { s with fst := memWrite s.fst (addr x) (val x) }) l (fun _ _ _ => rfl) s⟩
  · refine State.each_gives (P := fun x s => x ∈ l → memRead s.fst (addr x) = val x) (fun s x _ _ => memRead_memWrite_self ..)
      (fun s y hy x hread hx => ?_) s x hx hx
    by_cases heq : addr x = addr y
    · simp only [heq, memRead_memWrite_self, h x hx y hy heq]
    · exact (memRead_memWrite_ne _ _ heq).trans (hread hx)
  · exact State.each_same (fun s => memRead s.fst a) _ l (fun s x hx => memRead_memWrite_ne _ _ (ha x hx)) s

/-- The state in which a bank has taken the head of a bay port's queue. -/
def State.taken (s : State) (f bank waited b : Nat) (p : Packet) (rest : List Packet) : State :=
  { s with bayQueues := mput s.bayQueues b rest
           bankLast := mput (mput s.bankLast (f, bank) (bayInField b)) (64 + f, b) (s.accessAt f p waited) }

/-- The state in which a bank serves the head of a bay port's queue. -/
def State.turned (s : State) (f bank waited b : Nat) (p : Packet) (rest : List Packet) : State :=
  ((s.taken f bank waited b p rest).bump .fstCountAccess f 0 1).bump .fstCountConflict f 0 waited

/-- What a bank access reads of a field's store and journal, and the queues and packets. -/
def State.bankLook (s : State) : State := { s.beyondMarks with bayQueues := [], bankLast := [] }

theorem turned_spec (s : State) (f bank waited b : Nat) (p : Packet) (rest : List Packet) :
    Keeps State.bankLook [.fstCountAccess, .fstCountConflict] s (s.turned f bank waited b p rest) ∧
      mget [] (s.turned f bank waited b p rest).bayQueues b = rest := by
  have hcounts : Marks [.fstCountAccess, .fstCountConflict] (s.taken f bank waited b p rest) (s.turned f bank waited b p rest) :=
    .trans (.bump (by decide) (by decide) ..) (.bump (by decide) (by decide) ..)
  exact ⟨.trans (s' := s.taken f bank waited b p rest) (.quiet rfl fun _ _ _ => rfl) (.marks (fun _ => rfl) hcounts), mget_mput_self ..⟩

theorem bankAccess_eq {s : State} {f bank waited b : Nat} {rest : List Nat} {p : Packet} {ps : List Packet} (hf : f < 64)
    (hfog : (s.fld f).fogged = false) (hscrub : scrubSlot bank (s.cycle f) = false)
    (happ : ∀ e ∈ s.journal, e.field = f → e.committed = true → bankOf (e.block * 64) ≠ bank) (hturn : s.bankTurn f bank = b :: rest)
    (hq : mget [] s.bayQueues b = p :: ps) :
    exec (.fieldStoreBankAccess f bank waited) s = .next
      (if p.ty = .rload then (s.turned f bank waited b p ps).fsLoad f p ((s.turned f bank waited b p ps).cyclesOn f (s.accessAt f p waited) 9)
        else (s.turned f bank waited b p ps).fsStore f p ((s.turned f bank waited b p ps).cyclesOn f (s.accessAt f p waited) 1)) := by
  have hnone : (s.journal.any fun e => decide (e.field = f) && e.committed && decide (bankOf (e.block * 64) = bank)) = false := by
    rw [List.any_eq_false]
    intro e he h
    simp only [Bool.and_eq_true, decide_eq_true_eq] at h
    exact happ e he h.1.1 h.1.2 h.2
  have hgo : ¬((s.fld f).fogged = true ∨ (s.journal.any fun e => decide (e.field = f) && e.committed && decide (bankOf (e.block * 64) = bank)) = true ∨
      scrubSlot bank (s.cycle f) = true) := by simp only [hfog, hnone, hscrub]; decide
  rw [show exec (.fieldStoreBankAccess f bank waited) s = execFieldStoreBankAccess f bank waited s from rfl, execFieldStoreBankAccess]
  dsimp only
  rw [if_neg hgo, hturn]
  dsimp only
  rw [hq]
  exact onField_next hf

/-- The bytes of a store's mask, with their places in the block. -/
def maskedBytes (p : Packet) : List (Nat × Byte) :=
  (List.range 64).filterMap fun j => if p.mask.testBit (j / 4) then some (j, byteOf (p.body.getD (j / 4) { w := 0 }).w (j % 4)) else none

theorem mem_maskedBytes {p : Packet} {b : Nat × Byte} : b ∈ maskedBytes p ↔ b.1 < 64 ∧ p.mask.testBit (b.1 / 4) = true ∧
    b.2 = byteOf (p.body.getD (b.1 / 4) { w := 0 }).w (b.1 % 4) := by
  obtain ⟨j, v⟩ := b
  simp only [maskedBytes, List.mem_filterMap, List.mem_range, Option.ite_none_right_eq_some, Option.some.injEq, Prod.mk.injEq]
  constructor
  · rintro ⟨i, hi, hbit, rfl, rfl⟩
    exact ⟨hi, hbit, rfl⟩
  · rintro ⟨hi, hbit, rfl⟩
    exact ⟨j, hi, hbit, rfl, rfl⟩

theorem maskedBytes_nodup (p : Packet) : ((maskedBytes p).map Prod.fst).Nodup := by
  have hsub : ((maskedBytes p).map Prod.fst).Sublist (List.range 64) := by
    unfold maskedBytes
    induction List.range 64 with
    | nil => exact .slnil
    | cons j l ih =>
      rw [List.filterMap_cons]
      split
      · next h => exact ih.cons _
      · next h =>
        split at h
        · cases h
          exact ih.cons_cons _
        · nomatch h
  exact hsub.nodup List.nodup_range

/-- A store into a SCRATCH region. -/
theorem regionWrite_scratch {s : State} {f sec r block cyc : Nat} {bs : List (Nat × Byte)} {bad : List Nat} (hkind : s.regionKind f r = 0)
    (hnd : (bs.map Prod.fst).Nodup) :
    ∃ u, s.regionWrite f sec r block bs bad cyc = some u ∧
      (∀ b ∈ bs, u.fstByte f (block * 64 + b.1) = b.2) ∧
      (∀ a, (∀ b ∈ bs, a ≠ fstAddr f (block * 64 + b.1)) → memRead u.fst a = memRead s.fst a) ∧ u.journal = s.journal ∧ u.sram = s.sram ∧
      u.bayQueues = s.bayQueues := by
  obtain ⟨hread, hothers, hrest⟩ := writeEach_spec (addr := fun b => fstAddr f (block * 64 + b.1)) (val := Prod.snd) (l := bs)
    (fun x hx y hy h => congrArg Prod.snd (List.inj_on_of_nodup_map hnd hx hy (by unfold fstAddr at h; omega))) s
  unfold State.regionWrite
  rw [hkind]
  exact ⟨_, rfl, hread, hothers, (congrArg State.journal hrest :), (congrArg State.sram hrest :),
    (congrArg State.bayQueues hrest :)⟩

/-- A store into a COMMITTED region, its sector's first of the block in the watch. -/
theorem regionWrite_committed {s : State} {f sec r block cyc : Nat} {bs : List (Nat × Byte)} {bad : List Nat} (hkind : s.regionKind f r = 1)
    (hbefore : s.beforeCommit f = true) (hown : s.ownEntry f sec block = none) (hquota : s.quotaUsed f r < s.gf F.fstRegionCfg_quota f r)
    (hnd : (bs.map Prod.fst).Nodup) :
    ∃ e : JEntry, s.regionWrite f sec r block bs bad cyc = some { s with journal := s.journal ++ [e] } ∧
      e.field = f ∧ e.sector = sec ∧ e.block = block ∧ e.committed = false ∧ ∀ b ∈ bs, mget 0 e.data b.1 = b.2 := by
  unfold State.regionWrite
  rw [hkind]
  dsimp only
  rw [if_neg (by rw [hbefore]; decide), hown]
  dsimp only
  rw [if_pos hquota]
  have hmerge (e : JEntry) : (e.merge bs bad cyc).field = e.field ∧ (e.merge bs bad cyc).sector = e.sector ∧
      (e.merge bs bad cyc).block = e.block ∧ (e.merge bs bad cyc).committed = e.committed ∧
      (e.merge bs bad cyc).data = bs.foldl (fun d b => mput d b.1 b.2) e.data := by
    unfold JEntry.merge
    extract_lets written x
    obtain ⟨hfield, hsector, hblock, hcom, hdata⟩ : x.field = e.field ∧ x.sector = e.sector ∧ x.block = e.block ∧
        x.committed = e.committed ∧ x.data = e.data := by
      simp only [x]
      split <;> exact ⟨rfl, rfl, rfl, rfl, rfl⟩
    exact ⟨hfield, hsector, hblock, hcom, congrArg (bs.foldl fun d b => mput d b.1 b.2) hdata⟩
  obtain ⟨hfield, hsector, hblock, hcom, hdata⟩ := hmerge { field := f, sector := sec, block := block, region := r }
  exact ⟨_, rfl, hfield, hsector, hblock, hcom, fun b hb => hdata ▸ mget_foldl_mput 0 Prod.fst Prod.snd hnd hb _⟩

/-- A load of intact words answers them. -/
theorem fsLoad_spec (s : State) (f : Nat) (p : Packet) (since : Nat)
    (hok : ∀ j, j < 16 → (s.seeWord f (some p.sector) (p.full % 2 ^ 26 / 64 * 64 + 4 * j)).bad = false) :
    (∃ q ∈ (s.fsLoad f p since).packets, q.ty = .rdata ∧ q.dest = p.src ∧ q.sslot = p.sslot ∧ q.gen = p.gen ∧
      q.body.map (·.w) = (List.range 16).map fun j => (s.seeWord f (some p.sector) (p.full % 2 ^ 26 / 64 * 64 + 4 * j)).w) ∧
      EngineWork s (s.fsLoad f p since) ∧ (s.fsLoad f p since).fst = s.fst ∧ (s.fsLoad f p since).journal = s.journal := by
  unfold State.fsLoad
  extract_lets off ws bad u
  have hbad : bad = 0 := by
    refine List.length_eq_zero_iff.2 (List.filter_eq_nil_iff.2 fun j hj => ?_)
    have h := hok (2 * j) (by have := List.mem_range.1 hj; omega)
    rw [show 4 * (2 * j) = 8 * j by omega] at h
    exact ne_true_of_eq_false h
  have hu : EngineWork s u := (EngineWork.fstEcc ..).trans (EngineWork.bump (by decide) (by decide) ..)
  have hkeep : u.fst = s.fst ∧ u.journal = s.journal := by
    have hm := marks_fstEcc s f ((List.range 8).map fun j => off + 8 * j)
    exact ⟨hm.beyond_eq State.fst fun _ => rfl, hm.beyond_eq State.journal fun _ => rfl⟩
  clear_value u bad
  subst hbad
  exact ⟨⟨_, List.mem_append_right _ (List.mem_singleton_self _), rfl, rfl, rfl, rfl, List.map_map.trans rfl⟩,
    hu.trans (EngineWork.respond ..), hkeep⟩

/-- A tile's request that comes to its bay port as it must: a region admits it, and it waits there, or it is refused. -/
theorem fieldStoreRequest_eq {s : State} {id : Nat} {p : Packet} (harr : s.fsArrived id = some p) (hspace : addrSpace p.full = 1)
    (hfog : (s.fld (fieldOf p.at_)).fogged = false) (hstale : s.stalePacket p = false) (hfull : p.ty = .rload → s.storeFull p.at_ = false)
    (haddr : fsAddrOk (fieldOf p.at_) p.full = true) (hph : (s.fld (fieldOf p.at_)).phase ≠ .intake) :
    exec (.fieldStoreRequest id) s = .next (if s.fsAdmits (fieldOf p.at_) p = true then (s.dropPkt id).queueBay (bayOf p.at_) p
      else (s.countRefused (fieldOf p.at_)).refuseAccess p.at_ p) := by
  have hgo : ¬(addrSpace p.full ≠ 1 ∨ (s.fld (fieldOf p.at_)).fogged = true) := by simp [hspace, hfog]
  have hroom : ¬(p.ty = .rload ∧ s.storeFull p.at_ = true) := fun h => Bool.false_ne_true ((hfull h.1).symm.trans h.2)
  have hok : ¬(fsAddrOk (fieldOf p.at_) p.full = false ∨ (s.fld (fieldOf p.at_)).phase = .intake) := by simp [haddr, hph]
  rw [show exec (.fieldStoreRequest id) s = execFieldStoreRequest id s from rfl, execFieldStoreRequest, harr]
  dsimp only
  rw [if_neg hgo, if_neg (ne_true_of_eq_false hstale), if_neg hroom, if_neg hok]
  cases s.fsAdmits (fieldOf p.at_) p <;> rfl

/-- The request that has come is a load or a store. -/
theorem fsArrived_ty {s : State} {id : Nat} {p : Packet} (h : s.fsArrived id = some p) : p.ty = .rload ∨ p.ty = .rstore := by
  unfold State.fsArrived at h
  cases hld : s.arrived id .rload with
  | some q =>
    rw [hld] at h
    cases h
    exact .inl (arrived_inv hld).2
  | none =>
    rw [hld] at h
    exact .inr (arrived_inv h).2

/-- Regions read alike where their registers do. -/
theorem Keeps.regionFor_eq {α : Type} {look : State → α} {rs : List Reg} {s s' : State} (h : Keeps look rs s s') (hcfg : .fstRegionCfg ∉ rs)
    (hspan : .fstRegionSpan ∉ rs) (hgroup : .buySectorGroup ∉ rs) (f sec off n : Nat) : s'.regionFor f sec off n = s.regionFor f sec off n := by
  simp only [State.regionFor, State.regionAt, State.regionCovers, State.accessAdmits, h.gf_eq (f := F.fstRegionSpan_base) hspan,
    h.gf_eq (f := F.fstRegionSpan_size_m1) hspan, h.gf_eq (f := F.fstRegionCfg_access) hcfg, h.gf_eq (f := F.fstRegionCfg_owner) hcfg,
    h.flag_eq (f := F.fstRegionCfg_valid) hcfg, h.gf_eq (f := F.buySectorGroup_group) hgroup]

/-- A store acknowledged. -/
theorem ackStore_spec (s : State) (t : Nat) (p : Packet) (since : Nat) :
    (∃ q ∈ (s.ackStore t p since).packets, q.ty = .ack ∧ q.dest = p.src ∧ q.serial = p.serial) ∧
      (s.ackStore t p since).fst = s.fst ∧ (s.ackStore t p since).journal = s.journal ∧ (s.ackStore t p since).bayQueues = s.bayQueues :=
  ⟨⟨_, List.mem_append_right _ (List.mem_singleton_self _), rfl, rfl, rfl⟩, rfl, rfl, rfl⟩

/-- The 64-bit words of its block that a store writes with a mark. -/
def maskedBad (p : Packet) : List Nat :=
  (List.range 8).filter fun w => (p.mask.testBit (2 * w) && (p.body.getD (2 * w) { w := 0 }).bad) ||
    (p.mask.testBit (2 * w + 1) && (p.body.getD (2 * w + 1) { w := 0 }).bad)

/-- A store performed in the region that holds it. -/
theorem fsStore_of_region {s u : State} {f r : Nat} {p : Packet} (since : Nat)
    (hreg : s.regionFor f p.sector (p.full % 2 ^ 26 / 64 * 64) 64 = some r)
    (hwrite : s.regionWrite f p.sector r (p.full % 2 ^ 26 / 64 * 64 / 64) (maskedBytes p) (maskedBad p) (s.cycle f + 1) = some u) :
    s.fsStore f p since = u.ackStore p.at_ p since := by
  have hpair := congrArg₂ Prod.mk hreg hwrite
  unfold State.fsStore
  extract_lets off bs bad
  have hwrite' : s.regionWrite f p.sector r (off / 64) bs bad (s.cycle f + 1) = some u := hwrite
  rw [show s.regionFor f p.sector off 64 = some r from hreg]
  dsimp only
  rw [hwrite']

/-- A refusal counted. -/
theorem countRefused_spec (s : State) (f : Nat) :
    (s.countRefused f).rd .fstCountRefused f = BitVec.ofNat 64 (satAdd32 (s.rd .fstCountRefused f).toNat 1) ∧
      Marks [.fstCountRefused, .fstStatus] s (s.countRefused f) := by
  have hset : Marks [.fstStatus] (s.bump .fstCountRefused f 0 1) (s.countRefused f) := .hset (f := F.fstStatus_refused) (by decide) (by decide) ..
  refine ⟨?_, (Marks.bump (by decide) (by decide) ..).trans (hset.mono (by decide))⟩
  rw [hset.regs _ _ _ (by decide), State.bump, State.rd_wr_self]

/-- A request refused drops its packet and sends an answer. -/
theorem refuseAccess_eq (s : State) (t : Nat) (p : Packet) (place since : Nat) :
    ∃ ps n, s.refuseAccess t p place since = { s with packets := ps, nextPkt := n } := by
  unfold State.refuseAccess
  extract_lets u
  split
  · exact ⟨_, _, rfl⟩
  · split <;> exact ⟨_, _, rfl⟩

/-- A committed entry written to its bank. -/
theorem applyEntry_spec (s : State) (e : JEntry) :
    (∀ j, j < 64 → e.mask.testBit j = true → (s.applyEntry e).fstByte e.field (e.block * 64 + j) = mget 0 e.data j) ∧
      (∀ a, (∀ j, j < 64 → e.mask.testBit j = true → a ≠ fstAddr e.field (e.block * 64 + j)) → memRead (s.applyEntry e).fst a = memRead s.fst a) ∧
      (s.applyEntry e).journal = s.journal.erase e ∧ (s.applyEntry e).sram = s.sram := by
  obtain ⟨hread, hothers, hrest⟩ := writeEach_spec (addr := fun j => fstAddr e.field (e.block * 64 + j)) (val := fun j => mget 0 e.data j)
    (l := (List.range 64).filter e.mask.testBit) (fun x _ y _ h => congrArg (mget 0 e.data) (by unfold fstAddr at h; omega))
    ({ s with journal := s.journal.erase e } : State)
  refine ⟨fun j hj hbit => hread j (List.mem_filter.2 ⟨List.mem_range.2 hj, hbit⟩), fun a ha => ?_, (congrArg State.journal hrest :),
    (congrArg State.sram hrest :)⟩
  refine hothers a fun j hj => ?_
  obtain ⟨hlt, hbit⟩ := List.mem_filter.1 hj
  exact ha j (List.mem_range.1 hlt) hbit

/-- What scrub has done to the words of a line, `off` its offset, once it has met what it met there. -/
def State.scrubbed (s : State) (f off : Nat) : State :=
  let words := (List.range 16).map fun w => off + w * 8
  let s := s.fstEcc f words
  let s : State := { s with fstWeak := s.fstWeak.filter fun a => !((words.map (fstAddr f)).contains a) }
  s.each ((List.range 16).filter fun w => s.fstMarked f (off + w * 8)) fun s w =>
    (s.hset F.fstStatus_poison f 0).logEv evFstPoison f f (off + w * 8)

/-- A one-bit field just set by hardware. -/
theorem State.hset_flag (s : State) (f : RegField) (u k : Nat) (h : f.hi < 64) (hbit : f.hi = f.lo) : (s.hset f u k).flag f u k = true := by
  rw [State.flag, State.hset, State.gf_sf_self _ _ _ _ _ h (show _ = 2 by rw [hbit, Nat.add_sub_cancel_left, pow_one])]
  rfl

theorem scrubbed_spec (s : State) (f off : Nat) :
    (s.scrubbed f off).fst = s.fst ∧ (s.scrubbed f off).fstBad = s.fstBad ∧ (s.scrubbed f off).journal = s.journal ∧
      (∀ w, w < 16 → s.fstMarked f (off + w * 8) = true → (s.scrubbed f off).flag F.fstStatus_poison f = true) ∧
      ∀ n, s.rd .fstCountEccCorr f = BitVec.ofNat 64 (satAdd32 n 1) → (s.scrubbed f off).rd .fstCountEccCorr f =
        BitVec.ofNat 64 (satAdd32 (satAdd32 n 1) ((List.range 16).filter fun j => s.fstWeak.contains (fstAddr f (off + j * 8))).length) := by
  unfold State.scrubbed
  extract_lets words u v
  have hu : Marks [.fstCountEccCorr] s u := marks_fstEcc ..
  have hend : Marks [.fstStatus] v (v.each ((List.range 16).filter fun w => v.fstMarked f (off + w * 8)) fun s w =>
      (s.hset F.fstStatus_poison f 0).logEv evFstPoison f f (off + w * 8)) :=
    .each _ _ (fun s w _ => .trans (.hset (by decide) (by decide) ..) (.logEv ..)) v
  refine ⟨(hend.beyond_eq State.fst fun _ => rfl).trans (hu.beyond_eq State.fst fun _ => rfl),
    (hend.beyond_eq State.fstBad fun _ => rfl).trans (hu.beyond_eq State.fstBad fun _ => rfl),
    (hend.beyond_eq State.journal fun _ => rfl).trans (hu.beyond_eq State.journal fun _ => rfl), fun w hw hmarked => ?_, fun n hn => ?_⟩
  · have hin : w ∈ (List.range 16).filter fun w => v.fstMarked f (off + w * 8) := by
      refine List.mem_filter.2 ⟨List.mem_range.2 hw, ?_⟩
      rw [show v.fstMarked f (off + w * 8) = u.fstMarked f (off + w * 8) from rfl, hu.beyond_eq (State.fstMarked · f (off + w * 8)) fun _ => rfl]
      exact hmarked
    have hone (s : State) (w : Nat) : ((s.hset F.fstStatus_poison f 0).logEv evFstPoison f f (off + w * 8)).flag F.fstStatus_poison f = true :=
      (State.logEv_flag ..).trans (State.hset_flag _ _ _ _ (by decide) (by decide))
    exact State.each_gives (P := fun _ s => s.flag F.fstStatus_poison f = true) (fun s w _ => hone s w) (fun s w _ _ _ => hone s w) v w hin
  · rw [hend.regs _ _ _ (by decide)]
    have hlen : (words.filter fun o => s.fstWeak.contains (fstAddr f o)).length =
        ((List.range 16).filter fun j => s.fstWeak.contains (fstAddr f (off + j * 8))).length := by
      rw [List.filter_map, List.length_map]
      rfl
    rw [← hlen]
    show u.rd .fstCountEccCorr f = _
    unfold u State.fstEcc
    extract_lets k
    split
    · next hk =>
      rw [show (words.filter fun o => s.fstWeak.contains (fstAddr f o)).length = 0 from hk, hn]
      simp [satAdd32]
    · rw [State.bump, State.rd_wr_self, hn, BitVec.toNat_ofNat, Nat.mod_eq_of_lt (by unfold satAdd32; omega)]

/-- What scrub notes of a bit error that it meets in a line. -/
def State.scrubMet (s : State) (f off : Nat) : Option (Nat × Bool) → State
  | none => s
  | some (w, true) => { s with fstBad := markWord s.fstBad (fstAddr f (off + w % 16 * 8)) true }
  | some (_, false) => s.bump .fstCountEccCorr f 0 1

theorem fstScrub_eq {s : State} {f bank line : Nat} (found : Option (Nat × Bool)) (hf : f < 64) (hfog : (s.fld f).fogged = false)
    (hbank : bank < 32) (hline : line < 16384) :
    exec (.fstScrub f bank line found) s =
      .next ((s.scrubMet f (line * 4096 + bank * 128) found).scrubbed f (line * 4096 + bank * 128)) := by
  have hgo : ¬((s.fld f).fogged = true ∨ 32 ≤ bank ∨ 16384 ≤ line) := by simp [hfog]; omega
  rw [show exec (.fstScrub f bank line found) s = execFstScrub f bank line found s from rfl, execFstScrub]
  dsimp only
  rw [if_neg hgo, onField_next hf]
  rfl

/-- Settles O39: requests by what their region admits, accesses by what they ask for, the journal's next entry, and scrub. -/
theorem fieldStoreAndJournal : Obligations.FieldStoreAndJournal := by
  refine ⟨fun s id f bank waited b r p rest ps => ⟨fun harr hspace hfog hstale hfull haddr hph => ?_,
    fun hf hfog hscrub happ hturn hq => ?_⟩, fun s f bank line w e hf hfog => ⟨fun hfind => ?_, fun hbank hline hw => ⟨?_, ?_⟩⟩⟩
  · have hreq := fieldStoreRequest_eq harr hspace hfog hstale hfull haddr hph
    refine ⟨fun hadm => ?_, fun hadm => ?_⟩
    · rw [hadm] at hreq
      exact gives_next hreq ⟨mget_mput_self .., s.pkt_dropPkt_self id, rfl, rfl⟩
    · rw [hadm] at hreq
      refine gives_next hreq ?_
      rw [if_neg Bool.false_ne_true]
      obtain ⟨hcount, hkeep⟩ := countRefused_spec s (fieldOf p.at_)
      obtain ⟨ps', n, href⟩ := refuseAccess_eq (s.countRefused (fieldOf p.at_)) p.at_ p 0 0
      refine ⟨?_, ?_⟩
      · obtain hty | hty := fsArrived_ty harr
        · rw [if_pos hty]
          obtain ⟨⟨q, hq, hrf, hdest, -⟩, -⟩ := refuseAccess_load (s := s.countRefused (fieldOf p.at_)) p.at_ hty 0 0
          exact ⟨q, hq, hrf, hdest⟩
        · rw [if_neg (by rw [hty]; exact PType.noConfusion)]
          obtain ⟨⟨q, hq, hrf, hdest, -⟩, -⟩ := refuseAccess_store (s := s.countRefused (fieldOf p.at_)) p.at_ hty 0 0
          exact ⟨q, hq, hrf, hdest⟩
      · rw [href]
        exact ⟨hcount, hkeep.beyond_eq State.bayQueues fun _ => rfl, hkeep.beyond_eq State.fst fun _ => rfl,
          hkeep.beyond_eq State.journal fun _ => rfl⟩
  · intro off
    obtain ⟨hturned, hpop⟩ := turned_spec s f bank waited b p ps
    have hsee (j : Nat) : (s.turned f bank waited b p ps).seeWord f (some p.sector) (off + 4 * j) = s.seeWord f (some p.sector) (off + 4 * j) :=
      hturned.eq_of (fun s => s.seeWord f (some p.sector) (off + 4 * j)) (fun s => s.seeWord f (some p.sector) (off + 4 * j)) fun _ => rfl
    have hjournal : (s.turned f bank waited b p ps).journal = s.journal := rfl
    have hfst : (s.turned f bank waited b p ps).fst = s.fst := rfl
    have hexec := bankAccess_eq (waited := waited) hf hfog hscrub happ hturn hq
    generalize s.turned f bank waited b p ps = u at hturned hpop hsee hjournal hfst hexec
    generalize s.accessAt f p waited = at_ at hexec
    have hfor : u.regionFor f p.sector off 64 = s.regionFor f p.sector off 64 := hturned.regionFor_eq (by decide) (by decide) (by decide) ..
    have hoff : off / 64 * 64 = off := by omega
    have hbeforeof : u.beforeCommit f = s.beforeCommit f := hturned.eq_of (State.beforeCommit · f) (State.beforeCommit · f) fun _ => rfl
    have hownof : u.ownEntry f p.sector (off / 64) = s.ownEntry f p.sector (off / 64) :=
      hturned.eq_of (State.ownEntry · f p.sector (off / 64)) (State.ownEntry · f p.sector (off / 64)) fun _ => rfl
    have hquotaof : s.quotaUsed f r < s.gf F.fstRegionCfg_quota f r ↔ u.quotaUsed f r < u.gf F.fstRegionCfg_quota f r := by
      rw [hturned.eq_of (State.quotaUsed · f r) (State.quotaUsed · f r) fun _ => rfl, hturned.gf_eq (by decide)]
    have hkindof : u.regionKind f r = s.regionKind f r := hturned.gf_eq (by decide) ..
    refine ⟨fun hld hok => gives_next hexec ?_, fun hst hreg hkind => gives_next hexec ?_,
      fun hst hreg hkind hbefore hown hquota => gives_next hexec ?_⟩
    · rw [if_pos hld]
      obtain ⟨⟨q, hmem, hty, hdest, hslot, hgen, hbody⟩, hwork, hfst', hj'⟩ := fsLoad_spec u f p (u.cyclesOn f at_ 9)
        fun j hj => (congrArg TWord.bad (hsee j)).trans (hok j hj)
      refine ⟨⟨q, hmem, hty, hdest, hslot, hgen, hbody.trans (List.map_congr_left fun j _ => congrArg TWord.w (hsee j))⟩, ?_,
        hfst'.trans hfst, hj'.trans hjournal⟩
      rw [hwork.eq_of State.bayQueues State.bayQueues fun _ => rfl]
      exact hpop
    · rw [if_neg hst]
      obtain ⟨v, hv, hread, hothers, hj, -, hq'⟩ := regionWrite_scratch (block := off / 64) (bad := maskedBad p) (cyc := u.cycle f + 1)
        (sec := p.sector) (hkindof.trans hkind) (maskedBytes_nodup p)
      rw [fsStore_of_region _ (hfor.trans hreg) hv]
      obtain ⟨hack, hafst, haj, haq⟩ := ackStore_spec v p.at_ p (u.cyclesOn f at_ 1)
      refine ⟨fun j hj hbit => ?_, fun a ha => ?_, hack, ?_, (haj.trans hj).trans hjournal⟩
      · have hb := hread (j, byteOf (p.body.getD (j / 4) { w := 0 }).w (j % 4)) (mem_maskedBytes.2 ⟨hj, hbit, rfl⟩)
        rw [hoff] at hb
        rw [State.fstByte, hafst]
        exact hb
      · rw [hafst, hothers a fun b hb => ?_, hfst]
        obtain ⟨hlt, hbit, -⟩ := mem_maskedBytes.1 hb
        rw [hoff]
        exact ha b.1 hlt hbit
      · rw [haq, hq']
        exact hpop
    · rw [if_neg hst]
      obtain ⟨e, hv, hfield, hsector, hblock, hcom, hdata⟩ := regionWrite_committed (block := off / 64) (bad := maskedBad p)
        (cyc := u.cycle f + 1) (sec := p.sector) (hkindof.trans hkind) (hbeforeof.trans hbefore) (hownof.trans hown) (hquotaof.1 hquota)
        (maskedBytes_nodup p)
      rw [fsStore_of_region _ (hfor.trans hreg) hv]
      obtain ⟨hack, hafst, haj, haq⟩ := ackStore_spec ({ u with journal := u.journal ++ [e] } : State) p.at_ p (u.cyclesOn f at_ 1)
      refine ⟨⟨e, haj.trans (by rw [hjournal]), hfield, hsector, hblock, hcom, fun j hj hbit => ?_⟩, hack, hafst.trans hfst⟩
      exact hdata (j, byteOf (p.body.getD (j / 4) { w := 0 }).w (j % 4)) (mem_maskedBytes.2 ⟨hj, hbit, rfl⟩)
  · refine gives_onField hf rfl ?_
    obtain ⟨hread, hothers, hjournal, hsram⟩ := applyEntry_spec s e
    have hfield : e.field = f := by
      have h := List.find?_some hfind
      simp only [Bool.and_eq_true, decide_eq_true_eq] at h
      exact h.1
    subst hfield
    rw [hfind]
    dsimp only
    rw [if_neg (ne_true_of_eq_false hfog)]
    exact ⟨hread, hothers, hjournal, hsram⟩
  · refine gives_next (fstScrub_eq _ hf hfog hbank hline) ?_
    rw [State.scrubMet, Nat.mod_eq_of_lt hw]
    obtain ⟨hfst, hbad, hjournal, hpoison, -⟩ := scrubbed_spec
      ({ s with fstBad := markWord s.fstBad (fstAddr f (line * 4096 + bank * 128 + w * 8)) true } : State) f (line * 4096 + bank * 128)
    have hmarked : ({ s with fstBad := markWord s.fstBad (fstAddr f (line * 4096 + bank * 128 + w * 8)) true } : State).fstMarked f
        (line * 4096 + bank * 128 + w * 8) = true := by
      rw [State.fstMarked, show (line * 4096 + bank * 128 + w * 8) / 8 * 8 = line * 4096 + bank * 128 + w * 8 by omega]
      simp [markWord]
    refine ⟨?_, hpoison w hw hmarked, hfst, hjournal⟩
    rw [State.fstMarked, hbad]
    exact hmarked
  · refine gives_next (fstScrub_eq _ hf hfog hbank hline) ?_
    obtain ⟨hfst, hbad, hjournal, -, hcount⟩ := scrubbed_spec (s.bump .fstCountEccCorr f 0 1) f (line * 4096 + bank * 128)
    exact ⟨hcount _ (State.rd_wr_self ..), hfst, hbad, hjournal⟩

end Sys2Proof.Machine
end

section
/-! SUPPORT. Lenses: launches, loads and their cells, reports. -/

namespace Sys2Proof.Machine

open Sys2Proof.Claims

theorem State.lens_setLens_self (s : State) (l : Nat) (x : LensSt) : (s.setLens l x).lens l = x := mget_mput_self ..

theorem localIndex_lt (t : Nat) : localIndex t < 256 := by
  unfold localIndex
  omega

/-- A launch later than all that wait takes the last place. -/
theorem enterQueue_last {p : Packet} {c : Nat} {q : List (Packet × Nat)} (h : ∀ e ∈ q, e.2 < c) : enterQueue (p, c) q = q ++ [(p, c)] := by
  induction q with
  | nil => rfl
  | cons b q ih =>
    have hb : b.2 < c := h b (.head _)
    have hnot : launchBefore (p, c) b = false := by
      simp only [launchBefore, Bool.or_eq_false_iff, Bool.and_eq_false_iff, decide_eq_false_iff_not]
      exact ⟨by omega, .inl (by omega)⟩
    rw [enterQueue, hnot, if_neg Bool.false_ne_true, ih fun e he => h e (.tail _ he)]
    rfl

/-- In one cycle a launch goes before one from a higher bay. -/
theorem enterQueue_lower {p : Packet} {c : Nat} {e : Packet × Nat} (hc : e.2 = c) (h : bayInField (bayOf p.src) < bayInField (bayOf e.1.src)) :
    enterQueue (p, c) [e] = [(p, c), e] := by
  have hlt := localIndex_lt p.src
  have hbefore : launchBefore (p, c) e = true := by
    simp only [launchBefore, Bool.or_eq_true, Bool.and_eq_true, decide_eq_true_eq]
    exact .inr ⟨hc.symm, by omega⟩
  rw [enterQueue, hbefore, if_pos rfl]

theorem mem_queueLoad (j : LoadJob) (l : List LoadJob) : j ∈ queueLoad j l := by
  induction l with
  | nil => exact List.mem_singleton_self _
  | cons k ks ih =>
    unfold queueLoad
    split
    · exact .head _
    · exact .tail _ ih

/-- A report reaches the group that launched. -/
theorem launchReport_spec (s : State) (p : Packet) (seq status cycles stretched stall sat resv since : Nat) :
    ∃ q ∈ (s.launchReport p (passReport seq status cycles stretched stall sat resv) since).packets, q.ty = .rdata ∧ q.dest = p.src ∧
      q.sslot = p.sslot ∧ (q.body.map (·.w)).take 6 = (passReport seq status cycles stretched stall sat resv).map (BitVec.ofNat 32) :=
  ⟨_, List.mem_append_right _ (List.mem_singleton_self _), rfl, rfl, rfl, rfl⟩

/-- A cell loaded: its low planes are the element, its higher ones and the other cells as they were. -/
theorem loadCell_spec {s : State} {l f r j v : Nat} {d : LensDesc} (hfmt : descFmt d.wfmt ≠ .b4)
    (hread : s.readElem f d.sector d.waddr (r * d.n + j) (lensPlanes (descFmt d.wfmt)) = .ok v) (hv : v < 2 ^ lensPlanes (descFmt d.wfmt)) :
    ∃ y, s.loadCell l f d r j = .ok y ∧
      let b := lensPlanes (descFmt d.wfmt)
      let key := (d.pset, d.rbase + r, d.cbase + j)
      mget 0 y.planes key % 2 ^ b = v ∧ mget 0 y.planes key / 2 ^ b = mget 0 (s.lens l).planes key / 2 ^ b ∧
      ∀ k, k ≠ key → mget 0 y.planes k = mget 0 (s.lens l).planes k := by
  unfold State.loadCell
  extract_lets b x key
  rw [if_neg hfmt, hread]
  refine ⟨_, rfl, ?_, ?_, fun k hk => mget_mput_ne _ _ _ hk⟩
  · rw [mget_mput_self, setPlanes, Nat.mul_comm, Nat.mul_add_mod, Nat.mod_eq_of_lt hv]
  · rw [mget_mput_self, setPlanes, Nat.mul_comm, Nat.mul_add_div (Nat.two_pow_pos b), Nat.div_eq_of_lt hv, Nat.add_zero]

/-- A lens but for the cells of its planes. -/
def LensSt.beyondCells (x : LensSt) : LensSt := { x with planes := [], exps := [] }

/-- A state but for the lenses, and one lens but for its cells. -/
def State.beyondCells (l : Nat) (s : State) : State × LensSt := ({ s with lenses := [] }, (s.lens l).beyondCells)

/-- What a load of cells leaves. -/
theorem loadCells_spec (l f : Nat) (d : LensDesc) (cs : List (Nat × Nat)) (s : State) :
    (s.loadCells l f d cs).1.beyondCells l = s.beyondCells l := by
  induction cs generalizing s with
  | nil => rfl
  | cons c cs ih =>
    obtain ⟨r, j⟩ := c
    unfold State.loadCells
    split
    · next x hx =>
      rw [ih]
      refine Prod.ext rfl ?_
      refine (congrArg LensSt.beyondCells (State.lens_setLens_self s l x)).trans ?_
      unfold State.loadCell at hx
      extract_lets b y key base at hx
      split at hx
      · split at hx
        · cases hx; rfl
        · nomatch hx
        · nomatch hx
      · generalize s.readElem _ _ _ _ _ = o at hx
        cases o with
        | error e => nomatch hx
        | ok v => cases hx; rfl
    · rfl

/-- A launch refused: the status shows it, the launch is answered RFAIL, and no lens changes. -/
theorem lensRefuse_spec (s : State) (l d : Nat) (p : Packet) :
    (s.lensRefuse l d p).lenses = s.lenses ∧ (s.lensRefuse l d p).flag F.lnsStatus_refused l = true ∧ (s.lensRefuse l d p).fst = s.fst ∧
      (p.ty = .rload → ∃ q ∈ (s.lensRefuse l d p).packets, q.ty = .rfail ∧ q.dest = p.src ∧ q.sslot = p.sslot ∧ q.gen = p.gen) := by
  have hm : Marks [.lnsStatus] s ((s.hset F.lnsStatus_refused l 0).logEv evLensLaunchRefused (l / 4) l d) :=
    .trans (.hset (by decide) (by decide) ..) (.logEv ..)
  have hflag : ((s.hset F.lnsStatus_refused l 0).logEv evLensLaunchRefused (l / 4) l d).flag F.lnsStatus_refused l = true :=
    (State.logEv_flag ..).trans (State.hset_flag _ _ _ _ (by decide) (by decide))
  unfold State.lensRefuse
  generalize (s.hset F.lnsStatus_refused l 0).logEv evLensLaunchRefused (l / 4) l d = u at hm hflag
  obtain ⟨ps, n, href⟩ := refuseAccess_eq u p.at_ p 0 0
  refine ⟨?_, ?_, ?_, fun hty => (refuseAccess_load p.at_ hty 0 0).1⟩
  · rw [href]
    exact hm.beyond_eq State.lenses fun _ => rfl
  · rw [href]
    exact hflag
  · rw [href]
    exact hm.beyond_eq State.fst fun _ => rfl

/-- The queue's head moved to a free NEXT: the pass, and the load it asks for. -/
theorem lensPassAccept_eq {s : State} {f lens c : Nat} {p : Packet} {rest : List (Packet × Nat)} (hf : f < 64) (hlens : lens < 4)
    (hfog : (s.fld f).fogged = false) (hph : (s.fld f).phase = .work) (hq : (s.lens (f * 4 + lens)).queue = (p, c) :: rest)
    (hn : (s.lens (f * 4 + lens)).next = none) :
    let l := f * 4 + lens
    let x := s.lens l
    let loads := decide ((s.lensDesc l (launchOf p.full).2).kind ≠ 0)
    ∃ (q : LensPass) (j : LoadJob), exec (.lensPassAccept f lens) s = .next (s.setLens l { x with
        queue := rest, next := some q, nextSeq := x.nextSeq + 1, engine := if loads then queueLoad j x.engine else x.engine }) ∧
      q.pkt = p ∧ q.desc = (launchOf p.full).2 ∧ q.seq = x.nextSeq ∧ q.accept = max c x.nextFree ∧ q.ready = !loads ∧
      j.preload = none ∧ j.desc = q.desc ∧ j.asked = q.accept := by
  intro l x loads
  refine ⟨{ pkt := p, desc := (launchOf p.full).2, seq := x.nextSeq, accept := max c x.nextFree, readyAt := max c x.nextFree, ready := !loads },
    { preload := none, desc := (launchOf p.full).2, asked := max c x.nextFree, from_ := max c x.nextFree }, ?_, rfl, rfl, rfl, rfl, rfl, rfl, rfl, rfl⟩
  rw [show exec (.lensPassAccept f lens) s = execLensPassAccept f lens s from rfl, execLensPassAccept, Nat.mod_eq_of_lt hlens, onField_next hf]
  dsimp only
  rw [hq, hn]
  dsimp only
  rw [if_neg (by simp [hfog, hph])]

/-- A preload that its character picks asks for the engine. -/
theorem lensPreload_eq {s : State} {f lens k : Nat} (hf : f < 64) (hlens : lens < 4) (hfog : (s.fld f).fogged = false)
    (hph : (s.fld f).phase = .work) (hk : k < 16) (hvalid : s.flag F.lnsPreload_valid (f * 4 + lens) k = true)
    (hfresh : (s.lens (f * 4 + lens)).preloaded.contains k = false)
    (hchar : ∃ ch, s.runChar f (s.lensDesc (f * 4 + lens) (s.gf F.lnsPreload_desc (f * 4 + lens) k)).sector = some ch ∧
      (s.gf F.lnsPreload_chars (f * 4 + lens) k).testBit ch.id = true)
    (hkind : (s.lensDesc (f * 4 + lens) (s.gf F.lnsPreload_desc (f * 4 + lens) k)).kind = 1 ∨
      (s.lensDesc (f * 4 + lens) (s.gf F.lnsPreload_desc (f * 4 + lens) k)).kind = 2)
    (hstart : s.gf F.lnsPreload_start (f * 4 + lens) k < (s.fld f).nCycles) (htakes : s.lensTakes (f * 4 + lens) = true) :
    let l := f * 4 + lens
    let x := s.lens l
    ∃ (c : Nat), exec (.lensPreload f lens k) s =
      .next ((s.advanceTo (cycleInstant (s.fld f) (s.gf F.lnsPreload_start l k + 1))).setLens l { x with
        preloaded := k :: x.preloaded
        engine := queueLoad { preload := some k, desc := s.gf F.lnsPreload_desc l k, asked := c, from_ := c } x.engine }) := by
  intro l x
  obtain ⟨ch, hrun, hbit⟩ := hchar
  have hdiv : (f * 4 + lens) / 4 = f := by omega
  refine ⟨lensCycleFrom (s.fld f) (cycleInstant (s.fld f) (s.gf F.lnsPreload_start l k + 1)), ?_⟩
  rw [show exec (.lensPreload f lens k) s = execLensPreload f lens k s from rfl, execLensPreload, Nat.mod_eq_of_lt hlens, onField_next hf]
  dsimp only
  rw [hdiv, hrun]
  dsimp only
  refine congrArg Host.Outcome.next (if_neg ?_)
  simp only [hvalid, hbit, hfresh, hfog, hph, htakes, hkind, Nat.not_le.2 hk, Nat.not_le.2 hstart, reduceCtorEq, not_true_eq_false, or_self,
    not_false_eq_true]

/-- What a lens shows of a load that has ended, all its reads served. -/
def LensSt.holding (x : LensSt) (d : LensDesc) (desc endAt : Nat) : LensSt :=
  let ps : List (Nat × Nat × Nat) := d.panels.map fun p => (d.pset, p.1, p.2)
  { x with loaded := ps ++ x.loaded.filter fun p => !(ps.contains p), loadEnds := (desc, endAt) :: x.loadEnds }

/-- A pass whose load has ended. -/
def LensPass.loaded (q : LensPass) (endAt stalls : Nat) : LensPass := { q with ready := true, readyAt := endAt, stall := q.stall + stalls }

/-- The state in which a load has ended, all its reads served. -/
def State.loadEnded (s : State) (l : Nat) (j : LoadJob) (d : LensDesc) (stalls endAt : Nat) : State :=
  let y := (s.lens l).holding d j.desc endAt
  match j.preload, y.next with
  | none, some q =>
    if d.kind = 2 then (s.setLens l { y with next := none, nextFree := endAt }).passDone l (q.loaded endAt stalls) endAt 0 0
    else s.setLens l { y with next := some (q.loaded endAt stalls) }
  | _, _ => s.setLens l y

theorem lensLoadComplete_eq {s : State} {f lens stalls accesses waits : Nat} {j : LoadJob} {js : List LoadJob} (hf : f < 64) (hlens : lens < 4)
    (hfog : (s.fld f).fogged = false) (hph : (s.fld f).phase = .work) {l : Nat} (hl : l = f * 4 + lens) {d : LensDesc}
    (hd : d = s.lensDesc l j.desc) {endAt : Nat} (hend : endAt = (s.lens l).loadEnd j d stalls)
    (hlate : if j.preload = none then lensInstant (s.fld f) endAt ≤ s.workEnd f
      else lensInstant (s.fld f) endAt ≤ cycleInstant (s.fld f) (s.fld f).nCycles)
    (hengine : (s.lens l).engine = j :: js) (hclash : ∀ q, (s.lens l).exec = some q → d.clash (s.lensDesc l q.desc) = false)
    (hok : ((s.loadSpent l j stalls accesses waits).loadCells l f d d.cells).2 = none) :
    exec (.lensLoadComplete f lens stalls accesses waits) s =
      .next ((((s.loadSpent l j stalls accesses waits).loadCells l f d d.cells).1.readsEcc f d.weightBytes).loadEnded l j d stalls endAt) := by
  have hnc : ¬((match (s.lens l).exec with
      | some q => d.clash (s.lensDesc l q.desc)
      | none => false) = true) := by
    cases hx : (s.lens l).exec with
    | none => exact Bool.false_ne_true
    | some q => exact ne_true_of_eq_false (hclash q hx)
  have hnl : s.loadLate f j endAt = false := by
    unfold State.loadLate
    split
    · next h =>
      rw [if_neg (by rintro h'; rw [h'] at h; nomatch h)] at hlate
      simp [hph, Nat.not_lt.2 hlate]
    · next h =>
      rw [if_pos (Option.not_isSome_iff_eq_none.1 h)] at hlate
      simp [hph, Nat.not_lt.2 hlate]
  subst hl hd hend
  rw [show exec (.lensLoadComplete f lens stalls accesses waits) s = execLensLoadComplete f lens stalls accesses waits s from rfl,
    execLensLoadComplete, Nat.mod_eq_of_lt hlens, onField_next hf]
  dsimp only
  rw [hengine]
  dsimp only
  rw [hok]
  refine congrArg Host.Outcome.next ((if_neg ?_).trans ?_)
  · rw [hfog, hnl]
    rintro (h | h | h)
    · exact hnc h
    · nomatch h
    · nomatch h
  · dsimp only
    generalize ((s.loadSpent (f * 4 + lens) j stalls accesses waits).loadCells _ _ _ _).1.readsEcc _ _ = u
    rfl

/-- A pass reported DONE. -/
theorem passDone_spec (s : State) (l : Nat) (q : LensPass) (endAt sat resv : Nat) :
    (∀ k, (s.passDone l q endAt sat resv).lens k = s.lens k) ∧ (s.passDone l q endAt sat resv).fst = s.fst ∧
      (s.passDone l q endAt sat resv).journal = s.journal ∧ (s.passDone l q endAt sat resv).now = s.now ∧
      (s.passDone l q endAt sat resv).sram = s.sram ∧
      ∃ p ∈ (s.passDone l q endAt sat resv).packets, p.ty = .rdata ∧ p.dest = q.pkt.src ∧ p.sslot = q.pkt.sslot ∧
        (p.body.map (·.w)).take 6 = (passReport q.seq 0 (endAt - q.accept) q.stretched q.stall sat resv).map (BitVec.ofNat 32) :=
  ⟨fun _ => rfl, rfl, rfl, rfl, rfl, launchReport_spec ..⟩

/-- What a load that has ended leaves of its lens, and what it reports. -/
structure LoadEnds (x : LensSt) (j : LoadJob) (d : LensDesc) (stalls endAt : Nat) (s s' : State) (y : LensSt) : Prop where
  kept : y.engine = x.engine ∧ y.engineFree = x.engineFree ∧ y.planes = x.planes
  loaded : ∀ p ∈ d.panels, (d.pset, p.1, p.2) ∈ y.loaded
  state : s'.now = s.now ∧ s'.fst = s.fst
  ready : ∀ q, j.preload = none → x.next = some q → d.kind ≠ 2 → y.next = some (q.loaded endAt stalls)
  done : ∀ q, j.preload = none → x.next = some q → d.kind = 2 → y.next = none ∧ ∃ p ∈ s'.packets, p.ty = .rdata ∧ p.dest = q.pkt.src ∧
    p.sslot = q.pkt.sslot ∧ (p.body.map (·.w)).take 6 =
      (passReport q.seq 0 (endAt - q.accept) q.stretched (q.stall + stalls) 0 0).map (BitVec.ofNat 32)

theorem loadEnded_spec (s : State) (l : Nat) (j : LoadJob) (d : LensDesc) (stalls endAt : Nat) :
    LoadEnds (s.lens l) j d stalls endAt s (s.loadEnded l j d stalls endAt) ((s.loadEnded l j d stalls endAt).lens l) := by
  have hpanels (x : LensSt) (p : Nat × Nat) (hp : p ∈ d.panels) : (d.pset, p.1, p.2) ∈ (x.holding d j.desc endAt).loaded :=
    List.mem_append_left _ (List.mem_map.2 ⟨p, hp, rfl⟩)
  unfold State.loadEnded
  extract_lets y
  split
  · next q hpre hnext =>
    have hq (q' : LensPass) (h : (s.lens l).next = some q') : q = q' := Option.some.inj (hnext.symm.trans h)
    split
    · next hkind =>
      obtain ⟨hlenses, hfst, -, hnow, -, hreport⟩ := passDone_spec (s.setLens l { y with next := none, nextFree := endAt }) l
        (q.loaded endAt stalls) endAt 0 0
      rw [hlenses, State.lens_setLens_self]
      exact ⟨⟨rfl, rfl, rfl⟩, hpanels _, ⟨hnow, hfst⟩, fun _ _ _ hne => (hne hkind).elim, fun q' _ h _ => ⟨rfl, hq q' h ▸ hreport⟩⟩
    · next hkind =>
      rw [State.lens_setLens_self]
      exact ⟨⟨rfl, rfl, rfl⟩, hpanels _, ⟨rfl, rfl⟩, fun q' _ h _ => hq q' h ▸ rfl, fun _ _ _ h => (hkind h).elim⟩
  · next hnot =>
    rw [State.lens_setLens_self]
    exact ⟨⟨rfl, rfl, rfl⟩, hpanels _, ⟨rfl, rfl⟩, fun q hpre hnext => (hnot q hpre hnext).elim, fun q hpre hnext => (hnot q hpre hnext).elim⟩

/-- Settles O40: launches and passes by where they go, a load by its cells. -/
theorem lensQueuesAndLoads : Obligations.LensQueuesAndLoads := by
  refine ⟨fun s id f lens k c p rest => ⟨fun harr hspace haddr hfog hstale hfull => ?_, fun hf hlens hfog hph => ?_⟩,
    fun s l f r j v d hfmt hread hv => loadCell_spec hfmt hread hv, fun s f lens stalls accesses waits j js hf hlens hfog hph => ?_⟩
  · extract_lets g l d
    have hgo : ¬(addrSpace p.full ≠ 2 ∨ p.full % 2 ^ 16 < 0x8000 ∨ (s.fld (fieldOf p.at_)).fogged = true) := by simp [hspace, hfog]; omega
    obtain ⟨y, hy⟩ : ∃ y : LensSt, y = { s.lens l with
      queue := enterQueue (p, lensCycleFrom (s.fld g) (cycleInstant (s.fld g) (s.cycle g + 2))) (s.lens l).queue } := ⟨_, rfl⟩
    have hexec : exec (.lensLaunch id) s = .next (if s.launchBad g l d p = true then s.lensRefuse l d p
        else if 4 ≤ (s.lens l).queue.length then s else (s.dropPkt id).setLens l y) := by
      rw [show exec (.lensLaunch id) s = execLensLaunch id s from rfl, execLensLaunch, harr]
      dsimp only
      rw [if_neg hgo, if_neg (ne_true_of_eq_false hstale), if_neg (ne_true_of_eq_false hfull), apply_ite Host.Outcome.next,
        apply_ite Host.Outcome.next, hy]
    refine ⟨fun hbad hroom => ?_, fun hbad => ?_⟩
    · rw [if_neg (ne_true_of_eq_false hbad), if_neg (by omega)] at hexec
      refine gives_next hexec ?_
      refine ⟨fun hearlier => ?_, fun e hqe hc hbay => ?_, s.pkt_dropPkt_self id, rfl, rfl⟩
      · rw [State.lens_setLens_self, hy, enterQueue_last hearlier]
      · rw [State.lens_setLens_self, hy, hqe, enterQueue_lower hc hbay]
    · rw [if_pos hbad] at hexec
      obtain ⟨hlenses, hflag, hfst, hanswer⟩ := lensRefuse_spec s l d p
      exact gives_next hexec ⟨hlenses, hflag, hfst, hanswer (arrived_inv harr).2⟩
  · intro l x
    refine ⟨fun hq hn => ?_, fun hk hvalid hfresh hchar hkind hstart htakes => ?_⟩
    · obtain ⟨q, j, hexec, hpkt, hdesc, hseq, hacc, hready, hpre, hjd, hja⟩ := lensPassAccept_eq hf hlens hfog hph hq hn
      have hlens' := State.lens_setLens_self s l { x with
        queue := rest, next := some q, nextSeq := x.nextSeq + 1
        engine := if decide ((s.lensDesc l (launchOf p.full).2).kind ≠ 0) then queueLoad j x.engine else x.engine }
      refine gives_next hexec ⟨q, ?_⟩
      rw [hlens', hdesc]
      refine ⟨rfl, hpkt, rfl, hseq, hacc, ?_, rfl, rfl, rfl, rfl, fun hkind => ⟨j, ?_, hpre, hjd.trans hdesc, hja⟩, rfl⟩
      · rw [hready, Bool.not_eq_true', decide_eq_false_iff_not, not_not]
      · rw [if_pos (decide_eq_true hkind)]
        exact mem_queueLoad ..
    · obtain ⟨c, hexec⟩ := lensPreload_eq hf hlens hfog hph hk hvalid hfresh hchar hkind hstart htakes
      refine gives_next hexec ?_
      rw [State.lens_setLens_self]
      exact ⟨rfl, Nat.le_max_right .., ⟨_, mem_queueLoad .., rfl, rfl⟩, rfl, rfl⟩
  · intro l d endAt r hlate hengine hclash hok
    refine gives_next (lensLoadComplete_eq hf hlens hfog hph rfl rfl rfl hlate hengine hclash hok) ?_
    have hspent : (s.loadSpent l j stalls accesses waits).lens l = { s.lens l with engine := (s.lens l).engine.tail, engineFree := endAt } :=
      State.lens_setLens_self ..
    have hcells : r.1.beyondCells l = (s.loadSpent l j stalls accesses waits).beyondCells l := loadCells_spec ..
    have hread : Marks [.fstCountEccCorr] r.1 (r.1.readsEcc f d.weightBytes) := marks_fstEcc ..
    obtain ⟨⟨hengine', hfree, hplanes⟩, hloaded, ⟨hnow, hfst⟩, hready, hdone⟩ := loadEnded_spec (r.1.readsEcc f d.weightBytes) l j d stalls endAt
    have hlens : (r.1.readsEcc f d.weightBytes).lens l = r.1.lens l := hread.beyond_eq (State.lens · l) fun _ => rfl
    have hbeyond : (r.1.lens l).beyondCells = ((s.loadSpent l j stalls accesses waits).lens l).beyondCells := congrArg Prod.snd hcells
    rw [hspent] at hbeyond
    have hstate : ({ r.1 with lenses := [] } : State) = { s.loadSpent l j stalls accesses waits with lenses := [] } := congrArg Prod.fst hcells
    have hengine'' : (r.1.lens l).engine = (s.lens l).engine.tail := (congrArg LensSt.engine hbeyond :)
    have hfree' : (r.1.lens l).engineFree = endAt := (congrArg LensSt.engineFree hbeyond :)
    have hnext : (r.1.lens l).next = (s.lens l).next := (congrArg LensSt.next hbeyond :)
    have hclock : r.1.now = max s.now (lensInstant (s.fld (l / 4)) endAt) := (congrArg State.now hstate :)
    have hbytes : r.1.fst = s.fst := (congrArg State.fst hstate :)
    rw [hlens] at hengine' hfree hplanes hready hdone
    rw [hnext] at hready hdone
    refine ⟨?_, hfree.trans hfree', hplanes, hloaded, ?_, fun q hpre hq hkind => ?_, hdone, ?_⟩
    · rw [hengine', hengine'', hengine]
      rfl
    · rw [hnow, hread.beyond_eq State.now fun _ => rfl, hclock, show l / 4 = f by omega]
      exact Nat.le_max_right ..
    · exact ⟨_, hready q hpre hq hkind, rfl, rfl, rfl, rfl⟩
    · rw [hfst, hread.beyond_eq State.fst fun _ => rfl, hbytes]

end Sys2Proof.Machine
end

section
/-! SUPPORT. Lens passes: their execution, their results and their stretched cycles. -/

namespace Sys2Proof.Machine

open Sys2Proof.Claims

theorem State.lens_of_lenses {s s' : State} (h : s'.lenses = s.lenses) (l : Nat) : s'.lens l = s.lens l := by
  rw [State.lens, h, ← State.lens]

/-- The rows of a pass that fits one lens lie in that lens. -/
theorem lensRows_single {d : LensDesc} (hk : 0 < d.k) (hfit : d.rbase + d.k ≤ 512) : d.lensRows = [List.range d.k] := by
  have hlow : (List.range d.k).filter (fun r => d.rbase + r < 512) = List.range d.k :=
    List.filter_eq_self.2 fun r hr => decide_eq_true (by have := List.mem_range.1 hr; omega)
  have hhigh : (List.range d.k).filter (fun r => 512 ≤ d.rbase + r) = [] :=
    List.filter_eq_nil_iff.2 fun r hr h => by have := List.mem_range.1 hr; have := of_decide_eq_true h; omega
  have hne : List.range d.k ≠ [] := fun h => by rw [List.range_eq_nil] at h; omega
  simp [LensDesc.lensRows, hlow, hhigh, hne]

theorem clampInt_clampInt (i : Int) : clampInt int32Min int32Max (clampInt int32Min int32Max i) = clampInt int32Min int32Max i := by
  simp only [clampInt, int32Min, int32Max]
  split_ifs <;> omega

/-- An integer column of a pass within one lens is the clamped sum of its products. -/
theorem intColumn_eq (x : LensSt) {d : LensDesc} (acts : List Nat) (j : Nat) (hk : 0 < d.k) (hfit : d.rbase + d.k ≤ 512) :
    (intColumn x d acts (fun _ => true) j).1 = clampInt int32Min int32Max
      (sumInt ((List.range d.k).map fun r => match x.weight d r j with
        | some (.fin t m _) => decodeInt (descFmt d.afmt) (acts.getD r 0) * (if t then -(m : Int) else m)
        | _ => 0)) := by
  unfold intColumn
  rw [lensRows_single hk hfit]
  simp only [List.map_cons, List.map_nil, List.foldl_cons, List.foldl_nil, clampCounted, Int.zero_add, if_true]
  exact clampInt_clampInt _

/-- A ready pass on loaded panels moves to EXEC. -/
theorem lensPassExec_eq {s : State} {f lens : Nat} {q : LensPass} (hf : f < 64) (hlens : lens < 4) (hfog : (s.fld f).fogged = false)
    (hph : (s.fld f).phase = .work) {l : Nat} (hl : l = f * 4 + lens) {d : LensDesc} (hd : d = s.lensDesc l q.desc)
    (hnext : (s.lens l).next = some q) (hexec : (s.lens l).exec = none) (hready : q.ready = true) (hkind : d.kind ≠ 2)
    (hclear : ∀ j, (s.lens l).engine.head? = some j → d.clash (s.lensDesc l j.desc) = false) :
    ∃ begun, q.readyAt ≤ begun ∧ (s.lens l).execFree ≤ begun ∧ exec (.lensPassExec f lens) s = .next
      (if (d.panels.all fun p => (s.lens l).loaded.contains (d.pset, p.1, p.2)) = false then
        (s.setLens l { s.lens l with next := none, nextFree := max q.readyAt (s.lens l).execFree }).lensRefuse l q.desc q.pkt
      else s.setLens l { s.lens l with next := none, nextFree := begun, exec := some { q with begun := begun } }) := by
  subst hl hd
  refine ⟨max q.readyAt (max (s.lens (f * 4 + lens)).execFree ((((s.lens (f * 4 + lens)).loadEnds.filter fun e =>
    (s.lensDesc (f * 4 + lens) q.desc).clash (s.lensDesc (f * 4 + lens) e.1)).map (·.2)).foldl max 0)), Nat.le_max_left ..,
    (Nat.le_max_left ..).trans (Nat.le_max_right ..), ?_⟩
  rw [show exec (.lensPassExec f lens) s = execLensPassExec f lens s from rfl, execLensPassExec, Nat.mod_eq_of_lt hlens, onField_next hf]
  dsimp only
  rw [hnext, hexec]
  dsimp only
  refine congrArg Host.Outcome.next (if_neg ?_)
  rintro (h | h | h | h | h)
  · exact Bool.false_ne_true (h.symm.trans hready)
  · exact hkind h
  · split at h
    · next j js he => exact ne_true_of_eq_false (hclear j (by rw [he]; rfl)) h
    · nomatch h
  · exact h hph
  · exact ne_true_of_eq_false hfog h

/-- A pass whose accesses field store serves ends, and is reported DONE. -/
theorem lensPassComplete_eq {s : State} {f lens stalls accesses waits : Nat} {q : LensPass} (hf : f < 64) (hlens : lens < 4)
    (hfog : (s.fld f).fogged = false) (hph : (s.fld f).phase = .work) {l : Nat} (hl : l = f * 4 + lens) {d : LensDesc}
    (hd : d = s.lensDesc l q.desc) {r : State × Nat × Option (Nat × FsErr)}
    (hr : r = (s.passSpent l q stalls accesses waits).runVectors l f d (List.range d.vectors))
    (hend : lensInstant (s.fld f) (s.passEnd l q stalls) ≤ s.workEnd f) (hexec : (s.lens l).exec = some q) (hok : r.2.2 = none) :
    exec (.lensPassComplete f lens stalls accesses waits none) s = .next ((r.1.readsEcc f (d.actBytes d.vectors)).passDone l
      { q with stall := q.stall + stalls } (s.passEnd l q stalls) r.2.1 ((s.lens l).reservedCodes d)) := by
  subst hl hd
  rw [show exec (.lensPassComplete f lens stalls accesses waits none) s = execLensPassComplete f lens stalls accesses waits none s from rfl,
    execLensPassComplete, Nat.mod_eq_of_lt hlens, onField_next hf]
  dsimp only
  rw [hexec]
  dsimp only
  rw [← hr, hok]
  dsimp only
  refine congrArg Host.Outcome.next (if_neg ?_)
  rw [hph, hfog]
  rintro (h | h | h)
  · exact h rfl
  · nomatch h
  · omega

/-- A lens in a stretched cycle: its passes' counts, and the load at its engine. -/
theorem lensStretch_eq {s : State} {f lens : Nat} (hf : f < 64) (hlens : lens < 4) (hfog : (s.fld f).fogged = false)
    (hph : (s.fld f).phase = .work) {l : Nat} (hl : l = f * 4 + lens) (hlead : s.lensLead l = l)
    (hsoon : ∀ k, (s.lens l).lastStretch = some k → k + 8 ≤ s.lensCycle f) :
    ∃ (js : List LoadJob) (bays : List Nat), exec (.lensStretch f lens) s = .next ((s.setLens l { s.lens l with
      lastStretch := some (s.lensCycle f), stretch := (s.lens l).stretch + 1, engine := js
      exec := (s.lens l).exec.map fun q => { q with stretched := q.stretched + 1, execStretched := q.execStretched + 1 }
      next := (s.lens l).next.map fun q => { q with stretched := q.stretched + 1 } }).each bays fun s b => s.bayStretch f b) := by
  subst hl
  rw [show exec (.lensStretch f lens) s = execLensStretch f lens s from rfl, execLensStretch, Nat.mod_eq_of_lt hlens, onField_next hf]
  dsimp only
  rw [hlead, if_neg, if_pos hph, if_pos hph]
  · exact ⟨_, _, rfl⟩
  · rw [hph, hfog]
    rintro (h | h | h)
    · split at h
      · next k hk => have := hsoon k hk; have := of_decide_eq_true h; omega
      · nomatch h
    · nomatch h
    · nomatch h

/-- A stretched cycle in a bay's ledger touches no lens and no byte of field store. -/
theorem bayStretch_keeps (s : State) (f b : Nat) : (s.bayStretch f b).lenses = s.lenses ∧ (s.bayStretch f b).fst = s.fst := by
  unfold State.bayStretch
  extract_lets k n u
  split
  · exact ⟨rfl, rfl⟩
  · split
    · have hlog (v : State) (n : Nat) : Marks [] v (v.logEv evStretchOverdraft f b n) := .logEv ..
      exact ⟨(hlog _ _).beyond_eq State.lenses fun _ => rfl, (hlog _ _).beyond_eq State.fst fun _ => rfl⟩
    · exact ⟨rfl, rfl⟩

theorem bayStretches_keep (s : State) (f : Nat) (bays : List Nat) :
    (s.each bays fun s b => s.bayStretch f b).lenses = s.lenses ∧ (s.each bays fun s b => s.bayStretch f b).fst = s.fst := by
  induction bays generalizing s with
  | nil => exact ⟨rfl, rfl⟩
  | cons b bays ih =>
    obtain ⟨hlenses, hfst⟩ := bayStretch_keeps s f b
    obtain ⟨hlenses', hfst'⟩ := ih (s.bayStretch f b)
    exact ⟨hlenses'.trans hlenses, hfst'.trans hfst⟩

/-- Settles O41: a pass by its lens and its report, a column by the one lens it lies in. -/
theorem lensPassesRun : Obligations.LensPassesRun := by
  refine ⟨fun x d acts j hk hfit => intColumn_eq x acts j hk hfit, fun s f lens stalls accesses waits q hf hlens hfog hph => ?_⟩
  intro l x d
  refine ⟨fun hnext hexec hready hkind hclear => ?_, ?_, fun hlead hsoon => ?_⟩
  · obtain ⟨begun, hr, hfree, hx⟩ := lensPassExec_eq hf hlens hfog hph rfl rfl hnext hexec hready hkind hclear
    refine ⟨fun hall => ?_, fun ⟨p, hp, hnot⟩ => ?_⟩
    · rw [if_neg (by simpa using hall)] at hx
      refine gives_next hx ?_
      rw [State.lens_setLens_self]
      exact ⟨rfl, ⟨_, rfl, rfl, rfl, rfl, hr, hfree⟩, rfl, rfl⟩
    · rw [if_pos (List.all_eq_false.2 ⟨p, hp, by simpa using hnot⟩)] at hx
      obtain ⟨hlenses, hflag, hfst, -⟩ := lensRefuse_spec (s.setLens l { x with next := none, nextFree := max q.readyAt x.execFree }) l q.desc q.pkt
      have hl : (State.lensRefuse (s.setLens l { x with next := none, nextFree := max q.readyAt x.execFree }) l q.desc q.pkt).lens l =
          { x with next := none, nextFree := max q.readyAt x.execFree } :=
        (State.lens_of_lenses hlenses l).trans (State.lens_setLens_self ..)
      refine gives_next hx ?_
      rw [hl]
      exact ⟨rfl, hexec, hflag, hfst⟩
  · intro endAt r hend hexec hok
    refine gives_next (lensPassComplete_eq hf hlens hfog hph rfl rfl rfl hend hexec hok) ?_
    obtain ⟨js, hspent⟩ : ∃ js, (s.passSpent l q stalls accesses waits).lens l = { x with exec := none, execFree := endAt, engine := js } :=
      ⟨_, State.lens_setLens_self ..⟩
    have hrun : StoreWork (s.passSpent l q stalls accesses waits) r.1 := StoreWork.runVectors ..
    have hread : Marks [.fstCountEccCorr] r.1 (r.1.readsEcc f (d.actBytes d.vectors)) := marks_fstEcc ..
    obtain ⟨hlens', hfst, hjournal, hnow, hsram, hreport⟩ := passDone_spec (r.1.readsEcc f (d.actBytes d.vectors)) l
      { q with stall := q.stall + stalls } endAt r.2.1 (x.reservedCodes d)
    have hl : (r.1.readsEcc f (d.actBytes d.vectors)).lens l = (s.passSpent l q stalls accesses waits).lens l :=
      (hread.beyond_eq (State.lens · l) fun _ => rfl).trans (hrun.eq_of (State.lens · l) (State.lens · l) fun _ => rfl)
    rw [hlens', hl, hspent]
    refine ⟨rfl, rfl, ?_, ?_, ?_, hreport, ?_⟩
    · rw [hfst, hread.beyond_eq State.fst fun _ => rfl]
    · rw [hjournal, hread.beyond_eq State.journal fun _ => rfl]
    · rw [hnow, hread.beyond_eq State.now fun _ => rfl, hrun.eq_of State.now State.now fun _ => rfl]
      refine Nat.le_trans (le_of_eq ?_) (Nat.le_max_right s.now _)
      rw [show f = l / 4 by omega]
    · rw [hsram, hread.beyond_eq State.sram fun _ => rfl, hrun.eq_of State.sram State.sram fun _ => rfl]
      rfl
  · obtain ⟨js, bays, hx⟩ := lensStretch_eq hf hlens hfog hph rfl hlead hsoon
    obtain ⟨hlenses, hfst⟩ := bayStretches_keep (s.setLens l { x with
      lastStretch := some (s.lensCycle f), stretch := x.stretch + 1, engine := js
      exec := x.exec.map fun q => { q with stretched := q.stretched + 1, execStretched := q.execStretched + 1 }
      next := x.next.map fun q => { q with stretched := q.stretched + 1 } }) f bays
    refine gives_next hx ?_
    generalize State.each _ bays _ = u at hlenses hfst ⊢
    have hl : u.lens l = _ := (State.lens_of_lenses hlenses l).trans (State.lens_setLens_self ..)
    rw [hl]
    refine ⟨rfl, rfl, ?_, ?_, rfl, hfst⟩
    · cases x.exec <;> rfl
    · cases x.next <;> rfl

end Sys2Proof.Machine
end

section
/-! SUPPORT. The MV engine: launches, operations and their results. -/

namespace Sys2Proof.Machine

open Sys2Proof.Claims

theorem State.mv_setMv_self (s : State) (f : Nat) (x : MvSt) : (s.setMv f x).mv f = x := mget_mput_self ..

theorem State.mv_of_mvs {s s' : State} (h : s'.mvs = s.mvs) (f : Nat) : s'.mv f = s.mv f := by
  rw [State.mv, h, ← State.mv]

/-- A launch that the engine takes waits in its queue from two cycles on. -/
theorem mvLaunch_eq {s : State} {id : Nat} {p : Packet} (harr : s.arrived id .rload = some p) (hspace : addrSpace p.full = 2)
    (hlow : 0x7000 ≤ p.full % 2 ^ 16) (hhigh : p.full % 2 ^ 16 < 0x8000) (hfog : (s.fld (fieldOf p.at_)).fogged = false)
    (hstale : s.stalePacket p = false) (hfull : s.storeFull p.at_ = false) {g : Nat} (hg : g = fieldOf p.at_)
    (hbad : s.mvBad g (mvLaunchOf p.full) p = false) (hroom : (s.mv g).queue.length < 8) :
    exec (.mvLaunch id) s = .next ((s.dropPkt id).setMv g { s.mv g with queue := enterQueue (p, s.cycle g + 2) (s.mv g).queue }) := by
  subst hg
  rw [show exec (.mvLaunch id) s = execMvLaunch id s from rfl, execMvLaunch, harr]
  dsimp only
  rw [if_neg (by simp [hspace, hfog]; omega), if_neg (ne_true_of_eq_false hstale), if_neg (ne_true_of_eq_false hfull),
    if_neg (ne_true_of_eq_false hbad), if_neg (by omega)]

/-- The idle engine takes up its queue's head. -/
theorem mvOperationBegin_eq {s : State} {f c : Nat} {p : Packet} {rest : List (Packet × Nat)} (hf : f < 64) (hfog : (s.fld f).fogged = false)
    (hph : (s.fld f).phase = .work) (hq : (s.mv f).queue = (p, c) :: rest) (hexec : (s.mv f).exec = none) :
    exec (.mvOperationBegin f) s = .next (s.setMv f { s.mv f with
      queue := rest, exec := some (p, (s.mv f).nextSeq, max c (s.mv f).free), nextSeq := (s.mv f).nextSeq + 1 }) := by
  rw [show exec (.mvOperationBegin f) s = execMvOperationBegin f s from rfl, execMvOperationBegin, onField_next hf]
  dsimp only
  rw [hq, hexec]
  refine congrArg Host.Outcome.next (if_neg ?_)
  simp [hph, hfog]

/-- An operation whose accesses field store serves ends, and is reported DONE. -/
theorem mvOperationComplete_eq {s : State} {f stalls accesses waits seq begun : Nat} {p : Packet} (hf : f < 64)
    (hfog : (s.fld f).fogged = false) (hph : (s.fld f).phase = .work) {d : MvDesc} (hd : d = s.mvDesc f (mvLaunchOf p.full))
    {r : State × Nat × Nat × Option (Nat × FsErr)}
    (hr : r = (s.mvSpent f begun (d.cycles + stalls) stalls accesses waits).mvRun f d d.m)
    (hexec : (s.mv f).exec = some (p, seq, begun)) (hok : r.2.2.2 = none) (hend : begun + (d.cycles + stalls) ≤ settleStart (s.fld f)) :
    exec (.mvOperationComplete f stalls accesses waits) s =
      .next (((r.1.bump .mveCountOps f 0 1).mvCounts f d d.m r.2.1 r.2.2.1).launchReport p
        (passReport seq 0 (d.cycles + stalls) 0 stalls r.2.1 r.2.2.1)) := by
  subst hd
  rw [show exec (.mvOperationComplete f stalls accesses waits) s = execMvOperationComplete f stalls accesses waits s from rfl,
    execMvOperationComplete, onField_next hf, hexec]
  dsimp only
  rw [← hr, hok]
  dsimp only
  refine congrArg Host.Outcome.next (if_neg ?_)
  rw [hph, hfog]
  rintro (h | h | h)
  · exact h rfl
  · nomatch h
  · exact Nat.not_le.2 h hend

/-- What an operation has read and met is only counted. -/
theorem marks_mvCounts (s : State) (f : Nat) (d : MvDesc) (rows sat resv : Nat) :
    Marks [.fstCountEccCorr, .mveCountSaturate, .mveCountReservedCode] s (s.mvCounts f d rows sat resv) :=
  .trans (.trans ((marks_fstEcc ..).mono (by simp)) (.bump (by decide) (by decide) ..)) (.bump (by decide) (by decide) ..)

/-- Settles O42: an operation by its engine, its rows and its report. -/
theorem mvOperationsRun : Obligations.MvOperationsRun := by
  intro s id f c seq begun stalls accesses waits p rest
  refine ⟨fun harr hspace hlow hhigh hfog hstale hfull => ?_, fun hf hfog hph => ⟨fun hq hexec => ?_, ?_⟩⟩
  · intro g hbad hroom hearlier
    refine gives_next (mvLaunch_eq harr hspace hlow hhigh hfog hstale hfull rfl hbad hroom) ?_
    rw [State.mv_setMv_self, enterQueue_last hearlier]
    exact ⟨rfl, s.pkt_dropPkt_self id, rfl⟩
  · refine gives_next (mvOperationBegin_eq hf hfog hph hq hexec) ?_
    rw [State.mv_setMv_self]
    exact ⟨rfl, rfl⟩
  · intro d t r hexec hok hend
    refine gives_next (mvOperationComplete_eq hf hfog hph rfl rfl hexec hok hend) ?_
    have hspent : (s.mvSpent f begun t stalls accesses waits).mv f = { s.mv f with exec := none, free := begun + t } := State.mv_setMv_self ..
    have hrun : StoreWork (s.mvSpent f begun t stalls accesses waits) r.1 := StoreWork.mvRun ..
    have hcount : Marks [.fstCountEccCorr, .mveCountSaturate, .mveCountReservedCode, .mveCountOps] r.1
        ((r.1.bump .mveCountOps f 0 1).mvCounts f d d.m r.2.1 r.2.2.1) :=
      .trans (.bump (by decide) (by decide) ..) ((marks_mvCounts ..).mono (by simp))
    generalize (r.1.bump .mveCountOps f 0 1).mvCounts f d d.m r.2.1 r.2.2.1 = u at hcount
    have hmv : u.mv f = { s.mv f with exec := none, free := begun + t } :=
      (hcount.beyond_eq (State.mv · f) fun _ => rfl).trans ((hrun.eq_of (State.mv · f) (State.mv · f) fun _ => rfl).trans hspent)
    obtain ⟨q, hq, hty, hdest, hslot, hbody⟩ := launchReport_spec u p seq 0 t 0 stalls r.2.1 r.2.2.1 0
    refine ⟨congrArg MvSt.exec hmv, congrArg MvSt.free hmv, hcount.beyond_eq State.fst fun _ => rfl, hcount.beyond_eq State.journal fun _ => rfl,
      ?_, ⟨q, hq, hty, hdest, hslot, hbody⟩, ?_⟩
    · refine Nat.le_trans (Nat.le_max_right s.now _) (le_of_eq ?_)
      exact ((hcount.beyond_eq State.now fun _ => rfl).trans (hrun.eq_of State.now State.now fun _ => rfl)).symm
    · exact (hcount.beyond_eq State.sram fun _ => rfl).trans (hrun.eq_of State.sram State.sram fun _ => rfl)

end Sys2Proof.Machine
end

section
/-! SUPPORT. Staging: transfers and their lines, destages. -/

namespace Sys2Proof.Machine

open Sys2Proof.Claims

/-! ### Transfers under way -/

/-- A transfer under way, replaced by a later form of itself that has not failed. -/
theorem State.order_setOrder {s : State} {k : Nat} {o o' : Order} (h : s.order k = some o) (hid : o'.plan.transfer = o.plan.transfer)
    (hok : o'.failed = false) : (s.setOrder o').order k = some o' := by
  obtain ⟨hk, -⟩ : o.plan.transfer = k ∧ o.failed = false := by simpa using List.find?_some h
  have hmem := List.mem_of_find?_eq_some h
  unfold State.order at h ⊢
  rw [State.setOrder]
  generalize s.orders = l at h hmem
  clear h
  induction l with
  | nil => nomatch hmem
  | cons x l ih =>
    by_cases hx : x.plan.transfer = o'.plan.transfer
    · rw [List.map_cons, if_pos hx, List.find?_cons_of_pos (by simp [hid, hk, hok])]
    · rw [List.map_cons, if_neg hx, List.find?_cons_of_neg (by simpa using fun h => (hx (h.trans (hk.symm.trans hid.symm))).elim)]
      refine ih ((List.mem_cons.1 hmem).resolve_left ?_)
      rintro rfl
      exact hx hid.symm

/-- A transfer replaced by a failed form of itself is no longer under way. -/
theorem State.order_setOrder_failed (s : State) {k : Nat} {o' : Order} (hk : o'.plan.transfer = k) (hfail : o'.failed = true) :
    (s.setOrder o').order k = none := by
  unfold State.order
  rw [State.setOrder, List.find?_eq_none]
  intro x hx
  obtain ⟨y, -, rfl⟩ := List.mem_map.1 hx
  split
  · simp [hfail]
  · next hne => simpa using fun h => (hne (h.trans hk.symm)).elim

theorem State.setOrder_gf (s : State) (o : Order) (f : RegField) (u k : Nat) : (s.setOrder o).gf f u k = s.gf f u k := rfl

theorem State.setOrder_fst (s : State) (o : Order) : (s.setOrder o).fst = s.fst := rfl

/-- A transfer failed: it is no longer under way, and its region is FAILED. -/
theorem failTransfer_spec (s : State) {k : Nat} {o : Order} (hk : o.plan.transfer = k) :
    (s.failTransfer o).order k = none ∧ (s.failTransfer o).gf F.fstRegionCfg_state o.plan.field o.plan.region = 3 ∧
      (s.failTransfer o).fst = s.fst := by
  unfold State.failTransfer
  extract_lets u v w
  have hlog : Marks [] w (w.logEv evStageFail o.plan.field o.plan.field (detail2 o.plan.transfer o.plan.region)) := .logEv ..
  have hv : Marks [.stgEngineStatus] u v := .hset (by decide) (by decide) ..
  have hu : u.gf F.fstRegionCfg_state o.plan.field o.plan.region = 3 :=
    State.gf_sf_self s F.fstRegionCfg_state _ _ 3 (by decide) (by rfl : _ = 4)
  have hgone : w.order k = none := State.order_setOrder_failed v hk rfl
  have hst : w.gf F.fstRegionCfg_state o.plan.field o.plan.region = v.gf F.fstRegionCfg_state o.plan.field o.plan.region := State.setOrder_gf ..
  have hfst : w.fst = v.fst := State.setOrder_fst ..
  have hufst : u.fst = s.fst := rfl
  clear_value u v w
  refine ⟨(hlog.beyond_eq (State.order · k) fun _ => rfl).trans hgone, ?_, ?_⟩
  · rw [hlog.gf_eq (by decide), hst, hv.gf_eq (by decide), hu]
  · rw [hlog.beyond_eq State.fst fun _ => rfl, hfst, hv.beyond_eq State.fst fun _ => rfl, hufst]

/-! ### The device behind a port -/

/-- A place of a device is named by its global address. -/
theorem cxlPlace_cxlGlobal {port off : Nat} (hport : port < 16) (hoff : off < 2 ^ 41) : cxlPlace (cxlGlobal port off) = some (port, off) := by
  unfold cxlPlace cxlGlobal
  simp only [bits]
  norm_num at hoff ⊢
  refine ⟨⟨by omega, by omega, by omega⟩, by omega, by omega⟩

/-! ### Lines -/

theorem cxlReadComplete_eq {s : State} {k line stalled : Nat} {data : List Word} {poison : Bool} {o : Order} (ho : s.order k = some o)
    (hup : s.engineUp o.plan.device = true) (hbegun : s.orderBegun o = true) (hline : line < o.plan.lines) (hnew : mfind o.arrived line = none)
    (hdev : o.plan.device < 16) (hplace : o.plan.source + 64 * line < 2 ^ 41) :
    exec (.cxlReadComplete k line data poison stalled) s = .next (
      if poison = true then (s.bump .stgCountReadStall 0 o.plan.device stalled).failTransfer o
      else (s.bump .stgCountReadStall 0 o.plan.device stalled).setOrder
        { o with arrived := mput o.arrived line ((List.range 16).map fun j => data.getD j 0) }) := by
  rw [show exec (.cxlReadComplete k line data poison stalled) s = execCxlReadComplete k line data poison stalled s from rfl,
    execCxlReadComplete, ho]
  dsimp only
  rw [if_neg (by simp [hup, hbegun, hnew]; omega), cxlPlace_cxlGlobal hdev hplace, apply_ite Host.Outcome.next]
  simp

/-- The packet of a transfer's line `line`, from its entry tile to the bay port of its lane. -/
def State.stagePacket (s : State) (o : Order) (entry bay line : Nat) (ws : List Word) : Packet :=
  { id := s.nextPkt, ty := .stage, vc := 3, len := 4, dest := bayPort (bayAt o.plan.field bay), src := entry
    at_ := entry, inPort := rimPort o.plan.device entry, parity := s.parity (fieldOf entry), wafer := true
    addr := s.gf F.fstRegionSpan_base o.plan.field o.plan.region * 4096 + (o.plan.offset + line) * 64, body := stageBody ws }

theorem stageLaneInject_eq {s : State} {k lane entry bay : Nat} {o : Order} {ws : List Word} (ho : s.order k = some o)
    (hup : s.engineUp o.plan.device = true) (hbegun : s.orderBegun o = true) (hlane : o.plan.lanes[lane]? = some (entry, bay)) {n line : Nat}
    (hn : n = mget 0 o.sent lane) (hl : line = lane + n * o.lanes) (hws : mfind o.arrived line = some ws) (hline : line < o.plan.lines)
    (hgap : ∀ t, mfind o.last lane = some t → t + 128 ≤ s.now)
    (hroom : rimPort o.plan.device entry = .l ∨ s.bufferUse { id := s.nextPkt, ty := .stage, vc := 3, dest := 0, src := entry, at_ := entry }
      entry (rimPort o.plan.device entry) = 0) :
    exec (.stageLaneInject k lane) s = .next (((s.setOrder { o with sent := mput o.sent lane (n + 1), last := mput o.last lane s.now }).bump
      .stgCountLines 0 o.plan.device 1).addPkt (s.stagePacket o entry bay line ws)) := by
  subst hn hl
  rw [show exec (.stageLaneInject k lane) s = execStageLaneInject k lane s from rfl, execStageLaneInject, ho]
  dsimp only
  rw [hlane, hws]
  dsimp only
  refine if_neg ?_
  rintro (h | h | h | h | ⟨h, hfull⟩)
  · exact Bool.false_ne_true (h.symm.trans hup)
  · split at h
    · next t ht => have := hgap t ht; have := of_decide_eq_true h; omega
    · nomatch h
  · omega
  · exact Bool.false_ne_true (h.symm.trans hbegun)
  · exact Nat.ne_of_gt hfull (hroom.resolve_left h)

/-- The bytes of a line's words. -/
def lineBytes (ws : List TWord) : List Byte := (ws.map fun x => [byteOf x.w 0, byteOf x.w 1, byteOf x.w 2, byteOf x.w 3]).flatten

theorem lineBytes_length (ws : List TWord) : (lineBytes ws).length = 4 * ws.length := by
  induction ws with
  | nil => rfl
  | cons w ws ih =>
    rw [lineBytes, List.map_cons, List.flatten_cons, List.length_append, ← lineBytes, ih, List.length_cons]
    simp only [List.length_cons, List.length_nil]
    omega

theorem getElem?_lineBytes {ws : List TWord} {j : Nat} (h : j < 4 * ws.length) :
    (lineBytes ws)[j]? = some (byteOf (ws.getD (j / 4) { w := 0 }).w (j % 4)) := by
  induction ws generalizing j with
  | nil => nomatch h
  | cons w ws ih =>
    rw [lineBytes, List.map_cons, List.flatten_cons, ← lineBytes]
    obtain hlow | hhigh := Nat.lt_or_ge j 4
    · rw [List.getElem?_append_left hlow, Nat.div_eq_of_lt hlow, Nat.mod_eq_of_lt hlow]
      interval_cases j <;> rfl
    · obtain ⟨i, rfl⟩ := Nat.exists_eq_add_of_le hhigh
      rw [List.getElem?_append_right hhigh, show 4 + i - [byteOf w.w 0, byteOf w.w 1, byteOf w.w 2, byteOf w.w 3].length = i from Nat.add_sub_cancel_left ..,
        ih (by rw [List.length_cons] at h; omega), show (4 + i) / 4 = i / 4 + 1 by omega, Nat.add_mod_left]
      rfl

/-- The state in which a line has been stored into region `r` and counted, `finish` what its transfer has become. -/
theorem stage_eq {s : State} {id r : Nat} {p : Packet} (harr : s.arrived id .stage = some p)
    (hr : s.fillingRegion (fieldOf p.at_) (p.addr % 67108864) = some r) :
    ∃ u, exec (.stage id) s = .next u ∧ u.fst = memWriteBytes s.fst (fstAddr (fieldOf p.at_) (p.addr % 67108864)) (lineBytes p.body) ∧
      u.packets = (s.dropPkt id).packets ∧ u.sram = s.sram := by
  have hr' : (s.dropPkt id).fillingRegion (fieldOf p.at_) (p.addr % 67108864) = some r := hr
  rw [show exec (.stage id) s = execStage id s from rfl, execStage, harr]
  dsimp only
  rw [hr']
  dsimp only
  refine ⟨_, rfl, ?_, ?_, ?_⟩
  · split <;> rfl
  · split <;> rfl
  · split <;> rfl

/-- The next 64 bytes of a port's oldest destage go out. -/
theorem cxlWriteComplete_eq {s : State} {port : Nat} {d : DestageJob} (hport : port < 16)
    (hd : s.destages.find? (fun d => d.plan.device = port && !d.failed) = some d) (hfog : (s.fld d.plan.field).fogged = false)
    (hup : (s.gf F.stnStartupPorts_cxl).testBit port = true) (hplace : d.plan.target + d.done_ < 2 ^ 41) :
    ∃ ds, exec (.cxlWriteComplete port) s = .next { s with
      out := .cxlWrite port (d.plan.target + d.done_) ((List.range 16).map fun j => (s.seeWord d.plan.field none
        (s.gf F.fstRegionSpan_base d.plan.field d.plan.region * 4096 + d.plan.offset + d.done_ + 4 * j)).w) :: s.out
      destages := ds } := by
  rw [show exec (.cxlWriteComplete port) s = execCxlWriteComplete port s from rfl, execCxlWriteComplete, onUnit_next hport, hd]
  dsimp only
  rw [if_neg (by simp [hfog, hup]), cxlPlace_cxlGlobal hport hplace]
  exact ⟨_, rfl⟩

/-- Settles O43: transfers by their record, lines by the packet or the bytes. -/
theorem stagingMoves : Obligations.StagingMoves := by
  intro s id k line lane stalled f port entry bay r data ws o p d
  refine ⟨fun ho hup hbegun => ⟨fun hline hnew hdev hplace => ⟨?_, ?_⟩, fun hlane => ?_, fun hdev hport hmore => ?_⟩,
    fun ho hf hdone hheld hnew hfog => ?_, fun harr hlen hbad => ?_, fun hd hport hfog hup hplace => ?_⟩
  · obtain ⟨-, hok⟩ : o.plan.transfer = k ∧ o.failed = false := by simpa using List.find?_some ho
    refine gives_next (cxlReadComplete_eq ho hup hbegun hline hnew hdev hplace) ?_
    exact ⟨⟨_, State.order_setOrder (s := s.bump .stgCountReadStall 0 o.plan.device stalled) ho rfl hok, mfind_mput_self .., rfl⟩, rfl, rfl⟩
  · obtain ⟨hk, -⟩ : o.plan.transfer = k ∧ o.failed = false := by simpa using List.find?_some ho
    exact gives_next (cxlReadComplete_eq ho hup hbegun hline hnew hdev hplace) (failTransfer_spec _ hk)
  · intro n line hws hline hgap hroom
    obtain ⟨-, hok⟩ : o.plan.transfer = k ∧ o.failed = false := by simpa using List.find?_some ho
    refine gives_next (stageLaneInject_eq ho hup hbegun hlane rfl rfl hws hline hgap hroom) ?_
    refine ⟨⟨_, List.mem_append_right _ (List.mem_singleton_self _), rfl, rfl, rfl, rfl, ?_, rfl⟩,
      ⟨_, State.order_setOrder (o' := { o with sent := mput o.sent lane (n + 1), last := mput o.last lane s.now }) ho rfl hok, mget_mput_self ..⟩, rfl⟩
    exact (List.map_map ..).trans (List.map_id ws)
  · obtain ⟨hk, -⟩ : o.plan.transfer = k ∧ o.failed = false := by simpa using List.find?_some ho
    refine gives_next ?_ (failTransfer_spec s hk)
    rw [show exec (.cxlMemTimeout port (some k)) s = execCxlMemTimeout port (some k) s from rfl, execCxlMemTimeout, onUnit_next hport]
    simp only [ho]
    rw [if_pos ⟨hdev, hbegun, hmore⟩]
  · obtain ⟨-, hok⟩ : o.plan.transfer = k ∧ o.failed = false := by simpa using List.find?_some ho
    refine gives_next ?_ ⟨_, State.order_setOrder (o' := { o with notified := f :: o.notified }) ho rfl hok, rfl, rfl⟩
    rw [show exec (.stageNotify f k) s = execStageNotify f k s from rfl, execStageNotify, onField_next hf, ho]
    dsimp only
    rw [if_pos ⟨hdone, hheld, hnew, hfog⟩]
  · intro g off hr
    obtain ⟨u, hexec, hfst, hpkts, hsram⟩ := stage_eq harr hr
    have hlength : (lineBytes p.body).length = 64 := by rw [lineBytes_length, hlen]
    refine gives_next hexec ⟨fun j hj => ?_, fun a ha => ?_, ?_, hsram⟩
    · rw [State.fstByte, hfst, show fstAddr g (off + j) = fstAddr g off + j from (Nat.add_assoc ..).symm, memRead_memWriteBytes _ _ _ _ (by omega)]
      exact Option.some.inj ((List.getElem?_eq_getElem _).symm.trans (getElem?_lineBytes (by omega)))
    · rw [hfst]
      refine memWriteBytes_frame _ _ _ _ ?_
      by_contra hin
      change ¬(a < fstAddr g off ∨ fstAddr g off + (lineBytes p.body).length ≤ a) at hin
      refine ha (a - fstAddr g off) (by omega) ?_
      unfold fstAddr at hin ⊢
      omega
    · rw [State.pkt, hpkts]
      exact s.pkt_dropPkt_self id
  · obtain ⟨ds, hexec⟩ := cxlWriteComplete_eq hport hd hfog hup hplace
    exact gives_next hexec ⟨rfl, rfl, rfl⟩

end Sys2Proof.Machine
end

section
/-! SUPPORT. What every effect keeps: the queue behind the command, the fuses, the running clock, packet numbers below the next, and
memories in canonical form. -/

namespace Sys2Proof.Machine

/-- The parts of a state of which `Sound` speaks. -/
def State.core (s : State) : List Instr × Nat × Fuses × List Packet × Nat × List Host.Cell × List Host.Cell :=
  (s.pending, s.now, s.fuses, s.packets, s.nextPkt, s.sram, s.fst)

/-- The packets of a state have numbers below the next. -/
def State.numbered (s : State) : Prop := ∀ p ∈ s.packets, p.id < s.nextPkt

/-- What every effect on a state keeps. -/
structure Sound (s s' : State) : Prop where
  pending : s'.pending = s.pending
  now : s.now ≤ s'.now
  fuses : s'.fuses = s.fuses
  numbered : s.numbered → s'.numbered
  sram : memWf s.sram = true → memWf s'.sram = true
  fst : memWf s.fst = true → memWf s'.fst = true

namespace Sound
variable {s₀ s s' : State}

theorem refl (s : State) : Sound s s := ⟨rfl, Nat.le_refl _, rfl, id, id, id⟩

theorem trans (h : Sound s₀ s) (h' : Sound s s') : Sound s₀ s' :=
  ⟨h'.pending.trans h.pending, h.now.trans h'.now, h'.fuses.trans h.fuses, h'.numbered ∘ h.numbered, h'.sram ∘ h.sram, h'.fst ∘ h.fst⟩

/-- An effect on nothing that `Sound` speaks of. -/
theorem set (h : Sound s₀ s) (hcore : s'.core = s.core) : Sound s₀ s' := by
  obtain ⟨hpending, hnow, hfuses, hpackets, hnext, hsram, hfst⟩ :
      s'.pending = s.pending ∧ s'.now = s.now ∧ s'.fuses = s.fuses ∧ s'.packets = s.packets ∧ s'.nextPkt = s.nextPkt ∧ s'.sram = s.sram ∧
        s'.fst = s.fst := by
    simpa only [State.core, Prod.mk.injEq] using hcore
  refine h.trans ⟨hpending, hnow.ge, hfuses, ?_, ?_, ?_⟩
  · rw [State.numbered, State.numbered, hpackets, hnext]
    exact id
  · rw [hsram]
    exact id
  · rw [hfst]
    exact id

set_option autoImplicit true in
/-- An effect on parts of the state of which `Sound` does not speak. -/
theorem upd (h : Sound s₀ s) : Sound s₀ { s with
      fresh := a0, out := a1, irqWatch := a2, startedAt := a3, regs := a4, latches := a5, sramBad := a6, sramWeak := a7, fstBad := a8,
      fstWeak := a9, rings := a10, fields := a11, groups := a12, tiles := a13, slots := a14, rules := a15, buoys := a16, buoyBlocks := a17,
      trunk := a18, tagMsgs := a19, sectorTags := a20, outTurn := a21, cvRefused := a22, answers := a23, mcast := a24, journal := a25,
      bayQueues := a26, bankLast := a27, lenses := a28, mvs := a29, orders := a30, destages := a31, sectors := a32, plan := a33,
      lastBeacon := a34, periodDue := a35, periodHeld := a36, periodWrites := a37, settleDue := a38, live := a39, ledgerQueue := a40,
      copyA := a41, copyB := a42, ledgerRepair := a43, tenants := a44, hostSlots := a45, hostRings := a46, mboxQueue := a47,
      mboxJobs := a48, caps := a49, candidate := a50, boundTo := a51, loaded := a52, loadedBind := a53, loadRun := a54, bays := a55,
      rampQueue := a56, retireQueue := a57, stnEnergy := a58, railFails := a59, hot := a60, thermtrip := a61, wdogDoorbell := a62,
      xaLostAt := a63, resets := a64, startDeadlines := a65, keeperAt := a66, mirrorReady := a67, restartAt := a68, restarted := a69,
      faultLog := a70, rewrites := a71, jalfen := a72, nonces := a73, nonceCount := a74, nonceEnd := a75, denials := a76, lockEnd := a77,
      sessionEnd := a78, haltedBy := a79, belowGrade := a80, countWritten := a81, bindMap := a82, stepsDone := a83, bootPeriod := a84,
      bootPorts := a85, bootCaps := a86, fieldFails := a87, portsDown := a88, minuteLog := a89, planAt := a90, wdogFrom := a91,
      fogAutoAt := a92, stationRetried := a93, railsBack := a94, recovered := a95, snapshot := a96, stopAt := a97, gatedLogged := a98,
      watchSpan := a99, hwSet := a100, rwlWrites := a101, unlocked := a102, lostTiles := a103 } :=
  h.set rfl

theorem ite {c : Prop} [Decidable c] {a b : State} (ha : Sound s₀ a) (hb : Sound s₀ b) : Sound s₀ (if c then a else b) := by
  split
  · exact ha
  · exact hb

/-- An effect that may be left out. -/
theorem when {c : Prop} [Decidable c] {a : State} (h : Sound s₀ s) (ha : Sound s₀ s → Sound s₀ a) : Sound s₀ (if c then a else s) :=
  .ite (ha h) h

/-- An effect that may be left out. -/
theorem keep {c : Prop} [Decidable c] {a : State} (h : Sound s₀ s) (ha : Sound s₀ s → Sound s₀ a) : Sound s₀ (if c then s else a) :=
  .ite h (ha h)

theorem each {α : Type} {l : List α} {f : State → α → State} (h : Sound s₀ s) (hf : ∀ (s : State) (a : α), Sound s₀ s → Sound s₀ (f s a)) :
    Sound s₀ (s.each l f) := by
  induction l generalizing s with
  | nil => exact h
  | cons a l ih => exact ih (hf s a h)

theorem foldl {α : Type} {l : List α} {f : State → α → State} (h : Sound s₀ s) (hf : ∀ (s : State) (a : α), Sound s₀ s → Sound s₀ (f s a)) :
    Sound s₀ (l.foldl f s) := each h hf

theorem foldlFst {α β : Type} {l : List α} {f : State × β → α → State × β} {x : State × β} (h : Sound s₀ x.1)
    (hf : ∀ (x : State × β) (a : α), Sound s₀ x.1 → Sound s₀ (f x a).1) : Sound s₀ (l.foldl f x).1 := by
  induction l generalizing x with
  | nil => exact h
  | cons a l ih => exact ih (hf x a h)

theorem getD {o : Option State} (ho : ∀ u ∈ o, Sound s₀ u) (h : Sound s₀ s) : Sound s₀ (o.getD s) := by
  cases o with
  | none => exact h
  | some u => exact ho u rfl

/-! ### Registers, units and packets -/

theorem wr {r : Reg} {u k : Nat} {w : BitVec 64} (h : Sound s₀ s) : Sound s₀ (s.wr r u k w) := h.set rfl
theorem sf {f : RegField} {u k v : Nat} (h : Sound s₀ s) : Sound s₀ (s.sf f u k v) := h.set rfl
theorem noteSet {f : RegField} {u k : Nat} (h : Sound s₀ s) : Sound s₀ (s.noteSet f u k) := h.set rfl
theorem hset {f : RegField} {u k : Nat} (h : Sound s₀ s) : Sound s₀ (s.hset f u k) := h.set rfl
theorem bump {r : Reg} {u k n : Nat} (h : Sound s₀ s) : Sound s₀ (s.bump r u k n) := h.set rfl
theorem setFld {f : Nat} {x : FieldSt} (h : Sound s₀ s) : Sound s₀ (s.setFld f x) := h.set rfl
theorem setGrp {t g : Nat} {x : Group} (h : Sound s₀ s) : Sound s₀ (s.setGrp t g x) := h.set rfl
theorem setTil {t : Nat} {x : Tile} (h : Sound s₀ s) : Sound s₀ (s.setTil t x) := h.set rfl
theorem setSlot {t k : Nat} {x : Slot} (h : Sound s₀ s) : Sound s₀ (s.setSlot t k x) := h.set rfl
theorem setRule {t k : Nat} {x : RuleSt} (h : Sound s₀ s) : Sound s₀ (s.setRule t k x) := h.set rfl
theorem setBuoy {b i : Nat} {x : Buoy} (h : Sound s₀ s) : Sound s₀ (s.setBuoy b i x) := h.set rfl
theorem setBlk {b : Nat} {x : BuoyBlock} (h : Sound s₀ s) : Sound s₀ (s.setBlk b x) := h.set rfl
theorem setTagSt {a b : Nat} {x : TagState} (h : Sound s₀ s) : Sound s₀ (s.setTagSt a b x) := h.set rfl
theorem setRing {r : Nat} {x : Ring} (h : Sound s₀ s) : Sound s₀ (s.setRing r x) := h.set rfl

/-- Fewer packets. -/
theorem fewer (h : Sound s₀ s) {q : Packet → Bool} : Sound s₀ { s with packets := s.packets.filter q } :=
  h.trans ⟨rfl, Nat.le_refl _, rfl, fun hn p hp => hn p (List.mem_of_mem_filter hp), id, id⟩

theorem dropPkt {id : Nat} (h : Sound s₀ s) : Sound s₀ (s.dropPkt id) := h.fewer

theorem setPkt {p : Packet} (h : Sound s₀ s) : Sound s₀ (s.setPkt p) := by
  refine h.trans ⟨rfl, Nat.le_refl _, rfl, fun hn q hq => ?_, id, id⟩
  obtain ⟨r, hr, rfl⟩ := List.mem_map.1 hq
  split
  · next heq => exact heq ▸ hn r hr
  · exact hn r hr

theorem addPkt {p : Packet} (h : Sound s₀ s) : Sound s₀ (s.addPkt p) := by
  refine h.trans ⟨rfl, Nat.le_refl _, rfl, fun hn q hq => ?_, id, id⟩
  obtain hq | hq := List.mem_append.1 hq
  · exact Nat.lt_succ_of_lt (hn q hq)
  · rw [List.mem_singleton.1 hq]
    exact Nat.lt_succ_self _

/-- The next packet's number is left out. -/
theorem takeNumber (h : Sound s₀ s) : Sound s₀ { s with nextPkt := s.nextPkt + 1 } :=
  h.trans ⟨rfl, Nat.le_refl _, rfl, fun hn q hq => Nat.lt_succ_of_lt (hn q hq), id, id⟩

theorem advanceTo {t : Nat} (h : Sound s₀ s) : Sound s₀ (s.advanceTo t) :=
  h.trans ⟨rfl, Nat.le_max_left .., rfl, id, id, id⟩

/-! ### Memories -/

theorem setSram {m : List Host.Cell} (h : Sound s₀ s) (hm : memWf s.sram = true → memWf m = true) : Sound s₀ { s with sram := m } :=
  h.trans ⟨rfl, Nat.le_refl _, rfl, id, hm, id⟩

theorem setFst {m : List Host.Cell} (h : Sound s₀ s) (hm : memWf s.fst = true → memWf m = true) : Sound s₀ { s with fst := m } :=
  h.trans ⟨rfl, Nat.le_refl _, rfl, id, id, hm⟩

theorem clearFst {a n : Nat} (h : Sound s₀ s) : Sound s₀ { s with fst := memClear s.fst a n } := h.setFst (memWf_memClear _ _ _)

theorem sramPutBytes {t off : Nat} {bs : List Byte} (h : Sound s₀ s) : Sound s₀ (s.sramPutBytes t off bs) :=
  (h.setSram (memWf_memWriteBytes _ _ _)).set rfl

theorem fstPutBytes {f off : Nat} {bs : List Byte} (h : Sound s₀ s) : Sound s₀ (s.fstPutBytes f off bs) :=
  (h.setFst (memWf_memWriteBytes _ _ _)).set rfl

end Sound

/-- What every command keeps, and that it goes on under a condition on its operands. -/
structure Does (p : Prop) (s : State) (o : Host.Outcome State Fault Refusal) : Prop where
  sound : ∀ s', o = .next s' → Sound s s'
  goes : p → ∃ s', o = .next s'

namespace Does
variable {p q : Prop} {s₀ s s' : State} {a b : Host.Outcome State Fault Refusal}

theorem next (h : Sound s₀ s) : Does p s₀ (.next s) := ⟨fun _ heq => Host.Outcome.next.inj heq ▸ h, fun _ => ⟨s, rfl⟩⟩

theorem mono (h : Does q s a) (hpq : p → q) : Does p s a := ⟨h.sound, h.goes ∘ hpq⟩

theorem ite {c : Prop} [Decidable c] (ha : Does p s a) (hb : Does p s b) : Does p s (if c then a else b) := by
  split
  · exact ha
  · exact hb

theorem onField {f : Nat} (h : Sound s₀ s) : Does (f < 64) s₀ (onField f s) :=
  ⟨fun _ heq => (onField_inv heq).2 ▸ h, fun hf => ⟨s, onField_next hf⟩⟩

theorem onTile {t : Nat} (h : Sound s₀ s) : Does (t < 589824) s₀ (onTile t s) :=
  ⟨fun _ heq => (onTile_inv heq).2 ▸ h, fun ht => ⟨s, onTile_next ht⟩⟩

theorem onGroup {t g : Nat} (h : Sound s₀ s) : Does (t < 589824 ∧ g < 8) s₀ (onGroup t g s) :=
  ⟨fun _ heq => (onGroup_inv heq).2.2 ▸ h, fun ⟨ht, hg⟩ => ⟨s, onGroup_next ht hg⟩⟩

theorem onUnit {k n : Nat} (h : Sound s₀ s) : Does (k < n) s₀ (onUnit k n s) :=
  ⟨fun _ heq => (onUnit_inv heq).2 ▸ h, fun hk => ⟨s, onUnit_next hk⟩⟩

end Does

end Sys2Proof.Machine
end

section
/-! SUPPORT. What every effect keeps: the definitions of Ops. -/

namespace Sys2Proof.Machine

namespace Sound
variable {s₀ s : State}

theorem loseSram {t : Nat} (h : Sound s₀ s) : Sound s₀ (s.loseSram t) := h.upd

theorem sramPut {t off : Nat} {x : TWord} (h : Sound s₀ s) : Sound s₀ (s.sramPut t off x) := (h.setSram (memWf_memWriteWord _ _ _)).set rfl

theorem sramPutByte {t off : Nat} {b : Byte} (h : Sound s₀ s) : Sound s₀ (s.sramPutByte t off b) := (h.setSram (memWf_memWrite _ _ _)).set rfl

theorem readEcc {t : Nat} {offs : List Nat} (h : Sound s₀ s) : Sound s₀ (s.readEcc t offs) := Sound.ite h h.bump

theorem fstEcc {f : Nat} {offs : List Nat} (h : Sound s₀ s) : Sound s₀ (s.fstEcc f offs) := Sound.ite h h.bump

theorem setSettle {n : Nat} (h : Sound s₀ s) : Sound s₀ (s.setSettle n) := h.upd

theorem tickFresh (h : Sound s₀ s) : Sound s₀ (s.tickFresh) := h.upd

theorem stationRecord {e : Event} (h : Sound s₀ s) : Sound s₀ (s.stationRecord e) := h.setRing.upd

theorem logEvAt {ev : Ev} {f cyc loc detail : Nat} (h : Sound s₀ s) : Sound s₀ (s.logEvAt ev f cyc loc detail) :=
  Sound.ite (Sound.ite (Sound.ite h.stationRecord h).setRing (Sound.ite h.stationRecord h).setRing) h.stationRecord

theorem logEv {ev : Ev} {f loc detail : Nat} (h : Sound s₀ s) : Sound s₀ (s.logEv ev f loc detail) := h.logEvAt

theorem refuse {f : Nat} {req : Requester} {addr : Nat} (h : Sound s₀ s) : Sound s₀ (s.refuse f req addr) := h.logEv

theorem gatedAccess {f block : Nat} {req : Requester} {addr : Nat} (h : Sound s₀ s) : Sound s₀ (s.gatedAccess f block req addr) :=
  h.bump.keep fun h => h.upd.logEv

theorem noteRwl {w : RwlWrite} (h : Sound s₀ s) : Sound s₀ (s.noteRwl w) := h.upd

theorem unwrite {w : RwlWrite} (h : Sound s₀ s) : Sound s₀ (s.unwrite w) := (Sound.ite h.upd h.wr).refuse

theorem engageLock {keeper : Bool} (h : Sound s₀ s) : Sound s₀ (s.engageLock keeper) := (h.each fun _ _ h => h.unwrite).upd

end Sound

end Sys2Proof.Machine
end

section
/-! SUPPORT. What every effect keeps: the definitions of Issue. -/

namespace Sys2Proof.Machine

namespace Sound
variable {s₀ s : State}

theorem inject {t : Nat} {p : Packet} (h : Sound s₀ s) : Sound s₀ (s.inject t p) := h.addPkt

theorem respond {t : Nat} {q p : Packet} (h : Sound s₀ s) : Sound s₀ (s.respond t q p) := h.addPkt

theorem returnCredit {t k src sslot didx n c : Nat} (h : Sound s₀ s) : Sound s₀ (s.returnCredit t k src sslot didx n c) := by
  unfold State.returnCredit
  refine .ite ?_ ?_
  · exact h
  · extract_lets
    split
    · exact h.setPkt
    · exact h.inject

theorem creditWords {t k c : Nat} {ws : List QWord} (h : Sound s₀ s) : Sound s₀ (s.creditWords t k c ws) := h.each fun _ _ h => h.returnCredit

theorem discardWords {t k c : Nat} {ws : List QWord} (h : Sound s₀ s) : Sound s₀ (s.discardWords t k c ws) := h.creditWords.bump

theorem channelPoison {t k : Nat} (h : Sound s₀ s) : Sound s₀ (s.channelPoison t k) := h.hset.setTil.logEv

theorem poolEcc {t : Nat} {ws : List QWord} (h : Sound s₀ s) : Sound s₀ (s.poolEcc t ws) := Sound.ite h.bump h

theorem poolRead {t k : Nat} {ws : List QWord} (h : Sound s₀ s) : Sound s₀ (s.poolRead t k ws) := h.poolEcc.each fun _ _ h => h.channelPoison

theorem setQueue {t k c : Nat} {q : List QWord} (h : Sound s₀ s) : Sound s₀ (s.setQueue t k c q) := by
  unfold State.setQueue
  extract_lets _ _ _ _ s1
  have h1 : Sound s₀ s1 := by
    unfold s1
    split
    · exact Sound.ite h h.bump
    · exact h
  exact h1.setSlot

theorem popSlot {t k c : Nat} (h : Sound s₀ s) : Sound s₀ (s.popSlot t k c) := by
  unfold State.popSlot
  split
  · exact h
  · exact h.setQueue.creditWords.poolRead

theorem tagBus {t : Nat} {op : TagOp} {tag cyc : Nat} {tag2 : Option Nat} (h : Sound s₀ s) : Sound s₀ (s.tagBus t op tag cyc tag2) := h.upd

theorem conflict {t g a b cyc : Nat} (h : Sound s₀ s) : Sound s₀ (s.conflict t g a b cyc) := h.tagBus.hset.bump.logEv

theorem trap {t g cyc cause pc addr : Nat} (h : Sound s₀ s) : Sound s₀ (s.trap t g cyc cause pc addr) := h.setGrp.wr.wr.logEvAt.setRing

theorem takeSlot {t g cyc : Nat} (h : Sound s₀ s) : Sound s₀ (s.takeSlot t g cyc) := h.bump.setTil

theorem issueTrap {t g cyc cause addr : Nat} {fetches : Bool} (h : Sound s₀ s) : Sound s₀ (s.issueTrap t g cyc cause addr fetches) :=
  (Sound.ite h.readEcc h).trap.takeSlot

theorem countWait {x : Ctx} {b : Nat} (h : Sound s₀ s) : Sound s₀ (s.countWait x b) := by
  unfold State.countWait
  split
  · exact h
  · exact Sound.ite h h.bump

theorem endWait {t g b : Nat} (h : Sound s₀ s) : Sound s₀ (s.endWait t g b) := by
  unfold State.endWait
  extract_lets count
  split
  · refine .ite ?_ ?_
    · split
      · exact h.countWait.setGrp
      · exact h
    · exact h
  · exact Sound.ite h.countWait.setGrp h
  · exact h

theorem closeWork {t b : Nat} (h : Sound s₀ s) : Sound s₀ (s.closeWork t b) := by
  unfold State.closeWork
  extract_lets _ s1 s2
  have h1 : Sound s₀ s1 := h.each fun _ _ h => h.endWait
  have h2 : Sound s₀ s2 := Sound.ite h h1.bump.setTil
  refine .each ?_ fun _ _ h => ?_
  · exact h2
  · split
    · exact h
    · exact .setSlot (.bump h)

theorem retire {x : Ctx} {occ : Nat} (h : Sound s₀ s) : Sound s₀ (s.retire x occ) := by
  unfold State.retire
  extract_lets s1 s2 s3 _ _ s4 _ s5
  have h1 : Sound s₀ s1 := h.countWait.readEcc.takeSlot
  have h2 : Sound s₀ s2 := by
    unfold s2
    refine .ite ?_ ?_
    · exact h1.bump
    · refine .ite ?_ ?_
      · exact h1
      · refine .each ?_ fun _ _ h => ?_
        · exact h1
        · split
          · exact .popSlot h
          · exact h
  have h3 : Sound s₀ s3 := h2.bump
  have h4 : Sound s₀ s4 := h3.setTil
  have h5 : Sound s₀ s5 := h4.setGrp
  split
  · exact h5.conflict
  · exact h5

theorem issueAs {t g : Nat} {m : Mnem} {body : Ctx → State → State} (h : Sound s₀ s) (hbody : ∀ x s, Sound s₀ s → Sound s₀ (body x s)) :
    Sound s₀ (issueAs t g m body s) := by
  unfold Machine.issueAs
  refine .ite ?_ h
  split
  · exact h.when fun h => h.issueTrap
  · exact h.when fun h => hbody _ _ h
  · exact h

theorem execLane {x : Ctx} {d lat : Nat} {val : Nat → Word} {occ : Nat} (h : Sound s₀ s) : Sound s₀ (execLane x d lat val s occ) := by
  unfold Machine.execLane
  extract_lets s1 _ _ _ s2
  have h1 : Sound s₀ s1 := h.retire
  have h2 : Sound s₀ s2 := by
    unfold s2
    split
    · exact h1.conflict
    · exact h1
  exact h2.setGrp

theorem execPred {x : Ctx} {pd lat : Nat} {val : Nat → Bool} (h : Sound s₀ s) : Sound s₀ (execPred x pd lat val s) := by
  unfold Machine.execPred
  extract_lets s1 _ _ _ s2
  have h1 : Sound s₀ s1 := h.retire
  have h2 : Sound s₀ s2 := by
    unfold s2
    split
    · exact h1.conflict
    · exact h1
  exact h2.setGrp

end Sound

end Sys2Proof.Machine
end

section
/-! SUPPORT. What every effect keeps: the definitions of TileControl. -/

namespace Sys2Proof.Machine

namespace Sound
variable {s₀ s : State}

theorem ctlRetire {x : Ctx} {taken : Bool} {off : BitVec 16} {f : Group → Group} (h : Sound s₀ s) : Sound s₀ (ctlRetire x taken off f s) := by
  unfold Machine.ctlRetire
  extract_lets s1 _ s2
  have h1 : Sound s₀ s1 := h.retire
  have h2 : Sound s₀ s2 := by
    unfold s2
    split
    · exact h1.conflict
    · exact h1
  exact h2.setGrp

theorem ctlBody {x : Ctx} (h : Sound s₀ s) : Sound s₀ (ctlBody x s) := by
  unfold Machine.ctlBody
  split
  · split
    · exact h.ctlRetire
    · exact h.ctlRetire
    · exact h.ctlRetire
    · exact h.ctlRetire
    · exact h.ctlRetire
    · split
      · exact h.ctlRetire
      · exact h
    · split
      · exact h.ctlRetire
      · exact h
    · exact h.ctlRetire
    · exact h
  · exact h

theorem retireEnd {t g : Nat} (h : Sound s₀ s) : Sound s₀ (s.retireEnd t g) := h.setGrp.when fun h => h.setTil

theorem specBody {x : Ctx} (h : Sound s₀ s) : Sound s₀ (specBody x s) := by
  unfold Machine.specBody
  split
  · extract_lets s1 _ _ s2 s3
    have h1 : Sound s₀ s1 := h.retire
    have h2 : Sound s₀ s2 := h1.setGrp
    have h3 : Sound s₀ s3 := h1.setGrp
    split
    · exact h2.keep fun h => h.setTil.tagBus
    · exact h1.setGrp
    · exact h3.keep fun h => h.tagBus
    · exact h3.keep fun h => h.tagBus
  · exact h

end Sound

namespace Does
variable {s₀ s : State}

theorem execNop {t g : Nat} (h : Sound s₀ s) : Does (t < 589824 ∧ g < 8) s₀ (execNop t g s) := .onGroup (h.issueAs fun _ _ h => h.ctlBody)

theorem execBra {t g : Nat} (h : Sound s₀ s) : Does (t < 589824 ∧ g < 8) s₀ (execBra t g s) := .onGroup (h.issueAs fun _ _ h => h.ctlBody)

theorem execBany {t g : Nat} (h : Sound s₀ s) : Does (t < 589824 ∧ g < 8) s₀ (execBany t g s) := .onGroup (h.issueAs fun _ _ h => h.ctlBody)

theorem execBnone {t g : Nat} (h : Sound s₀ s) : Does (t < 589824 ∧ g < 8) s₀ (execBnone t g s) := .onGroup (h.issueAs fun _ _ h => h.ctlBody)

theorem execPushif {t g : Nat} (h : Sound s₀ s) : Does (t < 589824 ∧ g < 8) s₀ (execPushif t g s) := .onGroup (h.issueAs fun _ _ h => h.ctlBody)

theorem execElse {t g : Nat} (h : Sound s₀ s) : Does (t < 589824 ∧ g < 8) s₀ (execElse t g s) := .onGroup (h.issueAs fun _ _ h => h.ctlBody)

theorem execPop {t g : Nat} (h : Sound s₀ s) : Does (t < 589824 ∧ g < 8) s₀ (execPop t g s) := .onGroup (h.issueAs fun _ _ h => h.ctlBody)

theorem execMask {t g : Nat} (h : Sound s₀ s) : Does (t < 589824 ∧ g < 8) s₀ (execMask t g s) := .onGroup (h.issueAs fun _ _ h => h.ctlBody)

theorem execEnd {t g : Nat} (h : Sound s₀ s) : Does (t < 589824 ∧ g < 8) s₀ (execEnd t g s) :=
  .onGroup (h.issueAs fun _ _ h => (h.retire.setGrp.when fun h => h.retireEnd))

theorem execEndOfWork {t g : Nat} (h : Sound s₀ s) : Does (t < 589824 ∧ g < 8) s₀ (execEndOfWork t g s) := .onGroup (Sound.ite h.retireEnd h)

theorem execWatchdog {t g : Nat} (h : Sound s₀ s) : Does (t < 589824 ∧ g < 8) s₀ (execWatchdog t g s) := by
  unfold Machine.execWatchdog
  extract_lets
  exact .onGroup (Sound.ite h.endWait.advanceTo.trap h)

theorem execSpecBegin {t g : Nat} (h : Sound s₀ s) : Does (t < 589824 ∧ g < 8) s₀ (execSpecBegin t g s) :=
  .onGroup (h.issueAs fun _ _ h => h.specBody)

theorem execSpecEnd {t g : Nat} (h : Sound s₀ s) : Does (t < 589824 ∧ g < 8) s₀ (execSpecEnd t g s) := .onGroup (h.issueAs fun _ _ h => h.specBody)

theorem execSpecConfirm {t g : Nat} (h : Sound s₀ s) : Does (t < 589824 ∧ g < 8) s₀ (execSpecConfirm t g s) :=
  .onGroup (h.issueAs fun _ _ h => h.specBody)

theorem execSpecSquash {t g : Nat} (h : Sound s₀ s) : Does (t < 589824 ∧ g < 8) s₀ (execSpecSquash t g s) :=
  .onGroup (h.issueAs fun _ _ h => h.specBody)

end Does

end Sys2Proof.Machine
end

section
/-! SUPPORT. What every effect keeps: the definitions of TileMem. -/

namespace Sys2Proof.Machine

namespace Sound
variable {s₀ s : State}

theorem storeWord {t off : Nat} {mark : Marker} {w : TWord} (h : Sound s₀ s) : Sound s₀ (s.storeWord t off mark w) := by
  unfold State.storeWord
  split
  · exact h.sramPut
  · exact h.setTil
  · exact h

theorem ldBody {x : Ctx} (h : Sound s₀ s) : Sound s₀ (ldBody x s) := by
  unfold Machine.ldBody
  split
  · extract_lets
    refine .ite ?_ ?_
    · exact h.tickFresh.execLane
    · split
      · exact h.issueTrap
      · exact h.readEcc.execLane
  · exact h

theorem noteCode {t cyc : Nat} {offs : List Nat} (h : Sound s₀ s) : Sound s₀ (s.noteCode t cyc offs) := Sound.ite h h.setTil

theorem stBody {x : Ctx} (h : Sound s₀ s) : Sound s₀ (stBody x s) := by
  unfold Machine.stBody
  split
  · extract_lets offs s1 s2 clash s3
    generalize (if x.dead = true then none else s.localFault x.t offs) = fault
    split
    · exact h.issueTrap
    · have h2 : Sound s₀ s2 := h.retire.setGrp
      have h3 : Sound s₀ s3 := h2.when fun h => h.noteCode
      clear_value clash
      refine .ite h2 ?_
      split
      · exact h2.conflict
      · exact h3.each fun _ _ h => h.storeWord
  · exact h

theorem noteLate {t g late : Nat} (h : Sound s₀ s) : Sound s₀ (s.noteLate t g late) := Sound.ite h (h.bump.keep fun h => h.setTil.logEv)

theorem rldBody {x : Ctx} (h : Sound s₀ s) : Sound s₀ (rldBody x s) := by
  unfold Machine.rldBody
  split
  · extract_lets addr own addrs offs fresh s0 occ r s1 s2 miss remote hit cached have_ value s3 s4 data point late s5 s6 s7 id s8 tt src s9 g s10
    generalize (if x.dead = true then none else s.rldFault x.t addrs offs) = fault
    split
    · exact h.issueTrap
    · refine .ite h.tickFresh.retire.setGrp ?_
      have h1 : Sound s₀ s1 := h.readEcc.retire
      have h2 : Sound s₀ s2 := by
        dsimp only [s2]
        split
        · exact h1.conflict
        · exact h1
      have h4 : Sound s₀ s4 := .when h2.bump fun h => h.bump
      have h7 : Sound s₀ s7 := h4.setTil
      have h8 : Sound s₀ s8 := h7.takeNumber
      have h10 : Sound s₀ s10 := h8.setTil.setGrp
      exact .ite h4.noteLate.setTil.setGrp (h10.each fun _ _ h => h.inject)
  · exact h

theorem rstBody {x : Ctx} (h : Sound s₀ s) : Sound s₀ (rstBody x s) := by
  unfold Machine.rstBody
  split
  · extract_lets _ _ s1 s2
    have h1 : Sound s₀ s1 := h.retire
    have h2 : Sound s₀ s2 := h1.setGrp
    split
    · exact h.issueTrap
    · exact h2.keep fun h => (h.each fun _ _ h => h.setTil.setGrp.inject)
  · exact h

theorem freeTag {t k : Nat} (h : Sound s₀ s) : Sound s₀ (s.freeTag t k) := h.setTil

theorem finishLoad {t : Nat} {l : Load} {c : Nat} (h : Sound s₀ s) : Sound s₀ (s.finishLoad t l c) := (Sound.ite h.setGrp h).setTil

theorem staleDiscard {t pkt : Nat} (h : Sound s₀ s) : Sound s₀ (s.staleDiscard t pkt) := h.dropPkt.bump

theorem stall {t : Nat} (h : Sound s₀ s) : Sound s₀ (s.stall t) := h.bump

theorem answerLoad {t id : Nat} {f : Load → Load} (h : Sound s₀ s) : Sound s₀ (s.answerLoad t id f) := h.setTil

theorem failLoad {p : Packet} {cause : Nat} (h : Sound s₀ s) : Sound s₀ (s.failLoad p cause) := by
  unfold State.failLoad
  split
  · exact (Sound.ite h.freeTag h).staleDiscard
  · exact Sound.ite (h.freeTag.dropPkt.answerLoad.keep fun h => h.bump) h.freeTag.dropPkt.answerLoad.trap

theorem refuseAccess {at_ : Nat} {p : Packet} {place since : Nat} (h : Sound s₀ s) : Sound s₀ (s.refuseAccess at_ p place since) :=
  Sound.ite h.dropPkt.respond (h.dropPkt.when fun h => h.respond)

theorem ackStore {at_ : Nat} {p : Packet} {since : Nat} (h : Sound s₀ s) : Sound s₀ (s.ackStore at_ p since) := h.respond

theorem windowEcc {t off : Nat} (h : Sound s₀ s) : Sound s₀ (s.windowEcc t off) := Sound.ite h.readEcc h

theorem windowWrite {t off : Nat} {w : Word} (h : Sound s₀ s) : Sound s₀ (s.windowWrite t off w) := Sound.ite h h.sramPut

theorem landWord {t c off : Nat} {mark : Marker} {w : TWord} (h : Sound s₀ s) : ∀ u ∈ s.landWord t c off mark w, Sound s₀ u := by
  unfold State.landWord
  intro u hu
  split at hu
  · exact Option.some.inj hu ▸ h.sramPut
  · exact Option.some.inj hu ▸ h
  · split at hu
    · exact Option.some.inj hu ▸ h.conflict
    · split at hu
      · exact Option.some.inj hu ▸ h.setTil
      · nomatch hu

theorem landWords {t c off : Nat} {mark : Marker} {ws : List TWord} (h : Sound s₀ s) : Sound s₀ (s.landWords t c off mark ws).1 := by
  induction ws generalizing off s with
  | nil => exact h
  | cons w ws ih =>
    unfold State.landWords
    split
    · exact h
    · next u hu => exact ih (landWord h _ hu)

theorem performStore {t c : Nat} {p : Packet} (h : Sound s₀ s) : Sound s₀ (s.performStore t c p) := by
  unfold State.performStore
  extract_lets
  split
  · exact h.ackStore
  · exact (h.each fun _ _ h => h.sramPut).ackStore
  · exact .ite (h.each fun _ _ h => .getD (landWord h) h).ackStore h.refuseAccess

theorem performLoad {t c : Nat} {p : Packet} (h : Sound s₀ s) : Sound s₀ (s.performLoad t c p) := h.readEcc.respond

theorem performWindow {t c : Nat} {p : Packet} (h : Sound s₀ s) : Sound s₀ (s.performWindow t c p) := by
  unfold State.performWindow
  extract_lets answer
  split
  · exact h.windowEcc.respond
  · exact Sound.ite h.windowWrite.respond h.refuse.respond

theorem performLanding {t c k slot addr : Nat} {ws : List TWord} {tail : Bool} {mark : Marker} (h :
    Sound s₀ s) : Sound s₀ (s.performLanding t c k slot addr ws tail mark) :=
  Sound.ite (h.landWords.setQueue.creditWords.poolEcc.setTil.when fun h => h.setSlot) h.landWords.setQueue.creditWords.poolEcc.setTil

theorem serve {t c k : Nat} {r : SvcReq} (h : Sound s₀ s) : Sound s₀ (s.serve t c k r) := by
  unfold State.serve
  extract_lets _ s1 _ s2
  have h1 : Sound s₀ s1 := h.setTil
  have h2 : Sound s₀ s2 := h1.setTil
  split
  · exact h2.performStore
  · exact h2.performLoad
  · exact h2.performWindow
  · exact .getD (landWord h2) h1
  · exact h1.performLanding

theorem postBuoy {t : Nat} {m : BuoyMsg} {far : Option Nat} (h : Sound s₀ s) : Sound s₀ (s.postBuoy t m far) := by
  unfold State.postBuoy
  extract_lets _ s1
  have h1 : Sound s₀ s1 := by
    unfold s1
    split
    · exact h.inject
    · exact h
  exact h1.inject

theorem releaseHeld {t g : Nat} (h : Sound s₀ s) : Sound s₀ (s.releaseHeld t g) := by
  unfold State.releaseHeld
  extract_lets _ _ s1
  have h1 : Sound s₀ s1 := h.setTil
  refine .each ?_ fun _ _ h => ?_
  · exact h1
  · split
    · exact .postBuoy h
    · split
      · exact .setPkt h
      · exact h

theorem answer {req : Requester} {status : Nat} {w : Word} (h : Sound s₀ s) : Sound s₀ (s.answer req status w) := h.upd

theorem queueWindow {req : Requester} {t off : Nat} {write : Option Word} (h : Sound s₀ s) : Sound s₀ (s.queueWindow req t off write) :=
  Sound.ite h.addPkt h.setTil

end Sound

namespace Does
variable {s₀ s : State}

theorem execLd {t g : Nat} (h : Sound s₀ s) : Does (t < 589824 ∧ g < 8) s₀ (execLd t g s) := .onGroup (h.issueAs fun _ _ h => h.ldBody)

theorem execSt {t g : Nat} (h : Sound s₀ s) : Does (t < 589824 ∧ g < 8) s₀ (execSt t g s) := .onGroup (h.issueAs fun _ _ h => h.stBody)

theorem execRld {t g : Nat} (h : Sound s₀ s) : Does (t < 589824 ∧ g < 8) s₀ (execRld t g s) := .onGroup (h.issueAs fun _ _ h => h.rldBody)

theorem execRldu {t g : Nat} (h : Sound s₀ s) : Does (t < 589824 ∧ g < 8) s₀ (execRldu t g s) := .onGroup (h.issueAs fun _ _ h => h.rldBody)

theorem execRst {t g : Nat} (h : Sound s₀ s) : Does (t < 589824 ∧ g < 8) s₀ (execRst t g s) := .onGroup (h.issueAs fun _ _ h => h.rstBody)

theorem execRdata {id : Nat} (h : Sound s₀ s) : Does True s₀ (execRdata id s) := by
  unfold Machine.execRdata
  split
  · exact .next h
  · refine .ite ?_ ?_
    · exact .next h.failLoad
    · split
      · exact .next h.failLoad
      · extract_lets _ _ _ _ s1 s2 _ _ _ _ _ s3
        have h1 : Sound s₀ s1 := h.freeTag.dropPkt
        have h2 : Sound s₀ s2 := h1.answerLoad
        have h3 : Sound s₀ s3 := h1.setTil.answerLoad
        exact .ite (.next (h2.keep fun h => h.bump)) (.ite (.next h3.finishLoad) (.next h3))

theorem execReleasePoint {t load : Nat} (h : Sound s₀ s) : Does (t < 589824) s₀ (execReleasePoint t load s) := by
  unfold Machine.execReleasePoint
  refine .onTile ?_
  split
  · exact h
  · exact Sound.ite h h.finishLoad.noteLate

theorem execRfail {id : Nat} (h : Sound s₀ s) : Does True s₀ (execRfail id s) := by
  unfold Machine.execRfail
  split
  · exact .next h
  · exact .next h.failLoad

theorem execRpoison {id : Nat} (h : Sound s₀ s) : Does True s₀ (execRpoison id s) := by
  unfold Machine.execRpoison
  split
  · exact .next h
  · exact .next h.failLoad

theorem execRload {id : Nat} (h : Sound s₀ s) : Does True s₀ (execRload id s) := by
  unfold Machine.execRload
  split
  · exact .next h
  · exact .ite (.next h) (.ite (.next h.dropPkt) (.ite (.next h.stall) (.ite (.next h.refuseAccess) (.next h.dropPkt.setTil))))

theorem execRstore {id : Nat} (h : Sound s₀ s) : Does True s₀ (execRstore id s) := by
  unfold Machine.execRstore
  split
  · exact .next h
  · exact .ite (.next h) (.ite (.next h.dropPkt) (.ite (.next h.refuseAccess) (.ite (.next h.dropPkt.ackStore) (.next h.dropPkt.setTil))))

theorem execServicePortAccess {t : Nat} (h : Sound s₀ s) : Does (t < 589824) s₀ (execServicePortAccess t s) := by
  unfold Machine.execServicePortAccess
  refine .onTile ?_
  split
  · exact h
  · exact Sound.ite h h.serve

theorem execAck {id : Nat} (h : Sound s₀ s) : Does True s₀ (execAck id s) := by
  unfold Machine.execAck
  split
  · exact .next h
  · extract_lets _ s1 s2
    have h1 : Sound s₀ s1 := h.dropPkt
    have h2 : Sound s₀ s2 := h1.setGrp
    exact .next h2.releaseHeld

theorem execNack {id : Nat} (h : Sound s₀ s) : Does True s₀ (execNack id s) := by
  unfold Machine.execNack
  split
  · exact .next h
  · extract_lets s1
    have h1 : Sound s₀ s1 := h.dropPkt
    exact .ite (.next h1.trap) (.next h1)

theorem execKaccess {req : Requester} {t : Nat} {access : SizedAccess} {write : Option Word} (h :
    Sound s₀ s) : Does True s₀ (execKaccess req t access write s) := by
  unfold Machine.execKaccess
  extract_lets
  refine .next ?_
  refine .ite ?_ ?_
  · exact h.refuse.answer
  · refine .ite ?_ ?_
    · exact Sound.ite h.answer h.windowEcc.answer
    · split
      · exact h.addPkt
      · exact Sound.ite h.stall h.dropPkt.setTil

theorem execKresp {id : Nat} (h : Sound s₀ s) : Does True s₀ (execKresp id s) := by
  unfold Machine.execKresp
  split
  · exact .next h
  · exact .next h.dropPkt.answer

end Does

end Sys2Proof.Machine
end

section
/-! SUPPORT. What every effect keeps: the definitions of TileSend. -/

namespace Sys2Proof.Machine

namespace Sound
variable {s₀ s : State}

theorem spendCredit {t k c n : Nat} (h : Sound s₀ s) : Sound s₀ (s.spendCredit t k c n) := h.setSlot

theorem bufferItem {t k g c addr : Nat} {mark : Marker} {ws : List TWord} {since : Nat} {token : Option (Nat × Nat)} (h :
    Sound s₀ s) : Sound s₀ (s.bufferItem t k g c addr mark ws since token) :=
  h.spendCredit.inject.setSlot

theorem sendItem {x : Ctx} {slot : Nat} {r : Bool} {addr : Nat} {mark : Marker} {ws : List TWord} (h :
    Sound s₀ s) : Sound s₀ (s.sendItem x slot r addr mark ws) :=
  h.bufferItem.setGrp.when fun h => h.setTil

theorem sendBody {x : Ctx} (h : Sound s₀ s) : Sound s₀ (sendBody x s) := by
  unfold Machine.sendBody
  split
  · exact h.retire.setGrp.keep fun h => h.sendItem
  · exact h

theorem sendmBody {x : Ctx} (h : Sound s₀ s) : Sound s₀ (sendmBody x s) := by
  unfold Machine.sendmBody
  split
  · extract_lets _ _ _ _ s1 s2
    have h1 : Sound s₀ s1 := (Sound.ite h h.readEcc).retire
    have h2 : Sound s₀ s2 := h1.setGrp
    split
    · exact h.issueTrap
    · refine .ite ?_ ?_
      · exact h2
      · split
        · exact h2.conflict
        · exact h2.keep fun h => h.sendItem
  · exact h

theorem releaseBuoy {t : Nat} {m : BuoyMsg} {far : Option Nat} (h : Sound s₀ s) : Sound s₀ (s.releaseBuoy t m far) := Sound.ite h.postBuoy h.setTil

theorem postBody {x : Ctx} (h : Sound s₀ s) : Sound s₀ (postBody x s) := by
  unfold Machine.postBody
  extract_lets _ s1 s2 _ s3
  have h1 : Sound s₀ s1 := h.retire
  have h2 : Sound s₀ s2 := h1.setGrp
  have h3 : Sound s₀ s3 := h2.setGrp
  split
  · exact Sound.ite h1.setGrp h.issueTrap
  · refine .ite ?_ ?_
    · exact h2
    · split
      · split
        · exact h3.setTil
        · exact h3
      · exact h3.releaseBuoy

theorem awaitBody {x : Ctx} (h : Sound s₀ s) : Sound s₀ (awaitBody x s) := Sound.ite h.issueTrap h.retire.setGrp

end Sound

namespace Does
variable {s₀ s : State}

theorem execSendw {t g : Nat} (h : Sound s₀ s) : Does (t < 589824 ∧ g < 8) s₀ (execSendw t g s) := .onGroup (h.issueAs fun _ _ h => h.sendBody)

theorem execSendv {t g : Nat} (h : Sound s₀ s) : Does (t < 589824 ∧ g < 8) s₀ (execSendv t g s) := .onGroup (h.issueAs fun _ _ h => h.sendBody)

theorem execSendm {t g : Nat} (h : Sound s₀ s) : Does (t < 589824 ∧ g < 8) s₀ (execSendm t g s) := .onGroup (h.issueAs fun _ _ h => h.sendmBody)

theorem execBadd {t g : Nat} (h : Sound s₀ s) : Does (t < 589824 ∧ g < 8) s₀ (execBadd t g s) := .onGroup (h.issueAs fun _ _ h => h.postBody)

theorem execBarrive {t g : Nat} (h : Sound s₀ s) : Does (t < 589824 ∧ g < 8) s₀ (execBarrive t g s) := .onGroup (h.issueAs fun _ _ h => h.postBody)

theorem execBset {t g : Nat} (h : Sound s₀ s) : Does (t < 589824 ∧ g < 8) s₀ (execBset t g s) := .onGroup (h.issueAs fun _ _ h => h.postBody)

theorem execBclear {t g : Nat} (h : Sound s₀ s) : Does (t < 589824 ∧ g < 8) s₀ (execBclear t g s) := .onGroup (h.issueAs fun _ _ h => h.postBody)

theorem execBawaitge {t g : Nat} (h : Sound s₀ s) : Does (t < 589824 ∧ g < 8) s₀ (execBawaitge t g s) := .onGroup (h.issueAs fun _ _ h => h.awaitBody)

theorem execBawaitflag {t g : Nat} (h : Sound s₀ s) : Does (t < 589824 ∧ g < 8) s₀ (execBawaitflag t g s) :=
  .onGroup (h.issueAs fun _ _ h => h.awaitBody)

theorem execWatchRelease {t g : Nat} (h : Sound s₀ s) : Does (t < 589824 ∧ g < 8) s₀ (execWatchRelease t g s) := by
  unfold Machine.execWatchRelease
  refine .onGroup ?_
  split
  · exact h
  · extract_lets
    refine .ite ?_ ?_
    · exact h
    · split
      · exact h
      · exact Sound.ite h.setGrp h.setGrp.postBuoy

end Does

end Sys2Proof.Machine
end

section
/-! SUPPORT. What every effect keeps: the definitions of Mesh. -/

namespace Sys2Proof.Machine

namespace Sound
variable {s₀ s : State}

theorem dropArms {f : Nat} (h : Sound s₀ s) : Sound s₀ (s.dropArms f) := (h.each fun _ _ h => h.sf).keep fun h => h.setFld

theorem oldHeads {f : Nat} {p : Packet} {gone come : Nat} (h : Sound s₀ s) : Sound s₀ (s.oldHeads f p gone come) :=
  Sound.ite h (h.each fun _ _ h => (h.sf.when fun h => h.sf))

theorem routerCompletion {at_ : Nat} {p : Packet} (h : Sound s₀ s) : Sound s₀ (s.routerCompletion at_ p) := Sound.ite h.refuseAccess h

theorem misroute {at_ : Nat} {d : Dir} {p : Packet} (h : Sound s₀ s) : Sound s₀ (s.misroute at_ d p) :=
  ((h.bump.hset.logEv.when fun h => h.setFld.logEv).when fun h => h.bump).routerCompletion

theorem boundaryDrop {t port : Nat} {p : Packet} (h : Sound s₀ s) : Sound s₀ (s.boundaryDrop t port p) := h.bump.hset.logEv.routerCompletion

theorem leaveBy {p : Packet} {d : Dir} {didx : Nat} {link : LinkState} (h : Sound s₀ s) : Sound s₀ (s.leaveBy p d didx link) := by
  unfold State.leaveBy
  extract_lets _ s1 s2
  have h1 : Sound s₀ s1 := h.bump
  have h2 : Sound s₀ s2 := h1.oldHeads
  split
  · exact h2.addPkt
  · extract_lets _ s3 s4 lost enter poison
    have h3 : Sound s₀ s3 := h1.keep fun h => h.tickFresh
    have h4 : Sound s₀ s4 := h3.keep fun h => h.oldHeads
    split
    · exact (Sound.ite h4.bump.hset.oldHeads h4.bump.hset).logEv
    · exact Sound.ite (Sound.ite h4.bump.boundaryDrop.oldHeads h4.bump.boundaryDrop) (Sound.ite h4.bump h4.bump.oldHeads).addPkt
    · exact Sound.ite (Sound.ite h4.bump.hset.oldHeads h4.bump.hset) (Sound.ite
          (Sound.ite h4.bump.hset.boundaryDrop.oldHeads h4.bump.hset.boundaryDrop) (Sound.ite h4.bump.hset h4.bump.hset.oldHeads).addPkt)
    · exact Sound.ite (Sound.ite h4.boundaryDrop.oldHeads h4.boundaryDrop) (h4.keep fun h => h.oldHeads).addPkt

theorem leaveBuffer {p : Packet} (h : Sound s₀ s) : Sound s₀ (s.leaveBuffer p) := by
  unfold State.leaveBuffer
  extract_lets _ _ _ _ _ _ s1 s2 s3
  have h1 : Sound s₀ s1 := h.setSlot
  have h2 : Sound s₀ s2 := by
    unfold s2
    split
    · exact h1.setPkt
    · exact h1
  have h3 : Sound s₀ s3 := h2.bump.bump
  exact h3.keep fun h => h.setGrp

theorem routeHead {p : Packet} {link : LinkState} (h : Sound s₀ s) : Sound s₀ (s.routeHead p link) := by
  unfold State.routeHead
  split
  · exact h.dropPkt.oldHeads.misroute
  · exact Sound.ite h.dropPkt.oldHeads.misroute h.dropPkt.leaveBy
  · exact h.dropPkt.oldHeads.each fun _ _ h => (Sound.ite h.oldHeads.misroute h.leaveBy)

theorem takeOutputs {p : Packet} (h : Sound s₀ s) : Sound s₀ (s.takeOutputs p) := h.each fun _ _ h => (Sound.ite h.upd (Sound.ite h h.upd))

end Sound

namespace Does
variable {s₀ s : State}

theorem execPacketHop {id : Nat} {link : LinkState} (h : Sound s₀ s) : Does True s₀ (execPacketHop id link s) := by
  unfold Machine.execPacketHop
  split
  · exact .next h
  · refine .ite ?_ ?_
    · exact .next h
    · split
      · exact .next h
      · exact .next (Sound.ite (Sound.ite h.dropPkt.oldHeads.boundaryDrop h.stall) (Sound.ite h.takeOutputs.routeHead h.stall))
      · refine .ite ?_ ?_
        · exact .next h
        · extract_lets
          exact .next (Sound.ite h.leaveBuffer.takeOutputs.routeHead h)

theorem execCredit {id : Nat} (h : Sound s₀ s) : Does True s₀ (execCredit id s) := by
  unfold Machine.execCredit
  split
  · exact .next h
  · refine .ite ?_ ?_
    · exact .next h
    · extract_lets s1
      have h1 : Sound s₀ s1 := h.dropPkt
      exact .ite (.next h1) (.next h1.setSlot)

theorem execLightListWrite {req : Requester} {t k : Nat} {value : BitVec 64} (h :
    Sound s₀ s) : Does (t < 589824) s₀ (execLightListWrite req t k value s) :=
  .onTile (Sound.ite h (Sound.ite h.wr.wr (Sound.ite h.wr h.refuse)))

theorem execEpochArm {req : Requester} {f watchLow : Nat} (h : Sound s₀ s) : Does (f < 64) s₀ (execEpochArm req f watchLow s) :=
  .onField (Sound.ite h.refuse (h.each fun _ _ h => h.sf.sf.setFld))

end Does

end Sys2Proof.Machine
end

section
/-! SUPPORT. What every effect keeps: the definitions of Channels. -/

namespace Sys2Proof.Machine

namespace Sound
variable {s₀ s : State}

theorem withhold {t : Nat} (h : Sound s₀ s) : Sound s₀ (s.withhold t) := h.setTil

theorem slipOnce {t a b : Nat} (h : Sound s₀ s) : Sound s₀ (s.slipOnce t a b) := Sound.ite h h.setTil.logEv

theorem collide {t k : Nat} (h : Sound s₀ s) : Sound s₀ (s.collide t k) := h.bump.hset.when fun h => h.slipOnce

theorem takeWords {p : Packet} {n : Nat} (h : Sound s₀ s) : Sound s₀ (s.takeWords p n) := Sound.ite h.dropPkt h.setPkt

theorem notePush {t k c : Nat} (h : Sound s₀ s) : Sound s₀ (s.notePush t k c) := h.setSlot

theorem dropWords {p : Packet} {n : Nat} {credit : Bool} (h : Sound s₀ s) : Sound s₀ (s.dropWords p n credit) :=
  h.takeWords.bump.notePush.when fun h => h.returnCredit

theorem setPartial {t k : Nat} {tail : Bool} (h : Sound s₀ s) : Sound s₀ (s.setPartial t k tail) := h.setSlot

theorem pushQueue {t k c : Nat} {qs : List QWord} (h : Sound s₀ s) : Sound s₀ (s.pushQueue t k c qs) := h.each fun _ _ h => h.setQueue.notePush

theorem pushWords {p : Packet} {n : Nat} {mark : Marker} (h : Sound s₀ s) : Sound s₀ (s.pushWords p n mark) :=
  (h.takeWords.pushQueue.setSlot.bump.when fun h => h.bump).when fun h => h.setTil

theorem loopIdle {t r : Nat} (h : Sound s₀ s) : Sound s₀ (s.loopIdle t r) := Sound.ite h.setRule h

theorem itemLost {t k : Nat} {token : Option (Nat × Nat)} (h : Sound s₀ s) : Sound s₀ (s.itemLost t k token) := by
  unfold State.itemLost
  extract_lets s1
  have h1 : Sound s₀ s1 := by
    unfold s1
    split
    · exact h.loopIdle
    · exact h
  split
  · exact h1.loopIdle
  · exact h1

theorem landingBuoy {t k : Nat} {mark : Marker} (h : Sound s₀ s) : ∀ u ∈ s.landingBuoy t k mark, Sound s₀ u := by
  unfold State.landingBuoy
  extract_lets i m
  intro u hu
  split at hu
  · exact Option.some.inj hu ▸ h
  · exact Option.some.inj hu ▸ h.postBuoy
  · obtain ⟨l, -, rfl⟩ := Option.map_eq_some_iff.1 hu
    exact h.setTil

theorem dropLandings {t k : Nat} (h : Sound s₀ s) : Sound s₀ (s.dropLandings t k) := h.setTil

theorem flushIn {t k : Nat} (h : Sound s₀ s) : Sound s₀ (s.flushIn t k) := h.setQueue.discardWords.dropLandings.bump.when fun h => h.setPartial.hset

theorem dropBuffered {t k c : Nat} {ids : List Nat} {written : Option Nat} (h : Sound s₀ s) : Sound s₀ (s.dropBuffered t k c ids written) := by
  unfold State.dropBuffered
  refine .each ?_ fun _ _ h => ?_
  · exact h
  · split
    · exact h
    · extract_lets _ _ s1 _ s2 s3 _ s4
      have h1 : Sound s₀ s1 := by
        unfold s1
        exact .dropPkt h
      have h2 : Sound s₀ s2 := h1.setSlot
      have h3 : Sound s₀ s3 := h2.bump
      have h4 : Sound s₀ s4 := h3.setTil
      exact h4.keep fun h => h.setGrp

theorem flushOut {t k : Nat} (h : Sound s₀ s) : Sound s₀ (s.flushOut t k) := h.dropBuffered.bump

theorem flushSlot {t k : Nat} (h : Sound s₀ s) : Sound s₀ (s.flushSlot t k) := Sound.ite h.flushIn h.flushOut

theorem flushTile {t : Nat} (h : Sound s₀ s) : Sound s₀ (s.flushTile t) := h.each fun _ _ h => h.flushSlot

theorem intakeSlots {t : Nat} {whole : Bool} (h : Sound s₀ s) : Sound s₀ (s.intakeSlots t whole) := by
  unfold State.intakeSlots
  extract_lets _ s1 s2 s3 s4
  have h1 : Sound s₀ s1 := h.each fun _ _ h => h.bump.bump.hset
  have h2 : Sound s₀ s2 := by
    unfold s2
    split
    · exact h1.when fun h => h.logEv
    · exact h1
  have h3 : Sound s₀ s3 := by
    unfold s3
    refine .each ?_ fun _ _ h => ?_
    · exact h2
    · extract_lets s5
      have h5 : Sound s₀ s5 := by
        unfold s5
        exact .ite h (.bump h)
      refine .each ?_ fun _ _ h => ?_
      · exact h5
      · split
        · exact .bump (.dropPkt h)
        · exact h
  have h4 : Sound s₀ s4 := h3.each fun _ _ h => (Sound.ite h h.setSlot)
  exact h4.each fun _ _ h => (Sound.ite h.setSlot (Sound.ite h h.setSlot))

end Sound

namespace Does
variable {s₀ s : State}

theorem execItem {id flits : Nat} (h : Sound s₀ s) : Does True s₀ (execItem id flits s) := by
  unfold Machine.execItem
  split
  · exact .next h
  · extract_lets _ _ _ _ _ _ _ _ s1 s2 s3 s4
    have h1 : Sound s₀ s1 := Sound.ite h.collide h
    have h2 : Sound s₀ s2 := h1.dropWords.setPartial
    have h3 : Sound s₀ s3 := h1.dropWords.setPartial.hset
    have h4 : Sound s₀ s4 := h1.dropWords.setPartial.hset
    refine .ite ?_ ?_
    · exact .next h
    · refine .ite ?_ ?_
      · exact .next h.dropWords
      · refine .ite ?_ ?_
        · exact .next h.dropWords
        · refine .ite ?_ ?_
          · exact .next h
          · refine .ite ?_ ?_
            · exact .next h
            · refine .ite ?_ ?_
              · exact .next h1.dropWords.setPartial
              · refine .ite ?_ ?_
                · exact .next (h2.when fun h => h.itemLost)
                · exact .ite (.next h3.logEv.withhold) (.ite (.next h4.logEv.withhold) (.next h1.pushWords))

theorem execLandingCompletion {t slot : Nat} (h : Sound s₀ s) : Does (t < 589824) s₀ (execLandingCompletion t slot s) := by
  unfold Machine.execLandingCompletion
  refine .onTile ?_
  split
  · exact h
  · exact .ite (.getD (Sound.landingBuoy h.setSlot) h) h.setSlot.setTil

end Does

end Sys2Proof.Machine
end

section
/-! SUPPORT. What every effect keeps: the definitions of Buoys. -/

namespace Sys2Proof.Machine

namespace Sound
variable {s₀ s : State}

theorem putCount {b i : Nat} {r : Nat × Bool} (h : Sound s₀ s) : Sound s₀ (s.putCount b i r) :=
  h.setBuoy.when fun h => (h.bump.noteSet.hset.keep fun h => h.logEv)

theorem sendReply {m : BuoyMsg} {st : BuoyStatus} (h : Sound s₀ s) : Sound s₀ (s.sendReply m st) := h.setBlk.addPkt

theorem reply {b input : Nat} {m : BuoyMsg} {st : BuoyStatus} (h : Sound s₀ s) : Sound s₀ (s.reply b input m st) :=
  Sound.ite (Sound.ite h.bump h).upd (Sound.ite h.bump h).sendReply

theorem refuseBuoy {b : Nat} {m : BuoyMsg} (h : Sound s₀ s) : Sound s₀ (s.refuseBuoy b m) := h.bump.hset.logEv

theorem answerAll {b : Nat} {l : List (Nat × BuoyMsg × BuoyStatus)} (h : Sound s₀ s) : Sound s₀ (s.answerAll b l) := h.each fun _ _ h => h.reply

theorem unreachable {b : Nat} {m : BuoyMsg} (h : Sound s₀ s) : Sound s₀ (s.unreachable b m) := h.logEv

theorem findBroken {b i : Nat} (h : Sound s₀ s) : Sound s₀ (s.findBroken b i) := Sound.ite h.setBuoy.logEv h

theorem evalWatches {b : Nat} {changed : List Nat} {met : List BuoyMsg} {acks : List (Nat × BuoyMsg × BuoyStatus)} (h :
    Sound s₀ s) : Sound s₀ (s.evalWatches b changed met acks) :=
  h.setBlk.answerAll

theorem trunkReply {m : BuoyMsg} {st : BuoyStatus} {dst : Nat} (h : Sound s₀ s) : Sound s₀ (s.trunkReply m st dst) :=
  Sound.ite h.sendReply (Sound.ite h.setBlk.sendReply h)

theorem keeperOp {req : Requester} {b i op : Nat} (h : Sound s₀ s) : Sound s₀ (s.keeperOp req b i op) :=
  Sound.ite h.refuse ((h.setBlk.findBroken.putCount.bump.keep fun h => h.setBuoy).keep fun h => h.evalWatches)

theorem intakeBlock {b : Nat} (h : Sound s₀ s) : Sound s₀ (s.intakeBlock b) := h.setBlk.upd.each fun _ _ h => h.setBuoy

end Sound

namespace Does
variable {s₀ s : State}

theorem execBuoyOp {id : Nat} (h : Sound s₀ s) : Does True s₀ (execBuoyOp id s) := by
  unfold Machine.execBuoyOp
  split
  · exact .next h
  · extract_lets _ _ s1
    have h1 : Sound s₀ s1 := h.dropPkt
    split
    · extract_lets s2
      have h2 : Sound s₀ s2 := h1.setBlk
      exact .next (h2.each fun _ _ h => h.refuseBuoy.reply)
    · exact .next h1
    · extract_lets _ _ s2
      have h2 : Sound s₀ s2 := h1.setBlk
      exact .ite (.next h1.setBlk) (.next h2.upd)

theorem execBuoyApply {b : Nat} (h : Sound s₀ s) : Does (b < 65) s₀ (execBuoyApply b s) :=
  .onUnit (Sound.ite h ((((h.advanceTo.setBlk.each fun _ _ h => h.bump.hset).each fun _ _ h => h.findBroken.refuseBuoy).each fun _ _ h =>
    h.putCount).bump.bump.evalWatches.each fun _ _ h => (Sound.ite h.setBlk.bump h.setBlk.bump.hset)))

theorem execBuoyNotice {id : Nat} (h : Sound s₀ s) : Does True s₀ (execBuoyNotice id s) := by
  unfold Machine.execBuoyNotice
  split
  · exact .next h
  · extract_lets _ s1
    have h1 : Sound s₀ s1 := h.dropPkt.advanceTo
    exact .ite (.next h1) (.ite (.next h1.setGrp) (.next h1.setGrp.withhold))

theorem execBuoyAck {id : Nat} (h : Sound s₀ s) : Does True s₀ (execBuoyAck id s) := by
  unfold Machine.execBuoyAck
  split
  · exact .next h
  · extract_lets _ s1 _ _ s2
    have h1 : Sound s₀ s1 := h.dropPkt.advanceTo
    have h2 : Sound s₀ s2 := h1.keep fun h => h.setGrp
    exact .ite (.next h1) (.ite (.next h2.withhold) (.next h2))

theorem execBuoyTrunkPacket (h : Sound s₀ s) : Does True s₀ (execBuoyTrunkPacket s) := by
  unfold Machine.execBuoyTrunkPacket
  split
  · exact .next h
  · extract_lets s1 s2
    have h1 : Sound s₀ s1 := h.upd
    have h2 : Sound s₀ s2 := h1.unreachable
    exact .ite (.next h2.upd) (.next h1.setBlk)
  · extract_lets s1
    have h1 : Sound s₀ s1 := h.upd
    exact .next h1.trunkReply

theorem execBuoyUnreachable {b : Nat} (h : Sound s₀ s) : Does (b < 64) s₀ (execBuoyUnreachable b s) := by
  unfold Machine.execBuoyUnreachable
  refine .onField ?_
  split
  · exact h
  · exact h.advanceTo.setBlk.unreachable.sendReply

theorem execBuyKopAdd {req : Requester} {block index : Nat} (h : Sound s₀ s) : Does (block < 65) s₀ (execBuyKopAdd req block index s) :=
  .onUnit h.keeperOp

theorem execBuyKopSet {req : Requester} {block index : Nat} (h : Sound s₀ s) : Does (block < 65) s₀ (execBuyKopSet req block index s) :=
  .onUnit h.keeperOp

theorem execBuyKopClear {req : Requester} {block index : Nat} (h : Sound s₀ s) : Does (block < 65) s₀ (execBuyKopClear req block index s) :=
  .onUnit h.keeperOp

theorem execControlSpaceRead {id : Nat} (h : Sound s₀ s) : Does True s₀ (execControlSpaceRead id s) := by
  unfold Machine.execControlSpaceRead
  split
  · exact .next h
  · extract_lets
    exact .ite (.next h) (.ite (.next h.stall) (.ite (.next h.dropPkt.respond) (.next h.refuseAccess)))

end Does

end Sys2Proof.Machine
end

section
/-! SUPPORT. What every effect keeps: the definitions of Steering. -/

namespace Sys2Proof.Machine

namespace Sound
variable {s₀ s : State}

theorem countStall {t r b : Nat} (h : Sound s₀ s) : Sound s₀ (s.countStall t r b) := by
  unfold State.countStall
  split
  · exact h
  · exact (Sound.ite h h.bump).keep fun h => h.bump

theorem countStalls {t b : Nat} (h : Sound s₀ s) : Sound s₀ (s.countStalls t b) := h.each fun _ _ h => h.countStall

theorem popWords {t k c n : Nat} (h : Sound s₀ s) : Sound s₀ (s.popWords t k c n) := h.each fun _ _ h => h.setQueue.creditWords.poolRead

theorem discardItem {t k r c n : Nat} (h : Sound s₀ s) : Sound s₀ (s.discardItem t k r c n) := h.setQueue.discardWords.poolRead.bump

theorem steerFault {t r bit : Nat} (h : Sound s₀ s) : Sound s₀ (s.steerFault t r bit) := h.hset.logEv.withhold

theorem emitLocal {t k c : Nat} {mark : Marker} {token : Option (Nat × Nat)} {ws : List QWord} (h :
    Sound s₀ s) : Sound s₀ (s.emitLocal t k c mark token ws) :=
  Sound.ite h.bump (Sound.ite h.bump.hset.logEv.withhold (h.pushQueue.bump.bump.when fun h => h.setTil))

theorem emit {t k c last : Nat} {mark : Marker} {token : Option (Nat × Nat)} {ws : List QWord} (h :
    Sound s₀ s) : Sound s₀ (s.emit t k c last mark token ws) :=
  Sound.ite h.emitLocal h.bufferItem

theorem perform {t r c : Nat} {x : Firing} (h : Sound s₀ s) : Sound s₀ (s.perform t r c x) := by
  unfold State.perform
  extract_lets _ _ _ _ _ _ _ _ _ _ _ _ s1 s2 s3 s4 _ s5 s6 s7 s8 _ _ _ s9
  have h1 : Sound s₀ s1 := h.countStall
  have h2 : Sound s₀ s2 := h1.when fun h => h.bump
  have h3 : Sound s₀ s3 := by
    unfold s3
    split
    · exact h2.popWords
    · exact h2
  have h4 : Sound s₀ s4 := by
    unfold s4
    split
    · exact h3.conflict
    · exact h3
  have h5 : Sound s₀ s5 := h4.each fun _ _ h => h.emit
  have h6 : Sound s₀ s6 := h5.bump
  have h7 : Sound s₀ s7 := by
    unfold s7
    split
    · exact h4
    · exact Sound.ite h4.discardItem (h6.keep fun h => h.popWords)
  have h8 : Sound s₀ s8 := by
    unfold s8
    split
    · exact h7.steerFault
    · exact h7
  have h9 : Sound s₀ s9 := h8.setTil
  exact h9.setRule

theorem fireRule {t r op : Nat} {order : Option Nat} (h : Sound s₀ s) : Sound s₀ (s.fireRule t r op order) := by
  unfold State.fireRule
  refine .ite ?_ ?_
  · exact h
  · split
    · exact Sound.ite h.perform h
    · exact h

theorem unbump {r : Reg} {unit idx n : Nat} (h : Sound s₀ s) : Sound s₀ (s.unbump r unit idx n) := Sound.ite h h.wr

theorem unpush {t k a : Nat} {m : SteerMove} {done : Nat} (h : Sound s₀ s) : Sound s₀ (s.unpush t k a m done) := h.setQueue.bump.unbump.unbump.setTil

theorem abortMoves {t a : Nat} {back : Bool} (h : Sound s₀ s) : Sound s₀ (s.abortMoves t a back) := by
  unfold State.abortMoves
  extract_lets _ stop s1
  have h1 : Sound s₀ s1 := by
    unfold s1
    simp only [stop]
    split
    · exact h.setRule.hset
    · exact h
  split
  · simp only [stop]
    split
    · exact h.setRule.hset
    · exact h
  · exact h1.keep fun h => (((h.each fun _ _ h => h.unpush).each fun _ _ h => (Sound.ite h.dropBuffered h)).unbump.keep fun h =>
        (Sound.ite h.setQueue h.bump)).setTil.setRule.hset

theorem flushWithAbort {t k : Nat} (h : Sound s₀ s) : Sound s₀ (s.flushWithAbort t k) := h.flushSlot.when fun h => h.abortMoves

theorem haltGroups {t : Nat} (h : Sound s₀ s) : Sound s₀ (s.haltGroups t) := Sound.ite h h.setTil

theorem drainTile {t : Nat} (h : Sound s₀ s) : Sound s₀ (s.drainTile t) :=
  (h.haltGroups.setTil.sf.each fun _ _ h => h.flushOut).each fun _ _ h => (h.setQueue.discardWords.dropLandings.when fun h => h.setPartial)

theorem beginDrain {f sec : Nat} (h : Sound s₀ s) : Sound s₀ (s.beginDrain f sec) := by
  unfold State.beginDrain
  extract_lets _ s1 s2 s3 s4 s5
  have h1 : Sound s₀ s1 := h.each fun _ _ h => (h.each fun _ _ h => h.endWait)
  have h2 : Sound s₀ s2 := h1.setFld
  have h3 : Sound s₀ s3 := h2.sf.sf
  have h4 : Sound s₀ s4 := h3.sf
  have h5 : Sound s₀ s5 := h4.each fun _ _ h => h.drainTile
  refine .ite ?_ ?_
  · exact h
  · refine .ite ?_ ?_
    · refine .each ?_ fun _ _ h => ?_
      · exact h5
      · split
        · exact .setTagSt h
        · exact .setTagSt h
        · exact h
    · exact h5

theorem quiesce {f sec : Nat} (h : Sound s₀ s) : Sound s₀ (s.quiesce f sec) := h.setFld.sf.sf.each fun _ _ h => h.sf

end Sound

namespace Does
variable {s₀ s : State}

theorem execPass {t r : Nat} (h : Sound s₀ s) : Does (t < 589824) s₀ (execPass t r s) := .onTile h.fireRule

theorem execFork {t r : Nat} (h : Sound s₀ s) : Does (t < 589824) s₀ (execFork t r s) := .onTile h.fireRule

theorem execSwitch {t r : Nat} (h : Sound s₀ s) : Does (t < 589824) s₀ (execSwitch t r s) := .onTile h.fireRule

theorem execMergeOrdered {t r : Nat} (h : Sound s₀ s) : Does (t < 589824) s₀ (execMergeOrdered t r s) := .onTile h.fireRule

theorem execMergeArrival {t r : Nat} (h : Sound s₀ s) : Does (t < 589824) s₀ (execMergeArrival t r s) := .onTile h.fireRule

theorem execGate {t r : Nat} (h : Sound s₀ s) : Does (t < 589824) s₀ (execGate t r s) := .onTile h.fireRule

theorem execLoop {t r : Nat} (h : Sound s₀ s) : Does (t < 589824) s₀ (execLoop t r s) := .onTile h.fireRule

theorem execRate {t r : Nat} (h : Sound s₀ s) : Does (t < 589824) s₀ (execRate t r s) := .onTile h.fireRule

theorem execFlush {req : Requester} {t slot : Nat} (h : Sound s₀ s) : Does (t < 589824) s₀ (execFlush req t slot s) :=
  .onTile (Sound.ite h (Sound.ite h.flushWithAbort h.refuse))

end Does

end Sys2Proof.Machine
end

section
/-! SUPPORT. What every effect keeps: the definitions of Speculation. -/

namespace Sys2Proof.Machine

namespace Sound
variable {s₀ s : State}

theorem settleHeld {sec n : Nat} (h : Sound s₀ s) : Sound s₀ (s.settleHeld sec n) := by
  induction n with
  | zero => exact h
  | succ n ih => exact ih.each fun _ _ h => h.when fun h => h.setTagSt

theorem squashTag {sec tag : Nat} (h : Sound s₀ s) : Sound s₀ (s.squashTag sec tag) := by
  unfold State.squashTag
  split
  · exact h
  · exact h
  · exact h.setTagSt
  · exact h.setTagSt.each fun _ _ h => (Sound.ite h.setTagSt h)

theorem confirmTag {sec tag : Nat} (h : Sound s₀ s) : Sound s₀ (s.confirmTag sec tag) := Sound.ite (Sound.ite h.setTagSt h.setTagSt.settleHeld) h

theorem openTag {sec tag : Nat} (h : Sound s₀ s) : Sound s₀ (s.openTag sec tag) := Sound.ite h.setTagSt h

theorem applyTagOps {f : Nat} {ms : List TagMsg} (h : Sound s₀ s) : Sound s₀ (s.applyTagOps f ms) :=
  ((h.each fun _ _ h => (h.each fun _ _ h => h.squashTag).bump).each fun _ _ h => h.confirmTag.bump).each fun _ _ h => h.openTag

theorem applyInOrder {f n : Nat} {ms : List TagMsg} (h : Sound s₀ s) : Sound s₀ (s.applyInOrder f n ms) := by
  induction n generalizing ms s with
  | zero => exact h
  | succ n ih =>
    unfold State.applyInOrder
    split
    · exact h
    · exact ih h.applyTagOps

theorem freeShadow {t k c : Nat} (h : Sound s₀ s) : Sound s₀ (s.freeShadow t k c) := h.setTil

theorem writeBack {t k c : Nat} {l : ShadowLine} (h : Sound s₀ s) : Sound s₀ (s.writeBack t k c l) :=
  ((h.each fun _ _ h => h.sramPutByte).bump.freeShadow.each fun _ _ h => (Sound.ite h h.upd)).when fun h => h.hset.logEv

theorem commitAt {t tag : Nat} (h : Sound s₀ s) : Sound s₀ (s.commitAt t tag) := by
  unfold State.commitAt
  extract_lets _ _ s1 _ s2
  have h1 : Sound s₀ s1 := h.setTil
  have h2 : Sound s₀ s2 := h1.each fun _ _ h => h.writeBack
  refine .each ?_ fun _ _ h => ?_
  · exact h2
  · split
    · exact h
    · extract_lets s3
      have h3 : Sound s₀ s3 := by
        unfold s3
        exact .freeShadow h
      exact Sound.ite h3.postBuoy h3.releaseBuoy

theorem squashQueue {t k tag : Nat} (h : Sound s₀ s) : Sound s₀ (s.squashQueue t k tag) :=
  Sound.ite h ((h.setQueue.discardWords.setTil.when fun h => h.setPartial).each fun _ _ h => h.itemLost)

theorem squashMove {t tag : Nat} (h : Sound s₀ s) : Sound s₀ (s.squashMove t tag) := by
  unfold State.squashMove
  extract_lets
  split
  · exact h
  · exact Sound.ite h (h.abortMoves.itemLost.when fun h => h.loopIdle)

theorem squashAt {t tag : Nat} (h : Sound s₀ s) : Sound s₀ (s.squashAt t tag) := by
  unfold State.squashAt
  extract_lets _ _ _ s1 s2 s3 s4
  have h1 : Sound s₀ s1 := h.setTil
  have h2 : Sound s₀ s2 := h1.bump
  have h3 : Sound s₀ s3 := by
    unfold s3
    refine .each ?_ fun _ _ h => ?_
    · exact h2
    · split
      · refine .ite ?_ ?_
        · exact h
        · extract_lets
          exact .setGrp h
      · exact h
  have h4 : Sound s₀ s4 := (h3.each fun _ _ h => h.squashQueue).squashMove
  refine .each ?_ fun _ _ h => ?_
  · exact h4
  · extract_lets
    refine .dropBuffered ?_
    refine .each ?_ fun _ _ h => ?_
    · exact h
    · split
      · exact .loopIdle h
      · exact h

theorem resolveAt {t tag : Nat} (h : Sound s₀ s) : Sound s₀ (s.resolveAt t tag) := by
  unfold State.resolveAt
  extract_lets
  refine .each ?_ fun _ _ h => ?_
  · exact h
  · split
    · exact h
    · exact h
    · exact .commitAt h
    · exact .ite (.squashAt h) h
    · exact h

theorem sweep {f sec : Nat} (h : Sound s₀ s) : Sound s₀ (s.sweep f sec) :=
  ((h.each fun _ _ h => (Sound.ite h h.setTagSt)).bump.keep fun h => h.hset).setFld

end Sound

namespace Does
variable {s₀ s : State}

theorem execTagOp {f : Nat} (h : Sound s₀ s) : Does (f < 64) s₀ (execTagOp f s) := by
  unfold Machine.execTagOp
  refine .onField ?_
  split
  · exact h
  · exact h.advanceTo.upd.when fun h => h.applyTagOps

theorem execResolution {t tag : Nat} (h : Sound s₀ s) : Does (t < 589824) s₀ (execResolution t tag s) := .onTile (Sound.ite h.resolveAt h)

theorem execSpecSweep {f sec : Nat} (h : Sound s₀ s) : Does (f < 64) s₀ (execSpecSweep f sec s) :=
  .onField (Sound.ite h h.advanceTo.upd.applyInOrder.sweep)

end Does

end Sys2Proof.Machine
end

section
/-! SUPPORT. What every effect keeps: the definitions of FieldStore. -/

namespace Sys2Proof.Machine

namespace Sound
variable {s₀ s : State}

theorem quotaRefused {f r off : Nat} (h : Sound s₀ s) : Sound s₀ (s.quotaRefused f r off) := h.hset.logEv

theorem regionWrite {f sec r block : Nat} {bs : List (Nat × Byte)} {bad : List Nat} {cyc : Nat} (h : Sound s₀ s) :
    ∀ u ∈ s.regionWrite f sec r block bs bad cyc, Sound s₀ u := by
  unfold State.regionWrite
  intro u hu
  split at hu
  · extract_lets s1 whole addr at hu
    have h1 : Sound s₀ s1 := h.each fun _ _ h => h.setFst (memWf_memWrite _ _ _)
    exact Option.some.inj hu ▸ h1.set rfl
  · split at hu
    · exact Option.some.inj hu ▸ h
    · split at hu
      · exact Option.some.inj hu ▸ h.set rfl
      · split at hu
        · exact Option.some.inj hu ▸ h.set rfl
        · nomatch hu
  · nomatch hu

theorem countRefused {f : Nat} (h : Sound s₀ s) : Sound s₀ (s.countRefused f) := h.bump.hset

theorem fsWrite {f sec block : Nat} {bss : List (List (Nat × Byte))} (h : Sound s₀ s) : Sound s₀ (s.fsWrite f sec block bss).1 := by
  induction bss generalizing block s with
  | nil => exact h
  | cons bs rest ih =>
    unfold State.fsWrite
    split
    · exact ih h
    · extract_lets off
      split
      · exact h
      · split
        · exact h.when fun h => h.quotaRefused
        · next u hu => exact ih (regionWrite h _ hu)

theorem fsErrCount {f : Nat} {a : FsErr} (h : Sound s₀ s) : Sound s₀ (s.fsErrCount f a) := by
  unfold State.fsErrCount
  split
  · exact h.countRefused
  · exact h.bump

theorem queueBay {b : Nat} {p : Packet} (h : Sound s₀ s) : Sound s₀ (s.queueBay b p) := h.upd

theorem fsLoad {f : Nat} {p : Packet} {since : Nat} (h : Sound s₀ s) : Sound s₀ (s.fsLoad f p since) := h.fstEcc.bump.respond

theorem fsStore {f : Nat} {p : Packet} {since : Nat} (h : Sound s₀ s) : Sound s₀ (s.fsStore f p since) := by
  unfold State.fsStore
  extract_lets
  split
  · exact h.countRefused.refuseAccess
  · split
    · next u hu => exact (regionWrite h u hu).ackStore
    · exact h.quotaRefused.countRefused.refuseAccess

theorem applyEntry {e : JEntry} (h : Sound s₀ s) : Sound s₀ (s.applyEntry e) := by
  unfold State.applyEntry
  extract_lets s1 s2
  have h1 : Sound s₀ s1 := h.set rfl
  have h2 : Sound s₀ s2 := h1.each fun _ _ h => h.setFst (memWf_memWrite _ _ _)
  exact h2.set rfl

end Sound

namespace Does
variable {s₀ s : State}

theorem execFieldStoreRequest {id : Nat} (h : Sound s₀ s) : Does True s₀ (execFieldStoreRequest id s) := by
  unfold Machine.execFieldStoreRequest
  split
  · exact .next h
  · extract_lets
    refine .ite ?_ ?_
    · exact .next h
    · refine .ite ?_ ?_
      · exact .next h.dropPkt
      · exact .ite (.next h.stall) (.ite (.next h.bump.refuseAccess) (.ite (.next h.countRefused.refuseAccess) (.next h.dropPkt.queueBay)))

theorem execFieldStoreBankAccess {f bank waited : Nat} (h : Sound s₀ s) : Does (f < 64) s₀ (execFieldStoreBankAccess f bank waited s) := by
  unfold Machine.execFieldStoreBankAccess
  refine .onField ?_
  extract_lets
  refine .ite ?_ ?_
  · exact h
  · split
    · exact h
    · split
      · exact h
      · exact Sound.ite h.upd.bump.bump.fsLoad h.upd.bump.bump.fsStore

theorem execJournalApply {f : Nat} (h : Sound s₀ s) : Does (f < 64) s₀ (execJournalApply f s) := by
  unfold Machine.execJournalApply
  refine .onField ?_
  split
  · exact h
  · exact Sound.ite h h.applyEntry.bump

theorem execFstScrub {f bank line : Nat} {found : Option (Nat × Bool)} (h : Sound s₀ s) : Does (f < 64) s₀ (execFstScrub f bank line found s) := by
  unfold Machine.execFstScrub
  refine .onField ?_
  extract_lets _ s1 _ s2 s3
  have h1 : Sound s₀ s1 := by
    unfold s1
    split
    · exact h
    · exact h.upd
    · exact h.bump
  have h2 : Sound s₀ s2 := h1.fstEcc
  have h3 : Sound s₀ s3 := h2.upd
  exact Sound.ite h (h3.each fun _ _ h => h.hset.logEv)

end Does

end Sys2Proof.Machine
end

section
/-! SUPPORT. What every effect keeps: the definitions of Sectors. -/

namespace Sys2Proof.Machine

namespace Sound
variable {s₀ s : State}

theorem setSec {k : Nat} {x : SectorSt} (h : Sound s₀ s) : Sound s₀ (s.setSec k x) := h.upd

theorem updSec {k : Nat} {f : SectorSt → SectorSt} (h : Sound s₀ s) : Sound s₀ (s.updSec k f) := by
  unfold State.updSec
  split
  · exact h.setSec
  · exact h

theorem bayStretch {f b : Nat} (h : Sound s₀ s) : Sound s₀ (s.bayStretch f b) := by
  unfold State.bayStretch
  extract_lets _ _ s1
  have h1 : Sound s₀ s1 := h.sf
  split
  · exact h1
  · exact h1.when fun h => h.setFld.logEv

end Sound

end Sys2Proof.Machine
end

section
/-! SUPPORT. What every effect keeps: the definitions of Lens. -/

namespace Sys2Proof.Machine

namespace Sound
variable {s₀ s : State}

theorem setLens {l : Nat} {x : LensSt} (h : Sound s₀ s) : Sound s₀ (s.setLens l x) := h.upd

theorem launchReport {p : Packet} {words : List Nat} {since : Nat} (h : Sound s₀ s) : Sound s₀ (s.launchReport p words since) := h.respond

theorem loadCells {l f : Nat} {d : LensDesc} {cs : List (Nat × Nat)} (h : Sound s₀ s) : Sound s₀ (s.loadCells l f d cs).1 := by
  induction cs generalizing s with
  | nil => exact h
  | cons c cs ih =>
    unfold State.loadCells
    split
    · exact ih h.setLens
    · exact h

theorem readsEcc {f : Nat} {offs : List Nat} (h : Sound s₀ s) : Sound s₀ (s.readsEcc f offs) := h.fstEcc

theorem runVector {l f : Nat} {d : LensDesc} {v : Nat} (h : Sound s₀ s) : Sound s₀ (s.runVector l f d v).1 := by
  unfold State.runVector
  extract_lets mode oh ow of_
  split
  · exact h
  · dsimp only
    generalize (if d.acc = true then _ else _ : Except FsErr (List Nat)) = old
    split
    · exact h
    · exact h.fsWrite

theorem runVectors {l f : Nat} {d : LensDesc} {vs : List Nat} (h : Sound s₀ s) : Sound s₀ (s.runVectors l f d vs).1 := by
  induction vs generalizing s with
  | nil => exact h
  | cons v vs ih =>
    have hv : Sound s₀ (s.runVector l f d v).1 := h.runVector
    unfold State.runVectors
    split
    · next heq => exact congrArg Prod.fst heq ▸ hv
    · next heq => exact ih (by rw [heq] at hv; exact hv)

theorem lensFault {l desc : Nat} {p : Option Packet} {e : FsErr} (h : Sound s₀ s) : Sound s₀ (s.lensFault l desc p e) := by
  unfold State.lensFault
  extract_lets _ s1 s2
  have h1 : Sound s₀ s1 := h.fsErrCount.hset
  have h2 : Sound s₀ s2 := by
    unfold s2
    split
    · exact h1.logEv
    · exact h1.logEv
  split
  · exact h2.refuseAccess
  · exact h2

theorem lensRefuse {l desc : Nat} {p : Packet} (h : Sound s₀ s) : Sound s₀ (s.lensRefuse l desc p) := h.hset.logEv.refuseAccess

theorem passDone {l : Nat} {q : LensPass} {endAt sat resv : Nat} (h : Sound s₀ s) : Sound s₀ (s.passDone l q endAt sat resv) :=
  h.bump.bump.bump.launchReport

theorem loadSpentTo {l : Nat} {j : LoadJob} {endAt stalls accesses waits : Nat} (h :
    Sound s₀ s) : Sound s₀ (s.loadSpentTo l j endAt stalls accesses waits) :=
  h.advanceTo.bump.bump.bump.bump.setLens

theorem loadSpent {l : Nat} {j : LoadJob} {stalls accesses waits : Nat} (h : Sound s₀ s) : Sound s₀ (s.loadSpent l j stalls accesses waits) :=
  h.loadSpentTo

theorem freeLoads {l : Nat} {d : LensDesc} {endAt : Nat} (h : Sound s₀ s) : Sound s₀ (s.freeLoads l d endAt) := h.setLens

theorem passSpentTo {l : Nat} {q : LensPass} {endAt stalls accesses waits : Nat} (h :
    Sound s₀ s) : Sound s₀ (s.passSpentTo l q endAt stalls accesses waits) :=
  h.advanceTo.bump.bump.bump.bump.freeLoads

theorem passSpent {l : Nat} {q : LensPass} {stalls accesses waits : Nat} (h : Sound s₀ s) : Sound s₀ (s.passSpent l q stalls accesses waits) :=
  h.passSpentTo

theorem abandonPass {l : Nat} {q : LensPass} {sat resv : Nat} (h : Sound s₀ s) : Sound s₀ (s.abandonPass l q sat resv) :=
  h.bump.hset.bump.launchReport

theorem abandonLens {l : Nat} {mine : Nat → Bool} (h : Sound s₀ s) : Sound s₀ (s.abandonLens l mine) := by
  unfold State.abandonLens
  extract_lets _ _ _ s1 _ s2 _ s3 _ s4
  have h1 : Sound s₀ s1 := by
    unfold s1
    split
    · exact Sound.ite h.bump.runVectors.readsEcc.freeLoads.bump.abandonPass h
    · exact h
  have h2 : Sound s₀ s2 := by
    unfold s2
    split
    · exact h1.when fun h => h.bump
    · exact h1
  have h3 : Sound s₀ s3 := by
    unfold s3
    split
    · exact h1.when fun h => h2.setLens.abandonPass
    · exact h1
  have h4 : Sound s₀ s4 := h3.setLens
  exact h4.each fun _ _ h => h.refuseAccess

theorem intakeLens {l : Nat} (h : Sound s₀ s) : Sound s₀ (s.intakeLens l) := Sound.ite h h.setLens

theorem suspendLens {l : Nat} (h : Sound s₀ s) : Sound s₀ (s.suspendLens l) := by
  unfold State.suspendLens
  extract_lets
  split
  · exact h
  · exact h.bump.setLens

end Sound

namespace Does
variable {s₀ s : State}

theorem execLensLaunch {id : Nat} (h : Sound s₀ s) : Does True s₀ (execLensLaunch id s) := by
  unfold Machine.execLensLaunch
  split
  · exact .next h
  · extract_lets
    exact .ite (.next h) (.ite (.next h.dropPkt) (.ite (.next h.stall) (.ite (.next h.lensRefuse) (.ite (.next h) (.next h.dropPkt.setLens)))))

theorem execLensPassAccept {f lens : Nat} (h : Sound s₀ s) : Does (f < 64) s₀ (execLensPassAccept f lens s) := by
  unfold Machine.execLensPassAccept
  refine .onField ?_
  extract_lets
  split
  · exact Sound.ite h h.setLens
  · exact h

theorem execLensLoadComplete {f lens stalls accesses waits : Nat} (h :
    Sound s₀ s) : Does (f < 64) s₀ (execLensLoadComplete f lens stalls accesses waits s) := by
  unfold Machine.execLensLoadComplete
  refine .onField ?_
  extract_lets
  split
  · exact h
  · extract_lets _ _ _ _ _ s1 _ s2
    have h1 : Sound s₀ s1 := by
      unfold s1
      split
      · exact h.loadSpentTo.loadCells.readsEcc
      · exact h.loadSpent.loadCells.readsEcc
    have h2 : Sound s₀ s2 := h1.setLens
    refine .ite ?_ ?_
    · exact h
    · split
      · exact h1.lensFault
      · exact h2.lensFault
      · split
        · exact Sound.ite h1.setLens.passDone h1.setLens
        · exact h1.setLens

theorem execLensPreload {f lens k : Nat} (h : Sound s₀ s) : Does (f < 64) s₀ (execLensPreload f lens k s) :=
  .onField (Sound.ite h h.advanceTo.setLens)

theorem execLensPassExec {f lens : Nat} (h : Sound s₀ s) : Does (f < 64) s₀ (execLensPassExec f lens s) := by
  unfold Machine.execLensPassExec
  refine .onField ?_
  extract_lets
  split
  · exact Sound.ite h (Sound.ite h.setLens.lensRefuse h.setLens)
  · exact h

theorem execLensPassComplete {f lens stalls accesses waits : Nat} {parity : Option (Nat × Nat × Nat)} (h :
    Sound s₀ s) : Does (f < 64) s₀ (execLensPassComplete f lens stalls accesses waits parity s) := by
  unfold Machine.execLensPassComplete
  refine .onField ?_
  extract_lets
  split
  · exact h
  · extract_lets _ _ _ _ _ _ s1 _ s2
    have h1 : Sound s₀ s1 := h.passSpentTo.runVectors.readsEcc.bump
    have h2 : Sound s₀ s2 := h1
    refine .ite ?_ ?_
    · exact h
    · split
      · exact h1.lensFault
      · exact h2.setLens.hset.logEv.refuseAccess
      · exact h.passSpent.runVectors.readsEcc.passDone

theorem execLensStretch {f lens : Nat} (h : Sound s₀ s) : Does (f < 64) s₀ (execLensStretch f lens s) :=
  .onField (Sound.ite h (h.setLens.when fun h => (h.each fun _ _ h => h.bayStretch)))

end Does

end Sys2Proof.Machine
end

section
/-! SUPPORT. What every effect keeps: the definitions of MatVec. -/

namespace Sys2Proof.Machine

namespace Sound
variable {s₀ s : State}

theorem setMv {f : Nat} {x : MvSt} (h : Sound s₀ s) : Sound s₀ (s.setMv f x) := h.upd

theorem mvRowOut {f : Nat} {d : MvDesc} {r : Nat} {ws : List (Option FVal)} {acts : List (List Nat)} {vs : List Nat} (h : Sound s₀ s) :
    Sound s₀ (s.mvRowOut f d r ws acts vs).1 := by
  induction vs generalizing s with
  | nil => exact h
  | cons v vs ih =>
    unfold State.mvRowOut
    extract_lets off
    split
    · exact h
    · next old _ =>
      extract_lets o
      have hw : Sound s₀ (s.fsWrite f d.sector (off / 64) (blocksOf off (elemBytes 32 o.1))).1 := h.fsWrite
      split
      · next heq => exact congrArg Prod.fst heq ▸ hw
      · next heq => exact ih (by rw [heq] at hw; exact hw)

theorem mvRows {f : Nat} {d : MvDesc} {acts : List (List Nat)} {rs : List Nat} (h : Sound s₀ s) : Sound s₀ (s.mvRows f d acts rs).1 := by
  induction rs generalizing s with
  | nil => exact h
  | cons r rs ih =>
    unfold State.mvRows
    split
    · exact h
    · next ws _ =>
      have hw : Sound s₀ (s.mvRowOut f d r ws acts (List.range d.v)).1 := h.mvRowOut
      extract_lets resv
      split
      · next heq => exact congrArg Prod.fst heq ▸ hw
      · next heq => exact ih (by rw [heq] at hw; exact hw)

theorem mvRun {f : Nat} {d : MvDesc} {n : Nat} (h : Sound s₀ s) : Sound s₀ (s.mvRun f d n).1 := by
  unfold State.mvRun
  split
  · exact h
  · exact h.mvRows

theorem mvCounts {f : Nat} {d : MvDesc} {rows sat resv : Nat} (h : Sound s₀ s) : Sound s₀ (s.mvCounts f d rows sat resv) := h.readsEcc.bump.bump

theorem mvFault {f desc : Nat} {p : Packet} {e : FsErr} (h : Sound s₀ s) : Sound s₀ (s.mvFault f desc p e) := h.fsErrCount.hset.logEv.refuseAccess

theorem mvSpent {f begun t stalls accesses waits : Nat} (h : Sound s₀ s) : Sound s₀ (s.mvSpent f begun t stalls accesses waits) :=
  h.advanceTo.bump.bump.bump.bump.setMv

theorem abandonMv {f : Nat} {mine : Nat → Bool} (h : Sound s₀ s) : Sound s₀ (s.abandonMv f mine) := by
  unfold State.abandonMv
  extract_lets _ _ s1 _ s2
  have h1 : Sound s₀ s1 := by
    unfold s1
    split
    · exact Sound.ite h.mvRun.setMv.mvCounts.bump.hset.bump.launchReport h
    · exact h
  have h2 : Sound s₀ s2 := h1.setMv
  exact h2.each fun _ _ h => h.refuseAccess

end Sound

namespace Does
variable {s₀ s : State}

theorem execMvLaunch {id : Nat} (h : Sound s₀ s) : Does True s₀ (execMvLaunch id s) := by
  unfold Machine.execMvLaunch
  split
  · exact .next h
  · extract_lets
    refine .ite ?_ ?_
    · exact .next h
    · exact .ite (.next h.dropPkt) (.ite (.next h.stall) (.ite (.next h.hset.logEv.refuseAccess) (.ite (.next h) (.next h.dropPkt.setMv))))

theorem execMvOperationBegin {f : Nat} (h : Sound s₀ s) : Does (f < 64) s₀ (execMvOperationBegin f s) := by
  unfold Machine.execMvOperationBegin
  refine .onField ?_
  extract_lets
  split
  · exact Sound.ite h h.setMv
  · exact h

theorem execMvOperationComplete {f stalls accesses waits : Nat} (h :
    Sound s₀ s) : Does (f < 64) s₀ (execMvOperationComplete f stalls accesses waits s) := by
  unfold Machine.execMvOperationComplete
  refine .onField ?_
  split
  · exact h
  · extract_lets _ _ _ _ s1
    have h1 : Sound s₀ s1 := h.mvSpent.mvRun.bump.mvCounts
    refine .ite ?_ ?_
    · exact h
    · split
      · exact h.mvSpent.mvRun.mvCounts.mvFault
      · exact h1.launchReport

end Does

end Sys2Proof.Machine
end

section
/-! SUPPORT. What every effect keeps: the definitions of Staging. -/

namespace Sys2Proof.Machine

namespace Sound
variable {s₀ s : State}

theorem setOrder {o : Order} (h : Sound s₀ s) : Sound s₀ (s.setOrder o) := h.upd

theorem failTransfer {o : Order} (h : Sound s₀ s) : Sound s₀ (s.failTransfer o) := h.sf.hset.setOrder.logEv

theorem failDestage {d : DestageJob} (h : Sound s₀ s) : Sound s₀ (s.failDestage d) := h.upd.logEv

theorem intakeStaging {f w e : Nat} (h : Sound s₀ s) : Sound s₀ (s.intakeStaging f w e) :=
  h.each fun _ _ h => (Sound.ite (Sound.ite h h.sf) (Sound.ite h.failTransfer h))

theorem stageLate {f sec : Nat} {o : Order} (h : Sound s₀ s) : Sound s₀ (s.stageLate f sec o) := h.bump.wr.logEv

theorem releaseDestages {f sec : Nat} (h : Sound s₀ s) : Sound s₀ (s.releaseDestages f sec) := by
  unfold State.releaseDestages
  split
  · exact h
  · exact h.upd

theorem dropFailedDestages {f : Nat} (h : Sound s₀ s) : Sound s₀ (s.dropFailedDestages f) := h.upd

end Sound

namespace Does
variable {s₀ s : State}

theorem execCxlReadComplete {transfer line : Nat} {data : List Word} {poison : Bool} {stalled : Nat} (h :
    Sound s₀ s) : Does True s₀ (execCxlReadComplete transfer line data poison stalled s) := by
  unfold Machine.execCxlReadComplete
  split
  · exact .next h
  · refine .ite ?_ ?_
    · exact .next h
    · extract_lets s1
      have h1 : Sound s₀ s1 := h.bump
      exact .ite (.next h1.failTransfer) (.next h1.setOrder)

theorem execCxlMemTimeout {port : Nat} {transfer : Option Nat} (h : Sound s₀ s) : Does (port < 16) s₀ (execCxlMemTimeout port transfer s) := by
  unfold Machine.execCxlMemTimeout
  refine .onUnit ?_
  split
  · split
    · exact Sound.ite h.failTransfer h
    · exact h
  · split
    · exact h.failDestage
    · exact h

theorem execCxlWriteComplete {port : Nat} (h : Sound s₀ s) : Does (port < 16) s₀ (execCxlWriteComplete port s) := by
  unfold Machine.execCxlWriteComplete
  refine .onUnit ?_
  split
  · exact h
  · extract_lets
    refine .ite ?_ ?_
    · exact h
    · split
      · exact h.failDestage
      · exact h.upd

theorem execStageLaneInject {transfer lane : Nat} (h : Sound s₀ s) : Does True s₀ (execStageLaneInject transfer lane s) := by
  unfold Machine.execStageLaneInject
  split
  · exact .next h
  · extract_lets _ _ _ _ s1 s2
    have h1 : Sound s₀ s1 := h.setOrder
    have h2 : Sound s₀ s2 := h1.bump
    split
    · extract_lets
      exact .ite (.next h) (.next h2.addPkt)
    · exact .next h

theorem execStage {id : Nat} (h : Sound s₀ s) : Does True s₀ (execStage id s) := by
  unfold Machine.execStage
  split
  · exact .next h
  · extract_lets _ _ s1 s2 s3
    have h1 : Sound s₀ s1 := h.dropPkt
    have h2 : Sound s₀ s2 := h1.bump.fstPutBytes
    have h3 : Sound s₀ s3 := h2.upd
    split
    · exact .next h1.logEv
    · extract_lets _ s4 _ s5
      have h4 : Sound s₀ s4 := h3.sf
      have h5 : Sound s₀ s5 := h4.when fun h => h.upd
      exact .next h5

theorem execStageNotify {f transfer : Nat} (h : Sound s₀ s) : Does (f < 64) s₀ (execStageNotify f transfer s) := by
  unfold Machine.execStageNotify
  refine .onField ?_
  split
  · exact h
  · exact Sound.ite h.setOrder h

end Does

end Sys2Proof.Machine
end

section
/-! SUPPORT. What every effect keeps: the definitions of Routers. -/

namespace Sys2Proof.Machine

namespace Sound
variable {s₀ s : State}

theorem writeCopy {bt : BindTable} {t copy : Nat} (h : Sound s₀ s) : Sound s₀ (s.writeCopy bt t copy) := h.each fun _ _ h => h.wr

theorem writeRouter {img : Image} {bt : BindTable} {copies : List Nat} {t : Nat} (h : Sound s₀ s) : Sound s₀ (s.writeRouter img bt copies t) :=
  (h.sf.each fun _ _ h => h.wr).each fun _ _ h => h.writeCopy

theorem clearTiles {which : Nat → Bool} (h : Sound s₀ s) : Sound s₀ (s.clearTiles which) := by
  unfold State.clearTiles
  exact (h.setSram (memWf_filter _ _)).fewer.set rfl

theorem resetTile {t : Nat} (h : Sound s₀ s) : Sound s₀ (s.resetTile t) := h.setTil.clearTiles

theorem resetForPatch {t : Nat} (h : Sound s₀ s) : Sound s₀ (s.resetForPatch t) := h.resetTile.each fun _ _ h => h.wr

theorem dropPatched {p base : Image} {bt : BindTable} (h : Sound s₀ s) : Sound s₀ (s.dropPatched p base bt) :=
  h.each fun _ _ h => h.resetForPatch.writeRouter

end Sound

end Sys2Proof.Machine
end

section
/-! SUPPORT. What every effect keeps: the definitions of Recovery. -/

namespace Sys2Proof.Machine

namespace Sound
variable {s₀ s : State}

theorem mboxDone {u status : Nat} {results : List Nat} (h : Sound s₀ s) : Sound s₀ (s.mboxDone u status results) :=
  (h.sf.sf.each fun _ _ h => h.wr).upd

theorem finishOp {op : MboxOp} {status : Nat} {results : List Nat} (h : Sound s₀ s) : Sound s₀ (s.finishOp op status results) :=
  h.each fun _ _ h => h.mboxDone

theorem setBay {b st : Nat} (h : Sound s₀ s) : Sound s₀ (s.setBay b st) := h.sf.upd

theorem dropTile {t : Nat} (h : Sound s₀ s) : Sound s₀ (s.dropTile t) := by
  unfold State.dropTile
  exact (h.setSram (memWf_memClear _ _ _)).fewer.set rfl

theorem openGate {b st : Nat} (h : Sound s₀ s) : Sound s₀ (s.openGate b st) := (h.each fun _ _ h => h.dropTile).setBay

theorem startDrain {f sec : Nat} (h : Sound s₀ s) : Sound s₀ (s.startDrain f sec) :=
  Sound.ite h (h.beginDrain.each fun _ _ h => h.abandonLens).abandonMv

theorem endDrain {f sec : Nat} (h : Sound s₀ s) : Sound s₀ (s.endDrain f sec) := h.quiesce.sf.when fun h => h.finishOp

theorem dueDrain {sec : Nat} (h : Sound s₀ s) : Sound s₀ (s.dueDrain sec) := h.each fun _ _ h => (Sound.ite h h.setFld)

theorem sectorDown {sec code : Nat} (h : Sound s₀ s) : Sound s₀ (s.sectorDown sec code) := by
  unfold State.sectorDown
  split
  · exact h
  · exact Sound.ite h h.setSec.logEv.dueDrain

theorem sectorStranded {sec : Nat} (h : Sound s₀ s) : Sound s₀ (s.sectorStranded sec) := by
  unfold State.sectorStranded
  split
  · exact h
  · exact Sound.ite h h.setSec.logEv

theorem setJlf {k : Nat} {x : Jalfen} (h : Sound s₀ s) : Sound s₀ (s.setJlf k x) := h.upd

theorem sendFrame {k ty grant ring : Nat} {payload : List Nat} (h : Sound s₀ s) : Sound s₀ (s.sendFrame k ty grant ring payload) := h.setJlf.upd

theorem peerIrq (h : Sound s₀ s) : Sound s₀ (s.peerIrq) := h.upd

theorem peerRecord {k peer kind code : Nat} (h : Sound s₀ s) : Sound s₀ (s.peerRecord k peer kind code) := h.sf.sf.sf

theorem sendNotice {kind code : Nat} {onLink : Nat → Bool} (h : Sound s₀ s) : Sound s₀ (s.sendNotice kind code onLink) :=
  h.each fun _ _ h => (h.sendFrame.when fun h => h.peerRecord.peerIrq.logEv)

theorem unload (h : Sound s₀ s) : Sound s₀ (s.unload) := (h.each fun _ _ h => h.loseSram).upd.setSettle.upd.wr.wr.each fun _ _ h => h.wr

theorem failLoading {code : Nat} (h : Sound s₀ s) : Sound s₀ (s.failLoading code) := by
  unfold State.failLoading
  split
  · exact h
  · extract_lets s1 reject _ s2 s3 _ s4
    have h1 : Sound s₀ s1 := by
      unfold s1
      split
      · exact h.mboxDone
      · exact h
    have h2 : Sound s₀ s2 := h1.upd.sf.sf
    have h3 : Sound s₀ s3 := by
      unfold s3
      split
      · exact h2.dropPatched
      · exact h2
    have h4 : Sound s₀ s4 := h1.upd.sf
    split
    · exact h1.unload.sf.sf.logEv
    · exact h3.each fun _ _ h => h.logEv
    · exact h4.each fun _ _ h => h.logEv

theorem breakLoading {f : Nat} (h : Sound s₀ s) : Sound s₀ (s.breakLoading f) := by
  unfold State.breakLoading
  split
  · exact h
  · exact Sound.ite h.failLoading h

theorem stopFieldClocks {f : Nat} (h : Sound s₀ s) : Sound s₀ (s.stopFieldClocks f) := h.wr

theorem fogField {f code : Nat} {dark : Bool} (h : Sound s₀ s) : Sound s₀ (s.fogField f code dark) := by
  unfold State.fogField
  refine .ite ?_ ?_
  · exact h
  · extract_lets s1 s2 s3 s4 s5 s6 _ s7 s8 s9 s10 s11 s12
    have h1 : Sound s₀ s1 := h.stopFieldClocks
    have h2 : Sound s₀ s2 := by
      unfold s2
      refine .each ?_ fun _ _ h => ?_
      · exact h1
      · split
        · exact .openGate h
        · exact .ite (.openGate h) (.setBay h)
        · exact .ite (.openGate h) h
        · exact h
    have h3 : Sound s₀ s3 := h2.sf.sf
    have h4 : Sound s₀ s4 := h3.sf
    have h5 : Sound s₀ s5 := h4.bump
    have h6 : Sound s₀ s6 := h5.logEv
    have h7 : Sound s₀ s7 := h6.setFld
    have h8 : Sound s₀ s8 := h7.upd
    have h9 : Sound s₀ s9 := h8.dropArms
    have h10 : Sound s₀ s10 := h9.each fun _ _ h => h.sectorDown
    have h11 : Sound s₀ s11 := h10.breakLoading
    have h12 : Sound s₀ s12 := h11.each fun _ _ h => h.failTransfer
    exact h12.sendNotice

theorem writeRecord {r : Ledger} (h : Sound s₀ s) : Sound s₀ (s.writeRecord r) := h.upd

theorem repairCopies (h : Sound s₀ s) : Sound s₀ (s.repairCopies) := by
  unfold State.repairCopies
  split
  · exact h
  · exact h.upd

theorem ledger {r : Ledger} (h : Sound s₀ s) : Sound s₀ (s.ledger r) := by
  unfold State.ledger
  extract_lets s1 _ s2 s3
  have h1 : Sound s₀ s1 := Sound.ite h.upd h
  have h2 : Sound s₀ s2 := h1.upd
  have h3 : Sound s₀ s3 := h1.writeRecord
  refine .ite ?_ ?_
  · refine .ite ?_ ?_
    · exact h2.sf
    · split
      · exact h1.upd.logEv
      · exact Sound.ite h1.logEv h1.upd
  · exact h3.keep fun h => h.upd

end Sound

namespace Does
variable {s₀ s : State}

theorem execDrainStart {req : Requester} {f sec : Nat} (h : Sound s₀ s) : Does (f < 64) s₀ (execDrainStart req f sec s) := by
  unfold Machine.execDrainStart
  refine .onField ?_
  split
  · exact Sound.ite h.startDrain h.refuse
  · exact h.refuse

theorem execDrainComplete {f sec : Nat} (h : Sound s₀ s) : Does (f < 64) s₀ (execDrainComplete f sec s) := .onField (Sound.ite h.endDrain h)

theorem execDrainTimeout {f sec : Nat} (h : Sound s₀ s) : Does (f < 64) s₀ (execDrainTimeout f sec s) := by
  unfold Machine.execDrainTimeout
  refine .onField ?_
  split
  · exact h
  · exact Sound.ite h (h.advanceTo.sf.sf.logEv.finishOp.each fun _ _ h => (h.each fun _ _ h => h.flushWithAbort))

end Does

end Sys2Proof.Machine
end

section
/-! SUPPORT. What every effect keeps: the definitions of Rings. -/

namespace Sys2Proof.Machine

namespace Sound
variable {s₀ s : State}

theorem setHring {r : Nat} {x : HostRing} (h : Sound s₀ s) : Sound s₀ (s.setHring r x) := h.upd

theorem keepSnapshot (h : Sound s₀ s) : Sound s₀ (s.keepSnapshot) := Sound.ite h h.upd

theorem setHslot {sec i : Nat} {x : HostSlot} (h : Sound s₀ s) : Sound s₀ (s.setHslot sec i x) := h.keepSnapshot.upd

theorem queueResults {r : Nat} {es : List (List Nat)} (h : Sound s₀ s) : Sound s₀ (s.queueResults r es) := h.setHring

theorem retireReq {sec slot seq : Nat} (h : Sound s₀ s) : Sound s₀ (s.retireReq sec slot seq) := Sound.ite h.setHslot.bump h

theorem retireAll {sec slot : Nat} {status : Option Nat} (h : Sound s₀ s) : Sound s₀ (s.retireAll sec slot status) := by
  unfold State.retireAll
  extract_lets
  refine .each ?_ fun _ _ h => ?_
  · exact h
  · extract_lets s1
    have h1 : Sound s₀ s1 := by
      unfold s1
      split
      · exact .queueResults h
      · exact h
    exact h1.retireReq

theorem disableRing {r : Nat} {answer : Bool} (h : Sound s₀ s) : Sound s₀ (s.disableRing r answer) := by
  unfold State.disableRing
  extract_lets s1 _ s2
  have h1 : Sound s₀ s1 := h.sf
  have h2 : Sound s₀ s2 := h1.setHring
  split
  · exact h2.retireAll
  · exact h2

theorem writeStatus {r : Nat} (h : Sound s₀ s) : Sound s₀ (s.writeStatus r) := h.upd

theorem fstPutWords {f off : Nat} {ws : List Nat} (h : Sound s₀ s) : Sound s₀ (s.fstPutWords f off ws) := h.fstPutBytes

theorem deliver {sec slot : Nat} (h : Sound s₀ s) : Sound s₀ (s.deliver sec slot) := by
  unfold State.deliver
  split
  · exact h
  · refine .ite h ?_
    extract_lets m half cap x filled r
    suffices hr : Sound s₀ r.1 from hr.setHslot
    exact .foldlFst h fun acc o h => by
      obtain ⟨s, n, stop, done⟩ := acc
      dsimp only
      split
      · exact h
      · exact h.each fun _ _ h => h.fstPutWords

theorem openBatch {sec slot m : Nat} (h : Sound s₀ s) : Sound s₀ (s.openBatch sec slot m) := by
  unfold State.openBatch
  extract_lets _ s1
  have h1 : Sound s₀ s1 := h.updSec
  split
  · exact h1
  · exact h1.fstPutWords

theorem checkCounts {r : Nat} (h : Sound s₀ s) : Sound s₀ (s.checkCounts r) := Sound.ite h.hset.disableRing h

theorem takeRequest {r : Nat} {es : List (List Nat)} (h : Sound s₀ s) : Sound s₀ (s.takeRequest r es) := by
  unfold State.takeRequest
  extract_lets _ _ _ s1 _ _ s2
  have h1 : Sound s₀ s1 := h.bump
  have h2 : Sound s₀ s2 := h1.setHring
  split
  · exact h.queueResults
  · exact Sound.ite h1.bump.queueResults (Sound.ite h1.queueResults h2.setHslot.deliver)

theorem takeEntry {r : Nat} {e : List Nat} (h : Sound s₀ s) : Sound s₀ (s.takeEntry r e) := by
  unfold State.takeEntry
  extract_lets _ _ _ _ s1
  have h1 : Sound s₀ s1 := h.setHring
  split
  · exact h.setHring
  · exact Sound.ite (Sound.ite h.setHring.takeRequest h.setHring) h1.queueResults

theorem countAnswers {sec slot n : Nat} (h : Sound s₀ s) : Sound s₀ (s.countAnswers sec slot n) := by
  unfold State.countAnswers
  split
  · exact h
  · split
    · exact h
    · exact Sound.ite h (Sound.ite h.logEv h).updSec

theorem readOutbox {sec slot m : Nat} (h : Sound s₀ s) : Sound s₀ (s.readOutbox sec slot m) := by
  unfold State.readOutbox
  split
  · exact Sound.ite (h.bump.keep fun h => h.setHslot.logEv).bump.logEv.setHslot (h.bump.keep fun h => h.setHslot.logEv).queueResults.countAnswers
  · exact h

theorem retirePushed {r : Nat} {e : List Nat} (h : Sound s₀ s) : Sound s₀ (s.retirePushed r e) := by
  unfold State.retirePushed
  split
  · extract_lets s1
    have h1 : Sound s₀ s1 := by
      unfold s1
      split
      · exact Sound.ite h.bump h
      · exact h
    exact h1.retireReq
  · exact h

theorem pushHost {r : Nat} {e : List Nat} (h : Sound s₀ s) : Sound s₀ (s.pushHost r e) := h.upd.setHring.retirePushed

theorem pushRelay {r k : Nat} {e : List Nat} (h : Sound s₀ s) : Sound s₀ (s.pushRelay r k e) := h.sendFrame.setJlf

end Sound

namespace Does
variable {s₀ s : State}

theorem execHstDbReqTail {port fn ring value : Nat} (h : Sound s₀ s) : Does (port < 4) s₀ (execHstDbReqTail port fn ring value s) :=
  .onUnit (Sound.ite h h.setHring.checkCounts)

theorem execHstDbResHead {port fn ring value : Nat} (h : Sound s₀ s) : Does (port < 4) s₀ (execHstDbResHead port fn ring value s) :=
  .onUnit (Sound.ite h h.setHring)

theorem execRingFetch {port fn ring : Nat} {entries : List (List Nat)} (h : Sound s₀ s) : Does (port < 4) s₀ (execRingFetch port fn ring entries s) :=
  .onUnit (Sound.ite h (Sound.ite h (h.each fun _ _ h => (Sound.ite h.takeEntry h)).writeStatus))

theorem execHostDmaFault {port fn ring : Nat} (h : Sound s₀ s) : Does (port < 4) s₀ (execHostDmaFault port fn ring s) :=
  .onUnit (Sound.ite h h.hset.disableRing.logEv)

theorem execResultPush {port fn ring count : Nat} (h : Sound s₀ s) : Does (port < 4) s₀ (execResultPush port fn ring count s) :=
  .onUnit (Sound.ite h (Sound.ite (h.setHring.each fun _ _ h => h.pushRelay) (h.setHring.each fun _ _ h => h.pushHost).writeStatus))

theorem execHstRingCfgWrite {req : Requester} {port fn ring value : Nat} (h :
    Sound s₀ s) : Does (port < 4) s₀ (execHstRingCfgWrite req port fn ring value s) :=
  .onUnit (Sound.ite h.refuse (Sound.ite (Sound.ite h h.disableRing) (Sound.ite h.refuse h.wr.checkCounts)))

theorem execFunctionLevelReset {port fn : Nat} (h : Sound s₀ s) : Does (port < 4) s₀ (execFunctionLevelReset port fn s) :=
  .onUnit (Sound.ite h (h.each fun _ _ h => (Sound.ite h.disableRing h)))

end Does

end Sys2Proof.Machine
end

section
/-! SUPPORT. What every effect keeps: the definitions of Defects. -/

namespace Sys2Proof.Machine

namespace Sound
variable {s₀ s : State}

theorem writeGeometry {l : Nat} (h : Sound s₀ s) : Sound s₀ (s.writeGeometry l) := by
  unfold State.writeGeometry
  extract_lets s1
  have h1 : Sound s₀ s1 := h.wr
  refine .each ?_ fun _ _ h => ?_
  · exact h1
  · extract_lets
    split
    · exact .wr h
    · exact .wr h

theorem writeTileCount (h : Sound s₀ s) : Sound s₀ (s.writeTileCount) := h.wr.upd

theorem checkGrade (h : Sound s₀ s) : Sound s₀ (s.checkGrade) := (Sound.ite h.logEv h).upd

theorem resourceLost {d : Defect} {code : Nat} (h : Sound s₀ s) : Sound s₀ (s.resourceLost d code) := by
  unfold State.resourceLost
  split
  · exact h.each fun _ _ h => h.sectorDown
  · exact h

theorem bindReport {state reason item excess displaced moved : Nat} (h :
    Sound s₀ s) : Sound s₀ (s.bindReport state reason item excess displaced moved) :=
  h.sf.sf.sf.sf.sf.sf

theorem rebind (h : Sound s₀ s) : Sound s₀ (s.rebind) := Sound.ite h (Sound.ite h.upd.sf h.upd.bindReport.finishOp)

theorem liveRecord {d : Defect} (h : Sound s₀ s) : Sound s₀ (s.liveRecord d) := by
  unfold State.liveRecord
  extract_lets s1 s2 s3 s4 s5 s6 s7 s8
  have h1 : Sound s₀ s1 := h.ledger
  have h2 : Sound s₀ s2 := h1.logEv
  have h3 : Sound s₀ s3 := h2.when fun h => h.writeTileCount.checkGrade
  have h4 : Sound s₀ s4 := h3.when fun h => h.writeGeometry
  have h5 : Sound s₀ s5 := by
    unfold s5
    split
    · exact h4.when fun h => h.upd.sf
    · exact h4
  have h6 : Sound s₀ s6 := h5.upd
  have h7 : Sound s₀ s7 := h6.rebind
  have h8 : Sound s₀ s8 := h7.resourceLost
  exact h8.when fun h => h.upd

theorem dropRecords {gone : Defect → Bool} (h : Sound s₀ s) : Sound s₀ (s.dropRecords gone) :=
  (h.each fun _ _ h => h.ledger).when fun h => h.writeTileCount.checkGrade

end Sound

end Sys2Proof.Machine
end

section
/-! SUPPORT. What every effect keeps: the definitions of Power. -/

namespace Sys2Proof.Machine

namespace Sound
variable {s₀ s : State}

theorem setTarget {f : Nat} (h : Sound s₀ s) : Sound s₀ (s.setTarget f) := h.sf

theorem darkenBays {f : Nat} (h : Sound s₀ s) : Sound s₀ (s.darkenBays f) := h.each fun _ _ h => (Sound.ite h.openGate h)

theorem railFault {r : Nat} (h : Sound s₀ s) : Sound s₀ (s.railFault r) := Sound.ite h.hset.logEv.darkenBays.fogField h.hset.logEv

theorem takeReading {x : RailReading} (h : Sound s₀ s) : Sound s₀ (s.takeReading x) :=
  Sound.ite h ((Sound.ite h h.sf.sf).upd.when fun h => h.railFault)

theorem startRamp {b : Nat} (h : Sound s₀ s) : Sound s₀ (s.startRamp b) := by
  unfold State.startRamp
  split
  · exact h.setBay.sf
  · exact h.setBay.sf
  · exact Sound.ite h h.setBay
  · exact h

theorem rampFrom {b t : Nat} (h : Sound s₀ s) : Sound s₀ (s.rampFrom b t) := h.startRamp.upd

theorem nextRamp {b : Nat} (h : Sound s₀ s) : Sound s₀ (s.nextRamp b) := by
  unfold State.nextRamp
  extract_lets
  split
  · exact h
  · exact Sound.ite h h.upd.rampFrom

theorem askRamp {b : Nat} (h : Sound s₀ s) : Sound s₀ (s.askRamp b) := Sound.ite (Sound.ite h h.upd) h.rampFrom

theorem handoverRamps {f : Nat} (h : Sound s₀ s) : Sound s₀ (s.handoverRamps f) := Sound.ite h (h.upd.each fun _ _ h => h.rampFrom)

theorem gateTrip {b step current : Nat} (h : Sound s₀ s) : Sound s₀ (s.gateTrip b step current) :=
  Sound.ite h.openGate.sf.sf.sf.sf.bump.hset.upd.logEv.resourceLost h.openGate.sf.sf.sf.sf.bump.hset.upd.logEv.liveRecord

theorem stretchBay {b c : Nat} (h : Sound s₀ s) : Sound s₀ (s.stretchBay b c) := h.upd

theorem raiseEntry {f k : Nat} (h : Sound s₀ s) : Sound s₀ (s.raiseEntry f k) := Sound.ite h.sf.sf h.sf

theorem trimmed {f bay watch : Nat} {old : List (Nat × Nat)} (h : Sound s₀ s) : Sound s₀ (s.trimmed f bay watch old) := Sound.ite h h.ledger

theorem ageCheck {f : Nat} {margins : List Nat} (h : Sound s₀ s) : Sound s₀ (s.ageCheck f margins) :=
  ((h.each fun _ _ h => h.wr).keep fun h => h.hset.logEv).keep fun h => (Sound.ite h.upd (h.each fun _ _ h => h.raiseEntry).trimmed)

end Sound

namespace Does
variable {s₀ s : State}

theorem execRailTelemetryPoll {readings : List RailReading} (h : Sound s₀ s) : Does True s₀ (execRailTelemetryPoll readings s) :=
  .next (h.each fun _ _ h => h.takeReading)

theorem execPmbAlert {readings : List RailReading} (h : Sound s₀ s) : Does True s₀ (execPmbAlert readings s) :=
  .next (h.each fun _ _ h => h.takeReading)

theorem execRampStep {bay : Nat} (h : Sound s₀ s) : Does (bay < 2304) s₀ (execRampStep bay s) := by
  unfold Machine.execRampStep
  refine .onUnit ?_
  extract_lets
  split
  · exact h
  · exact Sound.ite h (Sound.ite h.upd.advanceTo h.advanceTo.setBay.nextRamp)

theorem execBayGateFault {bay current : Nat} (h : Sound s₀ s) : Does (bay < 2304) s₀ (execBayGateFault bay current s) :=
  .onUnit (Sound.ite h.gateTrip.nextRamp h)

theorem execGateRetry {bay : Nat} (h : Sound s₀ s) : Does (bay < 2304) s₀ (execGateRetry bay s) := by
  unfold Machine.execGateRetry
  refine .onUnit ?_
  split
  · exact h
  · exact Sound.ite h.advanceTo.askRamp h

theorem execGateFaultCountClear {bay : Nat} (h : Sound s₀ s) : Does (bay < 2304) s₀ (execGateFaultCountClear bay s) := by
  unfold Machine.execGateFaultCountClear
  refine .onUnit ?_
  split
  · exact Sound.ite h.advanceTo.sf h
  · exact h

theorem execDroopStretch {bay : Nat} (h : Sound s₀ s) : Does (bay < 2304) s₀ (execDroopStretch bay s) :=
  .onUnit (Sound.ite h (Sound.ite (h.upd.bump.stretchBay.when fun h => h.bayStretch) h.upd.bump))

theorem execDroopSustained {bay : Nat} {deep : Bool} (h : Sound s₀ s) : Does (bay < 2304) s₀ (execDroopSustained bay deep s) :=
  .onUnit (Sound.ite h.hset.logEv.fogField h)

theorem execThermalSample {f : Nat} {temps : List Int} (h : Sound s₀ s) : Does (f < 64) s₀ (execThermalSample f temps s) :=
  .onField (((h.each fun _ _ h => (h.sf.when fun h => h.hset).upd).when fun h => h.sf.logEv.stopFieldClocks.darkenBays.fogField).when fun h =>
    h.upd.logEv)

theorem execWaferEnergy {suspects : List Nat} (h : Sound s₀ s) : Does True s₀ (execWaferEnergy suspects s) := by
  unfold Machine.execWaferEnergy
  extract_lets _ _ _ _ s1 s2
  have h1 : Sound s₀ s1 := h.wr
  have h2 : Sound s₀ s2 := h1.upd
  exact .ite (.next h) (.next (h2.each fun _ _ h => h.hset.logEv))

theorem execNvInhibit {aux core : Bool} (h : Sound s₀ s) : Does True s₀ (execNvInhibit aux core s) :=
  .next (Sound.ite (Sound.ite h h.sf.upd) ((h.sf.sf.upd.when fun h => h.hset).when fun h => h.hset))

theorem execNvInhibitRelease (h : Sound s₀ s) : Does True s₀ (execNvInhibitRelease s) := by
  unfold Machine.execNvInhibitRelease
  refine .next ?_
  refine .ite ?_ ?_
  · exact h
  · extract_lets s1 s2 s3 s4
    have h1 : Sound s₀ s1 := by
      unfold s1
      split
      · exact h.advanceTo
      · exact h
    have h2 : Sound s₀ s2 := h1.sf.sf.repairCopies
    have h3 : Sound s₀ s3 := h2.each fun _ _ h => h.writeRecord
    have h4 : Sound s₀ s4 := h3.upd
    exact h4.sf

end Does

end Sys2Proof.Machine
end

section
/-! SUPPORT. What every effect keeps: the definitions of Content. -/

namespace Sys2Proof.Machine

namespace Sound
variable {s₀ s : State}

theorem rewriteRouters {f : Nat} {which : Nat → Bool} (h : Sound s₀ s) : Sound s₀ (s.rewriteRouters f which) := by
  unfold State.rewriteRouters
  split
  · exact (h.each fun _ _ h => h.writeRouter).each fun _ _ h => h.setFld.sf.sf.sf
  · exact h

theorem writeSeg {img : Image} {t : Nat} {g : ImgSeg} (h : Sound s₀ s) : Sound s₀ (s.writeSeg img t g) := by
  unfold State.writeSeg
  split
  · exact h
  · exact h.sramPutBytes

theorem writeConst {bt : BindTable} {t : Nat} {c : ImgConst} (h : Sound s₀ s) : Sound s₀ (s.writeConst bt t c) := h.sramPut

theorem writeTile {img : Image} {bt : BindTable} {l : Nat} (h : Sound s₀ s) : Sound s₀ (s.writeTile img bt l) := by
  unfold State.writeTile
  extract_lets _ s1 s2 s3 s4
  have h1 : Sound s₀ s1 := h.sf
  have h2 : Sound s₀ s2 := by
    unfold s2
    split
    · exact h1
    · exact h1.wr.wr.each fun _ _ h => h.writeSeg
  have h3 : Sound s₀ s3 := h2.each fun _ _ h => h.writeConst
  have h4 : Sound s₀ s4 := h3.each fun _ _ h => h.wr.wr.wr.wr
  exact h4.each fun _ _ h => h.wr.wr

theorem writeRegion {r : ImgRegion} (h : Sound s₀ s) : Sound s₀ (s.writeRegion r) := h.wr.wr.wr.sf

theorem writeLens {bt : BindTable} {x : ImgLens} (h : Sound s₀ s) : Sound s₀ (s.writeLens bt x) :=
  ((((h.wr.each fun _ _ h => h.wr).each fun _ _ h => h.wr).each fun _ _ h => h.wr).each fun _ _ h => h.wr).upd.sf.sf

theorem writeMv {x : ImgMv} (h : Sound s₀ s) : Sound s₀ (s.writeMv x) := (h.each fun _ _ h => h.wr).sf.sf

theorem writeBuoy {x : ImgBuoy} (h : Sound s₀ s) : Sound s₀ (s.writeBuoy x) := h.wr.wr.wr.setBuoy

theorem writeGroups {img : Image} {blocks : List Nat} (h : Sound s₀ s) : Sound s₀ (s.writeGroups img blocks) :=
  h.each fun _ _ h => (h.each fun _ _ h => h.wr)

theorem writeTree {x : ImgSpec} (h : Sound s₀ s) : Sound s₀ (s.writeTree x) := h.each fun _ _ h => h.wr

theorem writeFields {img : Image} {bt : BindTable} {inField : Nat → Bool} (h : Sound s₀ s) : Sound s₀ (s.writeFields img bt inField) :=
  (((h.each fun _ _ h => h.writeRegion).each fun _ _ h => h.writeMv).each fun _ _ h => h.writeLens).writeGroups.each fun _ _ h => h.writeBuoy

end Sound

end Sys2Proof.Machine
end

section
/-! SUPPORT. What every effect keeps: the definitions of Sessions. -/

namespace Sys2Proof.Machine

namespace Sound
variable {s₀ s : State}

theorem takeMbox {u op : Nat} {accepted : Bool} {masks : List Nat} {act : State → State} (h : Sound s₀ s)
    (hact : ∀ s, Sound s₀ s → Sound s₀ (act s)) : Sound s₀ (s.takeMbox u op accepted masks act) := by
  unfold State.takeMbox
  extract_lets s1 s2
  have h1 : Sound s₀ s1 := h.set rfl
  have h2 : Sound s₀ s2 := h1.sf
  exact h.keep fun _ => .ite h2.mboxDone (.ite h2.mboxDone (.ite h2.mboxDone (hact _ h2)))

theorem releaseGroup {t g : Nat} (h : Sound s₀ s) : Sound s₀ (s.releaseGroup t g) :=
  h.sf.keep fun h => (Sound.ite h.setGrp (Sound.ite h.setGrp h.setGrp))

theorem haltGroup {t g cause : Nat} (h : Sound s₀ s) : Sound s₀ (s.haltGroup t g cause) := h.endWait.setGrp.wr

theorem endSession {port : Nat} (h : Sound s₀ s) : Sound s₀ (s.endSession port) :=
  Sound.ite h (h.upd.each fun _ _ h => (Sound.ite h.releaseGroup (Sound.ite h.wr h.releaseGroup))).sf.sf.sf.wr.logEv

theorem foghorn {bit : Nat} {keeper : Bool} {code : Nat} (h : Sound s₀ s) : Sound s₀ (s.foghorn bit keeper code) :=
  (h.sf.sf.when fun h => h.upd).when fun h => h.sendNotice

theorem failRunning (h : Sound s₀ s) : Sound s₀ (s.failRunning) :=
  ((Sound.ite h.upd.wr h).when fun h => h.sf).failLoading.each fun _ _ h => h.mboxDone

theorem failover (h : Sound s₀ s) : Sound s₀ (s.failover) :=
  Sound.ite (h.upd.sf.bump.logEv.each fun _ _ h => h.endSession).failRunning h.logEv.foghorn

theorem retireBay {b source : Nat} (h : Sound s₀ s) : Sound s₀ (s.retireBay b source) := h.openGate.liveRecord.logEv.finishOp

theorem strand (h : Sound s₀ s) : Sound s₀ (s.strand) := by
  unfold State.strand
  split
  · exact h.each fun _ _ h => h.sectorStranded
  · exact h

end Sound

end Sys2Proof.Machine
end

section
/-! SUPPORT. What every effect keeps: the definitions of Resets. -/

namespace Sys2Proof.Machine

namespace Sound
variable {s₀ s : State}

theorem resetGroup {t g : Nat} (h : Sound s₀ s) : Sound s₀ (s.resetGroup t g) := h.setTil.setGrp.wr.wr

theorem clearBay {b : Nat} (h : Sound s₀ s) : Sound s₀ (s.clearBay b) := h.clearTiles.upd.when fun h => h.sf

theorem resetBay {b : Nat} (h : Sound s₀ s) : Sound s₀ (s.resetBay b) := h.clearBay.keep fun h => h.setBay.askRamp

theorem clearField {f : Nat} (h : Sound s₀ s) : Sound s₀ (s.clearField f) := by
  unfold State.clearField
  extract_lets homes s1 s2
  have h1 : Sound s₀ s1 := h.clearTiles
  have h2 : Sound s₀ s2 := h1.each fun s b h => by
    extract_lets u v
    have hv : Sound s₀ v := h.clearBay.setBay
    exact .ite h.clearBay (hv.set rfl)
  exact (h2.setFst (memWf_memClear _ _ _)).set rfl

theorem fieldLost {f code : Nat} (h : Sound s₀ s) : Sound s₀ (s.fieldLost f code) :=
  (h.bump.logEv.upd.sendNotice.each fun _ _ h => h.sectorDown).breakLoading.each fun _ _ h => h.failTransfer

theorem cutAllow {f : Nat} (h : Sound s₀ s) : Sound s₀ (s.cutAllow f) := Sound.ite h h.upd

theorem resetField {f : Nat} (h : Sound s₀ s) : Sound s₀ (s.resetField f) :=
  (Sound.ite h.fieldLost h.breakLoading).cutAllow.clearField.setFld.sf.sf.sf.upd.sf.sf.sf

theorem resetPcie {p : Nat} (h : Sound s₀ s) : Sound s₀ (s.resetPcie p) := (h.sf.sf.sf.endSession.each fun _ _ h => h.sf).upd

theorem resetCxl {p : Nat} (h : Sound s₀ s) : Sound s₀ (s.resetCxl p) := (h.sf.sf.sf.each fun _ _ h => h.failTransfer).wr

theorem resetJalfen {j : Nat} (h : Sound s₀ s) : Sound s₀ (s.resetJalfen j) := h.sf.sf.sf.setJlf.each fun _ _ h => h.setHring

theorem portTrained {target : Nat} (h : Sound s₀ s) : Sound s₀ (s.portTrained target) := h.upd

theorem retrain {target : Nat} (h : Sound s₀ s) : Sound s₀ (s.retrain target) := h.portTrained.when fun h => h.upd

theorem resetRim {target : Nat} (h : Sound s₀ s) : Sound s₀ (s.resetRim target) :=
  Sound.ite h.retrain.resetPcie (Sound.ite h.retrain.resetCxl h.retrain.resetJalfen)

theorem rimUp {target : Nat} (h : Sound s₀ s) : Sound s₀ (s.rimUp target) := Sound.ite h.sf.sf.sf (Sound.ite h.sf.sf.sf.sf.sf.sf h.sf.sf.sf.setJlf)

theorem resetStation {cause : Nat} (h : Sound s₀ s) : Sound s₀ (s.resetStation cause) := by
  unfold State.resetStation
  extract_lets regs _ n n1 n2 n3 n4 n5
  have hn : Sound s₀ n := h.trans (s' := n) ⟨rfl, Nat.le_refl _, rfl, fun _ _ hp => absurd hp List.not_mem_nil, fun _ => rfl, fun _ => rfl⟩
  exact (hn.sf.sf.sf.sf.sf.sf.sf.sf).upd

theorem resetCold {cause : Nat} (h : Sound s₀ s) : Sound s₀ (s.resetCold cause) := by
  unfold State.resetCold
  extract_lets _ n
  have hn : Sound s₀ n := h.trans (s' := n) ⟨rfl, Nat.le_refl _, rfl, fun _ _ hp => absurd hp List.not_mem_nil, fun _ => rfl, fun _ => rfl⟩
  exact hn.sf.sf

theorem unlock {d t : Nat} (h : Sound s₀ s) : Sound s₀ (s.unlock d t) := h.upd

theorem resetEffect {d t cause : Nat} (h : Sound s₀ s) : Sound s₀ (s.resetEffect d t cause) := by
  unfold State.resetEffect
  extract_lets down
  split
  · exact h.resetGroup
  · exact (Sound.ite h h.sectorDown).resetTile.unlock
  · exact (Sound.ite h h.sectorDown).resetBay.unlock
  · exact h.resetField.unlock
  · exact h.resetRim
  · exact h.resetStation

theorem beginReset {d t cause : Nat} {slot : Option Nat} (h : Sound s₀ s) : Sound s₀ (s.beginReset d t cause slot) := by
  unfold State.beginReset
  split
  · split
    · exact h.upd
    · exact h
  · exact h.sf.sf.upd.resetEffect.sf.sf.sf.keep fun h => h.upd

theorem commandStation {cause : Nat} {slot : Option Nat} (h : Sound s₀ s) : Sound s₀ (s.commandStation cause slot) := h.sendNotice.beginReset

theorem resetCommand {u d t n : Nat} {refused : Option Nat} {act : State → State} (h : Sound s₀ s)
    (hact : ∀ s, Sound s₀ s → Sound s₀ (act s)) : Sound s₀ (s.resetCommand u d t n refused act) := by
  unfold State.resetCommand
  refine h.keep fun h => h.takeMbox fun _ h => .ite h.mboxDone ?_
  split
  · exact h.mboxDone
  · exact hact _ h

theorem beginFieldReset {f : Nat} {slot : Option Nat} (h : Sound s₀ s) : Sound s₀ (s.beginFieldReset f slot) :=
  Sound.ite h.upd (Sound.ite h.failover h).beginReset

theorem bootTrim {f : Nat} {test : FieldTest} (h : Sound s₀ s) : Sound s₀ (s.bootTrim f test) :=
  ((h.each fun _ _ h => h.wr).each fun _ _ h => h.wr).trimmed

theorem failRecords {here : Defect → Bool} {bad : List (Nat × Nat × Nat)} (h : Sound s₀ s) : Sound s₀ (s.failRecords here bad) :=
  h.each fun _ _ h => h.liveRecord

theorem testRecords {here : Defect → Bool} {bad : List (Nat × Nat × Nat)} (h : Sound s₀ s) : Sound s₀ (s.testRecords here bad) :=
  h.dropRecords.failRecords

theorem powerBay {test : FieldTest} {b : Nat} (h : Sound s₀ s) : Sound s₀ (s.powerBay test b) := by
  unfold State.powerBay
  extract_lets
  refine .ite ?_ ?_
  · exact h.openGate
  · split
    · exact h.setBay.gateTrip
    · exact h.setBay

theorem powerUpField {f : Nat} {test : FieldTest} (h : Sound s₀ s) : Sound s₀ (s.powerUpField f test) := by
  unfold State.powerUpField
  extract_lets pll due s1 s2 s3 s4 s5 s6 s7 s8 lit s9 failed s10 s11 s12 s13 s14 s15 s16 s17 s18
  have hpll : ∀ {s : State} {k mhz : Nat}, Sound s₀ s → Sound s₀ (pll s k mhz) := fun h => h.sf.sf
  clear_value pll
  have h2 : Sound s₀ s2 := Sound.each h.upd fun _ _ h => h.retireBay
  have h5 : Sound s₀ s5 := Sound.each (hpll (hpll h2)).sf.sf fun _ _ h => h.powerBay
  have h8 : Sound s₀ s8 := (h5.each fun _ _ h => h.retireBay).bootTrim.sf
  have h9 : Sound s₀ s9 := h8.testRecords
  have h10 : Sound s₀ s10 := h9.each fun _ _ h => .ite h.openGate.finishOp (Sound.finishOp h.upd)
  have h12 : Sound s₀ s12 := Sound.sf (h10.each fun _ _ h => h.writeGeometry).sf
  clear_value s12
  have h13 : Sound s₀ s13 := h12.clearFst.upd
  have h15 : Sound s₀ s15 := h13.rewriteRouters.setFld
  exact (Sound.when h15.sf.sf.sf.sf.setTarget fun h => h.writeTileCount.checkGrade).sf

theorem endReset {d t : Nat} (h : Sound s₀ s) : Sound s₀ (s.endReset d t) := (h.upd.when fun h => h.sf).finishOp

end Sound

namespace Does
variable {s₀ s : State}

theorem execGroupReset {slot : Option Nat} {t g : Nat} (h : Sound s₀ s) : Does (t < 589824 ∧ g < 8) s₀ (execGroupReset slot t g s) := by
  unfold Machine.execGroupReset
  extract_lets
  split
  · exact .onGroup h.beginReset
  · exact .next (h.resetCommand fun _ h => h.beginReset)

theorem execTileReset {slot : Option Nat} {t : Nat} (h : Sound s₀ s) : Does (t < 589824) s₀ (execTileReset slot t s) := by
  unfold Machine.execTileReset
  split
  · exact .onTile h.beginReset
  · exact .next (h.resetCommand fun _ h => h.beginReset)

theorem execBayReset {slot : Option Nat} {bay : Nat} (h : Sound s₀ s) : Does (bay < 2304) s₀ (execBayReset slot bay s) := by
  unfold Machine.execBayReset
  split
  · exact .onUnit h.beginReset
  · exact .next (h.resetCommand fun _ h => h.beginReset)

theorem execFieldReset {slot : Option Nat} {f : Nat} (h : Sound s₀ s) : Does (f < 64) s₀ (execFieldReset slot f s) := by
  unfold Machine.execFieldReset
  split
  · exact .onField h.beginFieldReset
  · exact .next (h.resetCommand fun _ h => h.beginFieldReset)

theorem execRimPortReset {slot : Option Nat} {target : Nat} (h : Sound s₀ s) : Does (target < 28) s₀ (execRimPortReset slot target s) := by
  unfold Machine.execRimPortReset
  split
  · exact .onUnit h.beginReset
  · exact .next (h.resetCommand fun _ h => h.beginReset)

theorem execStationReset {slot : Option Nat} {cause : Nat} (h : Sound s₀ s) : Does True s₀ (execStationReset slot cause s) := by
  unfold Machine.execStationReset
  split
  · exact .next h.commandStation
  · exact .ite (.next (h.takeMbox fun _ h => (Sound.ite h.commandStation h.mboxDone))) (.next h)

theorem execColdReset {powerOn : Bool} (h : Sound s₀ s) : Does True s₀ (execColdReset powerOn s) := .next h.resetCold

theorem execPerstN {port : Nat} (h : Sound s₀ s) : Does (port < 4) s₀ (execPerstN port s) := .onUnit h.beginReset

theorem execResetTimeout {domain target : Nat} (h : Sound s₀ s) : Does True s₀ (execResetTimeout domain target s) := by
  unfold Machine.execResetTimeout
  split
  · exact .next h
  · extract_lets s1 _ _ s2 s3 s4 s5 s6
    have h1 : Sound s₀ s1 := h.advanceTo
    have h2 : Sound s₀ s2 := h1.logEv
    have h3 : Sound s₀ s3 := h2.upd
    have h4 : Sound s₀ s4 := h3.finishOp.hset
    have h5 : Sound s₀ s5 := h4.foghorn
    have h6 : Sound s₀ s6 := h5.resetStation
    refine .next ?_
    split
    · exact h4.beginReset
    · exact h4.beginReset
    · exact h4.beginFieldReset
    · exact h4.commandStation
    · exact h4.commandStation
    · exact h5.when fun h => h6.upd

end Does

end Sys2Proof.Machine
end

section
/-! SUPPORT. What every effect keeps: the definitions of Planner. -/

namespace Sys2Proof.Machine

namespace Sound
variable {s₀ s : State}

theorem setPlanField {f : Nat} {x : PlanField} (h : Sound s₀ s) : Sound s₀ (s.setPlanField f x) := h.upd

theorem recover {q : Terms} {x : Draft} (h : Sound s₀ s) : Sound s₀ (s.recover q x).1 := by
  unfold State.recover
  exact .foldlFst h fun acc c h => by
    dsimp only
    split
    · exact h
    · split
      · exact h
      · dsimp only
        exact h.updSec.logEv

theorem calibrate {f : Nat} (h : Sound s₀ s) : Sound s₀ (s.calibrate f) := by
  unfold State.calibrate
  extract_lets
  split
  · exact h
  · exact Sound.ite h (h.setPlanField.when fun h => h.logEv)

theorem adjustAllow {f : Nat} (h : Sound s₀ s) : Sound s₀ (s.adjustAllow f) := Sound.ite h (Sound.ite h.setPlanField h.setPlanField)

theorem showPlan (h : Sound s₀ s) : Sound s₀ (s.showPlan) := h.sf.each fun _ _ h => h.sf.sf.sf

theorem orderTransfer {sec : Nat} {t : ImgTransfer} {base : Nat} (h : Sound s₀ s) : Sound s₀ (s.orderTransfer sec t base) := h.sf.wr.upd

theorem orderAll {q : Terms} {x : Draft} (h : Sound s₀ s) : Sound s₀ (s.orderAll q x) := by
  unfold State.orderAll
  refine .each ?_ fun _ _ h => ?_
  · exact h
  · extract_lets
    split
    · exact h
    · exact h.each fun _ _ h => (Sound.ite h.orderTransfer h)

theorem publish {x : Draft} (h : Sound s₀ s) : Sound s₀ (s.publish x) := (h.each fun _ _ h => h.updSec).each fun _ _ h => h.setFld

theorem noteUnservable {q : Terms} {sec : Nat} (h : Sound s₀ s) : Sound s₀ (s.noteUnservable q sec) := by
  unfold State.noteUnservable
  split
  · exact h
  · exact (h.each fun _ _ h => h.logEv).updSec

theorem round (h : Sound s₀ s) : Sound s₀ (s.round) := by
  unfold State.round
  extract_lets n q s1 s2 first w r prev s3 s4 s5 s6
  have h1 : Sound s₀ s1 := (h.each fun _ _ h => h.calibrate.adjustAllow).showPlan
  have h2 : Sound s₀ s2 := h1.each fun _ _ h => h.noteUnservable
  have h6 : Sound s₀ s6 := ((h2.sf.when fun h => h.logEv).when fun h => h.logEv).when fun h => h.bump
  have hr : Sound s₀ (s6.recover q r.1).1 := h6.recover
  split
  next s x heq =>
    have hs : Sound s₀ s := by rw [heq] at hr; exact hr
    exact hs.bump.wr.wr.publish.orderAll.upd

theorem asAtSnapshot (h : Sound s₀ s) : Sound s₀ (s.asAtSnapshot) := by
  unfold State.asAtSnapshot
  split
  · exact Sound.ite h.upd h
  · exact h

theorem lateRound (h : Sound s₀ s) : Sound s₀ (s.lateRound) := ((h.each fun _ _ h => h.updSec).each fun _ _ h => h.setFld).hset.bump.upd.logEv

theorem checkSelection {f sec : Nat} (h : Sound s₀ s) : Sound s₀ (s.checkSelection f sec) := by
  unfold State.checkSelection
  split
  · exact h
  · refine .ite ?_ ?_
    · exact h
    · split
      · exact h
      · exact Sound.ite h h.setSec.logEv

theorem holdoverWatch {pick : SectorSt → Selection} {put : SectorSt → Selection → SectorSt} {level : FieldSt → Point → FieldSt} (h :
    Sound s₀ s) : Sound s₀ (s.holdoverWatch pick put level) :=
  h.each fun _ _ h => ((h.each fun _ _ h => h.updSec).each fun _ _ h => h.setFld)

theorem holdoverLimits (h : Sound s₀ s) : Sound s₀ (s.holdoverLimits) := h.holdoverWatch.when fun h => h.holdoverWatch

end Sound

namespace Does
variable {s₀ s : State}

theorem execPlanningRound {atNs : Nat} (h : Sound s₀ s) : Does True s₀ (execPlanningRound atNs s) :=
  .next (Sound.ite h h.asAtSnapshot.advanceTo.round.upd)

end Does

end Sys2Proof.Machine
end

section
/-! SUPPORT. What every effect keeps: the definitions of Beacon. -/

namespace Sys2Proof.Machine

namespace Sound
variable {s₀ s : State}

theorem restartKeeper {f : Nat} {standby : Bool} (h : Sound s₀ s) : Sound s₀ (s.restartKeeper f standby) := (h.sf.sf.when fun h => h.sf).upd

theorem checkHeartbeat {f : Nat} (h : Sound s₀ s) : Sound s₀ (s.checkHeartbeat f) :=
  Sound.ite h (Sound.ite h.sf (Sound.ite h.sf.bump.logEv.fogField h.sf.bump.logEv.restartKeeper))

theorem readEntry {t k g : Nat} (h : Sound s₀ s) : Sound s₀ (s.readEntry t k g) := h.readEcc.when fun h => h.trap

theorem intakeGroup {t g mask char : Nat} {void : Bool} (h : Sound s₀ s) : Sound s₀ (s.intakeGroup t g mask char void) :=
  Sound.ite h.setGrp (((Sound.ite h h.sf).setGrp.when fun h => h.readEntry).when fun h => h.haltGroup)

theorem intakeTile {t : Nat} {sel : Option (SectorSt × Nat)} {void whole : Bool} (h : Sound s₀ s) : Sound s₀ (s.intakeTile t sel void whole) :=
  (h.intakeSlots.upd.when fun h => (h.each fun _ _ h => h.intakeGroup)).setTil

theorem railSubstitute {f : Nat} (h : Sound s₀ s) : Sound s₀ (s.railSubstitute f) := by
  unfold State.railSubstitute
  extract_lets
  refine .each ?_ fun _ _ h => ?_
  · exact h
  · split
    · extract_lets
      exact .ite h (.setSec h)
    · exact h

theorem endTagOps {f : Nat} (h : Sound s₀ s) : Sound s₀ (s.endTagOps f) := h.upd

theorem intake {f : Nat} (h : Sound s₀ s) : Sound s₀ (s.intake f) := by
  unfold State.intake
  extract_lets _ s1 _ s2 s3 _ s4 s5 s6 _ s7 s8 s9 s10
  have h1 : Sound s₀ s1 := Sound.ite h.railSubstitute h
  have h2 : Sound s₀ s2 := h1.upd
  have h3 : Sound s₀ s3 := h2.each fun _ _ h => h.intakeTile
  have h4 : Sound s₀ s4 := h3.setFld
  have h5 : Sound s₀ s5 := h4.intakeBlock.endTagOps
  have h6 : Sound s₀ s6 := h5.each fun _ _ h => h.intakeLens
  have h7 : Sound s₀ s7 := h6.keep fun h => h.setMv
  have h8 : Sound s₀ s8 := h7.each fun _ _ h => (Sound.ite h h.sf)
  have h9 : Sound s₀ s9 := h8.intakeStaging
  have h10 : Sound s₀ s10 := by
    unfold s10
    refine .each ?_ fun _ _ h => ?_
    · exact h9
    · split
      · exact .stageLate h
      · exact h
  exact h10.each fun _ _ h => (h.each fun _ _ h => h.openBatch.deliver)

theorem closeDrains {f : Nat} (h : Sound s₀ s) : Sound s₀ (s.closeDrains f) :=
  h.each fun _ _ h => ((h.each fun _ _ h => h.flushTile).when fun h => h.endDrain)

theorem beginWatch {f w t : Nat} {coast : Bool} (h : Sound s₀ s) : Sound s₀ (s.beginWatch f w t coast) := h.closeDrains.setFld.intake

theorem noteSpan {t : Nat} (h : Sound s₀ s) : Sound s₀ (s.noteSpan t) := h.upd

theorem countVoids {k : Nat} (h : Sound s₀ s) : Sound s₀ (s.countVoids k) := by
  unfold State.countVoids
  split
  · exact h
  · exact h.setSec.when fun h => h.logEv.dueDrain

theorem closeWatch (h : Sound s₀ s) : Sound s₀ (s.closeWatch) :=
  (h.each fun _ _ h => h.updSec.countVoids).each fun _ _ h => (Sound.ite h.setPlanField (Sound.ite h h.setPlanField))

theorem takePeriod {w : Nat} (h : Sound s₀ s) : Sound s₀ (s.takePeriod w) := by
  unfold State.takePeriod
  extract_lets _ s1 s2
  have h1 : Sound s₀ s1 := h.each fun _ _ h => h.sf
  have h2 : Sound s₀ s2 := h1.keep fun h => h.upd
  split
  · exact h2
  · exact h2.keep fun h => h.sf.upd.wr.sf

theorem takeSettle {w : Nat} (h : Sound s₀ s) : Sound s₀ (s.takeSettle w) := (h.each fun _ _ h => h.sf).keep fun h => h.upd

theorem stopDue {n : Nat} (h : Sound s₀ s) : Sound s₀ (s.stopDue n) := by
  unfold State.stopDue
  split
  · exact Sound.ite h.sf.upd.finishOp h
  · exact h

theorem shiftSelections {w : Nat} (h : Sound s₀ s) : Sound s₀ (s.shiftSelections w) := by
  unfold State.shiftSelections
  extract_lets s1
  have h1 : Sound s₀ s1 := h.each fun _ _ h => h.updSec
  refine .each ?_ fun _ _ h => ?_
  · exact h1
  · split
    · exact h
    · extract_lets
      exact .ite (.setSec h) h

theorem stepDone {n : Nat} (h : Sound s₀ s) : Sound s₀ (s.stepDone n) := h.upd.sf

theorem beaconStep (h : Sound s₀ s) : Sound s₀ (s.beaconStep) := Sound.ite h.stepDone h

theorem flushSector {f k : Nat} (h : Sound s₀ s) : Sound s₀ (s.flushSector f k) :=
  h.each fun _ _ h => (h.countStalls.each fun _ _ h => h.flushWithAbort)

theorem localSweep {f k : Nat} (h : Sound s₀ s) : Sound s₀ (s.localSweep f k) := by
  unfold State.localSweep
  extract_lets s1
  have h1 : Sound s₀ s1 := h.hset
  refine .each ?_ fun _ _ h => ?_
  · exact h1
  · refine .each ?_ fun _ _ h => ?_
    · exact h
    · split
      · exact h
      · exact h
      · exact .squashAt h

theorem recordVoids {f w : Nat} {void : List (Nat × VoidReason)} (h : Sound s₀ s) : Sound s₀ (s.recordVoids f w void) := by
  unfold State.recordVoids
  extract_lets s1 s2
  have h1 : Sound s₀ s1 := h.each fun _ _ h => h.logEv
  have h2 : Sound s₀ s2 := h1.bump
  split
  · exact h2
  · exact h2.wr

theorem heldCommit {f : Nat} (h : Sound s₀ s) : Sound s₀ (s.heldCommit f) := Sound.ite h h.setFld.recordVoids.upd

theorem epochHandover {f k : Nat} (h : Sound s₀ s) : Sound s₀ (s.epochHandover f k) := Sound.ite h.sf.sf.setFld.sf.sf.sf (Sound.ite h.logEv h)

theorem latchTelemetry {f nanojoules : Nat} (h : Sound s₀ s) : Sound s₀ (s.latchTelemetry f nanojoules) :=
  (((h.wr.setFld.wr.each fun _ _ h => (Sound.ite h h.sf)).each fun _ _ h => h.wr).sf.sf.each fun _ _ h => h.wr).sf.when fun h => h.setPlanField

theorem escalate {f : Nat} (h : Sound s₀ s) : Sound s₀ (s.escalate f) :=
  (h.each fun _ _ h => (h.each fun _ _ h => h.setTil).beginReset).each fun _ _ h => (h.setTil.keep fun h => (h.setTil.logEv.keep fun h => h.dueDrain))

theorem residency {k : Nat} (h : Sound s₀ s) : Sound s₀ (s.residency k) := by
  unfold State.residency
  refine .each ?_ fun _ _ h => ?_
  · exact h
  · extract_lets _ _ s1 _ s2
    have h1 : Sound s₀ s1 := by
      unfold s1
      exact .retireAll h
    have h2 : Sound s₀ s2 := h1.setHslot
    split
    · exact h2.finishOp
    · split
      · exact .setHslot h
      · exact h

theorem repeatAll {f : Nat} (h : Sound s₀ s) : Sound s₀ (s.repeatAll f) :=
  Sound.ite h ((h.each fun _ _ h => h.updSec).each fun _ _ h => h.setFld.setTarget)

theorem joinBays {f : Nat} (h : Sound s₀ s) : Sound s₀ (s.joinBays f) :=
  Sound.ite h (h.upd.each fun _ _ h => (h.upd.when fun h => h.logEv.finishOp)).strand

end Sound

namespace Does
variable {s₀ s : State}

theorem execFieldWatchBegin {f at_ : Nat} (h : Sound s₀ s) : Does (f < 64) s₀ (execFieldWatchBegin f at_ s) := by
  unfold Machine.execFieldWatchBegin
  refine .onField ?_
  extract_lets _ _ s1
  have h1 : Sound s₀ s1 := h.advanceTo.noteSpan.checkHeartbeat
  refine .ite ?_ ?_
  · exact h
  · split
    · exact Sound.ite h.advanceTo.noteSpan.beginWatch h
    · exact Sound.ite h (h1.keep fun h => h.beginWatch)

theorem execBeaconMissed {f : Nat} (h : Sound s₀ s) : Does (f < 64) s₀ (execBeaconMissed f s) := by
  unfold Machine.execBeaconMissed
  refine .onField ?_
  extract_lets
  split
  · exact h
  · exact Sound.ite h (Sound.ite h.advanceTo.hset.sf.logEv.setFld.fogField h.advanceTo.hset.sf.logEv.beginWatch)

theorem execStationBeacon (h : Sound s₀ s) : Does True s₀ (execStationBeacon s) :=
  .next (Sound.ite h h.advanceTo.closeWatch.stopDue.sf.upd.takePeriod.takeSettle.intakeBlock.shiftSelections.beaconStep)

theorem execWorkBegin {f : Nat} (h : Sound s₀ s) : Does (f < 64) s₀ (execWorkBegin f s) :=
  .onField (Sound.ite h (h.advanceTo.setFld.each fun _ _ h => h.startDrain))

theorem execSettleBegin {f : Nat} (h : Sound s₀ s) : Does (f < 64) s₀ (execSettleBegin f s) :=
  .onField (Sound.ite h ((((h.advanceTo.each fun _ _ h => h.closeWork).setFld.each fun _ _ h => h.abandonLens).abandonMv.each fun _ _ h =>
    (h.each fun _ _ h => h.haltGroups)).each fun _ _ h => h.flushSector))

theorem execVerdictVote {to_ from_ sector : Nat} {readable : Bool} (h : Sound s₀ s) :
    Does (to_ < 64 ∧ from_ < 64) s₀ (execVerdictVote to_ from_ sector readable s) := by
  unfold Machine.execVerdictVote
  split
  · next hfrom => exact ⟨fun _ heq => (nomatch heq), fun ⟨_, hlt⟩ => absurd hlt (Nat.not_lt.2 hfrom)⟩
  · refine mono (.onField ?_) fun ⟨hto, _⟩ => hto
    split
    · exact h
    · exact h.keep fun h => h.setFld.keep fun h => h.hset.logEv

theorem execCommitPoint {f : Nat} (h : Sound s₀ s) : Does (f < 64) s₀ (execCommitPoint f s) :=
  .onField (Sound.ite h.heldCommit (Sound.ite h ((((h.advanceTo.each fun _ _ h => h.localSweep).setFld.recordVoids.each fun _ _ h =>
    h.flushSector).upd.each fun _ _ h => h.releaseDestages).dropFailedDestages.each fun _ _ h => (h.each fun _ _ h => h.readOutbox))))

theorem execHandoverBegin {f nanojoules : Nat} {margins : List Nat} {beat : Bool} (h :
    Sound s₀ s) : Does (f < 64) s₀ (execHandoverBegin f nanojoules margins beat s) :=
  .onField (Sound.ite h (((((((h.advanceTo.setFld.each fun _ _ h => h.epochHandover).each fun _ _ h =>
    h.countStalls.abortMoves).latchTelemetry.ageCheck.keep fun h => h.lateRound).repeatAll.each fun _ _ h =>
      h.checkSelection.residency).setTarget.upd.each fun _ _ h => h.retireBay).joinBays.handoverRamps.escalate.when fun h => h.sf).when fun h =>
        h.upd))

theorem execRestIntervalBegin {f senseMv : Nat} (h : Sound s₀ s) : Does (f < 64) s₀ (execRestIntervalBegin f senseMv s) :=
  .onField (Sound.ite h ((h.advanceTo.each fun _ _ h => h.suspendLens).setFld.sf.when fun h => h.hset.logEv).sf.sf)

end Does

end Sys2Proof.Machine
end

section
/-! SUPPORT. What every effect keeps: the definitions of Binding. -/

namespace Sys2Proof.Machine

namespace Sound
variable {s₀ s : State}

theorem endBind (h : Sound s₀ s) : Sound s₀ (s.endBind) := by
  unfold State.endBind
  split
  · extract_lets _ s1
    have h1 : Sound s₀ s1 := h.upd
    split
    · exact h1.upd.bindReport.finishOp
    · exact h1.upd.bindReport.finishOp
  · exact h

theorem beginBind {slot : Nat} (h : Sound s₀ s) : Sound s₀ (s.beginBind slot) := by
  unfold State.beginBind
  refine .ite ?_ ?_
  · exact h.mboxDone
  · refine .ite ?_ ?_
    · exact h.mboxDone
    · extract_lets s1 s2
      have h1 : Sound s₀ s1 := h.sf
      have h2 : Sound s₀ s2 := h1.sf.sf
      split
      · exact h1.bindReport.mboxDone
      · exact h2.upd

end Sound

namespace Does
variable {s₀ s : State}

theorem execBind {slot : Nat} (h : Sound s₀ s) : Does (slot < 65) s₀ (execBind slot s) :=
  .onUnit (Sound.ite h.endBind (h.takeMbox fun _ h => h.beginBind))

theorem execLiveRecord {kind source loc detail : Nat} (h : Sound s₀ s) : Does True s₀ (execLiveRecord kind source loc detail s) := .next h.liveRecord

end Does

end Sys2Proof.Machine
end

section
/-! SUPPORT. What every effect keeps: the definitions of Clocks. -/

namespace Sys2Proof.Machine

namespace Sound
variable {s₀ s : State}

theorem sourceLost {k : Nat} (h : Sound s₀ s) : Sound s₀ (s.sourceLost k) := h.sf.bump

theorem setLock {k : Nat} {lock : Bool} (h : Sound s₀ s) : Sound s₀ (s.setLock k lock) := (h.sf.when fun h => h.sf).keep fun h => h.hset

theorem stationClockLost (h : Sound s₀ s) : Sound s₀ (s.stationClockLost) := h.logEv.sf.foghorn

theorem linkDown {target : Nat} (h : Sound s₀ s) : Sound s₀ (s.linkDown target) := Sound.ite h.sf (Sound.ite h.sf.sf h.sf)

theorem restartReset {f pll : Nat} (h : Sound s₀ s) : Sound s₀ (s.restartReset f pll) := Sound.ite h.hset.logEv.upd h

theorem stopClock {i b : Nat} (h : Sound s₀ s) : Sound s₀ (s.stopClock i b) := h.sf

theorem startClock {i b : Nat} (h : Sound s₀ s) : Sound s₀ (s.startClock i b) := h.sf.keep fun h => (Sound.ite h.upd h.upd)

theorem setEnable {i v : Nat} (h : Sound s₀ s) : Sound s₀ (s.setEnable i v) :=
  h.sf.each fun _ _ h => (Sound.ite h.startClock (Sound.ite h.stopClock h))

end Sound

namespace Does
variable {s₀ s : State}

theorem execXaLoss (h : Sound s₀ s) : Does True s₀ (execXaLoss s) :=
  .next (Sound.ite h (h.sourceLost.upd.keep fun h => (Sound.ite h.stationClockLost (h.sf.sf.keep fun h => h.logEv.holdoverLimits))))

theorem execHoldoverSwitch (h : Sound s₀ s) : Does True s₀ (execHoldoverSwitch s) := by
  unfold Machine.execHoldoverSwitch
  refine .next ?_
  split
  · exact Sound.ite h h.advanceTo.sf
  · exact h

theorem execClockHoldoverEnd (h : Sound s₀ s) : Does True s₀ (execClockHoldoverEnd s) := .next (Sound.ite h h.sf.sf.sf.upd.logEv)

theorem execRefclkLost (h : Sound s₀ s) : Does True s₀ (execRefclkLost s) :=
  .next (Sound.ite h (((h.sourceLost.each fun _ _ h => (Sound.ite h.setLock h)).upd.when fun h => h.sf).each fun _ _ h => h.linkDown).logEv)

theorem execClockLoss {sirc : Bool} (h : Sound s₀ s) : Does True s₀ (execClockLoss sirc s) := by
  unfold Machine.execClockLoss
  extract_lets _ s1
  have h1 : Sound s₀ s1 := h.sourceLost
  exact .next (Sound.ite h (Sound.ite h1.logEv (h1.when fun h => h.stationClockLost)))

theorem execPllUnlock {pll : Nat} (h : Sound s₀ s) : Does (pll < 133) s₀ (execPllUnlock pll s) :=
  .onUnit (Sound.ite (Sound.ite h.restartReset h) (h.setLock.keep fun h => (Sound.ite h.logEv.fogField (h.each fun _ _ h => h.linkDown))))

theorem execSourceGood {source : Nat} (h : Sound s₀ s) : Does (source < 137) s₀ (execSourceGood source s) :=
  .onUnit (Sound.ite (Sound.ite h (Sound.ite (h.sf.each fun _ _ h => h.beginReset) (h.sf.when fun h => h.commandStation))) (Sound.ite h.setLock h))

theorem execFircTrim (h : Sound s₀ s) : Does True s₀ (execFircTrim s) := .next h

theorem execClkEnableWrite {req : Requester} {index value : Nat} (h : Sound s₀ s) : Does (index < 67) s₀ (execClkEnableWrite req index value s) := by
  unfold Machine.execClkEnableWrite
  refine .onUnit ?_
  split
  · exact h.setEnable
  · exact h.refuse

theorem execClockStop {index bit : Nat} (h : Sound s₀ s) : Does (index < 67) s₀ (execClockStop index bit s) := .onUnit (Sound.ite h.stopClock h)

theorem execClockLossEachMinute (h : Sound s₀ s) : Does True s₀ (execClockLossEachMinute s) := by
  unfold Machine.execClockLossEachMinute
  extract_lets _ _ s1
  have h1 : Sound s₀ s1 := by
    unfold s1
    split
    · exact h.advanceTo
    · exact h
  exact .next (Sound.ite h h1.upd.logEv)

end Does

end Sys2Proof.Machine
end

section
/-! SUPPORT. What every effect keeps: the definitions of TileArith. -/

namespace Sys2Proof.Machine

namespace Sound
variable {s₀ s : State}

theorem rLane {f : Word → Word → Word} {x : Ctx} (h : Sound s₀ s) : Sound s₀ (rLane f x s) := by
  unfold Machine.rLane
  split
  · exact h.execLane
  · exact h

theorem fLane {op : FVal → FVal → FVal → FVal} {x : Ctx} (h : Sound s₀ s) : Sound s₀ (fLane op x s) := by
  unfold Machine.fLane
  split
  · exact h.execLane
  · exact h

theorem sfuBody {x : Ctx} (h : Sound s₀ s) : Sound s₀ (sfuBody x s) := by
  unfold Machine.sfuBody
  split
  · exact Sound.ite h.issueTrap h.execLane.setTil
  · exact h

theorem immBody {x : Ctx} (h : Sound s₀ s) : Sound s₀ (immBody x s) := by
  unfold Machine.immBody
  split
  · exact h.execLane
  · exact h

end Sound

namespace Does
variable {s₀ s : State}

theorem execAdd {t g : Nat} (h : Sound s₀ s) : Does (t < 589824 ∧ g < 8) s₀ (execAdd t g s) := .onGroup (h.issueAs fun _ _ h => h.rLane)

theorem execSub {t g : Nat} (h : Sound s₀ s) : Does (t < 589824 ∧ g < 8) s₀ (execSub t g s) := .onGroup (h.issueAs fun _ _ h => h.rLane)

theorem execMul {t g : Nat} (h : Sound s₀ s) : Does (t < 589824 ∧ g < 8) s₀ (execMul t g s) := .onGroup (h.issueAs fun _ _ h => h.rLane)

theorem execAnd {t g : Nat} (h : Sound s₀ s) : Does (t < 589824 ∧ g < 8) s₀ (execAnd t g s) := .onGroup (h.issueAs fun _ _ h => h.rLane)

theorem execOr {t g : Nat} (h : Sound s₀ s) : Does (t < 589824 ∧ g < 8) s₀ (execOr t g s) := .onGroup (h.issueAs fun _ _ h => h.rLane)

theorem execXor {t g : Nat} (h : Sound s₀ s) : Does (t < 589824 ∧ g < 8) s₀ (execXor t g s) := .onGroup (h.issueAs fun _ _ h => h.rLane)

theorem execShl {t g : Nat} (h : Sound s₀ s) : Does (t < 589824 ∧ g < 8) s₀ (execShl t g s) := .onGroup (h.issueAs fun _ _ h => h.rLane)

theorem execShr {t g : Nat} (h : Sound s₀ s) : Does (t < 589824 ∧ g < 8) s₀ (execShr t g s) := .onGroup (h.issueAs fun _ _ h => h.rLane)

theorem execSar {t g : Nat} (h : Sound s₀ s) : Does (t < 589824 ∧ g < 8) s₀ (execSar t g s) := .onGroup (h.issueAs fun _ _ h => h.rLane)

theorem execMin {t g : Nat} (h : Sound s₀ s) : Does (t < 589824 ∧ g < 8) s₀ (execMin t g s) := .onGroup (h.issueAs fun _ _ h => h.rLane)

theorem execMax {t g : Nat} (h : Sound s₀ s) : Does (t < 589824 ∧ g < 8) s₀ (execMax t g s) := .onGroup (h.issueAs fun _ _ h => h.rLane)

theorem execMinu {t g : Nat} (h : Sound s₀ s) : Does (t < 589824 ∧ g < 8) s₀ (execMinu t g s) := .onGroup (h.issueAs fun _ _ h => h.rLane)

theorem execMaxu {t g : Nat} (h : Sound s₀ s) : Does (t < 589824 ∧ g < 8) s₀ (execMaxu t g s) := .onGroup (h.issueAs fun _ _ h => h.rLane)

theorem execMov {t g : Nat} (h : Sound s₀ s) : Does (t < 589824 ∧ g < 8) s₀ (execMov t g s) := .onGroup (h.issueAs fun _ _ h => h.rLane)

theorem execShfl {t g : Nat} (h : Sound s₀ s) : Does (t < 589824 ∧ g < 8) s₀ (execShfl t g s) := by
  unfold Machine.execShfl
  refine .onGroup ?_
  refine h.issueAs fun _ _ h => ?_
  split
  · exact .execLane h
  · exact h

theorem execMovi {t g : Nat} (h : Sound s₀ s) : Does (t < 589824 ∧ g < 8) s₀ (execMovi t g s) := .onGroup (h.issueAs fun _ _ h => h.immBody)

theorem execMovhi {t g : Nat} (h : Sound s₀ s) : Does (t < 589824 ∧ g < 8) s₀ (execMovhi t g s) := .onGroup (h.issueAs fun _ _ h => h.immBody)

theorem execAddi {t g : Nat} (h : Sound s₀ s) : Does (t < 589824 ∧ g < 8) s₀ (execAddi t g s) := .onGroup (h.issueAs fun _ _ h => h.immBody)

theorem execFadd {t g : Nat} (h : Sound s₀ s) : Does (t < 589824 ∧ g < 8) s₀ (execFadd t g s) := .onGroup (h.issueAs fun _ _ h => h.fLane)

theorem execFsub {t g : Nat} (h : Sound s₀ s) : Does (t < 589824 ∧ g < 8) s₀ (execFsub t g s) := .onGroup (h.issueAs fun _ _ h => h.fLane)

theorem execFmul {t g : Nat} (h : Sound s₀ s) : Does (t < 589824 ∧ g < 8) s₀ (execFmul t g s) := .onGroup (h.issueAs fun _ _ h => h.fLane)

theorem execFma {t g : Nat} (h : Sound s₀ s) : Does (t < 589824 ∧ g < 8) s₀ (execFma t g s) := .onGroup (h.issueAs fun _ _ h => h.fLane)

theorem execFmin {t g : Nat} (h : Sound s₀ s) : Does (t < 589824 ∧ g < 8) s₀ (execFmin t g s) := .onGroup (h.issueAs fun _ _ h => h.fLane)

theorem execFmax {t g : Nat} (h : Sound s₀ s) : Does (t < 589824 ∧ g < 8) s₀ (execFmax t g s) := .onGroup (h.issueAs fun _ _ h => h.fLane)

theorem execDot {t g : Nat} (h : Sound s₀ s) : Does (t < 589824 ∧ g < 8) s₀ (execDot t g s) := by
  unfold Machine.execDot
  refine .onGroup ?_
  refine h.issueAs fun _ _ h => ?_
  split
  · exact .execLane h
  · exact h

theorem execCmp {t g : Nat} (h : Sound s₀ s) : Does (t < 589824 ∧ g < 8) s₀ (execCmp t g s) := by
  unfold Machine.execCmp
  refine .onGroup ?_
  refine h.issueAs fun _ _ h => ?_
  split
  · exact .execPred h
  · exact h

theorem execPlog {t g : Nat} (h : Sound s₀ s) : Does (t < 589824 ∧ g < 8) s₀ (execPlog t g s) := by
  unfold Machine.execPlog
  refine .onGroup ?_
  refine h.issueAs fun _ _ h => ?_
  split
  · exact .execPred h
  · exact h

theorem execPfromu {t g : Nat} (h : Sound s₀ s) : Does (t < 589824 ∧ g < 8) s₀ (execPfromu t g s) := by
  unfold Machine.execPfromu
  refine .onGroup ?_
  refine h.issueAs fun _ _ h => ?_
  split
  · extract_lets s1
    have h1 : Sound s₀ s1 := by
      unfold s1
      exact .retire h
    exact h1.setGrp
  · exact h

theorem execUfromp {t g : Nat} (h : Sound s₀ s) : Does (t < 589824 ∧ g < 8) s₀ (execUfromp t g s) := by
  unfold Machine.execUfromp
  refine .onGroup ?_
  refine h.issueAs fun _ _ h => ?_
  split
  · exact .execLane h
  · exact h

theorem execCvt {t g : Nat} (h : Sound s₀ s) : Does (t < 589824 ∧ g < 8) s₀ (execCvt t g s) := by
  unfold Machine.execCvt
  refine .onGroup ?_
  refine h.issueAs fun _ _ h => ?_
  split
  · exact .execLane h
  · exact h

theorem execSfu {t g : Nat} (h : Sound s₀ s) : Does (t < 589824 ∧ g < 8) s₀ (execSfu t g s) := .onGroup (h.issueAs fun _ _ h => h.sfuBody)

end Does

end Sys2Proof.Machine
end

section
/-! SUPPORT. What every effect keeps: the definitions of Debug. -/

namespace Sys2Proof.Machine

namespace Sound
variable {s₀ s : State}

theorem debugAuth {u sub : Nat} {masks : List Nat} {act : State → State} (h : Sound s₀ s) (hact : ∀ s, Sound s₀ s → Sound s₀ (act s)) :
    Sound s₀ (s.debugAuth u sub masks act) := h.keep fun h => h.takeMbox hact

theorem denyResponse {u check : Nat} (h : Sound s₀ s) : Sound s₀ (s.denyResponse u check) := (h.logEv.upd.when fun h => h.upd.logEv).mboxDone

theorem noteDebug {req : Requester} {t k : Nat} (h : Sound s₀ s) : Sound s₀ (s.noteDebug req t k) := by
  unfold State.noteDebug
  split
  · exact h.upd
  · exact h.upd
  · exact h.upd

theorem groupControl {req : Requester} {t g : Nat} {act : State → State} (h : Sound s₀ s) (hact : ∀ s, Sound s₀ s → Sound s₀ (act s)) :
    Sound s₀ (s.groupControl req t g act) := .ite (hact _ h) h.refuse

theorem dbgPut {t g i : Nat} {v : Word} (h : Sound s₀ s) : ∀ u ∈ s.dbgPut t g i v, Sound s₀ u := by
  unfold State.dbgPut
  extract_lets x drop clear preds c pc
  intro u hu
  split at hu
  · exact Option.some.inj hu ▸ h.setGrp.setGrp
  · split at hu
    · exact Option.some.inj hu ▸ h.setGrp.setGrp
    · split at hu
      · exact Option.some.inj hu ▸ h.setGrp
      · split at hu
        · exact Option.some.inj hu ▸ h.setGrp
        · split at hu
          · exact Option.some.inj hu ▸ h.setGrp
          · split at hu
            · exact Option.some.inj hu ▸ h.setGrp
            · nomatch hu

end Sound

namespace Does
variable {s₀ s : State}

theorem execDebugAuthChallenge {slot : Nat} (h : Sound s₀ s) : Does True s₀ (execDebugAuthChallenge slot s) :=
  .next (h.debugAuth fun _ h => (Sound.ite h.logEv.mboxDone h.upd.mboxDone))

theorem execDebugAuthResponse {slot : Nat} {keyOk sigOk : Bool} (h : Sound s₀ s) : Does True s₀ (execDebugAuthResponse slot keyOk sigOk s) := by
  unfold Machine.execDebugAuthResponse
  extract_lets
  exact .next (h.debugAuth fun _ h => (Sound.ite h.mboxDone (Sound.ite h.upd.logEv.mboxDone (Sound.ite h.upd.denyResponse
      (Sound.ite h.upd.denyResponse h.upd.endSession.sf.sf.sf.wr.upd.logEv.mboxDone)))))

theorem execDebugAuthEnd {slot : Nat} (h : Sound s₀ s) : Does True s₀ (execDebugAuthEnd slot s) := by
  unfold Machine.execDebugAuthEnd
  exact .ite (.next (h.debugAuth fun _ h => h.mboxDone)) (.next (h.debugAuth fun _ h => h.endSession.mboxDone))

theorem execDebugSessionExpiry {port : Nat} (h : Sound s₀ s) : Does (port < 5) s₀ (execDebugSessionExpiry port s) := by
  unfold Machine.execDebugSessionExpiry
  refine .onUnit ?_
  split
  · exact h.advanceTo.endSession
  · exact h

theorem execHalt {req : Requester} {t g : Nat} (h : Sound s₀ s) : Does (t < 589824 ∧ g < 8) s₀ (execHalt req t g s) :=
  .onGroup (h.groupControl fun _ h => (h.sf.noteDebug.when fun h => h.haltGroup))

theorem execStep {req : Requester} {t g : Nat} (h : Sound s₀ s) : Does (t < 589824 ∧ g < 8) s₀ (execStep req t g s) :=
  .onGroup (h.groupControl fun _ h => (Sound.ite h.noteDebug.setGrp h))

theorem execResume {req : Requester} {t g : Nat} (h : Sound s₀ s) : Does (t < 589824 ∧ g < 8) s₀ (execResume req t g s) := by
  unfold Machine.execResume
  refine .onGroup ?_
  refine h.groupControl fun _ h => ?_
  split
  · exact h.upd.releaseGroup
  · exact .ite (.haltGroup h) (.setGrp h)
  · exact h

theorem execBreakpoint {t g : Nat} (h : Sound s₀ s) : Does (t < 589824 ∧ g < 8) s₀ (execBreakpoint t g s) := by
  unfold Machine.execBreakpoint
  refine .onGroup ?_
  extract_lets
  split
  · refine .ite ?_ ?_
    · extract_lets s1
      have h1 : Sound s₀ s1 := by
        unfold s1
        split
        · exact h.upd
        · exact h
      exact h1.haltGroup.logEv
    · exact h
  · exact h

theorem execOf {m : Mnem} {t g : Nat} (h : Sound s₀ s) : Does (t < 589824 ∧ g < 8) s₀ (execOf m t g s) := by
  cases m with
  | nop => exact execNop h
  | end_ => exact execEnd h
  | bra => exact execBra h
  | bany => exact execBany h
  | bnone => exact execBnone h
  | pushif => exact execPushif h
  | else_ => exact execElse h
  | pop => exact execPop h
  | mask => exact execMask h
  | badd => exact execBadd h
  | barrive => exact execBarrive h
  | bset => exact execBset h
  | bclear => exact execBclear h
  | bawaitge => exact execBawaitge h
  | bawaitflag => exact execBawaitflag h
  | add => exact execAdd h
  | sub => exact execSub h
  | mul => exact execMul h
  | and => exact execAnd h
  | or => exact execOr h
  | xor => exact execXor h
  | shl => exact execShl h
  | shr => exact execShr h
  | sar => exact execSar h
  | min => exact execMin h
  | max => exact execMax h
  | minu => exact execMinu h
  | maxu => exact execMaxu h
  | shfl => exact execShfl h
  | mov => exact execMov h
  | movi => exact execMovi h
  | movhi => exact execMovhi h
  | addi => exact execAddi h
  | fadd => exact execFadd h
  | fsub => exact execFsub h
  | fmul => exact execFmul h
  | fma => exact execFma h
  | fmin => exact execFmin h
  | fmax => exact execFmax h
  | dot => exact execDot h
  | cmp => exact execCmp h
  | plog => exact execPlog h
  | pfromu => exact execPfromu h
  | ufromp => exact execUfromp h
  | cvt => exact execCvt h
  | sfu => exact execSfu h
  | specBegin => exact execSpecBegin h
  | specEnd => exact execSpecEnd h
  | specConfirm => exact execSpecConfirm h
  | specSquash => exact execSpecSquash h
  | ld => exact execLd h
  | st => exact execSt h
  | rld => exact execRld h
  | rldu => exact execRldu h
  | rst => exact execRst h
  | sendw => exact execSendw h
  | sendv => exact execSendv h
  | sendm => exact execSendm h

theorem execStepIssue {t g : Nat} (h : Sound s₀ s) : Does (t < 589824 ∧ g < 8) s₀ (execStepIssue t g s) := by
  unfold Machine.execStepIssue
  extract_lets x s1 m
  split
  · next hbad =>
    refine ⟨fun _ heq => (nomatch heq), fun ⟨ht, hg⟩ => ?_⟩
    simp [isTile, ht, Nat.not_le.2 hg] at hbad
  · refine .ite (.next h) ?_
    have ho : Does (t < 589824 ∧ g < 8) s₀ (Machine.execOf m t g s1) := execOf h.setGrp
    split
    · next s2 heq =>
      have h2 : Sound s₀ s2 := ho.sound _ heq
      extract_lets s3 y
      have h3 : Sound s₀ s3 := h2.upd
      exact .ite (.next h) (.ite (.next h3.haltGroup) (.next h3))
    · exact ho

theorem execDbgRegWrite {req : Requester} {f index : Nat} {value : Word} (h :
    Sound s₀ s) : Does (f < 64) s₀ (execDbgRegWrite req f index value s) := by
  exact .onField (h.keep fun h => .ite h.refuse (.getD (Sound.dbgPut h) h.refuse))

theorem execEventRingWrite {f : Nat} (h : Sound s₀ s) : Does (f < 64) s₀ (execEventRingWrite f s) := by
  unfold Machine.execEventRingWrite
  refine .onField ?_
  extract_lets _ s1
  have h1 : Sound s₀ s1 := h.advanceTo
  split
  · exact h
  · exact Sound.ite h h1.setRing

end Does

end Sys2Proof.Machine
end

section
/-! SUPPORT. What every effect keeps: the definitions of Loading. -/

namespace Sys2Proof.Machine

namespace Sound
variable {s₀ s : State}

theorem reject {stage code sec record : Nat} (h : Sound s₀ s) : Sound s₀ (s.reject stage code sec record) := h.sf.sf.sf.sf.sf.logEv.finishOp

theorem replaceCandidate {slot : Nat} {image : Option Image} (h : Sound s₀ s) : Sound s₀ (s.replaceCandidate slot image) := by
  unfold State.replaceCandidate
  extract_lets s1 s2 s3 s4
  have h1 : Sound s₀ s1 := Sound.ite h.finishOp h
  have h2 : Sound s₀ s2 := h1.upd
  have h3 : Sound s₀ s3 := h2.sf
  have h4 : Sound s₀ s4 := h3.wr.wr
  split
  · exact h4.sf
  · exact h4.reject

theorem restartSectors {secs : List Nat} (h : Sound s₀ s) : Sound s₀ (s.restartSectors secs) := (h.each fun _ _ h => h.updSec).upd

theorem raiseFloors {img : Image} (h : Sound s₀ s) : Sound s₀ (s.raiseFloors img) := Sound.ite h ((Sound.ite h.logEv h).each fun _ _ h => h.ledger)

theorem restartImage {slot : Nat} (h : Sound s₀ s) : Sound s₀ (s.restartImage slot) := by
  unfold State.restartImage
  refine .ite ?_ ?_
  · exact h.mboxDone
  · extract_lets s1 s2
    have h1 : Sound s₀ s1 := h.sf.restartSectors
    have h2 : Sound s₀ s2 := by
      unfold s2
      split
      · exact h1.raiseFloors
      · exact h1
    exact h2.mboxDone

theorem beginLoad {slot : Nat} {kind : LoadKind} {secs : List Nat} (h : Sound s₀ s) : Sound s₀ (s.beginLoad slot kind secs) := h.engageLock.upd

theorem startLoad {slot n : Nat} (h : Sound s₀ s) : Sound s₀ (s.startLoad slot n) := Sound.ite h.mboxDone (Sound.ite h.unload h).sf.beginLoad

theorem startPatch {slot : Nat} {base p : Image} {ids : List Nat} (h : Sound s₀ s) : Sound s₀ (s.startPatch slot base p ids) :=
  Sound.ite h.mboxDone (Sound.ite h.mboxDone (Sound.ite h.mboxDone (Sound.ite h.sf.mboxDone h.sf.beginLoad)))

theorem startRestore {slot : Nat} {img : Image} {ids : List Nat} (h : Sound s₀ s) : Sound s₀ (s.startRestore slot img ids) :=
  Sound.ite h.mboxDone (Sound.ite h.mboxDone (Sound.ite h.mboxDone (Sound.ite h.mboxDone h.sf.beginLoad)))

theorem startQuiesced {slot : Nat} {ids : List Nat} (h : Sound s₀ s) : Sound s₀ (s.startQuiesced slot ids) :=
  Sound.ite h.mboxDone (Sound.ite h.mboxDone (Sound.ite h.mboxDone h.restartSectors.mboxDone))

theorem startCommand {slot n : Nat} {ids : List Nat} (h : Sound s₀ s) : Sound s₀ (s.startCommand slot n ids) := by
  unfold State.startCommand
  refine .ite ?_ ?_
  · exact h.mboxDone
  · refine .ite ?_ ?_
    · split
      · exact Sound.ite h.mboxDone h.startRestore
      · exact h
    · refine .ite ?_ ?_
      · split
        · exact h.startPatch
        · exact h.mboxDone
      · exact Sound.ite h.startLoad (Sound.ite h.restartImage h.startQuiesced)

theorem bindRings {img : Image} (h : Sound s₀ s) : Sound s₀ (s.bindRings img) := h.upd

theorem writeBounds {img : Image} (h : Sound s₀ s) : Sound s₀ (s.writeBounds img) := h.each fun _ _ h => (h.each fun _ _ h => h.wr)

theorem writeImage {img : Image} {bt : BindTable} (h : Sound s₀ s) : Sound s₀ (s.writeImage img bt) :=
  ((((h.setSettle.writeFields.each fun _ _ h => h.writeRouter).each fun _ _ h => (h.each fun _ _ h => h.sf)).each fun _ _ h =>
    h.writeTree).each fun _ _ h => h.writeTile).writeBounds.upd

theorem acceptImage {img : Image} {bt : BindTable} (h : Sound s₀ s) : Sound s₀ (s.acceptImage img bt) :=
  ((h.upd.bindRings.sf.wr.wr.each fun _ _ h => h.wr).wr.wr.sf.each fun _ _ h => h.resourceLost).raiseFloors.finishOp.engageLock

theorem patchSector {img : Image} {bt : BindTable} {k : Nat} (h : Sound s₀ s) : Sound s₀ (s.patchSector img bt k) :=
  ((h.each fun _ _ h => h.resetForPatch.writeRouter).each fun _ _ h => h.writeTile).each fun _ _ h => h.wr

theorem endStart (h : Sound s₀ s) : Sound s₀ (s.endStart) := h.upd.wr.wr.finishOp.engageLock

theorem mirrorCopy {t inactive : Nat} (h : Sound s₀ s) : Sound s₀ (s.mirrorCopy t inactive) := h.each fun _ _ h => (Sound.ite h h.wr)

theorem restoreRoutes {img : Image} {bt : BindTable} {ids : List Nat} {k : Nat} (h : Sound s₀ s) : Sound s₀ (s.restoreRoutes img bt ids k) :=
  Sound.ite (h.each fun _ _ h => h.writeRouter) (((h.each fun _ _ h => h.writeRouter).each fun _ _ h => (h.each fun _ _ h =>
    h.mirrorCopy)).each fun _ _ h => h.sf.sf.setFld)

theorem restoreFields {img : Image} {bt : BindTable} (h : Sound s₀ s) : Sound s₀ (s.restoreFields img bt) :=
  h.writeFields.each fun _ _ h => h.writeTree

end Sound

namespace Does
variable {s₀ s : State}

theorem execLoadImage {slot : Nat} {image : Option Image} (h : Sound s₀ s) : Does (slot < 65) s₀ (execLoadImage slot image s) :=
  .onUnit (h.takeMbox fun _ h => (Sound.ite h.mboxDone (Sound.ite h.mboxDone h.replaceCandidate)))

theorem execImageValidation (h : Sound s₀ s) : Does True s₀ (execImageValidation s) := by
  unfold Machine.execImageValidation
  refine .next ?_
  refine .ite ?_ ?_
  · exact h
  · split
    · exact h
    · split
      · exact h.reject
      · exact h.sf.sf.finishOp

theorem execStart {slot : Nat} {list : Option (List Nat)} (h : Sound s₀ s) : Does (slot < 65) s₀ (execStart slot list s) := by
  unfold Machine.execStart
  refine .onUnit ?_
  extract_lets
  refine h.takeMbox fun _ h => ?_
  refine .ite ?_ ?_
  · exact .mboxDone h
  · refine .ite ?_ ?_
    · exact .startCommand h
    · split
      · exact .startCommand h
      · exact .mboxDone h

theorem execStop {slot : Nat} (h : Sound s₀ s) : Does (slot < 65) s₀ (execStop slot s) :=
  .onUnit (h.takeMbox fun _ h => (Sound.ite h.mboxDone (Sound.ite h.mboxDone h.upd)))

theorem execImageLoadComplete {fault cycle : Option Nat} (h : Sound s₀ s) : Does True s₀ (execImageLoadComplete fault cycle s) := by
  refine Does.next ?_
  split
  · split
    · exact h.failLoading
    · extract_lets found s1
      clear_value found
      split
      · exact Sound.failLoading h.logEv
      · exact .ite h.writeImage.failLoading h.writeImage.acceptImage
  · exact h

theorem execPatchApplyComplete {fault : Bool} (h : Sound s₀ s) : Does True s₀ (execPatchApplyComplete fault s) := by
  unfold Machine.execPatchApplyComplete
  refine .next ?_
  split
  · exact Sound.ite h.failLoading ((h.each fun _ _ h => h.patchSector).each fun _ _ h => h.updSec).restartSectors.sf.upd.endStart
  · exact h

theorem execRestoreComplete {fault : Bool} (h : Sound s₀ s) : Does True s₀ (execRestoreComplete fault s) := by
  unfold Machine.execRestoreComplete
  refine .next ?_
  split
  · exact Sound.ite h.failLoading (((((h.each fun _ _ h => h.logEv).restoreFields.each fun _ _ h => h.writeTile).each fun _ _ h =>
        h.restoreRoutes).each fun _ _ h => h.updSec).each fun _ _ h => (h.each fun _ _ h => h.wr)).upd.restartSectors.endStart
  · exact h

end Does

end Sys2Proof.Machine
end

section
/-! SUPPORT. What every effect keeps: the definitions of Mailbox. -/

namespace Sys2Proof.Machine

namespace Sound
variable {s₀ s : State}

theorem setPending {p e : Nat} (h : Sound s₀ s) : Sound s₀ (s.setPending p e) := h.upd.wr.sf

theorem takeQuery {slot : Nat} {kind : Nat → Bool} {masks : List Nat} {act : State → State} (h : Sound s₀ s)
    (hact : ∀ s, Sound s₀ s → Sound s₀ (act s)) : Sound s₀ (s.takeQuery slot kind masks act) := h.when fun h => h.takeMbox hact

theorem register {u : Nat} (h : Sound s₀ s) : Sound s₀ (s.register u) := (h.keepSnapshot.upd.keep fun h => h.setHslot).mboxDone

end Sound

namespace Does
variable {s₀ s : State}

theorem execDrainSector {slot : Nat} (h : Sound s₀ s) : Does (slot < 65) s₀ (execDrainSector slot s) :=
  .onUnit (h.takeMbox fun _ h => (Sound.ite h.mboxDone (Sound.ite h.mboxDone (Sound.ite h.mboxDone (Sound.ite h.mboxDone h.upd.dueDrain)))))

theorem execRetireBay {slot : Nat} (h : Sound s₀ s) : Does (slot < 65) s₀ (execRetireBay slot s) :=
  .onUnit (h.takeMbox fun _ h => (Sound.ite h.mboxDone (Sound.ite h.mboxDone h.upd)))

theorem execReturnBay {slot : Nat} (h : Sound s₀ s) : Does (slot < 65) s₀ (execReturnBay slot s) :=
  .onUnit (h.takeMbox fun _ h => (Sound.ite h.mboxDone (Sound.ite h.mboxDone h.upd.askRamp)))

theorem execBayBist {bay : Nat} {bad : List (Nat × Nat × Nat)} (h : Sound s₀ s) : Does (bay < 2304) s₀ (execBayBist bay bad s) :=
  .onUnit (Sound.ite h (Sound.ite (Sound.ite h.testRecords h.failRecords).openGate.finishOp (Sound.ite h.testRecords h.failRecords).upd))

theorem execSetCap {slot : Nat} (h : Sound s₀ s) : Does (slot < 65) s₀ (execSetCap slot s) :=
  .onUnit (Sound.ite h (Sound.ite h.upd.mboxDone (Sound.ite h.upd.mboxDone (Sound.ite h
    (Sound.ite h.upd.advanceTo.mboxDone h.upd.advanceTo.sf.mboxDone)))))

theorem execSetPeriod {slot : Nat} (h : Sound s₀ s) : Does (slot < 65) s₀ (execSetPeriod slot s) := by
  unfold Machine.execSetPeriod
  refine .onUnit ?_
  refine h.takeMbox fun _ h => ?_
  extract_lets
  refine .ite ?_ ?_
  · exact .mboxDone h
  · refine .ite ?_ ?_
    · exact .mboxDone h
    · split
      · exact .mboxDone (.setPending h)
      · exact .ite (.mboxDone (.setPending h)) h.upd.mboxDone

theorem execQueryFirmware {slot : Nat} (h : Sound s₀ s) : Does (slot < 65) s₀ (execQueryFirmware slot s) :=
  .onUnit (h.takeQuery fun _ h => (Sound.ite h.mboxDone h.mboxDone))

theorem execQueryTenant {slot : Nat} (h : Sound s₀ s) : Does (slot < 65) s₀ (execQueryTenant slot s) := by
  unfold Machine.execQueryTenant
  refine .onUnit ?_
  refine h.takeQuery fun _ h => ?_
  extract_lets
  split
  · exact .mboxDone h
  · exact .mboxDone h

theorem execQueryResidency {slot : Nat} (h : Sound s₀ s) : Does (slot < 65) s₀ (execQueryResidency slot s) :=
  .onUnit (h.takeQuery fun _ h => (Sound.ite h.mboxDone h.mboxDone))

theorem execRegisterTenant {slot : Nat} (h : Sound s₀ s) : Does (slot < 65) s₀ (execRegisterTenant slot s) :=
  .onUnit (h.takeMbox fun _ h => (Sound.ite h.mboxDone (Sound.ite h.mboxDone (Sound.ite h.mboxDone (Sound.ite h.mboxDone h.register)))))

theorem execEvictTenant {slot : Nat} (h : Sound s₀ s) : Does (slot < 65) s₀ (execEvictTenant slot s) := by
  unfold Machine.execEvictTenant
  refine .onUnit ?_
  refine h.takeMbox fun _ h => ?_
  extract_lets
  refine .ite ?_ ?_
  · exact .mboxDone h
  · split
    · exact .mboxDone h
    · refine .ite ?_ ?_
      · exact .mboxDone h
      · extract_lets _ s1
        have h1 : Sound s₀ s1 := by
          unfold s1
          exact .setHslot h
        exact h1.upd

theorem execBadOpcode {slot : Nat} (h : Sound s₀ s) : Does (slot < 65) s₀ (execBadOpcode slot s) := .onUnit (Sound.ite h h.upd.mboxDone)

end Does

end Sys2Proof.Machine
end

section
/-! SUPPORT. What every effect keeps: the definitions of Keepers. -/

namespace Sys2Proof.Machine

namespace Sound
variable {s₀ s : State}

theorem writeWafer {e : Nat × Nat × BitVec 64} (h : Sound s₀ s) : Sound s₀ (s.writeWafer e) := Sound.ite h h.wr.wr

end Sound

namespace Does
variable {s₀ s : State}

theorem execWatchdogFeed {port value : Nat} (h : Sound s₀ s) : Does (port < 4) s₀ (execWatchdogFeed port value s) := .onUnit h.upd.sf

theorem execStnWdogAck {req : Requester} (h : Sound s₀ s) : Does True s₀ (execStnWdogAck req s) := .next (Sound.ite h.refuse (Sound.ite h h.sf.upd))

theorem execStationWatchdog (h : Sound s₀ s) : Does True s₀ (execStationWatchdog s) :=
  .next (Sound.ite h (Sound.ite h.advanceTo.upd.sf.logEv (Sound.ite h.advanceTo.upd.sf.logEv.failover h.advanceTo.upd.sf.logEv.failover.foghorn)))

theorem execKeeperFailover (h : Sound s₀ s) : Does True s₀ (execKeeperFailover s) := .next (Sound.ite h h.failover)

theorem execFoghornAutoReset (h : Sound s₀ s) : Does True s₀ (execFoghornAutoReset s) := by
  unfold Machine.execFoghornAutoReset
  refine .next ?_
  split
  · exact h
  · exact h.advanceTo.upd.beginReset

theorem execLockstepFault {f : Nat} (h : Sound s₀ s) : Does (f < 64) s₀ (execLockstepFault f s) := .onField (Sound.ite h h.logEv.restartKeeper)

theorem execKeeperRestartComplete {f : Nat} (h : Sound s₀ s) : Does (f < 64) s₀ (execKeeperRestartComplete f s) := .onField (Sound.ite h h.sf.upd)

theorem execKeeperRestartTimeout {f : Nat} (h : Sound s₀ s) : Does (f < 64) s₀ (execKeeperRestartTimeout f s) := by
  unfold Machine.execKeeperRestartTimeout
  refine .onField ?_
  split
  · exact h
  · exact Sound.ite h h.advanceTo.upd.fogField

theorem execWaferEntryRewrite {f : Nat} {entries : List (Nat × Nat × BitVec 64)} (h :
    Sound s₀ s) : Does (f < 64) s₀ (execWaferEntryRewrite f entries s) :=
  .onField (h.upd.each fun _ _ h => h.writeWafer)

theorem execFogHoldExpiry {f : Nat} (h : Sound s₀ s) : Does (f < 64) s₀ (execFogHoldExpiry f s) := .onField (Sound.ite h h.advanceTo.beginReset)

theorem execBcnPeriodWrite {req : Requester} {value : Nat} (h : Sound s₀ s) : Does True s₀ (execBcnPeriodWrite req value s) := by
  unfold Machine.execBcnPeriodWrite
  extract_lets
  exact .next (Sound.ite h.refuse h.upd.noteRwl)

theorem execBcnSettleLenWrite {req : Requester} {value : Nat} (h : Sound s₀ s) : Does True s₀ (execBcnSettleLenWrite req value s) := by
  unfold Machine.execBcnSettleLenWrite
  extract_lets
  exact .next (Sound.ite h.setSettle h.refuse)

theorem execSmbusClockLowTimeout {bus : Nat} (h : Sound s₀ s) : Does (bus < 2) s₀ (execSmbusClockLowTimeout bus s) := .onUnit h.refuse

end Does

end Sys2Proof.Machine
end

section
/-! SUPPORT. What every effect keeps: the definitions of Peers. -/

namespace Sys2Proof.Machine

namespace Sound
variable {s₀ s : State}

theorem receive {k : Nat} {good : Bool} {seq : Nat} {act : State → State} (h : Sound s₀ s) (hact : ∀ s, Sound s₀ s → Sound s₀ (act s)) :
    Sound s₀ (s.receive k good seq act) := h.keep fun h => .ite h.bump.logEv.beginReset (hact _ h.setJlf)

theorem grant {k units : Nat} (h : Sound s₀ s) : Sound s₀ (s.grant k units) := Sound.ite h h.sendFrame

theorem takeRelayed {r : Nat} {e : List Nat} (h : Sound s₀ s) : Sound s₀ (s.takeRelayed r e) := by
  unfold State.takeRelayed
  split
  · exact h.queueResults
  · exact h.takeEntry.setHring

theorem breakJob {k : Nat} (h : Sound s₀ s) : Sound s₀ (s.breakJob k) := (h.each fun _ _ h => h.disableRing).sf

theorem selfBreak {k : Nat} (h : Sound s₀ s) : Sound s₀ (s.selfBreak k) := Sound.ite h h.breakJob.logEv.sendNotice

end Sound

namespace Does
variable {s₀ s : State}

theorem execJalfenData {link : Nat} {good : Bool} {seq ring : Nat} {entries : List (List Nat)} (h :
    Sound s₀ s) : Does (link < 8) s₀ (execJalfenData link good seq ring entries s) :=
  .onUnit (h.receive fun _ h => (Sound.ite h (h.each fun _ _ h => h.takeRelayed)).grant)

theorem execJalfenCredit {link : Nat} {good : Bool} {seq grant : Nat} (h :
    Sound s₀ s) : Does (link < 8) s₀ (execJalfenCredit link good seq grant s) :=
  .onUnit (h.receive fun _ h => (h.setJlf.each fun _ _ h => h.retirePushed))

theorem execJalfenBeat {link : Nat} {good : Bool} {seq : Nat} (h : Sound s₀ s) : Does (link < 8) s₀ (execJalfenBeat link good seq s) :=
  .onUnit (h.receive fun _ h => h.setJlf)

theorem execJalfenKeeper {link : Nat} {good : Bool} {seq : Nat} (h : Sound s₀ s) : Does (link < 8) s₀ (execJalfenKeeper link good seq s) :=
  .onUnit (h.receive fun _ h => h)

theorem execJalfenIdleBeat {link : Nat} (h : Sound s₀ s) : Does (link < 8) s₀ (execJalfenIdleBeat link s) :=
  .onUnit (Sound.ite h.advanceTo.sendFrame h)

theorem execJalfenNotice {link : Nat} {good : Bool} {seq kind wafer job code : Nat} (h :
    Sound s₀ s) : Does (link < 8) s₀ (execJalfenNotice link good seq kind wafer job code s) :=
  .onUnit (h.receive fun _ h => (Sound.ite h.peerRecord.hset.peerIrq.logEv (Sound.ite h.peerRecord.hset.selfBreak h.peerRecord.hset.logEv)))

theorem execPeerLost {link : Nat} (h : Sound s₀ s) : Does (link < 8) s₀ (execPeerLost link s) :=
  .onUnit (Sound.ite h (Sound.ite h.advanceTo.hset.peerIrq.logEv h.advanceTo.hset.selfBreak))

theorem execPeerBreak {req : Requester} {link : Nat} (h : Sound s₀ s) : Does (link < 8) s₀ (execPeerBreak req link s) :=
  .onUnit (Sound.ite h.refuse (Sound.ite h h.breakJob.sendNotice))

theorem execPeerClear {req : Requester} {link : Nat} (h : Sound s₀ s) : Does (link < 8) s₀ (execPeerClear req link s) :=
  .onUnit (Sound.ite h.refuse (Sound.ite h.sf h))

end Does

end Sys2Proof.Machine
end

section
/-! SUPPORT. What every effect keeps: the definitions of Registers. -/

namespace Sys2Proof.Machine

namespace Sound
variable {s₀ s : State}

theorem readReg {req : Requester} {k : RegKey} {word addr : Nat} (h : Sound s₀ s) : Sound s₀ (s.readReg req k word addr).1 := by
  unfold State.readReg
  split
  · exact h.refuse
  · extract_lets v sel
    split
    · exact h
    · split
      · exact h.set rfl
      · split
        · exact h
        · split
          · exact h.set rfl
          · exact h

theorem readAt {req : Requester} {addr : Nat} (h : Sound s₀ s) : Sound s₀ (s.readAt req addr).1 := by
  unfold State.readAt
  extract_lets f off p
  clear_value p
  split
  · exact h.refuse
  · split
    · exact h.gatedAccess
    · split
      · exact h.readReg.tickFresh
      · split
        · exact h
        · split
          · exact h.windowEcc
          · exact h.queueWindow
      · exact h
      · exact h
      · exact h
      · exact h

theorem outcomeOr {p : Prop} {o : Host.Outcome State Fault Refusal} (h : Sound s₀ s) (ho : Does p s₀ o) : Sound s₀ (outcomeOr o s) := by
  unfold Machine.outcomeOr
  split
  · exact ho.sound _ rfl
  · exact h

theorem store {req : Requester} {k : RegKey} {word addr : Nat} {v : Word} (h : Sound s₀ s) : Sound s₀ (s.store req k word addr v) :=
  Sound.ite (Sound.ite h h.wr).refuse ((Sound.ite h h.wr).when fun h => h.noteRwl)

theorem postMbox {u op : Nat} (h : Sound s₀ s) : Sound s₀ (s.postMbox u op) := (h.wr.each fun _ _ h => h.wr).upd

theorem writeTgpCtl {req : Requester} {t g v : Nat} (h : Sound s₀ s) : Sound s₀ (s.writeTgpCtl req t g v) := by
  unfold State.writeTgpCtl
  extract_lets s1 s2 s3
  have h1 : Sound s₀ s1 := h.sf
  have h3 : Sound s₀ s3 := .ite (h1.outcomeOr (Does.execHalt h1)) (Sound.sf (h1.when fun h => h.outcomeOr (Does.execResume h)))
  exact h3.when fun h => h.outcomeOr (Does.execStep h)

theorem commandReset {w : Nat} (h : Sound s₀ s) : Sound s₀ (s.commandReset w) := by
  unfold State.commandReset
  extract_lets n
  suffices ho : Does False s₀ _ from h.outcomeOr ho
  split
  · exact (Does.execGroupReset h).mono False.elim
  · exact (Does.execTileReset h).mono False.elim
  · exact (Does.execBayReset h).mono False.elim
  · exact (Does.execFieldReset h).mono False.elim
  · exact (Does.execRimPortReset h).mono False.elim
  · exact (Does.execStationReset h).mono False.elim

theorem writeReg {req : Requester} {k : RegKey} {word addr : Nat} {v : Word} (h : Sound s₀ s) : Sound s₀ (s.writeReg req k word addr v) := by
  unfold State.writeReg
  extract_lets u i n no full ok
  have hno : Sound s₀ no := h.refuse
  have hstore : ∀ {k : RegKey}, Sound s₀ (s.store req k word addr v) := fun {_} => h.store
  clear_value no ok full
  split
  · exact h.outcomeOr (Does.execBcnPeriodWrite h)
  · exact h.outcomeOr (Does.execBcnSettleLenWrite h)
  · exact h.outcomeOr (Does.execClkEnableWrite h)
  · exact h.when fun h => h.outcomeOr (Does.execStnWdogAck h)
  · exact (h.when fun h => h.outcomeOr (Does.execPeerBreak h)).when fun h => h.outcomeOr (Does.execPeerClear h)
  · exact h.outcomeOr (Does.execHstRingCfgWrite h)
  · exact .ite h (.ite hno h.postMbox)
  · exact h.when fun h => h.outcomeOr (Does.execFlush h)
  · exact .ite (h.outcomeOr (Does.execLightListWrite h)) hno
  · exact .ite (h.outcomeOr (Does.execEpochArm h)) h.sf
  · exact Sound.when h.sf fun h => h.outcomeOr (Does.execDrainStart h)
  · split
    · exact h.outcomeOr (Does.execBuyKopAdd h)
    · exact h.outcomeOr (Does.execBuyKopSet h)
    · exact h.outcomeOr (Does.execBuyKopClear h)
    · exact hno
  · exact h.when fun h => h.setBuoy
  · exact h.when fun h => h.outcomeOr (Does.execDbgRegWrite h)
  · exact h
  · exact .ite h.writeTgpCtl hno
  · exact hstore
  · exact .ite hno (hstore.when fun h => h.loseSram)
  · exact .ite hstore.upd hno
  · exact .ite hno (hstore.when fun h => h.upd)
  · exact .ite hno (.ite hstore.noteDebug hstore.upd)
  · exact .ite hno (.ite hstore (.ite hstore.commandReset hstore.refuse))
  · exact h.keep fun h => .ite hstore hno

theorem fstWindowWrite {req : Requester} {f : Nat} {v : Word} {addr : Nat} (h : Sound s₀ s) : Sound s₀ (s.fstWindowWrite req f v addr).1 := by
  unfold State.fstWindowWrite
  extract_lets a
  split
  · exact h.fstPutBytes
  · exact h.refuse

theorem writeAt {req : Requester} {addr : Nat} {v : Word} (h : Sound s₀ s) : Sound s₀ (s.writeAt req addr v).1 := by
  unfold State.writeAt
  extract_lets f off p
  clear_value p
  split
  · exact h.refuse
  · split
    · exact h.gatedAccess
    · split
      · split
        · exact h.fstWindowWrite
        · exact h.writeReg
      · split
        · exact h.queueWindow
        · split
          · exact h.windowWrite
          · exact h.refuse
      · split
        · exact h.outcomeOr (Does.execHstDbResHead h)
        · exact h.outcomeOr (Does.execHstDbReqTail h)
      · exact h.outcomeOr (Does.execWatchdogFeed h)
      · exact h

theorem readSized {req : Requester} {a : SizedAccess} (h : Sound s₀ s) : Sound s₀ (s.readSized req a).1 := by
  unfold State.readSized
  split
  · exact h.readAt
  · exact h.refuse

theorem writeSized {req : Requester} {a : SizedAccess} {v : Word} (h : Sound s₀ s) : Sound s₀ (s.writeSized req a v).1 := by
  unfold State.writeSized
  split
  · exact h.writeAt
  · exact h.refuse

theorem complete {req : Requester} {status : Nat} {w : Word} (h : Sound s₀ s) : Sound s₀ (s.complete req status w) := Sound.ite h h.answer

theorem kregAnswer {n : Nat} {p : Packet} {status : Nat} {body : List TWord} (h : Sound s₀ s) : Sound s₀ (s.kregAnswer n p status body) := h.addPkt

end Sound

namespace Does
variable {s₀ s : State}

theorem execRegisterRead {req : Requester} {access : SizedAccess} (h : Sound s₀ s) : Does True s₀ (execRegisterRead req access s) :=
  .next (Sound.ite h.answer h.readSized.complete)

theorem execRegisterWrite {req : Requester} {access : SizedAccess} {value : Word} (h :
    Sound s₀ s) : Does True s₀ (execRegisterWrite req access value s) :=
  .next (Sound.ite h h.writeSized.complete)

theorem execTileWindowWrite {req : Requester} {t off : Nat} {value : Word} (h :
    Sound s₀ s) : Does (t < 589824) s₀ (execTileWindowWrite req t off value s) := by
  have hwrite : ∀ a, Sound s₀ ((s.writeAt req a value).1.complete req (s.writeAt req a value).2 0) := fun _ => h.writeAt.complete
  exact .onTile (h.keep fun _ => hwrite _)

theorem execFstWinDataWrite {req : Requester} {f : Nat} {value : Word} (h : Sound s₀ s) : Does (f < 64) s₀ (execFstWinDataWrite req f value s) :=
  .onField h.writeAt.answer

theorem execKreg {n : Nat} {access : SizedAccess} {write : Option Word} (h : Sound s₀ s) : Does (n < 65) s₀ (execKreg n access write s) := by
  unfold Machine.execKreg
  refine .onUnit ?_
  extract_lets
  refine .ite ?_ ?_
  · split
    · exact h.readSized.complete
    · exact h.writeSized.complete
  · split
    · exact h.addPkt
    · extract_lets s1
      have h1 : Sound s₀ s1 := h.dropPkt
      split
      · exact Sound.ite h1.readAt h1.readAt.kregAnswer
      · exact Sound.ite h1.writeAt h1.writeAt.kregAnswer

theorem execKregResp {pkt : Nat} (h : Sound s₀ s) : Does True s₀ (execKregResp pkt s) := by
  unfold Machine.execKregResp
  split
  · exact .next h
  · exact .next h.dropPkt.answer

end Does

end Sys2Proof.Machine
end

section
/-! SUPPORT. What every effect keeps: the definitions of Startup. -/

namespace Sys2Proof.Machine

namespace Sound
variable {s₀ s : State}

theorem failStartup {step : Nat} (h : Sound s₀ s) : Sound s₀ (s.failStartup step) := h.sf.logEv.foghorn

theorem stationRails {bad : List Nat} {step : Nat} (h : Sound s₀ s) : Sound s₀ (s.stationRails bad step) :=
  (h.each fun _ _ h => h.hset.logEv).failStartup

theorem rebuildLedger {legible : List (Nat × Nat)} {unknown : Nat} (h : Sound s₀ s) : Sound s₀ (s.rebuildLedger legible unknown) :=
  (h.each fun _ _ h => h.logEv).upd.logEv

theorem readLedger {copyA copyB : Bool} {legible : List (Nat × Nat)} {unknown : Nat} (h :
    Sound s₀ s) : Sound s₀ (s.readLedger copyA copyB legible unknown) := by
  unfold State.readLedger
  extract_lets s1 s2
  have h1 : Sound s₀ s1 := by
    unfold s1
    split
    · exact h.upd
    · exact h.upd
    · exact h.upd
    · exact h.rebuildLedger
  have h2 : Sound s₀ s2 := h1.keep fun h => h.repairCopies
  exact h2.upd

theorem badSetting {bad : Bool} (h : Sound s₀ s) : Sound s₀ (s.badSetting bad) := Sound.ite h.refuse h

theorem endTraining {kind p : Nat} (h : Sound s₀ s) : Sound s₀ (s.endTraining kind p) := h.upd

theorem checkLinks (h : Sound s₀ s) : Sound s₀ (s.checkLinks) := (Sound.ite h.stepDone.setEnable.setEnable.upd h).when fun h => h.stepDone

theorem memoryDown {port : Nat} (h : Sound s₀ s) : Sound s₀ (s.memoryDown port) := h.endTraining.upd.sf.sf.logEv.checkLinks

theorem fieldRail {f rail : Nat} (h : Sound s₀ s) : Sound s₀ (s.fieldRail f rail) := h.hset.logEv

end Sound

namespace Does
variable {s₀ s : State}

theorem execBootRom {a b : FwCopy} {f27 : Bool} (h : Sound s₀ s) : Does True s₀ (execBootRom a b f27 s) :=
  .next (Sound.ite h (Sound.ite h.sf.sf.stepDone.foghorn (Sound.ite ((h.sf.sf.stepDone.sf.sf.sf.sf.setEnable.stepDone.keep fun h =>
    h.logEv).keep fun h => h.logEv).upd ((h.sf.sf.stepDone.sf.sf.sf.sf.setEnable.stepDone.keep fun h => h.logEv).keep fun h =>
      h.logEv).upd.sf.bump.logEv)))

theorem execFirmwareRecovery {copy : FwCopy} (h : Sound s₀ s) : Does True s₀ (execFirmwareRecovery copy s) := .next (Sound.ite h h.upd.resetStation)

theorem execStartupClocks (h : Sound s₀ s) : Does True s₀ (execStartupClocks s) := .next (Sound.ite h h.setLock.sf.upd.stepDone)

theorem execStartupStation {copyA copyB : Bool} {lost : List (Nat × Nat)} {unknown : Nat} {badRails : List Nat} {xbMode : Bool}
    {period : Option Nat} {ports : Option (Nat × Nat × Nat)} {caps : Option (Nat × Nat)} (h : Sound s₀ s) : Does True s₀
      (execStartupStation copyA copyB lost unknown badRails xbMode period ports caps s) :=
  .next (Sound.ite h (Sound.ite h.readLedger.stationRails (h.readLedger.badSetting.upd.sf.sf.stepDone.keep fun h => h.sf.logEv.failStartup)))

theorem execStartupLinks {badRails : List Nat} (h : Sound s₀ s) : Does True s₀ (execStartupLinks badRails s) :=
  .next (Sound.ite h (Sound.ite h.stationRails (Sound.ite h (h.sf.sf.each fun _ _ h => h.setLock).setEnable.upd.checkLinks)))

theorem execPcieLinkUp {port : Nat} (h : Sound s₀ s) : Does (port < 4) s₀ (execPcieLinkUp port s) :=
  .onUnit (Sound.ite h h.rimUp.endTraining.checkLinks)

theorem execLinkTrained {kind port : Nat} (h : Sound s₀ s) : Does (port < 16) s₀ (execLinkTrained kind port s) := by
  unfold Machine.execLinkTrained
  refine .onUnit ?_
  refine .ite ?_ ?_
  · exact h
  · split
    · exact h.endTraining.upd
    · exact h.rimUp.endTraining.checkLinks
    · exact h

theorem execLinkTrainFail {kind port : Nat} (h : Sound s₀ s) : Does (port < 16) s₀ (execLinkTrainFail kind port s) := by
  unfold Machine.execLinkTrainFail
  refine .onUnit ?_
  split
  · exact h
  · exact Sound.ite h (Sound.ite h.advanceTo.endTraining.upd.sf h.advanceTo.endTraining.upd.logEv).checkLinks

theorem execMemoryActive {port capacity : Nat} (h : Sound s₀ s) : Does (port < 16) s₀ (execMemoryActive port capacity s) :=
  .onUnit (Sound.ite h (h.rimUp.endTraining.when fun h => h.logEv).checkLinks)

theorem execCxlMemoryTimeout {port : Nat} (h : Sound s₀ s) : Does (port < 16) s₀ (execCxlMemoryTimeout port s) := by
  unfold Machine.execCxlMemoryTimeout
  refine .onUnit ?_
  split
  · exact h
  · exact Sound.ite h h.advanceTo.memoryDown

theorem execCxlIoConfigurationTimeout {port : Nat} (h : Sound s₀ s) : Does (port < 16) s₀ (execCxlIoConfigurationTimeout port s) :=
  .onUnit (Sound.ite h.endTraining.endTraining.upd.sf.checkLinks (Sound.ite h.upd.linkDown h))

theorem execResetComplete {domain target : Nat} {test : FieldTest} (h : Sound s₀ s) : Does True s₀ (execResetComplete domain target test s) := by
  unfold Machine.execResetComplete
  refine .ite ?_ ?_
  · exact .next h
  · split
    · exact .next h.endReset
    · exact .ite (.next h) (.next h.rewriteRouters.endReset.strand)
    · refine .ite ?_ ?_
      · exact .next h
      · extract_lets s1 _ s2
        have h1 : Sound s₀ s1 := h.failRecords
        have h2 : Sound s₀ s2 := h1.upd
        exact .ite (.next h1.openGate) (.next h2.rewriteRouters.endReset.strand)
    · exact .ite (.next h) (.next h.powerUpField.sf.endReset.strand)
    · exact .ite (.next h) (.next h.rimUp.portTrained.checkLinks.endReset)
    · exact .next h

theorem execFieldPowerUp {f : Nat} {test : FieldTest} (h : Sound s₀ s) : Does (f < 64) s₀ (execFieldPowerUp f test s) := by
  unfold Machine.execFieldPowerUp
  refine .onField ?_
  extract_lets _ _ s1 s2
  have h1 : Sound s₀ s1 := h.upd
  have h2 : Sound s₀ s2 := by
    unfold s2
    split
    · exact h.powerUpField
    · exact (h1.when fun h => h.fieldRail).keep fun h => h.sf.logEv.setFld.upd
  exact Sound.ite h (h2.when fun h => h.writeTileCount.checkGrade.stepDone)

theorem execBeaconStart {skews : List Nat} (h : Sound s₀ s) : Does True s₀ (execBeaconStart skews s) :=
  .next (Sound.ite h (h.each fun _ _ h => h.sf).sf.sf.intakeBlock.upd)

theorem execStartupReady (h : Sound s₀ s) : Does True s₀ (execStartupReady s) :=
  .next (Sound.ite h h.sf.sf.stepDone.sf.logEv.logEv.sf.sf.upd.endReset)

theorem execStartupFail {failedStep : Nat} (h : Sound s₀ s) : Does True s₀ (execStartupFail failedStep s) := .next (Sound.ite h h.failStartup)

end Does

end Sys2Proof.Machine
end

section
/-! SUPPORT. Every command is sound, and goes on where it is well formed. -/

namespace Sys2Proof.Machine

namespace Does
variable {p a b : Prop} {s : State} {o : Host.Outcome State Fault Refusal} {x y : Bool}

theorem all (h : Does True s o) : Does p s o := h.mono fun _ => trivial

theorem left (h : Does (x = true) s o) : Does ((x && y) = true) s o := h.mono fun hxy => ((Bool.and_eq_true ..).mp hxy).1

theorem right (h : Does (y = true) s o) : Does ((x && y) = true) s o := h.mono fun hxy => ((Bool.and_eq_true ..).mp hxy).2

section
variable [Decidable a] [Decidable b]

theorem bool (h : Does a s o) : Does (decide a = true) s o := h.mono of_decide_eq_true

theorem bools (h : Does (a ∧ b) s o) : Does ((decide a && decide b) = true) s o :=
  h.mono fun hab => by simpa only [Bool.and_eq_true, decide_eq_true_eq] using hab

/-- Under a premise on other operands before. -/
theorem under (h : Does (a ∧ b) s o) : Does ((x && decide a && decide b) = true) s o := by
  rw [Bool.and_assoc]
  exact h.bools.right

end

end Does

/-- Every kind of port has at most 16 of them. -/
theorem portOfKind_lt {kind port : Nat}
    (hw : (decide (kind < 3) && decide (port < (if kind = 0 then 4 else if kind = 1 then 16 else 8))) = true) : port < 16 := by
  simp only [Bool.and_eq_true, decide_eq_true_eq] at hw
  obtain ⟨-, hport⟩ := hw
  split at hport
  · omega
  · split at hport <;> omega

theorem portOfTrained_lt {kind port : Nat} (hw : (decide (port < (if kind = 1 then 16 else 8)) && decide ((kind = 1 ∨ kind = 2))) = true) :
    port < 16 := by
  simp only [Bool.and_eq_true, decide_eq_true_eq] at hw
  obtain ⟨hport, -⟩ := hw
  split at hport <;> omega

/-- Every command is sound, and goes on where it is well formed. -/
theorem exec_does (c : Instr) (s : State) : Does (c.wf = true) s (exec c s) := by
  have h : Sound s s := .refl s
  cases c with
  | stationBeacon => exact (Does.execStationBeacon h).all
  | fieldWatchBegin => exact (Does.execFieldWatchBegin h).bool
  | beaconMissed => exact (Does.execBeaconMissed h).bool
  | workBegin => exact (Does.execWorkBegin h).bool
  | settleBegin => exact (Does.execSettleBegin h).bool
  | verdictVote => exact (Does.execVerdictVote h).bools.left
  | specSweep => exact (Does.execSpecSweep h).bool.left
  | commitPoint => exact (Does.execCommitPoint h).bool
  | journalApply => exact (Does.execJournalApply h).bool
  | handoverBegin => exact (Does.execHandoverBegin h).bool
  | restIntervalBegin => exact (Does.execRestIntervalBegin h).bool
  | planningRound => exact (Does.execPlanningRound h).all
  | nop => exact (Does.execNop h).bools
  | end_ => exact (Does.execEnd h).bools
  | endOfWork => exact (Does.execEndOfWork h).bools
  | bra => exact (Does.execBra h).bools
  | bany => exact (Does.execBany h).bools
  | bnone => exact (Does.execBnone h).bools
  | pushif => exact (Does.execPushif h).bools
  | else_ => exact (Does.execElse h).bools
  | pop => exact (Does.execPop h).bools
  | mask => exact (Does.execMask h).bools
  | badd => exact (Does.execBadd h).bools
  | barrive => exact (Does.execBarrive h).bools
  | bset => exact (Does.execBset h).bools
  | bclear => exact (Does.execBclear h).bools
  | bawaitge => exact (Does.execBawaitge h).bools
  | bawaitflag => exact (Does.execBawaitflag h).bools
  | watchRelease => exact (Does.execWatchRelease h).bools
  | add => exact (Does.execAdd h).bools
  | sub => exact (Does.execSub h).bools
  | mul => exact (Does.execMul h).bools
  | and => exact (Does.execAnd h).bools
  | or => exact (Does.execOr h).bools
  | xor => exact (Does.execXor h).bools
  | shl => exact (Does.execShl h).bools
  | shr => exact (Does.execShr h).bools
  | sar => exact (Does.execSar h).bools
  | min => exact (Does.execMin h).bools
  | max => exact (Does.execMax h).bools
  | minu => exact (Does.execMinu h).bools
  | maxu => exact (Does.execMaxu h).bools
  | shfl => exact (Does.execShfl h).bools
  | mov => exact (Does.execMov h).bools
  | movi => exact (Does.execMovi h).bools
  | movhi => exact (Does.execMovhi h).bools
  | addi => exact (Does.execAddi h).bools
  | fadd => exact (Does.execFadd h).bools
  | fsub => exact (Does.execFsub h).bools
  | fmul => exact (Does.execFmul h).bools
  | fma => exact (Does.execFma h).bools
  | fmin => exact (Does.execFmin h).bools
  | fmax => exact (Does.execFmax h).bools
  | dot => exact (Does.execDot h).bools
  | cmp => exact (Does.execCmp h).bools
  | plog => exact (Does.execPlog h).bools
  | pfromu => exact (Does.execPfromu h).bools
  | ufromp => exact (Does.execUfromp h).bools
  | cvt => exact (Does.execCvt h).bools
  | sfu => exact (Does.execSfu h).bools
  | specBegin => exact (Does.execSpecBegin h).bools
  | specEnd => exact (Does.execSpecEnd h).bools
  | specConfirm => exact (Does.execSpecConfirm h).bools
  | specSquash => exact (Does.execSpecSquash h).bools
  | ld => exact (Does.execLd h).bools
  | st => exact (Does.execSt h).bools
  | rld => exact (Does.execRld h).bools
  | rldu => exact (Does.execRldu h).bools
  | rst => exact (Does.execRst h).bools
  | sendw => exact (Does.execSendw h).bools
  | sendv => exact (Does.execSendv h).bools
  | sendm => exact (Does.execSendm h).bools
  | releasePoint => exact (Does.execReleasePoint h).bool
  | watchdog => exact (Does.execWatchdog h).bools
  | packetHop => exact (Does.execPacketHop h).all
  | item => exact (Does.execItem h).all
  | landingCompletion => exact (Does.execLandingCompletion h).bool.left
  | rload => exact (Does.execRload h).all
  | rstore => exact (Does.execRstore h).all
  | servicePortAccess => exact (Does.execServicePortAccess h).bool
  | rdata => exact (Does.execRdata h).all
  | rfail => exact (Does.execRfail h).all
  | rpoison => exact (Does.execRpoison h).all
  | kaccess => exact (Does.execKaccess h).all
  | kresp => exact (Does.execKresp h).all
  | credit => exact (Does.execCredit h).all
  | ack => exact (Does.execAck h).all
  | nack => exact (Does.execNack h).all
  | kreg => exact (Does.execKreg h).bool
  | kregResp => exact (Does.execKregResp h).all
  | buoyOp => exact (Does.execBuoyOp h).all
  | buoyApply => exact (Does.execBuoyApply h).bool
  | buoyNotice => exact (Does.execBuoyNotice h).all
  | buoyAck => exact (Does.execBuoyAck h).all
  | buoyTrunkPacket => exact (Does.execBuoyTrunkPacket h).all
  | buoyUnreachable => exact (Does.execBuoyUnreachable h).bool
  | buyKopAdd => exact (Does.execBuyKopAdd h).bool.right.left
  | buyKopSet => exact (Does.execBuyKopSet h).bool.right.left
  | buyKopClear => exact (Does.execBuyKopClear h).bool.right.left
  | controlSpaceRead => exact (Does.execControlSpaceRead h).all
  | lensLaunch => exact (Does.execLensLaunch h).all
  | lensPassAccept => exact (Does.execLensPassAccept h).bool.left
  | lensLoadComplete => exact (Does.execLensLoadComplete h).bool.left
  | lensPassExec => exact (Does.execLensPassExec h).bool.left
  | lensPassComplete => exact (Does.execLensPassComplete h).bool.left
  | lensPreload => exact (Does.execLensPreload h).bool.left.left
  | lensStretch => exact (Does.execLensStretch h).bool.left
  | mvLaunch => exact (Does.execMvLaunch h).all
  | mvOperationBegin => exact (Does.execMvOperationBegin h).bool
  | mvOperationComplete => exact (Does.execMvOperationComplete h).bool
  | fieldStoreRequest => exact (Does.execFieldStoreRequest h).all
  | fieldStoreBankAccess => exact (Does.execFieldStoreBankAccess h).bool.left
  | fstScrub => exact (Does.execFstScrub h).bool.left.left
  | stageLaneInject => exact (Does.execStageLaneInject h).all
  | stage => exact (Does.execStage h).all
  | stageNotify => exact (Does.execStageNotify h).bool
  | cxlReadComplete => exact (Does.execCxlReadComplete h).all
  | cxlMemTimeout => exact (Does.execCxlMemTimeout h).bool
  | cxlWriteComplete => exact (Does.execCxlWriteComplete h).bool
  | tagOp => exact (Does.execTagOp h).bool
  | resolution => exact (Does.execResolution h).bool.left
  | pass => exact (Does.execPass h).bool.left
  | fork => exact (Does.execFork h).bool.left
  | switch => exact (Does.execSwitch h).bool.left
  | mergeOrdered => exact (Does.execMergeOrdered h).bool.left
  | mergeArrival => exact (Does.execMergeArrival h).bool.left
  | gate => exact (Does.execGate h).bool.left
  | loop => exact (Does.execLoop h).bool.left
  | rate => exact (Does.execRate h).bool.left
  | flush => exact (Does.execFlush h).bool.right.left
  | drainStart => exact (Does.execDrainStart h).bool.right.left
  | drainComplete => exact (Does.execDrainComplete h).bool.left
  | drainTimeout => exact (Does.execDrainTimeout h).bool.left
  | lightListWrite => exact (Does.execLightListWrite h).bool.right.left
  | epochArm => exact (Does.execEpochArm h).bool.right.left
  | hstDbReqTail => exact (Does.execHstDbReqTail h).bool.left.left.left
  | hstDbResHead => exact (Does.execHstDbResHead h).bool.left.left.left
  | ringFetch => exact (Does.execRingFetch h).bool.left.left
  | hostDmaFault => exact (Does.execHostDmaFault h).bool.left.left
  | resultPush => exact (Does.execResultPush h).bool.left.left
  | hstRingCfgWrite => exact (Does.execHstRingCfgWrite h).bool.right.left.left.left
  | functionLevelReset => exact (Does.execFunctionLevelReset h).bool.left
  | jalfenData => exact (Does.execJalfenData h).bool.left
  | jalfenCredit => exact (Does.execJalfenCredit h).bool
  | jalfenBeat => exact (Does.execJalfenBeat h).bool
  | jalfenNotice => exact (Does.execJalfenNotice h).bool.left.left
  | jalfenKeeper => exact (Does.execJalfenKeeper h).bool
  | jalfenIdleBeat => exact (Does.execJalfenIdleBeat h).bool
  | peerLost => exact (Does.execPeerLost h).bool
  | peerBreak => exact (Does.execPeerBreak h).bool.right
  | peerClear => exact (Does.execPeerClear h).bool.right
  | railTelemetryPoll => exact (Does.execRailTelemetryPoll h).all
  | pmbAlert => exact (Does.execPmbAlert h).all
  | rampStep => exact (Does.execRampStep h).bool
  | bayGateFault => exact (Does.execBayGateFault h).bool
  | gateRetry => exact (Does.execGateRetry h).bool
  | gateFaultCountClear => exact (Does.execGateFaultCountClear h).bool
  | droopStretch => exact (Does.execDroopStretch h).bool
  | droopSustained => exact (Does.execDroopSustained h).bool
  | thermalSample => exact (Does.execThermalSample h).bool
  | waferEnergy => exact (Does.execWaferEnergy h).all
  | nvInhibit => exact (Does.execNvInhibit h).all
  | nvInhibitRelease => exact (Does.execNvInhibitRelease h).all
  | xaLoss => exact (Does.execXaLoss h).all
  | holdoverSwitch => exact (Does.execHoldoverSwitch h).all
  | clockHoldoverEnd => exact (Does.execClockHoldoverEnd h).all
  | refclkLost => exact (Does.execRefclkLost h).all
  | clockLoss => exact (Does.execClockLoss h).all
  | pllUnlock => exact (Does.execPllUnlock h).bool
  | sourceGood => exact (Does.execSourceGood h).bool
  | fircTrim => exact (Does.execFircTrim h).all
  | clkEnableWrite => exact (Does.execClkEnableWrite h).bool.right.left
  | clockStop => exact (Does.execClockStop h).bool.left
  | groupReset => exact (Does.execGroupReset h).under
  | tileReset => exact (Does.execTileReset h).bool.right
  | bayReset => exact (Does.execBayReset h).bool.right
  | fieldReset => exact (Does.execFieldReset h).bool.right
  | rimPortReset => exact (Does.execRimPortReset h).bool.right
  | stationReset => exact (Does.execStationReset h).all
  | coldReset => exact (Does.execColdReset h).all
  | resetComplete => exact (Does.execResetComplete h).all
  | resetTimeout => exact (Does.execResetTimeout h).all
  | perstN => exact (Does.execPerstN h).bool
  | bootRom => exact (Does.execBootRom h).all
  | firmwareRecovery => exact (Does.execFirmwareRecovery h).all
  | startupClocks => exact (Does.execStartupClocks h).all
  | startupStation => exact (Does.execStartupStation h).all
  | startupLinks => exact (Does.execStartupLinks h).all
  | pcieLinkUp => exact (Does.execPcieLinkUp h).bool
  | linkTrainFail => exact (Does.execLinkTrainFail h).mono portOfKind_lt
  | memoryActive => exact (Does.execMemoryActive h).bool
  | cxlMemoryTimeout => exact (Does.execCxlMemoryTimeout h).bool
  | fieldPowerUp => exact (Does.execFieldPowerUp h).bool
  | beaconStart => exact (Does.execBeaconStart h).all
  | startupReady => exact (Does.execStartupReady h).all
  | startupFail => exact (Does.execStartupFail h).all
  | loadImage => exact (Does.execLoadImage h).bool
  | imageValidation => exact (Does.execImageValidation h).all
  | bind => exact (Does.execBind h).bool
  | liveRecord => exact (Does.execLiveRecord h).all
  | start => exact (Does.execStart h).bool
  | imageLoadComplete => exact (Does.execImageLoadComplete h).all
  | patchApplyComplete => exact (Does.execPatchApplyComplete h).all
  | restoreComplete => exact (Does.execRestoreComplete h).all
  | stop => exact (Does.execStop h).bool
  | drainSector => exact (Does.execDrainSector h).bool
  | retireBay => exact (Does.execRetireBay h).bool
  | returnBay => exact (Does.execReturnBay h).bool
  | bayBist => exact (Does.execBayBist h).bool
  | setCap => exact (Does.execSetCap h).bool
  | setPeriod => exact (Does.execSetPeriod h).bool
  | queryFirmware => exact (Does.execQueryFirmware h).bool
  | queryTenant => exact (Does.execQueryTenant h).bool
  | queryResidency => exact (Does.execQueryResidency h).bool
  | registerTenant => exact (Does.execRegisterTenant h).bool
  | evictTenant => exact (Does.execEvictTenant h).bool
  | debugAuthChallenge => exact (Does.execDebugAuthChallenge h).all
  | debugAuthResponse => exact (Does.execDebugAuthResponse h).all
  | debugAuthEnd => exact (Does.execDebugAuthEnd h).all
  | debugSessionExpiry => exact (Does.execDebugSessionExpiry h).bool
  | halt => exact (Does.execHalt h).under
  | step => exact (Does.execStep h).under
  | stepIssue => exact (Does.execStepIssue h).bools
  | resume => exact (Does.execResume h).under
  | breakpoint => exact (Does.execBreakpoint h).bools
  | dbgRegWrite => exact (Does.execDbgRegWrite h).bool.right.left
  | eventRingWrite => exact (Does.execEventRingWrite h).bool
  | watchdogFeed => exact (Does.execWatchdogFeed h).bool.left
  | stnWdogAck => exact (Does.execStnWdogAck h).all
  | stationWatchdog => exact (Does.execStationWatchdog h).all
  | keeperFailover => exact (Does.execKeeperFailover h).all
  | foghornAutoReset => exact (Does.execFoghornAutoReset h).all
  | lockstepFault => exact (Does.execLockstepFault h).bool
  | keeperRestartComplete => exact (Does.execKeeperRestartComplete h).bool
  | waferEntryRewrite => exact (Does.execWaferEntryRewrite h).bool
  | fogHoldExpiry => exact (Does.execFogHoldExpiry h).bool
  | bcnPeriodWrite => exact (Does.execBcnPeriodWrite h).all
  | bcnSettleLenWrite => exact (Does.execBcnSettleLenWrite h).all
  | tileWindowWrite => exact (Does.execTileWindowWrite h).bool.right.left
  | fstWinDataWrite => exact (Does.execFstWinDataWrite h).bool.right
  | registerWrite => exact (Does.execRegisterWrite h).all
  | keeperRestartTimeout => exact (Does.execKeeperRestartTimeout h).bool
  | linkTrained => exact (Does.execLinkTrained h).mono portOfTrained_lt
  | cxlIoConfigurationTimeout => exact (Does.execCxlIoConfigurationTimeout h).bool
  | smbusClockLowTimeout => exact (Does.execSmbusClockLowTimeout h).bool
  | badOpcode => exact (Does.execBadOpcode h).bool
  | registerRead => exact (Does.execRegisterRead h).all
  | clockLossEachMinute => exact (Does.execClockLossEachMinute h).all

theorem exec_sound {c : Instr} {s s' : State} (hs : exec c s = .next s') : Sound s s' := (exec_does c s).sound s' hs

/-- Every step is sound but for the queue, and keeps the memories' form. -/
theorem step_sound {s s' : State} (hs : step s = .next s') : (memWf s.sram = true → memWf s'.sram = true) ∧
    (memWf s.fst = true → memWf s'.fst = true) := by
  cases hp : s.pending with
  | nil =>
    obtain ⟨u, hu, rfl⟩ := Claims.emptyQueueTicks s hp
    cases hu.symm.trans hs
    exact ⟨id, id⟩
  | cons c rest =>
    have h := exec_sound ((Claims.stepRunsCommand s c rest hp).symm.trans hs)
    exact ⟨h.sram, h.fst⟩

/-- Settles O3: every command is `Sound`. -/
theorem commandsKeepQueueTimeAndFuses : Obligations.CommandsKeepQueueTimeAndFuses := by
  intro c s s' hs
  have h := exec_sound hs
  exact ⟨h.pending, h.now, h.fuses, h.numbered⟩

/-- Settles O4: a well-formed command names only units that are there. -/
theorem wellFormedCommandsGoOn : Obligations.WellFormedCommandsGoOn :=
  fun c s hc => (exec_does c s).goes hc

/-- Settles O6: every command is `Sound`, and the tick of an empty queue changes no memory. -/
theorem memoryStaysCanonical : Obligations.MemoryStaysCanonical := by
  intro s s' hok hs
  obtain ⟨hsram, hfst⟩ := step_sound hs
  rw [State.memoryOk, Bool.and_eq_true] at hok ⊢
  exact ⟨hsram hok.1, hfst hok.2⟩

end Sys2Proof.Machine
end

section
/-! SUPPORT. What a failure sheds: the effects by which a resource's or a field's loss reaches sectors, transfers, a load under way and
the mailbox. Registers outside `fleeting`, and what `State.sheltered` shows, stay. -/

namespace Sys2Proof.Machine

-- Arguments that default to a tactic of this text wait for the checks of all before it: one theorem at a time keeps the waiting few.
set_option Elab.async false

/-- A field without its sectors' marks. -/
def FieldSt.lasting (x : FieldSt) : FieldSt :=
  { x with draining := [], quiesced := [], drainDue := [], voids := [], prevVoid := [], votes := [], overrun := [], armed := [] }

/-- A state without registers and without what a loss may take. -/
def State.sheltered (s : State) : State × (Nat → FieldSt) :=
  ({ s with
      regs := [], fields := [], fresh := 0, out := [], irqWatch := none, rings := [], sram := [], sramBad := [], sramWeak := [], groups := []
      tiles := [], slots := [], rules := [], buoys := [], sectorTags := [], tagMsgs := [], packets := [], mcast := [], journal := []
      lenses := [], mvs := [], orders := [], destages := [], sectors := [], plan := [], settleDue := [], lostTiles := [], live := []
      ledgerQueue := [], copyA := {}, copyB := {}, mboxJobs := [], boundTo := none, loaded := none, loadedBind := none, loadRun := none
      stopAt := none, rwlWrites := [], unlocked := [], haltedBy := [], faultLog := [], jalfen := [], countWritten := false
      belowGrade := false, bindMap := none, rewrites := [], hwSet := [] }, fun f => (s.fld f).lasting)

/-- The registers that a loss may change. -/
def fleeting : List Reg :=
  contentRegs ++ contentFieldRegs ++ tileRegs ++ ([.mshLlEntry, .stnImageFloor, .stnKeyFloor, .stnImageLoaded, .stnImageId, .stnImageDigest,
    .stnImageStatus, .stnBindStatus, .stnBindDetail, .stnBindStats, .hstMboxStatus, .hstMboxResult, .stgEngineStatus, .stnPeerStatus,
    .stnTileCount, .lnsGeom, .lnsRepair, .stnNvInhibit] : List Reg)

/-- A register whose unwritten word rests on the fuses alone. -/
theorem regDefault_of_fuses {s s' : State} (hfuses : s'.fuses = s.fuses) {r : Reg} (u k : Nat) (hport : r ≠ .mshPortCfg)
    (himage : r ≠ .stnImageFloor) (hkey : r ≠ .stnKeyFloor) : s'.regDefault ⟨r, u, k⟩ = s.regDefault ⟨r, u, k⟩ := by
  unfold State.regDefault
  rw [hfuses]
  split
  case h_3 h => exact absurd h himage
  case h_4 h => exact absurd h hkey
  case h_9 h => exact absurd h hport
  all_goals rfl

/-- What a loss sheds. -/
def Sheds (s s' : State) : Prop := Keeps State.sheltered fleeting s s'

namespace Sheds
variable {s₀ s s' : State}

theorem refl (s : State) : Sheds s s := Keeps.refl s

theorem trans (h : Sheds s₀ s) (h' : Sheds s s') : Sheds s₀ s' := Keeps.trans h h'

/-- Registers outside `fleeting` rest on the written ones and the fuses. -/
theorem rd_of_regs {r : Reg} {u k : Nat} (hfuses : s'.fuses = s.fuses) (hr : r ∉ fleeting)
    (hregs : ∀ d, mget d s'.regs ⟨r, u, k⟩ = mget d s.regs ⟨r, u, k⟩) : s'.rd r u k = s.rd r u k := by
  have hne : ∀ {q : Reg}, q ∈ fleeting → r ≠ q := fun hq heq => hr (heq ▸ hq)
  rw [State.rd, regDefault_of_fuses hfuses u k (hne (by decide)) (hne (by decide)) (hne (by decide)), hregs, State.rd]

/-- An effect on nothing that the frame shows. -/
theorem set (h : Sheds s₀ s) (hlook : s'.sheltered = s.sheltered := by rfl) (hfuses : s'.fuses = s.fuses := by rfl)
    (hregs : s'.regs = s.regs := by rfl) : Sheds s₀ s' :=
  h.trans ⟨hlook, fun _ _ _ hr => rd_of_regs hfuses hr fun _ => by rw [hregs]⟩

theorem marks {rs : List Reg} (h : Sheds s₀ s) (hm : Marks rs s s') (hrs : ∀ r ∈ rs, r ∈ fleeting) : Sheds s₀ s' :=
  h.trans ((Keeps.marks (fun _ => rfl) hm).mono hrs)

theorem wr {r : Reg} {u k : Nat} {w : BitVec 64} (h : Sheds s₀ s) (hr : r ∈ fleeting := by decide) : Sheds s₀ (s.wr r u k w) := by
  refine h.trans ⟨rfl, fun r' u' k' hr' => rd_of_regs rfl hr' fun _ => ?_⟩
  have hne : (⟨r', u', k'⟩ : RegKey) ≠ ⟨r, u, k⟩ := fun heq => hr' (by rwa [show r' = r from congrArg RegKey.reg heq])
  exact mget_mput_ne _ _ _ hne

theorem sf {f : RegField} {u k v : Nat} (h : Sheds s₀ s) (hr : f.reg ∈ fleeting := by decide) : Sheds s₀ (s.sf f u k v) := h.wr hr

theorem hset {f : RegField} {u k : Nat} (h : Sheds s₀ s) (hr : f.reg ∈ fleeting := by decide) : Sheds s₀ (s.hset f u k) :=
  Sheds.sf (h.set (s' := s.noteSet f u k)) hr

theorem logEv {ev : Ev} {f loc detail : Nat} (h : Sheds s₀ s) : Sheds s₀ (s.logEv ev f loc detail) :=
  h.marks (rs := []) (.logEv ..) fun _ hr => nomatch hr

theorem ite {c : Prop} [Decidable c] {a b : State} (ha : Sheds s₀ a) (hb : Sheds s₀ b) : Sheds s₀ (if c then a else b) := by
  split
  · exact ha
  · exact hb

theorem each {α : Type} {l : List α} {f : State → α → State} (h : Sheds s₀ s) (hf : ∀ (s : State) (a : α), Sheds s₀ s → Sheds s₀ (f s a)) :
    Sheds s₀ (s.each l f) := by
  induction l generalizing s with
  | nil => exact h
  | cons a l ih => exact ih (hf s a h)

/-- A field's new state that lasts as its old one. -/
theorem setFld {f : Nat} {x : FieldSt} (h : Sheds s₀ s) (hx : x.lasting = (s.fld f).lasting) : Sheds s₀ (s.setFld f x) := by
  refine h.trans ⟨Prod.ext rfl (funext fun g => ?_), fun _ _ _ hr => rd_of_regs rfl hr fun _ => rfl⟩
  change ((s.setFld f x).fld g).lasting = (s.fld g).lasting
  rw [State.fld_setFld]
  split
  · next heq => rw [heq, hx]
  · rfl

/-! ### Sectors, the mailbox, transfers and notices -/

theorem dueDrain {sec : Nat} (h : Sheds s₀ s) : Sheds s₀ (s.dueDrain sec) :=
  h.each fun _ _ h => .ite h (h.setFld rfl)

theorem sectorDown {sec code : Nat} (h : Sheds s₀ s) : Sheds s₀ (s.sectorDown sec code) := by
  unfold State.sectorDown
  split
  · exact h
  · exact .ite h (Sheds.logEv h.set).dueDrain

theorem resourceLost {d : Defect} {code : Nat} (h : Sheds s₀ s) : Sheds s₀ (s.resourceLost d code) := by
  unfold State.resourceLost
  split
  · exact h.each fun _ _ h => h.sectorDown
  · exact h

theorem dropArms {f : Nat} (h : Sheds s₀ s) : Sheds s₀ (s.dropArms f) := by
  unfold State.dropArms
  extract_lets s1
  have h1 : Sheds s₀ s1 := h.each fun _ _ h => h.sf
  exact .ite h1 (h1.setFld rfl)

theorem mboxDone {u status : Nat} {results : List Nat} (h : Sheds s₀ s) : Sheds s₀ (s.mboxDone u status results) := by
  unfold State.mboxDone
  extract_lets s1 s2
  have h2 : Sheds s₀ s2 := Sheds.each h.sf.sf fun _ _ h => h.wr
  clear_value s2
  exact h2.set

theorem finishOp {op : MboxOp} {status : Nat} {results : List Nat} (h : Sheds s₀ s) : Sheds s₀ (s.finishOp op status results) :=
  h.each fun _ _ h => h.mboxDone

theorem failTransfer {o : Order} (h : Sheds s₀ s) : Sheds s₀ (s.failTransfer o) := by
  unfold State.failTransfer
  extract_lets s1 s2 s3
  have h2 : Sheds s₀ s2 := Sheds.hset h.sf
  clear_value s2
  exact (h2.set (s' := s3)).logEv

theorem peerRecord {k peer kind code : Nat} (h : Sheds s₀ s) : Sheds s₀ (s.peerRecord k peer kind code) := h.sf.sf.sf

theorem peerIrq (h : Sheds s₀ s) : Sheds s₀ s.peerIrq := h.set

theorem sendFrame {k ty grant ring : Nat} {payload : List Nat} (h : Sheds s₀ s) : Sheds s₀ (s.sendFrame k ty grant ring payload) := h.set

theorem sendNotice {kind code : Nat} {onLink : Nat → Bool} (h : Sheds s₀ s) : Sheds s₀ (s.sendNotice kind code onLink) :=
  h.each fun _ _ h => .ite h.sendFrame.peerRecord.peerIrq.logEv h.sendFrame

/-! ### A load under way -/

theorem mget_filter_of {κ α : Type} [DecidableEq κ] {d : α} {m : Smap κ α} {q : κ × α → Bool} {k : κ} (hq : ∀ v, q (k, v) = true) :
    mget d (m.filter q) k = mget d m k := by
  induction m with
  | nil => rfl
  | cons e m ih =>
    obtain ⟨j, v⟩ := e
    rcases eq_or_ne j k with rfl | hne
    · rw [List.filter_cons_of_pos (hq v)]
      simp [mget]
    · rw [List.filter_cons]
      split <;> simp [mget, hne, ih]

theorem mget_map_snd {κ α β : Type} [DecidableEq κ] {d : α} {m : Smap κ α} {g : α → β} {k : κ} :
    mget (g d) (m.map fun e => (e.1, g e.2)) k = g (mget d m k) := by
  induction m with
  | nil => rfl
  | cons e m ih =>
    obtain ⟨j, v⟩ := e
    simp only [List.map_cons, mget]
    split
    · rfl
    · exact ih

/-- Registers filtered, those outside `fleeting` left. -/
theorem fewer {q : RegKey × BitVec 64 → Bool} (h : Sheds s₀ s) (hlook : s'.sheltered = s.sheltered) (hfuses : s'.fuses = s.fuses)
    (hregs : s'.regs = s.regs.filter q) (hq : ∀ e, e.1.reg ∉ fleeting → q e = true) : Sheds s₀ s' :=
  h.trans ⟨hlook, fun _ _ _ hr => rd_of_regs hfuses hr fun _ => by rw [hregs]; exact mget_filter_of fun _ => hq _ hr⟩

theorem keepUnloaded_of {e : RegKey × BitVec 64} (hr : e.1.reg ∉ fleeting) : keepUnloaded e = true := by
  have hll : e.1.reg ≠ .mshLlEntry := fun heq => hr (heq ▸ by decide)
  simp only [fleeting, List.mem_append, not_or] at hr
  obtain ⟨⟨⟨htile, hfield⟩, -⟩, -⟩ := hr
  simp [keepUnloaded, htile, hfield, hll]

theorem lasting_map {m : Smap Nat FieldSt} {f : Nat} : (mget {} (m.map fun (e : Nat × FieldSt) => (e.1, e.2.lasting)) f).lasting = (mget {} m f).lasting := by
  have hf : mget {} (m.map fun (e : Nat × FieldSt) => (e.1, e.2.lasting)) f = (mget {} m f).lasting  :=
    @mget_map_snd Nat FieldSt FieldSt _ {} m FieldSt.lasting f
  rw [hf]
  rfl

theorem loseSram {t : Nat} (h : Sheds s₀ s) : Sheds s₀ (s.loseSram t) := h.set

theorem unload (h : Sheds s₀ s) : Sheds s₀ s.unload := by
  unfold State.unload
  extract_lets worked s1 s2 _ s3 s4 s5
  have h1 : Sheds s₀ s1 := h.each fun _ _ h => h.loseSram
  clear_value s1
  have h2 : Sheds s₀ s2 := h1.fewer (Prod.ext rfl (funext fun _ => lasting_map)) rfl rfl
    fun _ => keepUnloaded_of
  clear_value s2
  have h3 : Sheds s₀ s3 := h2.set
  clear_value s3
  exact Sheds.each h3.wr.wr fun _ _ h => h.wr

theorem clearTiles {which : Nat → Bool} (h : Sheds s₀ s) : Sheds s₀ (s.clearTiles which) := by
  refine h.fewer rfl rfl rfl fun e hr => ?_
  have htile : e.1.reg ∉ tileRegs := fun hmem => hr (List.mem_append_left _ (List.mem_append_right _ hmem))
  simp [htile]

theorem resetTile {t : Nat} (h : Sheds s₀ s) : Sheds s₀ (s.resetTile t) := Sheds.clearTiles h.set

theorem writeRouter {img : Image} {bt : BindTable} {copies : List Nat} {t : Nat} (h : Sheds s₀ s) : Sheds s₀ (s.writeRouter img bt copies t) :=
  (h.sf.each fun _ _ h => h.wr).each fun _ _ h => h.each fun _ _ h => h.wr

theorem dropPatched {p base : Image} {bt : BindTable} (h : Sheds s₀ s) : Sheds s₀ (s.dropPatched p base bt) :=
  h.each fun _ _ h => (h.resetTile.each fun _ _ h => h.wr).writeRouter

theorem noLoad (h : Sheds s₀ s) : Sheds s₀ { s with loadRun := none } := h.set

theorem failLoading {code : Nat} (h : Sheds s₀ s) : Sheds s₀ (s.failLoading code) := by
  unfold State.failLoading
  split
  · exact h
  · next run _ =>
    extract_lets s1 reject secs s2 s3 _ s4
    have h1 : Sheds s₀ s1 := by
      dsimp only [s1]
      split
      · exact h.mboxDone
      · exact h
    have hreject : ∀ {s}, Sheds s₀ s → Sheds s₀ (reject s) := fun h => h.sf.sf
    clear_value s1 reject
    have h2 : Sheds s₀ s2 := hreject h1.noLoad
    have h3 : Sheds s₀ s3 := by
      dsimp only [s3]
      split
      · exact h2.dropPatched
      · exact h2
    have h4 : Sheds s₀ s4 := Sheds.sf h1.noLoad
    split
    · exact (hreject h1.unload).logEv
    · exact h3.each fun _ _ h => h.logEv
    · exact h4.each fun _ _ h => h.logEv

theorem breakLoading {f : Nat} (h : Sheds s₀ s) : Sheds s₀ (s.breakLoading f) := by
  unfold State.breakLoading
  split
  · exact h
  · exact .ite h.failLoading h

/-! ### The ledger and a live record -/

theorem writeRecord {r : Ledger} (h : Sheds s₀ s) : Sheds s₀ (s.writeRecord r) := h.set

theorem queueRecord {q : List Ledger} (h : Sheds s₀ s) : Sheds s₀ { s with ledgerQueue := q } := h.set

theorem ledger {r : Ledger} (h : Sheds s₀ s) : Sheds s₀ (s.ledger r) := by
  unfold State.ledger
  extract_lets s1 isTrim s2 s3
  have h1 : Sheds s₀ s1 := .ite h.set h
  clear_value s1
  have h3 : Sheds s₀ s3 := h1.writeRecord
  refine .ite (.ite ?_ ?_) (.ite h3 h3.set)
  · exact Sheds.sf h1.queueRecord
  · split
    · exact Sheds.logEv h1.queueRecord
    · exact .ite h1.logEv h1.queueRecord

theorem checkGrade (h : Sheds s₀ s) : Sheds s₀ s.checkGrade := by
  unfold State.checkGrade
  extract_lets u s1
  have h1 : Sheds s₀ s1 := .ite h.logEv h
  clear_value s1
  exact h1.set

theorem writeTileCount (h : Sheds s₀ s) : Sheds s₀ s.writeTileCount := by
  unfold State.writeTileCount
  extract_lets out dark retired s1
  have h1 : Sheds s₀ s1 := h.wr
  clear_value s1
  exact h1.set

theorem writeGeometry {l : Nat} (h : Sheds s₀ s) : Sheds s₀ (s.writeGeometry l) := by
  unfold State.writeGeometry
  refine .each h.wr fun s k h => ?_
  extract_lets kind
  split
  · exact h.wr
  · exact h.wr

theorem bindReport {state reason item excess displaced moved : Nat} (h : Sheds s₀ s) :
    Sheds s₀ (s.bindReport state reason item excess displaced moved) := h.sf.sf.sf.sf.sf.sf

theorem setBindMap {m : Option (List Defect)} (h : Sheds s₀ s) : Sheds s₀ { s with bindMap := m } := h.set

theorem rebind (h : Sheds s₀ s) : Sheds s₀ s.rebind :=
  .ite h (.ite (Sheds.sf h.setBindMap) (Sheds.finishOp (Sheds.bindReport h.setBindMap)))

theorem liveRecord {d : Defect} (h : Sheds s₀ s) : Sheds s₀ (s.liveRecord d) := by
  unfold State.liveRecord
  extract_lets s1 s2 s3 s4 s5 s6 s7 s8 f
  have h3 : Sheds s₀ s3 := .ite h.ledger.logEv.writeTileCount.checkGrade h.ledger.logEv
  clear_value s3
  have h4 : Sheds s₀ s4 := .ite h3.writeGeometry h3
  clear_value s4
  have h5 : Sheds s₀ s5 := by
    dsimp only [s5]
    split
    · exact .ite (Sheds.sf h4.set) h4
    · exact h4
  clear_value s5
  have h6 : Sheds s₀ s6 := h5.set
  clear_value s6
  have h8 : Sheds s₀ s8 := h6.rebind.resourceLost
  clear_value s8
  exact .ite h8.set h8

end Sheds

end Sys2Proof.Machine
end

section
/-! SUPPORT. Bays that change state, fields that fog, and what of the state they leave. -/

namespace Sys2Proof.Machine

/-! ### Bays -/

theorem bayAt_fieldOfBay (b : Nat) : bayAt (fieldOfBay b) (bayInField b) = b := by
  unfold bayAt fieldOfBay bayInField
  omega

theorem fieldOfBay_bayAt {f k : Nat} (hk : k < 36) : fieldOfBay (bayAt f k) = f := by
  unfold bayAt fieldOfBay
  omega

theorem bayInField_bayAt {f k : Nat} (hk : k < 36) : bayInField (bayAt f k) = k := by
  unfold bayAt bayInField
  omega

theorem fieldOfBay_lt {b : Nat} (h : b < 2304) : fieldOfBay b < 64 := by
  unfold fieldOfBay
  omega

theorem mem_baysOf {f b : Nat} (hf : f < 64) (h : b ∈ baysOf f) : b < 2304 ∧ fieldOfBay b = f := by
  obtain ⟨k, hk, rfl⟩ := List.mem_map.1 h
  have hk : k < 36 := List.mem_range.1 hk
  refine ⟨?_, fieldOfBay_bayAt hk⟩
  unfold bayAt
  omega

/-- Different bays have their states in different registers. -/
theorem bayPlace_ne {b c : Nat} (hne : b ≠ c) :
    (fieldOfBay b, bayInField b) ≠ (fieldOfBay c, bayInField c) := by
  intro heq
  obtain ⟨hf, hk⟩ := Prod.mk.inj heq
  exact hne (by rw [← bayAt_fieldOfBay b, hf, hk, bayAt_fieldOfBay])

/-- A state without bays, and without what a bay loses with its gate's supply. -/
def State.dimmed (s : State) : State :=
  { s with
    regs := [], bays := [], tiles := [], groups := [], slots := [], rules := [], sram := [], sramBad := [], sramWeak := [], lostTiles := []
    packets := [], outTurn := [], cvRefused := [] }

/-- Bays change state. -/
def Dims (s s' : State) : Prop := Keeps State.dimmed [.pwrBayState] s s'

namespace Dims
variable {s₀ s s' : State}

theorem refl (s : State) : Dims s s := Keeps.refl s

theorem trans (h : Dims s₀ s) (h' : Dims s s') : Dims s₀ s' := Keeps.trans h h'

theorem ite {c : Prop} [Decidable c] {a b : State} (ha : Dims s₀ a) (hb : Dims s₀ b) : Dims s₀ (if c then a else b) := by
  split
  · exact ha
  · exact hb

theorem each {α : Type} {l : List α} {f : State → α → State} (h : Dims s₀ s) (hf : ∀ (s : State) (a : α), Dims s₀ s → Dims s₀ (f s a)) :
    Dims s₀ (s.each l f) := by
  induction l generalizing s with
  | nil => exact h
  | cons a l ih => exact ih (hf s a h)

theorem setBays {m : Smap Nat BayPower} (h : Dims s₀ s) : Dims s₀ { s with bays := m } := h.trans (.quiet rfl fun _ _ _ => rfl)

theorem sf {f : RegField} {u k v : Nat} (h : Dims s₀ s) (hr : f.reg = .pwrBayState := by rfl) : Dims s₀ (s.sf f u k v) := by
  refine h.trans ⟨rfl, fun r u' k' hr' => State.rd_sf_ne s f u k v (.inr (by rw [hr]; decide)) fun heq => hr' ?_⟩
  rw [(Prod.mk.inj heq).1, hr]
  exact List.mem_singleton_self _

theorem setBay {b st : Nat} (h : Dims s₀ s) : Dims s₀ (s.setBay b st) := setBays h.sf

theorem dropTile {t : Nat} (h : Dims s₀ s) : Dims s₀ (s.dropTile t) := h.trans (.quiet rfl fun _ _ _ => rfl)

theorem openGate {b st : Nat} (h : Dims s₀ s) : Dims s₀ (s.openGate b st) := (h.each fun _ _ h => h.dropTile).setBay

theorem darkenBays {f : Nat} (h : Dims s₀ s) : Dims s₀ (s.darkenBays f) := h.each fun _ _ h => .ite h.openGate h

theorem fields (h : Dims s s') : s'.fields = s.fields := h.eq_of State.fields State.fields fun _ => rfl

theorem now (h : Dims s s') : s'.now = s.now := h.eq_of State.now State.now fun _ => rfl

end Dims

/-- A bay's state just set. -/
theorem State.bayState_setBay (s : State) (b st : Nat) : (s.setBay b st).bayState b = st % 8 :=
  gf_sf_self s F.pwrBayState_state (fieldOfBay b) (bayInField b) st (by decide) (by rfl)

theorem State.bayState_openGate (s : State) (b st : Nat) : (s.openGate b st).bayState b = st % 8 := bayState_setBay ..

/-- A bay's other fields of its register stay as its state is set. -/
theorem State.gf_setBay {g : RegField} (s : State) (b st : Nat) (hreg : g.reg = .pwrBayState) (hlo : 2 < g.lo) (u k : Nat) :
    (s.setBay b st).gf g u k = s.gf g u k := by
  change (s.sf F.pwrBayState_state (fieldOfBay b) (bayInField b) st).gf g u k = _
  by_cases h : (u, k) = (fieldOfBay b, bayInField b)
  · obtain ⟨rfl, rfl⟩ := Prod.mk.inj h
    exact gf_sf_apart s _ _ _ _ hreg (.inr hlo)
  · exact gf_sf_ne s _ _ _ _ (.inr (by decide)) fun heq => h (Prod.mk.inj heq).2

theorem State.gf_each_dropTile (s : State) (g : RegField) (u k : Nat) (l : List Nat) : (s.each l State.dropTile).gf g u k = s.gf g u k :=
  State.each_same (fun s => s.gf g u k) State.dropTile l (fun _ _ _ => rfl) s

theorem State.gf_openGate {g : RegField} (s : State) (b st : Nat) (hreg : g.reg = .pwrBayState) (hlo : 2 < g.lo) (u k : Nat) :
    (s.openGate b st).gf g u k = s.gf g u k := by
  rw [openGate, gf_setBay _ _ _ hreg hlo, gf_each_dropTile]

/-! ### A field fogs -/

/-- A state without what a field may lose as it fogs. -/
def State.lamps (s : State) : State := { s.sheltered.1 with bays := [], outTurn := [], cvRefused := [] }

/-- The registers that change as a field fogs. -/
def fogRegs : List Reg := fleeting ++ ([.pwrBayState, .clkRunning, .fkpStatus, .stnCountFog] : List Reg)

/-- A field fogged now. -/
def FieldSt.fog (x : FieldSt) (now code : Nat) : FieldSt := { x with fogged := true, held := true, fogAt := now, fogCause := code }

/-- Field `f` has fogged, and the others are as they were but for their sectors' marks. -/
structure Fogs (f code : Nat) (s s' : State) : Prop where
  keeps : Keeps State.lamps fogRegs s s'
  fog : (s'.fld f).lasting = ((s.fld f).fog s.now code).lasting
  others : ∀ g, g ≠ f → (s'.fld g).lasting = (s.fld g).lasting

theorem Dims.lamps {s s' : State} (h : Dims s s') : Keeps State.lamps fogRegs s s' :=
  (h.weaken State.lamps (fun _ => rfl) fun _ hr => hr).mono (by decide)

theorem Sheds.lamps {s s' : State} (h : Sheds s s') : Keeps State.lamps fogRegs s s' :=
  (h.weaken (fun x : State × (Nat → FieldSt) => x.1.lamps) (fun _ => rfl) fun _ hr => hr).mono fun _ hr => List.mem_append_left _ hr

theorem Marks.lamps {rs : List Reg} {s s' : State} (h : Marks rs s s') (hrs : ∀ r ∈ rs, r ∈ fogRegs) : Keeps State.lamps fogRegs s s' :=
  (Keeps.marks (fun _ => rfl) h).mono hrs

/-- The bays of a field that fogs. -/
theorem dims_fogBays {s₀ s : State} {f : Nat} {dark : Bool} (h : Dims s₀ s) :
    Dims s₀ (s.each (baysOf f) fun s b => match s.bayState b with
      | 1 => s.openGate b 0
      | 2 => if dark then s.openGate b 0 else s.setBay b 3
      | 3 => if dark then s.openGate b 0 else s
      | _ => s) := by
  refine h.each fun s b h => ?_
  split
  · exact h.openGate
  · exact .ite h.openGate h.setBay
  · exact .ite h.openGate h
  · exact h

theorem lamps_setFld (s : State) (f : Nat) (x : FieldSt) : Keeps State.lamps fogRegs s (s.setFld f x) := .quiet rfl fun _ _ _ => rfl

theorem lamps_rewrites (s : State) (l : List (Nat × Nat)) : Keeps State.lamps fogRegs s { s with rewrites := l } := .quiet rfl fun _ _ _ => rfl

theorem sheds_rewrites (s : State) (l : List (Nat × Nat)) : Sheds s { s with rewrites := l } := (Sheds.refl s).set

theorem fogField_spec {s : State} {f : Nat} (code : Nat) (dark : Bool) (hfog : (s.fld f).fogged = false) :
    Fogs f code s (s.fogField f code dark) := by
  rw [State.fogField, if_neg (by rw [hfog]; exact Bool.false_ne_true)]
  extract_lets s1 s2 s3 s4 s5 s6 _ s7 s8 s9 s10 s11 s12
  have m1 : Marks [.clkRunning] s s1 := .wr (by decide) (by decide) ..
  clear_value s1
  have d2 : Dims s1 s2 := dims_fogBays (.refl s1)
  clear_value s2
  have m3 : Marks [.fkpStatus] s2 s3 := .trans (.sf (by decide) (by decide) ..) (.sf (by decide) (by decide) ..)
  have m4 : Marks [.fkpStatus] s3 s4 := .sf (by decide) (by decide) ..
  have m5 : Marks [.stnCountFog] s4 s5 := .bump (by decide) (by decide) ..
  have m6 : Marks [] s5 s6 := .logEv ..
  clear_value s3 s4 s5 s6
  have k6 : Keeps State.lamps fogRegs s s6 :=
    ((((m1.lamps (by decide)).trans d2.lamps).trans (m3.lamps (by decide))).trans ((m4.lamps (by decide)).trans (m5.lamps (by decide)))).trans
      (m6.lamps (by decide))
  have hfields : s6.fields = s.fields := by
    rw [m6.beyond_eq State.fields fun _ => rfl, m5.beyond_eq State.fields fun _ => rfl, m4.beyond_eq State.fields fun _ => rfl,
      m3.beyond_eq State.fields fun _ => rfl, d2.fields, m1.beyond_eq State.fields fun _ => rfl]
  have hnow : s6.now = s.now := k6.eq_of State.now State.now fun _ => rfl
  have h12 : Sheds s7 s12 := by
    have h8 : Sheds s7 s8 := sheds_rewrites ..
    exact ((h8.dropArms.each fun _ _ h => h.sectorDown).breakLoading.each fun _ _ h => h.failTransfer)
  have hend : Sheds s7 (s12.sendNotice 4 code (s12.relaysOn f)) := h12.sendNotice
  have hfld (g : Nat) : ((s12.sendNotice 4 code (s12.relaysOn f)).fld g).lasting = (s7.fld g).lasting := congrFun (congrArg Prod.snd hend.look_eq) g
  have h7 (g : Nat) : s7.fld g = if g = f then (s.fld f).fog s.now code else s.fld g := by
    have hsame (g : Nat) : s6.fld g = s.fld g := by rw [State.fld, hfields, State.fld]
    change (s6.setFld f ((s6.fld f).fog s6.now code)).fld g = _
    rw [State.fld_setFld, hsame g, hsame f, hnow]
  refine ⟨k6.trans ((lamps_setFld ..).trans hend.lamps), ?_, fun g hg => ?_⟩
  · rw [hfld, h7, if_pos rfl]
  · rw [hfld, h7, if_neg hg]

namespace Fogs
variable {f code : Nat} {s s' : State}

theorem fogged (h : Fogs f code s s') : (s'.fld f).fogged = true := congrArg FieldSt.fogged h.fog

theorem held (h : Fogs f code s s') : (s'.fld f).held = true := congrArg FieldSt.held h.fog

end Fogs

/-- A field is fogged once it has fogged, or was. -/
theorem fogField_fogged (s : State) (f code : Nat) (dark : Bool) : ((s.fogField f code dark).fld f).fogged = true := by
  cases h : (s.fld f).fogged with
  | false => exact (fogField_spec code dark h).fogged
  | true => rwa [State.fogField, if_pos h]

/-- Registers that no fog changes. -/
theorem fogField_keeps (s : State) (f code : Nat) (dark : Bool) : Keeps State.lamps fogRegs s (s.fogField f code dark) := by
  cases h : (s.fld f).fogged with
  | false => exact (fogField_spec code dark h).keeps
  | true =>
    rw [State.fogField, if_pos h]
    exact .refl s

end Sys2Proof.Machine
end

section
/-! SUPPORT. Rails and bay gates. -/

namespace Sys2Proof.Machine

open Sys2Proof.Claims

/-! ### Rails -/

/-- A reading's voltage and current noted. -/
def State.noteRail (s : State) (x : RailReading) : State := (s.sf F.pwrRailStatus_vout 0 x.rail x.vout).sf F.pwrRailStatus_iout 0 x.rail x.iout

/-- A field of a register apart from the one that hardware sets. -/
theorem State.gf_hset_apart (s : State) (f : RegField) {g : RegField} (u k : Nat) (hreg : g.reg = f.reg) (h : g.hi < f.lo ∨ f.hi < g.lo) :
    (s.hset f u k).gf g u k = s.gf g u k :=
  gf_sf_apart (s.noteSet f u k) f u k 1 hreg h

theorem noteRail_marks (s : State) (x : RailReading) : Marks [.pwrRailStatus] s (s.noteRail x) :=
  .trans (.sf (by decide) (by decide) ..) (.sf (by decide) (by decide) ..)

theorem noteRail_vout (s : State) {x : RailReading} (h : x.vout < 65536) : (s.noteRail x).gf F.pwrRailStatus_vout 0 x.rail = x.vout := by
  rw [State.noteRail, State.gf_sf_apart _ F.pwrRailStatus_iout _ _ _ (g := F.pwrRailStatus_vout) rfl (by decide),
    State.gf_sf_self _ _ _ _ _ (by decide) (by rfl : _ = 65536), Nat.mod_eq_of_lt h]

theorem noteRail_iout (s : State) {x : RailReading} (h : x.iout < 1024) : (s.noteRail x).gf F.pwrRailStatus_iout 0 x.rail = x.iout := by
  rw [State.noteRail, State.gf_sf_self _ _ _ _ _ (by decide) (by rfl : _ = 1024), Nat.mod_eq_of_lt h]

theorem noteRail_fault (s : State) (x : RailReading) : (s.noteRail x).flag F.pwrRailStatus_fault 0 x.rail = s.flag F.pwrRailStatus_fault 0 x.rail := by
  rw [State.flag, State.noteRail, State.gf_sf_apart _ F.pwrRailStatus_iout _ _ _ (g := F.pwrRailStatus_fault) rfl (by decide),
    State.gf_sf_apart _ F.pwrRailStatus_vout _ _ _ (g := F.pwrRailStatus_fault) rfl (by decide), State.flag]

theorem railBad_of_marks {s s' : State} (h : Marks [.pwrRailStatus] s s') (x : RailReading) : s'.railBad x = s.railBad x := by
  have ht : s'.railTarget x.rail = s.railTarget x.rail := by
    rw [State.railTarget, h.gf_eq (by decide), h.gf_eq (by decide), State.railTarget]
  rw [State.railBad, ht, State.railBad]

/-- A rail's fault changes no register but its own fault bit's and those of a fog. -/
theorem railFault_keeps (s : State) (r : Nat) : Keeps State.lamps fogRegs (s.hset F.pwrRailStatus_fault 0 r) (s.railFault r) := by
  unfold State.railFault
  extract_lets s1 f _ s2
  have hlog : Keeps State.lamps fogRegs s1 s2 := Marks.lamps (rs := []) (.logEv ..) (by decide)
  split
  · exact (hlog.trans ((Dims.refl s2).darkenBays (f := f)).lamps).trans (fogField_keeps ..)
  · exact Marks.lamps (rs := []) (.logEv ..) (by decide)

theorem railFault_fogged (s : State) {r : Nat} (hr : r < 128) : ((s.railFault r).fld (r % 64)).fogged = true := by
  rw [State.railFault, if_pos hr]
  exact fogField_fogged ..

theorem railFault_flag (s : State) (r : Nat) : (s.railFault r).flag F.pwrRailStatus_fault 0 r = true := by
  rw [(railFault_keeps s r).flag_eq (by decide)]
  exact State.hset_flag _ _ _ _ (by decide) (by decide)

/-- Failed checks in a row with a reading. -/
def State.railCount (s : State) (x : RailReading) : Nat := if s.railBad x then mget 0 s.railFails x.rail + 1 else 0

/-- A count of failed checks noted. -/
def State.setRailFails (s : State) (r n : Nat) : State := { s with railFails := mput s.railFails r n }

theorem setRailFails_keeps (s : State) (r n : Nat) : Keeps State.fields [] s (s.setRailFails r n) := .quiet rfl fun _ _ _ => rfl

theorem takeReading_eq {s : State} {x : RailReading} (hr : x.rail < 133) (hen : x.rail < 128 → s.flag F.pwrRailStatus_enabled 0 x.rail = true)
    (ht : x.timeout = false) :
    s.takeReading x = if (3 ≤ s.railCount x ∨ x.fault = true) ∧ s.flag F.pwrRailStatus_fault 0 x.rail = false then
      ((s.noteRail x).setRailFails x.rail (s.railCount x)).railFault x.rail else (s.noteRail x).setRailFails x.rail (s.railCount x) := by
  have hskip : ¬ (133 ≤ x.rail ∨ (x.rail < 128 ∧ s.flag F.pwrRailStatus_enabled 0 x.rail = false)) := by
    rintro (h | ⟨h, hd⟩)
    · omega
    · exact Bool.false_ne_true (hd.symm.trans (hen h))
  rw [State.takeReading, if_neg hskip]
  extract_lets s1 n s2
  have h1 : s1 = s.noteRail x := by
    dsimp only [s1]
    rw [ht]
    exact if_neg Bool.false_ne_true
  have hn : n = s.railCount x := by
    dsimp only [n]
    rw [h1, railBad_of_marks (noteRail_marks s x)]
    rfl
  have h2 : s2 = (s.noteRail x).setRailFails x.rail (s.railCount x) := by
    dsimp only [s2]
    rw [hn, h1]
    rfl
  have hflag : s2.flag F.pwrRailStatus_fault 0 x.rail = s.flag F.pwrRailStatus_fault 0 x.rail := by
    rw [h2, (setRailFails_keeps ..).flag_eq (by decide), noteRail_fault]
  rw [hflag, hn, h2]

/-! ### Bay gates -/

/-- Another bay than `b` changes state. -/
structure Apart (b : Nat) (s s' : State) : Prop where
  keeps : Keeps (fun s => (mget ({} : BayPower) s.bays b, { s.dimmed with rampQueue := [] })) [.pwrBayState] s s'
  place : s'.rd .pwrBayState (fieldOfBay b) (bayInField b) = s.rd .pwrBayState (fieldOfBay b) (bayInField b)

namespace Apart
variable {b c : Nat} {s s' s'' : State}

theorem refl (s : State) : Apart b s s := ⟨.refl s, rfl⟩

theorem trans (h : Apart b s s') (h' : Apart b s' s'') : Apart b s s'' := ⟨h.keeps.trans h'.keeps, h'.place.trans h.place⟩

theorem gf_eq (h : Apart b s s') {g : RegField} (hg : g.reg = .pwrBayState) :
    s'.gf g (fieldOfBay b) (bayInField b) = s.gf g (fieldOfBay b) (bayInField b) := by
  rw [State.gf, hg, h.place, State.gf, hg]

theorem bayState (h : Apart b s s') : s'.bayState b = s.bayState b := h.gf_eq rfl

theorem bays (h : Apart b s s') : mget ({} : BayPower) s'.bays b = mget {} s.bays b := congrArg Prod.fst h.keeps.look_eq

theorem sf {f : RegField} (hne : b ≠ c) (hf : f.reg = .pwrBayState) (s : State) (v : Nat) :
    Apart b s (s.sf f (fieldOfBay c) (bayInField c) v) where
  keeps := ⟨rfl, ((Dims.refl s).sf hf).regs⟩
  place := State.rd_sf_ne _ _ _ _ _ (.inl (by decide)) fun heq => bayPlace_ne hne (Prod.mk.inj heq).2

theorem setBays (hne : b ≠ c) (s : State) (y : BayPower) : Apart b s { s with bays := mput s.bays c y } :=
  ⟨.quiet (Prod.ext (mget_mput_ne _ _ _ hne) rfl) fun _ _ _ => rfl, rfl⟩

theorem setBay (hne : b ≠ c) (s : State) (st : Nat) : Apart b s (s.setBay c st) := (sf hne rfl s st).trans (setBays hne _ _)

theorem startRamp (hne : b ≠ c) (s : State) : Apart b s (s.startRamp c) := by
  unfold State.startRamp
  split
  · exact (setBay hne s 1).trans (sf hne rfl _ _)
  · exact (setBay hne s 1).trans (sf hne rfl _ _)
  · split
    · exact refl s
    · exact setBay hne s 1
  · exact refl s

theorem rampFrom (hne : b ≠ c) (s : State) (t : Nat) : Apart b s (s.rampFrom c t) := (startRamp hne s).trans (setBays hne _ _)

theorem rampQueue (s : State) (q : List Nat) : Apart b s { s with rampQueue := q } := ⟨.quiet rfl fun _ _ _ => rfl, rfl⟩

theorem nextRamp (s : State) (b : Nat) : Apart b s (s.nextRamp b) := by
  unfold State.nextRamp
  extract_lets f
  split
  · exact refl s
  · next c hc =>
    have hne : b ≠ c := by
      have := List.find?_some hc
      simp only [Bool.and_eq_true, decide_eq_true_eq] at this
      exact this.1.symm
    split
    · exact refl s
    · exact (rampQueue s _).trans (rampFrom hne _ _)

end Apart

/-- A state with the bay's state set, with what it fell by noted in its register. -/
def State.tripNote (s : State) (b n step current : Nat) : State :=
  let f := fieldOfBay b
  let k := bayInField b
  let s := (s.openGate b (if n = 0 then 4 else 5)).sf F.pwrBayState_gate_faults f k (min 2 (n + 1))
  let s := (s.sf F.pwrBayState_fault_step f k step).sf F.pwrBayState_fault_current f k (min 255 current)
  s.sf F.pwrBayState_retry_pending f k (if n = 0 then 1 else 0)

theorem tripNote_dims (s : State) (b n step current : Nat) : Dims s (s.tripNote b n step current) := (Dims.refl s).openGate.sf.sf.sf.sf

theorem tripNote_bayState (s : State) (b n step current : Nat) : (s.tripNote b n step current).bayState b = if n = 0 then 4 else 5 := by
  have hapart : (s.tripNote b n step current).bayState b = (s.openGate b (if n = 0 then 4 else 5)).bayState b := by
    rw [State.tripNote, State.bayState, State.gf_sf_apart _ F.pwrBayState_retry_pending _ _ _ (g := F.pwrBayState_state) rfl (by decide),
      State.gf_sf_apart _ F.pwrBayState_fault_current _ _ _ (g := F.pwrBayState_state) rfl (by decide),
      State.gf_sf_apart _ F.pwrBayState_fault_step _ _ _ (g := F.pwrBayState_state) rfl (by decide),
      State.gf_sf_apart _ F.pwrBayState_gate_faults _ _ _ (g := F.pwrBayState_state) rfl (by decide), State.bayState]
  rw [hapart, State.bayState_openGate]
  split <;> rfl

theorem tripNote_gateFaults (s : State) (b n step current : Nat) :
    (s.tripNote b n step current).gf F.pwrBayState_gate_faults (fieldOfBay b) (bayInField b) = min 2 (n + 1) := by
  rw [State.tripNote, State.gf_sf_apart _ F.pwrBayState_retry_pending _ _ _ (g := F.pwrBayState_gate_faults) rfl (by decide),
    State.gf_sf_apart _ F.pwrBayState_fault_current _ _ _ (g := F.pwrBayState_gate_faults) rfl (by decide),
    State.gf_sf_apart _ F.pwrBayState_fault_step _ _ _ (g := F.pwrBayState_gate_faults) rfl (by decide),
    State.gf_sf_self _ _ _ _ _ (by decide) (by rfl : _ = 4)]
  omega

/-- A gate's trip counted, in the station's register and the field's, and its instant noted. -/
def State.tripCount (s : State) (b : Nat) : State :=
  let s := (s.bump .pwrCountGateFault (fieldOfBay b) (bayInField b) 1).hset F.pwrStatus_gate_fault (fieldOfBay b) 0
  { s with bays := mput s.bays b { mget {} s.bays b with tripAt := some s.now } }

theorem tripCount_regs (s : State) (b : Nat) : ∀ r u k, r ∉ [Reg.pwrCountGateFault, .pwrStatus] → (s.tripCount b).rd r u k = s.rd r u k :=
  have h : Marks [.pwrCountGateFault, .pwrStatus] s
      ((s.bump .pwrCountGateFault (fieldOfBay b) (bayInField b) 1).hset F.pwrStatus_gate_fault (fieldOfBay b) 0) :=
    .trans (.bump (by decide) (by decide) ..) (.hset (by decide) (by decide) ..)
  h.regs

theorem tripCount_count (s : State) (b : Nat) : (s.tripCount b).rd .pwrCountGateFault (fieldOfBay b) (bayInField b) =
    BitVec.ofNat 64 (satAdd32 (s.rd .pwrCountGateFault (fieldOfBay b) (bayInField b)).toNat 1) := by
  have h (u : State) : Marks [.pwrStatus] u (u.hset F.pwrStatus_gate_fault (fieldOfBay b) 0) := .hset (by decide) (by decide) ..
  exact ((h _).regs _ _ _ (by decide)).trans (State.rd_wr_self ..)

theorem tripCount_tripAt (s : State) (b : Nat) : (mget ({} : BayPower) (s.tripCount b).bays b).tripAt = some s.now :=
  congrArg BayPower.tripAt (mget_mput_self ..)

/-- What a gate's trip leaves of its bay. -/
structure Tripped (b n : Nat) (s s' : State) : Prop where
  state : s'.bayState b = if n = 0 then 4 else 5
  faults : s'.gf F.pwrBayState_gate_faults (fieldOfBay b) (bayInField b) = min 2 (n + 1)
  count : s'.rd .pwrCountGateFault (fieldOfBay b) (bayInField b) =
    BitVec.ofNat 64 (satAdd32 (s.rd .pwrCountGateFault (fieldOfBay b) (bayInField b)).toNat 1)
  tripAt : (mget ({} : BayPower) s'.bays b).tripAt = some s.now

theorem tripped_noted (s : State) (b n step current : Nat) : Tripped b n s ((s.tripNote b n step current).tripCount b) where
  state := by
    rw [State.bayState, State.gf, tripCount_regs _ _ _ _ _ (by decide)]
    exact tripNote_bayState ..
  faults := by
    rw [State.gf, tripCount_regs _ _ _ _ _ (by decide)]
    exact tripNote_gateFaults ..
  count := by rw [tripCount_count, (tripNote_dims ..).regs _ _ _ (by decide)]
  tripAt := by rw [tripCount_tripAt, (tripNote_dims ..).now]

theorem Tripped.sheds {b n : Nat} {s s' s'' : State} (h : Tripped b n s s') (hs : Sheds s' s'') : Tripped b n s s'' where
  state := (hs.gf_eq (by decide) _ _).trans h.state
  faults := (hs.gf_eq (by decide) _ _).trans h.faults
  count := (hs.regs _ _ _ (by decide)).trans h.count
  tripAt := by rw [hs.eq_of State.bays (·.1.bays) fun _ => rfl, h.tripAt]

theorem Tripped.apart {b n : Nat} {s s' s'' : State} (h : Tripped b n s s') (ha : Apart b s' s'') : Tripped b n s s'' where
  state := ha.bayState.trans h.state
  faults := (ha.gf_eq rfl).trans h.faults
  count := (ha.keeps.regs _ _ _ (by decide)).trans h.count
  tripAt := by rw [ha.bays, h.tripAt]

theorem gateTrip_spec (s : State) (b step current : Nat) :
    Tripped b (s.gf F.pwrBayState_gate_faults (fieldOfBay b) (bayInField b)) s (s.gateTrip b step current) := by
  unfold State.gateTrip
  extract_lets f k n s1 s2 s3 s4 s5 s6 _ s7 s8
  have h7 : Tripped b n s s7 := tripped_noted s b n step current
  clear_value s7
  have h8 : Sheds s7 s8 := (Sheds.refl s7).logEv
  clear_value s8
  change Tripped b n s _
  split
  · exact h7.sheds h8.resourceLost
  · exact h7.sheds h8.liveRecord

/-- What a reading leaves of its rail and its field. -/
theorem reading_gives {s : State} {x : RailReading} (hr : x.rail < 133) (hen : x.rail < 128 → s.flag F.pwrRailStatus_enabled 0 x.rail = true)
    (ht : x.timeout = false) (hv : x.vout < 65536) (hi : x.iout < 1024) :
    (s.takeReading x).gf F.pwrRailStatus_vout 0 x.rail = x.vout ∧ (s.takeReading x).gf F.pwrRailStatus_iout 0 x.rail = x.iout ∧
      (s.railBad x = false → (s.takeReading x).fields = s.fields ∧ mget 0 (s.takeReading x).railFails x.rail = 0) ∧
      (x.fault = true → s.flag F.pwrRailStatus_fault 0 x.rail = false → (s.takeReading x).flag F.pwrRailStatus_fault 0 x.rail = true ∧
        (x.rail < 128 → ((s.takeReading x).fld (x.rail % 64)).fogged = true)) := by
  have heq := takeReading_eq hr hen ht
  have hkeep := setRailFails_keeps (s.noteRail x) x.rail (s.railCount x)
  have hvout : ((s.noteRail x).setRailFails x.rail (s.railCount x)).gf F.pwrRailStatus_vout 0 x.rail = x.vout := by
    rw [hkeep.gf_eq (by decide), noteRail_vout s hv]
  have hiout : ((s.noteRail x).setRailFails x.rail (s.railCount x)).gf F.pwrRailStatus_iout 0 x.rail = x.iout := by
    rw [hkeep.gf_eq (by decide), noteRail_iout s hi]
  have hquiet : s.railBad x = false → ((s.noteRail x).setRailFails x.rail (s.railCount x)).fields = s.fields ∧
      mget 0 ((s.noteRail x).setRailFails x.rail (s.railCount x)).railFails x.rail = 0 := fun hbad =>
    ⟨hkeep.look_eq.trans ((noteRail_marks s x).beyond_eq State.fields fun _ => rfl), by
      rw [State.setRailFails, mget_mput_self, State.railCount, if_neg (by rw [hbad]; exact Bool.false_ne_true)]⟩
  have hsound : s.railBad x = false → ¬ (3 ≤ s.railCount x ∨ x.fault = true) := by
    intro hbad
    rw [State.railCount, if_neg (by rw [hbad]; exact Bool.false_ne_true)]
    have hf : x.fault = false := by
      simp only [State.railBad, Bool.or_eq_false_iff] at hbad
      exact hbad.1.1.2
    rw [hf]
    rintro (h | h)
    · omega
    · exact Bool.false_ne_true h
  generalize (s.noteRail x).setRailFails x.rail (s.railCount x) = u at heq hvout hiout hquiet
  by_cases hfault : (3 ≤ s.railCount x ∨ x.fault = true) ∧ s.flag F.pwrRailStatus_fault 0 x.rail = false
  · rw [heq, if_pos hfault]
    have hk := railFault_keeps u x.rail
    refine ⟨?_, ?_, fun hbad => absurd hfault.1 (hsound hbad), fun _ _ => ⟨railFault_flag u x.rail, railFault_fogged u⟩⟩
    · exact (hk.gf_eq (by decide) _ _).trans ((State.gf_hset_apart u F.pwrRailStatus_fault (g := F.pwrRailStatus_vout) _ _ rfl (by decide)).trans hvout)
    · exact (hk.gf_eq (by decide) _ _).trans ((State.gf_hset_apart u F.pwrRailStatus_fault (g := F.pwrRailStatus_iout) _ _ rfl (by decide)).trans hiout)
  · rw [heq, if_neg hfault]
    exact ⟨hvout, hiout, hquiet, fun hx hflag => absurd ⟨.inr hx, hflag⟩ hfault⟩

theorem ramp_setBay (s : State) (b : Nat) : (s.setBay b 2).bayState b = 2 := State.bayState_setBay s b 2

/-- A bay in DARK_FAULT that begins to ramp. -/
theorem bayState_rampFrom {s : State} {b : Nat} (h : s.bayState b = 4) (t : Nat) : (s.rampFrom b t).bayState b = 1 := by
  change (s.startRamp b).bayState b = 1
  rw [State.startRamp, h]
  change ((s.setBay b 1).sf F.pwrBayState_retry_pending (fieldOfBay b) (bayInField b) 0).bayState b = 1
  rw [State.bayState, State.gf_sf_apart _ F.pwrBayState_retry_pending _ _ _ (g := F.pwrBayState_state) rfl (by decide)]
  exact State.bayState_setBay s b 1

theorem askRamp_running {s : State} {b : Nat} (h : s.flag F.bcnStatus_running = true) : b ∈ (s.askRamp b).rampQueue := by
  rw [State.askRamp, if_pos (.inl h)]
  split
  · next hin => exact List.contains_iff_mem.1 hin
  · exact List.mem_append_right _ (List.mem_singleton_self b)

theorem askRamp_stopped {s : State} {b : Nat} (h : s.flag F.bcnStatus_running = false) (hr : s.ramping (fieldOfBay b) < 4) :
    s.askRamp b = s.rampFrom b (s.rampAfter (fieldOfBay b)) := by
  rw [State.askRamp, if_neg]
  rintro (h' | h')
  · exact Bool.false_ne_true (h.symm.trans h')
  · omega

theorem rampFrom_now (s : State) (b t : Nat) : (s.rampFrom b t).now = s.now := by
  change (s.startRamp b).now = s.now
  unfold State.startRamp
  split
  · rfl
  · rfl
  · split <;> rfl
  · rfl

theorem askRamp_now (s : State) (b : Nat) : (s.askRamp b).now = s.now := by
  unfold State.askRamp
  split
  · split <;> rfl
  · exact rampFrom_now ..

section
variable {s : State} {bay t : Nat} (hbay : bay < 2304)
include hbay

theorem rampStep_step (hat : (mget ({} : BayPower) s.bays bay).rampAt = some t) (hst : s.bayState bay = 1)
    (hstep : (mget ({} : BayPower) s.bays bay).step < 16) : exec (.rampStep bay) s = .next
      (({ s with bays := mput s.bays bay { mget ({} : BayPower) s.bays bay with step := (mget ({} : BayPower) s.bays bay).step + 1 } } : State).advanceTo
        (t + (mget ({} : BayPower) s.bays bay).step * 1250)) := by
  rw [show exec (.rampStep bay) s = execRampStep bay s from rfl, execRampStep, onUnit_next hbay]
  simp only [hat, hst, ne_eq, not_true_eq_false, if_false, if_pos hstep]

theorem rampStep_last (hat : (mget ({} : BayPower) s.bays bay).rampAt = some t) (hst : s.bayState bay = 1)
    (hstep : 16 ≤ (mget ({} : BayPower) s.bays bay).step) :
    exec (.rampStep bay) s = .next (((s.advanceTo (t + 20000)).setBay bay 2).nextRamp bay) := by
  rw [show exec (.rampStep bay) s = execRampStep bay s from rfl, execRampStep, onUnit_next hbay]
  simp only [hat, hst, ne_eq, not_true_eq_false, if_false, if_neg (Nat.not_lt.2 hstep)]

theorem bayGateFault_eq {current : Nat} (hst : s.bayState bay = 1 ∨ s.bayState bay = 2) (hcur : 4 * s.bayLimit bay < current) :
    exec (.bayGateFault bay current) s = .next
      ((s.gateTrip bay (if s.bayState bay = 1 then (mget ({} : BayPower) s.bays bay).step else 0) current).nextRamp bay) := by
  rw [show exec (.bayGateFault bay current) s = execBayGateFault bay current s from rfl, execBayGateFault, onUnit_next hbay, if_pos ⟨hst, hcur⟩]

theorem gateRetry_eq (hat : (mget ({} : BayPower) s.bays bay).tripAt = some t) (hst : s.bayState bay = 4)
    (hfog : (s.fld (fieldOfBay bay)).fogged = false) : exec (.gateRetry bay) s = .next ((s.advanceTo (t + 1000000000)).askRamp bay) := by
  rw [show exec (.gateRetry bay) s = execGateRetry bay s from rfl, execGateRetry, onUnit_next hbay]
  simp only [hat, hst, hfog, and_self, if_true]

theorem gateFaultCountClear_eq (hat : (mget ({} : BayPower) s.bays bay).litAt = some t) (hst : s.bayState bay = 2) :
    exec (.gateFaultCountClear bay) s =
      .next ((s.advanceTo (t + 3600000000000)).sf F.pwrBayState_gate_faults (fieldOfBay bay) (bayInField bay) 0) := by
  rw [show exec (.gateFaultCountClear bay) s = execGateFaultCountClear bay s from rfl, execGateFaultCountClear, onUnit_next hbay]
  simp only [hat, hst, if_true]

end

/-- Settles O48: each command acts on its own rail or bay, and what follows from its fault leaves that one alone. -/
theorem railsAndGates : Obligations.RailsAndGates := by
  intro s bay current t x
  refine ⟨fun hr hen ht hv hi c hc => ?_, fun hbay => ?_⟩
  · have hgives := reading_gives hr hen ht hv hi
    simp only [List.mem_cons, List.not_mem_nil, or_false] at hc
    obtain rfl | rfl := hc
    · exact gives_next rfl hgives
    · exact gives_next rfl hgives
  · intro f k y n
    refine ⟨fun hat hst => ⟨fun hstep => ?_, fun hstep => ?_⟩, fun hst hcur => ?_, fun htrip hst hfog => ?_, fun hlit hst => ?_⟩
    · exact gives_next (rampStep_step hbay hat hst hstep) ⟨congrArg BayPower.step (mget_mput_self ..), Nat.le_max_right .., hst⟩
    · have hnext := Apart.nextRamp ((s.advanceTo (t + 20000)).setBay bay 2) bay
      refine gives_next (rampStep_last hbay hat hst hstep) ⟨hnext.bayState.trans (ramp_setBay _ _), ?_⟩
      rw [hnext.keeps.eq_of State.now (·.2.now) fun _ => rfl]
      exact Nat.le_max_right ..
    · have h := (gateTrip_spec s bay (if s.bayState bay = 1 then (mget ({} : BayPower) s.bays bay).step else 0) current).apart (.nextRamp _ bay)
      exact gives_next (bayGateFault_eq hbay hst hcur) ⟨h.state, h.faults, h.count, fun _ => h.tripAt⟩
    · refine gives_next (gateRetry_eq hbay htrip hst hfog) ⟨?_, askRamp_running (s := s.advanceTo (t + 1000000000)), fun hstop hramp => ?_⟩
      · rw [askRamp_now]
        exact Nat.le_max_right ..
      · rw [askRamp_stopped (s := s.advanceTo (t + 1000000000)) hstop hramp]
        exact bayState_rampFrom (s := s.advanceTo (t + 1000000000)) hst _
    · refine gives_next (gateFaultCountClear_eq hbay hlit hst) ⟨State.gf_sf_self _ _ _ _ _ (by decide) (by rfl), Nat.le_max_right .., ?_⟩
      exact (State.gf_sf_apart _ F.pwrBayState_gate_faults _ _ _ (g := F.pwrBayState_state) rfl (by decide)).trans hst

end Sys2Proof.Machine
end

section
/-! SUPPORT. Droop, heat, the wafer's energy and the write inhibit. -/

namespace Sys2Proof.Machine

open Sys2Proof.Claims

/-! ### Droop -/

/-- A bay's cycle `c` stretched, but for the running ledger. -/
def State.stretchAt (s : State) (b c : Nat) : State :=
  let y : BayPower := mget {} s.bays b
  (({ s with bays := mput s.bays b { y with stretchAt := some c } } : State).bump .pwrCountStretch (fieldOfBay b) (bayInField b) 1).stretchBay b
    (c % 2 ^ 21)

/-- A droop request denied. -/
def State.denyStretch (s : State) (b : Nat) : State :=
  let y : BayPower := mget {} s.bays b
  ({ s with bays := mput s.bays b { y with denied := (s.cycleMark (fieldOfBay b) :: y.denied).take 16 } } : State).bump .pwrCountDenied
    (fieldOfBay b) (bayInField b) 1

theorem stretchAt_bays (s : State) (b c : Nat) : (mget ({} : BayPower) (s.stretchAt b c).bays b).stretchAt = some c :=
  congrArg BayPower.stretchAt (mget_mput_self ..)

theorem stretchAt_count (s : State) (b c : Nat) : (s.stretchAt b c).rd .pwrCountStretch (fieldOfBay b) (bayInField b) =
    BitVec.ofNat 64 (satAdd32 (s.rd .pwrCountStretch (fieldOfBay b) (bayInField b)).toNat 1) := State.rd_wr_self ..

theorem stretchAt_sram (s : State) (b c : Nat) : (s.stretchAt b c).sram = s.sram := rfl

theorem denyStretch_bays (s : State) (b : Nat) :
    (mget ({} : BayPower) (s.denyStretch b).bays b).stretchAt = (mget ({} : BayPower) s.bays b).stretchAt := by
  rw [show (s.denyStretch b).bays = mput s.bays b { mget ({} : BayPower) s.bays b with
    denied := (s.cycleMark (fieldOfBay b) :: (mget ({} : BayPower) s.bays b).denied).take 16 } from rfl, mget_mput_self]

theorem denyStretch_count (s : State) (b : Nat) : (s.denyStretch b).rd .pwrCountDenied (fieldOfBay b) (bayInField b) =
    BitVec.ofNat 64 (satAdd32 (s.rd .pwrCountDenied (fieldOfBay b) (bayInField b)).toNat 1) := State.rd_wr_self ..

theorem bayStretch_spec (s : State) (f b : Nat) : Keeps (fun s => (s.bays, s.sram)) [.pwrStretchLive] s (s.bayStretch f b) := by
  unfold State.bayStretch
  extract_lets k n s1
  have h1 : Keeps (fun s => (s.bays, s.sram)) [.pwrStretchLive] s s1 := .marks (fun _ => rfl) (.sf (by decide) (by decide) ..)
  clear_value s1
  split
  · exact h1
  · split
    · have hf (x : FieldSt) : Keeps (fun s => (s.bays, s.sram)) [.pwrStretchLive] s1 (s1.setFld f x) := .quiet rfl fun _ _ _ => rfl
      exact (h1.trans (hf _)).trans (.marks (fun _ => rfl) ((Marks.logEv ..).mono (rs := []) (by decide)))
    · exact h1

/-- A stretched cycle of a bay that lies in WORK, counted in the running ledger. -/
def State.runStretch (s : State) (b c : Nat) : State :=
  if 512 ≤ c % 2 ^ 21 ∧ c % 2 ^ 21 < settleStart (s.fld (fieldOfBay b)) then s.bayStretch (fieldOfBay b) b else s

theorem runStretch_spec (s : State) (b c : Nat) : Keeps (fun s => (s.bays, s.sram)) [.pwrStretchLive] s (s.runStretch b c) := by
  unfold State.runStretch
  split
  · exact bayStretch_spec ..
  · exact .refl s

section
variable {s : State} {bay : Nat} (hbay : bay < 2304) (hlit : s.bayState bay = 2) (hfog : (s.fld (fieldOfBay bay)).fogged = false)
  (hphase : (s.fld (fieldOfBay bay)).phase ≠ .idle)
include hbay hlit hfog hphase

theorem droopStretch_free
    (hfree : ∀ l, (mget ({} : BayPower) s.bays bay).stretchAt = some l → l + 8 ≤ s.cycleMark (fieldOfBay bay) + 1) :
    exec (.droopStretch bay) s = .next ((s.stretchAt bay (s.cycleMark (fieldOfBay bay) + 1)).runStretch bay (s.cycleMark (fieldOfBay bay) + 1)) := by
  rw [show exec (.droopStretch bay) s = execDroopStretch bay s from rfl, execDroopStretch, onUnit_next hbay]
  extract_lets f k y t free c s1 s2 s3 x s4
  have hnow : free (t + 1) = true := by
    dsimp only [free]
    split
    · next l hl => exact decide_eq_true (hfree l hl)
    · rfl
  have hc : c = t + 1 := if_pos hnow
  have h3 : s3 = s.stretchAt bay (s.cycleMark (fieldOfBay bay) + 1) := by
    dsimp only [s3, s2, s1]
    rw [hc]
    rfl
  clear_value s3
  subst h3
  rw [if_neg (by simp [hlit, hfog, hphase, f]), if_pos (by rw [hnow]; rfl), hc]
  rfl

theorem droopStretch_denied {l : Nat} (hlast : (mget ({} : BayPower) s.bays bay).stretchAt = some l)
    (hsoon : s.cycleMark (fieldOfBay bay) + 2 < l + 8) : exec (.droopStretch bay) s = .next (s.denyStretch bay) := by
  rw [show exec (.droopStretch bay) s = execDroopStretch bay s from rfl, execDroopStretch, onUnit_next hbay]
  extract_lets f k y t free c s1 s2 s3 x s4
  have hlater (c : Nat) (hc : c ≤ s.cycleMark (fieldOfBay bay) + 2) : free c = false := by
    dsimp only [free]
    rw [show y.stretchAt = some l from hlast]
    exact decide_eq_false (by omega)
  rw [if_neg (by simp [hlit, hfog, hphase, f]), if_neg (by rw [hlater (t + 1) (Nat.le_succ _), hlater (t + 2) (Nat.le_refl _)]; exact Bool.false_ne_true)]
  rfl

omit hphase in
theorem droopSustained_eq : exec (.droopSustained bay true) s = .next
    (((s.hset F.pwrStatus_droop_sustained (fieldOfBay bay) 0).logEv evDroopSustained (fieldOfBay bay) bay 0).fogField (fieldOfBay bay)
      (evCode evDroopSustained) false) := by
  rw [show exec (.droopSustained bay true) s = execDroopSustained bay true s from rfl, execDroopSustained, onUnit_next hbay]
  refine congrArg Host.Outcome.next (if_pos ?_)
  simp [hlit, hfog]

end

/-! ### Heat -/

theorem toSigned_ofSigned {v : Int} (hlo : -2048 ≤ v) (hhi : v < 2048) : toSigned 12 (ofSigned 12 v % 4096) = v := by
  have h12 : (2 : Nat) ^ 12 = 4096 := rfl
  have h11 : (2 : Nat) ^ (12 - 1) = 2048 := rfl
  simp only [toSigned, ofSigned, h12, h11]
  split <;> omega

/-- The alert of a reading, where it reaches the field's limit. -/
def State.alertFor (s : State) (f : Nat) (v : Int) : State :=
  if (s.gf F.thmCfg_alert f : Int) ≤ v then s.hset F.thmStatus_alert f 0 else s

/-- The counts of hot readings of a sensor with one more. -/
def State.noteHot (s : State) (f : Nat) (kt : Nat × Int) : State :=
  let h := mget (0, 0) s.hot (f, kt.1)
  { s with hot := mput s.hot (f, kt.1) (if 840 ≤ kt.2 then h.1 + 1 else 0, if 920 ≤ kt.2 then h.2 + 1 else 0) }

/-- A sensor's reading taken. -/
def State.takeTemp (s : State) (f : Nat) (kt : Nat × Int) : State :=
  ((s.sf F.thmTemp_temp f kt.1 (ofSigned 12 kt.2)).alertFor f kt.2).noteHot f kt

theorem State.gf_noteHot (s : State) (f : Nat) (kt : Nat × Int) (g : RegField) (u k : Nat) : (s.noteHot f kt).gf g u k = s.gf g u k := rfl

theorem State.flag_noteHot (s : State) (f : Nat) (kt : Nat × Int) (g : RegField) (u k : Nat) : (s.noteHot f kt).flag g u k = s.flag g u k := rfl

theorem State.hot_noteHot_ne (s : State) {f k : Nat} {kt : Nat × Int} (h : k ≠ kt.1) :
    mget (0, 0) (s.noteHot f kt).hot (f, k) = mget (0, 0) s.hot (f, k) :=
  mget_mput_ne _ _ _ fun heq => h (Prod.mk.inj heq).2

theorem State.hot_noteHot (s : State) (f k : Nat) (v : Int) :
    (mget (0, 0) (s.noteHot f (k, v)).hot (f, k)).1 = if 840 ≤ v then (mget (0, 0) s.hot (f, k)).1 + 1 else 0 :=
  congrArg Prod.fst (mget_mput_self ..)

theorem alertFor_marks (s : State) (f : Nat) (v : Int) : Marks [.thmStatus] s (s.alertFor f v) := by
  unfold State.alertFor
  split
  · exact .hset (by decide) (by decide) ..
  · exact .refl s

theorem alertFor_flag {s : State} {f : Nat} {v : Int} (h : s.flag F.thmStatus_alert f = true ∨ (s.gf F.thmCfg_alert f : Int) ≤ v) :
    (s.alertFor f v).flag F.thmStatus_alert f = true := by
  unfold State.alertFor
  split
  · exact State.hset_flag _ _ _ _ (by decide) (by decide)
  · next hle => exact h.resolve_right hle

theorem alertFor_trip (s : State) (f : Nat) (v : Int) : (s.alertFor f v).flag F.thmStatus_trip f = s.flag F.thmStatus_trip f := by
  unfold State.alertFor
  split
  · rw [State.flag, State.gf_hset_apart s F.thmStatus_alert (g := F.thmStatus_trip) f 0 rfl (by decide), State.flag]
  · rfl

/-- What other sensors' readings leave of sensor `k` of field `f`. -/
structure OtherTemps (f k : Nat) (s s' : State) : Prop where
  temp : s'.gf F.thmTemp_temp f k = s.gf F.thmTemp_temp f k
  hot : mget (0, 0) s'.hot (f, k) = mget (0, 0) s.hot (f, k)
  limit : s'.gf F.thmCfg_alert f = s.gf F.thmCfg_alert f
  trip : s'.flag F.thmStatus_trip f = s.flag F.thmStatus_trip f
  alert : s.flag F.thmStatus_alert f = true → s'.flag F.thmStatus_alert f = true

theorem OtherTemps.each {f k : Nat} {l : List (Nat × Int)} (hl : ∀ e ∈ l, e.1 ≠ k) (s : State) :
    OtherTemps f k s (s.each l fun s e => s.takeTemp f e) := by
  refine State.each_keeps (OtherTemps f k) (fun _ => ⟨rfl, rfl, rfl, rfl, id⟩) (fun _ _ _ h h' => ⟨h'.temp.trans h.temp, h'.hot.trans h.hot,
    h'.limit.trans h.limit, h'.trip.trans h.trip, h'.alert ∘ h.alert⟩) _ l (fun s e he => ?_) s
  have hne : k ≠ e.1 := (hl e he).symm
  have hm : Marks [.thmTemp] s (s.sf F.thmTemp_temp f e.1 (ofSigned 12 e.2)) := .sf (by decide) (by decide) ..
  have htemp : (s.sf F.thmTemp_temp f e.1 (ofSigned 12 e.2)).gf F.thmTemp_temp f k = s.gf F.thmTemp_temp f k :=
    State.gf_sf_ne _ _ _ _ _ (.inl (by decide)) fun heq => hne (Prod.mk.inj (Prod.mk.inj heq).2).2
  unfold State.takeTemp
  generalize s.sf F.thmTemp_temp f e.1 (ofSigned 12 e.2) = u at hm htemp
  have ha := alertFor_marks u f e.2
  refine ⟨?_, ?_, ?_, ?_, fun h => ?_⟩
  · rw [State.gf_noteHot, ha.gf_eq (by decide), htemp]
  · rw [State.hot_noteHot_ne _ hne, ha.beyond_eq State.hot fun _ => rfl, hm.beyond_eq State.hot fun _ => rfl]
  · rw [State.gf_noteHot, ha.gf_eq (by decide), hm.gf_eq (by decide)]
  · rw [State.flag_noteHot, alertFor_trip, hm.flag_eq (by decide)]
  · rw [State.flag_noteHot]
    exact alertFor_flag (.inl ((hm.flag_eq (by decide) _ _).trans h))

/-- What a sensor's own reading leaves. -/
structure OwnTemp (f k : Nat) (v : Int) (s s' : State) : Prop where
  temp : s'.gf F.thmTemp_temp f k = ofSigned 12 v % 4096
  hot : (mget (0, 0) s'.hot (f, k)).1 = if 840 ≤ v then (mget (0, 0) s.hot (f, k)).1 + 1 else 0
  trip : s'.flag F.thmStatus_trip f = s.flag F.thmStatus_trip f
  alert : (s.gf F.thmCfg_alert f : Int) ≤ v → s'.flag F.thmStatus_alert f = true

theorem takeTemp_own (s : State) (f k : Nat) (v : Int) : OwnTemp f k v s (s.takeTemp f (k, v)) := by
  have hm : Marks [.thmTemp] s (s.sf F.thmTemp_temp f k (ofSigned 12 v)) := .sf (by decide) (by decide) ..
  have htemp : (s.sf F.thmTemp_temp f k (ofSigned 12 v)).gf F.thmTemp_temp f k = ofSigned 12 v % 4096 :=
    State.gf_sf_self _ _ _ _ _ (by decide) (by rfl : _ = 4096)
  unfold State.takeTemp
  dsimp only
  generalize s.sf F.thmTemp_temp f k (ofSigned 12 v) = u at hm htemp
  have ha := alertFor_marks u f v
  refine ⟨?_, ?_, ?_, fun h => ?_⟩
  · rw [State.gf_noteHot, ha.gf_eq (by decide), htemp]
  · rw [State.hot_noteHot, ha.beyond_eq State.hot fun _ => rfl, hm.beyond_eq State.hot fun _ => rfl]
  · rw [State.flag_noteHot, alertFor_trip, hm.flag_eq (by decide)]
  · rw [State.flag_noteHot]
    exact alertFor_flag (.inr (by rwa [hm.gf_eq (by decide)]))

theorem OtherTemps.own {f k : Nat} {v : Int} {s s' s'' : State} (h : OtherTemps f k s s') (h' : OwnTemp f k v s' s'') : OwnTemp f k v s s'' where
  temp := h'.temp
  hot := by rw [h'.hot, h.hot]
  trip := h'.trip.trans h.trip
  alert hv := h'.alert (by rwa [h.limit])

theorem OwnTemp.others {f k : Nat} {v : Int} {s s' s'' : State} (h : OwnTemp f k v s s') (h' : OtherTemps f k s' s'') : OwnTemp f k v s s'' where
  temp := h'.temp.trans h.temp
  hot := by rw [h'.hot, h.hot]
  trip := h'.trip.trans h.trip
  alert hv := h'.alert (h.alert hv)

/-- Sensors each have one reading. -/
theorem zip_sensor {n k : Nat} {v : Int} {temps : List Int} (hk : k < n) (hv : temps[k]? = some v) :
    ∃ l r, (List.range n).zip temps = l ++ (k, v) :: r ∧ (∀ e ∈ l, e.1 ≠ k) ∧ ∀ e ∈ r, e.1 ≠ k := by
  have hget : ((List.range n).zip temps)[k]? = some (k, v) := List.getElem?_zip_eq_some.2 ⟨List.getElem?_range hk, hv⟩
  obtain ⟨hlen, hat⟩ := List.getElem?_eq_some_iff.1 hget
  refine ⟨((List.range n).zip temps).take k, ((List.range n).zip temps).drop (k + 1), ?_, fun e he => ?_, fun e he => ?_⟩
  · rw [← hat, ← List.drop_eq_getElem_cons hlen, List.take_append_drop]
  · obtain ⟨i, hi, rfl⟩ := List.mem_take_iff_getElem.1 he
    simp only [List.getElem_zip, List.getElem_range]
    omega
  · obtain ⟨i, hi, rfl⟩ := List.mem_drop_iff_getElem.1 he
    simp only [List.getElem_zip, List.getElem_range]
    omega

/-- The readings of a field's sensors, of which sensor `k` reads `v`. -/
theorem takeTemps_spec {f k : Nat} {v : Int} {temps : List Int} (hk : k < 9) (hv : temps[k]? = some v) (s : State) :
    OwnTemp f k v s (s.each ((List.range 9).zip temps) fun s e => s.takeTemp f e) := by
  obtain ⟨l, r, heq, hl, hr⟩ := zip_sensor hk hv
  rw [heq, State.each, List.foldl_append]
  exact ((OtherTemps.each hl s).own (takeTemp_own _ f k v)).others (OtherTemps.each hr _)

/-- The field's trip, once a sensor of it is too hot for the second time. -/
def State.thermTrip (s : State) (f : Nat) : State :=
  let s := (s.sf F.thmStatus_trip f 0 1).logEv evThermalTrip f f (ofSigned 32 (s.hottest f))
  ((s.stopFieldClocks f).darkenBays f).fogField f (evCode evThermalTrip) true

/-- Whether a sensor of the field has read too hot twice. -/
def State.hotTwice (s : State) (f : Nat) (p : Nat × Nat → Nat) : Bool := (List.range 9).any fun k => decide (2 ≤ p (mget (0, 0) s.hot (f, k)))

/-- A field trips that has read too hot twice and has not tripped. -/
def State.tripCheck (s : State) (f : Nat) : State := if s.hotTwice f (·.1) = true ∧ s.flag F.thmStatus_trip f = false then s.thermTrip f else s

/-- THERMTRIP_N is asserted, once a sensor is far too hot or three fields have tripped. -/
def State.thermtripCheck (s : State) (f : Nat) (far : Bool) : State :=
  if (far = true ∨ 3 ≤ s.tripped) ∧ s.thermtrip = false then
    ({ s with thermtrip := true } : State).logEv evThermtripAsserted 64 f 0
  else s

theorem thermalSample_eq {f : Nat} (hf : f < 64) (temps : List Int) (s : State) : exec (.thermalSample f temps) s = .next
    (let u := s.each ((List.range 9).zip temps) fun s e => s.takeTemp f e
     (u.tripCheck f).thermtripCheck f (u.hotTwice f (·.2))) := by
  rw [show exec (.thermalSample f temps) s = execThermalSample f temps s from rfl, execThermalSample, onField_next hf]
  rfl

theorem thermtripCheck_keeps (s : State) (f : Nat) (far : Bool) : Keeps (fun s => (s.fields, s.hot)) [] s (s.thermtripCheck f far) := by
  have ht : Keeps (fun s => (s.fields, s.hot)) [] s { s with thermtrip := true } := .quiet rfl fun _ _ _ => rfl
  unfold State.thermtripCheck
  split
  · exact ht.trans (.marks (fun _ => rfl) (.logEv ..))
  · exact .refl s

theorem thermTrip_keeps (s : State) (f : Nat) : Keeps State.lamps fogRegs (s.sf F.thmStatus_trip f 0 1) (s.thermTrip f) := by
  unfold State.thermTrip
  extract_lets s1
  have h1 : Keeps State.lamps fogRegs (s.sf F.thmStatus_trip f 0 1) s1 := Marks.lamps (rs := []) (.logEv ..) (by decide)
  have h2 : Keeps State.lamps fogRegs s1 (s1.stopFieldClocks f) := Marks.lamps (rs := [.clkRunning]) (.wr (by decide) (by decide) ..) (by decide)
  exact ((h1.trans h2).trans ((Dims.refl _).darkenBays (f := f)).lamps).trans (fogField_keeps ..)

theorem tripCheck_spec (s : State) (f : Nat) : (∀ k, (s.tripCheck f).gf F.thmTemp_temp f k = s.gf F.thmTemp_temp f k) ∧
    (s.tripCheck f).flag F.thmStatus_alert f = s.flag F.thmStatus_alert f ∧
    (s.hotTwice f (·.1) = true → s.flag F.thmStatus_trip f = false → (s.tripCheck f).flag F.thmStatus_trip f = true ∧
      ((s.tripCheck f).fld f).fogged = true) := by
  unfold State.tripCheck
  split
  · have h := thermTrip_keeps s f
    refine ⟨fun k => ?_, ?_, fun _ _ => ⟨?_, fogField_fogged ..⟩⟩
    · rw [h.gf_eq (by decide), State.gf_sf_ne _ _ _ _ _ (.inl (by decide)) (by simp [F.thmTemp_temp, F.thmStatus_trip])]
    · rw [h.flag_eq (by decide), State.flag, State.gf_sf_apart _ F.thmStatus_trip (g := F.thmStatus_alert) _ _ _ rfl (by decide), State.flag]
    · rw [h.flag_eq (by decide), State.flag, State.gf_sf_self _ _ _ _ _ (by decide) (by rfl : _ = 2)]
      rfl
  · next hno => exact ⟨fun _ => rfl, rfl, fun h h' => absurd ⟨h, h'⟩ hno⟩

/-- What a sample leaves for one of the field's sensors. -/
theorem thermalSample_gives {s : State} {f k : Nat} {v : Int} {temps : List Int} (hf : f < 64) (hk : k < 9) (hv : temps[k]? = some v)
    (hlo : -2048 ≤ v) (hhi : v < 2048) : Gives (.thermalSample f temps) s fun s' =>
      toSigned 12 (s'.gf F.thmTemp_temp f k) = v ∧ ((s.gf F.thmCfg_alert f : Int) ≤ v → s'.flag F.thmStatus_alert f = true) ∧
      (840 ≤ v → 1 ≤ (mget (0, 0) s.hot (f, k)).1 → s.flag F.thmStatus_trip f = false →
        s'.flag F.thmStatus_trip f = true ∧ (s'.fld f).fogged = true) := by
  have hown := takeTemps_spec (f := f) hk hv s
  refine gives_next (thermalSample_eq hf temps s) ?_
  generalize s.each ((List.range 9).zip temps) (fun s e => s.takeTemp f e) = u at hown
  dsimp only
  obtain ⟨htemp, halert, htrip⟩ := tripCheck_spec u f
  have hend := thermtripCheck_keeps (u.tripCheck f) f (u.hotTwice f (·.2))
  refine ⟨?_, fun hle => ?_, fun hhot hcount hflag => ?_⟩
  · rw [hend.gf_eq (by decide), htemp, hown.temp, toSigned_ofSigned hlo hhi]
  · rw [hend.flag_eq (by decide), halert, hown.alert hle]
  · have htwice : u.hotTwice f (·.1) = true := by
      refine List.any_eq_true.2 ⟨k, List.mem_range.2 hk, decide_eq_true ?_⟩
      change 2 ≤ (mget (0, 0) u.hot (f, k)).1
      rw [hown.hot, if_pos hhot]
      omega
    obtain ⟨h1, h2⟩ := htrip htwice (hown.trip.trans hflag)
    refine ⟨(hend.flag_eq (by decide) _ _).trans h1, ?_⟩
    rwa [State.fld, hend.eq_of State.fields Prod.fst fun _ => rfl]

/-! ### The wafer's energy and the write inhibit -/

theorem waferEnergy_gives {s : State} (suspects : List Nat) (hdone : ∀ g, g < 64 → (s.fld g).held = true ∨ (s.fld g).phase = .handover ∨
    (s.fld g).phase = .rest ∨ (s.fld g).phase = .idle) : Gives (.waferEnergy suspects) s fun s' =>
      s'.rd .pwrWaferEnergy = BitVec.ofNat 64 ((sumNat ((List.range 64).map fun g => s.gf F.pwrEnergyWatch_nj g) * 1000 +
        s.stationPower * s.gf F.bcnPeriod_period) / 1000000 % 2 ^ 32) ∧ s'.fields = s.fields := by
  rw [Gives, show exec (.waferEnergy suspects) s = execWaferEnergy suspects s from rfl, execWaferEnergy]
  extract_lets p stn nj s1 s2
  have h2 : Keeps State.fields [] s1 s2 := .quiet rfl fun _ _ _ => rfl
  have hend : Keeps State.fields [.pwrStatus] s2 (s2.each (suspects.filter fun f => decide (f < 64) && !s2.flag F.pwrStatus_meter_suspect f) fun s f =>
      (s.hset F.pwrStatus_meter_suspect f 0).logEv evMeterSuspect f f 0) :=
    .each _ _ (fun _ _ _ => .marks (fun _ => rfl) (.trans (.hset (by decide) (by decide) ..) ((Marks.logEv ..).mono (rs := []) (by decide)))) _
  rw [if_neg]
  case hnc =>
    rw [Bool.not_eq_true, List.any_eq_false]
    intro g hg
    obtain h | h | h | h := hdone g (List.mem_range.1 hg) <;> simp [h]
  refine ⟨_, rfl, ?_, ?_⟩
  · rw [hend.regs _ _ _ (by decide), h2.regs _ _ _ (by decide)]
    exact State.rd_wr_self ..
  · exact hend.look_eq.trans h2.look_eq

/-- A rail's low latched. -/
theorem flag_hset_kept {s : State} {f g : RegField} (u k u' k' : Nat) (hg : s.flag g u' k' = true)
    (hne : g.reg = f.reg → g.hi < f.lo ∨ f.hi < g.lo) (hport : g.reg ≠ .mshPortCfg) : (s.hset f u k).flag g u' k' = true := by
  by_cases h : (g.reg, u', k') = (f.reg, u, k)
  · obtain ⟨hreg, hplace⟩ := Prod.mk.inj h
    obtain ⟨rfl, rfl⟩ := Prod.mk.inj hplace
    rwa [State.flag, State.gf_hset_apart s f u' k' hreg (hne hreg)]
  · rw [State.flag, State.hset, State.gf_sf_ne _ _ _ _ _ (.inl hport) h]
    exact hg

/-- A rail's low latched, where it is. -/
def State.latchLow (s : State) (f : RegField) (low : Bool) : State := if low then s.hset f 0 0 else s

theorem latchLow_spec (s : State) (f : RegField) (low : Bool) (h64 : f.hi < 64) (hbit : f.hi = f.lo) :
    (low = true → (s.latchLow f low).flag f 0 0 = true) ∧ (s.latchLow f low).live = s.live := by
  unfold State.latchLow
  split
  · exact ⟨fun _ => State.hset_flag _ _ _ _ h64 hbit, rfl⟩
  · next hno => exact ⟨fun h => absurd h hno, rfl⟩

theorem latchLow_kept {s : State} {f g : RegField} {low : Bool} (hg : s.flag g 0 0 = true)
    (hne : g.reg = f.reg → g.hi < f.lo ∨ f.hi < g.lo) (hport : g.reg ≠ .mshPortCfg) : (s.latchLow f low).flag g 0 0 = true := by
  unfold State.latchLow
  split
  · exact flag_hset_kept _ _ _ _ hg hne hport
  · exact hg

/-- No rail has come back. -/
def State.railsLow (s : State) : State := { s with railsBack := none }

theorem State.flag_railsLow (s : State) (f : RegField) : s.railsLow.flag f 0 0 = s.flag f 0 0 := rfl

/-- Non-volatile memory inhibited. -/
def State.inhibit (s : State) : State := ((s.sf F.stnNvInhibit_inhibit 0 0 1).sf F.stnNvInhibit_releasing 0 0 0).railsLow

theorem inhibit_spec (s : State) : s.inhibit.flag F.stnNvInhibit_inhibit = true ∧ s.inhibit.live = s.live := by
  constructor
  · rw [State.inhibit, State.flag_railsLow, State.flag, State.gf_sf_apart _ F.stnNvInhibit_releasing (g := F.stnNvInhibit_inhibit) _ _ _ rfl (by decide),
      State.gf_sf_self _ _ _ _ _ (by decide) (by rfl : _ = 2)]
    rfl
  · rfl

theorem nvInhibit_eq {s : State} {aux core : Bool} (h : aux = true ∨ core = true) : exec (.nvInhibit aux core) s =
    .next ((s.inhibit.latchLow F.stnNvInhibit_aux_low aux).latchLow F.stnNvInhibit_core_low core) := by
  rw [show exec (.nvInhibit aux core) s = execNvInhibit aux core s from rfl, execNvInhibit, if_neg (by rintro ⟨rfl, rfl⟩; simp at h)]
  extract_lets s0 s1 s2
  have h1 : s1 = s.inhibit := rfl
  clear_value s1
  subst h1
  have h2 : s2 = s.inhibit.latchLow F.stnNvInhibit_aux_low aux := rfl
  clear_value s2
  subst h2
  rfl

theorem nvInhibit_gives {s : State} {aux core : Bool} (h : aux = true ∨ core = true) : Gives (.nvInhibit aux core) s fun s' =>
    s'.flag F.stnNvInhibit_inhibit = true ∧ (aux = true → s'.flag F.stnNvInhibit_aux_low = true) ∧
      (core = true → s'.flag F.stnNvInhibit_core_low = true) ∧ s'.live = s.live := by
  obtain ⟨hin, hlive⟩ := inhibit_spec s
  obtain ⟨haux, hlive1⟩ := latchLow_spec s.inhibit F.stnNvInhibit_aux_low aux (by decide) (by decide)
  have hin1 := latchLow_kept (f := F.stnNvInhibit_aux_low) (low := aux) hin (fun _ => by decide) (by decide)
  refine gives_next (nvInhibit_eq h) ?_
  generalize s.inhibit.latchLow F.stnNvInhibit_aux_low aux = u at haux hlive1 hin1
  obtain ⟨hcore, hlive2⟩ := latchLow_spec u F.stnNvInhibit_core_low core (by decide) (by decide)
  exact ⟨latchLow_kept hin1 (fun _ => by decide) (by decide), fun h => latchLow_kept (haux h) (fun _ => by decide) (by decide), hcore,
    hlive2.trans (hlive1.trans hlive)⟩

/-- What the copies of the ledger do not show. -/
def State.beyondCopies (s : State) : State := { s with copyA := {}, copyB := {}, ledgerRepair := none, regs := [] }

theorem repairCopies_keeps (s : State) : Keeps State.beyondCopies [] s s.repairCopies := by
  unfold State.repairCopies
  split
  · exact .refl s
  · exact .quiet rfl fun _ _ _ => rfl

theorem writeRecord_keeps (s : State) (r : Ledger) : Keeps State.beyondCopies [] s (s.writeRecord r) := .quiet rfl fun _ _ _ => rfl

theorem nvInhibitRelease_gives {s : State} (h : s.flag F.stnNvInhibit_inhibit = true) : Gives .nvInhibitRelease s fun s' =>
    s'.flag F.stnNvInhibit_inhibit = false ∧ s'.ledgerQueue = [] ∧ (∃ l, s'.live = s.live ++ l) ∧
      ∀ key v, Ledger.floor key v ∈ s.ledgerQueue → Ledger.floor key v ∈ s'.live := by
  rw [Gives, show exec .nvInhibitRelease s = execNvInhibitRelease s from rfl, execNvInhibitRelease,
    if_neg (by simp [h])]
  extract_lets s1 s2 s3 s4
  have h1 : s1.live = s.live ∧ s1.ledgerQueue = s.ledgerQueue := by
    dsimp only [s1]
    split <;> exact ⟨rfl, rfl⟩
  clear_value s1
  have h2 : Keeps State.beyondCopies [] ((s1.sf F.stnNvInhibit_inhibit 0 0 0).sf F.stnNvInhibit_releasing 0 0 0) s2 := repairCopies_keeps _
  have h3 : Keeps State.beyondCopies [] s2 s3 := .each _ _ (fun _ _ _ => writeRecord_keeps ..) _
  have h23 := h2.trans h3
  clear_value s2 s3
  have hlive : s3.live = s1.live := h23.eq_of State.live State.live fun _ => rfl
  have hqueue : s3.ledgerQueue = s1.ledgerQueue := h23.eq_of State.ledgerQueue State.ledgerQueue fun _ => rfl
  have hflag : s3.gf F.stnNvInhibit_inhibit 0 0 = 0 := by
    rw [h23.gf_eq (by decide), State.gf_sf_apart _ F.stnNvInhibit_releasing (g := F.stnNvInhibit_inhibit) _ _ _ rfl (by decide),
      State.gf_sf_self _ _ _ _ _ (by decide) (by rfl : _ = 2)]
  have h4 : s4.gf F.stnNvInhibit_inhibit 0 0 = s3.gf F.stnNvInhibit_inhibit 0 0 := rfl
  refine ⟨_, rfl, ?_, rfl, ⟨s3.ledgerQueue.filter fun x => !x.isDefect, ?_⟩, fun key v hmem => ?_⟩
  · rw [State.flag, State.gf_sf_apart _ F.stnNvInhibit_queued (g := F.stnNvInhibit_inhibit) _ _ _ rfl (by decide), h4, hflag]
    rfl
  · exact congrArg (· ++ _) (hlive.trans h1.1)
  · refine List.mem_append_right _ (List.mem_filter.2 ⟨?_, rfl⟩)
    rwa [hqueue, h1.2]

/-- A stretched cycle of a bay, counted in the running ledger or not. -/
theorem droopStretch_gives {s : State} {bay : Nat} (hbay : bay < 2304) (hlit : s.bayState bay = 2)
    (hfog : (s.fld (fieldOfBay bay)).fogged = false) (hphase : (s.fld (fieldOfBay bay)).phase ≠ .idle)
    (hfree : ∀ l, (mget ({} : BayPower) s.bays bay).stretchAt = some l → l + 8 ≤ s.cycleMark (fieldOfBay bay) + 1) :
    Gives (.droopStretch bay) s fun s' =>
      (mget ({} : BayPower) s'.bays bay).stretchAt = some (s.cycleMark (fieldOfBay bay) + 1) ∧
      s'.rd .pwrCountStretch (fieldOfBay bay) (bayInField bay) =
        BitVec.ofNat 64 (satAdd32 (s.rd .pwrCountStretch (fieldOfBay bay) (bayInField bay)).toNat 1) ∧ s'.sram = s.sram := by
  refine gives_next (droopStretch_free hbay hlit hfog hphase hfree) ?_
  have hbays := stretchAt_bays s bay (s.cycleMark (fieldOfBay bay) + 1)
  have hcount := stretchAt_count s bay (s.cycleMark (fieldOfBay bay) + 1)
  have hsram := stretchAt_sram s bay (s.cycleMark (fieldOfBay bay) + 1)
  generalize s.stretchAt bay (s.cycleMark (fieldOfBay bay) + 1) = u at hbays hcount hsram
  have h := runStretch_spec u bay (s.cycleMark (fieldOfBay bay) + 1)
  refine ⟨?_, ?_, ?_⟩
  · rw [h.eq_of State.bays Prod.fst fun _ => rfl, hbays]
  · rw [h.regs _ _ _ (by decide), hcount]
  · rw [h.eq_of State.sram Prod.snd fun _ => rfl, hsram]

theorem denyStretch_groups (s : State) (b : Nat) : (s.denyStretch b).groups = s.groups ∧ (s.denyStretch b).tiles = s.tiles := ⟨rfl, rfl⟩

/-- A field that fogs on a sustained droop. -/
theorem droopSustained_gives {s : State} {bay : Nat} (hbay : bay < 2304) (hlit : s.bayState bay = 2)
    (hfog : (s.fld (fieldOfBay bay)).fogged = false) : Gives (.droopSustained bay true) s fun s' =>
      (s'.fld (fieldOfBay bay)).fogged = true ∧ (s'.fld (fieldOfBay bay)).held = true ∧
        s'.flag F.pwrStatus_droop_sustained (fieldOfBay bay) = true := by
  refine gives_next (droopSustained_eq hbay hlit hfog) ?_
  have hset : Marks [.pwrStatus] s (s.hset F.pwrStatus_droop_sustained (fieldOfBay bay) 0) := .hset (by decide) (by decide) ..
  have hflag := State.hset_flag s F.pwrStatus_droop_sustained (fieldOfBay bay) 0 (by decide) (by decide)
  generalize s.hset F.pwrStatus_droop_sustained (fieldOfBay bay) 0 = u at hset hflag
  have hlog : Marks [] u (u.logEv evDroopSustained (fieldOfBay bay) bay 0) := .logEv ..
  generalize u.logEv evDroopSustained (fieldOfBay bay) bay 0 = w at hlog
  have hw : (w.fld (fieldOfBay bay)).fogged = false := by
    rwa [State.fld, hlog.beyond_eq State.fields fun _ => rfl, hset.beyond_eq State.fields fun _ => rfl]
  have h := fogField_spec (evCode evDroopSustained) false hw
  refine ⟨h.fogged, h.held, ?_⟩
  rw [h.keeps.flag_eq (by decide), hlog.flag_eq (by decide), hflag]

/-- Settles O49: each clause by what its command does to the bay, the field or the ledger it names. -/
theorem droopHeatAndEnergy : Obligations.DroopHeatAndEnergy := by
  intro s bay f k temps suspects aux core
  refine ⟨fun hbay hlit hfog hphase => ?_, fun hf hk v hv hlo hhi => thermalSample_gives hf hk hv hlo hhi, waferEnergy_gives suspects,
    nvInhibit_gives, nvInhibitRelease_gives⟩
  intro g j y
  refine ⟨droopStretch_gives hbay hlit hfog hphase, fun l hl hsoon => ?_, droopSustained_gives hbay hlit hfog⟩
  exact gives_next (droopStretch_denied hbay hlit hfog hphase hl hsoon)
    ⟨denyStretch_count .., (denyStretch_bays ..).trans hl, denyStretch_groups ..⟩

end Sys2Proof.Machine
end

section
/-! SUPPORT. Flags and bits of registers just set. -/

namespace Sys2Proof.Machine

namespace State
variable (s : State) (f : RegField) (u k v : Nat)

/-- A flag just set or cleared. -/
theorem flag_sf_self (h : f.hi < 64) (hbit : f.hi = f.lo) : (s.sf f u k v).flag f u k = decide (v % 2 = 1) := by
  rw [flag, gf_sf_self s f u k v h (m := 2) (by rw [hbit, Nat.add_sub_cancel_left, Nat.pow_one])]

/-- A flag of the same register. -/
theorem flag_sf_apart {g : RegField} (hreg : g.reg = f.reg) (h : g.hi < f.lo ∨ f.hi < g.lo) : (s.sf f u k v).flag g u k = s.flag g u k := by
  rw [flag, gf_sf_apart s f u k v hreg h, flag]

/-- A flag of another register. -/
theorem flag_sf_ne {g : RegField} {u' k' : Nat} (hr : g.reg ≠ .mshPortCfg ∨ f.reg ≠ .mshTileSector)
    (h : (g.reg, u', k') ≠ (f.reg, u, k)) : (s.sf f u k v).flag g u' k' = s.flag g u' k' := by
  rw [flag, gf_sf_ne s f u k v hr h, flag]

theorem gf_lt : s.gf f u k < 2 ^ (f.hi + 1 - f.lo) := bits_lt ..

/-- A bit of a field cleared, the others as they were. -/
theorem testBit_sf_clear (h : f.hi < 64) (i j : Nat) :
    ((s.sf f u k (setBits (s.gf f u k) i i 0)).gf f u k).testBit j = (decide (j ≠ i) && (s.gf f u k).testBit j) := by
  rw [gf_sf_self s f u k _ h rfl, Nat.testBit_mod_two_pow, testBit_setBits]
  by_cases hj : j = i
  · simp [hj]
  · rw [if_neg (by omega)]
    by_cases hw : j < f.hi + 1 - f.lo
    · simp [hw, hj]
    · have : (s.gf f u k).testBit j = false :=
        Nat.testBit_lt_two_pow (Nat.lt_of_lt_of_le (gf_lt ..) (Nat.pow_le_pow_right (by decide) (Nat.not_lt.1 hw)))
      simp [this]

/-- A bit of a field set, the others as they were. -/
theorem testBit_sf_set (h : f.hi < 64) {i : Nat} (hi : i < f.hi + 1 - f.lo) (j : Nat) :
    ((s.sf f u k (setBits (s.gf f u k) i i 1)).gf f u k).testBit j = (decide (j = i) || (s.gf f u k).testBit j) := by
  rw [gf_sf_self s f u k _ h rfl, Nat.testBit_mod_two_pow, testBit_setBits]
  by_cases hj : j = i
  · simp [hj, hi]
  · rw [if_neg (by omega)]
    by_cases hw : j < f.hi + 1 - f.lo
    · simp [hw, hj]
    · have : (s.gf f u k).testBit j = false :=
        Nat.testBit_lt_two_pow (Nat.lt_of_lt_of_le (gf_lt ..) (Nat.pow_le_pow_right (by decide) (Nat.not_lt.1 hw)))
      simp [this, hw, hj]

/-- A flag of another register than hardware sets, or of another unit. -/
theorem flag_hset_ne {g : RegField} {u' k' : Nat} (hr : g.reg ≠ .mshPortCfg ∨ f.reg ≠ .mshTileSector)
    (h : (g.reg, u', k') ≠ (f.reg, u, k)) : (s.hset f u k).flag g u' k' = s.flag g u' k' :=
  flag_sf_ne (s.noteSet f u k) f u k 1 hr h

theorem flag_hset_apart {g : RegField} (hreg : g.reg = f.reg) (h : g.hi < f.lo ∨ f.hi < g.lo) : (s.hset f u k).flag g u k = s.flag g u k :=
  flag_sf_apart (s.noteSet f u k) f u k 1 hreg h

end State

end Sys2Proof.Machine
end

section
/-! SUPPORT. Clock sources, PLLs and clock enables. -/

namespace Sys2Proof.Machine

open Sys2Proof.Claims

/-! ### Sources -/

theorem sourceLost_flag (s : State) (k : Nat) : (s.sourceLost k).flag (sourceField k) = false := by
  have hbump (u : State) : Marks [.clkCountLoss] u (u.bump .clkCountLoss 0 k 1) := .bump (by decide) (by decide) ..
  have hf : (sourceField k).reg = .clkSrcStatus ∧ (sourceField k).hi < 64 ∧ (sourceField k).hi = (sourceField k).lo := by
    unfold sourceField
    split <;> decide
  obtain ⟨hreg, h64, hbit⟩ := hf
  rw [State.sourceLost, (hbump _).flag_eq (by rw [hreg]; decide), State.flag_sf_self _ _ _ _ _ h64 hbit]
  rfl

theorem sourceLost_marks (s : State) (k : Nat) : Marks [.clkSrcStatus, .clkCountLoss] s (s.sourceLost k) := by
  have hreg : (sourceField k).reg = .clkSrcStatus := by
    unfold sourceField
    split <;> rfl
  exact .trans (.sf (by rw [hreg]; decide) (by rw [hreg]; decide) ..) (.bump (by decide) (by decide) ..)

/-- Another source's bit, or another flag of the register. -/
theorem sourceLost_apart (s : State) (k : Nat) {g : RegField} (hreg : g.reg = .clkSrcStatus)
    (h : g.hi < (sourceField k).lo ∨ (sourceField k).hi < g.lo) : (s.sourceLost k).flag g = s.flag g := by
  have hbump (u : State) : Marks [.clkCountLoss] u (u.bump .clkCountLoss 0 k 1) := .bump (by decide) (by decide) ..
  have hf : (sourceField k).reg = .clkSrcStatus := by
    unfold sourceField
    split <;> rfl
  rw [State.sourceLost, (hbump _).flag_eq (by rw [hreg]; decide), State.flag_sf_apart _ _ _ _ _ (hreg.trans hf.symm) h]

/-- Selections and levels replaced, and nothing else. -/
def Reselects (s s' : State) : Prop := Keeps (fun s => { s with sectors := [], fields := [], regs := [] }) [] s s'

theorem holdoverWatch_keeps (s : State) (pick : SectorSt → Selection) (put : SectorSt → Selection → SectorSt)
    (level : FieldSt → Point → FieldSt) : Reselects s (s.holdoverWatch pick put level) := by
  refine Keeps.each _ _ (fun s fs _ => ?_) s
  extract_lets d x s1 picks
  have hset (u : State) (f : Nat) (y : FieldSt) : Reselects u (u.setFld f y) := .quiet rfl fun _ _ _ => rfl
  have hupd (u : State) (k : Nat) (g : SectorSt → SectorSt) : Reselects u (u.updSec k g) := by
    unfold State.updSec
    split
    · exact .quiet rfl fun _ _ _ => rfl
    · exact Keeps.refl u
  have h1 : Reselects s s1 := Keeps.each _ _ (fun _ _ _ => hupd ..) s
  exact Keeps.trans h1 (Keeps.each _ _ (fun _ _ _ => hset ..) s1)

theorem holdoverLimits_keeps (s : State) : Reselects s s.holdoverLimits := by
  unfold State.holdoverLimits
  extract_lets s1
  have h1 : Reselects s s1 := holdoverWatch_keeps ..
  split
  · exact Keeps.trans h1 (holdoverWatch_keeps ..)
  · exact h1

/-- XA noted as lost. -/
def State.xaGone (s : State) : State := { s.sourceLost 0 with xaLostAt := some s.now }

/-- Holdover begun. -/
def State.holdover (s : State) : State := (s.sf F.clkSrcStatus_holdover 0 0 1).sf F.bcnStatus_holdover 0 0 1

theorem xaLoss_eq {s : State} (hxa : s.flag F.clkSrcStatus_xa_ok = true) (hlock : s.flag F.clkSrcStatus_stn_lock = true)
    (hfirc : s.flag F.clkSrcStatus_firc_ok = true) : exec .xaLoss s = .next
      (if s.xaGone.flag F.clkSrcStatus_holdover then s.xaGone.holdover else (s.xaGone.holdover.logEv evClockHoldover 64 64 0).holdoverLimits) := by
  have hkeep {g : RegField} (hreg : g.reg = .clkSrcStatus) (h : g.hi < 0 ∨ 0 < g.lo) : s.xaGone.flag g = s.flag g :=
    sourceLost_apart s 0 hreg h
  rw [show exec .xaLoss s = execXaLoss s from rfl, execXaLoss, if_neg (by simp [hxa])]
  extract_lets _ s1 again s2
  have h1 : s1 = s.xaGone := rfl
  clear_value s1
  subst h1
  rw [if_neg (by rw [hkeep rfl (by decide), hlock]; decide), if_neg (by rw [hkeep rfl (by decide), hfirc]; decide)]
  rfl

theorem holdover_flags (s : State) : s.holdover.flag F.clkSrcStatus_holdover = true ∧ s.holdover.flag F.bcnStatus_holdover = true := by
  constructor
  · rw [State.holdover, State.flag_sf_ne _ _ _ _ _ (.inl (by decide)) (by decide), State.flag_sf_self _ _ _ _ _ (by decide) (by decide)]
    rfl
  · rw [State.holdover, State.flag_sf_self _ _ _ _ _ (by decide) (by decide)]
    rfl

theorem holdover_xa (s : State) : s.holdover.flag F.clkSrcStatus_xa_ok = s.flag F.clkSrcStatus_xa_ok := by
  rw [State.holdover, State.flag_sf_ne _ _ _ _ _ (.inl (by decide)) (by decide), State.flag_sf_apart _ F.clkSrcStatus_holdover _ _ _ (g := F.clkSrcStatus_xa_ok) rfl (by decide)]

theorem xaLoss_gives {s : State} (hxa : s.flag F.clkSrcStatus_xa_ok = true) (hlock : s.flag F.clkSrcStatus_stn_lock = true)
    (hfirc : s.flag F.clkSrcStatus_firc_ok = true) : Gives .xaLoss s fun s' => s'.flag F.clkSrcStatus_xa_ok = false ∧
      s'.flag F.clkSrcStatus_holdover = true ∧ s'.flag F.bcnStatus_holdover = true ∧ s'.xaLostAt = some s.now := by
  refine gives_next (xaLoss_eq hxa hlock hfirc) ?_
  have hlost : s.xaGone.flag F.clkSrcStatus_xa_ok = false := sourceLost_flag s 0
  have hat : s.xaGone.xaLostAt = some s.now := rfl
  generalize s.xaGone = u at hlost hat
  obtain ⟨hsrc, hbcn⟩ := holdover_flags u
  have hxa' := (holdover_xa u).trans hlost
  have hat' : u.holdover.xaLostAt = some s.now := hat
  generalize u.holdover = w at hsrc hbcn hxa' hat'
  split
  · exact ⟨hxa', hsrc, hbcn, hat'⟩
  · have hlog : Marks [] w (w.logEv evClockHoldover 64 64 0) := .logEv ..
    have hend := holdoverLimits_keeps (w.logEv evClockHoldover 64 64 0)
    refine ⟨?_, ?_, ?_, ?_⟩
    · rw [hend.flag_eq (by decide), hlog.flag_eq (by decide), hxa']
    · rw [hend.flag_eq (by decide), hlog.flag_eq (by decide), hsrc]
    · rw [hend.flag_eq (by decide), hlog.flag_eq (by decide), hbcn]
    · rw [hend.eq_of State.xaLostAt (·.xaLostAt) fun _ => rfl, hlog.beyond_eq State.xaLostAt fun _ => rfl, hat']

/-! ### PLLs and links -/

theorem b2n_mod (b : Bool) : decide (b2n b % 2 = 1) = b := by cases b <;> rfl

/-- A PLL's lock bit as set. -/
theorem setLock_lock (s : State) (k : Nat) (lock : Bool) : (s.setLock k lock).flag F.clkPllStatus_lock 0 k = lock := by
  unfold State.setLock
  extract_lets s1 s2
  have h1 : s1.flag F.clkPllStatus_lock 0 k = lock := by
    dsimp only [s1]
    rw [State.flag_sf_self _ _ _ _ _ (by decide) (by decide), b2n_mod]
  clear_value s1
  have h2 : s2.flag F.clkPllStatus_lock 0 k = lock := by
    dsimp only [s2]
    split
    · rw [State.flag_sf_ne _ _ _ _ _ (.inl (by decide)) (by simp [F.clkPllStatus_lock, F.clkSrcStatus_stn_lock]), h1]
    · exact h1
  clear_value s2
  split
  · exact h2
  · rw [State.flag_hset_apart _ F.clkPllStatus_lost (g := F.clkPllStatus_lock) _ _ rfl (by decide), h2]

/-- A PLL that loses lock shows it. -/
theorem setLock_lost (s : State) (k : Nat) : (s.setLock k false).flag F.clkPllStatus_lost 0 k = true := by
  unfold State.setLock
  extract_lets s1 s2
  rw [if_neg Bool.false_ne_true]
  exact State.hset_flag _ _ _ _ (by decide) (by decide)

/-- Another PLL's lock, as one of a field or a rim changes its own. -/
theorem setLock_other (s : State) {j k : Nat} (lock : Bool) (hne : j ≠ k) :
    (s.setLock k lock).flag F.clkPllStatus_lock 0 j = s.flag F.clkPllStatus_lock 0 j := by
  have hplace {f : RegField} : (F.clkPllStatus_lock.reg, 0, j) ≠ (f.reg, 0, k) := by simp [hne]
  unfold State.setLock
  extract_lets s1 s2
  have h1 : s1.flag F.clkPllStatus_lock 0 j = s.flag F.clkPllStatus_lock 0 j := by
    dsimp only [s1]
    rw [State.flag_sf_ne _ _ _ _ _ (.inl (by decide)) hplace]
  clear_value s1
  have h2 : s2.flag F.clkPllStatus_lock 0 j = s.flag F.clkPllStatus_lock 0 j := by
    dsimp only [s2]
    split
    · rw [State.flag_sf_ne _ _ _ _ _ (.inl (by decide)) (by simp [F.clkPllStatus_lock, F.clkSrcStatus_stn_lock]), h1]
    · exact h1
  clear_value s2
  split
  · exact h2
  · rw [State.flag_hset_ne _ _ _ _ (.inl (by decide)) hplace, h2]

/-- A PLL but the station's changes its own register alone. -/
theorem setLock_marks (s : State) {k : Nat} (lock : Bool) (hk : k ≠ 0) : Marks [.clkPllStatus] s (s.setLock k lock) := by
  unfold State.setLock
  extract_lets s1 s2
  have h1 : Marks [.clkPllStatus] s s1 := .sf (by decide) (by decide) ..
  have h2 : s2 = s1 := if_neg hk
  rw [h2]
  clear_value s1
  split
  · exact h1
  · exact h1.trans (.hset (by decide) (by decide) ..)

/-- Whether the link of a rim port is down. -/
def State.downAt (s : State) (target : Nat) : Prop :=
  (target < 4 → (s.gf F.stnStartupPorts_pcie).testBit target = false) ∧
  (4 ≤ target → target < 20 → (s.gf F.stnStartupPorts_cxl).testBit (target - 4) = false) ∧
  (20 ≤ target → (s.gf F.stnStartupPorts_jalfen).testBit (target - 20) = false)

/-- The bits of up ports after one link has gone down. -/
theorem linkDown_bits (s : State) (t j : Nat) :
    ((s.linkDown t).gf F.stnStartupPorts_pcie).testBit j = (decide (¬ (t < 4 ∧ j = t)) && (s.gf F.stnStartupPorts_pcie).testBit j) ∧
    ((s.linkDown t).gf F.stnStartupPorts_cxl).testBit j =
      (decide (¬ (4 ≤ t ∧ t < 20 ∧ j = t - 4)) && (s.gf F.stnStartupPorts_cxl).testBit j) ∧
    ((s.linkDown t).gf F.stnStartupPorts_jalfen).testBit j =
      (decide (¬ (20 ≤ t ∧ j = t - 20)) && (s.gf F.stnStartupPorts_jalfen).testBit j) := by
  unfold State.linkDown
  split
  · next h =>
    rw [State.testBit_sf_clear s F.stnStartupPorts_pcie _ _ (by decide),
      State.gf_sf_apart _ F.stnStartupPorts_pcie _ _ _ (g := F.stnStartupPorts_cxl) rfl (by decide),
      State.gf_sf_apart _ F.stnStartupPorts_pcie _ _ _ (g := F.stnStartupPorts_jalfen) rfl (by decide)]
    simp [h, show ¬ 4 ≤ t by omega, show ¬ 20 ≤ t by omega]
  · next h4 =>
    split
    · next h20 =>
      have hne {g : RegField} (hg : g.reg = .stnStartupPorts) (u : State) (k : Nat) :
          (u.sf F.stgEngineStatus_link_down 0 k 1).gf g 0 0 = u.gf g 0 0 :=
        State.gf_sf_ne _ _ _ _ _ (.inl (by rw [hg]; decide)) (by rw [hg]; simp [F.stgEngineStatus_link_down])
      rw [hne rfl, hne rfl, hne rfl, State.testBit_sf_clear s F.stnStartupPorts_cxl _ _ (by decide),
        State.gf_sf_apart _ F.stnStartupPorts_cxl _ _ _ (g := F.stnStartupPorts_pcie) rfl (by decide),
        State.gf_sf_apart _ F.stnStartupPorts_cxl _ _ _ (g := F.stnStartupPorts_jalfen) rfl (by decide)]
      simp [h4, h20, Nat.not_lt.1 h4, show ¬ 20 ≤ t by omega]
    · next h20 =>
      rw [State.testBit_sf_clear s F.stnStartupPorts_jalfen _ _ (by decide),
        State.gf_sf_apart _ F.stnStartupPorts_jalfen _ _ _ (g := F.stnStartupPorts_pcie) rfl (by decide),
        State.gf_sf_apart _ F.stnStartupPorts_jalfen _ _ _ (g := F.stnStartupPorts_cxl) rfl (by decide)]
      simp [h4, h20, Nat.not_lt.1 h20]

theorem linkDown_marks (s : State) (t : Nat) : Marks [.stnStartupPorts, .stgEngineStatus] s (s.linkDown t) := by
  unfold State.linkDown
  split
  · exact .sf (by decide) (by decide) ..
  · split
    · exact .trans (.sf (by decide) (by decide) ..) (.sf (by decide) (by decide) ..)
    · exact .sf (by decide) (by decide) ..

theorem downAt_linkDown (s : State) (t : Nat) : (s.linkDown t).downAt t := by
  refine ⟨fun h => ?_, fun h h' => ?_, fun h => ?_⟩
  · rw [(linkDown_bits s t t).1]
    simp [h]
  · rw [(linkDown_bits s t (t - 4)).2.1]
    simp [h, h']
  · rw [(linkDown_bits s t (t - 20)).2.2]
    simp [h]

theorem downAt_kept {s : State} {t : Nat} (t' : Nat) (h : s.downAt t) : (s.linkDown t').downAt t := by
  obtain ⟨hp, hc, hj⟩ := h
  refine ⟨fun h => ?_, fun h h' => ?_, fun h => ?_⟩
  · rw [(linkDown_bits s t' t).1, hp h, Bool.and_false]
  · rw [(linkDown_bits s t' (t - 4)).2.1, hc h h', Bool.and_false]
  · rw [(linkDown_bits s t' (t - 20)).2.2, hj h, Bool.and_false]

/-- Every rim PLL group without lock. -/
def State.rimsOut (s : State) : State :=
  s.each (List.range 4) fun s r => if s.flag F.clkPllStatus_lock 0 (129 + r) then s.setLock (129 + r) false else s

theorem rimsOut_marks (s : State) : Marks [.clkPllStatus] s s.rimsOut := by
  refine Marks.each _ _ (fun s r _ => ?_) s
  split
  · exact setLock_marks _ _ (by omega)
  · exact .refl s

theorem rimsOut_lock (s : State) : ∀ r, r < 4 → s.rimsOut.flag F.clkPllStatus_lock 0 (129 + r) = false := by
  refine fun r hr => State.each_gives (P := fun r s => s.flag F.clkPllStatus_lock 0 (129 + r) = false) (fun s r _ => ?_) (fun s r _ q hq => ?_) s r
    (List.mem_range.2 hr)
  · split
    · exact setLock_lock ..
    · next h => exact Bool.eq_false_iff.2 h
  · split
    · by_cases heq : q = r
      · rw [heq, setLock_lock]
      · rw [setLock_other _ _ (by omega), hq]
    · exact hq

/-- The resets of rim ports abandoned. -/
def State.dropRimResets (s : State) : State :=
  let s : State := { s with resets := s.resets.filter (·.domain ≠ 4) }
  if s.resets = [] then s.sf F.rstStatus_busy 0 0 0 else s

theorem dropRimResets_regs (s : State) : ∀ r u k, r ∉ [Reg.rstStatus] → s.dropRimResets.rd r u k = s.rd r u k := by
  have hset (u : State) : Marks [.rstStatus] u (u.sf F.rstStatus_busy 0 0 0) := .sf (by decide) (by decide) ..
  unfold State.dropRimResets
  extract_lets s1
  have h1 : ∀ r u k, s1.rd r u k = s.rd r u k := fun _ _ _ => rfl
  clear_value s1
  intro r u k hr
  split
  · rw [(hset s1).regs _ _ _ hr, h1]
  · exact h1 ..

theorem refclkLost_eq {s : State} (h : s.flag F.clkSrcStatus_xb_ok = true) : exec .refclkLost s = .next
    (((s.sourceLost 1).rimsOut.dropRimResets.each (List.range 28) State.linkDown).logEv evRefclkLost 64 64 0) := by
  rw [show exec .refclkLost s = execRefclkLost s from rfl, execRefclkLost, if_neg (by simp [h])]
  rfl

theorem refclkLost_gives {s : State} (h : s.flag F.clkSrcStatus_xb_ok = true) : Gives .refclkLost s fun s' =>
    s'.flag F.clkSrcStatus_xb_ok = false ∧ (∀ r, r < 4 → s'.flag F.clkPllStatus_lock 0 (129 + r) = false) ∧
      (∀ p, p < 4 → (s'.gf F.stnStartupPorts_pcie).testBit p = false) ∧ (∀ p, p < 16 → (s'.gf F.stnStartupPorts_cxl).testBit p = false) ∧
      ∀ p, p < 8 → (s'.gf F.stnStartupPorts_jalfen).testBit p = false := by
  refine gives_next (refclkLost_eq h) ?_
  have hxb : (s.sourceLost 1).flag F.clkSrcStatus_xb_ok = false := sourceLost_flag s 1
  generalize s.sourceLost 1 = a at hxb
  have hrims := rimsOut_marks a
  have hlock := rimsOut_lock a
  have hxb2 : a.rimsOut.flag F.clkSrcStatus_xb_ok = false := (hrims.flag_eq (by decide) _ _).trans hxb
  generalize a.rimsOut = b at hlock hxb2
  have hregs := dropRimResets_regs b
  have hflag {g : RegField} (hg : g.reg ∉ [Reg.rstStatus]) (k : Nat) : b.dropRimResets.flag g 0 k = b.flag g 0 k := by
    rw [State.flag, State.gf, hregs _ _ _ hg, State.flag, State.gf]
  have hxb3 := (hflag (g := F.clkSrcStatus_xb_ok) (by decide) 0).trans hxb2
  have hlock3 := fun r hr => (hflag (g := F.clkPllStatus_lock) (by decide) (129 + r)).trans (hlock r hr)
  generalize b.dropRimResets = c at hxb3 hlock3
  have hdown := State.each_gives (P := fun t s => s.downAt t) (f := State.linkDown) (l := List.range 28) (fun s t _ => downAt_linkDown s t)
    (fun s t _ _ hq => downAt_kept t hq) c
  have hmarks : Marks [.stnStartupPorts, .stgEngineStatus] c (c.each (List.range 28) State.linkDown) :=
    .each _ _ (fun s t _ => linkDown_marks s t) _
  generalize c.each (List.range 28) State.linkDown = d at hdown hmarks
  have hlog : Marks [] d (d.logEv evRefclkLost 64 64 0) := .logEv ..
  refine ⟨?_, fun r hr => ?_, fun p hp => ?_, fun p hp => ?_, fun p hp => ?_⟩
  · rw [hlog.flag_eq (by decide), hmarks.flag_eq (by decide), hxb3]
  · rw [hlog.flag_eq (by decide), hmarks.flag_eq (by decide), hlock3 r hr]
  · rw [hlog.gf_eq (by decide)]
    exact (hdown p (List.mem_range.2 (by omega))).1 hp
  · rw [hlog.gf_eq (by decide)]
    simpa using (hdown (p + 4) (List.mem_range.2 (by omega))).2.1 (by omega) (by omega)
  · rw [hlog.gf_eq (by decide)]
    simpa using (hdown (p + 20) (List.mem_range.2 (by omega))).2.2 (by omega)

theorem clockLoss_gives {s : State} (h : s.flag F.clkSrcStatus_sirc_ok = true) : Gives (.clockLoss true) s fun s' =>
    s'.flag F.clkSrcStatus_sirc_ok = false ∧ s'.rd .clkCountLoss 0 3 = BitVec.ofNat 64 (satAdd32 (s.rd .clkCountLoss 0 3).toNat 1) := by
  have heq : exec (.clockLoss true) s = .next (if (s.sourceLost 3).flag F.clkSrcStatus_xa_ok then (s.sourceLost 3).logEv evClockLoss 64 3 0 else
      s.sourceLost 3) := by
    rw [show exec (.clockLoss true) s = execClockLoss true s from rfl, execClockLoss]
    have hsirc : ¬ s.flag (sourceField 3) = false := by rw [show sourceField 3 = F.clkSrcStatus_sirc_ok from rfl, h]; decide
    simp only [if_true, if_neg hsirc, Bool.true_eq_false, false_and, if_false]
  refine gives_next heq ?_
  have hlost : (s.sourceLost 3).flag F.clkSrcStatus_sirc_ok = false := sourceLost_flag s 3
  have hcount : (s.sourceLost 3).rd .clkCountLoss 0 3 = BitVec.ofNat 64 (satAdd32 (s.rd .clkCountLoss 0 3).toNat 1) := by
    have hm : Marks [.clkSrcStatus] s (s.sf (sourceField 3) 0 0 0) := .sf (by decide) (by decide) ..
    rw [← hm.regs .clkCountLoss 0 3 (by decide)]
    exact State.rd_wr_self ..
  generalize s.sourceLost 3 = u at hlost hcount
  split
  · have hlog : Marks [] u (u.logEv evClockLoss 64 3 0) := .logEv ..
    exact ⟨(hlog.flag_eq (by decide) _ _).trans hlost, (hlog.regs _ _ _ (by decide)).trans hcount⟩
  · exact ⟨hlost, hcount⟩

theorem pllUnlock_gives {s : State} {pll : Nat} (h1 : 1 ≤ pll) (h129 : pll < 129) (h : s.flag F.clkPllStatus_lock 0 pll = true) :
    Gives (.pllUnlock pll) s fun s' => s'.flag F.clkPllStatus_lock 0 pll = false ∧ s'.flag F.clkPllStatus_lost 0 pll = true ∧
      (s'.fld ((pll - 1) % 64)).fogged = true := by
  have heq : exec (.pllUnlock pll) s = .next (((s.setLock pll false).logEv evPllUnlock ((pll - 1) % 64) ((pll - 1) % 64) pll).fogField
      ((pll - 1) % 64) (evCode evPllUnlock) false) := by
    rw [show exec (.pllUnlock pll) s = execPllUnlock pll s from rfl, execPllUnlock, onUnit_next (by omega), if_neg (by simp [h])]
    refine congrArg Host.Outcome.next ?_
    extract_lets u f
    rw [if_neg (by omega), if_pos h129]
  refine gives_next heq ?_
  have hlock := setLock_lock s pll false
  have hlost := setLock_lost s pll
  generalize s.setLock pll false = u at hlock hlost
  have hlog : Marks [] u (u.logEv evPllUnlock ((pll - 1) % 64) ((pll - 1) % 64) pll) := .logEv ..
  generalize u.logEv evPllUnlock ((pll - 1) % 64) ((pll - 1) % 64) pll = w at hlog
  have hfog := fogField_keeps w ((pll - 1) % 64) (evCode evPllUnlock) false
  refine ⟨?_, ?_, fogField_fogged ..⟩
  · rw [hfog.flag_eq (by decide), hlog.flag_eq (by decide), hlock]
  · rw [hfog.flag_eq (by decide), hlog.flag_eq (by decide), hlost]

theorem sourceGood_sirc (s : State) : Gives (.sourceGood 3) s fun s' => s'.flag F.clkSrcStatus_sirc_ok = true := by
  have heq : exec (.sourceGood 3) s = .next (if s.flag F.clkSrcStatus_sirc_ok then s else s.sf F.clkSrcStatus_sirc_ok 0 0 1) := by
    rw [show exec (.sourceGood 3) s = execSourceGood 3 s from rfl, execSourceGood, onUnit_next (by omega)]
    refine congrArg Host.Outcome.next ?_
    rw [if_pos (by decide)]
    simp [sourceField]
  refine gives_next heq ?_
  split
  · assumption
  · rw [State.flag_sf_self _ _ _ _ _ (by decide) (by decide)]
    rfl

theorem sourceGood_pll {s : State} {source : Nat} (h4 : 4 ≤ source) (h133 : source < 133) (h : s.flag F.clkSrcStatus_stn_lock = true) :
    Gives (.sourceGood source) s fun s' => s'.flag F.clkPllStatus_lock 0 (source - 4) = true := by
  have heq : exec (.sourceGood source) s = .next (s.setLock (source - 4) true) := by
    rw [show exec (.sourceGood source) s = execSourceGood source s from rfl, execSourceGood, onUnit_next (by omega), if_neg (by omega)]
    simp [h, show ¬ 129 ≤ source - 4 by omega]
  exact gives_next heq (setLock_lock ..)

/-! ### Clock enables -/

/-- Registers that no block's clock clears keep their words as it starts. -/
theorem gf_startClock (s : State) (i b : Nat) {g : RegField} (hg : g.reg = .clkEnable ∨ g.reg = .clkRunning) (k : Nat) :
    (s.startClock i b).gf g 0 k = (s.sf F.clkRunning_run 0 i (setBits (s.gf F.clkRunning_run 0 i) b b 1)).gf g 0 k := by
  have hfilter {u : State} {q : RegKey × BitVec 64 → Bool} {w : State} (hregs : w.regs = u.regs.filter q) (hfuses : w.fuses = u.fuses)
      (hq : ∀ e, (e.1.reg = .clkEnable ∨ e.1.reg = .clkRunning) → q e = true) : w.gf g 0 k = u.gf g 0 k := by
    have hne {r : Reg} (h1 : r ≠ .clkEnable) (h2 : r ≠ .clkRunning) : g.reg ≠ r := by
      rintro rfl
      exact hg.elim h1 h2
    rw [State.gf, State.rd, regDefault_of_fuses hfuses _ _ (hne (by decide) (by decide)) (hne (by decide) (by decide)) (hne (by decide) (by decide)),
      hregs, Sheds.mget_filter_of fun _ => hq _ hg, State.gf, State.rd]
  have hlens : ∀ r ∈ rowsLns.map (·.reg), r ≠ .clkEnable ∧ r ≠ .clkRunning := by decide
  have hmve : ∀ r ∈ rowsMve.map (·.reg), r ≠ .clkEnable ∧ r ≠ .clkRunning := by decide
  have hout {rows : List Reg} (hrows : ∀ r ∈ rows, r ≠ .clkEnable ∧ r ≠ .clkRunning) {r : Reg} (hr : r = .clkEnable ∨ r = .clkRunning) :
      rows.contains r = false := by
    rw [← Bool.not_eq_true, List.contains_iff_mem]
    intro hmem
    exact hr.elim (hrows r hmem).1 (hrows r hmem).2
  unfold State.startClock
  extract_lets u
  split
  · rfl
  · split
    · exact hfilter (u := u) (q := fun e => !((rowsLns.map (·.reg)).contains e.1.reg && decide (e.1.unit = i * 4 + b))) rfl rfl
        fun e he => by simp only [hout hlens he, Bool.false_and, Bool.not_false]
    · exact hfilter (u := u) (q := fun e => !((rowsMve.map (·.reg)).contains e.1.reg && decide (e.1.unit = i))) rfl rfl
        fun e he => by simp only [hout hmve he, Bool.false_and, Bool.not_false]

theorem running_startClock (s : State) (i b j : Nat) (hb : b < 32) : ((s.startClock i b).gf F.clkRunning_run 0 i).testBit j =
    (decide (j = b) || (s.gf F.clkRunning_run 0 i).testBit j) := by
  rw [gf_startClock s i b (g := F.clkRunning_run) (.inr rfl), State.testBit_sf_set s F.clkRunning_run 0 i (by decide) hb]

theorem running_stopClock (s : State) (i b j : Nat) : ((s.stopClock i b).gf F.clkRunning_run 0 i).testBit j =
    (decide (j ≠ b) && (s.gf F.clkRunning_run 0 i).testBit j) := State.testBit_sf_clear s F.clkRunning_run 0 i (by decide) b j

theorem enabled_startClock (s : State) (i b : Nat) : (s.startClock i b).gf F.clkEnable_en 0 i = s.gf F.clkEnable_en 0 i := by
  rw [gf_startClock s i b (g := F.clkEnable_en) (.inl rfl), State.gf_sf_ne _ _ _ _ _ (.inl (by decide)) (by simp [F.clkEnable_en, F.clkRunning_run])]

theorem enabled_stopClock (s : State) (i b : Nat) : (s.stopClock i b).gf F.clkEnable_en 0 i = s.gf F.clkEnable_en 0 i :=
  State.gf_sf_ne _ _ _ _ _ (.inl (by decide)) (by simp [F.clkEnable_en, F.clkRunning_run])

/-- One block's clock follows its enable bit. -/
def State.followEnable (i v : Nat) (s : State) (b : Nat) : State :=
  if v.testBit b = true ∧ (s.gf F.clkRunning_run 0 i).testBit b = false then s.startClock i b
  else if v.testBit b = false ∧ (s.gf F.clkRunning_run 0 i).testBit b = true ∧ s.blockIdle i b = true then s.stopClock i b
  else s

theorem followEnable_enabled (i v : Nat) (s : State) (b : Nat) : (s.followEnable i v b).gf F.clkEnable_en 0 i = s.gf F.clkEnable_en 0 i := by
  unfold State.followEnable
  split
  · exact enabled_startClock ..
  · split
    · exact enabled_stopClock ..
    · rfl

/-- A block's bit follows; the other blocks' bits stay. -/
theorem followEnable_runs {i v b j : Nat} (s : State) (hb : b < 32) (hv : v.testBit j = true)
    (h : j = b ∨ (s.gf F.clkRunning_run 0 i).testBit j = true) : ((s.followEnable i v b).gf F.clkRunning_run 0 i).testBit j = true := by
  unfold State.followEnable
  split
  · rw [running_startClock _ _ _ _ hb]
    obtain rfl | h := h
    · simp
    · simp [h]
  next hoff =>
    split
    next hstop =>
      have hne : j ≠ b := by
        rintro rfl
        simp [hv] at hstop
      rw [running_stopClock, h.resolve_left hne]
      simp [hne]
    · obtain rfl | h := h
      · simpa [hv] using hoff
      · exact h

theorem setEnable_field (s : State) {i : Nat} (v : Nat) (hi : i < 64) :
    s.setEnable i v = (s.sf F.clkEnable_en 0 i (v % 32)).each (List.range 32) fun s b => s.followEnable i (v % 32) b := by
  have hland : Nat.land v (enableMask i) = v % 32 := by
    rw [enableMask, if_pos hi]
    exact Nat.and_two_pow_sub_one_eq_mod v 5
  unfold State.setEnable
  simp only [hland, if_neg (show ¬ i = 65 by omega)] <;> rfl

theorem clkEnableWrite_gives (s : State) {i : Nat} (v n : Nat) (hi : i < 64) : Gives (.clkEnableWrite (.keeper n) i v) s fun s' =>
    s'.gf F.clkEnable_en 0 i = v % 32 ∧ ∀ b, b < 5 → v.testBit b = true → (s'.gf F.clkRunning_run 0 i).testBit b = true := by
  have heq : exec (.clkEnableWrite (.keeper n) i v) s = .next (s.setEnable i v) := by
    rw [show exec (.clkEnableWrite (.keeper n) i v) s = execClkEnableWrite (.keeper n) i v s from rfl, execClkEnableWrite, onUnit_next (by omega)]
  refine gives_next heq ?_
  rw [setEnable_field s v hi]
  have hen := State.gf_sf_self s F.clkEnable_en 0 i (v % 32) (by decide) (by rfl : _ = 2 ^ 32)
  generalize s.sf F.clkEnable_en 0 i (v % 32) = u at hen
  refine ⟨?_, fun b hb hv => ?_⟩
  · rw [State.each_same (fun s => s.gf F.clkEnable_en 0 i) _ _ (fun s b _ => followEnable_enabled ..), hen]
    omega
  · have hbits : ∀ b ∈ List.range 32, (v % 32).testBit b = true →
        ((u.each (List.range 32) fun s b => s.followEnable i (v % 32) b).gf F.clkRunning_run 0 i).testBit b = true :=
      State.each_gives (P := fun b s => (v % 32).testBit b = true → (s.gf F.clkRunning_run 0 i).testBit b = true)
        (fun s b hmem hv => followEnable_runs s (List.mem_range.1 hmem) hv (.inl rfl))
        (fun s b hmem c hc hv => followEnable_runs s (List.mem_range.1 hmem) hv (.inr (hc hv))) u
    refine hbits b (List.mem_range.2 (by omega)) ?_
    rw [show 32 = 2 ^ 5 from rfl, Nat.testBit_mod_two_pow, hv]
    simp [hb]

theorem clkEnableWrite_refused (s : State) {req : Requester} {i : Nat} (v : Nat) (hi : i < 67) (hreq : ∀ k, req ≠ .keeper k) :
    Gives (.clkEnableWrite req i v) s fun s' => s'.regs = s.regs := by
  have heq : exec (.clkEnableWrite req i v) s = .next (s.refuse 64 req (0x20100 + 4 * i)) := by
    rw [show exec (.clkEnableWrite req i v) s = execClkEnableWrite req i v s from rfl, execClkEnableWrite, onUnit_next hi]
    exact hreq
  exact gives_next heq rfl

theorem clockStop_gives {s : State} {i b : Nat} (hi : i < 67) (hen : (s.gf F.clkEnable_en 0 i).testBit b = false)
    (hrun : (s.gf F.clkRunning_run 0 i).testBit b = true) (hidle : s.blockIdle i b = true) :
    Gives (.clockStop i b) s fun s' => (s'.gf F.clkRunning_run 0 i).testBit b = false := by
  have heq : exec (.clockStop i b) s = .next (s.stopClock i b) := by
    rw [show exec (.clockStop i b) s = execClockStop i b s from rfl, execClockStop, onUnit_next hi, if_pos ⟨hen, hrun, hidle⟩]
  refine gives_next heq ?_
  rw [running_stopClock]
  simp

/-! ### Holdover -/

theorem holdoverSwitch_gives {s : State} {t : Nat} (hlost : s.xaLostAt = some t) (hhold : s.flag F.clkSrcStatus_holdover = true)
    (href : s.flag F.clkSrcStatus_ref = false) (hfirc : s.flag F.clkSrcStatus_firc_ok = true) :
    Gives .holdoverSwitch s fun s' => s'.flag F.clkSrcStatus_ref = true ∧ t + 2000 ≤ s'.now := by
  have heq : exec .holdoverSwitch s = .next ((s.advanceTo (t + 2000)).sf F.clkSrcStatus_ref 0 0 1) := by
    rw [show exec .holdoverSwitch s = execHoldoverSwitch s from rfl, execHoldoverSwitch, hlost]
    simp only [hhold, href, hfirc, Bool.false_eq_true, Bool.true_eq_false, or_self, if_false]
  refine gives_next heq ⟨?_, ?_⟩
  · rw [State.flag_sf_self _ _ _ _ _ (by decide) (by decide)]
    rfl
  · rw [State.sf_now]
    exact Nat.le_max_right ..

theorem clockHoldoverEnd_gives {s : State} (hhold : s.flag F.clkSrcStatus_holdover = true) (hxa : s.flag F.clkSrcStatus_xa_ok = true) :
    Gives .clockHoldoverEnd s fun s' => s'.flag F.clkSrcStatus_holdover = false ∧ s'.flag F.bcnStatus_holdover = false ∧
      s'.flag F.clkSrcStatus_ref = false := by
  have heq : exec .clockHoldoverEnd s =
      .next (({ ((s.sf F.clkSrcStatus_holdover 0 0 0).sf F.bcnStatus_holdover 0 0 0).sf F.clkSrcStatus_ref 0 0 0 with xaLostAt := none } :
        State).logEv evClockHoldoverEnd 64 64 0) := by
    rw [show exec .clockHoldoverEnd s = execClockHoldoverEnd s from rfl, execClockHoldoverEnd]
    simp only [hhold, hxa, Bool.true_eq_false, or_self, if_false]
  refine gives_next heq ?_
  have hh := State.flag_sf_self s F.clkSrcStatus_holdover 0 0 0 (by decide) (by decide)
  generalize s.sf F.clkSrcStatus_holdover 0 0 0 = a at hh
  have hb := State.flag_sf_self a F.bcnStatus_holdover 0 0 0 (by decide) (by decide)
  have hha := State.flag_sf_ne a F.bcnStatus_holdover 0 0 0 (g := F.clkSrcStatus_holdover) (u' := 0) (k' := 0) (.inl (by decide)) (by decide)
  generalize a.sf F.bcnStatus_holdover 0 0 0 = b at hb hha
  have hr := State.flag_sf_self b F.clkSrcStatus_ref 0 0 0 (by decide) (by decide)
  have hhb := State.flag_sf_apart b F.clkSrcStatus_ref 0 0 0 (g := F.clkSrcStatus_holdover) rfl (by decide)
  have hbb := State.flag_sf_ne b F.clkSrcStatus_ref 0 0 0 (g := F.bcnStatus_holdover) (u' := 0) (k' := 0) (.inl (by decide)) (by decide)
  generalize b.sf F.clkSrcStatus_ref 0 0 0 = c at hr hhb hbb
  exact ⟨hhb.trans (hha.trans hh), hbb.trans hb, hr⟩

/-! ### The minute's log -/

theorem clockLossEachMinute_gives {s : State} {t : Nat} (h1 : s.stepsDone.contains 1 = true) (h2 : s.stepsDone.contains 2 = false)
    (hxa : s.flag F.clkSrcStatus_xa_ok = false) (hlog : s.minuteLog = some t) : Gives .clockLossEachMinute s fun s' =>
      t + 60000000000 ≤ s'.now ∧ s'.minuteLog = some s'.now ∧ s'.regs = s.regs := by
  have heq : exec .clockLossEachMinute s =
      .next (({ s.advanceTo (t + 60000000000) with minuteLog := some (s.advanceTo (t + 60000000000)).now } : State).logEv evClockLoss 64 0 0) := by
    rw [show exec .clockLossEachMinute s = execClockLossEachMinute s from rfl, execClockLossEachMinute]
    simp only [h1, h2, hxa, hlog, Bool.not_false, Bool.and_self, Bool.true_eq_false, false_and, if_false]
  exact gives_next heq ⟨Nat.le_max_right .., rfl, rfl⟩

/-- Settles O50: each command's effect in turn; what a loss sheds keeps the flags of the clock sources, and a clock
enable's running bits follow block by block. -/
theorem clocksFollow : Obligations.ClocksFollow := by
  intro s t pll index value bit source n req
  refine ⟨xaLoss_gives, holdoverSwitch_gives, clockHoldoverEnd_gives, refclkLost_gives, clockLoss_gives, pllUnlock_gives, ?_,
    sourceGood_pll, gives_next (s := s) (x := s) rfl rfl, clkEnableWrite_gives s value n, fun h hreq => clkEnableWrite_refused s value h hreq,
    fun hi _ => clockStop_gives hi, clockLossEachMinute_gives⟩
  rintro rfl
  exact sourceGood_sirc s

end Sys2Proof.Machine
end

section
/-! SUPPORT. The mailbox: a command taken, a command done, and every slot of an operation done (R804, R805, R808). -/

namespace Sys2Proof.Machine

open Sys2Proof.Claims

/-- A state but for the mailbox, registers and events. -/
def State.beyondBox (s : State) : State := { s.beyondMbox with mboxQueue := [] }

/-- A state with the command of slot `u` taken: out of the queue, RUNNING. -/
def State.boxTaken (s : State) (u : Nat) : State :=
  ({ s with mboxQueue := s.mboxQueue.erase u } : State).sf F.hstMboxStatus_state u 0 2

theorem boxTaken_keeps (s : State) (u : Nat) : Keeps State.beyondBox [.hstMboxStatus] s (s.boxTaken u) :=
  .trans (s' := { s with mboxQueue := s.mboxQueue.erase u }) (.quiet rfl fun _ _ _ => rfl) (.marks (fun _ => rfl) (.sf (by decide) (by decide) ..))

theorem boxTaken_queue (s : State) (u : Nat) : (s.boxTaken u).mboxQueue = s.mboxQueue.erase u := rfl

theorem arg_of_regs {s s' : State} {rs : List Reg} {α : Type} {look : State → α} (h : Keeps look rs s s') (hrs : Reg.hstMboxArg ∉ rs) (u k : Nat) :
    s'.arg u k = s.arg u k := by
  rw [State.arg, h.regs _ _ _ hrs, State.arg]

theorem arg_boxTaken (s : State) (u v k : Nat) : (s.boxTaken u).arg v k = s.arg v k := arg_of_regs (boxTaken_keeps s u) (by decide) v k

/-- A command that is the next, accepted and well-formed runs on the state with it taken. -/
theorem takeMbox_taken {s : State} {u op : Nat} {accepted : Bool} {masks : List Nat} (h : Taken s u op masks) (hacc : accepted = true)
    (act : State → State) : s.takeMbox u op accepted masks act = act (s.boxTaken u) := by
  subst hacc
  refine State.takeMbox_runs s u op masks act h.next h.opcode h.jtag ?_
  rw [← h.unused]
  simp only [State.argsZero]
  exact List.all_congr rfl fun k => by rw [show (State.sf _ _ _ _ _).arg u k = s.arg u k from arg_boxTaken s u u k]

/-- What a command done changes: its slot, and what tells the host. -/
theorem mboxDone_keeps (s : State) (u status : Nat) (results : List Nat) :
    Keeps State.beyondMbox [.hstMboxStatus, .hstMboxResult] s (s.mboxDone u status results) := by
  unfold State.mboxDone
  extract_lets v w
  have hv : Marks [.hstMboxStatus, .hstMboxResult] s v :=
    (Marks.sf (f := F.hstMboxStatus_state) (by decide) (by decide) ..).trans (.sf (f := F.hstMboxStatus_status) (by decide) (by decide) ..)
  have hw : Marks [.hstMboxStatus, .hstMboxResult] v w := .each _ _ (fun s e _ => .wr (by decide) (by decide) ..) v
  exact .trans (s' := w) (.marks (fun _ => rfl) (hv.trans hw)) (.quiet rfl fun _ _ _ => rfl)

/-- The status word that a command done leaves, before its results. -/
def State.showDone (s : State) (u status : Nat) : State := (s.sf F.hstMboxStatus_state u 0 3).sf F.hstMboxStatus_status u 0 status

theorem mboxDone_status (s : State) (u status : Nat) (results : List Nat) (v : Nat) :
    (s.mboxDone u status results).rd .hstMboxStatus v 0 = (s.showDone u status).rd .hstMboxStatus v 0 := by
  have hres : Marks [.hstMboxResult] (s.showDone u status)
      ((s.showDone u status).each ((List.range 48).zip results) fun s w => s.wr .hstMboxResult u w.1 (BitVec.ofNat 64 (w.2 % 2 ^ 32))) :=
    .each _ _ (fun s e _ => .wr (by decide) (by decide) ..) _
  exact hres.regs .hstMboxStatus v 0 (by decide)

theorem mboxDone_done (s : State) (u status : Nat) (results : List Nat) : (s.mboxDone u status results).gf F.hstMboxStatus_state u = 3 ∧
    (s.mboxDone u status results).gf F.hstMboxStatus_status u = status % 2 ^ 16 := by
  have hstatus := mboxDone_status s u status results u
  refine ⟨?_, ?_⟩
  · rw [State.gf, show F.hstMboxStatus_state.reg = .hstMboxStatus from rfl, hstatus]
    have h3 := State.gf_sf_self s F.hstMboxStatus_state u 0 3 (by decide) (by rfl : _ = 2 ^ 2)
    rw [State.showDone]
    generalize s.sf F.hstMboxStatus_state u 0 3 = a at h3
    exact (State.gf_sf_apart a F.hstMboxStatus_status u 0 status (g := F.hstMboxStatus_state) rfl (by decide)).trans h3
  · rw [State.gf, show F.hstMboxStatus_status.reg = .hstMboxStatus from rfl, hstatus]
    exact State.gf_sf_self (s.sf F.hstMboxStatus_state u 0 3) F.hstMboxStatus_status u 0 status (by decide) (by rfl : _ = 2 ^ 16)

/-- A slot of another command. -/
theorem mboxDone_other (s : State) {u v : Nat} (h : v ≠ u) (status : Nat) (results : List Nat) {f : RegField} (hf : f.reg = .hstMboxStatus) :
    (s.mboxDone u status results).gf f v = s.gf f v := by
  rw [State.gf, hf, mboxDone_status, State.showDone, State.rd_sf_ne _ _ _ _ _ (.inr (by decide)) (by simp [h]),
    State.rd_sf_ne _ _ _ _ _ (.inr (by decide)) (by simp [h]), State.gf, hf]

/-- The result words that a command done shows. -/
theorem mboxDone_words (s : State) (u status : Nat) (results : List Nat) {k w : Nat} (hk : k < 48) (hw : results[k]? = some w) :
    (s.mboxDone u status results).rd .hstMboxResult u k = BitVec.ofNat 64 (w % 2 ^ 32) := by
  have hmem {e : Nat × Nat} (he : e ∈ (List.range 48).zip results) : results[e.1]? = some e.2 := by
    obtain ⟨i, hi⟩ := List.getElem?_of_mem he
    obtain ⟨h1, h2⟩ := List.getElem?_zip_eq_some.1 hi
    rw [List.getElem?_range (by
      obtain ⟨hlt, -⟩ := List.getElem?_eq_some_iff.1 h1
      simpa using hlt)] at h1
    cases h1
    exact h2
  have hin : (k, w) ∈ (List.range 48).zip results :=
    List.mem_of_getElem? (i := k) (List.getElem?_zip_eq_some.2 ⟨List.getElem?_range hk, hw⟩)
  refine State.each_gives (P := fun e s => e ∈ (List.range 48).zip results → s.rd .hstMboxResult u e.1 = BitVec.ofNat 64 (e.2 % 2 ^ 32))
    (f := fun s e => s.wr .hstMboxResult u e.1 (BitVec.ofNat 64 (e.2 % 2 ^ 32))) (fun s e _ _ => ?_) (fun s a ha b hb hin => ?_)
    (s.showDone u status) (k, w) hin hin
  · rw [State.rd_wr _ _ _ _ _ _ _ _ (.inr (by decide)), if_pos rfl]
  · rw [State.rd_wr _ _ _ _ _ _ _ _ (.inr (by decide))]
    split
    next heq =>
      have h2 := hmem ha
      rw [← (RegKey.mk.inj heq).2.2, hmem hin] at h2
      rw [Option.some.inj h2]
    · exact hb hin

/-- A command done out of a state whose queue has lost it. -/
theorem mboxDone_answered {s x : State} {u status : Nat} {results : List Nat} (hqueue : x.mboxQueue = s.mboxQueue.erase u)
    (hstatus : status < 2 ^ 16) : Claims.Answered s (x.mboxDone u status results) u status results where
  done := (mboxDone_done ..).1
  status := (mboxDone_done ..).2.trans (Nat.mod_eq_of_lt hstatus)
  words _ _ hk hw := mboxDone_words _ _ _ _ hk hw
  queue := ((mboxDone_keeps x u status results).eq_of State.mboxQueue (·.mboxQueue) fun _ => rfl).trans hqueue

/-- Every slot that waited for an operation shows DONE. -/
theorem finishOp_finished (s : State) (op : MboxOp) {status : Nat} (results : List Nat) (hstatus : status < 2 ^ 16) :
    Finished s (s.finishOp op status results) op status := by
  intro u hu
  refine State.each_gives (P := fun u s => s.gf F.hstMboxStatus_state u = 3 ∧ s.gf F.hstMboxStatus_status u = status)
    (f := fun s u => s.mboxDone u status results) (fun s u _ => ?_) (fun s a _ b hb => ?_) s u ?_
  · obtain ⟨hdone, hst⟩ := mboxDone_done s u status results
    exact ⟨hdone, hst.trans (Nat.mod_eq_of_lt hstatus)⟩
  · by_cases hab : b = a
    · subst hab
      obtain ⟨hdone, hst⟩ := mboxDone_done s b status results
      exact ⟨hdone, hst.trans (Nat.mod_eq_of_lt hstatus)⟩
    · exact ⟨(mboxDone_other s hab status results rfl).trans hb.1, (mboxDone_other s hab status results rfl).trans hb.2⟩
  · exact List.mem_map.2 ⟨_, List.mem_filter.2 ⟨hu, by simp⟩, rfl⟩

end Sys2Proof.Machine
end

section
/-! SUPPORT. Debug sessions: what their end changes (R872), and DEBUG_AUTH taken (R869). -/

namespace Sys2Proof.Machine

open Sys2Proof.Claims

/-! ### The end of a session -/

/-- A state but for the groups, what sessions hold, registers and events. -/
def State.beyondSession (s : State) : State := { s.beyondMarks with groups := [], haltedBy := [], sessionEnd := [] }

/-- The registers of what a session holds. -/
def heldRegs : List Reg := [.tgpCtl, .dbgBreak]

/-- The registers that a session's end writes. -/
def sessionRegs : List Reg := heldRegs ++ ([.stnDebugSession, .stnDebugFields] : List Reg)

theorem releaseGroup_keeps (s : State) (t g : Nat) : Keeps State.beyondSession heldRegs s (s.releaseGroup t g) := by
  unfold State.releaseGroup
  extract_lets x u fs same c
  have hu : Keeps State.beyondSession heldRegs s u := .marks (fun _ => rfl) (.sf (by decide) (by decide) ..)
  have hset (x : Group) : Keeps State.beyondSession heldRegs s (u.setGrp t g x) := hu.trans (.quiet rfl fun _ _ _ => rfl)
  split
  · exact hu
  · split
    · exact hset _
    · split
      · exact hset _
      · exact hset _

/-- What a session holds of groups and breakpoints is given back: its part of `State.endSession`. -/
def State.giveBack (s : State) (e : (Nat × Nat) × Nat) : State :=
  if e.1.2 < 8 then s.releaseGroup e.1.1 e.1.2
  else if e.1.2 < 16 then s.wr .dbgBreak e.1.1 (e.1.2 - 8) 0
  else s.releaseGroup e.1.1 (e.1.2 - 16)

theorem giveBack_keeps (s : State) (e : (Nat × Nat) × Nat) : Keeps State.beyondSession heldRegs s (s.giveBack e) := by
  unfold State.giveBack
  split
  · exact releaseGroup_keeps ..
  · split
    · exact .marks (fun _ => rfl) (.wr (by decide) (by decide) ..)
    · exact releaseGroup_keeps ..

/-- The groups and breakpoints of a session given back, the session forgotten. -/
def State.freed (s : State) (port : Nat) : State :=
  ({ s with haltedBy := s.haltedBy.filter fun (e : (Nat × Nat) × Nat) => e.2 ≠ port
            sessionEnd := mdel s.sessionEnd port } : State).each
    (s.haltedBy.filter fun (e : (Nat × Nat) × Nat) => e.2 = port) State.giveBack

/-- A session's registers cleared but for its fields. -/
def State.inactive (s : State) (port : Nat) : State :=
  ((s.sf F.stnDebugSession_active 0 port 0).sf F.stnDebugSession_rights 0 port 0).sf F.stnDebugSession_remaining 0 port 0

theorem endSession_eq {s : State} {port : Nat} (h : s.flag F.stnDebugSession_active 0 port = true) : s.endSession port =
    (((s.freed port).inactive port).wr .stnDebugFields 0 port 0).logEv evDebugSessionEnd 64 port 0 := by
  unfold State.endSession
  rw [if_neg (by simp [h])]
  rfl

/-- A session's port forgotten. -/
def State.forget (s : State) (port : Nat) : State :=
  { s with haltedBy := s.haltedBy.filter fun (e : (Nat × Nat) × Nat) => e.2 ≠ port, sessionEnd := mdel s.sessionEnd port }

theorem freed_keeps (s : State) (port : Nat) : Keeps State.beyondSession heldRegs s (s.freed port) :=
  .trans (s' := s.forget port) (.quiet rfl fun _ _ _ => rfl) (.each State.giveBack _ (fun s e _ => giveBack_keeps s e) _)

theorem inactive_marks (s : State) (port : Nat) : Marks [.stnDebugSession] s (s.inactive port) :=
  .trans (.trans (.sf (by decide) (by decide) ..) (.sf (by decide) (by decide) ..)) (.sf (by decide) (by decide) ..)

theorem clearFields_marks (s : State) (port : Nat) :
    Marks [.stnDebugFields] s ((s.wr .stnDebugFields 0 port 0).logEv evDebugSessionEnd 64 port 0) :=
  .trans (.wr (by decide) (by decide) ..) (.logEv ..)

theorem endSession_keeps (s : State) (port : Nat) : Keeps State.beyondSession sessionRegs s (s.endSession port) := by
  by_cases h : s.flag F.stnDebugSession_active 0 port = true
  · rw [endSession_eq h]
    exact ((freed_keeps s port).mono (by decide)).trans
      (.marks (fun _ => rfl) (((inactive_marks ..).mono (by decide)).trans ((clearFields_marks ..).mono (by decide))))
  · rw [State.endSession, if_pos (by simpa using h)]
    exact .refl s

theorem inactive_flag (s : State) (port : Nat) : (s.inactive port).flag F.stnDebugSession_active 0 port = false := by
  have ha := State.flag_sf_self s F.stnDebugSession_active 0 port 0 (by decide) (by decide)
  unfold State.inactive
  generalize s.sf F.stnDebugSession_active 0 port 0 = a at ha
  rw [State.flag_sf_apart _ F.stnDebugSession_remaining _ _ _ (g := F.stnDebugSession_active) rfl (by decide),
    State.flag_sf_apart _ F.stnDebugSession_rights _ _ _ (g := F.stnDebugSession_active) rfl (by decide), ha]
  rfl

theorem endSession_inactive (s : State) (port : Nat) : (s.endSession port).flag F.stnDebugSession_active 0 port = false := by
  by_cases h : s.flag F.stnDebugSession_active 0 port = true
  · rw [endSession_eq h, (clearFields_marks ..).flag_eq (by decide), inactive_flag]
  · rw [State.endSession, if_pos (by simpa using h)]
    simpa using h

/-- Another port's session does not begin as one ends. -/
theorem endSession_stays {s : State} {p : Nat} (port : Nat) (h : s.flag F.stnDebugSession_active 0 p = false) :
    (s.endSession port).flag F.stnDebugSession_active 0 p = false := by
  by_cases hp : p = port
  · exact hp ▸ endSession_inactive s port
  · by_cases hact : s.flag F.stnDebugSession_active 0 port = true
    · rw [endSession_eq hact, (clearFields_marks ..).flag_eq (by decide), State.inactive,
        State.flag_sf_ne _ _ _ _ _ (.inl (by decide)) (by simp [hp]), State.flag_sf_ne _ _ _ _ _ (.inl (by decide)) (by simp [hp]),
        State.flag_sf_ne _ _ _ _ _ (.inl (by decide)) (by simp [hp]), (freed_keeps s port).flag_eq (by decide), h]
    · rw [State.endSession, if_pos (by simpa using hact)]
      exact h

/-! ### DEBUG_AUTH -/

theorem debugAuth_taken {s : State} {u sub : Nat} {masks : List Nat} (h : Taken s u 0xD masks) (hsub : s.arg u 0 % 4 = sub)
    (act : State → State) : s.debugAuth u sub masks act = act (s.boxTaken u) := by
  rw [State.debugAuth, if_neg (by simp [hsub]), takeMbox_taken h rfl]

/-- The words with which a challenge is answered. -/
def challengeWords (s : State) (p : Nat) : List Nat :=
  (List.range 12).map (fun k => (Config.nonce s.nonceCount).toNat / 2 ^ (32 * k) % 2 ^ 32) ++
    (List.range 4).map (fun k => s.fuses.serial / 2 ^ (32 * k) % 2 ^ 32) ++ [p]

/-- A nonce given to a port. -/
def State.giveNonce (s : State) (p : Nat) : State :=
  { s with nonces := mput s.nonces p s.nonceCount, nonceCount := s.nonceCount + 1, nonceEnd := mput s.nonceEnd p (s.now + 10000000000) }

theorem challenge_gives {s : State} {u : Nat} (h : Taken s u 0xD [3]) (hsub : s.arg u 0 % 4 = 0) :
    (s.lockedOut (u / 16) = false → Gives (.debugAuthChallenge u) s fun s' =>
      mfind s'.nonces (u / 16) = some s.nonceCount ∧ mfind s'.nonceEnd (u / 16) = some (s.now + 10000000000) ∧
      Claims.Answered s s' u 0 (challengeWords s (u / 16))) ∧
    (s.lockedOut (u / 16) = true → Gives (.debugAuthChallenge u) s fun s' => Claims.Answered s s' u 6 [] ∧ s'.nonces = s.nonces) := by
  have heq : exec (.debugAuthChallenge u) s = .next (if (s.boxTaken u).lockedOut (u / 16)
      then ((s.boxTaken u).logEv evDebugAuthFail 64 (u / 16) 4).mboxDone u mbDenied []
      else ((s.boxTaken u).giveNonce (u / 16)).mboxDone u mbOk (challengeWords (s.boxTaken u) (u / 16))) := by
    rw [show exec (.debugAuthChallenge u) s = execDebugAuthChallenge u s from rfl, execDebugAuthChallenge, debugAuth_taken h hsub]
    rfl
  rw [show (s.boxTaken u).lockedOut (u / 16) = s.lockedOut (u / 16) from rfl] at heq
  refine ⟨fun hlock => ?_, fun hlock => ?_⟩
  · rw [if_neg (by simp [hlock])] at heq
    refine gives_next heq ?_
    have hkeep := mboxDone_keeps ((s.boxTaken u).giveNonce (u / 16)) u mbOk (challengeWords (s.boxTaken u) (u / 16))
    refine ⟨?_, ?_, mboxDone_answered rfl (by decide)⟩
    · rw [hkeep.eq_of State.nonces (·.nonces) fun _ => rfl]
      exact mfind_mput_self ..
    · rw [hkeep.eq_of State.nonceEnd (·.nonceEnd) fun _ => rfl]
      exact mfind_mput_self ..
  · rw [if_pos hlock] at heq
    refine gives_next heq ?_
    have hlog : Marks [] (s.boxTaken u) ((s.boxTaken u).logEv evDebugAuthFail 64 (u / 16) 4) := .logEv ..
    refine ⟨mboxDone_answered (hlog.beyond_eq State.mboxQueue fun _ => rfl) (by decide), ?_⟩
    rw [(mboxDone_keeps ..).eq_of State.nonces (·.nonces) fun _ => rfl, hlog.beyond_eq State.nonces fun _ => rfl]
    rfl

/-- A response denied: nothing of the nonces, the mailbox's queue or a session's registers changes before the answer. -/
theorem denyResponse_spec (s : State) (u check : Nat) : ∃ y, s.denyResponse u check = y.mboxDone u mbDenied [] ∧
    Keeps (fun s => (s.nonces, s.mboxQueue)) [] s y := by
  have hlock (s : State) (d : Smap Nat (List Nat)) (l : Smap Nat Nat) (p : Nat) : Keeps (fun s => (s.nonces, s.mboxQueue)) [] s
      (({ s with denials := d, lockEnd := l } : State).logEv evDebugLockout 64 p 0) :=
    .trans (s' := { s with denials := d, lockEnd := l }) (.quiet rfl fun _ _ _ => rfl) (.marks (fun _ => rfl) (.logEv ..))
  unfold State.denyResponse
  extract_lets p a times b c
  have ha : Keeps (fun s => (s.nonces, s.mboxQueue)) [] s a := .marks (fun _ => rfl) (.logEv ..)
  have hb : Keeps (fun s => (s.nonces, s.mboxQueue)) [] a b := .quiet rfl fun _ _ _ => rfl
  refine ⟨c, rfl, (ha.trans hb).trans ?_⟩
  clear_value b
  unfold c
  split
  · exact hlock ..
  · exact .refl _

/-- The argument bits that a RESPONSE uses. -/
def responseMasks : List Nat := [3, 7, full, full, 0xFFFFFF, 0, 0, 0] ++ List.replicate 48 full

/-- A command taken whose port's nonce is consumed. -/
def State.consumed (s : State) (u : Nat) : State := { s.boxTaken u with nonces := mdel s.nonces (u / 16) }

theorem consumed_keeps (s : State) (u : Nat) : Keeps (fun s => ({ s.beyondBox with nonces := [] } : State)) [.hstMboxStatus] s (s.consumed u) :=
  .trans (s' := s.boxTaken u) ((boxTaken_keeps s u).weaken (fun b => { b with nonces := [] }) (fun _ => rfl) (by decide))
    (.quiet rfl fun _ _ _ => rfl)

/-- A session opened, with the rights, fields and length of the command's arguments. -/
def State.openSession (s : State) (u p : Nat) : State :=
  let s := (s.sf F.stnDebugSession_active 0 p 1).sf F.stnDebugSession_rights 0 p (s.arg u 1)
  let s := s.sf F.stnDebugSession_remaining 0 p (s.arg u 4)
  let s := s.wr .stnDebugFields 0 p (BitVec.ofNat 64 (s.arg u 2 + s.arg u 3 * 2 ^ 32))
  { s with sessionEnd := mput s.sessionEnd p (s.now + s.arg u 4 * s.gf F.bcnPeriod_period) }

theorem response_eq {s : State} {u : Nat} {keyOk sigOk : Bool} (h : Taken s u 0xD responseMasks) (hsub : s.arg u 0 % 4 = 1) (h4 : s.arg u 4 ≠ 0) :
    exec (.debugAuthResponse u keyOk sigOk) s = .next (
      if ((mfind s.nonces (u / 16)).isSome && decide (s.now < mget 0 s.nonceEnd (u / 16))) = false
      then ((s.consumed u).logEv evDebugAuthFail 64 (u / 16) 1).mboxDone u mbBadState []
      else if keyOk = false then (s.consumed u).denyResponse u 2
      else if sigOk = false then (s.consumed u).denyResponse u 3
      else ((((s.consumed u).endSession (u / 16)).openSession u (u / 16)).logEv evDebugAuthOk 64 (u / 16)
        ((((s.consumed u).endSession (u / 16)).openSession u (u / 16)).arg u 1)).mboxDone u mbOk []) := by
  rw [show exec (.debugAuthResponse u keyOk sigOk) s = execDebugAuthResponse u keyOk sigOk s from rfl, execDebugAuthResponse]
  refine congrArg Host.Outcome.next ?_
  refine (debugAuth_taken h hsub _).trans ?_
  dsimp only
  rw [if_neg (by rw [arg_boxTaken]; exact h4)]
  rfl

theorem endAt_keeps (s : State) (ends : Smap Nat Nat) :
    Keeps (fun s => ({ s.beyondMarks with sessionEnd := [] } : State)) [] s { s with sessionEnd := ends } := .quiet rfl fun _ _ _ => rfl

theorem openSession_spec (s : State) (u p : Nat) :
    Keeps (fun s => ({ s.beyondMarks with sessionEnd := [] } : State)) [.stnDebugSession, .stnDebugFields] s (s.openSession u p) ∧
      (s.openSession u p).flag F.stnDebugSession_active 0 p = true ∧
      (s.openSession u p).gf F.stnDebugSession_rights 0 p = s.arg u 1 % 2 ^ 3 ∧
      (s.openSession u p).rd .stnDebugFields 0 p = BitVec.ofNat 64 (s.arg u 2 + s.arg u 3 * 2 ^ 32) ∧
      mfind (s.openSession u p).sessionEnd p = some (s.now + s.arg u 4 * s.gf F.bcnPeriod_period) := by
  unfold State.openSession
  extract_lets a b c
  have ha := State.flag_sf_self s F.stnDebugSession_active 0 p 1 (by decide) (by decide)
  have hmark : Marks [.stnDebugSession] s (s.sf F.stnDebugSession_active 0 p 1) := .sf (by decide) (by decide) ..
  have hra := State.gf_sf_self (s.sf F.stnDebugSession_active 0 p 1) F.stnDebugSession_rights 0 p (s.arg u 1) (by decide) (by rfl : _ = 2 ^ 3)
  have haa : a.flag F.stnDebugSession_active 0 p = true := by
    unfold a
    rw [State.flag_sf_apart _ F.stnDebugSession_rights _ _ _ (g := F.stnDebugSession_active) rfl (by decide), ha]
    rfl
  have hma : Marks [.stnDebugSession] s a := hmark.trans (.sf (by decide) (by decide) ..)
  change a.gf _ 0 p = _ at hra
  clear_value a
  have hb := State.flag_sf_apart a F.stnDebugSession_remaining 0 p (a.arg u 4) (g := F.stnDebugSession_active) rfl (by decide)
  have hrb := State.gf_sf_apart a F.stnDebugSession_remaining 0 p (a.arg u 4) (g := F.stnDebugSession_rights) rfl (by decide)
  have hmb : Marks [.stnDebugSession] a b := .sf (by decide) (by decide) ..
  have hmsb := hma.trans hmb
  change b.flag _ 0 p = _ at hb
  change b.gf _ 0 p = _ at hrb
  clear_value b
  have hc : c.rd .stnDebugFields 0 p = BitVec.ofNat 64 (b.arg u 2 + b.arg u 3 * 2 ^ 32) := State.rd_wr_self ..
  have hmc : Marks [.stnDebugFields] b c := .wr (by decide) (by decide) ..
  clear_value c
  have harg (k : Nat) : b.arg u k = s.arg u k := by rw [State.arg, hmsb.regs _ _ _ (by decide), State.arg]
  have hmsc : Marks [.stnDebugSession, .stnDebugFields] s c := (hmsb.mono (by decide)).trans (hmc.mono (by decide))
  have hcarg : c.arg u 4 = s.arg u 4 := by rw [State.arg, hmsc.regs _ _ _ (by decide), State.arg]
  have hlast := endAt_keeps c (mput c.sessionEnd p (c.now + c.arg u 4 * c.gf F.bcnPeriod_period))
  refine ⟨.trans (s' := c) (.marks (fun _ => rfl) hmsc) (hlast.mono (by decide)), ?_, ?_, ?_, ?_⟩
  · rw [hlast.flag_eq (by decide), hmc.flag_eq (by decide), hb, haa]
  · rw [hlast.gf_eq (by decide), hmc.gf_eq (by decide), hrb, hra]
  · rw [hlast.regs _ _ _ (by decide), hc, harg, harg]
  · refine (mfind_mput_self ..).trans ?_
    rw [hmsc.beyond_eq State.now fun _ => rfl, hmsc.gf_eq (by decide), hcarg]

theorem responseMasks_rights {s : State} {u : Nat} (h : s.argsZero u responseMasks = true) : s.arg u 1 % 2 ^ 3 = s.arg u 1 := by
  have h1 := List.all_eq_true.1 h 1 (List.mem_range.2 (by decide))
  have h2 : Nat.land (s.arg u 1) 7 = s.arg u 1 := by simpa [responseMasks] using h1
  rw [← show Nat.land (s.arg u 1) 7 = s.arg u 1 % 2 ^ 3 from Nat.and_two_pow_sub_one_eq_mod _ 3, h2]

theorem response_opens {s : State} {u : Nat} (h : Taken s u 0xD responseMasks) (hsub : s.arg u 0 % 4 = 1) (h4 : s.arg u 4 ≠ 0)
    (hsome : (mfind s.nonces (u / 16)).isSome = true) (hnow : s.now < mget 0 s.nonceEnd (u / 16)) :
    Gives (.debugAuthResponse u true true) s fun s' =>
      s'.flag F.stnDebugSession_active 0 (u / 16) = true ∧ s'.gf F.stnDebugSession_rights 0 (u / 16) = s.arg u 1 ∧
      s'.rd .stnDebugFields 0 (u / 16) = BitVec.ofNat 64 (s.arg u 2 + s.arg u 3 * 2 ^ 32) ∧
      mfind s'.sessionEnd (u / 16) = some (s.now + s.arg u 4 * s.gf F.bcnPeriod_period) ∧ mfind s'.nonces (u / 16) = none ∧
      Claims.Answered s s' u 0 [] := by
  have heq := response_eq (keyOk := true) (sigOk := true) h hsub h4
  rw [if_neg (by simp [hsome, hnow]), if_neg (by simp), if_neg (by simp)] at heq
  refine gives_next heq ?_
  have hcon := consumed_keeps s u
  have hno : mfind (s.consumed u).nonces (u / 16) = none := by
    rw [show (s.consumed u).nonces = mdel s.nonces (u / 16) from rfl, mfind_mdel, if_pos rfl]
  have hqueue : (s.consumed u).mboxQueue = s.mboxQueue.erase u := rfl
  generalize s.consumed u = a at hcon hno hqueue
  have hend := endSession_keeps a (u / 16)
  generalize a.endSession (u / 16) = b at hend
  obtain ⟨hopen, hact, hrights, hfields, hlast⟩ := openSession_spec b u (u / 16)
  generalize b.openSession u (u / 16) = c at hopen hact hrights hfields hlast
  have hlog : Marks [] c (c.logEv evDebugAuthOk 64 (u / 16) (c.arg u 1)) := .logEv ..
  generalize c.logEv evDebugAuthOk 64 (u / 16) (c.arg u 1) = d at hlog
  have hdone := mboxDone_keeps d u mbOk []
  have harg (k : Nat) : b.arg u k = s.arg u k := (arg_of_regs hend (by decide) u k).trans (arg_of_regs hcon (by decide) u k)
  refine ⟨?_, ?_, ?_, ?_, ?_, mboxDone_answered ?_ (by decide)⟩
  · rw [hdone.flag_eq (by decide), hlog.flag_eq (by decide), hact]
  · rw [hdone.gf_eq (by decide), hlog.gf_eq (by decide), hrights, harg, responseMasks_rights h.unused]
  · rw [hdone.regs _ _ _ (by decide), hlog.regs _ _ _ (by decide), hfields, harg, harg]
  · rw [hdone.eq_of State.sessionEnd (·.sessionEnd) fun _ => rfl, hlog.beyond_eq State.sessionEnd fun _ => rfl, hlast, harg,
      hend.eq_of State.now (·.now) fun _ => rfl, hcon.eq_of State.now (·.now) fun _ => rfl, hend.gf_eq (by decide), hcon.gf_eq (by decide)]
  · rw [hdone.eq_of State.nonces (·.nonces) fun _ => rfl, hlog.beyond_eq State.nonces fun _ => rfl,
      hopen.eq_of State.nonces (·.nonces) fun _ => rfl, hend.eq_of State.nonces (·.nonces) fun _ => rfl, hno]
  · rw [hlog.beyond_eq State.mboxQueue fun _ => rfl, hopen.eq_of State.mboxQueue (·.mboxQueue) fun _ => rfl,
      hend.eq_of State.mboxQueue (·.mboxQueue) fun _ => rfl, hqueue]

/-- A response refused: the nonce is consumed and no session opens. -/
theorem refused_answer {s y : State} {u status : Nat} (hy : Keeps (fun s => (s.nonces, s.mboxQueue)) [] (s.consumed u) y) (hstatus : status < 2 ^ 16) :
    (y.mboxDone u status []).flag F.stnDebugSession_active 0 (u / 16) = s.flag F.stnDebugSession_active 0 (u / 16) ∧
      mfind (y.mboxDone u status []).nonces (u / 16) = none ∧ Claims.Answered s (y.mboxDone u status []) u status [] := by
  have hdone := mboxDone_keeps y u status []
  refine ⟨?_, ?_, mboxDone_answered ?_ hstatus⟩
  · rw [hdone.flag_eq (by decide), hy.flag_eq (by decide), (consumed_keeps s u).flag_eq (by decide)]
  · rw [hdone.eq_of State.nonces (·.nonces) fun _ => rfl, hy.eq_of State.nonces (·.1) fun _ => rfl,
      show (s.consumed u).nonces = mdel s.nonces (u / 16) from rfl, mfind_mdel, if_pos rfl]
  · rw [hy.eq_of State.mboxQueue (·.2) fun _ => rfl]
    rfl

theorem response_denied {s : State} {u : Nat} {keyOk sigOk : Bool} (h : Taken s u 0xD responseMasks) (hsub : s.arg u 0 % 4 = 1) (h4 : s.arg u 4 ≠ 0)
    (hsome : (mfind s.nonces (u / 16)).isSome = true) (hnow : s.now < mget 0 s.nonceEnd (u / 16)) (hbad : keyOk = false ∨ sigOk = false) :
    Gives (.debugAuthResponse u keyOk sigOk) s fun s' =>
      s'.flag F.stnDebugSession_active 0 (u / 16) = s.flag F.stnDebugSession_active 0 (u / 16) ∧ mfind s'.nonces (u / 16) = none ∧
      Claims.Answered s s' u 6 [] := by
  have heq := response_eq (keyOk := keyOk) (sigOk := sigOk) h hsub h4
  rw [if_neg (by simp [hsome, hnow])] at heq
  have hdeny (check : Nat) := denyResponse_spec (s.consumed u) u check
  split at heq
  · obtain ⟨y, hy, hkeep⟩ := hdeny 2
    rw [hy] at heq
    exact gives_next heq (refused_answer hkeep (by decide))
  next hkey =>
    rw [if_pos (hbad.resolve_left hkey)] at heq
    obtain ⟨y, hy, hkeep⟩ := hdeny 3
    rw [hy] at heq
    exact gives_next heq (refused_answer hkeep (by decide))

theorem response_late {s : State} {u : Nat} {keyOk sigOk : Bool} (h : Taken s u 0xD responseMasks) (hsub : s.arg u 0 % 4 = 1) (h4 : s.arg u 4 ≠ 0)
    (hno : mfind s.nonces (u / 16) = none ∨ mget 0 s.nonceEnd (u / 16) ≤ s.now) : Gives (.debugAuthResponse u keyOk sigOk) s fun s' =>
      s'.flag F.stnDebugSession_active 0 (u / 16) = s.flag F.stnDebugSession_active 0 (u / 16) ∧ mfind s'.nonces (u / 16) = none ∧
      Claims.Answered s s' u 3 [] := by
  have heq := response_eq (keyOk := keyOk) (sigOk := sigOk) h hsub h4
  have hinvalid : ((mfind s.nonces (u / 16)).isSome && decide (s.now < mget 0 s.nonceEnd (u / 16))) = false := by
    obtain hno | hno := hno
    · rw [hno]
      rfl
    · rw [decide_eq_false (by omega), Bool.and_false]
  rw [if_pos hinvalid] at heq
  exact gives_next heq (refused_answer (.marks (fun _ => rfl) (.logEv ..)) (by decide))

/-! ### END and expiry -/

theorem authEnd_gives {s : State} {u : Nat} (h : Taken s u 0xD [3]) (hsub : s.arg u 0 % 4 = 2) : Gives (.debugAuthEnd u) s fun s' =>
    s'.flag F.stnDebugSession_active 0 (u / 16) = false ∧ Claims.Answered s s' u 0 [] := by
  have heq : exec (.debugAuthEnd u) s = .next (((s.boxTaken u).endSession (u / 16)).mboxDone u mbOk []) := by
    rw [show exec (.debugAuthEnd u) s = execDebugAuthEnd u s from rfl, execDebugAuthEnd, if_neg (by omega), debugAuth_taken h hsub]
    rfl
  refine gives_next heq ⟨?_, mboxDone_answered ?_ (by decide)⟩
  · rw [(mboxDone_keeps ..).flag_eq (by decide), endSession_inactive]
  · rw [(endSession_keeps ..).eq_of State.mboxQueue (·.mboxQueue) fun _ => rfl]
    rfl

theorem authReserved_gives {s : State} {u : Nat} (h : Taken s u 0xD [3]) (hsub : s.arg u 0 % 4 = 3) : Gives (.debugAuthEnd u) s fun s' =>
    Claims.Answered s s' u 4 [] := by
  have heq : exec (.debugAuthEnd u) s = .next ((s.boxTaken u).mboxDone u mbRange []) := by
    rw [show exec (.debugAuthEnd u) s = execDebugAuthEnd u s from rfl, execDebugAuthEnd, if_pos hsub, debugAuth_taken h hsub]
  exact gives_next heq (mboxDone_answered rfl (by decide))

theorem expiry_gives {s : State} {port t : Nat} (hport : port < 5) (hend : mfind s.sessionEnd port = some t) :
    Gives (.debugSessionExpiry port) s fun s' => s'.flag F.stnDebugSession_active 0 port = false ∧ t ≤ s'.now := by
  have heq : exec (.debugSessionExpiry port) s = .next ((s.advanceTo t).endSession port) := by
    rw [show exec (.debugSessionExpiry port) s = execDebugSessionExpiry port s from rfl, execDebugSessionExpiry, onUnit_next hport, hend]
  refine gives_next heq ⟨endSession_inactive .., ?_⟩
  rw [(endSession_keeps ..).eq_of State.now (·.now) fun _ => rfl]
  exact Nat.le_max_right ..

/-- Settles O57: a challenge's nonce, a response's session or refusal, and the end of a session, each from what the command
taken does. -/
theorem debugSessions : Obligations.DebugSessions := by
  intro s u port t keyOk sigOk
  refine ⟨fun h hsub => challenge_gives h hsub, fun h hsub h4 => ⟨fun hsome hnow => ⟨?_, response_denied h hsub h4 hsome hnow⟩,
    response_late h hsub h4⟩, authEnd_gives, authReserved_gives, expiry_gives⟩
  rintro rfl rfl
  exact response_opens h hsub h4 hsome hnow

end Sys2Proof.Machine
end

section
/-! SUPPORT. HALT, STEP, RESUME and breakpoints (R875 to R879): what a halt leaves of its group. -/

namespace Sys2Proof.Machine

open Sys2Proof.Claims

/-! ### A group halted -/

/-- A state but for the groups, registers and events. -/
def State.beyondGroups (s : State) : State := { s.beyondMarks with groups := [] }

/-- The word of a group's halt cause. -/
def haltWord (s : State) (t cause : Nat) : BitVec 64 := BitVec.ofNat 64 ((s.fld (fieldOf t)).watch % 65536 * 65536 + cause)

theorem haltWord_of {s s' : State} (h : s'.fields = s.fields) (t cause : Nat) : haltWord s' t cause = haltWord s t cause := by
  simp only [haltWord, State.fld, h]

/-- What a halt leaves of its group: where it stood, HALTED, its cause shown. -/
structure Halts (s s' : State) (t g cause : Nat) : Prop where
  keeps : Keeps State.beyondGroups (.dbgHaltCause :: issueCounts) s s'
  halted : (s'.grp t g).st = .halted
  stays : (s'.grp t g).pc = (s.grp t g).pc
  idle : (s'.grp t g).stepPending = false
  shown : s'.rd .dbgHaltCause t g = haltWord s t cause

theorem endWait_keeps (s : State) (t g b : Nat) : Keeps State.beyondGroups issueCounts s (s.endWait t g b) ∧
    ((s.endWait t g b).grp t g).pc = (s.grp t g).pc := by
  have hset (u : State) (x : Group) : Keeps State.beyondGroups issueCounts u (u.setGrp t g x) := .quiet rfl fun _ _ _ => rfl
  obtain h | ⟨u, rfl | ⟨r, hr, i, n, rfl⟩, h⟩ := s.endWait_spec t g b
  · rw [h]
    exact ⟨.refl s, rfl⟩
  · rw [h]
    exact ⟨hset _ _, by simp⟩
  · have hne : r ≠ .mshTileSector := by
      rintro rfl
      revert hr
      decide
    rw [h]
    exact ⟨.trans (s' := s.bump r t i n) (.marks (fun _ => rfl) (.bump hr hne ..)) (hset _ _), by simp⟩

theorem haltGroup_halts (s : State) (t g cause : Nat) : Halts s (s.haltGroup t g cause) t g cause := by
  unfold State.haltGroup
  extract_lets c u y v
  obtain ⟨hu, hpc⟩ := endWait_keeps s t g c
  change Keeps _ _ s u at hu
  change (u.grp t g).pc = _ at hpc
  clear_value u
  have hv : Keeps State.beyondGroups issueCounts u v := .quiet rfl fun _ _ _ => rfl
  have hgrp : v.grp t g = { u.grp t g with st := .halted, stepPending := false, released := false, haltedAt := c } := State.grp_setGrp_self ..
  clear_value v
  have hw : Marks [.dbgHaltCause] v (v.wr .dbgHaltCause t g (BitVec.ofNat 64 ((v.fld (fieldOf t)).watch % 65536 * 65536 + cause))) :=
    .wr (by decide) (by decide) ..
  have hshown : (v.wr .dbgHaltCause t g (BitVec.ofNat 64 ((v.fld (fieldOf t)).watch % 65536 * 65536 + cause))).rd .dbgHaltCause t g =
    haltWord v t cause := State.rd_wr_self ..
  have hfields : v.fields = s.fields := (hu.trans hv).eq_of State.fields (·.fields) fun _ => rfl
  generalize v.wr .dbgHaltCause t g (BitVec.ofNat 64 ((v.fld (fieldOf t)).watch % 65536 * 65536 + cause)) = w at hw hshown ⊢
  have hgw : w.grp t g = v.grp t g := hw.beyond_eq (State.grp · t g) fun _ => rfl
  rw [hgrp] at hgw
  constructor
  case keeps =>
    exact ((hu.trans hv).mono fun r hr => .tail _ hr).trans ((Keeps.marks (fun _ => rfl) hw).mono fun r hr => by simp_all)
  case halted => rw [hgw]
  case stays => rw [hgw, ← hpc]
  case idle => rw [hgw]
  case shown => rw [hshown, haltWord_of hfields]

/-! ### Who may control a group -/

theorem groupControl_right {s : State} {req : Requester} {t : Nat} (h : s.right req 0 (fieldOf t) = true) (g : Nat) (act : State → State) :
    s.groupControl req t g act = act s := if_pos h

/-- What is noted of a session. -/
theorem noteDebug_keeps (s : State) (req : Requester) (t k : Nat) :
    Keeps (fun s => ({ s with regs := [], haltedBy := [] } : State)) [] s (s.noteDebug req t k) := by
  cases req <;> exact .quiet rfl fun _ _ _ => rfl

theorem control_refused {s : State} {req : Requester} {t g : Nat} {i : Instr} (ht : t < 589824) (hg : g < 8) (hright : s.right req 0 (fieldOf t) = false)
    (hi : i ∈ [Instr.halt req t g, .step req t g, .resume req t g]) : Gives i s fun s' => s'.groups = s.groups ∧ s'.regs = s.regs := by
  have hno (act : State → State) : onGroup t g (s.groupControl req t g act) =
      .next (s.refuse (fieldOf t) req (fieldWin (fieldOf t) (0xA1100 + 4 * g))) := by
    rw [onGroup_next ht hg, State.groupControl, if_neg (by simp [hright])]
  have hkeep := Marks.logEv (rs := []) s evAccessRefused (fieldOf t) (Requester.loc req) (fieldWin (fieldOf t) (0xA1100 + 4 * g))
  have hresult : (s.refuse (fieldOf t) req (fieldWin (fieldOf t) (0xA1100 + 4 * g))).groups = s.groups ∧
      (s.refuse (fieldOf t) req (fieldWin (fieldOf t) (0xA1100 + 4 * g))).regs = s.regs := ⟨hkeep.beyond_eq State.groups fun _ => rfl, State.logEv_regs ..⟩
  simp only [List.mem_cons, List.not_mem_nil, or_false] at hi
  obtain rfl | rfl | rfl := hi
  · exact gives_next (hno _) hresult
  · exact gives_next (hno _) hresult
  · exact gives_next (hno _) hresult

/-! ### HALT -/

/-- A group's HALT bit set and noted as its session's. -/
def State.askHalt (s : State) (req : Requester) (t g : Nat) : State := (s.sf F.tgpCtl_halt t g 1).noteDebug req t g

theorem askHalt_keeps (s : State) (req : Requester) (t g : Nat) :
    Keeps (fun s => ({ s.beyondMarks with haltedBy := [] } : State)) [.tgpCtl] s (s.askHalt req t g) :=
  .trans (s' := s.sf F.tgpCtl_halt t g 1) (.marks (fun _ => rfl) (.sf (by decide) (by decide) ..))
    ((noteDebug_keeps ..).weaken (fun s => { s.beyondMarks with haltedBy := [] }) (fun _ => rfl) (by decide))

theorem askHalt_flag (s : State) (req : Requester) (t g : Nat) : (s.askHalt req t g).flag F.tgpCtl_halt t g = true := by
  rw [State.askHalt, (noteDebug_keeps ..).flag_eq (by decide), State.flag_sf_self _ _ _ _ _ (by decide) (by decide)]
  rfl

theorem halt_eq {s : State} {req : Requester} {t g : Nat} (ht : t < 589824) (hg : g < 8) (hright : s.right req 0 (fieldOf t) = true) :
    exec (.halt req t g) s = .next (if (s.grp t g).st = .running then (s.askHalt req t g).haltGroup t g 1 else s.askHalt req t g) := by
  have hst : ((s.askHalt req t g).grp t g).st = (s.grp t g).st :=
    congrArg Group.st ((askHalt_keeps s req t g).eq_of (State.grp · t g) (State.grp · t g) fun _ => rfl)
  rw [show exec (.halt req t g) s = execHalt req t g s from rfl, execHalt, onGroup_next ht hg, groupControl_right hright, ← hst]
  rfl

theorem halt_running {s : State} {req : Requester} {t g : Nat} (ht : t < 589824) (hg : g < 8) (hright : s.right req 0 (fieldOf t) = true)
    (hrun : (s.grp t g).st = .running) : Gives (.halt req t g) s fun s' => (s'.grp t g).st = .halted ∧ (s'.grp t g).pc = (s.grp t g).pc ∧
      s'.rd .dbgHaltCause t g = haltWord s t 1 ∧ s'.flag F.tgpCtl_halt t g = true ∧ s'.sram = s.sram := by
  have heq := halt_eq ht hg hright
  rw [if_pos hrun] at heq
  refine gives_next heq ?_
  have hask := askHalt_keeps s req t g
  have hflag := askHalt_flag s req t g
  generalize s.askHalt req t g = u at hask hflag
  obtain ⟨hkeep, hhalted, hpc, -, hshown⟩ := haltGroup_halts u t g 1
  generalize u.haltGroup t g 1 = v at hkeep hhalted hpc hshown
  refine ⟨hhalted, ?_, ?_, ?_, ?_⟩
  · rw [hpc, hask.eq_of (State.grp · t g) (State.grp · t g) fun _ => rfl]
  · rw [hshown, haltWord_of (hask.eq_of State.fields (·.fields) fun _ => rfl)]
  · rw [hkeep.flag_eq (by decide), hflag]
  · rw [hkeep.eq_of State.sram (·.sram) fun _ => rfl, hask.eq_of State.sram (·.sram) fun _ => rfl]

theorem halt_other {s : State} {req : Requester} {t g : Nat} (ht : t < 589824) (hg : g < 8) (hright : s.right req 0 (fieldOf t) = true)
    (hrun : (s.grp t g).st ≠ .running) : Gives (.halt req t g) s fun s' => s'.groups = s.groups ∧ s'.flag F.tgpCtl_halt t g = true := by
  have heq := halt_eq ht hg hright
  rw [if_neg hrun] at heq
  exact gives_next heq ⟨(askHalt_keeps ..).eq_of State.groups (·.groups) fun _ => rfl, askHalt_flag ..⟩

/-! ### STEP -/

theorem step_marks {s : State} {req : Requester} {t g : Nat} (ht : t < 589824) (hg : g < 8) (hright : s.right req 0 (fieldOf t) = true)
    (hst : (s.grp t g).st = .halted) (hstep : (s.grp t g).stepPending = false) : Gives (.step req t g) s fun s' =>
      (s'.grp t g).st = .halted ∧ (s'.grp t g).stepPending = true ∧ s'.regs = s.regs := by
  have heq : exec (.step req t g) s = .next ((s.noteDebug req t (16 + g)).setGrp t g { s.grp t g with stepPending := true }) := by
    rw [show exec (.step req t g) s = execStep req t g s from rfl, execStep, onGroup_next ht hg, groupControl_right hright]
    dsimp only
    rw [if_pos ⟨hst, hstep⟩]
  refine gives_next heq ?_
  rw [State.grp_setGrp_self]
  refine ⟨hst, rfl, ?_⟩
  cases req <;> rfl

/-! ### RESUME -/

/-- A HALTED group's halts forgotten. -/
def State.unhalted (s : State) (t g : Nat) : State := { s with haltedBy := mdel (mdel s.haltedBy (t, 16 + g)) (t, g) }

theorem resume_halted {s : State} {req : Requester} {t g : Nat} (ht : t < 589824) (hg : g < 8) (hright : s.right req 0 (fieldOf t) = true)
    (hst : (s.grp t g).st = .halted) : exec (.resume req t g) s = .next ((s.unhalted t g).releaseGroup t g) := by
  rw [show exec (.resume req t g) s = execResume req t g s from rfl, execResume, onGroup_next ht hg, groupControl_right hright]
  dsimp only
  rw [hst]
  rfl

/-- The release of a HALTED group in the watch it was halted in, and later. -/
theorem releaseGroup_cases (s : State) {t g : Nat} (hst : (s.grp t g).st = .halted) :
    (s.gf F.dbgHaltCause_watch_low t g = (s.fld (fieldOf t)).watch % 65536 → (s.fld (fieldOf t)).phase = .work →
      ((s.releaseGroup t g).grp t g).st = .running ∧ ((s.releaseGroup t g).grp t g).pc = (s.grp t g).pc ∧
        (s.releaseGroup t g).flag F.tgpCtl_halt t g = false) ∧
    (s.gf F.dbgHaltCause_watch_low t g ≠ (s.fld (fieldOf t)).watch % 65536 →
      ((s.releaseGroup t g).grp t g).st = .halted ∧ ((s.releaseGroup t g).grp t g).released = true ∧
        (s.releaseGroup t g).flag F.tgpCtl_halt t g = false) := by
  unfold State.releaseGroup
  extract_lets x u fs same c
  have hflag : u.flag F.tgpCtl_halt t g = false := (State.flag_sf_self s F.tgpCtl_halt t g 0 (by decide) (by decide)).trans rfl
  have hmark : Marks [.tgpCtl] s u := .sf (by decide) (by decide) ..
  have hset (y : Group) : (u.setGrp t g y).flag F.tgpCtl_halt t g = false := by
    rw [State.setGrp_flag, hflag]
  have hsame : same = decide (s.gf F.dbgHaltCause_watch_low t g = (s.fld (fieldOf t)).watch % 65536) := by
    unfold same fs
    rw [hmark.gf_eq (by decide), hmark.beyond_eq (State.fld · (fieldOf t)) fun _ => rfl]
  have hfs : fs = s.fld (fieldOf t) := hmark.beyond_eq (State.fld · (fieldOf t)) fun _ => rfl
  clear_value u same fs
  subst hfs
  rw [if_neg (by simp [x, hst])]
  refine ⟨fun hwatch hwork => ?_, fun hwatch => ?_⟩
  · rw [if_pos ⟨by rw [hsame, decide_eq_true hwatch], hwork⟩, State.grp_setGrp_self]
    exact ⟨rfl, rfl, hset _⟩
  · have hno : same = false := by rw [hsame, decide_eq_false hwatch]
    rw [if_neg (by simp [hno]), if_neg (by simp [hno]), State.grp_setGrp_self]
    exact ⟨hst, rfl, hset _⟩

theorem resume_runs {s : State} {req : Requester} {t g : Nat} (ht : t < 589824) (hg : g < 8) (hright : s.right req 0 (fieldOf t) = true)
    (hst : (s.grp t g).st = .halted) (hwatch : s.gf F.dbgHaltCause_watch_low t g = (s.fld (fieldOf t)).watch % 65536)
    (hwork : (s.fld (fieldOf t)).phase = .work) : Gives (.resume req t g) s fun s' =>
      (s'.grp t g).st = .running ∧ (s'.grp t g).pc = (s.grp t g).pc ∧ s'.flag F.tgpCtl_halt t g = false :=
  gives_next (resume_halted ht hg hright hst) ((releaseGroup_cases (s.unhalted t g) hst).1 hwatch hwork)

theorem resume_frees {s : State} {req : Requester} {t g : Nat} (ht : t < 589824) (hg : g < 8) (hright : s.right req 0 (fieldOf t) = true)
    (hst : (s.grp t g).st = .halted) (hwatch : s.gf F.dbgHaltCause_watch_low t g ≠ (s.fld (fieldOf t)).watch % 65536) :
    Gives (.resume req t g) s fun s' => (s'.grp t g).st = .halted ∧ (s'.grp t g).released = true ∧ s'.flag F.tgpCtl_halt t g = false :=
  gives_next (resume_halted ht hg hright hst) ((releaseGroup_cases (s.unhalted t g) hst).2 hwatch)

theorem resume_trapped {s : State} {req : Requester} {t g : Nat} (ht : t < 589824) (hg : g < 8) (hright : s.right req 0 (fieldOf t) = true)
    (hst : (s.grp t g).st = .trapped) : exec (.resume req t g) s = .next (if s.flag F.tgpCtl_halt t g then s.haltGroup t g 5
      else s.setGrp t g { s.grp t g with released := true }) := by
  rw [show exec (.resume req t g) s = execResume req t g s from rfl, execResume, onGroup_next ht hg, groupControl_right hright]
  dsimp only
  rw [hst]

theorem resume_trappedHalt {s : State} {req : Requester} {t g : Nat} (ht : t < 589824) (hg : g < 8) (hright : s.right req 0 (fieldOf t) = true)
    (hst : (s.grp t g).st = .trapped) (hhalt : s.flag F.tgpCtl_halt t g = true) : Gives (.resume req t g) s fun s' =>
      (s'.grp t g).st = .halted ∧ s'.rd .dbgHaltCause t g = haltWord s t 5 := by
  have heq := resume_trapped ht hg hright hst
  rw [if_pos hhalt] at heq
  exact gives_next heq ⟨(haltGroup_halts s t g 5).halted, (haltGroup_halts s t g 5).shown⟩

theorem resume_trappedFree {s : State} {req : Requester} {t g : Nat} (ht : t < 589824) (hg : g < 8) (hright : s.right req 0 (fieldOf t) = true)
    (hst : (s.grp t g).st = .trapped) (hhalt : s.flag F.tgpCtl_halt t g = false) : Gives (.resume req t g) s fun s' =>
      (s'.grp t g).st = .trapped ∧ (s'.grp t g).released = true := by
  have heq := resume_trapped ht hg hright hst
  rw [if_neg (by simp [hhalt])] at heq
  refine gives_next heq ?_
  rw [State.grp_setGrp_self]
  exact ⟨hst, rfl⟩

/-! ### A step's instruction -/

/-- An instruction whose turn it is begins no earlier than its tile is free. -/
theorem start_of_nextOf {s : State} {t g c : Nat} {i : TInst} (h : s.nextOf t g = .go c i) :
    ∃ c₁, s.readiness t g (s.sourcesFrom t g i (s.fetchCycle t)) i = .go c₁ i ∧ c = skipStretch (s.til t).stretches c₁ := by
  rw [(Fetching.of_nextOf_go h).nextOf_eq] at h
  obtain ⟨c₁, hgo, hc⟩ : ∃ c₁, s.fetchedNext t g (s.fetchCycle t) = .go c₁ i ∧ skipStretch (s.til t).stretches c₁ = c := by
    unfold Next.skip at h
    split at h
    · cases h
    · next hgo =>
      obtain ⟨hc, rfl⟩ := Next.go.inj h
      exact ⟨_, hgo, hc⟩
    · next hne => exact (hne _ _ h).elim
  obtain ⟨j, hready⟩ : ∃ j, s.readiness t g (s.sourcesFrom t g j (s.fetchCycle t)) j = .go c₁ i := by
    unfold State.fetchedNext at hgo
    grind
  obtain rfl := readiness_inst hready
  exact ⟨c₁, hready, hc.symm⟩

theorem le_foldl_ready (f : Nat → Nat) (l : List Nat) (c : Nat) : c ≤ l.foldl (fun a k => max a (f k)) c := by
  induction l generalizing c with
  | nil => exact Nat.le_refl c
  | cons j l ih => exact (Nat.le_max_left ..).trans (ih _)

theorem nop_start {s : State} {t g c : Nat} {gp : BitVec 3} {gn : Bool} {off : BitVec 16} (h : s.nextOf t g = .go c (.ctl .nop gp gn off)) :
    (s.til t).cyc ≤ c := by
  obtain ⟨c₁, hready, rfl⟩ := start_of_nextOf h
  have hc₁ : c₁ = s.sourcesFrom t g (.ctl .nop gp gn off) (s.fetchCycle t) := by
    have hgo : s.readiness t g (s.sourcesFrom t g (.ctl .nop gp gn off) (s.fetchCycle t)) (.ctl .nop gp gn off) =
        .go (s.sourcesFrom t g (.ctl .nop gp gn off) (s.fetchCycle t)) (.ctl .nop gp gn off) := rfl
    rw [hgo] at hready
    exact (Next.go.inj hready).1.symm
  calc (s.til t).cyc
    _ ≤ s.fetchCycle t := (Nat.le_max_left ..).trans (Nat.le_max_left ..)
    _ ≤ c₁ := hc₁ ▸ le_foldl_ready ..
    _ ≤ _ := le_skipStretch ..

/-- The cycle after one is later. -/
theorem lt_afterCycles (l : List Nat) (c : Nat) : c < afterCycles l c 1 := by
  have hmono (l : List Nat) (d : Nat) : d ≤ l.foldl (fun due k => if c ≤ k ∧ k < due then due + 1 else due) d := by
    induction l generalizing d with
    | nil => exact Nat.le_refl d
    | cons k l ih =>
      refine Nat.le_trans ?_ (ih _)
      beta_reduce
      split <;> omega
  exact hmono l (c + 1)

/-- A HALTED group taken up for its step. -/
def State.stepping (s : State) (t g : Nat) : State :=
  s.setGrp t g { s.grp t g with st := .running, skipBreak := true, stepPending := false }

/-- What a NOP that issues leaves of its group and tile. -/
theorem nop_issued {s : State} {t g c : Nat} {gp : BitVec 3} {gn : Bool} {off : BitVec 16} (hturn : s.scan t = some g)
    (hnext : s.nextOf t g = .go c (.ctl .nop gp gn off)) (hwork : c < settleStart (s.fld (fieldOf t))) (hskip : (s.grp t g).skipBreak = true) :
    let s' := issueAs t g .nop ctlBody s
    (s'.til t).cyc = s.after t c 1 ∧ (s'.grp t g).st = .running ∧ (s'.grp t g).ended = false ∧
      (s'.grp t g).pc = ((s.grp t g).pc + 4) % 65536 ∧ s'.fields = s.fields := by
  let x := s.mkCtx t g c (.ctl .nop gp gn off)
  let q : Option (Nat × Nat) := if guardOf x.inst = (0, false) then none else ((s.retire x 1).withQ x x.grp.aMark).2
  have hissue : issueAs t g .nop ctlBody s = ((s.retire x 1).reportConflict x q).setGrp t g ((s.retire x 1).grp t g).bumpPc := by
    unfold issueAs
    rw [if_pos hturn, hnext]
    dsimp only
    rw [if_pos ⟨rfl, hwork, .inr hskip⟩]
    rfl
  have htally : Tallied t g s ((s.retire x 1).reportConflict x q) := (tallied_retire s x 1).trans (tallied_reportConflict ..)
  have hgroup : ((s.retire x 1).grp t g).uncounted = (s.grp t g).uncounted := (tallied_retire s x 1).group
  have hfetch := Fetching.of_nextOf_go hnext
  intro s'
  have hs' : s' = _ := hissue
  have hgrp : s'.grp t g = ((s.retire x 1).grp t g).bumpPc := by rw [hs', State.grp_setGrp_self]
  refine ⟨?_, ?_, ?_, ?_, ?_⟩
  · have hcyc := s.retire_cyc x 1
    rw [hs', State.setGrp_til, State.reportConflict_til]
    exact hcyc
  · exact (congrArg Group.st hgrp).trans ((congrArg Group.st hgroup :).trans hfetch.running)
  · exact (congrArg Group.ended hgrp).trans ((congrArg Group.ended hgroup :).trans hfetch.going)
  · exact (congrArg Group.pc hgrp).trans (congrArg (fun n => (n + 4) % 65536) (congrArg Group.pc hgroup :))
  · rw [hs']
    exact htally.beyond_eq State.fields fun _ => rfl

theorem stepIssue_gives {s : State} {t g c : Nat} {gp : BitVec 3} {gn : Bool} {off : BitVec 16} (ht : t < 589824) (hg : g < 8)
    (hst : (s.grp t g).st = .halted) (hstep : (s.grp t g).stepPending = true) (hphase : (s.fld (fieldOf t)).phase = .work)
    (hturn : (s.stepping t g).scan t = some g) (hnext : (s.stepping t g).nextOf t g = .go c (.ctl .nop gp gn off))
    (hwork : c < settleStart (s.fld (fieldOf t))) : Gives (.stepIssue t g) s fun s' => (s'.grp t g).st = .halted ∧
      (s'.grp t g).pc = ((s.grp t g).pc + 4) % 65536 ∧ (s'.grp t g).stepPending = false ∧ s'.rd .dbgHaltCause t g = haltWord s t 4 ∧
      (s'.til t).cyc = s.after t c 1 := by
  have hself : (s.stepping t g).grp t g = { s.grp t g with st := .running, skipBreak := true, stepPending := false } := State.grp_setGrp_self ..
  obtain ⟨hcyc, hrun, hgoing, hpc, hfields⟩ := nop_issued hturn hnext hwork (by rw [hself])
  have hlate : ((issueAs t g .nop ctlBody (s.stepping t g)).til t).cyc ≠ (s.til t).cyc := by
    rw [hcyc]
    exact Nat.ne_of_gt (Nat.lt_of_le_of_lt (nop_start (s := s.stepping t g) hnext) (lt_afterCycles ..))
  let s₂ : State := { issueAs t g .nop ctlBody (s.stepping t g) with
    haltedBy := mdel (issueAs t g .nop ctlBody (s.stepping t g)).haltedBy (t, 16 + g) }
  have hrun₂ : (s₂.grp t g).st = .running ∧ (s₂.grp t g).ended = false := ⟨hrun, hgoing⟩
  have heq : exec (.stepIssue t g) s = .next (s₂.haltGroup t g 4) := by
    rw [show exec (.stepIssue t g) s = execStepIssue t g s from rfl, execStepIssue]
    dsimp only
    rw [if_neg (by simp [isTile, ht, hg]), if_neg (by simp [hst, hstep, hphase])]
    change (match execOf (match (s.stepping t g).nextOf t g with | .go _ i => mnemOf i | _ => .nop) t g (s.stepping t g) with
      | .next s2 => _
      | o => o) = _
    rw [hnext]
    change (match onGroup t g (issueAs t g .nop ctlBody (s.stepping t g)) with
      | .next s2 => _
      | o => o) = _
    rw [onGroup_next ht hg]
    dsimp only
    rw [if_neg hlate, if_pos hrun₂]
  refine gives_next heq ?_
  have htil : (s₂.til t).cyc = s.after t c 1 := hcyc
  have hpc₂ : (s₂.grp t g).pc = ((s.grp t g).pc + 4) % 65536 := hpc.trans (by rw [hself])
  have hfields₂ : s₂.fields = s.fields := hfields
  clear_value s₂
  have hhalt := haltGroup_halts s₂ t g 4
  refine ⟨hhalt.halted, hhalt.stays.trans hpc₂, hhalt.idle, ?_, ?_⟩
  · rw [hhalt.shown, haltWord_of hfields₂]
  · rw [hhalt.keeps.eq_of (State.til · t) (State.til · t) fun _ => rfl, htil]

/-! ### Breakpoints -/

/-- The session that set a breakpoint has halted the group. -/
def State.blame (s : State) (t g k : Nat) : State :=
  match mfind s.haltedBy (t, 8 + k) with
  | some p => { s with haltedBy := mput s.haltedBy (t, g) p }
  | none => s

theorem blame_keeps (s : State) (t g k : Nat) : Keeps (fun s => ({ s with haltedBy := [] } : State)) [] s (s.blame t g k) := by
  unfold State.blame
  split
  · exact .quiet rfl fun _ _ _ => rfl
  · exact .refl s

theorem breakpoint_gives {s : State} {t g c k : Nat} {i : TInst} (ht : t < 589824) (hg : g < 8) (hrun : (s.grp t g).st = .running)
    (hskip : (s.grp t g).skipBreak = false) (hturn : s.scan t = some g) (hnext : s.nextOf t g = .go c i)
    (hwork : c < settleStart (s.fld (fieldOf t))) (hbreak : s.breakAt t g = some k) : Gives (.breakpoint t g) s fun s' =>
      (s'.grp t g).st = .halted ∧ (s'.grp t g).pc = (s.grp t g).pc ∧ s'.rd .dbgHaltCause t g = haltWord s t (2 + k) := by
  have heq : exec (.breakpoint t g) s =
      .next (((s.blame t g k).haltGroup t g (2 + k)).logEv evGroupHalted (fieldOf t) t (detail2 g (2 + k))) := by
    rw [show exec (.breakpoint t g) s = execBreakpoint t g s from rfl, execBreakpoint, onGroup_next ht hg, hbreak, hnext]
    dsimp only [nextCycle]
    rw [if_pos ⟨hturn, decide_eq_true hwork, hskip, hrun⟩]
    rfl
  refine gives_next heq ?_
  have hblame := blame_keeps s t g k
  generalize s.blame t g k = u at hblame
  have hhalt := haltGroup_halts u t g (2 + k)
  generalize u.haltGroup t g (2 + k) = v at hhalt
  have hlog : Marks [] v (v.logEv evGroupHalted (fieldOf t) t (detail2 g (2 + k))) := .logEv ..
  generalize v.logEv evGroupHalted (fieldOf t) t (detail2 g (2 + k)) = w at hlog
  have hgrp : w.grp t g = v.grp t g := hlog.beyond_eq (State.grp · t g) fun _ => rfl
  rw [hgrp]
  refine ⟨hhalt.halted, ?_, ?_⟩
  · rw [hhalt.stays, hblame.eq_of (State.grp · t g) (State.grp · t g) fun _ => rfl]
  · rw [hlog.regs _ _ _ (by decide), hhalt.shown, haltWord_of (hblame.eq_of State.fields (·.fields) fun _ => rfl)]

/-! ### The debug register view -/

/-- A group with a lane's word written by the debug view. -/
def Group.dbgLane (x : Group) (k : Nat) (v : Word) : Group :=
  { x with v := mput x.v (k / 8, k % 8) v, marks := mdel x.marks (k / 8), loading := mdel x.loading (k / 8) }

theorem dbgPut_lane (s : State) (t g : Nat) {k : Nat} (hk : k < 256) (v : Word) : ∃ s', s.dbgPut t g k v = some s' ∧
    s'.grp t g = (s.grp t g).dbgLane k v ∧ s'.sram = s.sram := by
  unfold State.dbgPut
  rw [if_pos hk]
  refine ⟨_, rfl, ?_, rfl⟩
  rw [State.grp_setGrp_self, State.grp_setGrp_self]
  rfl

theorem lane_dbgLane (x : Group) {k : Nat} (v : Word) (r j : Nat) :
    (x.dbgLane k v).lane r j = if r = k / 8 ∧ j = k % 8 then v else x.lane r j := by
  rw [Group.lane, Group.dbgLane, mget_mput, Group.lane]
  exact if_congr Prod.mk_inj rfl rfl

theorem dbgRegWrite_lane {s : State} {req : Requester} {f k : Nat} (v : Word) (hf : f < 64) (hright : s.right req 1 f = true)
    (hst : (s.grp (s.gf F.tilWinSel_tile f) (s.gf F.dbgGroupSel_group f)).st = .halted) (hk : k < 256) :
    Gives (.dbgRegWrite req f k v) s fun s' =>
      let t := s.gf F.tilWinSel_tile f
      let g := s.gf F.dbgGroupSel_group f
      (∀ r j, (s'.grp t g).lane r j = if r = k / 8 ∧ j = k % 8 then v else (s.grp t g).lane r j) ∧
      (s'.grp t g).pc = (s.grp t g).pc ∧ (s'.grp t g).st = .halted ∧ s'.sram = s.sram := by
  obtain ⟨s', hput, hgrp, hsram⟩ := dbgPut_lane s (s.gf F.tilWinSel_tile f) (s.gf F.dbgGroupSel_group f) hk v
  have heq : exec (.dbgRegWrite req f k v) s = .next s' := by
    rw [show exec (.dbgRegWrite req f k v) s = execDbgRegWrite req f k v s from rfl, execDbgRegWrite, onField_next hf]
    dsimp only
    rw [if_neg (by omega), if_neg (by simp [hright, hst]), hput]
    rfl
  refine gives_next heq ?_
  dsimp only
  rw [hgrp]
  exact ⟨lane_dbgLane _ v, rfl, hst, hsram⟩

theorem dbgRegWrite_refused {s : State} {req : Requester} {f : Nat} (k : Nat) (v : Word) (hf : f < 64)
    (hno : s.right req 1 f = false ∨ (s.grp (s.gf F.tilWinSel_tile f) (s.gf F.dbgGroupSel_group f)).st ≠ .halted) :
    Gives (.dbgRegWrite req f k v) s fun s' => s'.groups = s.groups := by
  have heq : exec (.dbgRegWrite req f k v) s = .next (if 276 ≤ k then s else s.refuse f req (fieldWin f (0xB1004 + 8 * k))) := by
    rw [show exec (.dbgRegWrite req f k v) s = execDbgRegWrite req f k v s from rfl, execDbgRegWrite, onField_next hf]
    dsimp only
    rw [if_pos hno]
  refine gives_next heq ?_
  split
  · rfl
  · exact (Marks.logEv (rs := []) s evAccessRefused f (Requester.loc req) (fieldWin f (0xB1004 + 8 * k))).beyond_eq State.groups fun _ => rfl

/-! ### Event rings -/

theorem eventRingWrite_gives {s : State} {f : Nat} {e : Event} {q : List Event} (hf : f < 64) (hfog : (s.fld f).fogged = false)
    (hreset : s.flag F.fkpStatus_resetting f = false) (hqueue : (s.ring f).queue = e :: q) : Gives (.eventRingWrite f) s fun s' =>
      (s'.ring f).head = ((s.ring f).head + 1) % 2 ^ 32 ∧
      mfind (s'.ring f).slots ((s.ring f).head % 2048) = some { e with seq := (s.ring f).head, lost := (s.ring f).lostPending } ∧
      ((s.ring f).lostNew = 0 → (s'.ring f).queue = q) := by
  have heq : ∃ (n : Nat) (l : Nat × Option Nat) (w : Event), exec (.eventRingWrite f) s = .next ((s.advanceTo (s.ring f).nextAt).setRing f { s.ring f with
      nextAt := n
      slots := mput (s.ring f).slots ((s.ring f).head % 2048) { e with seq := (s.ring f).head, lost := (s.ring f).lostPending }
      head := ((s.ring f).head + 1) % 2 ^ 32, lostPending := false
      queue := if (decide (0 < (s.ring f).lostNew) && decide ((s.ring f).lostWatch ≠
        some ((s.advanceTo (s.ring f).nextAt).fld f).watch)) = true then q ++ [w] else q
      lostNew := l.1, lostWatch := l.2 }) := by
    rw [show exec (.eventRingWrite f) s = execEventRingWrite f s from rfl, execEventRingWrite, onField_next hf]
    dsimp only
    rw [hqueue]
    dsimp only
    rw [if_neg (by simp [hfog, hreset])]
    exact ⟨_, (_, _), _, rfl⟩
  obtain ⟨n, l, w, heq⟩ := heq
  refine gives_next heq ?_
  have hself (u : State) (y : Ring) : (u.setRing f y).ring f = y := mget_mput_self ..
  rw [hself]
  refine ⟨rfl, mfind_mput_self .., fun hlost => ?_⟩
  simp [hlost]

end Sys2Proof.Machine

namespace Sys2Proof.Claims

open Sys2Proof.Machine

/-- Settles O58: a halt, a step, a resume and a breakpoint each by what they make of the group; a step's NOP moves its tile
on, so that it is not taken for one that did not issue. -/
theorem groupControl : Obligations.GroupControl := by
  intro s req t g f c k gp gn off v x cause
  refine ⟨fun ht hg => ⟨fun hright i hi => control_refused ht hg hright hi, fun hright => ⟨halt_running ht hg hright, halt_other ht hg hright,
    step_marks ht hg hright, fun hst => ⟨resume_runs ht hg hright hst, resume_frees ht hg hright hst⟩, resume_trappedHalt ht hg hright,
    resume_trappedFree ht hg hright⟩, fun hst hstep hphase hturn hnext hwork => stepIssue_gives ht hg hst hstep hphase hturn hnext hwork,
    fun i hrun hskip hturn hnext hwork hbreak => breakpoint_gives ht hg hrun hskip hturn hnext hwork hbreak⟩, ?_, ?_⟩
  · rintro hf rfl rfl
    exact ⟨fun hright hst hk => dbgRegWrite_lane v hf hright hst hk, dbgRegWrite_refused k v hf⟩
  · exact fun hf hfog hreset e q hqueue => eventRingWrite_gives hf hfog hreset hqueue

end Sys2Proof.Claims
end

section
/-! SUPPORT. The Keepers and what watches them: events of the station's ring, the failover, the automatic reset, restarts of
Field Keepers. -/

namespace Sys2Proof.Machine

open Sys2Proof.Claims

/-! ### Events of the station's ring -/

theorem stationRecord_logged (s : State) (e : Event) : ((s.stationRecord e).ring 64).head = ((s.ring 64).head + 1) % 2 ^ 32 ∧
    ∃ d, mfind ((s.stationRecord e).ring 64).slots ((s.ring 64).head % 2048) = some d ∧ d.code = e.code := by
  have hring : (s.stationRecord e).ring 64 = { s.ring 64 with
      slots := mput (s.ring 64).slots ((s.ring 64).head % 2048) { e with seq := (s.ring 64).head, lost := (s.ring 64).lostPending }
      head := ((s.ring 64).head + 1) % 2 ^ 32, lostPending := false } := mget_mput_self ..
  rw [hring]
  exact ⟨rfl, _, mfind_mput_self .., rfl⟩

theorem logEv_logged (s : State) (ev : Ev) (loc detail : Nat) : Logged s (s.logEv ev 64 loc detail) ev :=
  stationRecord_logged s _

/-- An event logged in a state whose station ring is that of another, or kept thereafter. -/
theorem logged_of_rings {s a b s' : State} {ev : Ev} (h : Logged a b ev) (ha : a.rings = s.rings) (hb : s'.rings = b.rings) : Logged s s' ev := by
  unfold Logged State.ring at h ⊢
  rw [hb, ← ha]
  exact h

/-! ### The watchdog -/

theorem watchdogFeed_gives {s : State} {port : Nat} (v : Nat) (hport : port < 4) : Gives (.watchdogFeed port v) s fun s' =>
    s'.flag F.stnWdogStatus_fed = true ∧ mget 0 s'.wdogDoorbell port = v % 2 ^ 32 := by
  have heq : exec (.watchdogFeed port v) s =
      .next (({ s with wdogDoorbell := mput s.wdogDoorbell port (v % 2 ^ 32) } : State).sf F.stnWdogStatus_fed 0 0 1) := by
    rw [show exec (.watchdogFeed port v) s = execWatchdogFeed port v s from rfl, execWatchdogFeed, onUnit_next hport]
  refine gives_next heq ⟨?_, mget_mput_self ..⟩
  rw [State.flag_sf_self _ _ _ _ _ (by decide) (by decide)]
  rfl

theorem wdogAck_gives {s : State} (hfed : s.flag F.stnWdogStatus_fed = true) : Gives (.stnWdogAck (.keeper 64)) s fun s' =>
    s'.flag F.stnWdogStatus_fed = false ∧ s'.wdogFrom = s.now := by
  have hset (u : State) (n : Nat) : Keeps (fun _ => ()) [] u { u with wdogFrom := n } := .quiet rfl fun _ _ _ => rfl
  have heq : exec (.stnWdogAck (.keeper 64)) s = .next { s.sf F.stnWdogStatus_fed 0 0 0 with wdogFrom := s.now } := by
    rw [show exec (.stnWdogAck (.keeper 64)) s = execStnWdogAck (.keeper 64) s from rfl, execStnWdogAck, if_neg (by simp), if_neg (by simp [hfed])]
  refine gives_next heq ⟨?_, rfl⟩
  rw [(hset ..).flag_eq (by decide), State.flag_sf_self _ _ _ _ _ (by decide) (by decide)]
  rfl

theorem wdogAck_refused (s : State) {req : Requester} (hreq : req ≠ .keeper 64) : Gives (.stnWdogAck req) s fun s' =>
    s'.regs = s.regs ∧ s'.wdogFrom = s.wdogFrom ∧ Logged s s' evAccessRefused := by
  have heq : exec (.stnWdogAck req) s = .next (s.refuse 64 req 0x608) := by
    rw [show exec (.stnWdogAck req) s = execStnWdogAck req s from rfl, execStnWdogAck, if_pos hreq]
  exact gives_next heq ⟨State.refuse_regs .., rfl, logEv_logged ..⟩

/-- The watchdog's count at its end. -/
def State.wdogEnded (s : State) : State :=
  let s := s.advanceTo (s.wdogFrom + s.gf F.stnWdogCfg_watches * s.gf F.bcnPeriod_period)
  { s with wdogFrom := s.now }

theorem wdogEnded_spec (s : State) : Keeps (fun s => ({ s with regs := [], now := 0, wdogFrom := 0 } : State)) [] s s.wdogEnded ∧
    s.wdogFrom + s.gf F.stnWdogCfg_watches * s.gf F.bcnPeriod_period ≤ s.wdogEnded.now ∧ s.wdogEnded.wdogFrom = s.wdogEnded.now :=
  ⟨.quiet rfl fun _ _ _ => rfl, Nat.le_max_right .., rfl⟩

/-- The watchdog's end at a Station Keeper that is silent. -/
def State.keeperSilent (s : State) : State := (s.wdogEnded.sf F.stnWdogStatus_last 0 0 2).logEv evStationWatchdog 64 64 0

theorem watchdog_eq {s : State} (harmed : s.wdogArmed = true) : exec .stationWatchdog s =
    .next (if s.wdogEnded.flag F.stnWdogStatus_fed = false then (s.wdogEnded.sf F.stnWdogStatus_last 0 0 1).logEv evHostSilent 64 64 0
      else if s.keeperSilent.mirrorAble then s.keeperSilent.failover
      else s.keeperSilent.failover.foghorn 4 false (evCode evStationWatchdog)) := by
  rw [show exec .stationWatchdog s = execStationWatchdog s from rfl, execStationWatchdog, if_neg (by simp [harmed])]
  rfl

theorem watchdog_silent {s : State} (harmed : s.wdogArmed = true) (hfed : s.flag F.stnWdogStatus_fed = false) :
    Gives .stationWatchdog s fun s' => s'.gf F.stnWdogStatus_last = 1 ∧
      s.wdogFrom + s.gf F.stnWdogCfg_watches * s.gf F.bcnPeriod_period ≤ s'.now ∧ s'.wdogFrom = s'.now ∧ s'.keeperAt = s.keeperAt ∧
      Logged s s' evHostSilent := by
  obtain ⟨hkeep, hdue, hfrom⟩ := wdogEnded_spec s
  have heq := watchdog_eq harmed
  rw [if_pos (by rw [hkeep.flag_eq (by decide), hfed])] at heq
  refine gives_next heq ?_
  generalize s.wdogEnded = u at hkeep hdue hfrom ⊢
  have hlast := State.gf_sf_self u F.stnWdogStatus_last 0 0 1 (by decide) (by rfl : _ = 2 ^ 2)
  have hset : Marks [.stnWdogStatus] u (u.sf F.stnWdogStatus_last 0 0 1) := .sf (by decide) (by decide) ..
  have hrings : (u.sf F.stnWdogStatus_last 0 0 1).rings = s.rings := hkeep.eq_of State.rings (·.rings) fun _ => rfl
  generalize u.sf F.stnWdogStatus_last 0 0 1 = v at hset hlast hrings
  have hlog : Marks [] v (v.logEv evHostSilent 64 64 0) := .logEv ..
  have hnow : (v.logEv evHostSilent 64 64 0).now = u.now := (hlog.beyond_eq State.now fun _ => rfl).trans (hset.beyond_eq State.now fun _ => rfl)
  refine ⟨?_, hnow ▸ hdue, ?_, ?_, logged_of_rings (logEv_logged v evHostSilent 64 0) hrings rfl⟩
  · rw [hlog.gf_eq (by decide), hlast]
    rfl
  · rw [hnow, ← hfrom]
    exact (hlog.beyond_eq State.wdogFrom fun _ => rfl).trans (hset.beyond_eq State.wdogFrom fun _ => rfl)
  · rw [hlog.beyond_eq State.keeperAt fun _ => rfl, hset.beyond_eq State.keeperAt fun _ => rfl,
      hkeep.eq_of State.keeperAt (·.keeperAt) fun _ => rfl]

/-! ### The failover -/

/-- The registers that failing the commands under way leaves. -/
theorem failRunning_sheds (s : State) : ∃ c, Sheds { s with candidate := c } s.failRunning := by
  have hcand (u : State) : Keeps (fun _ => ()) [] u { u with candidate := none } := .quiet rfl fun _ _ _ => rfl
  unfold State.failRunning
  extract_lets a b c
  obtain ⟨d, ha⟩ : ∃ d, Sheds { s with candidate := d } a := by
    unfold a
    split
    · exact ⟨none, (Sheds.refl _).wr⟩
    · exact ⟨s.candidate, .refl _⟩
  clear_value a
  have hb : Sheds { s with candidate := d } b := by
    unfold b
    split
    · exact ha.sf
    · exact ha
  exact ⟨d, (hb.failLoading).each fun _ _ h => h.mboxDone⟩

/-- The Station Keeper moved to its mirror. -/
def State.promoted (s : State) : State :=
  ((({ s with keeperAt := s.mirrorAt, mirrorReady := false } : State).sf F.stnFwStatus_mirror 0 0 (if s.mirrorAt = 36 then 1 else 0)).bump
    .stnCountFailover 0 0 1).logEv evKeeperFailover 64 s.mirrorAt 0

theorem failover_eq {s : State} (hable : s.mirrorAble = true) :
    s.failover = (s.promoted.each (List.range 5) State.endSession).failRunning := by
  rw [State.failover, if_pos hable]
  rfl

theorem failover_spec {s : State} (hable : s.mirrorAble = true) : s.failover.keeperAt = s.mirrorAt ∧ s.failover.mirrorReady = false ∧
    s.failover.now = s.now ∧ s.failover.rd .stnWdogStatus 0 0 = s.rd .stnWdogStatus 0 0 ∧
    ∀ p, p < 5 → s.failover.flag F.stnDebugSession_active 0 p = false := by
  rw [failover_eq hable]
  have hmark (u : State) : Marks [.stnFwStatus, .stnCountFailover] u (((u.sf F.stnFwStatus_mirror 0 0 (if s.mirrorAt = 36 then 1 else 0)).bump
      .stnCountFailover 0 0 1).logEv evKeeperFailover 64 s.mirrorAt 0) :=
    .trans (.trans (.sf (by decide) (by decide) ..) (.bump (by decide) (by decide) ..)) (.logEv ..)
  have hmoved : Keeps (fun _ => ()) [] s { s with keeperAt := s.mirrorAt, mirrorReady := false } := .quiet rfl fun _ _ _ => rfl
  have hpro := hmark { s with keeperAt := s.mirrorAt, mirrorReady := false }
  change Marks _ _ s.promoted at hpro
  have hat : s.promoted.keeperAt = s.mirrorAt := hpro.beyond_eq State.keeperAt fun _ => rfl
  have hready : s.promoted.mirrorReady = false := hpro.beyond_eq State.mirrorReady fun _ => rfl
  have hnow : s.promoted.now = s.now := hpro.beyond_eq State.now fun _ => rfl
  have hwdog : s.promoted.rd .stnWdogStatus 0 0 = s.rd .stnWdogStatus 0 0 :=
    (hpro.regs _ _ _ (by decide)).trans (hmoved.regs _ _ _ (by decide))
  generalize s.promoted = u at hat hready hnow hwdog
  have hend : Keeps State.beyondSession sessionRegs u (u.each (List.range 5) State.endSession) :=
    .each _ _ (fun s p _ => endSession_keeps s p) u
  have hclosed : ∀ p ∈ List.range 5, (u.each (List.range 5) State.endSession).flag F.stnDebugSession_active 0 p = false :=
    State.each_gives (P := fun p s => s.flag F.stnDebugSession_active 0 p = false) (fun s p _ => endSession_inactive s p)
      (fun s p _ q hq => endSession_stays p hq) u
  generalize u.each (List.range 5) State.endSession = v at hend hclosed
  have hcand (c : Option Image) : Keeps (fun _ => ()) [] v { v with candidate := c } := .quiet rfl fun _ _ _ => rfl
  obtain ⟨c, hfail⟩ := failRunning_sheds v
  refine ⟨?_, ?_, ?_, ?_, fun p hp => ?_⟩
  · rw [hfail.eq_of State.keeperAt (·.1.keeperAt) fun _ => rfl]
    exact (hend.eq_of State.keeperAt (·.keeperAt) fun _ => rfl).trans hat
  · rw [hfail.eq_of State.mirrorReady (·.1.mirrorReady) fun _ => rfl]
    exact (hend.eq_of State.mirrorReady (·.mirrorReady) fun _ => rfl).trans hready
  · rw [hfail.eq_of State.now (·.1.now) fun _ => rfl]
    exact (hend.eq_of State.now (·.now) fun _ => rfl).trans hnow
  · rw [hfail.regs _ _ _ (by decide), (hcand c).regs _ _ _ (by decide), hend.regs _ _ _ (by decide), hwdog]
  · rw [hfail.flag_eq (by decide), (hcand c).flag_eq (by decide), hclosed p (List.mem_range.2 hp)]

theorem watchdog_failover {s : State} (harmed : s.wdogArmed = true) (hfed : s.flag F.stnWdogStatus_fed = true) (hable : s.mirrorAble = true) :
    Gives .stationWatchdog s fun s' => s'.gf F.stnWdogStatus_last = 2 ∧
      s.wdogFrom + s.gf F.stnWdogCfg_watches * s.gf F.bcnPeriod_period ≤ s'.now ∧ s'.keeperAt = s.mirrorAt := by
  obtain ⟨hkeep, hdue, -⟩ := wdogEnded_spec s
  have hset (u : State) : Marks [.stnWdogStatus] u ((u.sf F.stnWdogStatus_last 0 0 2).logEv evStationWatchdog 64 64 0) :=
    .trans (.sf (by decide) (by decide) ..) (.logEv ..)
  have hmark : Marks [.stnWdogStatus] s.wdogEnded s.keeperSilent := hset s.wdogEnded
  have hlast : s.keeperSilent.gf F.stnWdogStatus_last = 2 := by
    rw [State.keeperSilent, (Marks.logEv (rs := []) ..).gf_eq (by decide),
      State.gf_sf_self _ F.stnWdogStatus_last 0 0 2 (by decide) (by rfl : _ = 2 ^ 2)]
    rfl
  have hat : s.keeperSilent.mirrorAt = s.mirrorAt :=
    (hmark.beyond_eq State.mirrorAt fun _ => rfl).trans (hkeep.eq_of State.mirrorAt (State.mirrorAt ·) fun _ => rfl)
  have hable' : s.keeperSilent.mirrorAble = true := by
    have hready : s.keeperSilent.mirrorReady = s.mirrorReady :=
      (hmark.beyond_eq State.mirrorReady fun _ => rfl).trans (hkeep.eq_of State.mirrorReady (·.mirrorReady) fun _ => rfl)
    have hfld : s.keeperSilent.fld s.mirrorAt = s.fld s.mirrorAt :=
      (hmark.beyond_eq (State.fld · s.mirrorAt) fun _ => rfl).trans (hkeep.eq_of (State.fld · s.mirrorAt) (State.fld · s.mirrorAt) fun _ => rfl)
    rw [← hable, State.mirrorAble, hready, hat, State.fieldDown, hfld, hmark.flag_eq (by decide), hkeep.flag_eq (by decide)]
    rfl
  have hnow := hmark.beyond_eq State.now fun _ => rfl
  have heq := watchdog_eq harmed
  rw [if_neg (by rw [hkeep.flag_eq (by decide), hfed]; decide), if_pos hable'] at heq
  refine gives_next heq ?_
  generalize s.keeperSilent = u at hlast hable' hat hnow
  obtain ⟨hkeeper, -, hnow', hwdog, -⟩ := failover_spec hable'
  refine ⟨?_, ?_, hkeeper.trans hat⟩
  · rw [State.gf, show F.stnWdogStatus_last.reg = .stnWdogStatus from rfl, hwdog]
    exact hlast
  · rw [hnow', hnow]
    exact hdue

theorem keeperFailover_eq {s : State} (hfog : (s.fld s.keeperAt).fogged = true) (hno : (s.gf F.stnFoghorn_cause).testBit 5 = false) :
    exec .keeperFailover s = .next s.failover := by
  rw [show exec .keeperFailover s = execKeeperFailover s from rfl, execKeeperFailover]
  dsimp only
  rw [if_neg (by simp [hfog, hno])]

theorem keeperFailover_moves {s : State} (hfog : (s.fld s.keeperAt).fogged = true) (hno : (s.gf F.stnFoghorn_cause).testBit 5 = false)
    (hable : s.mirrorAble = true) : Gives .keeperFailover s fun s' => s'.keeperAt = s.mirrorAt ∧ s'.mirrorReady = false ∧
      ∀ p, p < 5 → s'.flag F.stnDebugSession_active 0 p = false := by
  obtain ⟨hat, hready, -, -, hsessions⟩ := failover_spec hable
  exact gives_next (keeperFailover_eq hfog hno) ⟨hat, hready, hsessions⟩

theorem testBit_lor_two_pow (n b : Nat) : (Nat.lor n (2 ^ b)).testBit b = true := by
  rw [show Nat.lor n (2 ^ b) = n ||| 2 ^ b from rfl, Nat.testBit_or, Nat.testBit_two_pow_self, Bool.or_true]

/-- The foghorn sounding with one more cause. -/
def State.alarm (s : State) (bit : Nat) : State :=
  (s.sf F.stnFoghorn_asserted 0 0 1).sf F.stnFoghorn_cause 0 0 (Nat.lor ((s.sf F.stnFoghorn_asserted 0 0 1).gf F.stnFoghorn_cause) (2 ^ bit))

/-- The automatic reset that becomes due as the foghorn sounds. -/
def State.autoDue (s : State) (bit : Nat) : State :=
  if (bit = 4 ∨ bit = 5) ∧ s.flag F.stnWdogCfg_auto_reset = true ∧ s.fogAutoAt = none then { s with fogAutoAt := some (s.now + 1000000000) }
  else s

theorem foghorn_eq (s : State) (bit code : Nat) : s.foghorn bit false code = (s.alarm bit).autoDue bit := rfl

theorem autoDue_keeps (s : State) (bit : Nat) : Keeps (fun s => (s.keeperAt, s.rings)) [] s (s.autoDue bit) := by
  unfold State.autoDue
  split
  · exact .quiet rfl fun _ _ _ => rfl
  · exact .refl s

theorem setFoghorn_keeps (s : State) {f : RegField} (v : Nat) (hf : f.reg = .stnFoghorn) :
    Keeps (fun s => (s.keeperAt, s.rings)) [.stnFoghorn] s (s.sf f 0 0 v) :=
  ⟨rfl, (Marks.sf (by rw [hf]; exact .head _) (by rw [hf]; decide) ..).regs⟩

theorem alarm_spec (s : State) {bit : Nat} (hbit : bit < 6) : Keeps (fun s => (s.keeperAt, s.rings)) [.stnFoghorn] s (s.alarm bit) ∧
    (s.alarm bit).flag F.stnFoghorn_asserted = true ∧ ((s.alarm bit).gf F.stnFoghorn_cause).testBit bit = true := by
  have ha := State.flag_sf_self s F.stnFoghorn_asserted 0 0 1 (by decide) (by decide)
  have hma := setFoghorn_keeps s (f := F.stnFoghorn_asserted) 1 rfl
  unfold State.alarm
  generalize s.sf F.stnFoghorn_asserted 0 0 1 = a at ha hma
  refine ⟨hma.trans (setFoghorn_keeps a _ rfl), ?_, ?_⟩
  · rw [State.flag_sf_apart a F.stnFoghorn_cause 0 0 _ (g := F.stnFoghorn_asserted) rfl (by decide), ha]
    rfl
  · rw [State.gf_sf_self a F.stnFoghorn_cause 0 0 _ (by decide) (by rfl : _ = 2 ^ 6), Nat.testBit_mod_two_pow, testBit_lor_two_pow,
      decide_eq_true hbit]
    rfl

theorem foghorn_spec (s : State) (code : Nat) : Keeps (fun s => (s.keeperAt, s.rings)) [.stnFoghorn] s (s.foghorn 5 false code) ∧
    (s.foghorn 5 false code).flag F.stnFoghorn_asserted = true ∧ ((s.foghorn 5 false code).gf F.stnFoghorn_cause).testBit 5 = true := by
  rw [foghorn_eq]
  obtain ⟨hkeep, hassert, hcause⟩ := alarm_spec s (bit := 5) (by decide)
  generalize s.alarm 5 = u at hkeep hassert hcause
  have hdue := autoDue_keeps u 5
  refine ⟨hkeep.trans (hdue.mono (by decide)), ?_, ?_⟩
  · rw [hdue.flag_eq (by decide), hassert]
  · rw [hdue.gf_eq (by decide), hcause]

theorem keeperFailover_fatal {s : State} (hfog : (s.fld s.keeperAt).fogged = true) (hno : (s.gf F.stnFoghorn_cause).testBit 5 = false)
    (hable : s.mirrorAble = false) : Gives .keeperFailover s fun s' => s'.keeperAt = s.keeperAt ∧ s'.flag F.stnFoghorn_asserted = true ∧
      (s'.gf F.stnFoghorn_cause).testBit 5 = true ∧ Logged s s' evKeeperFatal := by
  have heq := keeperFailover_eq hfog hno
  rw [State.failover, if_neg (by simp [hable])] at heq
  refine gives_next heq ?_
  have hlog : Marks [] s (s.logEv evKeeperFatal 64 64 0) := .logEv ..
  have hlogged := logEv_logged s evKeeperFatal 64 0
  generalize s.logEv evKeeperFatal 64 64 0 = u at hlog hlogged
  obtain ⟨hkeep, hassert, hcause⟩ := foghorn_spec u (evCode evKeeperFatal)
  refine ⟨?_, hassert, hcause, logged_of_rings hlogged rfl (hkeep.eq_of State.rings (·.2) fun _ => rfl)⟩
  rw [hkeep.eq_of State.keeperAt (·.1) fun _ => rfl, hlog.beyond_eq State.keeperAt fun _ => rfl]

/-! ### The automatic reset -/

/-- What a station reset leaves whatever it found: empty SRAM, no reset due of itself, time as it was, its cause. -/
structure Restarts (s s' : State) (cause : Nat) : Prop where
  now : s'.now = s.now
  sram : s'.sram = []
  auto : s'.fogAutoAt = none
  cause : s'.gf F.rstCause_cause = cause

theorem resetStation_restarts (s : State) {cause : Nat} (hcause : cause < 16) : Restarts s (s.resetStation cause) cause := by
  have hjob (u : State) (js : List ResetJob) : Keeps (fun _ => ()) [] u { u with resets := js } := .quiet rfl fun _ _ _ => rfl
  unfold State.resetStation
  extract_lets regs _ n a b c d e
  have hn : n.now = s.now ∧ n.sram = [] ∧ n.fogAutoAt = none := ⟨rfl, rfl, rfl⟩
  clear_value n
  have hb : Marks [.stnNvInhibit, .rstCause] n b := .trans (.sf (by decide) (by decide) ..) (.sf (by decide) (by decide) ..)
  clear_value b
  have hset := State.gf_sf_self b F.rstCause_cause 0 0 cause (by decide) (by rfl : _ = 2 ^ 4)
  have hmb : Marks [.rstCause] b (b.sf F.rstCause_cause 0 0 cause) := .sf (by decide) (by decide) ..
  have hc : Marks [.stnStartup] (b.sf F.rstCause_cause 0 0 cause) c := .sf (by decide) (by decide) ..
  generalize b.sf F.rstCause_cause 0 0 cause = x at hset hmb hc
  clear_value c
  have hd : Marks [.clkSrcStatus] c d := .trans (.sf (by decide) (by decide) ..) (.sf (by decide) (by decide) ..)
  have he : Marks [.clkSrcStatus] d e := .trans (.sf (by decide) (by decide) ..) (.sf (by decide) (by decide) ..)
  clear_value d e
  have hall : Marks [.stnNvInhibit, .rstCause, .stnStartup, .clkSrcStatus] n e :=
    ((((hb.mono (by decide)).trans (hmb.mono (by decide))).trans (hc.mono (by decide))).trans (hd.mono (by decide))).trans (he.mono (by decide))
  refine ⟨?_, ?_, ?_, ?_⟩
  · exact (hall.beyond_eq State.now fun _ => rfl).trans hn.1
  · exact (hall.beyond_eq State.sram fun _ => rfl).trans hn.2.1
  · exact (hall.beyond_eq State.fogAutoAt fun _ => rfl).trans hn.2.2
  · rw [(hjob e _).gf_eq (by decide), he.gf_eq (by decide), hd.gf_eq (by decide), hc.gf_eq (by decide), hset]
    exact Nat.mod_eq_of_lt hcause

/-- A reset asked for with none under way: its domain and target noted, the requests of contained resets moved to it. -/
def State.resetAsked (s : State) (d t : Nat) (slot : Option Nat) : State :=
  let s := (s.sf F.rstDomainCtl_domain 0 0 d).sf F.rstDomainCtl_target 0 0 t
  { s with
    resets := s.resets.filter fun j => !domainHolds d t j.domain j.target
    mboxJobs := (s.mboxJobs.map fun (e : Nat × MboxOp) => match e.2 with
      | .reset e' u => if domainHolds d t e' u then (e.1, .reset d t) else e
      | _ => e) ++ (match slot with | some u => [(u, .reset d t)] | none => []) }

/-- A reset shown busy. -/
def State.resetShown (s : State) (d t : Nat) : State :=
  ((s.sf F.rstStatus_busy 0 0 1).sf F.rstStatus_domain 0 0 d).sf F.rstStatus_target 0 0 t

theorem resetShown_marks (s : State) (d t : Nat) : Marks [.rstStatus] s (s.resetShown d t) :=
  .trans (.trans (.sf (by decide) (by decide) ..) (.sf (by decide) (by decide) ..)) (.sf (by decide) (by decide) ..)

theorem beginReset_stationEq {s : State} (cause : Nat) (hno : s.resets = []) :
    s.beginReset 5 0 cause none = ((s.resetAsked 5 0 none).resetStation cause).resetShown 5 0 := by
  unfold State.beginReset
  rw [hno]
  rfl

/-- A reset of the station begun with none under way. -/
theorem beginReset_station {s : State} {cause : Nat} (hno : s.resets = []) (hcause : cause < 16) : Restarts s (s.beginReset 5 0 cause none) cause := by
  rw [beginReset_stationEq cause hno]
  have hasked : (s.resetAsked 5 0 none).now = s.now := rfl
  generalize s.resetAsked 5 0 none = b at hasked
  obtain ⟨hnow, hsram, hauto, hset⟩ := resetStation_restarts b hcause
  generalize b.resetStation cause = c at hnow hsram hauto hset
  have hshown := resetShown_marks c 5 0
  refine ⟨?_, ?_, ?_, ?_⟩
  · rw [hshown.beyond_eq State.now fun _ => rfl, hnow, hasked]
  · rw [hshown.beyond_eq State.sram fun _ => rfl, hsram]
  · rw [hshown.beyond_eq State.fogAutoAt fun _ => rfl, hauto]
  · rw [hshown.gf_eq (by decide), hset]

theorem autoReset_gives {s : State} {t : Nat} (hat : s.fogAutoAt = some t) (hno : s.resets = []) : Gives .foghornAutoReset s fun s' =>
    t ≤ s'.now ∧ s'.gf F.rstCause_cause = (if (s.gf F.stnFoghorn_cause).testBit 4 then 3 else 4) ∧ s'.sram = [] ∧ s'.fogAutoAt = none := by
  have heq : exec .foghornAutoReset s = .next (({ s.advanceTo t with fogAutoAt := none } : State).beginReset 5 0
      (if (s.gf F.stnFoghorn_cause).testBit 4 then 3 else 4) none) := by
    rw [show exec .foghornAutoReset s = execFoghornAutoReset s from rfl, execFoghornAutoReset, hat]
    rfl
  refine gives_next heq ?_
  have hnow : t ≤ ({ s.advanceTo t with fogAutoAt := none } : State).now := Nat.le_max_right ..
  obtain ⟨hkept, hsram, hauto, hcause⟩ := beginReset_station (s := { s.advanceTo t with fogAutoAt := none })
    (cause := if (s.gf F.stnFoghorn_cause).testBit 4 then 3 else 4) hno (by split <;> decide)
  exact ⟨hkept ▸ hnow, hcause, hsram, hauto⟩

/-! ### Field Keepers -/

theorem restartKeeper_standby (s : State) (f : Nat) : (s.restartKeeper f true).flag F.fkpStatus_restarting f = true ∧
    (s.restartKeeper f true).flag F.fkpStatus_standby f = true ∧
    mfind (s.restartKeeper f true).restartAt f = some (s.now + 20000000) := by
  have hset (u : State) (m : Smap Nat Nat) : Keeps (fun _ => ()) [] u { u with restartAt := m } := .quiet rfl fun _ _ _ => rfl
  have ha := State.flag_sf_self s F.fkpStatus_restarting f 0 1 (by decide) (by decide)
  unfold State.restartKeeper
  extract_lets b c
  have hmb : Marks [.fkpHeartbeat] (s.sf F.fkpStatus_restarting f 0 1) b := .sf (by decide) (by decide) ..
  have hmark : Marks [.fkpStatus, .fkpHeartbeat] s b := .trans (.sf (by decide) (by decide) ..) (.sf (by decide) (by decide) ..)
  generalize s.sf F.fkpStatus_restarting f 0 1 = a at ha hmb
  have hb : b.flag F.fkpStatus_restarting f = true := (hmb.flag_eq (by decide) f 0).trans (ha.trans rfl)
  clear_value b
  have hstand := State.flag_sf_self b F.fkpStatus_standby f 0 1 (by decide) (by decide)
  have hkeep := State.flag_sf_apart b F.fkpStatus_standby f 0 1 (g := F.fkpStatus_restarting) rfl (by decide)
  have hmc : Marks [.fkpStatus] b c := .sf (by decide) (by decide) ..
  change c.flag _ f = _ at hstand
  change c.flag _ f = _ at hkeep
  clear_value c
  refine ⟨?_, ?_, ?_⟩
  · rw [(hset ..).flag_eq (by decide), hkeep, hb]
  · rw [(hset ..).flag_eq (by decide), hstand]
    rfl
  · refine (mfind_mput_self ..).trans ?_
    rw [hmc.beyond_eq State.now fun _ => rfl, hmark.beyond_eq State.now fun _ => rfl]

theorem lockstepFault_gives {s : State} {f : Nat} (hf : f < 64) (hdown : s.fieldDown f = false)
    (hrest : s.flag F.fkpStatus_restarting f = false) : Gives (.lockstepFault f) s fun s' =>
      s'.flag F.fkpStatus_restarting f = true ∧ s'.flag F.fkpStatus_standby f = true ∧ mfind s'.restartAt f = some (s.now + 20000000) := by
  have heq : exec (.lockstepFault f) s = .next ((s.logEv evLockstepFault f f 0).restartKeeper f true) := by
    rw [show exec (.lockstepFault f) s = execLockstepFault f s from rfl, execLockstepFault, onField_next hf, if_neg (by simp [hdown, hrest])]
  refine gives_next heq ?_
  obtain ⟨hr, hstand, hat⟩ := restartKeeper_standby (s.logEv evLockstepFault f f 0) f
  exact ⟨hr, hstand, hat.trans (by rw [State.logEv_now])⟩

theorem restartComplete_gives {s : State} {f : Nat} (hf : f < 64) (hrest : s.flag F.fkpStatus_restarting f = true) :
    Gives (.keeperRestartComplete f) s fun s' =>
      s'.flag F.fkpStatus_restarting f = false ∧ mfind s'.restartAt f = none ∧ s'.fields = s.fields := by
  have hset (u : State) (m m' : Smap Nat Nat) : Keeps (fun _ => ()) [] u { u with restartAt := m, restarted := m' } := .quiet rfl fun _ _ _ => rfl
  have heq : exec (.keeperRestartComplete f) s = .next { s.sf F.fkpStatus_restarting f 0 0 with
      restartAt := mdel s.restartAt f, restarted := mput s.restarted f (s.fld f).watch } := by
    rw [show exec (.keeperRestartComplete f) s = execKeeperRestartComplete f s from rfl, execKeeperRestartComplete, onField_next hf,
      if_neg (by simp [hrest])]
  refine gives_next heq ⟨?_, ?_, rfl⟩
  · rw [(hset ..).flag_eq (by decide), State.flag_sf_self _ _ _ _ _ (by decide) (by decide)]
    rfl
  · exact (mfind_mdel ..).trans (if_pos rfl)

theorem restartTimeout_gives {s : State} {f t : Nat} (hf : f < 64) (hrest : s.flag F.fkpStatus_restarting f = true)
    (hat : mfind s.restartAt f = some t) : Gives (.keeperRestartTimeout f) s fun s' => (s'.fld f).fogged = true ∧ t ≤ s'.now := by
  have heq : exec (.keeperRestartTimeout f) s =
      .next (({ s.advanceTo t with restartAt := mdel s.restartAt f } : State).fogField f (evCode evHeartbeatMissed) false) := by
    rw [show exec (.keeperRestartTimeout f) s = execKeeperRestartTimeout f s from rfl, execKeeperRestartTimeout, onField_next hf, hat]
    dsimp only
    rw [if_neg (by simp [hrest])]
  refine gives_next heq ⟨fogField_fogged .., ?_⟩
  have hnow : t ≤ ({ s.advanceTo t with restartAt := mdel s.restartAt f } : State).now := Nat.le_max_right ..
  rw [(fogField_keeps ..).eq_of State.now (·.now) fun _ => rfl]
  exact hnow

theorem busTimeout_gives {s : State} {bus : Nat} (hbus : bus < 2) : Gives (.smbusClockLowTimeout bus) s fun s' =>
    Logged s s' evAccessRefused ∧ s'.regs = s.regs ∧ s'.fields = s.fields ∧ s'.answers = s.answers ∧ s'.now = s.now := by
  have heq : exec (.smbusClockLowTimeout bus) s = .next (s.refuse 64 .block bus) := by
    rw [show exec (.smbusClockLowTimeout bus) s = execSmbusClockLowTimeout bus s from rfl, execSmbusClockLowTimeout, onUnit_next hbus]
  exact gives_next heq ⟨logEv_logged .., rfl, rfl, rfl, rfl⟩

end Sys2Proof.Machine

namespace Sys2Proof.Claims

open Sys2Proof.Machine

/-- Settles O59: the watchdog's two ends, the failover and its fatal case, the automatic reset, and a Field Keeper's
restart. -/
theorem keepersWatch : Obligations.KeepersWatch := by
  intro s f t v port bus req
  exact ⟨watchdogFeed_gives v, wdogAck_gives, wdogAck_refused s, fun harmed => ⟨watchdog_silent harmed, watchdog_failover harmed⟩,
    fun hfog hno => ⟨keeperFailover_moves hfog hno, keeperFailover_fatal hfog hno⟩, autoReset_gives,
    fun hf => ⟨lockstepFault_gives hf, restartComplete_gives hf, restartTimeout_gives hf⟩, busTimeout_gives⟩

end Sys2Proof.Claims
end

section
/-! SUPPORT. Register accesses: the fields of a word written by their access types (R10, R12), plain reads and writes, refusals. -/

namespace Sys2Proof.Machine

open Sys2Proof.Claims

/-! ### Bits of a word -/

/-- A field of a number just set. -/
theorem bits_setBits_self (n hi lo v : Nat) : bits (setBits n hi lo v) hi lo = v % 2 ^ (hi + 1 - lo) := by
  refine Nat.eq_of_testBit_eq fun i => ?_
  rw [testBit_bits, testBit_setBits, Nat.testBit_mod_two_pow]
  by_cases hi' : i < hi + 1 - lo
  · rw [if_pos (by omega), Nat.add_sub_cancel]
  · simp [hi']

/-- Another field of the number. -/
theorem bits_setBits_ne {hi lo hi' lo' : Nat} (h : hi' < lo ∨ hi < lo') (n v : Nat) : bits (setBits n hi lo v) hi' lo' = bits n hi' lo' := by
  refine Nat.eq_of_testBit_eq fun i => ?_
  rw [testBit_bits, testBit_bits, testBit_setBits]
  by_cases hi' : i < hi' + 1 - lo'
  · rw [if_neg (by omega)]
  · simp [hi']

/-- A field that lies in the word written. -/
theorem bits_withWord {hi lo word : Nat} (hlo : lo / 32 = word) (hhi : hi / 32 = word) (old : Nat) (v : Word) :
    bits (withWord old word v) hi lo = bits v.toNat (hi % 32) (lo % 32) := by
  refine Nat.eq_of_testBit_eq fun i => ?_
  rw [testBit_bits, testBit_bits, withWord, testBit_setBits, show hi % 32 + 1 - lo % 32 = hi + 1 - lo by omega]
  by_cases hi' : i < hi + 1 - lo
  · rw [if_pos (by omega), show i + lo - 32 * word = i + lo % 32 by omega]
  · simp [hi']

/-! ### Fields by their access types -/

/-- One field of a register written: the step of `Reg.written`. -/
def fieldWritten (old word : Nat) (v : Word) (locked : Bool) (held a : Nat) (f : FieldSpec) : Nat :=
  if f.lo / 32 ≤ word ∧ word ≤ f.hi / 32 then
    let lo := max f.lo (32 * word)
    let hi := min f.hi (32 * word + 31)
    match f.acc with
    | .rw => setBits a hi lo (bits (withWord old word v) hi lo)
    | .rwl => if locked then a else setBits a hi lo (bits (withWord old word v) hi lo)
    | .w1c =>
      let ones := bits v.toNat (hi % 32) (lo % 32)
      setBits a hi lo (Nat.land (bits a hi lo) (2 ^ (hi + 1 - lo) - 1 - ones + Nat.land ones (bits held hi lo)))
    | _ => a
  else a

theorem written_eq (r : Reg) (old word : Nat) (v : Word) (locked : Bool) (held : Nat) :
    r.written old word v locked held = r.fields.foldl (fieldWritten old word v locked held) old := rfl

/-- Fields that share no bit. -/
def FieldSpec.Apart (f g : FieldSpec) : Prop := f.hi < g.lo ∨ g.hi < f.lo


theorem fieldWritten_apart {f x : FieldSpec} (h : f.Apart x) (old word : Nat) (v : Word) (locked : Bool) (held a : Nat) :
    bits (fieldWritten old word v locked held a f) x.hi x.lo = bits a x.hi x.lo := by
  have hset (n : Nat) : bits (setBits a (min f.hi (32 * word + 31)) (max f.lo (32 * word)) n) x.hi x.lo = bits a x.hi x.lo := by
    refine bits_setBits_ne ?_ a n
    unfold FieldSpec.Apart at h
    omega
  unfold fieldWritten
  split
  · dsimp only
    split
    · exact hset _
    · split
      · rfl
      · exact hset _
    · exact hset _
    · rfl
  · rfl

/-- What a write leaves of a field that lies in the word written. -/
theorem fieldWritten_self {x : FieldSpec} {word : Nat} (hlo : x.lo / 32 = word) (hhi : x.hi / 32 = word) (old : Nat) (v : Word) (held a : Nat) :
    let new := bits v.toNat (x.hi % 32) (x.lo % 32)
    let now := bits (fieldWritten old word v false held a x) x.hi x.lo
    (x.acc = .rw → now = new) ∧ (x.acc = .ro → now = bits a x.hi x.lo) ∧
      (x.acc = .w1c → now = Nat.land (bits a x.hi x.lo) (2 ^ (x.hi + 1 - x.lo) - 1 - new + Nat.land new (bits held x.hi x.lo))) := by
  intro new now
  have hmax : max x.lo (32 * word) = x.lo := by omega
  have hmin : min x.hi (32 * word + 31) = x.hi := by omega
  refine ⟨fun hacc => ?_, fun hacc => ?_, fun hacc => ?_⟩
  · unfold now fieldWritten
    rw [if_pos ⟨by omega, by omega⟩]
    dsimp only
    rw [hacc, hmax, hmin]
    dsimp only
    rw [bits_setBits_self, bits_withWord hlo hhi]
    refine Nat.mod_eq_of_lt ((bits_lt ..).trans_le (Nat.pow_le_pow_right (by decide) (by omega)))
  · unfold now fieldWritten
    rw [if_pos ⟨by omega, by omega⟩]
    dsimp only
    rw [hacc]
  · unfold now fieldWritten
    rw [if_pos ⟨by omega, by omega⟩]
    dsimp only
    rw [hacc, hmax, hmin]
    dsimp only
    rw [bits_setBits_self]
    exact Nat.mod_eq_of_lt ((Nat.and_le_left).trans_lt (bits_lt ..))

/-- Writing other fields leaves a field. -/
theorem bits_foldl_apart {x : FieldSpec} {l : List FieldSpec} (h : ∀ f ∈ l, f.Apart x) (old word : Nat) (v : Word) (locked : Bool) (held a : Nat) :
    bits (l.foldl (fieldWritten old word v locked held) a) x.hi x.lo = bits a x.hi x.lo := by
  induction l generalizing a with
  | nil => rfl
  | cons f l ih => rw [List.foldl_cons, ih (fun g hg => h g (.tail _ hg)), fieldWritten_apart (h f (.head _))]

/-- What a write leaves of a field, where the register's fields share no bit. -/
theorem written_field {r : Reg} {x : FieldSpec} {word : Nat} (hdis : r.fields.Pairwise FieldSpec.Apart) (hx : x ∈ r.fields)
    (hlo : x.lo / 32 = word) (hhi : x.hi / 32 = word) (old : Nat) (v : Word) (held : Nat) :
    let new := bits v.toNat (x.hi % 32) (x.lo % 32)
    let now := bits (r.written old word v false held) x.hi x.lo
    (x.acc = .rw → now = new) ∧ (x.acc = .ro → now = bits old x.hi x.lo) ∧
      (x.acc = .w1c → now = Nat.land (bits old x.hi x.lo) (2 ^ (x.hi + 1 - x.lo) - 1 - new + Nat.land new (bits held x.hi x.lo))) := by
  obtain ⟨l, l', hl⟩ := List.append_of_mem hx
  rw [hl, List.pairwise_append, List.pairwise_cons] at hdis
  obtain ⟨-, ⟨hafter, -⟩, hbefore⟩ := hdis
  have hnow : bits (r.written old word v false held) x.hi x.lo =
      bits (fieldWritten old word v false held (l.foldl (fieldWritten old word v false held) old) x) x.hi x.lo := by
    rw [written_eq, hl, List.foldl_append, List.foldl_cons, bits_foldl_apart fun f hf => (hafter f hf).symm]
  have hself := fieldWritten_self hlo hhi old v held (l.foldl (fieldWritten old word v false held) old)
  rw [bits_foldl_apart fun f hf => hbefore f hf x (.head _)] at hself
  intro new now
  rw [show now = _ from hnow]
  exact hself

/-! ### Plain registers -/

/-- The registers whose write commands nothing lock nothing, and their fields are bits of their own. -/
theorem plainRegs_fields : ∀ r ∈ plainRegs, r.lockable = false ∧ (r.fields.Pairwise fun f g => f.hi < g.lo ∨ g.hi < f.lo) ∧
    ∀ x ∈ r.fields, x.hi < 64 := by decide

theorem wrongSide_plain {k : RegKey} (hr : k.reg ∈ plainRegs) : wrongSide k = false := by
  have hno : ∀ r ∈ plainRegs, r ≠ .chnSlotDest ∧ r ≠ .chnSlotWindow ∧ r ≠ .chnSlotDone := by decide
  obtain ⟨hdest, hwindow, hdone⟩ := hno _ hr
  unfold wrongSide
  split
  · exact absurd ‹_› hdest
  · exact absurd ‹_› hwindow
  · exact absurd ‹_› hdone
  · rfl

theorem writeReg_plain {s : State} {req : Requester} {k : RegKey} {word : Nat} (addr : Nat) {v : Word} (hr : k.reg ∈ plainRegs)
    (hok : (rangeOk k.reg k.idx (withWord (s.rd k.reg k.unit k.idx).toNat word v) &&
      s.agrees k (withWord (s.rd k.reg k.unit k.idx).toNat word v) && s.mayWrite req k) = true) :
    s.writeReg req k word addr v = s.store req k word addr v := by
  have hside := wrongSide_plain hr
  have hdefault : s.writeReg req k word addr v = if wrongSide k then s else
      if rangeOk k.reg k.idx (withWord (s.rd k.reg k.unit k.idx).toNat word v) &&
        s.agrees k (withWord (s.rd k.reg k.unit k.idx).toNat word v) && s.mayWrite req k then s.store req k word addr v
      else s.refuse k.field req addr := by
    obtain ⟨r, u, i⟩ := k
    simp only [plainRegs, List.mem_cons, List.not_mem_nil, or_false] at hr
    rcases hr with rfl | rfl | rfl | rfl | rfl | rfl | rfl | rfl | rfl | rfl | rfl | rfl | rfl | rfl | rfl | rfl <;> rfl
  rw [hdefault, hside, if_neg (by decide), if_pos hok]

/-- What a plain register reads after its write. -/
theorem store_plain {s : State} {req : Requester} {k : RegKey} {word addr : Nat} {v : Word} (hr : k.reg ∈ plainRegs) :
    Marks [k.reg] s (s.store req k word addr v) ∧
    (∀ r a b, (⟨r, a, b⟩ : RegKey) ≠ k → (s.store req k word addr v).rd r a b = s.rd r a b) ∧
    ∀ x ∈ k.reg.fields, bits ((s.store req k word addr v).rd k.reg k.unit k.idx).toNat x.hi x.lo =
      bits (k.reg.written (s.rd k.reg k.unit k.idx).toNat word v false (s.setNow k)) x.hi x.lo := by
  obtain ⟨hlock, -, h64⟩ := plainRegs_fields _ hr
  have hne : k.reg ≠ .mshTileSector := by
    intro heq
    rw [heq] at hr
    revert hr
    decide
  have hstore : s.store req k word addr v =
      if k.reg.written (s.rd k.reg k.unit k.idx).toNat word v false (s.setNow k) = (s.rd k.reg k.unit k.idx).toNat then s
      else s.wr k.reg k.unit k.idx (BitVec.ofNat 64 (k.reg.written (s.rd k.reg k.unit k.idx).toNat word v false (s.setNow k))) := by
    unfold State.store
    rw [hlock]
    rfl
  rw [hstore]
  split
  next hsame => exact ⟨.refl s, fun _ _ _ _ => rfl, fun x _ => by rw [hsame]⟩
  · refine ⟨.wr (.head _) hne .., fun r a b hk => ?_, fun x hx => ?_⟩
    · rw [State.rd_wr _ _ _ _ _ _ _ _ (.inr hne), if_neg hk]
    · rw [State.rd_wr_self, BitVec.toNat_ofNat]
      refine Nat.eq_of_testBit_eq fun i => ?_
      have hx64 := h64 x hx
      rw [testBit_bits, testBit_bits, Nat.testBit_mod_two_pow]
      by_cases hi : i < x.hi + 1 - x.lo
      · rw [decide_eq_true (show i + x.lo < 64 by omega), Bool.true_and]
      · simp [hi]

/-! ### Accesses that complete -/

/-- What an answer leaves. -/
theorem answer_answers (s : State) (req : Requester) (status : Nat) (w : Word) :
    mfind (s.answer req status w).answers req = some (status, w) := mfind_mput_self ..

theorem answer_keeps (s : State) (req : Requester) (status : Nat) (w : Word) :
    Keeps (fun s => ({ s with regs := [], answers := [] } : State)) [] s (s.answer req status w) := .quiet rfl fun _ _ _ => rfl

theorem registerWrite_eq {req : Requester} (hreq : req ≠ .block) (a : SizedAccess) (v : Word) (s : State) :
    exec (.registerWrite req a v) s = .next ((s.writeSized req a v).1.complete req (s.writeSized req a v).2 0) := by
  rw [show exec (.registerWrite req a v) s = execRegisterWrite req a v s from rfl, execRegisterWrite, if_neg hreq]

theorem registerRead_eq {req : Requester} (hreq : req ≠ .block) (a : SizedAccess) (s : State) :
    exec (.registerRead req a) s = .next ((s.readSized req a).1.complete req (s.readSized req a).2.1 (s.readSized req a).2.2) := by
  rw [show exec (.registerRead req a) s = execRegisterRead req a s from rfl, execRegisterRead, if_neg hreq]

/-- A write of a register that nothing stands in the way of. -/
theorem writeAt_reg {s : State} {req : Requester} {addr word : Nat} {k : RegKey} (v : Word) (hplace : s.place req addr = .reg k word)
    (hal : addr % 4 = 0) (hbar : s.barred (fieldOfAddr req addr) (addr % 0x100000) true = false)
    (hgate : s.gatedBlock (fieldOfAddr req addr) (addr % 0x100000) = none) (hk : k.reg ≠ .fstWinData) :
    s.writeAt req addr v = (s.writeReg req k word addr v, 0) := by
  unfold State.writeAt
  dsimp only
  rw [hplace, if_neg (by simp [hal, hbar]), hgate]
  exact if_neg hk

theorem registerWrite_plain {s : State} {req : Requester} {addr word : Nat} {k : RegKey} {v : Word} (hreq : req ≠ .block)
    (hplace : s.place req addr = .reg k word) (hal : addr % 4 = 0)
    (hbar : s.barred (fieldOfAddr req addr) (addr % 0x100000) true = false)
    (hgate : s.gatedBlock (fieldOfAddr req addr) (addr % 0x100000) = none) (hr : k.reg ∈ plainRegs) (hmay : s.mayWrite req k = true)
    (hrange : rangeOk k.reg k.idx (withWord (s.rd k.reg k.unit k.idx).toNat word v) = true)
    (hagrees : s.agrees k (withWord (s.rd k.reg k.unit k.idx).toNat word v) = true) :
    Gives (.registerWrite req ⟨addr, 4⟩ v) s fun s' => mfind s'.answers req = some (0, 0) ∧
      (∀ r a b, ⟨r, a, b⟩ ≠ k → s'.rd r a b = s.rd r a b) ∧ s'.sram = s.sram ∧ s'.fst = s.fst ∧
      ∀ x ∈ k.reg.fields, x.lo / 32 = word → x.hi / 32 = word →
        let old := bits (s.rd k.reg k.unit k.idx).toNat x.hi x.lo
        let new := bits v.toNat (x.hi % 32) (x.lo % 32)
        let now := bits (s'.rd k.reg k.unit k.idx).toNat x.hi x.lo
        (x.acc = .rw → now = new) ∧ (x.acc = .ro → now = old) ∧
        (x.acc = .w1c → now = Nat.land old (2 ^ (x.hi + 1 - x.lo) - 1 - new + Nat.land new (bits (s.setNow k) x.hi x.lo))) := by
  have hwin : k.reg ≠ .fstWinData := by
    intro heq
    rw [heq] at hr
    revert hr
    decide
  have heq : exec (.registerWrite req ⟨addr, 4⟩ v) s = .next ((s.store req k word addr v).answer req 0 0) := by
    rw [registerWrite_eq hreq, State.writeSized, if_pos rfl, writeAt_reg v hplace hal hbar hgate hwin,
      writeReg_plain addr hr (by rw [hrange, hagrees, hmay]; rfl)]
    rfl
  obtain ⟨hmarks, hothers, hfields⟩ := store_plain (s := s) (req := req) (word := word) (addr := addr) (v := v) hr
  refine gives_next heq ?_
  generalize s.store req k word addr v = u at hmarks hothers hfields
  have hans := answer_keeps u req 0 0
  refine ⟨answer_answers .., fun r a b hk => ?_, ?_, ?_, fun x hx hlo hhi => ?_⟩
  · rw [hans.regs _ _ _ (by simp), hothers r a b hk]
  · rw [hans.eq_of State.sram (·.sram) fun _ => rfl, hmarks.beyond_eq State.sram fun _ => rfl]
  · rw [hans.eq_of State.fst (·.fst) fun _ => rfl, hmarks.beyond_eq State.fst fun _ => rfl]
  · have hwritten := written_field (plainRegs_fields _ hr).2.1 hx hlo hhi (s.rd k.reg k.unit k.idx).toNat v (s.setNow k)
    dsimp only at hwritten ⊢
    rw [hans.regs _ _ _ (by simp), hfields x hx]
    exact hwritten

theorem registerRead_plain {s : State} {req : Requester} {addr word : Nat} {k : RegKey} (hreq : req ≠ .block)
    (hplace : s.place req addr = .reg k word) (hal : addr % 4 = 0)
    (hbar : s.barred (fieldOfAddr req addr) (addr % 0x100000) false = false)
    (hgate : s.gatedBlock (fieldOfAddr req addr) (addr % 0x100000) = none) (hright : s.readDenied req k = false)
    (hword : k.reg.wide = false ∨ word = 0) : Gives (.registerRead req ⟨addr, 4⟩) s fun s' =>
      mfind s'.answers req = some (0, BitVec.ofNat 32 (s.readValue k)) ∧ s'.regs = s.regs ∧ s'.sram = s.sram ∧ s'.fst = s.fst := by
  obtain ⟨u, hread, hregs, hsram, hfst⟩ : ∃ u, s.readReg req k word addr = (u, BitVec.ofNat 32 (s.readValue k)) ∧
      u.regs = s.regs ∧ u.sram = s.sram ∧ u.fst = s.fst := by
    unfold State.readReg
    rw [if_neg (by simp [hright])]
    dsimp only
    split
    · exact ⟨s, rfl, rfl, rfl, rfl⟩
    next hwide =>
      rw [if_pos (hword.resolve_left hwide)]
      exact ⟨_, rfl, rfl, rfl, rfl⟩
  have heq : exec (.registerRead req ⟨addr, 4⟩) s = .next (u.tickFresh.answer req 0 (BitVec.ofNat 32 (s.readValue k))) := by
    rw [registerRead_eq hreq, State.readSized, if_pos rfl]
    unfold State.readAt
    dsimp only
    rw [hplace, if_neg (by simp [hal, hbar]), hgate]
    dsimp only
    rw [hread]
    rfl
  exact gives_next heq ⟨answer_answers .., hregs, hsram, hfst⟩

/-! ### Accesses refused -/

theorem writeSized_refused {s : State} {req : Requester} {addr size : Nat} (v : Word)
    (hbad : size ≠ 4 ∨ addr % 4 ≠ 0 ∨ s.place req addr = .reserved) :
    s.writeSized req ⟨addr, size⟩ v = (s.refuse (fieldOfAddr req addr) req addr, 1) := by
  unfold State.writeSized
  split
  next h4 =>
    unfold State.writeAt
    exact if_pos ((hbad.resolve_left (not_not_intro h4)).imp id .inr)
  · rfl

theorem readSized_refused {s : State} {req : Requester} {addr size : Nat} (hbad : size ≠ 4 ∨ addr % 4 ≠ 0 ∨ s.place req addr = .reserved) :
    s.readSized req ⟨addr, size⟩ = (s.refuse (fieldOfAddr req addr) req addr, 1, 0) := by
  unfold State.readSized
  split
  next h4 =>
    unfold State.readAt
    exact if_pos ((hbad.resolve_left (not_not_intro h4)).imp id .inr)
  · rfl

/-- An access refused is answered with an abort and logged. -/
theorem refused_answered (s : State) (req : Requester) (f addr : Nat) : mfind ((s.refuse f req addr).answer req 1 0).answers req = some (1, 0) ∧
    ((s.refuse f req addr).answer req 1 0).regs = s.regs ∧ ((s.refuse f req addr).answer req 1 0).sram = s.sram ∧
    ((s.refuse f req addr).answer req 1 0).fst = s.fst := by
  have hlog : Marks [] s (s.refuse f req addr) := .logEv ..
  refine ⟨answer_answers .., ?_, ?_, ?_⟩
  · exact State.refuse_regs ..
  · exact hlog.beyond_eq State.sram fun _ => rfl
  · exact hlog.beyond_eq State.fst fun _ => rfl

theorem registerAccess_refused {s : State} {req : Requester} {addr size : Nat} (v : Word) (hreq : req ≠ .block)
    (hbad : size ≠ 4 ∨ addr % 4 ≠ 0 ∨ s.place req addr = .reserved) :
    (Gives (.registerRead req ⟨addr, size⟩) s fun s' => mfind s'.answers req = some (1, 0) ∧ s'.regs = s.regs) ∧
    (Gives (.registerWrite req ⟨addr, size⟩ v) s fun s' => mfind s'.answers req = some (1, 0) ∧ s'.regs = s.regs ∧
      s'.sram = s.sram ∧ s'.fst = s.fst) := by
  have hread : exec (.registerRead req ⟨addr, size⟩) s = .next ((s.refuse (fieldOfAddr req addr) req addr).answer req 1 0) := by
    rw [registerRead_eq hreq, readSized_refused hbad]
    rfl
  have hwrite : exec (.registerWrite req ⟨addr, size⟩ v) s = .next ((s.refuse (fieldOfAddr req addr) req addr).answer req 1 0) := by
    rw [registerWrite_eq hreq, writeSized_refused v hbad]
    rfl
  obtain ⟨hans, hregs, hsram, hfst⟩ := refused_answered s req (fieldOfAddr req addr) addr
  exact ⟨gives_next hread ⟨hans, hregs⟩, gives_next hwrite ⟨hans, hregs, hsram, hfst⟩⟩

/-! ### The windows of a field -/

/-- An address of a field's window lies in it, for the Keeper, a physical function and JTAG. -/
theorem place_fieldWin {s : State} {req : Requester} {f off : Nat} (hreq : byKeeper req = true ∨ req = .jtag ∨ ∃ p, req = .host p 0)
    (hf : f < 64) (hoff : off < 0x100000) :
    s.place req (fieldWin f off) = placeField f (s.gf F.tilWinSel_tile f) off ∧ fieldOfAddr req (fieldWin f off) = f ∧
      fieldWin f off % 0x100000 = off := by
  have hlo : 0x4000000 ≤ fieldWin f off := by unfold fieldWin; omega
  have hhi : fieldWin f off < 0x8000000 := by unfold fieldWin; omega
  have hfield : (fieldWin f off - 0x4000000) / 0x100000 = f := by unfold fieldWin; omega
  have hmod : fieldWin f off % 0x100000 = off := by unfold fieldWin; omega
  have hpf (port : Nat) : s.placePf port (fieldWin f off) = placeField f (s.gf F.tilWinSel_tile f) off := by
    unfold State.placePf
    rw [if_neg (by omega), if_neg (by omega), if_neg (by omega), if_neg (by omega), if_pos ⟨hlo, hhi⟩]
    dsimp only
    rw [hfield, hmod]
  refine ⟨?_, ?_, hmod⟩
  · obtain hk | rfl | ⟨p, rfl⟩ := hreq
    · cases req
      case keeper n => exact hpf 0
      all_goals cases hk
    · refine (if_neg (by omega)).trans ((if_pos (.inr hlo)).trans (hpf 0))
    · refine (if_neg (by unfold bar2; omega)).trans ((if_pos rfl).trans (hpf p))
  · obtain hk | rfl | ⟨p, rfl⟩ := hreq
    · cases req
      case keeper n => exact (if_pos ⟨hlo, hhi⟩).trans hfield
      all_goals cases hk
    · exact (if_pos ⟨hlo, hhi⟩).trans hfield
    · exact (if_pos ⟨rfl, hlo, hhi⟩).trans hfield

theorem fieldOf_lt {t : Nat} (ht : t < 589824) : fieldOf t < 64 := by
  unfold fieldOf tileY tileX
  omega

/-- A word written through a window is intact. -/
theorem sramWord_sramPut_good (s : State) (t off : Nat) (v : Word) : (s.sramPut t off { w := v }).sramWord t off = { w := v } := by
  have hbad : (s.sramPut t off { w := v }).sramBad.contains (sramAddr t off) = false := by
    rw [← Bool.not_eq_true, List.contains_iff_mem]
    intro hmem
    have hfilter : sramAddr t off ∈ s.sramBad.filter (· ≠ sramAddr t off) := hmem
    exact absurd rfl (of_decide_eq_true (List.mem_filter.1 hfilter).2)
  have hw : ((s.sramPut t off { w := v }).sramWord t off).w = v := State.sramWord_sramPut_self ..
  generalize s.sramPut t off { w := v } = u at hbad hw
  unfold State.sramWord at hw ⊢
  rw [hbad]
  exact congrArg (fun w => ({ w := w } : TWord)) hw

theorem tileWindowWrite_gives {s : State} {req : Requester} {t off : Nat} (v : Word)
    (hreq : byKeeper req = true ∨ req = .jtag ∨ ∃ p, req = .host p 0) (ht : t < 589824) (hoff : off < 0x9C00) (hal : off % 4 = 0)
    (hsel : s.gf F.tilWinSel_tile (fieldOf t) = t) (h0 : s.gf F.tilRole_role t ≠ 0) (h2 : s.gf F.tilRole_role t ≠ 2)
    (hbar : s.barred (fieldOf t) (0xA4000 + off) true = false) (hidle : s.portIdle t off = true) (hmay : s.windowMayWrite t = true) :
    Gives (.tileWindowWrite req t off v) s fun s' => s'.sramWord t off = { w := v } ∧
      (∀ a, (a < sramAddr t off ∨ sramAddr t off + 4 ≤ a) → memRead s'.sram a = memRead s.sram a) ∧
      mfind s'.answers req = some (0, 0) ∧ s'.regs = s.regs ∧ s'.fst = s.fst ∧ s'.groups = s.groups := by
  have hf : fieldOf t < 64 := fieldOf_lt ht
  obtain ⟨hplace, hfield, hmod⟩ := place_fieldWin (s := s) (f := fieldOf t) (off := 0xA4000 + off) hreq hf (by omega)
  have hsram : placeField (fieldOf t) (s.gf F.tilWinSel_tile (fieldOf t)) (0xA4000 + off) = .sram t off := by
    unfold placeField
    rw [hsel, show (0xA4000 + off) / 0x10000 = 0xA by omega, show (0xA4000 + off) % 0x10000 = 0x4000 + off by omega]
    dsimp only
    rw [if_pos ⟨by omega, by omega⟩, Nat.add_sub_cancel_left] <;> rfl
  have hwrite : s.writeAt req (fieldWin (fieldOf t) (0xA4000 + off)) v = (s.sramPut t off { w := v }, 0) := by
    have hwindow : s.windowWrite t off v = s.sramPut t off { w := v } := by
      unfold State.windowWrite
      rw [if_neg (by simp [h0, h2]; omega), show off / 4 * 4 = off by omega]
    unfold State.writeAt
    dsimp only
    rw [hplace, hfield, hmod, hsram, if_neg (by rw [hbar]; unfold fieldWin; simp; omega), State.gatedBlock, if_pos (.inr (.inr (by omega)))]
    dsimp only
    rw [if_neg (by simp [hidle]), if_pos hmay, hwindow]
  have heq : exec (.tileWindowWrite req t off v) s = .next ((s.sramPut t off { w := v }).answer req 0 0) := by
    rw [show exec (.tileWindowWrite req t off v) s = execTileWindowWrite req t off v s from rfl, execTileWindowWrite, onTile_next ht]
    dsimp only
    rw [if_neg (by omega), hwrite]
    rfl
  exact gives_next heq ⟨sramWord_sramPut_good .., fun a ha => State.sramPut_frame s t off a { w := v } ha, answer_answers .., rfl, rfl, rfl⟩

/-- A write through `FST_WIN_DATA` that is not barred. -/
theorem writeAt_fstWindow {s : State} {req : Requester} {f : Nat} (v : Word) (hreq : byKeeper req = true ∨ req = .jtag ∨ ∃ p, req = .host p 0)
    (hf : f < 64) (hbar : s.barred f 0x80008 true = false) :
    s.writeAt req (fieldWin f 0x80008) v = s.fstWindowWrite req f v (fieldWin f 0x80008) := by
  obtain ⟨hplace, hfield, hmod⟩ := place_fieldWin (s := s) (off := 0x80008) hreq hf (by decide)
  have hreg : placeField f (s.gf F.tilWinSel_tile f) 0x80008 = .reg ⟨.fstWinData, f, 0⟩ 0 := rfl
  unfold State.writeAt
  dsimp only
  rw [hplace, hfield, hmod, hreg, if_neg (by rw [hbar]; unfold fieldWin; simp; omega), State.gatedBlock, if_pos (.inr (.inr (by decide)))]
  exact if_pos rfl

theorem fstWinDataWrite_eq {s : State} {req : Requester} {f : Nat} (v : Word) (hreq : byKeeper req = true ∨ req = .jtag ∨ ∃ p, req = .host p 0)
    (hf : f < 64) (hbar : s.barred f 0x80008 true = false) : exec (.fstWinDataWrite req f v) s =
      .next ((s.fstWindowWrite req f v (fieldWin f 0x80008)).1.answer req (s.fstWindowWrite req f v (fieldWin f 0x80008)).2 0) := by
  rw [show exec (.fstWinDataWrite req f v) s = execFstWinDataWrite req f v s from rfl, execFstWinDataWrite, onField_next hf,
    writeAt_fstWindow v hreq hf hbar]

theorem fstWinDataWrite_writes {s : State} {req : Requester} {f : Nat} (v : Word) (hreq : byKeeper req = true ∨ req = .jtag ∨ ∃ p, req = .host p 0)
    (hf : f < 64) (hbar : s.barred f 0x80008 true = false) (hmay : s.fstWindowMayWrite f (s.gf F.fstWinAddr_addr f / 4 * 4) = true) :
    Gives (.fstWinDataWrite req f v) s fun s' =>
      (∀ j, j < 4 → memRead s'.fst (fstAddr f (s.gf F.fstWinAddr_addr f / 4 * 4) + j) = byteOf v j) ∧
      (∀ b, (b < fstAddr f (s.gf F.fstWinAddr_addr f / 4 * 4) ∨ fstAddr f (s.gf F.fstWinAddr_addr f / 4 * 4) + 4 ≤ b) →
        memRead s'.fst b = memRead s.fst b) ∧ mfind s'.answers req = some (0, 0) ∧ s'.regs = s.regs ∧ s'.sram = s.sram := by
  have heq := fstWinDataWrite_eq v hreq hf hbar
  rw [State.fstWindowWrite, if_pos hmay] at heq
  refine gives_next heq ⟨fun j hj => ?_, fun b hb => memWriteBytes_frame _ _ _ _ hb, answer_answers .., rfl, rfl⟩
  refine (memRead_memWriteBytes _ _ [byteOf v 0, byteOf v 1, byteOf v 2, byteOf v 3] j hj).trans ?_
  interval_cases j <;> rfl

theorem fstWinDataWrite_refused {s : State} {req : Requester} {f : Nat} (v : Word) (hreq : byKeeper req = true ∨ req = .jtag ∨ ∃ p, req = .host p 0)
    (hf : f < 64) (hbar : s.barred f 0x80008 true = false) (hmay : s.fstWindowMayWrite f (s.gf F.fstWinAddr_addr f / 4 * 4) = false) :
    Gives (.fstWinDataWrite req f v) s fun s' => s'.fst = s.fst ∧ mfind s'.answers req = some (1, 0) := by
  have heq := fstWinDataWrite_eq v hreq hf hbar
  rw [State.fstWindowWrite, if_neg (by simp [hmay])] at heq
  obtain ⟨hans, -, -, hfst⟩ := refused_answered s req f (fieldWin f 0x80008)
  exact gives_next heq ⟨hfst, hans⟩

end Sys2Proof.Machine

namespace Sys2Proof.Claims

open Sys2Proof.Machine

/-- Settles O60: plain registers are written field by field, fields apart keeping theirs; refused accesses only log; a window's
word lands where the window stands. -/
theorem registerAccesses : Obligations.RegisterAccesses := by
  intro s req addr size word t off f k v hreq
  exact ⟨fun hplace hal _ => registerWrite_plain hreq hplace hal, registerRead_plain hreq, registerAccess_refused v hreq,
    fun hwin => ⟨tileWindowWrite_gives v hwin, fun hf hbar => ⟨fstWinDataWrite_writes v hwin hf hbar, fstWinDataWrite_refused v hwin hf hbar⟩⟩⟩

end Sys2Proof.Claims
end

section
/-! SUPPORT. Host rings: what a disabled ring, a retired request, a fetched entry and a pushed result leave (R792 to R800). -/

namespace Sys2Proof.Machine

open Sys2Proof.Claims

/-- Where no register is written, more may be. -/
theorem Keeps.more {α : Type} {look : State → α} {rs : List Reg} {s s' : State} (h : Keeps look [] s s') : Keeps look rs s s' :=
  h.mono fun _ hr => nomatch hr

/-! ### Requests retired and rings disabled -/

/-- What a ring keeps as it is disabled and its requests are retired. -/
def HostRing.counts (x : HostRing) : HostRing := { x with results := [], part := [], skip := none }

/-- A state but for the tenant slots, the snapshot, registers and events, and of every ring what waits in it. -/
def State.beyondRings (s : State) : State × (Nat → HostRing) :=
  ({ s.beyondMarks with hostRings := [], hostSlots := [], snapshot := none }, fun r => (s.hring r).counts)

theorem hring_setHring (s : State) (r q : Nat) (x : HostRing) : (s.setHring r x).hring q = if q = r then x else s.hring q := mget_mput ..

/-- A ring changed in what waits only. -/
theorem setHring_keeps {s : State} {r : Nat} {x : HostRing} (h : x.counts = (s.hring r).counts) : Keeps State.beyondRings [] s (s.setHring r x) := by
  refine .quiet (Prod.ext rfl ?_) fun _ _ _ => rfl
  funext q
  change ((s.setHring r x).hring q).counts = (s.hring q).counts
  rw [hring_setHring]
  split
  next hq => rw [h, hq]
  · rfl

theorem keepSnapshot_keeps (s : State) : Keeps (fun s => ({ s with regs := [], snapshot := none } : State)) [] s s.keepSnapshot := by
  unfold State.keepSnapshot
  split
  · exact .refl s
  · exact .quiet rfl fun _ _ _ => rfl

/-- A tenant slot put: nothing else than the snapshot kept. -/
theorem setHslot_keeps (s : State) (k i : Nat) (x : HostSlot) :
    Keeps (fun s => ({ s with regs := [], snapshot := none, hostSlots := [] } : State)) [] s (s.setHslot k i x) :=
  .trans (s' := s.keepSnapshot) ((keepSnapshot_keeps s).weaken (fun s => { s with hostSlots := [] }) (fun _ => rfl) (by decide))
    (.quiet rfl fun _ _ _ => rfl)

theorem hslot_setHslot (s : State) (k i : Nat) (x : HostSlot) : (s.setHslot k i x).hslot k i = x := mget_mput_self ..

/-- What a tenant slot put leaves of the rings. -/
theorem setHslot_rings (s : State) (k i : Nat) (x : HostSlot) : Keeps State.beyondRings [] s (s.setHslot k i x) :=
  (setHslot_keeps s k i x).weaken
    (fun s => ({ s.beyondMarks with hostRings := [], hostSlots := [], snapshot := none }, fun r => (s.hring r).counts)) (fun _ => rfl) (by decide)

theorem retireReq_keeps (s : State) (k i seq : Nat) : Keeps State.beyondRings [.hstCountRetired] s (s.retireReq k i seq) := by
  unfold State.retireReq
  extract_lets x u
  split
  · have hu : Keeps State.beyondRings [.hstCountRetired] s u := (setHslot_rings s k i _).mono (by decide)
    exact hu.trans (.marks (fun _ => rfl) (.bump (by decide) (by decide) ..))
  · exact .refl s

theorem retireAll_keeps (s : State) (k i : Nat) (status : Option Nat) :
    Keeps State.beyondRings [.hstCountRetired] s (s.retireAll k i status) := by
  unfold State.retireAll
  extract_lets x
  refine .each _ _ (fun s o _ => ?_) s
  extract_lets u
  have hu : Keeps State.beyondRings [.hstCountRetired] s u := by
    unfold u
    split
    · exact (setHring_keeps (by rfl)).more
    · exact .refl s
  exact hu.trans (retireReq_keeps ..)

/-- A disabled ring: before its requests are retired. -/
def State.ringOff (s : State) (r : Nat) (answer : Bool) : State :=
  let s := s.sf F.hstRingCfg_enable r 0 0
  s.setHring r { s.hring r with part := [], skip := none, results := if answer then (s.hring r).results else [] }

theorem disableRing_after (s : State) (r : Nat) (answer : Bool) :
    Keeps State.beyondRings [.hstCountRetired] (s.ringOff r answer) (s.disableRing r answer) := by
  have hdis : s.disableRing r answer = match (s.ringOff r answer).slotOfRing r with
      | some (sec, i) => (s.ringOff r answer).retireAll sec i (if answer then some 5 else none)
      | none => s.ringOff r answer := rfl
  rw [hdis]
  split
  · exact retireAll_keeps ..
  · exact .refl _

theorem ringOff_keeps (s : State) (r : Nat) (answer : Bool) : Keeps State.beyondRings [.hstRingCfg] s (s.ringOff r answer) :=
  .trans (s' := s.sf F.hstRingCfg_enable r 0 0) (.marks (fun _ => rfl) (.sf (by decide) (by decide) ..)) (setHring_keeps (by rfl)).more

theorem disableRing_keeps (s : State) (r : Nat) (answer : Bool) : Keeps State.beyondRings [.hstRingCfg, .hstCountRetired] s (s.disableRing r answer) :=
  ((ringOff_keeps ..).mono (by decide)).trans ((disableRing_after ..).mono (by decide))

theorem disableRing_enable (s : State) (r : Nat) (answer : Bool) : (s.disableRing r answer).flag F.hstRingCfg_enable r = false := by
  have hset : Keeps State.beyondRings [] (s.sf F.hstRingCfg_enable r 0 0) (s.ringOff r answer) := setHring_keeps (by rfl)
  rw [(disableRing_after ..).flag_eq (by decide), hset.flag_eq (by decide), State.flag_sf_self _ _ _ _ _ (by decide) (by decide)]
  rfl

/-- Another ring's disabling enables none. -/
theorem disableRing_stays {s : State} {q : Nat} (r : Nat) (answer : Bool) (h : s.flag F.hstRingCfg_enable q = false) :
    (s.disableRing r answer).flag F.hstRingCfg_enable q = false := by
  by_cases hq : q = r
  · exact hq ▸ disableRing_enable s r answer
  · have hset : Keeps State.beyondRings [] (s.sf F.hstRingCfg_enable r 0 0) (s.ringOff r answer) := setHring_keeps (by rfl)
    rw [(disableRing_after ..).flag_eq (by decide), hset.flag_eq (by decide), State.flag_sf_ne _ _ _ _ _ (.inl (by decide)) (by simp [hq]), h]

/-- What every ring keeps. -/
theorem Keeps.counts {rs : List Reg} {s s' : State} (h : Keeps State.beyondRings rs s s') (r : Nat) : (s'.hring r).counts = (s.hring r).counts :=
  congrFun (congrArg Prod.snd h.look_eq) r

/-! ### Doorbells -/

theorem ringNamed_of {port fn ring : Nat} (hport : port < 4) (hfn : fn < 64) (hring : ring < 256) : ringNamed port fn ring = true := by
  simp [ringNamed, hport, hfn, hring]

/-- A ring disabled with a fault. -/
theorem faulted_spec (s : State) (r : Nat) : ((s.hset F.hstRingState_fault r 0).disableRing r true).flag F.hstRingCfg_enable r = false ∧
    ((s.hset F.hstRingState_fault r 0).disableRing r true).flag F.hstRingState_fault r = true := by
  refine ⟨disableRing_enable .., ?_⟩
  rw [(disableRing_keeps ..).flag_eq (by decide)]
  exact s.hset_flag F.hstRingState_fault r 0 (by decide) (by decide)

theorem dbReqTail_gives {s : State} {port fn ring : Nat} (value : Nat) (hport : port < 4) (hfn : fn < 64) (hring : ring < 256) :
    let r := ringNum port fn ring
    let x := s.hring r
    Gives (.hstDbReqTail port fn ring value) s fun s' => (s'.hring r).reqTail = value % 2 ^ 32 ∧
      (s.flag F.hstRingCfg_enable r = false ∨ count32 (value % 2 ^ 32) x.reqHead ≤ s.ringSize r →
        s'.regs = s.regs ∧ s'.hring r = { x with reqTail := value % 2 ^ 32 }) ∧
      (s.flag F.hstRingCfg_enable r = true → s.ringSize r < count32 (value % 2 ^ 32) x.reqHead →
        s'.flag F.hstRingCfg_enable r = false ∧ s'.flag F.hstRingState_fault r = true) := by
  intro r x
  have hset : Keeps (fun _ => ()) [] s (s.setHring r { x with reqTail := value % 2 ^ 32 }) := .quiet rfl fun _ _ _ => rfl
  have hself : (s.setHring r { x with reqTail := value % 2 ^ 32 }).hring r = { x with reqTail := value % 2 ^ 32 } := mget_mput_self ..
  have hregs : (s.setHring r { x with reqTail := value % 2 ^ 32 }).regs = s.regs := rfl
  have heq : exec (.hstDbReqTail port fn ring value) s = .next ((s.setHring r { x with reqTail := value % 2 ^ 32 }).checkCounts r) := by
    rw [show exec (.hstDbReqTail port fn ring value) s = execHstDbReqTail port fn ring value s from rfl, execHstDbReqTail, onUnit_next hport,
      if_neg (by simp [ringNamed_of hport hfn hring])]
  refine gives_next heq ?_
  generalize s.setHring r { x with reqTail := value % 2 ^ 32 } = u at hset hself hregs
  have hover : (u.flag F.hstRingCfg_enable r = true ∧ u.ringSize r < count32 (u.hring r).reqTail (u.hring r).reqHead) ↔
      (s.flag F.hstRingCfg_enable r = true ∧ s.ringSize r < count32 (value % 2 ^ 32) x.reqHead) := by
    rw [hset.flag_eq (by decide), hself, State.ringSize, hset.gf_eq (by decide), State.ringSize]
  unfold State.checkCounts
  dsimp only
  split
  next hbad =>
    rw [hover] at hbad
    have hcounts := congrArg HostRing.reqTail ((disableRing_keeps (u.hset F.hstRingState_fault r 0) r true).counts r)
    obtain ⟨hoff, hfault⟩ := faulted_spec u r
    refine ⟨hcounts.trans (congrArg HostRing.reqTail hself), fun hgood => ?_, fun _ _ => ⟨hoff, hfault⟩⟩
    obtain hgood | hgood := hgood
    · rw [hgood] at hbad
      exact absurd hbad.1 (by decide)
    · exact absurd hbad.2 (Nat.not_lt.2 hgood)
  next hgood =>
    rw [hover] at hgood
    exact ⟨congrArg HostRing.reqTail hself, fun _ => ⟨hregs, hself⟩, fun hen hsize => absurd ⟨hen, hsize⟩ hgood⟩

theorem dbResHead_gives {s : State} {port fn ring : Nat} (value : Nat) (hport : port < 4) (hfn : fn < 64) (hring : ring < 256) :
    let r := ringNum port fn ring
    Gives (.hstDbResHead port fn ring value) s fun s' => s'.hring r = { s.hring r with resHead := value % 2 ^ 32 } ∧ s'.regs = s.regs := by
  intro r
  have heq : exec (.hstDbResHead port fn ring value) s = .next (s.setHring r { s.hring r with resHead := value % 2 ^ 32 }) := by
    rw [show exec (.hstDbResHead port fn ring value) s = execHstDbResHead port fn ring value s from rfl, execHstDbResHead, onUnit_next hport,
      if_neg (by simp [ringNamed_of hport hfn hring])]
  exact gives_next heq ⟨mget_mput_self .., rfl⟩

theorem dmaFault_gives {s : State} {port fn ring : Nat} (hport : port < 4) (hfn : fn < 64) (hring : ring < 256)
    (hmay : s.mayFetch (ringNum port fn ring) = true) : Gives (.hostDmaFault port fn ring) s fun s' =>
      s'.flag F.hstRingCfg_enable (ringNum port fn ring) = false ∧ s'.flag F.hstRingState_fault (ringNum port fn ring) = true := by
  have heq : exec (.hostDmaFault port fn ring) s = .next (((s.hset F.hstRingState_fault (ringNum port fn ring) 0).disableRing
      (ringNum port fn ring) true).logEv evHostDmaFault 64 port (detail2 fn ring)) := by
    rw [show exec (.hostDmaFault port fn ring) s = execHostDmaFault port fn ring s from rfl, execHostDmaFault, onUnit_next hport]
    dsimp only
    rw [if_neg (by simp [ringNamed_of hport hfn hring, hmay])]
  refine gives_next heq ?_
  rw [(Marks.logEv (rs := []) ..).flag_eq (by decide), (Marks.logEv (rs := []) ..).flag_eq (by decide)]
  exact faulted_spec ..

/-! ### Delivery -/

/-- What identifies a request: all but its batch. -/
def Owned.key (o : Owned) : Owned := { o with batch := none, again := false }

/-- One request written into a half, or passed over: the step of `State.deliver`. -/
def deliverStep (f base cap m : Nat) (acc : State × Nat × Bool × List Owned) (o : Owned) : State × Nat × Bool × List Owned :=
  let (s, n, stop, done_) := acc
  if o.batch.isSome = true ∧ o.again = false ∨ stop = true ∨ cap < n + o.entries.length then
    (s, n, stop || (o.batch.isNone || o.again), done_ ++ [o])
  else
    let s := s.each ((List.range o.entries.length).zip o.entries) fun s ke =>
      s.fstPutWords f (base + 64 * (n + ke.1 + 1)) (intakeEntry o ke.1 ke.2)
    (s, n + o.entries.length, stop, done_ ++ [{ o with batch := some m, again := false }])

theorem deliver_eq (s : State) (k i : Nat) : s.deliver k i = match s.slotAreas k i with
    | none => s
    | some (f, a, _) =>
      if s.takesRequests k = false then s
      else
        let m := (s.fld f).watch + 1
        let half := s.halfOf f k a i (m % 2)
        let x := s.hslot k i
        let r := x.owned.foldl (deliverStep f half.1 (halfEntries half.2) m) (s, if x.filling = m then x.filled else 0, false, [])
        r.1.setHslot k i { r.1.hslot k i with owned := r.2.2.2, filling := m, filled := r.2.1 } := rfl

/-- A state but for field store. -/
def State.beyondBatch (s : State) : State := { s with regs := [], fst := [], fstBad := [], fstWeak := [] }

theorem deliverStep_spec (f base cap m : Nat) (acc : State × Nat × Bool × List Owned) (o : Owned) :
    Keeps State.beyondBatch [] acc.1 (deliverStep f base cap m acc o).1 ∧
      (deliverStep f base cap m acc o).2.2.2.map Owned.key = acc.2.2.2.map Owned.key ++ [o.key] := by
  obtain ⟨s, n, stop, l⟩ := acc
  unfold deliverStep
  dsimp only
  split
  · exact ⟨.refl s, List.map_append⟩
  · refine ⟨.each _ _ (fun s ke _ => ?_) s, List.map_append⟩
    exact .quiet rfl fun _ _ _ => rfl

theorem foldl_deliverStep_spec (f base cap m : Nat) (l : List Owned) (acc : State × Nat × Bool × List Owned) :
    Keeps State.beyondBatch [] acc.1 (l.foldl (deliverStep f base cap m) acc).1 ∧
      (l.foldl (deliverStep f base cap m) acc).2.2.2.map Owned.key = acc.2.2.2.map Owned.key ++ l.map Owned.key := by
  induction l generalizing acc with
  | nil => exact ⟨.refl _, (List.append_nil _).symm⟩
  | cons o l ih =>
    obtain ⟨hstep, hkeys⟩ := deliverStep_spec f base cap m acc o
    obtain ⟨hrest, hall⟩ := ih (deliverStep f base cap m acc o)
    refine ⟨hstep.trans hrest, hall.trans ?_⟩
    rw [hkeys, List.append_assoc]
    rfl

/-- A state but for field store, the tenant slots and the snapshot. -/
def State.beyondDelivery (s : State) : State := { s.beyondBatch with hostSlots := [], snapshot := none }

/-- Requests delivered stay owned, and nothing but field store, the tenant slots and the snapshot changes. -/
theorem deliver_spec (s : State) (k i : Nat) : Keeps State.beyondDelivery [] s (s.deliver k i) ∧
    ((s.deliver k i).hslot k i).owned.map Owned.key = (s.hslot k i).owned.map Owned.key := by
  rw [deliver_eq]
  split
  · exact ⟨.refl s, rfl⟩
  · split
    · exact ⟨.refl s, rfl⟩
    · extract_lets m half x r
      obtain ⟨hkeep, hkeys⟩ := foldl_deliverStep_spec _ half.1 (halfEntries half.2) m x.owned (s, if x.filling = m then x.filled else 0, false, [])
      change Keeps _ _ s r.1 at hkeep
      change r.2.2.2.map _ = _ at hkeys
      clear_value r
      refine ⟨(hkeep.weaken (fun s => { s with hostSlots := [], snapshot := none }) (fun _ => rfl) (by decide)).trans
        ((setHslot_keeps ..).weaken (fun s => { s with fst := [], fstBad := [], fstWeak := [] }) (fun _ => rfl) (by decide)), ?_⟩
      rw [hslot_setHslot]
      exact hkeys

/-! ### Requests taken -/

/-- The fields of a sector rest on the registers of its tiles alone. -/
theorem fieldsOf_wr {r : Reg} (hr : r ≠ .mshTileSector) (s : State) (u i : Nat) (w : BitVec 64) (sec : Nat) :
    (s.wr r u i w).fieldsOf sec = s.fieldsOf sec :=
  List.filter_congr fun _ _ => any_mput (fun v => by simp [hr]) ..

theorem slotAreas_fetched (s : State) (p n k i : Nat) : (s.bump .hstCountFetched 0 p n).slotAreas k i = s.slotAreas k i := by
  have hhome : (s.bump .hstCountFetched 0 p n).homeOf k = s.homeOf k := congrArg (fun l : List Nat => l.headD 0) (fieldsOf_wr (by decide) ..)
  have h : Marks [.hstCountFetched] s (s.bump .hstCountFetched 0 p n) := .bump (by decide) (by decide) ..
  generalize s.bump .hstCountFetched 0 p n = s' at hhome h
  have hsectors : s'.sectors = s.sectors := h.beyond_eq State.sectors fun _ => rfl
  have hown (f kind : Nat) : s'.ownRegion f k kind = s.ownRegion f k kind := by
    unfold State.ownRegion State.regionKind
    simp only [h.flag_eq (f := F.fstRegionCfg_valid) (by decide), h.gf_eq (f := F.fstRegionCfg_kind) (by decide),
      h.gf_eq (f := F.fstRegionCfg_owner) (by decide), h.gf_eq (f := F.fstRegionCfg_access) (by decide)]
  have hhalf (f r slot a : Nat) : s'.halfOf f k r slot a = s.halfOf f k r slot a := by
    unfold State.halfOf State.slotCount State.sec
    rw [h.gf_eq (f := F.fstRegionSpan_size_m1) (by decide), h.gf_eq (f := F.fstRegionSpan_base) (by decide), hsectors]
  unfold State.slotAreas
  rw [hhome]
  simp only [hown, hhalf]

/-- The request that an entry makes. -/
def requestOf (s : State) (r : Nat) (e : List Nat) : Owned :=
  { seq := (s.hring r).seq, tenant := e.headD 0 % 2 ^ 18, reqId := e.getD 2 0 + e.getD 3 0 * 2 ^ 32, fetchAt := s.now
    fetchWatch := s.stationWatch, entries := [(e.getD 1 0 % 2 ^ 16) :: (e.drop 4).take 12] }

/-- A request of the resident tenant, counted and owned by its slot. -/
def State.ownRequest (s : State) (r k i : Nat) (e : List Nat) : State :=
  ((s.bump .hstCountFetched 0 (ringPort r) 1).setHring r { s.hring r with seq := ((s.hring r).seq + 1) % 2 ^ 32 }).setHslot k i
    { s.hslot k i with owned := (s.hslot k i).owned ++ [requestOf (s.bump .hstCountFetched 0 (ringPort r) 1) r e] }

theorem takeRequest_eq {s : State} {r k i : Nat} {e : List Nat} (hslot : s.slotOfRing r = some (k, i))
    (htenant : (s.hslot k i).tenant = some (e.headD 0 % 2 ^ 18)) (hareas : (s.slotAreas k i).isSome = true) :
    s.takeRequest r [e] = (s.ownRequest r k i e).deliver k i := by
  have hareas' : ((s.bump .hstCountFetched 0 (ringPort r) 1).slotAreas k i).isNone = false := by
    rw [slotAreas_fetched, ← Option.not_isSome, hareas]
    rfl
  unfold State.takeRequest
  rw [hslot]
  dsimp only [List.headD_cons]
  rw [if_neg (by simp [htenant]), if_neg (by simp [hareas'])]
  rfl

/-- A state but for what taking a request changes. -/
def State.beyondRequest (s : State) : State := { s.beyondDelivery with hostRings := [] }

theorem takeRequest_spec {s : State} {r k i : Nat} {e : List Nat} (hslot : s.slotOfRing r = some (k, i))
    (htenant : (s.hslot k i).tenant = some (e.headD 0 % 2 ^ 18)) (hareas : (s.slotAreas k i).isSome = true) :
    Keeps State.beyondRequest [.hstCountFetched] s (s.takeRequest r [e]) ∧
      (∃ o ∈ ((s.takeRequest r [e]).hslot k i).owned, o.key = (requestOf (s.bump .hstCountFetched 0 (ringPort r) 1) r e).key) ∧
      (s.takeRequest r [e]).hring r = { s.hring r with seq := ((s.hring r).seq + 1) % 2 ^ 32 } := by
  rw [takeRequest_eq hslot htenant hareas]
  have hown : Keeps State.beyondRequest [.hstCountFetched] s (s.ownRequest r k i e) := by
    have hring (u : State) (x : HostRing) : Keeps State.beyondRequest [.hstCountFetched] u (u.setHring r x) := .quiet rfl fun _ _ _ => rfl
    have hbump : Keeps State.beyondRequest [.hstCountFetched] s (s.bump .hstCountFetched 0 (ringPort r) 1) :=
      ⟨rfl, (Marks.bump (by decide) (by decide) ..).regs⟩
    exact (hbump.trans (hring _ _)).trans ((setHslot_keeps ..).weaken
      (fun s => { s with hostRings := [], fst := [], fstBad := [], fstWeak := [] }) (fun _ => rfl) (by decide))
  have howned : ((s.ownRequest r k i e).hslot k i).owned = (s.hslot k i).owned ++
      [requestOf (s.bump .hstCountFetched 0 (ringPort r) 1) r e] :=
    congrArg HostSlot.owned (hslot_setHslot ..)
  have hring : (s.ownRequest r k i e).hring r = { s.hring r with seq := ((s.hring r).seq + 1) % 2 ^ 32 } :=
    ((setHslot_keeps ..).eq_of (State.hring · r) (State.hring · r) fun _ => rfl).trans (mget_mput_self ..)
  generalize s.ownRequest r k i e = u at hown howned hring
  obtain ⟨hkeep, hkeys⟩ := deliver_spec u k i
  refine ⟨hown.trans (hkeep.weaken (fun s => { s with hostRings := [] }) (fun _ => rfl) (by decide)), ?_, ?_⟩
  · have hmem : (requestOf (s.bump .hstCountFetched 0 (ringPort r) 1) r e).key ∈ ((u.deliver k i).hslot k i).owned.map Owned.key := by
      rw [hkeys, howned]
      simp
    obtain ⟨o, ho, hkey⟩ := List.mem_map.1 hmem
    exact ⟨o, ho, hkey⟩
  · rw [hkeep.eq_of (State.hring · r) (State.hring · r) fun _ => rfl, hring]

/-! ### Fetch -/

/-- A ring whose next entry is taken. -/
def State.passEntry (s : State) (r : Nat) : State :=
  s.setHring r { s.hring r with reqHead := ((s.hring r).reqHead + 1) % 2 ^ 32, part := [], skip := none }

theorem takeEntry_whole {s : State} {r k i t : Nat} {e : List Nat} (hbound : Bound s r k i t) (hwhole : Whole e) :
    s.takeEntry r e = (s.passEntry r).takeRequest r [e] := by
  obtain ⟨hok, hlast⟩ := hwhole
  unfold State.takeEntry
  dsimp only
  rw [hbound.skip]
  dsimp only
  rw [hbound.part, if_pos hok, if_pos hlast]
  rfl

theorem ringFetch_gives {s : State} {port fn ring k i t : Nat} {e : List Nat} (hport : port < 4) (hfn : fn < 64) (hring : ring < 256) :
    let r := ringNum port fn ring
    let x := s.hring r
    s.mayFetch r = true → 1 ≤ count32 x.reqTail x.reqHead → Bound s r k i t → Whole e → e.headD 0 % 2 ^ 18 = t →
    Gives (.ringFetch port fn ring [e]) s fun s' =>
      (∃ o ∈ (s'.hslot k i).owned, o.seq = x.seq ∧ o.tenant = t ∧ o.reqId = e.getD 2 0 + e.getD 3 0 * 2 ^ 32 ∧ o.fetchAt = s.now) ∧
      (s'.hring r).reqHead = (x.reqHead + 1) % 2 ^ 32 ∧ (s'.hring r).seq = (x.seq + 1) % 2 ^ 32 ∧ s'.sram = s.sram := by
  intro r x hmay hcount hbound hwhole htenant
  have htake : [e].take (count32 x.reqTail x.reqHead) = [e] := List.take_of_length_le hcount
  have heq : exec (.ringFetch port fn ring [e]) s = .next (((s.passEntry r).takeRequest r [e]).writeStatus r) := by
    rw [show exec (.ringFetch port fn ring [e]) s = execRingFetch port fn ring [e] s from rfl, execRingFetch, onUnit_next hport]
    dsimp only
    rw [if_neg (by simp [ringNamed_of hport hfn hring, show s.mayFetch (ringNum port fn ring) = true from hmay]), htake, if_neg (by simp), ← takeEntry_whole hbound hwhole]
    change Host.Outcome.next (State.writeStatus (if s.mayFetch r = true then s.takeEntry r e else s) r) = _
    rw [if_pos hmay]
  refine gives_next heq ?_
  have hself : (s.passEntry r).hring r = { x with reqHead := (x.reqHead + 1) % 2 ^ 32, part := [], skip := none } := mget_mput_self ..
  obtain ⟨hkeep, ⟨o, ho, hkey⟩, hring⟩ := takeRequest_spec (s := s.passEntry r) (r := r) (k := k) (i := i) (e := e) hbound.slot
    (hbound.tenant.trans (congrArg some htenant.symm)) hbound.areas
  have hstatus : Keeps (fun s => ({ s with regs := [], out := [] } : State)) [] ((s.passEntry r).takeRequest r [e])
      (((s.passEntry r).takeRequest r [e]).writeStatus r) := .quiet rfl fun _ _ _ => rfl
  have hseq : (requestOf ((s.passEntry r).bump .hstCountFetched 0 (ringPort r) 1) r e).seq = x.seq :=
    show ((s.passEntry r).hring r).seq = x.seq by rw [hself]
  refine ⟨⟨o, ho, ?_, ?_, ?_, ?_⟩, ?_, ?_, ?_⟩
  · exact (congrArg Owned.seq hkey).trans hseq
  · exact (congrArg Owned.tenant hkey).trans htenant
  · exact congrArg Owned.reqId hkey
  · exact congrArg Owned.fetchAt hkey
  · exact (congrArg HostRing.reqHead hring).trans (congrArg HostRing.reqHead hself)
  · refine (congrArg HostRing.seq hring).trans ?_
    rw [hself]
  · exact (hstatus.eq_of State.sram (·.sram) fun _ => rfl).trans (hkeep.eq_of State.sram (·.sram) fun _ => rfl)

/-! ### Results pushed -/

theorem ringPort_ringNum {port fn ring : Nat} (hfn : fn < 64) (hring : ring < 256) : ringPort (ringNum port fn ring) = port := by
  unfold ringPort ringNum
  omega

theorem ringFn_ringNum {port fn ring : Nat} (hfn : fn < 64) (hring : ring < 256) : ringFn (ringNum port fn ring) = fn := by
  unfold ringFn ringNum
  omega

/-- A pushed result retires its request: what waits in no ring changes, and what was sent stays sent. -/
theorem retirePushed_keeps (s : State) (r : Nat) (e : List Nat) :
    Keeps (fun s => (s.hostRings, s.out, s.jalfen)) [.hstCountRetired, .stnPlanCountMiss] s (s.retirePushed r e) := by
  have hbump (u : State) {q : Reg} (p n : Nat) (hq : q ∈ [Reg.hstCountRetired, .stnPlanCountMiss]) :
      Keeps (fun s => (s.hostRings, s.out, s.jalfen)) [.hstCountRetired, .stnPlanCountMiss] u (u.bump q 0 p n) := by
    refine ⟨rfl, (Marks.bump hq ?_ ..).regs⟩
    rintro rfl
    revert hq
    decide
  have hslot (u : State) (k i : Nat) (x : HostSlot) :
      Keeps (fun s => (s.hostRings, s.out, s.jalfen)) [.hstCountRetired, .stnPlanCountMiss] u (u.setHslot k i x) :=
    (setHslot_keeps u k i x).weaken (fun s => (s.hostRings, s.out, s.jalfen)) (fun _ => rfl) (by decide)
  unfold State.retirePushed
  split
  next n k i _ _ =>
    extract_lets u
    have hu : Keeps (fun s => (s.hostRings, s.out, s.jalfen)) [.hstCountRetired, .stnPlanCountMiss] s u := by
      unfold u
      split
      · dsimp only
        split
        · exact hbump s _ _ (by decide)
        · exact .refl s
      · exact .refl s
    refine hu.trans ?_
    unfold State.retireReq
    extract_lets x v
    split
    · exact (hslot ..).trans (hbump _ _ _ (by decide))
    · exact .refl u
  · exact .refl s

theorem pushHost_spec (s : State) (r : Nat) (e : List Nat) :
    (s.pushHost r e).hring r = { s.hring r with resTail := ((s.hring r).resTail + 1) % 2 ^ 32 } ∧
      Output.hostWrite (ringPort r) (ringFn r) (s.gf F.hstRingResBase_addr r + (s.hring r).resTail % s.ringSize r * 64) (e.take 16) ∈
        (s.pushHost r e).out := by
  unfold State.pushHost
  extract_lets x addr u
  have hkeep := retirePushed_keeps (u.setHring r { x with resTail := (x.resTail + 1) % 2 ^ 32 }) r e
  refine ⟨?_, ?_⟩
  · rw [hkeep.eq_of (State.hring · r) (fun p => mget {} p.1 r) fun _ => rfl]
    exact mget_mput_self ..
  · rw [hkeep.eq_of State.out (·.2.1) fun _ => rfl]
    exact List.mem_cons_self ..

/-- A ring whose oldest result is taken out to be pushed. -/
def State.popResult (s : State) (r : Nat) (es : List (List Nat)) : State := s.setHring r { s.hring r with results := es }

theorem resultPush_gives {s : State} {port fn ring r : Nat} {e : List Nat} {es : List (List Nat)} (hport : port < 4) (hfn : fn < 64)
    (hring : ring < 256) (hr : ringNum port fn ring = r) (htarget : s.flag F.hstRingCfg_target r = false)
    (hpcie : (s.gf F.stnStartupPorts_pcie).testBit port = true) (hresults : (s.hring r).results = e :: es)
    (hflow : s.resultsFlow r = true ∨ rimMade e = true) (hroom : count32 (s.hring r).resTail (s.hring r).resHead < s.ringSize r) :
    Gives (.resultPush port fn ring 1) s fun s' =>
      (s'.hring r).results = es ∧ (s'.hring r).resTail = ((s.hring r).resTail + 1) % 2 ^ 32 ∧
      Output.hostWrite port fn (s.gf F.hstRingResBase_addr r + (s.hring r).resTail % s.ringSize r * 64) (e.take 16) ∈ s'.out := by
  have hdue : (if s.resultsFlow r then e :: es else (e :: es).takeWhile rimMade).take
      (min 1 (s.ringSize r - count32 (s.hring r).resTail (s.hring r).resHead)) = [e] := by
    rw [Nat.min_eq_left (by omega)]
    split
    · rfl
    next hno =>
      rw [List.takeWhile_cons_of_pos (hflow.resolve_left hno)]
      rfl
  have heq : exec (.resultPush port fn ring 1) s = .next (((s.popResult r es).pushHost r e).writeStatus r) := by
    rw [show exec (.resultPush port fn ring 1) s = execResultPush port fn ring 1 s from rfl, execResultPush, onUnit_next hport]
    simp only [hr, htarget, hpcie, Bool.false_eq_true, if_false, if_true, hresults, hdue, ringNamed_of hport hfn hring, Bool.true_eq_false,
      List.cons_ne_nil, or_self] <;> rfl
  refine gives_next heq ?_
  have hself : (s.popResult r es).hring r = { s.hring r with results := es } := mget_mput_self ..
  have hregs : Keeps (fun _ => ()) [] s (s.popResult r es) := .quiet rfl fun _ _ _ => rfl
  generalize s.popResult r es = u at hself hregs
  obtain ⟨hpushed, hsent⟩ := pushHost_spec u r e
  have hstatus : Keeps (fun s => ({ s with regs := [], out := [] } : State)) [] (u.pushHost r e) ((u.pushHost r e).writeStatus r) :=
    .quiet rfl fun _ _ _ => rfl
  rw [hstatus.eq_of (State.hring · r) (State.hring · r) fun _ => rfl, hpushed, hself]
  refine ⟨rfl, rfl, ?_⟩
  rw [hregs.gf_eq (by decide), State.ringSize, hregs.gf_eq (by decide), hself, ← hr, ringPort_ringNum hfn hring, ringFn_ringNum hfn hring, hr] at hsent
  exact List.mem_append_right _ (List.mem_cons_of_mem _ hsent)

/-! ### Configuration -/

/-- The size that a configuration word gives. -/
theorem ringCfgWord_size (value : Nat) : bits (BitVec.ofNat 64 (ringCfgWord value)).toNat 3 0 = value % 16 := by
  have hword : bits (ringCfgWord value) 3 0 = bits (value % 2 ^ 32) 3 0 := by
    rw [ringCfgWord, bits_setBits_ne (.inl (by decide)), bits_setBits_ne (.inl (by decide))]
  rw [BitVec.toNat_ofNat]
  generalize ringCfgWord value = n at hword
  unfold bits at hword ⊢
  omega

theorem cfgWrite_sets {s : State} {req : Requester} {port fn ring value : Nat} (hport : port < 4) (hfn : fn < 64) (hring : ring < 256)
    (hmay : mayConfigure req port fn = true) :
    let r := ringNum port fn ring
    let x := s.hring r
    s.flag F.hstRingCfg_enable r = false → 4 ≤ value % 16 → count32 x.reqTail x.reqHead ≤ 2 ^ (value % 16) →
    Gives (.hstRingCfgWrite req port fn ring value) s fun s' => s'.rd .hstRingCfg r = BitVec.ofNat 64 (ringCfgWord value) ∧ s'.hostRings = s.hostRings := by
  intro r x hoff hsize hcount
  have heq : exec (.hstRingCfgWrite req port fn ring value) s =
      .next ((s.wr .hstRingCfg r 0 (BitVec.ofNat 64 (ringCfgWord value))).checkCounts r) := by
    rw [show exec (.hstRingCfgWrite req port fn ring value) s = execHstRingCfgWrite req port fn ring value s from rfl, execHstRingCfgWrite,
      onUnit_next hport]
    dsimp only
    rw [if_neg (by simp [ringNamed_of hport hfn hring, hmay]), if_neg (by rw [show s.flag F.hstRingCfg_enable (ringNum port fn ring) = false from hoff]; decide),
      if_neg (by omega)]
  refine gives_next heq ?_
  have hword : (s.wr .hstRingCfg r 0 (BitVec.ofNat 64 (ringCfgWord value))).rd .hstRingCfg r = BitVec.ofNat 64 (ringCfgWord value) :=
    State.rd_wr_self ..
  have hrings : (s.wr .hstRingCfg r 0 (BitVec.ofNat 64 (ringCfgWord value))).hostRings = s.hostRings := rfl
  generalize s.wr .hstRingCfg r 0 (BitVec.ofNat 64 (ringCfgWord value)) = u at hword hrings
  have hlog : u.ringSize r = 2 ^ (value % 16) := by
    rw [State.ringSize, State.gf, show F.hstRingCfg_size_log2.reg = .hstRingCfg from rfl, hword]
    exact congrArg (2 ^ ·) (ringCfgWord_size value)
  have hring' : u.hring r = x := by rw [State.hring, hrings]; rfl
  unfold State.checkCounts
  dsimp only
  rw [if_neg (by rw [hlog, hring']; omega)]
  exact ⟨hword, hrings⟩

theorem cfgWrite_disables {s : State} {req : Requester} {port fn ring value : Nat} (hport : port < 4) (hfn : fn < 64) (hring : ring < 256)
    (hmay : mayConfigure req port fn = true) (hon : s.flag F.hstRingCfg_enable (ringNum port fn ring) = true) (hbit : value.testBit 31 = false) :
    Gives (.hstRingCfgWrite req port fn ring value) s fun s' => s'.flag F.hstRingCfg_enable (ringNum port fn ring) = false := by
  have heq : exec (.hstRingCfgWrite req port fn ring value) s = .next (s.disableRing (ringNum port fn ring) true) := by
    rw [show exec (.hstRingCfgWrite req port fn ring value) s = execHstRingCfgWrite req port fn ring value s from rfl, execHstRingCfgWrite,
      onUnit_next hport]
    dsimp only
    rw [if_neg (by simp [ringNamed_of hport hfn hring, hmay]), if_pos hon, if_neg (by simp [hbit])]
  exact gives_next heq (disableRing_enable ..)

/-- One ring of a function disabled at the function's reset. -/
def State.resetRing (port fn : Nat) (s : State) (j : Nat) : State :=
  if s.flag F.hstRingCfg_enable (ringNum port fn j) then s.disableRing (ringNum port fn j) false else s

theorem functionReset_gives {s : State} {port fn : Nat} (hport : port < 4) (hfn : fn < 64) (h0 : fn ≠ 0) :
    Gives (.functionLevelReset port fn) s fun s' => ∀ j, j < 256 → s'.flag F.hstRingCfg_enable (ringNum port fn j) = false := by
  have heq : exec (.functionLevelReset port fn) s = .next (s.each (List.range 256) fun s j => s.resetRing port fn j) := by
    rw [show exec (.functionLevelReset port fn) s = execFunctionLevelReset port fn s from rfl, execFunctionLevelReset, onUnit_next hport,
      if_neg (by omega)]
    rfl
  refine gives_next heq fun j hj => ?_
  refine State.each_gives (P := fun j s => s.flag F.hstRingCfg_enable (ringNum port fn j) = false) (fun s j _ => ?_) (fun s i _ j hoff => ?_) s j
    (List.mem_range.2 hj)
  · unfold State.resetRing
    split
    · exact disableRing_enable ..
    next hoff => simpa using hoff
  · unfold State.resetRing
    split
    · exact disableRing_stays _ _ hoff
    · exact hoff

end Sys2Proof.Machine

namespace Sys2Proof.Claims

open Sys2Proof.Machine

/-- Settles O46: doorbells, a fetched request delivered to its slot, a pushed result, and every way a ring is disabled. -/
theorem ringsRun : Obligations.RingsRun := by
  intro s port fn ring value k i t e es req hport hfn hring r x
  exact ⟨dbReqTail_gives value hport hfn hring, dbResHead_gives value hport hfn hring, ringFetch_gives hport hfn hring,
    dmaFault_gives hport hfn hring, resultPush_gives hport hfn hring rfl,
    fun hmay => ⟨cfgWrite_sets hport hfn hring hmay, cfgWrite_disables hport hfn hring hmay⟩, functionReset_gives hport hfn⟩

end Sys2Proof.Claims
end

section
/-! SUPPORT. Jalfen frames and broken jobs (R784 to R787, R859 to R864). -/

namespace Sys2Proof.Machine

open Sys2Proof.Claims

/-! ### Frames received -/

theorem jlf_setJlf (s : State) (k : Nat) (x : Jalfen) : (s.setJlf k x).jlf k = x := mget_mput_self ..

/-- A link that has received a good frame. -/
def State.noted (s : State) (k : Nat) : State := s.setJlf k { s.jlf k with rx := ((s.jlf k).rx + 1) % 65536, lastRx := s.now }

theorem noted_keeps (s : State) (k : Nat) : Keeps (fun s => ({ s with regs := [], jalfen := [] } : State)) [] s (s.noted k) := .quiet rfl fun _ _ _ => rfl

theorem receive_good {s : State} {k seq : Nat} (hup : s.linkUp k = true) (hseq : seq = (s.jlf k).rx) (act : State → State) :
    s.receive k true seq act = act (s.noted k) := by
  unfold State.receive
  dsimp only
  rw [if_neg (by simp [hup]), if_neg (by simp [hseq])]
  rfl

theorem beat_gives {s : State} {k seq : Nat} (hk : k < 8) (hup : s.linkUp k = true) (hseq : seq = (s.jlf k).rx) :
    Gives (.jalfenBeat k true seq) s fun s' =>
      s'.jlf k = { s.jlf k with rx := ((s.jlf k).rx + 1) % 65536, lastRx := s.now, beat := true } ∧ s'.regs = s.regs := by
  have heq : exec (.jalfenBeat k true seq) s = .next ((s.noted k).setJlf k { (s.noted k).jlf k with beat := true }) := by
    rw [show exec (.jalfenBeat k true seq) s = execJalfenBeat k true seq s from rfl, execJalfenBeat, onUnit_next hk, receive_good hup hseq]
  refine gives_next heq ⟨?_, rfl⟩
  rw [jlf_setJlf, State.noted, jlf_setJlf]

theorem keeperFrame_gives {s : State} {k seq : Nat} (hk : k < 8) (hup : s.linkUp k = true) (hseq : seq = (s.jlf k).rx) :
    Gives (.jalfenKeeper k true seq) s fun s' =>
      s'.jlf k = { s.jlf k with rx := ((s.jlf k).rx + 1) % 65536, lastRx := s.now } ∧ s'.regs = s.regs ∧ s'.out = s.out := by
  have heq : exec (.jalfenKeeper k true seq) s = .next (s.noted k) := by
    rw [show exec (.jalfenKeeper k true seq) s = execJalfenKeeper k true seq s from rfl, execJalfenKeeper, onUnit_next hk, receive_good hup hseq]
    rfl
  exact gives_next heq ⟨jlf_setJlf .., rfl, rfl⟩

theorem credit_gives {s : State} {k seq : Nat} (grant : Nat) (hk : k < 8) (hup : s.linkUp k = true) (hseq : seq = (s.jlf k).rx) :
    Gives (.jalfenCredit k true seq grant) s fun s' => s'.jlf k = { s.jlf k with
      rx := ((s.jlf k).rx + 1) % 65536, lastRx := s.now, credit := min 16384 ((s.jlf k).credit + grant)
      uncovered := (s.jlf k).uncovered.drop grant } := by
  have hself : (s.noted k).jlf k = { s.jlf k with rx := ((s.jlf k).rx + 1) % 65536, lastRx := s.now } := jlf_setJlf ..
  have heq : exec (.jalfenCredit k true seq grant) s = .next (((s.noted k).setJlf k { (s.noted k).jlf k with
      credit := min 16384 (((s.noted k).jlf k).credit + grant), uncovered := ((s.noted k).jlf k).uncovered.drop grant }).each
      (((s.noted k).jlf k).uncovered.take grant) fun s (e : Nat × List Nat) => s.retirePushed e.1 e.2) := by
    rw [show exec (.jalfenCredit k true seq grant) s = execJalfenCredit k true seq grant s from rfl, execJalfenCredit, onUnit_next hk,
      receive_good hup hseq]
  refine gives_next heq ?_
  generalize s.noted k = u at hself
  have hkeep := Keeps.each (fun s (e : Nat × List Nat) => s.retirePushed e.1 e.2) ((u.jlf k).uncovered.take grant)
    (fun s e _ => retirePushed_keeps s e.1 e.2) (u.setJlf k { u.jlf k with
      credit := min 16384 ((u.jlf k).credit + grant), uncovered := (u.jlf k).uncovered.drop grant })
  rw [hkeep.eq_of (State.jlf · k) (fun p => mget {} p.2.2 k) fun _ => rfl, jlf_setJlf, hself]

/-! ### Notices sent -/

/-- A state but for the links, registers and events. -/
def State.beyondLinks (s : State) : State := { s.beyondMarks with jalfen := [] }

theorem sendFrame_keeps (s : State) (k ty grant ring : Nat) (payload : List Nat) :
    Keeps State.beyondLinks [] s (s.sendFrame k ty grant ring payload) := .quiet rfl fun _ _ _ => rfl

theorem peerRecord_marks (s : State) (k peer kind code : Nat) : Marks [.stnPeerStatus] s (s.peerRecord k peer kind code) :=
  .trans (.trans (.sf (by decide) (by decide) ..) (.sf (by decide) (by decide) ..)) (.sf (by decide) (by decide) ..)

/-- What a notice's record leaves of the flags of its link. -/
theorem peerRecord_flag (s : State) (k peer kind code : Nat) {g : RegField} (hreg : g.reg = .stnPeerStatus)
    (hlo : F.stnPeerStatus_peer.hi < g.lo) : (s.peerRecord k peer kind code).flag g 0 k = s.flag g 0 k := by
  have hpeer : F.stnPeerStatus_kind.hi < F.stnPeerStatus_peer.hi ∧ F.stnPeerStatus_code.hi < F.stnPeerStatus_peer.hi := by decide
  obtain ⟨hkind, hcode⟩ := hpeer
  unfold State.peerRecord
  rw [State.flag_sf_apart _ _ _ _ _ hreg (.inr (by omega)), State.flag_sf_apart _ _ _ _ _ hreg (.inr (by omega)),
    State.flag_sf_apart _ _ _ _ _ hreg (.inr hlo)]

/-- A notice sent on one link: the step of `State.sendNotice`. -/
def State.noticeOn (kind code : Nat) (s : State) (k : Nat) : State :=
  let own := s.gf F.jlfCfg_wafer 0 k
  let s := s.sendFrame k 3 0 0 ([kind, own] ++ bytesLe 2 (s.gf F.jlfCfg_job 0 k) ++
    bytesLe 4 s.stationWatch ++ bytesLe 2 code ++ List.replicate 54 0)
  if s.fabric k then (s.peerRecord k own kind code).peerIrq.logEv evPeerNotice 64 k (detail2 kind code) else s

/-- What sending notices leaves: the links but those told, and BROKEN, LOST and NOTICE of every link. -/
structure Tells (onLink : Nat → Bool) (s s' : State) : Prop where
  keeps : Keeps State.beyondLinks [.stnPeerStatus] s s'
  others : ∀ j, onLink j = false → s'.rd .stnPeerStatus 0 j = s.rd .stnPeerStatus 0 j
  flags : ∀ j, ∀ g : RegField, g.reg = .stnPeerStatus → F.stnPeerStatus_peer.hi < g.lo → s'.flag g 0 j = s.flag g 0 j

theorem Tells.trans {p : Nat → Bool} {s s' s'' : State} (h : Tells p s s') (h' : Tells p s' s'') : Tells p s s'' where
  keeps := h.keeps.trans h'.keeps
  others j hj := (h'.others j hj).trans (h.others j hj)
  flags j g hreg hlo := (h'.flags j g hreg hlo).trans (h.flags j g hreg hlo)

theorem Tells.refl (p : Nat → Bool) (s : State) : Tells p s s := ⟨.refl s, fun _ _ => rfl, fun _ _ _ _ => rfl⟩

theorem Tells.quiet {p : Nat → Bool} {s s' : State} (h : Keeps State.beyondLinks [] s s') : Tells p s s' :=
  ⟨h.more, fun _ _ => h.regs _ _ _ (by simp), fun _ _ _ _ => h.flag_eq (by simp) ..⟩

theorem Tells.record {p : Nat → Bool} (s : State) {k : Nat} (hk : p k = true) (peer kind code : Nat) : Tells p s (s.peerRecord k peer kind code) := by
  have hother {j : Nat} (hj : j ≠ k) : (s.peerRecord k peer kind code).rd .stnPeerStatus 0 j = s.rd .stnPeerStatus 0 j := by
    unfold State.peerRecord
    rw [State.rd_sf_ne _ _ _ _ _ (.inr (by decide)) (by simp [hj]), State.rd_sf_ne _ _ _ _ _ (.inr (by decide)) (by simp [hj]),
      State.rd_sf_ne _ _ _ _ _ (.inr (by decide)) (by simp [hj])]
  refine ⟨.marks (fun _ => rfl) (peerRecord_marks ..), fun j hj => hother ?_, fun j g hreg hlo => ?_⟩
  · rintro rfl
    rw [hk] at hj
    cases hj
  · by_cases hj : j = k
    · rw [hj, peerRecord_flag s k peer kind code hreg hlo]
    · rw [State.flag, State.gf, hreg, hother hj, State.flag, State.gf, hreg]

theorem noticeOn_tells {p : Nat → Bool} (kind code : Nat) (s : State) {k : Nat} (hk : p k = true) : Tells p s (s.noticeOn kind code k) := by
  unfold State.noticeOn
  extract_lets own u
  have hu : Tells p s u := .quiet (sendFrame_keeps ..)
  split
  · have hlog (v : State) : Tells p v (v.peerIrq.logEv evPeerNotice 64 k (detail2 kind code)) :=
      .quiet (.trans (s' := v.peerIrq) (.quiet rfl fun _ _ _ => rfl) (.marks (fun _ => rfl) (.logEv ..)))
    exact (hu.trans (.record u hk own kind code)).trans (hlog _)
  · exact hu

theorem sendNotice_tells (s : State) (kind code : Nat) (onLink : Nat → Bool) : Tells onLink s (s.sendNotice kind code onLink) := by
  refine State.each_keeps (Tells onLink) (Tells.refl onLink) (fun _ _ _ => Tells.trans) (fun s k => s.noticeOn kind code k) _ (fun s k hk => ?_) s
  have hlink := (List.mem_filter.1 hk).2
  simp only [Bool.and_eq_true] at hlink
  exact noticeOn_tells kind code s hlink.1.2

/-! ### Broken jobs -/

/-- The rings that relay on a link. -/
def State.relays (s : State) (k : Nat) : List Nat :=
  (s.regs.filter fun (e : RegKey × BitVec 64) => e.1.reg = .hstRingCfg && e.2.toNat.testBit 31 &&
    e.2.toNat.testBit 29 && decide (bits e.2.toNat 22 20 = k)).map (·.1.unit)

theorem breakJob_eq (s : State) (k : Nat) :
    s.breakJob k = (s.each (s.relays k) fun s r => s.disableRing r true).sf F.stnPeerStatus_broken 0 k 1 := rfl

theorem relaysOff_keeps (s : State) (k : Nat) :
    Keeps State.beyondRings [.hstRingCfg, .hstCountRetired] s (s.each (s.relays k) fun s r => s.disableRing r true) :=
  .each _ _ (fun s r _ => disableRing_keeps s r true) s

theorem breakJob_keeps (s : State) (k : Nat) : Keeps State.beyondRings [.hstRingCfg, .hstCountRetired, .stnPeerStatus] s (s.breakJob k) := by
  rw [breakJob_eq]
  exact ((relaysOff_keeps s k).mono (by decide)).trans (.marks (fun _ => rfl) (.sf (by decide) (by decide) ..))

theorem breakJob_broken (s : State) (k : Nat) : (s.breakJob k).flag F.stnPeerStatus_broken 0 k = true := by
  rw [breakJob_eq, State.flag_sf_self _ _ _ _ _ (by decide) (by decide)]
  rfl

/-- What a broken job keeps of its link's status. -/
theorem breakJob_gf (s : State) (k : Nat) {g : RegField} (hreg : g.reg = .stnPeerStatus) (hhi : g.hi < F.stnPeerStatus_broken.lo) :
    (s.breakJob k).gf g 0 k = s.gf g 0 k := by
  rw [breakJob_eq, State.gf_sf_apart _ F.stnPeerStatus_broken _ _ _ hreg (.inl hhi), (relaysOff_keeps s k).gf_eq (by rw [hreg]; decide)]

/-- A state but for the links, the rings, the tenant slots, registers and events. -/
def State.beyondPeers (s : State) : State := { s.beyondMarks with jalfen := [], hostRings := [], hostSlots := [], snapshot := none }

theorem selfBreak_spec (s : State) (k : Nat) : Keeps State.beyondPeers [.hstRingCfg, .hstCountRetired, .stnPeerStatus] s (s.selfBreak k) ∧
    (s.selfBreak k).flag F.stnPeerStatus_broken 0 k = true ∧
    ∀ g : RegField, g.reg = .stnPeerStatus → g.hi < F.stnPeerStatus_broken.lo → (s.selfBreak k).gf g 0 k = s.gf g 0 k := by
  unfold State.selfBreak
  split
  next hbroken => exact ⟨.refl s, hbroken, fun _ _ _ => rfl⟩
  · extract_lets u
    have hkeep := breakJob_keeps s k
    have hbroken := breakJob_broken s k
    have hfields := fun g hreg hhi => breakJob_gf s k (g := g) hreg hhi
    have hlog : Marks [] (s.breakJob k) u := .logEv ..
    clear_value u
    generalize s.breakJob k = v at hkeep hbroken hfields hlog
    have htell := sendNotice_tells u 3 (evCode evPeerLost) fun j => j ≠ k && !u.fabric j && u.gf F.jlfCfg_job 0 j = u.gf F.jlfCfg_job 0 k
    have hown := htell.others k (by simp)
    refine ⟨?_, ?_, fun g hreg hhi => ?_⟩
    · have hbreaks : Keeps State.beyondPeers [.hstRingCfg, .hstCountRetired, .stnPeerStatus] s v :=
        hkeep.weaken (fun b => { b.1 with jalfen := [] }) (fun _ => rfl) (by decide)
      have htells : Keeps State.beyondPeers [.hstRingCfg, .hstCountRetired, .stnPeerStatus] u _ :=
        htell.keeps.weaken (fun b => { b with hostRings := [], hostSlots := [], snapshot := none }) (fun _ => rfl) (by decide)
      exact (hbreaks.trans (Keeps.more (.marks (fun _ => rfl) hlog))).trans htells
    · rw [htell.flags k F.stnPeerStatus_broken rfl (by decide), hlog.flag_eq (by decide), hbroken]
    · rw [State.gf, hreg, hown, hlog.regs _ _ _ (by simp), ← hfields g hreg hhi, State.gf, hreg]

/-! ### Notices received -/

/-- A notice recorded. -/
def State.noticed (s : State) (k wafer kind code : Nat) : State := (s.peerRecord k wafer kind code).hset F.stnPeerStatus_notice 0 k

theorem noticed_fields (s : State) (k wafer kind code : Nat) : (s.noticed k wafer kind code).flag F.stnPeerStatus_notice 0 k = true ∧
    (s.noticed k wafer kind code).gf F.stnPeerStatus_peer 0 k = wafer % 32 ∧
    (s.noticed k wafer kind code).gf F.stnPeerStatus_kind 0 k = kind % 256 ∧
    (s.noticed k wafer kind code).gf F.stnPeerStatus_code 0 k = code % 65536 := by
  have hp := State.gf_sf_self s F.stnPeerStatus_peer 0 k wafer (by decide) (by rfl : _ = 2 ^ 5)
  unfold State.noticed State.peerRecord
  generalize s.sf F.stnPeerStatus_peer 0 k wafer = a at hp
  have hk := State.gf_sf_self a F.stnPeerStatus_kind 0 k kind (by decide) (by rfl : _ = 2 ^ 8)
  have hpa := State.gf_sf_apart a F.stnPeerStatus_kind 0 k kind (g := F.stnPeerStatus_peer) rfl (by decide)
  generalize a.sf F.stnPeerStatus_kind 0 k kind = b at hk hpa
  have hc := State.gf_sf_self b F.stnPeerStatus_code 0 k code (by decide) (by rfl : _ = 2 ^ 16)
  have hpb := State.gf_sf_apart b F.stnPeerStatus_code 0 k code (g := F.stnPeerStatus_peer) rfl (by decide)
  have hkb := State.gf_sf_apart b F.stnPeerStatus_code 0 k code (g := F.stnPeerStatus_kind) rfl (by decide)
  generalize b.sf F.stnPeerStatus_code 0 k code = c at hc hpb hkb
  refine ⟨c.hset_flag F.stnPeerStatus_notice 0 k (by decide) (by decide), ?_, ?_, ?_⟩
  · exact (State.gf_hset_apart c F.stnPeerStatus_notice (g := F.stnPeerStatus_peer) 0 k rfl (by decide)).trans (hpb.trans (hpa.trans hp))
  · exact (State.gf_hset_apart c F.stnPeerStatus_notice (g := F.stnPeerStatus_kind) 0 k rfl (by decide)).trans (hkb.trans hk)
  · exact (State.gf_hset_apart c F.stnPeerStatus_notice (g := F.stnPeerStatus_code) 0 k rfl (by decide)).trans hc

theorem noticed_marks (s : State) (k wafer kind code : Nat) : Marks [.stnPeerStatus] s (s.noticed k wafer kind code) := by
  have hrecord := peerRecord_marks s k wafer kind code
  unfold State.noticed
  generalize s.peerRecord k wafer kind code = u at hrecord
  exact hrecord.trans (.hset (by decide) (by decide) ..)

/-- What a recorded notice shows. -/
def Noticed (k wafer kind code : Nat) (s : State) : Prop :=
  s.flag F.stnPeerStatus_notice 0 k = true ∧ s.gf F.stnPeerStatus_peer 0 k = wafer % 32 ∧
    s.gf F.stnPeerStatus_kind 0 k = kind % 256 ∧ s.gf F.stnPeerStatus_code 0 k = code % 65536

theorem Noticed.of_keeps {k wafer kind code : Nat} {s s' : State} (h : Noticed k wafer kind code s) (hs : Keeps (fun _ => ()) [] s s') :
    Noticed k wafer kind code s' := by
  obtain ⟨hnotice, hpeer, hkind, hcode⟩ := h
  exact ⟨(hs.flag_eq (by decide) ..).trans hnotice, (hs.gf_eq (by decide) ..).trans hpeer, (hs.gf_eq (by decide) ..).trans hkind,
    (hs.gf_eq (by decide) ..).trans hcode⟩

theorem Noticed.selfBreak {k wafer kind code : Nat} {s : State} (h : Noticed k wafer kind code s) : Noticed k wafer kind code (s.selfBreak k) := by
  obtain ⟨hnotice, hpeer, hkind, hcode⟩ := h
  obtain ⟨-, -, hgf⟩ := selfBreak_spec s k
  refine ⟨?_, (hgf _ rfl (by decide)).trans hpeer, (hgf _ rfl (by decide)).trans hkind, (hgf _ rfl (by decide)).trans hcode⟩
  rw [State.flag, hgf _ rfl (by decide)]
  exact hnotice

/-- What the wafer does about a recorded notice. -/
def State.takeNotice (s : State) (k kind job : Nat) : State :=
  if s.fabric k then s.peerIrq.logEv evPeerNotice 64 k (detail2 kind job)
  else if 1 ≤ kind ∧ kind ≤ 3 then s.selfBreak k
  else s.logEv evPeerNotice 64 k (detail2 kind job)

theorem Noticed.takeNotice {k wafer kind code : Nat} {s : State} (h : Noticed k wafer kind code s) (job : Nat) :
    Noticed k wafer kind code (s.takeNotice k kind job) ∧
    (s.fabric k = false → 1 ≤ kind → kind ≤ 3 → (s.takeNotice k kind job).flag F.stnPeerStatus_broken 0 k = true) := by
  have hlog (v : State) : Keeps (fun _ => ()) [] v (v.logEv evPeerNotice 64 k (detail2 kind job)) := .marks (fun _ => rfl) (.logEv ..)
  have hirq : Keeps (fun _ => ()) [] s s.peerIrq := .quiet rfl fun _ _ _ => rfl
  unfold State.takeNotice
  split
  next hf => exact ⟨h.of_keeps (hirq.trans (hlog _)), fun hno => absurd (hf.symm.trans hno) (by decide)⟩
  · split
    · exact ⟨h.selfBreak, fun _ _ _ => (selfBreak_spec s k).2.1⟩
    next hother => exact ⟨h.of_keeps (hlog s), fun _ hlo hhi => absurd ⟨hlo, hhi⟩ hother⟩

theorem notice_eq {s : State} {k seq : Nat} (kind wafer job code : Nat) (hk : k < 8) (hup : s.linkUp k = true) (hseq : seq = (s.jlf k).rx) :
    exec (.jalfenNotice k true seq kind wafer job code) s = .next (((s.noted k).noticed k wafer kind code).takeNotice k kind job) := by
  rw [show exec (.jalfenNotice k true seq kind wafer job code) s = execJalfenNotice k true seq kind wafer job code s from rfl, execJalfenNotice,
    onUnit_next hk, receive_good hup hseq]
  rfl

theorem noticed_fabric (s : State) (k wafer kind code : Nat) : ((s.noted k).noticed k wafer kind code).fabric k = s.fabric k := by
  have hmarks := noticed_marks (s.noted k) k wafer kind code
  generalize (s.noted k).noticed k wafer kind code = u at hmarks
  exact (hmarks.flag_eq (by decide) ..).trans ((noted_keeps s k).flag_eq (by decide) ..)

theorem notice_gives {s : State} {k seq kind : Nat} (wafer job code : Nat) (hk : k < 8) (hup : s.linkUp k = true) (hseq : seq = (s.jlf k).rx) :
    Gives (.jalfenNotice k true seq kind wafer job code) s fun s' =>
      s'.flag F.stnPeerStatus_notice 0 k = true ∧ s'.gf F.stnPeerStatus_peer 0 k = wafer % 32 ∧
      s'.gf F.stnPeerStatus_kind 0 k = kind % 256 ∧ s'.gf F.stnPeerStatus_code 0 k = code % 65536 ∧
      (s.fabric k = false → 1 ≤ kind → kind ≤ 3 → s'.flag F.stnPeerStatus_broken 0 k = true) := by
  have hnoticed : Noticed k wafer kind code ((s.noted k).noticed k wafer kind code) := noticed_fields (s.noted k) k wafer kind code
  obtain ⟨⟨hnotice, hpeer, hkind, hcode⟩, hbroken⟩ := hnoticed.takeNotice job
  rw [noticed_fabric] at hbroken
  exact gives_next (notice_eq kind wafer job code hk hup hseq) ⟨hnotice, hpeer, hkind, hcode, hbroken⟩

/-! ### Entries relayed -/

/-- An entry of a peer's, under the tenant of the ring's slot. -/
def relayedEntry (t : Nat) (e : List Nat) : List Nat := setBits (setBits (e.headD 0) 17 0 t) 26 26 0 :: e.drop 1

theorem relayedEntry_tenant {t : Nat} (e : List Nat) (ht : t < 2 ^ 18) : (relayedEntry t e).headD 0 % 2 ^ 18 = t := by
  have hbits (n : Nat) : bits n 17 0 = n % 2 ^ 18 := by
    unfold bits
    omega
  rw [relayedEntry, List.headD_cons, ← hbits, bits_setBits_ne (.inl (by decide)), bits_setBits_self, Nat.mod_eq_of_lt ht]

theorem takeRelayed_spec {s : State} {r k i t : Nat} {e : List Nat} (ht : t < 2 ^ 18) (hbound : Bound s r k i t) (hwhole : Whole (relayedEntry t e)) :
    (∃ o ∈ ((s.takeRelayed r e).hslot k i).owned, o.seq = (s.hring r).seq ∧ o.tenant = t) ∧
      ((s.takeRelayed r e).hring r).reqHead = (s.hring r).reqHead := by
  have heq : s.takeRelayed r e = (((s.passEntry r).takeRequest r [relayedEntry t e]).setHring r
      { ((s.passEntry r).takeRequest r [relayedEntry t e]).hring r with reqHead := (s.hring r).reqHead }) := by
    rw [← takeEntry_whole hbound hwhole, State.takeRelayed, hbound.slot]
    dsimp only
    rw [hbound.tenant]
    rfl
  have hself : (s.passEntry r).hring r = { s.hring r with reqHead := ((s.hring r).reqHead + 1) % 2 ^ 32, part := [], skip := none } :=
    mget_mput_self ..
  obtain ⟨-, ⟨o, ho, hkey⟩, -⟩ := takeRequest_spec (s := s.passEntry r) (r := r) (k := k) (i := i) (e := relayedEntry t e) hbound.slot
    (hbound.tenant.trans (congrArg some (relayedEntry_tenant e ht).symm)) hbound.areas
  rw [heq]
  generalize (s.passEntry r).takeRequest r [relayedEntry t e] = v at ho
  refine ⟨⟨o, ho, (congrArg Owned.seq hkey).trans ?_, (congrArg Owned.tenant hkey).trans (relayedEntry_tenant e ht)⟩, ?_⟩
  case refine_2 => rw [hring_setHring, if_pos rfl]
  change ((s.passEntry r).hring r).seq = _
  rw [hself]

theorem data_gives {s : State} {l seq ring k i t : Nat} {e : List Nat} (hl : l < 8) (hup : s.linkUp l = true) (hseq : seq = (s.jlf l).rx) :
    let r := ringNum (l / 2) 0 (ring % 256)
    s.flag F.stnPeerStatus_broken 0 l = false → t < 2 ^ 18 → Bound s r k i t → Whole (relayedEntry t e) →
    Gives (.jalfenData l true seq ring [e]) s fun s' =>
      (∃ o ∈ (s'.hslot k i).owned, o.seq = (s.hring r).seq ∧ o.tenant = t) ∧
      (s'.hring r).reqHead = (s.hring r).reqHead ∧ ∃ bs, Output.frame l 1 bs ∈ s'.out := by
  intro r hbroken ht hbound hwhole
  have hunbroken : (s.noted l).flag F.stnPeerStatus_broken 0 l = false := ((noted_keeps s l).flag_eq (by decide) ..).trans hbroken
  have heq : exec (.jalfenData l true seq ring [e]) s = .next (((s.noted l).takeRelayed r e).sendFrame l 1 1 0 []) := by
    rw [show exec (.jalfenData l true seq ring [e]) s = execJalfenData l true seq ring [e] s from rfl, execJalfenData, onUnit_next hl,
      receive_good hup hseq]
    dsimp only
    rw [hunbroken]
    rfl
  obtain ⟨howned, hhead⟩ := takeRelayed_spec (s := s.noted l) (e := e) ht
    ⟨hbound.slot, hbound.tenant, hbound.areas, hbound.part, hbound.skip⟩ hwhole
  refine gives_next heq ⟨howned, hhead, _, List.mem_cons_self ..⟩

/-! ### Bad frames -/

/-- What a reset of a link's port leaves: the counts and the tenant slots, and the port not trained. -/
theorem resetJalfen_spec (s : State) (k : Nat) : (s.resetJalfen k).linkUp k = false ∧
    (s.resetJalfen k).rd .jlfCountCrc 0 k = s.rd .jlfCountCrc 0 k ∧ (s.resetJalfen k).hostSlots = s.hostSlots := by
  have hport := State.gf_sf_self s F.stnStartupPorts_jalfen 0 0 (setBits (s.gf F.stnStartupPorts_jalfen) k k 0) (by decide) (by rfl : _ = 2 ^ 8)
  have hma : Marks [.stnStartupPorts] s (s.sf F.stnStartupPorts_jalfen 0 0 (setBits (s.gf F.stnStartupPorts_jalfen) k k 0)) :=
    .sf (by decide) (by decide) ..
  have hoff : ((s.sf F.stnStartupPorts_jalfen 0 0 (setBits (s.gf F.stnStartupPorts_jalfen) k k 0)).gf F.stnStartupPorts_jalfen).testBit k = false := by
    rw [hport, Nat.testBit_mod_two_pow]
    simp [testBit_setBits]
  unfold State.resetJalfen
  extract_lets x a b c d
  change (a.gf F.stnStartupPorts_jalfen).testBit k = false at hoff
  change Marks _ s a at hma
  clear_value a
  have hclocks : Marks [.clkEnable, .clkRunning] a c := .trans (.sf (by decide) (by decide) ..) (.sf (by decide) (by decide) ..)
  clear_value c
  have hd : Keeps State.hostSlots [] c d := .quiet rfl fun _ _ _ => rfl
  clear_value d
  have hrest := Keeps.each (look := State.hostSlots) (rs := []) (fun (s : State) (e : Nat × List Nat) =>
    s.setHring e.1 { s.hring e.1 with results := e.2 :: (s.hring e.1).results }) x.uncovered.reverse
    (fun s e _ => .quiet rfl fun _ _ _ => rfl) d
  refine ⟨?_, ?_, ?_⟩
  · rw [State.linkUp, hrest.gf_eq (by decide), hd.gf_eq (by decide), hclocks.gf_eq (by decide), hoff, Bool.and_false]
  · rw [hrest.regs _ _ _ (by decide), hd.regs _ _ _ (by decide), hclocks.regs _ _ _ (by decide), hma.regs _ _ _ (by decide)]
  · rw [hrest.look_eq, hd.look_eq, hclocks.beyond_eq State.hostSlots fun _ => rfl, hma.beyond_eq State.hostSlots fun _ => rfl]

theorem retrain_keeps (s : State) (p : Nat) : Keeps State.hostSlots [] s (s.retrain p) := by
  unfold State.retrain
  extract_lets key busy bound u
  have hu : Keeps State.hostSlots [] s u := .quiet rfl fun _ _ _ => rfl
  split
  · exact hu.trans (.quiet rfl fun _ _ _ => rfl)
  · exact hu

theorem resetEffect_link (s : State) (k cause : Nat) : s.resetEffect 4 (20 + k) cause = (s.retrain (20 + k)).resetJalfen k := by
  change s.resetRim (20 + k) = _
  unfold State.resetRim
  dsimp only
  rw [if_neg (by omega), if_neg (by omega), Nat.add_sub_cancel_left]

/-- The resets under way. -/
def State.resetting (s : State) (l : List ResetJob) : State := { s with resets := l }

theorem resetting_keeps (s : State) (l : List ResetJob) : Keeps State.hostSlots [] s (s.resetting l) := .quiet rfl fun _ _ _ => rfl

/-- A reset begun that none under way takes in. -/
theorem beginReset_new {s : State} {d t cause : Nat} (slot : Option Nat)
    (hno : (s.resets.find? fun j => (j.domain = d && j.target = t) || domainHolds j.domain j.target d t) = none) :
    s.beginReset d t cause slot = if d = 5 then ((s.resetAsked d t slot).resetEffect d t cause).resetShown d t
      else (((s.resetAsked d t slot).resetEffect d t cause).resetShown d t).resetting
        ((((s.resetAsked d t slot).resetEffect d t cause).resetShown d t).resets ++
          [{ domain := d, target := t, begun := (((s.resetAsked d t slot).resetEffect d t cause).resetShown d t).now, cause := cause }]) := by
  unfold State.beginReset
  rw [hno]
  rfl

theorem beginReset_linkEq {s : State} {k : Nat} (hno : ∀ j ∈ s.resets, j.domain ≠ 5 ∧ (j.domain, j.target) ≠ (4, 20 + k)) (cause : Nat) :
    ∃ l, s.beginReset 4 (20 + k) cause none =
      ((((s.resetAsked 4 (20 + k) none).retrain (20 + k)).resetJalfen k).resetShown 4 (20 + k)).resetting l := by
  have hfind : (s.resets.find? fun j => (j.domain = 4 && j.target = 20 + k) || domainHolds j.domain j.target 4 (20 + k)) = none := by
    rw [List.find?_eq_none]
    intro j hj
    obtain ⟨h5, hport⟩ := hno j hj
    have hholds : domainHolds j.domain j.target 4 (20 + k) = false := by
      unfold domainHolds
      dsimp only
      split
      case h_4 => exact absurd ‹_› h5
      all_goals rfl
    rw [hholds, Bool.or_false]
    simpa using hport
  rw [beginReset_new none hfind, if_neg (by decide), resetEffect_link]
  exact ⟨_, rfl⟩

/-- The jobs of resets within one that is asked for move to it. -/
def State.resetsMoved (s : State) (d t : Nat) (slot : Option Nat) : State :=
  { s with
    resets := s.resets.filter fun j => !domainHolds d t j.domain j.target
    mboxJobs := (s.mboxJobs.map fun (e : Nat × MboxOp) => match e.2 with
      | .reset e' u => if domainHolds d t e' u then (e.1, .reset d t) else e
      | _ => e) ++ (match slot with | some u => [(u, .reset d t)] | none => []) }

theorem resetsMoved_keeps (s : State) (d t : Nat) (slot : Option Nat) : Keeps State.hostSlots [] s (s.resetsMoved d t slot) := .quiet rfl fun _ _ _ => rfl

theorem resetAsked_eq (s : State) (d t : Nat) (slot : Option Nat) :
    s.resetAsked d t slot = ((s.sf F.rstDomainCtl_domain 0 0 d).sf F.rstDomainCtl_target 0 0 t).resetsMoved d t slot := rfl

theorem resetAsked_keeps (s : State) (d t : Nat) (slot : Option Nat) : Keeps State.hostSlots [.rstDomainCtl] s (s.resetAsked d t slot) := by
  have hnoted : Marks [.rstDomainCtl] s ((s.sf F.rstDomainCtl_domain 0 0 d).sf F.rstDomainCtl_target 0 0 t) :=
    .trans (.sf (by decide) (by decide) ..) (.sf (by decide) (by decide) ..)
  have hkeep : Keeps State.hostSlots [.rstDomainCtl] s ((s.sf F.rstDomainCtl_domain 0 0 d).sf F.rstDomainCtl_target 0 0 t) :=
    .marks (fun _ => rfl) hnoted
  rw [resetAsked_eq]
  exact hkeep.trans (resetsMoved_keeps ..).more

/-- What is kept of a link where its registers are. -/
theorem linkKept {rs : List Reg} {s s' : State} (k : Nat) (h : Keeps State.hostSlots rs s s') (hcfg : Reg.jlfCfg ∉ rs) (hports : Reg.stnStartupPorts ∉ rs)
    (hcrc : Reg.jlfCountCrc ∉ rs) :
    s'.linkUp k = s.linkUp k ∧ s'.rd .jlfCountCrc 0 k = s.rd .jlfCountCrc 0 k ∧ s'.hostSlots = s.hostSlots := by
  refine ⟨?_, h.regs _ _ _ hcrc, h.look_eq⟩
  rw [State.linkUp, State.linkUp, h.flag_eq hcfg, h.gf_eq hports]

theorem linkShown_keeps (s : State) (d t : Nat) (l : List ResetJob) : Keeps State.hostSlots [.rstStatus] s ((s.resetShown d t).resetting l) := by
  have hshown : Keeps State.hostSlots [.rstStatus] s (s.resetShown d t) := .marks (fun _ => rfl) (resetShown_marks ..)
  exact hshown.trans (resetting_keeps ..).more

theorem beginReset_link {s : State} {k : Nat} (hno : ∀ j ∈ s.resets, j.domain ≠ 5 ∧ (j.domain, j.target) ≠ (4, 20 + k)) (cause : Nat) :
    (s.beginReset 4 (20 + k) cause none).linkUp k = false ∧
    (s.beginReset 4 (20 + k) cause none).rd .jlfCountCrc 0 k = s.rd .jlfCountCrc 0 k ∧
    (s.beginReset 4 (20 + k) cause none).hostSlots = s.hostSlots := by
  obtain ⟨l, heq⟩ := beginReset_linkEq hno cause
  obtain ⟨-, hcount₁, hslots₁⟩ := linkKept k ((resetAsked_keeps s 4 (20 + k) none).trans (retrain_keeps _ (20 + k)).more) (by decide) (by decide) (by decide)
  obtain ⟨hup₂, hcount₂, hslots₂⟩ := resetJalfen_spec ((s.resetAsked 4 (20 + k) none).retrain (20 + k)) k
  obtain ⟨hup₃, hcount₃, hslots₃⟩ := linkKept k (linkShown_keeps (((s.resetAsked 4 (20 + k) none).retrain (20 + k)).resetJalfen k) 4 (20 + k) l)
    (by decide) (by decide) (by decide)
  rw [heq]
  exact ⟨hup₃.trans hup₂, hcount₃.trans (hcount₂.trans hcount₁), hslots₃.trans (hslots₂.trans hslots₁)⟩

/-- A bad frame counted. -/
def State.badFrame (s : State) (k : Nat) : State := (s.bump .jlfCountCrc 0 k 1).logEv evJalfenLinkReset 64 k 0

theorem badBeat_gives {s : State} {k seq : Nat} (hk : k < 8) (hup : s.linkUp k = true)
    (hno : ∀ j ∈ s.resets, j.domain ≠ 5 ∧ (j.domain, j.target) ≠ (4, 20 + k)) : Gives (.jalfenBeat k false seq) s fun s' =>
      s'.rd .jlfCountCrc 0 k = BitVec.ofNat 64 (satAdd32 (s.rd .jlfCountCrc 0 k).toNat 1) ∧ s'.linkUp k = false ∧ s'.hostSlots = s.hostSlots := by
  have heq : exec (.jalfenBeat k false seq) s = .next ((s.badFrame k).beginReset 4 (20 + k) 2 none) := by
    rw [show exec (.jalfenBeat k false seq) s = execJalfenBeat k false seq s from rfl, execJalfenBeat, onUnit_next hk, State.receive]
    dsimp only
    rw [if_neg (by simp [hup]), if_pos (.inl rfl)]
    rfl
  refine gives_next heq ?_
  have hmarks : Marks [.jlfCountCrc] s (s.badFrame k) := .trans (.bump (by decide) (by decide) ..) (.logEv ..)
  have hcount : (s.badFrame k).rd .jlfCountCrc 0 k = BitVec.ofNat 64 (satAdd32 (s.rd .jlfCountCrc 0 k).toNat 1) :=
    ((Marks.logEv (rs := []) (s.bump .jlfCountCrc 0 k 1) ..).regs _ _ _ (by decide)).trans (State.rd_wr_self ..)
  generalize s.badFrame k = u at hmarks hcount
  have hresets : u.resets = s.resets := hmarks.beyond_eq State.resets fun _ => rfl
  obtain ⟨hdown, hkept, hslots⟩ := beginReset_link (s := u) (hresets ▸ hno) 2
  exact ⟨hkept.trans hcount, hdown, hslots.trans (hmarks.beyond_eq State.hostSlots fun _ => rfl)⟩

theorem idleBeat_gives {s : State} {k : Nat} (hk : k < 8) (hup : s.linkUp k = true) : Gives (.jalfenIdleBeat k) s fun s' =>
    (∃ bs, Output.frame k 2 bs ∈ s'.out) ∧ (s.jlf k).lastTx + 100000 ≤ s'.now ∧ (s'.jlf k).tx = ((s.jlf k).tx + 1) % 65536 := by
  have heq : exec (.jalfenIdleBeat k) s = .next ((s.advanceTo ((s.jlf k).lastTx + 100000)).sendFrame k 2 0 0 []) := by
    rw [show exec (.jalfenIdleBeat k) s = execJalfenIdleBeat k s from rfl, execJalfenIdleBeat, onUnit_next hk, if_pos hup]
  exact gives_next heq ⟨⟨_, List.mem_cons_self ..⟩, Nat.le_max_right .., congrArg Jalfen.tx (mget_mput_self ..)⟩

/-! ### Peers lost, broken and cleared -/

/-- A link's peer lost: the instant and LOST. -/
def State.peerGone (s : State) (k : Nat) : State :=
  (s.advanceTo ((s.jlf k).lastRx + s.gf F.jlfTimeout_ms 0 k * 1000000)).hset F.stnPeerStatus_lost 0 k

theorem peerLost_gives {s : State} {k : Nat} (hk : k < 8) (hen : s.flag F.jlfCfg_enable 0 k = true) (hlost : s.flag F.stnPeerStatus_lost 0 k = false) :
    Gives (.peerLost k) s fun s' =>
      s'.flag F.stnPeerStatus_lost 0 k = true ∧ (s.jlf k).lastRx + s.gf F.jlfTimeout_ms 0 k * 1000000 ≤ s'.now ∧
      (s.fabric k = false → s'.flag F.stnPeerStatus_broken 0 k = true) := by
  have heq : exec (.peerLost k) s = .next (if (s.peerGone k).fabric k then (s.peerGone k).peerIrq.logEv evPeerLost 64 k 0
      else (s.peerGone k).selfBreak k) := by
    rw [show exec (.peerLost k) s = execPeerLost k s from rfl, execPeerLost, onUnit_next hk, if_neg (by simp [hen, hlost])]
    rfl
  refine gives_next heq ?_
  have hset : Marks [.stnPeerStatus] (s.advanceTo ((s.jlf k).lastRx + s.gf F.jlfTimeout_ms 0 k * 1000000)) (s.peerGone k) :=
    .hset (by decide) (by decide) ..
  have hnow : (s.jlf k).lastRx + s.gf F.jlfTimeout_ms 0 k * 1000000 ≤ (s.peerGone k).now :=
    (Nat.le_max_right ..).trans_eq (hset.beyond_eq State.now fun _ => rfl).symm
  have hfabric : (s.peerGone k).fabric k = s.fabric k := (hset.flag_eq (by decide) ..).trans rfl
  have hgone : (s.peerGone k).flag F.stnPeerStatus_lost 0 k = true := State.hset_flag _ _ _ _ (by decide) (by decide)
  rw [hfabric]
  generalize s.peerGone k = u at hnow hgone
  split
  next hf =>
    have hlog : Marks [] u.peerIrq (u.peerIrq.logEv evPeerLost 64 k 0) := .logEv ..
    refine ⟨(hlog.flag_eq (by decide) ..).trans hgone, hnow.trans_eq (hlog.beyond_eq State.now fun _ => rfl).symm,
      fun hno => absurd (hf.symm.trans hno) (by decide)⟩
  · obtain ⟨hkeep, hbroken, hgf⟩ := selfBreak_spec u k
    refine ⟨?_, hnow.trans_eq (hkeep.eq_of State.now (·.now) fun _ => rfl).symm, fun _ => hbroken⟩
    rw [State.flag, hgf _ rfl (by decide)]
    exact hgone

theorem peerBreak_gives {s : State} {req : Requester} {k : Nat} (hk : k < 8) (hreq : peerWriter req = true) :
    Gives (.peerBreak req k) s fun s' => s'.flag F.stnPeerStatus_broken 0 k = true := by
  cases hbroken : s.flag F.stnPeerStatus_broken 0 k with
  | true =>
    have heq : exec (.peerBreak req k) s = .next s := by
      rw [show exec (.peerBreak req k) s = execPeerBreak req k s from rfl, execPeerBreak, onUnit_next hk, if_neg (by simp [hreq]), if_pos hbroken]
    exact gives_next heq hbroken
  | false =>
    have heq : exec (.peerBreak req k) s = .next ((s.breakJob k).sendNotice 3 (evCode evPeerLost)
        fun j => s.gf F.jlfCfg_job 0 j = s.gf F.jlfCfg_job 0 k) := by
      rw [show exec (.peerBreak req k) s = execPeerBreak req k s from rfl, execPeerBreak, onUnit_next hk, if_neg (by simp [hreq]),
        if_neg (by simp [hbroken])]
    refine gives_next heq ?_
    rw [(sendNotice_tells ..).flags k F.stnPeerStatus_broken rfl (by decide), breakJob_broken]

theorem peerClear_gives {s : State} {req : Requester} {k : Nat} (hk : k < 8) (hreq : peerWriter req = true) (hup : s.linkUp k = true)
    (hbeat : (s.jlf k).beat = true) : Gives (.peerClear req k) s fun s' =>
      s'.flag F.stnPeerStatus_broken 0 k = false ∧ s'.jalfen = s.jalfen := by
  have heq : exec (.peerClear req k) s = .next (s.sf F.stnPeerStatus_broken 0 k 0) := by
    rw [show exec (.peerClear req k) s = execPeerClear req k s from rfl, execPeerClear, onUnit_next hk, if_neg (by simp [hreq]),
      if_pos ⟨hup, hbeat⟩]
  refine gives_next heq ⟨?_, rfl⟩
  rw [State.flag_sf_self _ _ _ _ _ (by decide) (by decide)]
  rfl

theorem refuse_regs_rings (s : State) (f : Nat) (req : Requester) (a : Nat) : (s.refuse f req a).regs = s.regs ∧ (s.refuse f req a).hostRings = s.hostRings :=
  ⟨State.refuse_regs .., (Marks.logEv (rs := []) s ..).beyond_eq State.hostRings fun _ => rfl⟩

theorem peerRefused_gives {s : State} {req : Requester} {k : Nat} (hk : k < 8) (hreq : peerWriter req = false) :
    Gives (.peerBreak req k) s (fun s' => s'.regs = s.regs ∧ s'.hostRings = s.hostRings) ∧ Gives (.peerClear req k) s fun s' => s'.regs = s.regs := by
  have hbreak : exec (.peerBreak req k) s = .next (s.refuse 64 req (0x660 + 4 * k)) := by
    rw [show exec (.peerBreak req k) s = execPeerBreak req k s from rfl, execPeerBreak, onUnit_next hk, if_pos hreq]
  have hclear : exec (.peerClear req k) s = .next (s.refuse 64 req (0x660 + 4 * k)) := by
    rw [show exec (.peerClear req k) s = execPeerClear req k s from rfl, execPeerClear, onUnit_next hk, if_pos hreq]
  exact ⟨gives_next hbreak (refuse_regs_rings ..), gives_next hclear (refuse_regs_rings ..).1⟩

end Sys2Proof.Machine

namespace Sys2Proof.Claims

open Sys2Proof.Machine

/-- Settles O47: frames received, good and bad, and the job that a lost, broken or reporting peer breaks. -/
theorem peersExchange : Obligations.PeersExchange := by
  intro s link seq grant ring kind wafer job code k i t e req hlink x noted
  exact ⟨fun hup hseq => ⟨beat_gives hlink hup hseq, keeperFrame_gives hlink hup hseq, credit_gives grant hlink hup hseq,
      notice_gives wafer job code hlink hup hseq, data_gives hlink hup hseq⟩,
    badBeat_gives hlink, idleBeat_gives hlink, peerLost_gives hlink,
    fun hreq => ⟨peerBreak_gives hlink hreq, peerClear_gives hlink hreq⟩, peerRefused_gives hlink⟩

end Sys2Proof.Claims
end

section
/-! SUPPORT. A bay that passes its BIST keeps its live records where no RETURN_BAY waits for it (R28, R856). -/

namespace Sys2Proof.Machine

open Sys2Proof.Claims

/-- Bay 0 LIT and not yet tested, with a live record of it from its BIST, and no command waiting. -/
def recordedBay : State :=
  ({ live := [.defect { kind := 3, source := 1, loc := 0, detail := 0 } 0] } : State).sf F.pwrBayState_state 0 0 2

theorem recordedBay_lit : recordedBay.bayState 0 = 2 := by decide

theorem bayBist_recordedBay : exec (.bayBist 0 []) recordedBay = .next
    { recordedBay with bays := mput recordedBay.bays 0 { tested := true, joins := some 1 } } := by
  rw [show exec (.bayBist 0 []) recordedBay = execBayBist 0 [] recordedBay from rfl, execBayBist, onUnit_next (by decide)]
  dsimp only
  rw [if_neg (by simp only [recordedBay_lit]; decide), if_neg (by decide), if_neg (by decide)]
  rfl

end Sys2Proof.Machine

namespace Sys2Proof.Claims

open Sys2Proof.Machine

/-- Refutes O55: a BIST passed with no RETURN_BAY waiting for the bay leaves a live record of the bay that is not a gate's. -/
theorem not_mailboxCommands : ¬ Obligations.MailboxCommands := by
  unfold Obligations.MailboxCommands
  intro h
  obtain ⟨-, -, -, hbist, -⟩ := h recordedBay 0 0
  obtain ⟨⟨x, hx, -, -, hlive⟩, -⟩ := hbist (by decide) recordedBay_lit rfl rfl
  rw [bayBist_recordedBay] at hx
  cases hx
  exact absurd (hlive { kind := 3, source := 1, loc := 0, detail := 0 } 0 List.mem_cons_self rfl rfl) (by decide)

end Sys2Proof.Claims
end

section
/-! SUPPORT. A START that restores one sector of an epoch group waits for the flip that is armed for another (R853, R865). -/

namespace Sys2Proof.Machine

open Sys2Proof.Claims

/-- An image whose sectors 1 and 2 share an epoch group. -/
def groupedImage : Image :=
  { magic := 0, format := 0, kind := 0, grade := 0, tool := 0, svn := 0, flags := 0, imageId := 0, size := 0, sigOffset := 0
    periodMin := 0, periodMax := 0, settleLen := 0, sectorCount := 0, baseDigest := [], digest := [], rsvOk := true, scatter := 0
    owner := { layoutOk := true, allow := 0, ownerId := 0, serial := 0, sigOk := true }
    key := { layoutOk := true, allow := 0, ownerId := 0, serial := 0, sigOk := true }
    signatureOk := true, table := []
    sectors := [{ sector := 1, epochGroup := 0, clockGroup := 1 }, { sector := 2, epochGroup := 0, clockGroup := 2 }]
    placement := [], routes := [], mcast := [], tiles := [], blobs := [], constants := [], channels := [], steering := []
    lenses := [], mv := [], regions := [], buoys := [], spec := [], characters := [], staging := [], host := [] }

/-- The character table of sector 1. -/
def strandedTable : ImgTable :=
  { sector := 1, count := 0, reference := 0, recovery := 0, fallback := 0, points := [], slots := 0, chars := [], tiles := [] }

/-- The grouped image started, with its restore candidate held: sector 1 is STRANDED, sector 2 has a tile in field 0, where a
flip of its epoch is armed, and mailbox slot 0 asks to START sector 1. -/
def armedMate : State :=
  ((((({ candidate := some groupedImage, loaded := some groupedImage, mboxQueue := [0]
         sectors := [(1, { table := strandedTable, health := 3 })] } : State).sf F.hstMboxStatus_opcode 0 0 3).wr .hstMboxArg 0 0 1).wr
    .hstMboxArg 0 1 1).sf F.stnStartup_ready 0 0 1).sf F.stnImageStatus_state 0 0 2 |>.sf F.stnImageLoaded_state 0 0 3 |>.sf
    F.mshTileSector_sector 0 0 2 |>.sf F.mshEpoch_armed 0 2 1

theorem armedMate_taken : Taken armedMate 0 3 (startMasks (armedMate.arg 0 0)) where
  slot := by decide
  next := by decide
  opcode := by decide
  unused := by decide
  jtag := fun h => absurd h (by decide)

/-- The state in which the START of sector 1 is judged. -/
def armedTaken : State := armedMate.boxTaken 0

theorem startRestore_armedTaken : armedTaken.startRestore 0 groupedImage [1] = armedTaken.mboxDone 0 mbBusy [] := by
  unfold State.startRestore
  extract_lets gone owners
  rw [if_neg (by decide), if_neg (by decide), if_neg (by decide), if_pos (.inl (by decide))]

theorem start_armedMate : exec (.start 0 none) armedMate = .next (armedTaken.mboxDone 0 mbBusy []) := by
  rw [show exec (.start 0 none) armedMate = execStart 0 none armedMate from rfl, execStart, onUnit_next (by decide)]
  dsimp only
  rw [takeMbox_taken armedMate_taken (by decide), if_neg (by decide), if_pos (by decide), ← startRestore_armedTaken]
  change Host.Outcome.next (armedTaken.startCommand 0 1 [1]) = _
  unfold State.startCommand
  rw [if_neg (by decide), if_pos (by decide)]
  rfl

theorem armedMate_stranded {f k : Nat} (hk : k ∈ armedMate.startIds 0 (armedMate.arg 0 0)) : hasSector groupedImage k = true ∧ armedMate.health k = 3 ∧
    f ∉ armedMate.holders k := by
  have hone : k = 1 := by
    rw [show armedMate.startIds 0 (armedMate.arg 0 0) = [1] by decide] at hk
    exact List.mem_singleton.1 hk
  subst hone
  refine ⟨by decide, by decide, ?_⟩
  rw [show armedMate.holders 1 = [] by decide]
  exact List.not_mem_nil

end Sys2Proof.Machine

namespace Sys2Proof.Claims

open Sys2Proof.Machine

/-- Refutes O53: a restore of sector 1 is refused with BUSY while a flip is armed for sector 2 of its epoch group in a field that
does not hold sector 1. -/
theorem not_imagesBegin : ¬ Obligations.ImagesBegin := by
  unfold Obligations.ImagesBegin
  intro h
  obtain ⟨-, -, -, -, -, hrestore, -⟩ := h armedMate 0 groupedImage groupedImage none
  obtain ⟨x, hx, hrun, -⟩ := hrestore armedMate_taken (by decide) rfl (by decide) (by decide) (by decide) (by decide) rfl (by decide)
    (fun k hk => ⟨(armedMate_stranded (f := 0) hk).1, (armedMate_stranded (f := 0) hk).2.1, fun f hf => absurd hf (armedMate_stranded hk).2.2⟩)
    (fun e he _ => by
      rw [List.mem_singleton.1 (show e ∈ [(1, ({ table := strandedTable, health := 3 } : SectorSt))] from he)]
      decide)
  rw [start_armedMate] at hx
  cases hx
  have hkept : (armedTaken.mboxDone 0 mbBusy []).loadRun = none :=
    (mboxDone_keeps ..).eq_of State.loadRun (·.loadRun) fun _ => rfl
  rw [hkept] at hrun
  cases hrun

end Sys2Proof.Claims
end

section
/-! SUPPORT. The steps of start-up up to the links (R747 to R764). -/

namespace Sys2Proof.Machine

open Sys2Proof.Claims

/-! ### Steps done, clocks enabled -/

/-- A state but for the steps of start-up, what is in training, registers and events. -/
def State.beyondSteps (s : State) : State := { s.beyondMarks with stepsDone := [], startDeadlines := [] }

theorem stepDone_keeps (s : State) (n : Nat) : Keeps State.beyondSteps [.stnStartup] s (s.stepDone n) :=
  .trans (s' := { s with stepsDone := n :: s.stepsDone }) (.quiet rfl fun _ _ _ => rfl) (.marks (fun _ => rfl) (.sf (by decide) (by decide) ..))

theorem stepDone_steps (s : State) (n : Nat) : (s.stepDone n).stepsDone = n :: s.stepsDone := rfl

theorem stepDone_deadlines (s : State) (n : Nat) : (s.stepDone n).startDeadlines = s.startDeadlines := rfl

theorem startClock_station {s : State} {i : Nat} (hi : 64 ≤ i) (b : Nat) :
    s.startClock i b = s.sf F.clkRunning_run 0 i (setBits (s.gf F.clkRunning_run 0 i) b b 1) := by
  unfold State.startClock
  exact if_pos hi

/-- The clocks of the station, the rim and the always-on block enabled change their registers only. -/
theorem setEnable_marks (s : State) {i : Nat} (v : Nat) (hi : 64 ≤ i) : Marks [.clkEnable, .clkRunning] s (s.setEnable i v) := by
  unfold State.setEnable
  extract_lets w x u
  refine .trans (s' := u) (.sf (by decide) (by decide) ..) (.each _ _ (fun s b _ => ?_) u)
  dsimp only
  rw [startClock_station hi]
  split
  · exact .sf (by decide) (by decide) ..
  · split
    · exact .sf (by decide) (by decide) ..
    · exact .refl s

theorem setEnable_steps (s : State) {i : Nat} (v : Nat) (hi : 64 ≤ i) : (s.setEnable i v).stepsDone = s.stepsDone :=
  (setEnable_marks s v hi).beyond_eq State.stepsDone fun _ => rfl

/-! ### ROM (R754 to R758) -/

/-- The verdicts on both firmware copies shown, and step ROM begun. -/
def State.fwChecked (s : State) (aOk bOk : Bool) : State := ((s.sf F.stnFwStatus_a_ok 0 0 (b2n aOk)).sf F.stnFwStatus_b_ok 0 0 (b2n bOk)).stepDone 0

/-- The copy selected shown. -/
def State.fwSelected (s : State) (useB : Bool) (c : FwCopy) : State :=
  (((s.sf F.stnFwStatus_active 0 0 (b2n useB)).sf F.stnFwStatus_svn 0 0 c.svn).sf F.stnFwStatus_major 0 0 c.major).sf F.stnFwStatus_minor 0 0 c.minor

theorem fwSelected_active (s : State) (useB : Bool) (c : FwCopy) : (s.fwSelected useB c).flag F.stnFwStatus_active = useB := by
  rw [State.fwSelected, State.flag_sf_apart _ F.stnFwStatus_minor _ _ _ (g := F.stnFwStatus_active) rfl (by decide),
    State.flag_sf_apart _ F.stnFwStatus_major _ _ _ (g := F.stnFwStatus_active) rfl (by decide),
    State.flag_sf_apart _ F.stnFwStatus_svn _ _ _ (g := F.stnFwStatus_active) rfl (by decide),
    State.flag_sf_self _ _ _ _ _ (by decide) (by decide), b2n_mod]

theorem fwSelected_svn (s : State) (useB : Bool) {c : FwCopy} (h : c.svn < 256) : (s.fwSelected useB c).gf F.stnFwStatus_svn = c.svn := by
  rw [State.fwSelected, State.gf_sf_apart _ F.stnFwStatus_minor _ _ _ (g := F.stnFwStatus_svn) rfl (by decide),
    State.gf_sf_apart _ F.stnFwStatus_major _ _ _ (g := F.stnFwStatus_svn) rfl (by decide),
    State.gf_sf_self _ _ _ _ _ (by decide) (by rfl : _ = 256), Nat.mod_eq_of_lt h]

theorem bootRom_eq {s : State} {a b : FwCopy} (hsteps : s.stepsDone = []) (hhalt : s.halted = false)
    (ha : s.fwOk (s.recovered.getD a) = true) (hb : s.fwOk b = true) :
    let useB := decide ((s.recovered.getD a).major * 256 + (s.recovered.getD a).minor < b.major * 256 + b.minor)
    exec (.bootRom a b true) s = .next { ((((s.fwChecked true true).fwSelected useB (if useB then b else s.recovered.getD a)).setEnable 66 0x3C).stepDone 1)
      with keeperAt := 27 } := by
  rw [show exec (.bootRom a b true) s = execBootRom a b true s from rfl, execBootRom, if_neg (by simp [hsteps, hhalt])]
  dsimp only
  rw [ha, hb, if_neg (by decide), if_pos rfl, if_pos rfl, if_pos rfl]
  simp only [Bool.true_and, Bool.not_true, Bool.false_or]
  rfl

theorem bootRom_gives {s : State} {a b : FwCopy} :
    let x := s.recovered.getD a
    s.stepsDone = [] → s.halted = false → s.fwOk x = true → s.fwOk b = true → x.svn < 256 → b.svn < 256 →
    Gives (.bootRom a b true) s fun s' =>
      let new := x.major * 256 + x.minor < b.major * 256 + b.minor
      s'.stepsDone = [1, 0] ∧ (s'.flag F.stnFwStatus_active = true ↔ new) ∧
      (new → s'.gf F.stnFwStatus_svn = b.svn) ∧ (¬new → s'.gf F.stnFwStatus_svn = x.svn) ∧ s'.keeperAt = 27 := by
  intro x hsteps hhalt hx hb hxs hbs
  refine gives_next (bootRom_eq hsteps hhalt hx hb) ?_
  change let new := x.major * 256 + x.minor < b.major * 256 + b.minor; _
  intro new
  have hchecked : (s.fwChecked true true).stepsDone = [0] := congrArg (0 :: ·) hsteps
  generalize s.fwChecked true true = u at hchecked
  have hactive := fwSelected_active u (decide new) (if decide new = true then b else x)
  have hsvn := fwSelected_svn u (decide new) (c := if decide new = true then b else x) (by split <;> assumption)
  have hfw : (u.fwSelected (decide new) (if decide new = true then b else x)).stepsDone = u.stepsDone := rfl
  change ((((u.fwSelected (decide new) (if decide new = true then b else x)).setEnable 66 0x3C).stepDone 1).stepsDone = [1, 0]) ∧ _
  generalize u.fwSelected (decide new) (if decide new = true then b else x) = v at hactive hsvn hfw
  have hen := setEnable_marks v (i := 66) 0x3C (by decide)
  have hdone := stepDone_keeps (v.setEnable 66 0x3C) 1
  have hset (w : State) : Keeps (fun _ => ()) [] w { w with keeperAt := 27 } := .quiet rfl fun _ _ _ => rfl
  refine ⟨?_, ?_, fun hnew => ?_, fun hnew => ?_, rfl⟩
  · rw [stepDone_steps, hen.beyond_eq State.stepsDone fun _ => rfl, hfw, hchecked]
  · rw [(hset _).flag_eq (by decide), hdone.flag_eq (by decide), hen.flag_eq (by decide), hactive, decide_eq_true_iff]
  · rw [(hset _).gf_eq (by decide), hdone.gf_eq (by decide), hen.gf_eq (by decide), hsvn, if_pos (decide_eq_true hnew)]
  · rw [(hset _).gf_eq (by decide), hdone.gf_eq (by decide), hen.gf_eq (by decide), hsvn, if_neg fun h => hnew (decide_eq_true_iff.1 h)]

/-- A station reset keeps the fuses and the firmware that recovery wrote, and begins start-up again. -/
theorem resetStation_begins (s : State) (cause : Nat) : (s.resetStation cause).stepsDone = [] ∧ (s.resetStation cause).fuses = s.fuses ∧
    (s.resetStation cause).recovered = s.recovered := by
  unfold State.resetStation
  extract_lets regs _ n a b c d e
  have hn : n.stepsDone = [] ∧ n.fuses = s.fuses ∧ n.recovered = s.recovered := ⟨rfl, rfl, rfl⟩
  clear_value n
  obtain ⟨hsteps, hfuses, hrecovered⟩ := hn
  have hb : Marks [.stnNvInhibit, .rstCause] n b := .trans (.sf (by decide) (by decide) ..) (.sf (by decide) (by decide) ..)
  have hc : Marks [.rstCause, .stnStartup] b c := .trans (.sf (by decide) (by decide) ..) (.sf (by decide) (by decide) ..)
  have hd : Marks [.clkSrcStatus] c d := .trans (.sf (by decide) (by decide) ..) (.sf (by decide) (by decide) ..)
  have he : Marks [.clkSrcStatus] d e := .trans (.sf (by decide) (by decide) ..) (.sf (by decide) (by decide) ..)
  clear_value b c d e
  have hall : e.beyondMarks = n.beyondMarks := he.beyond.trans (hd.beyond.trans (hc.beyond.trans hb.beyond))
  exact ⟨(congrArg State.stepsDone hall).trans hsteps, (congrArg State.fuses hall).trans hfuses, (congrArg State.recovered hall).trans hrecovered⟩

theorem recovery_gives {s : State} {copy : FwCopy} (hsteps : s.stepsDone = [0]) (hrom : (s.gf F.stnFoghorn_cause).testBit 0 = true)
    (hok : s.fwOk copy = true) (hnv : s.flag F.stnNvInhibit_inhibit = false) : Gives (.firmwareRecovery copy) s fun s' =>
      s'.stepsDone = [] ∧ s'.gf F.rstCause_cause = 2 ∧ s'.fuses = s.fuses ∧ s'.recovered = some copy := by
  have heq : exec (.firmwareRecovery copy) s = .next (({ s with recovered := some copy } : State).resetStation 2) := by
    rw [show exec (.firmwareRecovery copy) s = execFirmwareRecovery copy s from rfl, execFirmwareRecovery, if_neg (by simp [hsteps, hrom, hok, hnv])]
  obtain ⟨hbegun, hfuses, hrecovered⟩ := resetStation_begins ({ s with recovered := some copy } : State) 2
  exact gives_next heq ⟨hbegun, (resetStation_restarts _ (by decide)).cause, hfuses, hrecovered⟩

/-! ### CLOCKS and STATION -/

/-- The station PLL locked to XA. -/
def State.stationLocked (s : State) : State := { (s.setLock 0 true).sf F.clkPllStatus_mhz 0 0 1000 with minuteLog := none }

theorem stationLocked_flag (s : State) : s.stationLocked.flag F.clkSrcStatus_stn_lock = true := by
  have hlock : (s.setLock 0 true).flag F.clkSrcStatus_stn_lock = true := by
    change ((s.sf F.clkPllStatus_lock 0 0 1).sf F.clkSrcStatus_stn_lock 0 0 1).flag F.clkSrcStatus_stn_lock = true
    rw [State.flag_sf_self _ _ _ _ _ (by decide) (by decide)]
    rfl
  have hmhz : Marks [.clkPllStatus] (s.setLock 0 true) ((s.setLock 0 true).sf F.clkPllStatus_mhz 0 0 1000) := .sf (by decide) (by decide) ..
  have hset (w : State) : Keeps (fun _ => ()) [] w { w with minuteLog := none } := .quiet rfl fun _ _ _ => rfl
  rw [State.stationLocked, (hset _).flag_eq (by decide), hmhz.flag_eq (by decide), hlock]

theorem startupClocks_gives {s : State} (hstep : s.inStep 2 [1] = true) (hxa : s.flag F.clkSrcStatus_xa_ok = true)
    (hfirc : s.flag F.clkSrcStatus_firc_ok = true) : Gives .startupClocks s fun s' =>
      s'.stepsDone = 2 :: s.stepsDone ∧ s'.flag F.clkSrcStatus_stn_lock = true := by
  have heq : exec .startupClocks s = .next (s.stationLocked.stepDone 2) := by
    rw [show exec .startupClocks s = execStartupClocks s from rfl, execStartupClocks, if_neg (by simp [hstep, hxa, hfirc])]
    rfl
  refine gives_next heq ⟨rfl, ?_⟩
  rw [(stepDone_keeps ..).flag_eq (by decide), stationLocked_flag]

end Sys2Proof.Machine
end

section
/-! SUPPORT. The steps of start-up from the station to the ports (R759 to R764, R774, R781, R810). -/

namespace Sys2Proof.Machine

open Sys2Proof.Claims

/-! ### STATION (R759, R760) -/

/-- A state but for the ledger's copies and the live map. -/
def State.beyondLedger (s : State) : State := { s with regs := [], live := [], copyA := {}, copyB := {}, ledgerRepair := none }

theorem repairCopies_ledger (s : State) : s.repairCopies.beyondLedger = s.beyondLedger ∧ s.repairCopies.live = s.live := by
  unfold State.repairCopies
  split
  · exact ⟨rfl, rfl⟩
  · exact ⟨rfl, rfl⟩

/-- A ledger read whose copy A is good: its records, and those that still wait to be written. -/
theorem readLedger_spec (s : State) (lost : List (Nat × Nat)) (unknown : Nat) : (s.readLedger true false lost unknown).beyondLedger = s.beyondLedger ∧
    (s.readLedger true false lost unknown).live = (s.ledgerQueue.filter Ledger.isDefect).foldl ledgerWith s.copyA.records := by
  unfold State.readLedger
  extract_lets a b
  have ha : a.beyondLedger = s.beyondLedger := rfl
  have hlive : a.live = s.copyA.records := rfl
  clear_value a
  have hb : b.beyondLedger = a.beyondLedger ∧ b.live = a.live := by
    unfold b
    split
    · exact ⟨rfl, rfl⟩
    · exact repairCopies_ledger a
  clear_value b
  obtain ⟨hkeep, hread⟩ := hb
  refine ⟨hkeep.trans ha, ?_⟩
  change (b.ledgerQueue.filter Ledger.isDefect).foldl ledgerWith b.live = _
  rw [show b.ledgerQueue = s.ledgerQueue from (congrArg State.ledgerQueue (hkeep.trans ha) :), hread, hlive]

/-- The boot settings taken. -/
def State.bootSet (s : State) (p : Nat) (ports : Nat × Nat × Nat) (caps : Nat × Nat) : State :=
  { s with bootPeriod := p, bootPorts := (ports.1 % 16, ports.2.1 % 2 ^ 16, ports.2.2 % 256), bootCaps := (min caps.1 60000, min caps.2 10000) }

/-- XB's mode taken. -/
def State.xbModeSet (s : State) (xbMode : Bool) : State := (s.sf F.clkSrcCfg_xb_mode 0 0 (b2n xbMode)).sf F.clkSrcStatus_xb_mode 0 0 (b2n xbMode)

theorem xbModeSet_marks (s : State) (xbMode : Bool) : Marks [.clkSrcCfg, .clkSrcStatus] s (s.xbModeSet xbMode) :=
  .trans (.sf (by decide) (by decide) ..) (.sf (by decide) (by decide) ..)

theorem xbModeSet_flag (s : State) (xbMode : Bool) : (s.xbModeSet xbMode).flag F.clkSrcCfg_xb_mode = xbMode := by
  have hset := State.flag_sf_self s F.clkSrcCfg_xb_mode 0 0 (b2n xbMode) (by decide) (by decide)
  rw [b2n_mod] at hset
  unfold State.xbModeSet
  generalize s.sf F.clkSrcCfg_xb_mode 0 0 (b2n xbMode) = u at hset
  have hlater : Marks [.clkSrcStatus] u (u.sf F.clkSrcStatus_xb_mode 0 0 (b2n xbMode)) := .sf (by decide) (by decide) ..
  rw [hlater.flag_eq (by decide), hset]

theorem startupStation_eq {s : State} {p unknown : Nat} {lost : List (Nat × Nat)} {xbMode : Bool} {ports : Option (Nat × Nat × Nat)}
    {caps : Option (Nat × Nat)} (hstep : s.inStep 3 [2] = true) (hmap : s.fuses.mapOk = true) (hlo : 10000 ≤ p) (hhi : p ≤ 1000000) :
    exec (.startupStation true false lost unknown [] xbMode (some p) ports caps) s = .next
      ((((s.readLedger true false lost unknown).bootSet p (ports.getD (0xF, 0xFFFF, 0xFF)) (caps.getD (60000, 10000))).xbModeSet xbMode).stepDone 3) := by
  have hbad : (decide (p < 10000) || decide (1000000 < p)) = false := by simp [hlo, hhi]
  have hfuses : (s.readLedger true false lost unknown).fuses.mapOk = true := by
    rw [show (s.readLedger true false lost unknown).fuses = s.fuses from (congrArg State.fuses (readLedger_spec s lost unknown).1 :), hmap]
  rw [show exec (.startupStation true false lost unknown [] xbMode (some p) ports caps) s =
    execStartupStation true false lost unknown [] xbMode (some p) ports caps s from rfl, execStartupStation, if_neg (by simp [hstep])]
  generalize s.readLedger true false lost unknown = u at hfuses
  dsimp only [Option.getD_some]
  rw [if_neg (by simp), hbad, if_neg Bool.false_ne_true]
  exact congrArg Host.Outcome.next (if_pos hfuses)

theorem startupStation_gives {s : State} {p unknown : Nat} {lost : List (Nat × Nat)} {xbMode copyA : Bool} {ports : Option (Nat × Nat × Nat)}
    {caps : Option (Nat × Nat)} (hstep : s.inStep 3 [2] = true) (hmap : s.fuses.mapOk = true) (hcopy : copyA = true) (hlo : 10000 ≤ p)
    (hhi : p ≤ 1000000) : Gives (.startupStation copyA false lost unknown [] xbMode (some p) ports caps) s fun s' =>
      s'.stepsDone = 3 :: s.stepsDone ∧ s'.bootPeriod = p ∧ (s'.flag F.clkSrcCfg_xb_mode ↔ xbMode) ∧
      (ports = none → s'.bootPorts = (0xF, 0xFFFF, 0xFF)) ∧
      s'.live = (s.ledgerQueue.filter Ledger.isDefect).foldl ledgerWith s.copyA.records := by
  subst hcopy
  refine gives_next (startupStation_eq hstep hmap hlo hhi) ?_
  obtain ⟨hkeep, hlive⟩ := readLedger_spec s lost unknown
  have hsteps : (s.readLedger true false lost unknown).stepsDone = s.stepsDone := (congrArg State.stepsDone hkeep :)
  generalize s.readLedger true false lost unknown = u at hlive hsteps
  refine ⟨congrArg (3 :: ·) hsteps, rfl, ?_, fun hnone => by rw [hnone]; rfl, hlive⟩
  rw [(stepDone_keeps ..).flag_eq (by decide), xbModeSet_flag]

/-! ### LINKS and MEMORY (R761 to R764) -/

/-- The last PCIe port trained: CXL ports and Jalfen links are enabled and train. -/
def State.beginMemory (s : State) : State :=
  let s := s.stepDone 4
  let cxl := (List.range 16).filter s.bootPorts.2.1.testBit
  let jlf := (List.range 8).filter s.bootPorts.2.2.testBit
  let s := s.setEnable 65 s.bootPorts.2.1
  let s := s.setEnable 64 (Nat.lor (s.gf F.clkEnable_en 0 64) (s.bootPorts.2.2 * 256))
  { s with startDeadlines := s.startDeadlines ++ cxl.map (fun p => ((1, p), s.now + 3000000000)) ++
      jlf.map (fun j => ((2, j), s.now + 500000000)) }

/-- What is in training besides CXL ports and Jalfen links. -/
def State.deadline (s : State) (k : Nat × Nat) : Option Nat := mfind s.startDeadlines k

theorem mfind_append_of {κ α : Type} [DecidableEq κ] {m l : Smap κ α} {k : κ} (h : ∀ e ∈ l, e.1 ≠ k) : mfind (m ++ l) k = mfind m k := by
  induction m with
  | nil =>
    refine mfind_of_not_mem fun hk => ?_
    obtain ⟨e, he, rfl⟩ := List.mem_map.1 hk
    exact h e he rfl
  | cons e m ih =>
    obtain ⟨j, v⟩ := e
    change (if j = k then some v else mfind (m ++ l) k) = if j = k then some v else mfind m k
    rw [ih]

/-- MEMORY begun, its ports enabled. -/
def State.memoryEnabled (s : State) : State :=
  let s := s.stepDone 4
  let s := s.setEnable 65 s.bootPorts.2.1
  s.setEnable 64 (Nat.lor (s.gf F.clkEnable_en 0 64) (s.bootPorts.2.2 * 256))

/-- More ports in training. -/
def State.trainToo (s : State) (cxl jlf : List Nat) : State :=
  { s with startDeadlines := s.startDeadlines ++ cxl.map (fun p => ((1, p), s.now + 3000000000)) ++
      jlf.map (fun j => ((2, j), s.now + 500000000)) }

theorem beginMemory_eq (s : State) : s.beginMemory = s.memoryEnabled.trainToo ((List.range 16).filter s.bootPorts.2.1.testBit)
    ((List.range 8).filter s.bootPorts.2.2.testBit) := rfl

theorem memoryEnabled_keeps (s : State) : Keeps State.beyondSteps [.stnStartup, .clkEnable, .clkRunning] s s.memoryEnabled ∧
    s.memoryEnabled.startDeadlines = s.startDeadlines := by
  unfold State.memoryEnabled
  extract_lets a b
  have ha : Keeps State.beyondSteps [.stnStartup] s a := stepDone_keeps ..
  have hab : Marks [.clkEnable, .clkRunning] a b := setEnable_marks a _ (by decide)
  have hnone : a.startDeadlines = s.startDeadlines := rfl
  clear_value b a
  have hlast := hab.trans (setEnable_marks b (i := 64) (Nat.lor (b.gf F.clkEnable_en 0 64) (b.bootPorts.2.2 * 256)) (by decide))
  exact ⟨(ha.mono (by decide)).trans ((Keeps.marks (fun _ => rfl) hlast).mono (by decide)),
    (hlast.beyond_eq State.startDeadlines fun _ => rfl).trans hnone⟩

theorem trainToo_keeps (s : State) (cxl jlf : List Nat) : Keeps State.beyondSteps [] s (s.trainToo cxl jlf) := .quiet rfl fun _ _ _ => rfl

theorem trainToo_deadline (s : State) (cxl jlf : List Nat) {k : Nat × Nat} (h1 : k.1 ≠ 1) (h2 : k.1 ≠ 2) :
    (s.trainToo cxl jlf).deadline k = s.deadline k := by
  have hcxl : ∀ e ∈ cxl.map (fun p => ((1, p), s.now + 3000000000)), e.1 ≠ k := by
    intro e he
    obtain ⟨p, -, rfl⟩ := List.mem_map.1 he
    rintro rfl
    exact h1 rfl
  have hjlf : ∀ e ∈ jlf.map (fun j => ((2, j), s.now + 500000000)), e.1 ≠ k := by
    intro e he
    obtain ⟨p, -, rfl⟩ := List.mem_map.1 he
    rintro rfl
    exact h2 rfl
  exact (mfind_append_of hjlf).trans (mfind_append_of hcxl)

theorem beginMemory_keeps (s : State) : Keeps State.beyondSteps [.stnStartup, .clkEnable, .clkRunning] s s.beginMemory := by
  rw [beginMemory_eq]
  exact (memoryEnabled_keeps s).1.trans (trainToo_keeps ..).more

theorem beginMemory_deadline (s : State) {k : Nat × Nat} (h1 : k.1 ≠ 1) (h2 : k.1 ≠ 2) : s.beginMemory.deadline k = s.deadline k := by
  rw [beginMemory_eq, trainToo_deadline _ _ _ h1 h2, State.deadline, (memoryEnabled_keeps s).2, State.deadline]

/-- LINKS, and with its last port MEMORY. -/
def State.linksStep (s : State) : State :=
  if s.inStep 4 [3] = true ∧ s.flag F.pwrRailStatus_enabled 0 129 = true ∧ [0].any s.portsWait = false then s.beginMemory else s

theorem checkLinks_eq (s : State) : s.checkLinks = if s.linksStep.inStep 7 [4] = true ∧ [0, 1, 2].any s.linksStep.portsWait = false then
    s.linksStep.stepDone 7 else s.linksStep := rfl

theorem checkLinks_keeps (s : State) : Keeps State.beyondSteps [.stnStartup, .clkEnable, .clkRunning] s s.checkLinks := by
  have hstep : Keeps State.beyondSteps [.stnStartup, .clkEnable, .clkRunning] s s.linksStep := by
    unfold State.linksStep
    split
    · exact beginMemory_keeps s
    · exact .refl s
  rw [checkLinks_eq]
  split
  · exact hstep.trans ((stepDone_keeps ..).mono (by decide))
  · exact hstep

theorem checkLinks_deadline (s : State) {k : Nat × Nat} (h1 : k.1 ≠ 1) (h2 : k.1 ≠ 2) : s.checkLinks.deadline k = s.deadline k := by
  have hstep : s.linksStep.deadline k = s.deadline k := by
    unfold State.linksStep
    split
    · exact beginMemory_deadline s h1 h2
    · rfl
  rw [checkLinks_eq]
  split
  · exact hstep
  · exact hstep

/-- Ports that are up rest on one register. -/
theorem portUp_of_keeps {α : Type} {look : State → α} {rs : List Reg} {s s' : State} (h : Keeps look rs s s') (hrs : Reg.stnStartupPorts ∉ rs)
    (kind p : Nat) : s'.portUp kind p = s.portUp kind p := by
  unfold State.portUp
  split
  · rw [h.gf_eq hrs]
  · rw [h.gf_eq hrs]
  · rw [h.gf_eq hrs]

theorem checkLinks_portUp (s : State) (kind p : Nat) : s.checkLinks.portUp kind p = s.portUp kind p := portUp_of_keeps (checkLinks_keeps s) (by decide) kind p

theorem checkLinks_portsDown (s : State) : s.checkLinks.portsDown = s.portsDown := (checkLinks_keeps s).eq_of State.portsDown (·.portsDown) fun _ => rfl

theorem checkLinks_now (s : State) : s.checkLinks.now = s.now := (checkLinks_keeps s).eq_of State.now (·.now) fun _ => rfl

/-- The rails and PLL groups of the rim and the PCIe ports enabled. -/
def State.linksEnabled (s : State) : State :=
  (((s.sf F.pwrRailStatus_enabled 0 129 1).sf F.pwrRailStatus_enabled 0 130 1).each (List.range 4) fun s r => s.setLock (129 + r) true).setEnable 64 s.bootPorts.1

theorem linksEnabled_spec (s : State) : s.linksEnabled.flag F.pwrRailStatus_enabled 0 129 = true ∧
    s.linksEnabled.flag F.pwrRailStatus_enabled 0 130 = true ∧ ∀ r, r < 4 → s.linksEnabled.flag F.clkPllStatus_lock 0 (129 + r) = true := by
  have h129 := State.flag_sf_self s F.pwrRailStatus_enabled 0 129 1 (by decide) (by decide)
  unfold State.linksEnabled
  generalize s.sf F.pwrRailStatus_enabled 0 129 1 = a at h129
  have h130 := State.flag_sf_self a F.pwrRailStatus_enabled 0 130 1 (by decide) (by decide)
  have h129' := State.flag_sf_ne a F.pwrRailStatus_enabled 0 130 1 (g := F.pwrRailStatus_enabled) (u' := 0) (k' := 129) (.inl (by decide)) (by decide)
  generalize a.sf F.pwrRailStatus_enabled 0 130 1 = b at h130 h129'
  have hlocks : Marks [.clkPllStatus] b (b.each (List.range 4) fun s r => s.setLock (129 + r) true) :=
    .each _ _ (fun s r _ => setLock_marks s true (by omega)) b
  have hlocked : ∀ r ∈ List.range 4, (b.each (List.range 4) fun s r => s.setLock (129 + r) true).flag F.clkPllStatus_lock 0 (129 + r) = true := by
    refine State.each_gives (P := fun r s => s.flag F.clkPllStatus_lock 0 (129 + r) = true) (fun s r _ => setLock_lock ..) (fun s r _ q hq => ?_) b
    by_cases hrq : q = r
    · rw [hrq, setLock_lock]
    · rw [setLock_other _ _ (by omega), hq]
  generalize (b.each (List.range 4) fun s r => s.setLock (129 + r) true) = c at hlocks hlocked
  have hen := setEnable_marks c (i := 64) s.bootPorts.1 (by decide)
  refine ⟨?_, ?_, fun r hr => ?_⟩
  · rw [hen.flag_eq (by decide), hlocks.flag_eq (by decide), h129', h129]
    rfl
  · rw [hen.flag_eq (by decide), hlocks.flag_eq (by decide), h130]
    rfl
  · rw [hen.flag_eq (by decide), hlocked r (List.mem_range.2 hr)]

/-- Ports in training. -/
def State.setDeadlines (s : State) (l : Smap (Nat × Nat) Nat) : State := { s with startDeadlines := l }

theorem setDeadlines_keeps (s : State) (l : Smap (Nat × Nat) Nat) : Keeps State.beyondSteps [] s (s.setDeadlines l) := .quiet rfl fun _ _ _ => rfl

theorem startupLinks_gives {s : State} (hstep : s.inStep 4 [3] = true) (hoff : s.flag F.pwrRailStatus_enabled 0 129 = false)
    (hxb : s.flag F.clkSrcStatus_xb_ok = true) : Gives (.startupLinks []) s fun s' =>
      s'.flag F.pwrRailStatus_enabled 0 129 = true ∧ s'.flag F.pwrRailStatus_enabled 0 130 = true ∧
      ∀ r, r < 4 → s'.flag F.clkPllStatus_lock 0 (129 + r) = true := by
  have heq : ∃ l, exec (.startupLinks []) s = .next ((s.linksEnabled.setDeadlines l).checkLinks) := by
    rw [show exec (.startupLinks []) s = execStartupLinks [] s from rfl, execStartupLinks, if_neg (by simp [hstep, hoff]), if_neg (by simp),
      if_neg (by simp [hxb])]
    exact ⟨_, rfl⟩
  obtain ⟨l, heq⟩ := heq
  refine gives_next heq ?_
  obtain ⟨h129, h130, hlock⟩ := linksEnabled_spec s
  have hkeep := (setDeadlines_keeps s.linksEnabled l).more.trans (checkLinks_keeps _)
  exact ⟨(hkeep.flag_eq (by decide) ..).trans h129, (hkeep.flag_eq (by decide) ..).trans h130, fun r hr => (hkeep.flag_eq (by decide) ..).trans (hlock r hr)⟩

end Sys2Proof.Machine
end

section
/-! SUPPORT. The steps of start-up from the ports to READY (R761 to R775, R810). -/

namespace Sys2Proof.Machine

open Sys2Proof.Claims

/-! ### Ports (R761 to R764, R781, R810) -/

/-- A port taken out of training. -/
theorem endTraining_keeps (s : State) (k p : Nat) : Keeps State.beyondSteps [] s (s.endTraining k p) := .quiet rfl fun _ _ _ => rfl

theorem endTraining_deadline (s : State) (k p : Nat) (e : Nat × Nat) : (s.endTraining k p).deadline e = if e = (k, p) then none else s.deadline e :=
  mfind_mdel ..

/-- The clocks of a rim port turned on. -/
def State.rimClock (s : State) (i b : Nat) : State :=
  (s.sf F.clkEnable_en 0 i (setBits (s.gf F.clkEnable_en 0 i) b b 1)).sf F.clkRunning_run 0 i (setBits (s.gf F.clkRunning_run 0 i) b b 1)

theorem rimClock_marks (s : State) (i b : Nat) : Marks [.clkEnable, .clkRunning] s (s.rimClock i b) :=
  .trans (.sf (by decide) (by decide) ..) (.sf (by decide) (by decide) ..)

theorem testBit_sf_up (s : State) (f : RegField) (h : f.hi < 64) (n : Nat) {b : Nat} (hb : b < f.hi + 1 - f.lo) :
    ((s.sf f 0 0 (setBits n b b 1)).gf f).testBit b = true := by
  rw [State.gf_sf_self s f 0 0 _ h rfl, Nat.testBit_mod_two_pow, testBit_setBits, if_pos ⟨le_rfl, le_rfl⟩, decide_eq_true hb, Nat.sub_self]
  rfl

/-- A PCIe port up. -/
def State.pcieUp (s : State) (p : Nat) : State :=
  (s.rimClock 64 p).sf F.stnStartupPorts_pcie 0 0 (setBits (s.gf F.stnStartupPorts_pcie) p p 1)

/-- A Jalfen link up, before its instants are noted. -/
def State.jalfenUp (s : State) (p : Nat) : State :=
  (s.rimClock 64 (8 + p)).sf F.stnStartupPorts_jalfen 0 0 (setBits (s.gf F.stnStartupPorts_jalfen) p p 1)

/-- A Jalfen link whose frames are counted from now on. -/
def State.jalfenFresh (s : State) (p : Nat) : State := s.setJlf p { s.jlf p with lastTx := s.now, lastRx := s.now }

/-- A CXL port up, before its link is shown so. -/
def State.cxlUp (s : State) (p : Nat) : State :=
  ((s.rimClock 65 p).rimClock 65 (16 + p)).sf F.stnStartupPorts_cxl 0 0
    (setBits (((s.rimClock 65 p).rimClock 65 (16 + p)).gf F.stnStartupPorts_cxl) p p 1)

theorem rimUp_pcieEq (s : State) {t : Nat} (h : t < 4) : s.rimUp t = s.pcieUp t := by
  unfold State.rimUp
  extract_lets on
  rw [if_pos h]
  rfl

theorem rimUp_cxlEq (s : State) {t : Nat} (h : ¬ t < 4) (h20 : t < 20) :
    s.rimUp t = (s.cxlUp (t - 4)).sf F.stgEngineStatus_link_down 0 (t - 4) 0 := by
  unfold State.rimUp
  extract_lets on
  rw [if_neg h, if_pos h20]
  rfl

theorem rimUp_jalfenEq (s : State) {t : Nat} (h : ¬ t < 4) (h20 : ¬ t < 20) : 
    s.rimUp t = (s.jalfenUp (t - 20)).jalfenFresh (t - 20) := by
  unfold State.rimUp
  extract_lets on
  rw [if_neg h, if_neg h20]
  rfl

theorem rimUp_pcie (s : State) {p : Nat} (hp : p < 4) : (s.rimUp p).portUp 0 p = true := by
  rw [rimUp_pcieEq s hp, State.pcieUp]
  generalize s.rimClock 64 p = u
  exact testBit_sf_up u F.stnStartupPorts_pcie (by decide) _ hp

theorem rimUp_jalfen (s : State) {p : Nat} (hp : p < 8) : (s.rimUp (20 + p)).portUp 2 p = true := by
  have hup : (s.jalfenUp p).portUp 2 p = true := by
    rw [State.jalfenUp]
    generalize s.rimClock 64 (8 + p) = u
    exact testBit_sf_up u F.stnStartupPorts_jalfen (by decide) _ hp
  rw [rimUp_jalfenEq s (by omega) (by omega), Nat.add_sub_cancel_left]
  exact hup

theorem rimUp_cxl (s : State) {p : Nat} (hp : p < 16) : (s.rimUp (4 + p)).portUp 3 p = true := by
  have hup : (s.cxlUp p).portUp 3 p = true := by
    rw [State.cxlUp]
    generalize (s.rimClock 65 p).rimClock 65 (16 + p) = u
    exact testBit_sf_up u F.stnStartupPorts_cxl (by decide) _ hp
  rw [rimUp_cxlEq s (by omega) (by omega), Nat.add_sub_cancel_left]
  generalize s.cxlUp p = u at hup
  have hlast : Keeps (fun _ => ()) [.stgEngineStatus] u (u.sf F.stgEngineStatus_link_down 0 p 0) := .marks (fun _ => rfl) (.sf (by decide) (by decide) ..)
  rw [portUp_of_keeps hlast (by decide), hup]

theorem pcieLinkUp_gives {s : State} {p : Nat} (hp : p < 4) (htrain : s.training 0 p = true) (hxb : s.flag F.clkSrcStatus_xb_ok = true) :
    Gives (.pcieLinkUp p) s fun s' => s'.portUp 0 p = true ∧ mfind s'.startDeadlines (0, p) = none := by
  have heq : exec (.pcieLinkUp p) s = .next ((s.rimUp p).endTraining 0 p).checkLinks := by
    rw [show exec (.pcieLinkUp p) s = execPcieLinkUp p s from rfl, execPcieLinkUp, onUnit_next hp, if_neg (by simp [htrain, hxb])]
  refine gives_next heq ⟨?_, ?_⟩
  · rw [checkLinks_portUp, portUp_of_keeps (endTraining_keeps ..) (by decide), rimUp_pcie s hp]
  · refine (checkLinks_deadline _ (k := (0, p)) Nat.zero_ne_one (by simp)).trans ?_
    rw [endTraining_deadline, if_pos rfl]

theorem jalfenTrained_gives {s : State} {p : Nat} (hp : p < 8) (hxb : s.flag F.clkSrcStatus_xb_ok = true) (htrain : s.training 2 p = true) :
    Gives (.linkTrained 2 p) s fun s' => s'.portUp 2 p = true := by
  have heq : exec (.linkTrained 2 p) s = .next ((s.rimUp (20 + p)).endTraining 2 p).checkLinks := by
    rw [show exec (.linkTrained 2 p) s = execLinkTrained 2 p s from rfl, execLinkTrained, onUnit_next (by omega), if_neg (by simp [htrain, hxb])]
  refine gives_next heq ?_
  rw [checkLinks_portUp, portUp_of_keeps (endTraining_keeps ..) (by decide), rimUp_jalfen s hp]

theorem cxlTrained_gives {s : State} {p : Nat} (hp : p < 16) (hxb : s.flag F.clkSrcStatus_xb_ok = true) (htrain : s.training 1 p = true) :
    Gives (.linkTrained 1 p) s fun s' => (mfind s'.startDeadlines (3, p)).isSome = true ∧ mfind s'.startDeadlines (1, p) = none := by
  have heq : ∃ t, exec (.linkTrained 1 p) s = .next (s.setDeadlines (mput (mdel s.startDeadlines (1, p)) (3, p) t)) := by
    rw [show exec (.linkTrained 1 p) s = execLinkTrained 1 p s from rfl, execLinkTrained, onUnit_next hp, if_neg (by simp [htrain, hxb])]
    exact ⟨_, rfl⟩
  obtain ⟨t, heq⟩ := heq
  refine gives_next heq ⟨?_, ?_⟩
  · change (mfind (mput _ _ _) _).isSome = true
    rw [mfind_mput_self]
    rfl
  · change mfind (mput _ _ _) _ = none
    rw [mfind_mput, if_neg (by simp), mfind_mdel, if_pos rfl]

/-- A port declared down. -/
def State.portDown (s : State) (k p : Nat) : State := { s with portsDown := s.portsDown ++ [(k, p)] }

theorem mem_portDown (s : State) (k p : Nat) : (k, p) ∈ (s.portDown k p).portsDown := List.mem_append_right _ (List.mem_singleton_self _)

/-- What a port declared down shows. -/
def State.showDown (s : State) (k p : Nat) : State := if k = 1 then s.sf F.stgEngineStatus_link_down 0 p 1 else s.logEv evLinkTrainFail 64 p k

theorem showDown_marks (s : State) (k p : Nat) : Marks [.stgEngineStatus] s (s.showDown k p) := by
  unfold State.showDown
  split
  · exact .sf (by decide) (by decide) ..
  · exact .logEv ..

theorem linkTrainFail_gives {s : State} {p k t : Nat} (hp : p < 16) (hk : k < 3) (hxb : s.flag F.clkSrcStatus_xb_ok = true)
    (hdue : mfind s.startDeadlines (k, p) = some t) (htrain : s.training k p = true) : Gives (.linkTrainFail k p) s fun s' =>
      (k, p) ∈ s'.portsDown ∧ t ≤ s'.now := by
  have heq : exec (.linkTrainFail k p) s = .next ((((s.advanceTo t).endTraining k p).portDown k p).showDown k p).checkLinks := by
    rw [show exec (.linkTrainFail k p) s = execLinkTrainFail k p s from rfl, execLinkTrainFail, onUnit_next hp, hdue]
    dsimp only
    rw [if_neg (by simp [htrain, hxb, hk])]
    rfl
  refine gives_next heq ?_
  have hdown := mem_portDown ((s.advanceTo t).endTraining k p) k p
  have hnow : t ≤ (((s.advanceTo t).endTraining k p).portDown k p).now := Nat.le_max_right ..
  generalize ((s.advanceTo t).endTraining k p).portDown k p = u at hdown hnow
  have hshown := showDown_marks u k p
  rw [checkLinks_portsDown, checkLinks_now, hshown.beyond_eq State.portsDown fun _ => rfl, hshown.beyond_eq State.now fun _ => rfl]
  exact ⟨hdown, hnow⟩

theorem memoryActive_gives {s : State} {p : Nat} (capacity : Nat) (hp : p < 16) (htrain : s.training 3 p = true) :
    Gives (.memoryActive p capacity) s fun s' => s'.portUp 3 p = true := by
  have heq : exec (.memoryActive p capacity) s = .next (if 2 ^ 41 < capacity then
      ((s.rimUp (4 + p)).endTraining 3 p).logEv evCxlCapacityClipped 64 p capacity else (s.rimUp (4 + p)).endTraining 3 p).checkLinks := by
    rw [show exec (.memoryActive p capacity) s = execMemoryActive p capacity s from rfl, execMemoryActive, onUnit_next hp, if_neg (by simp [htrain])]
  refine gives_next heq ?_
  have hup : ((s.rimUp (4 + p)).endTraining 3 p).portUp 3 p = true := by
    rw [portUp_of_keeps (endTraining_keeps ..) (by decide), rimUp_cxl s hp]
  generalize (s.rimUp (4 + p)).endTraining 3 p = u at hup
  have hlog : Keeps (fun _ => ()) [] u (u.logEv evCxlCapacityClipped 64 p capacity) := .marks (fun _ => rfl) (.logEv ..)
  rw [checkLinks_portUp]
  split
  · rw [portUp_of_keeps hlog (by decide), hup]
  · exact hup

theorem memoryTimeout_gives {s : State} {p t : Nat} (hp : p < 16) (hdue : mfind s.startDeadlines (3, p) = some t) (htrain : s.training 3 p = true) :
    Gives (.cxlMemoryTimeout p) s fun s' => (1, p) ∈ s'.portsDown ∧ t ≤ s'.now := by
  have heq : exec (.cxlMemoryTimeout p) s = .next ((s.advanceTo t).memoryDown p) := by
    rw [show exec (.cxlMemoryTimeout p) s = execCxlMemoryTimeout p s from rfl, execCxlMemoryTimeout, onUnit_next hp, hdue]
    dsimp only
    rw [if_neg (by simp [htrain])]
  refine gives_next heq ?_
  have hnow : t ≤ (s.advanceTo t).now := Nat.le_max_right ..
  generalize s.advanceTo t = u at hnow
  unfold State.memoryDown
  extract_lets _ a b
  have ha : (1, p) ∈ a.portsDown ∧ a.now = u.now := ⟨mem_portDown (u.endTraining 3 p) 1 p, rfl⟩
  clear_value a
  obtain ⟨hdown, hanow⟩ := ha
  have hb : Marks [.clkEnable, .stgEngineStatus] a ((b.sf F.stgEngineStatus_link_down 0 p 1).logEv evCxlMemoryTimeout 64 p 0) :=
    .trans (.sf (by decide) (by decide) ..) (.trans (.sf (by decide) (by decide) ..) (.logEv ..))
  rw [checkLinks_portsDown, checkLinks_now, hb.beyond_eq State.portsDown fun _ => rfl, hb.beyond_eq State.now fun _ => rfl, hanow]
  exact ⟨hdown, hnow⟩

theorem ioTimeout_gives {s : State} {p : Nat} (hp : p < 16) (h1 : s.training 1 p = false) (h3 : s.training 3 p = false) (hup : s.portUp 1 p = true) :
    Gives (.cxlIoConfigurationTimeout p) s fun s' => (1, p) ∈ s'.portsDown ∧ s'.portUp 1 p = false := by
  have heq : exec (.cxlIoConfigurationTimeout p) s = .next ((s.portDown 1 p).linkDown (4 + p)) := by
    rw [show exec (.cxlIoConfigurationTimeout p) s = execCxlIoConfigurationTimeout p s from rfl, execCxlIoConfigurationTimeout, onUnit_next hp,
      if_neg (by simp [h1, h3]), if_pos hup]
    rfl
  refine gives_next heq ?_
  have hdown := mem_portDown s 1 p
  generalize s.portDown 1 p = u at hdown
  refine ⟨?_, ?_⟩
  · rw [(linkDown_marks u (4 + p)).beyond_eq State.portsDown fun _ => rfl]
    exact hdown
  · unfold State.linkDown
    rw [if_neg (by omega), if_pos (by omega), Nat.add_sub_cancel_left]
    have hoff := State.testBit_sf_clear u F.stnStartupPorts_cxl 0 0 (by decide) p p
    generalize u.sf F.stnStartupPorts_cxl 0 0 (setBits (u.gf F.stnStartupPorts_cxl) p p 0) = v at hoff
    have hlast : Marks [.stgEngineStatus] v (v.sf F.stgEngineStatus_link_down 0 p 1) := .sf (by decide) (by decide) ..
    change ((v.sf F.stgEngineStatus_link_down 0 p 1).gf F.stnStartupPorts_cxl).testBit p = false
    rw [hlast.gf_eq (by decide), hoff, decide_eq_false (by simp), Bool.false_and]

end Sys2Proof.Machine
end

section
/-! SUPPORT. The steps of start-up FIELDS, BEACON and READY (R765 to R775). -/

namespace Sys2Proof.Machine

open Sys2Proof.Claims

/-! ### FIELDS (R765 to R768) -/

theorem memRead_memClear (m : List Host.Cell) {lo n a : Nat} (hlo : lo ≤ a) (hhi : a < lo + n) : memRead (memClear m lo n) a = 0 := by
  induction m with
  | nil => rfl
  | cons c m ih =>
    unfold memClear at ih ⊢
    rw [List.filter_cons]
    split
    next hkeep =>
      obtain ⟨k, b⟩ := c
      change (if k = a then b else memRead _ a) = 0
      rw [if_neg, ih]
      rintro rfl
      simp [hlo, hhi] at hkeep
    · exact ih

/-- The store of a field cleared, and its failures and rewrites noted. -/
def State.emptyStore (s : State) (f : Nat) : State :=
  { s with
    fst := memClear s.fst (fstAddr f 0) 67108864, fstBad := s.fstBad.filter fun a => a / 67108864 ≠ f
    fstWeak := s.fstWeak.filter fun a => a / 67108864 ≠ f
    fieldFails := mdel s.fieldFails f, rewrites := s.rewrites ++ [(f, s.now)] }

theorem emptyStore_byte (s : State) {f off : Nat} (hoff : off < 67108864) : (s.emptyStore f).fstByte f off = 0 :=
  memRead_memClear _ (by unfold fstAddr; omega) (by unfold fstAddr; omega)

/-- A field that has powered up. -/
def State.awake (s : State) (f : Nat) : State :=
  let s := s.setFld f { watch := (s.fld f).watch, mhz := 1000, lensMhz := 1200 }
  let s := ((s.sf F.fkpStatus_resetting f 0 0).sf F.fkpStatus_fogged f 0 0).sf F.fkpStatus_fenced f 0 0
  (s.sf F.thmStatus_trip f 0 0).setTarget f

/-- The count of tiles shown again, where it is shown. -/
def State.recount (s : State) : State := if s.countWritten then s.writeTileCount.checkGrade else s

/-- A field shown running. -/
def State.showRunning (s : State) (f : Nat) : State := s.sf F.stnStartupFields_running 0 0 (setBits (s.gf F.stnStartupFields_running) f f 1)

theorem powerUpField_eq (s : State) (f : Nat) (test : FieldTest) :
    ∃ u : State, s.powerUpField f test = (((u.emptyStore f).rewriteRouters f fun _ => true).awake f).recount.showRunning f := by
  unfold State.powerUpField
  extract_lets pll due a b c d e g h i lit j failed k l m
  clear_value m
  exact ⟨m, rfl⟩

theorem writeRouter_fst (s : State) (img : Image) (bt : BindTable) (copies : List Nat) (t : Nat) : (s.writeRouter img bt copies t).fst = s.fst := by
  unfold State.writeRouter
  extract_lets a b
  have hb : b.fst = a.fst := by
    refine State.each_same State.fst _ _ (fun _ _ _ => ?_) a
    rfl
  refine (State.each_same State.fst _ _ (fun s c _ => ?_) b).trans hb
  unfold State.writeCopy
  refine State.each_same State.fst _ _ (fun _ _ _ => ?_) s
  rfl

theorem rewriteRouters_fst (s : State) (f : Nat) (which : Nat → Bool) : (s.rewriteRouters f which).fst = s.fst := by
  unfold State.rewriteRouters
  split
  · extract_lets tiles a secs
    have ha : a.fst = s.fst := State.each_same State.fst _ _ (fun s t _ => writeRouter_fst ..) s
    refine (State.each_same State.fst _ _ (fun _ _ _ => ?_) a).trans ha
    rfl
  · rfl

theorem awake_spec (s : State) (f : Nat) : (s.awake f).fst = s.fst ∧ (s.awake f).fld f = { watch := (s.fld f).watch, mhz := 1000, lensMhz := 1200 } := by
  have hset : (s.setFld f { watch := (s.fld f).watch, mhz := 1000, lensMhz := 1200 }).fst = s.fst := rfl
  have hfld : (s.setFld f { watch := (s.fld f).watch, mhz := 1000, lensMhz := 1200 }).fld f = { watch := (s.fld f).watch, mhz := 1000, lensMhz := 1200 } :=
    mget_mput_self ..
  unfold State.awake
  extract_lets a b
  change a.fst = s.fst at hset
  change a.fld f = _ at hfld
  clear_value a
  have hb : Marks [.fkpStatus] a b :=
    .trans (.trans (.sf (by decide) (by decide) ..) (.sf (by decide) (by decide) ..)) (.sf (by decide) (by decide) ..)
  clear_value b
  have hlast : Marks [.thmStatus, .pwrStatus] b ((b.sf F.thmStatus_trip f 0 0).setTarget f) :=
    .trans (.sf (by decide) (by decide) ..) (.sf (by decide) (by decide) ..)
  have hboth := (hb.mono (rs' := [.fkpStatus, .thmStatus, .pwrStatus]) (by decide)).trans (hlast.mono (by decide))
  exact ⟨(hboth.beyond_eq State.fst fun _ => rfl).trans hset, (hboth.beyond_eq (State.fld · f) fun _ => rfl).trans hfld⟩

theorem recount_sheds (s : State) : Sheds s s.recount := by
  unfold State.recount
  split
  · exact (Sheds.refl s).writeTileCount.checkGrade
  · exact .refl s

theorem Sheds.lasting {s s' : State} (h : Sheds s s') (f : Nat) : (s'.fld f).lasting = (s.fld f).lasting :=
  (congrFun (congrArg Prod.snd h.look_eq) f :)

/-- What a field shows that has powered up. -/
structure PoweredUp (f : Nat) (s : State) : Prop where
  running : (s.gf F.stnStartupFields_running).testBit f = true
  fogged : (s.fld f).fogged = false
  held : (s.fld f).held = false
  mhz : (s.fld f).mhz = 1000
  store : ∀ off, off < 67108864 → s.fstByte f off = 0

theorem PoweredUp.sheds {f : Nat} {s s' : State} (h : PoweredUp f s) (hs : Sheds s s') : PoweredUp f s' where
  running := by rw [hs.gf_eq (by decide), h.running]
  fogged := (congrArg FieldSt.fogged (hs.lasting f)).trans h.fogged
  held := (congrArg FieldSt.held (hs.lasting f)).trans h.held
  mhz := (congrArg FieldSt.mhz (hs.lasting f)).trans h.mhz
  store off hoff := by
    have hfst : s'.fst = s.fst := hs.eq_of State.fst (·.1.fst) fun _ => rfl
    rw [State.fstByte, hfst]
    exact h.store off hoff

theorem PoweredUp.stepDone {f : Nat} {s : State} (h : PoweredUp f s) (n : Nat) : PoweredUp f (s.stepDone n) where
  running := by rw [(stepDone_keeps s n).gf_eq (by decide), h.running]
  fogged := h.fogged
  held := h.held
  mhz := h.mhz
  store := h.store

theorem powerUpField_spec (s : State) {f : Nat} (test : FieldTest) (hf : f < 64) : PoweredUp f (s.powerUpField f test) := by
  obtain ⟨u, heq⟩ := powerUpField_eq s f test
  rw [heq]
  have hbyte (off : Nat) (hoff : off < 67108864) : ((u.emptyStore f).rewriteRouters f fun _ => true).fstByte f off = 0 := by
    rw [State.fstByte, rewriteRouters_fst]
    exact emptyStore_byte u hoff
  generalize (u.emptyStore f).rewriteRouters f (fun _ => true) = v at hbyte
  obtain ⟨hfst, hfld⟩ := awake_spec v f
  generalize v.awake f = w at hfst hfld
  have hs := recount_sheds w
  generalize w.recount = x at hs
  have hlast := hs.lasting f
  rw [hfld] at hlast
  refine ⟨testBit_sf_up x F.stnStartupFields_running (by decide) _ hf, (congrArg FieldSt.fogged hlast :), (congrArg FieldSt.held hlast :),
    (congrArg FieldSt.mhz hlast :), fun off hoff => ?_⟩
  change memRead x.fst _ = 0
  rw [hs.eq_of State.fst (·.1.fst) fun _ => rfl, hfst]
  exact hbyte off hoff

theorem fieldHot_gives {s : State} {f : Nat} (test : FieldTest) (hf : f < 64) (hhot : s.tooHot f = true) : Gives (.fieldPowerUp f test) s fun s' => s' = s := by
  have heq : exec (.fieldPowerUp f test) s = .next s := by
    rw [show exec (.fieldPowerUp f test) s = execFieldPowerUp f test s from rfl, execFieldPowerUp, onField_next hf]
    dsimp only
    rw [if_pos (by simp [hhot])]
  exact gives_next heq rfl

theorem fieldPowerUp_gives {s : State} {f : Nat} {test : FieldTest} (hf : f < 64) (hstep : s.inStep 5 [3] = true)
    (hwave : (List.range (f / 8 * 8)).all s.fieldOver = true) (hnot : s.fieldOver f = false) (hcool : s.tooHot f = false) (hok : test.fail = none) :
    Gives (.fieldPowerUp f test) s fun s' => (s'.gf F.stnStartupFields_running).testBit f = true ∧
      (s'.fld f).fogged = false ∧ (s'.fld f).held = false ∧ (s'.fld f).mhz = 1000 ∧ (∀ off, off < 67108864 → s'.fstByte f off = 0) := by
  have heq : exec (.fieldPowerUp f test) s = .next (if (List.range 64).all (s.powerUpField f test).fieldOver then
      ((s.powerUpField f test).writeTileCount.checkGrade).stepDone 5 else s.powerUpField f test) := by
    rw [show exec (.fieldPowerUp f test) s = execFieldPowerUp f test s from rfl, execFieldPowerUp, onField_next hf]
    dsimp only
    rw [if_neg (by simp [hstep, hwave, hnot, hcool]), hok]
  refine gives_next heq ?_
  have hup := powerUpField_spec s test hf
  generalize s.powerUpField f test = u at hup
  suffices h : PoweredUp f (if (List.range 64).all u.fieldOver then (u.writeTileCount.checkGrade).stepDone 5 else u) from
    ⟨h.running, h.fogged, h.held, h.mhz, h.store⟩
  split
  · exact (hup.sheds (Sheds.refl u).writeTileCount.checkGrade).stepDone 5
  · exact hup

/-! ### BEACON and READY (R769, R771) -/

/-- The skews of fields written. -/
def State.writeSkews (s : State) (skews : List Nat) : State := s.each ((List.range 64).zip skews) fun s e => s.sf F.bcnSkewComp_comp e.1 0 e.2

theorem mem_zip_skews {skews : List Nat} {e : Nat × Nat} (he : e ∈ (List.range 64).zip skews) : skews.getD e.1 0 = e.2 := by
  obtain ⟨i, hi⟩ := List.getElem?_of_mem he
  obtain ⟨hindex, hskew⟩ := List.getElem?_zip_eq_some.1 hi
  have hie : i = e.1 := by
    obtain ⟨hlt, hval⟩ := List.getElem?_eq_some_iff.1 hindex
    simpa using hval
  rw [List.getD_eq_getElem?_getD, ← hie, hskew]
  rfl

theorem writeSkews_spec (s : State) {skews : List Nat} (hlen : skews.length = 64) : Marks [.bcnSkewComp] s (s.writeSkews skews) ∧
    ∀ f, f < 64 → (s.writeSkews skews).gf F.bcnSkewComp_comp f = skews.getD f 0 % 65536 := by
  refine ⟨.each _ _ (fun s e _ => .sf (by decide) (by decide) ..) s, fun f hf => ?_⟩
  have hin : (f, skews.getD f 0) ∈ (List.range 64).zip skews := by
    refine List.mem_of_getElem? (i := f) (List.getElem?_zip_eq_some.2 ⟨List.getElem?_range hf, ?_⟩)
    rw [List.getD_eq_getElem?_getD, List.getElem?_eq_getElem (by omega)]
    rfl
  refine State.each_gives (P := fun e s => s.gf F.bcnSkewComp_comp e.1 = skews.getD e.1 0 % 65536) (f := fun s (e : Nat × Nat) => s.sf F.bcnSkewComp_comp e.1 0 e.2)
    (fun s e he => ?_) (fun s a ha b hb => ?_) s (f, skews.getD f 0) hin
  · rw [State.gf_sf_self _ _ _ _ _ (by decide) (by rfl : _ = 65536), mem_zip_skews he]
  · by_cases hab : b.1 = a.1
    · rw [hab, State.gf_sf_self _ _ _ _ _ (by decide) (by rfl : _ = 65536), mem_zip_skews ha]
    · rw [State.gf_sf_ne _ _ _ _ _ (.inl (by decide)) (by simp [hab]), hb]

/-- The beacon runs at the boot period. -/
def State.beaconOn (s : State) : State := (s.sf F.bcnPeriod_period 0 0 s.bootPeriod).sf F.bcnStatus_running 0 0 1

theorem beaconOn_spec (s : State) : Marks [.bcnPeriod, .bcnStatus] s s.beaconOn ∧ s.beaconOn.flag F.bcnStatus_running = true ∧
    s.beaconOn.gf F.bcnPeriod_period = s.bootPeriod % 2 ^ 20 := by
  have hperiod := State.gf_sf_self s F.bcnPeriod_period 0 0 s.bootPeriod (by decide) (by rfl : _ = 2 ^ 20)
  have hmp : Marks [.bcnPeriod] s (s.sf F.bcnPeriod_period 0 0 s.bootPeriod) := .sf (by decide) (by decide) ..
  unfold State.beaconOn
  generalize s.sf F.bcnPeriod_period 0 0 s.bootPeriod = u at hperiod hmp
  have hrun := State.flag_sf_self u F.bcnStatus_running 0 0 1 (by decide) (by decide)
  have hmr : Marks [.bcnStatus] u (u.sf F.bcnStatus_running 0 0 1) := .sf (by decide) (by decide) ..
  exact ⟨(hmp.mono (by decide)).trans (hmr.mono (by decide)), hrun.trans rfl, (hmr.gf_eq (by decide) ..).trans hperiod⟩

theorem intakeBlock_keeps (s : State) (b : Nat) : Keeps (fun s => ({ s with regs := [], buoyBlocks := [], buoys := [] } : State)) [] s (s.intakeBlock b) := by
  unfold State.intakeBlock
  extract_lets _ u v
  have hu : Keeps (fun s => ({ s with regs := [], buoyBlocks := [], buoys := [] } : State)) [] s v := .quiet rfl fun _ _ _ => rfl
  refine hu.trans (.each _ _ (fun _ _ _ => ?_) v)
  exact .quiet rfl fun _ _ _ => rfl

/-- The instant of the first beacon. -/
def State.firstBeacon (s : State) (t : Nat) : State := { s with lastBeacon := t, minuteLog := none }

theorem firstBeacon_keeps (s : State) (t : Nat) : Keeps (fun _ => ()) [] s (s.firstBeacon t) := .quiet rfl fun _ _ _ => rfl

theorem beaconStart_gives {s : State} {skews : List Nat} (hstep : s.inStep 6 [5] = true) (hoff : s.flag F.bcnStatus_running = false)
    (hhold : s.flag F.clkSrcStatus_holdover = false) (hlock : s.flag F.clkSrcStatus_stn_lock = true) (hlen : skews.length = 64) :
    Gives (.beaconStart skews) s fun s' =>
      (∀ f, f < 64 → s'.gf F.bcnSkewComp_comp f = skews.getD f 0 % 65536) ∧
      s'.flag F.bcnStatus_running = true ∧ s'.gf F.bcnPeriod_period = s.bootPeriod % 2 ^ 20 ∧ s'.lastBeacon = s.now ∧
      s'.stationWatch = s.stationWatch := by
  have heq : exec (.beaconStart skews) s = .next (((s.writeSkews skews).beaconOn.intakeBlock 64).firstBeacon
      (s.writeSkews skews).beaconOn.now) := by
    rw [show exec (.beaconStart skews) s = execBeaconStart skews s from rfl, execBeaconStart, if_neg (by simp [hstep, hoff, hhold, hlock, hlen])]
    rfl
  refine gives_next heq ?_
  obtain ⟨hwritten, hskews⟩ := writeSkews_spec s hlen
  have hboot : (s.writeSkews skews).bootPeriod = s.bootPeriod := hwritten.beyond_eq State.bootPeriod fun _ => rfl
  have hnow : (s.writeSkews skews).now = s.now := hwritten.beyond_eq State.now fun _ => rfl
  have hwatch : (s.writeSkews skews).stationWatch = s.stationWatch := hwritten.gf_eq (by decide) ..
  generalize s.writeSkews skews = a at hskews hboot hnow hwatch
  obtain ⟨hon, hrun, hperiod⟩ := beaconOn_spec a
  have honnow : a.beaconOn.now = a.now := hon.beyond_eq State.now fun _ => rfl
  generalize a.beaconOn = b at hon hrun hperiod honnow
  have hintake := intakeBlock_keeps b 64
  generalize b.intakeBlock 64 = c at hintake
  have hfirst := firstBeacon_keeps c b.now
  refine ⟨fun f hf => ?_, ?_, ?_, honnow.trans hnow, ?_⟩
  · rw [hfirst.gf_eq (by decide), hintake.gf_eq (by decide), hon.gf_eq (by decide), hskews f hf]
  · rw [hfirst.flag_eq (by decide), hintake.flag_eq (by decide), hrun]
  · rw [hfirst.gf_eq (by decide), hintake.gf_eq (by decide), hperiod, hboot]
  · rw [State.stationWatch, hfirst.gf_eq (by decide), hintake.gf_eq (by decide), hon.gf_eq (by decide)]
    exact hwatch

/-- READY shown, and step READY done. -/
def State.showReady (s : State) (ms : Nat) : State :=
  (((s.sf F.stnStartup_ready 0 0 1).sf F.stnStartup_elapsed_ms 0 0 ms).stepDone 8).sf F.stnStartup_step 0 0 8

theorem stepDone_ready (s : State) (n : Nat) : (s.stepDone n).flag F.stnStartup_ready = s.flag F.stnStartup_ready := by
  unfold State.stepDone
  extract_lets u
  have hu : Keeps (fun _ => ()) [] s u := .quiet rfl fun _ _ _ => rfl
  clear_value u
  rw [State.flag_sf_apart u F.stnStartup_step 0 0 _ (g := F.stnStartup_ready) rfl (by decide), hu.flag_eq (by decide)]

theorem showReady_spec (s : State) (ms : Nat) : (s.showReady ms).ready = true ∧ (s.showReady ms).gf F.stnStartup_step = 8 := by
  have hready := State.flag_sf_self s F.stnStartup_ready 0 0 1 (by decide) (by decide)
  unfold State.showReady
  generalize s.sf F.stnStartup_ready 0 0 1 = a at hready
  have hms := State.flag_sf_apart a F.stnStartup_elapsed_ms 0 0 ms (g := F.stnStartup_ready) rfl (by decide)
  generalize a.sf F.stnStartup_elapsed_ms 0 0 ms = b at hms
  have hb := stepDone_ready b 8
  generalize b.stepDone 8 = c at hb
  refine ⟨?_, State.gf_sf_self c F.stnStartup_step 0 0 8 (by decide) (by rfl : _ = 16)⟩
  rw [State.ready, State.flag_sf_apart c F.stnStartup_step 0 0 8 (g := F.stnStartup_ready) rfl (by decide), hb, hms, hready]
  rfl

/-- The foghorn released. -/
def State.silence (s : State) : State := (s.sf F.stnFoghorn_asserted 0 0 0).sf F.stnFoghorn_cause 0 0 0

theorem silence_spec (s : State) : Marks [.stnFoghorn] s s.silence ∧ s.silence.flag F.stnFoghorn_asserted = false ∧
    s.silence.gf F.stnFoghorn_cause = 0 := by
  have hoff := State.flag_sf_self s F.stnFoghorn_asserted 0 0 0 (by decide) (by decide)
  have hm : Marks [.stnFoghorn] s (s.sf F.stnFoghorn_asserted 0 0 0) := .sf (by decide) (by decide) ..
  unfold State.silence
  generalize s.sf F.stnFoghorn_asserted 0 0 0 = a at hoff hm
  refine ⟨hm.trans (.sf (by decide) (by decide) ..), ?_, State.gf_sf_self a F.stnFoghorn_cause 0 0 0 (by decide) (by rfl : _ = 64)⟩
  rw [State.flag_sf_apart a F.stnFoghorn_cause 0 0 0 (g := F.stnFoghorn_asserted) rfl (by decide), hoff]
  rfl

/-- The watches of READY begun. -/
def State.watchReady (s : State) : State := { s with wdogFrom := s.now, fogAutoAt := none, stationRetried := false }

theorem watchReady_keeps (s : State) : Keeps (fun _ => ()) [] s s.watchReady := .quiet rfl fun _ _ _ => rfl

theorem endReset_keeps (s : State) (d t : Nat) : Keeps (fun _ => ()) [.rstStatus, .hstMboxStatus, .hstMboxResult] s (s.endReset d t) := by
  unfold State.endReset
  extract_lets a b
  have ha : Keeps (fun _ => ()) [.rstStatus] s a := .quiet rfl fun _ _ _ => rfl
  clear_value a
  have hb : Keeps (fun _ => ()) [.rstStatus] a b := by
    unfold b
    split
    · exact .marks (fun _ => rfl) (.sf (by decide) (by decide) ..)
    · exact .refl a
  clear_value b
  have hdone : Keeps (fun _ => ()) [.hstMboxStatus, .hstMboxResult] b (b.finishOp (.reset d t) mbOk []) :=
    .each _ _ (fun s u _ => (mboxDone_keeps s u mbOk []).weaken (fun _ => ()) (fun _ => rfl) (by decide)) b
  exact ((ha.mono (by decide)).trans (hb.mono (by decide))).trans (hdone.mono (by decide))

theorem startupReady_gives {s : State} (hhalt : s.halted = false) (hnot : s.ready = false) (h6 : s.stepsDone.contains 6 = true)
    (h7 : s.stepsDone.contains 7 = true) : Gives .startupReady s fun s' => s'.ready = true ∧ s'.gf F.stnStartup_step = 8 ∧
      s'.flag F.stnFoghorn_asserted = false ∧ s'.gf F.stnFoghorn_cause = 0 := by
  have heq : ∃ ms d, exec .startupReady s = .next
      (((((s.showReady ms).logEv evStartupReady 64 64 ms).logEv evResetCause 64 64 d).silence.watchReady).endReset 5 0) := by
    rw [show exec .startupReady s = execStartupReady s from rfl, execStartupReady, if_neg (by rw [hhalt, hnot, h6, h7]; decide)]
    exact ⟨_, _, rfl⟩
  obtain ⟨ms, d, heq⟩ := heq
  refine gives_next heq ?_
  obtain ⟨hready, hstep⟩ := showReady_spec s ms
  have hlog : Marks [] (s.showReady ms) (((s.showReady ms).logEv evStartupReady 64 64 ms).logEv evResetCause 64 64 d) := .trans (.logEv ..) (.logEv ..)
  generalize s.showReady ms = a at hready hstep hlog
  generalize (a.logEv evStartupReady 64 64 ms).logEv evResetCause 64 64 d = b at hlog
  obtain ⟨hsilent, hoff, hcause⟩ := silence_spec b
  generalize b.silence = c at hsilent hoff hcause
  have hend := (watchReady_keeps c).more.trans (endReset_keeps c.watchReady 5 0)
  refine ⟨?_, ?_, ?_, ?_⟩
  · rw [State.ready, hend.flag_eq (by decide), hsilent.flag_eq (by decide), hlog.flag_eq (by decide)]
    exact hready
  · rw [hend.gf_eq (by decide), hsilent.gf_eq (by decide), hlog.gf_eq (by decide), hstep]
  · rw [hend.flag_eq (by decide), hoff]
  · rw [hend.gf_eq (by decide), hcause]

theorem startupFail_gives {s : State} {k : Nat} (hhalt : s.halted = false) (hnot : s.ready = false) (hk : k < 8)
    (hopen : s.stepsDone.contains k = false) : Gives (.startupFail k) s fun s' =>
      s'.flag F.stnStartup_failed = true ∧ s'.halted = true ∧ s'.flag F.stnFoghorn_asserted = true := by
  have heq : exec (.startupFail k) s = .next (((s.sf F.stnStartup_failed 0 0 1).logEv evStartupFail 64 64 k).foghorn 1 false (evCode evStartupFail)) := by
    rw [show exec (.startupFail k) s = execStartupFail k s from rfl, execStartupFail, if_neg (by rw [hhalt, hnot, hopen]; simp [hk]), State.failStartup]
  refine gives_next heq ?_
  have hfailed := State.flag_sf_self s F.stnStartup_failed 0 0 1 (by decide) (by decide)
  generalize s.sf F.stnStartup_failed 0 0 1 = a at hfailed
  have hlog : Marks [] a (a.logEv evStartupFail 64 64 k) := .logEv ..
  generalize a.logEv evStartupFail 64 64 k = b at hlog
  rw [foghorn_eq]
  obtain ⟨halarm, hassert, hbit⟩ := alarm_spec b (bit := 1) (by decide)
  have hdue := autoDue_keeps (b.alarm 1) 1
  refine ⟨?_, ?_, ?_⟩
  · rw [hdue.flag_eq (by decide), halarm.flag_eq (by decide), hlog.flag_eq (by decide), hfailed]
    rfl
  · rw [State.halted, hdue.gf_eq (by decide), hbit]
  · rw [hdue.flag_eq (by decide), hassert]

end Sys2Proof.Machine

namespace Sys2Proof.Claims

open Sys2Proof.Machine

/-- Settles O52: what each step of start-up leaves, from the boot ROM to READY, and a step that fails. -/
theorem startUpSteps : Obligations.StartUpSteps := by
  intro s a b copy p f k t capacity unknown lost xbMode copyA ports caps skews test
  exact ⟨bootRom_gives, recovery_gives, startupClocks_gives, startupStation_gives, startupLinks_gives, pcieLinkUp_gives, jalfenTrained_gives,
    cxlTrained_gives, linkTrainFail_gives, memoryActive_gives capacity, memoryTimeout_gives, ioTimeout_gives,
    fun hf _ _ _ hhot => fieldHot_gives test hf hhot, fieldPowerUp_gives, beaconStart_gives, startupReady_gives, startupFail_gives⟩

end Sys2Proof.Claims
end

section
/-! SUPPORT. Writing an image's content leaves the image registers, the load under way and the mailbox alone (R596, R602, R853). -/

namespace Sys2Proof.Machine

-- Arguments that default to a tactic of this text wait for the checks of all before it: one theorem at a time keeps the waiting few.
set_option Elab.async false

open Sys2Proof.Claims

/-- What the Keeper holds of images and records, and the commands that wait. -/
def State.imaged (s : State) : List (Nat × MboxOp) × Option Image × Option BindTable × Option LoadRun × Option Image ×
    Option BindTable × Option (List Defect) × List Ledger × Fuses :=
  (s.mboxJobs, s.loaded, s.loadedBind, s.loadRun, s.candidate, s.boundTo, s.bindMap, s.live, s.fuses)

/-- The registers that show how far an image is, and how its commands ended. -/
def imageShown : List Reg := [.stnImageLoaded, .stnImageId, .stnImageStatus, .stnBindStatus, .hstMboxStatus]

/-- Work that leaves what `look` reads of a state, and the registers of `shown`, as they were. -/
structure Holds {α : Type} (look : State → α) (shown : List Reg) (s s' : State) : Prop where
  view : look s' = look s
  shown : ∀ r u k, r ∈ shown → s'.rd r u k = s.rd r u k

/-- Registers whose unwritten word rests on the rest of a state. -/
def derivedRegs : List Reg := [.stnGrade, .stnOwner, .stnImageFloor, .stnKeyFloor, .stnDebugKey, .pwrVfCore, .pwrVfLens, .pwrStatus, .mshPortCfg,
  .mshTileSector]

/-- Every other register's unwritten word is a constant, so what it reads rests on what was written. -/
theorem rd_of_plain {s s' : State} {r : Reg} {u k : Nat} (hr : r ∉ derivedRegs)
    (hregs : ∀ d, mget d s'.regs ⟨r, u, k⟩ = mget d s.regs ⟨r, u, k⟩) : s'.rd r u k = s.rd r u k := by
  have hdef : s'.regDefault ⟨r, u, k⟩ = s.regDefault ⟨r, u, k⟩ := by
    have hne {q : Reg} (hq : q ∈ derivedRegs) : r ≠ q := fun heq => hr (heq ▸ hq)
    unfold State.regDefault
    split
    case h_1 h => exact absurd h (hne (by decide))
    case h_2 h => exact absurd h (hne (by decide))
    case h_3 h => exact absurd h (hne (by decide))
    case h_4 h => exact absurd h (hne (by decide))
    case h_5 h => exact absurd h (hne (by decide))
    case h_6 h => exact absurd h (hne (by decide))
    case h_7 h => exact absurd h (hne (by decide))
    case h_8 h => exact absurd h (hne (by decide))
    case h_9 h => exact absurd h (hne (by decide))
    rfl
  rw [State.rd, hdef, hregs, State.rd]

namespace Holds
variable {α : Type} {look : State → α} {shown : List Reg} {s₀ s s' : State}

theorem refl (s : State) : Holds look shown s s := ⟨rfl, fun _ _ _ _ => rfl⟩

theorem trans (h : Holds look shown s₀ s) (h' : Holds look shown s s') : Holds look shown s₀ s' :=
  ⟨h'.view.trans h.view, fun r u k hr => (h'.shown r u k hr).trans (h.shown r u k hr)⟩

theorem gf_eq (h : Holds look shown s s') {f : RegField} (u k : Nat) (hf : f.reg ∈ shown := by decide) : s'.gf f u k = s.gf f u k := by
  rw [State.gf, h.shown _ _ _ hf, State.gf]

theorem flag_eq (h : Holds look shown s s') {f : RegField} (u k : Nat) (hf : f.reg ∈ shown := by decide) : s'.flag f u k = s.flag f u k := by
  rw [State.flag, h.gf_eq _ _ hf, State.flag]

/-- What is read off the look is as it was. -/
theorem eq_of {β : Type} (h : Holds look shown s s') (f : State → β) (g : α → β) (hf : ∀ s : State, f s = g (look s)) : f s' = f s := by
  rw [hf, h.view, hf]

/-- An effect on nothing that is looked at. -/
theorem set (h : Holds look shown s₀ s) (hview : look s' = look s := by rfl) (hregs : s'.regs = s.regs := by rfl)
    (hplain : ∀ r ∈ shown, r ∉ derivedRegs := by decide) : Holds look shown s₀ s' :=
  h.trans ⟨hview, fun r _ _ hr => rd_of_plain (hplain r hr) fun _ => by rw [hregs]⟩

theorem wr {r : Reg} {u k : Nat} {w : BitVec 64} (h : Holds look shown s₀ s) (hr : r ∉ shown := by decide)
    (hview : look (s.wr r u k w) = look s := by rfl) (hplain : ∀ r ∈ shown, r ∉ derivedRegs := by decide) :
    Holds look shown s₀ (s.wr r u k w) := by
  refine h.trans ⟨hview, fun r' u' k' hr' => rd_of_plain (hplain r' hr') fun _ => ?_⟩
  have hne : (⟨r', u', k'⟩ : RegKey) ≠ ⟨r, u, k⟩ := fun heq => hr (by rwa [← show r' = r from congrArg RegKey.reg heq])
  exact mget_mput_ne _ _ _ hne

theorem sf {f : RegField} {u k v : Nat} (h : Holds look shown s₀ s) (hr : f.reg ∉ shown := by decide)
    (hview : ∀ w, look (s.wr f.reg u k w) = look s := by exact fun _ => rfl) (hplain : ∀ r ∈ shown, r ∉ derivedRegs := by decide) :
    Holds look shown s₀ (s.sf f u k v) := h.wr hr (hview _) hplain

theorem marks {rs : List Reg} (h : Holds look shown s₀ s) (hm : Marks rs s s') (hrs : ∀ r ∈ shown, r ∉ rs)
    (hlook : ∀ s : State, look s.beyondMarks = look s := by exact fun _ => rfl) : Holds look shown s₀ s' :=
  h.trans ⟨hm.beyond_eq look hlook, fun r u k hr => hm.regs r u k (hrs r hr)⟩

theorem logEv {ev : Ev} {f loc detail : Nat} (h : Holds look shown s₀ s)
    (hlook : ∀ s : State, look s.beyondMarks = look s := by exact fun _ => rfl) : Holds look shown s₀ (s.logEv ev f loc detail) :=
  h.marks (rs := []) (.logEv ..) (fun _ _ => List.not_mem_nil) hlook

theorem ite {c : Prop} [Decidable c] {a b : State} (ha : Holds look shown s₀ a) (hb : Holds look shown s₀ b) :
    Holds look shown s₀ (if c then a else b) := by
  split
  · exact ha
  · exact hb

theorem each {β : Type} {l : List β} {f : State → β → State} (h : Holds look shown s₀ s)
    (hf : ∀ (s : State) (a : β), Holds look shown s₀ s → Holds look shown s₀ (f s a)) : Holds look shown s₀ (s.each l f) := by
  induction l generalizing s with
  | nil => exact h
  | cons a l ih => exact ih (hf s a h)

/-! ### Sectors and fields -/

theorem setSec {k : Nat} {x : SectorSt} (h : Holds look shown s₀ s) (hview : look (s.setSec k x) = look s := by rfl)
    (hplain : ∀ r ∈ shown, r ∉ derivedRegs := by decide) : Holds look shown s₀ (s.setSec k x) := h.set hview rfl hplain

theorem updSec {k : Nat} {f : SectorSt → SectorSt} (h : Holds look shown s₀ s)
    (hview : ∀ x, look (s.setSec k x) = look s := by exact fun _ => rfl) (hplain : ∀ r ∈ shown, r ∉ derivedRegs := by decide) :
    Holds look shown s₀ (s.updSec k f) := by
  unfold State.updSec
  split
  · exact h.setSec (hview _) hplain
  · exact h

theorem setFld {f : Nat} {x : FieldSt} (h : Holds look shown s₀ s) (hview : look (s.setFld f x) = look s := by rfl)
    (hplain : ∀ r ∈ shown, r ∉ derivedRegs := by decide) : Holds look shown s₀ (s.setFld f x) := h.set hview rfl hplain

theorem dueDrain {sec : Nat} (h : Holds look shown s₀ s)
    (hview : ∀ (s : State) f (d : List (Nat × Nat)), look (s.setFld f { s.fld f with drainDue := d }) = look s := by exact fun _ _ _ => rfl)
    (hplain : ∀ r ∈ shown, r ∉ derivedRegs := by decide) : Holds look shown s₀ (s.dueDrain sec) :=
  h.each fun _ _ h => .ite h (h.setFld (hview ..) hplain)

end Holds

theorem plain_shown : ∀ r ∈ imageShown, r ∉ derivedRegs := by decide

/-- Work on content: neither the Keeper's view of images nor the registers that show it change. -/
abbrev Fills (s s' : State) : Prop := Holds State.imaged imageShown s s'

namespace Holds
variable {s₀ s s' : State}

theorem jobs (h : Fills s s') : s'.mboxJobs = s.mboxJobs := h.eq_of State.mboxJobs (·.1) fun _ => rfl

theorem loaded (h : Fills s s') : s'.loaded = s.loaded := h.eq_of State.loaded (·.2.1) fun _ => rfl

theorem loadRun (h : Fills s s') : s'.loadRun = s.loadRun := h.eq_of State.loadRun (·.2.2.2.1) fun _ => rfl

theorem candidate (h : Fills s s') : s'.candidate = s.candidate := h.eq_of State.candidate (·.2.2.2.2.1) fun _ => rfl

theorem boundTo (h : Fills s s') : s'.boundTo = s.boundTo := h.eq_of State.boundTo (·.2.2.2.2.2.1) fun _ => rfl

theorem bindMap (h : Fills s s') : s'.bindMap = s.bindMap := h.eq_of State.bindMap (·.2.2.2.2.2.2.1) fun _ => rfl

theorem live (h : Fills s s') : s'.live = s.live := h.eq_of State.live (·.2.2.2.2.2.2.2.1) fun _ => rfl

theorem fuses (h : Fills s s') : s'.fuses = s.fuses := h.eq_of State.fuses (·.2.2.2.2.2.2.2.2) fun _ => rfl

/-- The map of records rests on the records and the fuses. -/
theorem merged (h : Fills s s') : s'.merged = s.merged := by
  rw [State.merged, State.liveDefects, h.live, h.fuses, State.merged, State.liveDefects]

theorem refuse {f : Nat} {req : Requester} {addr : Nat} (h : Fills s₀ s) : Fills s₀ (s.refuse f req addr) := h.logEv

/-! ### Content of fields -/

theorem writeRegion {x : ImgRegion} (h : Fills s₀ s) : Fills s₀ (s.writeRegion x) := h.wr.wr.wr.sf

theorem writeMv {x : ImgMv} (h : Fills s₀ s) : Fills s₀ (s.writeMv x) := by
  unfold State.writeMv
  extract_lets s1
  have h1 : Fills s₀ s1 := h.each fun _ _ h => h.wr
  clear_value s1
  exact h1.sf.sf

theorem dropLens {l : Nat} (h : Fills s₀ s) : Fills s₀ { s with lenses := mdel s.lenses l } := h.set

theorem writeLens {bt : BindTable} {x : ImgLens} (h : Fills s₀ s) : Fills s₀ (s.writeLens bt x) := by
  unfold State.writeLens
  extract_lets l s1 s2 s3 s4 s5 bit s6 s7
  have h2 : Fills s₀ s2 := Holds.each h.wr fun _ _ h => h.wr
  clear_value s2
  have h3 : Fills s₀ s3 := h2.each fun _ _ h => h.wr
  clear_value s3
  have h4 : Fills s₀ s4 := h3.each fun _ _ h => h.wr
  clear_value s4
  have h5 : Fills s₀ s5 := h4.each fun _ _ h => h.wr
  clear_value s5
  exact h5.dropLens.sf.sf

theorem writeGroups {img : Image} {blocks : List Nat} (h : Fills s₀ s) : Fills s₀ (s.writeGroups img blocks) :=
  h.each fun _ _ h => h.each fun _ _ h => h.wr

theorem setBuoy {b i : Nat} {x : Buoy} (h : Fills s₀ s) : Fills s₀ (s.setBuoy b i x) := h.set

theorem writeBuoy {x : ImgBuoy} (h : Fills s₀ s) : Fills s₀ (s.writeBuoy x) := h.wr.wr.wr.setBuoy

theorem writeFields {img : Image} {bt : BindTable} {inField : Nat → Bool} (h : Fills s₀ s) : Fills s₀ (s.writeFields img bt inField) :=
  ((((h.each fun _ _ h => h.writeRegion).each fun _ _ h => h.writeMv).each fun _ _ h => h.writeLens).writeGroups).each
    fun _ _ h => h.writeBuoy

theorem writeTree {x : ImgSpec} (h : Fills s₀ s) : Fills s₀ (s.writeTree x) := h.each fun _ _ h => h.wr

/-! ### Content of tiles -/

theorem writeSeg {img : Image} {t : Nat} {g : ImgSeg} (h : Fills s₀ s) : Fills s₀ (s.writeSeg img t g) := by
  unfold State.writeSeg
  split
  · exact h
  · exact h.set

theorem writeConst {bt : BindTable} {t : Nat} {c : ImgConst} (h : Fills s₀ s) : Fills s₀ (s.writeConst bt t c) := h.set

theorem writeTile {img : Image} {bt : BindTable} {l : Nat} (h : Fills s₀ s) : Fills s₀ (s.writeTile img bt l) := by
  unfold State.writeTile
  extract_lets t s1 s2 s3
  have h2 : Fills s₀ s2 := by
    dsimp only [s2]
    split
    · exact h.sf
    · exact Holds.each (Holds.wr (Holds.wr h.sf)) fun _ _ h => h.writeSeg
  clear_value s2
  have h3 : Fills s₀ s3 := h2.each fun _ _ h => h.writeConst
  clear_value s3
  exact (h3.each fun _ _ h => h.wr.wr.wr.wr).each fun _ _ h => h.wr.wr

theorem writeRouter {img : Image} {bt : BindTable} {copies : List Nat} {t : Nat} (h : Fills s₀ s) :
    Fills s₀ (s.writeRouter img bt copies t) :=
  (h.sf.each fun _ _ h => h.wr).each fun _ _ h => h.each fun _ _ h => h.wr

theorem clearTiles {which : Nat → Bool} (h : Fills s₀ s) : Fills s₀ (s.clearTiles which) := by
  refine h.trans ⟨rfl, fun r u k hr => rd_of_plain (plain_shown r hr) fun _ => Sheds.mget_filter_of fun _ => ?_⟩
  have htile : r ∉ tileRegs := by
    have hall : ∀ r ∈ imageShown, r ∉ tileRegs := by decide
    exact hall r hr
  simp [htile]

theorem resetTile {t : Nat} (h : Fills s₀ s) : Fills s₀ (s.resetTile t) := Holds.clearTiles h.set

theorem resetForPatch {t : Nat} (h : Fills s₀ s) : Fills s₀ (s.resetForPatch t) := h.resetTile.each fun _ _ h => h.wr

theorem dropPatched {p base : Image} {bt : BindTable} (h : Fills s₀ s) : Fills s₀ (s.dropPatched p base bt) :=
  h.each fun _ _ h => h.resetForPatch.writeRouter

/-! ### An image written, a sector patched -/

theorem setSettle {n : Nat} (h : Fills s₀ s) : Fills s₀ (s.setSettle n) := h.set

theorem writeBounds {img : Image} (h : Fills s₀ s) : Fills s₀ (s.writeBounds img) := h.each fun _ _ h => h.each fun _ _ h => h.wr

theorem withMcast {m : List (Nat × List Nat)} (h : Fills s₀ s) : Fills s₀ { s with mcast := m } := h.set

theorem writeImage {img : Image} {bt : BindTable} (h : Fills s₀ s) : Fills s₀ (s.writeImage img bt) := by
  unfold State.writeImage
  extract_lets s1 s2 s3 s4 s5 s6 s7
  have h1 : Fills s₀ s1 := h.setSettle
  clear_value s1
  have h2 : Fills s₀ s2 := h1.writeFields
  clear_value s2
  have h3 : Fills s₀ s3 := h2.each fun _ _ h => h.writeRouter
  clear_value s3
  have h4 : Fills s₀ s4 := h3.each fun _ _ h => h.each fun _ _ h => h.sf
  clear_value s4
  have h5 : Fills s₀ s5 := h4.each fun _ _ h => h.writeTree
  clear_value s5
  have h6 : Fills s₀ s6 := h5.each fun _ _ h => h.writeTile
  clear_value s6
  exact h6.writeBounds.withMcast

theorem patchSector {img : Image} {bt : BindTable} {k : Nat} (h : Fills s₀ s) : Fills s₀ (s.patchSector img bt k) :=
  ((h.each fun _ _ h => h.resetForPatch.writeRouter).each fun _ _ h => h.writeTile).each fun _ _ h => h.wr

theorem withFields {m : Smap Nat FieldSt} (h : Fills s₀ s) : Fills s₀ { s with fields := m } := h.set

theorem restartSectors {secs : List Nat} (h : Fills s₀ s) : Fills s₀ (s.restartSectors secs) := (h.each fun _ _ h => h.updSec).withFields

/-! ### The lock, a sector lost, what a live record rewrites -/

/-- No register that shows an image has a field under the lock. -/
theorem relocked_shown {r : Reg} (hr : r ∈ imageShown) (w old : Nat) : r.relocked w old = w := by
  have hnone : ∀ r ∈ imageShown, r.fields.filter (fun f => f.acc = .rwl) = [] := by decide
  rw [Reg.relocked, hnone r hr]
  rfl

theorem unwrite {w : RwlWrite} (h : Fills s₀ s) : Fills s₀ (s.unwrite w) := by
  unfold State.unwrite
  extract_lets k s1
  suffices h1 : Fills s₀ s1 from h1.refuse
  refine .ite h.set ?_
  by_cases hk : k.reg ∈ imageShown
  · rw [relocked_shown hk]
    refine h.trans ⟨rfl, fun r u i _ => ?_⟩
    have hport : k.reg ≠ .mshTileSector := fun heq => absurd (heq ▸ hk) (by decide)
    rw [State.rd_wr _ _ _ _ _ _ _ _ (.inr hport)]
    split
    · next heq =>
      rw [← (RegKey.mk.inj heq).1, ← (RegKey.mk.inj heq).2.1, ← (RegKey.mk.inj heq).2.2]
      simp
    · rfl
  · exact h.wr hk

theorem locked {ws : List RwlWrite} {open_ : List (Nat × Nat)} (h : Fills s₀ s) : Fills s₀ { s with rwlWrites := ws, unlocked := open_ } := h.set

theorem engageLock {keeper : Bool} (h : Fills s₀ s) : Fills s₀ (s.engageLock keeper) := by
  unfold State.engageLock
  extract_lets ws s1
  have h1 : Fills s₀ s1 := h.each fun _ _ h => h.unwrite
  clear_value s1
  exact h1.locked

theorem sectorDown {sec code : Nat} (h : Fills s₀ s) : Fills s₀ (s.sectorDown sec code) := by
  unfold State.sectorDown
  split
  · exact h
  · exact .ite h h.setSec.logEv.dueDrain

theorem resourceLost {d : Defect} {code : Nat} (h : Fills s₀ s) : Fills s₀ (s.resourceLost d code) := by
  unfold State.resourceLost
  split
  · exact h.each fun _ _ h => h.sectorDown
  · exact h

theorem graded {below : Bool} (h : Fills s₀ s) : Fills s₀ { s with belowGrade := below } := h.set

theorem checkGrade (h : Fills s₀ s) : Fills s₀ s.checkGrade := (Holds.ite h.logEv h).graded

theorem counted (h : Fills s₀ s) : Fills s₀ { s with countWritten := true } := h.set

theorem writeTileCount (h : Fills s₀ s) : Fills s₀ s.writeTileCount := h.wr.counted

theorem writeGeometry {l : Nat} (h : Fills s₀ s) : Fills s₀ (s.writeGeometry l) := by
  refine Holds.each h.wr fun s k h => ?_
  dsimp only
  split
  · exact h.wr
  · exact h.wr

end Holds

/-! ### The ledger -/

/-- A state without its live records. -/
def State.bare (s : State) : State := { s with live := [] }

theorem rd_bare {s : State} {r : Reg} {u k : Nat} (hr : r ∈ imageShown) : s.bare.rd r u k = s.rd r u k := rd_of_plain (plain_shown r hr) fun _ => rfl

theorem Holds.bare {s s' : State} (h : Fills s s') : Fills s.bare s'.bare :=
  ⟨congrArg (fun v => (v.1, v.2.1, v.2.2.1, v.2.2.2.1, v.2.2.2.2.1, v.2.2.2.2.2.1, v.2.2.2.2.2.2.1, [], v.2.2.2.2.2.2.2.2)) h.view,
    fun r u k hr => by rw [rd_bare hr, h.shown r u k hr, rd_bare hr]⟩

theorem gf_bare {s : State} {f : RegField} {u k : Nat} (hf : f.reg ∈ imageShown := by decide) : s.bare.gf f u k = s.gf f u k := by
  rw [State.gf, rd_bare hf, State.gf]

/-- A record enters the ledger: nothing but the live records changes of the Keeper's view. -/
theorem ledger_fills (s : State) (r : Ledger) : Fills s.bare (s.ledger r).bare := by
  unfold State.ledger
  extract_lets s1 isTrim s2 s3
  have h1 : Fills s.bare s1.bare := by
    dsimp only [s1]
    split
    · exact .refl _
    · exact .refl _
  clear_value s1
  have hqueue (q : List Ledger) : Fills s1 { s1 with ledgerQueue := q } := (Holds.refl _).set
  refine h1.trans ?_
  split
  · split
    · exact ((hqueue _).sf).bare
    · split
      · exact ((hqueue _).logEv).bare
      · split
        · exact ((Holds.refl _).logEv).bare
        · exact (hqueue _).bare
  · have h3 : Fills s1 s3 := (Holds.refl _).set
    split
    · exact h3.bare
    · exact h3.bare

/-- Floors raised: records for the ledger. -/
theorem raiseFloors_fills (s : State) (img : Image) : Fills s.bare (s.raiseFloors img).bare := by
  unfold State.raiseFloors
  split
  · exact .refl _
  · extract_lets up s1
    have h1 : Fills s s1 := .ite ((Holds.refl _).logEv) (.refl _)
    refine h1.bare.trans ?_
    exact State.each_keeps (fun a b => Fills a.bare b.bare) (fun _ => .refl _) (fun _ _ _ h h' => h.trans h') _ _
      (fun s r _ => ledger_fills s r) s1

/-- A live record enters at the end of the live ones. -/
theorem ledger_defect_live (s : State) (d : Defect) (w : Nat) : (s.ledger (.defect d w)).live = s.live ++ [.defect d w] := by
  unfold State.ledger
  extract_lets s1 isTrim s2 s3
  have h1 : s1.live = s.live ++ [.defect d w] := rfl
  clear_value s1
  split
  · split
    · exact h1
    · split
      · exact ((Marks.logEv (rs := []) ..).beyond_eq State.live fun _ => rfl).trans h1
      · exact h1
  · exact h1

end Sys2Proof.Machine
end

section
/-! SUPPORT. Loads, patches and restores end (R595-R604, R853, R854). -/

namespace Sys2Proof.Machine

-- Arguments that default to a tactic of this text wait for the checks of all before it: one theorem at a time keeps the waiting few.
set_option Elab.async false

open Sys2Proof.Claims

/-! ### A load that fails -/

/-- The candidate shown REJECTED with a code. -/
def State.showFailed (s : State) (code : Nat) : State := (s.sf F.stnImageStatus_state 0 0 3).sf F.stnImageStatus_reason 0 0 code

theorem showFailed_marks (s : State) (code : Nat) : Marks [.stnImageStatus] s (s.showFailed code) :=
  (Marks.sf (by decide) (by decide) ..).trans (.sf (by decide) (by decide) ..)

theorem showFailed_words (s : State) (code : Nat) : (s.showFailed code).gf F.stnImageStatus_state = 3 ∧
    (s.showFailed code).gf F.stnImageStatus_reason = code % 256 := by
  rw [State.showFailed]
  have h3 := State.gf_sf_self s F.stnImageStatus_state 0 0 3 (by decide) (by rfl : _ = 2 ^ 3)
  generalize s.sf F.stnImageStatus_state 0 0 3 = a at h3
  exact ⟨(State.gf_sf_apart a F.stnImageStatus_reason 0 0 code (g := F.stnImageStatus_state) rfl (by decide)).trans h3,
    State.gf_sf_self a F.stnImageStatus_reason 0 0 code (by decide) (by rfl : _ = 2 ^ 8)⟩

/-- What an image unloaded leaves of it. -/
theorem unload_spec (s : State) : s.unload.loaded = none ∧ s.unload.loadRun = none ∧ s.unload.groups = [] ∧
    s.unload.gf F.stnImageLoaded_state = 0 := by
  unfold State.unload
  extract_lets worked s1 s2 _ s3 s4 s5
  have h3 : s3.loaded = none ∧ s3.loadRun = none ∧ s3.groups = [] := ⟨rfl, rfl, rfl⟩
  clear_value s3
  have h4 : s4.gf F.stnImageLoaded_state = 0 := by
    rw [State.gf, show F.stnImageLoaded_state.reg = .stnImageLoaded from rfl, State.rd_wr_self]
    decide
  have h45 : Marks [.stnImageLoaded] s3 s4 := .wr (by decide) (by decide) ..
  clear_value s4
  have hlast : Marks [.stnImageId, .stnImageDigest] s4 (s5.each (List.range 12) fun s k => s.wr .stnImageDigest 0 k 0) :=
    (Marks.wr (by decide) (by decide) ..).trans (.each _ _ (fun _ _ _ => .wr (by decide) (by decide) ..) _)
  generalize s5.each (List.range 12) (fun s k => s.wr .stnImageDigest 0 k 0) = s6 at hlast
  have hall : Marks [.stnImageLoaded, .stnImageId, .stnImageDigest] s3 s6 := (h45.mono (by decide)).trans (hlast.mono (by decide))
  obtain ⟨hloaded, hrun, hgroups⟩ := h3
  exact ⟨(hall.beyond_eq State.loaded fun _ => rfl).trans hloaded, (hall.beyond_eq State.loadRun fun _ => rfl).trans hrun,
    (hall.beyond_eq State.groups fun _ => rfl).trans hgroups, (hlast.gf_eq (by decide) ..).trans h4⟩

theorem failLoading_full {s : State} {begun : Nat} {mbox : Option Nat} {news : List Defect} (code : Nat)
    (hrun : s.loadRun = some { kind := .full, begun := begun, mbox := mbox, news := news }) :
    ∃ a : State, s.failLoading code = (a.unload.showFailed code).logEv evImageLoadFault 64 64 code := by
  unfold State.failLoading
  rw [hrun]
  exact ⟨_, rfl⟩

theorem loadFault_gives {s : State} {img : Image} {bt : BindTable} {begun : Nat} {mbox : Option Nat} (code : Nat) (cycle : Option Nat)
    (hrun : s.loadRun = some { kind := .full, begun := begun, mbox := mbox }) (hcand : s.candidate = some img) (hbound : s.boundTo = some bt) :
    Gives (.imageLoadComplete (some code) cycle) s fun s' => s'.loaded = none ∧ s'.loadRun = none ∧ s'.gf F.stnImageLoaded_state = 0 ∧
      s'.gf F.stnImageStatus_state = 3 ∧ s'.gf F.stnImageStatus_reason = code % 256 ∧ s'.groups = [] := by
  obtain ⟨a, hfail⟩ := failLoading_full code hrun
  have heq : exec (.imageLoadComplete (some code) cycle) s = .next ((a.unload.showFailed code).logEv evImageLoadFault 64 64 code) := by
    rw [show exec (.imageLoadComplete (some code) cycle) s = execImageLoadComplete (some code) cycle s from rfl, execImageLoadComplete,
      hrun, hcand, hbound]
    exact congrArg _ hfail
  refine gives_next heq ?_
  obtain ⟨hloaded, hnone, hgroups, hstate⟩ := unload_spec a
  generalize a.unload = b at hloaded hnone hgroups hstate
  obtain ⟨h3, hreason⟩ := showFailed_words b code
  have hshow := showFailed_marks b code
  generalize b.showFailed code = c at h3 hreason hshow
  have hlog : Marks [] c (c.logEv evImageLoadFault 64 64 code) := .logEv ..
  generalize c.logEv evImageLoadFault 64 64 code = e at hlog
  have hall : Marks [.stnImageStatus] b e := hshow.trans (hlog.mono (by decide))
  exact ⟨(hall.beyond_eq State.loaded fun _ => rfl).trans hloaded, (hall.beyond_eq State.loadRun fun _ => rfl).trans hnone,
    (hall.gf_eq (by decide) ..).trans hstate, (hlog.gf_eq (by decide) ..).trans h3, (hlog.gf_eq (by decide) ..).trans hreason,
    (hall.beyond_eq State.groups fun _ => rfl).trans hgroups⟩

/-! ### A START answered and the lock engaged -/

/-- Of images, what an accepted START sets. -/
def State.images (s : State) : Option Image × Option BindTable × Option LoadRun × Option Image := (s.loaded, s.loadedBind, s.loadRun, s.candidate)

/-- Slots that wait for an operation show DONE, and the second stage of the lock engages. -/
theorem finishLock_spec (s : State) (op : MboxOp) (results : List Nat) :
    Finished s ((s.finishOp op mbOk results).engageLock true) op 0 ∧ ((s.finishOp op mbOk results).engageLock true).images = s.images ∧
      ∀ r u k, r ∈ imageShown → r ≠ .hstMboxStatus → ((s.finishOp op mbOk results).engageLock true).rd r u k = s.rd r u k := by
  have hdone := finishOp_finished s op (status := mbOk) results (by decide)
  obtain ⟨hkeep, -⟩ := finishOp_spec s op mbOk results
  generalize s.finishOp op mbOk results = a at hdone hkeep
  have hlock : Fills a (a.engageLock true) := (Holds.refl a).engageLock
  generalize a.engageLock true = b at hlock
  refine ⟨fun u hu => ?_, ?_, fun r u k hr hne => ?_⟩
  · rw [hlock.gf_eq, hlock.gf_eq]
    exact hdone u hu
  · exact (hlock.eq_of State.images (fun v => (v.2.1, v.2.2.1, v.2.2.2.1, v.2.2.2.2.1)) fun _ => rfl).trans
      (hkeep.eq_of State.images (·.images) fun _ => rfl)
  · refine (hlock.shown r u k hr).trans (hkeep.regs r u k fun hmem => ?_)
    simp only [List.mem_cons, List.not_mem_nil, or_false] at hmem
    obtain rfl | rfl := hmem
    · exact hne rfl
    · exact absurd hr (by decide)

/-! ### A load that ends -/

/-- An image accepted whose load met no live record. -/
theorem acceptImage_spec {s : State} {img : Image} {bt : BindTable} {begun : Nat} {mbox : Option Nat}
    (hrun : s.loadRun = some { kind := .full, begun := begun, mbox := mbox }) : (s.acceptImage img bt).loaded = some img ∧
      (s.acceptImage img bt).loadedBind = some bt ∧ (s.acceptImage img bt).loadRun = none ∧ (s.acceptImage img bt).candidate = none ∧
      (s.acceptImage img bt).gf F.stnImageLoaded_state = 3 ∧ (s.acceptImage img bt).rd .stnImageId = BitVec.ofNat 64 img.imageId ∧
      Finished s (s.acceptImage img bt) (.start []) 0 := by
  unfold State.acceptImage
  extract_lets news s1 s2 s3 s4 s5 s6 s7 s8
  have hnews : news = [] := by
    dsimp only [news]
    rw [hrun]
  have h2 : s2.images = (some img, some bt, none, none) ∧ s2.mboxJobs = s.mboxJobs := ⟨rfl, rfl⟩
  clear_value s2 news
  subst hnews
  have h3 : Marks [.stnImageLoaded] s2 s3 := .wr (by decide) (by decide) ..
  have hstate : s3.gf F.stnImageLoaded_state = 3 := by
    rw [State.gf, show F.stnImageLoaded_state.reg = .stnImageLoaded from rfl, State.rd_wr_self]
    decide
  clear_value s3
  have h4 : Marks [.stnImageId] s3 s4 := .wr (by decide) (by decide) ..
  have hid : s4.rd .stnImageId = BitVec.ofNat 64 img.imageId := State.rd_wr_self ..
  clear_value s4
  have h5 : Marks [.stnImageDigest] s4 s5 := .each _ _ (fun _ _ _ => .wr (by decide) (by decide) ..) _
  clear_value s5
  have h6 : Marks [.stnImageStatus, .stnImageDetail, .stnBindStatus] s5 s6 := (Marks.wr (by decide) (by decide) ..).trans (.wr (by decide) (by decide) ..)
  clear_value s6
  have h7 : Marks [.stnImageStatus, .stnImageDetail, .stnBindStatus] s5 s7 := h6.trans (.sf (by decide) (by decide) ..)
  have h8 : s8 = s7 := rfl
  clear_value s7 s8
  subst h8
  have hall : Marks [.stnImageLoaded, .stnImageId, .stnImageDigest, .stnImageStatus, .stnImageDetail, .stnBindStatus] s2 s8 :=
    ((h3.mono (by decide)).trans (h4.mono (by decide))).trans ((h5.mono (by decide)).trans (h7.mono (by decide)))
  have hshow : Marks [.stnImageDigest, .stnImageStatus, .stnImageDetail, .stnBindStatus] s4 s8 :=
    (h5.mono (by decide)).trans (h7.mono (by decide))
  have hfloor := raiseFloors_fills s8 img
  generalize s8.raiseFloors img = a at hfloor
  obtain ⟨hdone, himages, hshown⟩ := finishLock_spec a (.start []) s8.watchWords
  have hview : a.images = (some img, some bt, none, none) := by
    have hbare : a.bare.images = s8.bare.images :=
      hfloor.eq_of State.images (fun v => (v.2.1, v.2.2.1, v.2.2.2.1, v.2.2.2.2.1)) fun _ => rfl
    exact hbare.trans ((hall.beyond_eq State.images fun _ => rfl).trans h2.1)
  have hjobs : a.mboxJobs = s.mboxJobs := hfloor.jobs.trans ((hall.beyond_eq State.mboxJobs fun _ => rfl).trans h2.2)
  rw [hview] at himages
  refine ⟨congrArg (·.1) himages, congrArg (·.2.1) himages, congrArg (·.2.2.1) himages, congrArg (·.2.2.2) himages, ?_, ?_, fun u hu => ?_⟩
  · rw [State.gf, hshown _ _ _ (by decide) (by decide), ← rd_bare (by decide), hfloor.shown _ _ _ (by decide), rd_bare (by decide),
      hshow.regs _ _ _ (by decide), h4.regs _ _ _ (by decide)]
    exact hstate
  · rw [hshown _ _ _ (by decide) (by decide), ← rd_bare (by decide), hfloor.shown _ _ _ (by decide), rd_bare (by decide),
      hshow.regs _ _ _ (by decide), hid]
  · exact hdone u (hjobs ▸ hu)

theorem loadDone_gives {s : State} {img : Image} {bt : BindTable} {begun : Nat} {mbox : Option Nat}
    (hrun : s.loadRun = some { kind := .full, begun := begun, mbox := mbox }) (hcand : s.candidate = some img) (hbound : s.boundTo = some bt)
    (hpath : cycleTile (bt.paths.map (·.path)) = none) (hback : cycleTile (bt.paths.map (·.back)) = none)
    (hlanes : (s.writeImage img bt).lanesOk img bt = true) : Gives (.imageLoadComplete none none) s fun s' =>
      s'.loaded = some img ∧ s'.loadedBind = some bt ∧ s'.loadRun = none ∧ s'.candidate = none ∧ s'.gf F.stnImageLoaded_state = 3 ∧
      s'.rd .stnImageId = BitVec.ofNat 64 img.imageId ∧ Finished s s' (.start []) 0 := by
  have heq : exec (.imageLoadComplete none none) s = .next ((s.writeImage img bt).acceptImage img bt) := by
    rw [show exec (.imageLoadComplete none none) s = execImageLoadComplete none none s from rfl, execImageLoadComplete,
      hrun, hcand, hbound]
    simp only [hpath, hback, Option.orElse_none, hlanes, Bool.true_eq_false, if_false]
  refine gives_next heq ?_
  have hfill : Fills s (s.writeImage img bt) := (Holds.refl s).writeImage
  obtain ⟨hloaded, hbind, hnone, hcand', hstate, hid, hdone⟩ :=
    acceptImage_spec (img := img) (bt := bt) (hfill.loadRun.trans hrun)
  exact ⟨hloaded, hbind, hnone, hcand', hstate, hid, fun u hu => hdone u (by rwa [hfill.jobs])⟩

/-! ### A patch that ends -/

/-- A START of a patch or a restore accepted. -/
theorem endStart_spec (s : State) : s.endStart.loaded = s.loaded ∧ s.endStart.candidate = none ∧ s.endStart.loadRun = none ∧
    Finished s s.endStart (.start s.startNames) 0 ∧ ∀ u k, s.endStart.rd .stnImageLoaded u k = s.rd .stnImageLoaded u k := by
  unfold State.endStart
  extract_lets ids s1 s2
  have h2 : Marks [.stnImageStatus, .stnImageDetail] s1 s2 := (Marks.wr (by decide) (by decide) ..).trans (.wr (by decide) (by decide) ..)
  have hreg (u k : Nat) : s1.rd .stnImageLoaded u k = s.rd .stnImageLoaded u k := rfl
  have himg : s1.images = (s.loaded, s.loadedBind, none, none) := rfl
  have hjobs : s1.mboxJobs = s.mboxJobs := rfl
  clear_value s1 s2
  obtain ⟨hdone, himages, hshown⟩ := finishLock_spec s2 (.start ids) s2.watchWords
  have hview := himages.trans ((h2.beyond_eq State.images fun _ => rfl).trans himg)
  have hjobs2 : s2.mboxJobs = s.mboxJobs := (h2.beyond_eq State.mboxJobs fun _ => rfl).trans hjobs
  refine ⟨congrArg (·.1) hview, congrArg (·.2.2.2) hview, congrArg (·.2.2.1) hview, fun u hu => hdone u (hjobs2 ▸ hu), fun u k => ?_⟩
  rw [hshown _ _ _ (by decide) (by decide), h2.regs _ _ _ (by decide), hreg]

/-- A sector patched, as its table shows it. -/
def State.patchTables (s : State) (p : Image) : State :=
  s.each p.characters fun s t => s.updSec t.sector fun y => { y with table := t, answered := [] }

/-- The count of patches raised. -/
def State.countPatch (s : State) : State := s.sf F.stnImageLoaded_patch_count 0 0 (min 65535 (s.gf F.stnImageLoaded_patch_count + 1))

/-- The Keeper's image after a patch or a restore. -/
def State.nowLoads (s : State) (img : Image) : State := { s with loaded := some img }

theorem patchDone_gives {s : State} {img base : Image} {bt : BindTable} {begun : Nat} {mbox : Option Nat}
    (hrun : s.loadRun = some { kind := .patch, begun := begun, mbox := mbox }) (hcand : s.candidate = some img)
    (hloaded : s.loaded = some base) (hbind : s.loadedBind = some bt) : Gives (.patchApplyComplete false) s fun s' =>
      s'.loaded = some (patched base img) ∧ s'.candidate = none ∧ s'.loadRun = none ∧
      s'.gf F.stnImageLoaded_patch_count = min 65535 (s.gf F.stnImageLoaded_patch_count + 1) ∧
      ∀ u ids, s.mboxJobs = [(u, .start ids)] → Finished s s' (.start ids) 0 := by
  have heq : ∃ secs, exec (.patchApplyComplete false) s = .next ((((((s.each (imgSectors img) fun s k =>
      s.patchSector (patched base img) bt k).patchTables img).restartSectors secs).countPatch).nowLoads (patched base img)).endStart) := by
    rw [show exec (.patchApplyComplete false) s = execPatchApplyComplete false s from rfl, execPatchApplyComplete, hrun, hcand, hloaded, hbind]
    exact ⟨_, rfl⟩
  obtain ⟨secs, heq⟩ := heq
  refine gives_next heq ?_
  have hfill : Fills s (((s.each (imgSectors img) fun s k => s.patchSector (patched base img) bt k).patchTables img).restartSectors secs) :=
    (((Holds.refl s).each fun _ _ h => h.patchSector).each fun _ _ h => h.updSec).restartSectors
  generalize ((s.each (imgSectors img) fun s k => s.patchSector (patched base img) bt k).patchTables img).restartSectors secs = a at hfill
  have hcount : a.countPatch.gf F.stnImageLoaded_patch_count = min 65535 (s.gf F.stnImageLoaded_patch_count + 1) := by
    rw [State.countPatch, State.gf_sf_self a F.stnImageLoaded_patch_count 0 0 _ (by decide) (by rfl : _ = 2 ^ 16), hfill.gf_eq]
    exact Nat.mod_eq_of_lt (by omega)
  have hjobs : a.countPatch.mboxJobs = s.mboxJobs := hfill.jobs
  generalize a.countPatch = b at hcount hjobs
  have hload : (b.nowLoads (patched base img)).loaded = some (patched base img) := rfl
  have hjobs' : (b.nowLoads (patched base img)).mboxJobs = s.mboxJobs := hjobs
  have hcount' : (b.nowLoads (patched base img)).gf F.stnImageLoaded_patch_count = min 65535 (s.gf F.stnImageLoaded_patch_count + 1) := hcount
  generalize b.nowLoads (patched base img) = c at hload hjobs' hcount'
  obtain ⟨hkept, hnone, hidle, hdone, hreg⟩ := endStart_spec c
  refine ⟨hkept.trans hload, hnone, hidle, ?_, fun u ids hone v hv => ?_⟩
  · rw [State.gf, show F.stnImageLoaded_patch_count.reg = .stnImageLoaded from rfl, hreg]
    exact hcount'
  · have hnames : c.startNames = ids := by simp [State.startNames, hjobs', hone]
    rw [hnames] at hdone
    exact hdone v (by rwa [hjobs'])

/-! ### A patch or a restore that fails -/

/-- The slot that waits for a load told that it failed. -/
def State.answerFailed (s : State) (mbox : Option Nat) : State :=
  match mbox with
  | some u => s.mboxDone u mbFailed []
  | none => s

theorem answerFailed_loaded (s : State) (mbox : Option Nat) : (s.answerFailed mbox).loaded = s.loaded := by
  cases mbox with
  | none => rfl
  | some u => exact (mboxDone_keeps s u mbFailed []).eq_of State.loaded (·.loaded) fun _ => rfl

/-- A patch or a restore under way gone. -/
def State.endRun (s : State) : State := { s with loadRun := none }

theorem failLoading_patch {s : State} {begun : Nat} {mbox : Option Nat} {news : List Defect} (code : Nat)
    (hrun : s.loadRun = some { kind := .patch, begun := begun, mbox := mbox, news := news }) :
    ∃ a : State, a.loaded = s.loaded ∧ Fills (a.endRun.showFailed code) (s.failLoading code) := by
  refine ⟨s.answerFailed mbox, answerFailed_loaded s mbox, ?_⟩
  unfold State.failLoading
  rw [hrun]
  refine Holds.each ?_ fun _ _ h => h.logEv
  dsimp only
  split
  · exact (Holds.refl _).dropPatched
  · exact .refl _

theorem failLoading_restore {s : State} {named : List Nat} {begun : Nat} {mbox : Option Nat} {news : List Defect} (code : Nat)
    (hrun : s.loadRun = some { kind := .restore named, begun := begun, mbox := mbox, news := news }) :
    ∃ a : State, a.loaded = s.loaded ∧ Fills (a.endRun.sf F.stnImageStatus_state 0 0 2) (s.failLoading code) := by
  refine ⟨s.answerFailed mbox, answerFailed_loaded s mbox, ?_⟩
  unfold State.failLoading
  rw [hrun]
  exact Holds.each (.refl _) fun _ _ h => h.logEv

theorem patchFault_gives {s : State} {img base : Image} {bt : BindTable} {begun : Nat} {mbox : Option Nat}
    (hrun : s.loadRun = some { kind := .patch, begun := begun, mbox := mbox }) (hcand : s.candidate = some img)
    (hloaded : s.loaded = some base) (hbind : s.loadedBind = some bt) : Gives (.patchApplyComplete true) s fun s' =>
      s'.loaded = some base ∧ s'.loadRun = none ∧ s'.gf F.stnImageStatus_state = 3 ∧ s'.gf F.stnImageStatus_reason = 0x24 := by
  have heq : exec (.patchApplyComplete true) s = .next (s.failLoading loadFault) := by
    rw [show exec (.patchApplyComplete true) s = execPatchApplyComplete true s from rfl, execPatchApplyComplete, hrun, hcand, hloaded, hbind]
    rfl
  refine gives_next heq ?_
  obtain ⟨a, hkept, hfill⟩ := failLoading_patch loadFault hrun
  obtain ⟨hstate, hreason⟩ := showFailed_words a.endRun loadFault
  have hshow := showFailed_marks a.endRun loadFault
  generalize a.endRun.showFailed loadFault = b at hfill hstate hreason hshow
  refine ⟨?_, hfill.loadRun.trans (hshow.beyond_eq State.loadRun fun _ => rfl), (hfill.gf_eq ..).trans hstate, (hfill.gf_eq ..).trans hreason⟩
  exact hfill.loaded.trans ((hshow.beyond_eq State.loaded fun _ => rfl).trans (hkept.trans hloaded))

theorem restoreFault_gives {s : State} {img base : Image} {bt : BindTable} {named : List Nat} {begun : Nat} {mbox : Option Nat}
    (hrun : s.loadRun = some { kind := .restore named, begun := begun, mbox := mbox }) (hcand : s.candidate = some img)
    (hloaded : s.loaded = some base) (hbind : s.loadedBind = some bt) : Gives (.restoreComplete true) s fun s' =>
      s'.loaded = some base ∧ s'.loadRun = none ∧ s'.gf F.stnImageStatus_state = 2 := by
  have heq : exec (.restoreComplete true) s = .next (s.failLoading loadFault) := by
    rw [show exec (.restoreComplete true) s = execRestoreComplete true s from rfl, execRestoreComplete, hrun, hcand, hloaded, hbind]
    exact congrArg _ (if_pos (Or.inl rfl))
  refine gives_next heq ?_
  obtain ⟨a, hkept, hfill⟩ := failLoading_restore loadFault hrun
  refine ⟨hfill.loaded.trans (hkept.trans hloaded), hfill.loadRun, (hfill.gf_eq ..).trans ?_⟩
  exact State.gf_sf_self a.endRun F.stnImageStatus_state 0 0 2 (by decide) (by rfl : _ = 2 ^ 3)

/-! ### A restore that ends -/

theorem sec_updSec (s : State) (k : Nat) (f : SectorSt → SectorSt) (j : Nat) :
    (s.updSec k f).sec j = if j = k then (s.sec k).map f else s.sec j := by
  unfold State.updSec
  split
  · next x hx =>
    rw [hx]
    change mfind (mput s.sectors k (f x)) j = _
    rw [mfind_mput]
    rfl
  · next hx =>
    split
    · next heq => rw [heq, hx, Option.map_none]
    · rfl

/-- A sector that runs under a table of its own. -/
def Restored (s : State) (k : Nat) : Prop := ∀ x, s.sec k = some x → x.health = 0 ∧ x.table.sector = k

theorem Restored.of_sectors {s s' : State} {k : Nat} (h : Restored s k) (heq : s'.sectors = s.sectors) : Restored s' k := by
  intro x hx
  exact h x (by rwa [State.sec, ← heq])

theorem restored_tables (s : State) (ts : List ImgTable) : ∀ t ∈ ts,
    Restored (s.each ts fun s t => s.updSec t.sector fun y => { y with table := t, health := 0, answered := [] }) t.sector := by
  refine State.each_gives (P := fun t s => Restored s t.sector)
    (f := fun s (t : ImgTable) => s.updSec t.sector fun y => { y with table := t, health := 0, answered := [] })
    (fun s t _ x hx => ?_) (fun s a _ b hb x hx => ?_) s
  · rw [sec_updSec, if_pos rfl] at hx
    obtain ⟨y, -, rfl⟩ := Option.map_eq_some_iff.1 hx
    exact ⟨rfl, rfl⟩
  · rw [sec_updSec] at hx
    split at hx
    · next heq =>
      obtain ⟨y, -, rfl⟩ := Option.map_eq_some_iff.1 hx
      exact ⟨rfl, heq.symm⟩
    · exact hb x hx

theorem Restored.restartSectors {s : State} {k : Nat} (h : Restored s k) (secs : List Nat) : Restored (s.restartSectors secs) k := by
  refine Restored.of_sectors (s := s.each secs fun s k => s.updSec k fun y => { y with from_ := s.stationWatch + 2, voidRun := 0 }) ?_ rfl
  refine State.each_keeps (fun a b => Restored a k → Restored b k) (fun _ h => h) (fun _ _ _ h h' hk => h' (h hk)) _ _ (fun s j _ hs x hx => ?_) s h
  rw [sec_updSec] at hx
  split at hx
  · next heq =>
    obtain ⟨y, hy, rfl⟩ := Option.map_eq_some_iff.1 hx
    exact hs y (heq ▸ hy)
  · exact hs x hx

theorem engageLock_sectors (s : State) (keeper : Bool) : (s.engageLock keeper).sectors = s.sectors := by
  unfold State.engageLock
  extract_lets ws s1
  change s1.sectors = _
  refine State.each_same State.sectors _ _ (fun s w _ => ?_) s
  unfold State.unwrite
  extract_lets k s2
  refine ((Marks.logEv (rs := []) ..).beyond_eq State.sectors fun _ => rfl).trans ?_
  dsimp only [s2]
  split
  · rfl
  · rfl

theorem endStart_sectors (s : State) : s.endStart.sectors = s.sectors := by
  unfold State.endStart
  extract_lets ids s1 s2
  rw [engageLock_sectors]
  exact (finishOp_spec s2 (.start ids) mbOk s2.watchWords).1.eq_of State.sectors (·.sectors) fun _ => rfl

theorem restoreDone_gives {s : State} {img base : Image} {bt : BindTable} {named : List Nat} {begun : Nat} {mbox : Option Nat}
    (hrun : s.loadRun = some { kind := .restore named, begun := begun, mbox := mbox }) (hcand : s.candidate = some img)
    (hloaded : s.loaded = some base) (hbind : s.loadedBind = some bt) (hsome : ∃ k ∈ named, s.health k = 3) :
    Gives (.restoreComplete false) s fun s' => s'.candidate = none ∧ s'.loadRun = none ∧ ∀ t ∈ img.characters, t.sector ∈ named →
      s.health t.sector = 3 → ∀ x, s'.sec t.sector = some x → x.health = 0 ∧ x.table.sector = t.sector := by
  obtain ⟨k, hk, h3⟩ := hsome
  have hids : named.filter (fun k => s.health k = 3) ≠ [] := List.ne_nil_of_mem (List.mem_filter.2 ⟨hk, decide_eq_true h3⟩)
  have heq : ∃ (a : State) (bounds : State → State) (merged : Image) (ids : List Nat), (∀ k ∈ named, s.health k = 3 → k ∈ ids) ∧
      (∀ b, (bounds b).sectors = b.sectors) ∧ exec (.restoreComplete false) s = .next ((((bounds (a.each (img.characters.filter fun t =>
        ids.contains t.sector) fun s t => s.updSec t.sector fun y => { y with table := t, health := 0, answered := [] })).nowLoads
          merged).restartSectors ids).endStart) := by
    rw [show exec (.restoreComplete false) s = execRestoreComplete false s from rfl, execRestoreComplete, hrun, hcand, hloaded, hbind]
    dsimp only
    rw [if_neg (by simp only [hids, Bool.false_eq_true, or_self, not_false_eq_true])]
    refine ⟨_, fun b => b.each _ fun s k => s.each (s.fieldsOf k) fun s f =>
      s.wr .strDrainBound f k (BitVec.ofNat 64 (min (drainBoundOf img k) 65535)), _, _, fun k hk h3 => ?_, fun b => ?_, rfl⟩
    · exact List.mem_filter.2 ⟨hk, decide_eq_true h3⟩
    · refine State.each_same State.sectors _ _ (fun _ _ _ => ?_) b
      refine State.each_same State.sectors _ _ (fun _ _ _ => ?_) _
      rfl
  obtain ⟨a, bounds, merged, ids, hin, hbounds, heq⟩ := heq
  refine gives_next heq ?_
  have htab := restored_tables a (img.characters.filter fun t => ids.contains t.sector)
  generalize a.each (img.characters.filter fun t => ids.contains t.sector)
    (fun s t => s.updSec t.sector fun y => { y with table := t, health := 0, answered := [] }) = b at htab
  have hload : ((bounds b).nowLoads merged).sectors = b.sectors := hbounds b
  generalize (bounds b).nowLoads merged = c at hload
  obtain ⟨-, hnone, hidle, -⟩ := endStart_spec (c.restartSectors ids)
  refine ⟨hnone, hidle, fun t ht hnamed h3 => ?_⟩
  have hmem : t ∈ img.characters.filter fun t => ids.contains t.sector :=
    List.mem_filter.2 ⟨ht, List.contains_iff_mem.2 (hin _ hnamed h3)⟩
  exact (((htab t hmem).of_sectors hload).restartSectors ids).of_sectors (endStart_sectors _)

end Sys2Proof.Machine
end

section
/-! SUPPORT. A live record (R70-R72), and O54. -/

namespace Sys2Proof.Machine

-- Arguments that default to a tactic of this text wait for the checks of all before it: one theorem at a time keeps the waiting few.
set_option Elab.async false

open Sys2Proof.Claims

/-- A live record entered, logged and counted: what comes before it meets a binding. -/
def State.recordEntered (s : State) (d : Defect) : State :=
  let s := s.ledger (.defect d s.stationWatch)
  let s := s.logEv evLiveRecord 64 d.loc d.word
  let s := (if s.countWritten then s.writeTileCount.checkGrade else s)
  if d.kind = 4 ∨ d.kind = 5 ∨ d.kind = 6 then s.writeGeometry d.loc else s

/-- A bound candidate that uses the resource is unbound. -/
def State.unbindUser (s : State) (d : Defect) : State :=
  match s.boundTo, s.candidate with
  | some bt, some img =>
    if s.gf F.stnBindStatus_state = 2 ∧ bt.uses img d = true ∧ s.loadRun = none then
      ({ s with boundTo := none } : State).sf F.stnBindStatus_state 0 0 0
    else s
  | _, _ => s

/-- The record noted with the load under way. -/
def State.tellLoad (s : State) (d : Defect) : State := { s with loadRun := s.loadRun.map fun r => { r with news := r.news ++ [d] } }

/-- The WAFER entries around a record due to be rewritten. -/
def State.dueRewrite (s : State) (d : Defect) : State :=
  let f := if d.kind = 3 then fieldOfBay d.loc else if d.kind ≤ 2 then fieldOf d.loc else d.loc / 4
  if d.kind ≤ 3 then { s with rewrites := s.rewrites ++ [(f, s.now + 2000000)] } else s

theorem liveRecord_eq (s : State) (d : Defect) : s.liveRecord d =
    (((((s.recordEntered d).unbindUser d).tellLoad d).rebind).resourceLost d (evCode evLiveRecord)).dueRewrite d := rfl

theorem recordEntered_fills (s : State) (d : Defect) : Fills (s.ledger (.defect d s.stationWatch)) (s.recordEntered d) := by
  unfold State.recordEntered
  extract_lets a b c
  have hb : Fills a b := (Holds.refl a).logEv
  have hc : Fills a c := .ite hb.writeTileCount.checkGrade hb
  exact .ite hc.writeGeometry hc

/-- What a record entered leaves: it stands last among the live ones, and bindings are as they were. -/
theorem recordEntered_spec (s : State) (d : Defect) : (s.recordEntered d).live = s.live ++ [.defect d s.stationWatch] ∧
    (s.recordEntered d).images = s.images ∧ (s.recordEntered d).boundTo = s.boundTo ∧
    ∀ u k, (s.recordEntered d).rd .stnBindStatus u k = s.rd .stnBindStatus u k := by
  have hfill := recordEntered_fills s d
  have hledger := ledger_fills s (.defect d s.stationWatch)
  have hlive := ledger_defect_live s d s.stationWatch
  generalize s.ledger (.defect d s.stationWatch) = a at hfill hledger hlive
  have himg {x y : State} (h : Fills x y) : y.images = x.images :=
    h.eq_of State.images (fun v => (v.2.1, v.2.2.1, v.2.2.2.1, v.2.2.2.2.1)) fun _ => rfl
  have hbare : a.bare.images = s.bare.images := himg hledger
  refine ⟨hfill.live.trans hlive, (himg hfill).trans hbare, hfill.boundTo.trans hledger.boundTo, fun u k => ?_⟩
  rw [hfill.shown _ _ _ (by decide), ← rd_bare (by decide), hledger.shown _ _ _ (by decide), rd_bare (by decide)]

theorem unbindUser_live (s : State) (d : Defect) : (s.unbindUser d).live = s.live := by
  unfold State.unbindUser
  split
  · split
    · rfl
    · rfl
  · rfl

/-- A binding that is not over keeps what it is bound to. -/
theorem unbindUser_idle {s : State} (d : Defect) (h : s.gf F.stnBindStatus_state ≠ 2) : s.unbindUser d = s := by
  unfold State.unbindUser
  split
  · exact if_neg fun hc => h hc.1
  · rfl

theorem bindReport_live (s : State) (state reason item excess displaced moved : Nat) :
    (s.bindReport state reason item excess displaced moved).live = s.live := by
  unfold State.bindReport
  extract_lets a b
  have ha : Marks [.stnBindStatus, .stnBindDetail, .stnBindStats] s a := .trans (.sf (by decide) (by decide) ..) (.sf (by decide) (by decide) ..)
  have hb : Marks [.stnBindStatus, .stnBindDetail, .stnBindStats] a b := .trans (.sf (by decide) (by decide) ..) (.sf (by decide) (by decide) ..)
  clear_value b a
  exact ((ha.trans hb).trans (.trans (.sf (by decide) (by decide) ..) (.sf (by decide) (by decide) ..))).beyond_eq State.live fun _ => rfl

theorem rebind_live (s : State) : s.rebind.live = s.live := by
  unfold State.rebind
  split
  · rfl
  · split
    · rfl
    · have hdone (b : State) : (b.finishOp .bind mbBindFailed []).live = b.live :=
        (finishOp_spec b .bind mbBindFailed []).1.eq_of State.live (·.live) fun _ => rfl
      rw [hdone, bindReport_live]

theorem afterBinding_fills (s : State) (d : Defect) : Fills s ((s.resourceLost d (evCode evLiveRecord)).dueRewrite d) := by
  have h : Fills s (s.resourceLost d (evCode evLiveRecord)) := (Holds.refl s).resourceLost
  generalize s.resourceLost d (evCode evLiveRecord) = a at h
  unfold State.dueRewrite
  exact .ite h.set h

theorem liveRecord_live (s : State) (d : Defect) : (s.liveRecord d).live = s.live ++ [.defect d s.stationWatch] := by
  rw [liveRecord_eq, (afterBinding_fills _ d).live, rebind_live]
  exact (unbindUser_live _ d).trans (recordEntered_spec s d).1

/-- A bound candidate that uses the resource. -/
theorem liveRecord_unbinds {s : State} {d : Defect} {img : Image} {bt : BindTable} (h2 : s.gf F.stnBindStatus_state = 2)
    (hbound : s.boundTo = some bt) (hcand : s.candidate = some img) (hrun : s.loadRun = none) (huses : bt.uses img d = true) :
    (s.liveRecord d).boundTo = none ∧ (s.liveRecord d).gf F.stnBindStatus_state = 0 := by
  rw [liveRecord_eq]
  obtain ⟨-, himages, hto, hrd⟩ := recordEntered_spec s d
  generalize s.recordEntered d = a at himages hto hrd
  have hstate : a.gf F.stnBindStatus_state = 2 := by rw [State.gf, show F.stnBindStatus_state.reg = .stnBindStatus from rfl, hrd]; exact h2
  have hcand' : a.candidate = some img := (congrArg (·.2.2.2) himages :).trans hcand
  have hrun' : a.loadRun = none := (congrArg (·.2.2.1) himages :).trans hrun
  have heq : a.unbindUser d = ({ a with boundTo := none } : State).sf F.stnBindStatus_state 0 0 0 := by
    unfold State.unbindUser
    rw [hto, hbound, hcand']
    exact if_pos ⟨hstate, huses, hrun'⟩
  have hnone : (a.unbindUser d).boundTo = none := by rw [heq]; rfl
  have hzero : (a.unbindUser d).gf F.stnBindStatus_state = 0 := by
    rw [heq]
    exact State.gf_sf_self _ F.stnBindStatus_state 0 0 0 (by decide) (by rfl : _ = 2 ^ 3)
  generalize a.unbindUser d = b at hnone hzero
  have hidle : (b.tellLoad d).rebind = b.tellLoad d := if_pos (show b.gf F.stnBindStatus_state ≠ 1 by rw [hzero]; decide)
  rw [hidle]
  exact ⟨(afterBinding_fills _ d).boundTo.trans hnone, ((afterBinding_fills _ d).gf_eq ..).trans hzero⟩

/-- A binding under way that meets its first record. -/
theorem liveRecord_restarts {s : State} {d : Defect} (h1 : s.gf F.stnBindStatus_state = 1) (hfirst : s.flag F.stnBindStatus_restarted = false) :
    (s.liveRecord d).flag F.stnBindStatus_restarted = true ∧ (s.liveRecord d).bindMap = some (s.liveRecord d).merged := by
  rw [liveRecord_eq]
  obtain ⟨-, -, -, hrd⟩ := recordEntered_spec s d
  generalize s.recordEntered d = a at hrd
  have hstate : a.gf F.stnBindStatus_state = 1 := by rw [State.gf, show F.stnBindStatus_state.reg = .stnBindStatus from rfl, hrd]; exact h1
  have hflag : a.flag F.stnBindStatus_restarted = false := by
    rw [State.flag, State.gf, show F.stnBindStatus_restarted.reg = .stnBindStatus from rfl, hrd]
    exact hfirst
  rw [unbindUser_idle d (by rw [hstate]; decide)]
  have hstate' : (a.tellLoad d).gf F.stnBindStatus_state = 1 := hstate
  have hflag' : (a.tellLoad d).flag F.stnBindStatus_restarted = false := hflag
  generalize a.tellLoad d = b at hstate' hflag'
  have heq : b.rebind = ({ b with bindMap := some b.merged } : State).sf F.stnBindStatus_restarted 0 0 1 := by
    unfold State.rebind
    rw [if_neg (by rw [hstate']; decide), if_pos hflag']
  have hset : b.rebind.flag F.stnBindStatus_restarted = true := by
    rw [heq]
    exact State.flag_sf_self _ F.stnBindStatus_restarted 0 0 1 (by decide) (by decide)
  have hmap : b.rebind.bindMap = some b.rebind.merged := by rw [heq]; rfl
  generalize b.rebind = c at hset hmap
  have hlast := afterBinding_fills c d
  refine ⟨(hlast.flag_eq ..).trans hset, ?_⟩
  rw [hlast.bindMap, hlast.merged, hmap]

end Sys2Proof.Machine

namespace Sys2Proof.Claims

open Sys2Proof.Machine

/-- Settles O54: loads, patches and restores end, well or on a fault, and a live record arrives. -/
theorem imagesEnd : Obligations.ImagesEnd := by
  intro s img base bt begun mbox
  refine ⟨fun hrun hcand hbound => ⟨loadDone_gives hrun hcand hbound, fun code cycle => loadFault_gives code cycle hrun hcand hbound⟩,
    fun hrun hcand hloaded hbind => ⟨patchDone_gives hrun hcand hloaded hbind, patchFault_gives hrun hcand hloaded hbind⟩,
    fun named hrun hcand hloaded hbind => ⟨restoreDone_gives hrun hcand hloaded hbind, restoreFault_gives hrun hcand hloaded hbind⟩,
    fun kind source loc detail => gives_next (rfl : exec (.liveRecord kind source loc detail) s =
      .next (s.liveRecord (Defect.ofWord ({ kind := kind, source := source, loc := loc, detail := detail } : Defect).word))) ?_⟩
  refine ⟨liveRecord_live s _, ?_, liveRecord_unbinds, liveRecord_restarts⟩
  exact (Sheds.refl s).liveRecord.eq_of State.fuses (·.1.fuses) fun _ => rfl

end Sys2Proof.Claims
end

section
/-! SUPPORT. Writes of the beacon's registers, and the station's beacon (R81, R84, R88, R89, R116). -/

namespace Sys2Proof.Machine

-- Arguments that default to a tactic of this text wait for the checks of all before it: one theorem at a time keeps the waiting few.
set_option Elab.async false

open Sys2Proof.Claims

/-! ### Writes that wait for their watch -/

/-- Values that wait for their watches, after one more for watch `e`: it alone waits for `e`, and the others stay. -/
theorem due_replaced (due : List (Nat × Nat)) (p e : Nat) : (p, e) ∈ due.filter (fun d => d.2 ≠ e) ++ [(p, e)] ∧
    (∀ d ∈ due.filter (fun d => d.2 ≠ e) ++ [(p, e)], d.2 = e → d.1 = p) ∧
    ∀ d : Nat × Nat, d.2 ≠ e → (d ∈ due.filter (fun d => d.2 ≠ e) ++ [(p, e)] ↔ d ∈ due) := by
  refine ⟨by simp, fun d hd he => ?_, fun d hd => ?_⟩
  · rcases List.mem_append.1 hd with hold | hnew
    · exact absurd he (of_decide_eq_true (List.mem_filter.1 hold).2)
    · rw [List.mem_singleton.1 hnew]
  · have hne : d ≠ (p, e) := fun heq => hd (congrArg Prod.snd heq)
    simp [hd, hne]

theorem periodWrite_gives {s : State} {v : Nat} {req : Requester} (hidle : s.imageLoaded = false)
    (hmay : s.loadRun = none ∨ byKeeper req = true) (hstep : s.beaconStepDone = true) (hlow : 10000 ≤ bits v 19 0) (hhigh : bits v 19 0 ≤ 1000000) :
    Gives (.bcnPeriodWrite req v) s fun s' => (bits v 19 0, s.stationWatch + 2) ∈ s'.periodWrites ∧
      (∀ d ∈ s'.periodWrites, d.2 = s.stationWatch + 2 → d.1 = bits v 19 0) ∧
      (∀ d, d.2 ≠ s.stationWatch + 2 → (d ∈ s'.periodWrites ↔ d ∈ s.periodWrites)) ∧ s'.regs = s.regs ∧ s'.fields = s.fields := by
  have hok : ¬ (s.imageLoaded = true ∨ (s.loading = true ∧ byKeeper req = false) ∨ s.beaconStepDone = false ∨
      within 10000 1000000 (bits v 19 0) = false) := by
    rw [hidle, hstep]
    have hin : within 10000 1000000 (bits v 19 0) = true := by simp [within, hlow, hhigh]
    rw [hin]
    rcases hmay with hnone | hkeeper
    · simp [State.loading, hnone]
    · simp [hkeeper]
  refine gives_next (by rw [show exec (.bcnPeriodWrite req v) s = execBcnPeriodWrite req v s from rfl, execBcnPeriodWrite, if_neg hok]) ?_
  obtain ⟨hin, hone, hrest⟩ := due_replaced s.periodWrites (bits v 19 0) (s.stationWatch + 2)
  exact ⟨hin, hone, hrest, rfl, rfl⟩

theorem periodWrite_refused {s : State} {v : Nat} {req : Requester}
    (hbad : s.imageLoaded = true ∨ bits v 19 0 < 10000 ∨ 1000000 < bits v 19 0) : Gives (.bcnPeriodWrite req v) s fun s' =>
      s'.periodWrites = s.periodWrites ∧ s'.regs = s.regs ∧ Logged s s' evAccessRefused := by
  have hno : s.imageLoaded = true ∨ (s.loading = true ∧ byKeeper req = false) ∨ s.beaconStepDone = false ∨
      within 10000 1000000 (bits v 19 0) = false := by
    rcases hbad with hloaded | hlow | hhigh
    · exact .inl hloaded
    · exact .inr (.inr (.inr (by simp [within]; omega)))
    · exact .inr (.inr (.inr (by simp [within]; omega)))
  refine gives_next (by rw [show exec (.bcnPeriodWrite req v) s = execBcnPeriodWrite req v s from rfl, execBcnPeriodWrite, if_pos hno]) ?_
  exact ⟨(Marks.logEv (rs := []) ..).beyond_eq State.periodWrites fun _ => rfl, State.refuse_regs .., logEv_logged ..⟩

theorem settleWrite_gives {s : State} {v begun : Nat} {img : Image} {mbox : Option Nat}
    (hrun : s.loadRun = some { kind := .full, begun := begun, mbox := mbox }) (hcand : s.candidate = some img) (hlen : bits v 15 0 = img.settleLen) :
    Gives (.bcnSettleLenWrite (.keeper 64) v) s fun s' => (img.settleLen, s.stationWatch + 2) ∈ s'.settleDue ∧
      (∀ d ∈ s'.settleDue, d.2 = s.stationWatch + 2 → d.1 = img.settleLen) ∧
      (∀ d, d.2 ≠ s.stationWatch + 2 → (d ∈ s'.settleDue ↔ d ∈ s.settleDue)) ∧ s'.regs = s.regs ∧ s'.fields = s.fields := by
  refine gives_next (x := s.setSettle img.settleLen) ?_ ?_
  · rw [show exec (.bcnSettleLenWrite (.keeper 64) v) s = execBcnSettleLenWrite (.keeper 64) v s from rfl, execBcnSettleLenWrite, hrun, hcand]
    simp [hlen]
  · obtain ⟨hin, hone, hrest⟩ := due_replaced s.settleDue img.settleLen (s.stationWatch + 2)
    exact ⟨hin, hone, hrest, rfl, rfl⟩

theorem settleWrite_refused {s : State} {v : Nat} {req : Requester} (hrun : s.loadRun = none) : Gives (.bcnSettleLenWrite req v) s fun s' =>
    s'.settleDue = s.settleDue ∧ s'.regs = s.regs ∧ Logged s s' evAccessRefused := by
  refine gives_next (x := s.refuse 64 req 0x10010) ?_ ?_
  · rw [show exec (.bcnSettleLenWrite req v) s = execBcnSettleLenWrite req v s from rfl, execBcnSettleLenWrite, hrun]
    rfl
  · exact ⟨(Marks.logEv (rs := []) ..).beyond_eq State.settleDue fun _ => rfl, State.refuse_regs .., logEv_logged ..⟩

/-! ### The station's beacon -/

/-- What a beacon does not touch besides its own registers. -/
def State.beaten (s : State) : Nat × Nat × Smap Nat Byte := (s.now, s.lastBeacon, s.sram)

/-- Work at a beacon that leaves the clock, the last beacon, tile SRAM and the registers of `shown` as they were. -/
abbrev Beats (shown : List Reg) (s s' : State) : Prop := Holds State.beaten shown s s'

namespace Holds
variable {s₀ s s' : State}

theorem countVoids {k : Nat} (h : Beats [.bcnWatch, .bcnPeriod] s₀ s) : Beats [.bcnWatch, .bcnPeriod] s₀ (s.countVoids k) := by
  unfold State.countVoids
  split
  · exact h
  · exact .ite h.setSec.logEv.dueDrain h.setSec

theorem setPlanField {f : Nat} {x : PlanField} (h : Beats [.bcnWatch, .bcnPeriod] s₀ s) : Beats [.bcnWatch, .bcnPeriod] s₀ (s.setPlanField f x) :=
  h.set

theorem closeWatch (h : Beats [.bcnWatch, .bcnPeriod] s₀ s) : Beats [.bcnWatch, .bcnPeriod] s₀ s.closeWatch :=
  (h.each fun _ _ h => h.updSec.countVoids).each fun _ _ h => .ite h.setPlanField (.ite h h.setPlanField)

theorem finishOp_beats {op : MboxOp} {status : Nat} {results : List Nat} (h : Beats [.bcnWatch, .bcnPeriod] s₀ s) :
    Beats [.bcnWatch, .bcnPeriod] s₀ (s.finishOp op status results) := by
  obtain ⟨hkeep, -⟩ := finishOp_spec s op status results
  refine h.trans ⟨hkeep.eq_of State.beaten (·.beaten) fun _ => rfl, fun r u k hr => hkeep.regs r u k ?_⟩
  have hall : ∀ r ∈ [Reg.bcnWatch, .bcnPeriod], r ∉ [Reg.hstMboxStatus, .hstMboxResult] := by decide
  exact hall r hr

theorem stopNone (h : Beats [.bcnWatch, .bcnPeriod] s₀ s) : Beats [.bcnWatch, .bcnPeriod] s₀ { s with stopAt := none } := h.set

theorem stopDue {n : Nat} (h : Beats [.bcnWatch, .bcnPeriod] s₀ s) : Beats [.bcnWatch, .bcnPeriod] s₀ (s.stopDue n) := by
  unfold State.stopDue
  split
  · exact .ite h.sf.stopNone.finishOp_beats h
  · exact h

theorem takePeriod {w : Nat} (h : Beats [.bcnWatch] s₀ s) : Beats [.bcnWatch] s₀ (s.takePeriod w) := by
  unfold State.takePeriod
  extract_lets due s1 s2
  have h1 : Beats [.bcnWatch] s₀ s1 := h.each fun _ _ h => h.sf
  clear_value s1
  have h2 : Beats [.bcnWatch] s₀ s2 := .ite h1 h1.set
  clear_value s2
  split
  · exact h2
  · next p e _ =>
    extract_lets a b c
    have ha : Beats [.bcnWatch] s₀ a := h2.sf
    clear_value a
    have hb : Beats [.bcnWatch] s₀ b := ha.set
    clear_value b
    exact .ite h2 (Holds.sf hb.wr)

theorem takeSettle {w : Nat} (h : Beats [.bcnWatch] s₀ s) : Beats [.bcnWatch] s₀ (s.takeSettle w) := by
  unfold State.takeSettle
  extract_lets due s1
  have h1 : Beats [.bcnWatch] s₀ s1 := h.each fun _ _ h => h.sf
  clear_value s1
  exact .ite h1 h1.set

theorem shiftSelections {w : Nat} (h : Beats [.bcnWatch] s₀ s) : Beats [.bcnWatch] s₀ (s.shiftSelections w) := by
  unfold State.shiftSelections
  extract_lets s1
  have h1 : Beats [.bcnWatch] s₀ s1 := h.each fun _ _ h => h.updSec
  clear_value s1
  refine h1.each fun s k h => ?_
  split
  · exact h
  · exact .ite h.setSec h

theorem intakeBlock_beats {b : Nat} (h : Beats [.bcnWatch] s₀ s) : Beats [.bcnWatch] s₀ (s.intakeBlock b) :=
  h.trans ⟨(intakeBlock_keeps s b).eq_of State.beaten (·.beaten) fun _ => rfl, fun r u k _ => (intakeBlock_keeps s b).regs r u k List.not_mem_nil⟩

theorem beaconStep (h : Beats [.bcnWatch] s₀ s) : Beats [.bcnWatch] s₀ s.beaconStep := by
  refine .ite (h.trans ⟨(stepDone_keeps s 6).eq_of State.beaten (·.beaten) fun _ => rfl, fun r u k hr => (stepDone_keeps s 6).regs r u k ?_⟩) h
  rw [List.mem_singleton.1 hr]
  decide

end Holds

/-- The beacon of watch `n + 1` sent. -/
def State.sendBeacon (s : State) (n : Nat) : State :=
  { s.sf F.bcnWatch_watch 0 0 (n + 1) with lastBeacon := s.lastBeacon + s.gf F.bcnPeriod_period }

theorem stationBeacon_gives {s : State} (hruns : s.flag F.bcnStatus_running = true) : Gives .stationBeacon s fun s' =>
    s'.gf F.bcnWatch_watch = (s.stationWatch + 1) % 2 ^ 48 ∧ s'.lastBeacon = s.lastBeacon + s.gf F.bcnPeriod_period ∧
    s.lastBeacon + s.gf F.bcnPeriod_period ≤ s'.now ∧ s'.sram = s.sram := by
  have heq : exec .stationBeacon s = .next ((((((((s.advanceTo (s.lastBeacon + s.gf F.bcnPeriod_period)).closeWatch.stopDue
      s.stationWatch).sendBeacon s.stationWatch).takePeriod (s.stationWatch + 1)).takeSettle (s.stationWatch + 1)).intakeBlock 64).shiftSelections
        (s.stationWatch + 1)).beaconStep) := by
    rw [show exec .stationBeacon s = execStationBeacon s from rfl, execStationBeacon, if_neg (by rw [hruns]; decide)]
    rfl
  refine gives_next heq ?_
  have hbefore : Beats [.bcnWatch, .bcnPeriod] (s.advanceTo (s.lastBeacon + s.gf F.bcnPeriod_period))
      ((s.advanceTo (s.lastBeacon + s.gf F.bcnPeriod_period)).closeWatch.stopDue s.stationWatch) := (Holds.refl _).closeWatch.stopDue
  generalize (s.advanceTo (s.lastBeacon + s.gf F.bcnPeriod_period)).closeWatch.stopDue s.stationWatch = a at hbefore
  obtain ⟨hnow, hlast, hsram⟩ : a.now = max s.now (s.lastBeacon + s.gf F.bcnPeriod_period) ∧ a.lastBeacon = s.lastBeacon ∧ a.sram = s.sram :=
    ⟨congrArg (·.1) hbefore.view, congrArg (·.2.1) hbefore.view, congrArg (·.2.2) hbefore.view⟩
  have hperiod : a.gf F.bcnPeriod_period = s.gf F.bcnPeriod_period := hbefore.gf_eq ..
  have hafter : Beats [.bcnWatch] (a.sendBeacon s.stationWatch) ((((((a.sendBeacon s.stationWatch).takePeriod (s.stationWatch + 1)).takeSettle
      (s.stationWatch + 1)).intakeBlock 64).shiftSelections (s.stationWatch + 1)).beaconStep) :=
    (Holds.refl _).takePeriod.takeSettle.intakeBlock_beats.shiftSelections.beaconStep
  have hwatch : (a.sendBeacon s.stationWatch).gf F.bcnWatch_watch = (s.stationWatch + 1) % 2 ^ 48 :=
    State.gf_sf_self a F.bcnWatch_watch 0 0 (s.stationWatch + 1) (by decide) (by rfl : _ = 2 ^ 48)
  have hsent : (a.sendBeacon s.stationWatch).beaten = (a.now, a.lastBeacon + a.gf F.bcnPeriod_period, a.sram) := rfl
  generalize ((((((a.sendBeacon s.stationWatch).takePeriod (s.stationWatch + 1)).takeSettle
      (s.stationWatch + 1)).intakeBlock 64).shiftSelections (s.stationWatch + 1)).beaconStep) = b at hafter
  have hview := hafter.view.trans hsent
  refine ⟨(hafter.gf_eq ..).trans hwatch, (congrArg (·.2.1) hview :).trans (by rw [hlast, hperiod]), ?_,
    (congrArg (·.2.2) hview :).trans hsram⟩
  have hthen : b.now = a.now := (congrArg (·.1) hview :)
  rw [hthen, hnow]
  exact Nat.le_max_right ..

end Sys2Proof.Machine
end
